-- ==== Sys2Proof/Word.lean ====
section
/-! DEFINITION. The word types of the device, which has no byte addresses (R2), and the type of the
sparse tables that hold everything the device has many of. -/
namespace Sys2Proof

/-- A 16-bit word, the smallest thing with an address (R2). -/
abbrev Word := BitVec 16
/-- A byte inside a word or a message (R77). -/
abbrev Byte := BitVec 8
/-- A 2-word value: a register, a word address, a G register (R41, R42). -/
abbrev W32 := BitVec 32
/-- An 8-word value: a V register (R41). -/
abbrev W128 := BitVec 128
/-- An accumulator: four 72-bit lanes (R41, R94). -/
abbrev Acc := BitVec 288

/-- A sparse table: keys strictly rising, and no entry equal to what an unlisted key reads as. -/
abbrev Table (β : Type) := List (Nat × β)

end Sys2Proof
end

