-- ==== Sys2Proof/Syntax.lean ====
section
/-! DEFINITION. The commands the device takes, one constructor for each row of the spec's table of
operations and events, with the operands the row's event brings with it. -/
namespace Sys2Proof

/-- The transport address of a session (R448). -/
inductive Transport where
  | can (chan src : Nat)          -- CAN FD channel and source address (R454)
  | udp (port ip uport : Nat)     -- Ethernet port, source IPv4 and UDP port (R455)
  | spi                           -- the host SPI port (R456)
  deriving DecidableEq, Repr

/-- How a message reached the device (R454 to R456): a CAN FD channel, whether the frame is an FD frame, and its 29-bit identifier; an
Ethernet port and the datagram's source; or an SPI transaction's opcode and length. -/
inductive Arrival where
  | can (chan : Nat) (fd : Bool) (ident : Nat)
  | udp (port ip uport : Nat)
  | spi (opcode length : Nat)
  deriving DecidableEq, Repr

/-- What a gPTP message carries (R395, IEEE 802.1AS-2020). -/
inductive PtpBody where
  | announce (prio1 cls acc var prio2 gm : Nat)
  | sync (twoStep : Bool) (origin : Nat)   -- origin: ns of the grandmaster; meaningful in one-step form
  | followUp (origin : Nat)
  | pdelayReq (seq : Nat)
  | pdelayResp (seq t2 : Nat)
  | pdelayRespFollowUp (seq t3 : Nat)
  | signaling (syncInt pdelayInt : Int)
  deriving DecidableEq, Repr

/-- An AAF packet (R406). -/
structure AafPacket where
  streamId : Nat
  version : Nat
  sv : Bool
  tv : Bool
  mr : Bool
  tu : Bool
  format : Nat
  nsr : Nat
  channels : Nat
  bitDepth : Nat
  seqNum : Nat
  timestamp : Nat
  payload : List Byte
  deriving DecidableEq, Repr

/-- A CRF packet (R407). -/
structure CrfPacket where
  streamId : Nat
  version : Nat
  sv : Bool
  kind : Nat
  pull : Nat
  baseFreq : Nat
  interval : Nat
  seqNum : Nat
  timestamps : List Nat
  deriving DecidableEq, Repr

/-- An RTP packet (R408). -/
structure RtpPacket where
  version : Nat
  payloadType : Nat
  seqNum : Nat
  timestamp : Nat
  ssrc : Nat
  payload : List Byte
  deriving DecidableEq, Repr

/-- What a UDP datagram carries, by the consumer its destination port can name (R392). -/
inductive UdpBody where
  | rtp (p : RtpPacket)
  | raw (bytes : List Byte)
  deriving DecidableEq, Repr

/-- What a received frame carries (R392). -/
inductive FrameBody where
  | ptp (domain : Nat) (m : PtpBody)
  | aaf (p : AafPacket)
  | crf (p : CrfPacket)
  | udp (srcIp dstIp srcPort dstPort : Nat) (fragment headerOk checksumOk : Bool) (b : UdpBody)
  | arpRequest (target senderIp : Nat)
  | icmpEcho (srcIp dstIp : Nat) (payload : List Byte)
  | igmpQuery (group : Nat)         -- group 0: a general query
  | other
  deriving DecidableEq, Repr

/-- A frame on the wire, by the fields R390 to R394 and R410 look at. -/
structure EthFrame where
  length : Nat
  fcsOk : Bool
  vlanTags : Nat
  vid : Nat
  pause : Bool
  srcMac : Nat
  dstMac : Nat
  body : FrameBody
  deriving DecidableEq, Repr

/-- A bank and one of its ports (R278, R281): memory kind 0 LDM, 1 CIM, 2 lead memory, 3 CSM, 4 GSM,
5 DRAM (the numbers m of R328), the instance, the bank and the port. -/
structure PortId where
  kind : Nat
  inst : Nat
  bank : Nat
  portB : Bool
  deriving DecidableEq, Repr

/-- A row that the march of SELFTEST finds failing: its bank, its repair row there, and the failing operation, 1 to 10 (R336,
R337). -/
structure FailRow where
  kind : Nat
  inst : Nat
  bank : Nat
  row : Nat
  op : Nat
  deriving DecidableEq, Repr
/-- What the march of SELFTEST finds: its failing rows, and the units, by power domain, that it otherwise could not repair. -/
structure MarchFound where
  units : List Nat
  rows : List FailRow
  deriving DecidableEq, Repr

/-- The commands. An operand `c` is a processor by its master identity (0-71 slots, 72-75 leads), `m` the
identity of the master that makes a store, `v` the 32-bit value it stores. -/
inductive Instr where
  -- coaches
  | bundleIssue (c : Nat)
  | fetchDecode (c : Nat)
  | resultLands (c : Nat)
  | accessAccepted (c : Nat) (extra : Nat)
  | blkElement (c : Nat)
  | vfirbGroup (c : Nat)
  | ketchModeSwitch (c : Nat)
  | ketchNop (c : Nat)
  | move (c : Nat)
  | ldi (c : Nat)
  | ldhi (c : Nat)
  | ketchAdd (c : Nat)
  | ketchSub (c : Nat)
  | ketchMul (c : Nat)
  | ketchAddi (c : Nat)
  | ketchAnd (c : Nat)
  | ketchOr (c : Nat)
  | ketchXor (c : Nat)
  | ketchShl (c : Nat)
  | ketchShr (c : Nat)
  | ketchSar (c : Nat)
  | ketchSeq (c : Nat)
  | ketchSlt (c : Nat)
  | cvt (c : Nat)
  | mktag (c : Nat)
  | tagof (c : Nat)
  | ld (c : Nat)
  | st (c : Nat)
  | ldraw (c : Nat)
  | straw (c : Nat)
  | frame (c : Nat)
  | ketchBz (c : Nat)
  | ketchBnz (c : Nat)
  | ketchB (c : Nat)
  | jmp (c : Nat)
  | ketchCall (c : Nat)
  | ketchCallr (c : Nat)
  | ketchRet (c : Nat)
  | kcall (c : Nat)
  | kret (c : Nat)
  | ksys (c : Nat)
  | kbrk (c : Nat)
  | keret (c : Nat)
  | eventTaken (c : Nat)
  | holdOverrun (c : Nat)
  | subnormalTrap (c : Nat)
  | exceptionEntry (c : Nat)
  | coachStart (c : Nat)
  | holdMaxRead (c : Nat)
  -- carts and the dispatchers
  | handoverWait (c : Nat)
  | waitHeartbeat (c : Nat)
  | jobEnd (c : Nat)
  | jobStart (c : Nat)
  | heartbeatStore (c : Nat)
  | timeRelease (cart : Nat)
  | heldRelease (cart : Nat)
  | graphRelease (cart : Nat)
  | jobWithdrawn (cart : Nat)
  | budgetOverrun (c : Nat)
  | graceExpired (c : Nat)
  | hitchSearch (n : Nat)
  | crossClusterSearch (n : Nat)
  | heartbeatSample
  | failover (n : Nat) (offReported spareOk : Bool) (outageUs : Nat)
  | recommission (pass : Bool)
  | admitTable
  | admitRunEntry
  | withdraw
  -- interrupt controller and claims
  | sourceEvent (n : Nat) (signal : Bool)
  | gatherTimeout (n : Nat)
  | icSwset (m : Nat) (v : W32)
  | icComp (m : Nat) (v : W32)
  | sourceDisable (m n : Nat) (v : W32)
  | claimUnit (m addr : Nat)
  | releaseClaim (m addr : Nat)
  -- timer block
  | counterTick (k : Nat)
  | counterWrap (k : Nat)
  | matchEvent (k : Nat)
  | freezeStop (m : Nat)
  | freezeStart (m : Nat)
  | tmCntStore (m k : Nat) (v : W32)
  | tmCntLoad (m k : Nat)
  | tmCmpStore (m k : Nat) (v : W32)
  | menEnable (m k : Nat)
  -- memories and stored-data protection
  | bankArbitration (p : PortId)
  | writeOut (p : PortId)
  | correctionWriteBack (kind inst bank : Nat)
  | pageReconstruction (kind inst bank : Nat)
  | remap (kind inst line : Nat)
  | scrubPageStart (kind inst : Nat)
  | scrubRead (kind inst : Nat)
  | marchStart
  | marchRow (failOp : Nat)
  | marchComplete (failing : List (Nat × Nat))
  | fuseProgram
  | fuseEntryDone (readbackOk : Bool)
  | vppRemoved
  | injectionArm (m : Nat) (v : W32)
  | logWrite
  | tailStore (m : Nat) (v : W32)
  | loadPortWrite (m : Nat) (v : W32)
  | loadPortRead (m : Nat) (v : W32)
  | loadPortDone
  | regionWrite (m : Nat) (sup : Bool) (addr : Nat) (v : W32)
  | dramPark
  | parkComplete
  | dramUnpark
  -- media clocks, ports, wagons, ASRC, express
  | sampleEdge (k : Nat)
  | mediaClockEnable (m k : Nat) (v : W32)
  | mediaClockDisable (m k : Nat) (v : W32)
  | referenceLost (k : Nat)
  | referenceReturn (k : Nat)
  | lockAchieved (k : Nat)
  | countLatchRead (m addr : Nat)
  | frameSync (p : Nat) (far : Bool) (count : Nat)
  | frameCaptured (p : Nat) (samples : List W32)
  | noclk (p : Nat)
  | bclkReturn (p : Nat)
  | portEnable (m p : Nat) (v : W32)
  | portDisable (m p : Nat) (v : W32)
  | formatStore (m p : Nat) (v : W32)
  | pdmControlStore (m i : Nat) (v : W32)
  | wagonEnable (m n w : Nat) (v : W32)
  | wagonDisable (m n w : Nat) (v : W32)
  | blockReady (n w : Nat)
  | lineMove (n : Nat)
  | concealment (n w : Nat)
  | asrcStreamEnable (m n t : Nat) (v : W32)
  | asrcStreamDisable (m n t : Nat) (v : W32)
  | asrcDelayStore (m n t : Nat) (v : W32)
  | asrcOutputBlock (n t : Nat)
  | asrcLock (n t : Nat) (ratio : W32)
  | asrcUnlock (n t : Nat)
  | expressInputPair
  | expressOutput
  -- network
  | frameReceive (e : Nat) (f : EthFrame)
  | syncReceiptTimeout (d : Nat)
  | syncTransmit (d : Nat)
  | pdelayRequest (d : Nat)
  | listenerLost (x : Nat)
  | talkerLaunch (x : Nat)
  | frameTransmit (e : Nat)
  | gateIntervalEnd (e : Nat)
  | gateChangeRequest (m e : Nat) (v : W32)
  | gateListChange (e : Nat)
  | contextEnable (m e : Nat) (v : W32)
  | contextDisable (m e : Nat) (v : W32)
  | rebind (m e : Nat) (v : W32)
  | linkDown (e : Nat)
  | linkUp (e : Nat)
  | mdioCommand (result : Word)
  -- parameter protocol
  | requestArrival (a : Arrival) (bytes : List Byte)
  | spiRead
  | read
  | write
  | status
  | claim
  | heartbeat
  | handover
  | release
  | electionEnd
  | ownerLapse
  | sessionClose (t : Transport)
  | transferTimeout (t : Transport)
  | svcClaim
  | svcProve
  | challengeExpiry
  | svcEnd
  | serviceLapse
  | serviceEnDeassert
  | safeCommand
  | configCommand
  | resourceClaim
  | resourceRelease
  | clearReportCounts
  | commSettingsApply
  | rwpPersist (ok : Bool)
  -- black box and supply events
  | ringWrite
  | bbInCommit (m : Nat) (v : W32)
  | manualTrigger
  | rearm
  | ownerNote
  | copySlotErase
  | lostPeriodSummary
  | pfailAssert
  | pfailRelease
  | dipEnd
  -- reset and boot
  | powerOnReset
  | resetNAssert
  | l0HaltReset
  | watchdogExpiry
  | watchdogKick (m : Nat) (v : W32)
  | thermalTrip
  | pllLockLost
  | resetRelease
  | selftestComplete (found : MarchFound)
  | bootComplete
  -- power, voltage, clocks
  | domainRequest (d req : Nat)
  | domainTransitionDone (d : Nat)
  | avsReadback (mv amps : Nat) (responded : Bool)
  | voltageStepDown
  | marginMeasure (margins : List Nat)
  | vAgeStore
  | supplyAlarm (code rail : Nat)
  | thermalAlarm (sensor temp : Nat)
  | clusterClockSet (k mult : Nat)
  | registerWrite (m : Nat) (sup : Bool) (addr : Nat) (v : W32)
  | thermalAlarmEnd
  | rearmComplete
  | canErrorStateChange (c : Nat)
  | pendingRepairListStore
  deriving DecidableEq, Repr

end Sys2Proof
end

