-- ==== Sys2Proof/Machine/Bits.lean ====
section
/-! DEFINITION. Bit fields, sign extension, saturation and the other small arithmetic that every chapter
of the spec shares, on exact numbers that are narrowed explicitly at the end. -/
namespace Sys2Proof.Machine

/-- Field of `w` bits of a number, from bit `lo` (R9). -/
def fld (x lo w : Nat) : Nat := (x >>> lo) % 2 ^ w
/-- Bit `i` of a number. -/
def bitN (x i : Nat) : Bool := x.testBit i
/-- 1 for true. -/
def b2n (b : Bool) : Nat := if b then 1 else 0
/-- `x` with its field of `w` bits at `lo` replaced by `v`. -/
def setFld (x lo w v : Nat) : Nat :=
  x % 2 ^ lo + (v % 2 ^ w) * 2 ^ lo + (x >>> (lo + w)) * 2 ^ (lo + w)
/-- Field of a register. -/
def rfld (x : W32) (lo w : Nat) : Nat := fld x.toNat lo w
/-- Bit of a register. -/
def rbit (x : W32) (i : Nat) : Bool := x.getLsbD i
/-- A register with one field replaced. -/
def setR (x : W32) (lo w v : Nat) : W32 := BitVec.ofNat 32 (setFld x.toNat lo w v)
/-- The number of `w` bits read as two's complement (R8). -/
def sx (w x : Nat) : Int := if 2 * (x % 2 ^ w) < 2 ^ w then (x % 2 ^ w : Nat) else ((x % 2 ^ w : Nat) : Int) - ((2 ^ w : Nat) : Int)
/-- An integer wrapped to `w` bits. -/
def wrapN (w : Nat) (i : Int) : Nat := (i % ((2 ^ w : Nat) : Int)).toNat
/-- An integer as a register. -/
def w32 (i : Int) : W32 := BitVec.ofInt 32 i
/-- A natural number as a register. -/
def n32 (i : Nat) : W32 := BitVec.ofNat 32 i
/-- A register read as a signed number. -/
def s32 (x : W32) : Int := x.toInt
/-- Largest and smallest signed numbers of `w` bits. -/
def maxS (w : Nat) : Int := ((2 ^ (w - 1) : Nat) : Int) - 1
def minS (w : Nat) : Int := -((2 ^ (w - 1) : Nat) : Int)
/-- Signed saturation to `w` bits, and whether it changed the value. -/
def satS (w : Nat) (i : Int) : Int := if i > maxS w then maxS w else if i < minS w then minS w else i
def satSd (w : Nat) (i : Int) : Bool := decide (i > maxS w) || decide (i < minS w)
/-- Unsigned saturation to `w` bits. -/
def satU (w : Nat) (i : Int) : Int := if i < 0 then 0 else if i ≥ ((2 ^ w : Nat) : Int) then ((2 ^ w : Nat) : Int) - 1 else i
/-- Saturating counter of `w` bits. -/
def incSat (w x : Nat) : Nat := if x + 1 < 2 ^ w then x + 1 else 2 ^ w - 1
/-- Division rounded up. -/
def cdiv (a b : Nat) : Nat := (a + b - 1) / b
/-- Numbers below `n`, rising. -/
def upto (n : Nat) : List Nat := List.range n
/-- Number of ones of the low `w` bits. -/
def popN : Nat → Nat → Nat
  | 0, _ => 0
  | w + 1, x => b2n (x.testBit w) + popN w x
/-- Exclusive or of the low `w` bits. -/
def parityN (w x : Nat) : Bool := popN w x % 2 = 1
/-- Index of the highest bit set below `w`, plus 1; 0 if none. -/
def topBit : Nat → Nat → Nat
  | 0, _ => 0
  | w + 1, x => if x.testBit w then w + 1 else topBit w x
/-- Index of the lowest bit set below `w`; `w` if none. -/
def lowBit (w x : Nat) : Nat := ((List.range w).find? (fun i => x.testBit i)).getD w
/-- The low `w` bits in reverse order. -/
def revBits (w x : Nat) : Nat := (List.range w).foldl (fun r i => r + (b2n (x.testBit i)) * 2 ^ (w - 1 - i)) 0
/-- The words of a number, the least significant first (R2: lower address, less significant). -/
def wordsOf : Nat → Nat → List Word
  | 0, _ => []
  | n + 1, x => BitVec.ofNat 16 x :: wordsOf n (x >>> 16)
/-- The number whose words are given, the least significant first. -/
def ofWords : List Word → Nat
  | [] => 0
  | w :: r => w.toNat + 65536 * ofWords r
/-- The bytes of a number, the least significant first (R452). -/
def bytesOf : Nat → Nat → List Byte
  | 0, _ => []
  | n + 1, x => BitVec.ofNat 8 x :: bytesOf n (x >>> 8)
/-- The number whose bytes are given, the least significant first. -/
def ofBytes : List Byte → Nat
  | [] => 0
  | b :: r => b.toNat + 256 * ofBytes r
/-- 2-word values as one number, the first at the lowest address (R42). -/
def valsNum (l : List W32) : Nat := l.foldr (fun v r => v.toNat + 2 ^ 32 * r) 0
/-- The words of a list of bytes: byte 2m is bits [15:8] of word m (R77). -/
def packBytes : List Byte → List Word
  | a :: b :: r => (BitVec.ofNat 16 (256 * a.toNat + b.toNat)) :: packBytes r
  | [a] => [BitVec.ofNat 16 (256 * a.toNat)]
  | [] => []
/-- The bytes of a list of words (R77). -/
def unpackWords (l : List Word) : List Byte :=
  l.flatMap (fun w => [BitVec.ofNat 8 (w.toNat >>> 8), BitVec.ofNat 8 w.toNat])
/-- A step of CRC-32 over one byte (IEEE 802.3, bit-reflected polynomial 0xEDB88320). -/
def crcByte (c b : Nat) : Nat :=
  (List.range 8).foldl (fun c _ => if c % 2 = 1 then (c >>> 1) ^^^ 0xEDB88320 else c >>> 1) (c ^^^ b)
/-- The CRC-32 of bytes: start all ones, result inverted. -/
def crc32 (l : List Byte) : Nat :=
  (l.foldl (fun c b => crcByte c b.toNat) 0xFFFFFFFF) ^^^ 0xFFFFFFFF
/-- Integer square root by bisection on bits. -/
def isqrtGo : Nat → Nat → Nat → Nat
  | 0, _, r => r
  | n + 1, x, r => let t := r + 2 ^ n; if t * t ≤ x then isqrtGo n x t else isqrtGo n x r
/-- The largest number whose square is at most `x`, for `x` below 2^(2n). -/
def isqrt (n x : Nat) : Nat := isqrtGo n x 0
/-- The largest of a list of numbers, 0 for none. -/
def maxL (l : List Nat) : Nat := l.foldl Nat.max 0
/-- Lexicographic order of lists of numbers. -/
def lexLt : List Nat → List Nat → Bool
  | [], [] => false
  | [], _ => true
  | _, [] => false
  | a :: r, b :: q => if a < b then true else if b < a then false else lexLt r q
/-- The element of a list that comes first under `key`. -/
def minBy {α : Type} (key : α → List Nat) : List α → Option α
  | [] => none
  | a :: r =>
    match minBy key r with
    | none => some a
    | some b => if lexLt (key b) (key a) then some b else some a
/-- A list in the order of `lt`, equal elements kept in order. -/
def sortIns {α : Type} (lt : α → α → Bool) (a : α) : List α → List α
  | [] => [a]
  | b :: r => if lt a b then a :: b :: r else b :: sortIns lt a r
def sortBy {α : Type} (lt : α → α → Bool) (l : List α) : List α := l.foldl (fun r a => sortIns lt a r) []
/-- A list with the element at place `i` replaced. -/
def setAt {α : Type} (l : List α) (i : Nat) (a : α) : List α := l.set i a

end Sys2Proof.Machine
end

