-- ==== Sys2Proof/Machine/Table.lean ====
section
/-! DEFINITION. Sparse tables in canonical form: keys strictly rising, no entry equal to the default. -/
namespace Sys2Proof.Machine

/-- What key `k` holds; `d` where it is not listed. -/
def tget {β : Type} (d : β) : Table β → Nat → β
  | [], _ => d
  | (i, v) :: r, k => if i = k then v else tget d r k

/-- A table without key `k`. -/
def terase {β : Type} : Table β → Nat → Table β
  | [], _ => []
  | (i, v) :: r, k => if i = k then terase r k else (i, v) :: terase r k

/-- A table with key `k` put in its place among the rising keys. -/
def tins {β : Type} (k : Nat) (v : β) : Table β → Table β
  | [] => [(k, v)]
  | (i, u) :: r => if k < i then (k, v) :: (i, u) :: r else (i, u) :: tins k v r

/-- A write of `v` to key `k`; a write of the default removes the entry. -/
def tput {β : Type} [DecidableEq β] (d : β) (t : Table β) (k : Nat) (v : β) : Table β :=
  if v = d then terase t k else tins k v (terase t k)

/-- A change of what key `k` holds. -/
def tmod {β : Type} [DecidableEq β] (d : β) (t : Table β) (k : Nat) (f : β → β) : Table β :=
  tput d t k (f (tget d t k))

/-- The keys of a table that are below `hi` and at least `lo`. -/
def tkeys {β : Type} (t : Table β) (lo hi : Nat) : List Nat :=
  (t.map (fun e => e.1)).filter (fun k => lo ≤ k && k < hi)

/-- The table without its keys from `lo` to below `hi`. -/
def tclear {β : Type} (t : Table β) (lo hi : Nat) : Table β :=
  t.filter (fun e => !(lo ≤ e.1 && e.1 < hi))

/-- Keys all above `k`, strictly rising. -/
def trising {β : Type} : Nat → Table β → Bool
  | _, [] => true
  | k, (i, _) :: r => decide (k ≤ i) && trising (i + 1) r

/-- The canonical form. -/
def twf {β : Type} [DecidableEq β] (d : β) (t : Table β) : Bool :=
  trising 0 t && t.all (fun e => !decide (e.2 = d))

/-- The canonical form where the default depends on the key. -/
def twfBy {β : Type} [DecidableEq β] (d : Nat → β) (t : Table β) : Bool :=
  trising 0 t && t.all (fun e => !decide (e.2 = d e.1))

/-- Consecutive keys from `k`, written with the values of a list. -/
def tputs {β : Type} [DecidableEq β] (d : β) : Table β → Nat → List β → Table β
  | t, _, [] => t
  | t, k, v :: r => tputs d (tput d t k v) (k + 1) r

/-- What the `n` consecutive keys from `k` hold. -/
def tgets {β : Type} (d : β) (t : Table β) (k n : Nat) : List β := (List.range n).map (fun i => tget d t (k + i))

end Sys2Proof.Machine
end

