-- ==== Sys2Proof/Machine/Emnos.lean ====
section
/-! DEFINITION. The Emnos operations and the decoding of syllables and bundles (chapter 02, R32 to R40, and
the encodings of chapters 03 to 07). -/
namespace Sys2Proof.Machine

/-- An operation of a bundle, with the fields its syllable gives. -/
inductive Op where
  | nop
  | brk
  | br (cond a : Nat) (off : Int)        -- conditions 0-5 of R158 on Ga; 6 always
  | jr (p : Nat)
  | loopI (k len count : Nat)
  | loopR (k len g : Nat)
  | call (off : Int)
  | callR (p : Nat)
  | ret (p : Nat) (viaP : Bool)
  | pflush
  | pbar (n : Nat)
  | syscall (n : Nat)
  | eret
  | alu (f d a : Nat) (imm : Bool) (b : Nat)
  | alui (f d imm : Nat)
  | bitf (f d a : Nat) (regf : Bool) (b5 len5 : Nat)
  | perm (d a b c : Nat)
  | vperm (d a b c : Nat)
  | div (f d a b : Nat)
  | movx (d a df sf lane : Nat)
  | mem (store : Bool) (d p sz mode : Nat) (sx : Bool) (opnd : Nat)
  | atom (d p sz : Nat) (swap : Bool) (b : Nat)
  | agu (f d a imm b : Nat)
  | macx (d a b op m : Nat) (bc : Bool) (j sg s : Nat)
  | macfir (d m a b j k : Nat) (z : Bool) (s : Nat)
  | lmsu (d c a b j k s : Nat)
  | cmac (d m a b p q r : Nat) (cj z : Bool) (s : Nat)
  | bfly (d m a t p s : Nat)
  | accx (f d a sh part m s : Nat)        -- sh carries X[15:9], part carries X[8:6]
  | flt (f d a b c : Nat)                 -- b carries X[15:11] for FTOI and ITOF; c carries X[11:8]
  | blkmov (s d n sz : Nat)
  | blkfill (v d n sz : Nat)
  | vfirb (x h y n c : Nat)
  deriving DecidableEq, Repr

/-- Slot classes (R38). -/
inductive Cls where
  | ctl | alu | ld | mac | sole
  deriving DecidableEq, Repr

/-- Class of an operation (Tables 3 and 4 of chapter 02). -/
def opCls : Op → Cls
  | .nop | .brk | .br .. | .jr .. | .loopI .. | .loopR .. | .call .. | .callR .. | .ret .. | .pflush | .pbar .. | .syscall .. | .eret => .ctl
  | .alu .. | .alui .. | .bitf .. | .perm .. | .vperm .. | .div .. | .movx .. => .alu
  | .mem .. | .atom .. | .agu .. => .ld
  | .macx .. | .macfir .. | .lmsu .. | .cmac .. | .bfly .. | .accx .. | .flt .. => .mac
  | .blkmov .. | .blkfill .. | .vfirb .. => .sole

/-- `o` if the condition holds, else a reserved encoding. -/
def okIf (c : Bool) (o : Op) : Option Op := if c then some o else none

/-- Short memory layout (R36): INC in [7:6], P in [5:3], data register in [2:0]; mode operand under R81. -/
def shortMem (store : Bool) (sz x : Nat) : Option Op :=
  let inc := fld x 6 2
  some (.mem store (fld x 0 3) (fld x 3 3) sz (if inc = 0 then 0 else 1) false
    (if inc = 0 then 0 else if inc = 1 then 1 else if inc = 2 then 2 else 4))

/-- Short MAC forms (R106): ACC in [7:6], Va in [5:3], Vb in [2:0]. -/
def shortMac (m s x : Nat) : Option Op := some (.macx (fld x 6 2) (fld x 3 3) (fld x 0 3) 0 m false 0 0 s)

/-- Short syllables (R36, Table 3; R71; R191). `x` is bits [7:0]. -/
def decShort (maj x : Nat) : Option Op :=
  let d := fld x 4 4
  let s := fld x 0 4
  let imm4 := wrapN 16 (sx 4 s)
  match maj with
  | 0x00 => if x = 0 then some .nop else if x = 1 then some .brk else none
  | 0x01 => some (.br 6 0 (sx 8 x))
  | 0x02 => some (.br 0 (fld x 5 3) (sx 5 x))
  | 0x03 => some (.br 1 (fld x 5 3) (sx 5 x))
  | 0x04 => some (.alu 0x05 d s true 0)
  | 0x05 => some (.movx d s 1 0 0)
  | 0x06 => some (.movx d s 0 1 0)
  | 0x07 => some (.alui 1 d imm4)
  | 0x08 => some (.alu 0x00 d d false s)
  | 0x09 => some (.alu 0x01 d d false s)
  | 0x0A => some (.alu 0x04 d d false s)
  | 0x0B => some (.alu 0x05 d d false s)
  | 0x0C => some (.alu 0x06 d d false s)
  | 0x0D => some (.alu 0x08 d d false s)
  | 0x0E => some (.alu 0x09 d d false s)
  | 0x0F => some (.alu 0x0A d d false s)
  | 0x10 => some (.alui 0 d imm4)
  | 0x11 => some (.alu 0x08 d d true s)
  | 0x12 => some (.alu 0x09 d d true s)
  | 0x13 => some (.alu 0x0A d d true s)
  | 0x14 => shortMem false 0 x
  | 0x15 => shortMem false 1 x
  | 0x16 => shortMem false 3 x
  | 0x17 => shortMem true 0 x
  | 0x18 => shortMem true 1 x
  | 0x19 => shortMem true 3 x
  | 0x1A => shortMac 0 0 x
  | 0x1B => shortMac 0 1 x
  | 0x1C => shortMac 1 0 x
  | 0x1D => shortMac 1 1 x
  | _ => none

/-- CTLX (R159, R191). -/
def decCtlx (x : Nat) : Option Op :=
  match fld x 0 4 with
  | 0 => okIf (fld x 22 2 < 3 && fld x 14 8 != 0) (.loopI (fld x 22 2) (fld x 14 8) (fld x 4 10))
  | 1 => okIf (fld x 22 2 < 3 && fld x 9 13 != 0) (.loopR (fld x 22 2) (fld x 9 13) (fld x 4 5))
  | 2 => okIf (fld x 20 4 = 0) (.call (sx 16 (fld x 4 16)))
  | 3 => okIf (fld x 4 16 = 0) (.callR (fld x 20 4))
  | 4 => okIf (fld x 4 15 = 0 && (bitN x 19 || fld x 20 4 = 0)) (.ret (fld x 20 4) (bitN x 19))
  | 5 => okIf (fld x 4 20 = 0) .pflush
  | 6 => okIf (fld x 12 12 = 0) (.pbar (fld x 4 8))
  | 7 => okIf (fld x 20 4 = 0) (.syscall (fld x 4 16))
  | 8 => okIf (fld x 4 20 = 0) .eret
  | _ => none

/-- BRL (R158). -/
def decBrl (x : Nat) : Option Op :=
  match fld x 16 3 with
  | 6 => okIf (fld x 19 5 = 0) (.br 6 0 (sx 16 x))
  | 7 => okIf (fld x 19 1 = 0 && fld x 0 16 = 0) (.jr (fld x 20 4))
  | c => some (.br c (fld x 19 5) (sx 16 x))

/-- ALU3 (R67). -/
def decAlu3 (x : Nat) : Option Op :=
  let f := fld x 4 5
  okIf (f < 0x1A && fld x 0 3 = 0 && (!(f = 0x16 || f = 0x17) || (fld x 9 5 = 0 && !bitN x 3)))
    (.alu f (fld x 19 5) (fld x 14 5) (bitN x 3) (fld x 9 5))

/-- BITF (R74, R76). -/
def decBitf (x : Nat) : Option Op :=
  let f := fld x 11 3
  let o : Op := .bitf f (fld x 19 5) (fld x 14 5) (bitN x 10) (fld x 5 5) (fld x 0 5)
  if f < 3 then okIf (!bitN x 10 || fld x 0 5 = 0) o
  else if f < 6 then okIf (fld x 0 11 = 0) o
  else none

/-- PERM and VPERM (R78). -/
def decPerm (x : Nat) : Option Op :=
  let d := fld x 19 5
  let a := fld x 14 5
  let b := fld x 9 5
  let c := fld x 4 5
  match fld x 0 4 with
  | 0 => some (.perm d a b c)
  | 1 => okIf (d < 16 && a < 16 && b < 16 && c < 16) (.vperm d a b c)
  | _ => none

/-- MOVX (R73): register numbers of P, N and V below 16, lanes below 4 with a V32 file. -/
def decMovx (x : Nat) : Option Op :=
  let d := fld x 19 5
  let a := fld x 14 5
  let df := fld x 11 3
  let sf := fld x 8 3
  let lane := fld x 5 3
  okIf (df < 7 && sf < 6 && fld x 0 5 = 0 && (df = 0 || d < 16) && (sf = 0 || a < 16) && (!(df = 3 || sf = 3) || lane < 4))
    (.movx d a df sf lane)

/-- LDX and STX (R79, R81). -/
def decMem (store : Bool) (x : Nat) : Option Op :=
  let d := fld x 19 5
  let sz := fld x 13 2
  let mode := fld x 10 3
  let o := fld x 0 9
  let dOk := if sz = 2 then d % 2 = 0 else if sz = 3 then d < 16 else true
  let sxOk := !bitN x 9 || (!store && sz = 0)
  let mOk := match mode with
    | 2 => fld o 0 5 = 0
    | 3 => o = 0
    | 4 => fld o 0 3 = 0
    | 6 => fld o 0 5 = 0
    | 7 => fld o 0 5 = 0
    | _ => true
  okIf (dOk && sxOk && mOk) (.mem store d (fld x 15 4) sz mode (bitN x 9) o)

/-- AGU (R88). -/
def decAgu (x : Nat) : Option Op :=
  let f := fld x 13 3
  let o : Op := .agu f (fld x 20 4) (fld x 16 4) (fld x 0 13) (fld x 9 4)
  if f = 0 || f = 2 || f = 5 then some o
  else if f = 1 || f = 3 || f = 4 then okIf (fld x 0 9 = 0) o
  else none

/-- MACX (R103, R105). -/
def decMacx (x : Nat) : Option Op :=
  let m := fld x 10 1
  let j := fld x 6 3
  okIf (fld x 11 2 != 3 && fld x 4 2 != 3 && (bitN x 9 || j = 0) && (m = 1 || j < 4) && fld x 1 3 = 0)
    (.macx (fld x 21 3) (fld x 17 4) (fld x 13 4) (fld x 11 2) m (bitN x 9) j (fld x 4 2) (fld x 0 1))

/-- MACF (R116). -/
def decMacf (x : Nat) : Option Op :=
  let d := fld x 21 3
  let s := fld x 0 1
  let m := fld x 20 1
  match fld x 1 3 with
  | 0 => okIf ((m = 1 || fld x 9 3 < 4) && fld x 5 4 ≤ (if m = 1 then 8 else 4))
      (.macfir d m (fld x 16 4) (fld x 12 4) (fld x 9 3) (fld x 5 4) (bitN x 4) s)
  | 1 => okIf (fld x 4 3 ≤ 4) (.lmsu d (fld x 17 4) (fld x 13 4) (fld x 9 4) (fld x 7 2) (fld x 4 3) s)
  | 2 => okIf (fld x 4 3 = 0)
      (.cmac d m (fld x 16 4) (fld x 12 4) (fld x 11 1) (fld x 10 1) (fld x 9 1) (bitN x 8) (bitN x 7) s)
  | 3 => okIf (fld x 4 8 = 0) (.bfly d m (fld x 16 4) (fld x 13 3) (fld x 12 1) s)
  | _ => none

/-- ACCX (R109, R110). -/
def decAccx (x : Nat) : Option Op :=
  let f := fld x 1 4
  let d := fld x 19 5
  let a := fld x 16 3
  let sh := fld x 9 7
  let part := fld x 6 3
  let m := fld x 5 1
  let s := fld x 0 1
  let o : Op := .accx f d a sh part m s
  let shOk := sh ≤ (if m = 1 then 35 else 71)
  let accd := d < 8
  match f with
  | 0 => okIf (shOk && (m = 1 || part < 4)) o
  | 1 => okIf (shOk && (m = 1 || part < 4)) o
  | 2 => okIf (shOk && d < 16 && part = 0) o
  | 3 => okIf (shOk && accd && fld x 6 2 = 0) o
  | 4 => okIf (accd && a = 0 && sh = 0 && part = 0 && m = 0 && s = 0) o
  | 5 => okIf (accd && sh = 0 && fld x 6 2 = 0) o
  | 6 => okIf (accd && a = 0 && fld x 9 3 = 0 && part = 0 && s = 0) o
  | 7 => okIf (sh = 0 && part = 0 && s = 0) o
  | 8 => okIf (fld x 11 5 = 0 && fld x 9 2 != 3 && part < 4 && m = 0 && s = 0) o
  | 9 => okIf (accd && a = 0 && fld x 9 2 != 3 && part < 4 && m = 0 && s = 0) o
  | _ => none

/-- FLT (R137): a field a function does not use must be 0. -/
def decFlt (x : Nat) : Option Op :=
  let f := fld x 3 5
  let d := fld x 20 4
  let a := fld x 16 4
  let b := fld x 12 4
  let c := fld x 8 4
  if fld x 0 3 != 0 then none
  else if f = 3 || f = 4 then some (.flt f d a b c)
  else if f = 0x07 || f = 0x08 || f = 0x09 then okIf (b = 0 && c = 0) (.flt f d a b c)
  else if f = 0x0E || f = 0x0F then okIf (fld x 8 3 = 0) (.flt f d a (fld x 11 5) 0)
  else if f = 0x10 || f = 0x11 then okIf (b = 0 && fld x 9 3 = 0) (.flt f d a 0 c)
  else if f < 0x0E then okIf (c = 0) (.flt f d a b c)
  else none

/-- BLK (R121, R207). -/
def decBlk (x : Nat) : Option Op :=
  match fld x 0 4 with
  | 0 => okIf (fld x 12 4 = 0 && fld x 4 2 = 0) (.blkmov (fld x 20 4) (fld x 16 4) (fld x 8 4) (fld x 6 2))
  | 1 => okIf (fld x 12 4 = 0 && fld x 4 2 = 0) (.blkfill (fld x 20 4) (fld x 16 4) (fld x 8 4) (fld x 6 2))
  | 2 => some (.vfirb (fld x 20 4) (fld x 16 4) (fld x 12 4) (fld x 8 4) (fld x 4 4))
  | _ => none

/-- Long syllables (R36, Table 4). `x` is X[23:0]. -/
def decLong (maj x : Nat) : Option Op :=
  match maj with
  | 0x00 => decCtlx x
  | 0x01 => decBrl x
  | 0x02 => decAlu3 x
  | 0x03 => some (.alui (fld x 16 3) (fld x 19 5) (fld x 0 16))
  | 0x04 => decBitf x
  | 0x05 => decPerm x
  | 0x06 => okIf (fld x 6 3 < 4 && fld x 0 6 = 0) (.div (fld x 6 3) (fld x 19 5) (fld x 14 5) (fld x 9 5))
  | 0x07 => decMovx x
  | 0x08 => decMem false x
  | 0x09 => decMem true x
  | 0x0A => okIf (fld x 0 8 = 0) (.atom (fld x 19 5) (fld x 15 4) (fld x 14 1) (bitN x 13) (fld x 8 5))
  | 0x0B => decAgu x
  | 0x0C => decMacx x
  | 0x0D => decMacf x
  | 0x0E => decAccx x
  | 0x0F => decFlt x
  | 0x10 => decBlk x
  | _ => none

/-- Class of a major opcode, which a reserved function code inside a defined group keeps (R36). -/
def majCls (long : Bool) (maj : Nat) : Option Cls :=
  if long then
    if maj ≤ 0x01 then some .ctl else if maj ≤ 0x07 then some .alu else if maj ≤ 0x0B then some .ld
    else if maj ≤ 0x0F then some .mac else if maj = 0x10 then some .sole else none
  else
    if maj ≤ 0x03 then some .ctl else if maj ≤ 0x13 then some .alu else if maj ≤ 0x19 then some .ld
    else if maj ≤ 0x1D then some .mac else none

/-- A syllable as it was read: its operation (none: reserved), its class, and its H bit. -/
structure Syll where
  op : Option Op
  cls : Option Cls
  h : Bool
  deriving DecidableEq, Repr

/-- A bundle as it was read: its syllables, the address of the word that follows it, whether a word of it
could not be fetched, and whether it ended with E = 1. -/
structure Bundle where
  sylls : List Syll
  next : Nat
  fetched : Bool
  ended : Bool
  deriving DecidableEq, Repr

/-- Read at most `n` syllables from word address `a` (R37): `fw` gives the word at an address, or none where
the coach cannot fetch. -/
def readBundle (fw : Nat → Option Word) : Nat → Nat → List Syll → Bundle
  | 0, a, acc => { sylls := acc.reverse, next := a % 2 ^ 32, fetched := true, ended := false }
  | n + 1, a, acc =>
    match fw (a % 2 ^ 32) with
    | none => { sylls := acc.reverse, next := (a + 1) % 2 ^ 32, fetched := false, ended := false }
    | some w0 =>
      let w := w0.toNat
      let maj := fld w 8 5
      if bitN w 15 then
        match fw ((a + 1) % 2 ^ 32) with
        | none => { sylls := acc.reverse, next := (a + 2) % 2 ^ 32, fetched := false, ended := false }
        | some w1 =>
          let sy : Syll := { op := decLong maj (fld w 0 8 * 65536 + w1.toNat), cls := majCls true maj, h := bitN w 13 }
          if bitN w 14 then { sylls := (sy :: acc).reverse, next := (a + 2) % 2 ^ 32, fetched := true, ended := true }
          else readBundle fw n (a + 2) (sy :: acc)
      else
        let sy : Syll := { op := decShort maj (fld w 0 8), cls := majCls false maj, h := bitN w 13 }
        if bitN w 14 then { sylls := (sy :: acc).reverse, next := (a + 1) % 2 ^ 32, fetched := true, ended := true }
        else readBundle fw n (a + 1) (sy :: acc)

/-- How many syllables of a class a bundle holds. -/
def clsCount (b : Bundle) (c : Cls) : Nat := (b.sylls.filter (fun s => s.cls = some c)).length

/-- The H bit of a bundle, that of its first syllable (R32). -/
def bundleHold (b : Bundle) : Bool := match b.sylls with | [] => false | s :: _ => s.h

/-- The operations of a bundle in order. -/
def bundleOps (b : Bundle) : List Op := b.sylls.filterMap (fun s => s.op)

/-- The lowest illegal-operation code of R39 that applies (R40, Table 9 of chapter 07), if any. -/
def bundleIllegal (b : Bundle) : Option Nat :=
  if b.sylls.any (fun s => s.op.isNone) then some 0x01
  else if clsCount b .ld > 2 || clsCount b .mac > 4 || clsCount b .alu > 1 || clsCount b .ctl > 1 then some 0x02
  else if (clsCount b .sole > 0 || (bundleOps b).any (fun o => o = .eret)) && b.sylls.length > 1 then some 0x03
  else if (b.sylls.drop 1).any (fun s => s.h) then some 0x04
  else if !b.ended then some 0x05
  else none

/-- Slots by class and position (R38): LD from 0, MAC from 2, ALU 6, CTL 7; a SOLE operation is given slot 0. -/
def placeOps : List Op → Nat → Nat → List (Nat × Op)
  | [], _, _ => []
  | o :: r, ld, mac =>
    match opCls o with
    | .ld => (ld, o) :: placeOps r (ld + 1) mac
    | .mac => (mac, o) :: placeOps r ld (mac + 1)
    | .alu => (6, o) :: placeOps r ld mac
    | .ctl => (7, o) :: placeOps r ld mac
    | .sole => (0, o) :: placeOps r ld mac

/-- A bundle's operations in their slots, in slot order for LD and MAC. -/
def bundleSlots (b : Bundle) : List (Nat × Op) := placeOps (bundleOps b) 0 2

end Sys2Proof.Machine
end

