-- ==== Sys2Proof/Config.lean ====
section
/-! DEFINITION. What the factory fuses fix, and the values the spec leaves open. A constant with no
body is a FREE VALUE: nothing in Lean can tell what it is, and every statement holds whatever it is. -/
namespace Sys2Proof.Config

/-- The four variants (R3). -/
inductive Variant where
  | fj9064 | fj9048 | fj9032 | fj9016
  deriving DecidableEq, Repr

/-- Table 1 of the scope chapter (R3): variant code. -/
def Variant.code : Variant → Nat
  | .fj9064 => 0x9064 | .fj9048 => 0x9048 | .fj9032 => 0x9032 | .fj9016 => 0x9016
/-- Clusters present (R3). -/
def Variant.clusters : Variant → Nat
  | .fj9064 => 8 | .fj9048 => 6 | .fj9032 => 4 | .fj9016 => 2
/-- Logical signal coaches (R3). -/
def Variant.coaches (v : Variant) : Nat := 8 * v.clusters
/-- Physical slots, the spares included (R4). -/
def Variant.slots (v : Variant) : Nat := 9 * v.clusters
/-- Float units on signal coaches (R3). -/
def Variant.float : Variant → Bool
  | .fj9016 => false | _ => true
/-- 10 Gbit/s ports (R3). -/
def Variant.tenGig : Variant → Nat
  | .fj9064 => 4 | .fj9048 => 3 | .fj9032 => 2 | .fj9016 => 0
/-- DRAM channels (R3). -/
def Variant.dramChannels : Variant → Nat
  | .fj9064 => 2 | .fj9048 => 2 | .fj9032 => 1 | .fj9016 => 0
/-- ASRC engines (R3). -/
def Variant.asrcEngines : Variant → Nat
  | .fj9064 => 4 | .fj9048 => 4 | .fj9032 => 2 | .fj9016 => 1
/-- TDM ports (R3). -/
def Variant.tdmPorts (v : Variant) : Nat := 4 * v.clusters
/-- The name of entry 0x1000 sub 0x02 (R474), as bytes. -/
def Variant.name : Variant → List Nat
  | .fj9064 => [0x46, 0x4A, 0x39, 0x30, 0x36, 0x34]
  | .fj9048 => [0x46, 0x4A, 0x39, 0x30, 0x34, 0x38]
  | .fj9032 => [0x46, 0x4A, 0x39, 0x30, 0x33, 0x32]
  | .fj9016 => [0x46, 0x4A, 0x39, 0x30, 0x31, 0x36]

/-- FREE VALUE, log entry 32. The 32-byte challenge drawn for the n-th service claim (R491: a random source). -/
opaque challenge : Nat → BitVec 256
/-- FREE VALUE, log entry 31. Serial number, 48 bits, from the fuses (R474 gives no value). -/
opaque serial : BitVec 48
/-- FREE VALUE, log entry 31. Silicon revision, from the fuses (R474). -/
opaque revision : W32
/-- FREE VALUE, log entry 31. Resident-services version and firmware package version (R474 gives none): 0 and 1. -/
opaque version : Nat → W32
/-- FREE VALUE, log entry 31. MAC address of Ethernet port e, from the fuses (R416). -/
opaque portMac : Nat → BitVec 48
/-- FREE VALUE, log entry 29. Word `a` of the boot ROM (the spec gives no contents). -/
opaque bootRom : Nat → Word
/-- FREE VALUE, log entry 24. Word `a` of dispatcher frame memory of slot `c` after its n-th save: R249 leaves the
arrangement of a frame's words unspecified. -/
opaque frameWord : (slot addr save : Nat) → Word
/-- FREE VALUE, log entry 36. Value of an ASRC output sample: 64 * engine + stream, channel, output count, delay in force, the run
of the stream, and the input samples its filter reaches, oldest first; that of a band-limited interpolation whose
coefficients R375 and R377 do not give. -/
opaque asrcSample : (unit channel count delay run : Nat) → (input : List W32) → W32
/-- FREE VALUE, log entry 37. What PDM_DAT of a pair carries at an edge of PDM_CLK for a channel: the sample period by its count, the
clock period in it, and the run of the pair. An input of the device. -/
opaque pdmBit : (pair channel count period run : Nat) → Bool
/-- FREE VALUE, log entry 37. Value of a PDM decimator output sample for the bits its filter reaches, where their density changes:
R359 gives its response, not its coefficients. -/
opaque pdmFilter : (osr : Nat) → List Bool → W32
/-- FREE VALUE, log entry 38. Fraction of a nanosecond of an edge's media timestamp (R345, R348): clock and count. -/
opaque edgeFraction : (clock count : Nat) → BitVec 8
/-- FREE VALUE, log entry 38. Media timestamp stamped for a sample whose edge has not occurred or is no longer kept, on a clock that
follows no gPTP grid: clock and count (R348 defines it by the edge's own time). -/
opaque mediaStamp : (clock count : Nat) → BitVec 64
/-- FREE VALUE, log entry 28. A word whose read by a device other than a coach ends in bus error: address and fabric cycle. -/
opaque deviceRead : (addr cycle : Nat) → Word
/-- FREE VALUE, log entry 25. What the budget timer holds where C + 4 × NSH does not fit its 24 bits (R253): cart index. -/
opaque budgetLoad : Nat → BitVec 24
/-- FREE VALUE, log entry 39. L0's running power estimate of a domain, in mW (R508 gives bounds, not values). -/
opaque powerEstimate : (domain time : Nat) → Nat
/-- FREE VALUE, log entry 40. The voltage in mV the factory speed fuses give for a clock in MHz at a junction
temperature in degrees (R500): domain (0-7 clusters, 8 lead, 9 fabric), MHz, degrees. -/
opaque speedFuse : (domain mhz : Nat) → Int → Nat
/-- FREE VALUE, log entry 41. The highest junction reading in degrees and its sensor at a fabric cycle at which every sensor reads
below 100 degrees (R503 gives the bound, not the reading). -/
opaque coolReading : Nat → Int
opaque coolSensor : Nat → BitVec 8
/-- FREE VALUE, log entry 35. Whether REFCLK_SD_0 and REFCLK_SD_1 are present on the board (R509, R523). -/
opaque refclkPresent : BitVec 2
/-- FREE VALUE, log entry 33. The fused signing-key hash of slot `k` as eight 32-bit words, and whether it is
fused and not revoked (R518). -/
opaque keyHash : Nat → BitVec 256
opaque keyUsable : Nat → Bool
/-- FREE VALUE, log entry 34. Installed devices of DRAM channel c, coded as MEM_DCFG.CAP (R300: read from the devices). -/
opaque dramCap : Nat → BitVec 2
/-- FREE VALUE, log entry 26. Region of a coach or an Ethernet DMA as L0 sets it at BOOT (phase 0) or at admission (phase 1): rights in
[3:0], first granule in [29:4], last granule in [55:30] (R299 says that L0 sets them, not how). -/
opaque coachRegion : (phase master region : Nat) → BitVec 56
/-- FREE VALUE, log entry 30. Factory row entries of the fuse map image, words at 0x0801_0000 (R333). -/
opaque factoryFuse : Nat → Word
/-- FREE VALUE, log entry 108. What L0 reads at a word of the FPP_ and CAN_ blocks at a fabric cycle (chapter 15 lists no register of them). -/
opaque transportReg : (addr cycle : Nat) → BitVec 32
/-- FREE VALUE, log entry 48. VPP_FUSE is present and within range at a fabric cycle: an input of the device. -/
opaque vppFuse : (cycle : Nat) → Bool
/-- FREE VALUE, log entry 42. Word `i` of the first 16 of a black-box copy as entry 0x8010 gives it (R495 lists what they hold, not where). -/
opaque copyWord : (header time : Nat) → (valid : Bool) → (i : Nat) → Word
/-- FREE VALUE, log entry 43. Word `i` of the four words that entry 0x5100 gives of an RTP partner (R418: an IPv4 address, a UDP port and an
SSRC take five). -/
opaque partnerWord : (addr port ssrc i : Nat) → Word
/-- FREE VALUE, log entry 96. The MAC address that the device has learnt for an IPv4 address of a port's network (R455 does not say how). -/
opaque neighbour : (port ip : Nat) → Nat

end Sys2Proof.Config
end

