-- ==== Sys2Proof/Machine/State.lean ====
section
/-! DEFINITION. The state of the device, plain data throughout. Everything the device has many of is a
sparse table whose unlisted keys read as the reset value. Registers of the CO_ windows and of the system
register window live in tables keyed by word address, each at one home. -/
namespace Sys2Proof.Machine
open Sys2Proof.Config

/-! ## A coach (signal or lead) -/

/-- The five register files (R41). -/
inductive RegFile where
  | g | p | n | v | acc
  deriving DecidableEq, Repr

/-- What a coach is doing. -/
inductive RunState where
  | off      -- not started, or held in reset (R187)
  | running
  | waiting  -- the handover wait (R248)
  | halted   -- HALTED-FAULT (R203)
  | stopped  -- stopped by a withdrawal (R545)
  deriving DecidableEq, Repr

/-- A result on its way to becoming visible (R47): the bits it writes, the sticky flags it sets, the
arithmetic exceptions it raises, the lanes in which it traps, and whether its bundle issued in precise mode. -/
structure Pend where
  due : Nat
  slot : Nat
  seq : Nat
  apc : W32
  file : RegFile
  idx : Nat
  mask : Acc
  val : Acc
  istat : Nat
  mstat : Nat
  fpstat : Nat
  exc : Nat
  trap : Nat
  prec : Bool
  deriving DecidableEq, Repr

/-- A store to a CO_ register that has not taken effect yet (R45). -/
structure CoStore where
  due : Nat
  off : Nat
  val : W32
  deriving DecidableEq, Repr

/-- The feedback path of one MAC unit (R49, R107, R108). -/
structure Feedback where
  acc : Nat
  mask : Acc
  val : Acc
  due : Nat
  deriving DecidableEq, Repr

/-- Kinds of access of an LD slot. -/
inductive AccKind where
  | load | store | atomAdd | atomSwap
  deriving DecidableEq, Repr

/-- An answer of memory to an access: `err` 0, or the bus error code of Table 9 of the exceptions
chapter. -/
structure Answer where
  err : Nat
  data : Nat
  deriving DecidableEq, Repr

/-- An access of an LD slot of the bundle that has issued (R53 to R55): `due` is the counted cycle at which what it
loads becomes visible, `refused` the bank cycles it has lost (R285, R286). -/
structure Access where
  ld : Nat
  kind : AccKind
  addr : Nat
  n : Nat
  data : Nat
  dst : Nat
  sx : Bool
  due : Nat
  resp : Option Answer
  refused : Nat
  deriving DecidableEq, Repr

/-- An exception that has been raised and whose entry has not run yet (R188). -/
structure ExcReq where
  entry : Nat
  code : Nat
  scnum : Nat
  slots : Nat
  info : Nat
  detail1 : W32
  apc : W32
  pc : W32
  deriving DecidableEq, Repr

/-- What the boundary is that a coach stands at (R56, R198): a drain point, a barred boundary, or no boundary at all,
since no bundle has issued since the coach started or entered a handler. -/
inductive Boundary where
  | drain | barred | none
  deriving DecidableEq, Repr

/-- A long operation under way (R207 to R212, R121 to R126). `kind` 0 BLKMOV, 1 BLKFILL, 2 VFIRB; `steps` elements or
groups have completed since it issued. -/
structure LongOp where
  kind : Nat
  ra : Nat
  rb : Nat
  ry : Nat
  gn : Nat
  gc : Nat
  size : Nat
  hold : Bool
  apc : W32
  next : W32
  steps : Nat
  deriving DecidableEq, Repr

/-- The bubble cycles of the last transfer that fetch has not been through yet (R168, R174): the counted cycle of the next
one, how many are left, the next word of the wrong path, if one is still decoded, and whether prediction was off for
the transfer. -/
structure Bubbles where
  cyc : Nat
  left : Nat
  path : Option W32
  off : Bool
  deriving DecidableEq, Repr

/-- What the bundle that waits for memory writes when its accesses have been answered without error (R53, R190); `gate`: the
gate action it invokes then (true the entry, with its return address; false the return, R231). -/
structure After where
  pc : W32
  co : Table W32
  cyc : Nat
  bubbles : Nat
  pend : List Pend
  coPend : List CoStore
  fb : Table Feedback
  divFree : Nat
  long : Option LongOp
  counters : Table Nat
  rsTop : Nat
  wrong : Option Bubbles
  bound : Boundary
  exc : Option ExcReq
  keepRs : Bool
  gate : Option (Bool × W32)
  deriving DecidableEq, Repr

/-- Precise arithmetic exceptions and collisions of a bundle whose results are landing (R52, R193). -/
structure Precise where
  apc : W32
  code : Nat
  slots : Nat
  coll : Option Nat
  deriving DecidableEq, Repr

/-- What the fetch unit kept with the decoded bundle (R171, R172). -/
structure Decoded where
  addr : W32
  on : Bool
  v : Nat
  taken : Bool
  ret : Option W32
  deriving DecidableEq, Repr

/-- One release of a cart (R243): cart index, release number, release time and absolute deadline in
ticks of 10 ns, whether a predecessor was lost, whether it was stolen, the coach whose queue held it, and whether a
hold-overrun or an exception inside a hold run has spoiled its output (R62, R213). -/
structure Job where
  cart : Nat
  k : Nat
  rel : Nat
  deadline : Nat
  plost : Bool
  stolen : Bool
  home : Nat
  spoiled : Bool
  deriving DecidableEq, Repr

/-- A saved context (R249). -/
structure Frame where
  pc : W32
  g : Table W32
  p : Table W32
  n : Table W32
  v : Table W128
  acc : Table Acc
  co : Table W32
  region : List W32
  job : Option Job
  espStart : W32
  handlers : Nat
  fromWait : Bool
  deriving DecidableEq, Repr

structure Coach where
  /-- run state; reset `off` (R187: no coach runs before L0 starts it) -/
  run : RunState
  /-- address of the next bundle, 32 bits (R160); reset 0 -/
  pc : W32
  /-- address of the last bundle issued (R188); reset 0 -/
  lastPc : W32
  /-- G0-G31, 32 bits each (R41); reset 0 -/
  g : Table W32
  /-- P0-P15, 32 bits (R41); reset 0 -/
  p : Table W32
  /-- N0-N15, 32 bits (R41); reset 0 -/
  n : Table W32
  /-- V0-V15, 128 bits (R41); reset 0 -/
  v : Table W128
  /-- ACC0-ACC7, 288 bits (R41); reset 0 -/
  acc : Table Acc
  /-- the CO_ registers by word offset in the window (R43); each at its reset value -/
  co : Table W32
  /-- counted cycles since the start (R46) -/
  cyc : Nat
  /-- coach clock cycles since power-up, stalls included (CO_CYCLE before wrapping) -/
  cycles : Nat
  /-- bundles issued since the start, to name a bundle's own results (R190) -/
  seq : Nat
  /-- results pending (R47) -/
  pend : List Pend
  /-- stores to CO_ registers pending (R45) -/
  coPend : List CoStore
  /-- feedback path of each MAC unit (R49) -/
  fb : Table Feedback
  /-- counted cycle from which the divider is free (R130) -/
  divFree : Nat
  /-- accesses of the stalled bundle (R53); empty when not stalled -/
  access : List Access
  /-- what the stalled bundle writes once its accesses are answered (R53) -/
  after : Option After
  /-- precise exceptions gathered while a bundle's results land (R193) -/
  precise : Option Precise
  /-- the boundary after the last bundle (R56) -/
  bound : Boundary
  /-- coach cycle at which the current hold run began (R59) -/
  holdStart : Option Nat
  /-- long operation under way (R207) -/
  long : Option LongOp
  /-- exception raised, entry not yet run (R188) -/
  exc : Option ExcReq
  /-- 1,024 two-bit direction counters (R170); reset 1 -/
  counters : Table Nat
  /-- return stack entries (R172), valid entries only; reset none -/
  rs : Table W32
  /-- return stack top index, 4 bits (R172); reset 0 -/
  rsTop : Nat
  /-- the bundle at `pc`, if the fetch unit has decoded it (R171) -/
  decoded : Option Decoded
  /-- bubble cycles that fetch is still to go through, with their wrong path (R174) -/
  wrong : Option Bubbles
  /-- HALTED-FAULT count since power-up, saturating at 65,535 (R204); reset 0 -/
  haltCount : Nat
  /-- Ketch: CO_MODE.KETCH as the next instruction is fetched (R216) -/
  ketch : Bool
  /-- bundles that have issued by the boundary at which the last store to CO_MODE may switch the mode (R216); reset 0 -/
  ketchAt : Nat
  /-- exception handlers entered and not yet returned since the running context was dispatched (R246, R252); reset 0 -/
  handlers : Nat
  /-- cycles used by interrupts since power-up: their drains, entries, handlers and returns (R256); reset 0 -/
  irqCycles : Nat
  /-- device time of the last HALTED-FAULT of L1 to L3, and whether a second one within 10 s keeps it halted (R206) -/
  lastHalt : Option Nat
  dead : Bool
  /-- carts: current job (R249); none at reset -/
  job : Option Job
  /-- nesting level of the current context, 0-16 (R249); reset 0 -/
  level : Nat
  /-- saved contexts, the highest level first (R249) -/
  frames : List Frame
  /-- ESP at the current job's start (R252) -/
  espStart : W32
  /-- saves made to each frame of the LDM (R249) -/
  saves : Table Nat
  /-- a store to CO_CDONE has taken effect: the LOST bit stored (R252, R248) -/
  cdone : Option Bool
  /-- address of the bundle after the one that stored to CO_CDONE last (R248); reset 0 -/
  cdonePc : W32
  /-- the coach has handed over since its start (R248) -/
  handed : Bool
  /-- an express or withdrawn stop is due at the next drain point (R545) -/
  stopDue : Bool
  /-- interrupt inputs 0-31 asserted at this processor (R424) are computed; budget overrun due (R214) -/
  budgetDue : Bool
  /-- the timer stands still for an interrupt taken with this many handlers entered before it (R253) -/
  budgetHold : Option Nat
  /-- device time of the last wait beat (R248) -/
  lastBeat : Nat
  deriving DecidableEq, Repr

/-- A coach after power-up of its domain (R41, R43, R177, R187). -/
def Coach.reset : Coach :=
  { run := .off, pc := 0, lastPc := 0, g := [], p := [], n := [], v := [], acc := [], co := [], cyc := 0, cycles := 0,
    seq := 0, pend := [], coPend := [], fb := [], divFree := 0, access := [], after := none, precise := none, bound := .none, holdStart := none,
    long := none, exc := none, counters := [], rs := [], rsTop := 0, decoded := none, wrong := none, haltCount := 0,
    ketch := false, ketchAt := 0, handlers := 0, irqCycles := 0, lastHalt := none, dead := false, job := none, level := 0, frames := [], espStart := 0, saves := [], cdone := none, cdonePc := 0, handed := false,
    stopDue := false, budgetDue := false, budgetHold := none, lastBeat := 0 }

/-! ## The dispatchers -/

/-- A cart as admitted (R238, R240): the descriptor's fields by name. -/
structure Cart where
  bestEffort : Bool
  steal : Nat
  rsrc : Nat
  fetch : Bool
  pred : Nat
  home : Nat
  entry : Nat
  wbase : Nat
  wsize : Nat
  arg0 : W32
  arg1 : W32
  ssdepth : Nat
  budget : Nat
  epoch : Nat
  period : Nat
  scnt : Nat
  succ : Nat
  deadline : Nat
  offset : Nat
  nsh : Nat
  lmax : Nat
  reserved : Bool   -- a field marked 0 was not 0, or a field held a reserved value
  deriving DecidableEq, Repr

/-- An image record (R241). -/
structure ImageRec where
  coach : Nat
  cim : Nat
  ldm : Nat
  hold : Nat
  bad : Bool
  deriving DecidableEq, Repr

/-- A timetable image, parsed (R241). -/
structure Timetable where
  epoch : Nat
  start : Nat
  carts : List Cart
  succ : List Nat
  images : List ImageRec
  deriving DecidableEq, Repr

/-- A graph cart's instance (R245): predecessors still to end, whether one was lost, when the last release
reaches the queue (ns), the instance's release number and release time. -/
structure GraphInst where
  cart : Nat
  left : Nat
  plost : Bool
  at_ : Nat
  k : Nat
  rel : Nat
  deriving DecidableEq, Repr

/-- What the device keeps per logical coach (R269 to R272, R277). -/
structure Logical where
  lstate : Nat
  slot : Nat
  epoch : Nat
  stealsIn : Nat
  stealsOut : Nat
  halts : Nat
  hbLosses : Nat
  lastOutage : Nat
  lastCount : W32
  lastChange : Nat
  lastHalt : Option Nat
  hold : Nat
  lastCross : Nat
  deriving DecidableEq, Repr

structure Carts where
  /-- the admitted timetable (R261); none at reset -/
  table : Option Timetable
  /-- the image written to 0x4000 sub 0x01, as words (R277) -/
  image : List Word
  /-- images are loaded and the device waits for every coach to hand over (R261) -/
  starting : Bool
  /-- d(v), r(v) in ticks and C'(v) per cart, keys 4v, 4v+1, 4v+2 (R258) -/
  windows : Table Nat
  /-- admission outcome, reason, cart, coach (0x4001 sub 0x01-0x04) -/
  outcome : Nat
  reason : Nat
  reasonCart : Nat
  reasonCoach : Nat
  /-- U of each coach as binary32 (0x4001 sub 0x05, 0x06) -/
  util : Table W32
  /-- queues per logical coach, in the order of R246 -/
  queues : Table (List Job)
  /-- next release number of each TIME root, next sample count gate of each MEDIA root, keyed by cart -/
  nextK : Table Nat
  /-- time of the last release of each root, in ns (R243) -/
  lastRel : Table Nat
  /-- MEDIA releases held for T_adm: cart to sample count (R243) -/
  heldRel : Table Nat
  /-- graph instances waiting for predecessors -/
  graph : List GraphInst
  /-- releases, ends, DMISS, overruns, stolen, RSKIP, RHELD per cart, keys 8v + i (0x4010) -/
  counts : Table Nat
  /-- carts with a job waiting, running or preempted: cart to 1 (R244) -/
  live : Table Nat
  /-- carts withdrawn by a lost coach, and carts re-homed: cart to new home + 1, 0 withdrawn (R272) -/
  rehome : Table Nat
  /-- carts that L0 has reported withdrawn since admission, by index, oldest first (R272); reset none -/
  withdrawn : List Nat
  /-- per logical coach -/
  logical : Table Logical
  /-- slot states: 0 SERVING 1 SPARE 2 FENCED 3 ABSENT (0x4031) -/
  slots : Table Nat
  /-- stores of fenced slots ignored (R273) -/
  fencedStores : Nat
  /-- last RECOMMISSION result (0x4030 sub 0x02), and its slot while it runs -/
  recomResult : Nat
  recomSlot : Option Nat
  /-- crash areas copied by L0 (0x8040), 64 words each by master identity -/
  crash : Table (List Word)
  /-- losses since the last summary: cart to count (R479), and the second last summarised -/
  lostNow : Table Nat
  lastSecond : Nat
  /-- producer jobs ended or lost, told to the wagons: key cart * 64 + release mod 64, release * 2 + lost + 1 (R255) -/
  ended : Table Nat
  deriving DecidableEq, Repr

/-- Dispatchers at reset: nothing admitted. -/
def Carts.reset : Carts :=
  { table := none, image := [], starting := false, windows := [], outcome := 0, reason := 0, reasonCart := 0xFFFF,
    reasonCoach := 0xFF, util := [], queues := [], nextK := [], lastRel := [], heldRel := [], graph := [], counts := [],
    live := [], rehome := [], withdrawn := [], logical := [], slots := [], fencedStores := 0, recomResult := 0, recomSlot := none,
    crash := [], lostNow := [], lastSecond := 0, ended := [] }

/-! ## Memories and their protection -/

/-- An entry of a merge buffer (R314): line key, the 64 bits of its words, valid mask, one parity bit per word,
and the order and the fabric cycle of its last write (the idle count is the bank cycles since then). -/
structure MergeEntry where
  line : Nat
  words : Nat
  mask : Nat
  parity : Nat
  stamp : Nat
  wrote : Nat
  deriving DecidableEq, Repr

/-- A request waiting at a bank port (R284): the master, its LD slot, and how often it was refused. -/
structure BankReq where
  master : Nat
  ld : Nat
  refusals : Nat
  deriving DecidableEq, Repr

/-- A page reconstruction that has been called for (R321): bank key, page key, and the requester and its
port, if a requester waits. -/
structure Recon where
  bank : Nat
  page : Nat
  req : Option BankReq
  port : PortId
  deriving DecidableEq, Repr

/-- The scrubber on one instance (R327 to R330): `line` 64 to 67 are the parity lines, `owed` a page start that fell
due while a late page was under way. -/
structure Scrub where
  page : Nat
  line : Nat
  active : Bool
  pass : Nat
  lateSeen : Bool
  owed : Bool
  started : Nat
  lastDone : Nat
  deriving DecidableEq, Repr

/-- An entry of the correction table (R331). -/
structure CorrEntry where
  line : Nat
  pass : Nat
  count : Nat
  deriving DecidableEq, Repr

/-- A record of the error log (R339). -/
structure ErrRec where
  time : Nat
  cls : Nat
  kind : Nat
  inst : Nat
  master : Nat
  detail : Nat
  addr : Nat
  deriving DecidableEq, Repr

/-- The march engine while it runs (R338). -/
structure March where
  pres : Bool
  kind : Nat
  inst : Nat
  bank : Nat
  slot : Bool
  row : Nat
  fails : Nat
  firstFail : Nat
  unrepaired : Bool
  deriving DecidableEq, Repr

structure Mem where
  /-- data words of every memory, by place key (R278); unlisted reads 0, as the march of SELFTEST and the
  clearing of BOOT leave it (R336, R513) -/
  data : Table Word
  /-- check byte of each line, by line key (R307); unlisted 0 -/
  check : Table Byte
  /-- the 32 parity bytes of each page, parity byte j in bits [8j+7:8j] (R310); unlisted 0 -/
  parity : Table (BitVec 256)
  /-- the light-code check bytes of the 4 parity lines of each page (R310); unlisted 0 -/
  pcheck : Table W32
  /-- merge buffers by port key (R314); empty -/
  merge : Table (List MergeEntry)
  /-- order of narrow writes -/
  stamp : Nat
  /-- requests waiting at each port (R284) -/
  ports : Table (List BankReq)
  /-- bulk commands a DRAM channel has taken in a row while coaches waited there, by port (R290); reset 0 -/
  bulk : Table Nat
  /-- corrected lines to write back: bank key, line key (R320) -/
  writeBack : List (Nat × Nat)
  /-- reconstructions called for (R321) -/
  recon : List Recon
  /-- the correction table (R331), at most 256 -/
  corr : List CorrEntry
  /-- spare rows used per bank key (R332) -/
  spares : Table Nat
  /-- spare rows that a march found bad, as a mask by bank key (R336); reset 0 -/
  spareBad : Table Nat
  /-- remapped rows: row key to spare index + 1 (R331) -/
  rowMap : Table Nat
  /-- rows reported without a spare (R335) -/
  spareSaid : Table Nat
  /-- pending fuse recommendations, as row entries of 64 bits (R331, R334), at most 64 -/
  pendFix : List Nat
  /-- the list as stored in flash follows at the next store (R343): changed since the last store -/
  pendDirty : Bool
  /-- the list as flash holds it (R343) -/
  pendStored : List Nat
  /-- field fuse entries programmed, as row entries (R333) -/
  fieldFuse : List Nat
  /-- fuse programming under way: entries left, programmed, bad, retrying (R334) -/
  fusing : Bool
  fuseDone : Nat
  fuseBad : Nat
  fuseRetry : Bool
  /-- recommendations tried twice and passed over by the command that runs (R334) -/
  fuseIdx : Nat
  /-- scrubber per instance, key kind * 128 + inst -/
  scrub : Table Scrub
  /-- bank groups that an unrepairable bank took out of service: power domain to 1 (R337) -/
  badGroups : Table Nat
  /-- the march under way (R338) -/
  march : Option March
  /-- intake of the error log (R340), at most 32 -/
  intake : List ErrRec
  /-- the log ring, records by index (R341) -/
  log : Table ErrRec
  /-- check bytes of the two lines of each record of the ring (R306); unlisted 0 -/
  logCheck : Table (BitVec 16)
  /-- fabric cycle from which the log writer may move its next record (R340) -/
  nextLog : Nat
  /-- records held (R341) -/
  held : Nat
  /-- a log record of class CORR and others counted since boot (0x7010), by class -/
  reports : Table Nat
  /-- per pass counts for the summaries: key (kind*256+inst)*16 + class (R339) -/
  passCounts : Table Nat
  /-- first-report memory: poisoned lines reported, and masters with epochs reported (R339) -/
  firstSeen : Table Nat
  /-- accesses refused under R296 and what the last was (0x7001) -/
  epochRefused : Nat
  epochMaster : Nat
  epochAddr : Nat
  regionFails : Nat
  ignoredWrites : Nat
  /-- parks, refused DRAM accesses, longest coach DRAM access in ns (0x7000) -/
  parks : Nat
  parkRefused : Nat
  longest : Nat
  /-- the controller is parking or parked (R303) -/
  parking : Bool
  deriving DecidableEq, Repr

/-- Memories as the march of SELFTEST leaves them. -/
def Mem.reset : Mem :=
  { data := [], check := [], parity := [], pcheck := [], merge := [], stamp := 0, ports := [], bulk := [], writeBack := [], recon := [], corr := [],
    spares := [], spareBad := [], rowMap := [], spareSaid := [], pendFix := [], pendDirty := false, pendStored := [], fieldFuse := [], fusing := false,
    fuseDone := 0, fuseBad := 0, fuseRetry := false, fuseIdx := 0, scrub := [], badGroups := [], march := none, intake := [], log := [],
    logCheck := [], nextLog := 0, held := 0, reports := [], passCounts := [], firstSeen := [], epochRefused := 0, epochMaster := 0xFF, epochAddr := 0,
    regionFails := 0, ignoredWrites := 0, parks := 0, parkRefused := 0, longest := 0, parking := false }

/-! ## Media clocks, audio ports, wagons, ASRC, express -/

/-- A media clock (R344 to R348): its 64-bit count, the media timestamp of its last edge in 1/256 ns, the fabric cycle
of that edge plus 1 (0: none since the enable), whether its next edge takes the count it was given at the enable, and
the fabric cycle since which its phase error may have stayed small (R346). -/
structure MediaClock where
  count : Nat
  mt : Nat
  edge : Nat
  armed : Bool
  steadySince : Nat
  deriving DecidableEq, Repr

/-- A sample edge kept: its count and its media timestamp. -/
structure Edge where
  count : Nat
  mt : Nat
  deriving DecidableEq, Repr

/-- A frame in a port's receive buffer (R354): its count, whether it is absent, its slots. -/
structure RxFrame where
  count : Nat
  absent : Bool
  slots : List W32
  deriving DecidableEq, Repr

/-- A sample that has landed in a transmit buffer (R354): its frame's count, its value, when it landed (1/256 ns). -/
structure TxSample where
  count : Nat
  val : W32
  landed : Nat
  deriving DecidableEq, Repr

/-- A wagon at run time (R367 to R373): the block it is at, lines moved of it, its state (0 not ready, 1 ready, 2
concealed), the last sample delivered per channel, samples concealed in a row before the block, samples faded in before
it (64: no fade-in runs), whether it is muted and samples muted before the block, the concealed blocks whose late source
has not become ready yet, and whether the wagon has started since its timetable came to run. -/
structure Wagon where
  block : Nat
  line : Nat
  st : Nat
  last : Table W32
  decay : Nat
  fade : Nat
  muted : Bool
  mutePos : Nat
  late : List Nat
  live : Bool
  deriving DecidableEq, Repr

structure Media where
  /-- media clocks 0-3 -/
  clocks : Table MediaClock
  /-- the last 4,096 sample edges of each clock, key 4096 * clock + n mod 4096 -/
  edges : Table Edge
  /-- receive buffers, key p * 64 + n mod 64 (R354) -/
  rx : Table RxFrame
  /-- transmit buffers, key (p * 64 + n mod 64) * 32 + slot (R354) -/
  tx : Table TxSample
  /-- samples of the frame each port is transmitting, key p * 32 + slot, as DOUT carries them -/
  out : Table W32
  /-- counts of the frames of each port that have begun and are not captured yet, oldest first (R353) -/
  begun : Table (List Nat)
  /-- count last given to a frame of each port, plus 1 (R353) -/
  lastSync : Table Nat
  /-- count of the frame captured last on each port, plus 1 -/
  lastCap : Table Nat
  /-- wagons, key 64 * engine + wagon -/
  wagons : Table Wagon
  /-- wagons the admitted timetable took in (R370): key to 1 -/
  taken : Table Nat
  /-- SAFE has been entered since the last entry to RUN or DEGRADED: outputs fade in then (R373); reset false -/
  fromSafe : Bool
  /-- ASRC streams by 64 * engine + stream: next output count, delay in force, fabric cycle of the enable plus 1, fabric
  cycle of the last input block, media time that the input reaches plus 1 -/
  asrcOut : Table Nat
  asrcDelay : Table W32
  asrcGen : Table Nat
  /-- instant since which a stream's residual may have stayed below 1/16 input sample (R376), fabric clock plus 1 -/
  asrcSteady : Table Nat
  asrcLastIn : Table Nat
  asrcInTo : Table Nat
  /-- ASRC channels, key 1024 * (64 * engine + stream) + channel: the last 256 input samples, oldest first, and those that
  the latest output block was computed from (R375, R377) -/
  asrcIn : Table (List W32)
  asrcWin : Table (List W32)
  /-- fabric cycle of each PDM pair's enable plus 1 -/
  pdmGen : Table Nat
  /-- pins claimed by masters (R472): pin to holder + 1; 0, 1 WCK_IO_0 and 1, 2 to 9 INT_IN_0 to 7 -/
  pinClaims : Table Nat
  /-- express: count of the first frame of the next pair, the pair released and not yet output, concealed samples in a
  row, samples faded in (64: none), last samples by channel, pairs concealed, enabled now -/
  xPair : Nat
  xOwed : Option Nat
  xDecay : Nat
  xFade : Nat
  xLast : Table W32
  xConcealed : Nat
  xOn : Bool
  deriving DecidableEq, Repr

/-- Media at reset: every clock off at count 0. -/
def Media.reset : Media :=
  { clocks := [], edges := [], rx := [], tx := [], out := [], begun := [], lastSync := [], lastCap := [], wagons := [], taken := [], fromSafe := false,
    asrcOut := [], asrcDelay := [], asrcGen := [], asrcSteady := [], asrcLastIn := [], asrcInTo := [], asrcIn := [], asrcWin := [], pdmGen := [], pinClaims := [], xPair := 0,
    xOwed := none, xDecay := 0, xFade := 64, xLast := [], xConcealed := 0, xOn := false }

/-! ## Network -/

/-- The partner of a listener (R413): MAC or IPv4, UDP port, SSRC. -/
structure Partner where
  addr : Nat
  port : Nat
  ssrc : Nat
  deriving DecidableEq, Repr

/-- A context at run time (R409 to R413). -/
structure Ctx where
  state : Nat
  cepoch : Nat
  partner : Option Partner
  prev : Option Partner
  ph : Option Nat
  lastArrival : Nat
  lastSeq : Option Nat
  nextN : Nat
  seqNum : Nat
  mr : Bool
  /-- a listener's: mr of its last packet, and what it has counted of mr and tu (R406) -/
  lastMr : Bool
  mrCount : Nat
  tuCount : Nat
  deriving DecidableEq, Repr

/-- What a transmitted frame is (R406 to R408, R394, R395, R455). -/
inductive TxKind where
  | aaf (ctx n ts seq : Nat) (mr tu : Bool)
  | crf (ctx n seq : Nat) (stamps : List Nat)
  | rtp (ctx n ts seq : Nat)
  | ptp (domain : Nat) (m : PtpBody)
  | arpReply (target : Nat)
  | icmpReply (dst : Nat) (payload : List Byte)
  | igmpReport (group : Nat)
  | igmpLeave (group : Nat)
  | fpp (t : Transport) (bytes : List Byte)
  deriving DecidableEq, Repr

/-- A frame in a transmit queue (R399): the bytes it takes on the line, its overhead included, what it is, its payload. -/
structure TxFrame where
  length : Nat
  what : TxKind
  payload : List Byte
  deriving DecidableEq, Repr

/-- A gPTP instance (R395 to R397): grandmaster identity (0: none) and priority vector, asCapable, domain time less
device time, fabric cycle of the last Sync, since when its offset has stayed small, receive timestamp of the last Sync,
neighbour delay in ns, the number of the last Pdelay request, its transmit timestamp, and the sum of the two timestamps
of its response; the intervals in log2 seconds; fabric cycles of the last Sync and the last request sent. -/
structure Ptp where
  gm : Nat
  gmPrio : Nat
  asCapable : Bool
  offset : Int
  lastSync : Nat
  goodSince : Option Nat
  syncArrival : Nat
  pdelay : Nat
  reqSeq : Nat
  reqTime : Nat
  respTime : Nat
  syncInterval : Int
  pdelayInterval : Int
  lastTx : Nat
  lastPdelay : Nat
  deriving DecidableEq, Repr

structure Net where
  /-- context descriptors, key 16 * context + word pair w (R404) -/
  desc : Table W32
  /-- context claim words (R414) and CONFLICT bits, key context -/
  ctxClaim : Table W32
  ctxConflict : Table Nat
  ctx : Table Ctx
  /-- ETH_CX_CNT, key 16 * context + k -/
  ctxCnt : Table W32
  /-- transmit queues, key 8 * port + q -/
  queues : Table (List TxFrame)
  /-- credits of shaped queues in 10^-6 bit, key 8 * port + q (R400), and when each was last brought up to date -/
  credit : Table Int
  creditAt : Table Nat
  /-- gates: index of the entry in force, when it began, when the cycle began -/
  gateIdx : Table Nat
  gateAt : Table Nat
  gateCycle : Table Nat
  gateLen : Table Nat
  /-- CYCLE of the operating list in ns, and the instant of a requested list change plus 1 (R402) -/
  gateSpan : Table Nat
  gateChange : Table Nat
  /-- time at which the line of each port is free again -/
  lineFree : Table Nat
  /-- frames sent, in order (the line's view), most recent first -/
  sent : List (Nat × TxFrame)
  /-- gPTP instances -/
  ptp : Table Ptp
  /-- MDIO: command waiting and result of the last read (0x5008) -/
  mdio : Option W32
  mdioResult : Word
  deriving DecidableEq, Repr

/-- The network at reset. -/
def Net.reset : Net :=
  { desc := [], ctxClaim := [], ctxConflict := [], ctx := [], ctxCnt := [], queues := [], credit := [], creditAt := [],
    gateIdx := [], gateAt := [], gateCycle := [], gateLen := [], gateSpan := [], gateChange := [], lineFree := [], sent := [], ptp := [], mdio := none,
    mdioResult := 0 }

/-! ## Parameter protocol -/

/-- A request as it stands in L0's queue (R449, R452). -/
structure Request where
  from_ : Transport
  arrival : Nat
  cmd : Nat
  seq : Nat
  index : Nat
  sub : Nat
  typ : Nat
  epoch : Nat
  offset : Nat
  total : Nat
  seglen : Nat
  data : List Byte
  malformed : Bool
  deriving DecidableEq, Repr

/-- A response L0 has sent or is about to send (R452). -/
structure Response where
  dest : Transport
  cmd : Nat
  seq : Nat
  index : Nat
  sub : Nat
  typ : Nat
  epoch : Nat
  offset : Nat
  total : Nat
  status : Nat
  data : List Byte
  deriving DecidableEq, Repr

/-- A session (R448): last request, selectors by index * 256 + sub, read snapshot, write transfer, and the
outcome of the long entries it started (key index * 256 + sub; 0 is CLAIM and SVC_PROVE): status. -/
structure Session where
  addr : Transport
  last : Nat
  selectors : Table Nat
  snapIndex : Nat
  snap : Option (List Byte)
  xferKey : Option (Nat × Nat × Nat)
  xfer : List Byte
  xferTotal : Nat
  xferAt : Nat
  outcomes : Table Nat
  node : Nat
  deriving DecidableEq, Repr

/-- A claim taking part in an election (R458). -/
structure Candidate where
  session : Transport
  node : Nat
  prio : Nat
  deriving DecidableEq, Repr

/-- A node recorded as present (R460). -/
structure Present where
  node : Nat
  prio : Nat
  session : Transport
  at_ : Nat
  deriving DecidableEq, Repr

structure Fpp where
  /-- the request queue, at most 32 (R449) -/
  queue : List Request
  /-- responses sent, oldest first -/
  out : List Response
  /-- unread SPI responses, at most 4 (R456) -/
  spi : List Response
  /-- sessions, at most 32 (R448) -/
  sessions : List Session
  /-- written values of entries that name no register, key index * 256 + sub, as bytes -/
  vals : Table (List Byte)
  /-- RWP values changed and not yet stored: keys (R447) -/
  dirty : List Nat
  /-- RWP values stored in flash (R447) -/
  stored : Table (List Byte)
  /-- ownership state 0 NONE 1 ELECTION 2 OWNED (R458) -/
  own : Nat
  ownerNode : Nat
  ownerPrio : Nat
  ownerSession : Option Transport
  ownerSeen : Nat
  /-- owner epoch (R457); the stored value survives reset -/
  epoch : Nat
  electionEnd : Nat
  candidates : List Candidate
  present : List Present
  grants : Nat
  lapses : Nat
  /-- service session (R465 to R467) -/
  svcHeld : Bool
  svcNode : Nat
  svcSession : Option Transport
  svcSeen : Nat
  svcBegan : Nat
  challenge : Option (Nat × Nat)   -- number of the challenge drawn, time
  challengeFor : Option Transport
  challengeNode : Nat
  challenges : Nat
  failedAt : List Nat
  failedTotal : Nat
  lockedUntil : Nat
  /-- the long entry running, with its session: key index * 256 + sub, value (R450) -/
  long : Option (Nat × Nat × Transport)
  /-- counters of 0x2010, keys 1 to 0x10 -/
  counts : Table Nat
  /-- writes to 0x1030 that wait to take effect: subindex and value (R474) -/
  comm : List (Nat × List Byte)
  /-- resource code selector defaults live in sessions; tester keys in use (R492): 64-byte keys as words -/
  keys : List (List Word)
  deriving DecidableEq, Repr

/-- The parameter agent at reset. -/
def Fpp.reset : Fpp :=
  { queue := [], out := [], spi := [], sessions := [], vals := [], dirty := [], stored := [], own := 0, ownerNode := 0,
    ownerPrio := 0, ownerSession := none, ownerSeen := 0, epoch := 0, electionEnd := 0, candidates := [], present := [],
    grants := 0, lapses := 0, svcHeld := false, svcNode := 0, svcSession := none, svcSeen := 0, svcBegan := 0,
    challenge := none, challengeFor := none, challengeNode := 0, challenges := 0, failedAt := [],
    failedTotal := 0, lockedUntil := 0, long := none, counts := [], comm := [], keys := [] }

/-! ## Black box, flash, power -/

/-- An entry of the black box (R476). -/
structure BbEntry where
  time : Nat
  skind : Nat
  sinst : Nat
  code : Nat
  seq : Nat
  p0 : W32
  p1 : W32
  p2 : W32
  p3 : W32
  deriving DecidableEq, Repr

/-- The header of the ring, by field (R544). -/
structure BbHeader where
  boot : Nat
  seq : Nat
  state : Nat
  wridx : Nat
  trigidx : Nat
  dropped : Nat
  trigmask : Nat
  deriving DecidableEq, Repr

/-- A copy of the ring in flash (R486). -/
structure BbCopy where
  header : BbHeader
  valid : Bool
  time : Nat
  ring : Table BbEntry
  /-- entries that failed the light code (R485) -/
  damage : List Nat
  deriving DecidableEq, Repr

structure Bb where
  /-- intake, at most 32 (R478) -/
  intake : List BbEntry
  /-- ring entries by index (R475) -/
  ring : Table BbEntry
  /-- check bytes of the four lines of each ring entry (R306); unlisted 0 -/
  ringCheck : Table W32
  /-- header of the ring (R544): retained -/
  header : BbHeader
  /-- fabric cycle from which the ring may write its next entry (R478) -/
  nextWrite : Nat
  /-- entries written since the trigger (R480) -/
  since : Nat
  /-- a rearm's copy runs (R482) -/
  rearming : Bool
  /-- retention lost while VDD_BB was out of range (R484) -/
  retained : Bool
  /-- the ring is initialised and drains its intake (R484) -/
  ready : Bool
  /-- copy in L0's memory made by SELFTEST (R484) -/
  l0copy : Option BbCopy
  /-- flash copy slots 0-3 (R486), and the order of copies -/
  copies : Table BbCopy
  copyOrder : List Nat
  /-- dips: pin low now, first assertion, last release, count, longest in us, total in us (R487, 0x8030) -/
  pfail : Bool
  dip : Bool
  dipStart : Nat
  dipRelease : Nat
  dips : Nat
  dipLongest : Nat
  dipTotal : Nat
  dipLost : Nat
  muted : Bool
  deriving DecidableEq, Repr

def Bb.reset : Bb :=
  { intake := [], ring := [], ringCheck := [], header := { boot := 0, seq := 0, state := 0, wridx := 0, trigidx := 0, dropped := 0, trigmask := 0x36 },
    nextWrite := 0, since := 0, rearming := false, retained := false, ready := false, l0copy := none, copies := [], copyOrder := [], pfail := false,
    dip := false, dipStart := 0, dipRelease := 0, dips := 0, dipLongest := 0, dipTotal := 0, dipLost := 0, muted := false }

structure Pwr where
  /-- reset sources present (R512), bit c - 1 -/
  sources : Nat
  /-- supplies good (R498) -/
  good : Bool
  /-- fabric cycle of the last watchdog kick, once BOOT has begun (R514) -/
  kicked : Nat
  /-- highest junction reading (R503) and whether the trip holds RESET -/
  junction : Int
  trip : Bool
  /-- target has been 15 mV or more above V since (R501) -/
  slackSince : Option Nat
  /-- when the target last stepped down (R501) -/
  steppedAt : Option Nat
  /-- MULT + 1 that a cluster's PLL takes, and when the wait for the voltage ends (R501) -/
  clockWait : Table Nat
  clockAt : Table Nat
  /-- V_age stored in flash, mV, and when (R502) -/
  vageStored : Nat
  vageAt : Nat
  /-- domain transitions under way: domain to target state + 1 (R504) -/
  moving : Table Nat
  /-- supply alarms in force by code, thermal alarm in force -/
  thermal : Bool
  /-- firmware flash words (R516), unlisted erased 0xFFFF -/
  flash : Table Word
  /-- flash pages whose read fails (R516): word index / 256 -/
  flashBad : Table Nat
  /-- word address and length of the image store (R517) -/
  imageStore : Nat × Nat
  /-- package slot booted + 1, SEQ, boot time in ms (0x3120), and its images: number, kind, lead, words -/
  booted : Nat
  bootSeq : Nat
  bootMs : Nat
  images : List (Nat × Nat × Nat × List Word)
  /-- failed check of the last boot attempt: image, check (R520) -/
  bootFail : Option (Nat × Nat)
  deriving DecidableEq, Repr

def Pwr.reset : Pwr :=
  { sources := 0, good := false, kicked := 0, junction := 0, trip := false, slackSince := none, steppedAt := none, clockWait := [], clockAt := [], vageStored := 0, vageAt := 0,
    moving := [], thermal := false, flash := [], flashBad := [], imageStore := (0, 0), booted := 0, bootSeq := 0, bootMs := 0, images := [],
    bootFail := none }

/-- Interrupt controller state that no register shows (R420, R421). -/
structure Intc where
  /-- signal of each source in the cycle before -/
  signal : Table Nat
  /-- fabric cycle in which the gather of a source started -/
  gather : Table Nat
  deriving DecidableEq, Repr

/-- Timer state that no register shows: count, image, equality in the cycle before, base of the last tick
(R432 to R439), all by counter. -/
structure Timers where
  count : Table W32
  image : Table W32
  equal : Table Nat
  base : Table Nat
  deriving DecidableEq, Repr

/-- The device. -/
structure State where
  /-- variant, set by factory fuses (R3) -/
  variant : Variant
  /-- device state, code 0-7 of Table 7 (R27); reset 0 RESET -/
  dev : Nat
  /-- held state of SERVICE (R27); reset 0 -/
  held : Nat
  /-- fabric cycles (1 ns each) since reset was released (R26, R397); reset 0 -/
  now : Nat
  /-- device time in ns, 64 bits (R397); reset 0 -/
  dtime : Nat
  /-- MODEL'S OWN: what the last register read command returned -/
  answer : W32
  /-- the commands that wait, first in first out -/
  pending : List Instr
  /-- system registers by word address (R20); each at its reset value -/
  regs : Table W32
  /-- registers with one copy per master: key address * 128 + master (R350, R416, R434) -/
  perMaster : Table W32
  coaches : Table Coach
  carts : Carts
  mem : Mem
  intc : Intc
  timers : Timers
  media : Media
  net : Net
  fpp : Fpp
  bb : Bb
  pwr : Pwr
  /-- the SERVICE_EN pin (R465, R467) -/
  serviceEn : Bool
  deriving DecidableEq, Repr

/-- Why a step stops. -/
inductive Fault where
  /-- Raised by nothing: the block has no stop of its own, every error the spec describes is an effect on
  State. Safe. -/
  | none
  deriving DecidableEq, Repr

/-- Why a command is turned away. -/
inductive Refusal where
  /-- An arm of exec that has no meaning yet. Safe. -/
  | notModelled (mnemonic : String)
  /-- Raised by every meaning whose command names a unit that no variant has (a processor beyond 75, a
  port beyond the last): such a command does not exist. Safe. -/
  | illFormed
  deriving DecidableEq, Repr

/-- The device right after reset (R28, R41, R299, R397, R513): the state RESET, every table empty, so that
every register reads as its reset value. -/
def State.reset : State :=
  { variant := .fj9064, dev := 0, held := 0, now := 0, dtime := 0, answer := 0, pending := [], regs := [], perMaster := [],
    coaches := [], carts := Carts.reset, mem := Mem.reset, intc := { signal := [], gather := [] },
    timers := { count := [], image := [], equal := [], base := [] }, media := Media.reset, net := Net.reset, fpp := Fpp.reset,
    bb := Bb.reset, pwr := Pwr.reset, serviceEn := true }

end Sys2Proof.Machine
end

