-- ==== Sys2Proof/Machine/Operands.lean ====
section
/-! DEFINITION. What an operation reads and the forms of its operands: registers, lanes, parts, addressing
modes, circular and bit-reversed advances. -/
namespace Sys2Proof.Machine

/-! ## Registers (R41, R42, R48) -/

/-- Architected value of a general register: what a read returns while writes are pending (R48). -/
def rdG (k : Coach) (i : Nat) : W32 := tget 0 k.g i
def rdP (k : Coach) (i : Nat) : W32 := tget 0 k.p i
def rdN (k : Coach) (i : Nat) : W32 := tget 0 k.n i
def rdV (k : Coach) (i : Nat) : W128 := tget 0 k.v i
def rdAcc (k : Coach) (i : Nat) : Acc := tget 0 k.acc i

/-- Reset value of the CO_ register at a word offset of the window (R41, R43 and the register tables):
CO_STAT.PRIV 1, CO_HOLD_LIMIT 0x200, CO_FPCTL.IDZE 1, CO_BGRACE 0x40, every other register 0. -/
def coReset (off : Nat) : W32 :=
  if off = 0x002 then 0x2 else if off = 0x004 then 0x200 else if off = 0x282 then 0x100
  else if off = 0x508 then 0x40 else 0
/-- Stored bits of the CO_ register at a word offset. -/
def rdCo (k : Coach) (off : Nat) : W32 := tget (coReset off) k.co off
/-- A CO_ register with new stored bits. -/
def wrCo (k : Coach) (off : Nat) (v : W32) : Coach := { k with co := tput (coReset off) k.co off v }

/-- 32-bit lane `i` of a V register (R42). -/
def lane32 (v : W128) (i : Nat) : Nat := fld v.toNat (32 * i) 32
/-- 16-bit lane `i` of a V register (R42). -/
def lane16 (v : W128) (i : Nat) : Nat := fld v.toNat (16 * i) 16
/-- Lane of the width of a mode: 32-bit lanes with M = 0, 16-bit lanes with M = 1 (R94). -/
def laneW (m : Nat) : Nat := if m = 1 then 16 else 32
def laneM (m : Nat) (v : W128) (i : Nat) : Nat := fld v.toNat (laneW m * i) (laneW m)
/-- Width and number of accumulator parts of a mode (R94). -/
def partW (m : Nat) : Nat := if m = 1 then 36 else 72
def parts (m : Nat) : Nat := if m = 1 then 8 else 4
/-- Value of part `i` of an accumulator (R95). -/
def accPart (m : Nat) (a : Acc) (i : Nat) : Int := sx (partW m) (fld a.toNat (partW m * i) (partW m))

/-! ## Addressing (R80 to R88) -/

/-- Words an access of size code SZ moves (R79). -/
def szWords (sz : Nat) : Nat := 2 ^ sz
/-- The N registers that circular accesses through P use: base, length (R84, CO_CIRC). -/
def circPair (k : Coach) (p : Nat) : Nat × Nat :=
  let s := rfld (rdCo k 0x100) (2 * p) 2
  (8 + 2 * s, 9 + 2 * s)
/-- Circular advance of a pointer value through the pair of `pr` (R85). -/
def circAdv (k : Coach) (pr : Nat) (p : W32) (i : Int) : W32 :=
  let b : Int := (rdN k (circPair k pr).1).toNat
  let l : Int := (rdN k (circPair k pr).2).toNat
  let t : Int := p.toNat + i
  w32 (if l ≠ 0 then (if t ≥ b + l then t - l else if t < b then t + l else t) else t)
/-- Bit-reversed advance (R87). -/
def brevAdv (p n : W32) : W32 :=
  n32 (revBits 32 ((revBits 32 p.toNat + revBits 32 n.toNat) % 2 ^ 32))

/-- Address used by a memory operation, and what P becomes (R81; R82: modulo 2^32). `none`: P is kept. -/
def memAddr (k : Coach) (p sz mode opnd : Nat) : W32 × Option W32 :=
  let pv := rdP k p
  let imm := sx 9 opnd
  let nv := rdN k (fld opnd 5 4)
  match mode with
  | 0 => (pv + w32 imm, none)
  | 1 => (pv, some (pv + w32 imm))
  | 2 => (pv, some (pv + nv))
  | 3 => (pv - n32 (szWords sz), some (pv - n32 (szWords sz)))
  | 4 => (pv + n32 (nv.toNat * 2 ^ fld opnd 3 2), none)
  | 5 => (pv, some (circAdv k p pv imm))
  | 6 => (pv, some (circAdv k p pv (s32 nv)))
  | _ => (pv, some (brevAdv pv nv))

/-- Result of an AGU operation: the file written (true: P) and the value (R88). -/
def aguVal (k : Coach) (f d a imm b : Nat) : Bool × W32 :=
  match f with
  | 0 => (true, rdP k a + w32 (sx 13 imm))
  | 1 => (true, rdP k a + rdN k b)
  | 2 => (false, rdN k a + w32 (sx 13 imm))
  | 3 => (true, circAdv k d (rdP k a) (s32 (rdN k b)))
  | 4 => (true, brevAdv (rdP k a) (rdN k b))
  | _ => (false, w32 (sx 13 imm))

/-- The words a store of size code SZ takes from its data register (R79). -/
def storeData (k : Coach) (d sz : Nat) : W128 :=
  match sz with
  | 0 => BitVec.ofNat 128 ((rdG k d).toNat % 65536)
  | 1 => BitVec.ofNat 128 (rdG k d).toNat
  | 2 => BitVec.ofNat 128 ((rdG k d).toNat + 2 ^ 32 * (rdG k (d + 1)).toNat)
  | _ => rdV k d

/-- Source value of a MOVX (R73). -/
def movxSrc (k : Coach) (a sf lane : Nat) : W32 :=
  match sf with
  | 0 => rdG k a
  | 1 => rdP k a
  | 2 => rdN k a
  | 3 => n32 (lane32 (rdV k a) lane)
  | 4 => w32 (sx 16 (lane16 (rdV k a) lane))
  | _ => n32 (lane16 (rdV k a) lane)

/-- What a MOVX writes: file, mask and value of its destination (R73). -/
def movxDst (df lane : Nat) (v : W32) : RegFile × Nat × Nat :=
  let x := v.toNat
  match df with
  | 0 => (.g, 2 ^ 32 - 1, x)
  | 1 => (.p, 2 ^ 32 - 1, x)
  | 2 => (.n, 2 ^ 32 - 1, x)
  | 3 => (.v, (2 ^ 32 - 1) * 2 ^ (32 * lane), x * 2 ^ (32 * lane))
  | 4 => (.v, 65535 * 2 ^ (16 * lane), (x % 65536) * 2 ^ (16 * lane))
  | 5 => (.v, 65535 * 2 ^ (16 * lane), (x % 65536) * 2 ^ (16 * lane))
  | _ => (.v, 2 ^ 128 - 1, x * (1 + 2 ^ 32 + 2 ^ 64 + 2 ^ 96))

/-- The sliding window of MACFIR and LMSU: Va followed by V((a + 1) mod 16) (R117). -/
def windowLane (k : Coach) (m a i : Nat) : Int :=
  let n := 128 / laneW m
  let v := if i < n then rdV k a else rdV k ((a + 1) % 16)
  sx (laneW m) (laneM m v (i % n))

end Sys2Proof.Machine
end

