-- ==== Sys2Proof/Machine/RegMap.lean ====
section
/-! DEFINITION. The system register window: which addresses hold a register, its access codes, its reset
value, whose claim its OWN fields need and which CONFLICT bit it sets (chapters 09 to 17). -/
namespace Sys2Proof.Machine
open Sys2Proof.Config

/-! ## Units present (R3, R23) -/

/-- Ethernet port present: 10 Gbit/s ports by variant, ports 4 and 5 always. -/
def ethPresent (v : Variant) (e : Nat) : Bool := decide (e < v.tenGig) || e = 4 || e = 5
/-- Physical slot present. -/
def slotPresent (v : Variant) (c : Nat) : Bool := decide (c < 72) && decide (c / 9 < v.clusters)
/-- Power domain present (R7, R23). -/
def domPresent (v : Variant) (d : Nat) : Bool :=
  if d < 72 then decide (d / 9 < v.clusters)
  else if d < 76 then true
  else if d < 84 then decide (d - 76 < v.clusters)
  else if d < 116 then decide ((d - 84) / 4 < v.clusters)
  else if d < 124 then true
  else if d < 126 then decide (d - 124 < v.dramChannels)
  else if d < 132 then ethPresent v (d - 126)
  else if d < 140 then decide (4 * (d - 132) < v.tdmPorts)
  else if d < 144 then decide (d - 140 < v.asrcEngines)
  else decide (d < 148)
/-- Power domain with retention (R23, Table 5). -/
def domRetention (d : Nat) : Bool := decide (d < 76) || (decide (84 ≤ d) && decide (d < 124))
/-- Interrupt source of a present unit (R419, R6); reserved numbers are absent. -/
def srcPresent (v : Variant) (n : Nat) : Bool :=
  if n < 256 then true
  else if n < 328 then slotPresent v (n - 256)
  else if n < 331 then true
  else if n < 384 then false
  else if n < 512 then true
  else if n < 576 then (n - 512) % 4 < 3 || n = 575
  else if n < 832 then decide ((n - 576) / 64 < v.asrcEngines)
  else if n < 896 then decide ((n - 832) / 2 < v.tdmPorts)
  else if n < 904 then false
  else if n < 908 then true
  else if n < 912 then false
  else if n < 936 then ethPresent v ((n - 912) / 4)
  else if n < 939 then true
  else if n < 960 then false
  else if n < 1033 then true
  else if n < 1040 then false
  else if n < 1046 then true
  else if n < 1048 then false
  else if n < 1050 then true
  else if n = 1050 then decide (0 < v.dramChannels)
  else if n < 1056 then false
  else if n < 1080 then decide ((n - 1056) / 3 < v.clusters)
  else if n = 1080 then true
  else decide (1088 ≤ n) && decide (n < 1096)
/-- Sources that L0's resident services hold from BOOT onward (R419). -/
def srcOfL0 (n : Nat) : Bool :=
  (decide (256 ≤ n) && decide (n < 331)) || (decide (1024 ≤ n) && decide (n < 1080))

/-! ## Registers -/

/-- A register: bits of access RW, OWN and W1C, reset value, the claim its OWN bits need (0 none, 1 L0, else the
address of the claim word), the address and bit of its CONFLICT flag (`confAt` 0: none), and whether it is a claim
word. Bits in no mask are RO or WO. -/
structure RegInfo where
  rw : Nat
  own : Nat
  w1c : Nat
  rst : W32
  claim : Nat
  confAt : Nat
  confBit : Nat
  isClaim : Bool
  deriving DecidableEq, Repr

def ro (rst : W32) : RegInfo := { rw := 0, own := 0, w1c := 0, rst := rst, claim := 0, confAt := 0, confBit := 0, isClaim := false }

/-- A register at offset `o` below `lo + step × n`, at `lo + step × i + sub`: its `i`. -/
def atIdx (o lo step sub n : Nat) : Option Nat :=
  if lo ≤ o && (o - lo) / step < n && (o - lo) % step = sub then some ((o - lo) / step) else none

/-- CL_ block (R276, R523). -/
def regCL (o : Nat) : Option RegInfo :=
  if o = 0x0000 then some { ro 0 with own := 0x1FF, claim := 1 }
  else if 0x0010 ≤ o && o < 0x0020 then some (ro (n32 (((o - 0x10) / 2) * 2 ^ 26)))
  else if 0x0020 ≤ o && o < 0x0030 then some { ro 0xFFFF with own := 0xFFFF, claim := 1 }
  else if 0x0040 ≤ o && o < 0x0060 then some (ro 0xFFFFFFFF)
  else if o = 0x0100 then some { ro 24 with own := 0x3F, claim := 1 }
  else none

/-- A master identity that is assigned (R21). -/
def masterUsed (m : Nat) : Bool :=
  decide (m < 76) || (decide (80 ≤ m) && decide (m < 102)) || (decide (104 ≤ m) && decide (m < 108))

def memStat : Nat := 0x04082100
/-- MEM_ block (R292, R297, R299, R304). Its writers are R292 and R297's, not a claim. -/
def regMEM (o : Nat) : Option RegInfo :=
  let z := { ro 0 with confAt := memStat, confBit := 0 }
  if o < 0x2000 then
    let i := o / 64
    let full := (i = 72 || i = 107) && o % 64 < 8
    if !masterUsed i then none
    else if o % 8 = 0 then some { z with rw := 0xFFFFFFC0 }
    else if o % 8 = 2 then some { z with rw := 0xFFFFFFC0, rst := if full then 0xFFFFFFFF else 0x3F }
    else if o % 8 = 4 then some { z with rw := 0xFFFF000F, rst := if full then 0x0001000F else 0x00010000 }
    else none
  else if o < 0x2100 then (if masterUsed ((o - 0x2000) / 2) then some { z with rw := 0xFFFF, rst := 1 } else none)
  else if o = 0x2100 then some { z with w1c := 3 }
  else if o = 0x2200 then some { z with rw := 0x17F, w1c := 0x4000 }
  else if o = 0x2202 then some { z with rw := 0xFFFFFFFF }
  else if 0x2208 ≤ o && o < 0x2210 then some { z with rw := 0xFFFFFFFF }
  else if o = 0x2300 then some z
  else if o = 0x2302 then some { z with rw := 1 }
  else none

def eccStat : Nat := 0x04090000
/-- ECC_ block (R342, Tables 10 and 11). -/
def regECC (o : Nat) : Option RegInfo :=
  let z := { ro 0 with claim := 1, confAt := eccStat, confBit := 0 }
  if o = 0 then some { z with own := 0x0FF80000, w1c := 0x80000003 }
  else if o = 2 then some { z with own := 7 }
  else if o = 4 then some { z with own := 0xFFFFFFFF }
  else if 0x10 ≤ o && o < 0x28 then some z
  else if 0x1000 ≤ o && o < 0x2000 then some z
  else none

/-- Default scrub interval of a memory kind (R328). -/
def scrubDefault (m : Nat) : Nat :=
  match m with | 0 => 64000 | 1 => 64000 | 2 => 16000 | 3 => 4576 | 4 => 1144 | _ => 432
def scbStat : Nat := 0x040A0010
/-- SCB_ block (Table 12 of chapter 11). -/
def regSCB (o : Nat) : Option RegInfo :=
  let z := { ro 0 with claim := 1, confAt := scbStat, confBit := 0 }
  if o < 12 then some { z with own := 0x1FFFF, rst := n32 (65536 + scrubDefault (o / 2)) }
  else if o = 0x10 then some { z with w1c := 1 }
  else none

def mtStat : Nat := 0x040B0002
/-- MT_ block (Table 13 of chapter 11). -/
def regMT (o : Nat) : Option RegInfo :=
  let z := { ro 0 with claim := 1, confAt := mtStat, confBit := 0 }
  if o = 0 then some { z with own := 0xE1FFFF80 }
  else if o = 2 then some { z with w1c := 1 }
  else if o = 4 then some z
  else none

def fuseStat : Nat := 0x040C0002
/-- FUSE_ block (Table 14 of chapter 11). -/
def regFUSE (o : Nat) : Option RegInfo :=
  let z := { ro 0 with claim := 1, confAt := fuseStat, confBit := 0 }
  if o = 0 then some { z with own := 0x80000000 }
  else if o = 2 then some { z with w1c := 3 }
  else none

def icBase : Nat := 0x040D0000
def icStat : Nat := 0x040D0208
def icScfg (n : Nat) : Nat := icBase + 0x4000 + 8 * n
def icStgt (n : Nat) : Nat := icBase + 0x4002 + 8 * n
def icScnt (n : Nat) : Nat := icBase + 0x4004 + 8 * n
def icSclaim (n : Nat) : Nat := icBase + 0x4006 + 8 * n
/-- IC_ block (R431). Registers of absent sources read 0 and ignore writes (R6). -/
def regIC (v : Variant) (o : Nat) : Option RegInfo :=
  let z := { ro 0 with confAt := icStat, confBit := 0 }
  if o < 0x84 || (0x100 ≤ o && o < 0x184) then some z
  else if o = 0x200 || o = 0x202 || o = 0x204 || o = 0x206 then some z
  else if o = 0x208 then some { z with w1c := 1 }
  else if 0x4000 ≤ o && o < 0x8000 then
    let n := (o - 0x4000) / 8
    if !srcPresent v n then some (ro 0)
    else
      let y := { z with claim := icSclaim n }
      if o % 8 = 0 then some { y with own := 0xF0FFFFFF, rst := 0x20010000 }
      else if o % 8 = 2 then some { y with own := 0x7F1F }
      else if o % 8 = 4 then some y
      else some { y with isClaim := true }
  else none

def tmBase : Nat := 0x040E0000
def tmBstat : Nat := 0x040E0006
def tmCnt (k : Nat) : Nat := tmBase + 0x1000 + 16 * k
def tmCmp (k : Nat) : Nat := tmBase + 0x1002 + 16 * k
def tmCtl (k : Nat) : Nat := tmBase + 0x1004 + 16 * k
def tmStat (k : Nat) : Nat := tmBase + 0x1006 + 16 * k
def tmLost (k : Nat) : Nat := tmBase + 0x1008 + 16 * k
def tmClaim (k : Nat) : Nat := tmBase + 0x100A + 16 * k
/-- TM_ block (R440). -/
def regTM (o : Nat) : Option RegInfo :=
  let z := { ro 0 with confAt := tmBstat, confBit := 0 }
  if o < 6 then some z
  else if o = 6 then some { z with w1c := 1 }
  else if 0x1000 ≤ o && o < 0x1400 then
    let y := { z with claim := tmClaim ((o - 0x1000) / 16) }
    match o % 16 with
    | 0 => some { y with own := 0xFFFFFFFF }
    | 2 => some { y with own := 0xFFFFFFFF, rst := 0xFFFFFFFF }
    | 4 => some { y with own := 0xFC00FFFF }
    | 6 => some { y with w1c := 3 }
    | 8 => some { y with w1c := 0x10000 }
    | 10 => some { y with isClaim := true }
    | _ => none
  else none

def pwrBase : Nat := 0x040F0000
def pwrStat : Nat := 0x040F0230
def pwrDom (d : Nat) : Nat := pwrBase + 2 * d
/-- PWR_ block (R523). -/
def regPWR (v : Variant) (o : Nat) : Option RegInfo :=
  let z := { ro 0 with claim := 1, confAt := pwrStat, confBit := 0 }
  if o < 0x128 then
    let d := o / 2
    some { z with own := 3, rst := n32 (2 + (if domPresent v d then 0x200 else 0x300) + (if domRetention d then 0x400 else 0)) }
  else if o = 0x200 then some { z with own := 0x80000FFF, rst := 800 }
  else if o = 0x202 || o = 0x206 || o = 0x208 then some z
  else if o = 0x204 then some { z with w1c := 0x3F00, rst := 0x0101 }
  else if 0x210 ≤ o && o < 0x224 then some z
  else if o = 0x230 then some { z with w1c := 1 }
  else none

def clkBase : Nat := 0x04100000
def mcCtl (m : Nat) : Nat := clkBase + 0x1000 + 16 * m
def mcStat (m : Nat) : Nat := clkBase + 0x1002 + 16 * m
def mcSc (m : Nat) : Nat := clkBase + 0x1004 + 16 * m
def mcClaim (m : Nat) : Nat := clkBase + 0x1008 + 16 * m
/-- CLK_ block (R350, R523). -/
def regCLK (o : Nat) : Option RegInfo :=
  if o = 0 then some (ro 0)
  else if 0x1000 ≤ o && o < 0x1040 then
    let m := (o - 0x1000) / 16
    let y := { ro 0 with claim := mcClaim m, confAt := mcStat m, confBit := 28 }
    match o % 16 with
    | 0 => some { y with own := 0xFFFF07FF, rst := 0x02800000 }
    | 2 => some { y with w1c := 0x10000000 }
    | 4 => some y
    | 6 => some y
    | 8 => some { y with isClaim := true }
    | _ => none
  else none

def bbBase : Nat := 0x04110000
/-- BB_ block (R494). -/
def regBB (o : Nat) : Option RegInfo :=
  let z := { ro 0 with claim := 1 }
  if o = 0 || o = 4 then some z
  else if o = 2 then some { z with own := 0xFF, rst := 0x36 }
  else if o = 6 then some { z with own := 0xFFF }
  else if 0x10 ≤ o && o < 0x40 then some z
  else if 0x40 ≤ o && o < 0x4C then some { z with own := 0xFFFFFFFF }
  else none

def ptpBase : Nat := 0x04140000
def ptpStat : Nat := 0x04140002
def ptpDctl (d : Nat) : Nat := ptpBase + 0x10 + 0x10 * d
def ptpDstat (d : Nat) : Nat := ptpBase + 0x12 + 0x10 * d
def ptpLat (e : Nat) : Nat := ptpBase + 0x100 + 2 * e
/-- PTP_ block (R417). -/
def regPTP (o : Nat) : Option RegInfo :=
  let z := { ro 0 with confAt := ptpStat, confBit := 0 }
  if o = 0 then some { z with rw := 1 }
  else if o = 2 then some { z with w1c := 3 }
  else if 0x10 ≤ o && o < 0x30 then
    let d := (o - 0x10) / 16
    match o % 16 with
    | 0 => some { z with rw := 0xFFFFFFF8, rst := n32 (2 ^ 30 + 4 * 2 ^ 27 + d * 2 ^ 19 + 246 * 2 ^ 11 + 248 * 8) }
    | 2 => some z
    | 4 => some z
    | 6 => some z
    | _ => none
  else if 0x100 ≤ o && o < 0x10C then some { z with rw := 0xFFFFFFFF }
  else none

def seBase (n : Nat) : Nat := 0x04200000 + n * 0x10000
def seDesc (n w i : Nat) : Nat := seBase n + 0x100 + 16 * w + 2 * i
def seBlk (n w : Nat) : Nat := seBase n + 0x800 + 8 * w
def seConc (n w : Nat) : Nat := seBase n + 0x802 + 8 * w
def seLate (n w : Nat) : Nat := seBase n + 0x804 + 8 * w
def seClaim (n w : Nat) : Nat := seBase n + 0x806 + 8 * w
/-- Bits of register `i` of a wagon's descriptor that hold a field (Table 12 of chapter 12). -/
def wagMask (i : Nat) : Nat := match i with | 0 => 0xFFFFFE00 | 1 => 0xFFFFFFF0 | 2 => 0xFFFFFFF0 | 3 => 0xFFDFFFFE | _ => 0xFFFFFFFF
/-- SE_ block of engine n (R387). -/
def regSE (n o : Nat) : Option RegInfo :=
  let z := { ro 0 with confAt := seBase n, confBit := 30 }
  if o = 0 then some { z with w1c := 0x40000000 }
  else if 0x100 ≤ o && o < 0x500 then some { z with own := wagMask (o % 16 / 2), claim := seClaim n ((o - 0x100) / 16) }
  else if 0x800 ≤ o && o < 0xA00 then
    (if o % 8 = 6 then some { z with isClaim := true } else some z)
  else none

def asBase (n : Nat) : Nat := 0x04300000 + n * 0x10000
def asCtl (n s : Nat) : Nat := asBase n + 8 * s
def asDelay (n s : Nat) : Nat := asBase n + 8 * s + 2
def asWin (n s : Nat) : Nat := asBase n + 8 * s + 4
def asStat (n s : Nat) : Nat := asBase n + 8 * s + 6
def asRatio (n s : Nat) : Nat := asBase n + 0x200 + 2 * s
def asClaim (n s : Nat) : Nat := asBase n + 0x300 + 2 * s
/-- ASRC_ block of engine n (R379). -/
def regASRC (n o : Nat) : Option RegInfo :=
  if o < 0x200 then
    let s := o / 8
    let y := { ro 0 with claim := asClaim n s, confAt := asStat n s, confBit := 30 }
    match o % 8 with
    | 0 => some { y with own := 0xFF0FFFFF, rst := 0x05000000 }
    | 2 => some { y with own := 0xFFFFFFFF }
    | 4 => some { y with own := 0xFFFF, rst := 200 }
    | _ => some { y with w1c := 0x40000000 }
  else if o < 0x280 then some (ro 0)
  else if 0x300 ≤ o && o < 0x380 then
    some { ro 0 with confAt := asStat n ((o - 0x300) / 2), confBit := 30, isClaim := true }
  else none

def apBase (p : Nat) : Nat := 0x04400000 + p * 0x10000
def apCtl (p : Nat) : Nat := apBase p
def apFmt (p : Nat) : Nat := apBase p + 2
def apRxen (p : Nat) : Nat := apBase p + 4
def apTxen (p : Nat) : Nat := apBase p + 6
def apStat (p : Nat) : Nat := apBase p + 8
def apClaim (p : Nat) : Nat := apBase p + 10
/-- AP_ block of TDM port p (R357). -/
def regAP (p o : Nat) : Option RegInfo :=
  let y := { ro 0 with claim := apClaim p, confAt := apStat p, confBit := 29 }
  match o with
  | 0 => some { y with own := 0xF0000000 }
  | 2 => some { y with own := 0xFFFE0000,
                       rst := n32 (2 ^ 30 + 7 * 2 ^ 25 + 2 * 2 ^ 23 + 2 ^ 21 + 2 ^ 20 + 2 ^ 18) }
  | 4 => some { y with own := 0xFFFFFFFF }
  | 6 => some { y with own := 0xFFFFFFFF }
  | 8 => some { y with w1c := 0x20000000 }
  | 10 => some { y with isClaim := true }
  | _ => none

def pdmBase : Nat := 0x04600000
def pdmCtl (i : Nat) : Nat := pdmBase + 2 * i
def pdmClaim (i : Nat) : Nat := pdmBase + 0x10 + 2 * i
def pdmStat : Nat := pdmBase + 0x20
/-- PDM block (R360). -/
def regPDM (o : Nat) : Option RegInfo :=
  let z := { ro 0 with confAt := pdmStat, confBit := 8 }
  if o < 0x10 then some { z with own := 0xF0000000, claim := pdmClaim (o / 2) }
  else if o < 0x20 then some { z with isClaim := true }
  else if o = 0x20 then some { z with w1c := 0x100 }
  else none

def ethBase (e : Nat) : Nat := 0x04700000 + e * 0x10000
def ethStat (e : Nat) : Nat := ethBase e + 2
def ethClaim (e : Nat) : Nat := ethBase e + 10
def ethGctl (e : Nat) : Nat := ethBase e + 0x20
def ethCnt (e k : Nat) : Nat := ethBase e + 0x30 + 2 * k
/-- ETH_ block of port e, the context window apart (R416). -/
def regETH (e o : Nat) : Option RegInfo :=
  let y := { ro 0 with claim := ethClaim e, confAt := ethStat e, confBit := 30 }
  if o = 0 then some { y with own := 0xFE000000 }
  else if o = 2 then some { y with w1c := 0x40000000 }
  else if o = 4 then some { y with own := 0xFFFFFFFF, rst := n32 ((portMac e).toNat / 65536) }
  else if o = 6 then some { y with own := 0xFFFF0000, rst := n32 ((portMac e).toNat % 65536 * 65536) }
  else if o = 8 then some { y with own := 0xFFFFFFFF }
  else if o = 10 then some { y with isClaim := true }
  else if 0x10 ≤ o && o < 0x20 then some { y with own := 0xFFFFFFFF }
  else if o = 0x20 then some { y with own := 0xC00001FF, rst := 1 }
  else if o = 0x22 then some { y with own := 0xFFFFFFFF, rst := 1000000 }
  else if o = 0x24 || o = 0x26 then some { y with own := 0xFFFFFFFF }
  else if 0x30 ≤ o && o < 0x42 then some y
  else if 0x1000 ≤ o && o < 0x1400 then some { y with own := 0xFFFFFFFF, rst := 0xFF000000 }
  else if o = 0x4000 || o = 0x4002 || o = 0x4004 then some y
  else if 0x4010 ≤ o && o < 0x4028 then some y
  else if 0x4030 ≤ o && o < 0x4048 then some y
  else none

/-- The register at a word address of the window, none where the address is unassigned in this variant
(R16, R20). Of the FPP_ and CAN_ blocks the spec lists no register: each word pair of them is one that other masters read as 0
and cannot store to (chapter 15; DESIGN CHOICE, log entry 108). -/
def regInfo (v : Variant) (a : Nat) : Option RegInfo :=
  if a < 0x04000000 || a ≥ 0x05000000 || a % 2 = 1 then none
  else
    let b := a / 0x10000 % 256
    let o := a % 0x10000
    if b < 8 then (if b < v.clusters then regCL o else none)
    else if b = 8 then regMEM o
    else if b = 9 then regECC o
    else if b = 10 then regSCB o
    else if b = 11 then regMT o
    else if b = 12 then regFUSE o
    else if b = 13 then regIC v o
    else if b = 14 then regTM o
    else if b = 15 then regPWR v o
    else if b = 16 then regCLK o
    else if b = 17 then regBB o
    else if b = 18 || b = 19 then some (ro 0)
    else if b = 20 then regPTP o
    else if 0x20 ≤ b && b < 0x30 then regSE (b - 0x20) o
    else if 0x30 ≤ b && b < 0x34 then (if b - 0x30 < v.asrcEngines then regASRC (b - 0x30) o else none)
    else if 0x40 ≤ b && b < 0x60 then (if b - 0x40 < v.tdmPorts then regAP (b - 0x40) o else none)
    else if b = 0x60 then regPDM o
    else if 0x70 ≤ b && b < 0x76 then (if ethPresent v (b - 0x70) then regETH (b - 0x70) o else none)
    else none

/-- Reset value of the register at an address. -/
def sysReset (v : Variant) (a : Nat) : W32 :=
  match regInfo v a with
  | some r => r.rst
  | none => 0

/-! ## CO_ registers (R43, R182, R185, R275) -/

/-- Who may write a CO_ register: its RW and W1C bits and whether the supervisor alone stores it; none where the
word is unassigned. -/
structure CoInfo where
  rw : Nat
  w1c : Nat
  sup : Bool
  deriving DecidableEq, Repr

def coInfo (lead : Bool) (o : Nat) : Option CoInfo :=
  let r : CoInfo := { rw := 0, w1c := 0, sup := false }
  if o % 2 = 1 then none
  else if o = 0x000 then some { r with rw := 0x809D, sup := true }
  else if o = 0x002 then some { r with rw := 0x80, w1c := 0x1C00, sup := true }
  else if o = 0x004 then some { r with rw := 0xFFF, sup := true }
  else if o = 0x006 || o = 0x008 then some r
  else if o = 0x100 then some { r with rw := 0xFFFFFFFF }
  else if o = 0x102 then some { r with w1c := 7 }
  else if o = 0x200 then some { r with w1c := 15 }
  else if o = 0x280 then some { r with w1c := 63 }
  else if o = 0x282 then some { r with rw := 0x11F, sup := true }
  else if 0x300 ≤ o && o < 0x318 then
    (if o % 8 = 0 || o % 8 = 2 then some { r with rw := 0xFFFFFFFF } else if o % 8 = 4 then some { r with rw := 0x1FFFFFF } else none)
  else if o = 0x320 then some { r with rw := 0xFFFFFFFF }
  else if o = 0x322 || o = 0x324 || o = 0x326 then some { r with rw := 0x3FFF, sup := true }
  else if o = 0x328 then some { r with rw := 0xFF }
  else if o = 0x400 then some { r with rw := 0x1FF80, sup := true }
  else if o = 0x402 then some { r with rw := 0xFFFFFFFF, sup := true }
  else if 0x404 ≤ o && o ≤ 0x40A then some r
  else if o = 0x40C then some { r with rw := 1, sup := true }
  else if o = 0x40E then some { r with rw := 0xFFFFFFFF, sup := true }
  else if o = 0x410 || o = 0x412 then some r
  else if 0x500 ≤ o && o ≤ 0x50C then (if lead then none else some r)
  else if 0x600 ≤ o && o ≤ 0x60A then some { r with rw := 0xFFFFFFFF, sup := true }
  else if o = 0xFFE then some r
  else none

/-- Fields of a CO_ store that hold a reserved value and so keep their previous one (R14): position, width. -/
def coReserved (o : Nat) (v : Nat) : List (Nat × Nat) :=
  if o = 0x004 then (if v % 4096 < 16 then [(0, 12)] else [])
  else if o = 0x304 || o = 0x30C || o = 0x314 then (if v % 2 ^ 25 > 2 ^ 24 then [(0, 25)] else [])
  else if o = 0x322 || o = 0x324 || o = 0x326 then (if v % 16384 % 2 = 1 || v % 16384 > 0x3FC0 then [(0, 14)] else [])
  else []

end Sys2Proof.Machine
end

