-- ==== Sys2Proof/WellFormed.lean ====
section
/-! DEFINITION. Which commands exist: a command that names a unit no variant has is ill formed. -/
namespace Sys2Proof

/-- The identities a store or load can carry (R21): 76-79, 102, 103 and 108-127 are unused. -/
def masterOk (m : Nat) : Bool :=
  decide (m < 76) || (decide (80 ≤ m) && decide (m < 102)) || (decide (104 ≤ m) && decide (m < 108))
/-- Instances of a memory kind (R278, R328): 72 slots, 4 leads, 8 clusters, one GSM, 2 DRAM channels. -/
def instOk (kind inst : Nat) : Bool :=
  match kind with
  | 0 => decide (inst < 72)
  | 1 => decide (inst < 72)
  | 2 => decide (inst < 4)
  | 3 => decide (inst < 8)
  | 4 => decide (inst = 0)
  | 5 => decide (inst < 2)
  | _ => false
/-- A bank port of an existing instance. -/
def portOk (p : PortId) : Bool := instOk p.kind p.inst && decide (p.bank < 256)
/-- A transport that exists: 4 CAN channels, 6 Ethernet ports, the host SPI (R454, R455, R456). -/
def transportOk : Transport → Bool
  | .can chan src => decide (chan < 4) && decide (src < 256)
  | .udp port ip uport => decide (port < 6) && decide (ip < 2 ^ 32) && decide (uport < 65536)
  | .spi => true
def arrivalOk : Arrival → Bool
  | .can chan _ ident => decide (chan < 4) && decide (ident < 2 ^ 29)
  | .udp port ip uport => decide (port < 6) && decide (ip < 2 ^ 32) && decide (uport < 65536)
  | .spi opcode length => decide (opcode < 256) && decide (length < 65536)

/-- The command exists. -/
def Instr.wf : Instr → Bool
  | .bundleIssue c => decide (c < 76)
  | .fetchDecode c => decide (c < 76)
  | .resultLands c => decide (c < 76)
  | .accessAccepted c _ => decide (c < 76)
  | .blkElement c => decide (c < 76)
  | .vfirbGroup c => decide (c < 76)
  | .ketchModeSwitch c => decide (c < 76)
  | .ketchNop c => decide (c < 76)
  | .move c => decide (c < 76)
  | .ldi c => decide (c < 76)
  | .ldhi c => decide (c < 76)
  | .ketchAdd c => decide (c < 76)
  | .ketchSub c => decide (c < 76)
  | .ketchMul c => decide (c < 76)
  | .ketchAddi c => decide (c < 76)
  | .ketchAnd c => decide (c < 76)
  | .ketchOr c => decide (c < 76)
  | .ketchXor c => decide (c < 76)
  | .ketchShl c => decide (c < 76)
  | .ketchShr c => decide (c < 76)
  | .ketchSar c => decide (c < 76)
  | .ketchSeq c => decide (c < 76)
  | .ketchSlt c => decide (c < 76)
  | .cvt c => decide (c < 76)
  | .mktag c => decide (c < 76)
  | .tagof c => decide (c < 76)
  | .ld c => decide (c < 76)
  | .st c => decide (c < 76)
  | .ldraw c => decide (c < 76)
  | .straw c => decide (c < 76)
  | .frame c => decide (c < 76)
  | .ketchBz c => decide (c < 76)
  | .ketchBnz c => decide (c < 76)
  | .ketchB c => decide (c < 76)
  | .jmp c => decide (c < 76)
  | .ketchCall c => decide (c < 76)
  | .ketchCallr c => decide (c < 76)
  | .ketchRet c => decide (c < 76)
  | .kcall c => decide (c < 76)
  | .kret c => decide (c < 76)
  | .ksys c => decide (c < 76)
  | .kbrk c => decide (c < 76)
  | .keret c => decide (c < 76)
  | .eventTaken c => decide (c < 76)
  | .holdOverrun c => decide (c < 76)
  | .subnormalTrap c => decide (c < 76)
  | .exceptionEntry c => decide (c < 76)
  | .coachStart c => decide (c < 76)
  | .holdMaxRead c => decide (c < 76)
  | .handoverWait c => decide (c < 76)
  | .waitHeartbeat c => decide (c < 76)
  | .jobEnd c => decide (c < 76)
  | .jobStart c => decide (c < 76)
  | .heartbeatStore c => decide (c < 76)
  | .timeRelease cart => decide (cart < 4096)
  | .heldRelease cart => decide (cart < 4096)
  | .graphRelease cart => decide (cart < 4096)
  | .jobWithdrawn cart => decide (cart < 4096)
  | .budgetOverrun c => decide (c < 76)
  | .graceExpired c => decide (c < 76)
  | .hitchSearch n => decide (n < 64)
  | .crossClusterSearch n => decide (n < 64)
  | .heartbeatSample => true
  | .failover n _ _ _ => decide (n < 64)
  | .recommission _ => true
  | .admitTable => true
  | .admitRunEntry => true
  | .withdraw => true
  | .sourceEvent n _ => decide (n < 2048)
  | .gatherTimeout n => decide (n < 2048)
  | .icSwset m _ => masterOk m
  | .icComp m _ => masterOk m
  | .sourceDisable m n _ => masterOk m && decide (n < 2048)
  | .claimUnit m addr => masterOk m && decide (addr < 2 ^ 32)
  | .releaseClaim m addr => masterOk m && decide (addr < 2 ^ 32)
  | .counterTick k => decide (k < 64)
  | .counterWrap k => decide (k < 64)
  | .matchEvent k => decide (k < 64)
  | .freezeStop m => masterOk m
  | .freezeStart m => masterOk m
  | .tmCntStore m k _ => masterOk m && decide (k < 64)
  | .tmCntLoad m k => masterOk m && decide (k < 64)
  | .tmCmpStore m k _ => masterOk m && decide (k < 64)
  | .menEnable m k => masterOk m && decide (k < 64)
  | .bankArbitration p => portOk p
  | .writeOut p => portOk p
  | .correctionWriteBack kind inst bank => instOk kind inst && decide (bank < 256)
  | .pageReconstruction kind inst bank => instOk kind inst && decide (bank < 256)
  | .remap kind inst _ => instOk kind inst
  | .scrubPageStart kind inst => instOk kind inst
  | .scrubRead kind inst => instOk kind inst
  | .marchStart => true
  | .marchRow failOp => decide (failOp < 11)
  | .marchComplete failing => failing.all (fun e => decide (1 ≤ e.2) && decide (e.2 ≤ 10))
  | .fuseProgram => true
  | .fuseEntryDone _ => true
  | .vppRemoved => true
  | .injectionArm m _ => masterOk m
  | .logWrite => true
  | .tailStore m _ => masterOk m
  | .loadPortWrite m _ => masterOk m
  | .loadPortRead m _ => masterOk m
  | .loadPortDone => true
  | .regionWrite m _ addr _ => masterOk m && decide (addr < 2 ^ 32)
  | .dramPark => true
  | .parkComplete => true
  | .dramUnpark => true
  | .sampleEdge k => decide (k < 4)
  | .mediaClockEnable m k _ => masterOk m && decide (k < 4)
  | .mediaClockDisable m k _ => masterOk m && decide (k < 4)
  | .referenceLost k => decide (k < 4)
  | .referenceReturn k => decide (k < 4)
  | .lockAchieved k => decide (k < 4)
  | .countLatchRead m addr => masterOk m && decide (addr < 2 ^ 32)
  | .frameSync p _ _ => decide (p < 32)
  | .frameCaptured p _ => decide (p < 32)
  | .noclk p => decide (p < 32)
  | .bclkReturn p => decide (p < 32)
  | .portEnable m p _ => masterOk m && decide (p < 32)
  | .portDisable m p _ => masterOk m && decide (p < 32)
  | .formatStore m p _ => masterOk m && decide (p < 32)
  | .pdmControlStore m i _ => masterOk m && decide (i < 8)
  | .wagonEnable m n w _ => masterOk m && decide (n < 16) && decide (w < 64)
  | .wagonDisable m n w _ => masterOk m && decide (n < 16) && decide (w < 64)
  | .blockReady n w => decide (n < 16) && decide (w < 64)
  | .lineMove n => decide (n < 16)
  | .concealment n w => decide (n < 16) && decide (w < 64)
  | .asrcStreamEnable m n t _ => masterOk m && decide (n < 4) && decide (t < 64)
  | .asrcStreamDisable m n t _ => masterOk m && decide (n < 4) && decide (t < 64)
  | .asrcDelayStore m n t _ => masterOk m && decide (n < 4) && decide (t < 64)
  | .asrcOutputBlock n t => decide (n < 4) && decide (t < 64)
  | .asrcLock n t _ => decide (n < 4) && decide (t < 64)
  | .asrcUnlock n t => decide (n < 4) && decide (t < 64)
  | .expressInputPair => true
  | .expressOutput => true
  | .frameReceive e _ => decide (e < 6)
  | .syncReceiptTimeout d => decide (d < 4)
  | .syncTransmit d => decide (d < 4)
  | .pdelayRequest d => decide (d < 4)
  | .listenerLost x => decide (x < 2048)
  | .talkerLaunch x => decide (x < 2048)
  | .frameTransmit e => decide (e < 6)
  | .gateIntervalEnd e => decide (e < 6)
  | .gateChangeRequest m e _ => masterOk m && decide (e < 6)
  | .gateListChange e => decide (e < 6)
  | .contextEnable m e _ => masterOk m && decide (e < 6)
  | .contextDisable m e _ => masterOk m && decide (e < 6)
  | .rebind m e _ => masterOk m && decide (e < 6)
  | .linkDown e => decide (e < 6)
  | .linkUp e => decide (e < 6)
  | .mdioCommand _ => true
  | .requestArrival a _ => arrivalOk a
  | .spiRead => true
  | .read => true
  | .write => true
  | .status => true
  | .claim => true
  | .heartbeat => true
  | .handover => true
  | .release => true
  | .electionEnd => true
  | .ownerLapse => true
  | .sessionClose t => transportOk t
  | .transferTimeout t => transportOk t
  | .svcClaim => true
  | .svcProve => true
  | .challengeExpiry => true
  | .svcEnd => true
  | .serviceLapse => true
  | .serviceEnDeassert => true
  | .safeCommand => true
  | .configCommand => true
  | .resourceClaim => true
  | .resourceRelease => true
  | .clearReportCounts => true
  | .commSettingsApply => true
  | .rwpPersist _ => true
  | .ringWrite => true
  | .bbInCommit m _ => masterOk m
  | .manualTrigger => true
  | .rearm => true
  | .ownerNote => true
  | .copySlotErase => true
  | .lostPeriodSummary => true
  | .pfailAssert => true
  | .pfailRelease => true
  | .dipEnd => true
  | .powerOnReset => true
  | .resetNAssert => true
  | .l0HaltReset => true
  | .watchdogExpiry => true
  | .watchdogKick m _ => masterOk m
  | .thermalTrip => true
  | .pllLockLost => true
  | .resetRelease => true
  | .selftestComplete found => found.rows.all (fun f => decide (1 ≤ f.op) && decide (f.op ≤ 10))
  | .bootComplete => true
  | .domainRequest d req => decide (d < 148) && decide (req < 4)
  | .domainTransitionDone d => decide (d < 148)
  | .avsReadback _ _ _ => true
  | .voltageStepDown => true
  | .marginMeasure _ => true
  | .vAgeStore => true
  | .supplyAlarm _ _ => true
  | .thermalAlarm _ _ => true
  | .clusterClockSet k _ => decide (k < 8)
  | .registerWrite m _ addr _ => masterOk m && decide (addr < 2 ^ 32)
  | .thermalAlarmEnd => true
  | .rearmComplete => true
  | .canErrorStateChange c => decide (c < 4)
  | .pendingRepairListStore => true

end Sys2Proof
end

