-- ==== Sys2Proof/Machine/Ops.lean ====
section
/-! DEFINITION. The named operations every family shares: coaches and registers by number, logical coaches and
slots, interrupt sources (R420 to R424), the black box's intake (R478), the error log's intake (R340), and the
tick of an empty queue. -/
namespace Sys2Proof.Machine
open Sys2Proof.Config

/-- A command that exists takes the state it leaves; one that names a unit no variant has does not exist. -/
def act (ok : Bool) (t : State) : Host.Outcome State Fault Refusal := if ok then .next t else .refused .illFormed

/-! ## Coaches and registers -/

/-- The coach with a master identity. -/
def co (s : State) (c : Nat) : Coach := tget Coach.reset s.coaches c
def setCo (s : State) (c : Nat) (k : Coach) : State := { s with coaches := tput Coach.reset s.coaches c k }
/-- Lead coach by its identity (R21). -/
def isLead (c : Nat) : Bool := decide (72 ≤ c) && decide (c < 76)
/-- The processor is present in the variant (R3). -/
def coachPresent (s : State) (c : Nat) : Bool := slotPresent s.variant c || isLead c

/-- Stored value of the system register at a word address. -/
def reg (s : State) (a : Nat) : W32 := tget (sysReset s.variant a) s.regs a
def setReg (s : State) (a : Nat) (v : W32) : State := { s with regs := tput (sysReset s.variant a) s.regs a v }
/-- Field of a system register. -/
def regF (s : State) (a lo w : Nat) : Nat := rfld (reg s a) lo w
def setRegF (s : State) (a lo w v : Nat) : State := setReg s a (setR (reg s a) lo w v)
/-- Bit of a system register. -/
def regB (s : State) (a i : Nat) : Bool := rbit (reg s a) i
def setRegB (s : State) (a i : Nat) (b : Bool) : State := setRegF s a i 1 (b2n b)
/-- A register with one copy per master (R350, R416, R434). -/
def perM (s : State) (a m : Nat) : W32 := tget 0 s.perMaster (a * 128 + m)
def setPerM (s : State) (a m : Nat) (v : W32) : State := { s with perMaster := tput 0 s.perMaster (a * 128 + m) v }

/-- State of a power domain: 0 OFF, 1 RETENTION, 2 ON, 3 absent (R523). -/
def domState (s : State) (d : Nat) : Nat := regF s (pwrDom d) 8 2
def domOn (s : State) (d : Nat) : Bool := domState s d = 2

/-! ## Logical coaches and slots (R22, R17, R270) -/

/-- A logical coach as reset leaves it: not started, on its own slot, epoch 1. `slot` 255: no slot serves it. `lstate`: 0
IN_SERVICE, 1 OUTAGE, 2 LOST, 3 not started. -/
def logReset (n : Nat) : Logical :=
  { lstate := 3, slot := 9 * (n / 8) + n % 8, epoch := 1, stealsIn := 0, stealsOut := 0, halts := 0, hbLosses := 0, lastOutage := 0,
    lastCount := 0, lastChange := 0, lastHalt := none, hold := 0, lastCross := 0 }
def logi (s : State) (n : Nat) : Logical := tget (logReset n) s.carts.logical n
def setLogi (s : State) (n : Nat) (l : Logical) : State :=
  { s with carts := { s.carts with logical := tput (logReset n) s.carts.logical n l } }
/-- Slot state: 0 SERVING, 1 SPARE, 2 FENCED, 3 ABSENT (entry 0x4031 of R277). -/
def slotReset (v : Variant) (c : Nat) : Nat := if !slotPresent v c then 3 else if c % 9 = 8 then 1 else 0
def slotSt (s : State) (c : Nat) : Nat := tget (slotReset s.variant c) s.carts.slots c
def setSlotSt (s : State) (c v : Nat) : State :=
  { s with carts := { s.carts with slots := tput (slotReset s.variant c) s.carts.slots c v } }
/-- The slot that serves a logical coach (R17); none from the declaration that it is dead until a spare is mapped, and none
while it is LOST. -/
def slotOf (s : State) (n : Nat) : Option Nat :=
  if n < s.variant.coaches && (logi s n).slot < 72 && (logi s n).lstate ≠ 1 then some (logi s n).slot else none
/-- The logical coach that a slot serves. -/
def logicalOf (s : State) (c : Nat) : Option Nat :=
  (upto s.variant.coaches).find? (fun n => slotOf s n = some c)
/-- Identity of a processor number of R424 (64 to 67 are L0 to L3); none where none receives. -/
def procMaster (s : State) (t : Nat) : Option Nat :=
  if t < 64 then slotOf s t else if t < 68 then some (t + 8) else none
/-- Processor number of a master (R424); none for a master that is no processor with a number. -/
def masterProc (s : State) (m : Nat) : Option Nat :=
  if m < 72 then logicalOf s m else if m < 76 then some (m - 8) else none

/-! ## Black box intake (R478, R480) -/

def bbLost (c : Nat) : Nat := bbBase + 0x10 + 2 * c
def bbNoneLost (s : State) : Bool := (upto 16).all (fun c => reg s (bbLost c) = 0)
/-- An entry is offered: counted as dropped in FROZEN (a rearm's copy apart, R482), queued while the intake has
room and no loss is unreported, else counted as lost in its class. -/
def bbOffer (s : State) (e : BbEntry) : State :=
  if s.bb.ready && s.bb.header.state = 2 && !s.bb.rearming then
    { s with bb := { s.bb with header := { s.bb.header with dropped := incSat 32 s.bb.header.dropped } } }
  else if s.bb.intake.length < 32 && bbNoneLost s then { s with bb := { s.bb with intake := s.bb.intake ++ [e] } }
  else setRegF s (bbLost (e.code / 256)) 0 16 (incSat 16 (regF s (bbLost (e.code / 256)) 0 16))
/-- An entry of source kind `sk` and instance `si` at the present device time (R476). -/
def bbEntry (s : State) (sk si code : Nat) (p0 p1 p2 p3 : W32) : BbEntry :=
  { time := s.dtime % 2 ^ 64, skind := sk, sinst := si, code := code, seq := 0, p0 := p0, p1 := p1, p2 := p2, p3 := p3 }
/-- An entry of L0's resident services. -/
def bbL0 (s : State) (code : Nat) (p0 p1 p2 p3 : W32) : State := bbOffer s (bbEntry s 1 0xFF code p0 p1 p2 p3)
/-- An entry of a hardware line. -/
def bbHw (s : State) (si code : Nat) (p0 p1 p2 p3 : W32) : State := bbOffer s (bbEntry s 0 si code p0 p1 p2 p3)
/-- A node identity and an epoch or slot as a parameter pair (R476). -/
def pairHi (node : Nat) : W32 := n32 (node / 65536)
def pairLo (node x : Nat) : W32 := n32 (node % 65536 * 65536 + x % 65536)

/-! ## Interrupt sources (R420, R421) -/

/-- State of a source: 0 IDLE, 1 GATHER, 2 ACTIVE; and EVCNT (Table 6 of chapter 14). -/
def srcState (s : State) (n : Nat) : Nat := regF s (icScnt n) 8 2
def srcCount (s : State) (n : Nat) : Nat := regF s (icScnt n) 0 8
def setSrc (s : State) (n st cnt : Nat) : State := setReg s (icScnt n) (n32 (st * 256 + cnt))
def srcEn (s : State) (n : Nat) : Bool := regB s (icScfg n) 31
def srcSense (s : State) (n : Nat) : Nat := regF s (icScfg n) 28 3
/-- An event of an enabled source (R421, Table 2). -/
def srcEvent (s : State) (n : Nat) : State :=
  if !srcEn s n then s else
  let cc := regF s (icScfg n) 16 8
  let ct := regF s (icScfg n) 0 16
  match srcState s n with
  | 0 =>
    if cc = 1 || ct = 0 then setSrc s n 2 1
    else { setSrc s n 1 1 with intc := { s.intc with gather := tput 0 s.intc.gather n s.now } }
  | 1 => let e := incSat 8 (srcCount s n); setSrc s n (if e ≥ cc then 2 else 1) e
  | _ => setSrc s n 2 (incSat 8 (srcCount s n))
/-- Signal of a source in the present cycle. -/
def srcSignal (s : State) (n : Nat) : Bool := tget 0 s.intc.signal n = 1
/-- The signal of a source takes a level; a change is an event as SENSE says (R420). -/
def setLevel (s : State) (n : Nat) (b : Bool) : State :=
  if srcSignal s n = b then s else
  let t := { s with intc := { s.intc with signal := tput 0 s.intc.signal n (b2n b) } }
  let sn := srcSense s n
  if sn = 4 || (b && (sn = 0 || sn = 2)) || (!b && (sn = 1 || sn = 3)) then srcEvent t n else t
/-- A pulse: the signal is 1 for one fabric cycle (R419). -/
def pulse (s : State) (n : Nat) : State := setLevel (setLevel s n true) n false
/-- A level source that still asserts makes an event when it is enabled or completed (R420). -/
def srcRearm (s : State) (n : Nat) : State :=
  let sn := srcSense s n
  if 256 ≤ n && ((sn = 0 && srcSignal s n) || (sn = 1 && !srcSignal s n)) then srcEvent s n else s
/-- Sources with a state other than IDLE. -/
def srcLive (s : State) : List Nat :=
  (tkeys s.regs (icBase + 0x4000) (icBase + 0x8000)).filterMap (fun a => if a % 8 = 4 then some ((a - icBase - 0x4000) / 8) else none)
/-- Inputs of a processor number that are asserted (R424), as a 32-bit word. -/
def inputsOf (s : State) (t : Nat) : Nat :=
  (srcLive s).foldl (fun r n =>
    if srcState s n = 2 && srcEn s n && regF s (icStgt n) 8 7 = t then r ||| 2 ^ regF s (icStgt n) 0 5 else r) 0

/-! ## The error log's intake (R339, R340) -/

def eccLost (c : Nat) : Nat := eccStat + 0x10 + 2 * c
def errNoneLost (s : State) : Bool := (upto 12).all (fun c => reg s (eccLost c) = 0)
/-- A record is queued, or counted as lost in its class. -/
def errQueue (s : State) (r : ErrRec) : State :=
  if s.mem.intake.length < 32 && errNoneLost s then { s with mem := { s.mem with intake := s.mem.intake ++ [r] } }
  else setRegF s (eccLost r.cls) 0 16 (incSat 16 (regF s (eccLost r.cls) 0 16))
/-- A report of class `cls`: counted since boot (0x7010) and for the pass's summary, then queued. -/
def errReport (s : State) (cls kind inst master detail addr : Nat) : State :=
  let m := s.mem
  let t := { s with mem := { m with
    reports := tput 0 m.reports cls (incSat 32 (tget 0 m.reports cls)),
    passCounts := tput 0 m.passCounts ((kind * 256 + inst) * 16 + cls) (tget 0 m.passCounts ((kind * 256 + inst) * 16 + cls) + 1) } }
  errQueue t { time := s.dtime / 10, cls := cls, kind := kind, inst := inst, master := master, detail := detail, addr := addr }

/-! ## The tick of an empty queue -/

def ptp0 : Ptp :=
  { gm := 0, gmPrio := 0, asCapable := false, offset := 0, lastSync := 0, goodSince := none, syncArrival := 0, pdelay := 0, reqSeq := 0, reqTime := 0,
    respTime := 0, syncInterval := -3, pdelayInterval := 0, lastTx := 0, lastPdelay := 0 }
def ptpOf (s : State) (d : Nat) : Ptp := tget ptp0 s.net.ptp d
def setPtp (s : State) (d : Nat) (p : Ptp) : State := { s with net := { s.net with ptp := tput ptp0 s.net.ptp d p } }
/-- Domain that device time tracks, while it is SYNCED (R397). -/
def dtDomain (s : State) : Option Nat :=
  let d := regF s 0x04140000 0 1
  if regF s (ptpDstat d) 30 2 = 2 then some d else none
/-- Device time moves against its fabric clock: the domains' offsets keep domain time where it is. -/
def shiftTime (s : State) (i : Int) : State :=
  let t := { s with dtime := ((s.dtime : Int) + i).toNat }
  (upto 2).foldl (fun t d => if ptpOf t d = ptp0 then t else setPtp t d { ptpOf t d with offset := (ptpOf t d).offset - i }) t
/-- One fabric cycle of 1 ns passes, for the fabric clock and for device time (R26, R397). Device time is slewed towards
its domain by 1 ns in 10,000 cycles, 100 ppm (DESIGN CHOICE, log entry 2: the largest rate R397 allows). -/
def tickCycle (s : State) : State :=
  let t := { s with now := s.now + 1, dtime := s.dtime + 1 }
  if t.now % 10000 ≠ 0 then t
  else match dtDomain t with
    | some d => let o := (ptpOf t d).offset; if o > 0 then shiftTime t 1 else if o < 0 then shiftTime t (-1) else t
    | none => t

end Sys2Proof.Machine
end

