-- ==== Sys2Proof/Machine/Strong.lean ====
section
/-! DEFINITION. The light code of a line (R307 to R309) and the strong code of a page (R310, R311): syndromes,
parity, and decoding with errors and erasures. Pure arithmetic on numbers. -/
namespace Sys2Proof.Machine

/-! ## The light code -/

/-- The eight-bit values of weight 3, ascending, then the eight smallest of weight 5 (R307): column h_i. -/
def lightCols : List Nat :=
  [0x07, 0x0B, 0x0D, 0x0E, 0x13, 0x15, 0x16, 0x19, 0x1A, 0x1C, 0x23, 0x25, 0x26, 0x29, 0x2A, 0x2C] ++
  [0x31, 0x32, 0x34, 0x38, 0x43, 0x45, 0x46, 0x49, 0x4A, 0x4C, 0x51, 0x52, 0x54, 0x58, 0x61, 0x62] ++
  [0x64, 0x68, 0x70, 0x83, 0x85, 0x86, 0x89, 0x8A, 0x8C, 0x91, 0x92, 0x94, 0x98, 0xA1, 0xA2, 0xA4] ++
  [0xA8, 0xB0, 0xC1, 0xC2, 0xC4, 0xC8, 0xD0, 0xE0, 0x1F, 0x2F, 0x37, 0x3B, 0x3D, 0x3E, 0x4F, 0x57]
def lightGo : List Nat → Nat → Nat → Nat
  | [], _, c => c
  | h :: r, x, c => lightGo r (x / 2) (if x % 2 = 1 then c ^^^ h else c)
/-- Check byte of 64 data bits (R307). -/
def lightCheck (x : Nat) : Nat := lightGo lightCols x 0
/-- Place of a syndrome among the columns. -/
def lightPos (syn : Nat) : Option Nat := lightCols.findIdx? (fun h => h = syn)

/-- A line as a read finds it (R308): its 64 bits after correction, and what was found: 0 no error, 1 corrected,
2 poisoned, 3 uncorrectable; and the syndrome. -/
structure LineRead where
  data : Nat
  st : Nat
  syn : Nat
  deriving DecidableEq, Repr
/-- Table 2 of chapter 11. -/
def lightRead (x c : Nat) : LineRead :=
  let syn := lightCheck x ^^^ c
  if syn = 0 then { data := x, st := 0, syn := syn }
  else if syn = 0x7F then { data := x, st := 2, syn := syn }
  else match lightPos syn with
    | some i => { data := x ^^^ 2 ^ i, st := 1, syn := syn }
    | none => { data := x, st := if popN 8 syn = 1 then 1 else 3, syn := syn }

/-- `n` lines as they read (R308), where no page stands behind the light code (R306): a single error is corrected; a line that
the code cannot correct reads as it is stored (DESIGN CHOICE, log entry 98). -/
def lightLines : Nat → Nat → Nat → Nat
  | 0, _, _ => 0
  | n + 1, x, c => (lightRead (x % 2 ^ 64) (c % 256)).data % 2 ^ 64 + 2 ^ 64 * lightLines n (x / 2 ^ 64) (c / 256)
/-- One of `n` lines has an error that the light code cannot correct. -/
def lightBad : Nat → Nat → Nat → Bool
  | 0, _, _ => false
  | n + 1, x, c => decide (2 ≤ (lightRead (x % 2 ^ 64) (c % 256)).st) || lightBad n (x / 2 ^ 64) (c / 256)
/-- Check bytes of `n` lines. -/
def lightChecks : Nat → Nat → Nat
  | 0, _ => 0
  | n + 1, x => lightCheck (x % 2 ^ 64) + 256 * lightChecks n (x / 2 ^ 64)

/-! ## GF(2^8) with 0x11D, α = 2 (R310) -/

def gfX (a : Nat) : Nat := let b := 2 * a; if b ≥ 256 then (b ^^^ 0x11D) % 256 else b
def gfMulGo : Nat → Nat → Nat → Nat → Nat
  | 0, _, _, r => r
  | n + 1, a, b, r => gfMulGo n (gfX a) (b / 2) (if b % 2 = 1 then r ^^^ a else r)
/-- Product. -/
def gfMul (a b : Nat) : Nat := gfMulGo 8 a b 0
def gfPowGo : Nat → Nat → Nat → Nat → Nat
  | 0, _, _, r => r
  | k + 1, a, n, r => gfPowGo k (gfMul a a) (n / 2) (if n % 2 = 1 then gfMul r a else r)
/-- Power, for exponents below 2^8. -/
def gfPow (a n : Nat) : Nat := gfPowGo 8 a n 1
/-- Inverse of a nonzero element. -/
def gfInv (a : Nat) : Nat := gfPow a 254
/-- α^i. -/
def gfA (i : Nat) : Nat := gfPow 2 (i % 255)

/-! ## Parity: polynomials mod g(x) as 64-bit numbers, coefficient of x^(7−i) in byte i -/

/-- Coefficients of g(x) = Π (x + α^i), i = 0 to 7, of x^7 down to x^0, byte i the coefficient of x^(7−i). -/
def rsGen : List Nat := [0xFF, 0x0B, 0x51, 0x36, 0xEF, 0xAD, 0xC8, 0x18]
/-- `p` times x, mod g(x). -/
def rsX (p : List Nat) : List Nat :=
  match p with
  | [] => []
  | t :: r => List.zipWith (fun a g => a ^^^ gfMul t g) (r ++ [0]) rsGen
def rsXn : Nat → List Nat → List Nat
  | 0, p => p
  | n + 1, p => rsXn n (rsX p)
/-- Sum of two polynomials. -/
def rsAdd (p q : List Nat) : List Nat := List.zipWith (fun a b => a ^^^ b) p q
def rsZero : List Nat := [0, 0, 0, 0, 0, 0, 0, 0]
/-- Parity of the 128 data symbols of a codeword: m(x) mod g(x) with m already shifted (R310). -/
def rsParity (d : List Nat) : List Nat :=
  d.foldl (fun p s =>
    match p with
    | [] => []
    | t :: r => List.zipWith (fun a g => a ^^^ gfMul (t ^^^ s) g) (r ++ [0]) rsGen) rsZero
/-- Change of the parity when the symbols at positions 2n and 2n + 1 change by `a` and `b` (R312). -/
def rsDelta (n a b : Nat) : List Nat :=
  if a = 0 && b = 0 then rsZero else rsXn (134 - 2 * n) [0, 0, 0, 0, 0, 0, a, b]

/-! ## Decoding (R311) -/

def polyEval (p : List Nat) (x : Nat) : Nat := p.foldr (fun c r => c ^^^ gfMul x r) 0
def polyAdd : List Nat → List Nat → List Nat
  | [], q => q
  | p, [] => p
  | a :: p, b :: q => (a ^^^ b) :: polyAdd p q
def polyScale (c : Nat) (p : List Nat) : List Nat := p.map (gfMul c)
def polyMul : List Nat → List Nat → List Nat
  | [], _ => []
  | a :: p, q => polyAdd (polyScale a q) (0 :: polyMul p q)
/-- Degree, with trailing zeros dropped. -/
def polyTrim (p : List Nat) : List Nat := (p.reverse.dropWhile (fun c => c = 0)).reverse
/-- Syndrome j of 136 symbols, the symbol of x^135 first. -/
def rsSynd (w : List Nat) (j : Nat) : Nat := w.foldl (fun r c => gfMul r (gfA j) ^^^ c) 0
def rsSynds (w : List Nat) : List Nat := (upto 8).map (rsSynd w)
/-- Error locator by Berlekamp and Massey, starting from the erasure locator: `n` steps left from `r`. -/
def rsBM (syn : List Nat) (f : Nat) : Nat → Nat → List Nat → List Nat → Nat → List Nat
  | 0, _, lam, _, _ => lam
  | n + 1, r, lam, b, l =>
    let d := (upto (r + 1)).foldl (fun t i => t ^^^ gfMul (lam.getD i 0) (syn.getD (r - i) 0)) 0
    let xb := 0 :: b
    if d = 0 then rsBM syn f n (r + 1) lam xb l
    else
      let lam' := polyAdd lam (polyScale d xb)
      if 2 * l ≤ r + f then rsBM syn f n (r + 1) lam' (polyScale (gfInv d) lam) (r + 1 + f - l)
      else rsBM syn f n (r + 1) lam' xb l
/-- The codeword corrected, when 2e + f ≤ 8; `w` are its 136 symbols and `er` the places of the erased ones. -/
def rsDecode (w : List Nat) (er : List Nat) : Option (List Nat) :=
  let syn := rsSynds w
  let f := er.length
  if syn.all (fun x => x = 0) then (if f ≤ 8 then some w else none)
  else if f > 8 then none
  else
    let gam := er.foldl (fun p k => polyMul p [1, gfA (135 - k)]) [1]
    let lam := polyTrim (rsBM syn f (8 - f) f gam gam f)
    let deg := lam.length - 1
    let om := (polyMul syn lam).take 8
    let roots := (upto 136).filter (fun k => polyEval lam (gfA (255 - (135 - k))) = 0)
    let e := deg - f
    if roots.length ≠ deg || deg < f || 2 * e + f > 8 then none
    else
      let out := roots.foldl (fun v k =>
        let xi := gfA (255 - (135 - k))
        let den := polyEval ((upto lam.length).map (fun i => if i % 2 = 1 then lam.getD i 0 else 0)) xi
        -- den is X⁻¹ Λ'(X⁻¹): with first root α^0 the value X Ω(X⁻¹) / Λ'(X⁻¹) is Ω(X⁻¹) / den
        v.set k ((v.getD k 0) ^^^ gfMul (polyEval om xi) (gfInv den))) w
      if (rsSynds out).all (fun x => x = 0) then some out else none

end Sys2Proof.Machine
end

