-- ==== Sys2Proof/Machine/Protect.lean ====
section
/-! DEFINITION. Places, banks and ports (R278, R281), the stored lines with their light and strong codes, the
merge buffers, page reconstruction and the bank's own accesses (chapter 11). -/
namespace Sys2Proof.Machine
open Sys2Proof.Config

/-! ## Places -/

/-- Key of a memory instance; place of a word, line and page keys are the word key divided by 4 and 256. -/
def instKey (kind inst : Nat) : Nat := kind * 128 + inst
def wordKey (kind inst off : Nat) : Nat := instKey kind inst * 2 ^ 32 + off
def keyKind (k : Nat) : Nat := k / 2 ^ 39
def keyInst (k : Nat) : Nat := k / 2 ^ 32 % 128
def keyOff (k : Nat) : Nat := k % 2 ^ 32
/-- Bank of an offset (R278, Table 1). -/
def bankOf (kind off : Nat) : Nat :=
  match kind with
  | 0 => off / 16384 | 1 => off / 8 % 4 | 2 => off / 16384 | 3 => off / 32768 | 4 => off / 65536 | _ => 0
/-- Banks of an instance and words of an instance (Table 1). -/
def bankCount (kind : Nat) : Nat := match kind with | 0 => 8 | 1 => 4 | 2 => 32 | 3 => 64 | 4 => 128 | _ => 1
def instWords (kind : Nat) : Nat :=
  match kind with | 0 => 0x20000 | 1 => 0x8000 | 2 => 0x80000 | 3 => 0x200000 | 4 => 0x800000 | _ => 0x60000000
def bankKey (kind inst bank : Nat) : Nat := instKey kind inst * 256 + bank
def bankKeyOf (k : Nat) : Nat := bankKey (keyKind k) (keyInst k) (bankOf (keyKind k) (keyOff k))
/-- Bank 0 of LDM, lead memory and CSM has two ports. -/
def dualBank (bk : Nat) : Bool := bk % 256 = 0 && (bk / 256 / 128 = 0 || bk / 256 / 128 = 2 || bk / 256 / 128 = 3)
/-- Port key of a bank: port A is even, port B odd. -/
def portKey (bk : Nat) (b : Bool) : Nat := bk * 2 + b2n b
/-- Power domain of a word of a memory (Table 1). -/
def memDomain (kind inst off : Nat) : Nat :=
  match kind with
  | 0 => inst | 1 => inst | 2 => 72 + inst | 3 => 84 + 4 * inst + off / 524288 | 4 => 116 + off / 1048576 | _ => 124 + inst

/-! ## The DRAM window (R300, R301) -/

/-- Words of the DRAM window that a capacity code gives a channel. -/
def dramWords (cap : Nat) : Nat := match cap with | 1 => 0x18000000 | 2 => 0x30000000 | 3 => 0x60000000 | _ => 0
def dramCapOf (v : Variant) (c : Nat) : Nat := if c < v.dramChannels then (dramCap c).toNat else 0
/-- Channels in use: those present with devices. -/
def dramChans (v : Variant) : Nat := b2n (dramCapOf v 0 ≠ 0) + b2n (dramCapOf v 1 ≠ 0)
/-- Words of the installed window: the smaller capacity on both channels (R300). -/
def dramSize (v : Variant) : Nat :=
  if dramChans v = 2 then 2 * Nat.min (dramWords (dramCapOf v 0)) (dramWords (dramCapOf v 1))
  else dramWords (Nat.max (dramCapOf v 0) (dramCapOf v 1))
/-- Channel and channel word address of a window offset (R301). -/
def dramPlace (v : Variant) (o : Nat) : Nat × Nat :=
  if dramChans v = 2 then (o / 128 % 2, o / 256 * 128 + o % 128) else (if dramCapOf v 0 = 0 then 1 else 0, o)
/-- Window address of a channel word. -/
def dramAddr (v : Variant) (c w : Nat) : Nat :=
  0x40000000 + (if dramChans v = 2 then w / 128 * 256 + c * 128 + w % 128 else w)

/-- Place of a window address that lies in a memory (R15): kind, instance, offset; none elsewhere, the global alias
of a logical coach that no slot serves included (R17). -/
def memPlace (s : State) (a : Nat) : Option (Nat × Nat × Nat) :=
  let v := s.variant
  if 0x01000000 ≤ a && a < 0x02000000 then
    let k := (a - 0x01000000) / 0x200000
    if k < v.clusters then some (3, k, a % 0x200000) else none
  else if 0x02000000 ≤ a && a < 0x02800000 then some (4, 0, a - 0x02000000)
  else if 0x02800000 ≤ a && a < 0x02A00000 then some (2, (a - 0x02800000) / 0x80000, a % 0x80000)
  else if 0x03000000 ≤ a && a < 0x03800000 then
    match slotOf s ((a - 0x03000000) / 0x20000) with
    | some c => some (0, c, a % 0x20000)
    | none => none
  else if 0x40000000 ≤ a && a < 0x40000000 + dramSize v then
    let p := dramPlace v (a - 0x40000000)
    some (5, p.1, p.2)
  else none
/-- Address that reports name a word by (R339): its window address, the instruction address for a CIM; the private
address for the LDM of a slot that serves no logical coach (DEDUCED, log entry 80: it has no window address). -/
def placeAddr (s : State) (kind inst off : Nat) : Nat :=
  match kind with
  | 0 => match logicalOf s inst with | some n => 0x03000000 + n * 0x20000 + off | none => off
  | 1 => off
  | 2 => 0x02800000 + inst * 0x80000 + off
  | 3 => 0x01000000 + inst * 0x200000 + off
  | 4 => 0x02000000 + off
  | _ => dramAddr s.variant inst off
def keyAddr (s : State) (k : Nat) : Nat := placeAddr s (keyKind k) (keyInst k) (keyOff k)

/-- Clock of a bank in MHz (Table 1, Table 6 of chapter 01, R510). -/
def clusterMHz (s : State) (k : Nat) : Nat := 25 * (16 + regF s (0x04000000 + k * 0x10000 + 0x100) 0 6)
def bankMHz (s : State) (kind inst : Nat) : Nat :=
  match kind with
  | 0 => clusterMHz s (inst / 9) | 1 => clusterMHz s (inst / 9) | 2 => 1000 | 3 => clusterMHz s inst | 4 => 1000 | _ => 800

/-! ## Lines as they are stored -/

/-- The 64 stored data bits of a line (R307). -/
def lineBits (s : State) (lk : Nat) : Nat := ofWords (tgets 0 s.mem.data (4 * lk) 4)
def lineCheck (s : State) (lk : Nat) : Nat := (tget 0 s.mem.check lk).toNat
def lineGet (s : State) (lk : Nat) : LineRead := lightRead (lineBits s lk) (lineCheck s lk)
/-- Byte j of a line's 64 bits in stream order (R77): bytes 2m and 2m + 1 are the halves of word m, high first. -/
def lineByte (x j : Nat) : Nat := fld x (16 * (j / 2) + (if j % 2 = 0 then 8 else 0)) 8
/-- The 64 bits whose bytes in stream order are given. -/
def bytesLine (b : Nat → Nat) : Nat :=
  (upto 8).foldl (fun r j => r + (b j % 256) * 2 ^ (16 * (j / 2) + (if j % 2 = 0 then 8 else 0))) 0
/-- Parity byte j of a page, and a parity line's 64 bits. -/
def parByte (s : State) (pk j : Nat) : Nat := fld (tget 0 s.mem.parity pk).toNat (8 * j) 8
def parLine (p q : Nat) : Nat := bytesLine (fun j => fld p (8 * (8 * q + j)) 8)
/-- Check bytes of the four parity lines of a page's parity bytes. -/
def parChecks (p : Nat) : Nat := (upto 4).foldl (fun r q => r + lightCheck (parLine p q) * 2 ^ (8 * q)) 0
def setParity (s : State) (pk p : Nat) : State :=
  { s with mem := { s.mem with parity := tput 0 s.mem.parity pk (BitVec.ofNat 256 p), pcheck := tput 0 s.mem.pcheck pk (n32 (parChecks p)) } }
/-- Change of a page's parity bytes when line `n` changes by `d` (R312). -/
def parDelta (n d : Nat) : Nat :=
  if d = 0 then 0 else
  (upto 4).foldl (fun r c =>
    let q := rsDelta n (lineByte d c) (lineByte d (c + 4))
    (upto 8).foldl (fun r i => r ^^^ (q.getD i 0 * 2 ^ (8 * (4 * i + c)))) r) 0
/-- A change `d` of a page's parity bytes, with the change it makes to the check bytes of the parity lines: the light code is
linear, so each parity line keeps its syndrome, and one that was right stays right (R310). -/
def addParity (s : State) (pk d : Nat) : State :=
  { s with mem := { s.mem with parity := tput 0 s.mem.parity pk (BitVec.ofNat 256 ((tget 0 s.mem.parity pk).toNat ^^^ d)),
                               pcheck := tput 0 s.mem.pcheck pk (n32 ((tget 0 s.mem.pcheck pk).toNat ^^^ parChecks d)) } }
/-- Line key that the armed injection waits for (R342). -/
def injLine (s : State) : Option Nat :=
  if regB s (eccStat + 2) 0 then
    match memPlace s (reg s (eccStat + 4)).toNat with
    | some (k, i, o) => some (wordKey k i o / 4)
    | none => none
  else none
/-- What an injection MODE does to a check byte (Table 11 of chapter 11). -/
def injMask (mode : Nat) : Nat := match mode with | 0 => 1 | 1 => 3 | _ => 0x7F
/-- An array write of a line's data and check byte: poisoned on request (R309), altered by an armed injection (R342). Alone it
is the write-back of a line whose page parity stands. -/
def rewriteLine (s : State) (lk new : Nat) (poison : Bool) : State :=
  let hit := injLine s = some lk
  let c := lightCheck new ^^^ (if poison then 0x7F else 0) ^^^ (if hit then injMask (regF s (eccStat + 2) 1 2) else 0)
  let t := { s with mem := { s.mem with data := tputs 0 s.mem.data (4 * lk) (wordsOf 4 new), check := tput 0 s.mem.check lk (BitVec.ofNat 8 c) } }
  if hit then setRegB t (eccStat + 2) 0 false else t
/-- An array write of a line and of its page's parity, from the old data and the new (R312). -/
def putLine (s : State) (lk old new : Nat) (poison : Bool) : State :=
  let t := rewriteLine s lk new poison
  if old = new then t else addParity t (lk / 64) (parDelta (lk % 64) (old ^^^ new))

/-! ## The correction table (R331) -/

def scrubReset : Scrub := { page := 0, line := 0, active := false, pass := 0, lateSeen := false, owed := false, started := 0, lastDone := 0 }
/-- The scrubber of an instance key; the DRAM is one instance (Table 5 of chapter 11). -/
def scrubKey (ik : Nat) : Nat := if ik / 128 = 5 then 640 else ik
def scrubOf (s : State) (ik : Nat) : Scrub := tget scrubReset s.mem.scrub (scrubKey ik)
/-- An entry replaced when the table is full: the lowest count, the oldest first. -/
def corrVictim (l : List CorrEntry) : List CorrEntry :=
  let m := l.foldl (fun r e => Nat.min r e.count) 0xFFFFFFFF
  match l.findIdx? (fun e => e.count = m) with
  | some i => l.eraseIdx i
  | none => l
/-- A correction of a line of instance `ik` is counted. -/
def corrCount (s : State) (ik lk : Nat) : State :=
  let pass := (scrubOf s ik).pass
  let l := s.mem.corr
  if l.any (fun e => e.line = lk) then
    { s with mem := { s.mem with corr := l.map (fun e => if e.line = lk then { e with pass := pass, count := if e.pass = pass then e.count + 1 else 1 } else e) } }
  else
    let n : CorrEntry := { line := lk, pass := pass, count := 1 }
    if l.length < 256 then { s with mem := { s.mem with corr := l ++ [n] } }
    else setRegB { s with mem := { s.mem with corr := corrVictim l ++ [n] } } eccStat 31 true
/-- A report about a line. -/
def lineReport (s : State) (cls lk master detail : Nat) : State :=
  errReport s cls (keyKind (4 * lk)) (keyInst (4 * lk)) master detail (keyAddr s (4 * lk))
/-- A corrected line: reported, counted and due for its write-back in the next bank cycle (R320). -/
def corrected (s : State) (lk master syn : Nat) (back : Bool) : State :=
  let t := corrCount (lineReport s 0 lk master syn) (lk / 2 ^ 30) lk
  let e := (bankKeyOf (4 * lk), lk)
  if back && !t.mem.writeBack.any (fun x => x = e) then { t with mem := { t.mem with writeBack := t.mem.writeBack ++ [e] } } else t

/-- A corrected parity line of a page: reported under the page's address, and counted under a key of its own, which no repair
row has (DESIGN CHOICE, log entry 97: it has no address). -/
def parCorrected (s : State) (pk q master syn : Nat) : State :=
  corrCount (lineReport s 0 (64 * pk) master syn) (pk / 2 ^ 24) (2 ^ 50 + 4 * pk + q)

/-! ## Page reconstruction (R321, R322) -/

/-- The 136 symbols of codeword `c` of a page: bytes 4k + c of the data lines, then the parity bytes. -/
def pageSymbols (lines : List LineRead) (pars : List LineRead) (c : Nat) : List Nat :=
  lines.flatMap (fun l => [lineByte l.data c, lineByte l.data (c + 4)]) ++
  pars.flatMap (fun l => [lineByte l.data c, lineByte l.data (c + 4)])
/-- Erased symbols: those of poisoned data lines, and of parity lines that are poisoned or uncorrectable (R310, R311). -/
def pageErased (lines pars : List LineRead) : List Nat :=
  (upto 64).flatMap (fun n => match lines[n]? with | some l => if l.st = 2 then [2 * n, 2 * n + 1] else [] | none => []) ++
  (upto 4).flatMap (fun q => match pars[q]? with | some l => if l.st ≥ 2 then [128 + 2 * q, 129 + 2 * q] else [] | none => [])
/-- The page as its lines and parity lines read. -/
def pageLines (s : State) (pk : Nat) : List LineRead := (upto 64).map (fun n => lineGet s (pk * 64 + n))
def pagePars (s : State) (pk : Nat) : List LineRead :=
  (upto 4).map (fun q => lightRead (parLine (tget 0 s.mem.parity pk).toNat q) (fld (tget 0 s.mem.pcheck pk).toNat (8 * q) 8))
/-- The decoded codewords of a page; none where one is beyond correction. -/
def pageDecode (s : State) (pk : Nat) : List (Option (List Nat)) :=
  let ls := pageLines s pk
  let ps := pagePars s pk
  (upto 4).map (fun c => rsDecode (pageSymbols ls ps c) (pageErased ls ps))
/-- The single errors of some parity lines are corrected and counted. -/
def correctPars (s : State) (pk master : Nat) (ps : List LineRead) : State :=
  (upto 4).foldl (fun t q => match ps[q]? with | some l => if l.st = 1 then parCorrected t pk q master l.syn else t | none => t) s
/-- Step 1 of a reconstruction: the single errors of the page's lines and parity lines are corrected and counted (R321). -/
def correctSingles (s : State) (pk master : Nat) : State :=
  correctPars ((upto 64).foldl (fun t n => let l := lineGet s (pk * 64 + n); if l.st = 1 then corrected t (pk * 64 + n) master l.syn false else t) s)
    pk master (pagePars s pk)
/-- Parity bytes of a page's stored data (R310). -/
def pageParity (s : State) (pk : Nat) : Nat :=
  let ls := (upto 64).map (fun n => lineBits s (pk * 64 + n))
  (upto 4).foldl (fun r c =>
    let p := rsParity (ls.flatMap (fun x => [lineByte x c, lineByte x (c + 4)]))
    (upto 8).foldl (fun r i => r + p.getD i 0 * 2 ^ (8 * (4 * i + c))) r) 0
/-- Line n of the decoded codewords. -/
def decodedLine (cs : List (List Nat)) (n : Nat) : Nat :=
  bytesLine (fun j => (cs.getD (j % 4) []).getD (2 * n + j / 4) 0)
/-- Lines of a page are written back as decoded, the poisoned ones as poison (R321). -/
def putDecoded (s : State) (pk : Nat) (cs : List (List Nat)) (ls : List LineRead) (ch : List Nat) : State :=
  ch.foldl (fun t n => rewriteLine t (pk * 64 + n) (decodedLine cs n) (match ls[n]? with | some l => l.st = 2 | none => false)) s
/-- The parity bytes of decoded codewords. -/
def decodedParity (cs : List (List Nat)) : Nat := (upto 32).foldl (fun r j => r + (cs.getD (j % 4) []).getD (128 + j / 4) 0 * 2 ^ (8 * j)) 0
/-- A line of a page that is beyond correction becomes poisoned, one with a single error is written back (R322). -/
def poisonLine (s : State) (pk n : Nat) (l : LineRead) : State :=
  if l.st = 3 then rewriteLine s (pk * 64 + n) l.data true else if l.st = 1 then rewriteLine s (pk * 64 + n) l.data false else s
def poisonLost (s : State) (pk : Nat) (ls : List LineRead) : State :=
  (upto 64).foldl (fun t n => match ls[n]? with | some l => poisonLine t pk n l | none => t) s
/-- Reconstruction of a page for a master: the page after it, and whether it succeeded. -/
def reconPage (s0 : State) (pk master : Nat) : State × Bool :=
  let s := correctSingles s0 pk master
  let dec := pageDecode s pk
  let ls := pageLines s pk
  if dec.all (fun d => d.isSome) then
    let cs := dec.map (fun d => d.getD [])
    let ch := (upto 64).filter (fun n => match ls[n]? with
      | some l => l.st = 1 || l.st = 3 || decodedLine cs n ≠ lineBits s (pk * 64 + n) | none => false)
    (lineReport (setParity (putDecoded s pk cs ls ch) pk (decodedParity cs)) 1 (pk * 64) master ch.length, true)
  else
    let mask := (upto 4).foldl (fun r c => match dec[c]? with | some none => r + 2 ^ c | _ => r) 0
    let bad := (upto 64).filter (fun n => match ls[n]? with | some l => l.st = 3 | none => false)
    let t := poisonLost s pk ls
    let t := setParity t pk (pageParity t pk)
    (bad.foldl (fun t n => lineReport t 2 (pk * 64 + n) master mask) t, false)

/-! ## Merge buffers (R314 to R319) -/

def mergeOf (s : State) (po : Nat) : List MergeEntry := tget [] s.mem.merge po
def setMerge (s : State) (po : Nat) (l : List MergeEntry) : State := { s with mem := { s.mem with merge := tput [] s.mem.merge po l } }
/-- The entry of a line in either port's buffer, with its port: a line has at most one (DEDUCED, log entry 44 from R314, R316). -/
def mergeFind (s : State) (lk : Nat) : Option (Nat × MergeEntry) :=
  let bk := bankKeyOf (4 * lk)
  match (mergeOf s (portKey bk false)).find? (fun e => e.line = lk) with
  | some e => some (portKey bk false, e)
  | none =>
    match (mergeOf s (portKey bk true)).find? (fun e => e.line = lk) with
    | some e => some (portKey bk true, e)
    | none => none
def mergeDrop (s : State) (po lk : Nat) : State := setMerge s po ((mergeOf s po).filter (fun e => e.line ≠ lk))
/-- No buffer of the line's bank holds an entry of it any more. -/
def mergeClear (s : State) (lk : Nat) : State :=
  let bk := bankKeyOf (4 * lk)
  mergeDrop (mergeDrop s (portKey bk false) lk) (portKey bk true) lk
/-- Words of an entry whose parity bit is wrong, as a mask (R319). -/
def mergeBad (e : MergeEntry) : Nat :=
  (upto 4).foldl (fun r i => if bitN e.mask i && (parityN 16 (fld e.words (16 * i) 16) != bitN e.parity i) then r + 2 ^ i else r) 0
/-- A line's words with the valid words of an entry in their place. -/
def mergeWords (x : Nat) (e : MergeEntry) : Nat :=
  (upto 4).foldl (fun r i => r + (if bitN e.mask i then fld e.words (16 * i) 16 else fld x (16 * i) 16) * 2 ^ (16 * i)) 0
/-- An entry is written out and freed (R315, R319, R323, R324). -/
def writeOutEntry (s : State) (po : Nat) (e : MergeEntry) (master : Nat) : State :=
  let s := mergeDrop s po e.line
  let r := lineGet s e.line
  let (s, ok) := if r.st = 3 then reconPage s (e.line / 64) master else (s, true)
  let q := lineGet s e.line
  let s := if r.st = 1 then corrected s e.line master r.syn false else s
  let bad := mergeBad e
  let full := e.mask = 15
  let s := if bad ≠ 0 then lineReport s 0xB e.line master bad else s
  putLine s e.line q.data (mergeWords q.data e) (bad ≠ 0 || (!full && (q.st = 2 || !ok)))
/-- Words `i` to `i + n - 1` of an entry take new data. -/
def mergeInto (e : MergeEntry) (i n data now stamp : Nat) : MergeEntry :=
  let hit (w : Nat) : Bool := decide (i ≤ w) && decide (w < i + n)
  { e with
    words := (upto 4).foldl (fun r w => r + (if hit w then fld data (16 * (w - i)) 16 else fld e.words (16 * w) 16) * 2 ^ (16 * w)) 0
    mask := (upto 4).foldl (fun r w => r + b2n (hit w || bitN e.mask w) * 2 ^ w) 0
    parity := (upto 4).foldl (fun r w => r + b2n (if hit w then parityN 16 (fld data (16 * (w - i)) 16) else bitN e.parity w) * 2 ^ w) 0
    stamp := stamp, wrote := now }
/-- A narrow write through a port (R314): it merges, takes a free entry or displaces the oldest. -/
def narrowWrite (s : State) (po lk i n data master : Nat) : State :=
  let st := s.mem.stamp
  let s := { s with mem := { s.mem with stamp := st + 1 } }
  match mergeFind s lk with
  | some (q, _) => setMerge s q ((mergeOf s q).map (fun e => if e.line = lk then mergeInto e i n data s.now st else e))
  | none =>
    let s := if (mergeOf s po).length < 4 then s else
      match minBy (fun e => [e.stamp]) (mergeOf s po) with
      | some e => writeOutEntry s po e master
      | none => s
    setMerge s po (mergeOf s po ++ [mergeInto { line := lk, words := 0, mask := 0, parity := 0, stamp := st, wrote := s.now } i n data s.now st])

/-! ## A bank's access (R313 to R324, R543) -/

/-- Outcome of a bank's access: 0 served, 4 bus error, or 99: the page named in `data` is reconstructed first; `wait`: bank
cycles it lost before it was granted (R285). -/
structure BankOut where
  st : State
  code : Nat
  data : Nat
  wait : Nat := 0
  deriving DecidableEq, Repr
/-- A read of a line with its merge-buffer entry (R308, R316, R319, R320, R323). `need` is the mask of words needed. -/
def readLine (s : State) (lk need master : Nat) : BankOut :=
  let r := lineGet s lk
  match mergeFind s lk with
  | some (_, e) =>
    let bad := mergeBad e &&& need
    if bad ≠ 0 then { st := lineReport s 0xB lk master bad, code := 4, data := 0 }
    else if e.mask = 15 then { st := s, code := 0, data := mergeWords 0 e }
    else if r.st = 3 then { st := s, code := 99, data := lk / 64 }
    else if r.st = 2 then { st := lineReport s 3 lk master 0, code := 4, data := 0 }
    else { st := if r.st = 1 then corrected s lk master r.syn true else s, code := 0, data := mergeWords r.data e }
  | none =>
    if r.st = 3 then { st := s, code := 99, data := lk / 64 }
    else if r.st = 2 then { st := lineReport s 3 lk master 0, code := 4, data := 0 }
    else { st := if r.st = 1 then corrected s lk master r.syn true else s, code := 0, data := r.data }
/-- A write of a whole line (R313, R317, R323, R543). -/
def writeLine (s : State) (lk new master : Nat) : BankOut :=
  let r := lineGet s lk
  if r.st = 3 then { st := s, code := 99, data := lk / 64 }
  else
    let s := mergeClear s lk
    let s := if r.st = 1 then corrected s lk master r.syn false else s
    { st := putLine s lk r.data new false, code := 0, data := 0 }
/-- AADD adds modulo 2^(16n), ASWP replaces (R89). -/
def atomNew (swap : Bool) (n old opnd : Nat) : Nat := if swap then opnd % 2 ^ (16 * n) else (old + opnd) % 2 ^ (16 * n)
/-- An atomic on `n` words of a line at word `i` (R318, R323). -/
def atomLine (s : State) (lk i n : Nat) (swap : Bool) (opnd master : Nat) : BankOut :=
  let r := lineGet s lk
  if r.st = 3 then { st := s, code := 99, data := lk / 64 }
  else
    let ent := mergeFind s lk
    if r.st = 2 then
      let t := match ent with | some (po, e) => writeOutEntry s po e master | none => s
      { st := lineReport t 3 lk master 0, code := 4, data := 0 }
    else
      let bad := match ent with | some (_, e) => mergeBad e | none => 0
      if bad ≠ 0 then
        { st := (match ent with | some (po, e) => writeOutEntry s po e master | none => s), code := 4, data := 0 }
      else
        let x := match ent with | some (_, e) => mergeWords r.data e | none => r.data
        let s := match ent with | some (po, _) => mergeDrop s po lk | none => s
        let s := if r.st = 1 then corrected s lk master r.syn false else s
        let old := fld x (16 * i) (16 * n)
        { st := putLine s lk r.data (setFld x (16 * i) (16 * n) (atomNew swap n old opnd)) false, code := 0, data := old }
/-- An access of `n` words at word key `wk` through port key `po`. -/
def bankAccess (s : State) (po : Nat) (k : AccKind) (wk n data master : Nat) : BankOut :=
  let lk := wk / 4
  let i := wk % 4
  match k with
  | .load =>
    if n = 8 then
      let a := readLine s lk 15 master
      if a.code ≠ 0 then a else
      let b := readLine a.st (lk + 1) 15 master
      if b.code ≠ 0 then b else { b with data := a.data + 2 ^ 64 * b.data }
    else
      let a := readLine s lk ((2 ^ n - 1) * 2 ^ i) master
      if a.code ≠ 0 then a else { a with data := fld a.data (16 * i) (16 * n) }
  | .store =>
    if n = 8 then
      if (lineGet s (lk + 1)).st = 3 then { st := s, code := 99, data := (lk + 1) / 64 } else
      let a := writeLine s lk (data % 2 ^ 64) master
      if a.code ≠ 0 then a else writeLine a.st (lk + 1) (data / 2 ^ 64) master
    else if n = 4 then writeLine s lk (data % 2 ^ 64) master
    else { st := narrowWrite s po lk i n data master, code := 0, data := 0 }
  | .atomAdd => atomLine s lk i n false data master
  | .atomSwap => atomLine s lk i n true data master
/-- What follows the reconstruction of a page that an access needs: a failed one ends a read or an atomic in code 4 and lets a
whole-line write complete; else the access is made again. -/
def afterRecon (k : AccKind) (again : State → BankOut) (r : State × Bool) : BankOut :=
  if !r.2 && !(k = .store) then { st := r.1, code := 4, data := 0 } else again r.1
def nowStep (k : AccKind) (master : Nat) (again : State → BankOut) (a : BankOut) : BankOut :=
  if a.code ≠ 99 then a else afterRecon k again (reconPage a.st a.data master)
/-- An access whose pages, at most two, are reconstructed at once where that is needed: for requesters whose wait is not modelled
(DESIGN CHOICE, log entry 23). -/
def bankAccessNow (s : State) (po : Nat) (k : AccKind) (wk n data master : Nat) : BankOut :=
  let acc (t : State) : BankOut := bankAccess t po k wk n data master
  nowStep k master (fun t => nowStep k master (fun u => { acc u with code := 0 }) (acc t)) (acc s)

end Sys2Proof.Machine
end

