-- ==== Sys2Proof/Machine/Access.lean ====
section
/-! DEFINITION. Where an address leads (R15 to R20), the region and epoch checks (R294 to R296), the accesses of
masters other than coaches, and a coach's instruction fetch (R19, R325). -/
namespace Sys2Proof.Machine
open Sys2Proof.Config

/-- Where a data address of a master leads. `own`: the master's local path to its own memory (R546). -/
inductive Route where
  | bank (kind inst off : Nat) (own : Bool)
  | coReg (off : Nat)
  | sysReg (a : Nat)
  | rom (off : Nat)
  | fuse (off : Nat)
  | unassigned
  deriving DecidableEq, Repr

/-- R15 to R18: the route of word address `a` for master `m`. -/
def route (s : State) (m a : Nat) : Route :=
  if a < 0x20000 then
    (if m < 72 then .bank 0 m a true else if isLead m then .bank 2 (m - 72) a true else .unassigned)
  else if a < 0x21000 then (if m < 76 then .coReg (a - 0x20000) else .unassigned)
  else if 0x04000000 ≤ a && a < 0x05000000 then .sysReg a
  else if 0x08000000 ≤ a && a < 0x08010000 then .rom (a - 0x08000000)
  else if 0x08010000 ≤ a && a < 0x08011000 then .fuse (a - 0x08010000)
  else match memPlace s a with
    | some (k, i, o) => .bank k i o (k = 2 && m = 72 + i)
    | none => .unassigned

/-- Word of the fuse map image (R333, Table 6); the factory's words are free values. -/
def fuseWord (s : State) (o : Nat) : Word :=
  if o = 0 then 1
  else if o = 2 then BitVec.ofNat 16 s.mem.fieldFuse.length
  else if 0x800 ≤ o && o < 0xC00 then BitVec.ofNat 16 (fld (s.mem.fieldFuse.getD ((o - 0x800) / 4) 0) (16 * (o % 4)) 16)
  else factoryFuse o

/-- The controller refuses DRAM accesses while it is parking or parked (R303). -/
def dramParked (s : State) : Bool := s.mem.parking || regB s 0x04082302 17
/-- A DRAM access that the parking or parked controller refuses is counted (R303). -/
def dramRefused (s : State) (kind : Nat) : State :=
  if kind = 5 && dramParked s then { s with mem := { s.mem with parkRefused := incSat 32 s.mem.parkRefused } } else s
/-- The bank that holds a word answers (R280, R303, R337). -/
def bankUp (s : State) (kind inst off : Nat) : Bool :=
  domOn s (memDomain kind inst off) && !(kind = 5 && dramParked s)

/-! ## Regions and epochs -/

def memRB (m r : Nat) : Nat := 0x04080000 + 64 * m + 8 * r
def memEpoch (m : Nat) : Nat := 0x04082000 + 2 * m
/-- Enabled region `r` of master `m` covers `n` words at `a` (R294). -/
def regionCovers (s : State) (m r a n : Nat) : Bool :=
  regB s (memRB m r + 4) 0 && decide (regF s (memRB m r) 6 26 * 64 ≤ a) && decide (a + n - 1 ≤ regF s (memRB m r + 2) 6 26 * 64 + 63)
/-- Rights of a region: R 1, W 2, X 4. -/
def regionRights (s : State) (m r : Nat) : Nat := regF s (memRB m r + 4) 1 3
/-- The access is permitted (R294). -/
def regionOk (s : State) (m a n need : Nat) : Bool :=
  ((upto 8).foldl (fun t r => if regionCovers s m r a n then t ||| regionRights s m r else t) 0) &&& need = need
/-- The carried epoch matches the lowest-numbered covering region that grants a needed right (R296). -/
def epochOk (s : State) (m a n need : Nat) : Bool :=
  match (upto 8).find? (fun r => regionCovers s m r a n && regionRights s m r &&& need ≠ 0) with
  | some r => regF s (memRB m r + 4) 16 16 = regF s (memEpoch m) 0 16
  | none => true
/-- Rights an access needs, and its kind in Table 9 of chapter 07. -/
def needOf (k : AccKind) : Nat := match k with | .load => 1 | .store => 2 | _ => 3
def kindCode (k : AccKind) : Nat := match k with | .load => 1 | .store => 2 | _ => 3
def isAtom (k : AccKind) : Bool := match k with | .atomAdd => true | .atomSwap => true | _ => false

/-- MEM_STAT flags: bit 1 EPOCHERR with source 1,048, bit 0 CONFLICT with source 1,049 (R419). -/
def memFlag (s : State) (i : Nat) : State := pulse (setRegB s memStat i true) (if i = 1 then 1048 else 1049)
/-- Kind and instance that a record about an address gives. -/
def recPlace (s : State) (m a : Nat) : Nat × Nat :=
  match route s m a with
  | .bank k i _ _ => (k, i)
  | _ => (15, 0)
/-- An access refused for its epoch (R296): flagged, logged and counted. -/
def epochRefuse (s : State) (m a : Nat) : State :=
  let t := memFlag s 1
  let t := { t with mem := { t.mem with epochRefused := incSat 32 t.mem.epochRefused, epochMaster := m, epochAddr := a } }
  errReport t 5 (recPlace s m a).1 (recPlace s m a).2 m 6 a
/-- A region failure of a master other than a coach (R295). -/
def regionRefuse (s : State) (m a code : Nat) : State :=
  let t := { s with mem := { s.mem with regionFails := incSat 32 s.mem.regionFails } }
  errReport t 6 (recPlace s m a).1 (recPlace s m a).2 m code a

/-- Port that a master's access takes at a bank (R281, Table 2): true is port B. -/
def portB (kind inst bank m : Nat) (own : Bool) : Bool :=
  bank = 0 &&
  (match kind with
   | 0 => !own
   | 2 => !own
   | 3 => !(m < 72 && m / 9 = inst)
   | _ => false)
def portOf (kind inst off m : Nat) (own : Bool) : Nat :=
  let b := bankOf kind off
  portKey (bankKey kind inst b) (dualBank (bankKey kind inst b) && portB kind inst b m own)

/-- Overlap of `n` words at `a` with the words from `lo` to below `hi`. -/
def overlaps (a n lo hi : Nat) : Bool := decide (a < hi) && decide (lo < a + n)
/-- Words of a coach's own memory that no store, atomic or block write may touch: the shadow stack (R181, code 5) and
the dispatcher's frames of a coach that has handed over (R250, code 7); 0 where none is touched. -/
def storeBarred (s : State) (kind inst off n : Nat) : Nat :=
  if kind = 0 || kind = 2 then
    let k := co s (if kind = 0 then inst else 72 + inst)
    let lo := (rdCo k 0x324).toNat
    let hi := (rdCo k 0x326).toNat
    if hi > lo && overlaps off n lo hi then 5
    else if kind = 0 && k.handed && overlaps off n 0x2000 0x3DC0 then 7 else 0
  else 0

/-! ## Arbitration at a bank port (R284) -/

def portReqs (s : State) (po : Nat) : List BankReq := tget [] s.mem.ports po
def setReqs (s : State) (po : Nat) (l : List BankReq) : State := { s with mem := { s.mem with ports := tput [] s.mem.ports po l } }
/-- Class of a requester (Table 3): the owning coach's LD0 and LD1, stream engines, other processors, DMA, scrubber
and march. -/
def reqClass (m ld : Nat) (own : Bool) : Nat :=
  if own then 1 + ld else if 80 ≤ m && m < 96 then 3 else if 96 ≤ m && m < 102 then 5 else if m = 104 || m = 105 then 6 else 4
/-- The access of a coach's LD slot that waits. -/
def waiting (s : State) (m ld : Nat) : Option Access := (co s m).access.find? (fun a => a.ld = ld && a.resp.isNone)
/-- The waiting access of an LD slot takes its answer. -/
def answerAccess (s : State) (m ld : Nat) (r : Answer) : State :=
  let k := co s m
  setCo s m { k with access := k.access.map (fun a => if a.ld = ld && a.resp.isNone then { a with resp := some r } else a) }
/-- The waiting access of an LD slot has lost `n` bank cycles when its port grants it. -/
def noteRefused (s : State) (m ld n : Nat) : State :=
  let k := co s m
  setCo s m { k with access := k.access.map (fun a => if a.ld = ld && a.resp.isNone then { a with refused := n } else a) }
/-- Rank of a request of class `cl` at an SRAM port (R284): urgent ones by age, then class, then identity. The scrubber and
the march engine are never urgent. -/
def classRank (cl m refusals : Nat) : List Nat :=
  if refusals ≥ 4 && cl ≠ 6 then [0, 0xFFFFFFFF - refusals, cl, m] else [1, cl, m]
/-- Order of the requests at a port (R284). Of one bundle's two accesses the load goes first, then LD0's (R50, R54). In DRAM
the oldest comes first (R290). -/
def reqRank (s : State) (kind : Nat) (r : BankReq) : List Nat :=
  let w := waiting s r.master r.ld
  let own := match w with
    | some a => (match route s r.master a.addr with | .bank _ _ _ o => o | _ => false)
    | none => false
  let st := match w with | some a => b2n (!(a.kind = .load)) | none => 0
  if kind = 5 then [0] else classRank (if own then 1 else reqClass r.master r.ld own) r.master r.refusals ++ [st, r.ld]
/-- The request a port grants. -/
def portPick (s : State) (po : Nat) : Option BankReq := minBy (reqRank s (po / 2 / 256 / 128)) (portReqs s po)
/-- The granted access acts on its bank (R296, R280, R313): answered, or waiting for its page's reconstruction. -/
def serveAccess (s0 : State) (po : Nat) (r : BankReq) (a : Access) : State :=
  let s := noteRefused s0 r.master r.ld r.refusals
  let drop (t : State) : State := setReqs t po ((portReqs t po).filter (fun q => !(q.master = r.master && q.ld = r.ld)))
  match route s r.master a.addr with
  | .bank kind inst off own =>
    if !own && !epochOk s r.master a.addr a.n (needOf a.kind) then
      answerAccess (drop (epochRefuse s r.master a.addr)) r.master r.ld { err := 6, data := 0 }
    else if !bankUp s kind inst off then
      answerAccess (drop (dramRefused s kind)) r.master r.ld { err := 1, data := 0 }
    else
      let o := bankAccess s po a.kind (wordKey kind inst off) a.n a.data r.master
      if o.code = 99 then
        { o.st with mem := { o.st.mem with recon := o.st.mem.recon ++ [{ bank := po / 2, page := o.data, req := some r, port := { kind := kind, inst := inst, bank := bankOf kind off, portB := po % 2 = 1 } }] } }
      else answerAccess (drop o.st) r.master r.ld { err := o.code, data := o.data }
  | _ => answerAccess (drop s) r.master r.ld { err := 1, data := 0 }
/-- A corrected line is written back (R320): the same data, no parity update. -/
def writeBackOne (s : State) (bk : Nat) : State :=
  match s.mem.writeBack.find? (fun e => e.1 = bk) with
  | none => s
  | some e =>
    let r := lineGet s e.2
    let t := { s with mem := { s.mem with writeBack := s.mem.writeBack.filter (fun x => !(x = e)) } }
    if r.st = 1 then rewriteLine t e.2 r.data false else t
/-- Every request at a port that is not `r` has been refused once more. -/
def refuseOthers (s : State) (po : Nat) (r : Option BankReq) : State :=
  setReqs s po ((portReqs s po).map (fun q => if some q = r then q else { q with refusals := q.refusals + 1 }))
/-- A destructive march has the bank to itself (R338), and what comes to it waits; `row` counts its rows over the whole target. -/
def marchHolds (s : State) (bk : Nat) : Bool :=
  match s.mem.march with
  | some m => !m.pres && (if m.slot then (bk / 256 = instKey 0 m.inst || bk / 256 = instKey 1 m.inst) else bk = bankKey m.kind m.inst m.bank)
  | none => false
/-- One bank cycle of a port: a write-back goes first and a reconstruction holds the bank (R320, R321); otherwise one
request is granted and the others are refused. -/
def portCycle (s : State) (po : Nat) : State :=
  let bk := po / 2
  if s.mem.recon.any (fun r => r.bank = bk) || marchHolds s bk then refuseOthers s po none
  else if s.mem.writeBack.any (fun e => e.1 = bk) then refuseOthers (writeBackOne s bk) po none
  else match portPick s po with
    | none => s
    | some r =>
      let t := refuseOthers s po (some r)
      match waiting t r.master r.ld with
      | some a => serveAccess t po r a
      | none => setReqs t po ((portReqs t po).filter (fun q => !(q = r)))
/-- The merge entry of a line is written out. -/
def flushMerge (s : State) (lk m : Nat) : State := match mergeFind s lk with | some (x, e) => writeOutEntry s x e m | none => s
/-- A read or an atomic whose page cannot be reconstructed ends in code 4; an atomic writes out the entry of its line first (R323). -/
def reconFailed (s : State) (po : Nat) (q : BankReq) (a : Access) : State :=
  let u := if a.kind = .load then s else (match route s q.master a.addr with | .bank kind inst off _ => flushMerge s (wordKey kind inst off / 4) q.master | _ => s)
  answerAccess (setReqs u po ((portReqs u po).filter (fun x => !(x.master = q.master && x.ld = q.ld)))) q.master q.ld { err := 4, data := 0 }
/-- What the reconstruction of a page means for the access that waits for it: a read or an atomic of a lost line ends; a whole-line write
goes on to be granted (R543). -/
def reconAnswer (s : State) (ok : Bool) (bk : Nat) (r : Recon) : State :=
  match r.req with
  | none => s
  | some q =>
    match waiting s q.master q.ld with
    | none => s
    | some a => if ok || a.kind = .store then s else reconFailed s (portKey bk r.port.portB) q a
/-- The oldest page of a bank that waits is reconstructed (R321, R322). -/
def reconNext (s : State) (bk : Nat) : State :=
  match s.mem.recon.find? (fun r => r.bank = bk) with
  | none => s
  | some r =>
    let t := { s with mem := { s.mem with recon := s.mem.recon.filter (fun x => !(x = r)) } }
    let p := reconPage t r.page (match r.req with | some q => q.master | none => 104)
    reconAnswer p.1 p.2 bk r

/-! ## Masters and accesses whose turn comes at once (R284, R290) -/

/-- Bank cycles until the port grants a requester of class `cl` that has come to it: what waits there with a better claim
goes first, a write-back and a reconstruction among it. The bank cycles it loses are counted. `n` bounds them. -/
def portTurn (m cl : Nat) : Nat → State → Nat → Nat → State × Nat
  | 0, s, _, lost => (s, lost)
  | n + 1, s, po, lost =>
    let bk := po / 2
    if s.mem.recon.any (fun r => r.bank = bk) then portTurn m cl n (reconNext s bk) po (lost + 1)
    else if s.mem.writeBack.any (fun e => e.1 = bk) then portTurn m cl n (refuseOthers (writeBackOne s bk) po none) po (lost + 1)
    else match portPick s po with
      | none => (s, lost)
      | some r =>
        if lexLt (reqRank s (po / 2 / 256 / 128) r) (classRank cl m lost) then portTurn m cl n (portCycle s po) po (lost + 1)
        else (refuseOthers s po none, lost)
/-- Bound on the bank cycles of `portTurn`: what waits at the port and in its bank. -/
def turnBound (s : State) (po : Nat) : Nat := 2 * ((portReqs s po).length + s.mem.recon.length + s.mem.writeBack.length) + 8
/-- A bulk command of a DRAM channel (R290): while coaches wait, after 3 bulk commands in a row the oldest of them is served
first (DESIGN CHOICE, log entry 23: otherwise a bulk command goes ahead at once). -/
def bulkTurn (s : State) (po : Nat) : State :=
  let n := tget 0 s.mem.bulk po
  let put (s : State) (n : Nat) : State := { s with mem := { s.mem with bulk := tput 0 s.mem.bulk po n } }
  if (portReqs s po).isEmpty then put s 0 else if n < 3 then put s (n + 1) else put (portCycle s po) 1
/-- An access of `n` words by master `m`, in class `cl`, through a port: its turn, then the access (DESIGN CHOICE, log entry 23:
the bank cycles of its wait pass at once). A coach takes its turn in the timed queue of a DRAM channel. -/
def turnAccess (s : State) (cl po : Nat) (k : AccKind) (wk n data m : Nat) : BankOut :=
  if keyKind wk = 5 && !(m < 76) then bankAccessNow (bulkTurn s po) po k wk n data m
  else
    let t := portTurn m cl (turnBound s po) s po 0
    { bankAccessNow t.1 po k wk n data m with wait := t.2 }

/-! ## Accesses of devices -/

/-- An access of a master other than a coach (R295, R296, R16, R20, R280), served when its turn comes (R284): code 0, or
the code of its bus error (7: the region check failed). Registers are reached by commands of their own: no unit's access
to memory is one of 2 words at a register. -/
def devAccess (s : State) (m : Nat) (k : AccKind) (a n data : Nat) : BankOut :=
  if !regionOk s m a n (needOf k) then { st := regionRefuse s m a (kindCode k), code := 7, data := 0 }
  else match route s m a with
    | .bank kind inst off own =>
      let bar := if k = .load then 0 else storeBarred s kind inst off n
      if isAtom k && kind = 5 then { st := s, code := 3, data := 0 }
      else if bar ≠ 0 then { st := regionRefuse s m a bar, code := 7, data := 0 }
      else if !epochOk s m a n (needOf k) then { st := epochRefuse s m a, code := 6, data := 0 }
      else if !bankUp s kind inst off then { st := dramRefused s kind, code := 1, data := 0 }
      else turnAccess s (reqClass m 0 own) (portOf kind inst off m own) k (wordKey kind inst off) n data m
    | .unassigned => { st := s, code := 1, data := 0 }
    | .coReg _ => { st := s, code := 1, data := 0 }
    | r =>
      if !epochOk s m a n (needOf k) then { st := epochRefuse s m a, code := 6, data := 0 }
      else match r with
        | .rom off => { st := s, code := if isAtom k then 3 else if k = .load then 0 else 1, data := ofWords ((upto n).map (fun i => bootRom (off + i))) }
        | .fuse off => { st := s, code := if isAtom k then 3 else if k = .load then 0 else 1, data := ofWords ((upto n).map (fun i => fuseWord s (off + i))) }
        | .sysReg x => { st := s, code := if (regInfo s.variant (x / 2 * 2)).isNone then 1 else if isAtom k then 3 else 2, data := 0 }
        | _ => { st := s, code := 1, data := 0 }
/-- Consecutive words read by a device, a line of 8 at a time where alignment allows: the words, or the code of
the first access that fails. -/
def devReads (m : Nat) : Nat → State → Nat → List Word → State × Nat × List Word
  | 0, s, _, acc => (s, 0, acc)
  | n + 1, s, a, acc =>
    let r := devAccess s m .load a 1 0
    if r.code ≠ 0 then (r.st, r.code, acc) else devReads m n r.st (a + 1) (acc ++ [BitVec.ofNat 16 r.data])
/-- Consecutive words written by a device, stopping at the first access that fails. -/
def devWrites (m : Nat) : List Word → State → Nat → State × Nat
  | [], s, _ => (s, 0)
  | w :: r, s, a =>
    let q := devAccess s m .store a 1 w.toNat
    if q.code ≠ 0 then (q.st, q.code) else devWrites m r q.st (a + 1)

/-! ## Instruction fetch -/

/-- The code of the bus error of a fetch at an address from which the coach cannot fetch (row 1 of Table 5 of chapter 02,
R16, R19, R280), or 0. Code 1: an address that nothing is assigned to, or a bank that is off. Code 5: any other address that
R19 does not let it fetch from, and for a signal coach any address outside its CIM (DESIGN CHOICE, log entry 92: R16 gives
code 0x01 for a fetch at an unassigned address, Table 9 of chapter 07 code 0x05 for an instruction fetch). -/
def fetchPlace (s : State) (c a : Nat) : Nat :=
  if c < 72 then (if a < 0x8000 then 0 else 5)
  else match route s c a with
    | .rom _ => if c = 72 then 0 else 5
    | .bank kind inst off own => if !(kind = 2 && own || kind = 4 || kind = 5) then 5 else if bankUp s kind inst off then 0 else 1
    | .unassigned => 1
    | _ => 5
/-- First word of a lead coach's cache line (R19). -/
def fillBase (a : Nat) : Nat := a / 16 * 16
/-- The code of the bus error of the access that a fetch makes, or 0: 6 for a stale epoch (R296), 4 for a line that is
uncorrectable or poisoned, any of the 16 words of a lead coach's line fill (R19, R325). A lead coach's cache is transparent
(DEDUCED, log entry 22: the spec gives it no coherence of its own). -/
def fetchBank (s : State) (c a : Nat) : Nat :=
  if c < 72 then (if s.mem.recon.any (fun r => r.page = wordKey 1 c a / 256) || (lineGet s (wordKey 1 c a / 4)).st ≥ 2 then 4 else 0)
  else match route s c (fillBase a) with
    | .bank kind inst off own =>
      if !own && !epochOk s c (fillBase a) 16 4 then 6
      else if (upto 4).any (fun i => (readLine s (wordKey kind inst off / 4 + i) 15 c).code ≠ 0) then 4 else 0
    | _ => if epochOk s c (fillBase a) 16 4 then 0 else 6
/-- The code of the bus error a fetch meets at an address, or 0. -/
def fetchCode (s : State) (c a : Nat) : Nat := if fetchPlace s c a ≠ 0 then fetchPlace s c a else fetchBank s c a
/-- A lead coach's fetch needs X for its whole 16-word line, its private alias apart (R294, R295). -/
def fetchRegionOk (s : State) (c a : Nat) : Bool := c < 72 || a < 0x20000 || regionOk s c (fillBase a) 16 4
/-- The word at an instruction address; none where the coach cannot fetch it. -/
def fetchWord (s : State) (c a : Nat) : Option Word :=
  if fetchCode s c a ≠ 0 then none
  else if c < 72 then some (BitVec.ofNat 16 (fld (lineGet s (wordKey 1 c a / 4)).data (16 * (a % 4)) 16))
  else match route s c a with
    | .rom off => some (bootRom off)
    | .bank k i o _ => some (BitVec.ofNat 16 (fld (readLine s (wordKey k i o / 4) 0 c).data (16 * (a % 4)) 16))
    | _ => none
/-- A line fill of a lead coach (R19): a permitted one reads its 4 lines, correcting and reconstructing them as any read
does (R320, R321, R323); what refuses it is logged and counted (R296, R303). -/
def fetchFill (s : State) (c a : Nat) : State :=
  let b := fillBase a
  if !fetchRegionOk s c a then s
  else match route s c b with
    | .bank kind inst off own =>
      if !(kind = 2 && own || kind = 4 || kind = 5) then s
      else if !own && !epochOk s c b 16 4 then epochRefuse s c b
      else if !bankUp s kind inst off then dramRefused s kind
      else (upto 4).foldl (fun s i => (turnAccess s (reqClass c 0 own) (portOf kind inst off c own) .load (wordKey kind inst off + 4 * i) 4 0 c).st) s
    | .rom _ => if epochOk s c b 16 4 then s else epochRefuse s c b
    | _ => s

end Sys2Proof.Machine
end

