-- ==== Sys2Proof/Machine/Flags.lean ====
section
/-! DEFINITION. Flag computations: integer overflow and saturation (R65 to R70), accumulator fit and
extraction (R97, R98), and which flags raise an arithmetic exception (R66, R134, R148). -/
namespace Sys2Proof.Machine

/-! CO_ISTAT bits OV 1, DZ 2, SAT 4; CO_MSTAT bits ASAT 1, AWRAP 2, XSAT 4, XWRAP 8; CO_FPSTAT bits IV 1,
DZ 2, OF 4, UF 8, IX 16, SI 32. -/

/-- A signed result wrapped to 32 bits, with OV if it did not fit (R64). -/
def wrapOv (i : Int) : W32 × Nat := (w32 i, if satSd 32 i then 1 else 0)
/-- A signed result saturated to 32 bits, with SAT if that changed it (R67). -/
def satSat (i : Int) : W32 × Nat := (w32 (satS 32 i), if satSd 32 i then 4 else 0)

/-- Fit of an exact value to an accumulator part of `w` bits: the bits and the CO_MSTAT flags (R97). -/
def fitAcc (w s : Nat) (i : Int) : Nat × Nat :=
  if s = 1 then (wrapN w (satS w i), if satSd w i then 1 else 0)
  else (wrapN w i, if satSd w i then 2 else 0)
/-- Extraction of a part's value: shift right by `sh` with floor, then fit to `w` bits (R98). -/
def extract (w s sh : Nat) (v : Int) : Nat × Nat :=
  let q := v / ((2 ^ sh : Nat) : Int)
  if s = 1 then (wrapN w (satS w q), if satSd w q then 4 else 0)
  else (wrapN w q, if satSd w q then 8 else 0)

/-- Flags of Table 9 of chapter 07 that an integer result raises: OV under CO_MODE.IOV (R66) and DZ under
CO_FPCTL.IDZE (R134). -/
def intExc (k : Coach) (istat : Nat) : Nat :=
  (if bitN istat 0 && rbit (rdCo k 0x000) 7 then 32 else 0) +
  (if bitN istat 1 && rbit (rdCo k 0x282) 8 then 64 else 0)
/-- Flags that a float result raises under the enables of CO_FPCTL (R148): bit i of both registers. -/
def fltExc (k : Coach) (fpstat : Nat) : Nat := (fpstat % 32) &&& ((rdCo k 0x282).toNat % 32)

end Sys2Proof.Machine
end

