-- ==== Sys2Proof/Machine/Alu.lean ====
section
/-! DEFINITION. ALU-class operations (chapter 03), the divider (chapter 05) and the Pend record that every
result becomes. `due` holds a latency until the issue adds the cycle. -/
namespace Sys2Proof.Machine

/-- A result of `slot` at latency `lat`: it writes the bits of `mask` of register `idx` of `file`. -/
def res (lat slot : Nat) (file : RegFile) (idx mask val : Nat) : Pend :=
  { due := lat, slot := slot, seq := 0, apc := 0, file := file, idx := idx, mask := BitVec.ofNat 288 mask,
    val := BitVec.ofNat 288 val, istat := 0, mstat := 0, fpstat := 0, exc := 0, trap := 0, prec := false }
/-- A whole write of a G register. -/
def resG (lat slot idx : Nat) (v : W32) : Pend := res lat slot .g idx (2 ^ 32 - 1) v.toNat

/-- ALU3 result: the value (none: no write, R69) and the CO_ISTAT flags (R67, R68, R70). -/
def aluOp (f : Nat) (a b : W32) : Option W32 × Nat :=
  let sa := s32 a
  let sb := s32 b
  let n := b.toNat
  match f with
  | 0x00 => let r := wrapOv (sa + sb); (some r.1, r.2)
  | 0x01 => let r := wrapOv (sa - sb); (some r.1, r.2)
  | 0x02 => let r := satSat (sa + sb); (some r.1, r.2)
  | 0x03 => let r := satSat (sa - sb); (some r.1, r.2)
  | 0x04 => (some (a &&& b), 0)
  | 0x05 => (some (a ||| b), 0)
  | 0x06 => (some (a ^^^ b), 0)
  | 0x07 => (some (a &&& ~~~b), 0)
  | 0x08 => (some (if n < 32 then a <<< n else 0), 0)
  | 0x09 => (some (if n < 32 then a >>> n else 0), 0)
  | 0x0A => (some (if n < 32 then a.sshiftRight n else if sa < 0 then 0xFFFFFFFF else 0), 0)
  | 0x0B => (some (a.rotateRight (n % 32)), 0)
  | 0x0C => (some (n32 (b2n (a = b))), 0)
  | 0x0D => (some (n32 (b2n (a ≠ b))), 0)
  | 0x0E => (some (n32 (b2n (sa < sb))), 0)
  | 0x0F => (some (n32 (b2n (a.toNat < n))), 0)
  | 0x10 => (some (n32 (b2n (sa ≤ sb))), 0)
  | 0x11 => (some (n32 (b2n (a.toNat ≤ n))), 0)
  | 0x12 => (some (if sa < sb then a else b), 0)
  | 0x13 => (some (if sa < sb then b else a), 0)
  | 0x14 => (some (if a.toNat < n then a else b), 0)
  | 0x15 => (some (if a.toNat < n then b else a), 0)
  | 0x16 => let r := wrapOv (-sa); (some r.1, r.2)
  | 0x17 => let r := wrapOv (if sa < 0 then -sa else sa); (some r.1, r.2)
  | 0x18 => (if n = 0 then some a else none, 0)
  | _ => (if n = 0 then none else some a, 0)

/-- ALUI result (R72): `d` is Gd as read. -/
def aluiOp (f imm : Nat) (d : W32) : W32 × Nat :=
  let si := sx 16 imm
  let z := n32 (imm % 65536)
  match f with
  | 0 => wrapOv (s32 d + si)
  | 1 => (w32 si, 0)
  | 2 => (n32 ((imm % 65536) * 65536 + d.toNat % 65536), 0)
  | 3 => (d &&& z, 0)
  | 4 => (d ||| z, 0)
  | 5 => (d ^^^ z, 0)
  | 6 => (n32 (b2n (s32 d < si)), 0)
  | _ => (n32 (b2n (d.toNat < (w32 si).toNat)), 0)

/-- BITF result (R75, R76): the written bits as mask and value; none: no write. -/
def bitfOp (f : Nat) (pos len : Nat) (a : W32) : Option (Nat × Nat) :=
  let l := if pos ≥ 32 || len = 0 then 0 else Nat.min len (32 - pos)
  let x := a.toNat
  let all := 2 ^ 32 - 1
  match f with
  | 0 => some (all, if l = 0 then 0 else fld x pos l)
  | 1 => some (all, if l = 0 then 0 else wrapN 32 (sx l (fld x pos l)))
  | 2 => if l = 0 then none else some ((2 ^ l - 1) * 2 ^ pos, (x % 2 ^ l) * 2 ^ pos)
  | 3 => some (all, 32 - topBit 32 x)
  | 4 => some (all, let y := if bitN x 31 then all - x else x; 31 - topBit 31 y)
  | _ => some (all, popN 32 x)

/-- Position and length of a BITF operation (R74). -/
def bitfPos (k : Coach) (regf : Bool) (b5 len5 : Nat) : Nat × Nat :=
  if regf then (rfld (rdG k b5) 0 6, rfld (rdG k b5) 8 6) else (b5, len5 + 1)

/-- PERM (R78): result byte j by control nibble j. -/
def permOp (a b c : W32) : Nat :=
  let src := a.toNat + 2 ^ 32 * b.toNat
  (upto 4).foldl (fun r j =>
    let n := rfld c (4 * j) 4
    r + (if bitN n 3 then 0 else fld src (8 * (n % 8)) 8) * 2 ^ (8 * j)) 0
/-- VPERM (R78): result byte j by control byte j. -/
def vpermOp (a b c : W128) : Nat :=
  let src := a.toNat + 2 ^ 128 * b.toNat
  (upto 16).foldl (fun r j =>
    let n := fld c.toNat (8 * j) 8
    r + (if bitN n 7 then 0 else fld src (8 * (n % 32)) 8) * 2 ^ (8 * j)) 0

/-- Magnitude of a signed word as an unsigned value (R129). -/
def mag (signed : Bool) (x : W32) : Nat := if signed && s32 x < 0 then 2 ^ 32 - x.toNat else x.toNat
/-- Latency of a divide (R129): function bit 0 set means unsigned. -/
def divLat (f : Nat) (a b : W32) : Nat :=
  let sg := f % 2 = 0
  let ma := mag sg a
  let mb := mag sg b
  if b = 0 || (sg && a = 0x80000000 && b = 0xFFFFFFFF) || ma < mb then 4
  else 4 + Nat.max 1 (topBit 32 ma + 1 - topBit 32 mb)
/-- Divide result and CO_ISTAT flags (R128, R133): 0 DIVS, 1 DIVU, 2 REMS, 3 REMU. -/
def divOp (f : Nat) (a b : W32) : W32 × Nat :=
  let sg := f % 2 = 0
  let rem := f ≥ 2
  if b = 0 then
    (if rem then a else if sg then (if s32 a < 0 then 0x80000000 else 0x7FFFFFFF) else 0xFFFFFFFF, 2)
  else if sg && a = 0x80000000 && b = 0xFFFFFFFF then
    (if rem then 0 else 0x80000000, if rem then 0 else 1)
  else
    let ma := mag sg a
    let mb := mag sg b
    let q := ma / mb
    let r := ma % mb
    let na := sg && s32 a < 0
    let nb := sg && s32 b < 0
    (if rem then (if na then w32 (-(r : Int)) else n32 r) else (if na != nb then w32 (-(q : Int)) else n32 q), 0)

/-- Results of an ALU-class operation that is not a divide, at +1 in slot 6 (Table 14 of chapter 02). -/
def aluResults (k : Coach) (o : Op) : List Pend :=
  match o with
  | .alu f d a imm b =>
    let r := aluOp f (rdG k a) (if imm then n32 b else rdG k b)
    match r.1 with
    | none => []
    | some v => [{ resG 1 6 d v with istat := r.2, exc := intExc k r.2 }]
  | .alui f d imm =>
    let r := aluiOp f imm (rdG k d)
    [{ (if f = 2 then res 1 6 .g d 0xFFFF0000 ((imm % 65536) * 65536) else resG 1 6 d r.1) with istat := r.2, exc := intExc k r.2 }]
  | .bitf f d a regf b5 len5 =>
    let pl := bitfPos k regf b5 len5
    match bitfOp f pl.1 pl.2 (rdG k a) with
    | none => []
    | some (m, v) => [res 1 6 .g d m v]
  | .perm d a b c => [resG 1 6 d (n32 (permOp (rdG k a) (rdG k b) (rdG k c)))]
  | .vperm d a b c => [res 1 6 .v d (2 ^ 128 - 1) (vpermOp (rdV k a) (rdV k b) (rdV k c))]
  | .movx d a df sf lane =>
    let w := movxDst df lane (movxSrc k a sf lane)
    [res 1 6 w.1 d w.2.1 w.2.2]
  | .div f d a b =>
    let r := divOp f (rdG k a) (rdG k b)
    [{ resG (divLat f (rdG k a) (rdG k b)) 6 d r.1 with istat := r.2, exc := intExc k r.2 }]
  | _ => []

end Sys2Proof.Machine
end

