-- ==== Sys2Proof/Machine/Mac.lean ====
section
/-! DEFINITION. The multiply-accumulate datapath (chapter 04): every operation of MACX, MACF and ACCX. A
result names the bits it writes, so parts an operation keeps are no part of its write (R108). -/
namespace Sys2Proof.Machine

/-- Mask of part `i` of an accumulator in a mode. -/
def partMask (m i : Nat) : Nat := (2 ^ partW m - 1) * 2 ^ (partW m * i)

/-- The accumulator operand an accumulating operation of unit `u` reads (R49, R108): the parts that the last
operation of the unit wrote to the same accumulator, while its result is pending; the architected value
elsewhere, bit by bit where the operation wrote only some of a part (DESIGN CHOICE, log entry 103). `now` is the counted cycle of issue. -/
def accOperand (k : Coach) (now u d : Nat) : Acc :=
  let a := rdAcc k d
  match tget none (k.fb.map (fun e => (e.1, some e.2))) u with
  | none => a
  | some f => if f.acc = d && now < f.due then (a &&& ~~~f.mask) ||| (f.val &&& f.mask) else a

/-- A write of some parts of ACCd at +3 in slot `slot`, the values fitted under R97. -/
def accWrite (slot d m s : Nat) (ps : List (Nat × Int)) : Pend :=
  let f := ps.map (fun p => (p.1, fitAcc (partW m) s p.2))
  { res 3 slot .acc d ((f.map (fun p => partMask m p.1)).foldl (· + ·) 0)
      ((f.map (fun p => p.2.1 * 2 ^ (partW m * p.1))).foldl (· + ·) 0) with
    mstat := (f.map (fun p => p.2.2)).foldl (· ||| ·) 0 }

/-- A write of parts that sets no flag. -/
def accWriteRaw (slot d m : Nat) (ps : List (Nat × Int)) : Pend :=
  { accWrite slot d m 0 ps with mstat := 0 }

/-- Operand of a product under SG (R96): signed or unsigned by operand. -/
def mulOpnd (m : Nat) (signed : Bool) (x : Nat) : Int := if signed then sx (laneW m) x else (x : Int)

/-- MACX (R104). -/
def macxOp (k : Coach) (now slot d a b op m : Nat) (bc : Bool) (j sg s : Nat) : Pend :=
  let old := accOperand k now (slot - 2) d
  let va := rdV k a
  let vb := rdV k b
  accWrite slot d m s ((upto (parts m)).map (fun l =>
    let p := mulOpnd m (sg != 1) (laneM m va l) * mulOpnd m (sg = 0) (laneM m vb (if bc then j else l))
    (l, if op = 0 then accPart m old l + p else if op = 1 then accPart m old l - p else p)))

/-- MACFIR (R117). -/
def macfirOp (k : Coach) (now slot d m a b j kk : Nat) (z : Bool) (s : Nat) : Pend :=
  let old := accOperand k now (slot - 2) d
  let c := sx (laneW m) (laneM m (rdV k b) j)
  accWrite slot d m s ((upto (parts m)).map (fun l =>
    (l, (if z then 0 else accPart m old l) + windowLane k m a (l + kk) * c)))

/-- LMSU (R118). -/
def lmsuOp (k : Coach) (slot d c a b j kk s : Nat) : Pend :=
  let e := sx 32 (lane32 (rdV k b) j)
  accWrite slot d 0 s ((upto 4).map (fun i =>
    (i, sx 32 (lane32 (rdV k c) i) * 2 ^ 31 + windowLane k 0 a (i + kk) * e)))

/-- Real and imaginary part of a complex product (R119). -/
def cmul (cj : Bool) (ar ai br bi : Int) : Int × Int :=
  if cj then (ar * br + ai * bi, ai * br - ar * bi) else (ar * br - ai * bi, ar * bi + ai * br)
/-- CMAC (R119). -/
def cmacOp (k : Coach) (now slot d m a b p q r : Nat) (cj z : Bool) (s : Nat) : Pend :=
  let old := accOperand k now (slot - 2) d
  let el (v : W128) (e : Nat) : Int × Int := (sx (laneW m) (laneM m v (2 * e)), sx (laneW m) (laneM m v (2 * e + 1)))
  let one (ea eb dst : Nat) : List (Nat × Int) :=
    let x := el (rdV k a) ea
    let y := el (rdV k b) eb
    let c := cmul cj x.1 x.2 y.1 y.2
    [(dst, (if z then 0 else accPart m old dst) + c.1), (dst + 1, (if z then 0 else accPart m old (dst + 1)) + c.2)]
  accWrite slot d m s (if m = 1 then one (2 * p) (2 * q) (4 * r) ++ one (2 * p + 1) (2 * q + 1) (4 * r + 2) else one p q (2 * r))

/-- BFLY (R120). -/
def bflyOp (k : Coach) (slot d m a t p s : Nat) : Pend :=
  let tv := rdAcc k t
  let x (i : Nat) : Int := sx (laneW m) (laneM m (rdV k a) i) * 2 ^ (laneW m - 1)
  if m = 1 then
    accWrite slot d 1 s
      [(0, x (4 * p) + accPart 1 tv 0), (1, x (4 * p + 1) + accPart 1 tv 1), (2, x (4 * p) - accPart 1 tv 0),
       (3, x (4 * p + 1) - accPart 1 tv 1), (4, x (4 * p + 2) + accPart 1 tv 2), (5, x (4 * p + 3) + accPart 1 tv 3),
       (6, x (4 * p + 2) - accPart 1 tv 2), (7, x (4 * p + 3) - accPart 1 tv 3)]
  else
    accWrite slot d 0 s
      [(0, x (2 * p) + accPart 0 tv 0), (1, x (2 * p + 1) + accPart 0 tv 1), (2, x (2 * p) - accPart 0 tv 0),
       (3, x (2 * p + 1) - accPart 0 tv 1)]

/-- Bits below the top bit of a part of `w` bits that equal it, from the top down (R114). -/
def redundant (w x : Nat) : Nat :=
  let y := if bitN x (w - 1) then 2 ^ w - 1 - x else x
  w - 1 - topBit (w - 1) y

/-- ACCX (R109 to R115). `sh` carries X[15:9] and `part` X[8:6]. -/
def accxOp (k : Coach) (now slot f d a sh part m s : Nat) : Pend :=
  let av := rdAcc k a
  let gd := d
  let old := accOperand k now (slot - 2) d
  let ps (g : Nat → Int) : List (Nat × Int) := (upto (parts m)).map (fun i => (i, g i))
  match f with
  | 0 => let e := extract 32 s sh (accPart m av part); { res 4 slot .g gd (2 ^ 32 - 1) e.1 with mstat := e.2 }
  | 1 => let e := extract 16 s sh (accPart m av part)
         { res 4 slot .g gd (2 ^ 32 - 1) (wrapN 32 (sx 16 e.1)) with mstat := e.2 }
  | 2 =>
    let es := (upto (parts m)).map (fun i => (i, extract (laneW m) s sh (accPart m av i)))
    { res 4 slot .v d (2 ^ 128 - 1) ((es.map (fun e => e.2.1 * 2 ^ (laneW m * e.1))).foldl (· + ·) 0) with
      mstat := (es.map (fun e => e.2.2)).foldl (· ||| ·) 0 }
  | 3 =>
    if bitN part 2 then accWrite slot d m s (ps (fun i => accPart m av i * ((2 ^ sh : Nat) : Int)))
    else accWriteRaw slot d m (ps (fun i => accPart m av i / ((2 ^ sh : Nat) : Int)))
  | 4 => res 3 slot .acc d (2 ^ 288 - 1) 0
  | 5 => accWrite slot d m s (ps (fun i => if bitN part 2 then accPart m old i - accPart m av i else accPart m old i + accPart m av i))
  | 6 => accWriteRaw slot d m (ps (fun i =>
           let x := sx (laneW m) (laneM m (rdV k (sh / 8)) i)
           max (accPart m old i) (if x < 0 then -x else x)))
  | 7 => res 4 slot .g gd (2 ^ 32 - 1)
           ((upto (parts m)).foldl (fun r i => Nat.min r (redundant (partW m) (fld av.toNat (partW m * i) (partW m)))) (partW m - 1))
  | 8 =>
    let piece := sh % 4
    let l := fld av.toNat (72 * part) 72
    res 4 slot .g gd (2 ^ 32 - 1) (if piece = 0 then fld l 0 32 else if piece = 1 then fld l 32 32 else wrapN 32 (sx 8 (fld l 64 8)))
  | _ =>
    let piece := sh % 4
    let g := (rdG k (sh / 4)).toNat
    let w := if piece = 2 then 8 else 32
    let lo := 72 * part + 32 * piece
    res 3 slot .acc d ((2 ^ w - 1) * 2 ^ lo) ((g % 2 ^ w) * 2 ^ lo)

/-- Result of a MAC-class operation other than float, in slot `slot` at counted cycle `now`. -/
def macResult (k : Coach) (now slot : Nat) (o : Op) : Option Pend :=
  match o with
  | .macx d a b op m bc j sg s => some (macxOp k now slot d a b op m bc j sg s)
  | .macfir d m a b j kk z s => some (macfirOp k now slot d m a b j kk z s)
  | .lmsu d c a b j kk s => some (lmsuOp k slot d c a b j kk s)
  | .cmac d m a b p q r cj z s => some (cmacOp k now slot d m a b p q r cj z s)
  | .bfly d m a t p s => some (bflyOp k slot d m a t p s)
  | .accx f d a sh part m s => some (accxOp k now slot f d a sh part m s)
  | _ => none

/-- The feedback path of a unit after an operation (R49): the accumulator bits it writes, if it writes any. -/
def feedbackOf (now : Nat) (p : Option Pend) : Feedback :=
  match p with
  | some q => if q.file = .acc then { acc := q.idx, mask := q.mask, val := q.val, due := now + q.due }
              else { acc := 0, mask := 0, val := 0, due := 0 }
  | none => { acc := 0, mask := 0, val := 0, due := 0 }

/-! ## VFIRB (R121 to R126) -/

/-- Gc breaks Table 10, or Gn is not a multiple of L (R122). -/
def vfirbBad (gc gn : W32) : Bool :=
  let m := b2n (rbit gc 31)
  let t := rfld gc 0 15
  let l := if m = 1 then 8 else 4
  rfld gc 23 7 > (if m = 1 then 35 else 71) || rfld gc 15 8 ≠ 0 || t = 0 || t % l ≠ 0 || t > 16384 || gn.toNat % l ≠ 0

/-- One output of VFIRB (R123): `x` and `c` give the signed samples. Answers the extracted bits and the flags. -/
def vfirbOut (m s sh t i : Nat) (x c : Nat → Int) : Nat × Nat :=
  let w := partW m
  let fitv (acc : Int × Nat) (v : Int) : Int × Nat := let r := fitAcc w s v; (sx w r.1, acc.2 ||| r.2)
  let part (u : Nat) : Int × Nat := (upto ((t + 3 - u) / 4)).foldl (fun acc n =>
    fitv acc (acc.1 + x (i + (u + 4 * n)) * c (u + 4 * n))) (0, 0)
  let p0 := part 0
  let p1 := part 1
  let p2 := part 2
  let p3 := part 3
  let q0 := fitv (0, p0.2 ||| p1.2) (p0.1 + p1.1)
  let q1 := fitv (0, p2.2 ||| p3.2) (p2.1 + p3.1)
  let r := fitv (0, q0.2 ||| q1.2) (q0.1 + q1.1)
  let e := extract (laneW m) s sh r.1
  (e.1, r.2 ||| e.2)

end Sys2Proof.Machine
end

