-- ==== Sys2Proof/Machine/Float.lean ====
section
/-! DEFINITION. Binary floating point (chapter 05): exact dyadic arithmetic, one rounding, flags, subnormals
and NaNs. Flags are CO_FPSTAT bits: IV 1, DZ 2, OF 4, UF 8, IX 16, SI 32. -/
namespace Sys2Proof.Machine

/-- What decides a float result beside its operands: CO_MODE.RND (1 RTZ), CO_MODE.SUBN (1 trap), lead coach. -/
structure FEnv where
  rtz : Bool
  trapSub : Bool
  lead : Bool
  deriving DecidableEq, Repr

/-- Result of one lane: bits, flags, and whether it met the trap condition (R151). -/
structure FLane where
  val : Nat
  fl : Nat
  trap : Bool
  deriving DecidableEq, Repr

/-- A format: fraction bits and exponent bits (R135). -/
structure FFmt where
  fb : Nat
  eb : Nat
  deriving DecidableEq, Repr

def f32 : FFmt := { fb := 23, eb := 8 }
def f16 : FFmt := { fb := 10, eb := 5 }

def fSign (f : FFmt) (x : Nat) : Bool := bitN x (f.fb + f.eb)
def fExp (f : FFmt) (x : Nat) : Nat := fld x f.fb f.eb
def fFrac (f : FFmt) (x : Nat) : Nat := fld x 0 f.fb
def fTop (f : FFmt) : Nat := 2 ^ f.eb - 1
def fBias (f : FFmt) : Nat := 2 ^ (f.eb - 1) - 1
def fNaN (f : FFmt) (x : Nat) : Bool := fExp f x = fTop f && fFrac f x ≠ 0
/-- Signalling NaN (R153). -/
def fSNaN (f : FFmt) (x : Nat) : Bool := fNaN f x && !bitN x (f.fb - 1)
def fInf (f : FFmt) (x : Nat) : Bool := fExp f x = fTop f && fFrac f x = 0
def fSub (f : FFmt) (x : Nat) : Bool := fExp f x = 0 && fFrac f x ≠ 0
def fZero (f : FFmt) (x : Nat) : Bool := fExp f x = 0 && fFrac f x = 0
/-- Bits with a sign. -/
def fSigned (f : FFmt) (s : Bool) (x : Nat) : Nat := x + b2n s * 2 ^ (f.fb + f.eb)
def fInfBits (f : FFmt) (s : Bool) : Nat := fSigned f s (fTop f * 2 ^ f.fb)
def fMaxBits (f : FFmt) (s : Bool) : Nat := fSigned f s (fTop f * 2 ^ f.fb - 1)
/-- Flush of a subnormal operand to a zero of its sign (R150). -/
def fFlush (f : FFmt) (x : Nat) : Nat := if fSub f x then fSigned f (fSign f x) 0 else x
/-- A finite value as mantissa and exponent: value is m × 2^e. -/
def fMant (f : FFmt) (x : Nat) : Int :=
  let m : Int := ((fFrac f x + (if fExp f x = 0 then 0 else 2 ^ f.fb) : Nat) : Int)
  if fSign f x then -m else m
def fExpo (f : FFmt) (x : Nat) : Int := ((Nat.max 1 (fExp f x) : Nat) : Int) - (fBias f : Int) - (f.fb : Int)

/-- Number of significant bits. -/
def bitLen (x : Nat) : Nat := if x = 0 then 0 else Nat.log2 x + 1

/-- Shift right by `n` bits with rounding: truncation, or to nearest with ties to even (R145). The second
component says inexact. -/
def shrRound (rtz : Bool) (m n : Nat) : Nat × Bool :=
  if n = 0 then (m, false) else
  let q := m >>> n
  let r := m % 2 ^ n
  let half := 2 ^ (n - 1)
  (if !rtz && (r > half || (r = half && q % 2 = 1)) then q + 1 else q, r ≠ 0)

/-- A non-zero magnitude m × 2^e rounded to `p` significant bits with unbounded exponent: mantissa of exactly
`p` bits, exponent, inexact (R149). -/
def roundSig (rtz : Bool) (p m : Nat) (e : Int) : Nat × Int × Bool :=
  let n := bitLen m
  if n ≤ p then (m * 2 ^ (p - n), e - ((p - n : Nat) : Int), false)
  else
    let r := shrRound rtz m (n - p)
    let e' := e + ((n - p : Nat) : Int)
    if r.1 = 2 ^ p then (2 ^ (p - 1), e' + 1, r.2) else (r.1, e', r.2)

/-- A magnitude m × 2^e, not zero, as a result of format `f` under rounding to `p` significant bits: overflow,
tiny and normal results (R143, R145, R149, R150, R151). -/
def packRound (env : FEnv) (rtz : Bool) (f : FFmt) (p : Nat) (s : Bool) (m : Nat) (e : Int) : FLane :=
  let r := roundSig rtz p m e
  let ex := r.2.1 + ((p - 1 : Nat) : Int)
  if ex > (fBias f : Int) then
    { val := if rtz then fMaxBits f s else fInfBits f s, fl := 4 + 16, trap := false }
  else if ex < 1 - (fBias f : Int) then
    if env.trapSub then { val := 0, fl := 0, trap := true } else { val := fSigned f s 0, fl := 8 + 16, trap := false }
  else
    { val := fSigned f s ((ex + (fBias f : Int)).toNat * 2 ^ f.fb + (r.1 - 2 ^ (p - 1)) * 2 ^ (f.fb + 1 - p)),
      fl := if r.2.2 then 16 else 0, trap := false }

/-- An exact sum or product m × 2^e, zero with sign `zs`. -/
def packF (env : FEnv) (f : FFmt) (zs : Bool) (m : Int) (e : Int) : FLane :=
  if m = 0 then { val := fSigned f zs 0, fl := 0, trap := false }
  else packRound env env.rtz f (f.fb + 1) (m < 0) m.natAbs e

/-- NaN result (R154, R155): on a lead coach the first NaN operand, quieted. -/
def nanOut (env : FEnv) (ops : List Nat) : Nat :=
  if env.lead then
    match ops.find? (fun x => fNaN f32 x) with
    | some x => if bitN x 22 then x else x + 2 ^ 22
    | none => 0x7FC00000
  else 0x7FC00000

/-- A lane over binary32 operands: trap on a subnormal operand in trap mode, flush with SI otherwise, IV for a
signalling NaN; `go` computes from the flushed operands (R150, R151, R153). -/
def laneOp (env : FEnv) (ops : List Nat) (go : List Nat → FLane) : FLane :=
  if env.trapSub && ops.any (fun x => fSub f32 x) then { val := 0, fl := 0, trap := true }
  else
    let r := go (ops.map (fFlush f32))
    if r.trap then r
    else { r with fl := r.fl ||| (if ops.any (fun x => fSub f32 x) then 32 else 0) ||| (if ops.any (fun x => fSNaN f32 x) then 1 else 0) }

/-- Exact sum of two dyadics. -/
def addDy (m1 e1 m2 e2 : Int) : Int × Int :=
  let e := min e1 e2
  (m1 * ((2 ^ (e1 - e).toNat : Nat) : Int) + m2 * ((2 ^ (e2 - e).toNat : Nat) : Int), e)

/-- a + b on flushed operands, b already with its effective sign `sb` (R145, R153). `nan` is what a NaN gives. -/
def sumLane (env : FEnv) (a b : Nat) (nan : Nat) : FLane :=
  if fNaN f32 a || fNaN f32 b then { val := nan, fl := 0, trap := false }
  else if fInf f32 a && fInf f32 b && fSign f32 a != fSign f32 b then { val := 0x7FC00000, fl := 1, trap := false }
  else if fInf f32 a then { val := a, fl := 0, trap := false }
  else if fInf f32 b then { val := b, fl := 0, trap := false }
  else
    let r := addDy (fMant f32 a) (fExpo f32 a) (fMant f32 b) (fExpo f32 b)
    packF env f32 (fSign f32 a && fSign f32 b) r.1 r.2

/-- The bits with the sign inverted. -/
def fNegate (x : Nat) : Nat := if bitN x 31 then x - 2 ^ 31 else x + 2 ^ 31

/-- a × b (R137). -/
def mulLane (env : FEnv) (a b : Nat) (nan : Nat) : FLane :=
  let s := fSign f32 a != fSign f32 b
  if fNaN f32 a || fNaN f32 b then { val := nan, fl := 0, trap := false }
  else if (fInf f32 a && fZero f32 b) || (fZero f32 a && fInf f32 b) then { val := 0x7FC00000, fl := 1, trap := false }
  else if fInf f32 a || fInf f32 b then { val := fInfBits f32 s, fl := 0, trap := false }
  else packF env f32 s (fMant f32 a * fMant f32 b) (fExpo f32 a + fExpo f32 b)

/-- ±(a × b) + c with one rounding (R137, R145, R153); `neg` for FNMA. -/
def fmaLane (env : FEnv) (neg : Bool) (a b c : Nat) (nan : Nat) : FLane :=
  let s := (fSign f32 a != fSign f32 b) != neg
  let inv := (fInf f32 a && fZero f32 b) || (fZero f32 a && fInf f32 b)
  if fNaN f32 a || fNaN f32 b || fNaN f32 c then { val := nan, fl := if inv then 1 else 0, trap := false }
  else if inv then { val := 0x7FC00000, fl := 1, trap := false }
  else if fInf f32 a || fInf f32 b then
    if fInf f32 c && fSign f32 c != s then { val := 0x7FC00000, fl := 1, trap := false }
    else { val := fInfBits f32 s, fl := 0, trap := false }
  else if fInf f32 c then { val := c, fl := 0, trap := false }
  else
    let m := fMant f32 a * fMant f32 b
    let r := addDy (if neg then -m else m) (fExpo f32 a + fExpo f32 b) (fMant f32 c) (fExpo f32 c)
    packF env f32 (s && fSign f32 c) r.1 r.2

/-- Total order of finite and infinite values, with −0 below +0 where `z` holds (R138, R140). -/
def fLt (z : Bool) (a b : Nat) : Bool :=
  let key (x : Nat) : Int := let m : Int := ((x % 2 ^ 31 : Nat) : Int); if bitN x 31 then -m - (if z then 1 else 0) else m
  decide (key a < key b)

/-- minimumNumber and maximumNumber (R140). -/
def minMaxLane (mx : Bool) (a b : Nat) (nan : Nat) : FLane :=
  let v := if fNaN f32 a && fNaN f32 b then nan
           else if fNaN f32 a then b
           else if fNaN f32 b then a
           else if mx then (if fLt true a b then b else a) else (if fLt true b a then b else a)
  { val := v, fl := 0, trap := false }

/-- FRCPE (R141): 12 significant bits, truncated. -/
def rcpLane (env : FEnv) (a : Nat) (nan : Nat) : FLane :=
  if fNaN f32 a then { val := nan, fl := 0, trap := false }
  else if fZero f32 a then { val := fInfBits f32 (fSign f32 a), fl := 2, trap := false }
  else if fInf f32 a then { val := fSigned f32 (fSign f32 a) 0, fl := 0, trap := false }
  else
    let q := (fMant f32 a).natAbs
    let n := 2 ^ 40 / q
    packRound env true f32 12 (fSign f32 a) (2 * n + (if 2 ^ 40 % q = 0 then 0 else 1)) (-(fExpo f32 a) - 41)

/-- Compares (R138): function 0x0A FCEQ, 0x0B FCLT, 0x0C FCLE, 0x0D FCUN; the value is the lane's bit. -/
def cmpLane (f a b : Nat) : FLane :=
  let un := fNaN f32 a || fNaN f32 b
  let v := if f = 0x0D then un
           else if un then false
           else if f = 0x0A then !fLt false a b && !fLt false b a
           else if f = 0x0B then fLt false a b
           else !fLt false b a
  { val := b2n v, fl := if un && (f = 0x0B || f = 0x0C) then 1 else 0, trap := false }

/-- FTOI (R142): to int32 with scale 2^k. -/
def ftoiLane (env : FEnv) (k a : Nat) : FLane :=
  if fNaN f32 a then { val := 0, fl := 1, trap := false }
  else if fInf f32 a then { val := if fSign f32 a then 0x80000000 else 0x7FFFFFFF, fl := 1, trap := false }
  else
    let m := (fMant f32 a).natAbs
    let e := fExpo f32 a + (k : Int)
    let r := if e ≥ 0 then (m * 2 ^ e.toNat, false) else shrRound env.rtz m (-e).toNat
    let v : Int := if fSign f32 a then -(r.1 : Int) else (r.1 : Int)
    if satSd 32 v then { val := wrapN 32 (satS 32 v), fl := 1, trap := false }
    else { val := wrapN 32 v, fl := if r.2 then 16 else 0, trap := false }

/-- ITOF (R142). -/
def itofLane (env : FEnv) (k a : Nat) : FLane := packF env f32 false (sx 32 a) (-(k : Int))

/-- HTOF (R143, R150, R155). -/
def htofLane (env : FEnv) (h : Nat) : FLane :=
  if fNaN f16 h then
    { val := if env.lead then fSigned f32 (fSign f16 h) (0x7F800000 + ((fFrac f16 h) * 2 ^ 13 ||| 2 ^ 22)) else 0x7FC00000,
      fl := if fSNaN f16 h then 1 else 0, trap := false }
  else if fInf f16 h then { val := fInfBits f32 (fSign f16 h), fl := 0, trap := false }
  else if fSub f16 h then
    if env.trapSub then { val := 0, fl := 0, trap := true } else { val := fSigned f32 (fSign f16 h) 0, fl := 32, trap := false }
  else packF env f32 (fSign f16 h) (fMant f16 h) (fExpo f16 h)

/-- FTOH (R143, R154, R155). -/
def ftohLane (env : FEnv) (a : Nat) : FLane :=
  if fNaN f32 a then
    { val := if env.lead then fSigned f16 (fSign f32 a) (0x7C00 + (fld a 13 10 ||| 2 ^ 9)) else 0x7E00, fl := 0, trap := false }
  else if fInf f32 a then { val := fInfBits f16 (fSign f32 a), fl := 0, trap := false }
  else packF env f16 (fSign f32 a) (fMant f32 a) (fExpo f32 a)

/-- One lane of a float function on operand bits a, b, c (R137). -/
def fltLane (env : FEnv) (f k a b c : Nat) : FLane :=
  let nan2 := nanOut env [a, b]
  let two (g : Nat → Nat → FLane) : FLane := laneOp env [a, b] (fun l => match l with | [x, y] => g x y | _ => { val := 0, fl := 0, trap := false })
  let one (g : Nat → FLane) : FLane := laneOp env [a] (fun l => match l with | [x] => g x | _ => { val := 0, fl := 0, trap := false })
  let three (g : Nat → Nat → Nat → FLane) : FLane := laneOp env [a, b, c] (fun l => match l with | [x, y, z] => g x y z | _ => { val := 0, fl := 0, trap := false })
  match f with
  | 0x00 => two (fun x y => sumLane env x y nan2)
  | 0x01 => two (fun x y => sumLane env x (if fNaN f32 y then y else fNegate y) nan2)
  | 0x02 => two (fun x y => mulLane env x y nan2)
  | 0x03 => three (fun x y z => fmaLane env false x y z (nanOut env [a, b, c]))
  | 0x04 => three (fun x y z => fmaLane env true x y z (nanOut env [a, b, c]))
  | 0x05 => two (fun x y => minMaxLane false x y nan2)
  | 0x06 => two (fun x y => minMaxLane true x y nan2)
  | 0x07 => { val := a % 2 ^ 31, fl := 0, trap := false }
  | 0x08 => { val := fNegate a, fl := 0, trap := false }
  | 0x09 => one (fun x => rcpLane env x (nanOut env [a]))
  | 0x0A => two (cmpLane 0x0A)
  | 0x0B => two (cmpLane 0x0B)
  | 0x0C => two (cmpLane 0x0C)
  | 0x0D => two (cmpLane 0x0D)
  | 0x0E => one (ftoiLane env k)
  | 0x0F => itofLane env k a
  | 0x10 => htofLane env a
  | _ => one (ftohLane env)

/-- Latency of a float function (R137, Table 5). -/
def fltLat (f : Nat) : Nat :=
  if f = 5 || f = 6 || f = 7 || f = 8 || f = 0x0A || f = 0x0B || f = 0x0C || f = 0x0D then 2 else 4

/-- The environment of a coach: CO_MODE bits 4 and 3 (R145, R150). -/
def fltEnv (k : Coach) (lead : Bool) : FEnv :=
  { rtz := rbit (rdCo k 0x000) 4, trapSub := rbit (rdCo k 0x000) 3, lead := lead }

/-- Result of a FLT operation in MAC slot `slot` (R144, R147, R148, R151): a trapping operation writes no bit
and sets no flag, and carries the lanes that met the trap condition. -/
def fltResult (k : Coach) (lead : Bool) (slot f d a b c : Nat) : Pend :=
  let env := fltEnv k lead
  let h := c % 2
  let ls := (upto 4).map (fun i =>
    (i, fltLane env f b (if f = 0x10 then lane16 (rdV k a) (4 * h + i) else lane32 (rdV k a) i) (lane32 (rdV k b) i) (lane32 (rdV k c) i)))
  let trap := (ls.map (fun e => if e.2.trap then 2 ^ e.1 else 0)).foldl (· + ·) 0
  if trap ≠ 0 then { res (fltLat f) slot .v d 0 0 with trap := trap }
  else
    let fl := (ls.map (fun e => e.2.fl)).foldl (· ||| ·) 0
    let sum (w lo : Nat) := (ls.map (fun e => (e.2.val % 2 ^ w) * 2 ^ (lo + w * e.1))).foldl (· + ·) 0
    let p := if f ≥ 0x0A && f ≤ 0x0D then res (fltLat f) slot .g d (2 ^ 32 - 1) (sum 1 0)
             else if f = 0x11 then res (fltLat f) slot .v d ((2 ^ 64 - 1) * 2 ^ (64 * h)) (sum 16 (64 * h))
             else res (fltLat f) slot .v d (2 ^ 128 - 1) (sum 32 0)
    { p with fpstat := fl, exc := fltExc k fl }

end Sys2Proof.Machine
end

