-- ==== Sys2Proof/Machine/CoachOps.lean ====
section
/-! DEFINITION. What every way of running a coach shares: counted cycles and the budget timer (R46, R253), CO_
registers as code reads and writes them (R43 to R45), results that land with their collisions, flags and
arithmetic exceptions (R47 to R52, R192, R193), and the raising of an exception (R188). -/
namespace Sys2Proof.Machine

/-! ## Levels and modes -/

def coF (k : Coach) (off lo w : Nat) : Nat := rfld (rdCo k off) lo w
def coB (k : Coach) (off i : Nat) : Bool := rbit (rdCo k off) i
def setCoF (k : Coach) (off lo w v : Nat) : Coach := wrCo k off (setR (rdCo k off) lo w v)
/-- CO_STAT.PRIV: supervisor level (R183). -/
def isSup (k : Coach) : Bool := coB k 0x002 1
/-- CO_MODE.PRECISE. -/
def isPrecise (k : Coach) : Bool := coB k 0x000 0
/-- Prediction is off: CO_MODE.DETFETCH, or inside a bar (R168, R176, R177). -/
def predOff (k : Coach) : Bool := coB k 0x000 2 || coF k 0x328 0 8 ≠ 0

/-! ## Cycles -/

/-- The budget timer counts `m` cycles down (R253). -/
def budgetCount (k : Coach) (m : Nat) : Coach :=
  if k.job.isSome && coB k 0x506 31 && k.budgetHold.isNone then setCoF k 0x506 0 24 (coF k 0x506 0 24 - m) else k
/-- Cycles of an interrupt are counted for the coach's statistics (R256). -/
def irqCount (k : Coach) (m : Nat) : Coach := { k with irqCycles := k.irqCycles + m }
/-- Coach cycles pass: `n` counted and `st` stall cycles (R46). The budget timer counts them all while a job is the
current context and no interrupt holds it (R253); an interrupt's cycles count in the statistics (R256). -/
def passTime (k : Coach) (n st : Nat) : Coach :=
  let k := budgetCount { k with cyc := k.cyc + n, cycles := k.cycles + n + st } (n + st)
  if k.budgetHold.isSome then irqCount k (n + st) else k

/-! ## CO_ registers -/

/-- CO_CAPS (R9, Table 3 of chapter 00). -/
def coCaps (s : State) (c : Nat) : Nat :=
  let v := s.variant
  let lead := isLead c
  v.coaches * 2 ^ 20 + v.clusters * 2 ^ 16 + v.dramChannels * 2 ^ 12 + (if lead then 2 else 4) * 2 ^ 8 +
  (if v.dramChannels > 0 then 8 else 0) + (if lead then 6 else 0) + (if lead || v.float then 1 else 0)
/-- What a load of an assigned CO_ register returns (R12: WO fields read 0). -/
def coRead (s : State) (c : Nat) (k : Coach) (off : Nat) : W32 :=
  if off = 0x008 then n32 k.cycles
  else if off = 0xFFE then n32 (coCaps s c)
  else if off = 0x328 then (if coF k 0x328 0 8 ≠ 0 then setR (rdCo k 0x328) 8 1 1 else rdCo k 0x328)
  else if off = 0x502 then 0
  else if off = 0x504 then
    let w := setR (setR (setR (rdCo k 0x504) 24 4 (Nat.min 15 k.handlers)) 16 5 k.level) 31 1 (b2n k.job.isSome)
    (match k.job with
     | some j => setR (setR (setR w 30 1 (b2n j.stolen)) 28 1 (b2n j.plost)) 0 12 j.cart
     | none => w)
  else if off = 0x506 then (if k.budgetHold.isSome then setR (rdCo k 0x506) 31 1 0 else rdCo k 0x506)
  else if off = 0x50A then (match k.job with | some j => n32 j.k | none => 0)
  else if off = 0x50C then (match k.job with | some j => n32 j.deadline | none => 0)
  else rdCo k off
/-- A load clears CO_HOLD_MAX (RC, R12). -/
def coReadClear (k : Coach) (off : Nat) : Coach := if off = 0x006 then wrCo k 0x006 0 else k
/-- Bits of a RW store after reserved values keep their previous ones (R14). -/
def keepReserved (old v : Nat) : List (Nat × Nat) → Nat
  | [] => v
  | (lo, w) :: r => keepReserved old (setFld v lo w (fld old lo w)) r
/-- A store to a CO_ register takes effect (R12, R14, R43, R262, R268): `hold` is the admitted hold limit of a
handed-over coach, if one is admitted. CO_CDONE is noted for the dispatcher. -/
def coWrite (c : Nat) (hold : Option Nat) (k : Coach) (off : Nat) (v : W32) : Coach :=
  match coInfo (isLead c) off with
  | none => k
  | some i =>
    if off = 0x500 then wrCo k 0x500 (rdCo k 0x500 + 1)
    else if off = 0x502 then { k with cdone := some (rbit v 0) }
    else
      let old := (rdCo k off).toNat
      let res := coReserved off v.toNat
      let v1 := keepReserved old v.toNat res
      let raise := match hold with | some h => off = 0x004 && v1 % 4096 > h && v1 % 4096 > old % 4096 | none => false
      let v2 := if raise then old else v1
      let rw := if off = 0x000 && !isLead c then i.rw &&& 0x7FFF else i.rw
      let all := 2 ^ 32 - 1
      let new := (old &&& (all - rw)) ||| (v2 &&& rw)
      let new := new &&& (all - (v.toNat &&& i.w1c))
      let k := wrCo k off (n32 new)
      if !res.isEmpty || raise then setCoF k 0x002 12 1 1 else k

/-! ## Results that land -/

/-- One write of a result's bits. -/
def landOne (k : Coach) (p : Pend) : Coach :=
  let x (w : Nat) (old : BitVec w) : BitVec w := BitVec.ofNat w ((old.toNat &&& (2 ^ w - 1 - p.mask.toNat % 2 ^ w)) ||| (p.val.toNat &&& p.mask.toNat))
  match p.file with
  | .g => { k with g := tput 0 k.g p.idx (x 32 (rdG k p.idx)) }
  | .p => { k with p := tput 0 k.p p.idx (x 32 (rdP k p.idx)) }
  | .n => { k with n := tput 0 k.n p.idx (x 32 (rdN k p.idx)) }
  | .v => { k with v := tput 0 k.v p.idx (x 128 (rdV k p.idx)) }
  | .acc => { k with acc := tput 0 k.acc p.idx (x 288 (rdAcc k p.idx)) }
/-- Number of a register file in EXC_DETAIL1 of entry 13. -/
def fileNo : RegFile → Nat
  | .g => 0 | .p => 1 | .n => 2 | .v => 3 | .acc => 4
/-- Two results of one cycle collide (R51). -/
def collide (p q : Pend) : Bool := p.file = q.file && p.idx = q.idx && p.mask &&& q.mask ≠ 0
/-- The first pair that collides in a list of results, as file × 32 + register. -/
def firstColl : List Pend → Option Nat
  | [] => none
  | p :: r => if r.any (collide p) then some (fileNo p.file * 32 + p.idx) else firstColl r
/-- The sticky flags of one result, and its precise exceptions gathered (R193). -/
def landFlags (k : Coach) (p : Pend) : Coach :=
  let k := wrCo (wrCo (wrCo k 0x102 (rdCo k 0x102 ||| n32 p.istat)) 0x200 (rdCo k 0x200 ||| n32 p.mstat)) 0x280 (rdCo k 0x280 ||| n32 p.fpstat)
  if p.exc ≠ 0 && p.prec then
    let q := k.precise.getD { apc := p.apc, code := 0, slots := 0, coll := none }
    { k with precise := some { q with apc := p.apc, code := q.code ||| p.exc, slots := q.slots ||| 2 ^ p.slot } }
  else k
/-- Imprecise arithmetic exceptions of results that become visible in one cycle (R192): the first bundle among them
is the first exception, with all its slots. -/
def landImprecise (k : Coach) (ps : List Pend) : Coach :=
  let es := ps.filter (fun p => p.exc ≠ 0 && !p.prec)
  match minBy (fun p => [p.seq]) es with
  | none => k
  | some f =>
    let code := es.foldl (fun r p => r ||| p.exc) 0
    if coB k 0x002 6 then wrCo k 0x412 (setR (setR (rdCo k 0x412) 8 8 (coF k 0x412 8 8 ||| code)) 16 1 1)
    else
      let own := es.filter (fun p => p.seq = f.seq)
      let slots := own.foldl (fun r p => r ||| 2 ^ p.slot) 0
      let k := setCoF k 0x002 6 1 1
      wrCo (wrCo k 0x410 f.apc) 0x412 (n32 (slots * 2 ^ 24 + b2n (decide (own.length < es.length)) * 2 ^ 16 + code * 256 + 9))
/-- Results of one cycle: writes in slot order, then in order of issue, so that the winner of R51 comes last. Between two
bundles' results of one MAC or LD slot the later-issued wins, as R51 says of the ALU slot (DESIGN CHOICE, log entry 86). -/
def landGroup (k : Coach) (ps : List Pend) : Coach :=
  let ord := sortBy (fun a b => decide (a.slot < b.slot) || (decide (a.slot = b.slot) && decide (a.seq < b.seq))) ps
  let k1 := ord.foldl landOne k
  let k2 := landImprecise (ord.foldl landFlags k1) ord
  match firstColl ord with
  | none => k2
  | some r =>
    if ord.any (fun p => p.prec) then
      let q := k2.precise.getD { apc := (match ord with | p :: _ => p.apc | [] => 0), code := 0, slots := 0, coll := none }
      { k2 with precise := some { q with coll := some (q.coll.getD r) } }
    else setCoF k2 0x002 11 1 1
/-- Everything due at counted cycle `t` lands, stores to CO_ registers before the results (R45, R47). A result whose
lanes trap stays until its trap is taken (R151). -/
def landAt (c : Nat) (hold : Option Nat) (k : Coach) (t : Nat) : Coach :=
  let cs := k.coPend.filter (fun e => e.due = t)
  let k := { k with coPend := k.coPend.filter (fun e => e.due ≠ t) }
  let k := cs.foldl (fun k e => coWrite c hold k e.off e.val) k
  let ps := k.pend.filter (fun p => p.due = t && p.trap = 0)
  let k := { k with pend := k.pend.filter (fun p => !(p.due = t && p.trap = 0)) }
  if ps.isEmpty then k else landGroup k ps
/-- Earliest due cycle of what is outstanding, traps apart. -/
def nextDue (k : Coach) : Option Nat :=
  ((k.pend.filter (fun p => p.trap = 0)).map (fun p => p.due) ++ k.coPend.map (fun e => e.due)).foldl
    (fun r d => match r with | none => some d | some m => some (Nat.min m d)) none
/-- Everything due by counted cycle `t` lands, earliest first. `n` bounds the number of distinct cycles. -/
def landUpto (c : Nat) (hold : Option Nat) : Nat → Coach → Nat → Coach
  | 0, k, _ => k
  | n + 1, k, t =>
    match nextDue k with
    | some d => if d ≤ t then landUpto c hold n (landAt c hold k d) t else k
    | none => k
/-- Last cycle at which something outstanding lands or traps. -/
def lastDue (k : Coach) : Nat := maxL (k.pend.map (fun p => p.due) ++ k.coPend.map (fun e => e.due))
/-- A result that traps and whose cycle has come (R151). -/
def trapDue (k : Coach) : Bool := k.pend.any (fun p => p.trap ≠ 0 && p.due ≤ k.cyc)

/-! ## Raising an exception (R188) -/

def excReq (entry code : Nat) (pc apc : W32) : ExcReq :=
  { entry := entry, code := code, scnum := 0, slots := 0, info := 0, detail1 := 0, apc := apc, pc := pc }
/-- An exception is raised; its entry runs when EXCEPTION_ENTRY does. -/
def raiseExc (k : Coach) (r : ExcReq) : Coach := { k with exc := some r, decoded := none }
/-- The subnormal trap of every slot that traps in the earliest such cycle (R151, R152, Table 9 of chapter 07). Where operations
of two bundles trap in one cycle, EXC_APC names the bundle issued first (DESIGN CHOICE, log entry 88). -/
def trapReq (k : Coach) : Option ExcReq :=
  let ts := k.pend.filter (fun p => p.trap ≠ 0)
  match ts with
  | [] => none
  | p :: r =>
    let d := r.foldl (fun m q => Nat.min m q.due) p.due
    let g := ts.filter (fun q => q.due = d)
    some { excReq 11 0 k.pc (match g with | q :: _ => q.apc | [] => 0) with
           slots := g.foldl (fun m q => m ||| 2 ^ q.slot) 0
           info := g.foldl (fun m q => m ||| q.trap * 2 ^ (4 * (q.slot - 2))) 0 }
/-- The traps of the earliest cycle, whose subnormal trap is taken, are gone; those of later cycles stay (R151). -/
def dropTraps (k : Coach) : Coach :=
  let ts := k.pend.filter (fun p => p.trap ≠ 0)
  match ts with
  | [] => k
  | p :: r =>
    let d := r.foldl (fun m q => Nat.min m q.due) p.due
    { k with pend := k.pend.filter (fun q => !(q.trap ≠ 0 && q.due = d)) }
/-- Entry 10 or 13 of a precise bundle once all its results have landed (R52, R193): with both, entry 10 alone and
COLL set. -/
def preciseReq (k : Coach) : Option (Coach × ExcReq) :=
  match k.precise with
  | none => none
  | some q =>
    if !(k.pend.filter (fun p => p.prec)).isEmpty then none else
    let k := { k with precise := none }
    if q.code ≠ 0 then
      some ((if q.coll.isSome then setCoF k 0x002 11 1 1 else k), { excReq 10 q.code k.pc q.apc with slots := q.slots })
    else
      some (k, { excReq 13 0 k.pc q.apc with detail1 := n32 (q.coll.getD 0) })

/-- A coach that executes: running, not stalled, with no exception raised and no long operation under way. -/
def isRunning (k : Coach) : Bool :=
  k.run = .running && k.access.isEmpty && k.after.isNone && k.exc.isNone && k.long.isNone

end Sys2Proof.Machine
end

