-- ==== Sys2Proof/Machine/Fetch.lean ====
section
/-! DEFINITION. The fetch unit: decoding on the correct and the wrong path, direction counters and return stack
(R170 to R177), the loop end test (R163, R165), and what is visible at a coach's present cycle (R47, R57). -/
namespace Sys2Proof.Machine

/-- The bundle at an instruction address. -/
def bundleAt (s : State) (c a : Nat) : Bundle := readBundle (fetchWord s c) 8 a []
/-- The CTL-class operation of a bundle. -/
def ctlOf (b : Bundle) : Option Op := (bundleOps b).find? (fun o => opCls o = .ctl)
def perfAdd (k : Coach) (off n : Nat) : Coach := wrCo k off (rdCo k off + n32 n)

/-- Counter index and value (R170). -/
def ctrIdx (a : Nat) : Nat := a / 2 % 1024
def ctrGet (k : Coach) (a : Nat) : Nat := tget 1 k.counters (ctrIdx a)
def ctrSet (k : Coach) (a v : Nat) : Coach := { k with counters := tput 1 k.counters (ctrIdx a) v }
/-- Push of a return address (R172). -/
def rsPush (k : Coach) (a : W32) : Coach :=
  let t := (k.rsTop + 1) % 16
  { k with rsTop := t, rs := (terase k.rs t |> tins t a) }
/-- The return stack's top, if valid. -/
def rsPeek (k : Coach) : Option W32 :=
  match k.rs.find? (fun e => e.1 = k.rsTop) with | some e => some e.2 | none => none
/-- A conditional branch: conditions 0 to 5. -/
def isCond (cond : Nat) : Bool := decide (cond < 6)
/-- What decoding a bundle at `a` does with prediction on (R171 step 1, R172): the coach, the counter value, the
predicted direction, the predicted return. -/
def predict (k : Coach) (a next : Nat) (o : Option Op) : Coach × Nat × Bool × Option W32 :=
  match o with
  | some (.br cond _ _) =>
    if isCond cond then
      let v := ctrGet k a
      (ctrSet k a (if v ≥ 2 then Nat.min 3 (v + 1) else v - 1), v, decide (v ≥ 2), none)
    else (k, 0, true, none)
  | some (.call _) => (rsPush k (n32 next), 0, true, none)
  | some (.callR _) => (rsPush k (n32 next), 0, true, none)
  | some (.ret _ _) => ({ k with rsTop := (k.rsTop + 15) % 16 }, 0, true, rsPeek k)
  | _ => (k, 0, false, none)
/-- Decoding of the correct-path bundle at `a` (R172, R176, R182). -/
def decodePath (k : Coach) (a : W32) (b : Bundle) : Coach :=
  let k := perfAdd k 0x602 1
  if predOff k then { k with decoded := some { addr := a, on := false, v := 0, taken := false, ret := none } }
  else
    let p := predict k a.toNat b.next (ctlOf b)
    { p.1 with decoded := some { addr := a, on := true, v := p.2.1, taken := p.2.2.1, ret := p.2.2.2 } }
/-- Where fetch goes after a bundle that ends a loop level: LSTART of the first level that would loop back (R163,
R165, R175); no LCOUNT changes. -/
def fetchLoop (k : Coach) (next : Nat) : Nat :=
  let hit (l : Nat) : Bool := (rdCo k (0x302 + 8 * l)).toNat = next && (rdCo k (0x304 + 8 * l)).toNat > 1
  if hit 0 then (rdCo k 0x300).toNat else if hit 1 then (rdCo k 0x308).toNat else if hit 2 then (rdCo k 0x310).toNat else next
/-- Admitted hold limit of a coach that has handed over (R262): its image record's HOLD, 0 meaning 512. -/
def holdOf (s : State) (c : Nat) : Option Nat :=
  if (co s c).handed && s.carts.table.isSome then
    match logicalOf s c with
    | some n => let h := (logi s n).hold; some (if h = 0 then 512 else h)
    | none => none
  else none
/-- The coach can fetch every word of a bundle at `a` (R19, R295). -/
def fetchable (s : State) (c a : Nat) (b : Bundle) : Bool := b.fetched && (upto (b.next - a)).all (fun i => fetchRegionOk s c (a + i))
/-- The word a wrong path goes on at after a bundle at `a`, with `dir` its predicted direction and `ret` its predicted
return; none where it ends (R175). With prediction off fetch goes on past every transfer (R176), a JR and a CALLR among
them (DESIGN CHOICE, log entry 90). -/
def wrongNext (k : Coach) (a : Nat) (b : Bundle) (off dir : Bool) (ret : Option W32) : Option W32 :=
  if off then some (n32 (fetchLoop k b.next))
  else match ctlOf b with
    | some (.br cond _ o) => if !isCond cond || dir then some (w32 (a + o)) else some (n32 (fetchLoop k b.next))
    | some (.call o) => some (w32 (a + o))
    | some (.callR _) => none
    | some (.jr _) => none
    | some (.ret _ _) => ret
    | _ => some (n32 (fetchLoop k b.next))
/-- One bubble cycle (R168, R174, R175, R182): what is due by it lands, it counts, and one bundle of the wrong path is
decoded, if one is left. A wrong path ends uncounted at a word whose line is uncorrectable or poisoned, as at one that
R19 does not let the coach fetch (DESIGN CHOICE, log entry 90). -/
def bubbleStep (s : State) (c : Nat) (k : Coach) : Coach :=
  match k.wrong with
  | none => k
  | some w =>
    if w.left = 0 then { k with wrong := none }
    else
      let k := perfAdd (landUpto c (holdOf s c) (k.pend.length + k.coPend.length) k (Nat.min w.cyc k.cyc)) 0x60A 1
      let go (k : Coach) (p : Option W32) : Coach :=
        { k with wrong := if w.left = 1 then none else some { cyc := w.cyc + 1, left := w.left - 1, path := p, off := w.off } }
      match w.path with
      | none => go k none
      | some x =>
        let b := bundleAt s c x.toNat
        if !(fetchable s c x.toNat b) then go k none
        else
          let k := perfAdd (perfAdd k 0x602 1) 0x604 1
          let p := if w.off then (k, 0, false, none) else predict k x.toNat b.next (ctlOf b)
          go p.1 (wrongNext p.1 x.toNat b w.off p.2.2.1 p.2.2.2)
/-- What is left of the last transfer's bubble cycles, at most 5. -/
def bubblesAll (s : State) (c : Nat) (k : Coach) : Coach := (upto 5).foldl (fun k _ => bubbleStep s c k) k
/-- What is visible at the coach's present cycle lands, fetch having been through the bubble cycles before it. -/
def landNow (s : State) (c : Nat) (k : Coach) : Coach :=
  let k := bubblesAll s c k
  landUpto c (holdOf s c) (k.pend.length + k.coPend.length) k k.cyc
/-- The drain of R57: drain cycles pass until every issued operation has landed. -/
def drain (s : State) (c : Nat) (k : Coach) : Coach :=
  let k := passTime k (lastDue k - k.cyc) 0
  landNow s c k
/-- FETCH_DECODE: one bubble cycle of the last transfer while one is left, else the bundle at the coach's pc. -/
def fetchOp (s : State) (c : Nat) : State :=
  let k := co s c
  if !(k.run = .running) || k.ketch then s
  else if k.wrong.isSome then setCo s c (bubbleStep s c k)
  else if !isRunning k then s
  else match k.decoded with
    | some _ => s
    | none =>
      let b := bundleAt s c k.pc.toNat
      if b.fetched then setCo s c (decodePath k k.pc b) else s

/-- The loop end test of R163 and R165, from level 0: the loop counts after it and the next address. -/
def loopEnd (k : Coach) (next : W32) : Coach × W32 :=
  let rec go : List Nat → Coach → Coach × W32
    | [], k => (k, next)
    | l :: r, k =>
      let n := rdCo k (0x304 + 8 * l)
      if n ≠ 0 && rdCo k (0x302 + 8 * l) = next then
        (if n.toNat > 1 then (wrCo k (0x304 + 8 * l) (n - 1), rdCo k (0x300 + 8 * l)) else go r (wrCo k (0x304 + 8 * l) 0))
      else go r k
  go [0, 1, 2] k

end Sys2Proof.Machine
end

