-- ==== Sys2Proof/Machine/Exception.lean ====
section
/-! DEFINITION. Taking an exception and returning from one, the double fault and the halted state, the start of a
coach, and the events of drain points (chapter 07). -/
namespace Sys2Proof.Machine

/-! ## Checks of one access (rows 7 to 10 of Table 10) -/

/-- The access goes to the coach's private alias or CO_ window, which are not region-checked (R295). -/
def isPrivate (a : Nat) : Bool := decide (a < 0x21000)
/-- Code of a region violation, or 0 (row 8): the region check, then the words that may not be written (R181, R184,
R250). -/
def accRegion (s : State) (c : Nat) (kd : AccKind) (a n : Nat) : Nat :=
  if !isPrivate a && !regionOk s c a n (needOf kd) then kindCode kd
  else if kd = .load then 0
  else match route s c a with
    | .bank kind inst off _ =>
      let bar := storeBarred s kind inst off n
      let vb := coF (co s c) 0x400 7 10 * 128
      let mine := (kind = 0 && inst = c) || (kind = 2 && 72 + inst = c)
      if bar = 5 then 5
      else if mine && !isSup (co s c) && overlaps off n vb (vb + 128) then 6
      else bar
    | _ => 0
/-- A global-alias address of a logical coach that no slot serves: the access leaves the coach and ends in bus error
(R17, R190). -/
def noSlotAlias (s : State) (a : Nat) : Bool :=
  decide (0x03000000 ≤ a) && decide (a < 0x03800000) && decide ((a - 0x03000000) / 0x20000 < s.variant.coaches) &&
  (slotOf s ((a - 0x03000000) / 0x20000)).isNone
/-- Code of a bus error known before issue, or 0 (row 9; R16, R20, R43, R90). `blk`: an access of a block operation,
which reaches no register. An atomic at an address where no register is answers 1, not 3 (DESIGN CHOICE, log entry 102). -/
def accBus (s : State) (c : Nat) (kd : AccKind) (a n : Nat) (blk : Bool) : Nat :=
  match route s c a with
  | .bank kind _ _ _ => if kind = 5 && isAtom kd then 3 else 0
  | .coReg off =>
    if (coInfo (isLead c) off).isNone && (coInfo (isLead c) (off - 1)).isNone then 1
    else if isAtom kd then 3 else if n ≠ 2 || blk then 2 else 0
  | .sysReg x =>
    if (regInfo s.variant (x / 2 * 2)).isNone then 1
    else if isAtom kd then 3 else if n ≠ 2 || blk then 2 else 0
  | .rom _ => if isAtom kd then 3 else if kd = .store then 1 else 0
  | .fuse _ => if isAtom kd then 3 else if kd = .store then 1 else 0
  | .unassigned => if noSlotAlias s a then 0 else 1
/-- Clock of a coach in MHz. -/
def coachMHz (s : State) (c : Nat) : Nat := if c < 72 then clusterMHz s (c / 9) else 1000
/-- The bank lies in the coach's own clock domain (Table 1 of chapter 10). -/
def ownClock (c kind inst : Nat) : Bool :=
  if c < 72 then (decide (kind ≤ 1) && decide (inst / 9 = c / 9)) || (kind = 3 && decide (inst = c / 9)) else decide (kind = 2)
/-- The most stall cycles that `n` refusals at a bank add (R286): exactly one each in the coach's own clock domain. -/
def refusalMost (s : State) (c kind inst n : Nat) : Nat :=
  if ownClock c kind inst then n else n * cdiv (coachMHz s c) (bankMHz s kind inst)
/-- The bank cycles that an access of the coach has lost pass as stall cycles, as many as R286 allows (DESIGN CHOICE, log
entry 23, where the bank lies in another clock domain). -/
def lostCycles (s : State) (c kind inst n : Nat) : State := if n = 0 then s else setCo s c (passTime (co s c) 0 (refusalMost s c kind inst n))
/-- An access of the coach itself that is served when its turn comes (R284): of its frames, of its long operations, of a
gate's records; after its checks. The private path carries no epoch. -/
def coachNow (s : State) (c : Nat) (kd : AccKind) (a n data : Nat) : BankOut :=
  match route s c a with
  | .bank kind inst off own =>
    if !own && !epochOk s c a n (needOf kd) then { st := epochRefuse s c a, code := 6, data := 0 }
    else if !bankUp s kind inst off then { st := dramRefused s kind, code := 1, data := 0 }
    else
      let o := turnAccess s (reqClass c 0 own) (portOf kind inst off c own) kd (wordKey kind inst off) n data c
      { o with st := lostCycles o.st c kind inst o.wait }
  | .rom off =>
    if !epochOk s c a n (needOf kd) then { st := epochRefuse s c a, code := 6, data := 0 }
    else { st := s, code := 0, data := ofWords ((upto n).map (fun i => Config.bootRom (off + i))) }
  | .fuse off =>
    if !epochOk s c a n (needOf kd) then { st := epochRefuse s c a, code := 6, data := 0 }
    else { st := s, code := 0, data := ofWords ((upto n).map (fun i => fuseWord s (off + i))) }
  | _ => { st := s, code := 1, data := 0 }
/-- Access kind and words as an exception for it: its entry and code, or none (rows 7 to 9). -/
def accFault (s : State) (c : Nat) (kd : AccKind) (a n : Nat) (blk : Bool) : Option (Nat × Nat) :=
  if a % n ≠ 0 then some (18, 0)
  else if accRegion s c kd a n ≠ 0 then some (7, accRegion s c kd a n)
  else if accBus s c kd a n blk ≠ 0 then some (8, accBus s c kd a n blk)
  else none

/-! ## Stall cycles of accesses (R54, R289) -/

/-- Stall cycles of a far access without conflicts (R289, Table 17 of chapter 02), none for a local one; a DRAM access
waits as long as its answer takes. -/
def farStall (s : State) (c a : Nat) : Option Nat :=
  match route s c a with
  | .bank kind _ _ own => if own then none else match kind with | 0 => some 6 | 3 => some 6 | 4 => some 14 | 2 => some 24 | _ => some 0
  | .coReg _ => none
  | .unassigned => some 6
  | _ => some 20
/-- Stall of one or two accesses, LD0's first, from the far count of each and the cycles its refusals add: LD1's far access
goes one cycle after LD0's (R54). -/
def stallOf : List (Option Nat × Nat) → Nat
  | [(some a, x), (some b, y)] => Nat.max (a + x) (b + y + 1)
  | [(a, x), (b, y)] => Nat.max (a.getD 0 + x) (b.getD 0 + y)
  | [(a, x)] => a.getD 0 + x
  | _ => 0
/-- Stall of accesses to some addresses that lose no bank cycle. -/
def bundleStall (s : State) (c : Nat) (addrs : List Nat) : Nat := stallOf (addrs.map (fun a => (farStall s c a, 0)))
/-- Coaches other than `c` whose enabled regions grant a right on some part of the DRAM window (R290). -/
def dramSharers (s : State) (c : Nat) : Nat :=
  ((upto 76).filter (fun m => decide (m ≠ c) && coachPresent s m &&
    (upto 8).any (fun r => regB s (memRB m r + 4) 0 && decide (regionRights s m r ≠ 0) &&
      decide (0x40000000 < regF s (memRB m r + 2) 6 26 * 64 + 64) && decide (regF s (memRB m r) 6 26 * 64 < 0x40000000 + dramSize s.variant)))).length
/-- The most stall cycles of a DRAM access: t_D in cycles of the coach (R289, R290). -/
def dramMost (s : State) (c : Nat) : Nat := cdiv (coachMHz s c * (250 + 12 * dramSharers s c)) 1000
/-- Stall cycles that the wait of an access adds: in its own clock domain one per refusal (R286); elsewhere `x`, what the
coupling takes, within the bounds of R286 and of R290, which is in DRAM the whole stall. -/
def waitStall (s : State) (c x : Nat) (a n : Nat) : Nat :=
  match route s c a with
  | .bank kind inst _ _ =>
    if ownClock c kind inst then n
    else if kind = 5 then Nat.min x (dramMost s c + refusalMost s c kind inst n) else Nat.min x (refusalMost s c kind inst n)
  | _ => 0
/-- Both LD slots in one bank cost LD1 a cycle (R54, Table 17). -/
def ownConflict (s : State) (c : Nat) (addrs : List Nat) : Nat :=
  match addrs with
  | [a, b] =>
    (match route s c a, route s c b with
     | .bank k1 i1 o1 true, .bank k2 i2 o2 true => b2n (k1 = k2 && i1 = i2 && bankOf k1 o1 = bankOf k2 o2)
     | _, _ => 0)
  | _ => 0
/-- Stall of the accesses that a long operation makes in one cycle. -/
def cycleStall (s : State) (c : Nat) (addrs : List Nat) : Nat := Nat.max (bundleStall s c addrs) (ownConflict s c addrs)

/-! ## Coach faults (R203 to R206) -/

/-- Interrupt source of a processor's HALTED-FAULT (Table 1 of chapter 14); L0 has none. -/
def haltSource (c : Nat) : Option Nat := if c < 72 then some (256 + c) else if 73 ≤ c && c < 76 then some (327 + (c - 72)) else none
/-- EXC_CAUSE of a request. -/
def causeWord (r : ExcReq) (halt : Nat) : W32 := n32 (r.scnum % 65536 * 65536 + r.code % 256 * 256 + halt * 64 + r.entry % 64)
def detail0 (r : ExcReq) : W32 := n32 (r.slots % 256 * 2 ^ 24 + r.info % 65536)
/-- The 8 values of the frame of Table 12. -/
def frameVals (k : Coach) (r : ExcReq) (halt : Nat) : List W32 :=
  [r.pc, rdCo k 0x002, causeWord r halt, r.apc, rdCo k 0x320, rdCo k 0x322, detail0 r, r.detail1]
/-- The 32 values of the crash area (R204, Table 13). -/
def crashVals (k : Coach) (r : ExcReq) (halt : Nat) : List W32 :=
  frameVals k r halt ++ (upto 16).map (rdG k) ++
  [rdP k 14, rdP k 15, rdCo k 0x402, rdCo k 0x400, rdCo k 0x000, rdCo k 0x40C, n32 k.cycles, n32 (k.haltCount * 65536 + 1)]
/-- L0 declares a logical coach dead (R269, step 1 of Table 7 of chapter 09): `why` 1 heartbeat lost, 2 second halt. -/
def declareDead (s : State) (n why : Nat) : State :=
  let l := logi s n
  if l.lstate = 1 || l.lstate = 2 then s else
  let t := bbL0 s 0x0301 (n32 n) (n32 l.slot) (n32 why) (n32 l.epoch)
  pulse (setLogi t n { l with lstate := 1, hbLosses := if why = 1 then incSat 32 l.hbLosses else l.hbLosses }) (1056 + 3 * (n / 8) + 2)
/-- L0 notes a halt: a second one within 10 s declares a signal coach dead, and keeps L1 to L3 halted until device reset
(R206, R269). -/
def noteHalt (s : State) (c : Nat) : State :=
  match (if c < 72 then logicalOf s c else none) with
  | none =>
    let k := co s c
    if 73 ≤ c && c < 76 then
      setCo s c { k with lastHalt := some s.dtime, dead := k.dead || (match k.lastHalt with | some d => decide (s.dtime - d ≤ 10000000000) | none => false) }
    else s
  | some n =>
    let l := logi s n
    let t := setLogi s n { l with halts := incSat 32 l.halts, lastHalt := some s.dtime }
    match l.lastHalt with
    | some d => if s.dtime - d ≤ 10000000000 then declareDead t n 2 else t
    | none => t
/-- HALTED-FAULT (R203): the crash area is written through port A, the coach-fault signal is raised, the black box
takes an entry. -/
def haltCoach (s : State) (c : Nat) (k : Coach) (r : ExcReq) (halt : Nat) : State :=
  let k := { k with run := .halted, exc := none, long := none, haltCount := incSat 16 k.haltCount, decoded := none }
  let k := passTime k 8 0
  let s := setCo s c k
  let kind := if c < 72 then 0 else 2
  let inst := if c < 72 then c else c - 72
  let vals := crashVals k r halt
  let s := (upto 8).foldl (fun s i =>
    (turnAccess s 1 (portKey (bankKey kind inst 0) false) .store (wordKey kind inst (0x3FC0 + 8 * i)) 8 (valsNum ((vals.drop (4 * i)).take 4)) c).st) s
  let s := match haltSource c with | some n => setLevel s n true | none => s
  noteHalt (bbHw s c 0x0201 (causeWord r halt) r.apc (n32 k.cycles) (n32 k.haltCount)) c

/-- L0 copies the crash area of a halted coach into entry 0x8040 (R205). -/
def copyCrash (s : State) (c : Nat) : State :=
  let kind := if c < 72 then 0 else 2
  let inst := if c < 72 then c else c - 72
  if (co s c).run ≠ .halted then s
  else
    let r := (upto 8).foldl (fun (t : State × List Word) i =>
      let o := turnAccess t.1 (if c < 72 then 5 else 4) (portKey (bankKey kind inst 0) true) .load (wordKey kind inst (0x3FC0 + 8 * i)) 8 0 72
      (o.st, t.2 ++ (if o.code = 0 then wordsOf 8 o.data else (upto 8).map (fun w => Config.deviceRead (0x3FC0 + 8 * i + w) s.now)))) (s, [])
    { r.1 with carts := { r.1.carts with crash := tput [] r.1.carts.crash c r.2 } }
/-! ## Exception entry (R197, R198, R200 to R202) -/

/-- The address 16 words below the exception stack pointer, where a frame begins (R197). -/
def frameBelow (esp : W32) : Nat := (esp.toNat + 2 ^ 32 - 16) % 2 ^ 32
/-- The push of the frame can be made: whole-frame alignment, region check, and the words of R181, R184 and R250. -/
def pushOk (s : State) (c esp : Nat) : Bool :=
  decide (esp % 4 = 0) &&
  (upto 4).all (fun i => accRegion s c .store ((esp + 4 * i) % 2 ^ 32) 4 = 0 && accBus s c .store ((esp + 4 * i) % 2 ^ 32) 4 false = 0)
/-- The four 4-word stores of the frame; the code of the first that ends in bus error. -/
def pushFrame (s : State) (c esp : Nat) (vals : List W32) : State × Nat :=
  (upto 4).foldl (fun (t : State × Nat) i =>
    if t.2 ≠ 0 then t else
    let o := coachNow t.1 c .store ((esp + 4 * i) % 2 ^ 32) 4 (valsNum ((vals.drop (2 * i)).take 2))
    (o.st, o.code)) (s, 0)
/-- Every word of the first bundle at an address, or of the first Ketch instruction, can be fetched (row 1 of Table 5 of
chapter 02). -/
def canStartAt (s : State) (c a : Nat) : Bool :=
  if (co s c).ketch then fetchCode s c a = 0 && fetchCode s c (a + 1) = 0 else (bundleAt s c a).fetched
/-- The handler address of an entry, read from the vector table (R186), and 0 where it can be fetched, 1 where the
vector read failed, 2 where the first fetch would fail. -/
def vectorOf (s : State) (c e : Nat) : State × Nat × Nat :=
  let a := coF (co s c) 0x400 7 10 * 128 + 2 * e
  let o := coachNow s c .load a 2 0
  if o.code ≠ 0 then (o.st, a, 1) else (o.st, o.data, if canStartAt o.st c o.data then 0 else 2)
/-- Stall cycles of an entry's push: two cycles of two 4-word stores (R198); none in the coach's own LDM. -/
def pushStall (s : State) (c esp : Nat) : Nat :=
  bundleStall s c [esp, (esp + 4) % 2 ^ 32] + bundleStall s c [(esp + 8) % 2 ^ 32, (esp + 12) % 2 ^ 32]
/-- The budget timer stands still, and the coach's interrupt cycles count, from the first entry cycle of an interrupt
until as few handlers are entered as before it (R253, R256). -/
def holdBudget (k : Coach) (r : ExcReq) : Coach :=
  if r.entry ≥ 32 && k.budgetHold.isNone then { k with budgetHold := some k.handlers } else k
/-- A synchronous exception inside a hold run spoils the output of the running job, as a hold-overrun does (R62, R213). -/
def spoilJob (k : Coach) : Coach :=
  match k.job with | some j => { k with job := some { j with spoiled := true } } | none => k
def spoilBy (k : Coach) (r : ExcReq) : Coach :=
  if k.holdStart.isSome && !(r.entry = 9 || r.entry = 14 || r.entry ≥ 32) then spoilJob k else k
/-- What an entry writes after its push (R197): PRIV, RESUME, the exception registers, ESP. Entry 9 clears IMP. The first
drain point is the boundary after the handler's first bundle (R198). -/
def enterRegs (k : Coach) (r : ExcReq) (esp : Nat) (pc : W32) : Coach :=
  let k := setCoF (setCoF k 0x002 1 1 1) 0x002 7 1 0
  let k := wrCo (wrCo (wrCo (wrCo (wrCo k 0x402 (n32 esp)) 0x404 r.apc) 0x406 (causeWord r 0)) 0x408 (detail0 r)) 0x40A r.detail1
  let k := if r.entry = 9 then wrCo (setCoF k 0x002 6 1 0) 0x412 0 else k
  { k with pc := pc, run := .running, exc := none, bound := .none, decoded := none, handlers := k.handlers + 1,
           budgetDue := k.budgetDue && decide (r.entry ≠ 14) }
/-- The double fault of an entry that could not start its handler (R201, R202). -/
def doubleFault (s : State) (c : Nat) (r : ExcReq) (bad : Nat) : State :=
  let k := co s c
  let d : ExcReq := { entry := 1, code := r.entry, scnum := 0, slots := 0, info := 0, detail1 := n32 bad, apc := r.apc, pc := n32 bad }
  let esp := frameBelow (rdCo k 0x402)
  if !pushOk s c esp then haltCoach s c (wrCo k 0x402 (n32 esp)) d 1
  else
    let p := pushFrame s c esp (frameVals k d 0)
    if p.2 ≠ 0 then haltCoach p.1 c (wrCo (co p.1 c) 0x402 (n32 esp)) d 1
    else
      let v := vectorOf p.1 c 1
      let k := setCoF (enterRegs (passTime (co v.1 c) 9 (pushStall v.1 c esp)) d esp (n32 v.2.1)) 0x40C 2 1 1
      if v.2.2 ≠ 0 then haltCoach v.1 c k d 3 else setCo v.1 c k
/-- Exception entry for a request, from a drained coach; ESP is decremented before the push (R197). -/
def enter (s : State) (c : Nat) (r : ExcReq) : State :=
  let k := spoilBy (holdBudget (co s c) r) r
  let s := setCo s c k
  if coB k 0x40C 2 && r.entry < 32 then haltCoach s c k r 2
  else
    let esp := frameBelow (rdCo k 0x402)
    if !pushOk s c esp then haltCoach s c (wrCo k 0x402 (n32 esp)) r 1
    else
      let p := pushFrame s c esp (frameVals k r 0)
      if p.2 ≠ 0 then haltCoach p.1 c (wrCo (co p.1 c) 0x402 (n32 esp)) r 1
      else
        let v := vectorOf p.1 c r.entry
        let k := enterRegs (passTime (co v.1 c) 9 (pushStall v.1 c esp)) r esp (n32 v.2.1)
        if v.2.2 = 0 then setCo v.1 c k
        else doubleFault (setCo v.1 c k) c r v.2.1
/-- An exception that its completed bundle cannot raise again: SYSCALL, a subnormal trap, a hold-overrun, a precise
arithmetic exception, a write collision. -/
def raisedOnce (r : ExcReq) : Bool := r.entry = 17 || r.entry = 11 || r.entry = 12 || r.entry = 10 || r.entry = 13
/-- The entry that is due after the drain (DEDUCED, log entry 81 from R151 and R188). An exception that cannot be raised
again is taken, and what the drain has left (a subnormal trap, a precise exception) follows before the handler's first
bundle; else a subnormal trap of an earlier bundle comes first, then its precise exception, and the refused bundle or
the event raises its own again later. -/
def entryOp (s : State) (c : Nat) : State :=
  let k := co s c
  match k.exc with
  | none => s
  | some r =>
    if !k.access.isEmpty then s else
    let k := { drain s c k with exc := none }
    if raisedOnce r then enter (setCo s c k) c r
    else match trapReq k with
      | some t => enter (setCo s c (dropTraps k)) c t
      | none =>
        match preciseReq k with
        | some (k3, q) => enter (setCo s c k3) c q
        | none => enter (setCo s c k) c r

/-! ## Return (R199) -/

/-- The frame read of ERET: the exception that refuses it, or the state and the four values restored. -/
def eretRead (s : State) (c : Nat) : State × Option (Nat × Nat × Nat) × List W32 :=
  let esp := (rdCo (co s c) 0x402).toNat
  let a2 := (esp + 8) % 2 ^ 32
  match accFault s c .load esp 4 false with
  | some f => (s, some (f.1, f.2, esp), [])
  | none =>
    match accFault s c .load a2 4 false with
    | some f => (s, some (f.1, f.2, a2), [])
    | none =>
      let x := coachNow s c .load esp 4 0
      if x.code ≠ 0 then (x.st, some (8, x.code, esp), [])
      else
        let y := coachNow x.st c .load a2 4 0
        if y.code ≠ 0 then (y.st, some (8, y.code, a2), [])
        else (y.st, none, [n32 x.data, n32 (x.data / 2 ^ 32), n32 y.data, n32 (y.data / 2 ^ 32)])
/-- Stall cycles of ERET's frame read, one cycle of two 4-word loads (R199). -/
def eretStall (s : State) (c : Nat) : Nat :=
  let esp := (rdCo (co s c) 0x402).toNat
  bundleStall s c [esp, (esp + 8) % 2 ^ 32]
/-- What ERET restores, from the four values PC, CO_STAT image, LNK and SSP. -/
def eretRegs (k : Coach) (v : List W32) : Coach :=
  let img := v.getD 1 0
  let k := setCoF (setCoF k 0x002 1 1 (rfld img 1 1)) 0x002 7 1 (rfld img 7 1)
  let k := wrCo (wrCo (wrCo k 0x320 (v.getD 2 0)) 0x322 (setR 0 0 14 (v.getD 3 0).toNat)) 0x402 (rdCo k 0x402 + 16)
  let k := setCoF k 0x40C 2 1 0
  { k with pc := v.getD 0 0, bound := .drain, handlers := k.handlers - 1, decoded := none }

/-! ## Start (R187) -/

/-- The coach's logic as power-up leaves it, the counts of R187 kept; what L0 and the dispatcher keep for the coach (its
interrupt cycles, a lead coach's halts) is theirs. -/
def restartCoach (k : Coach) : Coach :=
  wrCo { Coach.reset with cycles := k.cycles, haltCount := k.haltCount, saves := k.saves, irqCycles := k.irqCycles, lastHalt := k.lastHalt, dead := k.dead }
    0x500 (rdCo k 0x500)
/-- A coach whose domain is off: its logic as power-up leaves it, what L0 and the dispatcher keep for it kept. -/
def offCoach (k : Coach) : Coach := { Coach.reset with irqCycles := k.irqCycles, lastHalt := k.lastHalt, dead := k.dead }
/-- The requests of a master that is reset leave the ports. -/
def dropReqs (s : State) (c : Nat) : State :=
  { s with mem := { s.mem with ports := (s.mem.ports.map (fun e => (e.1, e.2.filter (fun r => r.master ≠ c)))).filter (fun e => !e.2.isEmpty) } }
/-- L0 starts a coach: it reads entry 0 with VBASE at reset and issues at the address it reads. `grace`: CO_BGRACE as L0
loads it before the start of an admission (R261), none where it starts at its reset value. -/
def startCoach (s : State) (c : Nat) (grace : Option Nat) : State :=
  let k := restartCoach (co s c)
  let k := match grace with | some g => setCoF k 0x508 0 12 g | none => k
  let s := setCo (dropReqs s c) c { k with run := .running }
  let s := match haltSource c with | some n => setLevel s n false | none => s
  let v := vectorOf s c 0
  if v.2.2 = 0 then setCo v.1 c { co v.1 c with pc := n32 v.2.1, lastPc := n32 v.2.1 }
  else doubleFault v.1 c (excReq 0 0 0 0) v.2.1

/-! ## Events at drain points (R194 to R196) -/

/-- What the boundary is that the coach stands at (R56, R126, R210): within a long operation, an element boundary is a
drain point with H = 0 and barred with H = 1, and there is none before the first element has completed. -/
def boundary (k : Coach) : Boundary :=
  match k.long with
  | some l => if l.steps = 0 then .none else if l.hold then .barred else .drain
  | none => k.bound
/-- The elapsed hold run exceeds CO_HOLD_LIMIT at a barred boundary (R60). -/
def holdOver (k : Coach) : Bool :=
  match k.holdStart with
  | some t => decide (boundary k = .barred) && decide (k.cycles - t > coF k 0x004 0 12)
  | none => false
/-- The boundary the coach stands at is a drain point (R56). -/
def atDrainPt (k : Coach) : Bool := decide (boundary k = .drain)
/-- Interrupt inputs that are due at a coach (R195, R196, R424, R425). -/
def dueInputs (s : State) (c : Nat) (k : Coach) : Nat :=
  if coB k 0x40C 2 || (isSup k && !coB k 0x40C 0) then 0
  else match masterProc s c with
    | some t => if slotSt s c = 2 then 0 else inputsOf s t &&& (rdCo k 0x40E).toNat
    | none => 0
/-- The event a drain point takes first (R194), as its vector entry: 12, 9, 14 or 32 + i; 100 is the stop of a
withdrawal, at which no event is taken (R545). Cart preemption is the dispatcher's (JOB_START). -/
def eventDue (s : State) (c : Nat) (k : Coach) : Option Nat :=
  if holdOver k then some 12
  else if !atDrainPt k then none
  else if k.stopDue then some 100
  else if coB k 0x002 6 then some 9
  else if k.budgetDue then some 14
  else
    let i := dueInputs s c k
    if i = 0 then none else some (32 + lowBit 32 i)
/-- A long operation stops for an event or a fault (R211): its address is stacked with RESUME set. -/
def stopLong (k : Coach) : Coach :=
  match k.long with
  | some l => setCoF { k with long := none, pc := l.apc, lastPc := l.apc } 0x002 7 1 1
  | none => k
/-- Hold-overrun: OVHOLD and CO_HOLD_MAX, and entry 12 (R60, R213). -/
def holdOverrun (k : Coach) : Coach :=
  let el := match k.holdStart with | some t => k.cycles - t | none => 0
  let k := setCoF k 0x002 10 1 1
  let k := wrCo k 0x006 (n32 (Nat.max (rdCo k 0x006).toNat (Nat.min el 65535)))
  let k := stopLong (spoilJob { k with holdStart := none, bound := .drain })
  raiseExc k (excReq 12 0 k.pc k.lastPc)
/-- A coach stopped by a withdrawal: its job, its preempted jobs and what they raised are discarded (R545). -/
def stoppedCoach (k : Coach) : Coach :=
  { k with run := .stopped, stopDue := false, job := none, frames := [], level := 0, cdone := none, decoded := none, budgetDue := false, budgetHold := none,
           pend := [], precise := none, exc := none, long := none, handlers := 0 }
/-- The first due event is taken: the coach drains and its exception is raised. The drain of an interrupt counts among the
interrupt's cycles (R256). -/
def takeEvent (s : State) (c : Nat) (k : Coach) : Coach :=
  match eventDue s c k with
  | none => k
  | some 12 => holdOverrun k
  | some 100 => stoppedCoach (drain s c (stopLong k))
  | some e =>
    let d := drain s c (stopLong k)
    if e = 9 then
      let w := rdCo d 0x412
      raiseExc d { excReq 9 (rfld w 8 8) d.pc (rdCo d 0x410) with slots := rfld w 24 8, info := rfld w 16 1 }
    else
      let d := if e ≥ 32 && d.budgetHold.isNone then irqCount d (d.cycles - k.cycles) else d
      raiseExc d (excReq e 0 d.pc d.lastPc)

end Sys2Proof.Machine
end

