-- ==== Sys2Proof/Machine/Regs.lean ====
section
/-! DEFINITION. What every store to a system register does by its access code (R12 to R14), the claim words (R385),
and the outcome of a long entry (R450). What a store starts beyond that is in the module of its block. -/
namespace Sys2Proof.Machine

/-! ## CONFLICT -/

/-- The block's CONFLICT bit is set (R12, R14); those of the MEM_, SE_ and ETH_ blocks pulse their sources (R419). -/
def conflictAt (s : State) (a b : Nat) : State :=
  if a = 0 then s else if a = memStat && b = 0 then memFlag s 0
  else
    let t := setRegB s a b true
    if 0x04200000 ≤ a && a < 0x04300000 then pulse t (514 + 4 * (a / 0x10000 % 16))
    else if 0x04700000 ≤ a && a < 0x04760000 then pulse t (915 + 4 * (a / 0x10000 % 16))
    else t
def conflict (s : State) (addr : Nat) : State :=
  match regInfo s.variant addr with
  | some i => conflictAt s i.confAt i.confBit
  | none => s

/-! ## Claims -/

def claimHeld (s : State) (a : Nat) : Bool := regB s a 8
def claimId (s : State) (a : Nat) : Nat := regF s a 0 7
/-- Master `m` may write the OWN fields under a claim: 1 means L0's standing claim (R342, R440, R494, R523), 0 none. -/
def ownsClaim (s : State) (claim m : Nat) : Bool :=
  if claim = 0 then false else if claim = 1 then m = 72 else claimHeld s claim && claimId s claim = m

/-! ## Reserved values (R14) -/

/-- Fields of a store that hold a reserved value, as position and width; they keep what they held. -/
def sysReserved (s : State) (a v : Nat) : List (Nat × Nat) :=
  let b := a / 0x10000 % 256
  let o := a % 0x10000
  let f (lo w : Nat) := fld v lo w
  if b < 8 then (if o = 0x100 && f 0 6 > 44 then [(0, 6)] else [])
  else if b = 8 then
    (if o < 0x2000 && o % 8 = 4 && f 16 16 = 0 then [(16, 16)]
     else if 0x2000 ≤ o && o < 0x2100 && f 0 16 = 0 then [(0, 16)]
     else if o = 0x2200 && f 0 7 ≥ 72 then [(0, 7)]
     else if o = 0x2202 && (v % 8 ≠ 0 || v ≥ (if regB s 0x04082200 8 then 0x20000 else 0x8000)) then [(0, 32)] else [])
  else if b = 9 then (if o = 2 && f 1 2 = 3 then [(1, 2)] else [])
  else if b = 10 then (if o < 12 && (f 0 16 = 0 || f 0 16 > 64000) then [(0, 16)] else [])
  else if b = 11 then (if o = 0 && f 21 4 > 4 then [(21, 4)] else [])
  else if b = 13 then
    (if 0x4000 ≤ o && o < 0x8000 && o % 8 = 0 then (if f 16 8 = 0 then [(16, 8)] else []) ++ (if f 28 3 > 4 then [(28, 3)] else [])
     else if 0x4000 ≤ o && o < 0x8000 && o % 8 = 2 then (if f 8 7 > 67 then [(8, 7)] else []) else [])
  else if b = 14 then
    (if 0x1000 ≤ o && o % 16 = 4 then
       (if f 29 3 = 3 then [(29, 3)] else []) ++ (if o = 0x1004 && f 28 1 = 1 then [(28, 1)] else []) ++
       (if f 27 1 = 1 && (f 28 1 = 0 || o = 0x1004) then [(27, 1)] else []) else [])
  else if b = 15 then
    (if o < 0x128 && f 0 2 = 3 then [(0, 2)] else if o = 0x200 && (f 0 12 < 650 || 800 < f 0 12) then [(0, 12)] else [])
  else if b = 20 then
    (if o = 0x10 || o = 0x20 then
       (if f 27 3 > 5 then [(27, 3)] else []) ++ (if (if o = 0x10 then f 19 8 ≠ 0 else f 19 8 = 0 || f 19 8 > 127) then [(19, 8)] else []) else [])
  else if 0x70 ≤ b && b < 0x76 then
    (if o = 0 then (if (if b < 0x74 then f 29 2 > 1 else f 29 2 ≠ 2) then [(29, 2)] else [])
     else if o = 4 then (if f 24 1 = 1 then [(0, 32)] else [])
     else if 0x10 ≤ o && o < 0x20 then
       (if f 0 31 > (if b < 0x74 then 10000000 else if regB s (ethBase (b - 0x70)) 27 then 100000 else 1000000) then [(0, 31)] else [])
     else if o = 0x20 then (if f 0 9 = 0 || f 0 9 > 256 then [(0, 9)] else [])
     else if o = 0x22 then (if v = 0 then [(0, 32)] else []) else [])
  else if b = 16 then
    (if 0x1000 ≤ o && o % 16 = 0 then
       (if f 28 3 = 7 then [(28, 3)] else []) ++ (if f 25 3 > 5 then [(25, 3)] else []) ++ (if f 23 2 = 3 then [(23, 2)] else []) ++
       (if f 21 2 = 3 then [(21, 2)] else []) else [])
  else if 0x30 ≤ b && b < 0x34 then
    (if o < 0x200 && o % 8 = 0 then (if f 26 3 > 5 then [(26, 3)] else []) ++ (if f 24 2 = 3 then [(24, 2)] else [])
     else if o < 0x200 && o % 8 = 4 && f 0 16 = 0 then [(0, 16)] else [])
  else if 0x20 ≤ b && b < 0x30 then
    (if 0x100 ≤ o && o < 0x500 && o % 16 = 0 then
       (if f 28 3 > 4 then [(28, 3)] else []) ++ (if f 25 3 = 2 || f 25 3 > 4 then [(25, 3)] else []) else [])
  else if 0x40 ≤ b && b < 0x60 then
    (if o = 2 then (if f 30 2 = 3 then [(30, 2)] else []) ++ (if !(f 25 5 = 1 || f 25 5 ≥ 7) then [(25, 5)] else []) ++
       (if f 23 2 = 3 then [(23, 2)] else []) ++ (if f 21 2 = 3 then [(21, 2)] else []) else [])
  else []

/-! ## The store by access code -/

/-- The value a store of `v` by master `m` leaves in a register, and whether the store conflicts. -/
def storeVal (s : State) (m a : Nat) (v : W32) (i : RegInfo) : W32 × Bool :=
  let old := (reg s a).toNat
  let hold := ownsClaim s i.claim m
  let mask := i.rw ||| (if hold then i.own else 0)
  let res := sysReserved s a v.toNat
  let v1 := res.foldl (fun x e => setFld x e.1 e.2 (fld old e.1 e.2)) v.toNat
  let all := 2 ^ 32 - 1
  let new := (old &&& (all - mask)) ||| (v1 &&& mask)
  (n32 (new &&& (all - (v.toNat &&& i.w1c))), (i.own ≠ 0 && !hold) || (!res.isEmpty && (mask ≠ 0)))
/-- A store that has no effect but on its register's fields. -/
def storePlain (s : State) (m a : Nat) (v : W32) : State :=
  match regInfo s.variant a with
  | none => s
  | some i =>
    let r := storeVal s m a v i
    let t := setReg s a r.1
    if r.2 then conflictAt t i.confAt i.confBit else t
/-- A store to a claim word (R385); `busy`: the unit is enabled, so that its holder cannot release it. -/
def storeClaim (s : State) (m a : Nat) (v : W32) (busy : Bool) : State :=
  if rbit v 8 then
    if claimHeld s a then conflict s a else setReg s a (n32 (256 + m % 128))
  else if claimHeld s a && claimId s a = m && !busy then setReg s a 0
  else conflict s a

/-! ## Pins (R472) -/

/-- A pin is claimed by a master other than `m`: pins 0 and 1 are WCK_IO_0 and WCK_IO_1, 2 to 9 INT_IN_0 to INT_IN_7. -/
def pinBarred (s : State) (pin m : Nat) : Bool :=
  let h := tget 0 s.media.pinClaims pin
  h ≠ 0 && h ≠ m + 1

/-! ## Written values of entries that name no register -/

/-- The bytes an entry holds, the most significant first (R444), as a number; `d` where nothing has been written. -/
def valN (s : State) (idx sub d : Nat) : Nat :=
  match tget [] s.fpp.vals (idx * 256 + sub) with
  | [] => d
  | l => ofBytes l.reverse

/-! ## Long entries (R450) -/

/-- A long entry ends: its session keeps the status for STATUS, and an abort is counted by its code (R468). -/
def longDone (s : State) (key status : Nat) : State :=
  match s.fpp.long with
  | some (k, _, t) =>
    if k = key then
      { s with fpp := { s.fpp with long := none,
                                   counts := if status = 0 then s.fpp.counts else tput 0 s.fpp.counts (status + 1) ((tget 0 s.fpp.counts (status + 1) + 1) % 2 ^ 32),
                                   sessions := s.fpp.sessions.map (fun e => if e.addr = t then { e with outcomes := tput 0xFFFF e.outcomes key status } else e) } }
    else s
  | none => s

end Sys2Proof.Machine
end

