-- ==== Sys2Proof/Machine/Intc.lean ====
section
/-! DEFINITION. The interrupt controller: events, gathers, completions, its registers and its commands (R419 to
R431). -/
namespace Sys2Proof.Machine

/-- PEND words of R428: bit j of word k is source 32k + j, over the sources `keep` picks. -/
def pendWord (s : State) (k : Nat) (keep : Nat → Bool) : W32 :=
  n32 ((srcLive s).foldl (fun r n => if n / 32 = k && srcState s n = 2 && keep n then r ||| 2 ^ (n % 32) else r) 0)
/-- A summary word: bit j is the OR of PEND word 32i + j. -/
def pendSum (s : State) (i : Nat) (keep : Nat → Bool) : W32 :=
  n32 ((srcLive s).foldl (fun r n => if n / 1024 = i && srcState s n = 2 && keep n then r ||| 2 ^ (n / 32 % 32) else r) 0)
/-- The sources aimed at the reading processor (R428). -/
def aimedAt (s : State) (m n : Nat) : Bool :=
  match masterProc s m with
  | some t => regF s (icStgt n) 8 7 = t
  | none => false
/-- What a load of a register of the IC_ block returns. -/
def icLoad (s : State) (m a : Nat) : W32 :=
  let o := a - icBase
  if o < 0x80 then pendWord s (o / 2) (fun _ => true)
  else if o < 0x84 then pendSum s ((o - 0x80) / 2) (fun _ => true)
  else if 0x100 ≤ o && o < 0x180 then pendWord s ((o - 0x100) / 2) (aimedAt s m)
  else if 0x180 ≤ o && o < 0x184 then pendSum s ((o - 0x180) / 2) (aimedAt s m)
  else if 0x4000 ≤ o && o % 8 = 0 && srcState s ((o - 0x4000) / 8) = 2 then setR (reg s a) 27 1 1
  else reg s a
/-- A store to IC_SWSET: one event of a software source. -/
def icSwsetStore (s : State) (v : W32) : State := srcEvent s (rfld v 0 8)
/-- A store to IC_COMP by master `m` (R422, R429): a completion, or a bad one. -/
def icCompStore (s : State) (m : Nat) (v : W32) : State :=
  let n := rfld v 0 11
  if srcState s n = 2 && (m = 72 || aimedAt s m n) then srcRearm (setSrc s n 0 0) n
  else
    let t := setReg s (icBase + 0x204) (reg s (icBase + 0x204) + 1)
    pulse (setReg t (icBase + 0x206) (n32 (m % 128 * 4096 + n))) 1080
/-- A store to IC_SCFG_n (R423, R430). -/
def icScfgStore (s : State) (m n : Nat) (v : W32) : State :=
  let a := icScfg n
  if !(srcPresent s.variant n) then s
  else if srcEn s n then
    if ownsClaim s (icSclaim n) m && !(rbit v 31) then setSrc (storePlain s m a v) n 0 0 else conflict s a
  else if rbit v 31 && decide (1088 ≤ n) && pinBarred s (n - 1088 + 2) m then conflict s a
  else
    let t := storePlain s m a v
    if srcEn t n then srcRearm t n else t
/-- A store to IC_STGT_n (R424). -/
def icStgtStore (s : State) (m n : Nat) (v : W32) : State :=
  let t := rfld v 8 7
  if !(srcPresent s.variant n) then s
  else if srcEn s n then conflict s (icStgt n)
  else if t = 64 && m ≠ 72 then conflict s (icStgt n)
  else if t < 64 && !(t < s.variant.coaches) then s
  else storePlain s m (icStgt n) v
/-- A store to a register of the IC_ block, its claim words apart. -/
def icStore (s : State) (m a : Nat) (v : W32) : State :=
  let o := a - icBase
  if o = 0x200 then icCompStore s m v
  else if o = 0x202 then icSwsetStore s v
  else if 0x4000 ≤ o && o % 8 = 0 then icScfgStore s m ((o - 0x4000) / 8) v
  else if 0x4000 ≤ o && o % 8 = 2 then icStgtStore s m ((o - 0x4000) / 8) v
  else storePlain s m a v
/-- SOURCE_EVENT: the signal of a unit outside the model takes a level; a software source has one event. -/
def sourceOp (s : State) (n : Nat) (signal : Bool) : State :=
  if !(srcPresent s.variant n) then s else if n < 256 then (if signal then srcEvent s n else s) else setLevel s n signal
/-- GATHER_TIMEOUT: 1,000 × CTIME fabric cycles have passed since the gather started (R421). -/
def gatherOp (s : State) (n : Nat) : State :=
  if srcState s n = 1 && decide (s.now ≥ tget 0 s.intc.gather n + 1000 * regF s (icScfg n) 0 16) then setSrc s n 2 (srcCount s n) else s
/-- SOURCE_DISABLE: a store that clears EN (R423). -/
def disableOp (s : State) (m n : Nat) (v : W32) : State := if srcEn s n && !(rbit v 31) then icScfgStore s m n v else s

/-- SOURCE_EVENT (R420). -/
def execSourceEvent (n : Nat) (signal : Bool) (s : State) : Host.Outcome State Fault Refusal := act (Instr.wf (.sourceEvent n signal)) (sourceOp s n signal)
/-- GATHER_TIMEOUT (R421). -/
def execGatherTimeout (n : Nat) (s : State) : Host.Outcome State Fault Refusal := act (Instr.wf (.gatherTimeout n)) (gatherOp s n)
/-- IC_SWSET. -/
def execIcSwset (m : Nat) (v : W32) (s : State) : Host.Outcome State Fault Refusal := act (Instr.wf (.icSwset m v)) (icSwsetStore s v)
/-- IC_COMP (R429). -/
def execIcComp (m : Nat) (v : W32) (s : State) : Host.Outcome State Fault Refusal := act (Instr.wf (.icComp m v)) (icCompStore s m v)
/-- SOURCE_DISABLE (R423). -/
def execSourceDisable (m n : Nat) (v : W32) (s : State) : Host.Outcome State Fault Refusal := act (Instr.wf (.sourceDisable m n v)) (disableOp s m n v)

end Sys2Proof.Machine
end

