-- ==== Sys2Proof/Machine/Memory.lean ====
section
/-! DEFINITION. The commands of the memories and of stored-data protection: bank cycles, write-outs, scrubbing,
repair, the march, fuses, injection, the error log, the load port, regions and the parking of the DRAM (chapters 10
and 11). -/
namespace Sys2Proof.Machine

/-! ## Banks (R278, R284, R313 to R324) -/

/-- The bank exists in the variant. -/
def bankExists (s : State) (kind inst bank : Nat) : Bool :=
  decide (bank < bankCount kind) &&
  (match kind with
   | 0 => slotPresent s.variant inst
   | 1 => slotPresent s.variant inst
   | 2 => decide (inst < 4)
   | 3 => decide (inst < s.variant.clusters)
   | 4 => true
   | _ => dramCapOf s.variant inst ≠ 0)
def portOfId (p : PortId) : Nat :=
  let bk := bankKey p.kind p.inst p.bank
  portKey bk (dualBank bk && p.portB)
/-- The access that a port grants next leaves the array alone: none, or a narrow write that merges or finds a free entry (R313,
R314). -/
def narrowNext (s : State) (po : Nat) : Bool :=
  match portPick s po with
  | none => true
  | some r =>
    match waiting s r.master r.ld with
    | none => true
    | some a =>
      a.kind = .store && decide (a.n < 4) &&
      (match route s r.master a.addr with
       | .bank kind inst off _ => (mergeFind s (wordKey kind inst off / 4)).isSome || decide ((mergeOf s po).length < 4)
       | _ => true)
/-- A free cycle of a port (R313): no requester's access uses the array, and no other work of its bank does. -/
def freeCycle (s : State) (po : Nat) : Bool :=
  narrowNext s po && !s.mem.recon.any (fun r => r.bank = po / 2) && !s.mem.writeBack.any (fun e => e.1 = po / 2) && !marchHolds s (po / 2)
/-- BANK_ARBITRATION (R284). -/
def bankArbOp (s : State) (p : PortId) : State := if bankExists s p.kind p.inst p.bank then portCycle s (portOfId p) else s
/-- 16 bank cycles have passed with no write to the entry (R315): it may go in the 17th after its last write, as in Table 4. -/
def entryIdle (s : State) (po : Nat) (e : MergeEntry) : Bool :=
  decide ((s.now - e.wrote) * bankMHz s (po / 2 / 256 / 128) (po / 2 / 256 % 128) ≥ 17 * 1000)
/-- The entry of a port that the next free cycle writes out (R315): the FULL entry, else the idle one, whose last write is
oldest. -/
def dueOut (s : State) (po : Nat) : Option MergeEntry :=
  minBy (fun e => [if e.mask = 15 then 0 else 1, e.stamp]) ((mergeOf s po).filter (fun e => e.mask = 15 || entryIdle s po e))
/-- WRITE_OUT (R315). -/
def writeOutOp (s : State) (p : PortId) : State :=
  let po := portOfId p
  if !(bankExists s p.kind p.inst p.bank) || !(freeCycle s po) then s
  else
    match dueOut s po with
    | some e => writeOutEntry s po e 0xFF
    | none => s
/-- CORRECTION_WRITE_BACK: the corrected line is written back ahead of every requester (R320). -/
def correctionOp (s : State) (kind inst bank : Nat) : State :=
  let bk := bankKey kind inst bank
  if !(s.mem.writeBack.any (fun e => e.1 = bk)) then s
  else
    let t := refuseOthers (writeBackOne s bk) (portKey bk false) none
    if dualBank bk then refuseOthers t (portKey bk true) none else t
/-- The reconstruction that a bank has waiting (R321, R322). -/
def reconOp (s : State) (kind inst bank : Nat) : State := reconNext s (bankKey kind inst bank)

/-! ## Repair rows (R331, R332, R335) -/

/-- Words of a bank. -/
def bankWords (kind : Nat) : Nat := match kind with | 0 => 16384 | 1 => 8192 | 2 => 16384 | 3 => 32768 | 4 => 65536 | _ => 0x60000000
/-- Words of a repair row. -/
def rowWords (kind : Nat) : Nat := if kind = 5 then 256 else 32
/-- Offset in the instance of word `w` of a bank. -/
def bankOff (kind bank w : Nat) : Nat := if kind = 1 then w / 8 * 32 + bank * 8 + w % 8 else bank * bankWords kind + w
/-- Word of its bank at an offset of the instance. -/
def offBank (kind off : Nat) : Nat := if kind = 1 then off / 32 * 8 + off % 8 else off % bankWords kind
/-- Repair row of a line. -/
def rowOfLine (lk : Nat) : Nat := offBank (keyKind (4 * lk)) (keyOff (4 * lk)) / rowWords (keyKind (4 * lk))
/-- Lines of a repair row. -/
def rowLines (kind inst bank row : Nat) : List Nat :=
  (upto (rowWords kind / 4)).map (fun j => wordKey kind inst (bankOff kind bank (row * rowWords kind + 4 * j)) / 4)
def rowKey (bk row : Nat) : Nat := bk * 2 ^ 24 + row
/-- Row entry of the fuse map (Table 7). -/
def rowEntry (kind inst bank row spare : Nat) : Nat :=
  2 ^ 63 + kind * 2 ^ 58 + inst * 2 ^ 51 + bank * 2 ^ 44 + row * 2 ^ 20 + spare * 2 ^ 10
def spareCount (kind : Nat) : Nat := if kind = 5 then 1024 else 4
/-- The next spare row of a bank that is neither used nor bad. -/
def nextSpare (s : State) (kind bk : Nat) : Option Nat :=
  let n := tget 0 s.mem.spares bk
  (upto (spareCount kind - n)).findSome? (fun i => if bitN (tget 0 s.mem.spareBad bk) (n + i) then none else some (n + i))
/-- A row is copied, corrected, to the next free spare, and the row is recommended for fusing; with no spare left the
row is reported once. -/
def remapRow (s : State) (kind inst bank row : Nat) : State :=
  let bk := bankKey kind inst bank
  let addr := placeAddr s kind inst (bankOff kind bank (row * rowWords kind))
  match nextSpare s kind bk with
  | some n =>
    let t := (rowLines kind inst bank row).foldl (fun t lk => let r := lineGet t lk; if r.st = 1 then rewriteLine t lk r.data false else t) s
    let t := { t with mem := { t.mem with rowMap := tput 0 t.mem.rowMap (rowKey bk row) (n + 1), spares := tput 0 t.mem.spares bk (n + 1) } }
    let t := errReport t 7 kind inst 0xFF (n % 256) addr
    if t.mem.pendFix.length < 64 then
      { t with mem := { t.mem with pendFix := t.mem.pendFix ++ [rowEntry kind inst bank row n], pendDirty := true } } else t
  | none =>
    if tget 0 s.mem.spareSaid (rowKey bk row) = 1 then s
    else errReport { s with mem := { s.mem with spareSaid := tput 0 s.mem.spareSaid (rowKey bk row) 1 } } 8 kind inst 0xFF 0 addr
/-- REMAP: a line whose count in the correction table has reached 3 has its repair row remapped (R331). Its count then starts
again: a row that keeps failing on its spare takes another (DESIGN CHOICE, log entry 97). -/
def remapOp (s : State) (kind inst line : Nat) : State :=
  let lk := instKey kind inst * 2 ^ 30 + line
  let bk := bankKeyOf (4 * lk)
  if s.mem.corr.any (fun e => e.line = lk && decide (e.count ≥ 3)) then
    let t := remapRow s kind inst (bk % 256) (rowOfLine lk)
    { t with mem := { t.mem with corr := t.mem.corr.filter (fun e => e.line ≠ lk) } }
  else s

/-! ## Scrubbing (R327 to R330) -/

def scbInt (m : Nat) : Nat := 0x040A0000 + 2 * m
/-- Pages of an instance (Table 5); the DRAM's pages are those of its installed window. -/
def scrubPages (s : State) (kind : Nat) : Nat := if kind = 5 then dramSize s.variant / 256 else instWords kind / 256
/-- Page key of page `p` of an instance in ascending address order. -/
def scrubPage (s : State) (kind inst p : Nat) : Nat :=
  if kind = 5 then
    let n := Nat.max 1 (dramChans s.variant)
    wordKey 5 (if n = 2 then p % 2 else (dramPlace s.variant 0).1) (p / n * 256) / 256
  else wordKey kind inst (p * 256) / 256
/-- A page is scrubbed: its bank is on and its slot is neither fenced nor absent. -/
def scrubbable (s : State) (kind inst p : Nat) : Bool :=
  let k := 256 * scrubPage s kind inst p
  bankUp s (keyKind k) (keyInst k) (keyOff k) && !((kind = 0 || kind = 1) && (slotSt s inst = 2 || slotSt s inst = 3))
/-- Pages of one power domain of an instance. -/
def scrubGroup (s : State) (kind : Nat) : Nat := match kind with | 3 => 2048 | 4 => 4096 | k => scrubPages s k
/-- The page to scrub from `p` on, skipping the pages of domains that are not on. -/
def scrubFrom (s : State) (kind inst p : Nat) : Option Nat :=
  let g := Nat.max 1 (scrubGroup s kind)
  let n := scrubPages s kind / g
  if scrubbable s kind inst p then some p
  else ((upto n).map (fun i => (p / g + 1 + i) % Nat.max 1 n * g)).find? (fun q => scrubbable s kind inst q)
def setScrub (s : State) (kind inst : Nat) (b : Scrub) : State :=
  { s with mem := { s.mem with scrub := tput scrubReset s.mem.scrub (scrubKey (instKey kind inst)) b } }
/-- Counts of the per-pass classes go to the black box, one entry per class that is not 0, and start again (R339). The DRAM is one
instance, over its channels (Table 5). -/
def passSummary (s : State) (kind inst : Nat) : State :=
  let key (i c : Nat) : Nat := (kind * 256 + i) * 16 + c
  let chans := if kind = 5 then [0, 1] else [inst]
  let t := [0, 1, 6].foldl (fun t c =>
    let n := (chans.map (fun i => tget 0 s.mem.passCounts (key i c))).foldl (· + ·) 0
    if n = 0 then t else bbHw t 0xFF 0x0702 (n32 (kind * 256 + inst)) (n32 c) (n32 n) 0) s
  { t with mem := { t.mem with passCounts := chans.foldl (fun p i => tclear p (key i 0) (key i 16)) t.mem.passCounts } }
/-- The end of a pass: the next begins at the first page. -/
def scrubPass (s : State) (kind inst : Nat) (b : Scrub) : State :=
  let t := setScrub s kind inst { b with page := 0, pass := b.pass + 1, lateSeen := false, lastDone := s.now }
  passSummary t kind inst
/-- A page starts; the pages skipped may end the pass. -/
def scrubBegin (s : State) (kind inst : Nat) : State :=
  let b := scrubOf s (instKey kind inst)
  match scrubFrom s kind inst b.page with
  | none => setScrub s kind inst { b with owed := false }
  | some p =>
    let t := if p < b.page then scrubPass s kind inst b else s
    let b := scrubOf t (instKey kind inst)
    setScrub t kind inst { b with page := p, line := 0, active := true, owed := false }
/-- SCRUB_PAGE_START: the interval of the instance's kind has passed (R328); a page still under way is late (R330). -/
def scrubStartOp (s : State) (kind inst : Nat) : State :=
  let b := scrubOf s (instKey kind inst)
  if !(regB s (scbInt kind) 16) || (kind = 5 && inst ≠ 0) || !(bankExists s kind (if kind = 5 then (dramPlace s.variant 0).1 else inst) 0) then s
  else if s.now < b.started + regF s (scbInt kind) 0 16 * 15625 then s
  else
    let b := { b with started := s.now }
    if b.active then
      let t := setRegF s scbStat 16 16 (incSat 16 (regF s scbStat 16 16))
      let t := if b.lateSeen then t else errReport t 0xA kind inst 104 0 (keyAddr t (256 * scrubPage t kind inst b.page))
      setScrub t kind inst { b with owed := true, lateSeen := true }
    else scrubBegin (setScrub s kind inst b) kind inst
/-- The bank that holds a line is to reconstruct a page, for no requester. -/
def callRecon (s : State) (lk pk : Nat) : State :=
  let k := 4 * lk
  { s with mem := { s.mem with recon := s.mem.recon ++ [{ bank := bankKeyOf k, page := pk, req := none, port := { kind := keyKind k, inst := keyInst k, bank := bankKeyOf k % 256, portB := false } }] } }
/-- The check of a page's codewords as the page stands when its last parity line is read (R329): single errors of the parity
lines are corrected and counted; an error that the light code missed is logged, and the page goes to reconstruction (R327). -/
def scrubCheck (s : State) (pk : Nat) : State :=
  let ls := pageLines s pk
  let ps := pagePars s pk
  let p := ofBytes ((upto 32).map (fun j => BitVec.ofNat 8 (lineByte ((ps.getD (j / 8) { data := 0, st := 0, syn := 0 }).data) (j % 8))))
  let t := correctPars s pk 104 ps
  let t := if ps.any (fun l => l.st = 1) && ps.all (fun l => l.st < 2) then setParity t pk p else t
  let bad := (upto 4).foldl (fun r c =>
    let q := rsParity (ls.flatMap (fun l => [lineByte l.data c, lineByte l.data (c + 4)]))
    if (upto 8).all (fun i => q.getD i 0 = fld p (8 * (4 * i + c)) 8) then r else r + 2 ^ c) 0
  if ps.any (fun l => l.st ≥ 2) then callRecon t (64 * pk) pk
  else if bad = 0 then t
  else callRecon (errReport t 4 (keyKind (256 * pk)) (keyInst (256 * pk)) 104 bad (keyAddr t (256 * pk))) (64 * pk) pk
/-- SCRUB_READ: in a free cycle the scrubber reads the next line of its page (R327, R329), unless a write-out is due, which
goes first (R313). A page whose bank goes off, or whose slot is fenced, is left. -/
def scrubReadOp (s : State) (kind inst : Nat) : State :=
  let b := scrubOf s (instKey kind inst)
  if !b.active || (kind = 5 && inst ≠ 0) then s
  else
    let pk := scrubPage s kind inst b.page
    let lk := pk * 64 + b.line % 64
    let po := portOf (keyKind (4 * lk)) (keyInst (4 * lk)) (keyOff (4 * lk)) 104 false
    if !(scrubbable s kind inst b.page) then setScrub s kind inst { b with active := false, line := 0 }
    else if !(freeCycle s po) || (match dueOut s po with | some e => e.line ≠ lk | none => false) then s
    else if b.line < 64 then
      let t := match mergeFind s lk with | some (q, e) => writeOutEntry s q e 104 | none => s
      let r := lineGet t lk
      if r.st = 3 then callRecon t lk pk
      else
        let t := if r.st = 1 then corrected t lk 104 r.syn true else if r.st = 2 then lineReport t 3 lk 104 0 else t
        setScrub t kind inst { b with line := b.line + 1 }
    else if b.line < 67 then setScrub s kind inst { b with line := b.line + 1 }
    else
      let t := scrubCheck s pk
      let b1 := { b with active := false, line := 0, page := b.page + 1 }
      let t := if b.page + 1 ≥ scrubPages s kind then scrubPass t kind inst b1 else setScrub t kind inst b1
      if b.owed then scrubBegin t kind inst else t

/-! ## The march engine (R336 to R338) -/

def mtCtl : Nat := 0x040B0000
/-- Repair rows of the march's target. -/
def marchRows (m : March) : Nat :=
  if m.slot then 8 * 512 + 4 * 256 else bankWords m.kind / 32
/-- Kind, instance, bank and row of the target's row `i`: with a slot target the LDM's banks, then the CIM's. -/
def marchPlace (m : March) (i : Nat) : Nat × Nat × Nat × Nat :=
  if m.slot then (if i < 4096 then (0, m.inst, i / 512, i % 512) else (1, m.inst, (i - 4096) / 256, (i - 4096) % 256))
  else (m.kind, m.inst, m.bank, i)
/-- The parity of a page whose lines read as they do: of the data after correction. -/
def settleParity (s : State) (pk : Nat) : State :=
  setParity s pk ((upto 4).foldl (fun r c =>
    let p := rsParity ((upto 64).flatMap (fun n => let x := (lineGet s (pk * 64 + n)).data; [lineByte x c, lineByte x (c + 4)]))
    (upto 8).foldl (fun r i => r + p.getD i 0 * 2 ^ (8 * (4 * i + c))) r) 0)
/-- A bank as a destructive march leaves it: zero data, zero check bits, empty merge buffers, and the parity that goes with its
pages' lines (R336): zero, but where other banks of a CIM hold lines of the page. -/
def bankZero (s : State) (kind inst bank : Nat) : State :=
  let bk := bankKey kind inst bank
  let m := s.mem
  let out (k : Nat) : Bool := !(bankKeyOf k = bk)
  let here (pk : Nat) : Bool := instKey (keyKind (256 * pk)) (keyInst (256 * pk)) = instKey kind inst && (kind = 1 || bankKeyOf (256 * pk) = bk)
  let t : State := { s with mem := { m with data := m.data.filter (fun e => out e.1), check := m.check.filter (fun e => out (4 * e.1)),
                                            parity := m.parity.filter (fun e => !(here e.1)), pcheck := m.pcheck.filter (fun e => !(here e.1)),
                                            merge := m.merge.filter (fun e => !(e.1 / 2 = bk)), writeBack := m.writeBack.filter (fun e => !(e.1 = bk)),
                                            recon := m.recon.filter (fun r => !(r.bank = bk)) } }
  if kind = 1 then ((t.mem.data.map (fun e => e.1 / 256)).eraseDups.filter here).foldl settleParity t else t
/-- The banks of a march's target. -/
def marchBanks (m : March) : List (Nat × Nat × Nat) :=
  if m.slot then (upto 8).map (fun b => (0, m.inst, b)) ++ (upto 4).map (fun b => (1, m.inst, b)) else [(m.kind, m.inst, m.bank)]
/-- MARCH_START: MT_CTL.GO is set and no march runs. A destructive march needs CONFIG or a FENCED slot; it has its banks to
itself from here on, and what comes to them comes after it (log entry 23), so that they are zero from here on. A march that may not
run ends at once with nothing done. -/
def marchStartOp (s : State) : State :=
  if !(regB s mtCtl 31) || s.mem.march.isSome then s
  else
    let slot := regB s mtCtl 29
    let m : March := { pres := regB s mtCtl 30, kind := if slot then 0 else regF s mtCtl 21 4, inst := regF s mtCtl 14 7, bank := regF s mtCtl 7 7,
                       slot := slot, row := 0, fails := 0, firstFail := 0, unrepaired := false }
    let legal := m.pres || s.dev = 3 || ((slot || m.kind ≤ 1) && slotSt s m.inst = 2)
    if bankExists s m.kind m.inst (if slot then 0 else m.bank) && legal then
      let t := if m.pres then s else (marchBanks m).foldl (fun t b => bankZero t b.1 b.2.1 b.2.2) s
      { t with mem := { t.mem with march := some m } }
    else longDone (setRegB s mtCtl 31 false) (0x7040 * 256 + 2) 5
/-- A row of the target has been tested; `op` is the failing operation, 0 for none. -/
def marchTest (s : State) (m : March) (i op : Nat) : State × March :=
  if op = 0 then (s, m)
  else
    let p := marchPlace m i
    let addr := placeAddr s p.1 p.2.1 (bankOff p.1 p.2.2.1 (p.2.2.2 * 32))
    let left := (nextSpare s p.1 (bankKey p.1 p.2.1 p.2.2.1)).isSome
    let t := errReport s 9 p.1 p.2.1 105 op addr
    (remapRow t p.1 p.2.1 p.2.2.1 p.2.2.2,
     { m with fails := incSat 14 m.fails, firstFail := if m.fails = 0 then addr else m.firstFail, unrepaired := m.unrepaired || !left })
/-- MARCH_ROW: a preserving march tests one repair row and releases the bank; the row's data are as before. -/
def marchRowOp (s : State) (op : Nat) : State :=
  match s.mem.march with
  | some m =>
    if m.pres && m.row < marchRows m then
      let r := marchTest s m m.row op
      { r.1 with mem := { r.1.mem with march := some { r.2 with row := m.row + 1 } } }
    else s
  | none => s
/-- A failing index of a destructive march above its rows (R336): per bank the 4 spare rows, then 4 merge-buffer entries for each
port. It is reported; a bad spare row is not used, a bad entry cannot be repaired (DESIGN CHOICE, log entry 97). -/
def marchExtra (s : State) (m : March) (i op : Nat) : State × March :=
  match (marchBanks m)[i / 12]? with
  | none => (s, m)
  | some b =>
    let bk := bankKey b.1 b.2.1 b.2.2
    let t := errReport s 9 b.1 b.2.1 105 op (placeAddr s b.1 b.2.1 (bankOff b.1 b.2.2 0))
    if i % 12 < 4 then ({ t with mem := { t.mem with spareBad := tput 0 t.mem.spareBad bk (tget 0 t.mem.spareBad bk ||| 2 ^ (i % 12)) } }, m)
    else (t, { m with unrepaired := true })
/-- MARCH_COMPLETE: the march ends. A destructive march brings what failed, spare rows first, with the failing operations; a
preserving march ends once its last row is tested. -/
def marchEndOp (s : State) (failing : List (Nat × Nat)) : State :=
  match s.mem.march with
  | none => s
  | some m =>
    if m.pres && m.row < marchRows m then s
    else
      let r := if m.pres then (s, m) else
        let x := (failing.filter (fun e => decide (marchRows m ≤ e.1))).foldl (fun (x : State × March) e => marchExtra x.1 x.2 (e.1 - marchRows m) e.2) (s, m)
        (failing.filter (fun e => decide (e.1 < marchRows m))).foldl (fun (x : State × March) e => marchTest x.1 x.2 e.1 e.2) x
      let res := if r.2.unrepaired then 3 else if r.2.fails = 0 then 1 else 2
      let t := setRegF (setRegF r.1 mtStat 30 2 res) mtStat 16 14 r.2.fails
      let t := setRegB (setReg t 0x040B0004 (n32 r.2.firstFail)) mtCtl 31 false
      longDone { t with mem := { t.mem with march := none } } (0x7040 * 256 + 2) 0

/-- A store to MT_CTL: GO set while a march runs sets CONFLICT, and no store stops a march (Table 13). -/
def mtStore (s : State) (m : Nat) (v : W32) : State :=
  if s.mem.march.isSome && m = 72 then (if rbit v 31 then conflictAt s mtStat 0 else setRegB (storePlain s m mtCtl v) mtCtl 31 true)
  else storePlain s m mtCtl v

/-! ## Field fuses (R333, R334) -/

def fuseCtl : Nat := 0x040C0000
/-- The programming command ends with a status. -/
def fuseEnd (s : State) (status : Nat) : State :=
  longDone (setRegB { s with mem := { s.mem with fusing := false, fuseRetry := false } } fuseCtl 31 false) (0x7031 * 256 + 2) status
/-- The command goes on while a recommendation and a field entry are left. -/
def fuseNext (s : State) : State :=
  if s.mem.fuseIdx < s.mem.pendFix.length && s.mem.fieldFuse.length < 256 then s else fuseEnd s 0
/-- Programming may be commanded: in CONFIG, with VPP_FUSE present and within range. -/
def fuseReady (s : State) : Bool := s.dev = 3 && regB s fuseStat 2
/-- Programming begins; PROG reads 1 until it is done. -/
def fuseStart (s : State) : State :=
  if !(fuseReady s) || s.mem.fusing then s
  else
    let t := setRegB s fuseCtl 31 true
    fuseNext { t with mem := { t.mem with fusing := true, fuseDone := 0, fuseBad := 0, fuseRetry := false, fuseIdx := 0 } }
/-- A store to FUSE_CTL: PROG stays 0 where programming may not be commanded, and no store ends a command. -/
def fuseStore (s : State) (m : Nat) (v : W32) : State :=
  let t := setRegB (storePlain s m fuseCtl v) fuseCtl 31 s.mem.fusing
  if m = 72 && rbit v 31 then fuseStart t else t
/-- FUSE_PROGRAM: the owner commands programming; FUSE_STAT.VPP reports VPP_FUSE as it is then (DESIGN CHOICE, log entry 48).
Where programming may not be commanded, the command answers abort 0x05. -/
def fuseStartOp (s : State) : State :=
  let t := if s.mem.fusing then s else setRegB s fuseStat 2 (Config.vppFuse s.now)
  if fuseReady t then fuseStart t else longDone t (0x7031 * 256 + 2) 5
/-- A field entry is marked BAD. -/
def fuseMarkBad (s : State) : State :=
  let e := s.mem.pendFix.getD s.mem.fuseIdx 0
  setRegB { s with mem := { s.mem with fieldFuse := s.mem.fieldFuse ++ [e + 2 ^ 62], fuseBad := s.mem.fuseBad + 1 } } fuseStat 1 true
/-- FUSE_ENTRY_DONE: the entry reads back as programmed and leaves the list, or is BAD and is tried once more. -/
def fuseEntryOp (s : State) (ok : Bool) : State :=
  if !s.mem.fusing then s
  else if ok then
    let m := s.mem
    fuseNext { s with mem := { m with fieldFuse := m.fieldFuse ++ [m.pendFix.getD m.fuseIdx 0], fuseDone := m.fuseDone + 1, fuseRetry := false,
                                      pendFix := m.pendFix.eraseIdx m.fuseIdx, pendDirty := true } }
  else
    let t := fuseMarkBad s
    if s.mem.fuseRetry then fuseNext { t with mem := { t.mem with fuseRetry := false, fuseIdx := t.mem.fuseIdx + 1 } }
    else fuseNext { t with mem := { t.mem with fuseRetry := true } }
/-- VPP_REMOVED: the entry in progress is marked BAD and the command ends with abort 0x0C. -/
def vppOp (s : State) : State :=
  let t := setRegB s fuseStat 2 false
  if s.mem.fusing then fuseEnd (fuseMarkBad t) 0x0C else t
/-- PENDING_REPAIR_LIST_STORE (R343): the changed list is in flash, where reset leaves it. -/
def pendStoreOp (s : State) : State := { s with mem := { s.mem with pendDirty := false, pendStored := s.mem.pendFix } }

/-! ## The error log (R339 to R342) -/

/-- Words +4 and +6 of a record (Table 8). -/
def recWord4 (r : ErrRec) : W32 := n32 (r.cls % 16 * 2 ^ 28 + r.kind % 16 * 2 ^ 24 + r.inst % 256 * 2 ^ 16 + r.master % 256 * 256 + r.detail % 256)
def recWord6 (r : ErrRec) : W32 := n32 r.addr
def logTail (s : State) : Nat := regF s eccStat 19 9
def logHead (s : State) : Nat := (logTail s + s.mem.held) % 512
/-- What the engine forwards to the black box for one record (Table 9). -/
def logForward (s : State) (r : ErrRec) : State :=
  let key := if r.cls = 3 then 2 ^ 48 + (r.kind * 256 + r.inst) * 2 ^ 32 + r.addr else 2 ^ 47 + r.master * 65536 + regF s (memEpoch r.master) 0 16
  let t := if r.cls = 3 || r.cls = 5 then { s with mem := { s.mem with firstSeen := tput 0 s.mem.firstSeen key 1 } } else s
  if r.cls = 0 || r.cls = 1 || r.cls = 6 || ((r.cls = 3 || r.cls = 5) && tget 0 s.mem.firstSeen key = 1) then t
  else bbHw t 0xFF 0x0701 (recWord4 r) (recWord6 r) 0 0
/-- As an intake place frees, one LOST record for the lowest class with losses is queued (R340). -/
def logLost (s : State) : State :=
  match (upto 12).find? (fun c => !(reg s (eccLost c) = 0)) with
  | some c =>
    let r : ErrRec := { time := s.dtime / 10, cls := 0xC, kind := 15, inst := 0, master := 0xFF, detail := c, addr := regF s (eccLost c) 0 16 }
    let t := setReg s (eccLost c) 0
    { t with mem := { t.mem with intake := t.mem.intake ++ [r], reports := tput 0 t.mem.reports 0xC (incSat 32 (tget 0 t.mem.reports 0xC)) } }
  | none => s
/-- The 128 bits of a record (Table 8). -/
def recNum (r : ErrRec) : Nat := r.time % 2 ^ 64 + (recWord4 r).toNat * 2 ^ 64 + (recWord6 r).toNat * 2 ^ 96
def recZero : ErrRec := { time := 0, cls := 0, kind := 0, inst := 0, master := 0, detail := 0, addr := 0 }
/-- A record of the ring as it reads, through its check bytes (R306). -/
def logRead (s : State) (i : Nat) : Nat := lightLines 2 (recNum (tget recZero s.mem.log i)) (tget 0 s.mem.logCheck i).toNat
/-- A record enters the ring at HEAD; a full ring replaces the record at TAIL (R341). -/
def logPut (s : State) (r : ErrRec) : State :=
  let t := { s with mem := { s.mem with log := tput recZero s.mem.log (logHead s) r,
                                        logCheck := tput 0 s.mem.logCheck (logHead s) (BitVec.ofNat 16 (lightChecks 2 (recNum r))) } }
  if s.mem.held = 512 then setRegB (setRegF t eccStat 19 9 ((logTail s + 1) % 512)) eccStat 1 true
  else { t with mem := { t.mem with held := s.mem.held + 1 } }
/-- LOG_WRITE: one record moves from the intake to the ring, 64 fabric cycles after the one before it (R340). -/
def logWriteOp (s : State) : State :=
  match s.mem.intake with
  | [] => s
  | r :: rest =>
    if s.now < s.mem.nextLog then s
    else
      let t := logLost { s with mem := { s.mem with intake := rest, nextLog := s.now + 64 } }
      let t := setLevel (logForward (logPut t r) r) 1040 true
      if [2, 4, 8, 9, 12].contains r.cls then pulse t 1041 else t
/-- A store to ECC_STAT (R341): a TAIL within the records held discards those before it. -/
def eccStatStore (s : State) (m : Nat) (v : W32) : State :=
  let w1 (t : State) : State := setReg t eccStat (n32 ((reg t eccStat).toNat &&& (2 ^ 32 - 1 - (v.toNat &&& 0x80000003))))
  let n := rfld v 19 9
  let d := if n = logHead s then s.mem.held else (n + 512 - logTail s) % 512
  if m ≠ 72 then conflictAt (w1 s) eccStat 0
  else if d > s.mem.held then conflictAt (w1 s) eccStat 0
  else
    let t := setRegF { s with mem := { s.mem with held := s.mem.held - d } } eccStat 19 9 n
    w1 (if s.mem.held = d then setLevel t 1040 false else t)
/-- INJECTION_ARM: a store to ECC_INJ (R342). -/
def injArmOp (s : State) (m : Nat) (v : W32) : State := storePlain s m (eccStat + 2) v

/-! ## The load port (R292) -/

def lpCtl : Nat := 0x04082200
def lpAddr : Nat := 0x04082202
def lpData (w : Nat) : Nat := 0x04082208 + 2 * w
def lpBusy (s : State) : Bool := regB s lpCtl 15
/-- A write that R292 or R297 ignores is counted. -/
def memIgnore (s : State) : State := memFlag { s with mem := { s.mem with ignoredWrites := incSat 32 s.mem.ignoredWrites } } 0
/-- The move starts, or ERR says that the target's domain is off. Bit 9 of the stored word keeps the direction; it
reads 0. -/
def lpStart (s : State) (rd : Bool) : State :=
  if !(domOn s (regF s lpCtl 0 7)) then setRegB s lpCtl 14 true
  else if (reg s lpAddr).toNat < (if regB s lpCtl 8 then 0x20000 else 0x8000) then setRegB (setRegB s lpCtl 15 true) lpCtl 9 rd
  else s
/-- Stores to MEM_LP_CTL, MEM_LP_ADDR and MEM_LP_DATA; one to MEM_LP_CTL or MEM_LP_DATA waits while BUSY is 1. -/
def lpStore (s : State) (m a : Nat) (v : W32) : State :=
  if m ≠ 72 then memIgnore s
  else if lpBusy s && a ≠ lpAddr then s
  else
    let t := storePlain s m a v
    if a = lpData 3 then lpStart t false else if a = lpCtl && rbit v 9 then lpStart t true else t
def lpWriteOp (s : State) (m : Nat) (v : W32) : State := lpStore s m (lpData 3) v
def lpReadOp (s : State) (m : Nat) (v : W32) : State := if rbit v 9 then lpStore s m lpCtl v else s
/-- LOAD_PORT_DONE: the line has moved, by a requester of class 5 at port B (Table 3 of chapter 10), and BUSY clears. -/
def lpDoneOp (s : State) : State :=
  if !(lpBusy s) then s
  else
    let kind := if regB s lpCtl 8 then 0 else 1
    let inst := regF s lpCtl 0 7
    let off := (reg s lpAddr).toNat
    let po := portKey (bankKey kind inst (bankOf kind off)) (dualBank (bankKey kind inst (bankOf kind off)))
    let t := if regB s lpCtl 9 then
        let o := turnAccess s 5 po .load (wordKey kind inst off) 8 0 72
        (upto 4).foldl (fun t w => setReg t (lpData w) (n32 (o.data / 2 ^ (32 * w)))) o.st
      else
        let o := turnAccess s 5 po .store (wordKey kind inst off) 8 (valsNum ((upto 4).map (fun w => reg s (lpData w)))) 72
        setReg o.st lpAddr (n32 (off + 8))
    setRegB (setRegB t lpCtl 15 false) lpCtl 9 false

/-! ## Region registers and epochs (R297, Table 8) -/

/-- A store to a region register or an epoch by master `m` at level `sup`. -/
def regionStore (s : State) (m : Nat) (sup : Bool) (a : Nat) (v : W32) : State :=
  if (regInfo s.variant a).isNone then s
  else
    let o := a - 0x04080000
    if o ≥ 0x2000 then (if m = 72 then storePlain s m a v else memIgnore s)
    else
      let r := o / 8 % 8
      if !(m = 72 || (m = o / 64 && m < 76 && sup && r < 7)) then memIgnore s
      else if m = 72 || o % 8 ≠ 4 then storePlain s m a v
      else
        let t := storePlain s m a (setR v 16 16 (regF s a 16 16))
        if rfld v 16 16 = regF s a 16 16 then t else memIgnore t
/-- REGION_WRITE: a store to a region register or an epoch. -/
def regionOp (s : State) (m : Nat) (sup : Bool) (a : Nat) (v : W32) : State :=
  if 0x04080000 ≤ a && a < 0x04082100 then regionStore s m sup a v else s

/-! ## Parking the DRAM (R303) -/

def dctl : Nat := 0x04082302
/-- A store to MEM_DCTL: only L0 may write it. -/
def dctlStore (s : State) (m : Nat) (v : W32) : State := if m = 72 then storePlain s m dctl v else memFlag s 0
/-- DRAM_PARK: PARK or PFAIL_N stops the controller. -/
def parkOp (s : State) : State :=
  if (regB s dctl 0 || s.bb.pfail) && !(dramParked s) then { s with mem := { s.mem with parking := true, parks := incSat 32 s.mem.parks } } else s
/-- PARK_COMPLETE: what was accepted is complete, the DRAM is in self refresh. -/
def parkedOp (s : State) : State := if s.mem.parking then setLevel (setRegB { s with mem := { s.mem with parking := false } } dctl 17 true) 1050 true else s
/-- DRAM_UNPARK: with PARK = 0 and PFAIL_N deasserted for 1 ms the DRAM leaves self refresh. -/
def unparkOp (s : State) : State :=
  if regB s dctl 17 && !(regB s dctl 0) && !s.bb.pfail && (s.bb.dipRelease = 0 || decide (s.now ≥ s.bb.dipRelease + 1000000)) then setLevel (setRegB s dctl 17 false) 1050 false else s

/-! ## The commands -/

/-- BANK_ARBITRATION (R284). -/
def execBankArbitration (p : PortId) (s : State) : Host.Outcome State Fault Refusal := act (Instr.wf (.bankArbitration p)) (bankArbOp s p)
/-- WRITE_OUT (R315). -/
def execWriteOut (p : PortId) (s : State) : Host.Outcome State Fault Refusal := act (Instr.wf (.writeOut p)) (writeOutOp s p)
/-- CORRECTION_WRITE_BACK (R320). -/
def execCorrectionWriteBack (kind inst bank : Nat) (s : State) : Host.Outcome State Fault Refusal := act (Instr.wf (.correctionWriteBack kind inst bank)) (correctionOp s kind inst bank)
/-- REMAP (R331). -/
def execRemap (kind inst line : Nat) (s : State) : Host.Outcome State Fault Refusal := act (Instr.wf (.remap kind inst line)) (remapOp s kind inst line)
/-- SCRUB_PAGE_START (R328). -/
def execScrubPageStart (kind inst : Nat) (s : State) : Host.Outcome State Fault Refusal := act (Instr.wf (.scrubPageStart kind inst)) (scrubStartOp s kind inst)
/-- SCRUB_READ (R327). -/
def execScrubRead (kind inst : Nat) (s : State) : Host.Outcome State Fault Refusal := act (Instr.wf (.scrubRead kind inst)) (scrubReadOp s kind inst)
/-- MARCH_START (R338). -/
def execMarchStart (s : State) : Host.Outcome State Fault Refusal := act (Instr.wf .marchStart) (marchStartOp s)
/-- MARCH_ROW (R338). -/
def execMarchRow (failOp : Nat) (s : State) : Host.Outcome State Fault Refusal := act (Instr.wf (.marchRow failOp)) (marchRowOp s failOp)
/-- MARCH_COMPLETE (R338). -/
def execMarchComplete (failing : List (Nat × Nat)) (s : State) : Host.Outcome State Fault Refusal := act (Instr.wf (.marchComplete failing)) (marchEndOp s failing)
/-- FUSE_PROGRAM (R334). -/
def execFuseProgram (s : State) : Host.Outcome State Fault Refusal := act (Instr.wf .fuseProgram) (fuseStartOp s)
/-- FUSE_ENTRY_DONE (R334). -/
def execFuseEntryDone (readbackOk : Bool) (s : State) : Host.Outcome State Fault Refusal := act (Instr.wf (.fuseEntryDone readbackOk)) (fuseEntryOp s readbackOk)
/-- VPP_REMOVED (R334). -/
def execVppRemoved (s : State) : Host.Outcome State Fault Refusal := act (Instr.wf .vppRemoved) (vppOp s)
/-- INJECTION_ARM (R342). -/
def execInjectionArm (m : Nat) (v : W32) (s : State) : Host.Outcome State Fault Refusal := act (Instr.wf (.injectionArm m v)) (injArmOp s m v)
/-- LOG_WRITE (R340). -/
def execLogWrite (s : State) : Host.Outcome State Fault Refusal := act (Instr.wf .logWrite) (logWriteOp s)
/-- TAIL_STORE (R341). -/
def execTailStore (m : Nat) (v : W32) (s : State) : Host.Outcome State Fault Refusal := act (Instr.wf (.tailStore m v)) (eccStatStore s m v)
/-- LOAD_PORT_WRITE (R292). -/
def execLoadPortWrite (m : Nat) (v : W32) (s : State) : Host.Outcome State Fault Refusal := act (Instr.wf (.loadPortWrite m v)) (lpWriteOp s m v)
/-- LOAD_PORT_READ (R292). -/
def execLoadPortRead (m : Nat) (v : W32) (s : State) : Host.Outcome State Fault Refusal := act (Instr.wf (.loadPortRead m v)) (lpReadOp s m v)
/-- LOAD_PORT_DONE (R292). -/
def execLoadPortDone (s : State) : Host.Outcome State Fault Refusal := act (Instr.wf .loadPortDone) (lpDoneOp s)
/-- REGION_WRITE (R297, R298). -/
def execRegionWrite (m : Nat) (sup : Bool) (addr : Nat) (v : W32) (s : State) : Host.Outcome State Fault Refusal := act (Instr.wf (.regionWrite m sup addr v)) (regionOp s m sup addr v)
/-- DRAM_PARK (R303). -/
def execDramPark (s : State) : Host.Outcome State Fault Refusal := act (Instr.wf .dramPark) (parkOp s)
/-- PARK_COMPLETE (R303). -/
def execParkComplete (s : State) : Host.Outcome State Fault Refusal := act (Instr.wf .parkComplete) (parkedOp s)
/-- DRAM_UNPARK (R303). -/
def execDramUnpark (s : State) : Host.Outcome State Fault Refusal := act (Instr.wf .dramUnpark) (unparkOp s)
/-- PENDING_REPAIR_LIST_STORE (R343). -/
def execPendingRepairListStore (s : State) : Host.Outcome State Fault Refusal := act (Instr.wf .pendingRepairListStore) (pendStoreOp s)

end Sys2Proof.Machine
end

