-- ==== Sys2Proof/Machine/Gate.lean ====
section
/-! DEFINITION. Tagged words (R218 to R220), their conversions at the gate (R233), the shadow stack (R179 to R181),
and the four gate actions (R231 to R237). -/
namespace Sys2Proof.Machine

/-! ## Tagged words -/

def kTag (w : Nat) : Nat := w / 2 ^ 29 % 8
def kPay (w : Nat) : Nat := w % 2 ^ 29
def kWord (t p : Nat) : Nat := t % 8 * 2 ^ 29 + p % 2 ^ 29
def kUninit : Nat := 0xE0000000
/-- E(p) (R220). -/
def kAddr (p : Nat) : Nat := if p < 0x10000000 then 2 * p else 0x40000000 + 2 * (p - 0x10000000)
/-- The payload that maps to a word address (R220). -/
def kPayOf (a : Nat) : Option Nat :=
  if a % 2 = 1 then none else if a < 0x20000000 then some (a / 2)
  else if 0x40000000 ≤ a && a < 0x60000000 then some (0x10000000 + (a - 0x40000000) / 2) else none
/-- Pointer and code-address arithmetic (R226): no wrap, no crossing between the two ranges. -/
def kPtrAdd (p : Nat) (i : Int) : Option Nat :=
  let t : Int := p + i
  if t < 0 || t > 0x1FFFFFFF then none
  else if (p < 0x10000000) = (t < 0x10000000) then some t.toNat else none
/-- A tag that may be used (000 to 101). -/
def kTagOk (w : Nat) : Bool := decide (kTag w < 6)
/-- A Ketch word as an Emnos value (Table 7); none for tags 110 and 111. -/
def kToE (w : Nat) : Option W32 :=
  match kTag w with
  | 0 => some (w32 (sx 29 w))
  | 1 => some (n32 (kPay w * 8))
  | 2 => some (n32 (kAddr (kPay w)))
  | 3 => some (n32 (kAddr (kPay w)))
  | 4 => some (n32 (kPay w * 8))
  | 5 => some (n32 (kPay w))
  | _ => none
/-- An Emnos value as a Ketch word of a type (Table 7). -/
def eToK (t : Nat) (v : W32) : Nat :=
  match t with
  | 0 => if -(2 ^ 28 : Int) ≤ s32 v && s32 v < 2 ^ 28 then kWord 0 v.toNat else kUninit
  | 1 => kWord 1 (wrapN 29 (s32 v / 8))
  | 2 => (match kPayOf v.toNat with | some p => kWord 2 p | none => kUninit)
  | 3 => (match kPayOf v.toNat with | some p => kWord 3 p | none => kUninit)
  | 4 => kWord 4 (v.toNat / 8)
  | 5 => if v.toNat < 2 ^ 29 then kWord 5 v.toNat else kUninit
  | _ => kUninit

/-- A refused bundle or instruction: entry, code, slots, INFO and detail. -/
structure Refused where
  entry : Nat
  code : Nat
  slots : Nat
  info : Nat
  detail1 : Nat
  deriving DecidableEq, Repr
def refuse1 (entry code slots detail1 : Nat) : Refused := { entry := entry, code := code, slots := slots, info := 0, detail1 := detail1 }
/-- Tag check (R227): the Ketch OP, the failing operand, the tags of a and b, the word that failed. -/
def tagCheck (code op opnd a b w : Nat) : Refused :=
  { entry := 15, code := code, slots := 0, info := op * 1024 + opnd * 256 + kTag a * 32 + kTag b * 4, detail1 := w }

/-- The bank cycles that accesses between two states have cost coach `c` pass for `k` (R286). -/
def lostBetween (s t : State) (c : Nat) (k : Coach) : Coach := passTime k 0 ((co t c).cycles - (co s c).cycles)

/-! ## The shadow stack (R179, R180) -/

def ssOn (k : Coach) : Bool := decide ((rdCo k 0x326).toNat > (rdCo k 0x324).toNat)
/-- The check of CALL and CALLR. -/
def ssPushOk (k : Coach) : Bool :=
  !ssOn k || (decide ((rdCo k 0x322).toNat ≥ (rdCo k 0x324).toNat) && decide ((rdCo k 0x322).toNat + 2 ≤ (rdCo k 0x326).toNat))
/-- The push: the entry in the coach's own memory through port A, and SSP (R180, R181). -/
def ssPush (s : State) (c : Nat) (k : Coach) (v : W32) : State × Coach :=
  if !ssOn k then (s, k) else
  ((coachNow s c .store (rdCo k 0x322).toNat 2 v.toNat).st, wrCo k 0x322 (n32 ((rdCo k 0x322).toNat + 2)))
/-- The checks of RET: shadow-stack fault, then control-flow fault; the entry is read through port A. -/
def ssPopCheck (s : State) (c : Nat) (k : Coach) (target : W32) : Option Refused :=
  if !ssOn k then none
  else
    let p := (rdCo k 0x322).toNat
    if p < (rdCo k 0x324).toNat + 2 || p > (rdCo k 0x326).toNat then some (refuse1 3 2 128 0)
    else
      let o := coachNow s c .load (p - 2) 2 0
      if o.code ≠ 0 then some (refuse1 8 o.code 128 (p - 2))
      else if o.data ≠ target.toNat then some (refuse1 2 0 128 0) else none
def ssPop (k : Coach) : Coach := if !ssOn k then k else wrCo k 0x322 (n32 ((rdCo k 0x322).toNat - 2))

/-! ## Gate records (R231, R232) -/

def gateRet : Nat := 0x00020FF0
def gateEnt : Nat := 0x00020FF4
/-- Marker of a KCALL record and of a gate-entry record (Table 6). -/
def markK (rt0 rt1 : Nat) : Nat := 5 * 2 ^ 29 + 2 ^ 24 + rt0 * 2 ^ 21 + rt1 * 2 ^ 18
def markE : Nat := 5 * 2 ^ 29 + 2 * 2 ^ 24
/-- The three Ketch words of a record can be accessed at pointer payload `p`, or the fault: `bad` where the record crosses
the two ranges of R220. -/
def recFault (s : State) (c : Nat) (kd : AccKind) (p : Nat) (bad : Refused) : Option Refused :=
  (upto 3).foldl (fun (r : Option Refused) (i : Nat) => match r with
    | some x => some x
    | none =>
      match kPtrAdd p (i : Nat) with
      | none => some bad
      | some q => (match accFault s c kd (kAddr q) 2 true with | some f => some (refuse1 f.1 f.2 0 (kAddr q)) | none => none)) none
/-- The record's three words. -/
def recRead (s : State) (c p : Nat) (bad : Refused) : State × Option Refused × List Nat :=
  match recFault s c .load p bad with
  | some f => (s, some f, [])
  | none => (upto 3).foldl (fun (t : State × Option Refused × List Nat) i =>
      if t.2.1.isSome then t else
      let o := coachNow t.1 c .load (kAddr (p + i)) 2 0
      if o.code ≠ 0 then (o.st, some (refuse1 8 o.code 0 (kAddr (p + i))), t.2.2) else (o.st, none, t.2.2 ++ [o.data])) (s, none, [])
/-- A record is pushed; words already written stay if one ends in bus error. -/
def recWrite (s : State) (c p : Nat) (l : List Nat) : State × Option Refused :=
  (upto 3).foldl (fun (t : State × Option Refused) i =>
    if t.2.isSome then t else
    let o := coachNow t.1 c .store (kAddr (p + i)) 2 (l.getD i 0)
    if o.code ≠ 0 then (o.st, some (refuse1 8 o.code 0 (kAddr (p + i)))) else (o.st, none)) (s, none)

def setG (k : Coach) (i v : Nat) : Coach := { k with g := tput 0 k.g i (n32 v) }
def gN (k : Coach) (i : Nat) : Nat := (rdG k i).toNat
def setKetch (k : Coach) (b : Bool) : Coach := { setCoF k 0x000 15 1 (b2n b) with ketch := b, decoded := none }

/-- Stall cycles of a gate record at payload `p`: its three words are written one a cycle, and read in one (Table 8 of
chapter 08; DEDUCED, log entry 91). -/
def recStall (s : State) (c p : Nat) (write : Bool) : Nat :=
  (upto 3).foldl (fun m i => let x := (farStall s c (kAddr (p + i))).getD 0; if write then m + x else Nat.max m x) 0

/-- A gate action's outcome: refused, or the state and coach after it, with the next address and the stall cycles of its
record. -/
structure GateOut where
  st : State
  bad : Option Refused
  k : Coach
  next : W32
  stall : Nat
  deriving DecidableEq, Repr

/-- The gate return, after the RET's shadow-stack check (R235). -/
def gateReturn (s : State) (c : Nat) (k : Coach) : GateOut :=
  let no (r : Refused) : GateOut := { st := s, bad := some r, k := k, next := 0, stall := 0 }
  let w15 := gN k 15
  if kTag w15 ≠ 2 then no (tagCheck 4 0x3E 3 w15 0 w15)
  else
    let r := recRead s c (kPay w15) (tagCheck 3 0x3E 3 w15 0 w15)
    match r.2.1 with
    | some f => { no f with st := r.1 }
    | none =>
      let m := r.2.2.getD 1 0
      let w0 := r.2.2.getD 0 0
      let rt0 := fld m 21 3
      let rt1 := fld m 18 3
      if m ≠ markK rt0 rt1 then { no (tagCheck 4 0x3E 3 w15 0 m) with st := r.1 }
      else if rt0 = 6 || rt1 = 6 then { no (refuse1 4 6 128 0) with st := r.1 }
      else if kTag w0 ≠ 3 then { no (tagCheck 4 0x3E 3 w15 0 w0) with st := r.1 }
      else match kPtrAdd (kPay w15) 3 with
        | none => { no (tagCheck 3 0x3E 3 w15 0 w15) with st := r.1 }
        | some q =>
          let k := ssPop (lostBetween s r.1 c k)
          let k0 := setG (setG k 0 (eToK rt0 (rdG k 0))) 1 (eToK rt1 (rdG k 1))
          let k1 := (upto 6).foldl (fun k i => setG k (2 + i) kUninit) k0
          let k2 := setKetch (setG (setG k1 14 (r.2.2.getD 2 0)) 15 (kWord 2 q)) true
          { st := r.1, bad := none, k := k2, next := n32 (kAddr (kPay w0)), stall := recStall s c (kPay w15) false }

/-- The gate entry of a CALLR to GENT (R236): `ret` is the word after the bundle. -/
def gateEntry (s : State) (c : Nat) (k : Coach) (ret : W32) : GateOut :=
  let no (r : Refused) : GateOut := { st := s, bad := some r, k := k, next := 0, stall := 0 }
  let w12 := gN k 12
  let w13 := gN k 13
  let w15 := gN k 15
  if (upto 8).any (fun i => fld w13 (3 * i) 3 = 6) then no (refuse1 4 6 128 0)
  else if kTag w12 ≠ 3 then no (tagCheck 4 0x3F 3 w12 w15 w12)
  else if fld w13 24 8 ≠ 0 then no (tagCheck 4 0x3F 3 w12 w15 w13)
  else if kTag w15 ≠ 2 then no (tagCheck 4 0x3F 3 w12 w15 w15)
  else match kPtrAdd (kPay w15) (-3) with
    | none => no (tagCheck 3 0x3F 3 w12 w15 w15)
    | some q =>
      match recFault s c .store q (tagCheck 3 0x3F 3 w12 w15 w15) with
      | some f => no f
      | none =>
        if !ssPushOk k then no (refuse1 3 1 128 0)
        else
          let w := recWrite s c q [ret.toNat, markE, 0]
          match w.2 with
          | some f => { no f with st := w.1 }
          | none =>
            let p := ssPush w.1 c k ret
            let k := wrCo (lostBetween s p.1 c p.2) 0x320 ret
            let k1 := (upto 8).foldl (fun k' i => setG k' i (eToK (fld w13 (3 * i) 3) (rdG k i))) k
            let k2 := (upto 7).foldl (fun k i => setG k (8 + i) kUninit) k1
            { st := p.1, bad := none, k := setKetch (setG k2 15 (kWord 2 q)) true, next := n32 (kAddr (kPay w12)), stall := recStall s c q true }

/-- KCALL at word address `pc` (R234). -/
def gateKcall (s : State) (c : Nat) (k : Coach) (pc : Nat) (a nargs rt0 rt1 : Nat) : GateOut :=
  let no (r : Refused) : GateOut := { st := s, bad := some r, k := k, next := 0, stall := 0 }
  let wa := gN k a
  let w15 := gN k 15
  if rt0 = 6 || rt1 = 6 then no (refuse1 4 6 0 0)
  else if nargs > 8 then no (refuse1 4 1 0 0)
  else if !kTagOk wa then no (tagCheck 2 0x1F 0 wa w15 wa)
  else if kTag wa ≠ 3 then no (tagCheck 1 0x1F 0 wa w15 wa)
  else if !kTagOk w15 then no (tagCheck 2 0x1F 2 wa w15 w15)
  else if kTag w15 ≠ 2 then no (tagCheck 1 0x1F 2 wa w15 w15)
  else match (upto nargs).find? (fun i => !kTagOk (gN k i)) with
    | some i => no (tagCheck 2 0x1F 3 wa w15 (gN k i))
    | none =>
      match kPtrAdd (kPay w15) (-3) with
      | none => no (tagCheck 3 0x1F 2 wa w15 w15)
      | some q =>
        match recFault s c .store q (tagCheck 3 0x1F 2 wa w15 w15) with
        | some f => no f
        | none =>
          if !ssPushOk k then no (refuse1 3 1 0 0)
          else
            match kPayOf ((pc + 2) % 2 ^ 32) with
            | none => no (tagCheck 3 0x1F 3 wa w15 wa)
            | some rp =>
              let w := recWrite s c q [kWord 3 rp, markK rt0 rt1, gN k 14]
              match w.2 with
              | some f => { no f with st := w.1 }
              | none =>
                let p := ssPush w.1 c k (n32 gateRet)
                let k1 := (upto nargs).foldl (fun k' i => setG k' i ((kToE (gN k i)).getD 0).toNat) (lostBetween s p.1 c p.2)
                let k2 := wrCo (setG k1 15 (kWord 2 q)) 0x320 (n32 gateRet)
                { st := p.1, bad := none, k := setKetch k2 false, next := n32 (kAddr (kPay wa)), stall := recStall s c q true }

/-- KRET (R237). -/
def gateKret (s : State) (c : Nat) (k : Coach) (nres : Nat) : GateOut :=
  let no (r : Refused) : GateOut := { st := s, bad := some r, k := k, next := 0, stall := 0 }
  let w15 := gN k 15
  if nres > 2 then no (refuse1 4 1 0 0)
  else if !kTagOk w15 then no (tagCheck 2 0x20 2 w15 0 w15)
  else if kTag w15 ≠ 2 then no (tagCheck 1 0x20 2 w15 0 w15)
  else
    let r := recRead s c (kPay w15) (tagCheck 3 0x20 2 w15 0 w15)
    match r.2.1 with
    | some f => { no f with st := r.1 }
    | none =>
      let m := r.2.2.getD 1 0
      let ret := n32 (r.2.2.getD 0 0)
      if m ≠ markE then { no (tagCheck 4 0x20 3 w15 0 m) with st := r.1 }
      else match ssPopCheck r.1 c k ret with
        | some f => { no { f with slots := 0 } with st := r.1 }
        | none =>
          match (upto nres).find? (fun i => !kTagOk (gN k i)) with
          | some i => { no (tagCheck 2 0x20 3 w15 0 (gN k i)) with st := r.1 }
          | none =>
            match kPtrAdd (kPay w15) 3 with
            | none => { no (tagCheck 3 0x20 2 w15 0 w15) with st := r.1 }
            | some q =>
              let k0 := ssPop (lostBetween s r.1 c k)
              let k1 := (upto 2).foldl (fun k' i => setG k' i (if i < nres then ((kToE (gN k i)).getD 0).toNat else 0)) k0
              { st := r.1, bad := none, k := setKetch (setG k1 15 (kWord 2 q)) false, next := ret, stall := recStall s c (kPay w15) false }

end Sys2Proof.Machine
end

