-- ==== Sys2Proof/Machine/Issue.lean ====
section
/-! DEFINITION. The issue of a bundle: the checks of Table 5 of chapter 02 and Table 10 of chapter 07, the effects of
its operations, its transfer of control, and the end of its stall (R40, R46 to R56, R160 to R190). -/
namespace Sys2Proof.Machine

/-! ## What the operations of a bundle do -/

/-- The access of an LD-slot operation (R79, R81, R89). -/
def ldAccess (k : Coach) (so : Nat × Op) : Option Access :=
  match so.2 with
  | .mem store d p sz mode sx opnd =>
    some { ld := so.1, kind := if store then .store else .load, addr := (memAddr k p sz mode opnd).1.toNat, n := szWords sz,
           data := if store then (storeData k d sz).toNat else 0, dst := d, sx := sx, due := k.cyc + 4, resp := none, refused := 0 }
  | .atom d p sz swap b =>
    some { ld := so.1, kind := if swap then .atomSwap else .atomAdd, addr := (rdP k p).toNat, n := sz + 1,
           data := (rdG k b).toNat, dst := d, sx := false, due := k.cyc + 4, resp := none, refused := 0 }
  | _ => none
/-- What an LD-slot operation writes at +1: a pointer update or an AGU result (R81, R88). -/
def ldResults (k : Coach) (so : Nat × Op) : List Pend :=
  match so.2 with
  | .mem _ _ p sz mode _ opnd =>
    (match (memAddr k p sz mode opnd).2 with
     | some v => [res 1 so.1 .p p (2 ^ 32 - 1) v.toNat]
     | none => [])
  | .agu f d a imm b =>
    let r := aguVal k f d a imm b
    [res 1 so.1 (if r.1 then .p else .n) d (2 ^ 32 - 1) r.2.toNat]
  | _ => []
/-- Result of a MAC-slot operation. -/
def macOrFlt (k : Coach) (lead : Bool) (so : Nat × Op) : Option Pend :=
  match so.2 with
  | .flt f d a b x => some (fltResult k lead so.1 f d a b x)
  | o => macResult k k.cyc so.1 o
/-- Every result of a bundle that needs no memory, with its latency from the issue (R47). -/
def bundleResults (k : Coach) (lead : Bool) (sl : List (Nat × Op)) : List Pend :=
  sl.flatMap (fun so =>
    match opCls so.2 with
    | .alu => aluResults k so.2
    | .ld => ldResults k so
    | .mac => (macOrFlt k lead so).toList
    | _ => [])
/-- The results as they wait: due cycle, the bundle's number and address, its mode. -/
def stamp (k : Coach) (ps : List Pend) : List Pend :=
  ps.map (fun p => { p with due := k.cyc + p.due, seq := k.seq, apc := k.pc, prec := isPrecise k })
/-- Feedback paths after the bundle: every unit that issued a MAC-class operation (R49). -/
def feedbacks (k : Coach) (lead : Bool) (sl : List (Nat × Op)) : Table Feedback :=
  sl.foldl (fun t so => if opCls so.2 = .mac then tins (so.1 - 2) (feedbackOf k.cyc (macOrFlt k lead so)) (terase t (so.1 - 2)) else t) k.fb
/-- The divider's free cycle (R130). -/
def divAfter (k : Coach) (sl : List (Nat × Op)) : Nat :=
  sl.foldl (fun r so => match so.2 with | .div f _ a b => k.cyc + divLat f (rdG k a) (rdG k b) | _ => r) k.divFree
/-- What a load's answer writes (R79, R89, R42). -/
def loadResults (k : Coach) (a : Access) (x : Nat) : List Pend :=
  let put (file : RegFile) (i mask v : Nat) : Pend :=
    { res 0 a.ld file i mask v with due := a.due, seq := k.seq, apc := k.pc, prec := isPrecise k }
  match a.kind with
  | .store => []
  | .load =>
    (match a.n with
     | 1 => [put .g a.dst (2 ^ 32 - 1) (if a.sx then wrapN 32 (sx 16 x) else x % 65536)]
     | 2 => [put .g a.dst (2 ^ 32 - 1) (x % 2 ^ 32)]
     | 4 => [put .g a.dst (2 ^ 32 - 1) (x % 2 ^ 32), put .g (a.dst + 1) (2 ^ 32 - 1) (x / 2 ^ 32 % 2 ^ 32)]
     | _ => [put .v a.dst (2 ^ 128 - 1) (x % 2 ^ 128)])
  | _ => [put .g a.dst (2 ^ 32 - 1) (x % 2 ^ (16 * a.n))]

/-! ## Checks before issue -/

def usesSlot (sl : List (Nat × Op)) (p : Nat × Op → Bool) : Nat := sl.foldl (fun r so => if p so then r ||| 2 ^ so.1 else r) 0
def isFlt : Op → Bool
  | .flt .. => true
  | _ => false
/-- Operand values that make a bundle illegal, code 0x06 (R162, R122). -/
def operandBad (k : Coach) (sl : List (Nat × Op)) : Bool :=
  sl.any (fun so => match so.2 with
    | .loopR _ _ g => decide ((rdG k g).toNat > 2 ^ 24)
    | .vfirb _ _ _ n c => vfirbBad (rdG k c) (rdG k n)
    | _ => false)
/-- Rows 2 to 6: illegal, unit absent, privilege, breakpoint. A VFIRB refused for its operands reports every slot, which a
SOLE operation takes (R38; DESIGN CHOICE, log entry 87). -/
def checkOps (s : State) (c : Nat) (k : Coach) (b : Bundle) : Option Refused :=
  let sl := bundleSlots b
  let mac23 := usesSlot sl (fun so => so.1 = 4 || so.1 = 5)
  let flts := usesSlot sl (fun so => isFlt so.2)
  match bundleIllegal b with
  | some x => some (refuse1 4 x 0 0)
  | none =>
    if operandBad k sl then some (refuse1 4 6 (if sl.any (fun so => opCls so.2 = .sole) then 255 else usesSlot sl (fun so => opCls so.2 = .ctl)) 0)
    else if isLead c && mac23 ≠ 0 then some (refuse1 5 1 mac23 0)
    else if !isLead c && !s.variant.float && flts ≠ 0 then some (refuse1 5 2 flts 0)
    else if !isSup k && sl.any (fun so => so.2 = .eret) then some (refuse1 6 1 128 0)
    else if sl.any (fun so => so.2 = .brk) then some (refuse1 16 1 128 0)
    else none
/-- One row over the accesses: every slot it names, the lowest one's code and address. -/
def rowOf (entry : Nat) (code : Access → Nat) (accs : List Access) : Option Refused :=
  match accs.filter (fun a => code a ≠ 0) with
  | [] => none
  | a :: r => some (refuse1 entry (code a) ((a :: r).foldl (fun m x => m ||| 2 ^ x.ld) 0) a.addr)
/-- Row 10: a task-level store to a supervisor-written register, or to CO_CDONE with no job. -/
def privBad (s : State) (c : Nat) (k : Coach) (a : Access) : Bool :=
  match route s c a.addr with
  | .coReg off =>
    !isSup k && a.kind = .store &&
    (match coInfo (isLead c) off with | some i => i.sup | none => false)
  | _ => false
/-- Row 11: a store that sets CO_MODE.KETCH on a signal coach. -/
def ketchBad (s : State) (c : Nat) (a : Access) : Bool :=
  match route s c a.addr with
  | .coReg off => !isLead c && off = 0 && a.kind = .store && bitN a.data 15
  | _ => false
/-- CO_CDONE stored at task level while no job is current. -/
def cdoneBad (s : State) (c : Nat) (k : Coach) (a : Access) : Bool :=
  match route s c a.addr with
  | .coReg off => !isSup k && a.kind = .store && off = 0x502 && !isLead c && k.job.isNone
  | _ => false
/-- Rows 7 to 11. -/
def checkAccs (s : State) (c : Nat) (k : Coach) (accs : List Access) : Option Refused :=
  match rowOf 18 (fun a => b2n (a.addr % a.n ≠ 0)) accs with
  | some r => some { r with code := 0 }
  | none =>
    match rowOf 7 (fun a => accRegion s c a.kind a.addr a.n) accs with
    | some r => some r
    | none =>
      match rowOf 8 (fun a => accBus s c a.kind a.addr a.n false) accs with
      | some r => some r
      | none =>
        match rowOf 6 (fun a => if privBad s c k a || cdoneBad s c k a then 2 else 0) accs with
        | some r => some r
        | none => rowOf 4 (fun a => if ketchBad s c a then 7 else 0) accs
/-- Target of a RET and of a CALLR. -/
def retTarget (k : Coach) (p : Nat) (viaP : Bool) : W32 := if viaP then rdP k p else rdCo k 0x320
/-- Rows 12 and 13 (R180); a SOLE operation's alignment (R122, R208): loads take LD0 and stores LD1, and of VFIRB's loads
the samples LD0 and the coefficients LD1 (DESIGN CHOICE, log entry 87). -/
def checkCtl (s : State) (c : Nat) (k : Coach) (b : Bundle) : Option Refused :=
  (bundleOps b).foldl (fun r o => match r with
    | some x => some x
    | none =>
      match o with
      | .call _ => if ssPushOk k then none else some (refuse1 3 1 128 0)
      | .callR p => if isLead c && (rdP k p).toNat = gateEnt then none else if ssPushOk k then none else some (refuse1 3 1 128 0)
      | .ret p v => ssPopCheck s c k (retTarget k p v)
      | .blkmov sp d _ sz =>
        if (rdP k sp).toNat % szWords sz ≠ 0 then some (refuse1 18 0 1 (rdP k sp).toNat)
        else if (rdP k d).toNat % szWords sz ≠ 0 then some (refuse1 18 0 2 (rdP k d).toNat) else none
      | .blkfill _ d _ sz => if (rdP k d).toNat % szWords sz ≠ 0 then some (refuse1 18 0 2 (rdP k d).toNat) else none
      | .vfirb x h y _ _ =>
        (match [(x, 1), (h, 2), (y, 2)].find? (fun e => (rdP k e.1).toNat % 8 ≠ 0) with
         | some e => some (refuse1 18 0 e.2 (rdP k e.1).toNat)
         | none => none)
      | _ => none) none
/-- Row 1 and the lead coach's fetch rights. A word at an address that the coach cannot fetch from comes first, then the
region check of the words before it, then what the access to a word met (DEDUCED, log entry 92: an access that fails its
region check is not made). -/
def checkFetch (s : State) (c : Nat) (k : Coach) (b : Bundle) : Option Refused :=
  let a := (b.next + 2 ^ 32 - 1) % 2 ^ 32
  let bus : Refused := refuse1 8 (fetchCode s c a) 0 a
  if !b.fetched && fetchPlace s c a ≠ 0 then some bus
  else match (upto (b.next - k.pc.toNat)).find? (fun i => !fetchRegionOk s c (k.pc.toNat + i)) with
    | some i => some (refuse1 7 4 0 (k.pc.toNat + i))
    | none => if b.fetched then none else some bus
/-- A refused bundle: its exception is raised on its own address (R40, R189). -/
def refuseAt (k : Coach) (r : Refused) : Coach :=
  raiseExc (stopLong k) { entry := r.entry, code := r.code, scnum := 0, slots := r.slots, info := r.info, detail1 := n32 r.detail1, apc := k.pc, pc := k.pc }

/-! ## Transfer of control (R160, R168) -/

/-- The coach after the bundle's control flow: next address, bubble cycles, registers. -/
structure Flow where
  k : Coach
  next : W32
  bub : Nat
  deriving DecidableEq, Repr
/-- A transfer with its bubble cycles and its wrong path (R168, R174). -/
def flowTo (k : Coach) (next : W32) (bub : Nat) (wrong : Option W32) (off : Bool) : Flow :=
  { k := { k with wrong := if bub = 0 then none else some { cyc := k.cyc + 1, left := bub, path := wrong, off := off } }, next := next, bub := bub }
/-- No transfer: the loop end test, then the next word (R160, R163); `noEnd`: the bundle makes none (R166). -/
def flowOn (k : Coach) (seq : W32) (noEnd : Bool) : Flow :=
  let r := if noEnd then (k, seq) else loopEnd k seq
  { k := { r.1 with wrong := none }, next := r.2, bub := 0 }
/-- Registers a LOOP writes (R162). -/
def loopSet (k : Coach) (l : Nat) (start : W32) (len cnt : Nat) : Coach :=
  wrCo (wrCo (wrCo k (0x300 + 8 * l) start) (0x302 + 8 * l) (start + n32 len)) (0x304 + 8 * l) (n32 cnt)
/-- Conditions of R158; 6 always holds. -/
def brTaken (cond : Nat) (g : Int) : Bool :=
  match cond with
  | 0 => decide (g = 0)
  | 1 => decide (g ≠ 0)
  | 2 => decide (g < 0)
  | 3 => decide (g ≥ 0)
  | 4 => decide (g > 0)
  | 5 => decide (g ≤ 0)
  | _ => true
/-- Control flow of a bundle at `k.pc` whose following word is `seq` and whose decoding left `d`; `off`: prediction is off
for it (R168), `noEnd`: it makes no loop end test (R166). Nothing is decoded in the bubble cycles of PFLUSH and PBAR, nor
in those of a LOOP with count 0 with prediction on (DESIGN CHOICE, log entry 90). -/
def flowOf (s : State) (c : Nat) (k : Coach) (off noEnd : Bool) (d : Decoded) (seq : W32) (o : Option Op) : State × Flow :=
  let path : Option W32 := if off then some seq else none
  let lk (k : Coach) : Coach := wrCo k 0x320 seq
  let loop (l len cnt : Nat) : Flow :=
    if cnt = 0 then flowTo (loopSet k l seq len 0) (seq + n32 len) 3 path off
    else
      let f := flowOn k seq noEnd
      { f with k := loopSet f.k l seq len cnt }
  match o with
  | some (.br cond a bo) =>
    let g := s32 (rdG k a)
    let taken := brTaken cond g
    let tgt := w32 (k.pc.toNat + bo)
    if !isCond cond then (s, flowTo k tgt (if off then 3 else 0) path off)
    else if off then (s, if taken then flowTo k tgt 3 path off else flowOn k seq noEnd)
    else
      let hit := taken = d.taken
      let k1 := if hit then k else perfAdd (ctrSet k k.pc.toNat (if taken then Nat.min 3 (d.v + 1) else d.v - 1)) 0x606 1
      let seqF := n32 (fetchLoop k seq.toNat)
      if taken then (s, if hit then flowTo k1 tgt 0 none off else flowTo k1 tgt 5 (some seqF) off)
      else
        let f := flowOn k1 seq noEnd
        (s, if hit then f else flowTo f.k f.next 5 (some tgt) off)
  | some (.jr p) => (s, flowTo k (rdP k p) 3 path off)
  | some (.call bo) =>
    let q := ssPush s c k seq
    (q.1, flowTo (lk q.2) (w32 (k.pc.toNat + bo)) (if off then 3 else 0) path off)
  | some (.callR p) =>
    let q := ssPush s c k seq
    (q.1, flowTo (lk q.2) (rdP k p) 3 path off)
  | some (.ret p v) =>
    let tgt := retTarget k p v
    let k1 := ssPop k
    if off then (s, flowTo k1 tgt 3 path off)
    else match d.ret with
      | some a => (s, if a = tgt then flowTo k1 tgt 0 none off else flowTo (perfAdd k1 0x608 1) tgt 5 (some a) off)
      | none => (s, flowTo k1 tgt 3 none off)
  | some (.loopI l len cnt) => (s, loop l len cnt)
  | some (.loopR l len g) => (s, loop l len (rdG k g).toNat)
  | some .pflush =>
    let f := flowOn { k with counters := [], rs := [], rsTop := 0 } seq noEnd
    (s, flowTo f.k f.next 3 none off)
  | some (.pbar n) =>
    let f := flowOn (setCoF k 0x328 0 8 n) seq noEnd
    (s, flowTo f.k f.next 3 none off)
  | some (.syscall _) => (s, { k := { k with wrong := none }, next := seq, bub := 0 })
  | _ => (s, flowOn k seq noEnd)

/-! ## The issue -/

/-- A local access of the bundle is served in the cycle of issue when its bank is free and its line needs no
reconstruction (R54, R55). -/
def servedNow (s : State) (c : Nat) (a : Access) : Bool :=
  match route s c a.addr with
  | .bank kind inst off true =>
    let po := portOf kind inst off c true
    bankUp s kind inst off && (portReqs s po).isEmpty && !s.mem.recon.any (fun r => r.bank = po / 2) &&
    !s.mem.writeBack.any (fun e => e.1 = po / 2) && (bankAccess s po a.kind (wordKey kind inst off) a.n a.data c).code ≠ 99
  | .coReg _ => true
  | _ => false
/-- A local access acts: a CO_ store waits for its cycle (R45), a CO_ load reads now, memory acts now. -/
def serveNow (s : State) (c : Nat) (a : Access) : State :=
  match route s c a.addr with
  | .bank kind inst off _ =>
    let o := bankAccess s (portOf kind inst off c true) a.kind (wordKey kind inst off) a.n a.data c
    answerAccess o.st c a.ld { err := o.code, data := o.data }
  | .coReg off =>
    let k := co s c
    if a.kind = .store then answerAccess s c a.ld { err := 0, data := 0 }
    else answerAccess (setCo s c (coReadClear k off)) c a.ld { err := 0, data := (coRead s c k off).toNat }
  | _ => s
/-- Any other access is sent: to its bank's port, where it waits for the grant, or to its target (R53, R284). -/
def sendAccess (s : State) (c : Nat) (a : Access) : State :=
  match route s c a.addr with
  | .bank kind inst off own =>
    let po := portOf kind inst off c own
    setReqs s po (portReqs s po ++ [{ master := c, ld := a.ld, refusals := 0 }])
  | _ => s
/-- Loads act before stores and atomics, each group in slot order (R50, R91). -/
def accOrder (accs : List Access) : List Access :=
  accs.filter (fun a => a.kind = .load) ++ accs.filter (fun a => !(a.kind = .load))
/-- Stores of the bundle to CO_ registers, due two cycles after the issue (R45). -/
def coStores (s : State) (c : Nat) (k : Coach) (accs : List Access) : List CoStore :=
  accs.filterMap (fun a => match route s c a.addr with
    | .coReg off =>
      if a.kind = .store && !(slotSt s c = 2 && (off = 0x500 || off = 0x502)) then some { due := k.cyc + 2, off := off, val := n32 a.data } else none
    | _ => none)
/-- The dispatcher counts the stores of a FENCED slot to CO_CDONE and CO_HEARTBEAT, which it ignores (R273). -/
def fencedNote (s : State) (c : Nat) (accs : List Access) : State :=
  let n := (accs.filter (fun a => a.kind = .store && (a.addr = 0x20500 || a.addr = 0x20502))).length
  if slotSt s c = 2 then { s with carts := { s.carts with fencedStores := s.carts.fencedStores + n } } else s
/-- A bundle issued counts in CO_PERF_ISSUE (R182); a Ketch instruction is no bundle (DEDUCED, log entry 21 from R222). -/
def perfIssue (k : Coach) : Coach := if k.ketch then k else perfAdd k 0x600 1
/-- The gate action of a bundle whose accesses have been answered (R231, R235, R236): its results land in the gate's drain;
the action ends in the other mode, or refuses the bundle, every register keeping its value. Words of a record written
before a bus error stay (R232). `k` is the coach before the bundle, `n` with what the bundle writes on its way. -/
def finishGate (s : State) (c : Nat) (k n : Coach) (ent : Bool) (ret : W32) (st : Nat) : State :=
  let kd := drain s c (passTime n 0 st)
  let o := if ent then gateEntry (setCo s c kd) c kd ret else gateReturn (setCo s c kd) c kd
  match o.bad with
  | some r => setCo (if r.entry = 8 then o.st else s) c (refuseAt k r)
  | none => setCo o.st c { perfAdd (passTime o.k (if ent then 8 else 9) o.stall) 0x600 1 with
      lastPc := k.pc, pc := o.next, seq := k.seq + 1, bound := .drain, decoded := none }
/-- A bundle's local access that a far access before it in the order of R50 overlaps waits for that one's answer. -/
def heldBack (s : State) (c : Nat) (accs : List Access) (a : Access) : Bool :=
  match route s c a.addr with
  | .bank kind inst off true =>
    (accs.filter (fun b => b.ld ≠ a.ld && (b.kind = .load || (a.kind ≠ .load && b.ld < a.ld)))).any (fun b =>
      match route s c b.addr with
      | .bank k2 i2 o2 false => kind = k2 && inst = i2 && overlaps off a.n o2 (o2 + b.n)
      | _ => false)
  | _ => false
/-- The accesses held back act once every other has been answered. -/
def serveHeld (s : State) (c : Nat) : State :=
  let accs := (co s c).access
  let w := accs.filter (fun a => a.resp.isNone)
  let sent (s : State) (a : Access) : Bool :=
    match route s c a.addr with
    | .bank kind inst off own => (portReqs s (portOf kind inst off c own)).any (fun q => q.master = c && q.ld = a.ld)
    | _ => false
  if w.all (fun a => heldBack s c accs a) then
    w.foldl (fun s a => if servedNow s c a then serveNow s c a else if sent s a then s else sendAccess s c a) s
  else s
/-- The answered bundle takes effect, or is cancelled with a bus error (R190). `st` stall cycles have passed. -/
def finishBundle (s0 : State) (c st : Nat) : State :=
  let s := serveHeld s0 c
  let k := co s c
  match k.after with
  | none => s
  | some f =>
    if k.access.any (fun a => a.resp.isNone) then s
    else
      let bad := k.access.filter (fun a => match a.resp with | some r => r.err ≠ 0 | none => false)
      let info := k.access.foldl (fun m a => match a.resp with | some r => if r.err = 0 then m ||| 2 ^ a.ld else m | none => m) 0
      let acc := k.access
      let k := { k with access := [], after := none }
      match bad with
      | a :: r =>
        let code := match a.resp with | some x => x.err | none => 0
        let q : Refused := { entry := 8, code := code, slots := (a :: r).foldl (fun m x => m ||| 2 ^ x.ld) 0, info := info, detail1 := a.addr }
        setCo s c (refuseAt (perfIssue (passTime k 1 st)) q)
      | [] =>
        let loads := acc.flatMap (fun a => loadResults k a (match a.resp with | some x => x.data | none => 0))
        let n := { k with pc := f.pc, lastPc := k.pc, co := f.co, pend := k.pend ++ f.pend ++ loads, coPend := k.coPend ++ f.coPend,
                          fb := f.fb, divFree := f.divFree, long := f.long, counters := f.counters, rsTop := f.rsTop,
                          rs := (if f.keepRs then k.rs else []), wrong := f.wrong, bound := f.bound, decoded := none, seq := k.seq + 1,
                          cdonePc := if f.coPend.any (fun e => e.off = 0x502) then f.pc else k.cdonePc,
                          ketchAt := if f.coPend.any (fun e => e.off = 0x000) then k.seq + (if k.ketch then 1 else 2) else k.ketchAt }
        -- what the wait has changed beside the bundle: the register a load cleared, the budget timer
        let n := wrCo (wrCo n 0x006 (rdCo k 0x006)) 0x506 (rdCo k 0x506)
        match f.gate with
        | some (ent, ret) => finishGate s c k n ent ret st
        | none =>
          let n := perfIssue (passTime n (1 + f.bubbles) st)
          let n := match f.exc with | some e => raiseExc n { e with pc := n.pc } | none => n
          setCo s c n

/-- The lines of a signal coach's bundle are read in the fetch path: correctable ones are corrected, a poisoned one is
logged, an uncorrectable one's page is called for (R323, R325). -/
def fetchTouch (s : State) (c : Nat) (b : Bundle) (pc : Nat) : State :=
  if !(c < 72) then s else
  (upto ((b.next - pc + 6) / 4)).foldl (fun s i =>
    let a := pc / 4 * 4 + 4 * i
    if a ≥ b.next || a ≥ 0x8000 then s else
    let lk := wordKey 1 c a / 4
    let r := lineGet s lk
    if r.st = 1 then corrected s lk c r.syn true
    else if r.st = 2 then lineReport s 3 lk c 0
    else if r.st = 3 && !s.mem.recon.any (fun x => x.page = lk / 64) then
      { s with mem := { s.mem with recon := s.mem.recon ++ [{ bank := bankKeyOf (4 * lk), page := lk / 64, req := none, port := { kind := 1, inst := c, bank := bankOf 1 a, portB := false } }] } }
    else s) s
/-- The line fills of a lead coach's bundle, at most two (R19). -/
def fetchLead (s : State) (c pc : Nat) : State :=
  if c < 72 then s
  else
    let t := fetchFill s c pc
    if (bundleAt t c pc).next > fillBase pc + 16 then fetchFill t c (fillBase pc + 16) else t

/-- A long operation begins (R124, R207 to R212): drained, RESUME cleared; with a count of 0 it completes at once. -/
def longOf (k : Coach) (b : Bundle) : Option LongOp :=
  let mk (kind ra rb ry gn gc sz : Nat) : LongOp :=
    { kind := kind, ra := ra, rb := rb, ry := ry, gn := gn, gc := gc, size := sz, hold := bundleHold b, apc := k.pc, next := n32 b.next, steps := 0 }
  match bundleOps b with
  | [.blkmov sp d n sz] => some (mk 0 sp d 0 n 0 sz)
  | [.blkfill v d n sz] => some (mk 1 v d 0 n 0 sz)
  | [.vfirb x h y n g] => some (mk 2 x h y n g 0)
  | _ => none
/-- Cycles between the issue of a long operation and its first element or group, its own issue cycle included (R125,
R209). -/
def longStart (l : LongOp) : Nat := match l.kind with | 0 => 5 | 1 => 1 | _ => 12
/-- Address of element `e` after the one at a pointer, `n` words each. -/
def elemAt (p : W32) (n e : Nat) : Nat := (p.toNat + n * e) % 2 ^ 32
/-- Stall cycles of the cycles before the first store of a BLKMOV: the loads of its first 4 elements (R54, R209). -/
def longStartStall (s : State) (c : Nat) (k : Coach) (l : LongOp) : Nat :=
  if l.kind = 0 then (upto (Nat.min 4 (rdG k l.gn).toNat)).foldl (fun m e => m + bundleStall s c [elemAt (rdP k l.ra) (szWords l.size) e]) 0 else 0
/-- The bundle after a long operation: the end test and the next address (R160). -/
def longEnd (k : Coach) (l : LongOp) : Coach :=
  let r := loopEnd { k with long := none } l.next
  { r.1 with lastPc := l.apc, pc := r.2, bound := if l.hold then .barred else .drain, decoded := none }

/-- Hold run bookkeeping at the issue of a bundle (R59, R60). -/
def holdRun (k : Coach) (h : Bool) : Coach :=
  if h then (if k.holdStart.isNone then { k with holdStart := some k.cycles } else k)
  else match k.holdStart with
    | some t => { wrCo k 0x006 (n32 (Nat.max (rdCo k 0x006).toNat (Nat.min (k.cycles - t) 65535))) with holdStart := none }
    | none => k
/-- A barred bundle counts BARN down (R177). -/
def barCount (k : Coach) : Coach :=
  let n := coF k 0x328 0 8
  if 1 ≤ n && n ≤ 254 then setCoF k 0x328 0 8 (n - 1) else k

/-- ERET: the frame read and the restore, after the drain (R199). It counts in a hold run and in a bar as any bundle
(R59, R177). -/
def issueEret (s : State) (c : Nat) (k : Coach) (hold : Bool) : State :=
  let k := drain s c (barCount (holdRun k hold))
  let s := setCo s c k
  let r := eretRead s c
  match r.2.1 with
  | some f => setCo r.1 c (refuseAt (co r.1 c) (refuse1 f.1 f.2.1 128 f.2.2))
  | none =>
    let k := passTime (perfAdd { (co r.1 c) with lastPc := k.pc, seq := k.seq + 1 } 0x600 1) 8 (eretStall s c)
    setCo r.1 c (eretRegs k r.2.2)

/-- The gate action a bundle of a lead coach invokes: true for the gate entry, false for the return (R231). -/
def gateOf (k : Coach) (b : Bundle) (lead : Bool) : Option Bool :=
  if !lead then none else
  match ctlOf b with
  | some (.callR p) => if (rdP k p).toNat = gateEnt then some true else none
  | some (.ret p v) => if (retTarget k p v).toNat = gateRet then some false else none
  | _ => none
/-- What refuses a gate action as its bundle issues: the action is tried on the registers as the drain before it leaves
them; the results of the bundle's own loads are not known yet (R231). -/
def gateRefused (s : State) (c : Nat) (k : Coach) (b : Bundle) (ent : Bool) : Option Refused :=
  let kd := drain s c { k with pend := k.pend ++ stamp k (bundleResults k true (bundleSlots b)) }
  (if ent then gateEntry (setCo s c kd) c kd (n32 b.next) else gateReturn (setCo s c kd) c kd).bad
/-- A return through the gate whose predicted target was another counts in CO_PERF_RMISP (R182). -/
def gateMisp (k : Coach) (off : Bool) (d : Decoded) (ent : Bool) : Coach :=
  if ent || off then k else match d.ret with | some a => if a.toNat = gateRet then k else perfAdd k 0x608 1 | none => k
/-- The bundle raises a synchronous exception once it has retired, before the next one issues: in precise mode an
arithmetic exception, a subnormal trap or a write collision (R52, R166, R193; DEDUCED, log entry 104: only then is it known
before the next bundle). `ps`: what it writes, its loads included. -/
def raisesAtRetire (k : Coach) (ps : List Pend) : Bool :=
  isPrecise k && (ps.any (fun p => p.exc ≠ 0 || p.trap ≠ 0) || ps.any (fun p => (firstColl (ps.filter (fun q => q.due = p.due))).isSome))

/-- A bundle that has passed its checks issues (R40, R46). -/
def issueChecked (s : State) (c : Nat) (k : Coach) (b : Bundle) : State :=
  let sl := bundleSlots b
  let lead := isLead c
  let k := holdRun k (bundleHold b)
  let k := match k.budgetHold with | some d => if k.handlers ≤ d then { k with budgetHold := none } else k | none => k
  let accs := sl.filterMap (ldAccess k)
  let d := k.decoded.getD { addr := k.pc, on := false, v := 0, taken := false, ret := none }
  let off := predOff k
  match longOf k b with
  | some l =>
    let k := setCoF (barCount k) 0x002 7 1 0
    let k := perfAdd (passTime { k with seq := k.seq + 1, decoded := none } (longStart l) (longStartStall s c k l)) 0x600 1
    if (rdG k l.gn).toNat = 0 then setCo s c (longEnd k l) else setCo s c { k with long := some l, lastPc := l.apc }
  | none =>
    let ps := stamp k (bundleResults k lead sl)
    let aft (f : Flow) (bub : Nat) (exc : Option ExcReq) (gate : Option (Bool × W32)) : After :=
      { pc := f.next, co := f.k.co, cyc := k.cyc, bubbles := bub, pend := ps,
        coPend := coStores s c k accs, fb := feedbacks k lead sl, divFree := divAfter k sl, long := none,
        counters := f.k.counters, rsTop := f.k.rsTop, wrong := f.k.wrong, bound := if bundleHold b then .barred else .drain, exc := exc,
        keepRs := (match ctlOf b with | some .pflush => false | _ => true), gate := gate }
    let send (u : State) (aft : After) : State :=
      let s := fencedNote (setCo u c { lostBetween s u c k with access := accs, after := some aft }) c accs
      let now := (accOrder accs).filter (fun a => servedNow s c a && !heldBack s c accs a)
      let far := accs.filter (fun a => !(servedNow s c a || heldBack s c accs a))
      let s := now.foldl (fun s a => serveNow s c a) s
      let s := far.foldl (fun s a => sendAccess s c a) s
      if far.isEmpty then finishBundle s c (ownConflict s c (accs.map (fun a => a.addr))) else s
    match gateOf k b lead with
    | some ent =>
      match gateRefused s c k b ent with
      | some r => setCo s c (refuseAt k r)
      | none => send s (aft { k := { gateMisp (barCount k) off d ent with wrong := none }, next := n32 b.next, bub := 0 } 0 none (some (ent, n32 b.next)))
    | none =>
      let loads := accs.flatMap (fun a => loadResults k a 0)
      let f := flowOf s c (barCount k) off (raisesAtRetire k (ps ++ loads)) d (n32 b.next) (ctlOf b)
      let exc := match ctlOf b with | some (.syscall n) => some { excReq 17 0 0 k.pc with scnum := n, slots := 128 } | _ => none
      send f.1 (aft f.2 f.2.bub exc none)

/-- Counted cycle by which a bundle that waits may issue: precise mode waits for every result of the bundle before (R62), a
divide for the divider (R131), a SOLE operation for everything (R125, R209). Precise mode waits for results, not for a
store to a CO_ register, under whose old value the next bundle runs (R45; DESIGN CHOICE, log entry 85). -/
def waitUntil (k : Coach) (b : Bundle) : Nat :=
  let t := if isPrecise k then maxL (k.pend.map (fun p => p.due)) else k.cyc
  let t := if (bundleOps b).any (fun o => match o with | .div .. => true | _ => false) then Nat.max t k.divFree else t
  if (bundleOps b).any (fun o => opCls o = .sole) then Nat.max t (lastDue k) else t
/-- Cycle at which what comes first ends a wait early: a subnormal trap (R151), or a hold run that passes its limit (R60). -/
def waitCut (k : Coach) (t : Nat) : Nat :=
  let t := (k.pend.filter (fun p => p.trap ≠ 0)).foldl (fun m p => Nat.min m p.due) t
  match k.holdStart with
  | some h => if boundary k = .barred then Nat.min t (k.cyc + (coF k 0x004 0 12 + 1 - (k.cycles - h))) else t
  | none => t
/-- The waits before a bundle issues, drain cycles in which results land (R46, R62, R131). -/
def issueWait (s : State) (c : Nat) (k : Coach) (b : Bundle) : Coach :=
  landNow s c (passTime k (waitCut k (waitUntil k b) - k.cyc) 0)
/-- Something comes before the next bundle: a trap whose cycle has come, a switch to Ketch mode that is due, a store to
CO_CDONE that has taken effect, a hold run past its limit. -/
def issueBarred (k : Coach) : Bool :=
  trapDue k || (coB k 0x000 15 && decide (k.ketchAt ≤ k.seq)) || k.cdone.isSome || holdOver k

/-- BUNDLE_ISSUE: what is due lands; unless an event, a trap or a precise exception comes first, the waits of the bundle at
the coach's pc pass, and it is checked and issues or is refused. The waits make no drain point: an event that comes in
them is taken at the next one (R62, R131; DEDUCED, log entry 89). -/
def issueOp (s : State) (c : Nat) : State :=
  let k0 := co s c
  if !(isRunning k0 && coachPresent s c && !k0.ketch) then s
  else
    let k1 := landNow s c k0
    let s := if issueBarred k1 || (eventDue s c k1).isSome then s else fetchLead s c k1.pc.toNat
    let b := bundleAt s c k1.pc.toNat
    let k2 := if issueBarred k1 || (eventDue s c k1).isSome then k1 else issueWait s c k1 b
    match preciseReq k2 with
    | some (k3, r) => setCo s c (raiseExc k3 { r with pc := k2.pc })
    | none =>
      if issueBarred k2 || (eventDue s c k1).isSome then setCo s c k2
      else
        let s := fetchTouch (setCo s c k2) c b k2.pc.toNat
        match checkFetch s c k2 b with
        | some r => setCo s c (refuseAt k2 r)
        | none =>
          let use := match k2.decoded with | some d => d.addr = k2.pc && d.on = !predOff k2 | none => false
          let k4 := if use then k2 else decodePath k2 k2.pc b
          match checkOps s c k4 b with
          | some r => setCo s c (refuseAt k4 r)
          | none =>
            let accs := (bundleSlots b).filterMap (ldAccess k4)
            match checkAccs s c k4 accs with
            | some r => setCo s c (refuseAt k4 r)
            | none =>
              match checkCtl s c k4 b with
              | some r => setCo s c (refuseAt k4 r)
              | none =>
                if (bundleOps b).any (fun o => o = .eret) then issueEret s c k4 (bundleHold b)
                else issueChecked (setCo s c k4) c k4 b

/-- The precise exception of a bundle whose results have all landed is raised (R193). -/
def landPrecise (k : Coach) : Coach :=
  if !isRunning k then k else match preciseReq k with | some (k3, r) => raiseExc k3 { r with pc := k.pc } | none => k
/-- RESULT_LANDS: what is due lands; in precise mode, while the coach waits, the next result's cycle comes. -/
def landOp (s : State) (c : Nat) : State :=
  let k := co s c
  if !k.access.isEmpty || k.run = .off then s
  else match nextDue k with
    | none => s
    | some d =>
      if d ≤ k.cyc then setCo s c (landPrecise (landNow s c k))
      else if isPrecise k || k.ketch || k.run = .waiting then setCo s c (landPrecise (landNow s c (passTime k (d - k.cyc) 0)))
      else s
/-- The cycle of the first trap comes. -/
def issueTrapWait (s : State) (c : Nat) (k : Coach) : Coach :=
  landNow s c (passTime k (waitCut k (lastDue k) - k.cyc) 0)
/-- SUBNORMAL_TRAP: a trap whose result's cycle has come is taken; precise mode waits for it (R151). -/
def trapOp (s : State) (c : Nat) : State :=
  let k0 := co s c
  if !(isRunning k0) then s
  else match trapReq k0 with
    | none => s
    | some _ =>
      let k := if isPrecise k0 then issueTrapWait s c k0 else landNow s c k0
      match (if trapDue k then trapReq k else none) with
      | some r => setCo s c (raiseExc (dropTraps k) r)
      | none => s

end Sys2Proof.Machine
end

