-- ==== Sys2Proof/Machine/LongOps.lean ====
section
/-! DEFINITION. Long operations element by element and group by group (R121 to R126, R207 to R212). -/
namespace Sys2Proof.Machine

/-- A long operation stops for an access fault before the element or group that meets it (R211). -/
def longFault (k : Coach) (l : LongOp) (entry code ld a : Nat) : Coach :=
  raiseExc (stopLong k) { excReq entry code l.apc l.apc with slots := 2 ^ ld, detail1 := n32 a }
/-- An access of a long operation: its fault, or the state and data after it. -/
def longAccess (s : State) (c : Nat) (kd : AccKind) (a n data : Nat) : State × Option (Nat × Nat) × Nat :=
  match accFault s c kd a n true with
  | some f => (s, some f, 0)
  | none =>
    let o := coachNow s c kd a n data
    if o.code ≠ 0 then (o.st, some (8, o.code), 0) else (o.st, none, o.data)
def setP (k : Coach) (i : Nat) (v : W32) : Coach := { k with p := tput 0 k.p i v }
/-- The long operation's registers after an element or group: pointers advanced, count lowered. -/
def longAdvance (k : Coach) (l : LongOp) (words cnt : Nat) : Coach :=
  let n := rdG k l.gn - n32 cnt
  let k := if l.kind = 1 then k else setP k l.ra (rdP k l.ra + n32 words)
  let k := if l.kind = 2 then setP k l.ry (rdP k l.ry + n32 words) else if l.kind = 0 && l.ra = l.rb then k else setP k l.rb (rdP k l.rb + n32 words)
  { k with g := tput 0 k.g l.gn n }
/-- An element or group has completed: the next is due, or the operation ends. -/
def longStep (k : Coach) (l : LongOp) : Coach :=
  if rdG k l.gn = 0 then longEnd k l else { k with long := some { l with steps := l.steps + 1 } }
/-- A coach inside a long operation that may go on: nothing due at the element boundary. -/
def inLong (s : State) (c : Nat) (k : Coach) : Bool :=
  k.run = .running && k.exc.isNone && (eventDue s c k).isNone

/-- One element of BLKMOV or BLKFILL (R208 to R211): its load and its store; `more`: the operation still loads, so that
the load of the element 4 ahead takes LD0 in the cycle of this one's store (R209). -/
def blkElem (s : State) (c : Nat) (l : LongOp) (more : Bool) : State :=
  let k := co s c
  let n := szWords l.size
  let src := (rdP k l.ra).toNat
  let dst := (rdP k l.rb).toNat
  let r := if l.kind = 0 then longAccess s c .load src n 0 else (s, none, (rdV k l.ra).toNat % 2 ^ (16 * n))
  match r.2.1 with
  | some f => setCo r.1 c (longFault (co r.1 c) l f.1 f.2 0 src)
  | none =>
    let w := longAccess r.1 c .store dst n r.2.2
    match w.2.1 with
    | some f => setCo w.1 c (longFault (co w.1 c) l f.1 f.2 1 dst)
    | none =>
      let st := if l.kind = 0 && more && (rdG k l.gn).toNat > 4 then cycleStall s c [elemAt (rdP k l.ra) n 4, dst] else bundleStall s c [dst]
      setCo w.1 c (longStep (passTime (longAdvance (co w.1 c) l n 1) 1 st) l)
/-- BLK_ELEMENT: one element is copied or filled. -/
def blkOp (s : State) (c : Nat) : State :=
  let k := co s c
  match k.long with
  | none => s
  | some l => if l.kind = 2 || !inLong s c k then s else blkElem s c l true
/-- A BLKMOV that is to stop completes the stores of the elements already loaded, at most 4 (R210). -/
def blkFlush (s : State) (c : Nat) : State :=
  (upto 4).foldl (fun s _ =>
    match (co s c).long with
    | some l => if l.kind = 0 && (co s c).exc.isNone then blkElem s c l false else s
    | none => s) s

/-- Consecutive 8-word lines from a pointer, as an array of words in a number per line; the first fault stops. -/
def longLines (c : Nat) (a : Nat) : Nat → State → Array Nat → State × Option (Nat × Nat × Nat) × Array Nat
  | 0, s, acc => (s, none, acc)
  | n + 1, s, acc =>
    let at_ := (a + 8 * acc.size) % 2 ^ 32
    let r := longAccess s c .load at_ 8 0
    match r.2.1 with
    | some f => (r.1, some (f.1, f.2, at_), acc)
    | none => longLines c a n r.1 (acc.push r.2.2)
/-- Sample `i` of `w` bits from lines of 128 bits. -/
def lineSample (w : Nat) (t : Array Nat) (i : Nat) : Int := sx w (fld (t.getD (i * w / 128) 0) (i * w % 128) w)

/-- Stall cycles of a group: in each cycle one sample line on LD0 with one coefficient line, and in the last the store, on LD1
(R124, R125; DESIGN CHOICE, log entry 87). -/
def groupStall (s : State) (c : Nat) (px ph py : W32) (nx nh : Nat) : Nat :=
  (upto nx).foldl (fun m i =>
    m + cycleStall s c (elemAt px 8 i :: (if i < nh then [elemAt ph 8 i] else if i + 1 = nx then [py.toNat] else []))) 0
/-- VFIRB_GROUP: one group of outputs (R123, R124, R126). Gc is read anew for each group, as Px, Py and Gn are (DESIGN CHOICE,
log entry 87), and the faults of its samples come before those of its coefficients. -/
def vfirbOp (s : State) (c : Nat) : State :=
  let k := co s c
  match k.long with
  | none => s
  | some l =>
    if l.kind ≠ 2 || !inLong s c k then s
    else
      let gc := rdG k l.gc
      let m := b2n (rbit gc 31)
      let sat := b2n (rbit gc 30)
      let sh := rfld gc 23 7
      let t := rfld gc 0 15
      let w := laneW m
      let ln := if m = 1 then 8 else 4
      let nx := cdiv ((t + ln) * w) 128
      let nh := cdiv (t * w) 128
      let x := longLines c (rdP k l.ra).toNat nx s #[]
      match x.2.1 with
      | some f => setCo x.1 c (longFault (co x.1 c) l f.1 f.2.1 0 f.2.2)
      | none =>
        let h := longLines c (rdP k l.rb).toNat nh x.1 #[]
        match h.2.1 with
        | some f => setCo h.1 c (longFault (co h.1 c) l f.1 f.2.1 1 f.2.2)
        | none =>
          let ys := (upto ln).map (fun i => vfirbOut m sat sh t i (lineSample w x.2.2) (lineSample w h.2.2))
          let num := (upto ln).foldl (fun r i => r + (ys.getD i (0, 0)).1 % 2 ^ w * 2 ^ (w * i)) 0
          let fl := ys.foldl (fun r y => r ||| y.2) 0
          let py := (rdP k l.ry).toNat
          let o := longAccess h.1 c .store py 8 num
          match o.2.1 with
          | some f => setCo o.1 c (longFault (co o.1 c) l f.1 f.2 1 py)
          | none =>
            let st := groupStall s c (rdP k l.ra) (rdP k l.rb) (rdP k l.ry) nx nh
            let k := wrCo (longAdvance (co o.1 c) { l with rb := l.ra } 8 ln) 0x200 (rdCo (co o.1 c) 0x200 ||| n32 fl)
            setCo o.1 c (longStep (passTime k (if isLead c then t / 2 + 2 else t / 4 + 1) st) l)

end Sys2Proof.Machine
end

