-- ==== Sys2Proof/Machine/Coach.lean ====
section
/-! DEFINITION. The commands of a coach in Emnos mode: issue, fetch, landing, long operations, events, entry, start
(chapters 02 to 07). -/
namespace Sys2Proof.Machine

/-- A coach that may leave its code at a boundary: running or in the handover wait, not stalled, with no exception raised. -/
def mayLeave (s : State) (c : Nat) (k : Coach) : Bool :=
  (k.run = .running || k.run = .waiting) && k.access.isEmpty && k.after.isNone && k.exc.isNone && coachPresent s c
/-- EVENT_TAKEN: what is due lands; a precise exception comes first and a subnormal trap keeps the event waiting; else a
coach at a drain point completes the elements a BLKMOV has loaded, drains and takes the first due event (R194 to R196,
R210, R248). -/
def eventOp (s : State) (c : Nat) : State :=
  if !(mayLeave s c (co s c)) then s
  else
    let k := landNow s c (co s c)
    match preciseReq k with
    | some (k3, r) => setCo s c (raiseExc k3 { r with pc := k.pc })
    | none =>
      match (if trapDue k then none else eventDue s c k) with
      | none => setCo s c k
      | some 12 => setCo s c k
      | some _ =>
        let t := blkFlush (setCo s c k) c
        if (co t c).exc.isSome then t else setCo t c (takeEvent t c (co t c))
/-- HOLD_OVERRUN: a hold run past CO_HOLD_LIMIT at a barred boundary (R60, R213). -/
def holdOp (s : State) (c : Nat) : State :=
  if !(mayLeave s c (co s c) && (co s c).run = .running) then s
  else
    let k := landNow s c (co s c)
    setCo s c (if holdOver k then holdOverrun k else k)
/-- HOLD_MAX_READ: the read returns CO_HOLD_MAX and clears it (R12, Table 13 of chapter 02). -/
def holdMaxOp (s : State) (c : Nat) : State :=
  if coachPresent s c then { setCo s c (coReadClear (co s c) 0x006) with answer := coRead s c (co s c) 0x006 } else s
/-- HEARTBEAT_STORE: the count of a running coach goes up by 1, whatever is stored (R268); a coach that is halted, stopped
or off stores nothing (R203). -/
def heartbeatOp (s : State) (c : Nat) : State :=
  if slotSt s c = 2 then { s with carts := { s.carts with fencedStores := s.carts.fencedStores + 1 } }
  else if coachPresent s c && (co s c).run = .running then setCo s c (coWrite c none (co s c) 0x500 0) else s

/-- BUNDLE_ISSUE (R40, R46). -/
def execBundleIssue (c : Nat) (s : State) : Host.Outcome State Fault Refusal := act (Instr.wf (.bundleIssue c)) (issueOp s c)
/-- FETCH_DECODE (R171, R172). -/
def execFetchDecode (c : Nat) (s : State) : Host.Outcome State Fault Refusal := act (Instr.wf (.fetchDecode c)) (fetchOp s c)
/-- RESULT_LANDS (R47). -/
def execResultLands (c : Nat) (s : State) : Host.Outcome State Fault Refusal := act (Instr.wf (.resultLands c)) (landOp s c)
/-- BLK_ELEMENT (R209). -/
def execBlkElement (c : Nat) (s : State) : Host.Outcome State Fault Refusal := act (Instr.wf (.blkElement c)) (blkOp s c)
/-- VFIRB_GROUP (R124). -/
def execVfirbGroup (c : Nat) (s : State) : Host.Outcome State Fault Refusal := act (Instr.wf (.vfirbGroup c)) (vfirbOp s c)
/-- EVENT_TAKEN (R194). -/
def execEventTaken (c : Nat) (s : State) : Host.Outcome State Fault Refusal := act (Instr.wf (.eventTaken c)) (eventOp s c)
/-- HOLD_OVERRUN (R60). -/
def execHoldOverrun (c : Nat) (s : State) : Host.Outcome State Fault Refusal := act (Instr.wf (.holdOverrun c)) (holdOp s c)
/-- SUBNORMAL_TRAP (R151). -/
def execSubnormalTrap (c : Nat) (s : State) : Host.Outcome State Fault Refusal := act (Instr.wf (.subnormalTrap c)) (trapOp s c)
/-- EXCEPTION_ENTRY (R197). -/
def execExceptionEntry (c : Nat) (s : State) : Host.Outcome State Fault Refusal := act (Instr.wf (.exceptionEntry c)) (entryOp s c)
/-- HOLD_MAX_READ. -/
def execHoldMaxRead (c : Nat) (s : State) : Host.Outcome State Fault Refusal := act (Instr.wf (.holdMaxRead c)) (holdMaxOp s c)
/-- HEARTBEAT_STORE (R268). -/
def execHeartbeatStore (c : Nat) (s : State) : Host.Outcome State Fault Refusal := act (Instr.wf (.heartbeatStore c)) (heartbeatOp s c)

end Sys2Proof.Machine
end

