-- ==== Sys2Proof/Machine/Carts.lean ====
section
/-! DEFINITION. The cart dispatchers: releases, queues, the handover wait, the start and the end of jobs, budgets, lost
periods, the hitch, heartbeats, and the start of a coach (chapter 09). Releases and the hitch go by device time; a
dispatcher's own latency is not modelled. -/
namespace Sys2Proof.Machine
open Sys2Proof.Config

/-! ## Carts and queues -/

/-- Device time in ticks of 10 ns (R238, R397). -/
def ticks (s : State) : Nat := s.dtime / 10
def cartOf (s : State) (v : Nat) : Option Cart := match s.carts.table with | some t => t.carts[v]? | none => none
/-- Logical coach a cart is homed on, after re-admissions; none once it is withdrawn (R272). -/
def cartHome (s : State) (v : Nat) : Option Nat :=
  match cartOf s v with
  | none => none
  | some c => (match tget 0 s.carts.rehome v with | 0 => some c.home | 1 => none | h => some (h - 2))
/-- d(v) and r(v) in ticks, C′(v) in cycles, as published (R258, R277). -/
def cartD (s : State) (v : Nat) : Nat := tget 0 s.carts.windows (4 * v)
def cartR (s : State) (v : Nat) : Nat := tget 0 s.carts.windows (4 * v + 1)
def cartC (s : State) (v : Nat) : Nat := tget 0 s.carts.windows (4 * v + 2)
/-- Counters of entry 0x4010: 0 releases, 1 ends, 2 DMISS, 3 overruns, 4 stolen, 5 RSKIP, 6 RHELD. -/
def cartCount (s : State) (v i : Nat) : State := { s with carts := { s.carts with counts := tmod 0 s.carts.counts (8 * v + i) (fun x => x + 1) } }
def cartLive (s : State) (v : Nat) : Bool := tget 0 s.carts.live v = 1
def setLive (s : State) (v : Nat) (b : Bool) : State := { s with carts := { s.carts with live := tput 0 s.carts.live v (b2n b) } }
/-- The timetable is admitted and its coaches have handed over: jobs are released (R243). -/
def releasing (s : State) : Bool := s.carts.table.isSome && !s.carts.starting
/-- The express cart, which no sample count releases (R382). -/
def expressCart (s : State) : Option Nat := if s.media.xOn then some (valN s 0x6140 6 0xFFFF) else none
def bestEffort (s : State) (v : Nat) : Bool := match cartOf s v with | some c => c.bestEffort | none => false
/-- Class and deadline of a job: what preemption compares; with the cart index, the order of R246. -/
def jobRank (s : State) (j : Job) : List Nat := [b2n (bestEffort s j.cart), j.deadline]
def jobKey (s : State) (j : Job) : List Nat := jobRank s j ++ [j.cart]
def queueOf (s : State) (n : Nat) : List Job := tget [] s.carts.queues n
def setQueue (s : State) (n : Nat) (q : List Job) : State := { s with carts := { s.carts with queues := tput [] s.carts.queues n q } }
def enqueue (s : State) (n : Nat) (j : Job) : State := setQueue s n (sortIns (fun a b => lexLt (jobKey s a) (jobKey s b)) j (queueOf s n))
/-- Pulse of a cluster's dispatcher: 0 DMISS, 1 overrun, 2 LSTATE (R419). -/
def dispPulse (s : State) (n i : Nat) : State := pulse s (1056 + 3 * (n / 8) + i)
/-- A job counted in DMISS (R247). -/
def countMiss (s : State) (v : Nat) : State :=
  let t := cartCount s v 2
  match cartOf s v with | some c => dispPulse t c.home 0 | none => t

/-! ## Graphs (R242, R245) -/

def succsOf (t : Timetable) (c : Cart) : List Nat := (t.succ.drop c.succ).take c.scnt
def succsAt (t : Timetable) (v : Nat) : List Nat := match t.carts[v]? with | some c => succsOf t c | none => []
/-- Carts reachable from a list, breadth first. -/
def reachGo (t : Timetable) : Nat → List Nat → List Nat → List Nat
  | 0, _, seen => seen
  | n + 1, front, seen =>
    let nx := (front.flatMap (succsAt t)).eraseDups.filter (fun w => !seen.contains w)
    if nx.isEmpty then seen else reachGo t n nx (seen ++ nx)
def reachOf (t : Timetable) (v : Nat) : List Nat := reachGo t t.carts.length [v] []
/-- Release latency λ in ns between two homes (R245). -/
def latency (a b : Nat) : Nat := if a = b then 0 else if a / 8 = b / 8 then 100 else 300
/-- A predecessor's job has ended: each successor of the instance counts it (R245). -/
def notifySucc (s : State) (v k : Nat) (lost : Bool) : State :=
  match s.carts.table with
  | none => s
  | some t =>
    let h := (cartHome s v).getD (match t.carts[v]? with | some c => c.home | none => 0)
    (succsAt t v).foldl (fun s w =>
      let lam := latency h ((cartHome s w).getD h)
      { s with carts := { s.carts with graph := s.carts.graph.map (fun g =>
          if g.cart = w && g.k = k then { g with left := g.left - 1, plost := g.plost || lost, at_ := Nat.max g.at_ (s.dtime + lam) } else g) } }) s
/-- The end or the loss of a cart's release `k` is told to the wagons (R255, R367): the last report of each 64th release
stands. -/
def tellWagons (s : State) (v k : Nat) (lost : Bool) : State :=
  { s with carts := { s.carts with ended := tput 0 s.carts.ended (64 * v + k % 64) (2 * k + b2n lost + 1) } }
/-- What the wagons have been told of a cart's release `k`: whether it was lost; none while it has not ended. -/
def jobReport (s : State) (v k : Nat) : Option Bool :=
  let e := tget 0 s.carts.ended (64 * v + k % 64)
  if e = 2 * k + 1 then some false else if e = 2 * k + 2 then some true else none
/-- The period of a cart's job is lost: counted for the summary and for a dip, told to the wagons (R255, R477). -/
def lostPeriod (s : State) (v k : Nat) : State :=
  tellWagons { s with bb := if s.bb.dip then { s.bb with dipLost := s.bb.dipLost + 1 } else s.bb, carts := { s.carts with lostNow := tmod 0 s.carts.lostNow v (fun x => x + 1) } } v k true

/-! ## Releases (R243 to R245) -/

/-- A cart is released with release number `k` and release time `rel`: a job in the queue of its home; a skip while a
job of the cart lives; a withdrawn graph cart counts as ended lost (DEDUCED, log entry 56 from R272). -/
def releaseCart (s : State) (v k rel : Nat) (plost : Bool) : State :=
  match cartOf s v, s.carts.table with
  | some c, some t =>
    if cartLive s v then
      let s := lostPeriod (cartCount s v 5) v k
      if c.pred = 0 then s else notifySucc s v k true
    else match cartHome s v with
      | none => if c.pred = 0 then s else notifySucc s v k true
      | some h =>
        let s := setLive (cartCount s v 0) v true
        let s := if c.pred = 0 then
            { s with carts := { s.carts with
                lastRel := tput 0 s.carts.lastRel v (s.dtime + 1)
                graph := s.carts.graph ++ (reachOf t v).map (fun w => { cart := w, left := (match t.carts[w]? with | some x => x.pred | none => 0), plost := false, at_ := 0, k := k, rel := rel }) } }
          else s
        enqueue s h { cart := v, k := k, rel := rel, deadline := rel + cartD s v, plost := plost, stolen := false, home := h, spoiled := false }
  | _, _ => s
/-- A graph instance's cart whose predecessors have all ended is released once λ has passed (R245). -/
def graphOne (s : State) (v : Nat) : State :=
  match s.carts.graph.find? (fun g => g.cart = v && g.left = 0 && decide (g.at_ ≤ s.dtime)) with
  | none => s
  | some g => releaseCart { s with carts := { s.carts with graph := s.carts.graph.filter (fun x => !(x = g)) } } v g.k g.rel g.plost
/-- TIME_RELEASE: the next release time of a TIME root has come. -/
def timeRelOp (s : State) (v : Nat) : State :=
  match s.carts.table, cartOf s v with
  | some t, some c =>
    let k := tget 0 s.carts.nextK v
    let rel := t.start + c.offset + k * c.period
    if releasing s && c.rsrc = 0 && c.pred = 0 && decide (rel ≤ ticks s) then
      releaseCart { s with carts := { s.carts with nextK := tput 0 s.carts.nextK v (k + 1) } } v k rel false
    else s
  | _, _ => s
/-- Nominal rate of a media clock by its RATE code, in Hz (R350). -/
def rateHz (r : Nat) : Nat := match r with | 0 => 44100 | 1 => 48000 | 2 => 88200 | 3 => 96000 | 4 => 176400 | _ => 192000
def clockHz (s : State) (m : Nat) : Nat := rateHz (regF s (mcCtl m) 25 3)
/-- T_adm has passed since the root's last release (R243): dt × 1.001 × f ≥ PERIOD × 10^9. -/
def admPassed (s : State) (v m period : Nat) : Bool :=
  let l := tget 0 s.carts.lastRel v
  l = 0 || decide ((s.dtime + 1 - l) * 1001 * clockHz s m ≥ period * 10 ^ 12)
/-- The sample edge of clock `m` at count `n` releases a MEDIA root, or holds it until T_adm has passed. -/
def mediaRoot (s : State) (m n v : Nat) : State :=
  match cartOf s v with
  | none => s
  | some c =>
    if !(c.rsrc = 4 + m && c.pred = 0 && decide (n % c.period = c.offset)) || expressCart s = some v then s
    else if admPassed s v m c.period then releaseCart s v ((n - c.offset) / c.period) (ticks s) false
    else cartCount { s with carts := { s.carts with heldRel := tput 0 s.carts.heldRel v (n + 1) } } v 6
def mediaRelease (s : State) (m n : Nat) : State :=
  match s.carts.table with
  | some t => if releasing s then (upto t.carts.length).foldl (fun s v => mediaRoot s m n v) s else s
  | none => s
/-- HELD_RELEASE: T_adm has passed for a held MEDIA release. -/
def heldRelOp (s : State) (v : Nat) : State :=
  match cartOf s v with
  | none => s
  | some c =>
    let n := tget 0 s.carts.heldRel v
    if n = 0 || !(releasing s) || !(admPassed s v (c.rsrc - 4) c.period) then s
    else releaseCart { s with carts := { s.carts with heldRel := tput 0 s.carts.heldRel v 0 } } v ((n - 1 - c.offset) / c.period) (ticks s) false
/-- GRAPH_RELEASE (R245). -/
def graphRelOp (s : State) (v : Nat) : State := if releasing s then graphOne s v else s
/-- JOB_WITHDRAWN: a waiting job whose deadline has passed leaves its queue (R247). -/
def withdrawJobOp (s : State) (v : Nat) : State :=
  match (upto 64).find? (fun n => (queueOf s n).any (fun j => j.cart = v && decide (j.deadline * 10 < s.dtime))) with
  | none => s
  | some n =>
    match (queueOf s n).find? (fun j => j.cart = v) with
    | none => s
    | some j =>
      let s := setLive (setQueue s n ((queueOf s n).filter (fun x => !(x = j)))) v false
      notifySucc (lostPeriod (countMiss s v) v j.k) v j.k true

/-! ## Saving and loading contexts (R249 to R251) -/

/-- CO_ registers that a frame keeps: the loop, link, shadow-stack, status, mode and circular registers, ESP, OVR, and the
remaining budget; CO_FPSTAT, which hardware does not save (R147), is not among them (DEDUCED, log entry 105). -/
def frameRegs : List Nat :=
  [0x000, 0x002, 0x100, 0x102, 0x200, 0x300, 0x302, 0x304, 0x308, 0x30A, 0x30C, 0x310, 0x312, 0x314, 0x320, 0x322, 0x324, 0x326,
   0x402, 0x504, 0x506]
def region7 (s : State) (c : Nat) : List W32 := (upto 3).map (fun i => reg s (memRB c 7 + 2 * i))
def setRegion7 (s : State) (c : Nat) (l : List W32) : State := (upto 3).foldl (fun s i => setReg s (memRB c 7 + 2 * i) (l.getD i 0)) s
def saveFrame (s : State) (c : Nat) (k : Coach) : Frame :=
  { pc := k.pc, g := k.g, p := k.p, n := k.n, v := k.v, acc := k.acc, co := frameRegs.map (fun o => (o, rdCo k o)), region := region7 s c,
    job := k.job, espStart := k.espStart, handlers := k.handlers, fromWait := k.run = .waiting }
/-- The words of a frame as the dispatcher leaves them in the LDM: their arrangement is not specified (R249). -/
def writeFrame (s : State) (c lvl : Nat) : State :=
  let k := co s c
  let n := tget 0 k.saves lvl
  let s := setCo s c { k with saves := tput 0 k.saves lvl (n + 1) }
  let base := 0x2000 + 0x1C0 * lvl
  (upto 56).foldl (fun s i =>
    (turnAccess s 1 (portKey (bankKey 0 c 0) false) .store (wordKey 0 c (base + 8 * i)) 8
      (ofWords ((upto 8).map (fun w => frameWord c (base + 8 * i + w) n))) c).st) s
/-- A frame's context back in the coach. -/
def loadFrame (k : Coach) (f : Frame) : Coach :=
  let k := f.co.foldl (fun k e => wrCo k e.1 e.2) k
  { k with pc := f.pc, g := f.g, p := f.p, n := f.n, v := f.v, acc := f.acc, job := f.job, espStart := f.espStart, handlers := f.handlers,
           run := if f.fromWait then .waiting else .running, bound := .drain, decoded := none, exc := none, long := none,
           cdone := none, budgetHold := none, budgetDue := false }
/-- A job's registers as R249 loads them, over a context whose frame is the first of `frames`. -/
def loadJob (s : State) (c n : Nat) (j : Job) : State :=
  match cartOf s j.cart with
  | none => s
  | some v =>
    let k := co s c
    let base := match k.frames.getLast? with | some f => tget 0 f.co 0x000 | none => rdCo k 0x000
    let ssb := if k.level ≤ 1 then 0x3DC0 else (match k.frames with | f :: _ => (tget 0 f.co 0x326).toNat | [] => 0x3DC0)
    let k := setCoF (setCoF k 0x002 1 1 0) 0x002 7 1 0
    let k := wrCo k 0x000 (setR base 2 1 (b2n (!v.fetch)))
    let k := wrCo (wrCo (wrCo k 0x304 0) 0x30C 0) 0x314 0
    let k := setCoF k 0x328 0 8 0
    let k := wrCo (wrCo (wrCo k 0x324 (n32 ssb)) 0x326 (n32 (ssb + 2 * v.ssdepth))) 0x322 (n32 ssb)
    let load := v.budget + 4 * v.nsh
    let k := wrCo k 0x506 (n32 (2 ^ 31 + (if load < 2 ^ 24 then load else (budgetLoad j.cart).toNat)))
    let k := setCoF k 0x504 29 1 0
    let p := tput 0 (tput 0 (tput 0 k.p 0 (n32 (v.wbase * 64))) 1 v.arg0) 2 v.arg1
    let g := tput 0 (tput 0 k.g 0 (n32 j.cart)) 1 (n32 j.k)
    let k := { k with p := p, g := g, pc := n32 v.entry, job := some j, espStart := rdCo k 0x402, run := .running, bound := .none, decoded := none, handlers := 0,
                      exc := none, long := none, cdone := none, budgetHold := none, budgetDue := false }
    let k := wrCo k 0x500 (rdCo k 0x500 + 1)
    let ep := (logi s n).epoch
    let w := if v.wsize = 0 then [0, 0x3F, n32 (ep * 65536)]
      else [n32 (v.wbase * 64), n32 (v.wbase * 64 + 2 ^ v.wsize - 1), n32 (ep * 65536 + 7)]
    setRegion7 (setCo s c k) c w
/-- Cycles of a dispatch, outside any job's budget. -/
def dispTime (s : State) (c n : Nat) : State := let k := co s c; setCo s c { k with cyc := k.cyc + n, cycles := k.cycles + n }
/-- A job starts over the running context, which is saved (R249): 14 and 10 cycles. -/
def startOver (s : State) (c n : Nat) (j : Job) : State :=
  let k := drain s c (co s c)
  let f := saveFrame s c k
  let s := writeFrame (setCo s c k) c k.level
  let k := co s c
  loadJob (dispTime (setCo s c { k with frames := f :: k.frames, level := k.level + 1 }) c 24) c n j

/-! ## Jobs -/

/-- A slot that serves a logical coach in service, whose coach is not stalled and has no exception raised. -/
def serving (s : State) (c : Nat) : Option Nat :=
  match logicalOf s c with
  | some n =>
    let k := co s c
    if (logi s n).lstate = 0 && k.access.isEmpty && k.after.isNone && k.exc.isNone && !k.stopDue then some n else none
  | none => none
/-- The first waiting job is ahead of a job: the class, then a strictly earlier deadline (R246). -/
def ahead (s : State) (a b : Job) : Bool := lexLt (jobRank s a) (jobRank s b)
/-- JOB_START: the first job of the queue starts from the wait, or preempts the running job at a drain point at which no
handler is entered and no other event is due (R194, R246). -/
def jobStartOp (s : State) (c : Nat) : State :=
  match serving s c with
  | none => s
  | some n =>
    let k := co s c
    match queueOf s n with
    | [] => s
    | j :: q =>
      let go := (k.run = .waiting) ||
        (k.run = .running && (match k.job with | some r => ahead s j r | none => false) && atDrainPt k && k.handlers = 0 && k.pend.all (fun p => p.trap = 0) && k.precise.isNone && k.cdone.isNone)
      if go && (eventDue s c k).isNone && k.handed && releasing s && k.level < 16 then startOver (setCo (setQueue s n q) c (stopLong k)) c n j else s
/-- The current job ends (R252): its registers, its counts, its successors, then the next context. `forced`: the
dispatcher ends it (R254). -/
def endJob (s : State) (c n : Nat) (j : Job) (lostBit : Bool) : State :=
  let k := co s c
  let lost := lostBit || coB k 0x504 29 || j.plost || j.spoiled
  let k := wrCo k 0x402 k.espStart
  let k := setCoF k 0x504 29 1 0
  let k := wrCo (setCoF k 0x506 31 1 0) 0x500 (rdCo k 0x500 + 1)
  let s := dispTime (setCo s c { k with job := none, cdone := none, exc := none, long := none, budgetDue := false, budgetHold := none, decoded := none, handlers := 0, pend := [], precise := none }) c 10
  let s := cartCount s j.cart 1
  let s := if j.deadline * 10 < s.dtime then countMiss s j.cart else s
  let s := setLive s j.cart false
  let s := if lost then lostPeriod s j.cart j.k else tellWagons s j.cart j.k false
  let s := notifySucc s j.cart j.k lost
  let s := match s.carts.table with | some t => (succsAt t j.cart).foldl graphOne s | none => s
  let k := co s c
  match k.frames with
  | [] => setCo s c { k with run := .waiting, level := 0, lastBeat := s.dtime }
  | f :: r =>
    let next := match queueOf s n with
      | q :: _ => if (match f.job with | some u => ahead s q u | none => true) then some q else none
      | [] => none
    match next with
    | some q => loadJob (dispTime (setQueue s n ((queueOf s n).drop 1)) c 10) c n q
    | none => setRegion7 (dispTime (setCo s c { loadFrame k f with frames := r, level := k.level - 1, lastBeat := s.dtime }) c 14) c f.region
/-- JOB_END: a store to CO_CDONE has taken effect while a job is current (R252). -/
def jobEndOp (s : State) (c : Nat) : State :=
  match serving s c with
  | none => s
  | some n =>
    let k := co s c
    match k.job, k.cdone with
    | some j, some lost => if k.run = .running then endJob (setCo s c (drain s c k)) c n j lost else s
    | _, _ => s
/-- BUDGET_OVERRUN: the timer has reached 0 (R254). -/
def overrunOp (s : State) (c : Nat) : State :=
  let k := co s c
  match k.job with
  | some j =>
    if coB k 0x506 31 && coF k 0x506 0 24 = 0 && !(coB k 0x504 29) then
      let k := setCoF (setCoF k 0x504 29 1 1) 0x506 0 24 (coF k 0x508 0 12)
      dispPulse (cartCount (setCo s c { k with budgetDue := true }) j.cart 3) (c / 9 * 8) 1
    else s
  | none => s
/-- GRACE_EXPIRED: the dispatcher ends the overrun job at the first drain point (R254). -/
def graceOp (s : State) (c : Nat) : State :=
  let k := co s c
  match logicalOf s c, k.job with
  | some n, some j =>
    if coB k 0x504 29 && coF k 0x506 0 24 = 0 && k.access.isEmpty && k.after.isNone && k.run = .running && atDrainPt k && !k.stopDue then
      endJob (setCo s c (drain s c (stopLong k))) c n j true
    else s
  | _, _ => s

/-! ## The handover wait (R248, R262) -/

/-- HANDOVER_WAIT: a supervisor's store to CO_CDONE with no job current has taken effect; the coach drains and waits. -/
def handoverOp (s : State) (c : Nat) : State :=
  let k := co s c
  if !(c < 72 && k.run = .running && k.job.isNone && k.cdone.isSome && k.access.isEmpty && k.after.isNone && k.exc.isNone && !k.stopDue) || k.level ≠ 0 then s
  else match logicalOf s c with
    | none => setCo s c { k with cdone := none }
    | some n =>
      let k := drain s c k
      let h := (logi s n).hold
      let hold := if h = 0 then 512 else h
      let k := if s.carts.table.isSome && decide (coF k 0x004 0 12 > hold) then setCoF (setCoF k 0x004 0 12 hold) 0x002 12 1 1 else k
      let first := !k.handed
      let s := setCo s c { k with run := .waiting, pc := k.cdonePc, cdone := none, pend := [], precise := none, handed := true, lastBeat := s.dtime, decoded := none, bound := .drain }
      let l := logi s n
      if first && l.lstate = 3 then dispPulse (setLogi s n { l with lstate := 0, lastChange := s.dtime, lastCount := rdCo k 0x500 }) n 2
      else if first then setLogi s n { l with lastChange := s.dtime, lastCount := rdCo k 0x500 } else s
/-- WAIT_HEARTBEAT: every 250 µs the wait records a heartbeat (R248). -/
def waitBeatOp (s : State) (c : Nat) : State :=
  let k := co s c
  if k.run = .waiting && decide (k.lastBeat + 250000 ≤ s.dtime) then
    setCo s c { wrCo k 0x500 (rdCo k 0x500 + 1) with lastBeat := k.lastBeat + 250000 }
  else s

/-! ## Halts and restarts (R205, R206, R269) -/

/-- The jobs of a coach are discarded, running and saved, and their periods are lost (R255, R269), unless a withdrawal has
counted them already (R545). -/
def discardJobs (s : State) (c : Nat) : State :=
  let k := co s c
  let js := if k.stopDue then [] else k.job.toList ++ k.frames.filterMap (fun f => f.job)
  let s := setCo s c { k with job := none, frames := [], level := 0 }
  js.foldl (fun s j => notifySucc (lostPeriod (setLive s j.cart false) j.cart j.k) j.cart j.k true) s
/-- COACH_START: L0 starts or restarts a coach whose domain is on (R187, R205, R206, R269). A FENCED slot is not started, nor
a coach that a withdrawal stopped, which only the next ADMIT starts (R545), nor L1 to L3 after a second halt within 10 s. -/
def startOp (s : State) (c : Nat) : State :=
  if !(coachPresent s c && domOn s c) || slotSt s c = 2 || (co s c).run = .stopped || (co s c).stopDue || (co s c).dead then s
  else
    let s := startCoach (discardJobs (copyCrash s c) c) c none
    match (if c < 72 then logicalOf s c else none) with
    | some n => setLogi s n { logi s n with lastCount := rdCo (co s c) 0x500, lastChange := s.dtime }
    | none => s
/-- One sample of a logical coach's heartbeat count (R268, R269): a count that has stood for 1 ms declares it dead. -/
def sampleOne (s : State) (n : Nat) : State :=
  match slotOf s n with
  | none => s
  | some c =>
    let l := logi s n
    let k := co s c
    let x := rdCo k 0x500
    if l.lstate ≠ 0 || k.run = .stopped || k.run = .off then s
    else if k.handed && x ≠ l.lastCount then setLogi s n { l with lastCount := x, lastChange := s.dtime }
    else if decide (l.lastChange + 1000000 ≤ s.dtime) then declareDead s n 1
    else s
/-- HEARTBEAT_SAMPLE: L0 samples every coach in service. -/
def sampleOp (s : State) : State := (upto s.variant.coaches).foldl sampleOne s

/-! ## The hitch (R263 to R267) -/

/-- CL_NEXTREL of a logical coach in ticks (R264): none is none. -/
def nextRel (s : State) (n : Nat) : Option Nat :=
  match s.carts.table with
  | none => none
  | some t =>
    let roots := (upto t.carts.length).filterMap (fun v =>
      match t.carts[v]? with
      | some c =>
        if cartHome s v ≠ some n || c.pred ≠ 0 then none
        else if c.rsrc = 0 then some (t.start + c.offset + tget 0 s.carts.nextK v * c.period)
        else
          let l := tget 0 s.carts.lastRel v
          some (if l = 0 then ticks s else Nat.max (ticks s) (((l - 1) + c.period * 10 ^ 12 / (1001 * clockHz s (c.rsrc - 4))) / 10))
      | none => none)
    let inst := s.carts.graph.filterMap (fun g => if cartHome s g.cart = some n then some (g.rel + cartR s g.cart) else none)
    (roots ++ inst).foldl (fun r x => match r with | none => some x | some y => some (Nat.min x y)) none
def clImg (n : Nat) : Nat := 0x04000000 + n / 8 * 0x10000 + 0x20 + 2 * (n % 8)
def clDctl (k : Nat) : Nat := 0x04000000 + k * 0x10000
/-- The job of a queue of logical coach `h` may go to thief `n` (R263, R264). -/
def mayTake (s : State) (n h : Nat) (j : Job) : Bool :=
  match cartOf s j.cart with
  | none => false
  | some c =>
    let ft := clusterMHz s (n / 8)
    let fh := clusterMHz s (h / 8)
    let now := s.dtime * ft / 1000
    let cost := cdiv (cartC s j.cart * ft) fh + 120
    let shared := c.steal = 1 && h / 8 = n / 8 || c.steal = 2 && c.bestEffort && regB s (clDctl (n / 8)) 8
    shared && regF s (clImg n) 0 16 = regF s (clImg h) 0 16 && regF s (clImg n) 0 16 ≠ 0xFFFF &&
    decide (now + cost ≤ j.deadline * 10 * ft / 1000) &&
    (match nextRel s n with | some r => decide (now + cost ≤ r * 10 * ft / 1000) | none => true)
/-- The first job under R246 among the queues of some logical coaches that the thief may take. -/
def pickSteal (s : State) (n : Nat) (hs : List Nat) (be : Bool) : Option (Nat × Job) :=
  minBy (fun e => jobKey s e.2) (hs.flatMap (fun h => ((queueOf s h).filter (fun j => (!be || bestEffort s j.cart) && mayTake s n h j)).map (fun j => (h, j))))
/-- The thief claims a job and starts it after the hitch's cycles (R266, R267). -/
def takeJob (s : State) (n c h cycles : Nat) (j : Job) : State :=
  let s := setQueue s h ((queueOf s h).filter (fun x => !(x = j)))
  let s := setLogi s h { logi s h with stealsOut := incSat 32 (logi s h).stealsOut }
  let s := setLogi s n { logi s n with stealsIn := incSat 32 (logi s n).stealsIn }
  startOver (dispTime (cartCount s j.cart 4) c cycles) c n { j with stolen := true }
/-- The slot of a coach that may act as a thief now (R263, item 1; R276). -/
def thiefOf (s : State) (n : Nat) : Option Nat :=
  match slotOf s n with
  | some c =>
    if serving s c = some n && (co s c).run = .waiting && (eventDue s c (co s c)).isNone && (co s c).level = 0 && (queueOf s n).isEmpty && regB s (clDctl (n / 8)) (n % 8) && releasing s then some c
    else none
  | none => none
/-- Other logical coaches of a cluster, and those of the other clusters. -/
def ownCluster (s : State) (n : Nat) : List Nat := (upto s.variant.coaches).filter (fun h => h / 8 = n / 8 && h ≠ n)
def farClusters (s : State) (n : Nat) : List Nat := (upto s.variant.coaches).filter (fun h => h / 8 ≠ n / 8)
/-- HITCH_SEARCH: an idle coach searches its own cluster (R265). -/
def hitchOp (s : State) (n : Nat) : State :=
  match thiefOf s n with
  | none => s
  | some c => (match pickSteal s n (ownCluster s n) false with | some e => takeJob s n c e.1 20 e.2 | none => s)
/-- CROSS_CLUSTER_SEARCH: with HITCHX = 1 and 1,024 cycles since the last one, its own cluster first, then the
BEST_EFFORT jobs of the others (R265). -/
def crossOp (s : State) (n : Nat) : State :=
  match thiefOf s n with
  | none => s
  | some c =>
    let l := logi s n
    if !(regB s (clDctl (n / 8)) 8) || decide ((s.dtime - l.lastCross) * clusterMHz s (n / 8) < 1024 * 1000) then s
    else match pickSteal s n (ownCluster s n) false with
      | some e => takeJob s n c e.1 20 e.2
      | none =>
        let s := setLogi s n { l with lastCross := s.dtime }
        (match pickSteal s n (farClusters s n) true with | some e => takeJob s n c e.1 112 e.2 | none => s)

/-- COACH_START (R187). -/
def execCoachStart (c : Nat) (s : State) : Host.Outcome State Fault Refusal := act (Instr.wf (.coachStart c)) (startOp s c)
/-- HANDOVER_WAIT (R248). -/
def execHandoverWait (c : Nat) (s : State) : Host.Outcome State Fault Refusal := act (Instr.wf (.handoverWait c)) (handoverOp s c)
/-- WAIT_HEARTBEAT (R248). -/
def execWaitHeartbeat (c : Nat) (s : State) : Host.Outcome State Fault Refusal := act (Instr.wf (.waitHeartbeat c)) (waitBeatOp s c)
/-- JOB_END (R252). -/
def execJobEnd (c : Nat) (s : State) : Host.Outcome State Fault Refusal := act (Instr.wf (.jobEnd c)) (jobEndOp s c)
/-- JOB_START (R249). -/
def execJobStart (c : Nat) (s : State) : Host.Outcome State Fault Refusal := act (Instr.wf (.jobStart c)) (jobStartOp s c)
/-- TIME_RELEASE (R243). -/
def execTimeRelease (cart : Nat) (s : State) : Host.Outcome State Fault Refusal := act (Instr.wf (.timeRelease cart)) (timeRelOp s cart)
/-- HELD_RELEASE (R243). -/
def execHeldRelease (cart : Nat) (s : State) : Host.Outcome State Fault Refusal := act (Instr.wf (.heldRelease cart)) (heldRelOp s cart)
/-- GRAPH_RELEASE (R245). -/
def execGraphRelease (cart : Nat) (s : State) : Host.Outcome State Fault Refusal := act (Instr.wf (.graphRelease cart)) (graphRelOp s cart)
/-- JOB_WITHDRAWN (R247). -/
def execJobWithdrawn (cart : Nat) (s : State) : Host.Outcome State Fault Refusal := act (Instr.wf (.jobWithdrawn cart)) (withdrawJobOp s cart)
/-- BUDGET_OVERRUN (R254). -/
def execBudgetOverrun (c : Nat) (s : State) : Host.Outcome State Fault Refusal := act (Instr.wf (.budgetOverrun c)) (overrunOp s c)
/-- GRACE_EXPIRED (R254). -/
def execGraceExpired (c : Nat) (s : State) : Host.Outcome State Fault Refusal := act (Instr.wf (.graceExpired c)) (graceOp s c)
/-- HITCH_SEARCH (R265). -/
def execHitchSearch (n : Nat) (s : State) : Host.Outcome State Fault Refusal := act (Instr.wf (.hitchSearch n)) (hitchOp s n)
/-- CROSS_CLUSTER_SEARCH (R265). -/
def execCrossClusterSearch (n : Nat) (s : State) : Host.Outcome State Fault Refusal := act (Instr.wf (.crossClusterSearch n)) (crossOp s n)
/-- HEARTBEAT_SAMPLE (R268). -/
def execHeartbeatSample (s : State) : Host.Outcome State Fault Refusal := act (Instr.wf .heartbeatSample) (sampleOp s)

end Sys2Proof.Machine
end

