-- ==== Sys2Proof/Machine/Streams.lean ====
section
/-! DEFINITION. What the sample fabric and the network share: sample formats (R366), stream context descriptors (R404,
R405), media clocks and media timestamps (R344 to R348), and reads and writes of a stream engine. -/
namespace Sys2Proof.Machine
open Sys2Proof.Config

/-! ## Sample formats (R366, Table 13 of chapter 12) -/

def rneEnv : FEnv := { rtz := false, trapSub := false, lead := false }
/-- A real m × 2^e rounded down to an integer. -/
def floorDy (m e : Int) : Int := if e ≥ 0 then m * 2 ^ e.toNat else m / 2 ^ (-e).toNat
/-- A binary32 as Q1.31. -/
def f32ToQ (x : Nat) : Nat :=
  if fNaN f32 x || fSub f32 x then 0
  else if fInf f32 x then (if fSign f32 x then 0x80000000 else 0x7FFFFFFF)
  else wrapN 32 (satS 32 (floorDy (fMant f32 x) (fExpo f32 x + 31)))
/-- Q1.31 as a binary32, rounded to nearest even. -/
def qToF32 (x : Nat) : Nat := (itofLane rneEnv 31 x).val
/-- The format holds binary32 samples. -/
def isFloatFmt (f : Nat) : Bool := f = 2 || f = 0xB
/-- Bytes of a sample. -/
def fmtBytes (f : Nat) : Nat := match f with | 0 => 2 | 8 => 2 | 9 => 3 | _ => 4
/-- The raw bits of a sample as Q1.31. -/
def fmtToQ (f x : Nat) : Nat :=
  match f with | 0 => x * 65536 | 8 => x * 65536 | 9 => x * 256 | 2 => f32ToQ x | 0xB => f32ToQ x | _ => x
/-- The raw bits of a Q1.31 sample, or of a binary32 one where the format is floating. -/
def fmtOfQ (f x : Nat) : Nat := match f with | 0 => x / 65536 | 8 => x / 65536 | 9 => x / 256 | _ => x
/-- A sample scaled by i / 64: rounded down on Q1.31, to nearest even on binary32 with subnormal results flushed
(R371). -/
def scale64 (flt : Bool) (x i : Nat) : Nat :=
  if flt then (packF rneEnv f32 (fSign f32 x) (fMant f32 x * i) (fExpo f32 x - 6)).val
  else wrapN 32 (sx 32 x * i / 64)
/-- Sample `i` of a decay from `h`, and of a fade-in over `x` (R371). -/
def decayAt (flt : Bool) (h i : Nat) : Nat := if i < 64 then scale64 flt h (63 - i) else 0
def fadeAt (flt : Bool) (x i : Nat) : Nat := if i < 64 then scale64 flt x i else x

/-! ## Media clocks -/

def clk0 : MediaClock := { count := 0, mt := 0, edge := 0, armed := false, steadySince := 0 }
def clk (s : State) (m : Nat) : MediaClock := tget clk0 s.media.clocks m
def setClk (s : State) (m : Nat) (c : MediaClock) : State := { s with media := { s.media with clocks := tput clk0 s.media.clocks m c } }
/-- STATE of a media clock: 0 OFF, 1 ACQUIRE, 2 LOCKED, 3 HOLDOVER. -/
def mcState (s : State) (m : Nat) : Nat := regF s (mcStat m) 30 2
def mcSrc (s : State) (m : Nat) : Nat := regF s (mcCtl m) 28 3
def mcOn (s : State) (m : Nat) : Bool := regB s (mcCtl m) 31
/-- A change of STATE or CLAMP pulses the clock's source (R419). -/
def setMcState (s : State) (m st : Nat) : State := if mcState s m = st then s else pulse (setRegF s (mcStat m) 30 2 st) (904 + m)
def setClamp (s : State) (m : Nat) (b : Bool) : State := if regB s (mcStat m) 29 = b then s else pulse (setRegB s (mcStat m) 29 b) (904 + m)
/-- Time of a gPTP domain in ns (R397). -/
def domTime (s : State) (d : Nat) : Nat := ((s.dtime : Int) + (ptpOf s d).offset).toNat % 2 ^ 64
/-- The time a clock's timestamps are taken on, in ns (R397). -/
def clkTime (s : State) (m : Nat) : Nat := if mcSrc s m = 1 then domTime s 0 else if mcSrc s m = 2 then domTime s 1 else s.dtime
/-- n × 10^9 / f_nom ns, rounded down to 1/256 ns (R348). -/
def gridMt (hz n : Nat) : Nat := n * 256000000000 / hz
def onGrid (s : State) (m : Nat) : Bool := (mcSrc s m = 1 || mcSrc s m = 2) && mcState s m = 2
/-- The difference of two timestamps: modulo 2^64, read as signed (R345). -/
def stampDiff (a b : Int) : Int := sx 64 (wrapN 64 (a - b))
/-- MT_m(n) in 1/256 ns: on the grid, as kept for a recent edge, else a free value. -/
def mtOf (s : State) (m n : Nat) : Nat :=
  if onGrid s m then gridMt (clockHz s m) n % 2 ^ 64
  else
    let e := tget { count := 0, mt := 0 } s.media.edges (4096 * m + n % 4096)
    if e.count = n && (clk s m).edge ≠ 0 && e.mt ≠ 0 then e.mt else (mediaStamp m n).toNat
/-- MT_m(n) as windows are reckoned: media intervals at the fastest rate of R347. -/
def mtEst (s : State) (m : Nat) (n : Int) : Int :=
  if onGrid s m then n * 256000000000 / (clockHz s m : Int)
  else ((clk s m).mt : Int) + (n - ((clk s m).count : Int)) * 256000000000000 / ((1001 * clockHz s m : Nat) : Int)

/-! ## Stream contexts -/

/-- Reset of register `w` of a context's descriptor: POFF 2,000 µs and LAT 1,000 µs (R404). -/
def descReset (w : Nat) : W32 := if w = 5 then n32 (2000 * 65536 + 1000) else 0
def ctxW (s : State) (x w : Nat) : W32 := tget (descReset w) s.net.desc (16 * x + w)
def setCtxW (s : State) (x w : Nat) (v : W32) : State := { s with net := { s.net with desc := tput (descReset w) s.net.desc (16 * x + w) v } }
def ctxF (s : State) (x w lo n : Nat) : Nat := rfld (ctxW s x w) lo n
def ctxEn (s : State) (x : Nat) : Bool := rbit (ctxW s x 0) 31
def isTalker (x : Nat) : Bool := decide (1024 ≤ x)
def ctxProto (s : State) (x : Nat) : Nat := ctxF s x 0 28 2
def ctxPort (s : State) (x : Nat) : Nat := ctxF s x 0 25 3
def ctxDom (s : State) (x : Nat) : Nat := ctxF s x 0 24 1
def ctxFmt (s : State) (x : Nat) : Nat := ctxF s x 0 20 4
def ctxHz (s : State) (x : Nat) : Nat := rateHz (ctxF s x 0 17 3)
def ctxSpp (s : State) (x : Nat) : Nat := ctxF s x 0 9 8 + 1
def ctxNch (s : State) (x : Nat) : Nat := ctxF s x 0 0 8 + 1
def ctxPoff (s : State) (x : Nat) : Nat := ctxF s x 5 16 16
def ctxLat (s : State) (x : Nat) : Nat := ctxF s x 5 0 16
def ctxNslot (s : State) (x : Nat) : Nat := ctxF s x 7 24 8 + 1
def ctxMc (s : State) (x : Nat) : Nat := ctxF s x 7 19 2
def ctxSph (s : State) (x : Nat) : Nat := ctxF s x 7 0 8
/-- Bytes of a packet's samples, and words of a ring slot (R405). -/
def ctxBytes (s : State) (x : Nat) : Nat := ctxSpp s x * ctxNch s x * fmtBytes (ctxFmt s x)
def ctxSlotWords (s : State) (x : Nat) : Nat := 8 + 8 * cdiv (ctxBytes s x) 16
def ctx0 : Ctx :=
  { state := 0, cepoch := 0, partner := none, prev := none, ph := none, lastArrival := 0, lastSeq := none, nextN := 0, seqNum := 0, mr := false, lastMr := false,
    mrCount := 0, tuCount := 0 }
def ctxOf (s : State) (x : Nat) : Ctx := tget ctx0 s.net.ctx x
def setCtx (s : State) (x : Nat) (c : Ctx) : State := { s with net := { s.net with ctx := tput ctx0 s.net.ctx x c } }
/-- Phase of a context's packets: SPH of a talker, the learned phase of a listener (R405, R409). -/
def ctxPhase (s : State) (x : Nat) : Nat := if isTalker x then ctxSph s x else ((ctxOf s x).ph).getD 0
/-- Word address of the slot of the packet with first count `n` (R405). -/
def ctxSlotAddr (s : State) (x n : Nat) : Nat :=
  (ctxW s x 6).toNat + ((n - ctxPhase s x) / ctxSpp s x) % ctxNslot s x * ctxSlotWords s x
/-- Low bits of MEM_RCTL for the rights that are needed: EN, R 2 and W 4 (Table 10 of chapter 10); 0 where neither is. -/
def regionBits (r w : Bool) : Nat := if r || w then 1 + 2 * b2n r + 4 * b2n w else 0
/-- Windows of the regions of an engine or a DMA: CSM and GSM, the DRAM, the LDMs; while the express path is on, the LDMs below and
above bank 0 of its reserved coach, which engine 15 alone reaches (R380). -/
def grantSpan (s : State) (m i : Nat) : Nat × Nat :=
  let lo := 0x03000000 + valN s 0x6140 5 0xFF * 0x20000
  match i with
  | 0 => (0x01000000, 0x027FFFFF)
  | 1 => (0x40000000, 0xFFFFFFFF)
  | 2 => (0x03000000, if s.media.xOn && m ≠ 95 then lo - 1 else 0x037FFFFF)
  | _ => (if s.media.xOn && m ≠ 95 then lo + 0x4000 else 0x03800000, 0x037FFFFF)
/-- L0 gives a stream engine or a port's DMA its regions with the rights its units need, or removes them with none (R299):
over CSM and GSM and, for an engine, over the DRAM and LDM windows (DESIGN CHOICE, log entry 27: whole windows, in regions 0 to
3). -/
def grantRegions (s : State) (m : Nat) (bits : Nat) : State :=
  (upto (if m < 96 then 4 else 1)).foldl (fun s i =>
    let e := grantSpan s m i
    setRegF (setReg (setReg s (memRB m i) (n32 e.1)) (memRB m i + 2) (n32 (e.2 / 64 * 64))) (memRB m i + 4) 0 4 (if e.1 < e.2 then bits else 0)) s
/-- The words as they stand, for a check that makes no access of its own. -/
def peek (s : State) (m a n : Nat) : List Nat :=
  (upto n).map (fun i => let o := devAccess s m .load (a + i) 1 0; if o.code = 0 then o.data else (deviceRead (a + i) s.now).toNat)
/-- The slot of count `n` holds VALID with that count and, for a listener, the current epoch (R411, R412). -/
def slotHolds (s : State) (m x n : Nat) : Bool :=
  match peek s m (ctxSlotAddr s x n + 4) 4 with
  | [a, b, c, e] => a + 65536 * b = n % 2 ^ 32 && bitN c 15 && (isTalker x || e = (ctxOf s x).cepoch)
  | _ => false
/-- First count of the packet a talker sends next after its clock's present count: n ≡ SPH (mod SPP). -/
def firstCount (s : State) (x : Nat) : Nat :=
  let c := (clk s (ctxMc s x)).count
  let p := ctxSpp s x
  if c < ctxSph s x then ctxSph s x else ctxSph s x + ((c - ctxSph s x) / p + 1) * p
/-- A count of a context (ETH_CX_CNT_k), wrapping. -/
def ctxCount (s : State) (x k : Nat) : State :=
  { s with net := { s.net with ctxCnt := tput 0 s.net.ctxCnt (16 * x + k) (tget 0 s.net.ctxCnt (16 * x + k) + 1) } }

/-! ## Memory as a stream engine or a port's DMA sees it -/

/-- `n` words read as a number; a word whose read fails is a free value. -/
def engRead (s : State) (m a n : Nat) : State × Nat :=
  let o := devAccess s m .load a n 0
  if o.code = 0 then (o.st, o.data) else (o.st, ofWords ((upto n).map (fun i => deviceRead (a + i) s.now)))
/-- A store whose failure is reported and writes nothing. -/
def engWrite (s : State) (m a n data : Nat) : State := (devAccess s m .store a n data).st
/-- A line of 8 words in which some bytes are new: byte j of the line in stream order (R77). The other bytes keep what
the line holds. -/
def engBytes (s : State) (m a : Nat) (b : List (Option Nat)) : State :=
  let r := if b.all (fun x => x.isSome) then (s, 0) else engRead s m a 8
  let x := (upto 16).foldl (fun x j => match b.getD j none with | some v => setFld x (16 * (j / 2) + (if j % 2 = 0 then 8 else 0)) 8 v | none => x) r.2
  engWrite r.1 m a 8 x
/-- The header of a block or a slot: media timestamp, count, and words +6 and +7. -/
def headerNum (mt n w6 w7 : Nat) : Nat := mt % 2 ^ 64 + 2 ^ 64 * (n % 2 ^ 32) + 2 ^ 96 * w6 + 2 ^ 112 * w7

end Sys2Proof.Machine
end

