-- ==== Sys2Proof/Machine/Wagons.lean ====
section
/-! DEFINITION. Sample rings and wagons: descriptors, the checks of an enable, readiness, due times, and the move of a
line (R361 to R373). -/
namespace Sys2Proof.Machine
open Sys2Proof.Config

/-! ## Ring descriptors (R361, R362) -/

structure Ring where
  base : Nat
  nb : Nat
  bs : Nat
  nchr : Nat
  ph : Nat
  fmt : Nat
  inter : Bool
  deriving DecidableEq, Repr
def noRing : Ring := { base := 0, nb := 1, bs := 1, nchr := 1, ph := 0, fmt := 1, inter := false }
def fmtWords (f : Nat) : Nat := if f = 0 then 1 else 2
/-- The ring descriptor at an address, and whether it has no reserved value. -/
def ringAt (s : State) (m a : Nat) : Ring × Bool :=
  let x := ofWords ((peek s m a 8).map (BitVec.ofNat 16))
  let r : Ring := { base := fld x 0 32, nb := fld x 56 8 + 1, bs := fld x 46 10 + 1, nchr := fld x 36 10 + 1, ph := fld x 86 10, fmt := fld x 84 2,
                    inter := bitN x 83 }
  (r, r.base % 8 = 0 && fld x 56 8 ≠ 0 && fld x 32 4 = 0 && r.fmt ≠ 3 && fld x 64 19 = 0 && fld x 96 32 = 0 && decide (r.ph < r.bs))
/-- Words of a block, and of the ring. -/
def Ring.block (r : Ring) : Nat := 8 + 8 * cdiv (r.nchr * r.bs * fmtWords r.fmt) 8
def Ring.size (r : Ring) : Nat := r.nb * r.block
/-- Address of the block with first count `n`. -/
def Ring.addr (r : Ring) (n : Nat) : Nat := r.base + (n - r.ph) / r.bs % r.nb * r.block
/-- Address of sample `j` of channel `c` of a block. -/
def Ring.sample (r : Ring) (blk c j : Nat) : Nat := blk + 8 + (if r.inter then j * r.nchr + c else c * r.bs + j) * fmtWords r.fmt
def Ring.meets (r q : Ring) : Bool := overlaps r.base r.size q.base (q.base + q.size)

/-! ## Wagon descriptors (R365) -/

structure Wag where
  en : Bool
  srck : Nat
  dstk : Nat
  mc : Nat
  map : Bool
  pv : Bool
  prod : Nat
  sidx : Nat
  sch0 : Nat
  sfmt : Nat
  didx : Nat
  dch0 : Nat
  dfmt : Nat
  nch : Nat
  bs : Nat
  ph : Nat
  pdelay : Nat
  xw : Nat
  srd : Nat
  drd : Nat
  mapptr : Nat
  deriving DecidableEq, Repr
def wagReg (s : State) (n w i : Nat) : Nat := (reg s (seDesc n w i)).toNat
def wagOf (s : State) (n w : Nat) : Wag :=
  let d (i : Nat) := wagReg s n w i
  { en := bitN (d 0) 31, srck := fld (d 0) 28 3, dstk := fld (d 0) 25 3, mc := fld (d 0) 23 2, map := bitN (d 0) 22, pv := bitN (d 0) 21,
    prod := fld (d 0) 9 12, sidx := fld (d 1) 20 12, sch0 := fld (d 1) 8 12, sfmt := fld (d 1) 4 4, didx := fld (d 2) 20 12, dch0 := fld (d 2) 8 12,
    dfmt := fld (d 2) 4 4, nch := fld (d 3) 22 10 + 1, bs := fld (d 3) 11 10 + 1, ph := fld (d 3) 1 10, pdelay := fld (d 4) 16 16, xw := fld (d 4) 0 16,
    srd := d 5, drd := d 6, mapptr := d 7 }
/-- Identity of a stream engine (R21). -/
def seMaster (n : Nat) : Nat := 80 + n
/-- Wagons with EN = 1. -/
def enWagons (s : State) : List (Nat × Nat) :=
  (tkeys s.regs 0x04200000 0x04300000).filterMap (fun a =>
    let o := a % 0x10000
    if 0x100 ≤ o && o < 0x500 && o % 16 = 0 && regB s a 31 then some (a / 0x10000 % 16, (o - 0x100) / 16) else none)
/-- A wagon's source channels; none for channels that the map sets to zero. -/
def wagChan (s : State) (n : Nat) (d : Wag) (i : Nat) : Option Nat :=
  if d.map then
    (match peek s (seMaster n) (d.mapptr + i) 1 with | [x] => if bitN x 15 then none else some (x % 4096) | _ => none)
  else some (d.sch0 + i)
def srcRing (s : State) (n : Nat) (d : Wag) : Ring := (ringAt s (seMaster n) d.srd).1
def dstRing (s : State) (n : Nat) (d : Wag) : Ring := (ringAt s (seMaster n) d.drd).1

/-! ## Checks of an enable (R370, R412) -/

def apOn (s : State) (p : Nat) : Bool := decide (p < s.variant.tdmPorts) && regB s (apCtl p) 31
def apSlots (s : State) (p : Nat) : Nat := regF s (apFmt p) 25 5 + 1
def pdmOn (s : State) (i : Nat) : Bool := decide (i < 8) && regB s (pdmCtl i) 31
def asOn (s : State) (u : Nat) : Bool := decide (u / 64 < s.variant.asrcEngines) && regB s (asCtl (u / 64) (u % 64)) 31
def asNch (s : State) (u : Nat) : Nat := regF s (asCtl (u / 64) (u % 64)) 0 10 + 1
/-- A ring lies in CSM, GSM, DRAM or an LDM (R361). -/
def ringPlaced (s : State) (r : Ring) : Bool :=
  [r.base, r.base + r.size - 1].all (fun a => match memPlace s a with | some (k, _, _) => k = 0 || k = 3 || k = 4 || k = 5 | none => false)
/-- A channel of a source or destination unit exists and is enabled. -/
def chanOk (s : State) (n : Nat) (kind idx ring : Nat) (tx : Bool) (c : Nat) : Bool :=
  match kind with
  | 0 => decide (c < (ringAt s (seMaster n) ring).1.nchr)
  | 1 => decide (c < apSlots s idx) && regB s (if tx then apTxen idx else apRxen idx) c
  | 2 => decide (c < 2)
  | 3 => decide (c < ctxNch s idx)
  | _ => decide (c < asNch s idx)
/-- An end of a wagon names a unit that is present and enabled, in a format the end may have. -/
def endOk (s : State) (n : Nat) (d : Wag) (kind idx ring fmt : Nat) (dst : Bool) : Bool :=
  match kind with
  | 0 =>
    let r := ringAt s (seMaster n) ring
    idx = 0 && ring ≠ 0 && ring % 8 = 0 && r.2 && r.1.fmt = fmt && r.1.bs = d.bs && r.1.ph = d.ph && ringPlaced s r.1
  | 1 => apOn s idx && fmt = 1
  | 2 => !dst && pdmOn s idx && fmt = 1
  | 3 => decide (idx < 2048) && (isTalker idx == dst) && ctxEn s idx && ctxProto s idx ≠ 1 && fmt = ctxFmt s idx
  | 4 => decide (idx < 256) && asOn s idx && fmt = 1
  | _ => false
/-- Another enabled wagon feeds a channel that this one would feed, or writes into its destination ring. -/
def wagClash (s : State) (n w : Nat) (d : Wag) : Bool :=
  (enWagons s).any (fun e =>
    !(e = (n, w)) &&
    (let x := wagOf s e.1 e.2
     x.dstk = d.dstk &&
     (if d.dstk = 0 then (dstRing s e.1 x).meets (dstRing s n d)
      else x.didx = d.didx && overlaps x.dch0 x.nch d.dch0 (d.dch0 + d.nch))))
/-- The ring that a PV source names is a destination of an enabled wagon. -/
def pvClash (s : State) (n : Nat) (d : Wag) : Bool :=
  d.srck = 0 && d.pv && (enWagons s).any (fun e => let x := wagOf s e.1 e.2; x.dstk = 0 && (dstRing s e.1 x).meets (srcRing s n d))
/-- The whole descriptor of a wagon is as R370 and R412 ask. -/
def wagonOk (s : State) (n w : Nat) (d : Wag) : Bool :=
  decide (d.ph < d.bs) && d.xw ≠ 0 && mcOn s d.mc &&
  endOk s n d d.srck d.sidx d.srd d.sfmt false && endOk s n d d.dstk d.didx d.drd d.dfmt true &&
  (upto d.nch).all (fun i => match wagChan s n d i with | some c => chanOk s n d.srck d.sidx d.srd false c | none => true) &&
  (upto d.nch).all (fun i => chanOk s n d.dstk d.didx d.drd true (d.dch0 + i)) &&
  !wagClash s n w d && !pvClash s n d &&
  (d.dstk ≠ 3 || (d.mc = ctxMc s d.didx && d.bs % ctxSpp s d.didx = 0 && d.ph % ctxSpp s d.didx = ctxSph s d.didx % ctxSpp s d.didx))

/-! ## Run time (R367 to R373) -/

def wag0 : Wagon := { block := 0, line := 0, st := 0, last := [], decay := 0, fade := 64, muted := false, mutePos := 0, late := [], live := false }
def wagRun (s : State) (n w : Nat) : Wagon := tget wag0 s.media.wagons (64 * n + w)
def setWag (s : State) (n w : Nat) (x : Wagon) : State := { s with media := { s.media with wagons := tput wag0 s.media.wagons (64 * n + w) x } }
/-- Outputs mute: PFAIL_N, or SAFE (R373). -/
def muteOn (s : State) : Bool := s.bb.muted || s.dev = 6 || (s.dev = 7 && s.held = 6)
def outEnd (d : Wag) : Bool := d.dstk = 1 || d.dstk = 3
/-- The wagon runs: it has started and a timetable is admitted, or the mute of SAFE is still to be sent (R27, R368). -/
def wagonRuns (s : State) (n w : Nat) (d : Wag) : Bool :=
  let x := wagRun s n w
  d.en && x.live && (releasing s || (muteOn s && outEnd d && !(x.muted && decide (x.mutePos ≥ 64))))
/-- Every wagon stops: in CONFIG none runs (R368). -/
def stopWagons (s : State) : State := { s with media := { s.media with wagons := [] } }
def nSrc (d : Wag) (b : Nat) : Nat := d.ph + b * d.bs
def nDst (d : Wag) (b : Nat) : Nat := nSrc d b + d.pdelay
/-- A wagon as it starts: at the first block whose first source count is still to come, with a fade-in where the outputs
return from SAFE (R373). -/
def wagStart (s : State) (n w : Nat) : State :=
  let d := wagOf s n w
  let c := (clk s d.mc).count
  setWag s n w { wag0 with block := if c < d.ph then 0 else (c - d.ph) / d.bs + 1, live := releasing s,
                           fade := if s.media.fromSafe && outEnd d then 0 else 64 }
/-- The root of a cart's graph, the cart itself where nothing precedes it (R242). -/
def rootOf (t : Timetable) (v : Nat) : Option Cart :=
  match (upto t.carts.length).find? (fun r => (match t.carts[r]? with | some c => c.pred = 0 | none => false) && (r = v || (reachOf t r).contains v)) with
  | some r => t.carts[r]?
  | none => none
/-- Number of the release of a cart's graph whose release count is `f` (R363): its root decides. -/
def releaseOf (s : State) (v f : Nat) : Option Nat :=
  match s.carts.table with
  | none => none
  | some t => (match rootOf t v with | some c => if c.offset ≤ f && (f - c.offset) % c.period = 0 then some ((f - c.offset) / c.period) else none | none => none)
/-- What the dispatcher has reported of the producer's job for the block of count `f`: whether its period is lost; none
while the job has not ended (R252, R255, R367). -/
def prodReport (s : State) (v f : Nat) : Option Bool := match releaseOf s v f with | some k => jobReport s v k | none => none
def rxAt (s : State) (p n : Nat) : Option RxFrame :=
  match s.media.rx.find? (fun e => e.1 = p * 64 + n % 64) with
  | some e => if e.2.count = n then some e.2 else none
  | none => none
/-- First counts of the packets that cover counts `n` to `n + bs - 1` of a context. -/
def ctxPackets (s : State) (x n bs : Nat) : List Nat :=
  let p := ctxSpp s x
  let f := n - (n + p - ctxPhase s x % p) % p
  (upto (bs + 1)).filterMap (fun i => if f + i * p < n + bs then some (f + i * p) else none)
def asLocked (s : State) (u : Nat) : Bool := regB s (asStat (u / 64) (u % 64)) 31
/-- The source holds block `b` complete (Table 14). -/
def srcReady (s : State) (n : Nat) (d : Wag) (b : Nat) : Bool :=
  let f := nSrc d b
  match d.srck with
  | 0 =>
    if d.pv then prodReport s d.prod f = some false
    else match (enWagons s).find? (fun e => let x := wagOf s e.1 e.2; x.dstk = 0 && (dstRing s e.1 x).meets (srcRing s n d)) with
      | some e => let x := wagOf s e.1 e.2; decide (f < nDst x (wagRun s e.1 e.2).block)
      | none =>
        (match peek s (seMaster n) ((srcRing s n d).addr f + 4) 3 with
         | [a, c, h] => a + 65536 * c = f % 2 ^ 32 && bitN h 15
         | _ => false)
  | 1 => (upto d.bs).all (fun j => match rxAt s d.sidx (f + j) with | some r => !r.absent | none => false)
  | 2 => decide (f + d.bs ≤ (clk s d.mc).count)
  | 3 => (ctxPackets s d.sidx f d.bs).all (fun c => slotHolds s (seMaster n) d.sidx c)
  | _ => asLocked s d.sidx && decide (f + d.bs ≤ tget 0 s.media.asrcOut d.sidx)
/-- The block cannot be delivered whatever time is left: a lost producer, an absent frame, a stream not LOCKED (R371). -/
def srcLost (s : State) (d : Wag) (b : Nat) : Bool :=
  let f := nSrc d b
  match d.srck with
  | 0 => d.pv && prodReport s d.prod f = some true
  | 1 => (upto d.bs).any (fun j => match rxAt s d.sidx (f + j) with | some r => r.absent | none => false)
  | 4 => !asLocked s d.sidx
  | _ => false
/-- The wagon that reads an ASRC stream. -/
def asReader (s : State) (u : Nat) : Option (Nat × Nat) :=
  (enWagons s).find? (fun e => let x := wagOf s e.1 e.2; x.srck = 4 && x.sidx = u)
/-- Due time of a block less the time of its clock, in 1/256 ns (Table 14): negative once it has passed. -/
def dueIn (s : State) (d : Wag) (b : Nat) : Int :=
  let at_ (m : Nat) (n : Int) : Int := stampDiff (mtEst s m n) (256 * (clkTime s m : Int))
  match d.dstk with
  | 1 => at_ d.mc (nDst d b) - 51200
  | 3 => at_ d.mc (nDst d b) + 256000 * ((ctxLat s d.didx : Nat) : Int) - 512000
  | 4 =>
    (match asReader s d.didx with
     | some e =>
       let x := wagOf s e.1 e.2
       at_ x.mc (nDst x (wagRun s e.1 e.2).block) - 25600 * ((x.xw + regF s (asWin (d.didx / 64) (d.didx % 64)) 0 16 : Nat) : Int)
     | none => at_ d.mc (nDst d b))
  | _ => at_ d.mc (nDst d b)
/-- The latest start has passed (R367). -/
def startPassed (s : State) (d : Wag) (b : Nat) : Bool := decide (dueIn s d b - 25600 * (d.xw : Int) < 0)
/-- A block is concealed: counted, and its source, where it may still come, will be discarded (R371, R372). -/
def concealBlock (s : State) (n w : Nat) : State :=
  let x := wagRun s n w
  let s := setWag s n w { x with st := 2, late := if srcLost s (wagOf s n w) x.block then x.late else x.late ++ [x.block] }
  pulse (setReg s (seConc n w) (reg s (seConc n w) + 1)) (512 + 4 * n)
/-- CONCEALMENT: the block is not ready at its latest start, or cannot come. -/
def concealOp (s : State) (n w : Nat) : State :=
  let d := wagOf s n w
  let x := wagRun s n w
  if wagonRuns s n w d && x.st = 0 && !srcReady s n d x.block && (startPassed s d x.block || srcLost s d x.block) then concealBlock s n w else s
/-- Concealed blocks whose source has become ready since are discarded and counted (R372). -/
def lateBlocks (s : State) (n w : Nat) : State :=
  let d := wagOf s n w
  let x := wagRun s n w
  let come := x.late.filter (srcReady s n d)
  if come.isEmpty then s
  else
    let t := setWag s n w { x with late := x.late.filter (fun b => !(srcReady s n d b)) }
    pulse (setReg t (seLate n w) (reg t (seLate n w) + n32 come.length)) (513 + 4 * n)
/-- BLOCK_READY: the source holds the block complete; a block already concealed is discarded and counted (R367, R372). -/
def blockReadyOp (s : State) (n w : Nat) : State :=
  let d := wagOf s n w
  if !wagonRuns s n w d then s
  else
    let x := wagRun s n w
    let s := if x.st = 0 && startPassed s d x.block && srcReady s n d x.block then concealBlock s n w else s
    let s := lateBlocks s n w
    let x := wagRun s n w
    if x.st = 0 && srcReady s n d x.block then setWag s n w { x with st := 1 } else s

/-! ## The move of a line (R362, R366, R368) -/

/-- PDM_CLK periods in a sample period of a pair (R358). -/
def pdmOsr (s : State) (i : Nat) : Nat := if regB s (pdmCtl i) 28 then 128 else 64
/-- Bits that the microphone of channel `c` gives in the 32 sample periods before count `n`, by sample period: channel 0 is
sampled on the rising edge of PDM_CLK, channel 1 on the falling edge (R358). The 16 samples of group delay of R359 are the
middle of them (DEDUCED, log entry 37). -/
def pdmPeriods (s : State) (i c n : Nat) : List (List Bool) :=
  (upto 32).map (fun k => (upto (pdmOsr s i)).map (fun j => pdmBit i c ((n + 2 ^ 64 - 32 + k) % 2 ^ 64) j (tget 0 s.media.pdmGen i)))
/-- An output sample of the decimator (R359): of a constant density d, (2d − 1) × 2^30; bits [7:0] are zero. -/
def pdmSample (s : State) (i c n : Nat) : Nat :=
  let l := pdmPeriods s i c n
  let ones (p : List Bool) : Nat := (p.filter id).length
  let o := match l with | p :: _ => ones p | [] => 0
  if l.all (fun p => ones p = o) then wrapN 32 ((2 * (o : Int) - (pdmOsr s i : Int)) * ((2 ^ 30 / pdmOsr s i : Nat) : Int))
  else (pdmFilter (pdmOsr s i) l.flatten).toNat / 256 * 256
/-- One source sample as Q1.31: channel `i` of the wagon, sample `j` of the block. -/
def srcSample (s : State) (n : Nat) (d : Wag) (b i j : Nat) : State × Nat :=
  match wagChan s n d i with
  | none => (s, 0)
  | some c =>
    let f := nSrc d b + j
    match d.srck with
    | 0 =>
      let r := srcRing s n d
      let o := engRead s (seMaster n) (r.sample (r.addr (nSrc d b)) c j) (fmtWords r.fmt)
      (o.1, fmtToQ d.sfmt o.2)
    | 1 => (s, (match s.media.rx.find? (fun e => e.1 = d.sidx * 64 + f % 64) with | some e => (e.2.slots.getD c 0).toNat | none => 0))
    | 2 => (s, pdmSample s d.sidx c f)
    | 3 =>
      let p := ctxSpp s d.sidx
      let k := (f + p - ctxPhase s d.sidx % p) % p
      let bo := (k * ctxNch s d.sidx + c) * fmtBytes d.sfmt
      let a := ctxSlotAddr s d.sidx (f - k) + 8 + bo / 2
      (match fmtBytes d.sfmt with
       | 2 => let o := engRead s (seMaster n) a 1; (o.1, fmtToQ d.sfmt o.2)
       | 3 =>
         let x := engRead s (seMaster n) a 1
         let y := engRead x.1 (seMaster n) (a + 1) 1
         (y.1, fmtToQ d.sfmt (if bo % 2 = 0 then x.2 * 256 + y.2 / 256 else x.2 % 256 * 65536 + y.2))
       | _ => let o := engRead s (seMaster n) a 2; (o.1, fmtToQ d.sfmt (o.2 % 65536 * 65536 + o.2 / 65536)))
    | _ => (s, (asrcSample d.sidx c f (tget 0 s.media.asrcDelay d.sidx).toNat (tget 0 s.media.asrcGen d.sidx)
           (tget [] s.media.asrcWin (1024 * d.sidx + c))).toNat)
/-- What the wagon delivers for channel `i`, sample `j`: the source sample, its decay or fade-in, and the mute (R371,
R373); the last sample of a delivered block is kept for a decay. -/
def outSample (s : State) (n w : Nat) (d : Wag) (i j : Nat) : State × Nat :=
  let x := wagRun s n w
  let flt := isFloatFmt d.dfmt
  let r := if x.st = 2 then (s, decayAt flt (tget 0 x.last i).toNat (x.decay + j))
    else let o := srcSample s n d x.block i j; (o.1, fadeAt flt (if flt then qToF32 o.2 else o.2) (x.fade + j))
  let y := if x.muted then decayAt flt r.2 (x.mutePos + j) else r.2
  let s := if x.st ≠ 2 && j + 1 = d.bs then setWag r.1 n w { wagRun r.1 n w with last := tput 0 x.last i (n32 y) } else r.1
  (s, y)
/-- Samples of the wagon at consecutive places, each with its channel and sample number; none outside the wagon. -/
def gather (n w : Nat) (d : Wag) : List (Option (Nat × Nat)) → State → List (Option Nat) → State × List (Option Nat)
  | [], s, acc => (s, acc)
  | none :: r, s, acc => gather n w d r s (acc ++ [none])
  | some e :: r, s, acc => let o := outSample s n w d e.1 e.2; gather n w d r o.1 (acc ++ [some (fmtOfQ d.dfmt o.2)])
/-- Payload lines of a destination block, without headers. -/
def wagLines (s : State) (n : Nat) (d : Wag) : Nat :=
  match d.dstk with
  | 0 => ((dstRing s n d).block - 8) / 8 + 1
  | 3 => d.bs / ctxSpp s d.didx * (cdiv (ctxBytes s d.didx) 16 + 1)
  | _ => cdiv (d.nch * d.bs) 4
/-- STATUS of a block's header: VALID, CONC, RAMP. -/
def blockStatus (x : Wagon) : Nat := 32768 + (if x.st = 2 then 16384 else 0) + (if (x.st ≠ 2 && x.fade < 64) || (x.muted && x.mutePos < 64) then 8192 else 0)
/-- A line of a RING destination: the samples of the wagon's channels in it, whole where all are; the header last. -/
def ringLine (s : State) (n w : Nat) (d : Wag) (l : Nat) : State :=
  let r := dstRing s n d
  let x := wagRun s n w
  let a := r.addr (nDst d x.block)
  if l + 1 = wagLines s n d then engWrite s (seMaster n) a 8 (headerNum (mtOf s d.mc (nDst d x.block)) (nDst d x.block) (blockStatus x) 0)
  else
    let wd := fmtWords r.fmt
    let pl := (upto (8 / wd)).map (fun i =>
      let q := l * (8 / wd) + i
      let c := if r.inter then q % r.nchr else q / r.bs
      let j := if r.inter then q / r.nchr else q % r.bs
      if q < r.nchr * r.bs && d.dch0 ≤ c && c < d.dch0 + d.nch then some (c - d.dch0, j) else none)
    let o := gather n w d pl s []
    if o.2.all (fun y => y.isSome) then
      engWrite o.1 (seMaster n) (a + 8 + 8 * l) 8 (o.2.foldr (fun y z => y.getD 0 + 2 ^ (16 * wd) * z) 0)
    else
      (upto (8 / wd)).foldl (fun s i => match o.2.getD i none with | some y => engWrite s (seMaster n) (a + 8 + 8 * l + wd * i) wd y | none => s) o.1
/-- A line of a PORT destination: four samples land in the transmit buffer. -/
def portLine (s : State) (n w : Nat) (d : Wag) (l : Nat) : State :=
  let x := wagRun s n w
  (upto 4).foldl (fun s i =>
    let q := 4 * l + i
    if q < d.nch * d.bs then
      let o := outSample s n w d (q / d.bs) (q % d.bs)
      let f := nDst d x.block + q % d.bs
      let e : TxSample := { count := f, val := n32 o.2, landed := 256 * clkTime s d.mc % 2 ^ 64 }
      { o.1 with media := { o.1.media with tx := tput { count := 0, val := 0, landed := 0 } o.1.media.tx ((d.didx * 64 + f % 64) * 32 + (d.dch0 + q / d.bs)) e } }
    else s) s
/-- A line of a TALKER destination: 16 bytes of a packet in wire order, then the slot's header (R405). -/
def talkerLine (s : State) (n w : Nat) (d : Wag) (l : Nat) : State :=
  let x := wagRun s n w
  let t := d.didx
  let per := cdiv (ctxBytes s t) 16 + 1
  let f := nDst d x.block + l / per * ctxSpp s t
  let a := ctxSlotAddr s t f
  if l % per + 1 = per then
    engWrite s (seMaster n) a 8 (headerNum (mtOf s d.mc f) f (32768 + ctxBytes s t) (ctxOf s t).cepoch)
  else
    let bb := fmtBytes d.dfmt
    let first := l % per * 16 / bb
    let last := (l % per * 16 + 15) / bb
    let pl := (upto (last + 1 - first)).map (fun i =>
      let q := first + i
      let c := q % ctxNch s t
      if q < ctxSpp s t * ctxNch s t && d.dch0 ≤ c && c < d.dch0 + d.nch then some (c - d.dch0, l / per * ctxSpp s t + q / ctxNch s t) else none)
    let o := gather n w d pl s []
    engBytes o.1 (seMaster n) (a + 8 + l % per * 8)
      ((upto 16).map (fun j =>
        let y := l % per * 16 + j
        match o.2.getD (y / bb - first) none with
        | some v => some (fld v (8 * (bb - 1 - y % bb)) 8)
        | none => none))
/-- A sample goes to a channel of an ASRC stream, which keeps the 256 that the longest filter reaches (R377). -/
def asrcPush (s : State) (u c : Nat) (v : W32) : State :=
  let l := tget [] s.media.asrcIn (1024 * u + c) ++ [v]
  { s with media := { s.media with asrcIn := tput [] s.media.asrcIn (1024 * u + c) (l.drop (l.length - 256)) } }
/-- A line of an ASRC destination: samples that leave through the stream's filter. -/
def asrcLine (s : State) (n w : Nat) (d : Wag) (l : Nat) : State :=
  (upto 4).foldl (fun s i =>
    let q := 4 * l + i
    if q < d.nch * d.bs then (let o := outSample s n w d (q / d.bs) (q % d.bs); asrcPush o.1 d.didx (d.dch0 + q / d.bs) (n32 o.2)) else s) s
/-- A block is complete: counted, and the wagon goes to the next. -/
def wagDone (s : State) (n w : Nat) (d : Wag) : State :=
  let x := wagRun s n w
  let s := setReg s (seBlk n w) (reg s (seBlk n w) + 1)
  let s := if d.dstk = 4 then
      { s with media := { s.media with asrcLastIn := tput 0 s.media.asrcLastIn d.didx (s.now + 1)
                                       asrcInTo := tput 0 s.media.asrcInTo d.didx (wrapN 64 (mtEst s d.mc (nSrc d x.block + d.bs)) + 1) } }
    else s
  let y := if x.st = 2 then { x with decay := x.decay + d.bs, fade := 0 } else { x with decay := 0, fade := Nat.min 64 (x.fade + d.bs) }
  setWag s n w { y with block := x.block + 1, line := 0, st := 0, mutePos := if x.muted then Nat.min 64 (x.mutePos + d.bs) else 0 }
/-- The first line of a block takes the mute, or leaves it with a fade-in (R373). -/
def wagBegin (s : State) (n w : Nat) (d : Wag) : State :=
  let x := wagRun s n w
  if x.line ≠ 0 then s
  else if muteOn s && outEnd d && !x.muted then setWag s n w { x with muted := true, mutePos := 0 }
  else if !muteOn s && x.muted then setWag s n w { x with muted := false, mutePos := 0, fade := 0 }
  else s
/-- LINE_MOVE: the engine moves a line of the block due earliest, ties to the lower wagon (R368). -/
def lineMoveOp (s : State) (n : Nat) : State :=
  let cand := ((enWagons s).filter (fun e => e.1 = n)).filter (fun e => wagonRuns s n e.2 (wagOf s n e.2) && (wagRun s n e.2).st ≠ 0)
  match minBy (fun e => [(dueIn s (wagOf s n e.2) (wagRun s n e.2).block + 2 ^ 80).toNat, e.2]) cand with
  | none => s
  | some e =>
    let d := wagOf s n e.2
    let s := wagBegin s n e.2 d
    let l := (wagRun s n e.2).line
    let s := match d.dstk with
      | 0 => ringLine s n e.2 d l
      | 1 => portLine s n e.2 d l
      | 3 => talkerLine s n e.2 d l
      | _ => asrcLine s n e.2 d l
    let s := setWag s n e.2 { wagRun s n e.2 with line := l + 1 }
    if l + 1 ≥ wagLines s n d then wagDone s n e.2 d else s

/-! ## Stores to the SE_ block (R370, R387) -/

/-- The wagon was taken in by the admitted timetable. -/
def wagTaken (s : State) (n w : Nat) : Bool := s.carts.table.isSome && tget 0 s.media.taken (64 * n + w) = 1
/-- L0 sets DELAY of an ASRC stream that a listener context feeds from the context's presentation offset, in 1/4,096 output
sample (R375): as the wagon that feeds it is enabled, to the nearest unit (DESIGN CHOICE, log entry 93). -/
def listenerFeeds (s : State) (d : Wag) : State :=
  if d.srck = 3 && d.dstk = 4 then
    setReg s (asDelay (d.didx / 64) (d.didx % 64)) (n32 ((ctxPoff s d.sidx * clockHz s (regF s (asCtl (d.didx / 64) (d.didx % 64)) 29 2) * 4096 + 500000) / 1000000))
  else s
/-- Rights of an engine's regions: each enabled wagon reads its descriptors, map and sources; one that ends in a ring or a
talker's slots writes. -/
def engineBits (s : State) (n : Nat) : Nat :=
  let l := (enWagons s).filter (fun e => e.1 = n)
  regionBits (!l.isEmpty) (l.any (fun e => let d := wagOf s n e.2; d.dstk = 0 || d.dstk = 3))
/-- A store to register `i` of a wagon's descriptor. -/
def wagStore (s : State) (m n w i : Nat) (v : W32) : State :=
  let a := seDesc n w i
  let en := regB s (seDesc n w 0) 31
  let stat := seBase n
  if wagTaken s n w || !ownsClaim s (seClaim n w) m then conflict s a
  else if en then
    if i = 0 && !rbit v 31 then
      let t := setRegF (storePlain s m a v) stat 0 7 (regF s stat 0 7 - 1)
      grantRegions t (seMaster n) (engineBits t n)
    else conflict s a
  else if i = 0 && rbit v 31 then
    let p := storePlain s m a v
    let t := grantRegions p (seMaster n) (engineBits p n)
    if (n = 15 && s.media.xOn) || !(sysReserved s a v.toNat).isEmpty || !wagonOk t n w (wagOf t n w) then conflict s a
    else listenerFeeds (wagStart (setRegF t stat 0 7 (regF s stat 0 7 + 1)) n w) (wagOf t n w)
  else storePlain s m a v
/-- A store to a register of the SE_ block, its claim words apart. -/
def seStore (s : State) (m a : Nat) (v : W32) : State :=
  let n := a / 0x10000 % 16
  let o := a % 0x10000
  if 0x100 ≤ o && o < 0x500 then wagStore s m n ((o - 0x100) / 16) (o % 16 / 2) v else storePlain s m a v

/-- WAGON_ENABLE (R370). -/
def execWagonEnable (m n w : Nat) (v : W32) (s : State) : Host.Outcome State Fault Refusal :=
  act (Instr.wf (.wagonEnable m n w v)) (if rbit v 31 then wagStore s m n w 0 v else s)
/-- WAGON_DISABLE (R370). -/
def execWagonDisable (m n w : Nat) (v : W32) (s : State) : Host.Outcome State Fault Refusal :=
  act (Instr.wf (.wagonDisable m n w v)) (if regB s (seDesc n w 0) 31 && !rbit v 31 then wagStore s m n w 0 v else s)
/-- BLOCK_READY (R367). -/
def execBlockReady (n w : Nat) (s : State) : Host.Outcome State Fault Refusal := act (Instr.wf (.blockReady n w)) (blockReadyOp s n w)
/-- LINE_MOVE (R368). -/
def execLineMove (n : Nat) (s : State) : Host.Outcome State Fault Refusal := act (Instr.wf (.lineMove n)) (lineMoveOp s n)
/-- CONCEALMENT (R371). -/
def execConcealment (n w : Nat) (s : State) : Host.Outcome State Fault Refusal := act (Instr.wf (.concealment n w)) (concealOp s n w)

end Sys2Proof.Machine
end

