-- ==== Sys2Proof/Machine/Media.lean ====
section
/-! DEFINITION. Media clocks, TDM ports, PDM pairs, ASRC streams and the express path (R344 to R360, R374 to R384). -/
namespace Sys2Proof.Machine
open Sys2Proof.Config

/-! ## Ports: frames (R351 to R355) -/

def apMaster (s : State) (p : Nat) : Bool := regB s (apCtl p) 30
def apMc (s : State) (p : Nat) : Nat := regF s (apCtl p) 28 2
/-- Bits of a width code: 0 16, 1 24, 2 32. -/
def widthBits (c : Nat) : Nat := 16 + 8 * Nat.min c 2
/-- The top WORDW bits of a sample (R352). -/
def topBits (s : State) (p x : Nat) : Nat := let w := widthBits (regF s (apFmt p) 21 2); x / 2 ^ (32 - w) * 2 ^ (32 - w)
def setRx (s : State) (p n : Nat) (f : RxFrame) : State :=
  { s with media := { s.media with rx := tput { count := 0, absent := false, slots := [] } s.media.rx (p * 64 + n % 64) f } }
def markAbsent (s : State) (p n : Nat) : State := setRx s p n { count := n, absent := true, slots := [] }
def begunOf (s : State) (p : Nat) : List Nat := tget [] s.media.begun p
def setBegun (s : State) (p : Nat) (l : List Nat) : State := { s with media := { s.media with begun := tput [] s.media.begun p l } }
def setOut (s : State) (p slot : Nat) (v : W32) : State := { s with media := { s.media with out := tput 0 s.media.out (p * 32 + slot) v } }
def clearOut (s : State) (p : Nat) : State := { s with media := { s.media with out := tclear s.media.out (p * 32) (p * 32 + 32) } }
def exOutPort (s : State) (p : Nat) : Bool := s.media.xOn && valN s 0x6140 3 0xFF = p
def exInPort (s : State) (p : Nat) : Bool := s.media.xOn && valN s 0x6140 1 0xFF = p
/-- A running wagon feeds a slot of a port. -/
def slotFed (s : State) (p slot : Nat) : Bool :=
  (enWagons s).any (fun e => let d := wagOf s e.1 e.2; d.dstk = 1 && d.didx = p && decide (d.dch0 ≤ slot) && decide (slot < d.dch0 + d.nch) && wagonRuns s e.1 e.2 d)
/-- Slot of frame `n` as it is transmitted: the sample that landed by MT(n) − 200 ns, else 0 and whether it counts in
UNDER (R354). -/
def txSlot (s : State) (p n slot : Nat) : Nat × Bool :=
  let e := tget { count := 0, val := 0, landed := 0 } s.media.tx ((p * 64 + n % 64) * 32 + slot)
  let ok := e.count = n && decide (0 ≤ stampDiff (mtOf s (apMc s p) n) (e.landed + 51200))
  if slotFed s p slot then (if ok then (topBits s p e.val.toNat, false) else (0, true)) else (0, false)
/-- A frame begins: numbered, and its slots transmitted (R353, R354). -/
def beginFrame (s : State) (p n : Nat) : State :=
  let s := setRegB s (apStat p) 31 true
  let s := setBegun s p ((begunOf s p ++ [n]).drop ((begunOf s p).length - 1))
  let s := { s with media := { s.media with lastSync := tput 0 s.media.lastSync p (n + 1) } }
  let slots := (upto (apSlots s p)).filter (fun i => regB s (apTxen p) i)
  if exOutPort s p then
    if n % 2 = 0 then s
    else slots.foldl (fun s i =>
      let e := tget { count := 0, val := 0, landed := 0 } s.media.tx ((p * 64 + n % 64) * 32 + i)
      setOut s p i (n32 (if e.count = n then topBits s p e.val.toNat else 0))) s
  else
    let und := (slots.filter (fun i => (txSlot s p n i).2)).length
    let t := slots.foldl (fun t i => setOut t p i (n32 (txSlot s p n i).1)) s
    if und = 0 then t else pulse (setRegF t (apStat p) 12 12 (Nat.min 4095 (regF t (apStat p) 12 12 + und))) (832 + 2 * p)
/-- The clock of a port may have edge `count` nearest to an FS at this instant, and `far` from it by more than a quarter of
a sample period: the last edge, or the next, which comes within the limits of R347; the count alone before its first
edge (DEDUCED, log entry 60). Times by 10^-3 of the clock's rate. -/
def syncFits (s : State) (k : Nat) (far : Bool) (count : Nat) : Bool :=
  let c := clk s k
  if c.edge = 0 then count = (if c.armed then c.count else (c.count + 1) % 2 ^ 64)
  else
    let e := (s.now + 1 - c.edge) * 999 * 1001 * clockHz s k   -- since the last edge
    let long := 1001 * 10 ^ 12                                 -- the longest and the shortest period
    let short := 999 * 10 ^ 12
    let quarter := 999 * 1001 * 10 ^ 9 / 4
    if count = c.count then decide (2 * e ≤ long) && (far == decide (e > quarter))
    else count = (c.count + 1) % 2 ^ 64 && decide (short ≤ 2 * e) && (if far then decide (e + quarter < long) else decide (short ≤ e + quarter))
/-- FRAME_SYNC: a slave port numbers the frame that FS begins (R353): `count` is the nearest edge of its clock, `far` says
that FS lies more than a quarter of a sample period from every edge. After a slip the frame takes the next unused edge,
and what it skips is absent, as far as the buffer holds it. -/
def frameSyncOp (s : State) (p : Nat) (far : Bool) (count : Nat) : State :=
  if !(apOn s p) || apMaster s p || regB s (apStat p) 30 || mcState s (apMc s p) = 0 || !(syncFits s (apMc s p) far count) then s
  else
    let last := tget 0 s.media.lastSync p
    let used := last ≠ 0 && decide (count < last)
    let slip := far || used
    let n := if slip then Nat.max count (last - 1) + 1 else count
    let from_ := if last = 0 then count else Nat.max last (n - 64)
    let s := if slip then pulse (setRegF s (apStat p) 0 12 (incSat 12 (regF s (apStat p) 0 12))) (832 + 2 * p) else s
    beginFrame ((upto (n - from_)).foldl (fun s i => markAbsent s p (from_ + i)) s) p n
/-- FRAME_CAPTURED: the oldest frame begun is complete and its samples stand in the receive buffer (R354). -/
def capturedOp (s : State) (p : Nat) (samples : List W32) : State :=
  match begunOf s p with
  | n :: r =>
    if apOn s p then
      let f : RxFrame := { count := n, absent := false, slots := (upto (apSlots s p)).map (fun i => if regB s (apRxen p) i then n32 (topBits s p (samples.getD i 0).toNat) else 0) }
      let t := setRx (setBegun s p r) p n f
      { t with media := { t.media with lastCap := tput 0 t.media.lastCap p (n + 1) } }
    else s
  | [] => s
/-- NOCLK: a slave port has seen no BCLK edge for 4 frame periods (R355). -/
def noclkOp (s : State) (p : Nat) : State :=
  if apOn s p && !apMaster s p && !regB s (apStat p) 30 then
    setLevel (setRegB (setRegB (clearOut (setBegun s p []) p) (apStat p) 30 true) (apStat p) 31 false) (833 + 2 * p) true
  else s
/-- BCLK_RETURN: the first complete frame after BCLK returns (R355). -/
def bclkOp (s : State) (p : Nat) : State :=
  if regB s (apStat p) 30 then setLevel (setRegB s (apStat p) 30 false) (833 + 2 * p) false else s

/-! ## Media clocks (R344 to R349) -/

/-- Fabric cycles since the clock's last edge; none before the first. -/
def sinceEdge (s : State) (k : Nat) : Option Nat := if (clk s k).edge = 0 then none else some (s.now + 1 - (clk s k).edge)
/-- No two edges are closer together than 1 / (1.001 × f_nom) (R347), in whole fabric cycles. -/
def edgeTooSoon (s : State) (k : Nat) : Bool :=
  match sinceEdge s k with | some d => decide (d < 10 ^ 12 / (1001 * clockHz s k)) | none => false
/-- The clock follows its reference at the limit of R347 (DEDUCED, log entry 60: the interval of the edge lies at the limit). -/
def edgeClamped (s : State) (k : Nat) : Bool :=
  match sinceEdge s k with
  | some d => mcSrc s k ≠ 0 && (mcState s k = 1 || mcState s k = 2) && (decide (d ≤ 10 ^ 12 / (1001 * clockHz s k)) || decide (d ≥ cdiv (10 ^ 12) (999 * clockHz s k)))
  | none => false
/-- Ports of a clock at its edge `n`: a master begins a frame; a slave without BCLK marks it absent. -/
def portEdge (s : State) (k n p : Nat) : State :=
  if !(apOn s p) || apMc s p ≠ k then s
  else if apMaster s p then beginFrame s p n
  else if regB s (apStat p) 30 then markAbsent s p n else s
/-- SAMPLE_EDGE: the clock produces an edge (R344, R347, R348); ports begin frames and MEDIA carts are released. -/
def edgeOp (s : State) (k : Nat) : State :=
  if mcState s k = 0 || edgeTooSoon s k then s
  else
    let c := clk s k
    let n := if c.armed then c.count else (c.count + 1) % 2 ^ 64
    let mt := if onGrid s k then gridMt (clockHz s k) n % 2 ^ 64 else (256 * clkTime s k + (edgeFraction k n).toNat) % 2 ^ 64
    let s := setClamp s k (edgeClamped s k)
    let s := setClk s k { c with count := n, mt := mt, edge := s.now + 1, armed := false }
    let s := { s with media := { s.media with edges := tput { count := 0, mt := 0 } s.media.edges (4096 * k + n % 4096) { count := n, mt := mt } } }
    let s := (upto s.variant.tdmPorts).foldl (fun s p => portEdge s k n p) s
    mediaRelease s k n
/-- Seconds × 10^9 of 4 / BW (R346). -/
def lockTime (s : State) (k : Nat) : Nat := match regF s (mcCtl k) 23 2 with | 0 => 40 * 10 ^ 9 | 1 => 4 * 10 ^ 9 | _ => 4 * 10 ^ 8
/-- REFERENCE_LOST: a clock that follows a reference holds over (R346). -/
def refLost (s : State) (k : Nat) : State :=
  if mcSrc s k ≠ 0 && (mcState s k = 1 || mcState s k = 2) then
    setClamp (setMcState (setRegF s (mcStat k) 0 16 (incSat 16 (regF s (mcStat k) 0 16))) k 3) k false
  else s
/-- REFERENCE_RETURN. -/
def refReturn (s : State) (k : Nat) : State :=
  if mcState s k = 3 then setMcState (setClk s k { clk s k with steadySince := s.now }) k 1 else s
/-- LOCK_ACHIEVED: in ACQUIRE the phase error has stayed below 100 ns for 4/BW seconds (R346). -/
def lockOp (s : State) (k : Nat) : State :=
  if mcState s k = 1 && decide ((clk s k).steadySince + lockTime s k ≤ s.now) then setMcState s k 2 else s
/-- Pins a CLK_MCCTL value names: 0 WCK_IO_0, 1 WCK_IO_1 (R349). -/
def mcPins (v : W32) : List Nat :=
  (if rfld v 28 3 = 3 then [0] else if rfld v 28 3 = 4 then [1] else []) ++ (if rfld v 21 2 = 1 then [0] else if rfld v 21 2 = 2 then [1] else [])
/-- A pin of the value is used already, in both directions at once, or claimed by another master. -/
def mcPinBad (s : State) (m k : Nat) (v : W32) : Bool :=
  (mcPins v).any (fun p => pinBarred s p m || (upto 4).any (fun j => j ≠ k && mcOn s j && (mcPins (reg s (mcCtl j))).contains p)) ||
  (match mcPins v with | [a, b] => a = b | _ => false)
/-- The clock is named by an enabled port, PDM pair, wagon or ASRC stream, or by an admitted cart (R349). -/
def mcNamed (s : State) (k : Nat) : Bool :=
  (upto s.variant.tdmPorts).any (fun p => apOn s p && apMc s p = k) || (upto 8).any (fun i => pdmOn s i && regF s (pdmCtl i) 29 2 = k) ||
  (enWagons s).any (fun e => (wagOf s e.1 e.2).mc = k) || (upto 256).any (fun u => asOn s u && regF s (asCtl (u / 64) (u % 64)) 29 2 = k) ||
  (match s.carts.table with | some t => t.carts.any (fun c => c.rsrc = 4 + k) | none => false)
/-- Count of the next edge on the grid of a gPTP domain (R348). -/
def gridNext (s : State) (k : Nat) : Nat := clkTime s k * clockHz s k / 10 ^ 9 + 1
/-- A clock starts: its count, and ACQUIRE, or LOCKED for a free-running clock (R346, R348). -/
def mcStart (s : State) (k : Nat) : State :=
  let g := mcSrc s k = 1 || mcSrc s k = 2
  let s := setClk s k { count := if g then gridNext s k else 0, mt := 256 * clkTime s k % 2 ^ 64, edge := 0, armed := g, steadySince := s.now }
  let s := setRegF s (mcStat k) 0 16 0
  let s := (tkeys s.net.ctx 1024 2048).foldl (fun s x =>
    if ctxEn s x && ctxMc s x = k then setCtx s x { ctxOf s x with mr := !(ctxOf s x).mr, nextN := firstCount s x } else s) s
  let s := (upto 64).foldl (fun s j =>
    if 4 ≤ regF s (tmCtl j) 29 3 && regF s (tmCtl j) 29 3 - 4 = k then { s with timers := { s.timers with base := tput 0 s.timers.base j ((clk s k).count - b2n (clk s k).armed) } } else s) s
  setMcState s k (if mcSrc s k = 0 then 2 else 1)
/-- A store to CLK_MCCTL_k (R349). -/
def mcStore (s : State) (m k : Nat) (v : W32) : State :=
  let a := mcCtl k
  let old := reg s a
  if !ownsClaim s (mcClaim k) m then conflict s a
  else if rbit old 31 then
    if ((old ^^^ v) &&& 0x7FFF07FF) ≠ 0 then conflict s a
    else if rbit v 31 then s
    else if mcNamed s k then conflict s a
    else setClamp (setMcState (storePlain s m a v) k 0) k false
  else
    let t := storePlain s m a v
    if mcPinBad s m k (reg t a) then conflict s a
    else if rbit (reg t a) 31 then mcStart t k else t

/-! ## Stores to port registers (R352, R356) -/

/-- An enabled wagon or the express path names a port. -/
def apNamed (s : State) (p : Nat) : Bool :=
  exInPort s p || exOutPort s p ||
  (enWagons s).any (fun e => let d := wagOf s e.1 e.2; (d.srck = 1 && d.sidx = p) || (d.dstk = 1 && d.didx = p))
/-- A store to AP_CTL. -/
def apCtlStore (s : State) (m p : Nat) (v : W32) : State :=
  let a := apCtl p
  let old := reg s a
  if !ownsClaim s (apClaim p) m then conflict s a
  else if rbit old 31 then
    if ((old ^^^ v) &&& 0x70000000) ≠ 0 then conflict s a
    else if rbit v 31 then s
    else if apNamed s p then conflict s a
    else
      let t := clearOut (setBegun (storePlain s m a v) p []) p
      let t := { t with media := { t.media with lastSync := tput 0 t.media.lastSync p 0 } }
      setLevel (setRegF t (apStat p) 30 2 0) (833 + 2 * p) false
  else if rbit v 31 && !domOn s (132 + p / 4) then conflict s a
  else storePlain s m a v
/-- The limits of R351 and R352 on a format, with the port's media clock. -/
def fmtLimits (s : State) (p : Nat) (v : W32) : Bool :=
  let slots := rfld v 25 5 + 1
  let sw := widthBits (rfld v 23 2)
  (if rfld v 30 2 = 0 then slots = 2 && rbit v 20 else decide (slots ≥ 8)) && decide (rfld v 21 2 ≤ rfld v 23 2) &&
  decide (slots * sw * clockHz s (apMc s p) ≤ 49152000)
/-- A store to AP_FMT is applied, or refused whole. -/
def apFmtStore (s : State) (m p : Nat) (v : W32) : State :=
  let a := apFmt p
  let t := storePlain s m a v
  if !ownsClaim s (apClaim p) m then conflict s a
  else if regB s (apCtl p) 31 then (if reg t a = reg s a then s else conflict s a)
  else if !fmtLimits s p (reg t a) then conflict s a else t
/-- A store to AP_RXEN or AP_TXEN. -/
def apEnStore (s : State) (m p a : Nat) (v : W32) : State :=
  if ownsClaim s (apClaim p) m && regB s (apCtl p) 31 then (if v = reg s a then s else conflict s a) else storePlain s m a v
/-- A store to a register of a TDM port, its claim word apart. -/
def apStore (s : State) (m a : Nat) (v : W32) : State :=
  let p := a / 0x10000 % 256 - 0x40
  match a % 0x10000 with
  | 0 => apCtlStore s m p v
  | 2 => apFmtStore s m p v
  | 4 => apEnStore s m p a v
  | 6 => apEnStore s m p a v
  | _ => storePlain s m a v

/-! ## PDM pairs (R358) -/

/-- A store to AP_PDM_CTL_i. -/
def pdmStore (s : State) (m i : Nat) (v : W32) : State :=
  let a := pdmCtl i
  let old := reg s a
  let hz := clockHz s (rfld v 29 2)
  let set := if rbit v 28 then decide (hz ≤ 48000) else decide (hz ≤ 96000)
  if !ownsClaim s (pdmClaim i) m || !set then conflict s a
  else if rbit old 31 && ((old ^^^ v) &&& 0x70000000) ≠ 0 then conflict s a
  else
    let t := setRegB (storePlain s m a v) pdmStat i (rbit v 31)
    if rbit v 31 && !rbit old 31 then { t with media := { t.media with pdmGen := tput 0 t.media.pdmGen i (t.now + 1) } } else t
/-- A store to a register of the PDM block, its claim words apart. -/
def pdmRegStore (s : State) (m a : Nat) (v : W32) : State := if a % 0x10000 < 0x10 then pdmStore s m (a % 0x10000 / 2) v else storePlain s m a v

/-! ## ASRC streams (R374 to R379) -/

def asHzIn (s : State) (u : Nat) : Nat := rateHz (regF s (asCtl (u / 64) (u % 64)) 26 3)
def asMc (s : State) (u : Nat) : Nat := regF s (asCtl (u / 64) (u % 64)) 29 2
def asHzOut (s : State) (u : Nat) : Nat := clockHz s (asMc s u)
def asTaps (s : State) (u : Nat) : Nat := 16 * 2 ^ regF s (asCtl (u / 64) (u % 64)) 24 2
def asCh0 (s : State) (u : Nat) : Nat := regF s (asCtl (u / 64) (u % 64)) 10 10
/-- The ratio and the channel slots allow the stream, and it overlaps no enabled stream if it is enabled itself (R374). -/
def asFits (s : State) (u : Nat) : Bool :=
  decide (asHzIn s u ≤ 4 * asHzOut s u) && decide (asHzOut s u ≤ 4 * asHzIn s u) && decide (asCh0 s u + asNch s u ≤ 1024) &&
  (upto 64).all (fun j => j = u % 64 || !asOn s u || !asOn s (u / 64 * 64 + j) || !overlaps (asCh0 s (u / 64 * 64 + j)) (asNch s (u / 64 * 64 + j)) (asCh0 s u) (asCh0 s u + asNch s u))
/-- LOCKED takes a level, which the stream's source follows. -/
def setAsLocked (s : State) (u : Nat) (b : Bool) : State := setLevel (setRegB s (asStat (u / 64) (u % 64)) 31 b) (576 + u) b
/-- A store to ASRC_SCTL (R374, R379). -/
def asCtlStore (s : State) (m u : Nat) (v : W32) : State :=
  let a := asCtl (u / 64) (u % 64)
  if !ownsClaim s (asClaim (u / 64) (u % 64)) m then conflict s a
  else if regB s a 31 then
    if rbit v 31 then conflict s a
    else
      let t := setAsLocked (storePlain s m a v) u false
      { t with media := { t.media with asrcOut := tput 0 t.media.asrcOut u 0 } }
  else
    let t := storePlain s m a v
    if !asFits t u then conflict s a
    else if rbit v 31 then
      { t with media := { t.media with asrcGen := tput 0 t.media.asrcGen u (t.now + 1), asrcSteady := tput 0 t.media.asrcSteady u (t.now + 1), asrcOut := tput 0 t.media.asrcOut u 0, asrcLastIn := tput 0 t.media.asrcLastIn u 0,
                                       asrcInTo := tput 0 t.media.asrcInTo u 0, asrcIn := tclear t.media.asrcIn (1024 * u) (1024 * u + 1024),
                                       asrcWin := tclear t.media.asrcWin (1024 * u) (1024 * u + 1024), asrcDelay := tput 0 t.media.asrcDelay u (reg t (asDelay (u / 64) (u % 64))) } }
    else t
/-- A store to ASRC_SDELAY: at most 10 ms (R375). -/
def asDelayStore (s : State) (m u : Nat) (v : W32) : State :=
  let a := asDelay (u / 64) (u % 64)
  if ownsClaim s (asClaim (u / 64) (u % 64)) m && decide (v.toNat * 100 > 4096 * asHzOut s u) then conflict s a else storePlain s m a v
/-- A store to a register of the ASRC_ block, its claim words apart. -/
def asStore (s : State) (m a : Nat) (v : W32) : State :=
  let o := a % 0x10000
  let u := (a / 0x10000 % 256 - 0x30) * 64 + o / 8
  if o ≥ 0x200 then storePlain s m a v
  else match o % 8 with
    | 0 => asCtlStore s m u v
    | 2 => asDelayStore s m u v
    | 4 => if regB s (asCtl (u / 64) (u % 64)) 31 then conflict s a else storePlain s m a v
    | _ => storePlain s m a v
/-- ASRC_OUTPUT_BLOCK: the input has reached what the next block of the stream's reader needs; the delay in force is
taken anew (R375, R377, R378). -/
def asBlockOp (s : State) (u : Nat) : State :=
  match asReader s u with
  | none => s
  | some e =>
    let d := wagOf s e.1 e.2
    let n := Nat.max (tget 0 s.media.asrcOut u) (nSrc d (wagRun s e.1 e.2).block)
    let fo := asHzOut s u
    let fi := asHzIn s u
    let delay := reg s (asDelay (u / 64) (u % 64))
    -- look-ahead in input samples: TAPS / 2, or TAPS / (2r) below r = 1 (R377), as 1/256 ns
    let la : Nat := if fo ≥ fi then asTaps s u * 128000000000 / fi else asTaps s u * 128000000000 / fo
    let need : Int := mtEst s (asMc s u) ((n + d.bs - 1 : Nat) : Int) - ((delay.toNat * 62500000 / fo : Nat) : Int) + (la : Int)
    if asOn s u && tget 0 s.media.asrcInTo u ≠ 0 && decide (0 ≤ stampDiff ((tget 0 s.media.asrcInTo u - 1 : Nat) : Int) need) then
      { s with media := { s.media with asrcOut := tput 0 s.media.asrcOut u (n + d.bs), asrcDelay := tput 0 s.media.asrcDelay u delay,
                                       asrcWin := (upto (asNch s u)).foldl (fun w c => tput [] w (1024 * u + c) (tget [] s.media.asrcIn (1024 * u + c))) s.media.asrcWin } }
    else s
/-- ASRC_LOCK: the ratio lies within the limits of R376, and the residual has stayed below its own for 1 s. -/
def asLockOp (s : State) (u : Nat) (ratio : W32) : State :=
  let lhs := ratio.toNat * asHzIn s u
  let rhs := 2 ^ 29 * asHzOut s u
  if asOn s u && !asLocked s u && decide (tget 0 s.media.asrcSteady u + 10 ^ 9 ≤ s.now + 1) && decide (1000 * lhs ≤ 1001 * rhs) && decide (999 * rhs ≤ 1000 * lhs) then
    setAsLocked (setReg s (asRatio (u / 64) (u % 64)) ratio) u true
  else s
/-- ASRC_UNLOCK (R376). -/
def asUnlockOp (s : State) (u : Nat) : State :=
  if asOn s u && asLocked s u then
    let a := asStat (u / 64) (u % 64)
    let t := { s with media := { s.media with asrcSteady := tput 0 s.media.asrcSteady u (s.now + 1) } }
    setAsLocked (setRegF t a 0 16 (incSat 16 (regF t a 0 16))) u false
  else s

/-! ## The express path (R380 to R384) -/

/-- Express channels of a mask, in slot order. -/
def exSlots (s : State) (sub : Nat) : List Nat := let m := valN s 0x6140 sub 0; (upto 32).filter (fun i => bitN m i)
def exCoach (s : State) : Nat := valN s 0x6140 5 0xFF
def exAddr (s : State) (out : Bool) (c j : Nat) : Nat := 0x03000000 + exCoach s * 0x20000 + (if out then 0x1840 else 0x1800) + 4 * c + 2 * j
/-- EXPRESS_INPUT_PAIR: frames n and n + 1 are complete; engine 15 writes EXIN and the dispatcher releases the express
cart (R381, R382). A pair with an absent frame releases nothing, and its output conceals (DESIGN CHOICE, log entry 37). -/
def exInOp (s : State) : State :=
  let p := valN s 0x6140 1 0xFF
  let last := tget 0 s.media.lastCap p
  let n := last - 2
  if !s.media.xOn || last < 2 || n % 2 ≠ 0 || n < s.media.xPair then s
  else match rxAt s p n, rxAt s p (n + 1) with
    | some f, some g =>
      if f.absent || g.absent then { s with media := { s.media with xPair := n + 2, xOwed := some n } }
      else
        let s := ((exSlots s 2).zip (upto 16)).foldl (fun s e =>
          engWrite (engWrite s 95 (exAddr s false e.2 0) 2 (f.slots.getD e.1 0).toNat) 95 (exAddr s false e.2 1) 2 (g.slots.getD e.1 0).toNat) s
        let v := valN s 0x6140 6 0xFFFF
        let s := { s with media := { s.media with xPair := n + 2, xOwed := some n } }
        if releasing s then releaseCart s v (n / 2) (ticks s) false else s
    | _, _ => s
/-- EXPRESS_OUTPUT: engine 15 reads EXOUT and loads the serialiser for frames n + 2 and n + 3, or decays (R383, R384). -/
def exOutOp (s : State) : State :=
  match s.media.xOwed with
  | none => s
  | some n =>
    if !s.media.xOn then s
    else
      let v := valN s 0x6140 6 0xFFFF
      let good := jobReport s v (n / 2) = some false
      let p := valN s 0x6140 3 0xFF
      let put (s : State) (slot f : Nat) (x : Nat) : State :=
        { s with media := { s.media with tx := tput { count := 0, val := 0, landed := 0 } s.media.tx ((p * 64 + f % 64) * 32 + slot) { count := f, val := n32 x, landed := 0 } } }
      let s := ((exSlots s 4).zip (upto 16)).foldl (fun s e =>
        let h := (tget 0 s.media.xLast e.2).toNat
        let a := engRead s 95 (exAddr s true e.2 0) 2
        let b := engRead a.1 95 (exAddr s true e.2 1) 2
        let x := if good then fadeAt false a.2 s.media.xFade else decayAt false h s.media.xDecay
        let y := if good then fadeAt false b.2 (s.media.xFade + 1) else decayAt false h (s.media.xDecay + 1)
        let s := if good then { b.1 with media := { b.1.media with xLast := tput 0 b.1.media.xLast e.2 (n32 y) } } else s
        let s := put (put s e.1 (n + 2) x) e.1 (n + 3) y
        setOut s p e.1 (n32 (topBits s p x))) s
      let md := s.media
      if good then { s with media := { md with xOwed := none, xDecay := 0, xFade := Nat.min 64 (md.xFade + 2) } }
      else pulse { s with media := { md with xOwed := none, xDecay := Nat.min 64 (md.xDecay + 2), xFade := 0, xConcealed := md.xConcealed + 1 } } 575

/-! ## Reads of the 4-word counters (R350) -/

/-- A read of the low half of a 4-word register latches the high half for the reading master. -/
def latchRead (s : State) (m a x : Nat) : State × W32 := (setPerM s (a + 2) m (n32 (x / 2 ^ 32)), n32 x)
/-- What a load of CLK_MCSC_k returns, by half. -/
def mcscLoad (s : State) (m a : Nat) : State × W32 :=
  if a % 16 = 4 then latchRead s m a (clk s ((a - mcSc 0) / 16)).count else (s, perM s a m)
/-- What a load of PTP_DTIME_d returns, by half. -/
def dtimeLoad (s : State) (m a : Nat) : State × W32 :=
  let d := (a - ptpDctl 0) / 16
  if a % 16 = 4 then latchRead s m a (if regF s (ptpDstat d) 30 2 = 0 then 0 else domTime s d) else (s, perM s a m)
/-- What a load of ETH_GBASE returns, by half. -/
def gbaseLoad (s : State) (m a : Nat) : State × W32 :=
  if a % 16 = 4 then latchRead s m a ((reg s a).toNat + 2 ^ 32 * (reg s (a + 2)).toNat) else (s, perM s a m)
/-- The register at an address is a half of a 4-word counter; what a load of it returns. -/
def counterLoad (s : State) (m a : Nat) : Option (State × W32) :=
  let b := a / 0x10000
  let o := a % 0x10000
  if b = 0x0410 && 0x1000 ≤ o && o < 0x1040 && (o % 16 = 4 || o % 16 = 6) then some (mcscLoad s m a)
  else if b = 0x0414 && 0x10 ≤ o && o < 0x30 && (o % 16 = 4 || o % 16 = 6) then some (dtimeLoad s m a)
  else if 0x0470 ≤ b && b < 0x0476 && ethPresent s.variant (b - 0x470) && (o = 0x24 || o = 0x26) then some (gbaseLoad s m a)
  else none
/-- COUNT_LATCH_READ: the read of a low half; what it returns stands in `answer`. -/
def latchOp (s : State) (m a : Nat) : State :=
  if a % 16 ≠ 4 then s else
  match counterLoad s m a with
  | some r => { r.1 with answer := r.2 }
  | none => s

/-- SAMPLE_EDGE (R344). -/
def execSampleEdge (k : Nat) (s : State) : Host.Outcome State Fault Refusal := act (Instr.wf (.sampleEdge k)) (edgeOp s k)
/-- MEDIA_CLOCK_ENABLE (R348). -/
def execMediaClockEnable (m k : Nat) (v : W32) (s : State) : Host.Outcome State Fault Refusal :=
  act (Instr.wf (.mediaClockEnable m k v)) (if rbit v 31 then mcStore s m k v else s)
/-- MEDIA_CLOCK_DISABLE (R349). -/
def execMediaClockDisable (m k : Nat) (v : W32) (s : State) : Host.Outcome State Fault Refusal :=
  act (Instr.wf (.mediaClockDisable m k v)) (if mcOn s k && !rbit v 31 then mcStore s m k v else s)
/-- REFERENCE_LOST (R346). -/
def execReferenceLost (k : Nat) (s : State) : Host.Outcome State Fault Refusal := act (Instr.wf (.referenceLost k)) (refLost s k)
/-- REFERENCE_RETURN (R346). -/
def execReferenceReturn (k : Nat) (s : State) : Host.Outcome State Fault Refusal := act (Instr.wf (.referenceReturn k)) (refReturn s k)
/-- LOCK_ACHIEVED (R346). -/
def execLockAchieved (k : Nat) (s : State) : Host.Outcome State Fault Refusal := act (Instr.wf (.lockAchieved k)) (lockOp s k)
/-- COUNT_LATCH_READ (R350). -/
def execCountLatchRead (m addr : Nat) (s : State) : Host.Outcome State Fault Refusal := act (Instr.wf (.countLatchRead m addr)) (latchOp s m addr)
/-- FRAME_SYNC (R353). -/
def execFrameSync (p : Nat) (far : Bool) (count : Nat) (s : State) : Host.Outcome State Fault Refusal :=
  act (Instr.wf (.frameSync p far count)) (frameSyncOp s p far count)
/-- FRAME_CAPTURED (R354). -/
def execFrameCaptured (p : Nat) (samples : List W32) (s : State) : Host.Outcome State Fault Refusal :=
  act (Instr.wf (.frameCaptured p samples)) (capturedOp s p samples)
/-- NOCLK (R355). -/
def execNoclk (p : Nat) (s : State) : Host.Outcome State Fault Refusal := act (Instr.wf (.noclk p)) (noclkOp s p)
/-- BCLK_RETURN (R355). -/
def execBclkReturn (p : Nat) (s : State) : Host.Outcome State Fault Refusal := act (Instr.wf (.bclkReturn p)) (bclkOp s p)
/-- PORT_ENABLE (R356). -/
def execPortEnable (m p : Nat) (v : W32) (s : State) : Host.Outcome State Fault Refusal :=
  act (Instr.wf (.portEnable m p v)) (if rbit v 31 && decide (p < s.variant.tdmPorts) then apCtlStore s m p v else s)
/-- PORT_DISABLE (R356). -/
def execPortDisable (m p : Nat) (v : W32) (s : State) : Host.Outcome State Fault Refusal :=
  act (Instr.wf (.portDisable m p v)) (if apOn s p && !rbit v 31 then apCtlStore s m p v else s)
/-- FORMAT_STORE (R352). -/
def execFormatStore (m p : Nat) (v : W32) (s : State) : Host.Outcome State Fault Refusal :=
  act (Instr.wf (.formatStore m p v)) (if p < s.variant.tdmPorts then apFmtStore s m p v else s)
/-- PDM_CONTROL_STORE (R358). -/
def execPdmControlStore (m i : Nat) (v : W32) (s : State) : Host.Outcome State Fault Refusal := act (Instr.wf (.pdmControlStore m i v)) (pdmStore s m i v)
/-- ASRC_STREAM_ENABLE (R374). -/
def execAsrcStreamEnable (m n t : Nat) (v : W32) (s : State) : Host.Outcome State Fault Refusal :=
  act (Instr.wf (.asrcStreamEnable m n t v)) (if rbit v 31 && decide (n < s.variant.asrcEngines) then asCtlStore s m (64 * n + t) v else s)
/-- ASRC_STREAM_DISABLE (R379). -/
def execAsrcStreamDisable (m n t : Nat) (v : W32) (s : State) : Host.Outcome State Fault Refusal :=
  act (Instr.wf (.asrcStreamDisable m n t v)) (if asOn s (64 * n + t) && !rbit v 31 then asCtlStore s m (64 * n + t) v else s)
/-- ASRC_DELAY_STORE (R375). -/
def execAsrcDelayStore (m n t : Nat) (v : W32) (s : State) : Host.Outcome State Fault Refusal :=
  act (Instr.wf (.asrcDelayStore m n t v)) (if n < s.variant.asrcEngines then asDelayStore s m (64 * n + t) v else s)
/-- ASRC_OUTPUT_BLOCK (R378). -/
def execAsrcOutputBlock (n t : Nat) (s : State) : Host.Outcome State Fault Refusal := act (Instr.wf (.asrcOutputBlock n t)) (asBlockOp s (64 * n + t))
/-- ASRC_LOCK (R376). -/
def execAsrcLock (n t : Nat) (ratio : W32) (s : State) : Host.Outcome State Fault Refusal := act (Instr.wf (.asrcLock n t ratio)) (asLockOp s (64 * n + t) ratio)
/-- ASRC_UNLOCK (R376). -/
def execAsrcUnlock (n t : Nat) (s : State) : Host.Outcome State Fault Refusal := act (Instr.wf (.asrcUnlock n t)) (asUnlockOp s (64 * n + t))
/-- EXPRESS_INPUT_PAIR (R382). -/
def execExpressInputPair (s : State) : Host.Outcome State Fault Refusal := act (Instr.wf .expressInputPair) (exInOp s)
/-- EXPRESS_OUTPUT (R383). -/
def execExpressOutput (s : State) : Host.Outcome State Fault Refusal := act (Instr.wf .expressOutput) (exOutOp s)

end Sys2Proof.Machine
end

