-- ==== Sys2Proof/Machine/NetQ.lean ====
section
/-! DEFINITION. Ethernet ports: counters, the transmit queues, the credit-based shaper and the time-aware gates (R391,
R399 to R402). -/
namespace Sys2Proof.Machine
open Sys2Proof.Config

/-! ## Ports -/

/-- The port runs: present, enabled, its domain on. -/
def ethOn (s : State) (e : Nat) : Bool := ethPresent s.variant e && regB s (ethBase e) 31 && domOn s (126 + e)
def ethLink (s : State) (e : Nat) : Bool := regB s (ethStat e) 31
/-- Line rate in kbit/s (R389). -/
def ethKbit (s : State) (e : Nat) : Nat := if e < 4 then 10000000 else if regB s (ethBase e) 27 then 100000 else 1000000
/-- ETH_CNT_k counts, wrapping. -/
def ethCount (s : State) (e k : Nat) : State := setReg s (ethCnt e k) (reg s (ethCnt e k) + 1)
/-- A frame dropped as queue full, DOWN or TOOBIG counts and pulses (R419). -/
def ethDrop (s : State) (e k : Nat) : State := pulse (ethCount s e k) (913 + 4 * e)
/-- ns that a frame takes on the line. -/
def lineTime (s : State) (e : Nat) (f : TxFrame) : Nat := cdiv (f.length * 8000000) (ethKbit s e)

/-! ## Transmit queues -/

def qKey (e q : Nat) : Nat := 8 * e + q
def queueAt (s : State) (e q : Nat) : List TxFrame := tget [] s.net.queues (qKey e q)
def setQueueAt (s : State) (e q : Nat) (l : List TxFrame) : State := { s with net := { s.net with queues := tput [] s.net.queues (qKey e q) l } }
def qavOf (e q : Nat) : Nat := ethBase e + 0x10 + 2 * q
def shaped (s : State) (e q : Nat) : Bool := regB s (qavOf e q) 31
def slopeOf (s : State) (e q : Nat) : Nat := regF s (qavOf e q) 0 31
/-- Bytes of a frame on the line: what it carries above Ethernet, and 42 (R414), no frame being shorter than 64 bytes. -/
def frameBytes (n : Nat) : Nat := Nat.max 84 (n + 42)
/-- The same of a frame without a VLAN tag. -/
def plainBytes (n : Nat) : Nat := Nat.max 84 (n + 38)

/-! ## Gates (R401, R402) -/

def gclBase (e : Nat) (listB : Bool) : Nat := ethBase e + (if listB then 0x1200 else 0x1000)
def gateOper (s : State) (e : Nat) : Bool := regB s (ethGctl e) 29
def gbase (s : State) (e : Nat) : Nat := (reg s (ethBase e + 0x24)).toNat + 2 ^ 32 * (reg s (ethBase e + 0x26)).toNat
def gcycle (s : State) (e : Nat) : Nat := Nat.max 1 (reg s (ethBase e + 0x22)).toNat
def gnlen (s : State) (e : Nat) : Nat := regF s (ethGctl e) 0 9
/-- Entries of the operating list, by GATES and INTERVAL. -/
def gateList (s : State) (e : Nat) : List (Nat × Nat) :=
  (upto (tget 0 s.net.gateLen e)).map (fun i => let a := gclBase e (gateOper s e) + 2 * i; (regF s a 24 8, regF s a 0 24))
/-- Windows of a cycle: start, end and gates, cut at the cycle's end, the last entry held until it. -/
def windowsFrom (span : Nat) : List (Nat × Nat) → Nat → List (Nat × Nat × Nat)
  | [], _ => []
  | [(g, _)], at_ => if at_ < span then [(at_, span, g)] else []
  | (g, n) :: r, at_ => if at_ < span then (at_, Nat.min span (at_ + n), g) :: windowsFrom span r (at_ + n) else []
def gateWindows (s : State) (e : Nat) : List (Nat × Nat × Nat) := windowsFrom (tget 0 s.net.gateSpan e) (gateList s e) 0
/-- The gates run: a list is in operation and its first cycle has begun. -/
def gatesRun (s : State) (e : Nat) : Bool :=
  regB s (ethGctl e) 31 && tget 0 s.net.gateLen e ≠ 0 && decide (tget 0 s.net.gateCycle e ≤ s.dtime)
/-- The entry in force. -/
def gateNow (s : State) (e : Nat) : Nat × Nat × Nat := (gateWindows s e).getD (tget 0 s.net.gateIdx e) (0, 0, 255)
def gateOpen (s : State) (e q : Nat) : Bool := !(gatesRun s e) || bitN (gateNow s e).2.2 q
/-- Length of the run of windows in which a gate is open, from the first of a list. -/
def openRun (q : Nat) : List (Nat × Nat × Nat) → Nat
  | [] => 0
  | (a, b, g) :: r => if bitN g q then (b - a) + openRun q r else 0
/-- The windows of two cycles, from the `i`-th on. -/
def windowsOn (s : State) (e i : Nat) : List (Nat × Nat × Nat) := let w := gateWindows s e; w.drop i ++ w ++ w.take i
/-- ns until the gate of an open queue closes; none where it never does. -/
def gateCloses (s : State) (e q : Nat) : Option Nat :=
  if !(gatesRun s e) || (gateWindows s e).all (fun w => bitN w.2.2 q) then none
  else some (openRun q (windowsOn s e (tget 0 s.net.gateIdx e)) - (s.dtime - (tget 0 s.net.gateCycle e + (gateNow s e).1)))
/-- A frame fits some open window of the cycle. -/
def fitsCycle (s : State) (e q t : Nat) : Bool :=
  !(gatesRun s e) || (gateWindows s e).all (fun w => bitN w.2.2 q) ||
  (upto (gateWindows s e).length).any (fun i => decide (t < openRun q (windowsOn s e i)))

/-! ## Credit (R400), in 10^-6 bit -/

def creditOf (s : State) (e q : Nat) : Int := tget 0 s.net.credit (qKey e q)
def setCredit (s : State) (e q : Nat) (c : Int) (t : Nat) : State :=
  { s with net := { s.net with credit := tput 0 s.net.credit (qKey e q) c, creditAt := tput 0 s.net.creditAt (qKey e q) t } }
/-- The credit of a queue is brought up to date: it has risen at idleSlope while frames waited at an open gate. -/
def creditNow (s : State) (e q : Nat) : State :=
  let t := tget 0 s.net.creditAt (qKey e q)
  if s.now ≤ t then s
  else
    let d := if shaped s e q && !(queueAt s e q).isEmpty && gateOpen s e q then (slopeOf s e q * (s.now - t) : Nat) else 0
    setCredit s e q (creditOf s e q + d) s.now
def creditsNow (s : State) (e : Nat) : State := (upto 8).foldl (fun s q => creditNow s e q) s
/-- A frame reaches a transmit queue (R391, R399). -/
def txEnqueue (s : State) (e q : Nat) (f : TxFrame) : State :=
  if !(ethLink s e) then ethDrop s e 7
  else if (queueAt s e q).length ≥ 32 then ethDrop s e 6
  else
    let t := creditNow s e q
    setQueueAt t e q (queueAt t e q ++ [f])
/-- A frame with no samples of its own. -/
def sendPlain (s : State) (e q n : Nat) (w : TxKind) : State := txEnqueue s e q { length := plainBytes n, what := w, payload := [] }

/-! ## The line -/

/-- The first `k` frames of a queue leave it unsent; positive credit of a shaped queue that empties so is set to 0 (R400). -/
def dropHeads (s : State) (e q k : Nat) : State :=
  let l := queueAt s e q
  let t := setQueueAt s e q (l.drop k)
  if shaped s e q && !l.isEmpty && (l.drop k).isEmpty && decide (0 < creditOf s e q) then setCredit t e q 0 (tget 0 s.net.creditAt (qKey e q)) else t
/-- Heads of a queue that fit no open window of the cycle are dropped as TOOBIG (R401). -/
def dropBig (s : State) (e q : Nat) : State :=
  let k := ((queueAt s e q).takeWhile (fun f => !(fitsCycle s e q (lineTime s e f)))).length
  (upto k).foldl (fun t _ => ethDrop t e 8) (dropHeads s e q k)
/-- The head of a queue may start now. -/
def eligible (s : State) (e q : Nat) : Bool :=
  match queueAt s e q with
  | [] => false
  | f :: _ =>
    gateOpen s e q && (!(shaped s e q) || decide (0 ≤ creditOf s e q)) &&
    (match gateCloses s e q with | none => true | some d => decide (lineTime s e f < d))
/-- The head of a queue takes the line. -/
def startFrame (s : State) (e q : Nat) (f : TxFrame) (r : List TxFrame) : State :=
  let n := lineTime s e f
  let t := setQueueAt s e q r
  let c := creditOf t e q + ((slopeOf t e q : Int) - (ethKbit t e : Int)) * (n : Int)
  let t := if shaped t e q then setCredit t e q (if r.isEmpty && decide (0 < c) then 0 else c) (t.now + n) else t
  ethCount { t with net := { t.net with lineFree := tput 0 t.net.lineFree e (t.now + n), sent := (e, f) :: t.net.sent } } e 1
/-- The queue that sends next, and its head. -/
def nextFrame (s : State) (e : Nat) : Option (Nat × TxFrame × List TxFrame) :=
  ([7, 6, 5, 4, 3, 2, 1, 0] : List Nat).findSome? (fun q =>
    if eligible s e q then (match queueAt s e q with | f :: r => some (q, f, r) | [] => none) else none)

/-! ## Gate commands -/

/-- The operating list starts or is taken over at `at_`, with the values of the registers. -/
def gateBegin (s : State) (e at_ : Nat) : State :=
  let n := s.net
  { s with net := { n with gateLen := tput 0 n.gateLen e (gnlen s e), gateSpan := tput 0 n.gateSpan e (gcycle s e), gateCycle := tput 0 n.gateCycle e at_,
                           gateIdx := tput 0 n.gateIdx e 0, gateAt := tput 0 n.gateAt e at_ } }
/-- First instant BASE + k × CYCLE that is not before `t`. -/
def gateInstant (s : State) (e t : Nat) : Nat := if t ≤ gbase s e then gbase s e else gbase s e + cdiv (t - gbase s e) (gcycle s e) * gcycle s e
/-- The gates of a port start (DEDUCED, log entry 64: in the cycle that the present instant lies in, its first entry's windows past). -/
def gateStart (s : State) (e : Nat) : State :=
  let c := if s.dtime ≤ gbase s e then gbase s e else gbase s e + (s.dtime - gbase s e) / gcycle s e * gcycle s e
  let t := gateBegin s e c
  let i := ((gateWindows t e).filter (fun w => decide (c + w.2.1 ≤ t.dtime))).length
  let t := { t with net := { t.net with gateIdx := tput 0 t.net.gateIdx e i } }
  { t with net := { t.net with gateAt := tput 0 t.net.gateAt e (c + (gateNow t e).1) } }
/-- GATE_INTERVAL_END (R401). -/
def gateEndOp (s : State) (e : Nat) : State :=
  let c := tget 0 s.net.gateCycle e
  let w := gateNow s e
  if !(gatesRun s e) || s.dtime < c + w.2.1 then s
  else
    let s := creditsNow s e
    let i := tget 0 s.net.gateIdx e + 1
    let last := decide ((gateWindows s e).length ≤ i)
    let c' := if last then c + tget 0 s.net.gateSpan e else c
    let i' := if last then 0 else i
    let t := { s with net := { s.net with gateIdx := tput 0 s.net.gateIdx e i', gateCycle := tput 0 s.net.gateCycle e c' } }
    { t with net := { t.net with gateAt := tput 0 t.net.gateAt e (c' + (gateNow t e).1) } }
/-- A list change is requested (R402): its instant is fixed by the administrative values. -/
def gateRequest (s : State) (e : Nat) : State :=
  let from_ := if gatesRun s e then tget 0 s.net.gateCycle e + tget 0 s.net.gateSpan e else s.dtime
  { s with net := { s.net with gateChange := tput 0 s.net.gateChange e (gateInstant s e from_ + 1) } }
/-- GATE_LIST_CHANGE (R402). -/
def gateSwapOp (s : State) (e : Nat) : State :=
  let at_ := tget 0 s.net.gateChange e
  if !(regB s (ethGctl e) 30) || at_ = 0 || s.dtime + 1 < at_ then s
  else
    let s := creditsNow s e
    let t := setRegB (setRegB s (ethGctl e) 29 (!(gateOper s e))) (ethGctl e) 30 false
    let t := { t with net := { t.net with gateChange := tput 0 t.net.gateChange e 0 } }
    pulse (if regB t (ethGctl e) 31 then gateBegin t e (at_ - 1) else t) (914 + 4 * e)
/-- An entry within NLEN of the administrative list has INTERVAL 0. -/
def gateZero (s : State) (e : Nat) : Bool :=
  (upto (gnlen s e)).any (fun i => regF s (gclBase e (!(gateOper s e)) + 2 * i) 0 24 = 0)
/-- A store to ETH_GCTL (R401, R402). -/
def gctlStore (s : State) (m e : Nat) (v : W32) : State :=
  let a := ethGctl e
  let old := reg s a
  if !ownsClaim s (ethClaim e) m then conflict s a
  else
    let v := if rbit old 30 then setR v 30 1 1 else v
    let t := storePlain (creditsNow s e) m a v
    if rbit v 30 && !(rbit old 30) && gateZero t e then conflict s a
    else
      let t := if rbit v 30 && !(rbit old 30) then gateRequest t e else t
      if rbit v 31 && !(rbit old 31) then gateStart t e
      else if rbit v 31 then t else { t with net := { t.net with gateLen := tput 0 t.net.gateLen e 0 } }
/-- A store to a gate list: the operating list does not change while it runs. -/
def gclStore (s : State) (m a : Nat) (v : W32) : State :=
  let e := a / 0x10000 % 16
  let listB := decide (0x1200 ≤ a % 0x10000)
  let i := (a % 0x200) / 2
  if regB s (ethGctl e) 31 && (gateOper s e == listB) then conflict s a
  else if rfld v 0 24 = 0 && decide (i < gnlen s e) && ownsClaim s (ethClaim e) m then conflict (storePlain s m a (setR v 0 24 (regF s a 0 24))) a
  else storePlain s m a v
end Sys2Proof.Machine
end

