-- ==== Sys2Proof/Machine/Messages.lean ====
section
/-! DEFINITION. The messages of the parameter protocol (R452), their transports (R454 to R456) and the request queue
(R449). -/
namespace Sys2Proof.Machine
open Sys2Proof.Config

/-- Bytes of a number, and number of bytes, the most significant first (R444). -/
def beBytes (n x : Nat) : List Byte := (bytesOf n x).reverse
def ofBe (l : List Byte) : Nat := ofBytes l.reverse
def nth (l : List Byte) (i : Nat) : Nat := (l.getD i 0).toNat
def slice (l : List Byte) (i n : Nat) : List Byte := (l.drop i).take n

/-- Counts of entry 0x2010 (R474): 1 requests, code + 1 aborts, 15 discards, 16 failed flash stores. -/
def fppCount (s : State) (k : Nat) : State :=
  { s with fpp := { s.fpp with counts := tput 0 s.fpp.counts k ((tget 0 s.fpp.counts k + 1) % 2 ^ 32) } }

/-- Values of entry 0x1030 in force (R474). -/
def commDefault (sub : Nat) : Nat := match sub with | 1 => 16 | 2 => 1 | 3 => 2 | 4 => 49664 | 5 => 0x3F | _ => 1
def commVal (s : State) (sub : Nat) : Nat := valN s 0x1030 sub (commDefault sub)
/-- Ethernet port `e` carries requests (R455). -/
def fppEth (s : State) (e : Nat) : Bool := bitN (commVal s 5) e && reg s (ethBase e + 8) ≠ 0 && ethOn s e
/-- A transport carries requests (R454 to R456). -/
def transportUp (s : State) : Transport → Bool
  | .can c _ => bitN (commVal s 2) c
  | .udp e _ _ => fppEth s e
  | .spi => commVal s 6 = 1

/-! ## Requests -/

/-- Data bytes a transport can carry in one message. -/
def segMax : Transport → Nat
  | .can _ _ => 44
  | .udp _ _ _ => 1452
  | .spi => 1024
/-- A request read from its bytes (Table 5 of chapter 15). -/
def parseReq (t : Transport) (arrival : Nat) (l : List Byte) : Request :=
  let n := ofBe (slice l 16 2)
  let short := match t with | .can _ _ => decide (l.length < 20 + n) | _ => l.length ≠ 20 + n
  { from_ := t, arrival := arrival, cmd := nth l 0, seq := nth l 1, index := ofBe (slice l 2 2), sub := nth l 4, typ := nth l 5,
    epoch := ofBe (slice l 6 2), offset := ofBe (slice l 8 4), total := ofBe (slice l 12 4), seglen := n, data := slice l 20 n,
    malformed := short || decide (segMax t < n) || nth l 18 ≠ 0 || nth l 19 ≠ 0 }
/-- Commands of Table 6 of chapter 15. -/
def cmdOk (c : Nat) : Bool := [1, 2, 3, 0x10, 0x11, 0x12, 0x13, 0x20, 0x21, 0x22].contains c

/-! ## Responses -/

/-- The bytes of a response (Table 5 of chapter 15). -/
def encodeResp (r : Response) : List Byte :=
  beBytes 1 (r.cmd + 0x80) ++ beBytes 1 r.seq ++ beBytes 2 r.index ++ beBytes 1 r.sub ++ beBytes 1 r.typ ++ beBytes 2 r.epoch ++
  beBytes 4 r.offset ++ beBytes 4 r.total ++ beBytes 2 r.data.length ++ beBytes 1 r.status ++ [0] ++ r.data
/-- PRI of a message's CAN identifier (Table 7): 0 for the ownership and service commands and their responses. -/
def canPri (cmd : Nat) : Nat := if (0x10 ≤ cmd % 0x80 && cmd % 0x80 < 0x14) || (0x20 ≤ cmd % 0x80 && cmd % 0x80 < 0x23) then 0 else 1
/-- An address outside 1 to 127. -/
def canReserved (x : Nat) : Bool := x = 0 || decide (127 < x)
/-- Data length of a CAN FD frame that holds `n` bytes. -/
def canLength (n : Nat) : Nat := if n ≤ 8 then n else ([12, 16, 20, 24, 32, 48, 64].find? (fun k => decide (n ≤ k))).getD 64
/-- The CAN FD frame of a response: its identifier and its data, padded with zeros (R454). -/
def canFrame (s : State) (src : Nat) (r : Response) : Nat × List Byte :=
  let l := encodeResp r
  (canPri r.cmd * 2 ^ 26 + 2 * 2 ^ 24 + src * 2 ^ 16 + commVal s 1 * 2 ^ 8, l ++ List.replicate (canLength l.length - l.length) 0)
/-- What an SPI transaction with opcode 0x03 shifts out: a length and the oldest unread response, or a length of 0 (R456). -/
def spiShift (s : State) : List Byte :=
  match s.fpp.spi with
  | [] => [0, 0]
  | r :: _ => beBytes 2 (encodeResp r).length ++ encodeResp r
/-- A response leaves on the transport its request came from: on CAN FD at once, over UDP through transmit queue 0, at
the SPI port it waits to be read, and a fifth discards the oldest (R456). -/
def respond (s : State) (r : Response) : State :=
  match r.dest with
  | .can _ _ => { s with fpp := { s.fpp with out := s.fpp.out ++ [r] } }
  | .udp e _ _ => sendPlain s e 0 (28 + 20 + r.data.length) (.fpp r.dest (encodeResp r))
  | .spi =>
    if s.fpp.spi.length < 4 then { s with fpp := { s.fpp with spi := s.fpp.spi ++ [r] } }
    else fppCount { s with fpp := { s.fpp with spi := s.fpp.spi.drop 1 ++ [r] } } 0xF
/-- The answer to a request: status, and for a read the type, the place and the data of the value. -/
def answerWith (s : State) (q : Request) (status typ offset total : Nat) (data : List Byte) : State :=
  respond s { dest := q.from_, cmd := q.cmd, seq := q.seq, index := q.index, sub := q.sub, typ := typ, epoch := s.fpp.epoch, offset := offset,
              total := total, status := status, data := data }
def done (s : State) (q : Request) : State := answerWith s q 0 0 0 0 []
def busy (s : State) (q : Request) : State := answerWith s q 0x80 0 0 0 []
/-- An abort: counted by its code (R468). -/
def abort (s : State) (q : Request) (code : Nat) : State := answerWith (fppCount s (code + 1)) q code 0 0 0 []

/-! ## Arrival (R449) -/

/-- The arrival is signalled to L0 (R419). -/
def arrivalPulse (s : State) : Transport → State
  | .can c _ => pulse s (1024 + 2 * c)
  | .udp _ _ _ => s
  | .spi => pulse s 1032
/-- The address that an arrival's answer goes to (R448). -/
def arrivalFrom : Arrival → Transport
  | .can c _ ident => .can c (ident / 2 ^ 8 % 256)
  | .udp e ip p => .udp e ip p
  | .spi _ _ => .spi
/-- The bytes are discarded and counted before they are a request (R454 to R456): a classical CAN frame, an identifier without the
layout of Table 7 or with a reserved address, a datagram of the wrong length, an SPI transaction with another opcode, with a
length out of range, or that ends before its bytes have moved. -/
def discarded (a : Arrival) (l : List Byte) : Bool :=
  match a with
  | .can _ fd ident =>
    !fd || fld ident 26 3 ≠ canPri (nth l 0) || fld ident 24 2 ≠ 2 || fld ident 0 8 ≠ 0 || canReserved (fld ident 16 8) || canReserved (fld ident 8 8) ||
    decide (l.length < 20)
  | .udp _ _ _ => decide (l.length < 20) || l.length ≠ 20 + ofBe (slice l 16 2)
  | .spi op n => op ≠ 2 || decide (n < 20) || decide (1044 < n) || l.length ≠ n
/-- A CAN frame is for another device of the bus. -/
def notForUs (s : State) (a : Arrival) : Bool :=
  match a with | .can _ _ ident => fld ident 16 8 ≠ commVal s 1 | _ => false
/-- REQUEST_ARRIVAL: a request joins the queue, or is answered at once (R449, R452). -/
def arrivalOp (s : State) (a : Arrival) (l : List Byte) : State :=
  let t := arrivalFrom a
  if s.dev < 2 || !(transportUp s t) then s
  else if discarded a l then fppCount s 0xF
  else if notForUs s a then s
  else
    let q := parseReq t s.dtime l
    let s := arrivalPulse s t
    if 0x80 ≤ q.cmd then s
    else if !(cmdOk q.cmd) then abort (fppCount s 1) q 7
    else if s.fpp.queue.length ≥ 32 then abort s q 0xA
    else { s with fpp := { s.fpp with queue := s.fpp.queue ++ [q] } }

/-- REQUEST_ARRIVAL (R449). -/
def execRequestArrival (a : Arrival) (bytes : List Byte) (s : State) : Host.Outcome State Fault Refusal :=
  act (Instr.wf (.requestArrival a bytes)) (arrivalOp s a bytes)
/-- SPI_READ: the oldest unread response is shifted out (R456); with none waiting only a length of 0 is. -/
def spiReadOp (s : State) : State :=
  match s.fpp.spi with
  | [] => s
  | r :: l => { s with fpp := { s.fpp with spi := l, out := s.fpp.out ++ [r] } }
def execSpiRead (s : State) : Host.Outcome State Fault Refusal := act (Instr.wf .spiRead) (spiReadOp s)
end Sys2Proof.Machine
end

