-- ==== Sys2Proof/Machine/Gptp.lean ====
section
/-! DEFINITION. The gPTP instances and device time (R395 to R397). -/
namespace Sys2Proof.Machine
open Sys2Proof.Config

def ptpOn (s : State) (d : Nat) : Bool := decide (d < 2) && regB s (ptpDctl d) 31
def ptpPort (s : State) (d : Nat) : Nat := regF s (ptpDctl d) 27 3
/-- domainNumber of an instance, and the running instance of a number on a port. -/
def ptpNum (s : State) (d : Nat) : Nat := if d = 0 then 0 else regF s (ptpDctl 1) 19 8
def ptpInst (s : State) (e num : Nat) : Option Nat := (upto 2).find? (fun d => ptpOn s d && ptpPort s d = e && ptpNum s d = num)
def ptpState (s : State) (d : Nat) : Nat := regF s (ptpDstat d) 30 2
def ptpIsGm (s : State) (d : Nat) : Bool := regB s (ptpDstat d) 29
def setPtpState (s : State) (d st : Nat) : State := if ptpState s d = st then s else pulse (setRegF s (ptpDstat d) 30 2 st) (936 + d)
/-- Ingress and egress latency of a port (R398). -/
def ilat (s : State) (e : Nat) : Nat := regF s (ptpLat e) 0 16
def elat (s : State) (e : Nat) : Nat := regF s (ptpLat e) 16 16
/-- Receive timestamp of a frame, in device time. -/
def rxStamp (s : State) (e : Nat) : Nat := s.dtime - ilat s e
/-- ns of an interval of 2^i seconds. -/
def logNs (i : Int) : Nat := if i ≥ 0 then 10 ^ 9 * 2 ^ i.toNat else 10 ^ 9 / 2 ^ (-i).toNat
/-- MAC address of a port, and the clock identity made of it (PRESUMED, log entry 65: EUI-64, as IEEE 802.1AS makes it). -/
def portMacOf (s : State) (e : Nat) : Nat := (reg s (ethBase e + 4)).toNat * 65536 + (reg s (ethBase e + 6)).toNat / 65536
def clockId (s : State) (d : Nat) : Nat := let m := portMacOf s (ptpPort s d); m / 2 ^ 24 * 2 ^ 40 + 0xFFFE * 2 ^ 24 + m % 2 ^ 24
/-- A priority vector as one number. -/
def prioVec (prio1 cls acc var prio2 : Nat) : Nat := (((prio1 * 256 + cls) * 256 + acc) * 65536 + var) * 256 + prio2
def gmCap (s : State) (d : Nat) : Bool := regB s (ptpDctl d) 30
def ownPrio1 (s : State) (d : Nat) : Nat := if gmCap s d then regF s (ptpDctl d) 11 8 else 255
def ownPrio2 (s : State) (d : Nat) : Nat := regF s (ptpDctl d) 3 8
def ownVec (s : State) (d : Nat) : Nat := prioVec (ownPrio1 s d) 248 0xFE 0x4100 (ownPrio2 s d)

/-- The media clocks that follow a domain lose their reference (R346, R396). -/
def ptpRefLost (s : State) (d : Nat) : State := (upto 4).foldl (fun s k => if mcOn s k && mcSrc s k = d + 1 then refLost s k else s) s
/-- The instance leaves SYNCED. -/
def leaveSync (s : State) (d : Nat) : State :=
  let s := setPtp s d { ptpOf s d with goodSince := none }
  if ptpState s d = 2 then ptpRefLost (setPtpState s d 1) d else s
/-- The device becomes grandmaster of the domain: SYNCED (R396). -/
def becomeGm (s : State) (d : Nat) : State :=
  setPtpState (setRegB (setPtp s d { ptpOf s d with gm := clockId s d, gmPrio := ownVec s d, goodSince := none }) (ptpDstat d) 29 true) d 2
/-- Another grandmaster is taken. -/
def adoptGm (s : State) (d vec gm : Nat) : State :=
  let s := if (ptpOf s d).gm = gm then s else leaveSync s d
  setPtp (setRegB s (ptpDstat d) 29 false) d { ptpOf s d with gm := gm, gmPrio := vec }
/-- An Announce: the best master clock algorithm. A device that is no grandmaster announces priority1 255. -/
def announceOp (s : State) (d prio1 cls acc var prio2 gm : Nat) : State :=
  let v := prioVec prio1 cls acc var prio2
  let p := ptpOf s d
  let own := gmCap s d && lexLt [ownVec s d, clockId s d] [v, gm]
  if prio1 = 255 then s
  else if p.gm ≠ 0 && p.gm ≠ gm && !(lexLt [v, gm] [p.gmPrio, p.gm]) then s
  else if own then (if ptpIsGm s d || p.gm ≠ gm then s else becomeGm s d)
  else adoptGm s d v gm

/-- Device time follows its domain (R397): with no timetable a difference above 1 µs steps it, else a difference above
1 ms sets FAR. -/
def trackTime (s : State) (d : Nat) : State :=
  if dtDomain s ≠ some d then s
  else
    let o := (ptpOf s d).offset
    if s.carts.table = none then
      (if o.natAbs > 1000 then
         let w := wrapN 64 o
         shiftTime (bbHw s 0xFF 0x0801 (n32 w) (n32 (w / 2 ^ 32)) (n32 d) 0) o
       else s)
    else if o.natAbs > 1000000 && !(regB s ptpStat 1) then
      pulse (setRegB (bbHw s 0xFF 0x0802 (n32 (Nat.min (2 ^ 32 - 1) (o.natAbs / 1000))) 0 0 0) ptpStat 1 true) 938
    else s
/-- The grandmaster's time at the last Sync is known: domain time is set by it (R396, R397). -/
def syncTime (s : State) (d origin : Nat) : State :=
  let p := ptpOf s d
  let o : Int := (origin : Int) + (p.pdelay : Int) - (p.syncArrival : Int)
  let good := decide ((o - p.offset).natAbs < 1000)
  let since := if good then some (p.goodSince.getD s.now) else none
  let t := setPtp s d { p with offset := o, goodSince := since }
  let t := match since with
    | some g => if g + 2 * 10 ^ 9 ≤ t.now && p.asCapable then setPtpState t d 2 else t
    | none => leaveSync t d
  trackTime t d
/-- A gPTP message frame. -/
def sendPtp (s : State) (d n : Nat) (m : PtpBody) : State := sendPlain s (ptpPort s d) 7 n (.ptp (ptpNum s d) m)
def setAs (s : State) (d : Nat) (b : Bool) : State :=
  let t := setRegB (setPtp s d { ptpOf s d with asCapable := b }) (ptpDstat d) 28 b
  if b then t else leaveSync t d
/-- A gPTP message that its instance receives (R395, R396). -/
def ptpReceive (s : State) (e d : Nat) (m : PtpBody) : State :=
  let p := ptpOf s d
  let slave := p.gm ≠ 0 && !(ptpIsGm s d) && p.asCapable
  match m with
  | .announce p1 c a v p2 gm => announceOp s d p1 c a v p2 gm
  | .sync two origin =>
    if !slave then s
    else
      let late := decide (p.lastSync + 3 * logNs p.syncInterval < s.now)
      let t := setPtp s d { p with lastSync := s.now, syncArrival := rxStamp s e, goodSince := if late then none else p.goodSince }
      if two then t else syncTime t d origin
  | .followUp origin => if slave then syncTime s d origin else s
  | .pdelayReq seq => sendPtp s d 54 (.pdelayResp seq (rxStamp s e))
  | .pdelayResp seq t2 => if seq = p.reqSeq % 65536 then setPtp s d { p with respTime := rxStamp s e + t2 } else s
  | .pdelayRespFollowUp seq t3 =>
    if seq = p.reqSeq % 65536 && p.respTime ≠ 0 then
      let r := (((p.respTime : Int) - (p.reqTime : Int) - (t3 : Int)).toNat) / 2
      setAs (setPtp s d { p with pdelay := r, respTime := 0 }) d (decide (r ≤ 800))
    else s
  | .signaling a b =>
    setPtp s d { p with syncInterval := if -7 ≤ a && a ≤ 0 then a else p.syncInterval, pdelayInterval := if -3 ≤ b && b ≤ 3 then b else p.pdelayInterval }
/-- A gPTP event message is on the line: its transmit timestamp is known (R395, R398). -/
def ptpSent (s : State) (e num : Nat) (m : PtpBody) : State :=
  match ptpInst s e num with
  | none => s
  | some d =>
    match m with
    | .sync _ _ => sendPtp s d 76 (.followUp (domTime s d + elat s e))
    | .pdelayReq _ => setPtp s d { ptpOf s d with reqTime := s.dtime + elat s e }
    | .pdelayResp seq _ => sendPtp s d 54 (.pdelayRespFollowUp seq (s.dtime + elat s e))
    | _ => s
/-- SYNC_RECEIPT_TIMEOUT (R396). -/
def syncLostOp (s : State) (d : Nat) : State :=
  let p := ptpOf s d
  if ptpOn s d && !(ptpIsGm s d) && p.gm ≠ 0 && p.lastSync + 3 * logNs p.syncInterval ≤ s.now then
    let t := leaveSync s d
    setPtp t d { ptpOf t d with gm := 0, gmPrio := 0 }
  else s
/-- SYNC_TRANSMIT: the grandmaster, which a capable device is while it knows of no other, announces and sends a two-step
Sync once each interval (R395). -/
def syncSendOp (s : State) (d : Nat) : State :=
  let p := ptpOf s d
  if !(ptpOn s d) || !(gmCap s d) || (p.gm ≠ 0 && !(ptpIsGm s d)) || (p.lastTx ≠ 0 && s.now + 1 < p.lastTx + logNs p.syncInterval) then s
  else
    let s := if ptpIsGm s d then s else becomeGm s d
    let s := setPtp s d { ptpOf s d with lastTx := s.now + 1 }
    sendPtp (sendPtp s d 76 (.announce (ownPrio1 s d) 248 0xFE 0x4100 (ownPrio2 s d) (clockId s d))) d 44 (.sync true 0)
/-- PDELAY_REQUEST: once each interval (R395). -/
def pdelayOp (s : State) (d : Nat) : State :=
  let p := ptpOf s d
  if !(ptpOn s d) || (p.lastPdelay ≠ 0 && s.now + 1 < p.lastPdelay + logNs p.pdelayInterval) then s
  else sendPtp (setPtp s d { p with reqSeq := p.reqSeq + 1, respTime := 0, lastPdelay := s.now + 1 }) d 54 (.pdelayReq ((p.reqSeq + 1) % 65536))

/-- A store to a register of the PTP_ block (R417). -/
def ptpStore (s : State) (m a : Nat) (v : W32) : State :=
  let o := a % 0x10000
  if o = 0 then (if s.carts.table.isSome then conflict s a else storePlain s m a v)
  else if o = 0x10 || o = 0x20 then
    let d := (o - 0x10) / 16
    let old := reg s a
    if rbit old 31 then
      if rbit v 31 then conflict s a
      else
        let t := leaveSync (storePlain s m a v) d
        setPtp (setPtpState (setRegF t (ptpDstat d) 28 2 0) d 0) d ptp0
    else
      let t := storePlain s m a v
      if rbit (reg t a) 31 then setPtpState t d 1 else t
  else storePlain s m a v

/-- SYNC_RECEIPT_TIMEOUT (R396). -/
def execSyncReceiptTimeout (d : Nat) (s : State) : Host.Outcome State Fault Refusal := act (Instr.wf (.syncReceiptTimeout d)) (syncLostOp s d)
/-- SYNC_TRANSMIT (R395). -/
def execSyncTransmit (d : Nat) (s : State) : Host.Outcome State Fault Refusal := act (Instr.wf (.syncTransmit d)) (syncSendOp s d)
/-- PDELAY_REQUEST (R395). -/
def execPdelayRequest (d : Nat) (s : State) : Host.Outcome State Fault Refusal := act (Instr.wf (.pdelayRequest d)) (pdelayOp s d)
end Sys2Proof.Machine
end

