-- ==== Sys2Proof/Machine/Net.lean ====
section
/-! DEFINITION. Reception, stream contexts, talkers and transmission (R390 to R394, R403 to R416). -/
namespace Sys2Proof.Machine
open Sys2Proof.Config

/-! ## Contexts -/

/-- DMA identity of a port (R389). -/
def ethMaster (e : Nat) : Nat := 96 + e
/-- Enabled contexts, in order. -/
def enCtxs (s : State) : List Nat :=
  (tkeys s.net.desc 0 32768).filterMap (fun k => if k % 16 = 0 && ctxEn s (k / 16) then some (k / 16) else none)
def enListeners (s : State) (e : Nat) : List Nat := (enCtxs s).filter (fun x => !(isTalker x) && ctxPort s x = e)
/-- stream_id, and the source or destination MAC address, of a descriptor (R404). -/
def ctxId (s : State) (x : Nat) : Nat := (ctxW s x 1).toNat * 2 ^ 32 + (ctxW s x 2).toNat
def ctxMac (s : State) (x : Nat) : Nat := (ctxW s x 3).toNat * 65536 + ctxF s x 4 16 16
def ctxVid (s : State) (x : Nat) : Nat := ctxF s x 4 0 12
def ctxFilt (s : State) (x : Nat) : Bool := rbit (ctxW s x 4) 12
/-- T_p in ns (R403), rounded up. -/
def ctxTp (s : State) (x : Nat) : Nat :=
  cdiv ((if ctxProto s x = 1 then ctxNch s x * ctxSpp s x else ctxSpp s x) * 10 ^ 9) (Nat.max 1 (ctxHz s x))
/-- Codes of AAF formats, bit depths (R406). -/
def aafFormat (f : Nat) : Nat := match f with | 8 => 4 | 9 => 3 | 10 => 2 | _ => 1
def aafDepth (f : Nat) : Nat := match f with | 8 => 16 | 9 => 24 | _ => 32
/-- A group address of IPv4 (R394). -/
def isGroup (ip : Nat) : Bool := ip / 2 ^ 28 = 14
/-- Enabled RTP listener contexts of a group on a port. -/
def groupCtxs (s : State) (e g : Nat) : List Nat := (enListeners s e).filter (fun x => ctxProto s x = 2 && (ctxW s x 1).toNat = g)
def joined (s : State) (e g : Nat) : Bool := isGroup g && !(groupCtxs s e g).isEmpty
/-- Groups joined on a port, each once. -/
def groupsOf (s : State) (e : Nat) : List Nat :=
  (enListeners s e).foldl (fun l x => let g := (ctxW s x 1).toNat; if ctxProto s x = 2 && isGroup g && !(l.contains g) then l ++ [g] else l) []
def ctxCountN (s : State) (x k n : Nat) : State :=
  { s with net := { s.net with ctxCnt := tput 0 s.net.ctxCnt (16 * x + k) (tget 0 s.net.ctxCnt (16 * x + k) + n32 n) } }

/-! ## Listeners (R406 to R413) -/

/-- A listener's state changes as a group pulse says (R419). -/
def ctxPulse (s : State) (x : Nat) : State := pulse s (960 + x / 16)
/-- Every slot of a ring loses VALID (R413). -/
def clearValid (s : State) (x : Nat) : State :=
  let m := ethMaster (ctxPort s x)
  if ctxProto s x = 1 then s
  else (upto (ctxNslot s x)).foldl (fun s i =>
    let a := (ctxW s x 6).toNat + i * ctxSlotWords s x + 6
    let r := engRead s m a 1
    engWrite r.1 m a 1 (r.2 % 32768)) s
/-- A bind (R413). -/
def bindCtx (s : State) (x : Nat) (p : Partner) : State :=
  let s := if (ctxOf s x).cepoch = 0xFFFF then clearValid s x else s
  let c := ctxOf s x
  let t := setCtx s x { c with state := 2, cepoch := if c.cepoch = 0xFFFF then 1 else c.cepoch + 1, prev := c.partner, partner := some p, ph := none,
                               lastSeq := none }
  ctxPulse (ctxCount t x 10) x
/-- Gaps in the sequence numbers count in MISSED; a number from before the last one does not (DEDUCED, log entry 62). -/
def seqGap (s : State) (x mod seq : Nat) : State :=
  let c := ctxOf s x
  match c.lastSeq with
  | none => setCtx s x { c with lastSeq := some seq }
  | some l =>
    let d := (seq + mod - l) % mod
    if d = 0 || 2 * d ≥ mod then s else ctxCountN (setCtx s x { c with lastSeq := some seq }) x 8 (d - 1)
/-- Where a packet belongs: its first count, its first media timestamp in 1/256 ns, its payload. -/
structure Place where
  n : Nat
  t : Nat
  payload : List Byte
/-- Payload lines, then the header (R405). -/
def writeSlot (s : State) (x : Nat) (p : Place) : State :=
  let m := ethMaster (ctxPort s x)
  let a := ctxSlotAddr s x p.n
  let w := packBytes p.payload
  let s := (upto (cdiv w.length 8)).foldl (fun s i => engWrite s m (a + 8 + 8 * i) 8 (ofWords ((w.drop (8 * i)).take 8))) s
  engWrite s m a 8 (headerNum p.t p.n (32768 + p.payload.length) (ctxOf s x).cepoch)
/-- The check that a packet of the partner fails, by its count (R410): PHASE 4, LATE 1, EARLY 2, DUP 3. `arr` is the
arrival in ns. -/
def placeFault (s : State) (x : Nat) (arr : Int) (p : Place) : Option Nat :=
  let poff : Int := (ctxPoff s x * 256000 : Nat)
  let tp : Int := (ctxSpp s x * 256000000000 / ctxHz s x : Nat)
  if (match (ctxOf s x).ph with | some h => !(p.n % ctxSpp s x = h) | none => false) then some 4
  else if 0 ≤ stampDiff (256 * arr) ((p.t : Int) + poff) then some 1
  else if stampDiff (p.t : Int) (256 * arr + (ctxNslot s x : Int) * tp - poff) > 0 then some 2
  else if slotHolds s (ethMaster (ctxPort s x)) x p.n then some 3
  else none
/-- A packet is accepted (R410). -/
def acceptPacket (s : State) (x : Nat) (place : Option Place) : State :=
  let c := ctxOf s x
  let s := setCtx s x { c with lastArrival := s.now, ph := match place with | some p => some (c.ph.getD (p.n % ctxSpp s x)) | none => c.ph }
  ctxCount (match place with | some p => writeSlot s x p | none => s) x 0
/-- A packet that Table 2 gives a listener: its partner, its sequence number, its place (R410, R413). -/
def listen (s : State) (x : Nat) (p : Partner) (named : Bool) (mod seq : Nat) (arr : Int) (place : Option Place) : State :=
  let c := ctxOf s x
  if c.state ≠ 2 then
    (if ctxFilt s x && !named then ctxCount s x 6 else acceptPacket (seqGap (bindCtx s x p) x mod seq) x place)
  else if c.partner = some p then
    let s := seqGap s x mod seq
    match place with
    | none => acceptPacket s x none
    | some q => (match placeFault s x arr q with | some k => ctxCount s x k | none => acceptPacket s x place)
  else if c.prev = some p then ctxCount s x 7
  else ctxCount s x 6
/-- Arrival of a frame in the domain of a context (R398), in ns. -/
def arrivalIn (s : State) (e x : Nat) : Int := (domTime s (ctxDom s x) : Int) - (ilat s e : Int)
/-- mr and tu are counted (R406): packets with tu = 1, and packets whose mr differs from that of the one before (DESIGN CHOICE, log
entry 100: no register shows the counts). -/
def flagCount (s : State) (x : Nat) (mr tu : Bool) : State :=
  let c := ctxOf s x
  setCtx s x { c with lastMr := mr, mrCount := c.mrCount + b2n (c.lastMr != mr), tuCount := c.tuCount + b2n tu }
/-- An AAF packet at its context (R406, R409). -/
def aafIn (s : State) (e x src : Nat) (p : AafPacket) : State :=
  let f := ctxFmt s x
  if !(ctxProto s x = 0 && p.version = 0 && p.sv && p.tv && p.format = aafFormat f && p.nsr = 4 + ctxF s x 0 17 3 && p.channels = ctxNch s x &&
       p.bitDepth = aafDepth f && p.payload.length = ctxBytes s x) then ctxCount s x 5
  else
    let s := flagCount s x p.mr p.tu
    let arr := arrivalIn s e x
    let pt := arr + sx 32 (wrapN 32 ((p.timestamp : Int) - arr))
    let t := (pt - (ctxPoff s x * 1000 : Nat)).toNat
    listen s x { addr := src, port := 0, ssrc := 0 } (src = ctxMac s x) 256 p.seqNum arr
      (some { n := (2 * t * ctxHz s x + 10 ^ 9) / (2 * 10 ^ 9), t := 256 * t, payload := p.payload })
/-- A CRF packet at its context (R407). -/
def crfIn (s : State) (e x src : Nat) (p : CrfPacket) : State :=
  if !(ctxProto s x = 1 && p.version = 0 && p.sv && p.kind = 1 && p.pull = 0 && p.baseFreq = ctxHz s x && p.interval = ctxSpp s x &&
       p.timestamps.length = ctxNch s x) then ctxCount s x 5
  else listen s x { addr := src, port := 0, ssrc := 0 } (src = ctxMac s x) 256 p.seqNum (arrivalIn s e x) none
/-- An RTP packet at its context (R408, R409). -/
def rtpIn (s : State) (e x srcIp srcPort : Nat) (p : RtpPacket) : State :=
  if !(ctxProto s x = 2 && p.version = 2 && p.payloadType = ctxF s x 2 0 7 && p.payload.length = ctxBytes s x) then ctxCount s x 5
  else
    let arr := arrivalIn s e x
    let g : Int := arr * (ctxHz s x : Int) / 10 ^ 9
    let n := (g + sx 32 (wrapN 32 ((p.timestamp : Int) - ((ctxW s x 8).toNat : Int) - g))).toNat
    listen s x { addr := srcIp, port := srcPort, ssrc := p.ssrc } (srcIp = (ctxW s x 9).toNat) 65536 p.seqNum arr
      (some { n := n, t := gridMt (ctxHz s x) n, payload := p.payload })
/-- A listener takes no packet for 3 × T_p (R413). -/
def lostOp (s : State) (x : Nat) : State :=
  let c := ctxOf s x
  if isTalker x || !(ctxEn s x) || c.state ≠ 2 || s.now < c.lastArrival + 3 * ctxTp s x then s
  else
    let t := ctxPulse (ctxCount (setCtx s x { c with state := 3 }) x 9) x
    let t := bbHw t 0xFF 0x0901 (n32 x) (n32 c.cepoch) 0 0
    if ctxProto s x = 1 then
      (upto 4).foldl (fun t k => if mcOn t k && mcSrc t k = 6 && regF t (mcCtl k) 0 11 = x then refLost t k else t) t
    else t

/-! ## Reception (R390, R392) -/

def unmatched (s : State) (e : Nat) : State := ethCount s e 5
def ethIp (s : State) (e : Nat) : Nat := (reg s (ethBase e + 8)).toNat
/-- The listener context an AVTP stream belongs to. -/
def avtpCtx (s : State) (e vid id : Nat) : Option Nat := (enListeners s e).find? (fun x => ctxProto s x ≠ 2 && ctxId s x = id && ctxVid s x = vid)
/-- The RTP listener context of a datagram: one of its own destination before others of its port. -/
def rtpCtx (s : State) (e dst port : Nat) : Option Nat :=
  let l := (enListeners s e).filter (fun x => ctxProto s x = 2 && ctxF s x 2 16 16 = port)
  match l.find? (fun x => (ctxW s x 1).toNat = dst) with | some x => some x | none => l.head?
/-- A datagram (Table 2, rows 3 and 4). -/
def udpIn (s : State) (e srcIp dst srcPort port : Nat) (b : UdpBody) : State :=
  let ip := ethIp s e
  let mine := ip ≠ 0 && dst = ip
  match (if mine || joined s e dst then rtpCtx s e dst port else none) with
  | some x => (match b with | .rtp p => rtpIn s e x srcIp srcPort p | .raw _ => ctxCount s x 5)
  | none =>
    if mine && port = commVal s 4 then arrivalOp s (.udp e srcIp srcPort) (match b with | .raw l => l | .rtp _ => [])
    else unmatched s e
/-- The first consumer whose condition the frame meets (Table 2). -/
def classify (s : State) (e : Nat) (f : EthFrame) : State :=
  match f.body with
  | .ptp num m => (match ptpInst s e num with | some d => ptpReceive s e d m | none => s)
  | .aaf p => (match avtpCtx s e f.vid p.streamId with | some x => aafIn s e x f.srcMac p | none => unmatched s e)
  | .crf p => (match avtpCtx s e f.vid p.streamId with | some x => crfIn s e x f.srcMac p | none => unmatched s e)
  | .udp srcIp dst srcPort port fragment headerOk sumOk b =>
    if fragment || !headerOk || !sumOk then unmatched s e else udpIn s e srcIp dst srcPort port b
  | .arpRequest target sender => if ethIp s e ≠ 0 && target = ethIp s e then sendPlain s e 0 28 (.arpReply sender) else unmatched s e
  | .icmpEcho src dst payload =>
    if ethIp s e ≠ 0 && dst = ethIp s e then sendPlain s e 0 (28 + payload.length) (.icmpReply src payload) else unmatched s e
  | .igmpQuery g =>
    if g = 0 then (groupsOf s e).foldl (fun s h => sendPlain s e 0 32 (.igmpReport h)) s
    else if joined s e g then sendPlain s e 0 32 (.igmpReport g) else s
  | .other => unmatched s e
/-- FRAME_RECEIVE: the checks of the MAC, then Table 2 (R390, R392). -/
def frameInOp (s : State) (e : Nat) (f : EthFrame) : State :=
  if !(ethOn s e) || !(ethLink s e) then s
  else if 1518 + (if f.vlanTags = 0 then 0 else 4) < f.length then ethCount s e 3
  else if f.length < 64 then s
  else if !f.fcsOk then ethCount s e 2
  else
    let s := ethCount s e 0
    if f.pause then ethCount s e 4
    else if 1 < f.vlanTags then unmatched s e
    else classify s e f

/-! ## Talkers (R406 to R408, R412) -/

/-- The payload of count `n` as it stands in its slot, else zeros and false. -/
def slotPayload (s : State) (x n : Nat) : State × List Byte × Bool :=
  let m := ethMaster (ctxPort s x)
  let b := ctxBytes s x
  if slotHolds s m x n then
    let r := (upto (cdiv b 16)).foldl (fun (r : State × List Word) i =>
      let q := engRead r.1 m (ctxSlotAddr s x n + 8 + 8 * i) 8
      (q.1, r.2 ++ wordsOf 8 q.2)) (s, [])
    (r.1, (unpackWords r.2).take b, true)
  else (s, List.replicate b 0, false)
/-- LT(n) has come: the edge of n has occurred and TXD has passed since (R412). -/
def launchDue (s : State) (x n : Nat) : Bool :=
  let k := ctxMc s x
  mcState s k ≠ 0 && decide (n ≤ (clk s k).count) && decide (0 ≤ stampDiff (256 * clkTime s k + 255 : Nat) (mtOf s k n + ctxLat s x * 256000 : Nat))
/-- No wagon feeds the talker, as in CONFIG and, after the mute, in SAFE: it receives zero blocks (R368). -/
def zeroFed (s : State) (x : Nat) : Bool :=
  !(releasing s) && !((enWagons s).any (fun e => let d := wagOf s e.1 e.2; d.dstk = 3 && d.didx = x && wagonRuns s e.1 e.2 d))
/-- A zero block of a talker, as it is due: a packet of zeros in its slot, written by the engine of the enabled wagon that
names the context, where there is one (DESIGN CHOICE, log entry 94). -/
def zeroBlock (s : State) (x n : Nat) : State :=
  match (enWagons s).find? (fun e => let d := wagOf s e.1 e.2; d.dstk = 3 && d.didx = x) with
  | none => s
  | some e =>
    let a := ctxSlotAddr s x n
    let s := (upto (cdiv (ctxBytes s x) 16)).foldl (fun s i => engWrite s (seMaster e.1) (a + 8 + 8 * i) 8 0) s
    engWrite s (seMaster e.1) a 8 (headerNum (mtOf s (ctxMc s x) n) n (32768 + ctxBytes s x) (ctxOf s x).cepoch)
/-- The payload of a packet as it is launched, and whether it was there in time: a zero block counts as delivered. -/
def launchPayload (s : State) (x n : Nat) : State × List Byte × Bool :=
  if zeroFed s x then (zeroBlock s x n, List.replicate (ctxBytes s x) 0, true) else slotPayload s x n
/-- TALKER_LAUNCH (R412). -/
def launchOp (s : State) (x : Nat) : State :=
  let c := ctxOf s x
  let n := c.nextN
  let e := ctxPort s x
  let q := ctxF s x 7 21 3
  let k := ctxMc s x
  let stamp (j : Nat) : Nat := (mtOf s k j / 256 + ctxPoff s x * 1000) % 2 ^ 64
  if !(isTalker x) || !(ctxEn s x) || c.state ≠ 4 || !(launchDue s x n) then s
  else if ctxProto s x = 1 then
    let t := setCtx s x { c with nextN := n + ctxNch s x * ctxSpp s x, seqNum := (c.seqNum + 1) % 256 }
    txEnqueue (ctxCount t x 0) e q
      { length := frameBytes (20 + 8 * ctxNch s x), what := .crf x n c.seqNum ((upto (ctxNch s x)).map (fun j => stamp (n + j * ctxSpp s x))), payload := [] }
  else
    let r := launchPayload s x n
    let t := if r.2.2 then r.1 else ctxCount r.1 x 11
    let aaf := ctxProto s x = 0
    let t := ctxCount (setCtx t x { c with nextN := n + ctxSpp s x, seqNum := (c.seqNum + 1) % (if aaf then 256 else 65536) }) x 0
    let tu := !(ptpState s (ctxDom s x) = 2)
    txEnqueue t e q
      { length := frameBytes (ctxBytes s x + (if aaf then 24 else 40)),
        what := if aaf then .aaf x n (stamp n % 2 ^ 32) c.seqNum c.mr tu else .rtp x n ((n + (ctxW s x 8).toNat) % 2 ^ 32) c.seqNum,
        payload := r.2.1 }
/-- A talker's frame on the wire (R406 to R408): the AVTP or RTP packet as a listener reads it. For an IPv4 group the destination
is 01:00:5E and the group's low 23 bits. -/
def wireFrame (s : State) (f : TxFrame) : Option EthFrame :=
  let frame (x mac : Nat) (b : FrameBody) : EthFrame :=
    { length := f.length - 20, fcsOk := true, vlanTags := 1, vid := ctxVid s x, pause := false, srcMac := portMacOf s (ctxPort s x), dstMac := mac, body := b }
  match f.what with
  | .aaf x _ ts seq mr tu =>
    some (frame x (ctxMac s x) (.aaf { streamId := ctxId s x, version := 0, sv := true, tv := true, mr := mr, tu := tu, format := aafFormat (ctxFmt s x),
                                       nsr := 4 + ctxF s x 0 17 3, channels := ctxNch s x, bitDepth := aafDepth (ctxFmt s x), seqNum := seq, timestamp := ts,
                                       payload := f.payload }))
  | .crf x _ seq stamps =>
    some (frame x (ctxMac s x) (.crf { streamId := ctxId s x, version := 0, sv := true, kind := 1, pull := 0, baseFreq := ctxHz s x, interval := ctxSpp s x,
                                       seqNum := seq, timestamps := stamps }))
  | .rtp x _ ts seq =>
    let ip := (ctxW s x 1).toNat
    some (frame x (if isGroup ip then 0x01005E000000 + ip % 2 ^ 23 else ctxMac s x)
      (.udp (reg s (ethBase (ctxPort s x) + 8)).toNat ip (ctxF s x 9 16 16) (ctxF s x 2 16 16) false true true
        (.rtp { version := 2, payloadType := ctxF s x 2 0 7, seqNum := seq, timestamp := ts, ssrc := (ctxW s x 10).toNat, payload := f.payload })))
  | .fpp (.udp e ip p) bytes =>
    some { length := f.length - 20, fcsOk := true, vlanTags := 0, vid := 0, pause := false, srcMac := portMacOf s e, dstMac := Config.neighbour e ip,
           body := .udp (reg s (ethBase e + 8)).toNat ip (commVal s 4) p false true true (.raw bytes) }
  | _ => none
/-- DSCP and TTL of an RTP talker's datagrams (R408). -/
def wireHops (s : State) (x : Nat) : Nat × Nat := (ctxF s x 7 13 6, ctxF s x 9 8 8)
/-- FRAME_TRANSMIT (R399). -/
def frameOutOp (s : State) (e : Nat) : State :=
  if !(ethOn s e) || !(ethLink s e) || s.now < tget 0 s.net.lineFree e then s
  else
    let s := (upto 8).foldl (fun s q => dropBig s e q) (creditsNow s e)
    match nextFrame s e with
    | none => s
    | some (q, f, r) =>
      let t := startFrame s e q f r
      match f.what with
      | .ptp num m => ptpSent t e num m
      | _ => t

/-! ## The link (R391) -/

def setLink (s : State) (e : Nat) (b : Bool) : State := setLevel (setRegB s (ethStat e) 31 b) (912 + 4 * e) b
/-- The link is lost: frames already queued are dropped. -/
def dropLink (s : State) (e : Nat) : State :=
  (upto 8).foldl (fun t q => dropHeads t e q (queueAt t e q).length) (creditsNow (setLink s e false) e)
def linkDownOp (s : State) (e : Nat) : State := if ethLink s e then dropLink s e else s
def linkUpOp (s : State) (e : Nat) : State := if ethOn s e then setLink s e true else s
/-- A store to ETH_CTL; a change while EN = 1 is made and sets CONFLICT. -/
def ethCtlStore (s : State) (m e : Nat) (v : W32) : State :=
  let a := ethBase e
  let old := reg s a
  let t := storePlain s m a v
  if !ownsClaim s (ethClaim e) m then conflict s a
  else if rbit old 31 then (if !(rbit v 31) then dropLink t e else if reg t a = old then t else conflict t a)
  else if rbit v 31 && !(domOn s (126 + e)) then conflict s a else t

/-! ## The context window (R414, R416) -/

def cxClaimHeld (s : State) (x : Nat) : Bool := rbit (tget 0 s.net.ctxClaim x) 8
def cxClaimId (s : State) (x : Nat) : Nat := rfld (tget 0 s.net.ctxClaim x) 0 7
def cxOwned (s : State) (x m : Nat) : Bool := cxClaimHeld s x && cxClaimId s x = m
/-- An admitted wagon names the context. -/
def cxTaken (s : State) (x : Nat) : Bool :=
  (enWagons s).any (fun w => wagTaken s w.1 w.2 && (let d := wagOf s w.1 w.2; (d.srck = 3 && d.sidx = x) || (d.dstk = 3 && d.didx = x)))
/-- A store to a context is ignored. -/
def cxConflict (s : State) (e x : Nat) : State :=
  conflictAt { s with net := { s.net with ctxConflict := tput 0 s.net.ctxConflict x 1 } } (ethStat e) 30
/-- Words of a context's ring. -/
def cxRing (s : State) (x : Nat) : Nat := ctxNslot s x * ctxSlotWords s x
def inCsmGsm (s : State) (a n : Nat) : Bool :=
  [a, a + n - 1].all (fun b => match memPlace s b with | some (k, _, _) => k = 3 || k = 4 | none => false) && decide (a / 0x1000000 = (a + n - 1) / 0x1000000)
/-- Bytes a frame of a talker counts (R414), and its frames in a second as a fraction. -/
def cxHeader (s : State) (x : Nat) : Nat := match ctxProto s x with | 0 => 24 | 1 => 20 + 8 * ctxNch s x | _ => 40
def cxPayload (s : State) (x : Nat) : Nat := if ctxProto s x = 1 then 0 else ctxBytes s x
def cxRate (s : State) (x : Nat) : Nat × Nat :=
  (8 * (cxPayload s x + cxHeader s x + 42) * ctxHz s x, if ctxProto s x = 1 then ctxNch s x * ctxSpp s x else ctxSpp s x)
/-- A sum of fractions. -/
def fracSum (l : List (Nat × Nat)) : Nat × Nat := l.foldl (fun a b => (a.1 * b.2 + b.1 * a.2, a.2 * b.2)) (0, 1)
def fracLe (a : Nat × Nat) (n : Nat) : Bool := decide (a.1 ≤ n * a.2)
/-- The fields of a descriptor are in their ranges (R403, R404, R412). -/
def cxFields (s : State) (x : Nat) : Bool :=
  let p := ctxProto s x
  let f := ctxFmt s x
  let rate := ctxF s x 0 17 3
  let spp := ctxSpp s x
  p ≠ 3 && decide (rate ≤ 5) && !(rbit (ctxW s x 0) 8) &&
  (match p with | 0 => decide (8 ≤ f) && decide (f ≤ 11) | 1 => f = 0 | _ => (f = 8 || f = 9) && decide (rate ≤ 3)) &&
  (if p = 1 then decide (ctxNch s x ≤ 8) && ctxW s x 6 = 0
   else
     decide (ctxBytes s x ≤ (if p = 0 then 1476 else 1460)) && decide (125 * ctxHz s x ≤ spp * 10 ^ 6) && decide (spp * 10 ^ 6 ≤ 4000 * ctxHz s x) &&
     decide (2 ≤ ctxNslot s x) && (ctxW s x 6).toNat % 8 = 0) &&
  (p ≠ 2 || (decide (96 ≤ ctxF s x 2 0 7) && ctxF s x 2 7 9 = 0)) && decide (ctxVid s x ≤ 4094) &&
  decide (1000 ≤ ctxPoff s x) && decide (ctxPoff s x ≤ 10000) && ctxF s x 7 8 5 = 0 &&
  (!(isTalker x) || (decide (ctxSph s x < spp) && decide (ctxLat s x < ctxPoff s x) && (p ≠ 2 || ctxF s x 9 0 8 = 0)))
/-- Every check of R414 on a descriptor written with EN = 1. -/
def cxOk (s : State) (x : Nat) : Bool :=
  let e := ctxPort s x
  let others := (enCtxs s).filter (fun y => y ≠ x)
  let same := (x :: others).filter (fun y => isTalker y == isTalker x)
  let onPort := same.filter (fun y => ctxPort s y = e)
  cxFields s x && decide (e < 6) && ethOn s e &&
  (ctxProto s x = 1 ||
   (inCsmGsm s (ctxW s x 6).toNat (cxRing s x) &&
    others.all (fun y => ctxProto s y = 1 || !(overlaps (ctxW s x 6).toNat (cxRing s x) (ctxW s y 6).toNat ((ctxW s y 6).toNat + cxRing s y))))) &&
  decide (((same.filter (fun y => ctxProto s y ≠ 1)).map (fun y => ctxNch s y)).foldl (· + ·) 0 ≤ 4096) &&
  (!(isTalker x) ||
   (fracLe (fracSum (onPort.map (fun y => cxRate s y))) (ethKbit s e * 750) &&
    (let q := ctxF s x 7 21 3
     !(shaped s e q) || fracLe (fracSum ((onPort.filter (fun y => ctxF s y 7 21 3 = q)).map (fun y => cxRate s y))) (slopeOf s e q * 1000))))
/-- A context starts: a listener waits for a partner and joins its group, a talker runs from its clock's next packet. -/
def cxStart (s : State) (x : Nat) : State :=
  let c := ctxOf s x
  let e := ctxPort s x
  let g := (ctxW s x 1).toNat
  if isTalker x then setCtx s x { c with state := 4, nextN := firstCount s x, seqNum := 0 }
  else
    let t := setCtx s x { c with state := 1, ph := none, lastSeq := none }
    if ctxProto s x = 2 && isGroup g then sendPlain t e 0 32 (.igmpReport g) else t
/-- A context stops; a listener leaves its group. -/
def cxStop (s : State) (x : Nat) (wasRtp : Bool) (e g : Nat) : State :=
  let t := setCtx s x { ctxOf s x with state := 0, ph := none, lastSeq := none }
  if !(isTalker x) && wasRtp && isGroup g then sendPlain t e 0 32 (.igmpLeave g) else t
/-- Bits of descriptor word `w` that a store changes (Table 3): not the direction, the fields marked 0, nor CEPOCH. -/
def cxMask (w : Nat) : Nat := match w with | 0 => 0xBFFFFEFF | 7 => 0xFFFFE0FF | 11 => 0 | _ => 0xFFFFFFFF
/-- Fields of a descriptor word that hold a value outside what Table 3 gives them, as position and width; they keep what they
held (R14). -/
def cxReserved (w v : Nat) : List (Nat × Nat) :=
  let bad (lo n : Nat) (b : Bool) : List (Nat × Nat) := if b then [(lo, n)] else []
  match w with
  | 0 => bad 28 2 (fld v 28 2 = 3) ++ bad 25 3 (decide (5 < fld v 25 3)) ++ bad 17 3 (decide (5 < fld v 17 3))
  | 4 => bad 0 12 (fld v 0 12 = 4095)
  | 5 => bad 16 16 (decide (fld v 16 16 < 1000) || decide (10000 < fld v 16 16))
  | _ => []
/-- Rights of a port's DMA: a talker's slots are read; a listener's are written, and their headers read. -/
def dmaBits (s : State) (e : Nat) : Nat :=
  let l := (enCtxs s).filter (fun y => ctxPort s y = e)
  regionBits (!l.isEmpty) (l.any (fun y => !isTalker y))
/-- A store of master `m` to word `w` of a context's descriptor, through the window of port `e` (R414). -/
def cxWrite (s : State) (m e x w : Nat) (v : W32) : State :=
  let res := cxReserved w v.toNat
  let kept := res.foldl (fun y e => setFld y e.1 e.2 (fld (ctxW s x w).toNat e.1 e.2)) v.toNat
  let put (s : State) : State := setCtxW s x w (n32 (kept &&& cxMask w))
  if !(cxOwned s x m) then cxConflict s e x
  else if ctxEn s x then
    (if w = 0 && !(rbit v 31) && !(cxTaken s x) then
       let t := cxStop (put s) x (ctxProto s x = 2) (ctxPort s x) (ctxW s x 1).toNat
       grantRegions t (ethMaster (ctxPort s x)) (dmaBits t (ctxPort s x))
     else cxConflict s e x)
  else if w = 0 && rbit v 31 then (if res.isEmpty && cxOk (put s) x then let t := cxStart (put s) x; grantRegions t (ethMaster (ctxPort t x)) (dmaBits t (ctxPort t x)) else cxConflict s e x)
  else if res.isEmpty then put s
  else cxConflict (put s) e x
/-- REBIND: an enabled listener goes to WAIT (R413, R414). -/
def cxRebind (s : State) (e x : Nat) : State :=
  if isTalker x || !(ctxEn s x) then s
  else if cxTaken s x then cxConflict s e x
  else setCtx s x { ctxOf s x with state := 1 }
def cxSel (s : State) (m e : Nat) : Nat := rfld (perM s (ethBase e + 0x4000) m) 0 11
/-- A store to the claim word of a context (R385, R414). -/
def cxClaimStore (s : State) (m e x : Nat) (v : W32) : State :=
  let put (u : W32) : State := { s with net := { s.net with ctxClaim := tput 0 s.net.ctxClaim x u } }
  if rbit v 8 then (if cxClaimHeld s x then cxConflict s e x else put (n32 (256 + m % 128)))
  else if cxOwned s x m && !(ctxEn s x) then put 0
  else cxConflict s e x
/-- A store to ETH_CX_STAT: CONFLICT clears, REBIND acts. -/
def cxStatStore (s : State) (e x : Nat) (v : W32) : State :=
  let s := if rbit v 28 then { s with net := { s.net with ctxConflict := tput 0 s.net.ctxConflict x 0 } } else s
  if rbit v 27 then cxRebind s e x else s
/-- A store to the context window. -/
def cxStore (s : State) (m e o : Nat) (v : W32) : State :=
  let x := cxSel s m e
  if o = 0x4000 then setPerM s (ethBase e + o) m (n32 (rfld v 0 11))
  else if o = 0x4002 then cxStatStore s e x v
  else if o = 0x4004 then cxClaimStore s m e x v
  else if 0x4010 ≤ o && o < 0x4028 then cxWrite s m e x ((o - 0x4010) / 2) v
  else s
/-- Word `w` of a descriptor as it reads: the direction and CEPOCH are the context's own. -/
def cxWord (s : State) (x w : Nat) : W32 :=
  if w = 0 then setR (ctxW s x 0) 30 1 (b2n (isTalker x)) else if w = 11 then n32 ((ctxOf s x).cepoch * 65536) else ctxW s x w
/-- A load from the context window. -/
def cxLoad (s : State) (m e o : Nat) : W32 :=
  let x := cxSel s m e
  let c := ctxOf s x
  if o = 0x4000 then n32 x
  else if o = 0x4002 then n32 (c.state * 2 ^ 29 + tget 0 s.net.ctxConflict x * 2 ^ 28 + c.cepoch)
  else if o = 0x4004 then tget 0 s.net.ctxClaim x
  else if 0x4010 ≤ o && o < 0x4028 then cxWord s x ((o - 0x4010) / 2)
  else tget 0 s.net.ctxCnt (16 * x + (o - 0x4030) / 2)
/-- A store to a register of an ETH_ block, ETH_CLAIM apart. -/
def ethStore (s : State) (m a : Nat) (v : W32) : State :=
  let e := a / 0x10000 % 16
  let o := a % 0x10000
  if 0x4000 ≤ o then cxStore s m e o v
  else if o = 0 then ethCtlStore s m e v
  else if o = 0x20 then gctlStore s m e v
  else if 0x1000 ≤ o then gclStore s m a v
  else if 0x10 ≤ o && o < 0x20 then storePlain (creditNow s e ((o - 0x10) / 2)) m a v
  else storePlain s m a v

/-! ## MDIO (R389) -/

/-- MDIO_COMMAND: L0 carries out the command of entry 0x5008; `result` is what a read brings. -/
def mdioOp (s : State) (result : Word) : State :=
  match s.net.mdio with
  | none => s
  | some c =>
    let t := { s with net := { s.net with mdio := none, mdioResult := if rfld c 30 2 = 2 then result else s.net.mdioResult } }
    longDone t (0x5008 * 256 + 1) 0

/-- FRAME_RECEIVE (R392). -/
def execFrameReceive (e : Nat) (f : EthFrame) (s : State) : Host.Outcome State Fault Refusal := act (Instr.wf (.frameReceive e f)) (frameInOp s e f)
/-- LISTENER_LOST (R413). -/
def execListenerLost (x : Nat) (s : State) : Host.Outcome State Fault Refusal := act (Instr.wf (.listenerLost x)) (lostOp s x)
/-- TALKER_LAUNCH (R412). -/
def execTalkerLaunch (x : Nat) (s : State) : Host.Outcome State Fault Refusal := act (Instr.wf (.talkerLaunch x)) (launchOp s x)
/-- FRAME_TRANSMIT (R399). -/
def execFrameTransmit (e : Nat) (s : State) : Host.Outcome State Fault Refusal := act (Instr.wf (.frameTransmit e)) (frameOutOp s e)
/-- GATE_INTERVAL_END (R401). -/
def execGateIntervalEnd (e : Nat) (s : State) : Host.Outcome State Fault Refusal := act (Instr.wf (.gateIntervalEnd e)) (gateEndOp s e)
/-- GATE_CHANGE_REQUEST (R402). -/
def execGateChangeRequest (m e : Nat) (v : W32) (s : State) : Host.Outcome State Fault Refusal :=
  act (Instr.wf (.gateChangeRequest m e v)) (if rbit v 30 && ethPresent s.variant e then gctlStore s m e v else s)
/-- GATE_LIST_CHANGE (R402). -/
def execGateListChange (e : Nat) (s : State) : Host.Outcome State Fault Refusal := act (Instr.wf (.gateListChange e)) (gateSwapOp s e)
/-- CONTEXT_ENABLE: a store of word 0 with EN = 1 to the context that `m` selects at port `e` (R414). -/
def execContextEnable (m e : Nat) (v : W32) (s : State) : Host.Outcome State Fault Refusal :=
  act (Instr.wf (.contextEnable m e v)) (if rbit v 31 && ethPresent s.variant e then cxStore s m e 0x4010 v else s)
/-- CONTEXT_DISABLE (R414). -/
def execContextDisable (m e : Nat) (v : W32) (s : State) : Host.Outcome State Fault Refusal :=
  act (Instr.wf (.contextDisable m e v)) (if !(rbit v 31) && ethPresent s.variant e && ctxEn s (cxSel s m e) then cxStore s m e 0x4010 v else s)
/-- REBIND (R413). -/
def execRebind (m e : Nat) (v : W32) (s : State) : Host.Outcome State Fault Refusal :=
  act (Instr.wf (.rebind m e v)) (if rbit v 27 && ethPresent s.variant e then cxStore s m e 0x4002 v else s)
/-- LINK_DOWN (R391). -/
def execLinkDown (e : Nat) (s : State) : Host.Outcome State Fault Refusal := act (Instr.wf (.linkDown e)) (linkDownOp s e)
/-- LINK_UP (R391). -/
def execLinkUp (e : Nat) (s : State) : Host.Outcome State Fault Refusal := act (Instr.wf (.linkUp e)) (linkUpOp s e)
/-- MDIO_COMMAND (R389). -/
def execMdioCommand (result : Word) (s : State) : Host.Outcome State Fault Refusal := act (Instr.wf (.mdioCommand result)) (mdioOp s result)
end Sys2Proof.Machine
end

