-- ==== Sys2Proof/Machine/Timer.lean ====
section
/-! DEFINITION. The timer block: ticks, wraps and carries, freeze, images, compares and matches (R432 to R440). -/
namespace Sys2Proof.Machine

def tmRuns (s : State) (k : Nat) : Bool := regB s (tmStat k) 2
def tmCount (s : State) (k : Nat) : W32 := tget 0 s.timers.count k
def setCount (s : State) (k : Nat) (v : W32) : State := { s with timers := { s.timers with count := tput 0 s.timers.count k v } }
def setImage (s : State) (k : Nat) (v : W32) : State := { s with timers := { s.timers with image := tput 0 s.timers.image k v } }
def tmLink (s : State) (k : Nat) : Bool := k < 64 && regB s (tmCtl k) 28
def tmCmpx (s : State) (k : Nat) : Bool := regB s (tmCtl k) 27
def tmMen (s : State) (k : Nat) : Bool := regB s (tmCtl k) 26
/-- E_k (R438): equal, and with CMPX the counter below equal too. -/
def tmEqual (s : State) : Nat → Bool
  | 0 => tmCount s 0 = reg s (tmCmp 0)
  | k + 1 => decide (tmCount s (k + 1) = reg s (tmCmp (k + 1))) && (!tmCmpx s (k + 1) || tmEqual s k)
/-- The equality of one counter is evaluated: a rise with MEN = 1 is a match and pulses its source. -/
def tmEval (s : State) (k : Nat) : State :=
  let e := tmEqual s k
  let t := { s with timers := { s.timers with equal := tput 0 s.timers.equal k (b2n e) } }
  if e && tget 0 s.timers.equal k = 0 && tmMen s k then pulse t (384 + k) else t
/-- The equalities that a change of counter `k` can move: its own and those above it that compare through it. -/
def tmEvalUp (s : State) (k : Nat) : Nat → State
  | 0 => s
  | n + 1 => let t := tmEval s k; if k + 1 < 64 && tmCmpx t (k + 1) then tmEvalUp t (k + 1) n else t
/-- Counters of the compare chain that ends at `k`, and its value and target as whole numbers, `k` the highest. -/
def tmChain (s : State) : Nat → Nat × Nat × Nat
  | 0 => (1, (tmCount s 0).toNat, (reg s (tmCmp 0)).toNat)
  | k + 1 =>
    if tmCmpx s (k + 1) then
      let r := tmChain s k
      (r.1 + 1, (tmCount s (k + 1)).toNat * 2 ^ (32 * r.1) + r.2.1, (reg s (tmCmp (k + 1))).toNat * 2 ^ (32 * r.1) + r.2.2)
    else (1, (tmCount s (k + 1)).toNat, (reg s (tmCmp (k + 1))).toNat)
/-- d < 2^(n-1) of R439: the target equals the count or has passed. -/
def tmIsLate (s : State) (k : Nat) : Bool :=
  let r := tmChain s k
  let n := 2 ^ (32 * r.1)
  decide ((r.2.1 + n - r.2.2) % n < n / 2)

/-! ## Ticks (R432, R433, R437) -/

/-- What CSEL counts, as it stands: fabric cycles, 10 ns of device time, or sample edges: the count of the last one, so that the first
edge of a clock that starts on a grid ticks too. -/
def tmSource (s : State) (k : Nat) : Nat :=
  let c := regF s (tmCtl k) 29 3
  if c = 0 then s.now else if c = 1 then s.dtime / 10 else if 4 ≤ c then
    let x := tget { count := 0, mt := 0, edge := 0, armed := false, steadySince := 0 } s.media.clocks (c - 4)
    x.count - b2n x.armed
  else 0
/-- Units of its source between two ticks. -/
def tmStride (s : State) (k : Nat) : Nat := if regF s (tmCtl k) 29 3 = 0 then regF s (tmCtl k) 0 16 + 1 else 1
/-- A tick of a running counter with LINK = 0 has fallen due; the AON clock's edges (CSEL 2) come from outside. -/
def tmTickDue (s : State) (k : Nat) : Bool :=
  tmRuns s k && !tmLink s k && (regF s (tmCtl k) 29 3 = 2 || decide (tmSource s k ≥ tget 0 s.timers.base k + tmStride s k))
/-- The tick is taken: the next falls one stride later. -/
def tmTakeTick (s : State) (k : Nat) : State :=
  { s with timers := { s.timers with base := tput 0 s.timers.base k (tget 0 s.timers.base k + tmStride s k) } }
/-- A tick of counter `k`; a wrap pulses its source and carries, and a carry into a stopped linked counter is lost. -/
def tmIncr (s : State) (k : Nat) : Nat → State
  | 0 => s
  | n + 1 =>
    let w := tmCount s k = 0xFFFFFFFF
    let t := setCount s k (tmCount s k + 1)
    if !w then t
    else
      let t := pulse t (448 + k)
      if !(tmLink t (k + 1)) then t
      else if tmRuns t (k + 1) then tmIncr t (k + 1) n
      else setRegF (setRegB t (tmLost (k + 1)) 16 true) (tmLost (k + 1)) 0 16 (incSat 16 (regF t (tmLost (k + 1)) 0 16))
/-- A tick with the evaluations that follow it in the same cycle (R438). -/
def tmTick (s : State) (k : Nat) : State :=
  let t := tmIncr (tmTakeTick s k) k 64
  (upto 64).foldl (fun t j => if tmCount t j = tmCount s j then t else tmEvalUp t j 64) t
/-- COUNTER_TICK: the tick of a counter that does not wrap at it. -/
def tickOp (s : State) (k : Nat) : State := if tmTickDue s k && !(tmCount s k = 0xFFFFFFFF) then tmTick s k else s
/-- COUNTER_WRAP: the tick of a counter that wraps at it. -/
def wrapOp (s : State) (k : Nat) : State := if tmTickDue s k && tmCount s k = 0xFFFFFFFF then tmTick s k else s
/-- MATCH_EVENT: the equality is evaluated. -/
def matchOp (s : State) (k : Nat) : State := tmEval s k

/-! ## Registers (R434 to R436, R439) -/

/-- A store to TM_FREEZE (R434). -/
def tmFreeze (s : State) (m : Nat) (start : Bool) : State :=
  (upto 64).foldl (fun s k =>
    if !(rbit (perM s (tmBase + 2 * (k / 32)) m) (k % 32)) then s
    else if !(ownsClaim s (tmClaim k) m) then setRegB s tmBstat 0 true
    else if tmRuns s k = start then s
    else
      let t := setImage (setRegB s (tmStat k) 2 start) k (tmCount s k)
      if start then { t with timers := { t.timers with base := tput 0 t.timers.base k (tmSource t k) } } else t) s
/-- A store to TM_CNT_k: count and image of a stopped counter. -/
def tmCntWrite (s : State) (m k : Nat) (v : W32) : State :=
  if !(ownsClaim s (tmClaim k) m) || tmRuns s k then setRegB s tmBstat 0 true
  else tmEvalUp (setImage (setCount s k v) k v) k 64
/-- A load of TM_CNT_k: the count of a stopped counter; the image of a running one, with STALE set. -/
def tmCntRead (s : State) (k : Nat) : State × W32 :=
  if tmRuns s k then (setRegB s (tmStat k) 0 true, tget 0 s.timers.image k) else (s, tmCount s k)
/-- A store to TM_CMP_k acts at once. -/
def tmCmpWrite (s : State) (m k : Nat) (v : W32) : State := tmEvalUp (storePlain s m (tmCmp k) v) k 64
/-- A store to TM_CTL_k. -/
def tmCtlWrite (s : State) (m k : Nat) (v : W32) : State :=
  let old := reg s (tmCtl k)
  let other := (old ^^^ v) &&& 0xF800FFFF
  if !(ownsClaim s (tmClaim k) m) then setRegB s tmBstat 0 true
  else if tmRuns s k && other ≠ 0 then setRegB s tmBstat 0 true
  else if rbit v 28 && !(rbit old 28) && k ≠ 0 && !(ownsClaim s (tmClaim (k - 1)) m) then setRegB s tmBstat 0 true
  else
    let t := storePlain s m (tmCtl k) v
    let t := if tmMen t k && !(rbit old 26) && tmIsLate t k then setRegB t (tmStat k) 1 true else t
    tmEvalUp t k 64
/-- A store to a register of the TM_ block, its claim words apart. -/
def tmStore (s : State) (m a : Nat) (v : W32) : State :=
  let o := a - tmBase
  if o < 4 then setPerM s a m v
  else if o = 4 then tmFreeze s m (rbit v 0)
  else if o < 0x1000 then storePlain s m a v
  else
    let k := (o - 0x1000) / 16
    match o % 16 with
    | 0 => tmCntWrite s m k v
    | 2 => tmCmpWrite s m k v
    | 4 => tmCtlWrite s m k v
    | _ => storePlain s m a v
/-- A load of a register of the TM_ block. -/
def tmLoad (s : State) (m a : Nat) : State × W32 :=
  let o := a - tmBase
  if o < 4 then (s, perM s a m)
  else if 0x1000 ≤ o && o % 16 = 0 then tmCntRead s ((o - 0x1000) / 16)
  else (s, reg s a)

/-- COUNTER_TICK (R433). -/
def execCounterTick (k : Nat) (s : State) : Host.Outcome State Fault Refusal := act (Instr.wf (.counterTick k)) (tickOp s k)
/-- COUNTER_WRAP (R432). -/
def execCounterWrap (k : Nat) (s : State) : Host.Outcome State Fault Refusal := act (Instr.wf (.counterWrap k)) (wrapOp s k)
/-- MATCH_EVENT (R438). -/
def execMatchEvent (k : Nat) (s : State) : Host.Outcome State Fault Refusal := act (Instr.wf (.matchEvent k)) (matchOp s k)
/-- FREEZE_STOP (R434). -/
def execFreezeStop (m : Nat) (s : State) : Host.Outcome State Fault Refusal := act (Instr.wf (.freezeStop m)) (tmFreeze s m false)
/-- FREEZE_START (R434). -/
def execFreezeStart (m : Nat) (s : State) : Host.Outcome State Fault Refusal := act (Instr.wf (.freezeStart m)) (tmFreeze s m true)
/-- TM_CNT_STORE (R436). -/
def execTmCntStore (m k : Nat) (v : W32) (s : State) : Host.Outcome State Fault Refusal := act (Instr.wf (.tmCntStore m k v)) (tmCntWrite s m k v)
/-- TM_CNT_LOAD (R435): what the load returns stands in `answer`. -/
def execTmCntLoad (m k : Nat) (s : State) : Host.Outcome State Fault Refusal :=
  act (Instr.wf (.tmCntLoad m k)) { (tmCntRead s k).1 with answer := (tmCntRead s k).2 }
/-- TM_CMP_STORE (R438). -/
def execTmCmpStore (m k : Nat) (v : W32) (s : State) : Host.Outcome State Fault Refusal := act (Instr.wf (.tmCmpStore m k v)) (tmCmpWrite s m k v)
/-- MEN_ENABLE (R439): a store to TM_CTL_k that changes MEN from 0 to 1 and nothing else. -/
def execMenEnable (m k : Nat) (s : State) : Host.Outcome State Fault Refusal :=
  act (Instr.wf (.menEnable m k)) (if tmMen s k then s else tmCtlWrite s m k (setR (reg s (tmCtl k)) 26 1 1))

end Sys2Proof.Machine
end

