-- ==== Sys2Proof/Machine/Domains.lean ====
section
/-! DEFINITION. Power domains: what a request may ask (R506, R507) and what a transition does (R504, R505). -/
namespace Sys2Proof.Machine
open Sys2Proof.Config

/-! ## What is held ON (R507) -/

/-- Power domains of the words from `a` to `a + n - 1` of a memory, seen once in every 0x80000 words. -/
def spanDomains (s : State) (a n : Nat) : List Nat :=
  ((upto (n / 0x80000 + 1)).map (fun i => a + i * 0x80000) ++ [a + n - 1] ++ (if 0x40000000 ≤ a && 128 < n then [a + 128] else [])).filterMap (fun b =>
    match memPlace s b with | some (k, i, o) => if b < a + n && 3 ≤ k then some (memDomain k i o) else none | none => none)
/-- Memory that the admitted timetable and what is enabled with it use: window and arguments of the carts, rings and
ring descriptors, the image store. -/
def heldSpans (s : State) : List (Nat × Nat) :=
  (match s.carts.table with
   | some t => t.carts.flatMap (fun c => [(c.wbase * 64, if c.wsize = 0 then 0 else 2 ^ c.wsize), (c.arg0.toNat, 1), (c.arg1.toNat, 1)])
   | none => []) ++
  (enWagons s).flatMap (fun e =>
    let d := wagOf s e.1 e.2
    (if d.srck = 0 then let r := srcRing s e.1 d; [(d.srd, 8), (r.base, r.size)] else []) ++
    (if d.dstk = 0 then let r := dstRing s e.1 d; [(d.drd, 8), (r.base, r.size)] else [])) ++
  ((enCtxs s).filter (fun x => ctxProto s x ≠ 1)).map (fun x => ((ctxW s x 6).toNat, cxRing s x)) ++
  [s.pwr.imageStore]
/-- Domains that R507 holds ON while a timetable is admitted. -/
def heldAdmitted (s : State) : List Nat :=
  match s.carts.table with
  | none => []
  | some t => 144 :: (t.images.filterMap (fun r => slotOf s r.coach)) ++ (heldSpans s).flatMap (fun e => if e.2 = 0 then [] else spanDomains s e.1 e.2)
/-- A domain that an enabled unit holds ON at all times. -/
def heldAlways (s : State) (d : Nat) : Bool :=
  (decide (132 ≤ d) && decide (d < 140) && (upto 4).any (fun j => apOn s (4 * (d - 132) + j))) ||
  (decide (126 ≤ d) && decide (d < 132) && regB s (ethBase (d - 126)) 31) ||
  (decide (140 ≤ d) && decide (d < 144) && (upto 64).any (fun t => asOn s (64 * (d - 140) + t)))
def heldOn (s : State) (d : Nat) : Bool := heldAlways s d || (heldAdmitted s).contains d

/-! ## A cluster clock that waits for its voltage (R501) -/

/-- CL_PLL of a cluster (R523). -/
def clPll (k : Nat) : Nat := 0x04000000 + k * 0x10000 + 0x100
/-- The PLL of a cluster takes its new multiplier, and no change of it waits any more. -/
def putClock (s : State) (k mult : Nat) : State :=
  let t := setReg s (clPll k) (n32 (2 ^ 31 + mult % 64))
  { t with pwr := { t.pwr with clockWait := tput 0 t.pwr.clockWait k 0, clockAt := tput 0 t.pwr.clockAt k 0 } }
/-- The change that waits is made. -/
def landClock (s : State) (k : Nat) : State := match tget 0 s.pwr.clockWait k with | 0 => s | m + 1 => putClock s k m

/-! ## Requests (R506) -/

/-- Why a request for state `req` of domain `d` is refused, as an abort code; none where it stands. A request for the
state the domain has, or has been asked for, asks nothing. -/
def domRefuse (s : State) (d req : Nat) : Option Nat :=
  if !(domPresent s.variant d) then (if req = 0 then none else some 9)
  else if req = 3 then some 6
  else if req ≠ 2 && (d = 72 || d = 145 || d = 146 || d = 147) then some 6
  else if req = 1 && !(domRetention d) then some 6
  else if req ≠ 0 && (d < 72 && (slotSt s d = 1 || slotSt s d = 2) || 84 ≤ d && tget 0 s.mem.badGroups d = 1) then some 5
  else if req ≠ 2 && heldOn s d then some 5
  else if (req = 0 && domState s d = 1) || (req = 1 && domState s d = 0) then some 5
  else none
def domBusy (s : State) (d : Nat) : Bool := regB s (pwrDom d) 11
/-- Domains in transition. -/
def movingCount (s : State) : Nat := s.pwr.moving.length

/-! ## Transitions (R504, R505) -/

/-- A word of the data memories lies in a domain. -/
def inDomain (d k : Nat) : Bool := memDomain (keyKind k) (keyInst k) (keyOff k) = d
/-- The memories of a domain are as a destructive march leaves them, or lost. -/
def wipeDomain (s : State) (d : Nat) : State :=
  let m := s.mem
  { s with mem := { m with data := m.data.filter (fun e => !(inDomain d e.1)), check := m.check.filter (fun e => !(inDomain d (4 * e.1))),
                           parity := m.parity.filter (fun e => !(inDomain d (256 * e.1))), pcheck := m.pcheck.filter (fun e => !(inDomain d (256 * e.1))),
                           merge := m.merge.filter (fun e => !(e.2.any (fun x => inDomain d (4 * x.line)))),
                           recon := m.recon.filter (fun r => !(inDomain d (256 * r.page))), writeBack := m.writeBack.filter (fun e => !(inDomain d (4 * e.2))) } }
/-- Merge-buffer entries of a domain are written out. -/
def flushDomain (s : State) (d : Nat) : State :=
  s.mem.merge.foldl (fun t e => e.2.foldl (fun t x => if inDomain d (4 * x.line) then writeOutEntry t e.1 x 0xFF else t) t) s
/-- Registers of a block are back at reset. -/
def resetBlock (s : State) (lo hi : Nat) : State := { s with regs := tclear s.regs lo hi }
/-- The logic of a domain is lost: a coach is off, the registers of a port group, an Ethernet port or an ASRC engine are
at reset. -/
def logicLost (s : State) (d : Nat) : State :=
  if d < 76 then
    let t := match haltSource d with | some n => setLevel s n false | none => s
    setCo (dropReqs t d) d (offCoach (co t d))
  else if 126 ≤ d && d < 132 then resetBlock (dropLink s (d - 126)) (ethBase (d - 126)) (ethBase (d - 126) + 0x10000)
  else if 132 ≤ d && d < 140 then resetBlock s (apBase (4 * (d - 132))) (apBase (4 * (d - 132)) + 0x40000)
  else if 140 ≤ d && d < 144 then resetBlock s (asBase (d - 140)) (asBase (d - 140) + 0x10000)
  else s
/-- A domain reaches a state: 0 OFF, 1 RETENTION, 2 ON. L0 has copied the crash area of a halted coach before (R205). -/
def setDomain (s0 : State) (d st : Nat) : State :=
  let s := if d < 76 && st ≠ 2 then copyCrash s0 d else s0
  if domState s d = st then s
  else if st = 0 then setRegF (wipeDomain (logicLost s d) d) (pwrDom d) 8 2 0
  else if st = 1 then setRegF (logicLost (flushDomain s d) d) (pwrDom d) 8 2 1
  else setRegF s (pwrDom d) 8 2 2
/-- L0 switches a domain for a need of its own, its requested state with it. -/
def switchOff (s : State) (d : Nat) : State := setDomain s d 0
def switchOn (s : State) (d : Nat) : State := setDomain (setRegF s (pwrDom d) 0 2 2) d 2
/-- L0 starts the change of a domain towards state `req`, while fewer than four domains change (R504). -/
def domStart (s : State) (d req : Nat) : State :=
  if domState s d = req || domBusy s d || !(domPresent s.variant d) || 4 ≤ movingCount s then s
  else
    let t := setRegB s (pwrDom d) 11 true
    { t with pwr := { t.pwr with moving := tput 0 t.pwr.moving d (req + 1) } }
/-- DOMAIN_REQUEST: L0 starts the transition, or refuses the request with nothing switched. A request that finds four
domains in transition waits in PWR_DOM.REQ. -/
def domainReqOp (s : State) (d req : Nat) : State :=
  if (domRefuse s d req).isSome || !(domPresent s.variant d) then s else domStart (setRegF s (pwrDom d) 0 2 req) d req
/-- The first waiting request, in index order (R504). -/
def domNext (s : State) : State :=
  match (upto 148).find? (fun d => domPresent s.variant d && !(domBusy s d) && regF s (pwrDom d) 0 2 ≠ domState s d &&
      (domRefuse s d (regF s (pwrDom d) 0 2)).isNone && !(d < 72 && slotSt s d ≠ 0)) with
  | some d => domStart s d (regF s (pwrDom d) 0 2)
  | none => s
/-- DOMAIN_TRANSITION_DONE: the domain reaches its new state, and a waiting request starts. -/
def domainDoneOp (s : State) (d : Nat) : State :=
  match tget 0 s.pwr.moving d with
  | 0 => s
  | r =>
    let t := setRegB (setDomain s d (r - 1)) (pwrDom d) 11 false
    domNext { t with pwr := { t.pwr with moving := tput 0 t.pwr.moving d 0 } }

/-- DOMAIN_REQUEST (R506). -/
def execDomainRequest (d req : Nat) (s : State) : Host.Outcome State Fault Refusal := act (Instr.wf (.domainRequest d req)) (domainReqOp s d req)
/-- DOMAIN_TRANSITION_DONE (R504). -/
def execDomainTransitionDone (d : Nat) (s : State) : Host.Outcome State Fault Refusal := act (Instr.wf (.domainTransitionDone d)) (domainDoneOp s d)
end Sys2Proof.Machine
end

