-- ==== Sys2Proof/Machine/BlackBox.lean ====
section
/-! DEFINITION. Device states (R27 to R29), the black box's ring, its triggers and its copies (R475 to R486, R544), and
supply dips (R487 to R489). -/
namespace Sys2Proof.Machine
open Sys2Proof.Config

/-! ## Device states -/

/-- A transition by row `row` of Table 8 of chapter 01; it writes an entry (R29). -/
def setDev (s : State) (new row : Nat) : State := { bbL0 s 0x0101 (n32 s.dev) (n32 new) (n32 row) 0 with dev := new }
/-- An event or a command refused by state (R28): what was asked, and the abort code. -/
def refusedByState (s : State) (what code : Nat) : State := bbL0 s 0x0102 (n32 s.dev) (n32 what) (n32 code) 0
/-- The state that audio and dispatch follow: the held state in SERVICE (R27). -/
def audioState (s : State) : Nat := if s.dev = 7 then s.held else s.dev

/-! ## Entries as words (R476, R544) -/

def bbEntryNum (e : BbEntry) : Nat :=
  e.time % 2 ^ 64 + (e.skind % 256 * 256 + e.sinst % 256) * 2 ^ 64 + e.code % 65536 * 2 ^ 80 + e.seq % 2 ^ 32 * 2 ^ 96 +
  e.p0.toNat * 2 ^ 128 + e.p1.toNat * 2 ^ 160 + e.p2.toNat * 2 ^ 192 + e.p3.toNat * 2 ^ 224
def bbHeaderNum (h : BbHeader) : Nat :=
  1 + h.boot % 2 ^ 32 * 2 ^ 32 + h.seq % 2 ^ 32 * 2 ^ 64 + (h.state % 4 * 2 ^ 30 + h.wridx % 4096 * 4096 + h.trigidx % 4096) * 2 ^ 96 +
  h.dropped % 2 ^ 32 * 2 ^ 128 + h.trigmask % 256 * 2 ^ 160
def bbZero : BbEntry := { time := 0, skind := 0, sinst := 0, code := 0, seq := 0, p0 := 0, p1 := 0, p2 := 0, p3 := 0 }
def ringAtIdx (r : Table BbEntry) (i : Nat) : BbEntry := tget bbZero r i
/-- An entry of the ring as its SRAM reads, through its check bytes (R306). -/
def ringRead (s : State) (i : Nat) : Nat := lightLines 4 (bbEntryNum (ringAtIdx s.bb.ring i)) (tget 0 s.bb.ringCheck i).toNat

/-- Entries of the ring that fail the light code (R485). -/
def ringDamage (s : State) : List Nat :=
  (upto 4096).filter (fun i => lightBad 4 (bbEntryNum (ringAtIdx s.bb.ring i)) (tget 0 s.bb.ringCheck i).toNat)

/-! ## The ring (R478, R480) -/

def bbMask (s : State) : Nat := regF s (bbBase + 2) 0 8
/-- The header is rewritten with the TRIGMASK in force (R544). -/
def setHeader (s : State) (h : BbHeader) : State := { s with bb := { s.bb with header := { h with trigmask := bbMask s } } }
/-- Trigger bit of an entry (Table 2). -/
def trigBit (e : BbEntry) : Option Nat :=
  if e.code = 0x0101 then (if e.p1 = 6 then some 6 else none)
  else if e.code = 0x0201 then some 0
  else if e.code = 0x0301 then some 1
  else if e.code = 0x0303 then some 2
  else if e.code = 0x0601 then some 3
  else if e.code = 0x0603 || e.code = 0x0604 then some 4
  else if e.code = 0x0701 then (if rfld e.p0 28 4 = 2 || rfld e.p0 28 4 = 4 || rfld e.p0 28 4 = 9 then some 5 else none)
  else if e.code = 0x0901 then some 7
  else none
def triggers (s : State) (e : BbEntry) : Bool :=
  e.code = 0x0C03 || (match trigBit e with | some b => bitN (bbMask s) b | none => false)
/-- As the intake has room, an entry 0x0C01 for the lowest class with losses is queued (R478). -/
def bbLostNext (s : State) : State :=
  match (upto 16).find? (fun c => !(reg s (bbLost c) = 0)) with
  | some c =>
    let e := bbEntry s 0 0xFF 0x0C01 (n32 c) (n32 (regF s (bbLost c) 0 16)) 0 0
    let t := setReg s (bbLost c) 0
    { t with bb := { t.bb with intake := t.bb.intake ++ [e] } }
  | none => s
/-- An entry is written at WRIDX, and may trigger (Table 3). -/
def ringPut (s : State) (e : BbEntry) : State :=
  let h := s.bb.header
  let e' := { e with seq := h.seq % 2 ^ 32 }
  let s := { s with bb := { s.bb with ring := tput bbZero s.bb.ring h.wridx e', ringCheck := tput 0 s.bb.ringCheck h.wridx (n32 (lightChecks 4 (bbEntryNum e'))) } }
  let h' := { h with wridx := (h.wridx + 1) % 4096, seq := (h.seq + 1) % 2 ^ 32 }
  if h.state = 0 && triggers s e then
    pulse (setHeader { s with bb := { s.bb with since := 0 } } { h' with state := 1, trigidx := h.wridx }) 1042
  else if h.state = 1 then
    setHeader { s with bb := { s.bb with since := s.bb.since + 1 } } (if s.bb.since + 1 = 256 then { h' with state := 2 } else h')
  else setHeader s h'
/-- RING_WRITE: one entry leaves the intake, 16 fabric cycles after the one before it; FROZEN drops it (R478, R480, R482). -/
def ringWriteOp (s : State) : State :=
  if !s.bb.ready || s.bb.rearming || decide (s.now < s.bb.nextWrite) then s
  else match s.bb.intake with
    | [] => s
    | e :: r =>
      let t := bbLostNext { s with bb := { s.bb with intake := r, nextWrite := s.now + 16 } }
      if s.bb.header.state = 2 then setHeader t { t.bb.header with dropped := incSat 32 t.bb.header.dropped } else ringPut t e
/-- The intake is written out, the time that takes left out (R206). -/
def ringDrain : Nat → State → State
  | 0, s => s
  | n + 1, s => if s.bb.intake.isEmpty then s else ringDrain n (ringWriteOp { s with bb := { s.bb with nextWrite := s.now } })

/-! ## Copies (R482, R484 to R486) -/

def copy0 : BbCopy := { header := { boot := 0, seq := 0, state := 0, wridx := 0, trigidx := 0, dropped := 0, trigmask := 0 }, valid := false, time := 0, ring := [], damage := [] }
def copyAt (s : State) (p : Nat) : BbCopy := tget copy0 s.bb.copies p
/-- The slot R486 replaces next: of the copies, oldest first, the first whose ring was never triggered, else the oldest. -/
def copyVictim (s : State) : Nat :=
  let o := s.bb.copyOrder.reverse
  (o.find? (fun p => (copyAt s p).header.state = 0)).getD (o.headD 0)
/-- The slot the next copy goes to: an erased one where there is one. -/
def copySlot (s : State) : Nat := ((upto 4).find? (fun p => !(s.bb.copyOrder.contains p))).getD (copyVictim s)
def eraseCopy (s : State) (p : Nat) : State :=
  { s with bb := { s.bb with copies := tput copy0 s.bb.copies p copy0, copyOrder := s.bb.copyOrder.filter (fun q => q ≠ p) } }
/-- A copy is written to a slot. -/
def putCopy (s : State) (p : Nat) (c : BbCopy) : State :=
  let t := eraseCopy s p
  { t with bb := { t.bb with copies := tput copy0 t.bb.copies p c, copyOrder := p :: t.bb.copyOrder } }
/-- REARM begins: the ring writes nothing while L0 copies it (R482). -/
def rearmStart (s : State) : State := { s with bb := { s.bb with rearming := true } }
/-- REARM_COMPLETE (R482). -/
def rearmDoneOp (s : State) : State :=
  if !s.bb.rearming then s
  else
    let p := copySlot s
    let t := putCopy s p { header := s.bb.header, valid := true, time := s.dtime, ring := s.bb.ring, damage := ringDamage s }
    let t := setHeader { t with bb := { t.bb with rearming := false, since := 0 } } { t.bb.header with state := 0, trigidx := 0, dropped := 0 }
    longDone (bbL0 t 0x0C04 (n32 p) 0 0 0) (0x8001 * 256 + 3) 0
/-- All four copies are erased (R495). -/
def eraseAll (s : State) : State := (upto 4).foldl eraseCopy s
/-- Words of a number in the memory of L0, through its codes. -/
def l0Put (s : State) (off lines x : Nat) : State :=
  (upto lines).foldl (fun s i => (turnAccess s (reqClass 72 0 false) (portOf 2 0 (off + 8 * i) 72 false) .store (wordKey 2 0 (off + 8 * i)) 8 (x / 2 ^ (128 * i)) 72).st) s
/-- SELFTEST copies header and ring to the memory of L0, and initialises the ring (R484). -/
def bbSelftest (s : State) : State :=
  let b := s.bb
  let c : BbCopy := { header := b.header, valid := b.retained, time := 0, ring := b.ring, damage := ringDamage s }
  let s := l0Put s 0x6FFF0 2 (bbHeaderNum b.header)
  let s := (upto 4096).foldl (fun s i => if ringAtIdx b.ring i = bbZero then s else l0Put s (0x70000 + 16 * i) 2 (ringRead s i)) s
  let boot := if b.retained then b.header.boot + 1 else maxL (b.copyOrder.map (fun p => (copyAt s p).header.boot)) + 1
  let s := { s with bb := { s.bb with ring := [], ringCheck := [], since := 0, l0copy := some c, retained := true, ready := true } }
  let s := setHeader s { boot := boot % 2 ^ 32, seq := 0, state := 0, wridx := 0, trigidx := 0, dropped := 0, trigmask := 0 }
  if b.retained then s else ringPut s (bbEntry s 0 0xFF 0x0C02 0 0 0 0)
/-- BOOT copies the ring of the boot before to flash, and writes the entry of the boot (R485); a write that fails leaves its slot
erased. -/
def bbBoot (s : State) (copied : Bool) : State :=
  match s.bb.l0copy with
  | none => s
  | some c =>
    let t := if copied then putCopy s (copySlot s) { c with time := s.dtime } else eraseCopy s (copySlot s)
    let t := { t with bb := { t.bb with l0copy := none } }
    bbL0 t 0x0B01 (n32 (regF t (pwrBase + 0x204) 0 8)) (n32 (if !copied then 2 else if c.valid then 0 else 1)) (n32 t.bb.header.boot) 0
/-- After CONFIG is entered, the slot that the next copy replaces is erased (R485). -/
def bbReadySlot (s : State) : State := if s.bb.copyOrder.length < 4 then s else eraseCopy s (copyVictim s)

/-! ## Registers (R494) -/

def bbIn (w : Nat) : Nat := bbBase + 0x40 + 2 * w
/-- What a load of a BB_ register by L0 returns. -/
def bbLoad (s : State) (m a : Nat) : W32 :=
  let o := a - bbBase
  let h := s.bb.header
  if m ≠ 72 then 0
  else if o = 0 then n32 (h.state % 4 * 2 ^ 30 + s.bb.intake.length * 2 ^ 24 + h.wridx % 4096 * 4096 + (if h.state = 0 then 0 else h.trigidx % 4096))
  else if o = 4 then n32 h.dropped
  else if 0x30 ≤ o && o < 0x40 then n32 (ringRead s (regF s (bbBase + 6) 0 12) / 2 ^ (16 * (o - 0x30)))
  else reg s a
/-- L0's entry of BB_IN_0 to BB_IN_5 is committed: SKIND 0x01, the time and SEQ of the intake. -/
def bbCommit (s : State) : State :=
  let w0 := reg s (bbIn 0)
  bbOffer s (bbEntry s 1 (rfld w0 0 8) (rfld w0 16 16) (reg s (bbIn 2)) (reg s (bbIn 3)) (reg s (bbIn 4)) (reg s (bbIn 5)))
/-- A store to a BB_ register: only L0 stores. A new TRIGMASK stands in the header at once, which describes the ring as it stands (R544). -/
def bbStore (s : State) (m a : Nat) (v : W32) : State :=
  if m ≠ 72 then s
  else
    let t := storePlain s m a v
    if a = bbIn 5 then bbCommit t else if a = bbBase + 2 then setHeader t t.bb.header else t
/-- BB_IN_COMMIT. -/
def bbCommitOp (s : State) (m : Nat) (v : W32) : State := bbStore s m (bbIn 5) v

/-! ## Summaries and dips (R479, R487 to R489) -/

/-- LOST_PERIOD_SUMMARY: a whole second of device time with losses has passed (R479). -/
def lostSumOp (s : State) : State :=
  let l := s.carts.lostNow
  if l.isEmpty || decide (s.dtime / 10 ^ 9 ≤ s.carts.lastSecond) then s
  else
    let most := l.foldl (fun (r : Nat × Nat) e => if e.2 > r.2 then e else r) (0, 0)
    let t := bbL0 s 0x0A01 (n32 ((l.map (fun e => e.2)).foldl (· + ·) 0)) (n32 l.length) (n32 most.1) (n32 most.2)
    { t with carts := { t.carts with lostNow := [], lastSecond := s.dtime / 10 ^ 9 } }
/-- PFAIL_ASSERT: the dip begins or goes on; the DRAM parks and the outputs mute (R488). -/
def pfailOp (s : State) : State :=
  if s.bb.pfail then s
  else
    let b := s.bb
    let t := if b.dip then { s with bb := { b with pfail := true } } else
      let u := { s with bb := { b with pfail := true, dip := true, dipStart := s.now, dips := b.dips + 1, dipLost := 0, muted := true } }
      bbHw u 0xFF 0x0601 (n32 s.dev) (n32 u.bb.dips) 0 0
    parkOp (setLevel t 1043 true)
/-- PFAIL_RELEASE: the wait of 1 ms for the end of the dip starts (R487). -/
def pfailEndOp (s : State) : State :=
  if s.bb.pfail then setLevel { s with bb := { s.bb with pfail := false, dipRelease := s.now } } 1043 false else s
/-- DIP_END: PFAIL_N has been high for 1 ms (R489). -/
def dipEndOp (s : State) : State :=
  let b := s.bb
  if !b.dip || b.pfail || s.now < b.dipRelease + 1000000 then s
  else
    let us := (b.dipRelease - b.dipStart) / 1000
    let t := bbHw s 0xFF 0x0602 (n32 (Nat.min us (2 ^ 32 - 1))) (n32 b.dipLost) 0 0
    unparkOp { t with bb := { t.bb with dip := false, muted := false, dipLongest := Nat.max b.dipLongest us, dipTotal := b.dipTotal + us } }

/-- RING_WRITE (R478). -/
def execRingWrite (s : State) : Host.Outcome State Fault Refusal := act (Instr.wf .ringWrite) (ringWriteOp s)
/-- BB_IN_COMMIT (R494). -/
def execBbInCommit (m : Nat) (v : W32) (s : State) : Host.Outcome State Fault Refusal := act (Instr.wf (.bbInCommit m v)) (bbCommitOp s m v)
/-- REARM_COMPLETE (R482). -/
def execRearmComplete (s : State) : Host.Outcome State Fault Refusal := act (Instr.wf .rearmComplete) (rearmDoneOp s)
/-- LOST_PERIOD_SUMMARY (R479). -/
def execLostPeriodSummary (s : State) : Host.Outcome State Fault Refusal := act (Instr.wf .lostPeriodSummary) (lostSumOp s)
/-- PFAIL_ASSERT (R488). -/
def execPfailAssert (s : State) : Host.Outcome State Fault Refusal := act (Instr.wf .pfailAssert) (pfailOp s)
/-- PFAIL_RELEASE (R487). -/
def execPfailRelease (s : State) : Host.Outcome State Fault Refusal := act (Instr.wf .pfailRelease) (pfailEndOp s)
/-- DIP_END (R489). -/
def execDipEnd (s : State) : Host.Outcome State Fault Refusal := act (Instr.wf .dipEnd) (dipEndOp s)
end Sys2Proof.Machine
end

