-- ==== Sys2Proof/Machine/Admission.lean ====
section
/-! DEFINITION. Admission (R239 to R242, R257 to R261), its stream checks (R364, R369, R378, R382, R415), the entry to RUN
or DEGRADED, and the withdrawal (R545). All arithmetic is exact. -/
namespace Sys2Proof.Machine
open Sys2Proof.Config

/-! ## Exact numbers -/

def q (n : Nat) : Rat := (n : Rat)
/-- Value of a binary32. -/
def f32Rat (x : Nat) : Rat := let e := fExpo f32 x; if e ≥ 0 then (fMant f32 x : Rat) * q (2 ^ e.toNat) else (fMant f32 x : Rat) / q (2 ^ (-e).toNat)
/-- A number of 0 or more as binary32, to nearest even. -/
def ratF32 (x : Rat) : Nat :=
  let n := x.num.toNat * 2 ^ 64
  (packF rneEnv f32 false ((2 * (n / x.den) + b2n (n % x.den ≠ 0) : Nat) : Int) (-65)).val
/-- Parameters of entry 0x4002. -/
def admBound (s : State) : Rat := f32Rat (valN s 0x4002 1 0x3F666666)
def admRho (s : State) : Rat := f32Rat (valN s 0x4002 2 0x3CA3D70A)
def admGrace (s : State) : Nat := valN s 0x4002 3 64

/-! ## The timetable image (R238, R240, R241) -/

/-- The cart in a record of 20 words. -/
def cartRec (l : List Word) : Cart :=
  let f (o : Nat) := ofWords ((l.drop o).take 2)
  let x := f 0
  let w := fld (f 2) 0 5
  { bestEffort := bitN x 31, steal := fld x 29 2, rsrc := fld x 26 3, fetch := bitN x 25, pred := fld x 22 3, home := fld x 16 6, entry := fld x 0 15,
    wbase := fld (f 2) 6 26, wsize := w, arg0 := n32 (f 4), arg1 := n32 (f 6), ssdepth := fld (f 8) 26 6, budget := fld (f 8) 0 24,
    epoch := fld (f 10) 24 8, period := fld (f 10) 0 24, scnt := fld (f 12) 28 4, succ := fld (f 12) 24 4 * 256 + fld (f 14) 24 8,
    deadline := fld (f 12) 0 24, offset := fld (f 14) 0 24, nsh := fld (f 16) 0 24, lmax := fld (f 18) 0 16,
    reserved := bitN x 15 || bitN (f 2) 5 || fld (f 8) 24 2 ≠ 0 || fld (f 16) 24 8 ≠ 0 || fld (f 18) 16 16 ≠ 0 || fld x 29 2 = 3 || fld x 26 3 = 2 ||
      fld x 26 3 = 3 || (1 ≤ w && w ≤ 5) || w = 31 || (w ≠ 0 && fld (f 2) 6 26 * 64 % 2 ^ w ≠ 0) || fld (f 8) 0 24 = 0 || fld (f 18) 0 16 = 0 }
def imageRec (l : List Word) : ImageRec :=
  let f (o : Nat) := (l.getD o 0).toNat
  { coach := f 0 % 64, cim := f 1, ldm := f 2, hold := f 3, bad := f 0 ≥ 64 || (1 ≤ f 3 && f 3 ≤ 15) || f 3 > 4095 }
def imgNcart (l : List Word) : Nat := (l.getD 6 0).toNat
def imgNsucc (l : List Word) : Nat := (l.getD 7 0).toNat
def imgNimg (l : List Word) : Nat := (l.getD 8 0).toNat
/-- The image's length is the one its counts give. -/
def imageSized (l : List Word) : Bool := decide (16 ≤ l.length) && l.length = 16 + 20 * imgNcart l + imgNsucc l + 4 * imgNimg l
def parseImage (l : List Word) : Timetable :=
  let n := imgNcart l
  let tail := l.drop (16 + 20 * n)
  { epoch := (l.getD 1 0).toNat % 256, start := ofWords ((l.drop 2).take 4), carts := (upto n).map (fun v => cartRec ((l.drop (16 + 20 * v)).take 20)),
    succ := (tail.take (imgNsucc l)).map (fun w => w.toNat), images := (upto (imgNimg l)).map (fun i => imageRec ((tail.drop (imgNsucc l + 4 * i)).take 4)) }
/-- Words of an image of the booted package. -/
def pkgImage (s : State) (num kind : Nat) : Option (List Word) :=
  match s.pwr.images.find? (fun e => e.1 = num && e.2.1 = kind) with | some e => some e.2.2.2 | none => none
def imgOfCoach (t : Timetable) (n : Nat) : Option ImageRec := t.images.find? (fun r => r.coach = n)

/-! ## Failures -/

structure AdmFail where
  reason : Nat
  cart : Nat
  coach : Nat
  deriving DecidableEq, Repr
def failAt (b : Bool) (reason cart coach : Nat) : Option AdmFail := if b then some { reason := reason, cart := cart, coach := coach } else none
/-- The first failure of two. -/
def orF (a b : Option AdmFail) : Option AdmFail := match a with | some x => some x | none => b
def eachCart (t : Timetable) (f : Nat → Cart → Option AdmFail) : Option AdmFail :=
  (upto t.carts.length).findSome? (fun v => match t.carts[v]? with | some c => f v c | none => none)

/-- Step 1 (R261): what is absent from the variant. -/
def windowAbsent (s : State) (c : Cart) : Bool :=
  let a := c.wbase * 64
  let e := a + 2 ^ c.wsize
  c.wsize ≠ 0 && (decide (a < 0x02000000 && 0x01000000 + s.variant.clusters * 0x200000 < e && 0x01000000 + s.variant.clusters * 0x200000 < 0x02000000) ||
    decide (0x40000000 + dramSize s.variant < e))
def absentFail (s : State) (t : Timetable) : Option AdmFail :=
  orF (t.images.findSome? (fun r => failAt (decide (s.variant.coaches ≤ r.coach)) 0xF 0xFFFF r.coach))
    (eachCart t (fun v c => orF (failAt (decide (s.variant.coaches ≤ c.home)) 0xF v c.home) (failAt (windowAbsent s c) 0xF v 0xFF)))

/-- R239 on one descriptor. -/
def cartValid (s : State) (t : Timetable) (c : Cart) : Bool :=
  !c.reserved && ((c.rsrc = 1) == decide (1 ≤ c.pred)) &&
  (match c.rsrc with
   | 0 => decide (1000 ≤ c.period) && decide (c.offset < c.period) && decide (1 ≤ c.deadline) && decide (c.deadline ≤ c.period)
   | 1 => c.period = 0 && c.deadline = 0 && c.offset = 0
   | m => decide (2 ≤ c.period) && decide (c.offset < c.period) && decide (1 ≤ c.deadline) &&
          decide (c.deadline * 10 * 1001 * clockHz s (m - 4) ≤ c.period * 10 ^ 12)) &&
  c.epoch = t.epoch && c.epoch ≠ 0 && decide (c.succ + c.scnt ≤ t.succ.length) &&
  (match imgOfCoach t c.home with
   | some r => (match pkgImage s r.cim 1 with | some l => decide (c.entry < l.length) | none => false)
   | none => false)
/-- The limits of R241, reason 0x06. -/
def limitFail (t : Timetable) : Option AdmFail :=
  orF ((upto 64).findSome? (fun n => failAt (decide ((t.carts.filter (fun c => c.home = n)).length > 64)) 6 0xFFFF n))
    ((upto 8).findSome? (fun k => failAt (decide ((t.carts.filter (fun c => c.home / 8 = k)).length > 512)) 6 0xFFFF 0xFF))
/-- The other fields of Table 3. -/
def headValid (l : List Word) (t : Timetable) : Bool :=
  l.getD 0 0 = 1 && decide ((l.getD 1 0).toNat < 256) && t.epoch ≠ 0 && decide (1 ≤ imgNcart l) && decide (imgNcart l ≤ 4096) && decide (imgNsucc l ≤ 4096) &&
  decide (1 ≤ imgNimg l) && decide (imgNimg l ≤ 64) && ((l.drop 9).take 7).all (fun w => w = 0) && t.succ.all (fun w => decide (w < 4096))
def imagesFail (s : State) : List ImageRec → Option AdmFail
  | [] => none
  | r :: rest =>
    orF (failAt (r.bad || (pkgImage s r.cim 1).isNone || (r.ldm ≠ 0xFFFF && (pkgImage s r.ldm 2).isNone) || rest.any (fun x => x.coach = r.coach)) 1 0xFFFF r.coach)
      (imagesFail s rest)
/-- Step 2: R239, R241 and R242. -/
def enters (t : Timetable) (v : Nat) : Nat := ((upto t.carts.length).map (fun u => ((succsAt t u).filter (fun w => w = v)).length)).foldl (· + ·) 0
def rootsOf (t : Timetable) (v : Nat) : List Nat :=
  (upto t.carts.length).filter (fun r => (match t.carts[r]? with | some c => c.pred = 0 | none => false) && (r = v || (reachOf t r).contains v))
def graphFail (t : Timetable) : Option AdmFail :=
  orF (eachCart t (fun v _ => failAt ((reachOf t v).contains v) 5 v 0xFF))
  (orF (eachCart t (fun v c => failAt (c.pred ≠ enters t v) 5 v 0xFF))
  (orF (eachCart t (fun v c => failAt (c.pred ≠ 0 && decide ((rootsOf t v).length > 1)) 5 v 0xFF))
  (orF (eachCart t (fun v c => failAt (c.pred ≠ 0 && (rootsOf t v).any (fun r => match t.carts[r]? with | some x => x.bestEffort != c.bestEffort | none => false)) 5 v 0xFF))
    (eachCart t (fun v _ => failAt ((succsAt t v).any (fun w => decide (t.carts.length ≤ w))) 5 v 0xFF)))))
def formFail (s : State) (l : List Word) (t : Timetable) (epoch : Nat) : Option AdmFail :=
  if !imageSized l then failAt true 1 0xFFFF 0xFF
  else
    orF (eachCart t (fun v c => failAt (!cartValid s t c) 1 v 0xFF))
    (orF (limitFail t)
    (orF (failAt (t.epoch ≠ epoch) 0xB 0xFFFF 0xFF)
    (orF (failAt (!headValid l t) 1 0xFFFF 0xFF)
    (orF (imagesFail s t.images) (graphFail t)))))

/-! ## Budgets and windows (R257, R258) -/

/-- C′ of a cart in cycles. -/
def inflated (s : State) (c : Cart) : Nat := (q (c.budget + 48 + 4 * c.nsh + admGrace s) / (1 - admRho s)).ceil.toNat
def cartMHz (s : State) (c : Cart) : Nat := clusterMHz s (c.home / 8)
def cartT (s : State) (t : Timetable) (v : Nat) : Rat := match t.carts[v]? with | some c => q (inflated s c * 1000) / q (cartMHz s c) | none => 0
/-- Carts in topological order. -/
def topoGo (t : Timetable) : Nat → List Nat → List Nat → List Nat
  | 0, _, done => done
  | n + 1, left, done =>
    let ready := left.filter (fun v => !(left.any (fun u => (succsAt t u).contains v)))
    if ready.isEmpty then done else topoGo t n (left.filter (fun v => !(ready.contains v))) (done ++ ready)
def topo (t : Timetable) : List Nat := topoGo t t.carts.length (upto t.carts.length) []
def predsOf (t : Timetable) (v : Nat) : List Nat := (upto t.carts.length).filter (fun u => (succsAt t u).contains v)
def homeAt (t : Timetable) (v : Nat) : Nat := match t.carts[v]? with | some c => c.home | none => 0
def lam (t : Timetable) (u v : Nat) : Nat := latency (homeAt t u) (homeAt t v)
def maxQ (l : List Rat) : Rat := l.foldl (fun a b => if a < b then b else a) 0
/-- a(v) and b(v) in ns. -/
def splitA (s : State) (t : Timetable) (ord : List Nat) : Table Rat :=
  ord.foldl (fun a v => tput 0 a v (cartT s t v + maxQ ((predsOf t v).map (fun u => tget 0 a u + q (lam t u v))))) []
def splitB (s : State) (t : Timetable) (ord : List Nat) : Table Rat :=
  ord.reverse.foldl (fun b v => tput 0 b v (maxQ ((succsAt t v).map (fun w => q (lam t v w) + cartT s t w + tget 0 b w)))) []
/-- The windows as published: d and r in ticks and C′ at keys 4v, 4v + 1, 4v + 2. -/
def splitWindows (s : State) (t : Timetable) : Table Nat :=
  let ord := topo t
  let a := splitA s t ord
  let b := splitB s t ord
  ord.foldl (fun w v =>
    let dg := match (rootsOf t v).head? with | some r => (match t.carts[r]? with | some c => c.deadline | none => 0) | none => 0
    let d := (q dg * tget 0 a v / (tget 0 a v + tget 0 b v)).floor.toNat
    let r := maxL ((predsOf t v).map (fun u => tget 0 w (4 * u) + lam t u v / 10))
    let c := match t.carts[v]? with | some c => inflated s c | none => 0
    tput 0 (tput 0 (tput 0 w (4 * v) d) (4 * v + 1) r) (4 * v + 2) c) []
def winD (w : Table Nat) (v : Nat) : Nat := tget 0 w (4 * v)
def winR (w : Table Nat) (v : Nat) : Nat := tget 0 w (4 * v + 1)
def winC (w : Table Nat) (v : Nat) : Nat := tget 0 w (4 * v + 2)
/-- W(v) in ticks. -/
def winW (w : Table Nat) (v : Nat) : Int := (winD w v : Int) - (winR w v : Int)

/-! ## The test of a coach (R259, R260) -/

/-- A window shorter than C′ at a clock in MHz. -/
def tooShort (w : Table Nat) (v mhz : Nat) : Bool := decide (winW w v * 10 * (mhz : Int) < (winC w v : Int) * 1000) || decide (winW w v ≤ 0)
/-- C′ / (f × W). -/
def term (w : Table Nat) (v mhz : Nat) : Rat := q (winC w v * 100) / (q mhz * (winW w v : Rat))
/-- U of a coach with some carts, by index, at a clock. -/
def coachU (t : Timetable) (w : Table Nat) (vs : List Nat) (hold mhz : Nat) : Rat :=
  let at_ (v : Nat) (f : Cart → Nat) : Nat := match t.carts[v]? with | some c => f c | none => 0
  let dl := vs.filter (fun v => at_ v (fun c => b2n c.bestEffort) = 0)
  match dl with
  | [] => 0
  | v :: r =>
    let wmin := r.foldl (fun m u => if winW w u < m then winW w u else m) (winW w v)
    let b := Nat.max ((if hold = 0 then 512 else hold) + 18) (maxL (vs.map (fun u => at_ u (fun c => c.lmax)))) + 36
    (dl.map (fun u => term w u mhz)).foldl (· + ·) 0 + q (b * 100) / (q mhz * (wmin : Rat))
/-- Preemption levels of a coach's carts: the window of each DEADLINE cart; 0 for BEST_EFFORT. -/
def levelOf (t : Timetable) (w : Table Nat) (v : Nat) : Int := match t.carts[v]? with | some c => if c.bestEffort then 0 else winW w v | none => 0
def levels (t : Timetable) (w : Table Nat) (vs : List Nat) : List Int := (vs.map (levelOf t w)).eraseDups
def poolNeed (t : Timetable) (w : Table Nat) (vs : List Nat) : Nat :=
  ((levels t w vs).map (fun l => maxL ((vs.filter (fun v => levelOf t w v = l)).map (fun v => match t.carts[v]? with | some c => c.ssdepth | none => 0)))).foldl (· + ·) 0
/-- An address in the CSM, GSM and DRAM windows. -/
def sharedAddr (a : Nat) : Bool := (decide (0x01000000 ≤ a) && decide (a < 0x02800000)) || (decide (0x40000000 ≤ a) && decide (a < 2 ^ 32))
def stealBad (c : Cart) : Bool :=
  (c.steal ≠ 0 && ((c.wsize ≠ 0 && !(sharedAddr (c.wbase * 64) && sharedAddr (c.wbase * 64 + 2 ^ c.wsize - 1))) ||
    (c.arg0 ≠ 0 && !sharedAddr c.arg0.toNat) || (c.arg1 ≠ 0 && !sharedAddr c.arg1.toNat))) || (c.steal = 2 && !c.bestEffort)
def homedOn (t : Timetable) (n : Nat) : List Nat := (upto t.carts.length).filter (fun v => match t.carts[v]? with | some c => c.home = n | none => false)
def holdLimit (t : Timetable) (n : Nat) : Nat := match imgOfCoach t n with | some r => r.hold | none => 0
/-- The cart with the largest term on a coach, the lowest index first. -/
def largest (t : Timetable) (w : Table Nat) (vs : List Nat) (mhz : Nat) : Nat :=
  (vs.foldl (fun (b : Nat × Rat) v =>
    match t.carts[v]? with | some c => if !c.bestEffort && b.2 < term w v mhz then (v, term w v mhz) else b | none => b) (0xFFFF, 0)).1
/-- Step 3 for one coach. -/
def coachFail (s : State) (t : Timetable) (w : Table Nat) (n : Nat) : Option AdmFail :=
  let vs := homedOn t n
  let f := clusterMHz s (n / 8)
  let inOrder (p : Nat → Bool) (reason : Nat) : Option AdmFail := vs.findSome? (fun v => failAt (p v) reason v n)
  orF (inOrder (fun v => tooShort w v f) 4)
  (orF (failAt (decide (admBound s < coachU t w vs (holdLimit t n) f)) 3 (largest t w vs f) n)
  (orF (failAt (decide ((levels t w vs).length > 16)) 7 0xFFFF n)
  (orF (failAt (decide (poolNeed t w vs > 256)) 8 0xFFFF n)
  (orF (inOrder (fun v => match t.carts[v]? with | some c => stealBad c | none => false) 9)
    (inOrder (fun _ => (logi s n).lstate = 1 || (logi s n).lstate = 2) 0xE)))))
/-- Step 3 over the coaches, and the U of each coach that was reached. -/
def coachesGo (s : State) (t : Timetable) (w : Table Nat) : List Nat → Table W32 → Option AdmFail × Table W32
  | [], u => (none, u)
  | n :: r, u =>
    let u := if (homedOn t n).any (fun v => tooShort w v (clusterMHz s (n / 8))) then u
      else tput 0 u n (n32 (ratF32 (coachU t w (homedOn t n) (holdLimit t n) (clusterMHz s (n / 8)))))
    match coachFail s t w n with
    | some e => (some e, u)
    | none => coachesGo s t w r u

/-! ## The stream checks (R260, R364, R369, R378, R382, R415) -/

/-- The fastest rate of a media clock in Hz (R347). -/
def fastHz (s : State) (m : Nat) : Rat := q (1001 * clockHz s m) / 1000
/-- `n` samples of a clock at its fastest rate, in ns. -/
def nsOf (s : State) (m n : Nat) : Rat := q (n * 10 ^ 9) / fastHz s m
/-- t_RX of a context's port (R393). -/
def ctxRx (s : State) (x : Nat) : Nat := if ctxPort s x < 4 then 6000 else 12000
/-- From the first count of a block to the first count of the last packet that covers it, at most. -/
def lastPacket (s : State) (d : Wag) : Int :=
  let p := ctxSpp s d.sidx
  ((upto p).map (fun k => let e := d.ph + k * d.bs + d.bs - 1
                          ((e - (e + p - ctxPhase s d.sidx % p) % p : Nat) : Int) - ((d.ph + k * d.bs : Nat) : Int))).foldl (fun a b => if a < b then b else a) (-((p : Nat) : Int))
/-- Latest ready time of a wagon's blocks after MT(n_src), in ns (Table 14, R411); none where nothing bounds it, or where
it is the latest start by construction. -/
def readyBy (s : State) (w : Table Nat) (d : Wag) : Option Rat :=
  match d.srck with
  | 0 => if d.pv then some (q (10 * winD w d.prod)) else some 0
  | 1 => some (nsOf s d.mc d.bs + 500)
  | 2 => some (nsOf s d.mc d.bs + 500)
  | 3 =>
    let l := lastPacket s d
    some ((if l ≥ 0 then nsOf s d.mc l.toNat else -(nsOf s d.mc (-l).toNat)) + q (1000 * ctxLat s d.sidx + ctxRx s d.sidx))
  | _ => none
/-- Look-ahead of an ASRC stream in input samples (R377). -/
def lookAhead (s : State) (u : Nat) : Rat :=
  let r := q (asHzOut s u) / q (asHzIn s u)
  if 1 ≤ r then q (asTaps s u) / 2 else q (asTaps s u) / (2 * r)
/-- Due time of a wagon's blocks after MT(n_src), in ns (Table 14). Of an ASRC destination: when the stream needs the
input for its reader's block, counted from the input's own time (DEDUCED, log entry 55 from R377). -/
def dueBy (s : State) (d : Wag) : Rat :=
  let p := nsOf s d.mc d.pdelay
  match d.dstk with
  | 1 => p - 200
  | 3 => p + q (1000 * ctxLat s d.didx) - 2000
  | 4 =>
    (match asReader s d.didx with
     | some e =>
       let x := wagOf s e.1 e.2
       p + nsOf s x.mc x.pdelay - nsOf s x.mc (x.bs - 1) + q (10 ^ 9 * (reg s (asDelay (d.didx / 64) (d.didx % 64))).toNat) / (4096 * fastHz s x.mc) -
         lookAhead s d.didx * 10 ^ 9 / q (asHzIn s d.didx) - q (100 * (x.xw + regF s (asWin (d.didx / 64) (d.didx % 64)) 0 16))
     | none => p)
  | _ => p
/-- Latest ready no later than latest start. -/
def startsInTime (s : State) (w : Table Nat) (d : Wag) : Bool :=
  match readyBy s w d with | some r => decide (r ≤ dueBy s d - q (100 * d.xw)) | none => true
/-- The producer's graph is released by the wagon's own media clock. -/
def prodClock (t : Timetable) (d : Wag) : Bool :=
  match (rootsOf t d.prod).head? with | some r => (match t.carts[r]? with | some c => c.rsrc = 4 + d.mc | none => false) | none => false
def wagonMargin (s : State) (t : Timetable) (w : Table Nat) (d : Wag) : Option AdmFail :=
  if d.srck = 0 && d.pv then
    failAt (!prodClock t d || !startsInTime s w d) 0xA (if d.prod < t.carts.length then d.prod else 0xFFFF) 0xFF
  else none
def distinct (l : List Nat) : Nat := l.eraseDups.length
/-- Lines of a ring's block that some of its channels touch, with the header's. -/
def ringLines (r : Ring) (chs : List Nat) : Nat :=
  1 + distinct (chs.flatMap (fun c => (upto r.bs).flatMap (fun j => let a := r.sample r.base c j; [a / 8, (a + fmtWords r.fmt - 1) / 8])))
/-- Lines of the slots of a context that some channels touch over `bs` counts from `n`, with a header's for each. -/
def slotLines (s : State) (x fmt : Nat) (chs : List Nat) (n bs : Nat) : Nat :=
  ((ctxPackets s x n bs).map (fun p => 1 + distinct (chs.flatMap (fun c => (upto bs).flatMap (fun j =>
    let b := ((n + j - p) * ctxNch s x + c) * fmtBytes fmt
    if p ≤ n + j && n + j < p + ctxSpp s x then [b / 16, (b + fmtBytes fmt - 1) / 16] else []))))).foldl (· + ·) 0
/-- Lines of 8 words that a wagon's block touches at an end, on channels `chs`, and whether they lie in DRAM (R369): in a
context, for the block that touches most. -/
def endLines (s : State) (n : Nat) (d : Wag) (chs : List Nat) (kind idx ring fmt first : Nat) : Nat × Bool :=
  match kind with
  | 0 => let r := (ringAt s (seMaster n) ring).1; (ringLines r chs, match memPlace s r.base with | some (k, _, _) => k = 5 | none => false)
  | 3 => (maxL ((upto (ctxSpp s idx)).map (fun k => slotLines s idx fmt chs (first + k * d.bs) d.bs)), false)
  | _ => (0, false)
def srcLines (s : State) (n : Nat) (d : Wag) : Nat × Bool := endLines s n d ((upto d.nch).filterMap (wagChan s n d)) d.srck d.sidx d.srd d.sfmt d.ph
def dstLines (s : State) (n : Nat) (d : Wag) : Nat × Bool := endLines s n d ((upto d.nch).map (fun i => d.dch0 + i)) d.dstk d.didx d.drd d.dfmt (d.ph + d.pdelay)
def usesDram (s : State) (n : Nat) : Bool :=
  (enWagons s).any (fun e => e.1 = n && (let d := wagOf s n e.2; (srcLines s n d).2 || (dstLines s n d).2))
/-- q_B: the other stream engines that use DRAM; reception and transmission rings lie in GSM or CSM (R404). -/
def bulkOthers (s : State) (n : Nat) : Nat := ((upto 16).filter (fun m => m ≠ n && usesDram s m)).length
/-- C_w in ns. -/
def moveCost (s : State) (n : Nat) (d : Wag) : Nat :=
  let a := srcLines s n d
  let b := dstLines s n d
  let ns := (if a.2 then 0 else a.1) + (if b.2 then 0 else b.1)
  let nd := (if a.2 then a.1 else 0) + (if b.2 then b.1 else 0)
  200 + cdiv (d.nch * d.bs) 2 + 4 * ns + (400 + 20 * bulkOthers s n) * nd
def minQ (a b : Rat) : Rat := if a ≤ b then a else b
/-- A LISTENER source with a RING or PORT destination (R367). -/
def listenerDelay (s : State) (d : Wag) : Bool :=
  !(d.srck = 3 && (d.dstk = 0 || d.dstk = 1)) ||
  (d.pdelay = (ctxPoff s d.sidx * clockHz s d.mc + 500000) / 1000000 && mcSrc s d.mc = 1 + ctxDom s d.sidx && clockHz s d.mc = ctxHz s d.sidx)
def engineWagons (s : State) (n : Nat) : List Wag := ((enWagons s).filter (fun e => e.1 = n)).map (fun e => wagOf s n e.2)
def engineBad (s : State) (w : Table Nat) (n : Nat) : Bool :=
  let l := engineWagons s n
  decide (q 85 / 100 < (l.map (fun d => q (moveCost s n d + 40) / minQ (q (100 * d.xw)) (nsOf s d.mc d.bs))).foldl (· + ·) 0) ||
  l.any (fun d => decide (100 * d.xw < moveCost s n d) || !listenerDelay s d || (!(d.srck = 0 && d.pv) && !startsInTime s w d))
/-- R378: an ASRC engine; a stream that no wagon reads produces no block that is released. -/
def asCost (s : State) (u b : Nat) : Rat :=
  let r := q (asHzOut s u) / q (asHzIn s u)
  q (100 + (q (regF s (asCtl (u / 64) (u % 64)) 0 10 + 1) * q (b * asTaps s u) / (16 * minQ 1 r)).ceil.toNat)
def asrcBad (s : State) (n : Nat) : Bool :=
  let l := (upto 64).filterMap (fun t => let u := 64 * n + t
    if asOn s u then (match asReader s u with | some e => some (u, wagOf s e.1 e.2) | none => none) else none)
  let aw (u : Nat) : Rat := q (100 * regF s (asWin (u / 64) (u % 64)) 0 16)
  decide (q 85 / 100 < (l.map (fun e => (asCost s e.1 e.2.bs + 20) / minQ (aw e.1) (nsOf s e.2.mc e.2.bs))).foldl (· + ·) 0) ||
  l.any (fun e => decide (aw e.1 < asCost s e.1 e.2.bs))
/-- R382: the express cart, while the path is configured. -/
def expressOn (s : State) : Bool := valN s 0x6140 7 0 = 1
/-- The ports of the express path are as R380 asks: on one media clock at 48, 96 or 192 kHz, the output port a master, at most 16
slots each; and no wagon of engine 15 is enabled. -/
def expressPorts (s : State) : Bool :=
  let i := valN s 0x6140 1 0xFF
  let o := valN s 0x6140 3 0xFF
  apOn s i && apOn s o && i ≠ o && apMc s i = apMc s o && [48000, 96000, 192000].contains (clockHz s (apMc s o)) && apMaster s o &&
  decide ((exSlots s 2).length ≤ 16) && decide ((exSlots s 4).length ≤ 16) && engineBits s 15 = 0
def expressFail (s : State) (t : Timetable) : Option AdmFail :=
  if !expressOn s then none
  else
    let v := valN s 0x6140 6 0xFFFF
    let h := exCoach s
    let m := apMc s (valN s 0x6140 3 0)
    match t.carts[v]? with
    | some c =>
      failAt (!(expressPorts s && c.rsrc = 4 + m && c.period = 2 && c.offset = 0 && !c.bestEffort && c.steal = 0 && c.home = h &&
        decide (q c.deadline ≤ ((q 304000000 / q (clockHz s m) - 400) / 10).floor) && homedOn t h = [v])) 0xA v h
    | none => failAt true 0xA 0xFFFF h
/-- R415. -/
def ctxBad (s : State) (x : Nat) : Bool :=
  let ring := ctxNslot s x * ctxSpp s x
  let rd := (enWagons s).filterMap (fun e => let d := wagOf s e.1 e.2; if !(isTalker x) && d.srck = 3 && d.sidx = x then some d else none)
  let wr := (enWagons s).filterMap (fun e => let d := wagOf s e.1 e.2; if isTalker x && d.dstk = 3 && d.didx = x then some d else none)
  rd.any (fun d => decide (q ring ≤ q (ctxPoff s x * clockHz s d.mc) / 10 ^ 6 + q (ctxSpp s x) + q d.bs)) ||
  wr.any (fun d => decide (q ring ≤ q (d.pdelay + d.bs) + q (ctxLat s x * clockHz s d.mc) / 10 ^ 6 - q (ctxSpp s x + (if d.srck = 1 || d.srck = 2 then d.bs else 0))))
/-- ns as samples of a clock at its fastest rate. -/
def inSamples (s : State) (m ns : Nat) : Rat := q ns * fastHz s m / 10 ^ 9
/-- The wagon that writes a ring. -/
def ringWriter (s : State) (r : Ring) : Option Wag :=
  ((enWagons s).find? (fun e => let x := wagOf s e.1 e.2; x.dstk = 0 && (dstRing s e.1 x).meets r)).map (fun e => wagOf s e.1 e.2)
/-- A ring does not exceed a distance in samples by more than a block. -/
def ringShort (r : Ring) (dist : Rat) : Bool := decide (q (r.nb * r.bs) ≤ dist + q r.bs)
/-- Samples from the write of a block of the source ring to its read by the wagon, at the bounds that admission checks: a
producer writes by d(v), a wagon at most its own PDELAY early (DEDUCED, log entry 95). -/
def readDist (s : State) (w : Table Nat) (n : Nat) (d : Wag) : Rat :=
  if d.pv then q d.pdelay - inSamples s d.mc (10 * winD w d.prod)
  else match ringWriter s (srcRing s n d) with | some x => q (d.pdelay + x.pdelay) | none => q d.pdelay
/-- Carts of a wagon's clock whose window meets its destination ring: they read it by their deadlines. -/
def ringReaders (s : State) (t : Timetable) (n : Nat) (d : Wag) : List Nat :=
  let r := dstRing s n d
  (upto t.carts.length).filter (fun v =>
    match t.carts[v]?, rootOf t v with
    | some c, some x => c.wsize ≠ 0 && x.rsrc = 4 + d.mc && overlaps (c.wbase * 64) (2 ^ c.wsize) r.base (r.base + r.size)
    | _, _ => false)
/-- R364: a ring is too short for what lies between the write of a block and its last read. -/
def ringBad (s : State) (t : Timetable) (w : Table Nat) (n : Nat) (d : Wag) : Bool :=
  (d.srck = 0 && ringShort (srcRing s n d) (readDist s w n d)) ||
  (d.dstk = 0 && (ringReaders s t n d).any (fun v => ringShort (dstRing s n d) (q d.pdelay + inSamples s d.mc (10 * winD w v))))
/-- Step 4. -/
def streamFail (s : State) (t : Timetable) (w : Table Nat) : Option AdmFail :=
  let ws := enWagons s
  let bad (b : Bool) := failAt b 0xA 0xFFFF 0xFF
  orF (ws.findSome? (fun e => wagonMargin s t w (wagOf s e.1 e.2)))
  (orF (bad (ws.any (fun e => ringBad s t w e.1 (wagOf s e.1 e.2))))
  (orF (bad ((upto 16).any (engineBad s w)))
  (orF (bad ((upto 4).any (asrcBad s)))
  (orF (expressFail s t) (bad ((enCtxs s).any (ctxBad s)))))))

/-! ## Loading and starting (R261, R262) -/

/-- Rights of a region that L0 may not grant as it stands: it covers words of bank 0 of the express path's coach, which is another
master's alone (R380). -/
def expressGuard (s : State) (c x : Nat) : Nat :=
  let lo := 0x03000000 + exCoach s * 0x20000
  if s.media.xOn && slotOf s (exCoach s) ≠ some c && decide (fld x 4 26 * 64 < lo + 0x4000) && decide (lo ≤ fld x 30 26 * 64 + 63) then x / 2 * 2 else x
/-- L0 sets the regions of the signal coaches and of L1 to L3, at BOOT and at admission (R299); which, R299 leaves open. -/
def coachRegions (s : State) (phase : Nat) : State :=
  ((upto 72).filter (slotPresent s.variant) ++ [73, 74, 75]).foldl (fun s c =>
    (upto 7).foldl (fun s r =>
      let x := (coachRegion phase c r).toNat
      setRegF (setReg (setReg s (memRB c r) (n32 (fld x 4 26 * 64))) (memRB c r + 2) (n32 (fld x 30 26 * 64))) (memRB c r + 4) 0 4 (expressGuard s c x)) s) s
/-- The regions of the engines that move blocks are set anew. -/
def engineRegions (s : State) : State := (upto 16).foldl (fun s n => if engineBits s n = 0 then s else grantRegions s (seMaster n) (engineBits s n)) s

/-- An image's words in the image store: the images of the coaches in directory order (R519). -/
def storeOffset : List (Nat × Nat × Nat × List Word) → Nat → Nat → Nat
  | [], _, _ => 0
  | e :: r, num, kind => if e.1 = num && e.2.1 = kind then 0 else (if e.2.1 = 1 || e.2.1 = 2 then e.2.2.2.length else 0) + storeOffset r num kind
def storedImage (s : State) (num kind : Nat) : List Nat :=
  match pkgImage s num kind with
  | some l => peek s 72 (s.pwr.imageStore.1 + storeOffset s.pwr.images num kind) l.length
  | none => []
/-- Words go to a memory, whole lines of 8 words. -/
def loadLines (kind inst : Nat) : List Nat → Nat → Nat → State → State
  | _, _, 0, s => s
  | l, off, n + 1, s =>
    if l.isEmpty then s
    else
      let x := (l.take 8).foldr (fun v r => v + 65536 * r) 0
      let m := Nat.min 8 l.length
      let s := if m = 8 then (turnAccess s 5 (portOf kind inst off 72 false) .store (wordKey kind inst off) 8 x 72).st
        else (upto m).foldl (fun s i => (turnAccess s 5 (portOf kind inst (off + i) 72 false) .store (wordKey kind inst (off + i)) 1 (l.getD i 0) 72).st) s
      loadLines kind inst (l.drop 8) (off + 8) n s
/-- A coach's images are loaded, after the crash area of a halted coach has been copied (R205). -/
def loadCoach (s0 : State) (r : ImageRec) (c : Nat) : State :=
  let s := copyCrash s0 c
  let cim := storedImage s r.cim 1
  let s := loadLines 1 c cim 0 (cim.length + 1) s
  let ldm := if r.ldm = 0xFFFF then [] else storedImage s r.ldm 2
  loadLines 0 c ldm 0 (ldm.length + 1) s
/-- CL_IMG is set and the coach is started, with CO_BGRACE loaded (R261). -/
def beginCoach (s : State) (r : ImageRec) (c : Nat) : State :=
  let s := setReg s (clImg r.coach) (n32 r.cim)
  let s := startCoach s c (some (admGrace s))
  setLogi s r.coach { logi s r.coach with hold := r.hold, lastChange := s.dtime, lastCount := rdCo (co s c) 0x500 }
/-- Coaches a timetable names that a slot serves. -/
def namedSlots (s : State) (t : Timetable) : List (ImageRec × Nat) :=
  t.images.filterMap (fun r => match slotOf s r.coach with | some c => if (logi s r.coach).lstate = 2 then none else some (r, c) | none => none)
/-- Nothing is queued, released or counted for a new timetable. -/
def freshCarts (s : State) (t : Timetable) (w : Table Nat) : State :=
  { s with carts := { s.carts with table := some t, starting := true, windows := w, outcome := 1, reason := 0, reasonCart := 0xFFFF, reasonCoach := 0xFF,
                                   queues := [], nextK := [], lastRel := [], heldRel := [], graph := [], counts := [], live := [], rehome := [], withdrawn := [], ended := [] } }
def admitOk (s : State) (t : Timetable) (w : Table Nat) : State :=
  let s := freshCarts s t w
  let s := (heldAdmitted s).foldl switchOn s
  let s := { s with media := { s.media with taken := (enWagons s).foldl (fun k e => tput 0 k (64 * e.1 + e.2) 1) [], xOn := expressOn s } }
  let s := engineRegions (coachRegions s 1)
  let s := if s.media.xOn then grantRegions s 95 (regionBits true true) else s
  let s := (upto s.variant.coaches).foldl (fun s n => setRegB (setReg s (clImg n) 0xFFFF) (clDctl (n / 8)) (n % 8) false) s
  let l := namedSlots s t
  let s := l.foldl (fun s e => loadCoach s e.1 e.2) s
  let s := l.foldl (fun s e => setRegB s (clDctl (e.1.coach / 8)) (e.1.coach % 8) (!(s.media.xOn && exCoach s = e.1.coach))) s
  l.foldl (fun s e => beginCoach s e.1 e.2) s
/-- ADMIT (R261): L0 checks the timetable written, and takes it in whole or not at all. -/
def admitOp (s : State) : State :=
  match s.fpp.long with
  | none => s
  | some (key, epoch, _) =>
    if key ≠ 0x4000 * 256 + 2 || s.dev ≠ 3 || s.carts.starting then s
    else
      let s := (upto 8).foldl landClock s
      let l := s.carts.image
      let t := parseImage l
      let first := orF (if imageSized l then absentFail s t else none) (formFail s l t epoch)
      let w := if first.isSome then [] else splitWindows s t
      let r := match first with | some e => (some e, []) | none => coachesGo s t w (upto s.variant.coaches) []
      let fail := match r.1 with | some e => some e | none => streamFail s t w
      let s := { s with carts := { s.carts with util := r.2 } }
      match fail with
      | some e =>
        longDone { s with carts := { s.carts with outcome := 2, reason := e.reason, reasonCart := e.cart, reasonCoach := e.coach } } key
          (if e.reason = 0xF then 9 else 0xD)
      | none => admitOk s t w

/-! ## The entry to RUN or DEGRADED (R243, R261, R28) -/

/-- A logical coach is LOST, or a bank group is out of service. -/
def unitLost (s : State) : Bool := (upto s.variant.coaches).any (fun n => (logi s n).lstate = 2) || !s.mem.badGroups.isEmpty
/-- The first release of a TIME root: the smallest k whose time has not passed. -/
def firstK (s : State) (t : Timetable) (c : Cart) : Nat := cdiv (cdiv s.dtime 10 - (t.start + c.offset)) c.period
/-- ADMIT_RUN_ENTRY: every coach has handed over. -/
def runEntryOp (s : State) : State :=
  match s.carts.table with
  | none => s
  | some t =>
    if !s.carts.starting || s.dev ≠ 3 || !((namedSlots s t).all (fun e => (co s e.2).handed)) then s
    else
      let ks := (upto t.carts.length).foldl (fun k v => match t.carts[v]? with | some c => if c.rsrc = 0 then tput 0 k v (firstK s t c) else k | none => k) []
      let s := { s with carts := { s.carts with starting := false, nextK := ks } }
      let s := (enWagons s).foldl (fun s e => wagStart s e.1 e.2) s
      let s := { s with media := { s.media with fromSafe := false } }
      let s := if unitLost s then setDev s 5 7 else setDev s 4 6
      longDone s (0x4000 * 256 + 2) 0

/-! ## Withdrawal (R545) -/

/-- A coach that took part stops: at its first drain point, at once in the wait. A halted one issues nothing already, and
only the next ADMIT starts it; its crash area is copied first (R205). -/
def stopCoach (s : State) (c : Nat) : State :=
  let k := co s c
  match k.run with
  | .running => setCo s c { k with stopDue := true }
  | .waiting => setCo s c (stoppedCoach (drain s c k))
  | .halted => let s := copyCrash s c; setCo s c (stoppedCoach (co s c))
  | _ => s
/-- Jobs of one coach's queue are discarded and their periods are lost (R255). -/
def dropQueue (s : State) (n : Nat) : State := (queueOf s n).foldl (fun s j => lostPeriod s j.cart j.k) (setQueue s n [])
def loseJobs (s : State) (c : Nat) : State :=
  let k := co s c
  (k.job.toList ++ k.frames.filterMap (fun f => f.job)).foldl (fun s j => lostPeriod s j.cart j.k) s
/-- The admitted timetable is withdrawn. -/
def withdrawTable (s : State) : State :=
  match s.carts.table with
  | none => s
  | some t =>
    let s := (upto 64).foldl dropQueue s
    let s := (upto 72).foldl (fun s c => if (co s c).handed then loseJobs s c else s) s
    let s := ((upto 72).filter (fun c => (co s c).handed || (namedSlots s t).any (fun e => e.2 = c))).foldl stopCoach s
    let s := if s.media.xOn then grantRegions s 95 0 else s
    { s with carts := { s.carts with table := none, starting := false, graph := [], heldRel := [], live := [], nextK := [], lastRel := [] },
             media := { s.media with taken := [], xOn := false } }
/-- WITHDRAW takes RUN and DEGRADED to CONFIG. -/
def withdrawOp (s : State) : State := if s.dev = 4 || s.dev = 5 then setDev (stopWagons (withdrawTable s)) 3 9 else s

/-! ## Poisoned lines of a CIM (R325) -/

/-- L0 rewrites the poisoned lines of a CIM's page from the image it loaded, through the load port (R325: within 100 µs; at once
in the model, DESIGN CHOICE, log entry 97). -/
def cimReload (s : State) (c pk : Nat) : State :=
  match logicalOf s c, s.carts.table with
  | some n, some t =>
    (match imgOfCoach t n with
     | some r =>
       let l := storedImage s r.cim 1
       (upto 64).foldl (fun s i =>
         let off := keyOff (4 * (pk * 64 + i)) / 8 * 8
         if (lineGet s (pk * 64 + i)).st = 2 && decide (off < l.length) then
           (turnAccess s 5 (portKey (bankKey 1 c (bankOf 1 off)) false) .store (wordKey 1 c off) 8 (((l.drop off).take 8).foldr (fun v r => v + 65536 * r) 0) 72).st
         else s) s
     | none => s)
  | _, _ => s
/-- PAGE_RECONSTRUCTION: the page is reconstructed; a CIM's lines that stay lost are loaded again. -/
def pageReconOp (s : State) (kind inst bank : Nat) : State :=
  let t := reconOp s kind inst bank
  match s.mem.recon.find? (fun r => r.bank = bankKey kind inst bank) with
  | some r => if kind = 1 then cimReload t inst r.page else t
  | none => t

/-- PAGE_RECONSTRUCTION (R321, R325). -/
def execPageReconstruction (kind inst bank : Nat) (s : State) : Host.Outcome State Fault Refusal :=
  act (Instr.wf (.pageReconstruction kind inst bank)) (pageReconOp s kind inst bank)
/-- ADMIT (R261). -/
def execAdmit (s : State) : Host.Outcome State Fault Refusal := act (Instr.wf .admitTable) (admitOp s)
/-- ADMIT_RUN_ENTRY (R261). -/
def execAdmitRunEntry (s : State) : Host.Outcome State Fault Refusal := act (Instr.wf .admitRunEntry) (runEntryOp s)
end Sys2Proof.Machine
end

