-- ==== Sys2Proof/Machine/Crypto.lean ====
section
/-! DEFINITION. SHA-256 (FIPS 180-4) and the verification of ECDSA P-256 signatures (FIPS 186-5), which R491 and R518 name. -/
namespace Sys2Proof.Machine

/-! ## SHA-256 -/

/-- The greatest number of `n` bits whose `k`th power is at most `x`. -/
def intRoot (k n x : Nat) : Nat := (upto n).foldl (fun r i => let t := r + 2 ^ (n - 1 - i); if t ^ k ≤ x then t else r) 0
/-- The 64 primes below 312: no number below 19² is composite without a factor up to 17. -/
def shaPrimes : List Nat := (upto 312).filter (fun p => decide (2 ≤ p) && [2, 3, 5, 7, 11, 13, 17].all (fun d => p = d || p % d ≠ 0))
/-- The round constants: the first 32 bits of the fractions of the primes' cube roots (FIPS 180-4, 4.2.2). -/
def shaConsts : List Nat := shaPrimes.map (fun p => intRoot 3 35 (p * 2 ^ 96) % 2 ^ 32)
/-- The initial hash value: the first 32 bits of the fractions of the first eight primes' square roots (5.3.3). -/
def shaStart : List Nat := (shaPrimes.take 8).map (fun p => intRoot 2 35 (p * 2 ^ 64) % 2 ^ 32)
/-- The sum modulo 2 of a 32-bit word turned right by each of some distances: every Σ of the standard. -/
def turns (x : Nat) (l : List Nat) : Nat := l.foldl (fun r n => r ^^^ (x % 2 ^ n * 2 ^ (32 - n) + x / 2 ^ n)) 0
/-- The message schedule, newest word first: 48 words follow the 16 of the block. -/
def shaSchedule (blk : List Nat) : List Nat :=
  (upto 48).foldl (fun w _ =>
    let at_ (i : Nat) := w.getD (i - 1) 0
    (at_ 16 + (turns (at_ 15) [7, 18] ^^^ at_ 15 / 2 ^ 3) + at_ 7 + (turns (at_ 2) [17, 19] ^^^ at_ 2 / 2 ^ 10)) % 2 ^ 32 :: w) blk.reverse
/-- A round: the eight working variables move one place, the first and the fifth take new values (6.2.2). -/
def shaRound (h : List Nat) (kw : Nat × Nat) : List Nat :=
  let v (i : Nat) := h.getD i 0
  let choice := v 6 ^^^ (v 4 &&& (v 5 ^^^ v 6))
  let major := (v 0 &&& (v 1 ||| v 2)) ||| (v 1 &&& v 2)
  let mix := v 7 + turns (v 4) [6, 11, 25] + choice + kw.1 + kw.2
  (mix + turns (v 0) [2, 13, 22] + major) % 2 ^ 32 :: v 0 :: v 1 :: v 2 :: (v 3 + mix) % 2 ^ 32 :: (h.drop 4).take 3
def shaBlock (h : List Nat) (blk : List Nat) : List Nat :=
  let r := (shaConsts.zip (shaSchedule blk).reverse).foldl shaRound h
  (h.zip r).map (fun e => (e.1 + e.2) % 2 ^ 32)
/-- Bytes as 32-bit words, the most significant byte first. -/
def beWords : Nat → List Byte → List Nat
  | 0, _ => []
  | n + 1, l => ofBytes (l.take 4).reverse :: beWords n (l.drop 4)
def shaGo : Nat → List Byte → List Nat → List Nat
  | 0, _, h => h
  | n + 1, l, h => shaGo n (l.drop 64) (shaBlock h (beWords 16 (l.take 64)))
/-- SHA-256 of bytes, as a number whose most significant byte is the first of the digest. -/
def sha256 (m : List Byte) : Nat :=
  let n := m.length
  let pad := m ++ [0x80] ++ List.replicate ((119 - n % 64) % 64) 0 ++ (bytesOf 8 (8 * n)).reverse
  (shaGo (pad.length / 64) pad shaStart).foldl (fun r x => r * 2 ^ 32 + x) 0

/-! ## P-256 -/

def ecP : Nat := 0xffffffff00000001000000000000000000000000ffffffffffffffffffffffff
def ecN : Nat := 0xffffffff00000000ffffffffffffffffbce6faada7179e84f3b9cac2fc632551
def ecB : Nat := 0x5ac635d8aa3a93e7b3ebbd55769886bc651d06b0cc53b0f63bce3c3e27d2604b
def ecGx : Nat := 0x6b17d1f2e12c4247f8bce6e563a440f277037d812deb33a0f4a13945d898c296
def ecGy : Nat := 0x4fe342e2fe1a7f9b8ee7eb4a7c0f9e162bce33576b315ececbb6406837bf51f5
def subP (a b : Nat) : Nat := (a % ecP + ecP - b % ecP) % ecP
/-- b^e mod m, for e below 2^256. -/
def powMod (b e m : Nat) : Nat := (upto 256).foldl (fun r i => let t := r * r % m; if e.testBit (255 - i) then t * b % m else t) (1 % m)
/-- Points in Jacobian coordinates; z = 0 is the point at infinity. -/
structure EcPoint where
  x : Nat
  y : Nat
  z : Nat
  deriving DecidableEq, Repr
def ecInf : EcPoint := { x := 1, y := 1, z := 0 }
def ecDouble (a : EcPoint) : EcPoint :=
  if a.z = 0 || a.y = 0 then ecInf
  else
    let zz := a.z * a.z % ecP
    let yy := a.y * a.y % ecP
    let s := 4 * a.x * yy % ecP
    let m := 3 * subP a.x zz * ((a.x + zz) % ecP) % ecP
    let x := subP (m * m) (2 * s)
    { x := x, y := subP (m * subP s x) (8 * yy * yy), z := 2 * a.y * a.z % ecP }
def ecAdd (a b : EcPoint) : EcPoint :=
  if a.z = 0 then b else if b.z = 0 then a
  else
    let za := a.z * a.z % ecP
    let zb := b.z * b.z % ecP
    let u1 := a.x * zb % ecP
    let u2 := b.x * za % ecP
    let s1 := a.y * zb % ecP * b.z % ecP
    let s2 := b.y * za % ecP * a.z % ecP
    if u1 = u2 then (if s1 = s2 then ecDouble a else ecInf)
    else
      let h := subP u2 u1
      let r := subP s2 s1
      let hh := h * h % ecP
      let hhh := hh * h % ecP
      let v := u1 * hh % ecP
      let x := subP (r * r) (hhh + 2 * v)
      { x := x, y := subP (r * subP v x) (s1 * hhh), z := a.z * b.z % ecP * h % ecP }
def ecMul (k : Nat) (a : EcPoint) : EcPoint := (upto 256).foldl (fun r i => let t := ecDouble r; if k.testBit (255 - i) then ecAdd t a else t) ecInf
/-- The signature (r, s) of the digest `e` verifies under the key (x, y). -/
def ecdsaOk (x y r s e : Nat) : Bool :=
  let onCurve := decide (x < ecP) && decide (y < ecP) && y * y % ecP = (x * x % ecP * x + (ecP - 3) * x + ecB) % ecP
  if !(onCurve && r ≠ 0 && decide (r < ecN) && s ≠ 0 && decide (s < ecN)) then false
  else
    let w := powMod s (ecN - 2) ecN
    let p := ecAdd (ecMul (e * w % ecN) { x := ecGx, y := ecGy, z := 1 }) (ecMul (r * w % ecN) { x := x, y := y, z := 1 })
    if p.z = 0 then false else p.x * powMod (p.z * p.z % ecP) (ecP - 2) ecP % ecP % ecN = r
end Sys2Proof.Machine
end

