-- ==== Sys2Proof/Machine/Failover.lean ====
section
/-! DEFINITION. Failover to a spare slot, the loss of a coach and the re-admission of its carts, and RECOMMISSION (R270 to
R274, R296). -/
namespace Sys2Proof.Machine
open Sys2Proof.Config

/-! ## Mapping a slot (Table 7 of chapter 09) -/

/-- The epoch fields of a master's regions. -/
def setRegionEpochs (s : State) (c ep : Nat) : State := (upto 8).foldl (fun s r => setRegF s (memRB c r + 4) 16 16 ep) s
/-- The lowest-numbered spare of a logical coach's cluster. -/
def spareOf (s : State) (n : Nat) : Option Nat := ((upto 9).map (fun j => 9 * (n / 8) + j)).find? (fun c => slotSt s c = 1)
/-- Steps 4 to 8: the slot serves the coach under its epoch, its images are loaded and its coach is started. -/
def mapSlot (s : State) (n c : Nat) : State :=
  let l := logi s n
  let s := setSlotSt (switchOn s c) c 0
  let s := setReg (setRegionEpochs s c l.epoch) (memEpoch c) (n32 l.epoch)
  let s := setLogi s n { l with slot := c }
  match s.carts.table with
  | some t =>
    (match imgOfCoach t n with
     | some r => beginCoach (loadCoach s r c) r c
     | none => s)
  | none => s
/-- Step 3 for the slot that failed. -/
def advanceEpoch (s : State) (n f : Nat) : State :=
  let l := logi s n
  if l.epoch ≥ 0xFFFF then s else setRegionEpochs (setLogi s n { l with epoch := l.epoch + 1 }) f (l.epoch + 1)

/-! ## Re-admission (R272) -/

/-- Carts homed on a coach now. -/
def nowHomed (s : State) (t : Timetable) (n : Nat) : List Nat := (upto t.carts.length).filter (fun v => cartHome s v = some n)
/-- Home of a cart, or the one it was admitted with. -/
def homeNow (s : State) (t : Timetable) (v : Nat) : Nat := (cartHome s v).getD (homeAt t v)
/-- A coach of the cluster can take a cart of the lost coach; none that is itself LOST can (DEDUCED, log entry 57). -/
def canTake (s : State) (t : Timetable) (n m v : Nat) : Bool :=
  let w := s.carts.windows
  let vs := v :: nowHomed s t m
  let f := clusterMHz s (m / 8)
  m ≠ n && m / 8 = n / 8 && (logi s m).lstate ≠ 2 && regF s (clImg m) 0 16 = regF s (clImg n) 0 16 && regF s (clImg m) 0 16 ≠ 0xFFFF &&
  vs.all (fun u => !(tooShort w u f)) && decide (coachU t w vs (holdLimit t m) f ≤ admBound s) && decide ((levels t w vs).length ≤ 16) && decide (poolNeed t w vs ≤ 256) &&
  (predsOf t v).all (fun u => decide (latency (homeNow s t u) m ≤ lam t u v)) && (succsAt t v).all (fun u => decide (latency m (homeNow s t u) ≤ lam t v u))
/-- A cart gets a new home, or is withdrawn and reported by its index; its waiting job moves with it, or its period is lost. -/
def rehomeCart (s : State) (t : Timetable) (n v : Nat) : State :=
  let j := (queueOf s n).find? (fun j => j.cart = v)
  let s := setQueue s n ((queueOf s n).filter (fun j => j.cart ≠ v))
  let put (s : State) (h : Nat) : State :=
    { s with carts := { s.carts with rehome := tput 0 s.carts.rehome v h, withdrawn := if h = 1 then s.carts.withdrawn ++ [v] else s.carts.withdrawn } }
  let m := if (match t.carts[v]? with | some c => c.steal != 0 | none => false) then (upto s.variant.coaches).find? (fun m => canTake s t n m v) else none
  match m, j with
  | some m, some j => enqueue (put s (m + 2)) m { j with home := m }
  | some m, none => put s (m + 2)
  | none, some j => notifySucc (lostPeriod (setLive (put s 1) v false) v j.k) v j.k true
  | none, none => put s 1
/-- The coach is LOST: no slot serves it, its carts find other coaches or are withdrawn, the device is DEGRADED. -/
def loseCoach (s : State) (n : Nat) : State :=
  let s := dispPulse (setLogi s n { logi s n with lstate := 2, slot := 255 }) n 2
  let s := match s.carts.table with | some t => (nowHomed s t n).foldl (fun s v => rehomeCart s t n v) s | none => s
  let gone := match s.carts.table with
    | some t => ((upto t.carts.length).filter (fun v => homeAt t v = n && (cartHome s v).isNone)).length
    | none => 0
  let s := bbL0 s 0x0303 (n32 n) (n32 gone) 0 0
  if s.dev = 4 then setDev s 5 8 else refusedByState s 0 0
/-- FAILOVER of a logical coach that was declared dead (R270). -/
def failoverOp (s : State) (n : Nat) (offReported spareOk : Bool) (us : Nat) : State :=
  let f := (logi s n).slot
  if s.variant.coaches ≤ n || (logi s n).lstate ≠ 1 || 72 ≤ f then s
  else
      let s := discardJobs (copyCrash s f) f
      let s := if offReported then switchOff s f else bbL0 s 0x0605 (n32 f) 0 0 0
      let stuck := decide ((logi s n).epoch ≥ 0xFFFF)
      let s := setSlotSt (advanceEpoch s n f) f 2
      match (if stuck then none else spareOf s n) with
      | none => loseCoach s n
      | some c =>
        if !spareOk then loseCoach (setSlotSt (switchOff (switchOn s c) c) c 2) n
        else
          let s := mapSlot s n c
          let s := setLogi s n { logi s n with lstate := 0, lastOutage := us % 2 ^ 32, lastHalt := none }
          dispPulse (bbL0 s 0x0302 (n32 n) (n32 c) (n32 us) (n32 (logi s n).epoch)) n 2

/-! ## RECOMMISSION (R274) -/

/-- RECOMMISSION: the march of the slot has ended. -/
def recommissionOp (s : State) (pass : Bool) : State :=
  match s.carts.recomSlot with
  | none => s
  | some c =>
    let s := setCo (wipeDomain s c) c (offCoach (co s c))
    let s := { s with carts := { s.carts with recomSlot := none, recomResult := if pass then 1 else 2 } }
    let s := bbL0 s 0x0304 (n32 c) (n32 (if pass then 1 else 2)) 0 0
    let s := longDone s (0x4030 * 256 + 1) 0
    if !pass then switchOff s c
    else
      let s := setSlotSt (switchOff s c) c 1
      match (upto s.variant.coaches).find? (fun n => n / 8 = c / 9 && (logi s n).lstate = 2 && decide ((logi s n).epoch < 0xFFFF)) with
      | none => s
      | some n =>
        let l := logi s n
        let s := mapSlot (setLogi s n { l with epoch := l.epoch + 1 }) n c
        let s := dispPulse (setLogi s n { logi s n with lstate := 0, lastHalt := none }) n 2
        let s := { s with carts := { s.carts with rehome := s.carts.rehome.filter (fun e => !(e.2 = 1 && (match s.carts.table with | some t => homeAt t e.1 = n | none => true))) } }
        if unitLost s then s else if s.dev = 5 then setDev s 4 10 else refusedByState s 0 0

/-- FAILOVER (R270). -/
def execFailover (n : Nat) (offReported spareOk : Bool) (outageUs : Nat) (s : State) : Host.Outcome State Fault Refusal :=
  act (Instr.wf (.failover n offReported spareOk outageUs)) (failoverOp s n offReported spareOk outageUs)
/-- RECOMMISSION (R274). -/
def execRecommission (pass : Bool) (s : State) : Host.Outcome State Fault Refusal := act (Instr.wf (.recommission pass)) (recommissionOp s pass)
end Sys2Proof.Machine
end

