-- ==== Sys2Proof/Machine/Power.lean ====
section
/-! DEFINITION. The core voltage, the margins, the alarms and the cluster clocks (R499 to R503, R510). -/
namespace Sys2Proof.Machine
open Sys2Proof.Config

def pwrAvs : Nat := pwrBase + 0x200
def pwrAvsStat : Nat := pwrBase + 0x202
def pwrTemp : Nat := pwrBase + 0x208
def pwrAge (k : Nat) : Nat := pwrBase + 0x210 + 2 * k
def avsTarget (s : State) : Nat := regF s pwrAvs 0 12
def vage (s : State) : Nat := regF s pwrStat 16 8
def up5 (x : Nat) : Nat := cdiv x 5 * 5

/-! ## The target (R500, R501) -/

/-- A domain of cluster `k` is powered. -/
def clusterPowered (s : State) (k : Nat) : Bool :=
  decide (k < s.variant.clusters) &&
  ((upto 9).any (fun j => domOn s (9 * k + j)) || domOn s (76 + k) || (upto 4).any (fun g => domOn s (84 + 4 * k + g)))
/-- V_f with cluster `k` at its clock, or at `mhz` where `k'` names it. -/
def vFuse (s : State) (k' mhz : Nat) : Nat :=
  let t := s.pwr.junction
  maxL (((upto 8).filter (clusterPowered s)).map (fun k => speedFuse k (if k = k' then mhz else clusterMHz s k) t) ++ [speedFuse 8 1000 t, speedFuse 9 1000 t])
/-- V of R500 in mV. -/
def vWant (s : State) (k' mhz : Nat) : Nat := Nat.min 800 (Nat.max 650 (up5 (vFuse s k' mhz + vage s)))
def vNow (s : State) : Nat := vWant s 8 0
/-- L0 sets the target: it rises at once with V, and the time since V has stood 15 mV below it is kept (R501). Until the
bus is enabled the device writes nothing (R499). -/
def avsSet (s : State) (v : Nat) : State :=
  if !(regB s pwrAvs 31) then s
  else
    let t := avsTarget s
    if t < v then { setRegF s pwrAvs 0 12 v with pwr := { s.pwr with slackSince := none } }
    else
      let slack := match s.pwr.slackSince with
        | some x => if s.now < x + 10 ^ 10 then (if v + 15 ≤ t then some x else none) else (if v < t then some x else none)
        | none => if v + 15 ≤ t then some s.now else none
      { s with pwr := { s.pwr with slackSince := slack } }
def avsUpdate (s : State) : State := avsSet s (vNow s)
/-- 1 ms has passed since the target last fell. -/
def stepFree (s : State) : Bool := match s.pwr.steppedAt with | some x => decide (x + 1000000 ≤ s.now) | none => true
/-- VOLTAGE_STEP_DOWN: after 10 s of slack the target falls by at most 5 mV (R501). -/
def stepDownOp (s : State) : State :=
  match s.pwr.slackSince with
  | some x =>
    if regB s pwrAvs 31 && decide (x + 10 ^ 10 ≤ s.now) && decide (vNow s < avsTarget s) && stepFree s then
      let t := setRegF s pwrAvs 0 12 (Nat.max (vNow s) (avsTarget s - 5))
      avsUpdate { t with pwr := { t.pwr with steppedAt := some s.now } }
    else s
  | none => s

/-! ## Alarms (R503) -/

def supplyCode (s : State) : Nat := regF s pwrStat 8 8
/-- The condition of a supply alarm no longer holds. -/
def supplyClear (s : State) : State := setLevel (setRegF s pwrStat 8 8 0) 1044 false
/-- SUPPLY_ALARM: a condition of Table 2 begins. -/
def supplyAlarmOp (s : State) (code rail : Nat) : State :=
  if code = 0 || 5 < code || supplyCode s = code then s
  else bbHw (setLevel (setRegF s pwrStat 8 8 code) 1044 true) 0xFF 0x0603 (n32 (code + 256 * rail)) 0 0 0
/-- AVS_READBACK: voltage and current come back every 1 ms; conditions 1, 2 and 5 end when a readback shows it. -/
def readbackOp (s : State) (mv amps : Nat) (responded : Bool) : State :=
  if !(regB s pwrAvs 31) then s
  else
    let t := if responded then setReg s pwrAvsStat (n32 (mv % 4096 * 2 ^ 20 + Nat.min 255 amps * 2 ^ 12)) else setRegB s pwrAvsStat 0 true
    let g := avsTarget s
    let far := decide (100 * mv > 103 * g) || decide (100 * mv < 97 * g)
    let c := supplyCode s
    let ends := (c = 1 && responded && !far) || (c = 2 && responded) || (c = 5 && responded && decide (amps ≤ 150))
    avsUpdate (if ends then supplyClear t else t)
/-- MARGIN_MEASURE: four replica paths of each of the ten domains, clusters 0 to 7, lead, fabric, in units of 0.25 %
(DEDUCED, log entry 77: path j of domain k is entry 4k + j). A margin below 6 % raises V_age by 5 mV (R502). -/
def marginOp (s : State) (l : List Nat) : State :=
  let dom (k : Nat) : Nat := ((l.drop (4 * k)).take 4).foldl Nat.min 255
  let live := (upto 10).filter (fun k => 8 ≤ k || clusterPowered s k)
  let t := live.foldl (fun t k => setReg t (pwrAge k) (n32 (dom k))) s
  let worst := (live.map dom).foldl Nat.min 255
  let t := if worst < 24 then setRegF t pwrStat 16 8 (Nat.min 150 (vage t + 5)) else t
  let c := supplyCode t
  avsUpdate (if (c = 3 && decide (24 ≤ worst)) || (c = 4 && decide (12 ≤ worst)) then supplyClear t else t)
/-- V_AGE_STORE: L0 stores V_age after a rise of 10 mV and once every 24 h (R502). -/
def vageStoreOp (s : State) : State :=
  if s.pwr.vageStored + 10 ≤ vage s || s.pwr.vageAt + 86400 * 10 ^ 9 ≤ s.now then { s with pwr := { s.pwr with vageStored := vage s, vageAt := s.now } } else s
/-- A junction reading is the highest (R503). -/
def setJunction (s : State) (sensor : Nat) (temp : Int) : State :=
  let t := setReg s pwrTemp (n32 (wrapN 8 temp * 2 ^ 24 + sensor % 256 * 2 ^ 16))
  { t with pwr := { t.pwr with junction := temp } }
/-- THERMAL_ALARM: a junction sensor reads 100 °C or more. -/
def thermalOp (s : State) (sensor temp : Nat) : State :=
  if temp < 100 then s
  else
    let t := if s.pwr.junction < temp then setJunction s sensor temp else s
    let t := if s.pwr.thermal then t
      else bbHw (setLevel { t with pwr := { t.pwr with thermal := true } } 1045 true) 0xFF 0x0604 (n32 (1 + 256 * sensor)) 0 0 0
    avsUpdate t
/-- THERMAL_ALARM_END: every sensor reads below 100 °C. -/
def thermalEndOp (s : State) : State :=
  if !s.pwr.thermal then s
  else
    let t := setJunction s (coolSensor s.now).toNat (min 99 (coolReading s.now))
    avsUpdate (setLevel { t with pwr := { t.pwr with thermal := false } } 1045 false)

/-! ## Cluster clocks (R510) -/

/-- No coach of a cluster has been started. -/
def clusterIdle (s : State) (k : Nat) : Bool := (upto 9).all (fun j => (co s (9 * k + j)).run = .off || (co s (9 * k + j)).run = .stopped)
/-- The target that cluster `k` needs at a multiplier. -/
def clockVolt (s : State) (k mult : Nat) : Nat := Nat.max (vNow s) (vWant s k (25 * (16 + mult)))
/-- The change of a cluster's clock is made; a lower voltage comes after it. -/
def clockDone (s : State) (k mult : Nat) : State := avsUpdate (putClock (avsSet s (clockVolt s k mult)) k mult)
/-- L0 sets a cluster PLL (R501): where the clock needs a higher voltage the target rises, and the clock changes after the wait of entry
0x3020; else it changes at once. -/
def clockSet (s : State) (k mult : Nat) : State :=
  if regB s pwrAvs 31 && decide (avsTarget s < clockVolt s k mult) then
    let t := avsSet s (clockVolt s k mult)
    { t with pwr := { t.pwr with clockWait := tput 0 t.pwr.clockWait k (mult + 1), clockAt := tput 0 t.pwr.clockAt k (s.now + 1000 * valN s 0x3020 2 200) } }
  else clockDone s k mult
/-- CLUSTER_CLOCK_SET: L0 begins the change, or makes the one whose wait is over (DEDUCED, log entry 101: ADMIT ends a wait). -/
def clusterClockOp (s : State) (k mult : Nat) : State :=
  if s.dev = 3 && decide (k < s.variant.clusters) && decide (mult ≤ 44) && clusterIdle s k then
    if tget 0 s.pwr.clockWait k = mult + 1 then (if tget 0 s.pwr.clockAt k ≤ s.now then clockDone s k mult else s)
    else clockSet s k mult
  else s

/-! ## Registers (R514, R523) -/

/-- A store to PWR_WDOG: 0xA5C3 kicks, any other value is ignored and conflicts. -/
def wdogStore (s : State) (m : Nat) (v : W32) : State :=
  if m = 72 && v = 0xA5C3 then { s with pwr := { s.pwr with kicked := s.now } } else conflict s (pwrBase + 0x206)
/-- A store to PWR_DOM_i by L0: the request is taken and its transition started. -/
def pwrDomStore (s : State) (m d : Nat) (v : W32) : State :=
  let a := pwrDom d
  let t := storePlain s m a v
  if m ≠ 72 then t
  else if (domRefuse s d (rfld v 0 2)).isSome then conflict s a
  else domStart t d (regF t a 0 2)
/-- A store to a register of the PWR_ block. -/
def pwrStore (s : State) (m a : Nat) (v : W32) : State :=
  let o := a - pwrBase
  if o < 0x128 then pwrDomStore s m (o / 2) v else if o = 0x206 then wdogStore s m v else storePlain s m a v

/-- AVS_READBACK (R499). -/
def execAvsReadback (mv amps : Nat) (responded : Bool) (s : State) : Host.Outcome State Fault Refusal :=
  act (Instr.wf (.avsReadback mv amps responded)) (readbackOp s mv amps responded)
/-- VOLTAGE_STEP_DOWN (R501). -/
def execVoltageStepDown (s : State) : Host.Outcome State Fault Refusal := act (Instr.wf .voltageStepDown) (stepDownOp s)
/-- MARGIN_MEASURE (R502). -/
def execMarginMeasure (margins : List Nat) (s : State) : Host.Outcome State Fault Refusal := act (Instr.wf (.marginMeasure margins)) (marginOp s margins)
/-- V_AGE_STORE (R502). -/
def execVAgeStore (s : State) : Host.Outcome State Fault Refusal := act (Instr.wf .vAgeStore) (vageStoreOp s)
/-- SUPPLY_ALARM (R503). -/
def execSupplyAlarm (code rail : Nat) (s : State) : Host.Outcome State Fault Refusal := act (Instr.wf (.supplyAlarm code rail)) (supplyAlarmOp s code rail)
/-- THERMAL_ALARM (R503). -/
def execThermalAlarm (sensor temp : Nat) (s : State) : Host.Outcome State Fault Refusal := act (Instr.wf (.thermalAlarm sensor temp)) (thermalOp s sensor temp)
/-- THERMAL_ALARM_END (R503). -/
def execThermalAlarmEnd (s : State) : Host.Outcome State Fault Refusal := act (Instr.wf .thermalAlarmEnd) (thermalEndOp s)
/-- CLUSTER_CLOCK_SET (R510). -/
def execClusterClockSet (k mult : Nat) (s : State) : Host.Outcome State Fault Refusal := act (Instr.wf (.clusterClockSet k mult)) (clusterClockOp s k mult)
/-- WATCHDOG_KICK (R514). -/
def execWatchdogKick (m : Nat) (v : W32) (s : State) : Host.Outcome State Fault Refusal := act (Instr.wf (.watchdogKick m v)) (wdogStore s m v)
end Sys2Proof.Machine
end

