-- ==== Sys2Proof/Machine/Store.lean ====
section
/-! DEFINITION. What a store to any system register does, and what a load of one returns (R12 to R20, R385). -/
namespace Sys2Proof.Machine
open Sys2Proof.Config

/-- The unit that a claim word stands for is enabled, so that its holder cannot release it (R385). -/
def claimBusy (s : State) (a : Nat) : Bool :=
  let b := a / 0x10000 % 256
  let o := a % 0x10000
  if b = 13 then srcEn s ((o - 0x4000) / 8)
  else if b = 14 then regB s (tmStat ((o - 0x1000) / 16)) 2
  else if b = 16 then mcOn s ((o - 0x1000) / 16)
  else if 0x20 ≤ b && b < 0x30 then (wagOf s (b - 0x20) ((o - 0x800) / 8)).en
  else if 0x30 ≤ b && b < 0x34 then asOn s ((b - 0x30) * 64 + (o - 0x300) / 2)
  else if 0x40 ≤ b && b < 0x60 then apOn s (b - 0x40)
  else if b = 0x60 then pdmOn s ((o - 0x10) / 2)
  else if 0x70 ≤ b && b < 0x76 then regB s (ethBase (b - 0x70)) 31
  else false
/-- A store to CL_PLL by L0 sets the cluster's clock, L0 having waited for its voltage (R501, R510, R523). -/
def pllStore (s : State) (m k : Nat) (v : W32) : State :=
  let t := storePlain s m (clPll k) v
  if m = 72 && regF t (clPll k) 0 6 = rfld v 0 6 && s.dev = 3 && clusterIdle s k then clockDone s k (rfld v 0 6) else t
/-- A store of master `m`, at supervisor level or not, to a system register. -/
def regStore (s : State) (m : Nat) (sup : Bool) (a : Nat) (v : W32) : State :=
  match regInfo s.variant a with
  | none => s
  | some i =>
    let b := a / 0x10000 % 256
    let o := a % 0x10000
    if i.isClaim then storeClaim s m a v (claimBusy s a)
    else if b < 8 && o = 0x100 then pllStore s m b v
    else if b = 8 then
      (if o < 0x2100 then regionStore s m sup a v else if 0x2200 ≤ o && o < 0x2210 then lpStore s m a v else if o = 0x2302 then dctlStore s m v
       else storePlain s m a v)
    else if b = 9 then (if o = 0 then eccStatStore s m v else if o = 2 then injArmOp s m v else storePlain s m a v)
    else if b = 11 && o = 0 then mtStore s m v
    else if b = 12 && o = 0 then fuseStore s m v
    else if b = 13 then icStore s m a v
    else if b = 14 then tmStore s m a v
    else if b = 15 then pwrStore s m a v
    else if b = 16 && 0x1000 ≤ o && o % 16 = 0 then mcStore s m ((o - 0x1000) / 16) v
    else if b = 17 then bbStore s m a v
    else if b = 20 then ptpStore s m a v
    else if 0x20 ≤ b && b < 0x30 then seStore s m a v
    else if 0x30 ≤ b && b < 0x34 then asStore s m a v
    else if 0x40 ≤ b && b < 0x60 then apStore s m a v
    else if b = 0x60 then pdmRegStore s m a v
    else if 0x70 ≤ b && b < 0x76 then ethStore s m a v
    else storePlain s m a v

/-! ## Loads -/

/-- ECC_STAT with its HEAD, FULL and FIFO. -/
def eccStatLoad (s : State) : W32 :=
  setR (setR (setR (reg s eccStat) 10 9 (logHead s)) 8 1 (b2n (s.mem.held = 512))) 2 6 s.mem.intake.length
/-- FUSE_STAT with its PEND and USED. -/
def fuseStatLoad (s : State) : W32 := setR (setR (reg s fuseStat) 16 8 s.mem.pendFix.length) 7 9 s.mem.fieldFuse.length
/-- CL_QSTAT of a logical coach (Table 17 of chapter 09); before CONFIG its LSTATE reads the reset value. Where no slot serves it,
SLOT reads 15, RUN and NEST 0 (DESIGN CHOICE, log entry 99). -/
def qstatLoad (s : State) (n : Nat) : W32 :=
  let place := match slotOf s n with
    | some c => c % 9 * 2 ^ 26 + b2n (co s c).job.isSome * 2 ^ 25 + (co s c).level * 2 ^ 20
    | none => 15 * 2 ^ 26
  n32 ((if s.dev < 3 then 0 else (logi s n).lstate) * 2 ^ 30 + place + Nat.min 64 (queueOf s n).length * 2 ^ 13)
/-- CL_NEXTREL of a logical coach, 64 bits. -/
def nextRelNum (s : State) (n : Nat) : Nat := (nextRel s n).getD (2 ^ 64 - 1)
def dcfgLoad (s : State) : W32 := n32 (dramCapOf s.variant 1 * 256 + dramCapOf s.variant 0 * 16 + dramChans s.variant)
/-- A load by master `m` of a system register: the state it leaves, and what it returns. -/
def regLoad (s : State) (m a : Nat) : State × W32 :=
  match regInfo s.variant a with
  | none => (s, 0)
  | some _ =>
    let b := a / 0x10000 % 256
    let o := a % 0x10000
    match counterLoad s m a with
    | some r => r
    | none =>
      if b < 8 then
        (s, if 0x10 ≤ o && o < 0x20 then qstatLoad s (8 * b + (o - 0x10) / 2)
            else if 0x40 ≤ o && o < 0x60 then n32 (nextRelNum s (8 * b + (o - 0x40) / 4) / 2 ^ (32 * ((o - 0x40) / 2 % 2)))
            else reg s a)
      else if b = 8 then
        (s, if o < 0x2000 && o % 8 = 2 then setR (reg s a) 0 6 0x3F
            else if o = 0x2200 then setR (reg s a) 9 1 0
            else if o = 0x2300 then dcfgLoad s
            else if o = 0x2302 then setR (reg s a) 16 1 (b2n s.bb.pfail)
            else reg s a)
      else if b = 9 then
        (s, if o = 0 then eccStatLoad s
            else if 0x1000 ≤ o then n32 (logRead s ((o - 0x1000) / 8) / 2 ^ (32 * (o / 2 % 4)))
            else reg s a)
      else if b = 12 then (s, if o = 2 then fuseStatLoad s else reg s a)
      else if b = 13 then (s, icLoad s m a)
      else if b = 14 then tmLoad s m a
      else if b = 17 then (s, bbLoad s m a)
      else if b = 18 || b = 19 then (s, if m = 72 then transportReg a s.now else 0)
      else if 0x20 ≤ b && b < 0x30 then (s, if o = 0 then setR (reg s a) 31 1 (b2n (b = 0x2F && s.media.xOn)) else reg s a)
      else if 0x40 ≤ b && b < 0x60 then
        (s, if o = 0 then setR (setR (reg s a) 27 1 (b2n (exInPort s (b - 0x40)))) 26 1 (b2n (exOutPort s (b - 0x40))) else reg s a)
      else if 0x70 ≤ b && b < 0x76 then (s, if 0x4000 ≤ o then cxLoad s m (b - 0x70) o else reg s a)
      else (s, reg s a)
/-- A store that waits: to the load port while BUSY is 1 (R292). -/
def regWaits (s : State) (m a : Nat) : Bool := m = 72 && lpBusy s && a ≠ lpAddr && decide (lpCtl ≤ a) && decide (a ≤ lpData 3)

/-! ## Commands -/

/-- REGISTER_WRITE (R12): a store by a master to a register. -/
def execRegisterWrite (m : Nat) (sup : Bool) (addr : Nat) (v : W32) (s : State) : Host.Outcome State Fault Refusal :=
  act (Instr.wf (.registerWrite m sup addr v)) (if regWaits s m addr then s else regStore s m sup addr v)
/-- The address names a claim word, or the claim word of the context that master selects. -/
def claimWord (s : State) (a : Nat) : Bool :=
  match regInfo s.variant a with
  | some i => i.isClaim || (decide (0x04700000 ≤ a) && decide (a < 0x04760000) && a % 0x10000 = 0x4004)
  | none => false
/-- CLAIM_UNIT: a store of HELD = 1 to a claim word. -/
def execClaimUnit (m addr : Nat) (s : State) : Host.Outcome State Fault Refusal :=
  act (Instr.wf (.claimUnit m addr)) (if claimWord s addr then regStore s m true addr 0x100 else s)
/-- RELEASE_CLAIM: a store of HELD = 0 to a claim word. -/
def execReleaseClaim (m addr : Nat) (s : State) : Host.Outcome State Fault Refusal :=
  act (Instr.wf (.releaseClaim m addr)) (if claimWord s addr then regStore s m true addr 0 else s)
/-- CAN_ERROR_STATE_CHANGE: source 1,025 + 2c pulses (R419). -/
def execCanErrorStateChange (c : Nat) (s : State) : Host.Outcome State Fault Refusal :=
  act (Instr.wf (.canErrorStateChange c)) (pulse s (1025 + 2 * c))

/-! ## A coach's far accesses (R53 to R55, R284) -/

/-- The target of a waiting access answers: a bank when its port grants it now, a register after the epoch check of the
fabric port (R296), anything else at once. -/
def acceptOne (s : State) (c : Nat) (a : Access) : State :=
  match route s c a.addr with
  | .bank kind inst off own =>
    let po := portOf kind inst off c own
    let bk := po / 2
    if s.mem.recon.any (fun r => r.bank = bk) || marchHolds s bk || s.mem.writeBack.any (fun e => e.1 = bk) then s
    else (match portPick s po with | some r => if r.master = c && r.ld = a.ld then portCycle s po else s | none => s)
  | .sysReg x =>
    if !epochOk s c a.addr a.n (needOf a.kind) then answerAccess (epochRefuse s c a.addr) c a.ld { err := 6, data := 0 }
    else if a.kind = .load then
      let r := regLoad s c x
      answerAccess r.1 c a.ld { err := 0, data := r.2.toNat }
    else if regWaits s c x then s
    else answerAccess (regStore s c (isSup (co s c)) x (n32 a.data)) c a.ld { err := 0, data := 0 }
  | .coReg _ => serveNow s c a
  | _ => let o := coachNow s c a.kind a.addr a.n a.data; answerAccess o.st c a.ld { err := o.code, data := o.data }
/-- An access of the bundle reaches DRAM. -/
def inDram (s : State) (c : Nat) (a : Access) : Bool := match route s c a.addr with | .bank 5 _ _ _ => true | _ => false
/-- Stall of a bundle whose accesses have been answered (R54, R286, R289): `x` cycles for what their waits add where it is
bounded and not exact. -/
def answeredStall (s : State) (c x : Nat) (accs : List Access) : Nat :=
  stallOf (accs.map (fun a => (farStall s c a.addr, waitStall s c x a.addr a.refused)))
/-- ACCESS_ACCEPTED: the targets of the stalled bundle's accesses answer, loads before stores; when all have, the bundle
takes effect after the stall of R54: `extra` is the stall of a DRAM access, and what refusals at a bank of another clock
domain add, each within its bound (R286, R290). -/
def acceptOp (s : State) (c extra : Nat) : State :=
  let accs := (co s c).access
  let t := (accOrder (accs.filter (fun a => a.resp.isNone))).foldl (fun s a => acceptOne s c a) s
  let st := answeredStall s c extra (co t c).access
  let ns := st * 1000 / coachMHz s c
  let t := if accs.any (inDram s c) && (co t c).access.all (fun a => a.resp.isSome) then { t with mem := { t.mem with longest := Nat.max t.mem.longest ns } } else t
  finishBundle t c st
/-- ACCESS_ACCEPTED (R55). -/
def execAccessAccepted (c extra : Nat) (s : State) : Host.Outcome State Fault Refusal := act (Instr.wf (.accessAccepted c extra)) (acceptOp s c extra)
end Sys2Proof.Machine
end

