-- ==== Sys2Proof/Machine/Entries.lean ====
section
/-! DEFINITION. The entries of the parameter dictionary: their subindices with type and access (R10, R27, R205, R277, R305,
R343, R388, R418, R441, R442 to R446, R474, R495, R524), and what a read of each returns. -/
namespace Sys2Proof.Machine
open Sys2Proof.Config

/-! ## Subindices -/

/-- Type codes of Table 2 of chapter 15, and access codes: 0 RO, 1 RW, 2 WO, 3 RWP, 4 SVC. -/
structure Sub where
  sub : Nat
  typ : Nat
  acc : Nat
  deriving DecidableEq, Repr
/-- Subindices `a` to `b` of one type and access. -/
def subs (a b typ acc : Nat) : List Sub := (upto (b + 1 - a)).map (fun i => { sub := a + i, typ := typ, acc := acc })
def subsLow (idx : Nat) : List Sub :=
  match idx with
  | 0x1000 => subs 1 2 9 0 ++ subs 3 3 5 0 ++ subs 4 6 4 0
  | 0x1010 => subs 1 1 3 0 ++ subs 2 5 2 0 ++ subs 6 6 5 0 ++ subs 7 8 2 0 ++ subs 9 9 1 0 ++ subs 0xA 0xA 2 0 ++ subs 0xB 0xB 3 0 ++ subs 0xC 0xD 2 0 ++
      subs 0xE 0xE 0xA 0
  | 0x1020 => subs 1 2 2 0 ++ subs 3 3 2 2
  | 0x1030 => subs 1 3 2 3 ++ subs 4 4 3 3 ++ subs 5 5 2 3 ++ subs 6 6 1 3
  | 0x2000 => subs 1 1 2 0 ++ subs 2 2 5 0 ++ subs 3 3 2 0 ++ subs 4 4 3 0 ++ subs 5 6 4 0
  | 0x2001 => subs 1 1 1 0 ++ subs 2 2 5 0 ++ subs 3 3 1 0 ++ subs 4 4 4 0
  | 0x2010 => subs 1 0x10 4 0
  | 0x3000 => subs 1 1 0xA 3 ++ subs 2 3 0xA 0
  | 0x3010 => subs 1 3 3 0 ++ subs 4 4 6 0 ++ subs 5 5 3 0 ++ subs 6 6 2 0 ++ subs 7 7 4 0 ++ subs 8 9 2 0
  | 0x3020 => subs 1 1 1 3 ++ subs 2 2 3 3
  | 0x3120 => subs 1 3 2 0 ++ subs 4 5 4 0
  | 0x4000 => subs 1 1 0xA 2 ++ subs 2 2 2 2 ++ subs 3 3 1 2 ++ subs 4 4 2 0
  | 0x4001 => subs 1 2 2 0 ++ subs 3 3 3 0 ++ subs 4 4 2 0 ++ subs 5 5 7 0 ++ subs 6 6 0xA 0
  | 0x4002 => subs 1 2 7 3 ++ subs 3 3 3 3
  | 0x4010 => subs 1 1 3 1 ++ subs 2 0xB 4 0
  | 0x4020 => subs 1 1 2 1 ++ subs 2 3 2 0 ++ subs 4 4 3 0 ++ subs 5 9 4 0
  | 0x4030 => subs 1 1 2 2 ++ subs 2 2 2 0
  | 0x4031 => subs 1 1 0xA 0
  | _ => []
def subsHigh (idx : Nat) : List Sub :=
  match idx with
  | 0x5008 => subs 1 1 4 2 ++ subs 2 2 3 0
  | 0x5010 => subs 1 2 4 3 ++ subs 3 3 2 3 ++ subs 4 5 5 0 ++ subs 6 7 2 0 ++ subs 8 8 8 0
  | 0x5100 => subs 1 1 3 1 ++ subs 2 2 0xA 1 ++ subs 3 3 2 0 ++ subs 4 4 3 0 ++ subs 5 5 1 2 ++ subs 6 7 0xA 0
  | 0x6100 => subs 1 1 3 1 ++ subs 2 2 0xA 1 ++ subs 3 5 4 0
  | 0x6140 => subs 1 1 2 1 ++ subs 2 2 4 1 ++ subs 3 3 2 1 ++ subs 4 4 4 1 ++ subs 5 5 2 1 ++ subs 6 6 3 1 ++ subs 7 7 1 1 ++ subs 8 8 4 0
  | 0x7000 => subs 1 3 2 0 ++ subs 4 6 4 0
  | 0x7001 => subs 1 1 4 0 ++ subs 2 2 2 0 ++ subs 3 5 4 0
  | 0x7002 => subs 1 1 2 1 ++ subs 2 2 0xA 0 ++ subs 3 3 3 0
  | 0x7010 => subs 1 0xE 4 0 ++ subs 0xF 0xF 1 2
  | 0x7011 => subs 1 6 3 3 ++ subs 7 7 2 3 ++ subs 8 8 4 0 ++ subs 9 9 0xA 0
  | 0x7020 => subs 1 1 3 1 ++ subs 2 2 0xA 0 ++ subs 3 3 3 0 ++ subs 4 4 0xA 0
  | 0x7030 => subs 1 1 0xA 0 ++ subs 2 2 3 0
  | 0x7031 => subs 1 1 0xA 0 ++ subs 2 2 1 2 ++ subs 3 4 3 0
  | 0x7040 => subs 1 1 4 1 ++ subs 2 2 1 2 ++ subs 3 4 4 0
  | 0x7050 => subs 1 1 4 4 ++ subs 2 2 2 4
  | 0x8000 => subs 1 1 2 0 ++ subs 2 2 4 0 ++ subs 3 4 3 0 ++ subs 5 5 4 0 ++ subs 6 6 0xA 0 ++ subs 7 7 4 0
  | 0x8001 => subs 1 1 2 3 ++ subs 2 3 1 2 ++ subs 4 4 0xA 2
  | 0x8010 => subs 1 1 2 1 ++ subs 2 2 3 1 ++ subs 3 4 0xA 0
  | 0x8011 => subs 1 1 1 4
  | 0x8020 => subs 1 1 2 0 ++ subs 2 2 0xA 0
  | 0x8030 => subs 1 3 4 0 ++ subs 4 4 1 0
  | 0x8040 => subs 1 0x4C 0xA 0
  | 0x8100 => subs 1 1 3 1 ++ subs 2 7 4 0
  | 0x8110 => subs 1 1 2 1 ++ subs 2 6 4 0
  | 0x9000 => subs 1 2 4 2 ++ subs 3 3 4 1 ++ subs 4 4 2 0
  | _ => []
/-- Number of a unit that a range of entries is indexed by. -/
def unitOf (idx lo n : Nat) : Option Nat := if lo ≤ idx && idx < lo + n then some (idx - lo) else none
def subsUnit (idx : Nat) : List Sub :=
  if (unitOf idx 0x3100 8).isSome then subs 1 1 3 3 ++ subs 2 2 3 0
  else if (unitOf idx 0x5000 6).isSome then subs 1 1 4 3 ++ subs 2 2 5 3 ++ subs 3 3 4 3 ++ subs 4 5 0xA 3 ++ subs 6 6 4 3 ++ subs 7 7 0xA 0
  else if (unitOf idx 0x6000 32).isSome then subs 1 4 4 1 ++ subs 5 5 4 0
  else if (unitOf idx 0x6040 8).isSome then subs 1 1 4 1
  else if (unitOf idx 0x6080 4).isSome then subs 1 1 4 1 ++ subs 2 2 4 0 ++ subs 3 3 5 0 ++ subs 4 4 8 0
  else if (unitOf idx 0x60C0 4).isSome then subs 1 1 2 1 ++ subs 2 3 4 1 ++ subs 4 4 3 1 ++ subs 5 5 7 0 ++ subs 6 6 4 0
  else []
/-- The subindices of an entry; none where the index is reserved. -/
def entrySubs (idx : Nat) : List Sub := if idx < 0x5000 then subsLow idx ++ subsUnit idx else subsHigh idx ++ subsUnit idx
/-- A subindex of an entry; 0x00 is the highest subindex, readable by whoever may read another one (R442). -/
def subAt (idx sub : Nat) : Option Sub :=
  if sub = 0 then some { sub := 0, typ := 2, acc := if (entrySubs idx).all (fun e => e.acc = 4) then 4 else 0 }
  else (entrySubs idx).find? (fun e => e.sub = sub)
/-- The entry or subindex belongs to a unit that the variant lacks (R5). -/
def unitAbsent (s : State) (idx sub : Nat) : Bool :=
  match unitOf idx 0x3100 8, unitOf idx 0x5000 6, unitOf idx 0x6000 32, unitOf idx 0x60C0 4 with
  | some k, _, _, _ => decide (s.variant.clusters ≤ k)
  | _, some e, _, _ => !ethPresent s.variant e
  | _, _, some p, _ => decide (s.variant.tdmPorts ≤ p)
  | _, _, _, some n => decide (s.variant.asrcEngines ≤ n)
  | _, _, _, _ => (idx = 0x8040 && sub ≠ 0 && !coachPresent s (sub - 1)) || ((idx = 0x7000 || (idx = 0x7011 && sub = 6)) && s.variant.dramChannels = 0)
/-- Selectors (R446): each session has its own. -/
def isSelector (idx sub : Nat) : Bool :=
  (sub = 1 && ([0x4010, 0x4020, 0x5100, 0x6100, 0x7002, 0x7020, 0x8100, 0x8110].contains idx || (unitOf idx 0x60C0 4).isSome)) ||
  (idx = 0x8010 && (sub = 1 || sub = 2)) || (idx = 0x9000 && sub = 3)

/-! ## Values -/

def keyOf (idx sub : Nat) : Nat := idx * 256 + sub
/-- A session's selector. -/
def selOf (e : Option Session) (idx sub : Nat) : Nat := match e with | some x => tget 0 x.selectors (keyOf idx sub) | none => 0
def blob (l : List Nat) : List Byte := l.flatMap (fun w => beBytes 2 w)
/-- A register as words of a BLOB (R42): the low half first. -/
def word2 (v : Nat) : List Nat := [v % 65536, v / 65536 % 65536]
def blob2 (l : List Nat) : List Byte := blob (l.flatMap word2)
/-- A number of `n` words. -/
def wordsN (n x : Nat) : List Nat := (upto n).map (fun i => x / 2 ^ (16 * i) % 65536)
def rd (s : State) (m a : Nat) : Nat := (regLoad s m a).2.toNat
def rdAgent (s : State) (a : Nat) : Nat := rd s 107 a
def rdL0 (s : State) (a : Nat) : Nat := rd s 72 a

/-- 2-bit state map of the domains (R524). -/
def domMap (f : Nat → Nat) : List Nat := (upto 19).map (fun w => ((upto 8).map (fun j => if 8 * w + j < 148 then f (8 * w + j) % 4 * 4 ^ j else 0)).foldl (· + ·) 0)
def domReq (s : State) (d : Nat) : Nat := if domPresent s.variant d then regF s (pwrDom d) 0 2 else 0
def vendorName : List Byte := [0x4C, 0x65, 0x61, 0x76, 0x61, 0x6D, 0x6F, 0x6E]
/-- Claim word of a resource code, as an address of the window; none for a context (kind 6) or a pin (kind 0x0A). -/
def resClaim (code : Nat) : Option Nat :=
  let i := code % 2 ^ 24
  match code / 2 ^ 24 with
  | 1 => some (apClaim i) | 2 => some (pdmClaim i) | 3 => some (mcClaim i) | 4 => some (asClaim (i / 64) (i % 64)) | 5 => some (seClaim (i / 64) (i % 64))
  | 7 => some (icSclaim i) | 8 => some (tmClaim i) | 9 => some (ethClaim i) | _ => none
/-- Instances of a kind of resource (Table 12 of chapter 15). -/
def resCount (kind : Nat) : Nat :=
  match kind with | 1 => 32 | 2 => 8 | 3 => 4 | 4 => 256 | 5 => 1024 | 6 => 2048 | 7 => 2048 | 8 => 64 | 9 => 6 | 0xA => 10 | _ => 0
def resAbsent (s : State) (code : Nat) : Bool :=
  let i := code % 2 ^ 24
  match code / 2 ^ 24 with
  | 1 => decide (s.variant.tdmPorts ≤ i) | 4 => decide (s.variant.asrcEngines ≤ i / 64) | 7 => !srcPresent s.variant i | 9 => !ethPresent s.variant i | _ => false
/-- Holder of a resource: its identity, or 0xFF. -/
def resHolder (s : State) (code : Nat) : Nat :=
  let i := code % 2 ^ 24
  if decide (resCount (code / 2 ^ 24) ≤ i) || resAbsent s code then 0xFF
  else match code / 2 ^ 24 with
    | 6 => if cxClaimHeld s i then cxClaimId s i else 0xFF
    | 0xA => (match tget 0 s.media.pinClaims i with | 0 => 0xFF | h => h - 1)
    | _ => (match resClaim code with | some a => if claimHeld s a then claimId s a else 0xFF | none => 0xFF)
/-- Copies by number, 1 to 4, newest first (R486). -/
def copyNo (s : State) (i : Nat) : Option BbCopy := if i = 0 then none else (s.bb.copyOrder[i - 1]?).map (copyAt s)
/-- Words of a copy (R495: header, boot number, copy time, validity and damage map, 272 words): a bit of the damage map for each of
the 4,096 entries fills 256 words; how the rest stand in the first 16 is not said, and they are free values. -/
def copyWords (c : BbCopy) : List Nat :=
  (upto 16).map (fun i => (copyWord (bbHeaderNum c.header) c.time c.valid i).toNat) ++
    (upto 256).map (fun w => ((upto 16).map (fun j => b2n (c.damage.contains (16 * w + j)) * 2 ^ j)).foldl (· + ·) 0)
/-- A tester key's two halves, and the start of its digest. -/
def keyBytes (k : List Word) : List Byte := unpackWords k
def keyDigest (k : List Word) : List Nat := (upto 4).map (fun i => sha256 (keyBytes k) / 2 ^ (240 - 16 * i) % 65536)
/-- Free spare rows of the device's present memories (entry 0x7030). -/
def spareTotal (v : Variant) : Nat := 4 * (v.slots * 8 + v.slots * 4 + 4 * 32 + v.clusters * 64 + 128) + 1024 * dramChans v
def spareFree (s : State) : Nat :=
  spareTotal s.variant - (s.mem.spares.map (fun e => e.2)).foldl (· + ·) 0 -
    (s.mem.spareBad.map (fun e => popN 4 (e.2 / 2 ^ tget 0 s.mem.spares e.1))).foldl (· + ·) 0
/-- Instances of a memory kind in the variant. -/
def kindInsts (v : Variant) (m : Nat) : List Nat :=
  match m with
  | 0 => (upto 72).filter (slotPresent v) | 1 => (upto 72).filter (slotPresent v) | 2 => upto 4 | 3 => upto v.clusters | _ => [0]
/-- Seconds since the last completed pass of a kind: the oldest among its instances. -/
def passAge (s : State) (m : Nat) : Nat :=
  maxL ((kindInsts s.variant m).map (fun i => (s.now - (scrubOf s (instKey m i)).lastDone) / 10 ^ 9))
/-- Lines that read as poisoned (entry 0x7010). -/
def poisonedNow (s : State) : Nat :=
  let lines := ((s.mem.data.map (fun (e : Nat × Word) => e.1 / 4)) ++ s.mem.check.map (fun (e : Nat × Byte) => e.1)).eraseDups
  (lines.filter (fun lk => (lineGet s lk).st = 2)).length
/-- Words of a partner (R418): a MAC address in three words and one unused; what an IPv4 address, a UDP port and an SSRC, five words,
give in the four is a free value. -/
def partnerWords (rtp : Bool) (p : Option Partner) : List Nat :=
  match p with
  | none => [0, 0, 0, 0]
  | some x => if rtp then (upto 4).map (fun i => (partnerWord x.addr x.port x.ssrc i).toNat) else wordsN 3 x.addr ++ [0]

/-- Value of a subindex below 0x5000. -/
def readLow (s : State) (e : Option Session) (idx sub : Nat) : List Byte :=
  let v := s.variant
  match idx, sub with
  | 0x1000, 1 => vendorName
  | 0x1000, 2 => v.name.map (fun b => BitVec.ofNat 8 b)
  | 0x1000, 3 => beBytes 8 serial.toNat
  | 0x1000, 4 => beBytes 4 revision.toNat
  | 0x1000, n => beBytes 4 (version (n - 5)).toNat
  | 0x1010, 1 => beBytes 2 v.code
  | 0x1010, 6 => beBytes 8 (if s.dev < 2 then 0 else dramSize v)
  | 0x1010, 0xB => beBytes 2 2048
  | 0x1010, 0xE => blob ((upto 10).map (fun w => ((upto 16).map (fun j => b2n (16 * w + j < 148 && domPresent v (16 * w + j)) * 2 ^ j)).foldl (· + ·) 0))
  | 0x1010, n => beBytes 1 (match n with | 2 => v.coaches | 3 => v.clusters | 4 => v.tenGig | 5 => v.dramChannels | 7 => v.asrcEngines | 8 => v.tdmPorts
                                         | 9 => b2n v.float | 0xA => 8 | _ => 4)
  | 0x1020, 1 => beBytes 1 s.dev
  | 0x1020, _ => beBytes 1 (audioState s)
  | 0x1030, 4 => beBytes 2 (commVal s 4)
  | 0x1030, n => beBytes 1 (commVal s n)
  | 0x2000, 1 => beBytes 1 s.fpp.own
  | 0x2000, 2 => beBytes 8 s.fpp.ownerNode
  | 0x2000, 3 => beBytes 1 s.fpp.ownerPrio
  | 0x2000, 4 => beBytes 2 s.fpp.epoch
  | 0x2000, 5 => beBytes 4 s.fpp.grants
  | 0x2000, _ => beBytes 4 s.fpp.lapses
  | 0x2001, 1 => beBytes 1 (b2n s.fpp.svcHeld)
  | 0x2001, 2 => beBytes 8 (if s.fpp.svcHeld then s.fpp.svcNode else 0)
  | 0x2001, 3 => beBytes 1 (b2n s.serviceEn)
  | 0x2001, _ => beBytes 4 s.fpp.failedTotal
  | 0x2010, n => beBytes 4 (tget 0 s.fpp.counts n)
  | 0x3000, 1 => blob (domMap (domReq s))
  | 0x3000, 2 => blob (domMap (domState s))
  | 0x3000, _ => blob ((upto 148).map (fun d => powerEstimate d s.now % 65536))
  | 0x3010, 1 => beBytes 2 (avsTarget s)
  | 0x3010, 2 => beBytes 2 (regF s pwrAvsStat 20 12)
  | 0x3010, 3 => beBytes 2 (10 * regF s pwrAvsStat 12 8)
  | 0x3010, 4 => beBytes 4 (wrapN 32 s.pwr.junction)
  | 0x3010, 5 => beBytes 2 (vage s)
  | 0x3010, 6 => beBytes 1 (((upto 10).filter (fun k => 8 ≤ k || clusterPowered s k)).foldl (fun m k => Nat.min m (regF s (pwrAge k) 0 8)) 255)
  | 0x3010, 7 => beBytes 4 (((upto 148).map (fun d => powerEstimate d s.now)).foldl (· + ·) 0)
  | 0x3010, 8 => beBytes 1 (supplyCode s)
  | 0x3010, _ => beBytes 1 (b2n s.pwr.thermal)
  | 0x3020, 1 => beBytes 1 (valN s 0x3020 1 1)
  | 0x3020, _ => beBytes 2 (valN s 0x3020 2 200)
  | 0x3120, 1 => beBytes 1 (regF s (pwrBase + 0x204) 0 8)
  | 0x3120, 2 => beBytes 1 (regF s (pwrBase + 0x204) 8 6)
  | 0x3120, 3 => beBytes 1 (s.pwr.booted - 1)
  | 0x3120, 4 => beBytes 4 s.pwr.bootSeq
  | 0x3120, _ => beBytes 4 s.pwr.bootMs
  | 0x4000, _ => beBytes 1 (match s.carts.table with | some t => if s.carts.starting then 0 else t.epoch | none => 0)
  | 0x4001, 1 => beBytes 1 s.carts.outcome
  | 0x4001, 2 => beBytes 1 s.carts.reason
  | 0x4001, 3 => beBytes 2 s.carts.reasonCart
  | 0x4001, 4 => beBytes 1 s.carts.reasonCoach
  | 0x4001, 5 => beBytes 4 (if s.carts.reasonCoach = 0xFF then 0 else (tget 0 s.carts.util s.carts.reasonCoach).toNat)
  | 0x4001, _ => blob2 ((upto 64).map (fun n => (tget 0 s.carts.util n).toNat))
  | 0x4002, 1 => beBytes 4 (valN s 0x4002 1 0x3F666666)
  | 0x4002, 2 => beBytes 4 (valN s 0x4002 2 0x3CA3D70A)
  | 0x4002, _ => beBytes 2 (admGrace s)
  | 0x4010, 1 => beBytes 2 (selOf e 0x4010 1)
  | 0x4010, n =>
    let c := selOf e 0x4010 1
    beBytes 4 (if (cartOf s c).isNone || s.carts.starting then 0 else match n with | 2 => cartD s c | 3 => cartR s c | 4 => cartC s c | _ => tget 0 s.carts.counts (8 * c + (n - 5)))
  | 0x4020, 1 => beBytes 1 (selOf e 0x4020 1)
  | 0x4020, n =>
    let l := logi s (selOf e 0x4020 1)
    (match n with
     | 2 => beBytes 1 l.lstate | 3 => beBytes 1 l.slot | 4 => beBytes 2 l.epoch | 5 => beBytes 4 l.stealsIn | 6 => beBytes 4 l.stealsOut
     | 7 => beBytes 4 l.halts | 8 => beBytes 4 l.hbLosses | _ => beBytes 4 l.lastOutage)
  | 0x4030, _ => beBytes 1 s.carts.recomResult
  | 0x4031, _ => (upto 72).map (fun c => BitVec.ofNat 8 (slotSt s c))
  | _, _ =>
    (match unitOf idx 0x3100 8 with
     | some k => beBytes 2 (if sub = 1 then valN s idx 1 1500 else clusterMHz s k)
     | none => [])
/-- ASRC_SRATIO, 3 integer and 29 fraction bits (R379), as a binary32 rounded to nearest even (DEDUCED, log entry 110). -/
def ratioF32 (x : Nat) : Nat := (packF rneEnv f32 false (x : Int) (-29)).val
/-- Value of a subindex from 0x5000 to 0x6FFF. -/
def readStreams (s : State) (e : Option Session) (idx sub : Nat) : List Byte :=
  match unitOf idx 0x5000 6, unitOf idx 0x6000 32, unitOf idx 0x6040 8, unitOf idx 0x6080 4, unitOf idx 0x60C0 4 with
  | some p, _, _, _, _ =>
    let b := ethBase p
    (match sub with
     | 1 => beBytes 4 (rdAgent s b)
     | 2 => beBytes 8 (rdAgent s (b + 4) * 65536 + rdAgent s (b + 6) / 65536)
     | 3 => beBytes 4 (rdAgent s (b + 8))
     | 4 => blob2 ((upto 8).map (fun i => rdAgent s (b + 0x10 + 2 * i)))
     | 5 => blob2 ((upto 4).map (fun i => (reg s (b + 0x20 + 2 * i)).toNat) ++ (upto 256).map (fun i => rdAgent s (gclBase p (!(gateOper s p)) + 2 * i)))
     | 6 => beBytes 4 (rdAgent s (ptpLat p))
     | _ => blob2 ((upto 9).map (fun i => rdAgent s (ethCnt p i))))
  | _, some p, _, _, _ => beBytes 4 (rdAgent s (apBase p + 2 * (sub - 1)))
  | _, _, some i, _, _ => beBytes 4 (rdAgent s (pdmCtl i))
  | _, _, _, some m, _ =>
    (match sub with
     | 1 => beBytes 4 (rdAgent s (mcCtl m)) | 2 => beBytes 4 (rdAgent s (mcStat m)) | 3 => beBytes 8 (clk s m).count | _ => beBytes 8 (clk s m).mt)
  | _, _, _, _, some n =>
    let t := selOf e idx 1
    (match sub with
     | 1 => beBytes 1 t | 2 => beBytes 4 (rdAgent s (asCtl n t)) | 3 => beBytes 4 (rdAgent s (asDelay n t)) | 4 => beBytes 2 (rdAgent s (asWin n t))
     | 5 => beBytes 4 (ratioF32 (rdAgent s (asRatio n t))) | _ => beBytes 4 (rdAgent s (asStat n t)))
  | _, _, _, _, _ =>
    let x := selOf e 0x5100 1
    let w := selOf e 0x6100 1
    (match idx, sub with
     | 0x5008, _ => beBytes 2 s.net.mdioResult.toNat
     | 0x5010, 1 => beBytes 4 (rdAgent s (ptpDctl 0))
     | 0x5010, 2 => beBytes 4 (rdAgent s (ptpDctl 1))
     | 0x5010, 3 => beBytes 1 (regF s ptpBase 0 1)
     | 0x5010, 4 => beBytes 8 (ptpOf s 0).gm
     | 0x5010, 5 => beBytes 8 (ptpOf s 1).gm
     | 0x5010, 6 => beBytes 1 (ptpState s 0)
     | 0x5010, 7 => beBytes 1 (ptpState s 1)
     | 0x5010, _ => beBytes 8 (256 * s.dtime)
     | 0x5100, 1 => beBytes 2 x
     | 0x5100, 2 => blob2 ((upto 12).map (fun i => (cxWord s x i).toNat))
     | 0x5100, 3 => beBytes 1 (ctxOf s x).state
     | 0x5100, 4 => beBytes 2 (ctxOf s x).cepoch
     | 0x5100, 6 => blob2 ((upto 12).map (fun k => (tget 0 s.net.ctxCnt (16 * x + k)).toNat))
     | 0x5100, _ => blob (partnerWords (ctxProto s x = 2) (ctxOf s x).partner ++ partnerWords (ctxProto s x = 2) (ctxOf s x).prev)
     | 0x6100, 1 => beBytes 2 w
     | 0x6100, 2 => blob2 ((upto 8).map (fun i => rdAgent s (seDesc (w / 64) (w % 64) i)))
     | 0x6100, 3 => beBytes 4 (rdAgent s (seBlk (w / 64) (w % 64)))
     | 0x6100, 4 => beBytes 4 (rdAgent s (seConc (w / 64) (w % 64)))
     | 0x6100, 5 => beBytes 4 (rdAgent s (seLate (w / 64) (w % 64)))
     | 0x6140, 1 => beBytes 1 (valN s idx 1 0xFF)
     | 0x6140, 2 => beBytes 4 (valN s idx 2 0)
     | 0x6140, 3 => beBytes 1 (valN s idx 3 0xFF)
     | 0x6140, 4 => beBytes 4 (valN s idx 4 0)
     | 0x6140, 5 => beBytes 1 (valN s idx 5 0xFF)
     | 0x6140, 6 => beBytes 2 (valN s idx 6 0xFFFF)
     | 0x6140, 7 => beBytes 1 (valN s idx 7 0)
     | 0x6140, _ => beBytes 4 s.media.xConcealed
     | _, _ => [])
/-- Value of a subindex from 0x7000. -/
def readMemory (s : State) (e : Option Session) (idx sub : Nat) : List Byte :=
  let m := s.mem
  match idx, sub with
  | 0x7000, 1 => beBytes 1 (dramChans s.variant)
  | 0x7000, 2 => beBytes 1 (dramCapOf s.variant 0)
  | 0x7000, 3 => beBytes 1 (dramCapOf s.variant 1)
  | 0x7000, 4 => beBytes 4 m.parks
  | 0x7000, 5 => beBytes 4 m.parkRefused
  | 0x7000, _ => beBytes 4 m.longest
  | 0x7001, 1 => beBytes 4 m.epochRefused
  | 0x7001, 2 => beBytes 1 m.epochMaster
  | 0x7001, 3 => beBytes 4 m.epochAddr
  | 0x7001, 4 => beBytes 4 m.regionFails
  | 0x7001, _ => beBytes 4 m.ignoredWrites
  | 0x7002, 1 => beBytes 1 (selOf e idx 1)
  | 0x7002, 2 => let i := selOf e idx 1; blob2 ((upto 8).flatMap (fun r => (upto 3).map (fun k => rdL0 s (memRB i r + 2 * k))))
  | 0x7002, _ => beBytes 2 (rdL0 s (memEpoch (selOf e idx 1)))
  | 0x7010, 0xE => beBytes 4 (poisonedNow s)
  | 0x7010, n => beBytes 4 (tget 0 m.reports (n - 1))
  | 0x7011, 7 => beBytes 1 (((upto 6).map (fun k => regF s (scbStat - 0x10 + 2 * k) 16 1 * 2 ^ k)).foldl (· + ·) 0)
  | 0x7011, 8 => beBytes 4 (regF s scbStat 16 16)
  | 0x7011, 9 => blob2 ((upto 6).map (passAge s))
  | 0x7011, n => beBytes 2 (regF s (scbStat - 0x10 + 2 * (n - 1)) 0 16)
  | 0x7020, 1 => beBytes 2 (selOf e idx 1)
  | 0x7020, 2 => blob ((upto 8).flatMap (fun i => wordsN 8 (logRead s ((selOf e idx 1 + i) % 512))))
  | 0x7020, 3 => beBytes 2 (logHead s)
  | 0x7020, _ => blob ((upto 12).map (fun c => regF s (eccLost c) 0 16))
  | 0x7030, 1 => blob ((upto 4096).map (fun i => (fuseWord s i).toNat))
  | 0x7030, _ => beBytes 2 (spareFree s)
  | 0x7031, 1 => blob (m.pendFix.flatMap (fun r => wordsN 4 r))
  | 0x7031, 3 => beBytes 2 m.fuseDone
  | 0x7031, _ => beBytes 2 m.fuseBad
  | 0x7040, 1 => beBytes 4 ((reg s mtCtl).toNat % 2 ^ 31)
  | 0x7040, 3 => beBytes 4 (reg s mtStat).toNat
  | 0x7040, _ => beBytes 4 (reg s (mtStat + 2)).toNat
  | 0x7050, 1 => beBytes 4 (reg s (eccStat + 4)).toNat
  | 0x7050, _ => beBytes 1 (regF s (eccStat + 2) 1 2)
  | _, _ => []
/-- Value of a subindex from 0x8000. -/
def readBox (s : State) (e : Option Session) (idx sub : Nat) : List Byte :=
  let h := s.bb.header
  match idx, sub with
  | 0x8000, 1 => beBytes 1 h.state
  | 0x8000, 2 => beBytes 4 ((h.seq + 2 ^ 32 - 1) % 2 ^ 32)
  | 0x8000, 3 => beBytes 2 h.wridx
  | 0x8000, 4 => beBytes 2 (if h.state = 0 then 0xFFFF else h.trigidx)
  | 0x8000, 5 => beBytes 4 h.dropped
  | 0x8000, 6 => blob ((upto 16).map (fun c => regF s (bbLost c) 0 16))
  | 0x8000, _ => beBytes 4 h.boot
  | 0x8001, _ => beBytes 1 (bbMask s)
  | 0x8010, 1 => beBytes 1 (selOf e idx 1)
  | 0x8010, 2 => beBytes 2 (selOf e idx 2)
  | 0x8010, 3 =>
    let at_ (j : Nat) : Nat := match selOf e idx 1 with
      | 0 => ringRead s j
      | i => (match copyNo s i with | some c => bbEntryNum (ringAtIdx c.ring j) | none => 0)
    blob ((upto 16).flatMap (fun i => wordsN 16 (at_ ((selOf e idx 2 + i) % 4096))))
  | 0x8010, _ => blob (match copyNo s (selOf e idx 1) with | some c => copyWords c | none => (upto 272).map (fun _ => 0))
  | 0x8011, _ => [0]
  | 0x8020, 1 => beBytes 1 s.fpp.keys.length
  | 0x8020, _ => blob ((upto 4).flatMap (fun i => match s.fpp.keys[i]? with | some k => keyDigest k | none => [0, 0, 0, 0]))
  | 0x8030, 1 => beBytes 4 s.bb.dips
  | 0x8030, 2 => beBytes 4 s.bb.dipLongest
  | 0x8030, 3 => beBytes 4 (s.bb.dipTotal / 1000)
  | 0x8030, _ => beBytes 1 (b2n s.bb.pfail)
  | 0x8040, n => blob ((upto 64).map (fun i => ((tget [] s.carts.crash (n - 1)).getD i 0).toNat))
  | 0x8100, 1 => beBytes 2 (selOf e idx 1)
  | 0x8100, 6 => beBytes 4 (rdL0 s (icBase + 0x204))
  | 0x8100, 7 => beBytes 4 (rdL0 s (icBase + 0x206))
  | 0x8100, n => beBytes 4 (rdL0 s (icScfg (selOf e idx 1) + 2 * (n - 2)))
  | 0x8110, 1 => beBytes 1 (selOf e idx 1)
  | 0x8110, n => beBytes 4 (rdL0 s (tmCnt (selOf e idx 1) + 2 * (n - 1)))
  | 0x9000, 3 => beBytes 4 (selOf e idx 3)
  | 0x9000, _ => beBytes 1 (resHolder s (selOf e idx 3))
  | _, _ => []
/-- The bytes a read of a subindex returns, for a session. -/
def readVal (s : State) (e : Option Session) (idx sub : Nat) : List Byte :=
  if sub = 0 then beBytes 1 (maxL ((entrySubs idx).map (fun x => x.sub)))
  else if idx < 0x5000 then readLow s e idx sub
  else if idx < 0x7000 then readStreams s e idx sub
  else if idx < 0x8000 then readMemory s e idx sub
  else readBox s e idx sub
end Sys2Proof.Machine
end

