-- ==== Sys2Proof/Machine/DictWrite.lean ====
section
/-! DEFINITION. Writes to the parameter dictionary: where each is legal (R469), the range of each value, and what each
does (R277, R305, R343, R386, R388, R418, R441, R470 to R474, R495, R506, R510, R524). -/
namespace Sys2Proof.Machine
open Sys2Proof.Config

/-- Identity of the parameter agent (R21). -/
def agent : Nat := 107

/-! ## Legality by state (Table 11 of chapter 15) -/

/-- A march of the target that MT_CTL's layout names may run while a timetable may be admitted. -/
def marchAnywhere (s : State) (v : W32) : Bool :=
  rbit v 30 || ((rbit v 29 || decide (rfld v 21 4 ≤ 1)) && slotSt s (rfld v 14 7) = 2)
/-- Device states in which a write of a value to a subindex is legal; 7 only for the service holder, or any controller
for a selector. -/
def writeStates (s : State) (idx sub v : Nat) : List Nat :=
  if idx = 0x1020 then (if v = 6 then [3, 4, 5, 7] else if v = 3 then [6] else [2, 3, 4, 5, 6, 7])
  else if idx = 0x9000 then [3, 4, 5]
  else if isSelector idx sub then
    (if idx = 0x8010 then [3, 4, 5, 6, 7] else if idx = 0x6100 || (unitOf idx 0x60C0 4).isSome then [3] else [3, 4, 5, 7])
  else if 0x8000 ≤ idx then [3, 4, 5, 6, 7]
  else if idx = 0x4000 && sub = 3 then [4, 5]
  else if (idx = 0x4000 && sub = 1) || idx = 0x4030 || idx = 0x7011 || idx = 0x3000 then [3, 4, 5]
  else if idx = 0x5100 || (idx = 0x7010 && sub = 0xF) || ((unitOf idx 0x60C0 4).isSome && sub = 3) then [3, 4, 5, 7]
  else if idx = 0x7040 then (if marchAnywhere s (if sub = 1 then n32 v else reg s mtCtl) then [3, 4, 5, 7] else [3])
  else if idx = 0x7050 then [7]
  else [3]
/-- Device states in which a read of an entry is legal. -/
def readLegal (s : State) (idx : Nat) : Bool := if 0x1000 ≤ idx && idx < 0x1100 then decide (2 ≤ s.dev) else decide (3 ≤ s.dev)

/-! ## Type, length and range -/

/-- Length of a value of a type; of a BLOB, of the subindex. -/
def lengthOk (idx sub typ len : Nat) : Bool :=
  match typ with
  | 1 => len = 1 | 2 => len = 1 | 3 => len = 2 | 4 => len = 4 | 5 => len = 8 | 6 => len = 4 | 7 => len = 4 | 8 => len = 8
  | 9 => decide (len ≤ 255)
  | _ =>
    if idx = 0x3000 then len = 38
    else if idx = 0x4000 then len % 2 = 0 && decide (len ≤ 262144)
    else if (unitOf idx 0x5000 6).isSome then (if sub = 4 then len = 32 else len % 4 = 0 && decide (16 ≤ len) && decide (len ≤ 1040))
    else if idx = 0x5100 then len = 48
    else if idx = 0x6100 then len = 32
    else len = 16
/-- A value of its type: a BOOL is 0 or 1, a binary32 finite (R444). -/
def typeRange (typ v : Nat) : Bool :=
  match typ with | 1 => decide (v ≤ 1) | 7 => v / 2 ^ 23 % 256 ≠ 255 | _ => true
/-- Subindices described as "write 1" (R445). -/
def writeOne (idx sub : Nat) : Bool :=
  (idx = 0x4000 && sub = 3) || (idx = 0x5100 && sub = 5) || idx = 0x7010 || (idx = 0x7031 && sub = 2) || (idx = 0x7040 && sub = 2) ||
  (idx = 0x8001 && (sub = 2 || sub = 3)) || idx = 0x8011
/-- Long entries (R450). -/
def isLong (idx sub : Nat) : Bool :=
  (idx = 0x4000 && sub = 2) || (idx = 0x4030 && sub = 1) || (idx = 0x7031 && sub = 2) || (idx = 0x7040 && sub = 2) || (idx = 0x5008 && sub = 1) ||
  (idx = 0x8001 && sub = 3) || (idx = 0x8011 && sub = 1)
/-- Abort code for an interrupt source that a selector or a resource code names (R441). -/
def sourceCode (s : State) (n : Nat) : Nat :=
  if srcPresent s.variant n then 0
  else if (decide (256 ≤ n) && decide (n < 328)) || (decide (576 ≤ n) && decide (n < 896)) || (decide (912 ≤ n) && decide (n < 936)) ||
      (decide (1056 ≤ n) && decide (n < 1080)) then 9
  else 6
/-- Abort code for a resource code (R471). -/
def resourceCode (s : State) (v : Nat) : Nat :=
  if resCount (v / 2 ^ 24) ≤ v % 2 ^ 24 then 6
  else if v / 2 ^ 24 = 7 then sourceCode s (v % 2 ^ 24)
  else if resAbsent s v then 9 else 0
/-- Abort code for the value of a selector. -/
def selectorCode (s : State) (idx sub v : Nat) : Nat :=
  let top (n : Nat) : Nat := if v ≤ n then 0 else 6
  match idx, sub with
  | 0x4010, _ => top 4095
  | 0x4020, _ => if 63 < v then 6 else if s.variant.coaches ≤ v then 9 else 0
  | 0x5100, _ => top 2047
  | 0x6100, _ => top 1023
  | 0x7002, _ => if !(masterUsed v) then 6 else if (decide (v < 72) && !(slotPresent s.variant v)) || (decide (96 ≤ v) && decide (v < 102) && !(ethPresent s.variant (v - 96))) then 9 else 0
  | 0x7020, _ => top 511
  | 0x8010, 1 => top 4
  | 0x8010, _ => top 4095
  | 0x8100, _ => sourceCode s v
  | 0x8110, _ => top 63
  | 0x9000, _ => resourceCode s v
  | _, _ => top 63

/-- Abort code for a march target in MT_CTL's layout (R343): 6 names no memory, 9 one that the variant lacks. -/
def marchCode (s : State) (v : Nat) : Nat :=
  let kind := if bitN v 29 then 0 else fld v 21 4
  let inst := fld v 14 7
  let top := match kind with | 0 => 72 | 1 => 72 | 2 => 4 | 3 => 8 | _ => 1
  if 4 < kind || top ≤ inst || (!(bitN v 29) && bankCount kind ≤ fld v 7 7) then 6
  else if !(bankExists s kind inst 0) then 9 else 0

/-! ## Writes that name registers (R386) -/

/-- A store that the register takes: it sets no CONFLICT. -/
def storeTry (s : State) (m a v : Nat) : Option State :=
  match regInfo s.variant a with
  | none => none
  | some i =>
    if i.confAt = 0 then some (regStore s m true a (n32 v))
    else
      let t := regStore (setRegB s i.confAt i.confBit false) m true a (n32 v)
      if regB t i.confAt i.confBit then none else some (setRegB t i.confAt i.confBit (regB s i.confAt i.confBit))
/-- Another master holds the claim. -/
def claimElse (s : State) (cl : Nat) : Bool := decide (1 < cl) && claimHeld s cl && claimId s cl ≠ agent
/-- Stores of a dictionary write to the registers of a unit, which the write claims: refused with 6 by a register, with
8 by another holder of the claim, in the order of Table 4. A register under L0's standing claim is L0's to store. -/
def dictStores (s : State) (cl : Nat) (l : List (Nat × Nat)) : Nat × State :=
  let t := if 1 < cl then setReg s cl (n32 (256 + agent)) else s
  match l.foldl (fun (o : Option State) e => o.bind (fun t => storeTry t (if cl = 1 then 72 else agent) e.1 e.2)) (some t) with
  | none => (6, s)
  | some t => if claimElse s cl then (8, s) else (0, t)
def claimOf (s : State) (a : Nat) : Nat := match regInfo s.variant a with | some i => i.claim | none => 0
def dictStore (s : State) (a v : Nat) : Nat × State := dictStores s (claimOf s a) [(a, v)]
/-- Words of a BLOB, and pairs of them as registers (R42). -/
def blobWords (d : List Byte) : List Nat := (upto (d.length / 2)).map (fun i => ofBe (slice d (2 * i) 2))
def blobRegs (d : List Byte) : List Nat := (upto (d.length / 4)).map (fun i => ofBe (slice d (4 * i) 2) + 65536 * ofBe (slice d (4 * i + 2) 2))
/-- Order of the stores of a descriptor: word 0 last, but first where it disables the unit. -/
def descOrder (en : Bool) (l : List Nat) : List (Nat × Nat) :=
  let r := (upto l.length).map (fun i => (i, l.getD i 0))
  if en && l.getD 0 0 < 2 ^ 31 then r else r.drop 1 ++ r.take 1
/-- Writes of an Ethernet port. -/
def ethWrite (s : State) (e sub : Nat) (d : List Byte) : Nat × State :=
  let b := ethBase e
  let v := ofBe d
  let cl := ethClaim e
  match sub with
  | 1 => dictStores s cl [(b, v)]
  | 2 => if v < 2 ^ 48 then dictStores s cl [(b + 4, v / 65536), (b + 6, v % 65536 * 65536)] else (6, s)
  | 3 => dictStores s cl [(b + 8, v)]
  | 4 => dictStores s cl ((upto 8).map (fun q => (b + 0x10 + 2 * q, (blobRegs d).getD q 0)))
  | 5 =>
    let l := blobRegs d
    dictStores s cl ((upto (l.length - 4)).map (fun i => (gclBase e (!(gateOper s e)) + 2 * i, l.getD (i + 4) 0)) ++
      [(b + 0x22, l.getD 1 0), (b + 0x24, l.getD 2 0), (b + 0x26, l.getD 3 0), (b + 0x20, l.getD 0 0)])
  | _ => dictStores s (claimOf s (ptpLat e)) [(ptpLat e, v)]
/-- The words of a context's descriptor are stored by the agent, through no conflict. -/
def ctxStore1 (s : State) (x w v : Nat) : Option State :=
  let c := s.net.ctxConflict
  let t := cxWrite { s with net := { s.net with ctxConflict := tput 0 c x 0 } } agent 0 x w (n32 v)
  if tget 0 t.net.ctxConflict x = 1 then none else some { t with net := { t.net with ctxConflict := tput 0 t.net.ctxConflict x (tget 0 c x) } }
/-- Words of a context written in order, none where one is refused. -/
def ctxStores (s : State) (x : Nat) (l : List (Nat × Nat)) : Option State :=
  l.foldl (fun (o : Option State) e => o.bind (fun t => ctxStore1 t x e.1 e.2)) (some s)
/-- A descriptor is written to a stream context. -/
def ctxWriteVal (s : State) (x : Nat) (d : List Byte) : Nat × State :=
  let l := blobRegs d
  let other := cxClaimHeld s x && cxClaimId s x ≠ agent
  let t := { s with net := { s.net with ctxClaim := tput 0 s.net.ctxClaim x (n32 (256 + agent)) } }
  let e := ctxPort ((upto 12).foldl (fun t w => setCtxW t x w (n32 (l.getD w 0))) t) x
  if 2 ^ 31 ≤ l.getD 0 0 && decide (e < 6) && !(ethPresent s.variant e) then (9, s)
  else match ctxStores t x (descOrder (ctxEn s x) l) with
    | none => (6, s)
    | some u => if other then (8, s) else (0, u)
/-- REBIND: of an enabled listener that no admitted wagon reads (R413, R414). -/
def rebindWrite (s : State) (x : Nat) : Nat × State :=
  if isTalker x || !(ctxEn s x) || cxTaken s x then (6, s)
  else if cxClaimHeld s x && cxClaimId s x ≠ agent then (8, s)
  else (0, cxRebind s (ctxPort s x) x)
/-- A kind and a number of an end of a wagon name a TDM port or an ASRC engine that the variant lacks (R5). -/
def endAbsent (s : State) (kind idx : Nat) : Bool :=
  (kind = 1 && decide (s.variant.tdmPorts ≤ idx) && decide (idx < 32)) || (kind = 4 && decide (s.variant.asrcEngines ≤ idx / 64) && decide (idx < 256))
/-- A descriptor is written to a wagon. -/
def wagonWrite (s : State) (n w : Nat) (d : List Byte) : Nat × State :=
  let l := blobRegs d
  if endAbsent s (fld (l.getD 0 0) 28 3) (fld (l.getD 1 0) 20 12) || endAbsent s (fld (l.getD 0 0) 25 3) (fld (l.getD 2 0) 20 12) then (9, s)
  else dictStores s (seClaim n w) ((descOrder (regB s (seDesc n w 0) 31) (blobRegs d)).map (fun e => (seDesc n w e.1, e.2)))
/-- Abort code for a value of the express path (R380); 0 where it stands. -/
def expressCode (s : State) (sub v : Nat) : Nat :=
  let ip := valN s 0x6140 1 0xFF
  let op := valN s 0x6140 3 0xFF
  let hz := clockHz s (apMc s ip)
  if sub = 1 || sub = 3 then (if v = 0xFF || v < s.variant.tdmPorts then 0 else if v < 32 then 9 else 6)
  else if sub = 2 || sub = 4 then (if ((upto 32).filter (bitN v)).length ≤ 16 then 0 else 6)
  else if sub = 5 then (if v = 0xFF || v < s.variant.coaches then 0 else if v < 64 then 9 else 6)
  else if sub = 6 then (if v = 0xFFFF || v < 4096 then 0 else 6)
  else if v = 0 then 0
  else if ip = 0xFF || op = 0xFF || valN s 0x6140 5 0xFF = 0xFF || valN s 0x6140 6 0xFFFF = 0xFFFF then 6
  else if apMc s ip = apMc s op && (hz = 48000 || hz = 96000 || hz = 192000) && regB s (apBase op) 30 then 0 else 6

/-! ## Writes of power and memory entries -/

/-- The requested state map: every domain is refused or none (R506); the answer is the first of Table 4 that a domain
gives. -/
def mapWrite (s : State) (d : List Byte) : Nat × State :=
  let l := blobWords d
  let at_ (i : Nat) : Nat := l.getD (i / 8) 0 / 4 ^ (i % 8) % 4
  let codes := (upto 148).filterMap (fun i => domRefuse s i (at_ i))
  if codes.contains 9 then (9, s)
  else if codes.contains 5 then (5, s)
  else if codes.contains 6 || (upto 4).any (fun i => at_ (148 + i) ≠ 0) then (6, s)
  else (0, (upto 148).foldl (fun t i => domainReqOp t i (at_ i)) s)
/-- The clock of a cluster (R510). -/
def clockWrite (s : State) (k v : Nat) : Nat × State :=
  if v < 400 || 1500 < v || v % 25 ≠ 0 then (6, s) else if !(clusterIdle s k) then (5, s) else (0, clockSet s k (v / 25 - 16))
/-- A pin or a claim word is claimed for the parameter agent (R472). -/
def claimWrite (s : State) (v : Nat) : Nat × State :=
  let i := v % 2 ^ 24
  let c := resourceCode s v
  if c ≠ 0 then (c, s)
  else if resHolder s v ≠ 0xFF then (8, s)
  else match v / 2 ^ 24 with
    | 6 => (0, { s with net := { s.net with ctxClaim := tput 0 s.net.ctxClaim i (n32 (256 + agent)) } })
    | 0xA => (0, { s with media := { s.media with pinClaims := tput 0 s.media.pinClaims i (agent + 1) } })
    | _ => (match resClaim v with | some a => (0, setReg s a (n32 (256 + agent))) | none => (6, s))
/-- A feature that the owner has configured uses a pin that the agent holds. -/
def pinUsed (s : State) (i : Nat) : Bool :=
  if i < 2 then (upto 4).any (fun k => mcOn s k && (mcPins (reg s (mcCtl k))).contains i) else srcEn s (1088 + (i - 2))
/-- A claim of the parameter agent is released (R472). -/
def releaseWrite (s : State) (v : Nat) : Nat × State :=
  let i := v % 2 ^ 24
  let c := resourceCode s v
  let h := resHolder s v
  if c ≠ 0 then (c, s)
  else
    let busy := match v / 2 ^ 24 with
      | 6 => ctxEn s i | 0xA => pinUsed s i
      | _ => (match resClaim v with | some a => claimBusy s a | none => false)
    if h = agent && busy then (5, s)
    else if h = 0xFF then (6, s)
    else if h ≠ agent then (8, s)
    else match v / 2 ^ 24 with
      | 6 => (0, { s with net := { s.net with ctxClaim := tput 0 s.net.ctxClaim i 0 } })
      | 0xA => (0, { s with media := { s.media with pinClaims := tput 0 s.media.pinClaims i 0 } })
      | _ => (match resClaim v with | some a => (0, setReg s a 0) | none => (6, s))

/-! ## The effect of a write -/

/-- A value stands, or is out of range. -/
def inRange (s : State) (b : Bool) (t : State) : Nat × State := if b then (0, t) else (6, s)
/-- A value of entry 0x1030 waits to take effect (R474). -/
def commPend (s : State) (sub : Nat) (d : List Byte) : State :=
  { s with fpp := { s.fpp with comm := s.fpp.comm.filter (fun e => e.1 ≠ sub) ++ [(sub, d)] } }
/-- Bytes are kept as the value of a subindex. -/
def keepVal (s : State) (idx sub : Nat) (d : List Byte) : State := { s with fpp := { s.fpp with vals := tput [] s.fpp.vals (keyOf idx sub) d } }
def commRange (sub v : Nat) : Bool :=
  match sub with
  | 1 => decide (1 ≤ v) && decide (v ≤ 127) | 2 => decide (v < 16) | 3 => v = 1 || v = 2 || v = 4 || v = 5 | 4 => decide (1024 ≤ v)
  | 5 => decide (v < 64) | _ => true
/-- SAFE and CONFIG commanded (R470). An admission under way ends with abort 0x05 as SAFE withdraws its timetable (DEDUCED, log entry 59). -/
def stateWrite (s : State) (v : Nat) : Nat × State :=
  if v = 6 then
    (let t := longDone (withdrawTable (if s.dev = 7 then setDev s 7 14 else setDev s 6 11)) (0x4000 * 256 + 2) 5
     let t := { t with media := { t.media with fromSafe := true } }
     (0, if s.dev = 7 then { t with held := 6 } else t))
  else if v = 3 then (0, setDev (stopWagons s) 3 12) else (6, s)
/-- Report counts of classes 0x0 to 0xC are cleared. -/
def clearReports (s : State) : State := { s with mem := { s.mem with reports := tclear s.mem.reports 0 13 } }
/-- An entry of the device's own from the issuer of a write (R476). -/
def issuer (s : State) : Nat := if s.dev = 7 then s.fpp.svcNode else s.fpp.ownerNode
/-- Erasing the copies runs until COPY_SLOT_ERASE. -/
def writeLow (s : State) (idx sub : Nat) (d : List Byte) : Nat × State :=
  let v := ofBe d
  match idx, sub with
  | 0x1020, _ => stateWrite s v
  | 0x1030, n => inRange s (commRange n v) (commPend s n d)
  | 0x3000, _ => mapWrite s d
  | 0x3020, 1 => (0, avsUpdate (setRegB s pwrAvs 31 (v = 1)))
  | 0x3020, _ => inRange s (decide (50 ≤ v) && decide (v ≤ 1000)) s
  | 0x4000, 1 => (0, { s with carts := { s.carts with image := (blobWords d).map (fun w => BitVec.ofNat 16 w) } })
  | 0x4000, 2 => (0, s)
  | 0x4000, _ => (0, withdrawOp s)
  | 0x4002, 1 => inRange s (decide (0x3F000000 ≤ v) && decide (v ≤ 0x3F733333)) s
  | 0x4002, 2 => inRange s (decide (v ≤ 0x3E4CCCCD) || v = 2 ^ 31) s
  | 0x4002, _ => inRange s (decide (16 ≤ v) && decide (v ≤ 4095)) s
  | 0x4030, _ =>
    if 71 < v then (6, s) else if slotSt s v ≠ 2 then (5, s)
    else (0, { switchOn s v with carts := { (switchOn s v).carts with recomSlot := some v } })
  | _, _ => (match unitOf idx 0x3100 8 with | some k => clockWrite s k v | none => (6, s))
def writeStreams (s : State) (e : Option Session) (idx sub : Nat) (d : List Byte) : Nat × State :=
  let v := ofBe d
  match unitOf idx 0x5000 6, unitOf idx 0x6000 32, unitOf idx 0x6040 8, unitOf idx 0x6080 4, unitOf idx 0x60C0 4 with
  | some p, _, _, _, _ => ethWrite s p sub d
  | _, some p, _, _, _ => dictStores s (apClaim p) [(apBase p + 2 * (sub - 1), v)]
  | _, _, some i, _, _ => dictStores s (pdmClaim i) [(pdmCtl i, v)]
  | _, _, _, some m, _ => dictStores s (mcClaim m) [(mcCtl m, v)]
  | _, _, _, _, some n =>
    let t := selOf e idx 1
    (match sub with
     | 2 => dictStores s (asClaim n t) [(asCtl n t, v)]
     | 3 => dictStores s (asClaim n t) [(asDelay n t, v)]
     | _ => dictStores s (asClaim n t) [(asWin n t, (reg s (asWin n t)).toNat / 65536 * 65536 + v)])
  | _, _, _, _, _ =>
    (match idx, sub with
     | 0x5008, _ => inRange s (v / 2 ^ 30 = 1 || v / 2 ^ 30 = 2) { s with net := { s.net with mdio := some (n32 v) } }
     | 0x5010, 3 => if v ≤ 1 then dictStore s ptpBase v else (6, s)
     | 0x5010, n => dictStore s (ptpDctl (n - 1)) v
     | 0x5100, 2 => ctxWriteVal s (selOf e idx 1) d
     | 0x5100, _ => rebindWrite s (selOf e idx 1)
     | 0x6100, _ => wagonWrite s (selOf e idx 1 / 64) (selOf e idx 1 % 64) d
     | _, n => (expressCode s n v, keepVal s 0x6140 n d))
def writeMemory (s : State) (idx sub : Nat) (d : List Byte) : Nat × State :=
  let v := ofBe d
  match idx, sub with
  | 0x7010, _ => (0, clearReports s)
  | 0x7011, 7 => inRange s (decide (v < 64)) ((upto 6).foldl (fun t k => setRegB t (scbInt k) 16 (bitN v k)) s)
  | 0x7011, n => inRange s (decide (1 ≤ v) && decide (v ≤ 64000)) (setRegF s (scbInt (n - 1)) 0 16 v)
  | 0x7031, _ => if fuseReady s then (0, fuseStart s) else (5, s)
  | 0x7040, 1 => (match marchCode s v with | 0 => dictStores s 1 [(mtCtl, v % 2 ^ 31)] | c => (c, s))
  | 0x7040, _ => (0, setRegB s mtCtl 31 true)
  | 0x7050, 1 => dictStores s 1 [(eccStat + 4, v)]
  | _, _ => if v ≤ 2 then dictStores s 1 [(eccStat + 2, 2 * v + 1)] else (6, s)
def writeBox (s : State) (idx sub : Nat) (d : List Byte) : Nat × State :=
  let v := ofBe d
  let l := blobRegs d
  match idx, sub with
  | 0x8001, 1 => (0, setHeader (setRegF s (bbBase + 2) 0 8 v) (setRegF s (bbBase + 2) 0 8 v).bb.header)
  | 0x8001, 2 => (0, bbL0 s 0x0C03 (pairHi (issuer s)) (pairLo (issuer s) 0) 0 0)
  | 0x8001, 3 => (0, rearmStart s)
  | 0x8001, _ => (0, bbL0 s 0x0D01 (n32 (l.getD 0 0)) (n32 (l.getD 1 0)) (n32 (l.getD 2 0)) (n32 (l.getD 3 0)))
  | 0x9000, 1 => claimWrite s v
  | 0x9000, _ => releaseWrite s v
  | _, _ => (0, s)
/-- What a write of bytes to a subindex that is no selector does: an abort code of orders 8 to 11 of Table 4, or 0 and
the state it leaves. -/
def writeVal (s : State) (e : Option Session) (idx sub : Nat) (d : List Byte) : Nat × State :=
  if idx < 0x5000 then writeLow s idx sub d
  else if idx < 0x7000 then writeStreams s e idx sub d
  else if idx < 0x8000 then writeMemory s idx sub d
  else writeBox s idx sub d
end Sys2Proof.Machine
end

