-- ==== Sys2Proof/Machine/Agent.lean ====
section
/-! DEFINITION. The parameter agent at work: sessions (R448), the order of checks (R451), segments (R453), ownership
(R457 to R464), the service claim (R465 to R467, R491 to R493), and the settings that take effect later (R447, R474).
Each request is answered as it is taken from the front of the queue. -/
namespace Sys2Proof.Machine
open Sys2Proof.Config

/-! ## Sessions (R446, R448) -/

def session0 (t : Transport) (at_ : Nat) : Session :=
  { addr := t, last := at_, selectors := [], snapIndex := 0, snap := none, xferKey := none, xfer := [], xferTotal := 0, xferAt := 0, outcomes := [], node := 0 }
def sessOf (s : State) (t : Transport) : Option Session := s.fpp.sessions.find? (fun e => e.addr = t)
def modSess (s : State) (t : Transport) (f : Session → Session) : State :=
  { s with fpp := { s.fpp with sessions := s.fpp.sessions.map (fun e => if e.addr = t then f e else e) } }
def isOwnerSess (s : State) (t : Transport) : Bool := s.fpp.own = 2 && s.fpp.ownerSession = some t
def isHolder (s : State) (t : Transport) : Bool := s.dev = 7 && s.fpp.svcHeld && s.fpp.svcSession = some t
/-- The session may close: idle for 10 s at an instant, and neither the owner's nor the service holder's. -/
def sessIdle (s : State) (at_ : Nat) (e : Session) : Bool := decide (e.last + 10 ^ 10 ≤ at_) && !(isOwnerSess s e.addr) && !(isHolder s e.addr)
def closeIdle (s : State) (at_ : Nat) : State := { s with fpp := { s.fpp with sessions := s.fpp.sessions.filter (fun e => !(sessIdle s at_ e)) } }
/-- A request arrives in a session: the session opens where the table has room. -/
def touch (s : State) (q : Request) : State :=
  match sessOf s q.from_ with
  | some _ => modSess s q.from_ (fun e => { e with last := q.arrival, snap := if e.snapIndex / 256 = q.index then e.snap else none })
  | none => if s.fpp.sessions.length < 32 then { s with fpp := { s.fpp with sessions := s.fpp.sessions ++ [session0 q.from_ q.arrival] } } else s
/-- The outcome of a long request of a session, for STATUS; key 0 is CLAIM and SVC_PROVE. -/
def setOutcome (s : State) (t : Transport) (key status : Nat) : State := modSess s t (fun e => { e with outcomes := tput 0xFFFF e.outcomes key status })
/-- The outcome of an aborted long request, which is counted like every abort (R468). -/
def endOutcome (s : State) (t : Transport) (status : Nat) : State := setOutcome (if status = 0 then s else fppCount s (status + 1)) t 0 status

/-! ## Ownership (R457 to R464) -/

def nextEpoch (e : Nat) : Nat := if e = 0xFFFF then 1 else e + 1
/-- The entry of an ownership change (R458). -/
def ownEntry (s : State) (old oldE new newE : Nat) : State := bbL0 s 0x0401 (pairHi old) (pairLo old oldE) (pairHi new) (pairLo new newE)
/-- Of two claims the one with the higher priority, or the lower node identity (R459). -/
def betterClaim (a b : Candidate) : Candidate := if b.prio > a.prio || (b.prio = a.prio && b.node < a.node) then b else a
/-- ELECTION_END: the winner becomes owner at the next epoch, which flash holds from then on. -/
def electionEndOp (s : State) : State :=
  match s.fpp.candidates with
  | [] => s
  | c :: r =>
    let w := r.foldl betterClaim c
    let f := s.fpp
    let s := { s with fpp := { f with own := 2, ownerNode := w.node, ownerPrio := w.prio, ownerSession := some w.session, ownerSeen := f.electionEnd,
                                      epoch := nextEpoch f.epoch, grants := f.grants + 1, candidates := [] } }
    let s := f.candidates.foldl (fun s x => endOutcome s x.session (if x.session = w.session then 0 else 4)) s
    ownEntry s 0 f.epoch w.node (nextEpoch f.epoch)
/-- Nobody is owner. -/
def noOwner (s : State) : State :=
  let f := s.fpp
  ownEntry { s with fpp := { f with own := 0, ownerNode := 0, ownerPrio := 0, ownerSession := none } } f.ownerNode f.epoch 0 f.epoch
/-- OWNER_LAPSE: the owner's open transfer is discarded (R462). -/
def lapseOp (s : State) : State :=
  let t := match s.fpp.ownerSession with | some a => modSess s a (fun e => { e with xferKey := none, xfer := [] }) | none => s
  noOwner { t with fpp := { t.fpp with lapses := t.fpp.lapses + 1 } }
def electionDue (s : State) (at_ : Nat) : Bool := s.fpp.own = 1 && decide (s.fpp.electionEnd ≤ at_)
def lapseDue (s : State) (at_ : Nat) : Bool := s.fpp.own = 2 && s.dev ≠ 7 && decide (s.fpp.ownerSeen + 500000000 ≤ at_)

/-! ## The service session (R465 to R467) -/

/-- The session ends for a reason of entry 0x0502: 1 SVC_END, 2 lapse, 3 SERVICE_EN, 4 reset. -/
def svcStop (s : State) (why : Nat) : State :=
  let s := bbL0 s 0x0502 (n32 why) (n32 ((s.dtime - s.fpp.svcBegan) / 1000000)) 0 0
  { s with fpp := { s.fpp with svcHeld := false, svcNode := 0, svcSession := none } }
/-- The device returns to the held state. -/
def svcEndOp (s : State) (why at_ : Nat) : State :=
  let s := setDev (svcStop s why) s.held 15
  { s with held := 0, fpp := { s.fpp with ownerSeen := at_ } }
def svcLapseDue (s : State) (at_ : Nat) : Bool := s.dev = 7 && s.fpp.svcHeld && decide (s.fpp.svcSeen + 500000000 ≤ at_)
/-- Deadlines that lie at or before an instant take effect before a request that arrived then. -/
def settle (s : State) (at_ : Nat) : State :=
  let s := if svcLapseDue s at_ then svcEndOp s 2 (s.fpp.svcSeen + 500000000) else s
  let s := if electionDue s at_ then electionEndOp s else s
  let s := if lapseDue s at_ then lapseOp s else s
  closeIdle s at_
/-- No request that arrived before an instant still waits. -/
def queuePast (s : State) (at_ : Nat) : Bool := match s.fpp.queue with | q :: _ => decide (at_ ≤ q.arrival) | [] => true

/-! ## Taking a request -/

/-- A request is taken from the front of the queue: counted, in its session, after the deadlines before its arrival. -/
def takeHead (s : State) (ok : Request → Bool) (go : State → Request → State) : State :=
  if s.dev < 2 then s
  else match s.fpp.queue with
  | q :: r => if ok q then go (touch (settle (fppCount { s with fpp := { s.fpp with queue := r } } 1) q.arrival) q) q else s
  | [] => s
/-- The owner's lapse time restarts from the arrival of a request accepted from it (R458). -/
def accepted (s : State) (q : Request) : State :=
  if isOwnerSess s q.from_ then { s with fpp := { s.fpp with ownerSeen := Nat.max s.fpp.ownerSeen q.arrival } } else s
/-- The table of sessions is full and the request is from a new address (R448). -/
def noRoom (s : State) (q : Request) : Bool := (sessOf s q.from_).isNone
def firstOf (l : List (Bool × Nat)) : Nat := match l.find? (fun e => e.1) with | some e => e.2 | none => 0
/-- An abort is recorded where the device state refused the request (R469). -/
def abortAt (s : State) (q : Request) (code : Nat) (byState : Bool) : State :=
  abort (if code = 5 && byState then refusedByState s (keyOf q.index q.sub) 5 else s) q code

/-! ## READ and STATUS -/

def subAcc (idx sub : Nat) : Nat := match subAt idx sub with | some e => e.acc | none => 0
def subTyp (idx sub : Nat) : Nat := match subAt idx sub with | some e => e.typ | none => 0
def badName (s : State) (q : Request) : List (Bool × Nat) :=
  [((entrySubs q.index).isEmpty, 1), ((subAt q.index q.sub).isNone, 2), (unitAbsent s q.index q.sub, 9)]
/-- The snapshot that a READ with an OFFSET goes on with (R453). -/
def snapOf (s : State) (q : Request) : Option (List Byte) :=
  match sessOf s q.from_ with | some e => if e.snapIndex = keyOf q.index q.sub then e.snap else none | none => none
/-- READ (R453). -/
def readReq (s : State) (q : Request) : State :=
  let acc := subAcc q.index q.sub
  let c := firstOf ([(q.malformed || q.data.length ≠ 0 || q.typ ≠ 0, 7)] ++ badName s q ++
    [(decide (acc = 2), 3), (acc = 4 && !(isHolder s q.from_), 0xB), (!(readLegal s q.index), 5)])
  if c ≠ 0 then abortAt s q c true
  else
    let val := if q.offset = 0 then some (readVal s (sessOf s q.from_) q.index q.sub) else snapOf s q
    match val with
    | none => abort s q 7
    | some v =>
      if v.length < q.offset then abort s q 7
      else
        let s := modSess (accepted s q) q.from_ (fun e => { e with snap := some v, snapIndex := keyOf q.index q.sub })
        answerWith s q 0 (subTyp q.index q.sub) q.offset v.length ((v.drop q.offset).take (segMax q.from_))
/-- STATUS (R450): of a long entry, or of the session's CLAIM or SVC_PROVE. -/
def statusReq (s : State) (q : Request) : State :=
  let own := q.index = 0 && q.sub = 0
  let st := match sessOf s q.from_ with | some e => tget 0xFFFF e.outcomes (keyOf q.index q.sub) | none => 0xFFFF
  let c := firstOf ([(q.malformed || q.data.length ≠ 0 || q.typ ≠ 0, 7)] ++ (if own then [] else badName s q) ++ [(decide (st = 0xFFFF), 6)])
  if c ≠ 0 then abort s q c else answerWith (accepted s q) q st 0 0 0 []

/-! ## WRITE -/

/-- The checks of orders 2 to 10 that do not need what the write would do. -/
def writeCode (s : State) (q : Request) (d : List Byte) : Nat :=
  let idx := q.index
  let sub := q.sub
  let acc := subAcc idx sub
  let sel := isSelector idx sub
  let typ := subTyp idx sub
  let v := ofBe d
  firstOf ([(decide (0xF000 ≤ idx), 0xB)] ++ badName s q ++
    [(acc = 0 || sub = 0, 3), ((acc = 4 || (s.dev = 7 && !sel)) && !(isHolder s q.from_), 0xB),
     (!sel && acc ≠ 4 && s.dev ≠ 7 && !(isOwnerSess s q.from_ && q.epoch = s.fpp.epoch), 4),
     (!((writeStates s idx sub v).contains s.dev), 5),
     (q.typ ≠ typ || !(lengthOk idx sub typ d.length), 7), (!(typeRange typ v) || (writeOne idx sub && v = 0), 6)])
/-- A value kept for flash (R447). -/
def markDirty (s : State) (key : Nat) : State := { s with fpp := { s.fpp with dirty := s.fpp.dirty.filter (fun k => k ≠ key) ++ [key] } }
/-- A whole value is checked and applied: the code, and where that is 0 the state it leaves. -/
def writeApply (s : State) (q : Request) (d : List Byte) : Nat × State :=
  let idx := q.index
  let sub := q.sub
  let key := keyOf idx sub
  let c := writeCode s q d
  if c ≠ 0 then (c, s)
  else if isSelector idx sub then
    let c := selectorCode s idx sub (ofBe d)
    (if c ≠ 0 then (c, s) else if noRoom s q || (s.bb.rearming && idx = 0x8010) then (0xA, s)
     else (0, modSess s q.from_ (fun e => { e with selectors := tput 0 e.selectors key (ofBe d) })))
  else
    let long := isLong idx sub
    let t := if long then setOutcome { s with fpp := { s.fpp with long := some (key, ofBe d, q.from_) } } q.from_ key 0x80 else s
    let r := writeVal t (sessOf s q.from_) idx sub d
    if r.1 ≠ 0 then (r.1, s)
    else if (long && s.fpp.long.isSome) || (s.bb.rearming && decide (0x8000 ≤ idx) && decide (idx < 0x9000)) || noRoom s q then (0xA, s)
    else if subAcc idx sub = 3 && idx ≠ 0x1030 then (0, markDirty (keepVal r.2 idx sub d) key)
    else (0, r.2)
/-- The service holder's writes leave entries (R493). -/
def svcNote (s : State) (q : Request) (d : List Byte) (t : State) : State :=
  if isHolder s q.from_ then bbL0 t 0x0504 (n32 (keyOf q.index q.sub)) (n32 (ofBe ((d ++ [0, 0, 0, 0]).take 4))) 0 0 else t
def finishWrite (s : State) (q : Request) (d : List Byte) : State :=
  let r := writeApply s q d
  if r.1 ≠ 0 then svcNote s q d (abortAt s q r.1 true)
  else svcNote s q d (let t := accepted r.2 q; if isLong q.index q.sub then busy t q else done t q)
def dropXfer (s : State) (q : Request) : State := modSess s q.from_ (fun e => { e with xferKey := none, xfer := [], xferTotal := 0 })
/-- A transfer has been idle for 1 s (R453); one that TRANSFER_TIMEOUT discarded has a total of 0. -/
def xferStale (e : Session) (at_ : Nat) : Bool := e.xferKey.isSome && (e.xferTotal = 0 || decide (e.xferAt + 10 ^ 9 ≤ at_))
/-- A first segment begins a transfer, and a value that fits one message is whole at once. -/
def firstSegment (s : State) (q : Request) : State :=
  let s := dropXfer s q
  if q.total < q.data.length then svcNote s q q.data (abort s q 7)
  else if q.total = q.data.length then finishWrite s q q.data
  else if noRoom s q then abort s q 0xA
  else
    let t := modSess s q.from_ (fun e => { e with xferKey := some (q.index, q.sub, q.typ), xfer := q.data, xferTotal := q.total, xferAt := q.arrival })
    done (accepted t q) q
/-- A later segment goes on where the transfer stands. -/
def laterSegment (s : State) (q : Request) (e : Session) : State :=
  if xferStale e q.arrival then svcNote s q q.data (abort (dropXfer s q) q 0xC)
  else if e.xferKey ≠ some (q.index, q.sub, q.typ) || e.xferTotal ≠ q.total || e.xfer.length ≠ q.offset || decide (q.total < q.offset + q.data.length) then
    svcNote s q q.data (abort (dropXfer s q) q 7)
  else if q.offset + q.data.length = q.total then finishWrite (dropXfer s q) q (e.xfer ++ q.data)
  else done (accepted (modSess s q.from_ (fun e => { e with xfer := e.xfer ++ q.data, xferAt := q.arrival })) q) q
/-- WRITE (R453). -/
def writeReq (s : State) (q : Request) : State :=
  if q.malformed then svcNote s q q.data (abort s q 7)
  else if q.offset = 0 then firstSegment s q
  else match sessOf s q.from_ with
    | some e => laterSegment s q e
    | none => svcNote s q q.data (abort s q 7)

/-! ## Ownership commands -/

def node6 (d : List Byte) (i : Nat) : Nat := ofBe (slice d i 6)
def badCmd (q : Request) (n : Nat) : Bool := q.malformed || q.index ≠ 0 || q.sub ≠ 0 || q.typ ≠ 0 || q.data.length ≠ n
/-- CLAIM (R458, R459). -/
def claimReq (s : State) (q : Request) : State :=
  let n := node6 q.data 0
  let p := nth q.data 6
  let f := s.fpp
  let c := firstOf [(badCmd q 8, 7), (s.dev = 7, 0xB), (f.own = 2, 4), (decide (15 < p) || n = 0 || n = 2 ^ 48 - 1, 6), (noRoom s q, 0xA)]
  if c ≠ 0 then abort s q c
  else
    let l := f.candidates.filter (fun x => x.session ≠ q.from_) ++ [{ session := q.from_, node := n, prio := p }]
    let s := { s with fpp := { f with own := 1, electionEnd := if f.own = 1 then f.electionEnd else q.arrival + 100000000, candidates := l } }
    busy (setOutcome s q.from_ 0 0x80) q
/-- A node is present for 500 ms. -/
def notePresent (s : State) (p : Present) : State :=
  { s with fpp := { s.fpp with present := s.fpp.present.filter (fun x => x.node ≠ p.node && decide (p.at_ < x.at_ + 500000000)) ++ [p] } }
/-- HEARTBEAT (R460, R466). -/
def heartbeatReq (s : State) (q : Request) : State :=
  let n := node6 q.data 0
  let f := s.fpp
  let mine := f.own = 2 && f.ownerNode = n
  let c := firstOf [(badCmd q 8, 7), (mine && q.epoch ≠ f.epoch && !(isHolder s q.from_), 4), (noRoom s q, 0xA)]
  if c ≠ 0 then abort s q c
  else
    let s := if isHolder s q.from_ then { s with fpp := { s.fpp with svcSeen := q.arrival } } else s
    let s := if mine then { s with fpp := { s.fpp with ownerSession := some q.from_, ownerSeen := Nat.max s.fpp.ownerSeen q.arrival } }
      else notePresent s { node := n, prio := nth q.data 6, session := q.from_, at_ := q.arrival }
    answerWith s q 0 0 0 0 (beBytes 6 s.fpp.ownerNode ++ [0, 0])
def mayOwn (s : State) (q : Request) : Bool := isOwnerSess s q.from_ && q.epoch = s.fpp.epoch
/-- HANDOVER (R464): the target's lapse time runs from its last heartbeat. -/
def handoverReq (s : State) (q : Request) : State :=
  let f := s.fpp
  let p := f.present.find? (fun x => x.node = node6 q.data 6 && decide (q.arrival < x.at_ + 500000000))
  let c := firstOf [(badCmd q 12, 7), (s.dev = 7, 0xB), (!(mayOwn s q), 4), (p.isNone, 6)]
  if c ≠ 0 then abort s q c
  else match p with
    | none => s
    | some x =>
      let e := nextEpoch f.epoch
      let s := { s with fpp := { f with ownerNode := x.node, ownerPrio := x.prio, ownerSession := some x.session, ownerSeen := x.at_, epoch := e,
                                        present := f.present.filter (fun y => y.node ≠ x.node) } }
      done (ownEntry s f.ownerNode f.epoch x.node e) q
/-- RELEASE. -/
def releaseReq (s : State) (q : Request) : State :=
  let c := firstOf [(badCmd q 6, 7), (s.dev = 7, 0xB), (!(mayOwn s q), 4)]
  if c ≠ 0 then abort s q c else done (noOwner s) q

/-! ## The service claim -/

/-- SVC_CLAIM: a fresh challenge takes the place of one drawn before. -/
def svcClaimReq (s : State) (q : Request) : State :=
  let f := s.fpp
  let c := firstOf [(badCmd q 8, 7), (s.dev = 7 || !s.serviceEn || f.svcHeld || f.keys.isEmpty || decide (q.arrival < f.lockedUntil), 0xB),
    (decide (s.dev < 3), 5), (noRoom s q, 0xA)]
  if c ≠ 0 then abortAt s q c true
  else
    let s := { s with fpp := { f with challenge := some (f.challenges, q.arrival), challengeFor := some q.from_, challengeNode := node6 q.data 0,
                                      challenges := f.challenges + 1 } }
    answerWith (accepted s q) q 0 0 0 0 (beBytes 32 (Config.challenge (f.challenges)).toNat)
/-- The message that a proof signs (R491). -/
def proofMessage (s : State) (n : Nat) : List Byte :=
  [0x46, 0x4A, 0x53, 0x56] ++ beBytes 32 (Config.challenge n).toNat ++ beBytes 6 serial.toNat ++ beBytes 6 s.fpp.challengeNode ++ beBytes 2 s.fpp.epoch
/-- The first tester key that verifies a proof. -/
def proofKey (s : State) (n : Nat) (p : List Byte) : Option Nat :=
  let e := sha256 (proofMessage s n)
  (upto s.fpp.keys.length).find? (fun i =>
    let k := keyBytes (s.fpp.keys.getD i [])
    ecdsaOk (ofBe (slice k 0 32)) (ofBe (slice k 32 32)) (ofBe (slice p 0 32)) (ofBe (slice p 32 32)) e)
/-- A proof fails, or the challenge has expired: counted, and three failures within 60 s lock the claim for 60 s. -/
def proofFailed (s : State) (at_ : Nat) (isProof : Bool) : State :=
  let f := s.fpp
  let l := (f.failedAt.filter (fun x => decide (at_ < x + 60000000000))) ++ (if isProof then [at_] else [])
  let s := { s with fpp := { f with failedAt := l, failedTotal := f.failedTotal + b2n isProof, challenge := none, challengeFor := none,
                                    lockedUntil := if isProof && decide (3 ≤ l.length) then at_ + 60000000000 else f.lockedUntil } }
  bbL0 s 0x0503 (pairHi f.challengeNode) (pairLo f.challengeNode 0) (n32 l.length) 0
/-- The session begins (R465). -/
def svcBegin (s : State) (t : Transport) (key at_ : Nat) : State :=
  let f := s.fpp
  let n := f.challengeNode
  let s := setDev { s with held := s.dev, fpp := { f with svcHeld := true, svcNode := n, svcSession := some t, svcSeen := at_, svcBegan := s.dtime,
                                                          challenge := none, challengeFor := none } } 7 13
  bbL0 s 0x0501 (pairHi n) (pairLo n key) (n32 s.held) 0
/-- What the check of a proof leads to: SERVICE begins with the key that it proved, or a failed proof is counted (R465). -/
def svcProved (s : State) (q : Request) (late : Bool) (key : Option Nat) : State :=
  match key with
  | some k => setOutcome (svcBegin s q.from_ k q.arrival) q.from_ 0 0
  | none => endOutcome (proofFailed s q.arrival (!late && s.serviceEn)) q.from_ 0xB
/-- SVC_PROVE: answered BUSY; the check follows at once and STATUS tells how it went. -/
def svcProveReq (s : State) (q : Request) : State :=
  let f := s.fpp
  let mine := f.challengeFor = some q.from_
  let c := firstOf [(badCmd q 64, 7), (s.dev = 7 || f.svcHeld || !mine, 0xB), (decide (s.dev < 3), 5)]
  if c ≠ 0 then abortAt s q c true
  else match f.challenge with
    | none => abort s q 0xB
    | some (n, at_) =>
      let late := decide (at_ + 10 ^ 10 ≤ q.arrival)
      let s := busy (accepted s q) q
      svcProved s q late (if late || !s.serviceEn then none else proofKey s n q.data)
/-- SVC_END from the service holder. -/
def svcEndReq (s : State) (q : Request) : State :=
  let c := firstOf [(badCmd q 0, 7), (!(isHolder s q.from_), 0xB)]
  if c ≠ 0 then abort s q c else svcEndOp (done s q) 1 s.dtime
/-- CHALLENGE_EXPIRY: 10 s have passed since the challenge was drawn. -/
def challengeExpiryOp (s : State) : State :=
  match s.fpp.challenge with
  | some (_, at_) => if at_ + 10 ^ 10 ≤ s.dtime && queuePast s (at_ + 10 ^ 10) then proofFailed s s.dtime false else s
  | none => s

/-! ## Commands -/

def isWrite (idx sub : Nat) (q : Request) : Bool := q.cmd = 2 && q.index = idx && q.sub = sub
/-- The queue's front is processed when it is a request of the command's kind (R449). -/
def execRead (s : State) : Host.Outcome State Fault Refusal := act (Instr.wf .read) (takeHead s (fun q => q.cmd = 1) readReq)
def execWrite (s : State) : Host.Outcome State Fault Refusal := act (Instr.wf .write) (takeHead s (fun q => q.cmd = 2) writeReq)
def execStatus (s : State) : Host.Outcome State Fault Refusal := act (Instr.wf .status) (takeHead s (fun q => q.cmd = 3) statusReq)
def execClaim (s : State) : Host.Outcome State Fault Refusal := act (Instr.wf .claim) (takeHead s (fun q => q.cmd = 0x10) claimReq)
def execHeartbeat (s : State) : Host.Outcome State Fault Refusal := act (Instr.wf .heartbeat) (takeHead s (fun q => q.cmd = 0x11) heartbeatReq)
def execHandover (s : State) : Host.Outcome State Fault Refusal := act (Instr.wf .handover) (takeHead s (fun q => q.cmd = 0x12) handoverReq)
def execRelease (s : State) : Host.Outcome State Fault Refusal := act (Instr.wf .release) (takeHead s (fun q => q.cmd = 0x13) releaseReq)
def execSvcClaim (s : State) : Host.Outcome State Fault Refusal := act (Instr.wf .svcClaim) (takeHead s (fun q => q.cmd = 0x20) svcClaimReq)
def execSvcProve (s : State) : Host.Outcome State Fault Refusal := act (Instr.wf .svcProve) (takeHead s (fun q => q.cmd = 0x21) svcProveReq)
def execSvcEnd (s : State) : Host.Outcome State Fault Refusal := act (Instr.wf .svcEnd) (takeHead s (fun q => q.cmd = 0x22) svcEndReq)
/-- ELECTION_END (R458, R459). -/
def execElectionEnd (s : State) : Host.Outcome State Fault Refusal :=
  act (Instr.wf .electionEnd) (if electionDue s s.dtime && queuePast s s.fpp.electionEnd then electionEndOp s else s)
/-- OWNER_LAPSE (R462). -/
def execOwnerLapse (s : State) : Host.Outcome State Fault Refusal :=
  act (Instr.wf .ownerLapse) (if lapseDue s s.dtime && queuePast s (s.fpp.ownerSeen + 500000000) then lapseOp s else s)
/-- SESSION_CLOSE (R448). -/
def execSessionClose (t : Transport) (s : State) : Host.Outcome State Fault Refusal :=
  act (Instr.wf (.sessionClose t)) { s with fpp := { s.fpp with sessions := s.fpp.sessions.filter (fun e => !(e.addr = t && sessIdle s s.dtime e && !(s.fpp.queue.any (fun q => q.from_ = t)))) } }
/-- TRANSFER_TIMEOUT (R453): the transfer's next segment answers abort 0x0C. -/
def execTransferTimeout (t : Transport) (s : State) : Host.Outcome State Fault Refusal :=
  act (Instr.wf (.transferTimeout t)) (modSess s t (fun e => if e.xferKey.isSome && decide (e.xferAt + 10 ^ 9 ≤ s.dtime) then { e with xfer := [], xferTotal := 0 } else e))
/-- CHALLENGE_EXPIRY (R465). -/
def execChallengeExpiry (s : State) : Host.Outcome State Fault Refusal := act (Instr.wf .challengeExpiry) (challengeExpiryOp s)
/-- SERVICE_LAPSE (R467). -/
def execServiceLapse (s : State) : Host.Outcome State Fault Refusal :=
  act (Instr.wf .serviceLapse) (if svcLapseDue s s.dtime && queuePast s (s.fpp.svcSeen + 500000000) then svcEndOp s 2 s.dtime else s)
/-- SERVICE_EN_DEASSERT (R467): the pin has been deasserted for 10 ms. -/
def execServiceEnDeassert (s : State) : Host.Outcome State Fault Refusal :=
  act (Instr.wf .serviceEnDeassert)
    (let t := { s with serviceEn := false }
     if s.dev = 7 && s.fpp.svcHeld then svcEndOp t 3 s.dtime else t)
/-- SAFE_COMMAND, CONFIG_COMMAND (R470), WITHDRAW (R545), the resource entries (R472), CLEAR_REPORT_COUNTS (R343), the
black box's entries (R495): writes of one subindex. -/
def stateCommand (v : Nat) (q : Request) : Bool := isWrite 0x1020 3 q && q.offset = 0 && ofBe q.data = v
def execSafeCommand (s : State) : Host.Outcome State Fault Refusal := act (Instr.wf .safeCommand) (takeHead s (stateCommand 6) writeReq)
def execConfigCommand (s : State) : Host.Outcome State Fault Refusal := act (Instr.wf .configCommand) (takeHead s (stateCommand 3) writeReq)
def execWithdraw (s : State) : Host.Outcome State Fault Refusal := act (Instr.wf .withdraw) (takeHead s (isWrite 0x4000 3) writeReq)
def execResourceClaim (s : State) : Host.Outcome State Fault Refusal := act (Instr.wf .resourceClaim) (takeHead s (isWrite 0x9000 1) writeReq)
def execResourceRelease (s : State) : Host.Outcome State Fault Refusal := act (Instr.wf .resourceRelease) (takeHead s (isWrite 0x9000 2) writeReq)
def execClearReportCounts (s : State) : Host.Outcome State Fault Refusal := act (Instr.wf .clearReportCounts) (takeHead s (isWrite 0x7010 0xF) writeReq)
def execManualTrigger (s : State) : Host.Outcome State Fault Refusal := act (Instr.wf .manualTrigger) (takeHead s (isWrite 0x8001 2) writeReq)
def execRearm (s : State) : Host.Outcome State Fault Refusal := act (Instr.wf .rearm) (takeHead s (isWrite 0x8001 3) writeReq)
def execOwnerNote (s : State) : Host.Outcome State Fault Refusal := act (Instr.wf .ownerNote) (takeHead s (isWrite 0x8001 4) writeReq)
/-- COPY_SLOT_ERASE: the write is taken, or the erasing that it started ends (R495). -/
def eraseDoneOp (s : State) : State :=
  match s.fpp.long with
  | some (k, _, _) => if k = keyOf 0x8011 1 then longDone (eraseAll s) k 0 else s
  | none => s
def execCopySlotErase (s : State) : Host.Outcome State Fault Refusal :=
  act (Instr.wf .copySlotErase) (if s.fpp.long.isSome then eraseDoneOp s else takeHead s (isWrite 0x8011 1) writeReq)

/-! ## Settings that take effect later (R447, R474) -/

/-- The transport that a subindex of entry 0x1030 configures. -/
def commOf (sub : Nat) : Transport → Bool
  | .can _ _ => sub ≤ 3
  | .udp _ _ _ => sub = 4 || sub = 5
  | .spi => sub = 6
/-- COMM_SETTINGS_APPLY: the values stand, and the sessions of a transport that they change close. -/
def commApplyOp (s : State) : State :=
  s.fpp.comm.foldl (fun s e =>
    let s := markDirty (keepVal s 0x1030 e.1 e.2) (keyOf 0x1030 e.1)
    let f := s.fpp
    { s with fpp := { f with comm := [], sessions := f.sessions.filter (fun x => !(commOf e.1 x.addr)),
                             ownerSession := match f.ownerSession with | some t => if commOf e.1 t then none else some t | none => none } }) s
def execCommSettingsApply (s : State) : Host.Outcome State Fault Refusal := act (Instr.wf .commSettingsApply) (commApplyOp s)
/-- RWP_PERSIST: the value changed first is stored, or its store has failed twice. -/
def persistOp (s : State) (ok : Bool) : State :=
  match s.fpp.dirty with
  | [] => s
  | k :: r =>
    let s := { s with fpp := { s.fpp with dirty := r } }
    if ok then { s with fpp := { s.fpp with stored := tput [] s.fpp.stored k (tget [] s.fpp.vals k) } }
    else bbL0 (fppCount s 0x10) 0x0B04 (n32 k) 0 0 0
def execRwpPersist (ok : Bool) (s : State) : Host.Outcome State Fault Refusal := act (Instr.wf (.rwpPersist ok)) (persistOp s ok)
end Sys2Proof.Machine
end

