-- ==== Sys2Proof/Machine/Boot.lean ====
section
/-! DEFINITION. Reset (R512 to R514), SELFTEST (R337, R484, R515) and signed boot (R516 to R521). -/
namespace Sys2Proof.Machine
open Sys2Proof.Config

/-! ## Reset (R512, R513) -/

def pwrRcause : Nat := pwrBase + 0x204
/-- The device as reset leaves it, with what survives: the black box, the fuses, the flash and the pins. -/
def resetFrom (s : State) (code : Nat) : State :=
  let e := State.reset
  let b := s.bb
  { e with variant := s.variant, pending := s.pending, answer := s.answer, dtime := s.dtime, serviceEn := s.serviceEn,
           bb := { Bb.reset with ring := b.ring, ringCheck := b.ringCheck, header := b.header, retained := b.retained, copies := b.copies, copyOrder := b.copyOrder, pfail := b.pfail },
           pwr := { e.pwr with sources := 2 ^ (code - 1), vageStored := s.pwr.vageStored, flash := s.pwr.flash, flashBad := s.pwr.flashBad },
           fpp := { e.fpp with stored := s.fpp.stored, epoch := s.fpp.epoch },
           mem := { e.mem with fieldFuse := s.mem.fieldFuse, pendStored := s.mem.pendStored } }
/-- Reset from a source takes effect at once, and ends a service session; in RESET a further source only holds it. -/
def resetOp (s : State) (code : Nat) : State :=
  if s.dev = 0 then { s with pwr := { s.pwr with sources := s.pwr.sources ||| 2 ^ (code - 1) } }
  else
    let t := setReg (resetFrom s code) pwrRcause (n32 (2 ^ (code - 1) * 256 + code))
    let t := if s.fpp.svcHeld then bbL0 t 0x0502 4 (n32 ((s.dtime - s.fpp.svcBegan) / 1000000)) 0 0 else t
    { bbL0 t 0x0101 (n32 s.dev) 0 1 0 with now := 0, dtime := 0 }
/-- A halt of L0 is recorded before the reset (R206). -/
def l0HaltOp (s : State) : State :=
  if s.dev = 0 then resetOp s 3
  else
    let k := co s 72
    let t := if k.run = .halted then s else bbHw s 72 0x0201 (rdCo k 0x406) (rdCo k 0x404) (n32 k.cycles) (n32 k.haltCount)
    resetOp (ringDrain 64 t) 3
/-- The watchdog has not been kicked for 100 ms; it runs from the start of BOOT (R514). -/
def wdogOp (s : State) : State := if 2 ≤ s.dev && decide (s.pwr.kicked + 100000000 ≤ s.now) then resetOp s 4 else s
/-- A junction at 112 °C (R503). -/
def tripOp (s : State) : State := let t := resetOp s 5; { t with pwr := { t.pwr with trip := true } }
/-- RESET_RELEASE: no source is left and the supplies are good (R512). -/
def releaseOp (s : State) : State :=
  if s.dev ≠ 0 then s
  else setDev { s with now := 0, dtime := 0, pwr := { s.pwr with sources := 0, trip := false, good := true } } 1 2

/-! ## SELFTEST (R515) -/

/-- A valid row entry of the fuse map that is not marked bad is applied (R333). -/
def applyFuse (s : State) (e : Nat) : State :=
  if !(bitN e 63) || bitN e 62 then s
  else
    let bk := bankKey (fld e 58 4) (fld e 51 7) (fld e 44 7)
    let n := fld e 10 10 + 1
    { s with mem := { s.mem with rowMap := tput 0 s.mem.rowMap (rowKey bk (fld e 20 24)) n, spares := tput 0 s.mem.spares bk (Nat.max n (tget 0 s.mem.spares bk)) } }
/-- Factory row entry `i` of the fuse map image. -/
def factoryRow (i : Nat) : Nat := ((upto 4).map (fun w => (factoryFuse (0x10 + 4 * i + w)).toNat * 2 ^ (16 * w))).foldl (· + ·) 0
def applyFuses (s : State) : State :=
  let s := (upto 508).foldl (fun s i => if i < (factoryFuse 1).toNat then applyFuse s (factoryRow i) else s) s
  s.mem.fieldFuse.foldl applyFuse s
/-- The PLLs lock, the crystal runs (R509, R515). -/
def lockPlls (s : State) : State :=
  (upto s.variant.clusters).foldl (fun s k => setRegB s (clPll k) 31 true) (setReg s 0x04100000 (n32 (refclkPresent.toNat * 32 + 0x1F)))
/-- A slot is not used: its domain is OFF, and so is a spare that waits. -/
def slotOff (s : State) (c : Nat) : State := setRegF (switchOff s c) (pwrDom c) 0 2 0
/-- A logical coach whose slot is bad: the cluster spare serves it, or it is LOST (R337). -/
def badLogical (s : State) (n : Nat) : State :=
  match spareOf s n with
  | some c => mapSlot s n c
  | none => bbL0 (setLogi s n { logi s n with lstate := 2, slot := 255 }) 0x0303 (n32 n) 0 0 0
/-- Units, by power domain, that the march could not repair: a slot is FENCED, a bank group OFF, a lead coach stays in
reset (R337). -/
def badUnitsOff (s : State) (bad : List Nat) : State :=
  let slots := ((upto 72).filter (slotPresent s.variant)).filter (fun c => bad.contains c)
  let s := slots.foldl (fun s c => setSlotSt (slotOff s c) c 2) s
  let s := ((upto s.variant.coaches).filter (fun n => slots.contains (9 * (n / 8) + n % 8))).foldl badLogical s
  ((upto 124).filter (fun d => decide (73 ≤ d) && (d < 76 || decide (84 ≤ d)) && domPresent s.variant d && bad.contains d)).foldl (fun s d =>
    let t := if d < 76 then s else slotOff s d
    { t with mem := { t.mem with badGroups := tput 0 t.mem.badGroups d 1 } }) s
/-- L0 holds its interrupt sources' claims from BOOT onward (R419). -/
def claimSources (s : State) : State := ((upto 1080).filter (fun n => srcOfL0 n && srcPresent s.variant n)).foldl (fun s n => setReg s (icSclaim n) 0x148) s
/-- A failing row of the march of SELFTEST is reported and repaired with a volatile spare row (R337, R331); where its bank has none
left, the bank's unit cannot be repaired. -/
def selfRow (s : State) (bad : List Nat) (f : FailRow) : State × List Nat :=
  if !(decide (f.kind < 5) && bankExists s f.kind f.inst f.bank && decide (f.row * rowWords f.kind < bankWords f.kind)) then (s, bad)
  else
    let off := bankOff f.kind f.bank (f.row * rowWords f.kind)
    let left := (nextSpare s f.kind (bankKey f.kind f.inst f.bank)).isSome
    (remapRow (errReport s 9 f.kind f.inst 105 f.op (placeAddr s f.kind f.inst off)) f.kind f.inst f.bank f.row,
     if left then bad else memDomain f.kind f.inst off :: bad)
/-- SELFTEST_COMPLETE: the march is over. -/
def selftestOp (s : State) (found : MarchFound) : State :=
  if s.dev ≠ 1 then s
  else
    let s := applyFuses (lockPlls { s with mem := { s.mem with pendFix := s.mem.pendStored } })
    let r := found.rows.foldl (fun x f => selfRow x.1 x.2 f) (s, found.units)
    let s := r.1
    let bad := r.2
    if bad.contains 72 then refusedByState s 0 0
    else
      let s := bbSelftest s
      let s := ((upto 72).filter (fun c => slotSt s c = 1)).foldl slotOff s
      let s := badUnitsOff s bad
      let s := claimSources (setDev s 2 3)
      { s with pwr := { s.pwr with kicked := s.now, images := [], booted := 0, bootFail := none } }

/-! ## The firmware package (R516 to R519) -/

/-- Word of the flash, and whether a read of some words meets a page that fails. -/
def fw (s : State) (a : Nat) : Word := tget 0xFFFF s.pwr.flash a
def fws (s : State) (a n : Nat) : List Word := (upto n).map (fun i => fw s (a + i))
def fwNum (s : State) (a n : Nat) : Nat := ((upto n).map (fun i => (fw s (a + i)).toNat * 2 ^ (16 * i))).foldl (· + ·) 0
def fwBad (s : State) (a n : Nat) : Bool := s.pwr.flashBad.any (fun e => decide (a / 256 ≤ e.1) && decide (e.1 ≤ (a + n - 1) / 256))
def fwHash (s : State) (a n : Nat) : Nat := sha256 (unpackWords (fws s a n))
/-- A hash or a key in the flash, the first byte first (R77). -/
def fwBytes (s : State) (a n : Nat) : Nat := ofBe (unpackWords (fws s a n))
/-- What is wrong with the header of the package at a flash word, by the codes of R520; 0 for nothing. -/
def headerCode (s : State) (b : Nat) : Nat :=
  let k := fwNum s (b + 5) 1
  if fwBad s b 256 then 6
  else if !(fw s b = 0x464A && fw s (b + 1) = 1) then 1
  else if !(keyUsable (k % 4)) || fwHash s (b + 0x40) 32 ≠ (keyHash (k % 4)).toNat then 2
  else if !(ecdsaOk (fwBytes s (b + 0x40) 16) (fwBytes s (b + 0x50) 16) (fwBytes s (b + 0x60) 16) (fwBytes s (b + 0x70) 16) (fwHash s b 96)) then 3
  else 0
/-- A directory entry. -/
structure PkgEntry where
  num : Nat
  kind : Nat
  lead : Nat
  off : Nat
  len : Nat
  dest : Nat
  hash : Nat
  deriving DecidableEq, Repr
def pkgEntry (s : State) (b i : Nat) : PkgEntry :=
  let a := b + 0x100 + 24 * i
  { num := fwNum s a 1, kind := fwNum s (a + 1) 1 % 256, lead := fwNum s (a + 1) 1 / 256, off := fwNum s (a + 2) 2, len := fwNum s (a + 4) 2,
    dest := fwNum s (a + 6) 2, hash := fwBytes s (a + 8) 16 }
/-- What is wrong with an image. -/
def imageCode (s : State) (b : Nat) (e : PkgEntry) : Nat :=
  let max := match e.kind with | 1 => 0x8000 | 2 => 0x20000 | 3 => 0x80000 | 4 => 32 | _ => 0
  if max < e.len || max = 0 || (e.kind = 4 && e.len ≠ 32) || decide (0x02000000 < e.off + e.len) ||
      (e.kind = 3 && (e.lead = 0 || decide (3 < e.lead) || decide (0x80000 < e.dest + e.len))) then 5
  else if fwBad s (b + e.off) e.len then 6
  else if fwHash s (b + e.off) e.len ≠ e.hash then 4
  else 0
/-- The image store lies in GSM or in the DRAM window. -/
def storeOk (s : State) (a n : Nat) : Bool :=
  let ok (x : Nat) : Bool := match memPlace s x with | some (k, _, _) => decide (4 ≤ k) | none => false
  n = 0 || (ok a && ok (a + n - 1))
def pkgEntries (s : State) (b : Nat) : List PkgEntry := (upto (fwNum s (b + 4) 1)).map (pkgEntry s b)
/-- What is wrong with a package, as image number and check; none where it loads. -/
def packageFail (s : State) (b : Nat) : Option (Nat × Nat) :=
  let n := fwNum s (b + 4) 1
  let l := pkgEntries s b
  if n = 0 || 256 < n then some (0xFFFF, 5)
  else if fwBad s (b + 0x100) (24 * n) then some (0xFFFF, 6)
  else if fwHash s (b + 0x100) (24 * n) ≠ fwBytes s (b + 0x10) 16 then some (0xFFFF, 4)
  else
    let stored := ((l.filter (fun e => e.kind = 1 || e.kind = 2)).map (fun e => e.len)).foldl (· + ·) 0
    if fwNum s (b + 0xE) 2 < stored || !(storeOk s (fwNum s (b + 0xC) 2) (fwNum s (b + 0xE) 2)) || decide (4 < (l.filter (fun e => e.kind = 4)).length) then some (0xFFFF, 5)
    else l.findSome? (fun e => match imageCode s b e with | 0 => none | c => some (e.num, c))

/-! ## Loading (R519) -/

/-- Words are stored by L0 from an address on, by lines of 8 where they are aligned. -/
def storeWords : Nat → State → Nat → List Nat → State
  | 0, s, _, _ => s
  | n + 1, s, a, l =>
    if l.isEmpty then s
    else if a % 8 = 0 && decide (8 ≤ l.length) then
      storeWords n (devAccess s 72 .store a 8 ((l.take 8).foldr (fun v r => v + 65536 * r) 0)).st (a + 8) (l.drop 8)
    else storeWords n (devAccess s 72 .store a 1 (l.headD 0)).st (a + 1) (l.drop 1)
/-- The images of coaches go to the image store in directory order, those of lead coaches to their memories. -/
def loadImages (s : State) (b store : Nat) : List PkgEntry → Nat → State
  | [], _ => s
  | e :: r, at_ =>
    let l := (fws s (b + e.off) e.len).map (fun w => w.toNat)
    if e.kind = 1 || e.kind = 2 then loadImages (storeWords (l.length + 1) s (store + at_) l) b store r (at_ + e.len)
    else if e.kind = 3 then loadImages (storeWords (l.length + 1) s (0x02800000 + e.lead * 0x80000 + e.dest) l) b store r at_
    else loadImages s b store r at_
/-- A package is loaded. -/
def loadPackage (s : State) (slot : Nat) : State :=
  let b := slot * 0x02000000
  let l := pkgEntries s b
  let s := { s with pwr := { s.pwr with imageStore := (fwNum s (b + 0xC) 2, fwNum s (b + 0xE) 2), booted := slot + 1, bootSeq := fwNum s (b + 2) 2,
                                        images := l.map (fun e => (e.num, e.kind, e.lead, fws s (b + e.off) e.len)) },
                    fpp := { s.fpp with keys := (l.filter (fun e => e.kind = 4)).map (fun e => fws s (b + e.off) 32) } }
  loadImages s b s.pwr.imageStore.1 l 0
/-- The slots in the order in which they are tried: the valid headers, the higher SEQ first, A on a tie. -/
def bootOrder (s : State) : List Nat :=
  let ok (k : Nat) : Bool := headerCode s (k * 0x02000000) = 0
  let seq (k : Nat) : Nat := fwNum s (k * 0x02000000 + 2) 2
  if ok 0 && ok 1 then (if seq 0 < seq 1 then [1, 0] else [0, 1]) else if ok 0 then [0] else if ok 1 then [1] else []
/-- The failure that R520 reports: of the package tried last, or of slot A's header where neither is valid (DEDUCED, log entry 73). -/
def bootFailure (s : State) : Nat × Nat :=
  match (bootOrder s).reverse with
  | k :: _ => (packageFail s (k * 0x02000000)).getD (0xFFFF, 1)
  | [] => (0xFFFF, headerCode s 0)

/-! ## BOOT (R520, R521) -/

/-- A stored value of entry 0x3000: the domains take their persisted states, where R506 does not refuse them. -/
def applyMap (s : State) (d : List Byte) : State :=
  (upto 148).foldl (fun s i =>
    let v := (blobWords d).getD (i / 8) 0 / 4 ^ (i % 8) % 4
    if !(domPresent s.variant i) || (domRefuse s i v).isSome then s else setDomain (setRegF s (pwrDom i) 0 2 v) i v) s
/-- A stored RWP value is applied (R447). -/
def applyStored (s : State) (e : Nat × List Byte) : State :=
  let idx := e.1 / 256
  let s := keepVal s idx (e.1 % 256) e.2
  if idx = 0x1030 then s
  else if idx = 0x3000 then applyMap s e.2
  else
    let r := writeVal s none idx (e.1 % 256) e.2
    if r.1 = 0 then r.2 else s
/-- AVS is enabled unless entry 0x3020 says otherwise, and every cluster takes the clock of its entry. -/
def applyClocks (s : State) : State :=
  let s := avsUpdate (setRegB s pwrAvs 31 (valN s 0x3020 1 1 = 1))
  (upto s.variant.clusters).foldl (fun s k => clockDone s k (valN s (0x3100 + k) 1 1500 / 25 - 16)) s
/-- V_age, the RWP values and the domains' states come back from flash. -/
def restore (s : State) : State :=
  let s := setRegF s pwrStat 16 8 s.pwr.vageStored
  applyClocks (s.fpp.stored.foldl applyStored s)
/-- L1 to L3 start where an image was loaded for them and their memory is good. -/
def startLeads (s : State) : State :=
  ([1, 2, 3].filter (fun n => s.pwr.images.any (fun e => e.2.1 = 3 && e.2.2.1 = n) && tget 0 s.mem.badGroups (72 + n) = 0)).foldl (fun s n => startCoach s (72 + n) none) s
/-- Regions that L0 sets at BOOT (R299): of the coaches, and of each Ethernet DMA in region 7. -/
def bootRegions (s : State) : State :=
  ((upto 6).filter (ethPresent s.variant)).foldl (fun s e =>
    let m := 96 + e
    let x := (coachRegion 0 m 7).toNat
    setRegF (setReg (setReg s (memRB m 7) (n32 (fld x 4 26 * 64))) (memRB m 7 + 2) (n32 (fld x 30 26 * 64))) (memRB m 7 + 4) 0 4 x) (coachRegions s 0)
def dramUnequal (s : State) : Bool := dramChans s.variant = 2 && dramCapOf s.variant 0 ≠ dramCapOf s.variant 1
/-- The write of a black-box copy to its slot of the flash succeeds: no page there fails (DEDUCED, log entry 107). The slots lie at BBC
of the package that is booted (R486, R517). -/
def copyTakes (s : State) : Bool :=
  !(fwBad s (fwNum s ((s.pwr.booted - 1) * 0x02000000 + 0xA) 2 + copySlot s * 0x20000) 0x20000)
/-- A package is in place: the device enters CONFIG. -/
def enterConfig (s : State) : State :=
  let s := restore (startLeads (bootRegions s))
  let s := setDev (bbBoot s (copyTakes s)) 3 4
  bbReadySlot { s with pwr := { s.pwr with bootMs := s.now / 1000000 } }
/-- BOOT_COMPLETE: a package is verified and loaded, or the device stays in BOOT until a reset. -/
def bootOp (s : State) : State :=
  if s.dev ≠ 2 || s.pwr.bootFail.isSome then s
  else
    let s := if dramUnequal s then bbL0 s 0x0B03 (n32 (dramCapOf s.variant 0)) (n32 (dramCapOf s.variant 1)) 0 0 else s
    match (bootOrder s).find? (fun k => (packageFail s (k * 0x02000000)).isNone) with
    | some k => enterConfig (loadPackage s k)
    | none =>
      let f := bootFailure s
      let s := setDev (bbL0 s 0x0B02 (n32 f.1) (n32 f.2) 0 0) 2 5
      { s with pwr := { s.pwr with bootFail := some f } }

/-- POWER_ON_RESET (R498). -/
def execPowerOnReset (s : State) : Host.Outcome State Fault Refusal := act (Instr.wf .powerOnReset) (resetOp s 1)
/-- RESET_N_ASSERT (R512). -/
def execResetNAssert (s : State) : Host.Outcome State Fault Refusal := act (Instr.wf .resetNAssert) (resetOp s 2)
/-- L0_HALT_RESET (R206). -/
def execL0HaltReset (s : State) : Host.Outcome State Fault Refusal := act (Instr.wf .l0HaltReset) (l0HaltOp s)
/-- WATCHDOG_EXPIRY (R514). -/
def execWatchdogExpiry (s : State) : Host.Outcome State Fault Refusal := act (Instr.wf .watchdogExpiry) (wdogOp s)
/-- THERMAL_TRIP (R503). -/
def execThermalTrip (s : State) : Host.Outcome State Fault Refusal := act (Instr.wf .thermalTrip) (tripOp s)
/-- PLL_LOCK_LOST (R509). -/
def execPllLockLost (s : State) : Host.Outcome State Fault Refusal := act (Instr.wf .pllLockLost) (resetOp s 6)
/-- RESET_RELEASE (R515). -/
def execResetRelease (s : State) : Host.Outcome State Fault Refusal := act (Instr.wf .resetRelease) (releaseOp s)
/-- SELFTEST_COMPLETE (R515). -/
def execSelftestComplete (found : MarchFound) (s : State) : Host.Outcome State Fault Refusal :=
  act (Instr.wf (.selftestComplete found)) (selftestOp s found)
/-- BOOT_COMPLETE (R521). -/
def execBootComplete (s : State) : Host.Outcome State Fault Refusal := act (Instr.wf .bootComplete) (bootOp s)
end Sys2Proof.Machine
end

