-- ==== Sys2Proof/Machine/Ketch.lean ====
section
/-! DEFINITION. Ketch mode on a lead coach: the mode switch, the fetch and the checks of one Ketch instruction, and
what each of the 36 instructions does (chapter 08). An exception of a Ketch instruction names no slot, but for a
precise arithmetic exception, a subnormal trap and an access, which take slots 2, 2 and 0 (DESIGN CHOICE, log entry 19). -/
namespace Sys2Proof.Machine

/-! ## Fields (R221) -/

def kOp (w : Nat) : Nat := fld w 26 6
def kD (w : Nat) : Nat := fld w 22 4
def kA (w : Nat) : Nat := fld w 18 4
def kB (w : Nat) : Nat := fld w 14 4
def kImm14 (w : Nat) : Int := sx 14 w
def kImm18 (w : Nat) : Int := sx 18 w
/-- The bits that an OP leaves unused; each must be 0. -/
def kUnused (op : Nat) : Nat :=
  let d := 15 * 2 ^ 22
  let a := 15 * 2 ^ 18
  let b := 15 * 2 ^ 14
  let i := 2 ^ 14 - 1
  if op = 0 || op = 0x1E || op = 0x22 || op = 0x23 then 2 ^ 26 - 1
  else if op = 1 || op = 0x12 then b + i
  else if op = 2 then a
  else if op = 3 then a + 127 * 2 ^ 11
  else if op = 7 || op = 0x13 || op = 0x15 then b
  else if op ≤ 0x0F then i
  else if op = 0x10 || op = 0x11 then b + (2 ^ 11 - 1)
  else if op = 0x14 || op = 0x16 then d
  else if op = 0x17 then d + a + b
  else if op = 0x18 || op = 0x19 then d
  else if op = 0x1A || op = 0x1C then d + a
  else if op = 0x1B || op = 0x1D then d + b + i
  else if op = 0x1F then d + 255
  else if op = 0x20 then d + a + (2 ^ 16 - 1)
  else d + a + 3 * 2 ^ 16
/-- An instruction word that names no operation: a reserved OP, a 1 in an unused field, or a value outside its range.
KCALL and KRET check their own ranges. -/
def kIllegal (w : Nat) : Bool :=
  let op := kOp w
  decide (op > 0x23) || w &&& kUnused op ≠ 0 ||
  (op = 0x10 && !(fld w 11 3 = 0 || fld w 11 3 = 1 || fld w 11 3 = 4)) ||
  (op = 0x11 && decide (fld w 11 3 > 5)) ||
  (op = 0x17 && (kImm14 w < 1 || kImm14 w > 64))

/-! ## Operand checks (R225, Table 4) -/

/-- Code 0x02 for an operand tagged 110 or 111. -/
def kUse (op opnd a b w : Nat) : Option Refused := if kTagOk w then none else some (tagCheck 2 op opnd a b w)
/-- Two operands under a table of permitted pairs, each with the tag of the result. The failing operand is a where no
pair has its tag, else b (DEDUCED, log entry 18). -/
def kPair (op : Nat) (perm : List (Nat × Nat × Nat)) (a b : Nat) : Except Refused Nat :=
  match kUse op 0 a b a with
  | some r => .error r
  | none =>
    match kUse op 1 a b b with
    | some r => .error r
    | none =>
      match perm.find? (fun e => e.1 = kTag a && e.2.1 = kTag b) with
      | some e => .ok e.2.2
      | none => .error (if perm.any (fun e => e.1 = kTag a) then tagCheck 1 op 1 a b b else tagCheck 1 op 0 a b a)
/-- One operand under a list of permitted tags. -/
def kOne (op opnd : Nat) (perm : List Nat) (a w : Nat) : Option Refused :=
  match kUse op opnd a 0 w with
  | some r => some r
  | none => if perm.contains (kTag w) then none else some (tagCheck 1 op opnd a 0 w)
def permAdd : List (Nat × Nat × Nat) := [(0, 0, 0), (1, 1, 1), (4, 4, 4), (2, 0, 2), (0, 2, 2), (3, 0, 3), (0, 3, 3)]
def permAddi : List (Nat × Nat × Nat) := [(0, 0, 0), (2, 0, 2), (3, 0, 3)]
def permSub : List (Nat × Nat × Nat) := [(0, 0, 0), (1, 1, 1), (4, 4, 4), (2, 0, 2), (3, 0, 3), (2, 2, 0)]
def permMul : List (Nat × Nat × Nat) := [(0, 0, 0), (1, 1, 1), (0, 1, 1), (1, 0, 1), (4, 4, 4)]
def permInt : List (Nat × Nat × Nat) := [(0, 0, 0)]
def permSeq : List (Nat × Nat × Nat) := (upto 6).map (fun t => (t, t, 0))
def permSlt : List (Nat × Nat × Nat) := [(0, 0, 0), (1, 1, 0), (2, 2, 0), (4, 4, 0)]

/-! ## Arithmetic (R226) -/

/-- What an instruction computes: the word, its flags, whether it met the trap condition, and its cycles. -/
structure KVal where
  word : Nat
  istat : Nat
  fpstat : Nat
  trap : Bool
  cycles : Nat
  deriving DecidableEq, Repr
def kval (word cycles : Nat) : KVal := { word := word, istat := 0, fpstat := 0, trap := false, cycles := cycles }
/-- An integer result wrapped to 29 bits, with OV. -/
def kInt (i : Int) (cycles : Nat) : KVal := { kval (kWord 0 (wrapN 29 i)) cycles with istat := if satSd 29 i then 1 else 0 }
/-- A fixed result saturated to Q1.28, with SAT. -/
def kFix (i : Int) (cycles : Nat) : KVal := { kval (kWord 1 (wrapN 29 (satS 29 i))) cycles with istat := if satSd 29 i then 4 else 0 }
/-- A short-float result of a float function on the extended operands. -/
def kSfl (k : Coach) (f a b : Nat) : KVal :=
  let r := fltLane (fltEnv k true) f 0 (kPay a * 8) (kPay b * 8) 0
  { word := kWord 4 (r.val / 8), istat := 0, fpstat := r.fl, trap := r.trap, cycles := 4 }
/-- Pointer and code-address sum of tag `t`. -/
def kPtr (op t a b : Nat) (p : Nat) (i : Int) (opnd w : Nat) : Except Refused KVal :=
  match kPtrAdd p i with
  | some q => .ok (kval (kWord t q) 1)
  | none => .error (tagCheck 3 op opnd a b w)
def kAdd (k : Coach) (a b : Nat) : Except Refused KVal := do
  let t ← kPair 4 permAdd a b
  match t with
  | 0 => .ok (kInt (sx 29 a + sx 29 b) 1)
  | 1 => .ok (kFix (sx 29 a + sx 29 b) 1)
  | 4 => .ok (kSfl k 0 a b)
  | _ => if kTag a = 0 then kPtr 4 t a b (kPay b) (sx 29 a) 1 b else kPtr 4 t a b (kPay a) (sx 29 b) 0 a
def kSub (k : Coach) (a b : Nat) : Except Refused KVal := do
  let t ← kPair 5 permSub a b
  match kTag a, t with
  | 2, 0 =>
    if decide (kPay a < 0x10000000) = decide (kPay b < 0x10000000) then .ok (kInt ((kPay a : Int) - (kPay b : Int)) 1)
    else .error (tagCheck 3 5 1 a b b)
  | _, 0 => .ok (kInt (sx 29 a - sx 29 b) 1)
  | _, 1 => .ok (kFix (sx 29 a - sx 29 b) 1)
  | _, 4 => .ok (kSfl k 1 a b)
  | _, _ => kPtr 5 t a b (kPay a) (-(sx 29 b)) 0 a
def kMul (k : Coach) (a b : Nat) : Except Refused KVal := do
  let t ← kPair 6 permMul a b
  match t with
  | 0 => .ok (kInt (sx 29 a * sx 29 b) 3)
  | 4 => .ok (kSfl k 2 a b)
  | _ => .ok (if kTag a = 1 && kTag b = 1 then kFix (sx 29 a * sx 29 b / ((2 ^ 28 : Nat) : Int)) 3 else kFix (sx 29 a * sx 29 b) 3)
def kAddi (a : Nat) (imm : Int) : Except Refused KVal := do
  let b := kWord 0 (wrapN 29 imm)
  let t ← kPair 7 permAddi a b
  match t with
  | 0 => .ok (kInt (sx 29 a + imm) 1)
  | _ => kPtr 7 t a b (kPay a) imm 0 a
/-- AND, OR, XOR, SHL, SHR, SAR. -/
def kLogic (op a b : Nat) : Except Refused KVal := do
  let _ ← kPair op permInt a b
  let x := kPay a
  let n := kPay b
  let v := match op with
    | 0x08 => x &&& n
    | 0x09 => x ||| n
    | 0x0A => x ^^^ n
    | 0x0B => if n < 29 then (x <<< n) % 2 ^ 29 else 0
    | 0x0C => if n < 29 then x >>> n else 0
    | _ => wrapN 29 (sx 29 x / ((2 ^ (Nat.min n 28) : Nat) : Int))
  .ok (kval (kWord 0 v) 1)
/-- SEQ compares payloads (DEDUCED, log entry 20 for short floats: Table 3 gives it one cycle). -/
def kSeq (a b : Nat) : Except Refused KVal := do
  let _ ← kPair 0x0E permSeq a b
  .ok (kval (b2n (kPay a = kPay b)) 1)
def kSlt (k : Coach) (a b : Nat) : Except Refused KVal := do
  let _ ← kPair 0x0F permSlt a b
  match kTag a with
  | 2 => .ok (kval (b2n (kPay a < kPay b)) 1)
  | 4 => .ok { kSfl k 0x0B a b with word := (fltLane (fltEnv k true) 0x0B 0 (kPay a * 8) (kPay b * 8) 0).val }
  | _ => .ok (kval (b2n (sx 29 a < sx 29 b)) 1)
/-- CVT to tag `t`. A short float to an integer or fixed saturates to 29 bits with IV. -/
def kCvt (k : Coach) (t a : Nat) : Except Refused KVal :=
  match kOne 0x10 0 [0, 1, 4] a a with
  | some r => .error r
  | none =>
    let env := fltEnv k true
    let sc := if t = 1 || kTag a = 1 then 28 else 0
    if kTag a = 4 && t = 4 then .ok (kval a 4)
    else if kTag a = 4 then
      let r := fltLane env 0x0E sc (kPay a * 8) 0 0
      let v := sx 32 r.val
      let o := satSd 29 v
      .ok { word := kWord t (wrapN 29 (satS 29 v)), istat := 0, fpstat := if o then 1 else r.fl, trap := r.trap, cycles := 4 }
    else if t = 4 then
      let r := fltLane env 0x0F sc (wrapN 32 (sx 29 a)) 0 0
      .ok { word := kWord 4 (r.val / 8), istat := 0, fpstat := r.fl, trap := r.trap, cycles := 4 }
    else .ok (kval (kWord t (kPay a)) 1)
/-- MKTAG: the types 010, 011 and 101 need supervisor level. -/
def kMktag (k : Coach) (t a : Nat) : Except Refused KVal :=
  match kOne 0x11 0 [0] a a with
  | some r => .error r
  | none => if (t = 2 || t = 3 || t = 5) && !isSup k then .error (tagCheck 5 0x11 0 a 0 a) else .ok (kval (kWord t (kPay a)) 1)
def kMove (a : Nat) : Except Refused KVal :=
  match kUse 1 0 a 0 a with
  | some r => .error r
  | none => .ok (kval a 1)
def kLdhi (d imm : Nat) : Except Refused KVal :=
  match kOne 3 0 [0] d d with
  | some r => .error r
  | none => .ok (kval (kWord 0 (kPay d % 2 ^ 18 + imm % 2 ^ 11 * 2 ^ 18)) 1)

/-! ## One instruction (R221, R222, R224) -/

/-- An instruction completes at the address `next` after `n` cycles, `st` stall cycles among them apart. -/
def kDone (s : State) (c : Nat) (k : Coach) (next : W32) (n st : Nat) : State :=
  setCo s c { passTime k n st with pc := next, lastPc := k.pc, seq := k.seq + 1, bound := .drain, decoded := none }
def kNext (k : Coach) : W32 := k.pc + 2
/-- The computed word is on its way to register `d`. -/
def kWrite (s : State) (c : Nat) (k : Coach) (d : Nat) (v : KVal) : State :=
  let r := if v.trap then { res v.cycles 2 .g d 0 0 with trap := 1 }
           else { resG v.cycles 2 d (n32 v.word) with istat := v.istat, fpstat := v.fpstat, exc := intExc k v.istat ||| fltExc k v.fpstat }
  let p := { r with due := k.cyc + v.cycles, seq := k.seq, apc := k.pc, prec := true }
  kDone s c { k with pend := k.pend ++ [p] } (kNext k) v.cycles 0
def kCompute (s : State) (c : Nat) (k : Coach) (d : Nat) (r : Except Refused KVal) : State :=
  match r with
  | .error e => setCo s c (refuseAt k e)
  | .ok v => kWrite s c k d v
/-- The address of LD, ST, LDRAW and STRAW (R228). LDRAW and STRAW check their pointer under Table 4 alone. -/
def kAddress (op a b : Nat) (imm : Int) : Except Refused Nat :=
  let raw := op = 0x15 || op = 0x16
  if !raw && !kTagOk a then .error (tagCheck 2 op 0 a b a)
  else if kTag a ≠ 2 then .error (tagCheck 1 op 0 a b a)
  else match kPtrAdd (kPay a) imm with
    | some p => .ok (kAddr p)
    | none => .error (tagCheck 3 op 0 a b a)
/-- The coach waits for an access of a Ketch instruction of `n` cycles without stalls; its effect comes with the answer. -/
def kSend (s : State) (c : Nat) (k : Coach) (a : Access) (n : Nat) : State :=
  let cs := (coStores s c k [a]).map (fun e => { e with due := k.cyc + 1 })
  let aft : After :=
    { pc := kNext k, co := k.co, cyc := k.cyc, bubbles := n - 1, pend := [], coPend := cs, fb := k.fb, divFree := k.divFree, long := none,
      counters := k.counters, rsTop := k.rsTop, wrong := none, bound := .drain, exc := none, keepRs := true, gate := none }
  setCo s c { k with access := [a], after := some aft }
/-- The access is checked, and served now or sent to its target. -/
def kAccess (s : State) (c : Nat) (k : Coach) (a : Access) (n : Nat) : State :=
  match checkAccs s c k [a] with
  | some r => setCo s c (refuseAt k r)
  | none =>
    let s := kSend s c k a n
    if servedNow s c a then finishBundle (serveNow s c a) c 0 else sendAccess s c a
/-- The access of LD and LDRAW, and of ST and STRAW, at an address. -/
def kLoadAcc (k : Coach) (d x : Nat) : Access := { ld := 0, kind := .load, addr := x, n := 2, data := 0, dst := d, sx := false, due := k.cyc + 4, resp := none, refused := 0 }
def kStoreAcc (k : Coach) (b x : Nat) : Access := { ld := 0, kind := .store, addr := x, n := 2, data := b, dst := 0, sx := false, due := k.cyc + 4, resp := none, refused := 0 }
def kLoad (s : State) (c : Nat) (k : Coach) (op d a : Nat) (imm : Int) : State :=
  match kAddress op a 0 imm with
  | .error r => setCo s c (refuseAt k r)
  | .ok x => kAccess s c k (kLoadAcc k d x) 4
def kStore (s : State) (c : Nat) (k : Coach) (op a b : Nat) (imm : Int) : State :=
  match kAddress op a b imm with
  | .error r => setCo s c (refuseAt k r)
  | .ok x =>
    if op = 0x14 && !kTagOk b then setCo s c (refuseAt k (tagCheck 2 op 2 a b b))
    else kAccess s c k (kStoreAcc k b x) 1
/-- The fault of the first word of a frame of `n` Ketch words at payload `q` that may not be stored. -/
def kFrameBad (s : State) (c q n : Nat) : Option Refused :=
  (upto n).foldl (fun (r : Option Refused) i => match r with
    | some x => some x
    | none => (match accFault s c .store (kAddr (q + i)) 2 true with | some f => some (refuse1 f.1 f.2 1 (kAddr (q + i))) | none => none)) none
/-- The words of a frame take the uninitialised word, the lowest first, until one ends in bus error. -/
def kFrameStore (s : State) (c q n : Nat) : State × Option Refused :=
  (upto n).foldl (fun (t : State × Option Refused) i =>
    if t.2.isSome then t else
    let o := coachNow t.1 c .store (kAddr (q + i)) 2 kUninit
    (o.st, if o.code ≠ 0 then some (refuse1 8 o.code 1 (kAddr (q + i))) else none)) (s, none)
/-- FRAME: K15 moves down `n` Ketch words, and each of them takes the uninitialised word, the lowest first. -/
def kFrame (s : State) (c : Nat) (k : Coach) (n : Nat) : State :=
  let w := gN k 15
  match kOne 0x17 2 [2] w w with
  | some r => setCo s c (refuseAt k r)
  | none =>
    match kPtrAdd (kPay w) (-(n : Int)) with
    | none => setCo s c (refuseAt k (tagCheck 3 0x17 2 w 0 w))
    | some q =>
      match kFrameBad s c q n with
      | some r => setCo s c (refuseAt k r)
      | none =>
        let st := (upto n).foldl (fun m i => m + (farStall s c (kAddr (q + i))).getD 0) 0
        let r := kFrameStore s c q n
        match r.2 with
        | some x => setCo r.1 c (refuseAt k x)
        | none => kDone r.1 c (setG (lostBetween s r.1 c k) 15 (kWord 2 q)) (kNext k) (1 + n) st
/-- A branch by a signed count of instructions. -/
def kBranch (s : State) (c : Nat) (k : Coach) (taken : Bool) (imm : Int) : State :=
  if taken then kDone s c k (w32 (k.pc.toNat + 2 * imm)) 4 0 else kDone s c k (kNext k) 1 0
/-- BZ and BNZ. -/
def kCond (s : State) (c : Nat) (k : Coach) (op a : Nat) (imm : Int) : State :=
  match kOne op 0 [0] a a with
  | some r => setCo s c (refuseAt k r)
  | none => kBranch s c k (if op = 0x18 then decide (kPay a = 0) else decide (kPay a ≠ 0)) imm
def kJump (s : State) (c : Nat) (k : Coach) (a : Nat) : State :=
  match kOne 0x1B 0 [3] a a with
  | some r => setCo s c (refuseAt k r)
  | none => kDone s c k (n32 (kAddr (kPay a))) 4 0
/-- CALL and CALLR once the target is known (R223): the return address must be a code address (DEDUCED, log entry 18 from R220). -/
def kCallTo (s : State) (c : Nat) (k : Coach) (op : Nat) (target : W32) : State :=
  match kPayOf (kNext k).toNat with
  | none => setCo s c (refuseAt k (tagCheck 3 op 3 0 0 (kNext k).toNat))
  | some p =>
    if !ssPushOk k then setCo s c (refuseAt k (refuse1 3 1 0 0))
    else
      let q := ssPush s c k (kNext k)
      kDone q.1 c (setG (lostBetween s q.1 c q.2) 14 (kWord 3 p)) target 4 0
def kCallR (s : State) (c : Nat) (k : Coach) (a : Nat) : State :=
  match kOne 0x1D 0 [3] a a with
  | some r => setCo s c (refuseAt k r)
  | none => kCallTo s c k 0x1D (n32 (kAddr (kPay a)))
def kRet (s : State) (c : Nat) (k : Coach) : State :=
  let w := gN k 14
  match kOne 0x1E 0 [3] w w with
  | some r => setCo s c (refuseAt k r)
  | none =>
    let t := n32 (kAddr (kPay w))
    match ssPopCheck s c k t with
    | some r => setCo s c (refuseAt k { r with slots := 0 })
    | none => kDone s c (ssPop k) t 4 0
/-- A gate action of a Ketch instruction (R231, R234, R237). -/
def kGate (s : State) (c : Nat) (k : Coach) (o : GateOut) (n : Nat) : State :=
  match o.bad with
  | some r => setCo (if r.entry = 8 then o.st else s) c (refuseAt k r)
  | none => setCo o.st c { passTime o.k n o.stall with pc := o.next, lastPc := k.pc, seq := k.seq + 1, bound := .drain }
/-- KERET: as ERET (R199, R217). -/
def kEret (s : State) (c : Nat) (k : Coach) : State :=
  if !isSup k then setCo s c (refuseAt k (refuse1 6 1 0 0))
  else
    let s := setCo s c k
    let r := eretRead s c
    match r.2.1 with
    | some f => setCo r.1 c (refuseAt (co r.1 c) (refuse1 f.1 f.2.1 0 f.2.2))
    | none => setCo r.1 c (eretRegs (passTime { co r.1 c with lastPc := k.pc, seq := k.seq + 1 } 8 (eretStall s c)) r.2.2)

/-- What the instruction word `w` does at an issuing coach. -/
def kRun (s : State) (c : Nat) (k : Coach) (w : Nat) : State :=
  let a := gN k (kA w)
  let b := gN k (kB w)
  let d := kD w
  match kOp w with
  | 0x00 => kDone s c k (kNext k) 1 0
  | 0x01 => kCompute s c k d (kMove a)
  | 0x02 => kWrite s c k d (kval (kWord 0 (wrapN 29 (kImm18 w))) 1)
  | 0x03 => kCompute s c k d (kLdhi (gN k d) (w % 2 ^ 18))
  | 0x04 => kCompute s c k d (kAdd k a b)
  | 0x05 => kCompute s c k d (kSub k a b)
  | 0x06 => kCompute s c k d (kMul k a b)
  | 0x07 => kCompute s c k d (kAddi a (kImm14 w))
  | 0x0E => kCompute s c k d (kSeq a b)
  | 0x0F => kCompute s c k d (kSlt k a b)
  | 0x10 => kCompute s c k d (kCvt k (fld w 11 3) a)
  | 0x11 => kCompute s c k d (kMktag k (fld w 11 3) a)
  | 0x12 => kWrite s c k d (kval (kTag a) 1)
  | 0x13 => kLoad s c k 0x13 d a (kImm14 w)
  | 0x14 => kStore s c k 0x14 a b (kImm14 w)
  | 0x15 => kLoad s c k 0x15 d a (kImm14 w)
  | 0x16 => kStore s c k 0x16 a b (kImm14 w)
  | 0x17 => kFrame s c k (kImm14 w).toNat
  | 0x18 => kCond s c k 0x18 a (kImm18 w)
  | 0x19 => kCond s c k 0x19 a (kImm18 w)
  | 0x1A => kBranch s c k true (kImm18 w)
  | 0x1B => kJump s c k a
  | 0x1C => kCallTo s c k 0x1C (w32 (k.pc.toNat + 2 * kImm18 w))
  | 0x1D => kCallR s c k a
  | 0x1E => kRet s c k
  | 0x1F => kGate s c k (gateKcall s c k k.pc.toNat (kA w) (fld w 14 4) (fld w 11 3) (fld w 8 3)) 8
  | 0x20 => kGate s c k (gateKret s c k (fld w 16 2)) 9
  | 0x21 => (let t := kDone s c k (kNext k) 1 0
             setCo t c (raiseExc (co t c) { excReq 17 0 (kNext k) k.pc with scnum := w % 2 ^ 16 }))
  | 0x22 => setCo s c (refuseAt k (refuse1 16 1 0 0))
  | 0x23 => kEret s c k
  | _ => kCompute s c k d (kLogic (kOp w) a b)
/-- The instruction word at the coach's pc, or why it cannot be fetched; its two words lie in one cache line. -/
def kFetch (s : State) (c pc : Nat) : Except Refused Nat :=
  if pc % 2 = 1 then .error (refuse1 18 0 0 pc)
  else if fetchPlace s c pc ≠ 0 then .error (refuse1 8 (fetchPlace s c pc) 0 pc)
  else if !fetchRegionOk s c pc then .error (refuse1 7 4 0 pc)
  else match fetchWord s c pc, fetchWord s c (pc + 1) with
    | some lo, some hi => .ok (lo.toNat + 65536 * hi.toNat)
    | none, _ => .error (refuse1 8 (fetchCode s c pc) 0 pc)
    | _, none => .error (refuse1 8 (fetchCode s c (pc + 1)) 0 (pc + 1))
/-- The coach as a Ketch instruction finds it: the results of the instruction before have landed, and no hold runs. -/
def ketchK (s : State) (c : Nat) : Coach := holdRun (drain s c (co s c)) false
/-- A command for the Ketch operation `op`: after the results of the instruction before have landed, an exception or
event that is due comes first; a word that cannot be fetched or names no operation is refused; a word of another
operation is left to that operation's command. -/
def ketchOp (op : Nat) (s : State) (c : Nat) : State :=
  let k0 := co s c
  if !(isRunning k0 && isLead c && k0.ketch) then s
  else
    let k := drain s c k0
    match preciseReq k with
    | some (k3, r) => setCo s c (raiseExc k3 { r with pc := k.pc })
    | none =>
      if trapDue k || !coB k 0x000 15 || (eventDue s c k).isSome then setCo s c k
      else
        let k := holdRun k false
        let t := fetchFill s c k.pc.toNat
        match kFetch t c k.pc.toNat with
        | .error r => setCo t c (refuseAt k r)
        | .ok w =>
          if kIllegal w then setCo t c (refuseAt k (refuse1 4 1 0 0))
          else if kOp w = op then kRun (setCo t c k) c k w else s

/-- KETCH_MODE_SWITCH (R216): CO_MODE.KETCH differs from the mode the coach runs in at a boundary. -/
def modeSwitchOp (s : State) (c : Nat) : State :=
  let k0 := co s c
  if !(isRunning k0 && isLead c) then s
  else
    let k := if k0.ketch then drain s c k0 else landNow s c k0
    let m := coB k 0x000 15
    if m = k.ketch || (m && decide (k.seq < k.ketchAt)) then s
    else
      let k := drain s c k
      if trapDue k || k.precise.isSome then setCo s c k
      else
        let k := if m then (upto 15).foldl (fun k i => setG k i kUninit) k else k
        setCo s c { holdRun k false with ketch := m, bound := .drain, decoded := none }

end Sys2Proof.Machine
end

