-- ==== Sys2Proof/Machine/KetchCmd.lean ====
section
/-! DEFINITION. KETCH_MODE_SWITCH and the 36 Ketch instructions as commands (chapter 08). -/
namespace Sys2Proof.Machine

/-- KETCH_MODE_SWITCH (R216). -/
def execKetchModeSwitch (c : Nat) (s : State) : Host.Outcome State Fault Refusal := act (Instr.wf (.ketchModeSwitch c)) (modeSwitchOp s c)
/-- OP 0x00 of Table 2 (R221). -/
def execKetchNop (c : Nat) (s : State) : Host.Outcome State Fault Refusal := act (Instr.wf (.ketchNop c)) (ketchOp 0x00 s c)
/-- OP 0x01 of Table 2 (R221). -/
def execMove (c : Nat) (s : State) : Host.Outcome State Fault Refusal := act (Instr.wf (.move c)) (ketchOp 0x01 s c)
/-- OP 0x02 of Table 2 (R221). -/
def execLdi (c : Nat) (s : State) : Host.Outcome State Fault Refusal := act (Instr.wf (.ldi c)) (ketchOp 0x02 s c)
/-- OP 0x03 of Table 2 (R221). -/
def execLdhi (c : Nat) (s : State) : Host.Outcome State Fault Refusal := act (Instr.wf (.ldhi c)) (ketchOp 0x03 s c)
/-- OP 0x04 of Table 2 (R221). -/
def execKetchAdd (c : Nat) (s : State) : Host.Outcome State Fault Refusal := act (Instr.wf (.ketchAdd c)) (ketchOp 0x04 s c)
/-- OP 0x05 of Table 2 (R221). -/
def execKetchSub (c : Nat) (s : State) : Host.Outcome State Fault Refusal := act (Instr.wf (.ketchSub c)) (ketchOp 0x05 s c)
/-- OP 0x06 of Table 2 (R221). -/
def execKetchMul (c : Nat) (s : State) : Host.Outcome State Fault Refusal := act (Instr.wf (.ketchMul c)) (ketchOp 0x06 s c)
/-- OP 0x07 of Table 2 (R221). -/
def execKetchAddi (c : Nat) (s : State) : Host.Outcome State Fault Refusal := act (Instr.wf (.ketchAddi c)) (ketchOp 0x07 s c)
/-- OP 0x08 of Table 2 (R221). -/
def execKetchAnd (c : Nat) (s : State) : Host.Outcome State Fault Refusal := act (Instr.wf (.ketchAnd c)) (ketchOp 0x08 s c)
/-- OP 0x09 of Table 2 (R221). -/
def execKetchOr (c : Nat) (s : State) : Host.Outcome State Fault Refusal := act (Instr.wf (.ketchOr c)) (ketchOp 0x09 s c)
/-- OP 0x0A of Table 2 (R221). -/
def execKetchXor (c : Nat) (s : State) : Host.Outcome State Fault Refusal := act (Instr.wf (.ketchXor c)) (ketchOp 0x0A s c)
/-- OP 0x0B of Table 2 (R221). -/
def execKetchShl (c : Nat) (s : State) : Host.Outcome State Fault Refusal := act (Instr.wf (.ketchShl c)) (ketchOp 0x0B s c)
/-- OP 0x0C of Table 2 (R221). -/
def execKetchShr (c : Nat) (s : State) : Host.Outcome State Fault Refusal := act (Instr.wf (.ketchShr c)) (ketchOp 0x0C s c)
/-- OP 0x0D of Table 2 (R221). -/
def execKetchSar (c : Nat) (s : State) : Host.Outcome State Fault Refusal := act (Instr.wf (.ketchSar c)) (ketchOp 0x0D s c)
/-- OP 0x0E of Table 2 (R221). -/
def execKetchSeq (c : Nat) (s : State) : Host.Outcome State Fault Refusal := act (Instr.wf (.ketchSeq c)) (ketchOp 0x0E s c)
/-- OP 0x0F of Table 2 (R221). -/
def execKetchSlt (c : Nat) (s : State) : Host.Outcome State Fault Refusal := act (Instr.wf (.ketchSlt c)) (ketchOp 0x0F s c)
/-- OP 0x10 of Table 2 (R221). -/
def execCvt (c : Nat) (s : State) : Host.Outcome State Fault Refusal := act (Instr.wf (.cvt c)) (ketchOp 0x10 s c)
/-- OP 0x11 of Table 2 (R221). -/
def execMktag (c : Nat) (s : State) : Host.Outcome State Fault Refusal := act (Instr.wf (.mktag c)) (ketchOp 0x11 s c)
/-- OP 0x12 of Table 2 (R221). -/
def execTagof (c : Nat) (s : State) : Host.Outcome State Fault Refusal := act (Instr.wf (.tagof c)) (ketchOp 0x12 s c)
/-- OP 0x13 of Table 2 (R221). -/
def execLd (c : Nat) (s : State) : Host.Outcome State Fault Refusal := act (Instr.wf (.ld c)) (ketchOp 0x13 s c)
/-- OP 0x14 of Table 2 (R221). -/
def execSt (c : Nat) (s : State) : Host.Outcome State Fault Refusal := act (Instr.wf (.st c)) (ketchOp 0x14 s c)
/-- OP 0x15 of Table 2 (R221). -/
def execLdraw (c : Nat) (s : State) : Host.Outcome State Fault Refusal := act (Instr.wf (.ldraw c)) (ketchOp 0x15 s c)
/-- OP 0x16 of Table 2 (R221). -/
def execStraw (c : Nat) (s : State) : Host.Outcome State Fault Refusal := act (Instr.wf (.straw c)) (ketchOp 0x16 s c)
/-- OP 0x17 of Table 2 (R221). -/
def execFrame (c : Nat) (s : State) : Host.Outcome State Fault Refusal := act (Instr.wf (.frame c)) (ketchOp 0x17 s c)
/-- OP 0x18 of Table 2 (R221). -/
def execKetchBz (c : Nat) (s : State) : Host.Outcome State Fault Refusal := act (Instr.wf (.ketchBz c)) (ketchOp 0x18 s c)
/-- OP 0x19 of Table 2 (R221). -/
def execKetchBnz (c : Nat) (s : State) : Host.Outcome State Fault Refusal := act (Instr.wf (.ketchBnz c)) (ketchOp 0x19 s c)
/-- OP 0x1A of Table 2 (R221). -/
def execKetchB (c : Nat) (s : State) : Host.Outcome State Fault Refusal := act (Instr.wf (.ketchB c)) (ketchOp 0x1A s c)
/-- OP 0x1B of Table 2 (R221). -/
def execJmp (c : Nat) (s : State) : Host.Outcome State Fault Refusal := act (Instr.wf (.jmp c)) (ketchOp 0x1B s c)
/-- OP 0x1C of Table 2 (R221). -/
def execKetchCall (c : Nat) (s : State) : Host.Outcome State Fault Refusal := act (Instr.wf (.ketchCall c)) (ketchOp 0x1C s c)
/-- OP 0x1D of Table 2 (R221). -/
def execKetchCallr (c : Nat) (s : State) : Host.Outcome State Fault Refusal := act (Instr.wf (.ketchCallr c)) (ketchOp 0x1D s c)
/-- OP 0x1E of Table 2 (R221). -/
def execKetchRet (c : Nat) (s : State) : Host.Outcome State Fault Refusal := act (Instr.wf (.ketchRet c)) (ketchOp 0x1E s c)
/-- OP 0x1F of Table 2 (R221). -/
def execKcall (c : Nat) (s : State) : Host.Outcome State Fault Refusal := act (Instr.wf (.kcall c)) (ketchOp 0x1F s c)
/-- OP 0x20 of Table 2 (R221). -/
def execKret (c : Nat) (s : State) : Host.Outcome State Fault Refusal := act (Instr.wf (.kret c)) (ketchOp 0x20 s c)
/-- OP 0x21 of Table 2 (R221). -/
def execKsys (c : Nat) (s : State) : Host.Outcome State Fault Refusal := act (Instr.wf (.ksys c)) (ketchOp 0x21 s c)
/-- OP 0x22 of Table 2 (R221). -/
def execKbrk (c : Nat) (s : State) : Host.Outcome State Fault Refusal := act (Instr.wf (.kbrk c)) (ketchOp 0x22 s c)
/-- OP 0x23 of Table 2 (R221). -/
def execKeret (c : Nat) (s : State) : Host.Outcome State Fault Refusal := act (Instr.wf (.keret c)) (ketchOp 0x23 s c)

end Sys2Proof.Machine
end

