-- ==== Sys2Proof/Machine/Dispatch.lean ====
section
/-! DEFINITION. What each command does: one arm per constructor. -/
namespace Sys2Proof.Machine

def exec (i : Instr) (s : State) : Host.Outcome State Fault Refusal :=
  match i with
  | .bundleIssue c => Sys2Proof.Machine.execBundleIssue c s
  | .fetchDecode c => Sys2Proof.Machine.execFetchDecode c s
  | .resultLands c => Sys2Proof.Machine.execResultLands c s
  | .accessAccepted c extra => Sys2Proof.Machine.execAccessAccepted c extra s
  | .blkElement c => Sys2Proof.Machine.execBlkElement c s
  | .vfirbGroup c => Sys2Proof.Machine.execVfirbGroup c s
  | .ketchModeSwitch c => Sys2Proof.Machine.execKetchModeSwitch c s
  | .ketchNop c => Sys2Proof.Machine.execKetchNop c s
  | .move c => Sys2Proof.Machine.execMove c s
  | .ldi c => Sys2Proof.Machine.execLdi c s
  | .ldhi c => Sys2Proof.Machine.execLdhi c s
  | .ketchAdd c => Sys2Proof.Machine.execKetchAdd c s
  | .ketchSub c => Sys2Proof.Machine.execKetchSub c s
  | .ketchMul c => Sys2Proof.Machine.execKetchMul c s
  | .ketchAddi c => Sys2Proof.Machine.execKetchAddi c s
  | .ketchAnd c => Sys2Proof.Machine.execKetchAnd c s
  | .ketchOr c => Sys2Proof.Machine.execKetchOr c s
  | .ketchXor c => Sys2Proof.Machine.execKetchXor c s
  | .ketchShl c => Sys2Proof.Machine.execKetchShl c s
  | .ketchShr c => Sys2Proof.Machine.execKetchShr c s
  | .ketchSar c => Sys2Proof.Machine.execKetchSar c s
  | .ketchSeq c => Sys2Proof.Machine.execKetchSeq c s
  | .ketchSlt c => Sys2Proof.Machine.execKetchSlt c s
  | .cvt c => Sys2Proof.Machine.execCvt c s
  | .mktag c => Sys2Proof.Machine.execMktag c s
  | .tagof c => Sys2Proof.Machine.execTagof c s
  | .ld c => Sys2Proof.Machine.execLd c s
  | .st c => Sys2Proof.Machine.execSt c s
  | .ldraw c => Sys2Proof.Machine.execLdraw c s
  | .straw c => Sys2Proof.Machine.execStraw c s
  | .frame c => Sys2Proof.Machine.execFrame c s
  | .ketchBz c => Sys2Proof.Machine.execKetchBz c s
  | .ketchBnz c => Sys2Proof.Machine.execKetchBnz c s
  | .ketchB c => Sys2Proof.Machine.execKetchB c s
  | .jmp c => Sys2Proof.Machine.execJmp c s
  | .ketchCall c => Sys2Proof.Machine.execKetchCall c s
  | .ketchCallr c => Sys2Proof.Machine.execKetchCallr c s
  | .ketchRet c => Sys2Proof.Machine.execKetchRet c s
  | .kcall c => Sys2Proof.Machine.execKcall c s
  | .kret c => Sys2Proof.Machine.execKret c s
  | .ksys c => Sys2Proof.Machine.execKsys c s
  | .kbrk c => Sys2Proof.Machine.execKbrk c s
  | .keret c => Sys2Proof.Machine.execKeret c s
  | .eventTaken c => Sys2Proof.Machine.execEventTaken c s
  | .holdOverrun c => Sys2Proof.Machine.execHoldOverrun c s
  | .subnormalTrap c => Sys2Proof.Machine.execSubnormalTrap c s
  | .exceptionEntry c => Sys2Proof.Machine.execExceptionEntry c s
  | .coachStart c => Sys2Proof.Machine.execCoachStart c s
  | .holdMaxRead c => Sys2Proof.Machine.execHoldMaxRead c s
  | .handoverWait c => Sys2Proof.Machine.execHandoverWait c s
  | .waitHeartbeat c => Sys2Proof.Machine.execWaitHeartbeat c s
  | .jobEnd c => Sys2Proof.Machine.execJobEnd c s
  | .jobStart c => Sys2Proof.Machine.execJobStart c s
  | .heartbeatStore c => Sys2Proof.Machine.execHeartbeatStore c s
  | .timeRelease cart => Sys2Proof.Machine.execTimeRelease cart s
  | .heldRelease cart => Sys2Proof.Machine.execHeldRelease cart s
  | .graphRelease cart => Sys2Proof.Machine.execGraphRelease cart s
  | .jobWithdrawn cart => Sys2Proof.Machine.execJobWithdrawn cart s
  | .budgetOverrun c => Sys2Proof.Machine.execBudgetOverrun c s
  | .graceExpired c => Sys2Proof.Machine.execGraceExpired c s
  | .hitchSearch n => Sys2Proof.Machine.execHitchSearch n s
  | .crossClusterSearch n => Sys2Proof.Machine.execCrossClusterSearch n s
  | .heartbeatSample => Sys2Proof.Machine.execHeartbeatSample s
  | .failover n offReported spareOk outageUs => Sys2Proof.Machine.execFailover n offReported spareOk outageUs s
  | .recommission pass => Sys2Proof.Machine.execRecommission pass s
  | .admitTable => Sys2Proof.Machine.execAdmit s
  | .admitRunEntry => Sys2Proof.Machine.execAdmitRunEntry s
  | .withdraw => Sys2Proof.Machine.execWithdraw s
  | .sourceEvent n signal => Sys2Proof.Machine.execSourceEvent n signal s
  | .gatherTimeout n => Sys2Proof.Machine.execGatherTimeout n s
  | .icSwset m v => Sys2Proof.Machine.execIcSwset m v s
  | .icComp m v => Sys2Proof.Machine.execIcComp m v s
  | .sourceDisable m n v => Sys2Proof.Machine.execSourceDisable m n v s
  | .claimUnit m addr => Sys2Proof.Machine.execClaimUnit m addr s
  | .releaseClaim m addr => Sys2Proof.Machine.execReleaseClaim m addr s
  | .counterTick k => Sys2Proof.Machine.execCounterTick k s
  | .counterWrap k => Sys2Proof.Machine.execCounterWrap k s
  | .matchEvent k => Sys2Proof.Machine.execMatchEvent k s
  | .freezeStop m => Sys2Proof.Machine.execFreezeStop m s
  | .freezeStart m => Sys2Proof.Machine.execFreezeStart m s
  | .tmCntStore m k v => Sys2Proof.Machine.execTmCntStore m k v s
  | .tmCntLoad m k => Sys2Proof.Machine.execTmCntLoad m k s
  | .tmCmpStore m k v => Sys2Proof.Machine.execTmCmpStore m k v s
  | .menEnable m k => Sys2Proof.Machine.execMenEnable m k s
  | .bankArbitration p => Sys2Proof.Machine.execBankArbitration p s
  | .writeOut p => Sys2Proof.Machine.execWriteOut p s
  | .correctionWriteBack kind inst bank => Sys2Proof.Machine.execCorrectionWriteBack kind inst bank s
  | .pageReconstruction kind inst bank => Sys2Proof.Machine.execPageReconstruction kind inst bank s
  | .remap kind inst line => Sys2Proof.Machine.execRemap kind inst line s
  | .scrubPageStart kind inst => Sys2Proof.Machine.execScrubPageStart kind inst s
  | .scrubRead kind inst => Sys2Proof.Machine.execScrubRead kind inst s
  | .marchStart => Sys2Proof.Machine.execMarchStart s
  | .marchRow failOp => Sys2Proof.Machine.execMarchRow failOp s
  | .marchComplete failing => Sys2Proof.Machine.execMarchComplete failing s
  | .fuseProgram => Sys2Proof.Machine.execFuseProgram s
  | .fuseEntryDone readbackOk => Sys2Proof.Machine.execFuseEntryDone readbackOk s
  | .vppRemoved => Sys2Proof.Machine.execVppRemoved s
  | .injectionArm m v => Sys2Proof.Machine.execInjectionArm m v s
  | .logWrite => Sys2Proof.Machine.execLogWrite s
  | .tailStore m v => Sys2Proof.Machine.execTailStore m v s
  | .loadPortWrite m v => Sys2Proof.Machine.execLoadPortWrite m v s
  | .loadPortRead m v => Sys2Proof.Machine.execLoadPortRead m v s
  | .loadPortDone => Sys2Proof.Machine.execLoadPortDone s
  | .regionWrite m sup addr v => Sys2Proof.Machine.execRegionWrite m sup addr v s
  | .dramPark => Sys2Proof.Machine.execDramPark s
  | .parkComplete => Sys2Proof.Machine.execParkComplete s
  | .dramUnpark => Sys2Proof.Machine.execDramUnpark s
  | .sampleEdge k => Sys2Proof.Machine.execSampleEdge k s
  | .mediaClockEnable m k v => Sys2Proof.Machine.execMediaClockEnable m k v s
  | .mediaClockDisable m k v => Sys2Proof.Machine.execMediaClockDisable m k v s
  | .referenceLost k => Sys2Proof.Machine.execReferenceLost k s
  | .referenceReturn k => Sys2Proof.Machine.execReferenceReturn k s
  | .lockAchieved k => Sys2Proof.Machine.execLockAchieved k s
  | .countLatchRead m addr => Sys2Proof.Machine.execCountLatchRead m addr s
  | .frameSync p far count => Sys2Proof.Machine.execFrameSync p far count s
  | .frameCaptured p samples => Sys2Proof.Machine.execFrameCaptured p samples s
  | .noclk p => Sys2Proof.Machine.execNoclk p s
  | .bclkReturn p => Sys2Proof.Machine.execBclkReturn p s
  | .portEnable m p v => Sys2Proof.Machine.execPortEnable m p v s
  | .portDisable m p v => Sys2Proof.Machine.execPortDisable m p v s
  | .formatStore m p v => Sys2Proof.Machine.execFormatStore m p v s
  | .pdmControlStore m k v => Sys2Proof.Machine.execPdmControlStore m k v s
  | .wagonEnable m n w v => Sys2Proof.Machine.execWagonEnable m n w v s
  | .wagonDisable m n w v => Sys2Proof.Machine.execWagonDisable m n w v s
  | .blockReady n w => Sys2Proof.Machine.execBlockReady n w s
  | .lineMove n => Sys2Proof.Machine.execLineMove n s
  | .concealment n w => Sys2Proof.Machine.execConcealment n w s
  | .asrcStreamEnable m n t v => Sys2Proof.Machine.execAsrcStreamEnable m n t v s
  | .asrcStreamDisable m n t v => Sys2Proof.Machine.execAsrcStreamDisable m n t v s
  | .asrcDelayStore m n t v => Sys2Proof.Machine.execAsrcDelayStore m n t v s
  | .asrcOutputBlock n t => Sys2Proof.Machine.execAsrcOutputBlock n t s
  | .asrcLock n t ratio => Sys2Proof.Machine.execAsrcLock n t ratio s
  | .asrcUnlock n t => Sys2Proof.Machine.execAsrcUnlock n t s
  | .expressInputPair => Sys2Proof.Machine.execExpressInputPair s
  | .expressOutput => Sys2Proof.Machine.execExpressOutput s
  | .frameReceive e f => Sys2Proof.Machine.execFrameReceive e f s
  | .syncReceiptTimeout d => Sys2Proof.Machine.execSyncReceiptTimeout d s
  | .syncTransmit d => Sys2Proof.Machine.execSyncTransmit d s
  | .pdelayRequest d => Sys2Proof.Machine.execPdelayRequest d s
  | .listenerLost x => Sys2Proof.Machine.execListenerLost x s
  | .talkerLaunch x => Sys2Proof.Machine.execTalkerLaunch x s
  | .frameTransmit e => Sys2Proof.Machine.execFrameTransmit e s
  | .gateIntervalEnd e => Sys2Proof.Machine.execGateIntervalEnd e s
  | .gateChangeRequest m e v => Sys2Proof.Machine.execGateChangeRequest m e v s
  | .gateListChange e => Sys2Proof.Machine.execGateListChange e s
  | .contextEnable m e v => Sys2Proof.Machine.execContextEnable m e v s
  | .contextDisable m e v => Sys2Proof.Machine.execContextDisable m e v s
  | .rebind m e v => Sys2Proof.Machine.execRebind m e v s
  | .linkDown e => Sys2Proof.Machine.execLinkDown e s
  | .linkUp e => Sys2Proof.Machine.execLinkUp e s
  | .mdioCommand result => Sys2Proof.Machine.execMdioCommand result s
  | .requestArrival a bytes => Sys2Proof.Machine.execRequestArrival a bytes s
  | .spiRead => Sys2Proof.Machine.execSpiRead s
  | .read => Sys2Proof.Machine.execRead s
  | .write => Sys2Proof.Machine.execWrite s
  | .status => Sys2Proof.Machine.execStatus s
  | .claim => Sys2Proof.Machine.execClaim s
  | .heartbeat => Sys2Proof.Machine.execHeartbeat s
  | .handover => Sys2Proof.Machine.execHandover s
  | .release => Sys2Proof.Machine.execRelease s
  | .electionEnd => Sys2Proof.Machine.execElectionEnd s
  | .ownerLapse => Sys2Proof.Machine.execOwnerLapse s
  | .sessionClose t => Sys2Proof.Machine.execSessionClose t s
  | .transferTimeout t => Sys2Proof.Machine.execTransferTimeout t s
  | .svcClaim => Sys2Proof.Machine.execSvcClaim s
  | .svcProve => Sys2Proof.Machine.execSvcProve s
  | .challengeExpiry => Sys2Proof.Machine.execChallengeExpiry s
  | .svcEnd => Sys2Proof.Machine.execSvcEnd s
  | .serviceLapse => Sys2Proof.Machine.execServiceLapse s
  | .serviceEnDeassert => Sys2Proof.Machine.execServiceEnDeassert s
  | .safeCommand => Sys2Proof.Machine.execSafeCommand s
  | .configCommand => Sys2Proof.Machine.execConfigCommand s
  | .resourceClaim => Sys2Proof.Machine.execResourceClaim s
  | .resourceRelease => Sys2Proof.Machine.execResourceRelease s
  | .clearReportCounts => Sys2Proof.Machine.execClearReportCounts s
  | .commSettingsApply => Sys2Proof.Machine.execCommSettingsApply s
  | .rwpPersist ok => Sys2Proof.Machine.execRwpPersist ok s
  | .ringWrite => Sys2Proof.Machine.execRingWrite s
  | .bbInCommit m v => Sys2Proof.Machine.execBbInCommit m v s
  | .manualTrigger => Sys2Proof.Machine.execManualTrigger s
  | .rearm => Sys2Proof.Machine.execRearm s
  | .ownerNote => Sys2Proof.Machine.execOwnerNote s
  | .copySlotErase => Sys2Proof.Machine.execCopySlotErase s
  | .lostPeriodSummary => Sys2Proof.Machine.execLostPeriodSummary s
  | .pfailAssert => Sys2Proof.Machine.execPfailAssert s
  | .pfailRelease => Sys2Proof.Machine.execPfailRelease s
  | .dipEnd => Sys2Proof.Machine.execDipEnd s
  | .powerOnReset => Sys2Proof.Machine.execPowerOnReset s
  | .resetNAssert => Sys2Proof.Machine.execResetNAssert s
  | .l0HaltReset => Sys2Proof.Machine.execL0HaltReset s
  | .watchdogExpiry => Sys2Proof.Machine.execWatchdogExpiry s
  | .watchdogKick m v => Sys2Proof.Machine.execWatchdogKick m v s
  | .thermalTrip => Sys2Proof.Machine.execThermalTrip s
  | .pllLockLost => Sys2Proof.Machine.execPllLockLost s
  | .resetRelease => Sys2Proof.Machine.execResetRelease s
  | .selftestComplete found => Sys2Proof.Machine.execSelftestComplete found s
  | .bootComplete => Sys2Proof.Machine.execBootComplete s
  | .domainRequest d req => Sys2Proof.Machine.execDomainRequest d req s
  | .domainTransitionDone d => Sys2Proof.Machine.execDomainTransitionDone d s
  | .avsReadback mv amps responded => Sys2Proof.Machine.execAvsReadback mv amps responded s
  | .voltageStepDown => Sys2Proof.Machine.execVoltageStepDown s
  | .marginMeasure margins => Sys2Proof.Machine.execMarginMeasure margins s
  | .vAgeStore => Sys2Proof.Machine.execVAgeStore s
  | .supplyAlarm code rail => Sys2Proof.Machine.execSupplyAlarm code rail s
  | .thermalAlarm sensor temp => Sys2Proof.Machine.execThermalAlarm sensor temp s
  | .clusterClockSet k mult => Sys2Proof.Machine.execClusterClockSet k mult s
  | .registerWrite m sup addr v => Sys2Proof.Machine.execRegisterWrite m sup addr v s
  | .thermalAlarmEnd => Sys2Proof.Machine.execThermalAlarmEnd s
  | .rearmComplete => Sys2Proof.Machine.execRearmComplete s
  | .canErrorStateChange c => Sys2Proof.Machine.execCanErrorStateChange c s
  | .pendingRepairListStore => Sys2Proof.Machine.execPendingRepairListStore s

end Sys2Proof.Machine
end

