-- ==== Sys2Proof/Machine/Pins.lean ====
section
/-! DEFINITION. What the pins of the audio ports carry: BCLK, FS and DOUT of a TDM port bit by bit, PDM_CLK and the word
clocks (R346, R351, R352, R356, R358). Each is a function of the state. -/
namespace Sys2Proof.Machine

/-- A pin of the device: driven low or high, at high impedance, an input, or a clock at a rate in Hz. -/
inductive Pin where
  | low | high | hiZ | input
  | clock (hz : Nat)
  deriving DecidableEq, Repr
def Pin.level (b : Bool) : Pin := if b then .high else .low

/-! ## TDM ports -/

def apSlotBits (s : State) (p : Nat) : Nat := widthBits (regF s (apFmt p) 23 2)
def apWordBits (s : State) (p : Nat) : Nat := widthBits (regF s (apFmt p) 21 2)
/-- BCLKs of a frame. -/
def apFrameBits (s : State) (p : Nat) : Nat := apSlots s p * apSlotBits s p
/-- The port launches data on the falling edge of BCLK and samples it on the rising edge; BPOL = 1 swaps the two (R351). -/
def apLaunchFalling (s : State) (p : Nat) : Bool := !(regB s (apFmt p) 19)
/-- TDM_p_BCLK (R352, R356). -/
def bclkPin (s : State) (p : Nat) : Pin :=
  if !(apMaster s p) then .input else if apOn s p then .clock (apFrameBits s p * clockHz s (apMc s p)) else .low
/-- FS with FPOL = 1 at BCLK `k` of a frame, from the BCLK at which FS begins it (Table 5; log entry 96). -/
def fsForm (s : State) (p k : Nat) : Bool :=
  match regF s (apFmt p) 30 2 with
  | 0 => decide (apSlotBits s p ≤ k)
  | 1 => k = 0
  | _ => decide (k < apSlotBits s p + regF s (apFmt p) 20 1)
/-- TDM_p_FS at BCLK `k` of a frame. -/
def fsPin (s : State) (p k : Nat) : Pin :=
  if !(apMaster s p) then .input else if apOn s p then Pin.level (fsForm s p k == regB s (apFmt p) 18) else .low
/-- Slot, and bit of the slot with the MSB 0, that BCLK `k` of a frame carries: the first data bit comes DLY after FS. -/
def dataPlace (s : State) (p k : Nat) : Nat × Nat :=
  let i := (k + apFrameBits s p - regF s (apFmt p) 20 1) % apFrameBits s p
  (i / apSlotBits s p, i % apSlotBits s p)
/-- A bit of a slot: a word of WORDW bits from bit 31 down, then zeros (R351, R352). -/
def slotBit (s : State) (p slot b : Nat) : Bool := decide (b < apWordBits s p) && rbit (tget 0 s.media.out (p * 32 + slot)) (31 - b)
/-- TDM_p_DOUT where nothing is transmitted (R356). -/
def idleDout (s : State) (p : Nat) : Pin := if regB s (apFmt p) 17 then .hiZ else .low
/-- TDM_p_DOUT at BCLK `k` of a frame. -/
def doutPin (s : State) (p k : Nat) : Pin :=
  let e := dataPlace s p k
  if apOn s p && regB s (apTxen p) e.1 then Pin.level (slotBit s p e.1 e.2) else idleDout s p
/-- The slot that bits received MSB first make, left-justified (R351, R352). -/
def slotWord (l : List Bool) : W32 := n32 ((l.zip (upto 32)).foldl (fun x e => x + (if e.1 then 2 ^ (31 - e.2) else 0)) 0)

/-! ## Other clocks -/

/-- PDM_CLK_i (R358). -/
def pdmClkPin (s : State) (i : Nat) : Pin := if pdmOn s i then .clock (pdmOsr s i * clockHz s (regF s (pdmCtl i) 29 2)) else .low
/-- WCK_IO_i: an output of the clock that drives it, else an input (R349, Table 3 of chapter 12). -/
def wckPin (s : State) (i : Nat) : Pin :=
  match (upto 4).find? (fun k => mcOn s k && regF s (mcCtl k) 21 2 = i + 1) with
  | some k => .clock (clockHz s k)
  | none => .input

/-! ## Host SPI, AVS and xSPI (R456, R499, R513, R520) -/

/-- SPI_RDY_N: low while at least one response waits. -/
def spiRdyPin (s : State) : Pin := Pin.level s.fpp.spi.isEmpty
/-- SPI_MISO while SPI_CS_N is high. -/
def misoIdlePin : Pin := .hiZ
/-- The AVS pins: at high impedance in RESET and SELFTEST. -/
def avsPin (s : State) : Option Pin := if s.dev < 2 then some .hiZ else none
/-- The xSPI pins: at high impedance in RESET and SELFTEST, and in BOOT once no package loads; else L0 drives them as it reads. -/
def xspiPin (s : State) : Option Pin := if s.dev < 2 || s.pwr.bootFail.isSome then some .hiZ else none

end Sys2Proof.Machine
end

