-- ==== Sys2Proof/Safety.lean ====
section
/-! DEFINITION. What holds of every state that the device can be in: the bounds the spec sets to its queues and to its
states, and the canonical form of its memories and registers. -/
namespace Sys2Proof.Machine

/-- The canonical form of the stored words and of the codes beside them: keys rising, nothing listed that reads as the
default. -/
def Memory.wfOf (data : Table Word) (check : Table Byte) (parity : Table (BitVec 256)) (pcheck : Table W32) : Bool :=
  twf 0 data && twf 0 check && twf 0 parity && twf 0 pcheck
def Memory.wf (m : Mem) : Bool := Memory.wfOf m.data m.check m.parity m.pcheck
/-- The canonical form of the registers: addresses rising, no register listed that holds its reset value. -/
def Regs.wf (v : Config.Variant) (regs perMaster : Table W32) (coaches : Table Coach) : Bool :=
  twfBy (sysReset v) regs && twf 0 perMaster && twf Coach.reset coaches

/-- A legal state: the device state is one of Table 7 of chapter 01 (R27) and so is the held one; the request queue holds
at most 32 requests (R449), the table 32 sessions (R448), the SPI port 4 responses (R456), the intakes of the black box
and of the error log 32 entries (R478, R340); and the memories and registers are in canonical form. -/
structure Legal (s : State) : Prop where
  dev : s.dev ≤ 7
  held : s.held ≤ 7
  queue : s.fpp.queue.length ≤ 32
  sessions : s.fpp.sessions.length ≤ 32
  spi : s.fpp.spi.length ≤ 4
  bbIntake : s.bb.intake.length ≤ 32
  errIntake : s.mem.intake.length ≤ 32
  memory : Memory.wf s.mem = true
  registers : Regs.wf s.variant s.regs s.perMaster s.coaches = true

end Sys2Proof.Machine
end

