-- ==== Sys2Proof/Certificates/Slice0/Obligations.lean ====
section
/-! DEFINITION. The statements about the machine: what a step does, what reset leaves, and for every command of the table
the state that its own effect leaves. The conditions named here are those that the spec sets for a command to act. -/
open Sys2Proof Sys2Proof.Machine

/-! ## Frames: what a command leaves alone -/

/-- Only the processor `c` differs. -/
def OnlyCoach (c : Nat) (s t : State) : Prop := t = { s with coaches := t.coaches } ∧ ∀ d, d ≠ c → co t d = co s d
/-- Beside `c` no coach changes, but that a bank may answer the accesses that wait at it. -/
def OthersWait (c : Nat) (s t : State) : Prop := ∀ d, d ≠ c → co t d = { co s d with access := (co t d).access }
/-- Only system registers differ, and among them those of `l`. -/
def OnlyRegs (l : List Nat) (s t : State) : Prop := t = { s with regs := t.regs } ∧ ∀ a, a ∉ l → reg t a = reg s a

/-! ## The whole machine -/

/-- The command at the front of the queue acts on the state with the queue's rest. -/
def Obligations.StepRunsTheFrontCommand : Prop :=
  ∀ (s : State) (c : Instr) (rest : List Instr), s.pending = c :: rest → step s = exec c { s with pending := rest }

/-- With an empty queue one fabric cycle passes (the model's choice, log entry 2): the fabric time goes up by 1, the device time by
1 ns, but in one cycle of 10,000, in which the slew towards its domain may make it 0 or 2; beside the offsets of the domains that
the slew moves nothing else changes. -/
def Obligations.AnEmptyQueueIsOneCycle : Prop :=
  ∀ s : State, s.pending = [] → ∃ t, step s = .next t ∧ t.now = s.now + 1 ∧ s.dtime ≤ t.dtime ∧ t.dtime ≤ s.dtime + 2 ∧
    ((s.now + 1) % 10000 ≠ 0 → t = { s with now := s.now + 1, dtime := s.dtime + 1 }) ∧
    t = { s with now := t.now, dtime := t.dtime, net := { s.net with ptp := t.net.ptp } }

/-- Every command of a legal state leaves the queue of waiting commands and the variant as they are. -/
def Obligations.CommandsLeaveTheQueueAlone : Prop :=
  ∀ (s t : State) (c : Instr), Legal s → exec c s = .next t → t.pending = s.pending ∧ t.variant = s.variant

/-- The state that reset leaves is legal. -/
def Obligations.ResetIsLegal : Prop := Legal State.reset

/-- Every step from a legal state leaves a legal state. -/
def Obligations.EveryStepKeepsALegalState : Prop := ∀ s t : State, Legal s → step s = .next t → Legal t

/-- A command answers a next state exactly when every unit that it names exists in some variant, and is refused as ill
formed otherwise; it never faults. -/
def Obligations.EveryCommandThatExistsCompletes : Prop :=
  ∀ (s : State) (c : Instr), (Instr.wf c = true → ∃ t, exec c s = .next t) ∧ (Instr.wf c = false → exec c s = .refused .illFormed)

/-! ## Ketch mode (chapter 08) -/

/-- The state with the line of the instruction word filled into the coach's fetch path. -/
def ketchS (s : State) (c : Nat) : State := fetchFill s c (ketchK s c).pc.toNat
/-- The state in which the instruction acts: its line filled, the results of the instruction before it landed. -/
def ketchU (s : State) (c : Nat) : State := setCo (ketchS s c) c (ketchK s c)
/-- Lead coach `c` runs in Ketch mode, nothing is due before the instruction, and the instruction word at its pc is `w`, which
names an operation. -/
def ketchAt (s : State) (c w : Nat) : Bool :=
  let k := drain s c (co s c)
  isRunning (co s c) && isLead c && (co s c).ketch && (preciseReq k).isNone && !trapDue k && coB k 0x000 15 && (eventDue s c k).isNone &&
  (match kFetch (ketchS s c) c (ketchK s c).pc.toNat with | .ok x => decide (x = w) | .error _ => false) && !kIllegal w
/-- The instruction completes: the pc moves past it, no register is written yet, and one result for register `d` is on its way, due
in `v.cycles` cycles. -/
def KetchWrites (s t : State) (c d : Nat) (v : KVal) : Prop :=
  let k := ketchK s c
  OnlyCoach c (ketchS s c) t ∧ (co t c).pc = k.pc + 2 ∧ (co t c).g = k.g ∧ (co t c).p = k.p ∧ (co t c).n = k.n ∧ (co t c).v = k.v ∧ (co t c).acc = k.acc ∧
  (co t c).cyc = k.cyc + v.cycles ∧ (co t c).exc = none ∧
  ∃ p, (co t c).pend = k.pend ++ [p] ∧ p.file = .g ∧ p.idx = d ∧ p.val = BitVec.ofNat 288 (n32 v.word).toNat ∧
    p.mask = BitVec.ofNat 288 (2 ^ 32 - 1) ∧ p.due = k.cyc + v.cycles
/-- The instruction is refused: its exception is raised on its own address and no register is written. -/
def KetchRefuses (s t : State) (c : Nat) (e : Refused) : Prop :=
  let k := ketchK s c
  OnlyCoach c (ketchS s c) t ∧ (co t c).pc = k.pc ∧ (co t c).g = k.g ∧ (co t c).pend = k.pend ∧
  ∃ x, (co t c).exc = some x ∧ x.entry = e.entry ∧ x.code = e.code ∧ x.pc = k.pc ∧ x.apc = k.pc
/-- What a computing instruction does with what its operands give. -/
def KetchComputes (s : State) (c d : Nat) (i : Instr) (r : Except Refused KVal) : Prop :=
  (∀ v, r = .ok v → v.trap = false → ∃ t, exec i s = .next t ∧ KetchWrites s t c d v) ∧
  (∀ e, r = .error e → ∃ t, exec i s = .next t ∧ KetchRefuses s t c e)

/-- MOVE, LDI, LDHI, KETCH_ADD, KETCH_SUB, KETCH_MUL, KETCH_ADDI, KETCH_AND, KETCH_OR, KETCH_XOR, KETCH_SHL, KETCH_SHR,
KETCH_SAR, KETCH_SEQ, KETCH_SLT, CVT, MKTAG and TAGOF: the result goes to the
destination register and nothing else of the coach, of another coach or of memory changes; a failing tag check refuses the
instruction.
Where the spec is read by inference or leaves a choice, it is the model's: log entries 18, 19, 20. -/
def Obligations.KetchComputingInstructions : Prop :=
  ∀ (s : State) (c w : Nat), c < 76 → ketchAt s c w = true →
    let k := ketchK s c
    let a := gN k (kA w)
    let b := gN k (kB w)
    let d := kD w
    (kOp w = 0x01 → KetchComputes s c d (.move c) (kMove a)) ∧
    (kOp w = 0x02 → KetchComputes s c d (.ldi c) (.ok (kval (kWord 0 (wrapN 29 (kImm18 w))) 1))) ∧
    (kOp w = 0x03 → KetchComputes s c d (.ldhi c) (kLdhi (gN k d) (w % 2 ^ 18))) ∧
    (kOp w = 0x04 → KetchComputes s c d (.ketchAdd c) (kAdd k a b)) ∧
    (kOp w = 0x05 → KetchComputes s c d (.ketchSub c) (kSub k a b)) ∧
    (kOp w = 0x06 → KetchComputes s c d (.ketchMul c) (kMul k a b)) ∧
    (kOp w = 0x07 → KetchComputes s c d (.ketchAddi c) (kAddi a (kImm14 w))) ∧
    (kOp w = 0x08 → KetchComputes s c d (.ketchAnd c) (kLogic 0x08 a b)) ∧
    (kOp w = 0x09 → KetchComputes s c d (.ketchOr c) (kLogic 0x09 a b)) ∧
    (kOp w = 0x0A → KetchComputes s c d (.ketchXor c) (kLogic 0x0A a b)) ∧
    (kOp w = 0x0B → KetchComputes s c d (.ketchShl c) (kLogic 0x0B a b)) ∧
    (kOp w = 0x0C → KetchComputes s c d (.ketchShr c) (kLogic 0x0C a b)) ∧
    (kOp w = 0x0D → KetchComputes s c d (.ketchSar c) (kLogic 0x0D a b)) ∧
    (kOp w = 0x0E → KetchComputes s c d (.ketchSeq c) (kSeq a b)) ∧
    (kOp w = 0x0F → KetchComputes s c d (.ketchSlt c) (kSlt k a b)) ∧
    (kOp w = 0x10 → KetchComputes s c d (.cvt c) (kCvt k (fld w 11 3) a)) ∧
    (kOp w = 0x11 → KetchComputes s c d (.mktag c) (kMktag k (fld w 11 3) a)) ∧
    (kOp w = 0x12 → KetchComputes s c d (.tagof c) (.ok (kval (kTag a) 1)))

/-- What the operands of tag 000 give: integers of 29 bits wrap and set OV; shifts of 29 and more; comparisons. -/
def Clause.KetchIntegerResults : Prop :=
  ∀ (k : Coach) (a b : Nat) (imm : Int), kTag a = 0 → kTag b = 0 →
    let x := sx 29 a
    let y := sx 29 b
    kAdd k a b = .ok (kInt (x + y) 1) ∧ kSub k a b = .ok (kInt (x - y) 1) ∧ kMul k a b = .ok (kInt (x * y) 3) ∧ kAddi a imm = .ok (kInt (x + imm) 1) ∧
    kLogic 0x08 a b = .ok (kval (kPay a &&& kPay b) 1) ∧ kLogic 0x09 a b = .ok (kval (kPay a ||| kPay b) 1) ∧
    kLogic 0x0A a b = .ok (kval (kPay a ^^^ kPay b) 1) ∧
    kLogic 0x0B a b = .ok (kval (if kPay b < 29 then kPay a * 2 ^ kPay b % 2 ^ 29 else 0) 1) ∧
    kLogic 0x0C a b = .ok (kval (if kPay b < 29 then kPay a / 2 ^ kPay b else 0) 1) ∧
    kLogic 0x0D a b = .ok (kval (wrapN 29 (x / ((2 ^ (Nat.min (kPay b) 28) : Nat) : Int))) 1) ∧
    kSeq a b = .ok (kval (if kPay a = kPay b then 1 else 0) 1) ∧ kSlt k a b = .ok (kval (if x < y then 1 else 0) 1) ∧
    (∀ i n, (kInt i n).word = kWord 0 (wrapN 29 i) ∧ (kInt i n).cycles = n ∧
      (kInt i n).istat = (if i < -(2 ^ 28) ∨ 2 ^ 28 - 1 < i then 1 else 0))

/-- The tag checks: an operand tagged 110 or 111 ends in code 0x02, a pair of operands that the operation does not permit in code
0x01, and no result is computed. -/
def Clause.KetchTagChecks : Prop :=
  ∀ (op : Nat) (perm : List (Nat × Nat × Nat)) (a b : Nat),
    (kTag a ≥ 6 → ∃ e, kPair op perm a b = .error e ∧ e.entry = 15 ∧ e.code = 2) ∧
    (kTag a < 6 → kTag b ≥ 6 → ∃ e, kPair op perm a b = .error e ∧ e.entry = 15 ∧ e.code = 2) ∧
    (kTag a < 6 → kTag b < 6 → (∀ e ∈ perm, ¬(e.1 = kTag a ∧ e.2.1 = kTag b)) → ∃ e, kPair op perm a b = .error e ∧ e.entry = 15 ∧ e.code = 1) ∧
    (∀ t, kPair op perm a b = .ok t → kTag a < 6 ∧ kTag b < 6 ∧ (kTag a, kTag b, t) ∈ perm)

/-- MOVE, LDI, LDHI, KETCH_ADD, KETCH_SUB, KETCH_MUL, KETCH_ADDI, KETCH_AND, KETCH_OR, KETCH_XOR, KETCH_SHL, KETCH_SHR,
KETCH_SAR, KETCH_SEQ, KETCH_SLT, CVT, MKTAG and TAGOF complete on operands of the tags that
Table 3 permits, each with the word it computes on its way to its destination: integers, fixed numbers, pointers moved by an integer,
comparisons of one tag, conversions, the tags that a level may make. -/
def Clause.KetchInstructionsComplete : Prop :=
  ∀ (s : State) (c w : Nat), c < 76 → ketchAt s c w = true →
    let k := ketchK s c
    let a := gN k (kA w)
    let b := gN k (kB w)
    let d := kD w
    let t := fld w 11 3
    let x := sx 29 a
    let y := sx 29 b
    let ints : Prop := kTag a = 0 ∧ kTag b = 0
    (kOp w = 0x01 → kTag a < 6 → ∃ t, exec (.move c) s = .next t ∧ KetchWrites s t c d (kval a 1)) ∧
    (kOp w = 0x02 → ∃ t, exec (.ldi c) s = .next t ∧ KetchWrites s t c d (kval (kWord 0 (wrapN 29 (kImm18 w))) 1)) ∧
    (kOp w = 0x03 → kTag (gN k d) = 0 → ∃ t, exec (.ldhi c) s = .next t ∧
      KetchWrites s t c d (kval (kWord 0 (kPay (gN k d) % 2 ^ 18 + w % 2 ^ 11 * 2 ^ 18)) 1)) ∧
    (kOp w = 0x04 → ints → ∃ t, exec (.ketchAdd c) s = .next t ∧ KetchWrites s t c d (kInt (x + y) 1)) ∧
    (kOp w = 0x04 → kTag a = 1 → kTag b = 1 → ∃ t, exec (.ketchAdd c) s = .next t ∧ KetchWrites s t c d (kFix (x + y) 1)) ∧
    (∀ q, kOp w = 0x04 → kTag a = 2 → kTag b = 0 → kPtrAdd (kPay a) y = some q → ∃ t, exec (.ketchAdd c) s = .next t ∧ KetchWrites s t c d (kval (kWord 2 q) 1)) ∧
    (kOp w = 0x05 → ints → ∃ t, exec (.ketchSub c) s = .next t ∧ KetchWrites s t c d (kInt (x - y) 1)) ∧
    (kOp w = 0x05 → kTag a = 1 → kTag b = 1 → ∃ t, exec (.ketchSub c) s = .next t ∧ KetchWrites s t c d (kFix (x - y) 1)) ∧
    (kOp w = 0x06 → ints → ∃ t, exec (.ketchMul c) s = .next t ∧ KetchWrites s t c d (kInt (x * y) 3)) ∧
    (kOp w = 0x07 → kTag a = 0 → ∃ t, exec (.ketchAddi c) s = .next t ∧ KetchWrites s t c d (kInt (x + kImm14 w) 1)) ∧
    (kOp w = 0x08 → ints → ∃ t, exec (.ketchAnd c) s = .next t ∧ KetchWrites s t c d (kval (kPay a &&& kPay b) 1)) ∧
    (kOp w = 0x09 → ints → ∃ t, exec (.ketchOr c) s = .next t ∧ KetchWrites s t c d (kval (kPay a ||| kPay b) 1)) ∧
    (kOp w = 0x0A → ints → ∃ t, exec (.ketchXor c) s = .next t ∧ KetchWrites s t c d (kval (kPay a ^^^ kPay b) 1)) ∧
    (kOp w = 0x0B → ints → ∃ t, exec (.ketchShl c) s = .next t ∧
      KetchWrites s t c d (kval (if kPay b < 29 then kPay a * 2 ^ kPay b % 2 ^ 29 else 0) 1)) ∧
    (kOp w = 0x0C → ints → ∃ t, exec (.ketchShr c) s = .next t ∧ KetchWrites s t c d (kval (if kPay b < 29 then kPay a / 2 ^ kPay b else 0) 1)) ∧
    (kOp w = 0x0D → ints → ∃ t, exec (.ketchSar c) s = .next t ∧
      KetchWrites s t c d (kval (wrapN 29 (x / ((2 ^ (Nat.min (kPay b) 28) : Nat) : Int))) 1)) ∧
    (kOp w = 0x0E → kTag a < 6 → kTag b = kTag a → ∃ t, exec (.ketchSeq c) s = .next t ∧ KetchWrites s t c d (kval (if kPay a = kPay b then 1 else 0) 1)) ∧
    (kOp w = 0x0F → ints ∨ (kTag a = 1 ∧ kTag b = 1) → ∃ t, exec (.ketchSlt c) s = .next t ∧ KetchWrites s t c d (kval (if x < y then 1 else 0) 1)) ∧
    (kOp w = 0x0F → kTag a = 2 → kTag b = 2 → ∃ t, exec (.ketchSlt c) s = .next t ∧ KetchWrites s t c d (kval (if kPay a < kPay b then 1 else 0) 1)) ∧
    (kOp w = 0x10 → kTag a ≤ 1 → t ≤ 1 → ∃ u, exec (.cvt c) s = .next u ∧ KetchWrites s u c d (kval (kWord t (kPay a)) 1)) ∧
    (kOp w = 0x11 → kTag a = 0 → t = 0 ∨ t = 1 ∨ t = 4 ∨ isSup k = true → ∃ u, exec (.mktag c) s = .next u ∧ KetchWrites s u c d (kval (kWord t (kPay a)) 1)) ∧
    (kOp w = 0x12 → ∃ t, exec (.tagof c) s = .next t ∧ KetchWrites s t c d (kval (kTag a) 1))

/-- `Clause.KetchIntegerResults`, `Clause.KetchTagChecks` and `Clause.KetchInstructionsComplete`, all of them.
Where the spec is read by inference or leaves a choice, it is the model's: log entries 18, 20. -/
def Obligations.IntegerResultsAndTagChecks : Prop := Clause.KetchIntegerResults ∧ Clause.KetchTagChecks ∧ Clause.KetchInstructionsComplete

/-- The coach of `q` goes on at `goal` after `n` cycles: no register of its files changes, nor what is on its way, nor another coach, a
register outside the coach or a memory. CO_BUDGET alone counts. -/
def KetchGoes (q t : State) (c : Nat) (k : Coach) (goal : W32) (n : Nat) : Prop :=
  OnlyCoach c q t ∧ (co t c).pc = goal ∧ (co t c).g = k.g ∧ (co t c).p = k.p ∧ (co t c).n = k.n ∧ (co t c).v = k.v ∧ (co t c).acc = k.acc ∧
  (co t c).pend = k.pend ∧ (co t c).coPend = k.coPend ∧ (co t c).cyc = k.cyc + n ∧ (co t c).exc = none ∧
  ∀ off, off ≠ 0x506 → rdCo (co t c) off = rdCo k off

/-- KETCH_NOP, KETCH_B, KETCH_BZ, KETCH_BNZ, JMP, KETCH_CALL, KETCH_CALLR and KETCH_RET: where the coach goes on, what the link register K14 and the shadow stack take, and
that nothing else changes; an operand of another tag refuses the instruction.
Where the spec is read by inference or leaves a choice, it is the model's: log entry 18. -/
def Obligations.KetchControlFlow : Prop :=
  ∀ (s : State) (c w : Nat), c < 76 → ketchAt s c w = true →
    let k := ketchK s c
    let a := gN k (kA w)
    let next := k.pc + 2
    let there := w32 (k.pc.toNat + 2 * kImm18 w)
    let u := ketchS s c
    let q := ssPush (setCo u c k) c k next
    (kOp w = 0x00 → ∃ t, exec (.ketchNop c) s = .next t ∧ KetchGoes u t c k next 1) ∧
    (kOp w = 0x1A → ∃ t, exec (.ketchB c) s = .next t ∧ KetchGoes u t c k there 4) ∧
    (kOp w = 0x18 → kTag a = 0 → ∃ t, exec (.ketchBz c) s = .next t ∧
      KetchGoes u t c k (if kPay a = 0 then there else next) (if kPay a = 0 then 4 else 1)) ∧
    (kOp w = 0x19 → kTag a = 0 → ∃ t, exec (.ketchBnz c) s = .next t ∧
      KetchGoes u t c k (if kPay a = 0 then next else there) (if kPay a = 0 then 1 else 4)) ∧
    (kOp w = 0x1B → kTag a = 3 → ∃ t, exec (.jmp c) s = .next t ∧ KetchGoes u t c k (n32 (kAddr (kPay a))) 4) ∧
    (∀ p, kPayOf next.toNat = some p → ssPushOk k = true →
      (kOp w = 0x1C → ∃ t, exec (.ketchCall c) s = .next t ∧ KetchGoes q.1 t c (setG q.2 14 (kWord 3 p)) there 4) ∧
      (kOp w = 0x1D → kTag a = 3 → ∃ t, exec (.ketchCallr c) s = .next t ∧
        KetchGoes q.1 t c (setG q.2 14 (kWord 3 p)) (n32 (kAddr (kPay a))) 4)) ∧
    (kOp w = 0x1C → ssPushOk k = false → kPayOf next.toNat ≠ none → ∃ t e, exec (.ketchCall c) s = .next t ∧ KetchRefuses s t c e ∧ e.entry = 3 ∧ e.code = 1) ∧
    (let r := gN k 14
     let target := n32 (kAddr (kPay r))
     kOp w = 0x1E → kTag r = 3 → ssPopCheck (setCo u c k) c k target = none → ∃ t, exec (.ketchRet c) s = .next t ∧ KetchGoes u t c (ssPop k) target 4) ∧
    (kOp w = 0x18 → kTag a ≠ 0 → ∃ t e, exec (.ketchBz c) s = .next t ∧ KetchRefuses s t c e ∧ e.entry = 15) ∧
    (kOp w = 0x19 → kTag a ≠ 0 → ∃ t e, exec (.ketchBnz c) s = .next t ∧ KetchRefuses s t c e ∧ e.entry = 15) ∧
    (kOp w = 0x1B → kTag a ≠ 3 → ∃ t e, exec (.jmp c) s = .next t ∧ KetchRefuses s t c e ∧ e.entry = 15) ∧
    (kOp w = 0x1D → kTag a ≠ 3 → ∃ t e, exec (.ketchCallr c) s = .next t ∧ KetchRefuses s t c e ∧ e.entry = 15)

/-- The state in which a Ketch access has been sent: the coach waits for it. -/
def ketchSent (s : State) (c : Nat) (a : Access) (n : Nat) : State := kSend (ketchU s c) c (ketchK s c) a n
/-- The access `a` is to the coach's own memory, whose bank serves it in this cycle without error: the memory's answer. -/
def ownAnswer (s : State) (c : Nat) (a : Access) : Option BankOut :=
  match route s c a.addr with
  | .bank kind inst off true =>
    let o := bankAccess s (portOf kind inst off c true) a.kind (wordKey kind inst off) a.n a.data c
    if servedNow s c a && decide (o.code = 0) then some o else none
  | _ => none
/-- What LD and LDRAW, and ST and STRAW, do with an access whose checks pass: one that the coach's own memory serves completes; one
that another bank is to serve waits at that bank's port, and nothing is written yet. -/
def KetchAccesses (s : State) (c : Nat) (i : Instr) (a : Access) (n : Nat) : Prop :=
  let k := ketchK s c
  let u := ketchSent s c a n
  checkAccs (ketchU s c) c k [a] = none →
    (∀ o, ownAnswer u c a = some o → ∃ t, exec i s = .next t ∧ t = { o.st with coaches := t.coaches } ∧ (∀ d, d ≠ c → co t d = co (ketchS s c) d) ∧
      (co t c).pc = k.pc + 2 ∧ (co t c).g = k.g ∧ (co t c).p = k.p ∧ (co t c).cyc = k.cyc + n ∧ (co t c).exc = none ∧
      (co t c).pend = k.pend ++ loadResults { k with access := [], after := none } a o.data) ∧
    (∀ kind inst off, route u c a.addr = .bank kind inst off false → ∃ t, exec i s = .next t ∧
      t = setReqs u (portOf kind inst off c false) (portReqs u (portOf kind inst off c false) ++ [{ master := c, ld := 0, refusals := 0 }]) ∧
      (co t c).access = [a] ∧ (co t c).pc = k.pc ∧ (co t c).g = k.g)

/-- LD, ST, LDRAW and STRAW: the address is the pointer's plus the immediate; the word read is on its way to the destination
register, due 4 cycles after the issue; the word stored goes to memory; an operand that is no pointer, a pointer sum outside memory
and an uninitialised word stored by ST refuse the instruction.
Where the spec is read by inference or leaves a choice, it is the model's: log entries 18, 19, 20, 23. -/
def Obligations.KetchMemoryInstructions : Prop :=
  ∀ (s : State) (c w : Nat), c < 76 → ketchAt s c w = true →
    let k := ketchK s c
    let a := gN k (kA w)
    let b := gN k (kB w)
    (∀ p, kTag a = 2 → kPtrAdd (kPay a) (kImm14 w) = some p →
      (kOp w = 0x13 → KetchAccesses s c (.ld c) (kLoadAcc k (kD w) (kAddr p)) 4) ∧
      (kOp w = 0x15 → KetchAccesses s c (.ldraw c) (kLoadAcc k (kD w) (kAddr p)) 4) ∧
      (kOp w = 0x14 → kTag b < 6 → KetchAccesses s c (.st c) (kStoreAcc k b (kAddr p)) 1) ∧
      (kOp w = 0x16 → KetchAccesses s c (.straw c) (kStoreAcc k b (kAddr p)) 1)) ∧
    (kOp w = 0x13 → kTag a ≠ 2 → ∃ t e, exec (.ld c) s = .next t ∧ KetchRefuses s t c e ∧ e.entry = 15) ∧
    (kOp w = 0x14 → kTag a ≠ 2 ∨ 6 ≤ kTag b → ∃ t e, exec (.st c) s = .next t ∧ KetchRefuses s t c e ∧ e.entry = 15) ∧
    (∀ d x v, loadResults k (kLoadAcc k d x) v =
      [{ res 0 0 .g d (2 ^ 32 - 1) (v % 2 ^ 32) with due := k.cyc + 4, seq := k.seq, apc := k.pc, prec := isPrecise k }]) ∧
    (∀ op a b imm x, kAddress op a b imm = .ok x ↔ ((op = 0x15 ∨ op = 0x16 ∨ kTag a < 6) ∧ kTag a = 2 ∧ ∃ p, kPtrAdd (kPay a) imm = some p ∧ x = kAddr p))

/-- FRAME: the stack pointer K15 moves down by the immediate, every word of the frame takes the uninitialised word in memory, and the
instruction takes one cycle for each word beside its own, and the stall cycles of its stores.
Where the spec is read by inference or leaves a choice, it is the model's: log entries 20, 23. -/
def Obligations.KetchFrame : Prop :=
  ∀ (s : State) (c w q : Nat), c < 76 → ketchAt s c w = true → kOp w = 0x17 →
    let k := ketchK s c
    let n := (kImm14 w).toNat
    let r := kFrameStore (ketchU s c) c q n
    kTag (gN k 15) = 2 → kPtrAdd (kPay (gN k 15)) (-(n : Int)) = some q → kFrameBad (ketchU s c) c q n = none → r.2 = none →
    ∃ t, exec (.frame c) s = .next t ∧ t = { r.1 with coaches := t.coaches } ∧ (∀ d, d ≠ c → co t d = co r.1 d) ∧
      (co t c).pc = k.pc + 2 ∧ gN (co t c) 15 = (n32 (kWord 2 q)).toNat ∧ (∀ i, i ≠ 15 → gN (co t c) i = gN k i) ∧ (co t c).cyc = k.cyc + 1 + n ∧
      (co t c).pend = k.pend

/-- KCALL and KRET: the coach goes on in Emnos mode at the address of the gate's target, or at the recorded return address; LNK takes
the gate's return address, the arguments are converted, and what the gate refuses changes nothing but what it raises. -/
def Clause.KetchGates : Prop :=
  ∀ (s : State) (c w : Nat), c < 76 → ketchAt s c w = true →
    let k := ketchK s c
    let o := gateKcall (ketchU s c) c k k.pc.toNat (kA w) (fld w 14 4) (fld w 11 3) (fld w 8 3)
    let p := gateKret (ketchU s c) c k (fld w 16 2)
    (kOp w = 0x1F → o.bad = none → ∃ t, exec (.kcall c) s = .next t ∧ t = { o.st with coaches := t.coaches } ∧ (co t c).ketch = false ∧
      coB (co t c) 0x000 15 = false ∧ (co t c).pc = n32 (kAddr (kPay (gN k (kA w)))) ∧ rdCo (co t c) 0x320 = n32 gateRet ∧
      (∀ i, i < fld w 14 4 → rdG (co t c) i = (kToE (gN k i)).getD 0) ∧ (co t c).cyc = o.k.cyc + 8) ∧
    (kOp w = 0x20 → p.bad = none → ∃ t, exec (.kret c) s = .next t ∧ t = { p.st with coaches := t.coaches } ∧ (co t c).ketch = false ∧
      coB (co t c) 0x000 15 = false ∧ (co t c).pc = p.next ∧ (∀ i, i < fld w 16 2 → rdG (co t c) i = (kToE (gN k i)).getD 0)) ∧
    (∀ e, kOp w = 0x1F → o.bad = some e → e.entry ≠ 8 → ∃ t, exec (.kcall c) s = .next t ∧ KetchRefuses s t c e) ∧
    (∀ e, kOp w = 0x20 → p.bad = some e → e.entry ≠ 8 → ∃ t, exec (.kret c) s = .next t ∧ KetchRefuses s t c e)

/-- KSYS, KBRK and KERET: the supervisor call names its number and returns behind itself; the breakpoint stands on its own address;
the return restores the pc, PRIV, LNK and the exception stack pointer from the frame, clears DF, and needs supervisor level. -/
def Clause.KetchSystemInstructions : Prop :=
  ∀ (s : State) (c w : Nat), c < 76 → ketchAt s c w = true →
    let k := ketchK s c
    let r := eretRead (ketchU s c) c
    (kOp w = 0x21 → ∃ t x, exec (.ksys c) s = .next t ∧ OnlyCoach c (ketchS s c) t ∧ (co t c).exc = some x ∧ x.entry = 17 ∧ x.scnum = w % 2 ^ 16 ∧
      x.pc = k.pc + 2 ∧ x.apc = k.pc ∧ (co t c).pc = k.pc + 2 ∧ (co t c).g = k.g ∧ (co t c).pend = k.pend ∧ (co t c).cyc = k.cyc + 1) ∧
    (kOp w = 0x22 → ∃ t, exec (.kbrk c) s = .next t ∧ KetchRefuses s t c (refuse1 16 1 0 0)) ∧
    (kOp w = 0x23 → isSup k = false → ∃ t, exec (.keret c) s = .next t ∧ KetchRefuses s t c (refuse1 6 1 0 0)) ∧
    (kOp w = 0x23 → isSup k = true → r.2.1 = none → ∃ t, exec (.keret c) s = .next t ∧ t = { r.1 with coaches := t.coaches } ∧
      (∀ d, d ≠ c → co t d = co r.1 d) ∧ (co t c).pc = r.2.2.getD 0 0 ∧ isSup (co t c) = rbit (r.2.2.getD 1 0) 1 ∧
      rdCo (co t c) 0x320 = r.2.2.getD 2 0 ∧ coB (co t c) 0x40C 2 = false ∧ (co t c).g = (co r.1 c).g ∧
      rdCo (co t c) 0x402 = rdCo (co r.1 c) 0x402 + 16)

/-- KETCH_MODE_SWITCH: at a boundary the coach takes the mode that CO_MODE.KETCH names; entering Ketch mode gives K0 to K14 the
uninitialised word and keeps K15; leaving it keeps every register; the pc stays. -/
def Clause.KetchModeSwitch : Prop :=
  ∀ (s : State) (c : Nat), c < 76 → isRunning (co s c) = true → isLead c = true →
    let k := if (co s c).ketch then drain s c (co s c) else landNow s c (co s c)
    let d := drain s c k
    coB k 0x000 15 ≠ k.ketch → (coB k 0x000 15 = true → k.ketchAt ≤ k.seq) → trapDue d = false → d.precise = none →
    ∃ t, exec (.ketchModeSwitch c) s = .next t ∧ OnlyCoach c s t ∧ (co t c).ketch = coB k 0x000 15 ∧ (co t c).pc = d.pc ∧ (co t c).pend = d.pend ∧
      gN (co t c) 15 = gN d 15 ∧ (∀ i, i < 15 → gN (co t c) i = if coB k 0x000 15 then kUninit else gN d i) ∧
      (co t c).p = d.p ∧ (co t c).n = d.n ∧ (co t c).v = d.v ∧ (co t c).acc = d.acc

/-- `Clause.KetchGates`, `Clause.KetchSystemInstructions`, `Clause.KetchModeSwitch`, all of them.
Where the spec is read by inference or leaves a choice, it is the model's: log entries 18, 20, 23. -/
def Obligations.KetchGatesCallsAndModes : Prop := Clause.KetchGates ∧ Clause.KetchSystemInstructions ∧ Clause.KetchModeSwitch

/-! ## Bundles (chapters 02 to 07) -/

/-- The coach at a bundle's issue, what is due at its cycle landed, and the state with the lines of the bundle filled in. -/
def issueLanded (s : State) (c : Nat) : Coach := landNow s c (co s c)
def issueFilled (s : State) (c : Nat) : State := fetchLead s c (issueLanded s c).pc.toNat
/-- The coach and the state in which the bundle is checked, the waits of the bundle having passed. -/
def checkCoach (s : State) (c : Nat) (b : Bundle) : Coach := issueWait (issueFilled s c) c (issueLanded s c) b
def checkState (s : State) (c : Nat) (b : Bundle) : State :=
  fetchTouch (setCo (issueFilled s c) c (checkCoach s c b)) c b (checkCoach s c b).pc.toNat
/-- Coach `c` executes Emnos bundles; `b` is the bundle at its pc, and no event, trap, overrun, change of mode or precise exception
comes before it. -/
def bundleNext (s : State) (c : Nat) (b : Bundle) : Bool :=
  let k := issueLanded s c
  let w := checkCoach s c b
  isRunning (co s c) && coachPresent s c && !(co s c).ketch && !issueBarred k && (eventDue s c k).isNone && (eventDue (issueFilled s c) c k).isNone &&
  decide (b = bundleAt (issueFilled s c) c k.pc.toNat) && (preciseReq w).isNone && !issueBarred w
/-- The coach once the fetch unit has decoded the bundle. -/
def decodedCoach (s : State) (c : Nat) (b : Bundle) : Coach :=
  let k := checkCoach s c b
  if (match k.decoded with | some d => d.addr = k.pc && d.on = !predOff k | none => false) then k else decodePath k k.pc b
/-- The accesses of the bundle. -/
def bundleAccs (s : State) (c : Nat) (b : Bundle) : List Access := (bundleSlots b).filterMap (ldAccess (decodedCoach s c b))
/-- Why the bundle is refused, if it is: the first check of Table 5 and of Table 10 that it fails. -/
def bundleFails (s : State) (c : Nat) (b : Bundle) : Option Refused :=
  let u := checkState s c b
  let k := decodedCoach s c b
  match checkFetch u c (checkCoach s c b) b with
  | some r => some r
  | none =>
    match checkOps u c k b with
    | some r => some r
    | none => match checkAccs u c k (bundleAccs s c b) with
      | some r => some r
      | none => checkCtl u c k b
/-- The exception `r` is raised at a refused bundle: on its own address, with no register written. -/
def Refuses (u t : State) (c : Nat) (k : Coach) (r : Refused) : Prop :=
  OnlyCoach c u t ∧ (co t c).pc = k.pc ∧ (co t c).g = k.g ∧ (co t c).p = k.p ∧ (co t c).n = k.n ∧ (co t c).v = k.v ∧ (co t c).acc = k.acc ∧
  (co t c).pend = k.pend ∧ rdCo (co t c) 0x320 = rdCo k 0x320 ∧ rdCo (co t c) 0x322 = rdCo k 0x322 ∧
  ∃ x, (co t c).exc = some x ∧ x.entry = r.entry ∧ x.code = r.code ∧ x.slots = r.slots ∧ x.pc = k.pc ∧ x.apc = k.pc

/-- BUNDLE_ISSUE of a bundle that fails a check issues nothing: it writes no register and no memory, and its exception is raised on its address; the
first check that fails decides. -/
def Obligations.ARefusedBundleWritesNothing : Prop :=
  ∀ (s : State) (c : Nat) (b : Bundle) (r : Refused), c < 76 → bundleNext s c b = true → bundleFails s c b = some r →
    ∃ t, exec (.bundleIssue c) s = .next t ∧ ∃ k, (k = checkCoach s c b ∨ k = decodedCoach s c b) ∧ Refuses (checkState s c b) t c k r

/-- The coach with which a checked bundle's operations read their operands. -/
def issueCoach (s : State) (c : Nat) (b : Bundle) : Coach :=
  let k := holdRun (decodedCoach s c b) (bundleHold b)
  match k.budgetHold with | some d => if k.handlers ≤ d then { k with budgetHold := none } else k | none => k
/-- BUNDLE_ISSUE of a bundle that passes its checks and has no access, no ERET, no gate action and is no long operation: its operations' results are on
their way, each due at its latency; no register of the files is written yet; the pc goes where the control flow says; the coach counts
one cycle and the bubbles. -/
def Clause.ABundleIssues : Prop :=
  ∀ (s : State) (c : Nat) (b : Bundle), c < 76 → bundleNext s c b = true → bundleFails s c b = none → bundleAccs s c b = [] →
    (bundleOps b).any (fun o => o = .eret) = false → longOf (issueCoach s c b) b = none → gateOf (issueCoach s c b) b (isLead c) = none →
    let k := issueCoach s c b
    let f := flowOf (setCo (checkState s c b) c (decodedCoach s c b)) c (barCount k) (predOff k)
      (raisesAtRetire k (stamp k (bundleResults k (isLead c) (bundleSlots b))))
      (k.decoded.getD { addr := k.pc, on := false, v := 0, taken := false, ret := none }) (n32 b.next) (ctlOf b)
    ∃ t, exec (.bundleIssue c) s = .next t ∧ t = { f.1 with coaches := t.coaches } ∧ (∀ d, d ≠ c → co t d = co f.1 d) ∧
      (co t c).pc = f.2.next ∧ (co t c).g = k.g ∧ (co t c).p = k.p ∧ (co t c).n = k.n ∧ (co t c).v = k.v ∧ (co t c).acc = k.acc ∧
      (co t c).pend = k.pend ++ stamp k (bundleResults k (isLead c) (bundleSlots b)) ∧ (co t c).seq = k.seq + 1 ∧
      (co t c).cyc = k.cyc + 1 + f.2.bub ∧ (co t c).access = [] ∧ (co t c).bound = if bundleHold b then .barred else .drain

/-- BUNDLE_ISSUE of a long operation whose checks pass begins it: its fields stand in the coach, and with a count of 0 it completes at once. -/
def Clause.ALongOperationBegins : Prop :=
  ∀ (s : State) (c : Nat) (b : Bundle) (l : LongOp), c < 76 → bundleNext s c b = true → bundleFails s c b = none →
    longOf (issueCoach s c b) b = some l →
    ∃ t, exec (.bundleIssue c) s = .next t ∧ OnlyCoach c (setCo (checkState s c b) c (decodedCoach s c b)) t ∧
      (co t c).g = (issueCoach s c b).g ∧ (co t c).p = (issueCoach s c b).p ∧ (co t c).v = (issueCoach s c b).v ∧
      (rdG (issueCoach s c b) l.gn ≠ 0 → (co t c).long = some l ∧ (co t c).pc = (issueCoach s c b).pc) ∧
      (rdG (issueCoach s c b) l.gn = 0 → (co t c).long = none)

/-- `Clause.ABundleIssues` and `Clause.ALongOperationBegins`, both of them.
Where the spec is read by inference or leaves a choice, it is the model's: log entries 12, 16. -/
def Obligations.BundlesIssue : Prop := Clause.ABundleIssues ∧ Clause.ALongOperationBegins

/-- Prediction changes no transfer, on or off and whatever it predicted: neither where the coach goes next nor a register below the
performance counters, nor memory. -/
def Clause.PredictionChangesNoTransfer : Prop :=
  ∀ (s : State) (c : Nat) (k : Coach) (off on noEnd : Bool) (d e : Decoded) (seq : W32) (o : Option Op),
    let f := flowOf s c k off noEnd d seq o
    let g := flowOf s c k on noEnd e seq o
    f.2.next = g.2.next ∧ f.1 = g.1 ∧ (∀ off, off < 0x600 → rdCo f.2.k off = rdCo g.2.k off) ∧ f.2.k.g = g.2.k.g ∧ f.2.k.p = g.2.k.p

/-- Where a bundle's control flow goes: a branch that is taken to its target, any other on by the loop end test, or to the following
word where the bundle makes none; CALL and CALLR put the following word into LNK; RET goes to LNK or to its register; LOOP writes the
start, end and count of its level. -/
def Clause.ControlFlowTargets : Prop :=
  ∀ (s : State) (c : Nat) (k : Coach) (off noEnd : Bool) (d : Decoded) (seq : W32),
    let flow (o : Option Op) : State × Flow := flowOf s c k off noEnd d seq o
    let goesOn : W32 := if noEnd then seq else (loopEnd k seq).2
    (∀ cond a bo, (flow (some (.br cond a bo))).2.next = if brTaken cond (s32 (rdG k a)) then w32 (k.pc.toNat + bo) else goesOn) ∧
    (∀ p, (flow (some (.jr p))).2.next = rdP k p) ∧
    (∀ bo, (flow (some (.call bo))).2.next = w32 (k.pc.toNat + bo) ∧ rdCo (flow (some (.call bo))).2.k 0x320 = seq) ∧
    (∀ p, (flow (some (.callR p))).2.next = rdP k p ∧ rdCo (flow (some (.callR p))).2.k 0x320 = seq) ∧
    (∀ p, (flow (some (.ret p true))).2.next = rdP k p) ∧
    (∀ p, (flow (some (.ret p false))).2.next = rdCo k 0x320) ∧
    (∀ l len cnt, l < 3 → (flow (some (.loopI l len cnt))).2.next = (if cnt = 0 then seq + n32 len else goesOn) ∧
      let t := (flow (some (.loopI l len cnt))).2.k
      rdCo t (0x300 + 8 * l) = seq ∧ rdCo t (0x302 + 8 * l) = seq + n32 len ∧ rdCo t (0x304 + 8 * l) = n32 cnt) ∧
    (∀ l len g, flow (some (.loopR l len g)) = flow (some (.loopI l len (rdG k g).toNat))) ∧
    (∀ n, (flow (some (.syscall n))).2.next = seq) ∧
    (flow (some .pflush)).2.next = goesOn ∧ (flow none).2.next = goesOn

/-- `Clause.PredictionChangesNoTransfer` and `Clause.ControlFlowTargets`, both of them. -/
def Obligations.PredictionAndTargets : Prop := Clause.PredictionChangesNoTransfer ∧ Clause.ControlFlowTargets

/-- The loop end test: the levels are tested from level 0; the first that ends here with a count above 1 counts down and loops back; a
level with a count of 1 becomes inactive and the test goes on. -/
def Obligations.LoopEndTest : Prop :=
  ∀ (k : Coach) (seq : W32),
    let ends (l : Nat) : Prop := rdCo k (0x304 + 8 * l) ≠ 0 ∧ rdCo k (0x302 + 8 * l) = seq
    let back (l : Nat) : Prop := ends l ∧ 1 < (rdCo k (0x304 + 8 * l)).toNat
    let r := loopEnd k seq
    (∀ l, l < 3 → back l → (∀ i, i < l → ¬ back i) →
      r.2 = rdCo k (0x300 + 8 * l) ∧ rdCo r.1 (0x304 + 8 * l) = rdCo k (0x304 + 8 * l) - 1 ∧
      (∀ i, i < l → rdCo r.1 (0x304 + 8 * i) = if ends i then 0 else rdCo k (0x304 + 8 * i)) ∧ (∀ i, l < i → i < 3 → rdCo r.1 (0x304 + 8 * i) = rdCo k (0x304 + 8 * i))) ∧
    ((∀ l, l < 3 → ¬ back l) → r.2 = seq ∧ ∀ l, l < 3 → rdCo r.1 (0x304 + 8 * l) = if ends l then 0 else rdCo k (0x304 + 8 * l)) ∧
    (∀ off, off ≠ 0x304 → off ≠ 0x30C → off ≠ 0x314 → rdCo r.1 off = rdCo k off)

/-! ### What operations compute -/

/-- ALU3: sums and differences wrap and set OV, the saturating forms clamp and set SAT, shifts by 32 and more give 0 or the sign,
comparisons give 1 or 0, and a conditional move whose condition fails writes nothing. -/
def Clause.IntegerOperations : Prop :=
  ∀ (a b : W32),
    let x := a.toInt
    let y := b.toInt
    let fits (i : Int) : Prop := -(2 ^ 31) ≤ i ∧ i < 2 ^ 31
    aluOp 0x00 a b = (some (a + b), if fits (x + y) then 0 else 1) ∧
    aluOp 0x01 a b = (some (a - b), if fits (x - y) then 0 else 1) ∧
    (fits (x + y) → aluOp 0x02 a b = (some (a + b), 0)) ∧
    (2 ^ 31 ≤ x + y → aluOp 0x02 a b = (some 0x7FFFFFFF, 4)) ∧ (x + y < -(2 ^ 31) → aluOp 0x02 a b = (some 0x80000000, 4)) ∧
    (fits (x - y) → aluOp 0x03 a b = (some (a - b), 0)) ∧
    (2 ^ 31 ≤ x - y → aluOp 0x03 a b = (some 0x7FFFFFFF, 4)) ∧ (x - y < -(2 ^ 31) → aluOp 0x03 a b = (some 0x80000000, 4)) ∧
    (32 ≤ b.toNat → aluOp 0x08 a b = (some 0, 0) ∧ aluOp 0x09 a b = (some 0, 0) ∧
      aluOp 0x0A a b = (some (if x < 0 then 0xFFFFFFFF else 0), 0)) ∧
    (b.toNat < 32 → aluOp 0x08 a b = (some (BitVec.ofNat 32 (a.toNat * 2 ^ b.toNat)), 0) ∧
      aluOp 0x09 a b = (some (BitVec.ofNat 32 (a.toNat / 2 ^ b.toNat)), 0) ∧ aluOp 0x0A a b = (some (BitVec.ofInt 32 (x / 2 ^ b.toNat)), 0)) ∧
    aluOp 0x0E a b = (some (if x < y then 1 else 0), 0) ∧ aluOp 0x0F a b = (some (if a.toNat < b.toNat then 1 else 0), 0) ∧
    aluOp 0x17 a b = (some (if x < 0 then -a else a), if a = 0x80000000 then 1 else 0) ∧
    aluOp 0x18 a b = (if b = 0 then some a else none, 0) ∧ aluOp 0x19 a b = (if b = 0 then none else some a, 0)

/-- A conditional move whose condition fails makes no write, so no result is on its way that could collide. -/
def Obligations.AFailedConditionalMoveWritesNothing : Prop :=
  ∀ (k : Coach) (d a b : Nat), (rdG k b ≠ 0 → aluResults k (.alu 0x18 d a false b) = []) ∧ (rdG k b = 0 → aluResults k (.alu 0x19 d a false b) = [])

/-- The divider: the quotient is truncated towards 0 and the remainder has the dividend's sign; a divide by 0 gives the largest value of
the operand's sign, or the dividend as remainder, and sets DZ; the one quotient that does not fit sets OV. -/
def Clause.DivisionTruncates : Prop :=
  ∀ (a b : W32),
    (b ≠ 0 → ¬(a = 0x80000000 ∧ b = 0xFFFFFFFF) →
      divOp 0 a b = (BitVec.ofInt 32 (a.toInt.tdiv b.toInt), 0) ∧ divOp 2 a b = (BitVec.ofInt 32 (a.toInt.tmod b.toInt), 0)) ∧
    (b ≠ 0 → divOp 1 a b = (BitVec.ofNat 32 (a.toNat / b.toNat), 0) ∧ divOp 3 a b = (BitVec.ofNat 32 (a.toNat % b.toNat), 0)) ∧
    divOp 0 a 0 = (if a.toInt < 0 then 0x80000000 else 0x7FFFFFFF, 2) ∧ divOp 1 a 0 = (0xFFFFFFFF, 2) ∧ divOp 2 a 0 = (a, 2) ∧ divOp 3 a 0 = (a, 2) ∧
    divOp 0 0x80000000 0xFFFFFFFF = (0x80000000, 1) ∧ divOp 2 0x80000000 0xFFFFFFFF = (0, 0)

/-- Circular addressing: a pointer inside the buffer that moves by no more than the buffer's length stays inside, and moves by the
increment modulo that length. -/
def Clause.CircularAddressesStayInTheBuffer : Prop :=
  ∀ (k : Coach) (pr : Nat) (p : W32) (i : Int),
    let b := (rdN k (circPair k pr).1).toNat
    let l := (rdN k (circPair k pr).2).toNat
    0 < l → b + l ≤ 2 ^ 32 → b ≤ p.toNat → p.toNat < b + l → -(l : Int) ≤ i → i ≤ l →
    let r := (circAdv k pr p i).toNat
    b ≤ r ∧ r < b + l ∧ ((r : Int) - (p.toNat + i)) % l = 0

/-- `Clause.IntegerOperations`, `Clause.DivisionTruncates`, `Clause.CircularAddressesStayInTheBuffer`, all of them. -/
def Obligations.WhatIntegerOperationsCompute : Prop := Clause.IntegerOperations ∧ Clause.DivisionTruncates ∧ Clause.CircularAddressesStayInTheBuffer

/-- MACX: every part of the accumulator takes the old value plus or minus the exact product of its lanes, fitted to the part, and no
other bit is written. -/
def Obligations.MacWritesEveryPart : Prop :=
  ∀ (k : Coach) (now slot d a b op m : Nat) (bc : Bool) (j sg st l : Nat), m ≤ 1 → l < parts m → d < 8 →
    let old := accPart m (accOperand k now (slot - 2) d) l
    let prod := mulOpnd m (sg != 1) (laneM m (rdV k a) l) * mulOpnd m (sg = 0) (laneM m (rdV k b) (if bc then j else l))
    let r := macxOp k now slot d a b op m bc j sg st
    let v := if op = 0 then old + prod else if op = 1 then old - prod else prod
    fld r.val.toNat (partW m * l) (partW m) = (fitAcc (partW m) st v).1 ∧ r.mask = BitVec.ofNat 288 (2 ^ 288 - 1) ∧ r.file = .acc ∧ r.idx = d ∧
    r.due = 3 ∧ (fitAcc (partW m) st v).2 ||| r.mstat = r.mstat

/-! ### Landing, accesses, long operations -/

/-- RESULT_LANDS: everything whose cycle has come becomes visible and nothing that is due is left on its way; what is not due yet stays;
no other coach and no memory changes. In precise mode the next result's cycle comes. -/
def Clause.ResultsLandWhenDue : Prop :=
  ∀ (s : State) (c d : Nat), c < 76 → (co s c).access = [] → (co s c).run ≠ .off → nextDue (co s c) = some d →
    (d ≤ (co s c).cyc ∨ isPrecise (co s c) = true) →
    ∃ t, exec (.resultLands c) s = .next t ∧ OnlyCoach c s t ∧ (co t c).cyc = Nat.max d (co s c).cyc ∧
      (∀ p ∈ (co t c).pend, p.trap = 0 → (co t c).cyc < p.due) ∧ (∀ e ∈ (co t c).coPend, (co t c).cyc < e.due) ∧
      (∀ p ∈ (co s c).pend, (co t c).cyc < p.due → p ∈ (co t c).pend) ∧ (co t c).pc = (co s c).pc

/-- A result that lands writes the bits of its mask into its register and leaves the register's other bits and every other register. -/
def Clause.AResultWritesItsBits : Prop :=
  ∀ (k : Coach) (p : Pend) (i j : Nat),
    let l := landOne k p
    (p.file = .g → (rdG l i).getLsbD j = if i = p.idx ∧ p.mask.getLsbD j = true ∧ j < 32 then p.val.getLsbD j else (rdG k i).getLsbD j) ∧
    (p.file = .acc → (rdAcc l i).getLsbD j = if i = p.idx ∧ p.mask.getLsbD j = true then p.val.getLsbD j else (rdAcc k i).getLsbD j) ∧
    (p.file = .v → (rdV l i).getLsbD j = if i = p.idx ∧ p.mask.getLsbD j = true ∧ j < 128 then p.val.getLsbD j else (rdV k i).getLsbD j) ∧
    (p.file ≠ .g → l.g = k.g) ∧ (p.file ≠ .p → l.p = k.p) ∧ (p.file ≠ .n → l.n = k.n) ∧ (p.file ≠ .v → l.v = k.v) ∧ (p.file ≠ .acc → l.acc = k.acc)

/-- The state after the targets of the stalled coach's unanswered accesses have answered as far as they do. -/
def answered (s : State) (c : Nat) : State := (accOrder ((co s c).access.filter (fun a => a.resp.isNone))).foldl (fun s a => acceptOne s c a) s
/-- ACCESS_ACCEPTED: once every access of the stalled bundle has its answer, the bundle takes effect: what it loads and computes is on
its way and the pc goes on; an answer with an error cancels the whole bundle, which writes nothing and raises bus error with the code
of its lowest slot. -/
def Clause.AnAnsweredBundleTakesEffect : Prop :=
  ∀ (s : State) (c extra : Nat) (f : After), c < 76 →
    let u := answered s c
    let k := co u c
    k.after = some f → f.gate = none → k.access.all (fun a => a.resp.isSome) = true → k.exc = none → k.long = none →
    (k.access.all (fun a => match a.resp with | some r => r.err = 0 | none => false) = true →
      ∃ t, exec (.accessAccepted c extra) s = .next t ∧ t = { u with coaches := t.coaches, mem := { u.mem with longest := t.mem.longest } } ∧
        (∀ d, d ≠ c → co t d = co u d) ∧ (co t c).pc = f.pc ∧ (co t c).access = [] ∧ (co t c).after = none ∧ (co t c).g = k.g ∧ (co t c).p = k.p ∧
        (co t c).pend = k.pend ++ f.pend ++ k.access.flatMap (fun a => loadResults { k with access := [], after := none } a (match a.resp with | some x => x.data | none => 0)) ∧
        (co t c).coPend = k.coPend ++ f.coPend) ∧
    (∀ a r x, k.access.filter (fun a => match a.resp with | some r => r.err ≠ 0 | none => false) = a :: r → a.resp = some x →
      ∃ t, exec (.accessAccepted c extra) s = .next t ∧ t = { u with coaches := t.coaches, mem := { u.mem with longest := t.mem.longest } } ∧
        (co t c).g = k.g ∧ (co t c).p = k.p ∧ (co t c).pend = k.pend ∧ (co t c).coPend = k.coPend ∧ (co t c).pc = k.pc ∧
        ∃ q, (co t c).exc = some q ∧ q.entry = 8 ∧ q.code = x.err ∧ q.pc = k.pc ∧ q.detail1 = n32 a.addr)

/-- `Clause.ResultsLandWhenDue`, `Clause.AResultWritesItsBits`, `Clause.AnAnsweredBundleTakesEffect`, all of them.
Where the spec is read by inference or leaves a choice, it is the model's: log entries 12, 82. -/
def Obligations.ResultsLandAndBundlesEnd : Prop := Clause.ResultsLandWhenDue ∧ Clause.AResultWritesItsBits ∧ Clause.AnAnsweredBundleTakesEffect

/-- BLK_ELEMENT: one element of a block move or fill goes to its destination, the pointers advance by the element, the count goes down
by 1, and with the last element the operation ends; a fault stops it before the element, with nothing advanced. -/
def Clause.ABlockElementMoves : Prop :=
  ∀ (s : State) (c : Nat) (l : LongOp), c < 76 → (co s c).long = some l → l.kind ≤ 1 → inLong s c (co s c) = true →
    let k := co s c
    let n := szWords l.size
    let r := if l.kind = 0 then longAccess s c .load (rdP k l.ra).toNat n 0 else (s, none, (rdV k l.ra).toNat % 2 ^ (16 * n))
    let w := longAccess r.1 c .store (rdP k l.rb).toNat n r.2.2
    (r.2.1 = none → w.2.1 = none → l.kind = 1 ∨ l.ra ≠ l.rb →
      ∃ t, exec (.blkElement c) s = .next t ∧ t = { w.1 with coaches := t.coaches } ∧ (∀ d, d ≠ c → co t d = co w.1 d) ∧
        rdG (co t c) l.gn = rdG (co w.1 c) l.gn - 1 ∧ rdP (co t c) l.rb = rdP (co w.1 c) l.rb + n32 n ∧
        (l.kind = 0 → rdP (co t c) l.ra = rdP (co w.1 c) l.ra + n32 n) ∧ (co t c).cyc = (co w.1 c).cyc + 1 ∧
        ((co t c).long = none ↔ rdG (co t c) l.gn = 0) ∧ (co t c).v = (co w.1 c).v) ∧
    (∀ f, r.2.1 = some f → ∃ t x, exec (.blkElement c) s = .next t ∧ (co t c).exc = some x ∧ x.entry = f.1 ∧ x.code = f.2 ∧
      (co t c).g = (co r.1 c).g ∧ (co t c).p = (co r.1 c).p) ∧
    (∀ f, r.2.1 = none → w.2.1 = some f → ∃ t x, exec (.blkElement c) s = .next t ∧ (co t c).exc = some x ∧ x.entry = f.1 ∧ x.code = f.2 ∧
      (co t c).g = (co w.1 c).g ∧ (co t c).p = (co w.1 c).p)

/-- VFIRB_GROUP: one group of outputs of the filter is stored at the output pointer: each is the extracted sum of products of the samples
and coefficients read; the sample and output pointers advance by 8 words and the count goes down by the outputs of the group; the flags
of the outputs are set in CO_MSTAT. -/
def Clause.AVfirbGroupIsStored : Prop :=
  ∀ (s : State) (c : Nat) (l : LongOp), c < 76 → (co s c).long = some l → l.kind = 2 → inLong s c (co s c) = true →
    let k := co s c
    let gc := rdG k l.gc
    let m := b2n (rbit gc 31)
    let t0 := rfld gc 0 15
    let w := laneW m
    let ln := if m = 1 then 8 else 4
    let x := longLines c (rdP k l.ra).toNat (cdiv ((t0 + ln) * w) 128) s #[]
    let h := longLines c (rdP k l.rb).toNat (cdiv (t0 * w) 128) x.1 #[]
    let ys := (upto ln).map (fun i => vfirbOut m (b2n (rbit gc 30)) (rfld gc 23 7) t0 i (lineSample w x.2.2) (lineSample w h.2.2))
    let num := (upto ln).foldl (fun r i => r + (ys.getD i (0, 0)).1 % 2 ^ w * 2 ^ (w * i)) 0
    let o := longAccess h.1 c .store (rdP k l.ry).toNat 8 num
    (x.2.1 = none → h.2.1 = none → o.2.1 = none → l.ra ≠ l.ry →
      ∃ t, exec (.vfirbGroup c) s = .next t ∧ t = { o.1 with coaches := t.coaches } ∧ (∀ d, d ≠ c → co t d = co o.1 d) ∧
        rdG (co t c) l.gn = rdG (co o.1 c) l.gn - n32 ln ∧ rdP (co t c) l.ra = rdP (co o.1 c) l.ra + 8 ∧ rdP (co t c) l.ry = rdP (co o.1 c) l.ry + 8 ∧
        rdCo (co t c) 0x200 = rdCo (co o.1 c) 0x200 ||| n32 (ys.foldl (fun r y => r ||| y.2) 0) ∧
        (co t c).cyc = (co o.1 c).cyc + (if isLead c then t0 / 2 + 2 else t0 / 4 + 1) ∧ (co t c).acc = (co o.1 c).acc) ∧
    (∀ f, x.2.1 = some f → ∃ t q, exec (.vfirbGroup c) s = .next t ∧ (co t c).exc = some q ∧ q.entry = f.1 ∧ q.code = f.2.1 ∧
      (co t c).g = (co x.1 c).g ∧ (co t c).p = (co x.1 c).p)

/-- `Clause.ABlockElementMoves` and `Clause.AVfirbGroupIsStored`, both of them.
Where the spec is read by inference or leaves a choice, it is the model's: log entry 23. -/
def Obligations.LongOperationsAdvance : Prop := Clause.ABlockElementMoves ∧ Clause.AVfirbGroupIsStored

/-- FETCH_DECODE: the fetch unit decodes the bundle at the pc once it can be fetched; without prediction it touches no counter and no
return stack. While a bubble cycle is left it decodes that cycle's bundle of the wrong path, what is due by it lands, and the bundle
to come is left. -/
def Clause.FetchDecodesAhead : Prop :=
  ∀ (s : State) (c : Nat), c < 76 → (co s c).run = .running → (co s c).ketch = false →
    ((co s c).wrong = none → isRunning (co s c) = true → (co s c).decoded = none → (bundleAt s c (co s c).pc.toNat).fetched = true →
      ∃ t, exec (.fetchDecode c) s = .next t ∧ OnlyCoach c s t ∧ (∃ d, (co t c).decoded = some d ∧ d.addr = (co s c).pc ∧ d.on = !predOff (co s c)) ∧
        rdCo (co t c) 0x602 = rdCo (co s c) 0x602 + 1 ∧ (co t c).g = (co s c).g ∧ (co t c).pc = (co s c).pc ∧
        (predOff (co s c) = true → (co t c).counters = (co s c).counters ∧ (co t c).rs = (co s c).rs ∧ (co t c).rsTop = (co s c).rsTop)) ∧
    (∀ w, (co s c).wrong = some w → ∃ t, exec (.fetchDecode c) s = .next t ∧ OnlyCoach c s t ∧ (co t c).pc = (co s c).pc ∧
      (co t c).decoded = (co s c).decoded ∧ (∀ p ∈ (co t c).pend, p ∈ (co s c).pend) ∧ (co t c).cyc = (co s c).cyc ∧ ((co t c).wrong = none ∨ ∃ x, (co t c).wrong = some x ∧ x.left < w.left))

/-! ### Exceptions and events (chapter 07) -/

/-- EVENT_TAKEN, HOLD_OVERRUN and SUBNORMAL_TRAP raise the exception of the event that comes first: an interrupt input, an imprecise
exception with its code, or a budget overrun; entry 12 with OVHOLD and the elapsed count; entry 11 with the slots that trap. What is due
lands before; an event drains the coach, which first completes the elements that a block move has loaded.
Where the spec is read by inference or leaves a choice, it is the model's: log entries 16, 89. -/
def Obligations.EventsRaiseTheirException : Prop :=
  ∀ (s : State) (c : Nat), c < 76 → coachPresent s c = true → (co s c).run = .running → (co s c).access = [] → (co s c).after = none → (co s c).exc = none →
    let k := landNow s c (co s c)
    let u := blkFlush (setCo s c k) c
    let d := drain u c (stopLong (co u c))
    (∀ e, preciseReq k = none → trapDue k = false → eventDue s c k = some e → e ≠ 12 → (co u c).exc = none → eventDue u c (co u c) = some e →
      (e ≠ 100 → ∃ t x, exec (.eventTaken c) s = .next t ∧ OnlyCoach c u t ∧ (co t c).exc = some x ∧ x.entry = e ∧
        x.pc = d.pc ∧ (co t c).pc = d.pc ∧ (co t c).g = d.g ∧ (co t c).pend = d.pend ∧ (e = 9 → x.code = rfld (rdCo d 0x412) 8 8 ∧ x.apc = rdCo d 0x410)) ∧
      (e = 100 → ∃ t, exec (.eventTaken c) s = .next t ∧ OnlyCoach c u t ∧ (co t c).run = .stopped ∧ (co t c).job = none ∧
        (co t c).frames = [] ∧ (co t c).pend = [] ∧ (co t c).stopDue = false)) ∧
    (k.long = none → u = setCo s c k) ∧
    (∀ b, holdOver k = true → k.holdStart = some b → ∃ t x, exec (.holdOverrun c) s = .next t ∧ OnlyCoach c s t ∧ (co t c).exc = some x ∧ x.entry = 12 ∧
      coB (co t c) 0x002 10 = true ∧ (rdCo (co t c) 0x006).toNat = Nat.max (rdCo k 0x006).toNat (Nat.min (k.cycles - b) 65535) ∧
      (co t c).holdStart = none ∧ (co t c).g = k.g ∧ (co t c).pend = k.pend) ∧
    (let w := if isPrecise (co s c) then issueTrapWait s c (co s c) else k
     ∀ r, (co s c).long = none → trapReq (co s c) ≠ none → trapDue w = true → trapReq w = some r → ∃ t, exec (.subnormalTrap c) s = .next t ∧ OnlyCoach c s t ∧
      (co t c).exc = some r ∧ r.entry = 11 ∧ (co t c).g = w.g ∧ (co t c).v = w.v ∧ (co t c).acc = w.acc ∧ ∀ p ∈ (co t c).pend, p ∈ w.pend)

/-- The coach and the state in which the raised exception `r` is entered: everything issued has landed, an interrupt's budget hold
begins, and a synchronous exception inside a hold run spoils the job's output. -/
def entryCoach (s : State) (c : Nat) : Coach := { drain s c (co s c) with exc := none }
def entryState (s : State) (c : Nat) (r : ExcReq) : State := setCo (setCo s c (entryCoach s c)) c (spoilBy (holdBudget (entryCoach s c) r) r)
/-- The raised exception is the one to enter: it cannot be raised again, or the drain leaves neither a subnormal trap nor a precise
exception. -/
def entersNow (s : State) (c : Nat) (r : ExcReq) : Prop :=
  raisedOnce r = true ∨ (trapReq (entryCoach s c) = none ∧ preciseReq (entryCoach s c) = none)
/-- EXCEPTION_ENTRY: the exception stack pointer goes down by 16, the frame is pushed, the coach rises to supervisor level, RESUME is
cleared, EXC_APC, EXC_CAUSE and the detail registers take the exception, and the pc goes to the handler that the vector table names. -/
def Clause.ExceptionEntry : Prop :=
  ∀ (s : State) (c : Nat) (r : ExcReq), c < 76 → (co s c).exc = some r → (co s c).access = [] →
    let u := entryState s c r
    let esp := frameBelow (rdCo (co u c) 0x402)
    let p := pushFrame u c esp (frameVals (co u c) r 0)
    let v := vectorOf p.1 c r.entry
    entersNow s c r → (coB (co u c) 0x40C 2 = false ∨ 32 ≤ r.entry) → pushOk u c esp = true → p.2 = 0 → v.2.2 = 0 →
    ∃ t, exec (.exceptionEntry c) s = .next t ∧ t = { v.1 with coaches := t.coaches } ∧ (∀ d, d ≠ c → co t d = co v.1 d) ∧
      (co t c).exc = none ∧ (co t c).run = .running ∧ (co t c).pc = n32 v.2.1 ∧ rdCo (co t c) 0x402 = n32 esp ∧ isSup (co t c) = true ∧
      coB (co t c) 0x002 7 = false ∧ rdCo (co t c) 0x404 = r.apc ∧ rdCo (co t c) 0x406 = causeWord r 0 ∧ rdCo (co t c) 0x408 = detail0 r ∧
      rdCo (co t c) 0x40A = r.detail1 ∧ (co t c).g = (co v.1 c).g ∧ (co t c).p = (co v.1 c).p ∧ (co t c).n = (co v.1 c).n ∧ (co t c).v = (co v.1 c).v ∧
      (co t c).acc = (co v.1 c).acc ∧ rdCo (co t c) 0x320 = rdCo (co v.1 c) 0x320 ∧ rdCo (co t c) 0x000 = rdCo (co v.1 c) 0x000 ∧
      (r.entry ≠ 9 → coB (co t c) 0x002 6 = coB (co v.1 c) 0x002 6) ∧
      (co t c).cyc = (co v.1 c).cyc + 9 ∧ (co t c).handlers = (co v.1 c).handlers + 1 ∧ (co t c).bound = .none

/-- An entry with DF set, but an interrupt's, and an entry whose frame cannot be pushed, end in HALTED-FAULT: the coach stops, and the
halts since power-up count up. -/
def Clause.AFailedEntryHalts : Prop :=
  ∀ (s : State) (c : Nat) (r : ExcReq), c < 76 → (co s c).exc = some r → (co s c).access = [] →
    let u := entryState s c r
    entersNow s c r → ((coB (co u c) 0x40C 2 = true ∧ r.entry < 32) ∨ pushOk u c (frameBelow (rdCo (co u c) 0x402)) = false) →
    ∃ t, exec (.exceptionEntry c) s = .next t ∧ (co t c).run = .halted ∧ (co t c).exc = none ∧ (co t c).long = none ∧
      (co t c).haltCount = incSat 16 (co u c).haltCount ∧ (co t c).g = (co u c).g

/-- `Clause.ExceptionEntry` and `Clause.AFailedEntryHalts`, both of them.
Where the spec is read by inference or leaves a choice, it is the model's: log entries 23, 81. -/
def Obligations.ExceptionsAreEntered : Prop := Clause.ExceptionEntry ∧ Clause.AFailedEntryHalts

/-- HOLD_MAX_READ returns CO_HOLD_MAX and clears it; HEARTBEAT_STORE counts a running coach's CO_HEARTBEAT up by 1 whatever is stored;
a coach that does not run stores nothing, and a fenced slot's store is ignored and counted. -/
def Clause.HoldMaxAndHeartbeat : Prop :=
  ∀ (s : State) (c : Nat), c < 76 → coachPresent s c = true →
    (∃ t, exec (.holdMaxRead c) s = .next t ∧ t.answer = rdCo (co s c) 0x006 ∧ rdCo (co t c) 0x006 = 0 ∧
      (∀ off, off ≠ 0x006 → rdCo (co t c) off = rdCo (co s c) off) ∧ (∀ d, d ≠ c → co t d = co s d) ∧ t = { s with answer := t.answer, coaches := t.coaches }) ∧
    ((co s c).run ≠ .running → slotSt s c ≠ 2 → exec (.heartbeatStore c) s = .next s) ∧
    (c < 72 → slotSt s c ≠ 2 → (co s c).run = .running → ∃ t, exec (.heartbeatStore c) s = .next t ∧ OnlyCoach c s t ∧ rdCo (co t c) 0x500 = rdCo (co s c) 0x500 + 1 ∧
      (∀ off, off ≠ 0x500 → rdCo (co t c) off = rdCo (co s c) off)) ∧
    (slotSt s c = 2 → exec (.heartbeatStore c) s = .next { s with carts := { s.carts with fencedStores := s.carts.fencedStores + 1 } })

/-- `Clause.FetchDecodesAhead` and `Clause.HoldMaxAndHeartbeat`, both of them.
Where the spec is read by inference or leaves a choice, it is the model's: log entry 22. -/
def Obligations.FetchAndCoachRegisters : Prop := Clause.FetchDecodesAhead ∧ Clause.HoldMaxAndHeartbeat

/-! ## Carts (chapter 09) -/

/-- Cart `v` is released: one job of it, with release number `k`, its release time and its deadline d(v) later, joins the queue of its
home `h`; the release is counted, the cart lives, and no other queue changes. -/
def Released (s t : State) (v k rel h : Nat) (plost : Bool) : Prop :=
  t = { s with carts := t.carts } ∧ cartLive t v = true ∧
  (queueOf t h).Perm ({ cart := v, k := k, rel := rel, deadline := rel + cartD s v, plost := plost, stolen := false, home := h, spoiled := false } :: queueOf s h) ∧
  (∀ n, n ≠ h → queueOf t n = queueOf s n) ∧ tget 0 t.carts.counts (8 * v) = tget 0 s.carts.counts (8 * v) + 1
/-- A release is skipped while a job of the cart lives: it is counted, its period is lost, and no queue changes. -/
def Skipped (s t : State) (v k : Nat) : Prop :=
  tget 0 t.carts.counts (8 * v + 5) = tget 0 s.carts.counts (8 * v + 5) + 1 ∧ jobReport t v k = some true ∧
  (∀ n, queueOf t n = queueOf s n) ∧ t = { s with carts := t.carts, bb := t.bb }

/-- TIME_RELEASE, HELD_RELEASE and GRAPH_RELEASE: the due release of a cart takes place, or is skipped while a job of the cart lives. -/
def Clause.ReleasesMakeJobs : Prop :=
  ∀ (s : State) (v : Nat) (tt : Timetable) (c : Cart), v < 4096 → s.carts.table = some tt → tt.carts[v]? = some c → releasing s = true →
    (let k := tget 0 s.carts.nextK v
     let rel := tt.start + c.offset + k * c.period
     c.rsrc = 0 → c.pred = 0 → rel ≤ ticks s →
       ∃ t, exec (.timeRelease v) s = .next t ∧ tget 0 t.carts.nextK v = k + 1 ∧
         (cartLive s v = true → Skipped s t v k) ∧ (∀ h, cartLive s v = false → cartHome s v = some h → Released s t v k rel h false)) ∧
    (let n := tget 0 s.carts.heldRel v
     n ≠ 0 → admPassed s v (c.rsrc - 4) c.period = true →
       ∃ t, exec (.heldRelease v) s = .next t ∧ tget 0 t.carts.heldRel v = 0 ∧
         (cartLive s v = true → c.pred = 0 → Skipped s t v ((n - 1 - c.offset) / c.period)) ∧
         (∀ h, cartLive s v = false → cartHome s v = some h → Released s t v ((n - 1 - c.offset) / c.period) (ticks s) h false)) ∧
    (∀ g, s.carts.graph.find? (fun g => g.cart = v && g.left = 0 && decide (g.at_ ≤ s.dtime)) = some g →
       ∃ t, exec (.graphRelease v) s = .next t ∧
         (∀ h, cartLive s v = false → cartHome s v = some h → Released s t v g.k g.rel h g.plost))

/-- JOB_WITHDRAWN: a waiting job whose deadline has passed leaves its queue; it is counted in DMISS, its period is lost, and its cart
may be released again. -/
def Clause.ALateWaitingJobIsWithdrawn : Prop :=
  ∀ (s : State) (v n : Nat) (j : Job), v < 4096 →
    (upto 64).find? (fun n => (queueOf s n).any (fun j => j.cart = v && decide (j.deadline * 10 < s.dtime))) = some n →
    (queueOf s n).find? (fun j => j.cart = v) = some j →
    ∃ t, exec (.jobWithdrawn v) s = .next t ∧ queueOf t n = (queueOf s n).filter (fun x => !(x = j)) ∧ (∀ m, m ≠ n → queueOf t m = queueOf s m) ∧
      cartLive t v = false ∧ tget 0 t.carts.counts (8 * v + 2) = tget 0 s.carts.counts (8 * v + 2) + 1 ∧ jobReport t v j.k = some true ∧
      t.coaches = s.coaches ∧ t.mem = s.mem

/-- `Clause.ReleasesMakeJobs` and `Clause.ALateWaitingJobIsWithdrawn`, both of them.
Where the spec is read by inference or leaves a choice, it is the model's: log entry 56. -/
def Obligations.ReleasesAndWithdrawals : Prop := Clause.ReleasesMakeJobs ∧ Clause.ALateWaitingJobIsWithdrawn

/-- Job `j` of cart `v` runs on coach `c` from its entry: its cart, release number, window and arguments are in their registers, the
context before it is saved, its budget counts, and a heartbeat is recorded. -/
def JobRuns (s t : State) (c : Nat) (j : Job) (v : Cart) : Prop :=
  (co t c).run = .running ∧ (co t c).job = some j ∧ (co t c).pc = n32 v.entry ∧ rdG (co t c) 0 = n32 j.cart ∧ rdG (co t c) 1 = n32 j.k ∧
  rdP (co t c) 0 = n32 (v.wbase * 64) ∧ rdP (co t c) 1 = v.arg0 ∧ rdP (co t c) 2 = v.arg1 ∧ (co t c).level = (co s c).level + 1 ∧
  (co t c).frames.length = (co s c).frames.length + 1 ∧ (co t c).exc = none ∧ (co t c).access = [] ∧
  (v.budget + 4 * v.nsh < 2 ^ 24 → coF (co t c) 0x506 0 24 = v.budget + 4 * v.nsh ∧ coB (co t c) 0x506 31 = true) ∧
  coF (co t c) 0x304 0 32 = 0 ∧ coF (co t c) 0x30C 0 32 = 0 ∧ coF (co t c) 0x314 0 32 = 0 ∧ isSup (co t c) = false

/-- JOB_START: the first job of the queue starts when the coach waits, or when it runs a job that the new one is ahead of, at a drain
point, with no handler entered and no other event due; the queue loses it and no other queue changes. -/
def Clause.TheFirstJobStarts : Prop :=
  ∀ (s : State) (c n : Nat) (j : Job) (q : List Job) (v : Cart), c < 72 → serving s c = some n → queueOf s n = j :: q → cartOf s j.cart = some v →
    let k := co s c
    (k.run = .waiting ∨ (k.run = .running ∧ (∃ r, k.job = some r ∧ ahead s j r = true) ∧ atDrainPt k = true ∧ k.handlers = 0 ∧
      k.pend.all (fun p => p.trap = 0) = true ∧ k.precise = none ∧ k.cdone = none)) → eventDue s c k = none → k.handed = true → releasing s = true → k.level < 16 →
    ∃ t, exec (.jobStart c) s = .next t ∧ JobRuns s t c j v ∧ queueOf t n = q ∧ (∀ m, m ≠ n → queueOf t m = queueOf s m) ∧ OthersWait c s t

/-- The running job `j` of coach `c` has ended: counted as ended, the coach waits or takes up the context that it had left. -/
def JobOver (s t : State) (c n : Nat) (j : Job) : Prop :=
  tget 0 t.carts.counts (8 * j.cart + 1) = tget 0 s.carts.counts (8 * j.cart + 1) + 1 ∧
  ((co s c).frames = [] → (co t c).run = .waiting ∧ (co t c).lastBeat = s.dtime ∧ (co t c).job = none ∧ (co t c).level = 0 ∧ rdCo (co t c) 0x402 = (co s c).espStart ∧
    coB (co t c) 0x506 31 = false ∧ (co t c).handlers = 0) ∧
  (∀ f r, (co s c).frames = f :: r → queueOf s n = [] → (∀ tt, s.carts.table = some tt → succsAt tt j.cart = []) →
    (co t c).pc = f.pc ∧ (co t c).g = f.g ∧ (co t c).p = f.p ∧ (co t c).n = f.n ∧ (co t c).v = f.v ∧ (co t c).acc = f.acc ∧ (co t c).job = f.job ∧
    (co t c).frames = r ∧ (co t c).lastBeat = s.dtime ∧ (co t c).level = (co s c).level - 1 ∧ cartLive t j.cart = false) ∧
  (∀ d, d ≠ c → co t d = co s d)
/-- JOB_END and GRACE_EXPIRED: the job is counted as ended, the exception stack pointer stands as at its start and a heartbeat is
recorded; with no saved context the coach waits; with one, no job waiting and no successor, the saved context goes on where it was. -/
def Clause.JobsEnd : Prop :=
  ∀ (s : State) (c n : Nat) (j : Job), c < 72 → (co s c).job = some j → (co s c).run = .running →
    (serving s c = some n → (co s c).cdone ≠ none → ∃ t, exec (.jobEnd c) s = .next t ∧ JobOver s t c n j) ∧
    (logicalOf s c = some n → coB (co s c) 0x504 29 = true → coF (co s c) 0x506 0 24 = 0 → (co s c).access = [] → (co s c).after = none →
      atDrainPt (co s c) = true → (co s c).stopDue = false → ∃ t, exec (.graceExpired c) s = .next t ∧ JobOver s t c n j)

/-- `Clause.TheFirstJobStarts` and `Clause.JobsEnd`, both of them.
Where the spec is read by inference or leaves a choice, it is the model's: log entries 11, 24. -/
def Obligations.JobsStartAndEnd : Prop := Clause.TheFirstJobStarts ∧ Clause.JobsEnd

/-- BUDGET_OVERRUN: the timer has reached 0: OVR is set, the timer counts the grace, the overrun is counted and entry 14 falls due. -/
def Clause.ABudgetOverruns : Prop :=
  ∀ (s : State) (c : Nat) (j : Job), c < 72 → (co s c).job = some j → coB (co s c) 0x506 31 = true → coF (co s c) 0x506 0 24 = 0 →
    coB (co s c) 0x504 29 = false →
    ∃ t, exec (.budgetOverrun c) s = .next t ∧ coB (co t c) 0x504 29 = true ∧ coF (co t c) 0x506 0 24 = coF (co s c) 0x508 0 12 ∧
      (co t c).budgetDue = true ∧ tget 0 t.carts.counts (8 * j.cart + 3) = tget 0 s.carts.counts (8 * j.cart + 3) + 1 ∧
      (co t c).g = (co s c).g ∧ (co t c).pc = (co s c).pc ∧ (∀ d, d ≠ c → co t d = co s d) ∧ t.mem = s.mem

/-- HANDOVER_WAIT and WAIT_HEARTBEAT: the coach hands over and waits at the bundle after its store, and comes into service with its
first handover; a beat of the wait every 250 µs. -/
def Clause.TheHandoverWait : Prop :=
  ∀ (s : State) (c : Nat), c < 72 →
    let k := co s c
    (∀ n, k.run = .running → k.job = none → k.cdone ≠ none → k.access = [] → k.after = none → k.exc = none → k.stopDue = false → k.level = 0 →
      logicalOf s c = some n →
      ∃ t, exec (.handoverWait c) s = .next t ∧ (co t c).run = .waiting ∧ (co t c).pc = (drain s c k).cdonePc ∧ (co t c).handed = true ∧ (co t c).cdone = none ∧
        (co t c).lastBeat = s.dtime ∧ (co t c).g = (drain s c k).g ∧ (∀ d, d ≠ c → co t d = co s d) ∧
        (k.handed = false → (drain s c k).handed = false → (logi s n).lstate = 3 → (logi t n).lstate = 0)) ∧
    (k.run = .waiting → k.lastBeat + 250000 ≤ s.dtime →
      ∃ t, exec (.waitHeartbeat c) s = .next t ∧ OnlyCoach c s t ∧ rdCo (co t c) 0x500 = rdCo k 0x500 + 1 ∧ (co t c).lastBeat = k.lastBeat + 250000 ∧
        (co t c).g = k.g ∧ (∀ off, off ≠ 0x500 → rdCo (co t c) off = rdCo k off))

/-- `Clause.ABudgetOverruns` and `Clause.TheHandoverWait`, both of them.
Where the spec is read by inference or leaves a choice, it is the model's: log entry 25. -/
def Obligations.BudgetsAndTheHandoverWait : Prop := Clause.ABudgetOverruns ∧ Clause.TheHandoverWait

/-- The state in which a coach that starts reads its vector table. -/
def startedState (s : State) (c : Nat) : State :=
  let u := discardJobs (copyCrash s c) c
  let w := setCo (dropReqs u c) c { restartCoach (co u c) with run := .running }
  match haltSource c with | some n => setLevel w n false | none => w
/-- COACH_START: a coach whose domain is on, that no withdrawal has stopped and no second halt keeps, starts at supervisor level with its registers at reset, its jobs discarded and its counts
kept, at the address that entry 0 of the vector table gives. -/
def Clause.ACoachStarts : Prop :=
  ∀ (s : State) (c : Nat), c < 76 → coachPresent s c = true → domOn s c = true → slotSt s c ≠ 2 →
    (co s c).run ≠ .stopped → (co s c).stopDue = false → (co s c).dead = false →
    let v := vectorOf (startedState s c) c 0
    v.2.2 = 0 → ∃ t, exec (.coachStart c) s = .next t ∧ (co t c).run = .running ∧ (co t c).pc = n32 v.2.1 ∧ (co t c).g = [] ∧ (co t c).p = [] ∧
      (co t c).n = [] ∧ (co t c).v = [] ∧ (co t c).acc = [] ∧ (co t c).job = none ∧ (co t c).frames = [] ∧ (co t c).exc = none ∧ isSup (co t c) = true ∧
      (co t c).pend = [] ∧ (co t c).haltCount = (co s c).haltCount ∧ (co t c).handed = false

/-- HITCH_SEARCH and CROSS_CLUSTER_SEARCH: an idle coach takes the first job that it may take, of its own cluster or, after that, of
another cluster; the job leaves its home's queue, is marked stolen and starts; both coaches count it. -/
def Clause.AnIdleCoachTakesAJob : Prop :=
  ∀ (s : State) (n c h : Nat) (j : Job) (v : Cart), n < 64 → thiefOf s n = some c → cartOf s j.cart = some v →
    let l := logi s n
    let own := pickSteal s n (ownCluster s n) false
    let Taken (t : State) : Prop := JobRuns s t c { j with stolen := true } v ∧ queueOf t h = (queueOf s h).filter (fun x => !(x = j)) ∧
      (∀ m, m ≠ h → queueOf t m = queueOf s m) ∧ (logi t n).stealsIn = incSat 32 l.stealsIn ∧ (logi t h).stealsOut = incSat 32 (logi s h).stealsOut ∧
      tget 0 t.carts.counts (8 * j.cart + 4) = tget 0 s.carts.counts (8 * j.cart + 4) + 1
    (own = some (h, j) → ∃ t, exec (.hitchSearch n) s = .next t ∧ Taken t) ∧
    (regB s (clDctl (n / 8)) 8 = true → 1024 * 1000 ≤ (s.dtime - l.lastCross) * clusterMHz s (n / 8) →
      (own = some (h, j) → ∃ t, exec (.crossClusterSearch n) s = .next t ∧ Taken t) ∧
      (own = none → pickSteal (setLogi s n { l with lastCross := s.dtime }) n (farClusters s n) true = some (h, j) →
        ∃ t, exec (.crossClusterSearch n) s = .next t ∧ Taken t ∧ (logi t n).lastCross = s.dtime))

/-- HEARTBEAT_SAMPLE: for every logical coach in service a count that has changed is noted with its time; one that has stood for 1 ms
puts the coach into OUTAGE; the others stay as they were. -/
def Clause.HeartbeatsAreSampled : Prop :=
  ∀ s : State, ∃ t, exec .heartbeatSample s = .next t ∧ t.coaches = s.coaches ∧ t.dtime = s.dtime ∧ t.mem = s.mem ∧
    ∀ n c, n < s.variant.coaches → slotOf s n = some c → (logi s n).lstate = 0 → (co s c).run ≠ .stopped → (co s c).run ≠ .off →
      let x := rdCo (co s c) 0x500
      let fresh := (co s c).handed = true ∧ x ≠ (logi s n).lastCount
      (fresh → (logi t n).lastCount = x ∧ (logi t n).lastChange = s.dtime ∧ (logi t n).lstate = 0) ∧
      (¬ fresh → (logi s n).lastChange + 1000000 ≤ s.dtime → (logi t n).lstate = 1) ∧
      (¬ fresh → s.dtime < (logi s n).lastChange + 1000000 → logi t n = logi s n)

/-- `Clause.ACoachStarts`, `Clause.AnIdleCoachTakesAJob`, `Clause.HeartbeatsAreSampled`, all of them.
Where the spec is read by inference or leaves a choice, it is the model's: log entry 58. -/
def Obligations.CoachesStartIdleAndBeat : Prop := Clause.ACoachStarts ∧ Clause.AnIdleCoachTakesAJob ∧ Clause.HeartbeatsAreSampled

/-! ## Failover, admission, the entry to RUN (chapter 09) -/

/-- FAILOVER of a coach in OUTAGE: the slot that failed is fenced; a spare of the cluster that starts takes the coach over, in service
again, and the outage is noted; without one, or with the epoch at its end, the coach is LOST and no slot serves it. -/
def Clause.FailoverFencesAndMaps : Prop :=
  ∀ (s : State) (n f : Nat) (off ok : Bool) (us : Nat), n < s.variant.coaches → n < 64 → (logi s n).lstate = 1 → (logi s n).slot = f → f < 72 → slotSt s f = 0 →
    (∀ c, (logi s n).epoch < 0xFFFF → spareOf s n = some c → ok = true →
      ∃ t, exec (.failover n off ok us) s = .next t ∧ (logi t n).lstate = 0 ∧ (logi t n).slot = c ∧ (logi t n).lastOutage = us % 2 ^ 32 ∧
        (logi t n).epoch = (logi s n).epoch + 1 ∧ slotSt t f = 2 ∧ slotSt t c = 0) ∧
    (((logi s n).epoch ≥ 0xFFFF ∨ spareOf s n = none) →
      ∃ t, exec (.failover n off ok us) s = .next t ∧ (logi t n).lstate = 2 ∧ (logi t n).slot = 255 ∧ slotOf t n = none ∧ slotSt t f = 2 ∧
        (s.dev = 4 → t.dev = 5) ∧ (s.dev ≠ 4 → t.dev = s.dev)) ∧
    (∀ c, (logi s n).epoch < 0xFFFF → spareOf s n = some c → ok = false →
      ∃ t, exec (.failover n off ok us) s = .next t ∧ (logi t n).lstate = 2 ∧ (logi t n).slot = 255 ∧ slotSt t f = 2 ∧ slotSt t c = 2)

/-- RECOMMISSION ends with its result; a slot that failed its march stays as it was, with its domain off. -/
def Clause.RecommissionEnds : Prop :=
  ∀ (s : State) (c : Nat), c < 72 → s.carts.recomSlot = some c →
    (∃ t, exec (.recommission false) s = .next t ∧ t.carts.recomSlot = none ∧ t.carts.recomResult = 2 ∧ slotSt t c = slotSt s c ∧ t.dev = s.dev ∧
      (domPresent s.variant c = true → domState t c = 0) ∧ t.carts.logical = s.carts.logical) ∧
    ((∀ n, n < s.variant.coaches → n / 8 = c / 9 → (logi s n).lstate ≠ 2) →
      ∃ t, exec (.recommission true) s = .next t ∧ t.carts.recomSlot = none ∧ t.carts.recomResult = 1 ∧ slotSt t c = 1 ∧ t.dev = s.dev ∧
        t.carts.logical = s.carts.logical)

/-- `Clause.FailoverFencesAndMaps` and `Clause.RecommissionEnds`, both of them.
Where the spec is read by inference or leaves a choice, it is the model's: log entry 57. -/
def Obligations.FailoverAndRecommission : Prop := Clause.FailoverFencesAndMaps ∧ Clause.RecommissionEnds

/-- The first failure of an admission of the image written, and its splits. -/
def admitSplits (s : State) (epoch : Nat) : Option AdmFail × Table Nat :=
  let l := s.carts.image
  let t := parseImage l
  let first := orF (if imageSized l then absentFail s t else none) (formFail s l t epoch)
  (first, if first.isSome then [] else splitWindows s t)
def admitFailure (s : State) (epoch : Nat) : Option AdmFail :=
  let x := admitSplits s epoch
  match (match x.1 with | some e => (some e, []) | none => coachesGo s (parseImage s.carts.image) x.2 (upto s.variant.coaches) []).1 with
  | some e => some e
  | none => streamFail s (parseImage s.carts.image) x.2
/-- The state that ADMIT checks: a change of a cluster clock that waited for its voltage has been made. -/
def admitState (s : State) : State := (upto 8).foldl landClock s
/-- ADMIT: a timetable that passes every check is taken in whole, with its windows, and its coaches start; one that fails leaves the
admitted timetable and names the first failure. -/
def Clause.AdmissionIsWholeOrNothing : Prop :=
  ∀ (s : State) (epoch : Nat) (who : Transport), s.fpp.long = some (0x4000 * 256 + 2, epoch, who) → s.dev = 3 → s.carts.starting = false →
    (∀ e, admitFailure (admitState s) epoch = some e →
      ∃ t, exec .admitTable s = .next t ∧ t.carts.outcome = 2 ∧ t.carts.reason = e.reason ∧ t.carts.reasonCart = e.cart ∧ t.carts.reasonCoach = e.coach ∧
        t.carts.table = s.carts.table ∧ t.carts.windows = s.carts.windows ∧ t.carts.queues = s.carts.queues ∧ t.fpp.long = none ∧
        t = { admitState s with carts := t.carts, fpp := t.fpp }) ∧
    (admitFailure (admitState s) epoch = none →
      ∃ t, exec .admitTable s = .next t ∧ t.carts.table = some (parseImage s.carts.image) ∧ t.carts.windows = (admitSplits (admitState s) epoch).2 ∧ t.carts.starting = true ∧
        t.carts.outcome = 1 ∧ t.carts.queues = [] ∧ t.dev = 3)

/-- ADMIT_RUN_ENTRY: once every coach of the admitted timetable has handed over the device enters RUN, or DEGRADED while a unit is lost,
and every TIME root is set to its first release that has not passed. -/
def Clause.RunIsEnteredOnceAllHaveHandedOver : Prop :=
  ∀ (s : State) (tt : Timetable), s.carts.table = some tt → s.carts.starting = true → s.dev = 3 →
    (∀ e ∈ namedSlots s tt, (co s e.2).handed = true) →
    ∃ t, exec .admitRunEntry s = .next t ∧ t.carts.starting = false ∧ t.dev = (if unitLost s then 5 else 4) ∧ t.carts.table = some tt ∧
      t.coaches = s.coaches ∧ t.mem = s.mem ∧
      ∀ v c, v < tt.carts.length → tt.carts[v]? = some c → c.rsrc = 0 → tget 0 t.carts.nextK v = firstK s tt c

/-- `Clause.AdmissionIsWholeOrNothing` and `Clause.RunIsEnteredOnceAllHaveHandedOver`, both of them.
Where the spec is read by inference or leaves a choice, it is the model's: log entries 54, 55. -/
def Obligations.AdmissionAndTheEntryToRun : Prop := Clause.AdmissionIsWholeOrNothing ∧ Clause.RunIsEnteredOnceAllHaveHandedOver

/-! ## Interrupts and timers (chapter 14) -/

/-- SOURCE_EVENT, an event of source `n`: what Table 2 of chapter 14 does with it. -/
def Clause.SourceEvents : Prop :=
  ∀ (s : State) (n : Nat), n < 256 → srcPresent s.variant n = true → srcEn s n = true →
    ∃ t, exec (.sourceEvent n true) s = .next t ∧ t = { s with regs := t.regs, intc := t.intc } ∧ (∀ a, a ≠ icScnt n → reg t a = reg s a) ∧
      (srcState s n = 0 → regF s (icScfg n) 16 8 = 1 ∨ regF s (icScfg n) 0 16 = 0 → srcState t n = 2 ∧ srcCount t n = 1) ∧
      (srcState s n = 0 → regF s (icScfg n) 16 8 ≠ 1 → regF s (icScfg n) 0 16 ≠ 0 → srcState t n = 1 ∧ srcCount t n = 1 ∧ tget 0 t.intc.gather n = s.now) ∧
      (srcState s n = 1 → srcCount t n = incSat 8 (srcCount s n) ∧ srcState t n = if incSat 8 (srcCount s n) ≥ regF s (icScfg n) 16 8 then 2 else 1) ∧
      (srcState s n = 2 → srcState t n = 2 ∧ srcCount t n = incSat 8 (srcCount s n))

/-- IC_SWSET is one event of the named software source; a disabled source takes none; and a signal of another source makes an event
where its SENSE says so. -/
def Clause.SignalsAndSoftwareEvents : Prop :=
  ∀ (s : State) (m n : Nat) (v : W32) (b : Bool), masterOk m = true → n < 2048 →
    exec (.icSwset m v) s = .next (srcEvent s (rfld v 0 8)) ∧
    (srcEn s n = false → srcEvent s n = s) ∧
    (256 ≤ n → srcPresent s.variant n = true → srcSignal s n ≠ b → ∃ t, exec (.sourceEvent n b) s = .next t ∧ srcSignal t n = b ∧
      (∀ k, k ≠ n → srcSignal t k = srcSignal s k) ∧ t = { s with regs := t.regs, intc := t.intc }) ∧
    (256 ≤ n → srcPresent s.variant n = true → srcSignal s n = b → exec (.sourceEvent n b) s = .next s)

/-- `Clause.SourceEvents` and `Clause.SignalsAndSoftwareEvents`, both of them.
Where the spec is read by inference or leaves a choice, it is the model's: log entry 53. -/
def Obligations.EventsOfSources : Prop := Clause.SourceEvents ∧ Clause.SignalsAndSoftwareEvents

/-- GATHER_TIMEOUT, IC_COMP and SOURCE_DISABLE: a gather whose time has passed ends ACTIVE; a completion by the processor that the source
is aimed at, or by L0, makes it IDLE with its count at 0; a bad completion changes no source and is counted with what it named; a store
by the holder of the source's claim that clears EN makes it IDLE. -/
def Obligations.GathersAndCompletions : Prop :=
  ∀ (s : State) (m n : Nat) (v : W32), masterOk m = true → n < 2048 →
    (srcState s n = 1 → tget 0 s.intc.gather n + 1000 * regF s (icScfg n) 0 16 ≤ s.now →
      ∃ t, exec (.gatherTimeout n) s = .next t ∧ srcState t n = 2 ∧ srcCount t n = srcCount s n ∧ OnlyRegs [icScnt n] s t) ∧
    (rfld v 0 11 = n → srcState s n = 2 → m = 72 ∨ aimedAt s m n = true → n < 256 →
      ∃ t, exec (.icComp m v) s = .next t ∧ srcState t n = 0 ∧ srcCount t n = 0 ∧ OnlyRegs [icScnt n] s t) ∧
    (srcState s (rfld v 0 11) ≠ 2 → (rfld v 0 11) ≠ 1080 → ∃ t, exec (.icComp m v) s = .next t ∧ reg t (icBase + 0x204) = reg s (icBase + 0x204) + 1 ∧
      reg t (icBase + 0x206) = n32 (m % 128 * 4096 + rfld v 0 11) ∧ srcState t (rfld v 0 11) = srcState s (rfld v 0 11)) ∧
    (srcEn s n = true → rbit v 31 = false → srcPresent s.variant n = true → ownsClaim s (icSclaim n) m = true →
      ∃ t, exec (.sourceDisable m n v) s = .next t ∧ srcState t n = 0 ∧ srcCount t n = 0)

/-- COUNTER_TICK and COUNTER_WRAP: a tick counts its counter up by 1; a wrap carries into the linked counter above it, and is lost and
counted where that counter is stopped. -/
def Clause.CountersTickAndCarry : Prop :=
  ∀ (s : State) (k : Nat), k < 64 → tmTickDue s k = true →
    (tmCount s k ≠ 0xFFFFFFFF → ∃ t, exec (.counterTick k) s = .next t ∧ tmCount t k = tmCount s k + 1 ∧ (∀ j, j ≠ k → tmCount t j = tmCount s j) ∧
      tget 0 t.timers.base k = tget 0 s.timers.base k + tmStride s k ∧ t = { s with regs := t.regs, intc := t.intc, timers := t.timers }) ∧
    (tmCount s k = 0xFFFFFFFF → ∃ t, exec (.counterWrap k) s = .next t ∧ tmCount t k = 0 ∧
      (tmLink s (k + 1) = true → tmRuns s (k + 1) = true → tmCount t (k + 1) = tmCount s (k + 1) + 1) ∧
      (tmLink s (k + 1) = true → tmRuns s (k + 1) = false → tmCount t (k + 1) = tmCount s (k + 1) ∧ regB t (tmLost (k + 1)) 16 = true ∧
        regF t (tmLost (k + 1)) 0 16 = incSat 16 (regF s (tmLost (k + 1)) 0 16)) ∧
      (tmLink s (k + 1) = false → ∀ j, j ≠ k → tmCount t j = tmCount s j))

/-- MATCH_EVENT evaluates the equality: 1 when the count equals the compare value and, with CMPX, the counter below equals too; a rise
with MEN = 1 pulses the counter's source, and nothing else of the timers changes. -/
def Clause.MatchesAreRises : Prop :=
  ∀ (s : State) (k : Nat), k < 64 →
    (tmEqual s k = true ↔ tmCount s k = reg s (tmCmp k) ∧ (k = 0 ∨ tmCmpx s k = false ∨ tmEqual s (k - 1) = true)) ∧
    ∃ t, exec (.matchEvent k) s = .next t ∧ tget 0 t.timers.equal k = b2n (tmEqual s k) ∧ t.timers.count = s.timers.count ∧
      ((tmEqual s k && tget 0 s.timers.equal k = 0 && tmMen s k) = true → ∃ u, t = pulse u (384 + k) ∧ u.regs = s.regs) ∧
      ((tmEqual s k && tget 0 s.timers.equal k = 0 && tmMen s k) = false → t = { s with timers := t.timers })

/-- `Clause.CountersTickAndCarry` and `Clause.MatchesAreRises`, both of them.
Where the spec is read by inference or leaves a choice, it is the model's: log entry 52. -/
def Obligations.CountersAndMatches : Prop := Clause.CountersTickAndCarry ∧ Clause.MatchesAreRises

/-- TM_CNT_STORE, TM_CNT_LOAD, TM_CMP_STORE, MEN_ENABLE: the count and image of a stopped counter take the store of its claim's holder;
any other store to the count changes nothing and is noted in TM_BSTAT; a load returns the count of a stopped counter and the image of a
running one, with STALE set. -/
def Clause.TimerRegisters : Prop :=
  ∀ (s : State) (m k : Nat) (v : W32), masterOk m = true → k < 64 →
    (ownsClaim s (tmClaim k) m = true → tmRuns s k = false →
      ∃ t, exec (.tmCntStore m k v) s = .next t ∧ tmCount t k = v ∧ tget 0 t.timers.image k = v ∧ ∀ j, j ≠ k → tmCount t j = tmCount s j) ∧
    (ownsClaim s (tmClaim k) m = false ∨ tmRuns s k = true → ∃ t, exec (.tmCntStore m k v) s = .next t ∧ regB t tmBstat 0 = true ∧
      t.timers = s.timers ∧ OnlyRegs [tmBstat] s t) ∧
    (tmRuns s k = false → exec (.tmCntLoad m k) s = .next { s with answer := tmCount s k }) ∧
    (tmRuns s k = true → ∃ t, exec (.tmCntLoad m k) s = .next t ∧ t.answer = tget 0 s.timers.image k ∧ regB t (tmStat k) 0 = true ∧ t.timers = s.timers) ∧
    (ownsClaim s (tmClaim k) m = true → ∃ t, exec (.tmCmpStore m k v) s = .next t ∧ reg t (tmCmp k) = v ∧ t.timers.count = s.timers.count) ∧
    (tmMen s k = false → ownsClaim s (tmClaim k) m = true → ∃ t, exec (.menEnable m k) s = .next t ∧ tmMen t k = true ∧ t.timers.count = s.timers.count ∧
      (tmIsLate s k = true → regB t (tmStat k) 1 = true))

/-- What a freeze by master `m` to the state `b` leaves: every counter selected and claimed runs or stands, its image taken; the others stay. -/
def Froze (s t : State) (m : Nat) (b : Bool) : Prop :=
  t.timers.count = s.timers.count ∧
  (∀ k, k < 64 → rbit (perM s (tmBase + 2 * (k / 32)) m) (k % 32) = true → ownsClaim s (tmClaim k) m = true → tmRuns t k = b ∧
    (tmRuns s k ≠ b → tget 0 t.timers.image k = tmCount s k)) ∧
  (∀ k, k < 64 → (rbit (perM s (tmBase + 2 * (k / 32)) m) (k % 32) = false ∨ ownsClaim s (tmClaim k) m = false) → tmRuns t k = tmRuns s k)
/-- FREEZE_START and FREEZE_STOP: every counter that the storing master has selected and whose claim it holds starts or stops with its
image taken; a selected counter of another holder changes nothing and is noted. -/
def Clause.FreezeStartsAndStops : Prop :=
  ∀ (s : State) (m : Nat), masterOk m = true →
    (∃ t, exec (.freezeStart m) s = .next t ∧ Froze s t m true) ∧ (∃ t, exec (.freezeStop m) s = .next t ∧ Froze s t m false)

/-- `Clause.TimerRegisters` and `Clause.FreezeStartsAndStops`, both of them. -/
def Obligations.TimerRegistersAndFreezes : Prop := Clause.TimerRegisters ∧ Clause.FreezeStartsAndStops

/-! ## Memories and stored-data protection (chapters 10 and 11) -/

/-- The light code: a line reads as it was written; one wrong bit of its data is corrected; the poison mark reads as poisoned. -/
def Clause.TheLightCodeCorrects : Prop :=
  ∀ x : Nat, x < 2 ^ 64 →
    (lightRead x (lightCheck x)).data = x ∧ (lightRead x (lightCheck x)).st = 0 ∧ (lightRead x (lightCheck x ^^^ 0x7F)).st = 2 ∧
    (∀ i, i < 64 → (lightRead (x ^^^ 2 ^ i) (lightCheck x)).data = x ∧ (lightRead (x ^^^ 2 ^ i) (lightCheck x)).st = 1) ∧
    (∀ i, i < 8 → (lightRead x (lightCheck x ^^^ 2 ^ i)).data = x ∧ (lightRead x (lightCheck x ^^^ 2 ^ i)).st = 1)

/-- A whole-line write of a line without an error: the line reads back what was written, no merge buffer holds a word of it any more, and
no other line's bits, check byte or merge-buffer entry changes. -/
def Clause.AWholeLineWriteReadsBack : Prop :=
  ∀ (s : State) (po lk data m m' need : Nat), (lineGet s lk).st = 0 → injLine s ≠ some lk →
    let o := bankAccess s po .store (4 * lk) 4 data m
    o.code = 0 ∧ lineBits o.st lk = data % 2 ^ 64 ∧ (lineGet o.st lk).st = 0 ∧ mergeFind o.st lk = none ∧
    readLine o.st lk need m' = { st := o.st, code := 0, data := data % 2 ^ 64 } ∧
    (∀ l, l ≠ lk → lineBits o.st l = lineBits s l ∧ lineCheck o.st l = lineCheck s l ∧ mergeFind o.st l = mergeFind s l)

/-- `Clause.TheLightCodeCorrects` and `Clause.AWholeLineWriteReadsBack`, both of them. -/
def Obligations.LinesReadBack : Prop := Clause.TheLightCodeCorrects ∧ Clause.AWholeLineWriteReadsBack

/-- A narrow write with room in its merge buffer: the words written stand in the entry of their line, the stored lines and their check
bytes stay, and so does every other line's entry. -/
def Clause.ANarrowWriteMerges : Prop :=
  ∀ (s : State) (lk i n data m : Nat) (b : Bool), i + n ≤ 4 → n ≤ 2 → 0 < n →
    let po := portKey (bankKeyOf (4 * lk)) b
    let o := bankAccess s po .store (4 * lk + i) n data m
    (mergeFind s lk ≠ none ∨ (mergeOf s po).length < 4) →
    o.code = 0 ∧ o.st.mem.data = s.mem.data ∧ o.st.mem.check = s.mem.check ∧ o.st.mem.parity = s.mem.parity ∧
    (∃ q e, mergeFind o.st lk = some (q, e) ∧
      (∀ w, i ≤ w → w < i + n → fld e.words (16 * w) 16 = fld data (16 * (w - i)) 16 ∧ bitN e.mask w = true) ∧
      (∀ w, w < 4 → ¬(i ≤ w ∧ w < i + n) → bitN e.mask w = (match mergeFind s lk with | some x => bitN x.2.mask w | none => false))) ∧
    (∀ l, l ≠ lk → bankKeyOf (4 * l) ≠ bankKeyOf (4 * lk) → mergeFind o.st l = mergeFind s l)

/-- A bank's port grants the request that comes first in its order: no waiting request ranks before it. -/
def Clause.ThePortGrantsTheFirst : Prop :=
  ∀ (s : State) (po : Nat) (r : BankReq), portPick s po = some r →
    r ∈ portReqs s po ∧ ∀ q ∈ portReqs s po, lexLt (reqRank s (po / 2 / 256 / 128) q) (reqRank s (po / 2 / 256 / 128) r) = false

/-- BANK_ARBITRATION: one bank cycle: the first request is granted and acts on its bank, every other is refused once more; while a page
of the bank is reconstructed or a march holds it, all are refused. -/
def Clause.OneBankCycle : Prop :=
  ∀ (s : State) (p : PortId), portOk p = true → bankExists s p.kind p.inst p.bank = true →
    let po := portOfId p
    let u := refuseOthers s po (portPick s po)
    ((s.mem.recon.any (fun r => r.bank = po / 2) || marchHolds s (po / 2)) = true →
      ∃ t, exec (.bankArbitration p) s = .next t ∧ portReqs t po = (portReqs s po).map (fun q => { q with refusals := q.refusals + 1 }) ∧
        t.coaches = s.coaches ∧ t.mem.data = s.mem.data) ∧
    (∀ r a kind inst off own, (s.mem.recon.any (fun r => r.bank = po / 2) || marchHolds s (po / 2)) = false →
      s.mem.writeBack.any (fun e => e.1 = po / 2) = false → portPick s po = some r → waiting u r.master r.ld = some a →
      route u r.master a.addr = .bank kind inst off own → (own = true ∨ epochOk u r.master a.addr a.n (needOf a.kind) = true) → bankUp u kind inst off = true →
      let o := bankAccess (noteRefused u r.master r.ld r.refusals) po a.kind (wordKey kind inst off) a.n a.data r.master
      o.code ≠ 99 →
      ∃ t, exec (.bankArbitration p) s = .next t ∧
        (co t r.master).access = (co s r.master).access.map (fun x => 
          if x.ld = r.ld && x.resp.isNone then { x with refused := r.refusals, resp := some { err := o.code, data := o.data } } else x) ∧
        (∀ d, d ≠ r.master → co t d = co s d) ∧ t.mem.data = o.st.mem.data ∧ t.mem.check = o.st.mem.check ∧
        portReqs t po = (portReqs o.st po).filter (fun q => !(q.master = r.master && q.ld = r.ld)))

/-- `Clause.ThePortGrantsTheFirst` and `Clause.OneBankCycle`, both of them.
Where the spec is read by inference or leaves a choice, it is the model's: log entry 15. -/
def Obligations.PortsGrantInOrder : Prop := Clause.ThePortGrantsTheFirst ∧ Clause.OneBankCycle

/-- WRITE_OUT: in a free cycle the entry whose turn it is goes to its line and leaves the buffer: a full entry gives the line its four
words; no other line changes. -/
def Clause.AnEntryIsWrittenOut : Prop :=
  ∀ (s : State) (p : PortId) (e : MergeEntry), portOk p = true → bankExists s p.kind p.inst p.bank = true →
    let po := portOfId p
    freeCycle s po = true →
    minBy (fun e => [if e.mask = 15 then 0 else 1, e.stamp]) ((mergeOf s po).filter (fun e => e.mask = 15 || entryIdle s po e)) = some e →
    (lineGet s e.line).st = 0 → mergeBad e = 0 → injLine s ≠ some e.line →
    ∃ t, exec (.writeOut p) s = .next t ∧ lineBits t e.line = mergeWords (lineBits s e.line) e ∧ (lineGet t e.line).st = 0 ∧
      (mergeOf t po) = (mergeOf s po).filter (fun x => x.line ≠ e.line) ∧ (∀ l, l ≠ e.line → lineBits t l = lineBits s l ∧ lineCheck t l = lineCheck s l) ∧
      t.coaches = s.coaches

/-- `Clause.ANarrowWriteMerges` and `Clause.AnEntryIsWrittenOut`, both of them.
Where the spec is read by inference or leaves a choice, it is the model's: log entries 44, 51. -/
def Obligations.NarrowWritesMergeAndLeave : Prop := Clause.ANarrowWriteMerges ∧ Clause.AnEntryIsWrittenOut

/-- CORRECTION_WRITE_BACK: a corrected line that waits is written back with its corrected bits, without an update of the page's parity,
and no other line changes. PAGE_RECONSTRUCTION: the page that waits is taken from its bank's list, and no other page changes
(of a CIM whose coach is admitted, the lines that stay lost are loaded again besides). -/
def Clause.CorrectionsAreWrittenBack : Prop :=
  ∀ (s : State) (kind inst bank : Nat), instOk kind inst = true → bank < 256 →
    let bk := bankKey kind inst bank
    (∀ e, s.mem.writeBack.find? (fun e => e.1 = bk) = some e → (lineGet s e.2).st = 1 → injLine s ≠ some e.2 →
      ∃ t, exec (.correctionWriteBack kind inst bank) s = .next t ∧ lineBits t e.2 = (lineGet s e.2).data % 2 ^ 64 ∧ (lineGet t e.2).st = 0 ∧
        t.mem.writeBack = s.mem.writeBack.filter (fun x => !(x = e)) ∧ t.mem.parity = s.mem.parity ∧ t.coaches = s.coaches ∧
        ∀ l, l ≠ e.2 → lineBits t l = lineBits s l ∧ lineCheck t l = lineCheck s l) ∧
    (∀ r, s.mem.recon.find? (fun r => r.bank = bk) = some r → r.req = none → (kind ≠ 1 ∨ s.carts.table = none) →
      ∃ t, exec (.pageReconstruction kind inst bank) s = .next t ∧ t.mem.recon = s.mem.recon.filter (fun x => !(x = r)) ∧ t.coaches = s.coaches ∧
        ∀ l, l / 64 ≠ r.page → lineBits t l = lineBits s l ∧ lineCheck t l = lineCheck s l)

/-- REMAP: a line corrected three times in a pass has its repair row moved to the next free spare, which is recommended for fusing,
and its count starts again; with no spare left the row is reported. -/
def Clause.RowsAreRemapped : Prop :=
  ∀ (s : State) (kind inst line : Nat), instOk kind inst = true →
    let lk := instKey kind inst * 2 ^ 30 + line
    let bk := bankKey kind inst (bankKeyOf (4 * lk) % 256)
    let row := rowOfLine lk
    s.mem.corr.any (fun e => e.line = lk && decide (e.count ≥ 3)) = true →
    (∀ n, nextSpare s kind bk = some n → ∃ t, exec (.remap kind inst line) s = .next t ∧ tget 0 t.mem.spares bk = n + 1 ∧
      tget 0 t.mem.rowMap (rowKey bk row) = n + 1 ∧ t.mem.corr.any (fun e => e.line = lk) = false ∧
      (s.mem.pendFix.length < 64 → t.mem.pendFix = s.mem.pendFix ++ [rowEntry kind inst (bankKeyOf (4 * lk) % 256) row n] ∧ t.mem.pendDirty = true) ∧
      (∀ l, (lineGet s l).st ≠ 1 → lineBits t l = lineBits s l)) ∧
    (nextSpare s kind bk = none → ∃ t, exec (.remap kind inst line) s = .next t ∧ t.mem.spares = s.mem.spares ∧ t.mem.rowMap = s.mem.rowMap ∧
      t.mem.data = s.mem.data ∧ tget 0 t.mem.spareSaid (rowKey bk row) = 1)

/-- `Clause.CorrectionsAreWrittenBack` and `Clause.RowsAreRemapped`, both of them.
Where the spec is read by inference or leaves a choice, it is the model's: log entry 97. -/
def Obligations.CorrectionsAndRows : Prop := Clause.CorrectionsAreWrittenBack ∧ Clause.RowsAreRemapped

/-- SCRUB_PAGE_START and SCRUB_READ: a page starts when its interval has passed; one still under way is late and counted; the scrubber
reads the next line of its page in a free cycle. -/
def Clause.TheScrubberWalks : Prop :=
  ∀ (s : State) (kind inst : Nat), instOk kind inst = true →
    let b := scrubOf s (instKey kind inst)
    (∀ p, regB s (scbInt kind) 16 = true → kind ≠ 5 → bankExists s kind inst 0 = true → b.started + regF s (scbInt kind) 0 16 * 15625 ≤ s.now → b.active = false →
      scrubFrom s kind inst b.page = some p → b.page ≤ p →
      ∃ t, exec (.scrubPageStart kind inst) s = .next t ∧ scrubOf t (instKey kind inst) = { b with page := p, line := 0, active := true, owed := false, started := s.now } ∧
        t.mem.data = s.mem.data ∧ t.coaches = s.coaches) ∧
    (regB s (scbInt kind) 16 = true → kind ≠ 5 → bankExists s kind inst 0 = true → b.started + regF s (scbInt kind) 0 16 * 15625 ≤ s.now → b.active = true →
      ∃ t, exec (.scrubPageStart kind inst) s = .next t ∧ regF t scbStat 16 16 = incSat 16 (regF s scbStat 16 16) ∧
        scrubOf t (instKey kind inst) = { b with owed := true, lateSeen := true, started := s.now }) ∧
    (let lk := scrubPage s kind inst b.page * 64 + b.line % 64
     let po := portOf (keyKind (4 * lk)) (keyInst (4 * lk)) (keyOff (4 * lk)) 104 false
     kind ≠ 5 → b.active = true → b.line < 64 → scrubbable s kind inst b.page = true → freeCycle s po = true → dueOut s po = none →
       mergeFind s lk = none → (lineGet s lk).st = 0 →
       ∃ t, exec (.scrubRead kind inst) s = .next t ∧ scrubOf t (instKey kind inst) = { b with line := b.line + 1 } ∧ t.mem.data = s.mem.data ∧ t.coaches = s.coaches)

/-- MARCH_START, MARCH_ROW and MARCH_COMPLETE: a march that may run takes its target; a preserving march leaves every datum; a destructive
march makes its bank zero; the result and the failing rows are counted. -/
def Clause.TheMarchEngine : Prop :=
  ∀ (s : State) (failing : List (Nat × Nat)),
    (regB s mtCtl 31 = true → s.mem.march = none → regB s mtCtl 29 = false → (regB s mtCtl 30 = true ∨ s.dev = 3) →
      bankExists s (regF s mtCtl 21 4) (regF s mtCtl 14 7) (regF s mtCtl 7 7) = true →
      ∃ t m, exec .marchStart s = .next t ∧ t.mem.march = some m ∧ m.kind = regF s mtCtl 21 4 ∧ m.inst = regF s mtCtl 14 7 ∧
        m.bank = regF s mtCtl 7 7 ∧ m.pres = regB s mtCtl 30 ∧ m.row = 0 ∧ m.fails = 0 ∧ t = { s with mem := t.mem } ∧
        (m.pres = true → t.mem = { s.mem with march := some m }) ∧
        (m.pres = false → (∀ k, bankKeyOf k = bankKey m.kind m.inst m.bank → tget 0 t.mem.data k = 0) ∧
          (∀ k, bankKeyOf k ≠ bankKey m.kind m.inst m.bank → tget 0 t.mem.data k = tget 0 s.mem.data k))) ∧
    (∀ m, s.mem.march = some m → m.pres = true → m.row < marchRows m →
      ∃ t, exec (.marchRow 0) s = .next t ∧ t = { s with mem := { s.mem with march := some { m with row := m.row + 1 } } }) ∧
    (∀ m op, s.mem.march = some m → m.pres = true → m.row < marchRows m → 0 < op → op < 11 →
      ∃ t n, exec (.marchRow op) s = .next t ∧ t.mem.march = some n ∧ n.row = m.row + 1 ∧ n.fails = incSat 14 m.fails ∧
        ∀ l, (lineGet s l).st ≠ 1 → lineBits t l = lineBits s l) ∧
    (∀ m, s.mem.march = some m → m.pres = false → m.slot = false →
      ∃ t, exec (.marchComplete []) s = .next t ∧ t.mem.march = none ∧ regB t mtCtl 31 = false ∧
        t.mem.data = s.mem.data ∧ regF t mtStat 30 2 = (if m.unrepaired then 3 else if m.fails = 0 then 1 else 2)) ∧
    (∀ m, s.mem.march = some m → m.pres = true → marchRows m ≤ m.row → failing = [] →
      ∃ t, exec (.marchComplete failing) s = .next t ∧ t.mem.march = none ∧ t.mem.data = s.mem.data ∧ regF t mtStat 16 14 = m.fails % 2 ^ 14)

/-- `Clause.TheScrubberWalks` and `Clause.TheMarchEngine`, both of them.
Where the spec is read by inference or leaves a choice, it is the model's: log entries 47, 49. -/
def Obligations.ScrubbingAndMarches : Prop := Clause.TheScrubberWalks ∧ Clause.TheMarchEngine

/-- FUSE_PROGRAM, PENDING_REPAIR_LIST_STORE, FUSE_ENTRY_DONE and VPP_REMOVED: programming runs in CONFIG only, with VPP_FUSE present (a free value, log entry 48); an entry that reads back leaves the list of
recommendations; one that does not is marked BAD and tried once more; without VPP_FUSE the command ends with abort 0x0C. -/
def Clause.FusesAreProgrammed : Prop :=
  ∀ s : State,
    (s.dev = 3 → s.mem.fusing = false → s.mem.pendFix ≠ [] → s.mem.fieldFuse.length < 256 →
      ∃ t, exec .fuseProgram s = .next t ∧ regB t fuseStat 2 = Config.vppFuse s.now ∧ t.mem.fusing = Config.vppFuse s.now ∧
        t.mem.pendFix = s.mem.pendFix ∧ t.mem.fieldFuse = s.mem.fieldFuse ∧
        (if Config.vppFuse s.now then t.mem.fuseDone = 0 ∧ regB t fuseCtl 31 = true ∧ OnlyRegs [fuseStat, fuseCtl] { s with mem := t.mem } t
         else t.mem = s.mem ∧ reg t fuseCtl = reg s fuseCtl)) ∧
    (s.mem.fusing = false → ∃ t, exec .fuseProgram s = .next t ∧ regB t fuseStat 2 = Config.vppFuse s.now ∧
      (s.dev ≠ 3 ∨ Config.vppFuse s.now = false → t.mem = s.mem ∧ reg t fuseCtl = reg s fuseCtl)) ∧
    (s.mem.fusing = true →
      ∃ t, exec (.fuseEntryDone true) s = .next t ∧ t.mem.fieldFuse = s.mem.fieldFuse ++ [s.mem.pendFix.getD s.mem.fuseIdx 0] ∧
        t.mem.pendFix = s.mem.pendFix.eraseIdx s.mem.fuseIdx ∧ t.mem.fuseDone = s.mem.fuseDone + 1 ∧ t.mem.fuseRetry = false ∧ t.mem.data = s.mem.data) ∧
    (s.mem.fusing = true →
      ∃ t, exec (.fuseEntryDone false) s = .next t ∧ t.mem.fieldFuse = s.mem.fieldFuse ++ [s.mem.pendFix.getD s.mem.fuseIdx 0 + 2 ^ 62] ∧
        t.mem.pendFix = s.mem.pendFix ∧ regB t fuseStat 1 = true ∧ t.mem.fuseIdx = s.mem.fuseIdx + (if s.mem.fuseRetry then 1 else 0)) ∧
    (s.mem.fusing = true → ∃ t, exec .vppRemoved s = .next t ∧ t.mem.fusing = false ∧ regB t fuseStat 2 = false ∧ regB t fuseCtl 31 = false ∧
      t.mem.fieldFuse = s.mem.fieldFuse ++ [s.mem.pendFix.getD s.mem.fuseIdx 0 + 2 ^ 62]) ∧
    (∃ t, exec .pendingRepairListStore s = .next t ∧ t = { s with mem := { s.mem with pendDirty := false, pendStored := s.mem.pendFix } })

/-- LOG_WRITE and TAIL_STORE: 64 fabric cycles after the record before it, the oldest record of the intake enters the ring at HEAD, in the place of the oldest record when the ring is
full; L0's store of TAIL within the records held discards those before it; any other store changes no record and sets CONFLICT. -/
def Clause.TheErrorLog : Prop :=
  ∀ (s : State) (m : Nat) (v : W32) (r : ErrRec) (rest : List ErrRec), masterOk m = true →
    (s.now < s.mem.nextLog → exec .logWrite s = .next s) ∧
    (s.mem.intake = r :: rest → errNoneLost s = true → s.mem.nextLog ≤ s.now →
      ∃ t, exec .logWrite s = .next t ∧ t.mem.nextLog = s.now + 64 ∧ tget { time := 0, cls := 0, kind := 0, inst := 0, master := 0, detail := 0, addr := 0 } t.mem.log (logHead s) = r ∧
        t.mem.intake = rest ∧ (s.mem.held ≠ 512 → t.mem.held = s.mem.held + 1 ∧ logTail t = logTail s) ∧
        (s.mem.held = 512 → t.mem.held = 512 ∧ logTail t = (logTail s + 1) % 512 ∧ regB t eccStat 1 = true) ∧ t.mem.data = s.mem.data) ∧
    (let n := rfld v 19 9
     let d := if n = logHead s then s.mem.held else (n + 512 - logTail s) % 512
     (d ≤ s.mem.held → ∃ t, exec (.tailStore 72 v) s = .next t ∧ t.mem.held = s.mem.held - d ∧ logTail t = n ∧ t.mem.log = s.mem.log) ∧
     (m ≠ 72 ∨ s.mem.held < d → ∃ t, exec (.tailStore m v) s = .next t ∧ t.mem = s.mem ∧ logTail t = logTail s ∧ regB t eccStat 0 = true))

/-- `Clause.FusesAreProgrammed` and `Clause.TheErrorLog`, both of them.
Where the spec is read by inference or leaves a choice, it is the model's: log entries 47, 48. -/
def Obligations.FusesAndTheErrorLog : Prop := Clause.FusesAreProgrammed ∧ Clause.TheErrorLog

/-- INJECTION_ARM: L0's store arms the injection; a store of another master leaves it and sets CONFLICT. REGION_WRITE: L0 sets any region
word, a supervisor of a processor its own regions 0 to 6 but never the epoch field; any other store is ignored and counted.
Where the spec is read by inference or leaves a choice, it is the model's: log entry 50. -/
def Obligations.InjectionAndRegions : Prop :=
  ∀ (s : State) (m : Nat) (sup : Bool) (a : Nat) (v : W32), masterOk m = true →
    (rfld v 1 2 ≠ 3 → ∃ t, exec (.injectionArm 72 v) s = .next t ∧ reg t (eccStat + 2) = (reg s (eccStat + 2) &&& 0xFFFFFFF8) ||| (v &&& 7) ∧ OnlyRegs [eccStat + 2] s t) ∧
    (m ≠ 72 → ∃ t, exec (.injectionArm m v) s = .next t ∧ reg t (eccStat + 2) = reg s (eccStat + 2) ∧ regB t eccStat 0 = true ∧ t.mem = s.mem) ∧
    (∀ c r w, c < 76 → r < 8 → w < 2 → a = memRB c r + 2 * w → m = 72 ∨ (m = c ∧ sup = true ∧ r < 7) →
      ∃ t, exec (.regionWrite m sup a v) s = .next t ∧ t = { s with regs := t.regs, intc := t.intc } ∧ regF t a 6 26 = rfld v 6 26) ∧
    (∀ c r, c < 76 → r < 7 → a = memRB c r + 4 → m = c → m ≠ 72 → sup = true →
      ∃ t, exec (.regionWrite m sup a v) s = .next t ∧ regF t a 16 16 = regF s a 16 16) ∧
    (∀ c r w, c < 76 → r < 8 → w < 3 → a = memRB c r + 2 * w → m ≠ 72 → (m ≠ c ∨ sup = false ∨ r = 7) →
      ∃ t, exec (.regionWrite m sup a v) s = .next t ∧ reg t a = reg s a ∧ t.mem.ignoredWrites = incSat 32 s.mem.ignoredWrites ∧ t.mem.data = s.mem.data)

/-- LOAD_PORT_WRITE, LOAD_PORT_READ and LOAD_PORT_DONE: L0's store of the last data word starts the move of the line and sets BUSY, a store of MEM_LP_CTL with the read bit the
move the other way; the move done, BUSY is 0, the address has advanced past a written line, or the data registers hold the line read;
and a store by another master is ignored. -/
def Clause.TheLoadPort : Prop :=
  ∀ (s : State) (m : Nat) (v : W32), masterOk m = true →
    (lpBusy s = false → domOn s (regF s lpCtl 0 7) = true → (reg s lpAddr).toNat < (if regB s lpCtl 8 then 0x20000 else 0x8000) →
      ∃ t, exec (.loadPortWrite 72 v) s = .next t ∧ lpBusy t = true ∧ regB t lpCtl 9 = false ∧ reg t (lpData 3) = v ∧ OnlyRegs [lpCtl, lpData 3] s t) ∧
    (lpBusy s = false → rbit v 9 = true → rfld v 0 7 < 72 → domOn s (rfld v 0 7) = true →
      (reg s lpAddr).toNat < (if rbit v 8 then 0x20000 else 0x8000) → ∃ t, exec (.loadPortRead 72 v) s = .next t ∧ lpBusy t = true ∧ regB t lpCtl 9 = true) ∧
    (lpBusy s = true →
      let kind := if regB s lpCtl 8 then 0 else 1
      let inst := regF s lpCtl 0 7
      let off := (reg s lpAddr).toNat
      let po := portKey (bankKey kind inst (bankOf kind off)) (dualBank (bankKey kind inst (bankOf kind off)))
      (regB s lpCtl 9 = false →
        let o := turnAccess s 5 po .store (wordKey kind inst off) 8 (valsNum ((upto 4).map (fun w => reg s (lpData w)))) 72
        ∃ t, exec .loadPortDone s = .next t ∧ lpBusy t = false ∧ reg t lpAddr = n32 (off + 8) ∧ t.mem = o.st.mem ∧ t.coaches = o.st.coaches) ∧
      (regB s lpCtl 9 = true →
        let o := turnAccess s 5 po .load (wordKey kind inst off) 8 0 72
        ∃ t, exec .loadPortDone s = .next t ∧ lpBusy t = false ∧ t.mem = o.st.mem ∧ ∀ w, w < 4 → reg t (lpData w) = n32 (o.data / 2 ^ (32 * w)))) ∧
    (m ≠ 72 → ∃ t, exec (.loadPortWrite m v) s = .next t ∧ reg t (lpData 3) = reg s (lpData 3) ∧ lpBusy t = lpBusy s ∧
      t.mem.ignoredWrites = incSat 32 s.mem.ignoredWrites)

/-- DRAM_PARK, PARK_COMPLETE and DRAM_UNPARK: a request for self refresh stops the controller and is counted; self refresh reached, PARKED
is set; with no request left, and PFAIL_N deasserted for 1 ms, the DRAM leaves it. -/
def Clause.TheDramParks : Prop :=
  ∀ s : State,
    ((regB s dctl 0 = true ∨ s.bb.pfail = true) → dramParked s = false →
      exec .dramPark s = .next { s with mem := { s.mem with parking := true, parks := incSat 32 s.mem.parks } }) ∧
    (s.mem.parking = true → ∃ t, exec .parkComplete s = .next t ∧ t.mem.parking = false ∧ regB t dctl 17 = true ∧ dramParked t = true ∧ t.mem.data = s.mem.data) ∧
    (regB s dctl 17 = true → regB s dctl 0 = false → s.bb.pfail = false → (s.bb.dipRelease = 0 ∨ s.bb.dipRelease + 1000000 ≤ s.now) →
      ∃ t, exec .dramUnpark s = .next t ∧ regB t dctl 17 = false ∧ t.mem = s.mem)

/-- `Clause.TheLoadPort` and `Clause.TheDramParks`, both of them.
Where the spec is read by inference or leaves a choice, it is the model's: log entry 46. -/
def Obligations.LoadPortAndDram : Prop := Clause.TheLoadPort ∧ Clause.TheDramParks

/-! ## Claims, stores, media clocks, ports, ASRC and wagons (chapters 09 and 12) -/

/-- Only the system registers of `l` and the sources `ns` of the interrupt controller differ. -/
def OnlyRegsAndSources (l ns : List Nat) (s t : State) : Prop :=
  t = { s with regs := t.regs, intc := t.intc } ∧ (∀ a, a ∉ l → a ∉ ns.map icScnt → reg t a = reg s a) ∧ ∀ n, n ∉ ns → srcSignal t n = srcSignal s n

/-- CLAIM_UNIT and RELEASE_CLAIM: a free unit is claimed by the master that stores HELD = 1; its holder gives it back while the unit is
disabled; every other store leaves the claim. -/
def Clause.ClaimsAreTakenAndGivenBack : Prop :=
  ∀ (s : State) (m a : Nat) (i : RegInfo), masterOk m = true → a < 2 ^ 32 → regInfo s.variant a = some i → i.isClaim = true →
    (claimHeld s a = false → ∃ t, exec (.claimUnit m a) s = .next t ∧ claimHeld t a = true ∧ claimId t a = m ∧ OnlyRegs [a] s t) ∧
    (claimHeld s a = true → ∃ t, exec (.claimUnit m a) s = .next t ∧ reg t a = reg s a ∧ t = { s with regs := t.regs, intc := t.intc }) ∧
    (claimHeld s a = true → claimId s a = m → claimBusy s a = false → ∃ t, exec (.releaseClaim m a) s = .next t ∧ reg t a = 0 ∧ OnlyRegs [a] s t) ∧
    (claimHeld s a = false ∨ claimId s a ≠ m ∨ claimBusy s a = true →
      ∃ t, exec (.releaseClaim m a) s = .next t ∧ reg t a = reg s a ∧ t = { s with regs := t.regs, intc := t.intc })

/-- REGISTER_WRITE by the access codes, on the scrubber's registers: L0 sets the OWN bits, a store of 1 clears a W1C bit, another master's
store leaves the OWN bits and sets CONFLICT, and every other bit stays. CAN_ERROR_STATE_CHANGE pulses the channel's source. -/
def Clause.StoresGoByAccessCode : Prop :=
  ∀ (s : State) (m a c : Nat) (sup : Bool) (v : W32) (i : RegInfo), masterOk m = true → c < 4 →
    (a / 0x10000 = 0x40A → regInfo s.variant a = some i → sysReserved s a v.toNat = [] →
      ∃ t, exec (.registerWrite m sup a v) s = .next t ∧ OnlyRegs [a, scbStat] s t ∧
        (∀ b, b < 32 → regB t a b = (if bitN i.w1c b then regB s a b && !rbit v b else if bitN i.own b && m = 72 then rbit v b else regB s a b)) ∧
        (i.own ≠ 0 → m ≠ 72 → regB t scbStat 0 = true)) ∧
    (let n := 1025 + 2 * c
     ∃ t, exec (.canErrorStateChange c) s = .next t ∧ OnlyRegsAndSources [] [n] s t ∧ srcSignal t n = false ∧
       (srcSignal s n = false → srcEn s n = true → srcSense s n = 2 → srcState s n = 0 → regF s (icScfg n) 16 8 = 1 → srcState t n = 2 ∧ srcCount t n = 1) ∧
       (srcEn s n = false → t.regs = s.regs))

/-- `Clause.ClaimsAreTakenAndGivenBack` and `Clause.StoresGoByAccessCode`, both of them.
Where the spec is read by inference or leaves a choice, it is the model's: log entries 13, 14. -/
def Obligations.StoresAndClaims : Prop := Clause.ClaimsAreTakenAndGivenBack ∧ Clause.StoresGoByAccessCode

/-- SAMPLE_EDGE: the edge has the next count and its media timestamp, which stand among the clock's edges; every master port of the
clock begins the frame of that count. An edge closer to the last than the fastest rate allows does not come. -/
def Clause.ASampleEdgeCounts : Prop :=
  ∀ (s : State) (k : Nat), k < 4 →
    (mcState s k ≠ 0 → edgeTooSoon s k = false →
      let n := if (clk s k).armed then (clk s k).count else ((clk s k).count + 1) % 2 ^ 64
      ∃ t, exec (.sampleEdge k) s = .next t ∧ (clk t k).count = n ∧ (clk t k).edge = s.now + 1 ∧ (clk t k).armed = false ∧
        (onGrid s k = true → (clk t k).mt = n * 256000000000 / clockHz s k % 2 ^ 64) ∧
        tget { count := 0, mt := 0 } t.media.edges (4096 * k + n % 4096) = { count := n, mt := (clk t k).mt } ∧
        (∀ j, j ≠ k → clk t j = clk s j) ∧ mcState t k = mcState s k ∧
        (∀ p, apOn s p = true → apMaster s p = true → apMc s p = k → n ∈ begunOf t p) ∧
        t.mem.data = s.mem.data ∧ t.net = s.net) ∧
    (mcState s k = 0 ∨ edgeTooSoon s k = true → exec (.sampleEdge k) s = .next s)

/-- MEDIA_CLOCK_ENABLE and MEDIA_CLOCK_DISABLE: the holder of the clock's claim starts it, ACQUIRE where it follows a reference and LOCKED
where it runs free, with its count on the grid of its gPTP domain or at 0; it stops a clock that nothing names; a clock in use stays on. -/
def Clause.MediaClocksStartAndStop : Prop :=
  ∀ (s : State) (m k : Nat) (v : W32), masterOk m = true → k < 4 → ownsClaim s (mcClaim k) m = true →
    (mcOn s k = false → rbit v 31 = true → mcPinBad s m k (reg (storePlain s m (mcCtl k) v) (mcCtl k)) = false →
      ∃ t, exec (.mediaClockEnable m k v) s = .next t ∧ mcOn t k = true ∧ mcState t k = (if mcSrc t k = 0 then 2 else 1) ∧ regF t (mcStat k) 0 16 = 0 ∧
        (clk t k).edge = 0 ∧ (clk t k).count = (if mcSrc t k = 1 ∨ mcSrc t k = 2 then clkTime t k * clockHz t k / 10 ^ 9 + 1 else 0) ∧
        (∀ j, j ≠ k → clk t j = clk s j) ∧ t.mem = s.mem ∧ t.coaches = s.coaches) ∧
    (mcOn s k = true → rbit v 31 = false → (reg s (mcCtl k) ^^^ v) &&& 0x7FFF07FF = 0 →
      (mcNamed s k = false → ∃ t, exec (.mediaClockDisable m k v) s = .next t ∧ mcOn t k = false ∧ mcState t k = 0 ∧ regB t (mcStat k) 29 = false ∧
        OnlyRegsAndSources [mcCtl k, mcStat k] [904 + k] s t) ∧
      (mcNamed s k = true → ∃ t, exec (.mediaClockDisable m k v) s = .next t ∧ mcOn t k = true ∧ regB t (mcStat k) 28 = true ∧ OnlyRegs [mcStat k] s t))

/-- REFERENCE_LOST, REFERENCE_RETURN, LOCK_ACHIEVED: a clock that follows its reference goes to HOLDOVER and counts it, returns to ACQUIRE,
and is LOCKED once its phase error has stayed small for the time of its bandwidth. COUNT_LATCH_READ: the read of the low half of a clock's
count returns it and latches the high half for that master. -/
def Clause.MediaClocksFollowTheirReference : Prop :=
  ∀ (s : State) (m k : Nat), masterOk m = true → k < 4 →
    (mcSrc s k ≠ 0 → mcState s k = 1 ∨ mcState s k = 2 →
      ∃ t, exec (.referenceLost k) s = .next t ∧ mcState t k = 3 ∧ regF t (mcStat k) 0 16 = incSat 16 (regF s (mcStat k) 0 16) ∧ regB t (mcStat k) 29 = false ∧
        OnlyRegsAndSources [mcStat k] [904 + k] s t) ∧
    (mcState s k = 3 → ∃ t, exec (.referenceReturn k) s = .next t ∧ mcState t k = 1 ∧ clk t k = { clk s k with steadySince := s.now } ∧
      t = { s with regs := t.regs, intc := t.intc, media := t.media }) ∧
    (mcState s k = 1 → (clk s k).steadySince + (match regF s (mcCtl k) 23 2 with | 0 => 40000000000 | 1 => 4000000000 | _ => 400000000) ≤ s.now →
      ∃ t, exec (.lockAchieved k) s = .next t ∧ mcState t k = 2 ∧ OnlyRegsAndSources [mcStat k] [904 + k] s t) ∧
    (∃ t, exec (.countLatchRead m (mcSc k)) s = .next t ∧ t.answer = n32 (clk s k).count ∧ perM t (mcSc k + 2) m = n32 ((clk s k).count / 2 ^ 32) ∧
      t = { s with answer := t.answer, perMaster := t.perMaster })

/-- `Clause.ASampleEdgeCounts`, `Clause.MediaClocksStartAndStop`, `Clause.MediaClocksFollowTheirReference`, all of them.
Where the spec is read by inference or leaves a choice, it is the model's: log entries 38, 60. -/
def Obligations.MediaClocks : Prop := Clause.ASampleEdgeCounts ∧ Clause.MediaClocksStartAndStop ∧ Clause.MediaClocksFollowTheirReference

/-- FRAME_SYNC, FRAME_CAPTURED, NOCLK, BCLK_RETURN: a slave port numbers the frame that its frame sync begins by the nearest edge, or by the
next unused one when it slips, which is counted; a frame captured stands in the receive buffer; without BCLK the port outputs 0. -/
def Clause.PortsFrameTheirSamples : Prop :=
  ∀ (s : State) (p n count : Nat) (r : List Nat) (samples : List W32), p < 32 → apOn s p = true →
    (apMaster s p = false → regB s (apStat p) 30 = false → mcState s (apMc s p) ≠ 0 →
      (tget 0 s.media.lastSync p ≤ count → syncFits s (apMc s p) false count = true → ∃ t, exec (.frameSync p false count) s = .next t ∧ regB t (apStat p) 31 = true ∧
        tget 0 t.media.lastSync p = count + 1 ∧ count ∈ begunOf t p ∧ regF t (apStat p) 0 12 = regF s (apStat p) 0 12) ∧
      (syncFits s (apMc s p) true count = true → ∃ t, exec (.frameSync p true count) s = .next t ∧ regB t (apStat p) 31 = true ∧ regF t (apStat p) 0 12 = incSat 12 (regF s (apStat p) 0 12) ∧
        tget 0 t.media.lastSync p = Nat.max count (tget 0 s.media.lastSync p - 1) + 2)) ∧
    (begunOf s p = n :: r → ∃ t, exec (.frameCaptured p samples) s = .next t ∧ begunOf t p = r ∧ tget 0 t.media.lastCap p = n + 1 ∧
      tget { count := 0, absent := false, slots := [] } t.media.rx (p * 64 + n % 64) =
        { count := n, absent := false, slots := (upto (apSlots s p)).map (fun i => if regB s (apRxen p) i then n32 (topBits s p (samples.getD i 0).toNat) else 0) } ∧
      t = { s with media := t.media }) ∧
    (apMaster s p = false → regB s (apStat p) 30 = false → ∃ t, exec (.noclk p) s = .next t ∧ regB t (apStat p) 30 = true ∧ regB t (apStat p) 31 = false ∧
      begunOf t p = [] ∧ (∀ i, i < 32 → tget 0 t.media.out (p * 32 + i) = 0) ∧ srcSignal t (833 + 2 * p) = true) ∧
    (regB s (apStat p) 30 = true → ∃ t, exec (.bclkReturn p) s = .next t ∧ regB t (apStat p) 30 = false ∧ srcSignal t (833 + 2 * p) = false ∧
      OnlyRegsAndSources [apStat p] [833 + 2 * p] s t)

/-- PORT_ENABLE, PORT_DISABLE, FORMAT_STORE, PDM_CONTROL_STORE: the holder of a port's claim enables it in a domain that is ON and disables it
when nothing names it; a format within the limits is taken, one outside them refused whole; a pair runs at a rate that its decimation allows. -/
def Clause.PortsAreConfigured : Prop :=
  ∀ (s : State) (m p i : Nat) (v : W32), masterOk m = true → p < s.variant.tdmPorts → i < 8 →
    (ownsClaim s (apClaim p) m = true →
      (apOn s p = false → rbit v 31 = true → domOn s (132 + p / 4) = true →
        ∃ t, exec (.portEnable m p v) s = .next t ∧ apOn t p = true ∧ regF t (apCtl p) 28 3 = rfld v 28 3 ∧ OnlyRegs [apCtl p] s t) ∧
      (apOn s p = true → rbit v 31 = false → (reg s (apCtl p) ^^^ v) &&& 0x70000000 = 0 → apNamed s p = false →
        ∃ t, exec (.portDisable m p v) s = .next t ∧ apOn t p = false ∧ regF t (apStat p) 30 2 = 0 ∧ begunOf t p = [] ∧
          (∀ j, j < 32 → tget 0 t.media.out (p * 32 + j) = 0) ∧ srcSignal t (833 + 2 * p) = false) ∧
      (apOn s p = false → fmtLimits s p (reg (storePlain s m (apFmt p) v) (apFmt p)) = true → sysReserved s (apFmt p) v.toNat = [] →
        ∃ t, exec (.formatStore m p v) s = .next t ∧ reg t (apFmt p) = (reg s (apFmt p) &&& 0x0001FFFF) ||| (v &&& 0xFFFE0000) ∧ OnlyRegs [apFmt p] s t) ∧
      (apOn s p = false → fmtLimits s p (reg (storePlain s m (apFmt p) v) (apFmt p)) = false →
        ∃ t, exec (.formatStore m p v) s = .next t ∧ reg t (apFmt p) = reg s (apFmt p) ∧ regB t (apStat p) 29 = true ∧ OnlyRegs [apStat p] s t)) ∧
    (ownsClaim s (pdmClaim i) m = true → clockHz s (rfld v 29 2) ≤ (if rbit v 28 then 48000 else 96000) →
      (regB s (pdmCtl i) 31 = false ∨ (reg s (pdmCtl i) ^^^ v) &&& 0x70000000 = 0) →
        ∃ t, exec (.pdmControlStore m i v) s = .next t ∧ regF t (pdmCtl i) 28 4 = rfld v 28 4 ∧ regB t pdmStat i = rbit v 31 ∧
          (∀ a, a ≠ pdmCtl i → a ≠ pdmStat → reg t a = reg s a) ∧ t = { s with regs := t.regs, media := t.media }) ∧
    (ownsClaim s (pdmClaim i) m = false → ∃ t, exec (.pdmControlStore m i v) s = .next t ∧ reg t (pdmCtl i) = reg s (pdmCtl i) ∧ regB t pdmStat 8 = true ∧
      OnlyRegs [pdmStat] s t)

/-- The pins of a TDM port: a slave's clocks are inputs, a master's run while it is on and are low otherwise; each BCLK of a frame carries one
bit of an enabled slot, the word MSB first and then zeros, and any other slot, and a port that is off, leaves DOUT low or at high impedance
as TRI says; PDM_CLK is low while its pair is off. -/
def Clause.PinsCarryFrames : Prop :=
  ∀ (s : State) (p k : Nat),
    (apMaster s p = false → bclkPin s p = .input ∧ fsPin s p k = .input) ∧
    (apMaster s p = true → apOn s p = false → bclkPin s p = .low ∧ fsPin s p k = .low) ∧
    (apMaster s p = true → apOn s p = true → bclkPin s p = .clock (apSlots s p * apSlotBits s p * clockHz s (apMc s p))) ∧
    (let i := k % apFrameBits s p
     let slot := i / apSlotBits s p
     let b := i % apSlotBits s p
     let at_ := i + regF s (apFmt p) 20 1
     let idle : Pin := if regB s (apFmt p) 17 then .hiZ else .low
     0 < apFrameBits s p →
     (apOn s p = false ∨ regB s (apTxen p) slot = false → doutPin s p at_ = idle) ∧
     (apOn s p = true → regB s (apTxen p) slot = true →
       (b < apWordBits s p → doutPin s p at_ = if rbit (tget 0 s.media.out (p * 32 + slot)) (31 - b) then .high else .low) ∧
       (apWordBits s p ≤ b → doutPin s p at_ = .low))) ∧
    (pdmOn s p = false → pdmClkPin s p = .low)

/-- `Clause.PortsFrameTheirSamples`, `Clause.PortsAreConfigured` and `Clause.PinsCarryFrames`, all of them.
Where the spec is read by inference or leaves a choice, it is the model's: log entries 60, 96. -/
def Obligations.AudioPorts : Prop := Clause.PortsFrameTheirSamples ∧ Clause.PortsAreConfigured ∧ Clause.PinsCarryFrames

/-- ASRC_STREAM_ENABLE, ASRC_STREAM_DISABLE, ASRC_DELAY_STORE, ASRC_LOCK, ASRC_UNLOCK and ASRC_OUTPUT_BLOCK: a stream that fits its engine is enabled at its delay and disabled by the holder of its claim; a delay is at most
10 ms; the stream locks at a ratio within 1,000 ppm of nominal, its residual small for 1 s, and counts each loss of lock; its reader's next block is there once the
input has come far enough. -/
def Clause.AsrcStreamsRun : Prop :=
  ∀ (s : State) (m n x : Nat) (v ratio : W32), masterOk m = true → n < s.variant.asrcEngines → x < 64 →
    let u := 64 * n + x
    (ownsClaim s (asClaim n x) m = true →
      (asOn s u = false → rbit v 31 = true → asFits (storePlain s m (asCtl n x) v) u = true →
        ∃ t, exec (.asrcStreamEnable m n x v) s = .next t ∧ asOn t u = true ∧ tget 0 t.media.asrcDelay u = reg s (asDelay n x) ∧ tget 0 t.media.asrcOut u = 0 ∧
          t = { s with regs := t.regs, media := t.media } ∧ ∀ a, a ≠ asCtl n x → a ≠ asStat n x → reg t a = reg s a) ∧
      (asOn s u = true → rbit v 31 = false → ∃ t, exec (.asrcStreamDisable m n x v) s = .next t ∧ asOn t u = false ∧ asLocked t u = false ∧ srcSignal t (576 + u) = false) ∧
      (v.toNat * 100 ≤ 4096 * asHzOut s u → ∃ t, exec (.asrcDelayStore m n x v) s = .next t ∧ reg t (asDelay n x) = v ∧ OnlyRegs [asDelay n x] s t) ∧
      (4096 * asHzOut s u < v.toNat * 100 → ∃ t, exec (.asrcDelayStore m n x v) s = .next t ∧ reg t (asDelay n x) = reg s (asDelay n x) ∧ regB t (asStat n x) 30 = true ∧
        OnlyRegs [asStat n x] s t)) ∧
    (asOn s u = true → asLocked s u = false → tget 0 s.media.asrcSteady u + 10 ^ 9 ≤ s.now + 1 → 1000 * (ratio.toNat * asHzIn s u) ≤ 1001 * (2 ^ 29 * asHzOut s u) → 999 * (2 ^ 29 * asHzOut s u) ≤ 1000 * (ratio.toNat * asHzIn s u) →
      ∃ t, exec (.asrcLock n x ratio) s = .next t ∧ asLocked t u = true ∧ reg t (asRatio n x) = ratio ∧ srcSignal t (576 + u) = true ∧
        OnlyRegsAndSources [asRatio n x, asStat n x] [576 + u] s t) ∧
    (asOn s u = true → asLocked s u = true → ∃ t, exec (.asrcUnlock n x) s = .next t ∧ asLocked t u = false ∧ regF t (asStat n x) 0 16 = incSat 16 (regF s (asStat n x) 0 16) ∧
      srcSignal t (576 + u) = false ∧ tget 0 t.media.asrcSteady u = s.now + 1 ∧ OnlyRegsAndSources [asStat n x] [576 + u] { s with media := t.media } t) ∧
    (∀ e, asReader s u = some e →
      let d := wagOf s e.1 e.2
      let first := Nat.max (tget 0 s.media.asrcOut u) (nSrc d (wagRun s e.1 e.2).block)
      let ahead := asTaps s u * 128000000000 / (if asHzOut s u ≥ asHzIn s u then asHzIn s u else asHzOut s u)
      asOn s u = true → tget 0 s.media.asrcInTo u ≠ 0 →
      0 ≤ stampDiff ((tget 0 s.media.asrcInTo u - 1 : Nat) : Int)
        (mtEst s (asMc s u) ((first + d.bs - 1 : Nat) : Int) - (((reg s (asDelay n x)).toNat * 62500000 / asHzOut s u : Nat) : Int) + (ahead : Int)) →
      ∃ t, exec (.asrcOutputBlock n x) s = .next t ∧ tget 0 t.media.asrcOut u = first + d.bs ∧ tget 0 t.media.asrcDelay u = reg s (asDelay n x) ∧ t = { s with media := t.media })

/-- EXPRESS_INPUT_PAIR and EXPRESS_OUTPUT: two complete frames make a pair, which releases the express cart, and one with an absent frame
releases nothing; at the output a pair whose cart
has ended in time is delivered, and any other is concealed and counted. -/
def Clause.ExpressPairsRun : Prop :=
  ∀ (s : State) (f g : RxFrame) (n : Nat), s.media.xOn = true →
    (let p := valN s 0x6140 1 0xFF
     let v := valN s 0x6140 6 0xFFFF
     tget 0 s.media.lastCap p = n + 2 → n % 2 = 0 → s.media.xPair ≤ n → rxAt s p n = some f → rxAt s p (n + 1) = some g → f.absent = false → g.absent = false →
      ∃ t, exec .expressInputPair s = .next t ∧ t.media.xPair = n + 2 ∧ t.media.xOwed = some n ∧
        (∀ h, releasing s = true → (cartOf s v).isSome = true → cartLive s v = false → cartHome s v = some h → ∃ j, j ∈ queueOf t h ∧ j.cart = v ∧ j.k = n / 2)) ∧
    (let p := valN s 0x6140 1 0xFF
     tget 0 s.media.lastCap p = n + 2 → n % 2 = 0 → s.media.xPair ≤ n → rxAt s p n = some f → rxAt s p (n + 1) = some g → (f.absent || g.absent) = true →
      exec .expressInputPair s = .next { s with media := { s.media with xPair := n + 2, xOwed := some n } }) ∧
    (s.media.xOwed = some n → ∃ t, exec .expressOutput s = .next t ∧ t.media.xOwed = none ∧
      (jobReport s (valN s 0x6140 6 0xFFFF) (n / 2) = some false → t.media.xConcealed = s.media.xConcealed ∧ t.media.xDecay = 0 ∧ t.media.xFade = Nat.min 64 (s.media.xFade + 2)) ∧
      (jobReport s (valN s 0x6140 6 0xFFFF) (n / 2) ≠ some false → t.media.xConcealed = s.media.xConcealed + 1 ∧ t.media.xFade = 0 ∧ t.media.xDecay = Nat.min 64 (s.media.xDecay + 2)))

/-- `Clause.AsrcStreamsRun` and `Clause.ExpressPairsRun`, both of them.
Where the spec is read by inference or leaves a choice, it is the model's: log entries 36, 37. -/
def Obligations.AsrcAndExpress : Prop := Clause.AsrcStreamsRun ∧ Clause.ExpressPairsRun

/-- WAGON_ENABLE and WAGON_DISABLE: the holder of a wagon's claim enables a descriptor that is as the rules ask, and disables it; one that is
not is refused with CONFLICT; a wagon that the timetable took in is left as it is. -/
def Clause.WagonsAreEnabled : Prop :=
  ∀ (s : State) (m n w : Nat) (v : W32), masterOk m = true → n < 16 → w < 64 →
    let p := storePlain s m (seDesc n w 0) v
    let u := grantRegions p (seMaster n) (engineBits p n)
    (wagTaken s n w = false → ownsClaim s (seClaim n w) m = true →
      (regB s (seDesc n w 0) 31 = false → rbit v 31 = true → (n ≠ 15 ∨ s.media.xOn = false) → sysReserved s (seDesc n w 0) v.toNat = [] → wagonOk u n w (wagOf u n w) = true →
        ∃ t, exec (.wagonEnable m n w v) s = .next t ∧ reg t (seDesc n w 0) = v &&& 0xFFFFFE00 ∧ regF t (seBase n) 0 7 = (regF s (seBase n) 0 7 + 1) % 128 ∧
          (wagRun t n w).st = 0 ∧ (wagRun t n w).line = 0 ∧ t.mem = s.mem) ∧
      (regB s (seDesc n w 0) 31 = false → rbit v 31 = true → wagonOk u n w (wagOf u n w) = false →
        ∃ t, exec (.wagonEnable m n w v) s = .next t ∧ reg t (seDesc n w 0) = reg s (seDesc n w 0) ∧ regB t (seBase n) 30 = true ∧ t.media = s.media) ∧
      (regB s (seDesc n w 0) 31 = true → rbit v 31 = false → sysReserved s (seDesc n w 0) v.toNat = [] →
        ∃ t, exec (.wagonDisable m n w v) s = .next t ∧ regB t (seDesc n w 0) 31 = false ∧ regF t (seBase n) 0 7 = regF s (seBase n) 0 7 - 1 ∧ t.media = s.media)) ∧
    (wagTaken s n w = true ∨ ownsClaim s (seClaim n w) m = false → regB s (seDesc n w 0) 31 = true → rbit v 31 = false →
      ∃ t, exec (.wagonDisable m n w v) s = .next t ∧ reg t (seDesc n w 0) = reg s (seDesc n w 0) ∧ regB t (seBase n) 30 = true ∧ t.media = s.media)

/-- BLOCK_READY, CONCEALMENT and LINE_MOVE: a block that its source holds in time is ready, concealed blocks whose source comes late are
counted, one that is not ready at its latest start is concealed
and counted, and the engine moves the lines of the block due first one by one. -/
def Clause.WagonsMoveBlocks : Prop :=
  ∀ (s : State) (n w : Nat), n < 16 → w < 64 →
    let d := wagOf s n w
    let x := wagRun s n w
    (wagonRuns s n w d = true → x.st = 0 → x.late = [] → startPassed s d x.block = false → srcReady s n d x.block = true →
      ∃ t, exec (.blockReady n w) s = .next t ∧ wagRun t n w = { x with st := 1 } ∧ t = { s with media := t.media }) ∧
    (let come := x.late.filter (srcReady s n d)
     wagonRuns s n w d = true → x.st ≠ 0 → come ≠ [] →
      ∃ t, exec (.blockReady n w) s = .next t ∧ (wagRun t n w).late = x.late.filter (fun b => !srcReady s n d b) ∧
        reg t (seLate n w) = reg s (seLate n w) + n32 come.length ∧ (wagRun t n w).st = x.st) ∧
    (wagonRuns s n w d = true → x.st = 0 → srcReady s n d x.block = false → (startPassed s d x.block || srcLost s d x.block) = true →
      ∃ t, exec (.concealment n w) s = .next t ∧ wagRun t n w = { x with st := 2, late := if srcLost s d x.block then x.late else x.late ++ [x.block] } ∧ reg t (seConc n w) = reg s (seConc n w) + 1 ∧
        t = { s with regs := t.regs, intc := t.intc, media := t.media }) ∧
    (∀ y, minBy (fun e => [(dueIn s (wagOf s n e.2) (wagRun s n e.2).block + 2 ^ 80).toNat, e.2])
        (((enWagons s).filter (fun e => e.1 = n)).filter (fun e => wagonRuns s n e.2 (wagOf s n e.2) && (wagRun s n e.2).st ≠ 0)) = some (n, y) →
      let l := (wagRun s n y).line
      ∃ t, exec (.lineMove n) s = .next t ∧
        (((wagRun t n y).line = l + 1 ∧ (wagRun t n y).block = (wagRun s n y).block ∧ (wagRun t n y).st = (wagRun s n y).st) ∨
         ((wagRun t n y).line = 0 ∧ (wagRun t n y).block = (wagRun s n y).block + 1 ∧ (wagRun t n y).st = 0)) ∧
        (∀ j, j ≠ y → wagRun t n j = wagRun s n j) ∧
        ((wagOf s n y).dstk = 1 → l + 1 < cdiv ((wagOf s n y).nch * (wagOf s n y).bs) 4 → (wagRun t n y).line = l + 1))

/-- `Clause.WagonsAreEnabled` and `Clause.WagonsMoveBlocks`, both of them.
Where the spec is read by inference or leaves a choice, it is the model's: log entry 61. -/
def Obligations.Wagons : Prop := Clause.WagonsAreEnabled ∧ Clause.WagonsMoveBlocks

/-! ## Network and gPTP (chapter 13) -/

/-- FRAME_RECEIVE, the checks of the MAC: a frame that is too long or damaged is counted and dropped, a short one dropped; a PAUSE frame and
one that no consumer takes are counted as such; an ARP request for the port's address is answered through queue 0. -/
def Clause.FramesAreChecked : Prop :=
  ∀ (s : State) (e sender : Nat) (f : EthFrame), e < 6 → ethOn s e = true → ethLink s e = true →
    let big := 1518 + (if f.vlanTags = 0 then 0 else 4) < f.length
    (big → ∃ t, exec (.frameReceive e f) s = .next t ∧ reg t (ethCnt e 3) = reg s (ethCnt e 3) + 1 ∧ OnlyRegs [ethCnt e 3] s t) ∧
    (f.length < 64 → exec (.frameReceive e f) s = .next s) ∧
    (¬big → 64 ≤ f.length → f.fcsOk = false → ∃ t, exec (.frameReceive e f) s = .next t ∧ reg t (ethCnt e 2) = reg s (ethCnt e 2) + 1 ∧ OnlyRegs [ethCnt e 2] s t) ∧
    (¬big → 64 ≤ f.length → f.fcsOk = true →
      (f.pause = true → ∃ t, exec (.frameReceive e f) s = .next t ∧ reg t (ethCnt e 0) = reg s (ethCnt e 0) + 1 ∧ reg t (ethCnt e 4) = reg s (ethCnt e 4) + 1 ∧
        OnlyRegs [ethCnt e 0, ethCnt e 4] s t) ∧
      (f.pause = false → 1 < f.vlanTags ∨ f.body = .other → ∃ t, exec (.frameReceive e f) s = .next t ∧ reg t (ethCnt e 0) = reg s (ethCnt e 0) + 1 ∧
        reg t (ethCnt e 5) = reg s (ethCnt e 5) + 1 ∧ OnlyRegs [ethCnt e 0, ethCnt e 5] s t) ∧
      (f.pause = false → f.vlanTags ≤ 1 → ethIp s e ≠ 0 → f.body = .arpRequest (ethIp s e) sender → (queueAt s e 0).length < 32 →
        ∃ t, exec (.frameReceive e f) s = .next t ∧ queueAt t e 0 = queueAt s e 0 ++ [{ length := 84, what := .arpReply sender, payload := [] }] ∧
          OnlyRegs [ethCnt e 0] { s with net := t.net } t))

/-- FRAME_RECEIVE of a stream packet: a waiting listener binds to the packet's source and takes the packet; a bound listener takes a packet
of its partner that passes the checks, and counts one of another partner, one of the wrong format and one that a check fails. Stated for
clock streams and, where the place of a packet is checked, for audio streams. -/
def Clause.ListenersTakeTheirPackets : Prop :=
  ∀ (s : State) (e x : Nat) (f : EthFrame) (p : CrfPacket) (q : AafPacket),
    e < 6 → ethOn s e = true → ethLink s e = true → 64 ≤ f.length → f.length ≤ 1518 → f.fcsOk = true → f.pause = false → f.vlanTags ≤ 1 →
    let c := ctxOf s x
    let src : Partner := { addr := f.srcMac, port := 0, ssrc := 0 }
    (f.body = .crf p → avtpCtx s e f.vid p.streamId = some x → ctxProto s x = 1 →
      let right := p.version = 0 ∧ p.sv = true ∧ p.kind = 1 ∧ p.pull = 0 ∧ p.baseFreq = ctxHz s x ∧ p.interval = ctxSpp s x ∧ p.timestamps.length = ctxNch s x
      (¬right → ∃ t, exec (.frameReceive e f) s = .next t ∧ tget 0 t.net.ctxCnt (16 * x + 5) = tget 0 s.net.ctxCnt (16 * x + 5) + 1 ∧ ctxOf t x = c) ∧
      (right → c.state = 2 → c.partner = some src →
        ∃ t, exec (.frameReceive e f) s = .next t ∧ (ctxOf t x).lastArrival = s.now ∧ (ctxOf t x).partner = c.partner ∧
          tget 0 t.net.ctxCnt (16 * x + 0) = tget 0 s.net.ctxCnt (16 * x + 0) + 1 ∧ t.mem = s.mem) ∧
      (right → c.state = 2 → c.partner ≠ some src →
        let k := if c.prev = some src then 7 else 6
        ∃ t, exec (.frameReceive e f) s = .next t ∧ tget 0 t.net.ctxCnt (16 * x + k) = tget 0 s.net.ctxCnt (16 * x + k) + 1 ∧ ctxOf t x = c) ∧
      (right → c.state ≠ 2 → ctxFilt s x = false ∨ f.srcMac = ctxMac s x →
        ∃ t, exec (.frameReceive e f) s = .next t ∧ (ctxOf t x).state = 2 ∧ (ctxOf t x).partner = some src ∧ (ctxOf t x).prev = c.partner ∧
          (ctxOf t x).cepoch = (if c.cepoch = 0xFFFF then 1 else c.cepoch + 1) ∧ (ctxOf t x).lastArrival = s.now)) ∧
    (f.body = .aaf q → avtpCtx s e f.vid q.streamId = some x →
      ctxProto s x = 0 → q.version = 0 → q.sv = true → q.tv = true → q.format = aafFormat (ctxFmt s x) → q.nsr = 4 + ctxF s x 0 17 3 → q.channels = ctxNch s x →
      q.bitDepth = aafDepth (ctxFmt s x) → q.payload.length = ctxBytes s x → c.state = 2 → c.partner = some src →
      let u := seqGap (flagCount (ethCount s e 0) x q.mr q.tu) x 256 q.seqNum
      let arr := arrivalIn u e x
      let mt := (arr + sx 32 (wrapN 32 ((q.timestamp : Int) - arr)) - (ctxPoff s x * 1000 : Nat)).toNat
      let pl : Place := { n := (2 * mt * ctxHz s x + 10 ^ 9) / (2 * 10 ^ 9), t := 256 * mt, payload := q.payload }
      (∀ k, placeFault u x arr pl = some k → exec (.frameReceive e f) s = .next (ctxCount u x k)) ∧
      (placeFault u x arr pl = none → ∃ t, exec (.frameReceive e f) s = .next t ∧ (ctxOf t x).lastArrival = s.now ∧ (ctxOf t x).ph = some ((ctxOf u x).ph.getD (pl.n % ctxSpp s x)) ∧
        tget 0 t.net.ctxCnt (16 * x + 0) = tget 0 u.net.ctxCnt (16 * x + 0) + 1))

/-- LISTENER_LOST and TALKER_LAUNCH: a listener without a packet for three packet times is lost, which is counted and recorded, and the media
clocks that follow it lose their reference; a talker's packet goes to its queue at its launch time, zeros in place of samples that are not there,
which is counted, and zeros while no wagon feeds it, which is not. -/
def Clause.StreamsAreLostAndLaunched : Prop :=
  ∀ (s : State) (x : Nat), x < 2048 → ctxEn s x = true →
    let c := ctxOf s x
    (isTalker x = false → c.state = 2 → c.lastArrival + 3 * ctxTp s x ≤ s.now →
      ∃ t, exec (.listenerLost x) s = .next t ∧ (ctxOf t x).state = 3 ∧ (ctxOf t x).partner = c.partner ∧
        tget 0 t.net.ctxCnt (16 * x + 9) = tget 0 s.net.ctxCnt (16 * x + 9) + 1 ∧
        ((s.bb.ready && s.bb.header.state = 2) = false → s.bb.intake.length < 32 → bbNoneLost s = true →
          t.bb.intake = s.bb.intake ++ [bbEntry s 0 0xFF 0x0901 (n32 x) (n32 c.cepoch) 0 0]) ∧
        (∀ k, k < 4 → ctxProto s x = 1 → mcOn s k = true → mcSrc s k = 6 → regF s (mcCtl k) 0 11 = x → mcState s k = 1 ∨ mcState s k = 2 → mcState t k = 3)) ∧
    (isTalker x = true → c.state = 4 → launchDue s x c.nextN = true →
      let e := ctxPort s x
      let q := ctxF s x 7 21 3
      (ctxProto s x = 1 → ∃ t, exec (.talkerLaunch x) s = .next t ∧ (ctxOf t x).nextN = c.nextN + ctxNch s x * ctxSpp s x ∧
        (ethLink s e = true → (queueAt s e q).length < 32 → ∃ f, queueAt t e q = queueAt s e q ++ [f] ∧ f.length = frameBytes (20 + 8 * ctxNch s x)) ∧
        (ethLink s e = false → reg t (ethCnt e 7) = reg s (ethCnt e 7) + 1 ∧ queueAt t e q = queueAt s e q)) ∧
      (ctxProto s x ≠ 1 → ∃ t, exec (.talkerLaunch x) s = .next t ∧ (ctxOf t x).nextN = c.nextN + ctxSpp s x ∧
        (zeroFed s x = true → tget 0 t.net.ctxCnt (16 * x + 11) = tget 0 s.net.ctxCnt (16 * x + 11) ∧
          (ethLink s e = true → (queueAt s e q).length < 32 → ∃ f, queueAt t e q = queueAt s e q ++ [f] ∧ f.payload = List.replicate (ctxBytes s x) 0)) ∧
        (zeroFed s x = false → slotHolds s (ethMaster e) x c.nextN = false → tget 0 t.net.ctxCnt (16 * x + 11) = tget 0 s.net.ctxCnt (16 * x + 11) + 1 ∧
          (ethLink s e = true → (queueAt s e q).length < 32 → ∃ f, queueAt t e q = queueAt s e q ++ [f] ∧ f.payload = List.replicate (ctxBytes s x) 0))))

/-- `Clause.ListenersTakeTheirPackets` and `Clause.StreamsAreLostAndLaunched`, both of them.
Where the spec is read by inference or leaves a choice, it is the model's: log entry 62. -/
def Obligations.StreamsAreKept : Prop := Clause.ListenersTakeTheirPackets ∧ Clause.StreamsAreLostAndLaunched

/-- FRAME_TRANSMIT, LINK_DOWN, LINK_UP: the free line takes the first frame that may start, for as long as its bytes last; a link that is lost
drops the frames queued. MDIO_COMMAND: the command waiting is carried out, and what a read brings is kept. -/
def Clause.FramesAreSent : Prop :=
  ∀ (s : State) (e : Nat), e < 6 →
    (∀ q f r, ethOn s e = true → ethLink s e = true → tget 0 s.net.lineFree e ≤ s.now →
      let u := (upto 8).foldl (fun s q => dropBig s e q) (creditsNow s e)
      nextFrame u e = some (q, f, r) →
      ∃ t, exec (.frameTransmit e) s = .next t ∧ t.net.sent = (e, f) :: s.net.sent ∧ tget 0 t.net.lineFree e = s.now + cdiv (f.length * 8000000) (ethKbit s e) ∧
        reg t (ethCnt e 1) = reg s (ethCnt e 1) + 1 ∧ (match f.what with | .ptp _ _ => True | _ => queueAt t e q = r)) ∧
    (ethLink s e = true → ∃ t, exec (.linkDown e) s = .next t ∧ ethLink t e = false ∧ (∀ q, q < 8 → queueAt t e q = []) ∧ srcSignal t (912 + 4 * e) = false ∧
      OnlyRegsAndSources [ethStat e] [912 + 4 * e] { s with net := t.net } t) ∧
    (ethOn s e = true → ∃ t, exec (.linkUp e) s = .next t ∧ ethLink t e = true ∧ srcSignal t (912 + 4 * e) = true ∧ OnlyRegsAndSources [ethStat e] [912 + 4 * e] s t) ∧
    (∀ c (res : Word), s.net.mdio = some c →
      ∃ t, exec (.mdioCommand res) s = .next t ∧ t.net = { s.net with mdio := none, mdioResult := if rfld c 30 2 = 2 then res else s.net.mdioResult } ∧
        (∀ y z, s.fpp.long = some (0x5008 * 256 + 1, y, z) → t.fpp.long = none) ∧ t = { s with net := t.net, fpp := t.fpp })

/-- `Clause.FramesAreChecked` and `Clause.FramesAreSent`, both of them.
Where the spec is read by inference or leaves a choice, it is the model's: log entries 62, 64. -/
def Obligations.FramesComeAndGo : Prop := Clause.FramesAreChecked ∧ Clause.FramesAreSent

/-- GATE_INTERVAL_END, GATE_CHANGE_REQUEST, GATE_LIST_CHANGE: the next entry of the operating list comes into force, or the next cycle begins; a
requested change has its instant on the cycle grid; at that instant the lists change places. -/
def Clause.GatesFollowTheirList : Prop :=
  ∀ (s : State) (m e : Nat) (v : W32), masterOk m = true → e < 6 →
    (gatesRun s e = true → tget 0 s.net.gateCycle e + (gateNow s e).2.1 ≤ s.dtime →
      ∃ t, exec (.gateIntervalEnd e) s = .next t ∧
        (if (gateWindows s e).length ≤ tget 0 s.net.gateIdx e + 1 then tget 0 t.net.gateIdx e = 0 ∧ tget 0 t.net.gateCycle e = tget 0 s.net.gateCycle e + tget 0 s.net.gateSpan e
         else tget 0 t.net.gateIdx e = tget 0 s.net.gateIdx e + 1 ∧ tget 0 t.net.gateCycle e = tget 0 s.net.gateCycle e) ∧ t = { s with net := t.net }) ∧
    (rbit v 30 = true → ethPresent s.variant e = true → ownsClaim s (ethClaim e) m = true → regB s (ethGctl e) 30 = false → rbit v 31 = regB s (ethGctl e) 31 →
      gateZero (storePlain (creditsNow s e) m (ethGctl e) v) e = false →
      ∃ t, exec (.gateChangeRequest m e v) s = .next t ∧ regB t (ethGctl e) 30 = true ∧
        tget 0 t.net.gateChange e = gateInstant s e (if gatesRun s e then tget 0 s.net.gateCycle e + tget 0 s.net.gateSpan e else s.dtime) + 1) ∧
    (regB s (ethGctl e) 30 = true → tget 0 s.net.gateChange e ≠ 0 → tget 0 s.net.gateChange e ≤ s.dtime + 1 →
      ∃ t, exec (.gateListChange e) s = .next t ∧ gateOper t e = (!gateOper s e) ∧ regB t (ethGctl e) 30 = false ∧ tget 0 t.net.gateChange e = 0 ∧
        (regB s (ethGctl e) 31 = true → tget 0 t.net.gateCycle e = tget 0 s.net.gateChange e - 1 ∧ tget 0 t.net.gateIdx e = 0 ∧ tget 0 t.net.gateLen e = gnlen s e) ∧
        OnlyRegsAndSources [ethGctl e] [914 + 4 * e] { s with net := t.net } t)

/-- CONTEXT_ENABLE, CONTEXT_DISABLE, REBIND: the holder of a context's claim enables a descriptor that passes every check, a listener to wait for a
partner, a talker to run; it disables one that no admitted wagon names, and makes a listener wait anew. Any other is refused with CONFLICT.
Where the spec is read by inference or leaves a choice, it is the model's: log entry 63. -/
def Obligations.ContextsAreEnabled : Prop :=
  ∀ (s : State) (m e : Nat) (v : W32), masterOk m = true → e < 6 → ethPresent s.variant e = true →
    let x := cxSel s m e
    let u := setCtxW s x 0 (n32 (v.toNat &&& 0xBFFFFEFF))
    (cxOwned s x m = true →
      (rbit v 31 = true → ctxEn s x = false → cxReserved 0 v.toNat = [] → cxOk u x = true →
        ∃ t, exec (.contextEnable m e v) s = .next t ∧ ctxEn t x = true ∧ (ctxOf t x).state = (if isTalker x then 4 else 1) ∧ t.mem = s.mem) ∧
      (rbit v 31 = true → ctxEn s x = true ∨ cxReserved 0 v.toNat ≠ [] ∨ cxOk u x = false →
        ∃ t, exec (.contextEnable m e v) s = .next t ∧ ctxEn t x = ctxEn s x ∧ tget 0 t.net.ctxConflict x = 1 ∧ regB t (ethStat e) 30 = true ∧ ctxOf t x = ctxOf s x) ∧
      (rbit v 31 = false → ctxEn s x = true → cxTaken s x = false →
        ∃ t, exec (.contextDisable m e v) s = .next t ∧ ctxEn t x = false ∧ (ctxOf t x).state = 0 ∧ t.mem = s.mem)) ∧
    (cxOwned s x m = false → rbit v 31 = true →
      ∃ t, exec (.contextEnable m e v) s = .next t ∧ ctxEn t x = ctxEn s x ∧ tget 0 t.net.ctxConflict x = 1 ∧ ctxOf t x = ctxOf s x) ∧
    (rbit v 27 = true → isTalker x = false → ctxEn s x = true → cxTaken s x = false →
      ∃ t, exec (.rebind m e v) s = .next t ∧ ctxOf t x = { ctxOf s x with state := 1 } ∧ t = { s with net := t.net })

/-- SYNC_RECEIPT_TIMEOUT, SYNC_TRANSMIT, PDELAY_REQUEST: a domain without Sync for three intervals forgets its grandmaster and leaves SYNCED, and the
clocks that follow it go to HOLDOVER; a device that may be grandmaster announces and sends a Sync each interval; every instance measures its
neighbour. -/
def Clause.TimeIsKept : Prop :=
  ∀ (s : State) (d : Nat), d < 2 → ptpOn s d = true →
    let p := ptpOf s d
    let e := ptpPort s d
    (ptpIsGm s d = false → p.gm ≠ 0 → p.lastSync + 3 * logNs p.syncInterval ≤ s.now →
      ∃ t, exec (.syncReceiptTimeout d) s = .next t ∧ (ptpOf t d).gm = 0 ∧ (ptpState s d = 2 → ptpState t d = 1 ∧
        ∀ k, k < 4 → mcOn s k = true → mcSrc s k = d + 1 → mcState s k = 1 ∨ mcState s k = 2 → mcState t k = 3) ∧
        (ptpState s d ≠ 2 → t = { s with net := t.net })) ∧
    (gmCap s d = true → p.gm = 0 ∨ ptpIsGm s d = true → p.lastTx = 0 ∨ p.lastTx + logNs p.syncInterval ≤ s.now + 1 →
      ∃ t, exec (.syncTransmit d) s = .next t ∧ ptpIsGm t d = true ∧ (ptpOf t d).lastTx = s.now + 1 ∧ (ptpIsGm s d = false → ptpState t d = 2 ∧ (ptpOf t d).gm = clockId s d) ∧
        (ethLink s e = true → (queueAt s e 7).length < 31 → queueAt t e 7 = queueAt s e 7 ++
          [{ length := plainBytes 76, what := .ptp (ptpNum s d) (.announce (ownPrio1 s d) 248 0xFE 0x4100 (ownPrio2 s d) (clockId s d)), payload := [] },
           { length := plainBytes 44, what := .ptp (ptpNum s d) (.sync true 0), payload := [] }])) ∧
    (p.lastPdelay = 0 ∨ p.lastPdelay + logNs p.pdelayInterval ≤ s.now + 1 →
      ∃ t, exec (.pdelayRequest d) s = .next t ∧ (ptpOf t d).reqSeq = p.reqSeq + 1 ∧ (ptpOf t d).lastPdelay = s.now + 1 ∧
        (ethLink s e = true → (queueAt s e 7).length < 32 → queueAt t e 7 = queueAt s e 7 ++
          [{ length := plainBytes 54, what := .ptp (ptpNum s d) (.pdelayReq ((p.reqSeq + 1) % 65536)), payload := [] }]))

/-- `Clause.GatesFollowTheirList` and `Clause.TimeIsKept`, both of them.
Where the spec is read by inference or leaves a choice, it is the model's: log entries 64, 65. -/
def Obligations.GatesAndTime : Prop := Clause.GatesFollowTheirList ∧ Clause.TimeIsKept

/-! ## The parameter agent (chapter 15) -/

/-- The state in which the request at the front of the queue is processed: it is counted, the deadlines before its arrival are past, its session
is open. -/
def taken (s : State) (q : Request) (r : List Request) : State := touch (settle (fppCount { s with fpp := { s.fpp with queue := r } } 1) q.arrival) q
/-- `t` holds the response to `q` where its transport puts it, after what `u` held: sent on CAN FD, in transmit queue 0 for UDP where the link is up
and the queue has room, waiting to be read at the SPI port where fewer than four wait. -/
def AnsweredBy (u t : State) (q : Request) (status typ offset total : Nat) (data : List Byte) : Prop :=
  let p : Response := { dest := q.from_, cmd := q.cmd, seq := q.seq, index := q.index, sub := q.sub, typ := typ, epoch := t.fpp.epoch, offset := offset,
                        total := total, status := status, data := data }
  match q.from_ with
  | .can _ _ => t.fpp.out = u.fpp.out ++ [p]
  | .udp e _ _ => ethLink u e = true → (queueAt u e 0).length < 32 →
      queueAt t e 0 = queueAt u e 0 ++ [{ length := plainBytes (48 + data.length), what := .fpp q.from_ (encodeResp p), payload := [] }]
  | .spi => u.fpp.spi.length < 4 → t.fpp.spi = u.fpp.spi ++ [p]
/-- A write whose value is whole in one message. -/
def WholeWrite (q : Request) : Prop := q.malformed = false ∧ q.offset = 0 ∧ q.total = q.data.length

/-- REQUEST_ARRIVAL and SPI_READ: a request of a transport in use joins the queue; a full queue aborts it with 0x0A and a reserved command with
7; a message that is no request is counted and discarded, and a CAN frame for another device is left alone. -/
def Clause.RequestsArrive : Prop :=
  ∀ (s : State) (a : Arrival) (l : List Byte), arrivalOk a = true → 2 ≤ s.dev → transportUp s (arrivalFrom a) = true →
    let q := parseReq (arrivalFrom a) s.dtime l
    (discarded a l = true → exec (.requestArrival a l) s = .next (fppCount s 15)) ∧
    (discarded a l = false → notForUs s a = true → exec (.requestArrival a l) s = .next s) ∧
    (discarded a l = false → notForUs s a = false → cmdOk q.cmd = true → s.fpp.queue.length < 32 →
      ∃ t, exec (.requestArrival a l) s = .next t ∧ t.fpp = { s.fpp with queue := s.fpp.queue ++ [q] } ∧ t = { s with regs := t.regs, intc := t.intc, fpp := t.fpp }) ∧
    (discarded a l = false → notForUs s a = false → cmdOk q.cmd = true → 32 ≤ s.fpp.queue.length →
      ∃ t, exec (.requestArrival a l) s = .next t ∧ t.fpp.queue = s.fpp.queue ∧ AnsweredBy s t q 10 0 0 0 []) ∧
    (discarded a l = false → notForUs s a = false → cmdOk q.cmd = false → q.cmd < 0x80 →
      ∃ t, exec (.requestArrival a l) s = .next t ∧ t.fpp.queue = s.fpp.queue ∧ AnsweredBy s t q 7 0 0 0 []) ∧
    (∀ p rest, s.fpp.spi = p :: rest → exec .spiRead s = .next { s with fpp := { s.fpp with spi := rest, out := s.fpp.out ++ [p] } })

/-- READ and STATUS: a legal read answers the value, or the rest of the value that its session's last read kept; a name that does not exist is
aborted with 1; STATUS answers the status of the session's long request. -/
def Clause.ReadsAreAnswered : Prop :=
  ∀ (s : State) (q : Request) (r : List Request), 2 ≤ s.dev → s.fpp.queue = q :: r → q.malformed = false → q.data = [] → q.typ = 0 →
    let u := taken s q r
    (q.cmd = 1 → entrySubs q.index ≠ [] → (subAt q.index q.sub).isSome = true → unitAbsent u q.index q.sub = false → subAcc q.index q.sub ≠ 2 →
      (subAcc q.index q.sub = 4 → isHolder u q.from_ = true) → readLegal u q.index = true →
      ∀ v, (if q.offset = 0 then some (readVal u (sessOf u q.from_) q.index q.sub) else snapOf u q) = some v → q.offset ≤ v.length →
      ∃ t, exec .read s = .next t ∧ AnsweredBy u t q 0 (subTyp q.index q.sub) q.offset v.length ((v.drop q.offset).take (segMax q.from_)) ∧
        t.carts = u.carts ∧ t.mem = u.mem ∧ t.fpp.vals = u.fpp.vals ∧ t.dev = u.dev) ∧
    (q.cmd = 1 → entrySubs q.index = [] → ∃ t, exec .read s = .next t ∧ AnsweredBy u t q 1 0 0 0 [] ∧ t.carts = u.carts ∧ t.mem = u.mem ∧ t.dev = u.dev) ∧
    (∀ e, q.cmd = 3 → sessOf u q.from_ = some e → tget 0xFFFF e.outcomes (keyOf q.index q.sub) ≠ 0xFFFF →
      (q.index = 0 ∧ q.sub = 0) ∨ (entrySubs q.index ≠ [] ∧ (subAt q.index q.sub).isSome = true ∧ unitAbsent u q.index q.sub = false) →
      ∃ t, exec .status s = .next t ∧ AnsweredBy u t q (tget 0xFFFF e.outcomes (keyOf q.index q.sub)) 0 0 0 [] ∧ t.carts = u.carts ∧ t.mem = u.mem ∧ t.dev = u.dev)

/-- `Clause.RequestsArrive` and `Clause.ReadsAreAnswered`, both of them.
Where the spec is read by inference or leaves a choice, it is the model's: log entries 66, 68. -/
def Obligations.RequestsAndReads : Prop := Clause.RequestsArrive ∧ Clause.ReadsAreAnswered

/-- WRITE: a value that a check turns away is answered with that check's code and changes nothing; a selector is kept for its session; a value in
its range is kept, and kept for flash where the entry says so; one outside it is aborted with 6. -/
def Clause.WritesAreChecked : Prop :=
  ∀ (s : State) (q : Request) (r : List Request) (e : Session), 2 ≤ s.dev → s.fpp.queue = q :: r → q.cmd = 2 → WholeWrite q →
    let v := dropXfer (taken s q r) q
    (writeCode v q q.data ≠ 0 → ∃ t, exec .write s = .next t ∧ AnsweredBy v t q (writeCode v q q.data) 0 0 0 [] ∧ t.fpp.vals = v.fpp.vals ∧ t.carts = v.carts ∧
      t.media = v.media ∧ t.mem = v.mem ∧ t.dev = v.dev) ∧
    (writeCode v q q.data = 0 → sessOf v q.from_ = some e → isSelector q.index q.sub = true → v.bb.rearming = false → selectorCode v q.index q.sub (ofBe q.data) = 0 →
      ∃ t, exec .write s = .next t ∧ AnsweredBy v t q 0 0 0 0 [] ∧ selOf (sessOf t q.from_) q.index q.sub = ofBe q.data ∧ t.fpp.vals = v.fpp.vals ∧ t.carts = v.carts) ∧
    (writeCode v q q.data = 0 → sessOf v q.from_ = some e → q.index = 0x3020 → q.sub = 2 →
      (50 ≤ ofBe q.data → ofBe q.data ≤ 1000 → ∃ t, exec .write s = .next t ∧ AnsweredBy v t q 0 0 0 0 [] ∧ tget [] t.fpp.vals 0x302002 = q.data ∧ 0x302002 ∈ t.fpp.dirty ∧
        t.carts = v.carts ∧ t.media = v.media) ∧
      (ofBe q.data < 50 ∨ 1000 < ofBe q.data → ∃ t, exec .write s = .next t ∧ AnsweredBy v t q 6 0 0 0 [] ∧ t.fpp.vals = v.fpp.vals))

/-- CLAIM, ELECTION_END, OWNER_LAPSE: a claim opens an election of 100 ms or joins it, and its end makes the claim of the highest priority, or the
lowest node identity among equals, owner at the next epoch; an owner not heard of for 500 ms is none. -/
def Clause.OwnersAreElected : Prop :=
  ∀ (s : State) (q : Request) (r : List Request), 2 ≤ s.dev →
    (s.fpp.queue = q :: r → q.cmd = 0x10 → badCmd q 8 = false →
      let u := taken s q r
      let n := node6 q.data 0
      let p := nth q.data 6
      (u.dev ≠ 7 → u.fpp.own ≠ 2 → p ≤ 15 → n ≠ 0 → n ≠ 2 ^ 48 - 1 → (sessOf u q.from_).isSome = true →
        ∃ t, exec .claim s = .next t ∧ t.fpp.own = 1 ∧ { session := q.from_, node := n, prio := p } ∈ t.fpp.candidates ∧
          t.fpp.electionEnd = (if u.fpp.own = 1 then u.fpp.electionEnd else q.arrival + 100000000) ∧ t.fpp.epoch = u.fpp.epoch ∧ AnsweredBy u t q 0x80 0 0 0 []) ∧
      (u.dev ≠ 7 → u.fpp.own = 2 → ∃ t, exec .claim s = .next t ∧ t.fpp.own = 2 ∧ t.fpp.ownerNode = u.fpp.ownerNode ∧ AnsweredBy u t q 4 0 0 0 [])) ∧
    (s.fpp.own = 1 → s.fpp.electionEnd ≤ s.dtime → queuePast s s.fpp.electionEnd = true → s.fpp.candidates ≠ [] →
      ∃ t w, exec .electionEnd s = .next t ∧ w ∈ s.fpp.candidates ∧ t.fpp.own = 2 ∧ t.fpp.ownerNode = w.node ∧ t.fpp.ownerPrio = w.prio ∧ t.fpp.ownerSession = some w.session ∧
        t.fpp.epoch = (if s.fpp.epoch = 0xFFFF then 1 else s.fpp.epoch + 1) ∧ t.fpp.grants = s.fpp.grants + 1 ∧ t.fpp.candidates = [] ∧
        (∀ c, c ∈ s.fpp.candidates → c.prio ≤ w.prio ∧ (c.prio = w.prio → w.node ≤ c.node))) ∧
    (s.fpp.own = 2 → s.dev ≠ 7 → s.fpp.ownerSeen + 500000000 ≤ s.dtime → queuePast s (s.fpp.ownerSeen + 500000000) = true →
      ∃ t, exec .ownerLapse s = .next t ∧ t.fpp.own = 0 ∧ t.fpp.ownerNode = 0 ∧ t.fpp.ownerSession = none ∧ t.fpp.epoch = s.fpp.epoch ∧ t.fpp.lapses = s.fpp.lapses + 1 ∧
        t.carts = s.carts ∧ t.dev = s.dev)

/-- HEARTBEAT, HANDOVER, RELEASE: the owner's heartbeat holds its ownership and another node's notes it as present; the owner hands over to a node
that is present, at the next epoch, or releases its ownership. -/
def Clause.OwnersKeepAndGive : Prop :=
  ∀ (s : State) (q : Request) (r : List Request), 2 ≤ s.dev → s.fpp.queue = q :: r →
    let u := taken s q r
    (q.cmd = 0x11 → badCmd q 8 = false → (sessOf u q.from_).isSome = true →
      (u.fpp.own = 2 → u.fpp.ownerNode = node6 q.data 0 → q.epoch = u.fpp.epoch →
        ∃ t, exec .heartbeat s = .next t ∧ t.fpp.ownerSession = some q.from_ ∧ t.fpp.ownerSeen = Nat.max u.fpp.ownerSeen q.arrival ∧
          AnsweredBy u t q 0 0 0 0 (beBytes 6 u.fpp.ownerNode ++ [0, 0])) ∧
      (u.fpp.own ≠ 2 ∨ u.fpp.ownerNode ≠ node6 q.data 0 →
        ∃ t, exec .heartbeat s = .next t ∧ { node := node6 q.data 0, prio := nth q.data 6, session := q.from_, at_ := q.arrival } ∈ t.fpp.present ∧
          t.fpp.ownerSeen = u.fpp.ownerSeen ∧ AnsweredBy u t q 0 0 0 0 (beBytes 6 u.fpp.ownerNode ++ [0, 0]))) ∧
    (q.cmd = 0x12 → badCmd q 12 = false → u.dev ≠ 7 → mayOwn u q = true →
      ∀ x, u.fpp.present.find? (fun x => x.node = node6 q.data 6 && decide (q.arrival < x.at_ + 500000000)) = some x →
      ∃ t, exec .handover s = .next t ∧ t.fpp.own = u.fpp.own ∧ t.fpp.ownerNode = x.node ∧ t.fpp.ownerPrio = x.prio ∧ t.fpp.ownerSession = some x.session ∧
        t.fpp.epoch = (if u.fpp.epoch = 0xFFFF then 1 else u.fpp.epoch + 1) ∧ AnsweredBy u t q 0 0 0 0 []) ∧
    (q.cmd = 0x13 → badCmd q 6 = false → u.dev ≠ 7 → mayOwn u q = true →
      ∃ t, exec .release s = .next t ∧ t.fpp.own = 0 ∧ t.fpp.ownerNode = 0 ∧ t.fpp.ownerSession = none ∧ t.fpp.epoch = u.fpp.epoch ∧ AnsweredBy u t q 0 0 0 0 [])

/-- `Clause.OwnersAreElected` and `Clause.OwnersKeepAndGive`, both of them.
Where the spec is read by inference or leaves a choice, it is the model's: log entry 67. -/
def Obligations.Owners : Prop := Clause.OwnersAreElected ∧ Clause.OwnersKeepAndGive

/-- SESSION_CLOSE, TRANSFER_TIMEOUT, COMM_SETTINGS_APPLY, RWP_PERSIST: what the agent does later of itself. -/
def Clause.SessionsAndSettingsEnd : Prop :=
  ∀ (s : State) (a : Transport) (k : Nat) (l : List Nat), transportOk a = true →
    (∃ t, exec (.sessionClose a) s = .next t ∧ t = { s with fpp := { s.fpp with sessions := t.fpp.sessions } } ∧
      ∀ e, e ∈ t.fpp.sessions ↔ e ∈ s.fpp.sessions ∧ ¬(e.addr = a ∧ e.last + 10 ^ 10 ≤ s.dtime ∧ isOwnerSess s a = false ∧ isHolder s a = false ∧ ∀ q, q ∈ s.fpp.queue → q.from_ ≠ a)) ∧
    (∃ t, exec (.transferTimeout a) s = .next t ∧ t = { s with fpp := { s.fpp with sessions := t.fpp.sessions } } ∧
      ∀ e, sessOf s a = some e → sessOf t a = some (if e.xferKey.isSome ∧ e.xferAt + 10 ^ 9 ≤ s.dtime then { e with xfer := [], xferTotal := 0 } else e)) ∧
    (∃ t, exec .commSettingsApply s = .next t ∧ t.fpp.comm = [] ∧ (∀ e x, e ∈ s.fpp.comm → x ∈ t.fpp.sessions → commOf e.1 x.addr = false) ∧
      (∀ n d, s.fpp.comm = [(n, d)] → tget [] t.fpp.vals (0x1030 * 256 + n) = d ∧ 0x1030 * 256 + n ∈ t.fpp.dirty ∧
        ∀ x, commOf n x.addr = false → (x ∈ t.fpp.sessions ↔ x ∈ s.fpp.sessions)) ∧ t = { s with fpp := t.fpp }) ∧
    (s.fpp.dirty = k :: l →
      (∃ t, exec (.rwpPersist true) s = .next t ∧ t.fpp.dirty = l ∧ tget [] t.fpp.stored k = tget [] s.fpp.vals k ∧ t.fpp.vals = s.fpp.vals ∧ t = { s with fpp := t.fpp }) ∧
      (∃ t, exec (.rwpPersist false) s = .next t ∧ t.fpp.dirty = l ∧ t.fpp.stored = s.fpp.stored ∧ tget 0 t.fpp.counts 16 = (tget 0 s.fpp.counts 16 + 1) % 2 ^ 32))

/-- SVC_CLAIM, SVC_PROVE, CHALLENGE_EXPIRY, SVC_END, SERVICE_LAPSE and SERVICE_EN_DEASSERT: a claim draws a challenge; a proof that verifies in time takes the device to SERVICE, any other is counted; a challenge
expires; SVC_END, a lapse of 500 ms and SERVICE_EN end the session and return to the held state. -/
def Clause.TheServiceSession : Prop :=
  ∀ (s : State) (q : Request) (r : List Request), 2 ≤ s.dev →
    (s.fpp.queue = q :: r →
      let u := taken s q r
      (q.cmd = 0x20 → badCmd q 8 = false → 3 ≤ u.dev → u.dev ≠ 7 → u.serviceEn = true → u.fpp.svcHeld = false → u.fpp.keys ≠ [] → u.fpp.lockedUntil ≤ q.arrival →
        (sessOf u q.from_).isSome = true →
        ∃ t, exec .svcClaim s = .next t ∧ t.fpp.challenge = some (u.fpp.challenges, q.arrival) ∧ t.fpp.challengeFor = some q.from_ ∧ t.fpp.challenges = u.fpp.challenges + 1 ∧
          t.dev = u.dev ∧ AnsweredBy u t q 0 0 0 0 (beBytes 32 (Config.challenge u.fpp.challenges).toNat)) ∧
      (∀ n at_, q.cmd = 0x21 → badCmd q 64 = false → 3 ≤ u.dev → u.dev ≠ 7 → u.fpp.svcHeld = false → u.fpp.challengeFor = some q.from_ → u.fpp.challenge = some (n, at_) →
        q.arrival < at_ + 10 ^ 10 → u.serviceEn = true →
        ∃ t, exec .svcProve s = .next t ∧ t.fpp.challenge = none ∧ AnsweredBy u t q 0x80 0 0 0 [] ∧
          (match proofKey u n q.data with
           | some _ => t.dev = 7 ∧ t.held = u.dev ∧ t.fpp.svcHeld = true ∧ t.fpp.svcSession = some q.from_ ∧ t.fpp.svcNode = u.fpp.challengeNode
           | none => t.dev = u.dev ∧ t.fpp.svcHeld = false ∧ t.fpp.failedTotal = u.fpp.failedTotal + 1)) ∧
      (q.cmd = 0x22 → badCmd q 0 = false → isHolder u q.from_ = true →
        ∃ t, exec .svcEnd s = .next t ∧ t.dev = u.held ∧ t.held = 0 ∧ t.fpp.svcHeld = false ∧ t.fpp.svcSession = none ∧ t.carts = u.carts ∧ AnsweredBy u t q 0 0 0 0 [])) ∧
    (∀ n at_, s.fpp.challenge = some (n, at_) → at_ + 10 ^ 10 ≤ s.dtime → queuePast s (at_ + 10 ^ 10) = true →
      ∃ t, exec .challengeExpiry s = .next t ∧ t.fpp.challenge = none ∧ t.fpp.challengeFor = none ∧ t.fpp.failedTotal = s.fpp.failedTotal ∧ t.fpp.lockedUntil = s.fpp.lockedUntil ∧ t.dev = s.dev) ∧
    (s.dev = 7 → s.fpp.svcHeld = true → s.fpp.svcSeen + 500000000 ≤ s.dtime → queuePast s (s.fpp.svcSeen + 500000000) = true →
      ∃ t, exec .serviceLapse s = .next t ∧ t.dev = s.held ∧ t.held = 0 ∧ t.fpp.svcHeld = false ∧ t.fpp.svcSession = none ∧ t.carts = s.carts) ∧
    (s.dev = 7 → s.fpp.svcHeld = true → ∃ t, exec .serviceEnDeassert s = .next t ∧ t.serviceEn = false ∧ t.dev = s.held ∧ t.held = 0 ∧ t.fpp.svcHeld = false ∧ t.carts = s.carts) ∧
    (s.dev ≠ 7 → exec .serviceEnDeassert s = .next { s with serviceEn := false })

/-- `Clause.SessionsAndSettingsEnd` and `Clause.TheServiceSession`, both of them.
Where the spec is read by inference or leaves a choice, it is the model's: log entries 68, 70. -/
def Obligations.SessionsAndService : Prop := Clause.SessionsAndSettingsEnd ∧ Clause.TheServiceSession

/-- The commands that are a write of one subindex, accepted: SAFE_COMMAND and CONFIG_COMMAND change the device state, WITHDRAW takes the timetable
back, RESOURCE_CLAIM and RESOURCE_RELEASE move a pin's claim, CLEAR_REPORT_COUNTS zeroes the counts, MANUAL_TRIGGER and OWNER_NOTE make entries,
REARM begins, COPY_SLOT_ERASE begins and, when it ends, leaves no copy. -/
def Clause.CommandsByWrite : Prop :=
  ∀ (s : State) (q : Request) (r : List Request) (e : Session), 2 ≤ s.dev →
    (s.fpp.queue = q :: r → q.cmd = 2 → WholeWrite q →
      let v := dropXfer (taken s q r) q
      let room := (v.bb.ready && v.bb.header.state = 2) = false ∧ v.bb.intake.length < 32 ∧ bbNoneLost v = true
      writeCode v q q.data = 0 → sessOf v q.from_ = some e →
      (q.index = 0x1020 → q.sub = 3 → ofBe q.data = 6 → v.dev ≠ 7 → ∃ t, exec .safeCommand s = .next t ∧ t.dev = 6 ∧ t.carts.table = none ∧ AnsweredBy v t q 0 0 0 0 []) ∧
      (q.index = 0x1020 → q.sub = 3 → ofBe q.data = 6 → v.dev = 7 → ∃ t, exec .safeCommand s = .next t ∧ t.dev = 7 ∧ t.held = 6 ∧ t.carts.table = none) ∧
      (q.index = 0x1020 → q.sub = 3 → ofBe q.data = 3 → ∃ t, exec .configCommand s = .next t ∧ t.dev = 3 ∧ t.carts = v.carts ∧ AnsweredBy v t q 0 0 0 0 []) ∧
      (q.index = 0x4000 → q.sub = 3 → v.dev = 4 ∨ v.dev = 5 → ∃ t, exec .withdraw s = .next t ∧ t.dev = 3 ∧ t.carts.table = none ∧ AnsweredBy v t q 0 0 0 0 []) ∧
      (∀ i, q.index = 0x9000 → q.sub = 1 → ofBe q.data = 0x0A000000 + i → i < 10 → tget 0 v.media.pinClaims i = 0 →
        ∃ t, exec .resourceClaim s = .next t ∧ tget 0 t.media.pinClaims i = 108 ∧ (∀ j, j ≠ i → tget 0 t.media.pinClaims j = tget 0 v.media.pinClaims j) ∧ AnsweredBy v t q 0 0 0 0 []) ∧
      (∀ i, q.index = 0x9000 → q.sub = 2 → ofBe q.data = 0x0A000000 + i → i < 10 → tget 0 v.media.pinClaims i = 108 → pinUsed v i = false →
        ∃ t, exec .resourceRelease s = .next t ∧ tget 0 t.media.pinClaims i = 0 ∧ (∀ j, j ≠ i → tget 0 t.media.pinClaims j = tget 0 v.media.pinClaims j) ∧ AnsweredBy v t q 0 0 0 0 []) ∧
      (q.index = 0x7010 → q.sub = 0xF → ∃ t, exec .clearReportCounts s = .next t ∧ (∀ c, c < 13 → tget 0 t.mem.reports c = 0) ∧ t.mem.data = v.mem.data ∧ AnsweredBy v t q 0 0 0 0 []) ∧
      (v.bb.rearming = false →
        (q.index = 0x8001 → q.sub = 2 → room → ∃ t, exec .manualTrigger s = .next t ∧ bbEntry v 1 0xFF 0x0C03 (pairHi (issuer v)) (pairLo (issuer v) 0) 0 0 ∈ t.bb.intake ∧ AnsweredBy v t q 0 0 0 0 []) ∧
        (q.index = 0x8001 → q.sub = 4 → room → ∃ t x, exec .ownerNote s = .next t ∧ x ∈ t.bb.intake ∧ x.code = 0x0D01 ∧ x.skind = 1 ∧ x.sinst = 0xFF ∧ x.time = v.dtime % 2 ^ 64 ∧
          x.p0 = n32 ((blobRegs q.data).getD 0 0) ∧ x.p3 = n32 ((blobRegs q.data).getD 3 0) ∧ AnsweredBy v t q 0 0 0 0 []) ∧
        (q.index = 0x8001 → q.sub = 3 → v.fpp.long = none → ∃ t, exec .rearm s = .next t ∧ t.bb.rearming = true ∧ t.bb.ring = v.bb.ring ∧ AnsweredBy v t q 0x80 0 0 0 []) ∧
        (q.index = 0x8011 → q.sub = 1 → s.fpp.long = none → v.fpp.long = none → ∃ t, exec .copySlotErase s = .next t ∧ t.fpp.long = some (0x801101, ofBe q.data, q.from_) ∧ t.bb.copies = v.bb.copies ∧
          AnsweredBy v t q 0x80 0 0 0 []))) ∧
    (∀ y z, s.fpp.long = some (0x801101, y, z) → ∃ t, exec .copySlotErase s = .next t ∧ t.fpp.long = none ∧ t.bb.copyOrder = s.bb.copyOrder.filter (fun p => 4 ≤ p) ∧
      ∀ p, p < 4 → tget copy0 t.bb.copies p = copy0)

/-- `Clause.WritesAreChecked` and `Clause.CommandsByWrite`, both of them.
Where the spec is read by inference or leaves a choice, it is the model's: log entries 59, 69. -/
def Obligations.WritesAndTheirCommands : Prop := Clause.WritesAreChecked ∧ Clause.CommandsByWrite

/-! ## Black box, reset and boot, power (chapters 15 to 17) -/

/-- RING_WRITE: 16 fabric cycles after the entry before it, the oldest entry of the intake is written at WRIDX with the ring's sequence number; one that triggers fixes TRIGIDX and starts the
count of 256 that ends FROZEN, in which entries are dropped and counted; as the intake has room, the losses of the lowest class are told. -/
def Clause.TheRingRecords : Prop :=
  ∀ (s : State) (e : BbEntry) (r : List BbEntry), s.bb.ready = true → s.bb.rearming = false → s.bb.intake = e :: r →
    let h := s.bb.header
    (s.now < s.bb.nextWrite → exec .ringWrite s = .next s) ∧
    (s.bb.nextWrite ≤ s.now → h.state ≠ 2 → ∃ t, exec .ringWrite s = .next t ∧ t.bb.nextWrite = s.now + 16 ∧ ringAtIdx t.bb.ring h.wridx = { e with seq := h.seq % 2 ^ 32 } ∧
      (∀ i, i ≠ h.wridx → ringAtIdx t.bb.ring i = ringAtIdx s.bb.ring i) ∧ t.bb.header.wridx = (h.wridx + 1) % 4096 ∧ t.bb.header.seq = (h.seq + 1) % 2 ^ 32 ∧
      (h.state = 0 → triggers s e = false → t.bb.header.state = 0) ∧
      (h.state = 0 → triggers s e = true → t.bb.header.state = 1 ∧ t.bb.header.trigidx = h.wridx ∧ t.bb.since = 0) ∧
      (h.state = 1 → t.bb.since = s.bb.since + 1 ∧ t.bb.header.state = (if s.bb.since + 1 = 256 then 2 else 1))) ∧
    (s.bb.nextWrite ≤ s.now → h.state = 2 → ∃ t, exec .ringWrite s = .next t ∧ t.bb.ring = s.bb.ring ∧ t.bb.header.dropped = incSat 32 h.dropped ∧ t.bb.header.wridx = h.wridx) ∧
    (s.bb.nextWrite ≤ s.now → bbNoneLost s = true → ∃ t, exec .ringWrite s = .next t ∧ t.bb.intake = r) ∧
    (∀ c, s.bb.nextWrite ≤ s.now → (upto 16).find? (fun c => !(reg s (bbLost c) = 0)) = some c →
      ∃ t, exec .ringWrite s = .next t ∧ reg t (bbLost c) = 0 ∧ t.bb.intake = r ++ [bbEntry s 0 0xFF 0x0C01 (n32 c) (n32 (regF s (bbLost c) 0 16)) 0 0])

/-- BB_IN_COMMIT, REARM_COMPLETE, LOST_PERIOD_SUMMARY: L0's store of the last word offers its entry; a rearm leaves the ring copied and recording;
the losses of a whole second are told and counted anew. -/
def Clause.EntriesAndCopies : Prop :=
  ∀ (s : State) (m : Nat) (v : W32), masterOk m = true →
    let room := (s.bb.ready && s.bb.header.state = 2 && !s.bb.rearming) = false ∧ s.bb.intake.length < 32 ∧ bbNoneLost s = true
    (room → ∃ t, exec (.bbInCommit 72 v) s = .next t ∧
      t.bb.intake = s.bb.intake ++ [bbEntry s 1 (rfld (reg s (bbIn 0)) 0 8) (rfld (reg s (bbIn 0)) 16 16) (reg s (bbIn 2)) (reg s (bbIn 3)) (reg s (bbIn 4)) v] ∧
      OnlyRegs [bbIn 5] { s with bb := t.bb } t) ∧
    (m ≠ 72 → exec (.bbInCommit m v) s = .next s) ∧
    (s.bb.rearming = true → ∃ t, exec .rearmComplete s = .next t ∧ t.bb.rearming = false ∧ t.bb.header.state = 0 ∧ t.bb.header.dropped = 0 ∧ t.bb.ring = s.bb.ring ∧
      tget copy0 t.bb.copies (copySlot s) = { header := s.bb.header, valid := true, time := s.dtime, ring := s.bb.ring, damage := ringDamage s } ∧ t.bb.copyOrder.head? = some (copySlot s)) ∧
    (s.carts.lostNow ≠ [] → s.carts.lastSecond < s.dtime / 10 ^ 9 → ∃ t, exec .lostPeriodSummary s = .next t ∧ t.carts = { s.carts with lostNow := [], lastSecond := s.dtime / 10 ^ 9 } ∧
      (room → ∃ x, t.bb.intake = s.bb.intake ++ [x] ∧ x.code = 0x0A01 ∧ x.p0 = n32 ((s.carts.lostNow.map (fun e => e.2)).foldl (· + ·) 0) ∧ x.p1 = n32 s.carts.lostNow.length))

/-- PFAIL_ASSERT, PFAIL_RELEASE, DIP_END: a dip mutes the outputs and parks the DRAM; it ends 1 ms after the pin's release, with its length kept. -/
def Clause.DipsAreRidden : Prop :=
  ∀ s : State,
    (s.bb.pfail = false → ∃ t, exec .pfailAssert s = .next t ∧ t.bb.pfail = true ∧ t.bb.dip = true ∧ srcSignal t 1043 = true ∧
      (s.bb.dip = false → t.bb.dips = s.bb.dips + 1 ∧ t.bb.dipStart = s.now ∧ t.bb.muted = true) ∧ (s.bb.dip = true → t.bb.dips = s.bb.dips ∧ t.bb.dipStart = s.bb.dipStart) ∧
      (dramParked s = false → t.mem.parking = true) ∧ t.carts = s.carts ∧ t.coaches = s.coaches) ∧
    (s.bb.pfail = true → ∃ t, exec .pfailRelease s = .next t ∧ t.bb = { s.bb with pfail := false, dipRelease := s.now } ∧ srcSignal t 1043 = false ∧
      OnlyRegsAndSources [] [1043] { s with bb := t.bb } t) ∧
    (s.bb.dip = true → s.bb.pfail = false → s.bb.dipRelease + 1000000 ≤ s.now → ∃ t, exec .dipEnd s = .next t ∧ t.bb.dip = false ∧ t.bb.muted = false ∧
      t.bb.dipLongest = Nat.max s.bb.dipLongest ((s.bb.dipRelease - s.bb.dipStart) / 1000) ∧ t.bb.dipTotal = s.bb.dipTotal + (s.bb.dipRelease - s.bb.dipStart) / 1000 ∧
      t.carts = s.carts ∧ t.mem = s.mem)

/-- `Clause.TheRingRecords`, `Clause.EntriesAndCopies`, `Clause.DipsAreRidden`, all of them.
Where the spec is read by inference or leaves a choice, it is the model's: log entry 78. -/
def Obligations.TheBlackBox : Prop := Clause.TheRingRecords ∧ Clause.EntriesAndCopies ∧ Clause.DipsAreRidden

/-- `t` is the device after reset from source `code`: in RESET, with its memories clear and everything at its reset value but what survives. -/
def AfterReset (s t : State) (code : Nat) : Prop :=
  t.dev = 0 ∧ t.held = 0 ∧ t.now = 0 ∧ t.dtime = 0 ∧ t.coaches = [] ∧ t.carts = Carts.reset ∧ t.mem.data = [] ∧ t.media = Media.reset ∧ t.net = Net.reset ∧
  t.perMaster = [] ∧ t.timers.count = [] ∧ t.fpp.queue = [] ∧ t.fpp.sessions = [] ∧ t.fpp.own = 0 ∧ t.pwr.sources = 2 ^ (code - 1) ∧
  reg t pwrRcause = n32 (2 ^ (code - 1) * 256 + code) ∧ reg t (bbBase + 2) = 0x36 ∧
  t.variant = s.variant ∧ t.pending = s.pending ∧ t.fpp.stored = s.fpp.stored ∧ t.fpp.epoch = s.fpp.epoch ∧ t.pwr.flash = s.pwr.flash ∧ t.pwr.vageStored = s.pwr.vageStored ∧
  t.mem.fieldFuse = s.mem.fieldFuse ∧ t.bb.copies = s.bb.copies ∧ t.bb.retained = s.bb.retained ∧ t.bb.dips = 0 ∧ t.bb.ready = false

/-- POWER_ON_RESET, RESET_N_ASSERT, L0_HALT_RESET, WATCHDOG_EXPIRY, THERMAL_TRIP and PLL_LOCK_LOST, ended by RESET_RELEASE: each resets the device at once when its condition holds and is the cause that PWR_RCAUSE names; in RESET a further source
only holds it. -/
def Clause.ResetSources : Prop :=
  ∀ s : State,
    (s.dev ≠ 0 →
      (∃ t, exec .powerOnReset s = .next t ∧ AfterReset s t 1 ∧ t.bb.ring = s.bb.ring ∧ t.bb.header = s.bb.header) ∧
      (∃ t, exec .resetNAssert s = .next t ∧ AfterReset s t 2 ∧ t.bb.ring = s.bb.ring ∧ t.bb.header = s.bb.header) ∧
      (∃ t, exec .l0HaltReset s = .next t ∧ AfterReset s t 3) ∧
      (2 ≤ s.dev → s.pwr.kicked + 100000000 ≤ s.now → ∃ t, exec .watchdogExpiry s = .next t ∧ AfterReset s t 4) ∧
      (∃ t, exec .thermalTrip s = .next t ∧ AfterReset s t 5 ∧ t.pwr.trip = true) ∧
      (∃ t, exec .pllLockLost s = .next t ∧ AfterReset s t 6)) ∧
    (s.now < s.pwr.kicked + 100000000 → exec .watchdogExpiry s = .next s) ∧
    (s.dev = 0 → exec .resetNAssert s = .next { s with pwr := { s.pwr with sources := s.pwr.sources ||| 2 } } ∧
      ∃ t, exec .resetRelease s = .next t ∧ t.dev = 1 ∧ t.now = 0 ∧ t.dtime = 0 ∧ t.pwr.sources = 0 ∧ t.pwr.trip = false ∧ t.pwr.good = true ∧ t.mem = s.mem ∧ t.coaches = s.coaches)

/-- WATCHDOG_KICK, SELFTEST_COMPLETE, BOOT_COMPLETE: L0's store of 0xA5C3 restarts the watchdog's 100 ms and any other store conflicts; after
SELFTEST the device is in BOOT with its black box recording, unless L0's memory is bad; BOOT loads the first package that verifies and enters
CONFIG, or stays in BOOT and keeps why. -/
def Clause.BootRuns : Prop :=
  ∀ (s : State) (m : Nat) (v : W32) (found : MarchFound), masterOk m = true →
    (∀ f, f ∈ found.rows → 1 ≤ f.op ∧ f.op ≤ 10) →
    (m = 72 → v = 0xA5C3 → exec (.watchdogKick m v) s = .next { s with pwr := { s.pwr with kicked := s.now } }) ∧
    (m ≠ 72 ∨ v ≠ 0xA5C3 → ∃ t, exec (.watchdogKick m v) s = .next t ∧ t.pwr = s.pwr ∧ regB t pwrStat 0 = true ∧ OnlyRegs [pwrStat] s t) ∧
    (s.dev = 1 → found.units.contains 72 = false → (∀ f, f ∈ found.rows → f.inst ≠ 72) → ∃ t, exec (.selftestComplete found) s = .next t ∧ t.dev = 2 ∧ t.bb.ready = true ∧ t.bb.header.state = 0 ∧ t.pwr.booted = 0 ∧
      t.pwr.bootFail = none ∧ (found.rows = [] → t.mem.pendFix = s.mem.pendStored) ∧ ∀ n, srcOfL0 n = true → n < 1080 → srcPresent s.variant n = true → claimHeld t (icSclaim n) = true ∧ claimId t (icSclaim n) = 72) ∧
    (s.dev = 1 → found.units.contains 72 = true → ∃ t, exec (.selftestComplete found) s = .next t ∧ t.dev = 1) ∧
    (s.dev = 2 → s.pwr.bootFail = none → ∃ t, exec .bootComplete s = .next t ∧
      match (bootOrder s).find? (fun k => (packageFail s (k * 0x02000000)).isNone) with
      | some k => t.dev = 3 ∧ t.pwr.booted = k + 1 ∧ t.pwr.bootFail = none ∧ t.pwr.bootMs = s.now / 1000000
      | none => t.dev = 2 ∧ t.pwr.bootFail = some (bootFailure s) ∧ t.pwr.booted = s.pwr.booted ∧ t.mem = s.mem)

/-- `Clause.ResetSources` and `Clause.BootRuns`, both of them.
Where the spec is read by inference or leaves a choice, it is the model's: log entries 73, 75. -/
def Obligations.ResetAndBoot : Prop := Clause.ResetSources ∧ Clause.BootRuns

/-- DOMAIN_REQUEST and DOMAIN_TRANSITION_DONE: a request that stands is taken and, while fewer than four domains change, its transition starts;
a refused one switches nothing; at its end the domain has its state, and one that is OFF has lost its memory and its coach.
Where the spec is read by inference or leaves a choice, it is the model's: log entry 76. -/
def Obligations.DomainsSwitch : Prop :=
  ∀ (s : State) (d req : Nat), d < 148 → req < 3 →
    (domPresent s.variant d = true → domRefuse s d req = none → domState s d ≠ req → domBusy s d = false → movingCount s < 4 →
      ∃ t, exec (.domainRequest d req) s = .next t ∧ regF t (pwrDom d) 0 2 = req ∧ domBusy t d = true ∧ domState t d = domState s d ∧ tget 0 t.pwr.moving d = req + 1 ∧
        OnlyRegs [pwrDom d] { s with pwr := t.pwr } t) ∧
    (domPresent s.variant d = true → domRefuse s d req = none → domState s d ≠ req → domBusy s d = false → 4 ≤ movingCount s →
      ∃ t, exec (.domainRequest d req) s = .next t ∧ regF t (pwrDom d) 0 2 = req ∧ domBusy t d = false ∧ OnlyRegs [pwrDom d] s t) ∧
    ((domRefuse s d req).isSome = true → exec (.domainRequest d req) s = .next s) ∧
    (tget 0 s.pwr.moving d = req + 1 → ∃ t, exec (.domainTransitionDone d) s = .next t ∧ domState t d = req ∧
      (regF s (pwrDom d) 0 2 = req → domBusy t d = false ∧ tget 0 t.pwr.moving d = 0) ∧
      (req = 0 → domState s d ≠ 0 → (∀ k, inDomain d k = true → tget 0 t.mem.data k = 0) ∧ (d < 76 → ∃ k, co t d = offCoach k ∧ k.lastHalt = (co s d).lastHalt ∧ k.dead = (co s d).dead)) ∧
      (req = 2 → t.mem = s.mem ∧ t.coaches = s.coaches))

/-- AVS_READBACK, VOLTAGE_STEP_DOWN, MARGIN_MEASURE, V_AGE_STORE: a readback is kept or its absence noted; after 10 s of slack the target falls by
at most 5 mV in each 1 ms and not below what the chip needs; a margin below 6 % raises V_age by 5 mV up to 150 mV; a rise of 10 mV is stored. -/
def Clause.TheVoltageFollows : Prop :=
  ∀ (s : State) (mv amps x : Nat) (l : List Nat),
    (regB s pwrAvs 31 = true →
      (∃ t, exec (.avsReadback mv amps true) s = .next t ∧ regF t pwrAvsStat 20 12 = mv % 4096 ∧ regF t pwrAvsStat 12 8 = Nat.min 255 amps ∧
        (supplyCode s = 2 → supplyCode t = 0 ∧ srcSignal t 1044 = false) ∧ (supplyCode s = 3 → supplyCode t = 3) ∧ t.mem = s.mem ∧ t.coaches = s.coaches) ∧
      (∃ t, exec (.avsReadback mv amps false) s = .next t ∧ regB t pwrAvsStat 0 = true ∧ supplyCode t = supplyCode s) ∧
      (s.pwr.slackSince = some x → x + 10000000000 ≤ s.now → vNow s < avsTarget s → stepFree s = true →
        ∃ t, exec .voltageStepDown s = .next t ∧ t.pwr.steppedAt = some s.now ∧ avsTarget t = Nat.max (vNow s) (avsTarget s - 5) ∧ OnlyRegs [pwrAvs] { s with pwr := t.pwr } t)) ∧
    (regB s pwrAvs 31 = false → exec (.avsReadback mv amps true) s = .next s) ∧
    (∃ t, exec (.marginMeasure l) s = .next t ∧
      (∀ k, k < 10 → 8 ≤ k ∨ clusterPowered s k = true → reg t (pwrAge k) = n32 (((l.drop (4 * k)).take 4).foldl Nat.min 255)) ∧
      ((∀ a, a ∈ l → 24 ≤ a) → vage t = vage s) ∧
      (∀ k, k < 10 → 8 ≤ k ∨ clusterPowered s k = true → ((l.drop (4 * k)).take 4).foldl Nat.min 255 < 24 → vage t = Nat.min 150 (vage s + 5))) ∧
    (s.pwr.vageStored + 10 ≤ vage s ∨ s.pwr.vageAt + 86400000000000 ≤ s.now →
      exec .vAgeStore s = .next { s with pwr := { s.pwr with vageStored := vage s, vageAt := s.now } })

/-- SUPPLY_ALARM, THERMAL_ALARM, THERMAL_ALARM_END, CLUSTER_CLOCK_SET: an alarm is shown and signalled until its end; in CONFIG the clock of an idle
cluster is set, at once where the voltage allows it, else after a rise of the voltage and the wait of entry 0x3020. -/
def Clause.AlarmsAndClocks : Prop :=
  ∀ (s : State) (code rail sensor temp k mult : Nat),
    (1 ≤ code → code ≤ 5 → supplyCode s ≠ code → ∃ t, exec (.supplyAlarm code rail) s = .next t ∧ supplyCode t = code ∧ srcSignal t 1044 = true ∧ vage t = vage s ∧
      t.mem = s.mem ∧ t.carts = s.carts) ∧
    (100 ≤ temp → ∃ t, exec (.thermalAlarm sensor temp) s = .next t ∧ t.pwr.thermal = true ∧ (s.pwr.thermal = false → srcSignal t 1045 = true) ∧
      t.pwr.junction = (if s.pwr.junction < (temp : Int) then (temp : Int) else s.pwr.junction) ∧ t.mem = s.mem ∧ t.carts = s.carts) ∧
    (temp < 100 → exec (.thermalAlarm sensor temp) s = .next s) ∧
    (s.pwr.thermal = true → ∃ t, exec .thermalAlarmEnd s = .next t ∧ t.pwr.thermal = false ∧ srcSignal t 1045 = false ∧ t.pwr.junction < 100 ∧ t.mem = s.mem ∧ t.carts = s.carts) ∧
    (s.dev = 3 → k < s.variant.clusters → mult ≤ 44 → clusterIdle s k = true →
      let begun := tget 0 s.pwr.clockWait k = mult + 1
      let rises := regB s pwrAvs 31 = true ∧ avsTarget s < clockVolt s k mult
      (¬begun → rises → ∃ t, exec (.clusterClockSet k mult) s = .next t ∧ avsTarget t = clockVolt s k mult ∧ tget 0 t.pwr.clockWait k = mult + 1 ∧
        tget 0 t.pwr.clockAt k = s.now + 1000 * valN s 0x3020 2 200 ∧ OnlyRegs [pwrAvs] { s with pwr := t.pwr } t) ∧
      (begun → s.now < tget 0 s.pwr.clockAt k → exec (.clusterClockSet k mult) s = .next s) ∧
      ((begun ∧ tget 0 s.pwr.clockAt k ≤ s.now) ∨ (¬begun ∧ ¬rises) → ∃ t, exec (.clusterClockSet k mult) s = .next t ∧ regF t (clPll k) 0 6 = mult ∧ regB t (clPll k) 31 = true ∧ (regB s pwrAvs 31 = true → vWant s k (25 * (16 + mult)) ≤ avsTarget t) ∧
        OnlyRegs [clPll k, pwrAvs] { s with pwr := t.pwr } t)) ∧
    (s.dev ≠ 3 ∨ clusterIdle s k = false → k < 8 → exec (.clusterClockSet k mult) s = .next s)

/-- `Clause.TheVoltageFollows` and `Clause.AlarmsAndClocks`, both of them.
Where the spec is read by inference or leaves a choice, it is the model's: log entries 40, 41, 77. -/
def Obligations.VoltageAndAlarms : Prop := Clause.TheVoltageFollows ∧ Clause.AlarmsAndClocks

/-- What reset leaves in the registers whose reset value the spec gives, unit by unit: nothing is enabled, every claim is free, every media
clock is off at count 0, no coach runs, and the defaults stand.
Where the spec is read by inference or leaves a choice, it is the model's: log entries 1, 6. -/
def Obligations.ResetValues : Prop :=
  let z := State.reset
  z.dev = 0 ∧ (∀ c, (co z c).run = .off ∧ isSup (co z c) = true ∧ (co z c).haltCount = 0) ∧
  (∀ a i, regInfo z.variant a = some i → i.isClaim = true → claimHeld z a = false) ∧
  (∀ n, n < 2048 → srcEn z n = false ∧ srcState z n = 0 ∧ (srcPresent z.variant n = true → reg z (icScfg n) = 0x20010000)) ∧
  (∀ k, k < 64 → tmRuns z k = false ∧ tmCount z k = 0 ∧ reg z (tmCmp k) = 0xFFFFFFFF) ∧
  (∀ k, k < 4 → mcState z k = 0 ∧ (clk z k).count = 0 ∧ reg z (mcCtl k) = 0x02800000) ∧
  (∀ p, p < 32 → apOn z p = false) ∧ (∀ e, e < 6 → ethOn z e = false) ∧ (∀ x, ctxEn z x = false ∧ ctxPoff z x = 2000 ∧ ctxLat z x = 1000) ∧
  (∀ k, k < 6 → regB z (scbInt k) 16 = true ∧ regF z (scbInt k) 0 16 = scrubDefault k) ∧
  (∀ c r, c < 72 → r < 8 → regF z (memRB c r + 4) 0 4 = 0) ∧ (∀ r, r < 8 → regF z (memRB 72 r + 4) 0 4 = if r = 0 then 15 else 0) ∧
  (∀ d, d < 148 → domState z d = (if domPresent z.variant d then 2 else 3)) ∧ avsTarget z = 800 ∧ reg z (bbBase + 2) = 0x36 ∧ Memory.wf z.mem = true
end

