-- ==== Sys2Proof/Laws/Table.lean ====
section
/-! SUPPORT. Laws of sparse tables: read after write, and that every operation keeps the canonical form. -/
namespace Sys2Proof.Machine
variable {β : Type}

theorem tget_terase_same (d : β) (t : Table β) (k : Nat) : tget d (terase t k) k = d := by
  induction t with
  | nil => rfl
  | cons e r ih =>
    obtain ⟨i, v⟩ := e
    by_cases h : i = k <;> simp [terase, tget, h, ih]

theorem tget_terase_other (d : β) (t : Table β) {k j : Nat} (h : j ≠ k) : tget d (terase t k) j = tget d t j := by
  induction t with
  | nil => rfl
  | cons e r ih =>
    obtain ⟨i, v⟩ := e
    by_cases hi : i = k
    · subst hi; simp [terase, tget, ih, Ne.symm h]
    · by_cases hj : i = j
      · subst hj; simp [terase, tget, h]
      · simp [terase, tget, hi, hj, ih]

theorem tget_tins_same (d : β) (t : Table β) (k : Nat) (v : β) (h : ∀ e ∈ t, e.1 ≠ k) : tget d (tins k v t) k = v := by
  induction t with
  | nil => simp [tins, tget]
  | cons e r ih =>
    obtain ⟨i, u⟩ := e
    have hi : i ≠ k := h (i, u) (by simp)
    by_cases hk : k < i
    · simp [tins, tget, hk]
    · simp [tins, tget, hk, hi, ih (fun e he => h e (by simp [he]))]

theorem tget_tins_other (d : β) (t : Table β) {k j : Nat} (v : β) (h : j ≠ k) : tget d (tins k v t) j = tget d t j := by
  induction t with
  | nil => simp [tins, tget, Ne.symm h]
  | cons e r ih =>
    obtain ⟨i, u⟩ := e
    by_cases hk : k < i
    · simp [tins, tget, hk, Ne.symm h]
    · by_cases hj : i = j
      · subst hj; simp [tins, tget, hk]
      · simp [tins, tget, hk, hj, ih]

theorem terase_keys (t : Table β) (k : Nat) : ∀ e ∈ terase t k, e.1 ≠ k := by
  induction t with
  | nil => simp [terase]
  | cons x r ih =>
    obtain ⟨i, v⟩ := x
    intro e he
    by_cases hi : i = k
    · simp [terase, hi] at he; exact ih e he
    · simp [terase, hi] at he
      rcases he with rfl | he
      · exact hi
      · exact ih e he

/-- A read of the key just written gives the value written. -/
theorem tget_tput_same [DecidableEq β] (d : β) (t : Table β) (k : Nat) (v : β) : tget d (tput d t k v) k = v := by
  unfold tput
  split
  · rename_i h; rw [tget_terase_same, h]
  · exact tget_tins_same d _ k v (terase_keys t k)

/-- A write leaves every other key alone. -/
theorem tget_tput_other [DecidableEq β] (d : β) (t : Table β) {k j : Nat} (v : β) (h : j ≠ k) : tget d (tput d t k v) j = tget d t j := by
  unfold tput
  split
  · exact tget_terase_other d t h
  · rw [tget_tins_other d _ v h, tget_terase_other d t h]

theorem tget_tput [DecidableEq β] (d : β) (t : Table β) (k j : Nat) (v : β) : tget d (tput d t k v) j = if j = k then v else tget d t j := by
  by_cases h : j = k
  · subst h; simp [tget_tput_same]
  · simp [h, tget_tput_other d t v h]

/-! ## The canonical form -/

/-- Another key reads as before, whatever an unlisted key of either reads as. -/
theorem tget_tput_ne [DecidableEq β] (e d : β) (t : Table β) {k j : Nat} (v : β) (h : j ≠ k) : tget e (tput d t k v) j = tget e t j := by
  unfold tput
  split
  · exact tget_terase_other e t h
  · rw [tget_tins_other e _ v h, tget_terase_other e t h]

theorem trising_weaken {a b : Nat} (h : a ≤ b) (t : Table β) (ht : trising b t = true) : trising a t = true := by
  cases t with
  | nil => rfl
  | cons e r => obtain ⟨i, v⟩ := e; simp [trising] at ht ⊢; exact ⟨by omega, ht.2⟩

theorem trising_terase (k : Nat) (t : Table β) : ∀ a, trising a t = true → trising a (terase t k) = true := by
  induction t with
  | nil => intro a _; rfl
  | cons e r ih =>
    obtain ⟨i, v⟩ := e
    intro a h
    simp [trising] at h
    by_cases hi : i = k
    · simp [terase, hi]
      exact trising_weaken (by omega) _ (ih _ (hi ▸ h.2))
    · simp [terase, hi, trising]; exact ⟨h.1, ih _ h.2⟩

theorem trising_tins (k : Nat) (v : β) (t : Table β) : ∀ a, a ≤ k → (∀ e ∈ t, e.1 ≠ k) → trising a t = true → trising a (tins k v t) = true := by
  induction t with
  | nil => intro a h _ _; simp [tins, trising, h]
  | cons e r ih =>
    obtain ⟨i, u⟩ := e
    intro a ha hk h
    have h : a ≤ i ∧ trising (i + 1) r = true := by simpa only [trising, Bool.and_eq_true, decide_eq_true_eq] using h
    have hi : i ≠ k := hk (i, u) (by simp)
    by_cases hlt : k < i
    · simp only [tins, hlt, if_true, trising, Bool.and_eq_true, decide_eq_true_eq]; exact ⟨ha, by omega, h.2⟩
    · simp [tins, hlt, trising]
      exact ⟨h.1, ih _ (by omega) (fun e he => hk e (by simp [he])) h.2⟩

theorem all_terase (k : Nat) (p : Nat × β → Bool) (t : Table β) (h : t.all p = true) : (terase t k).all p = true := by
  induction t with
  | nil => rfl
  | cons e r ih =>
    obtain ⟨i, v⟩ := e
    simp at h ih
    by_cases hi : i = k <;> simp [terase, hi]
    · exact fun a b m => ih h.2 a b m
    · exact ⟨h.1, fun a b m => ih h.2 a b m⟩

theorem all_tins (k : Nat) (v : β) (p : Nat × β → Bool) (t : Table β) (hv : p (k, v) = true) (h : t.all p = true) : (tins k v t).all p = true := by
  induction t with
  | nil => simp [tins, hv]
  | cons e r ih =>
    obtain ⟨i, u⟩ := e
    simp at h ih
    by_cases hi : k < i <;> simp [tins, hi]
    · exact ⟨hv, h.1, fun a b m => h.2 a b m⟩
    · exact ⟨h.1, fun a b m => ih h.2 a b m⟩

/-- A write keeps the canonical form. -/
theorem twf_tput [DecidableEq β] (d : β) (t : Table β) (k : Nat) (v : β) (h : twf d t = true) : twf d (tput d t k v) = true := by
  unfold twf at *
  simp only [Bool.and_eq_true] at *
  unfold tput
  split
  · exact ⟨trising_terase k t 0 h.1, all_terase k _ t h.2⟩
  · rename_i hv
    exact ⟨trising_tins k v _ 0 (Nat.zero_le _) (terase_keys t k) (trising_terase k t 0 h.1), all_tins k v _ _ (by simp [hv]) (all_terase k _ t h.2)⟩

/-- A write keeps the canonical form with a default of its own for each key. -/
theorem twfBy_tput [DecidableEq β] (d : Nat → β) (t : Table β) (k : Nat) (v : β) (h : twfBy d t = true) : twfBy d (tput (d k) t k v) = true := by
  unfold twfBy at *
  simp only [Bool.and_eq_true] at *
  unfold tput
  split
  · exact ⟨trising_terase k t 0 h.1, all_terase k _ t h.2⟩
  · rename_i hv
    exact ⟨trising_tins k v _ 0 (Nat.zero_le _) (terase_keys t k) (trising_terase k t 0 h.1), all_tins k v _ _ (by simp [hv]) (all_terase k _ t h.2)⟩

theorem trising_ge (t : Table β) : ∀ a, trising a t = true → ∀ e ∈ t, a ≤ e.1 := by
  induction t with
  | nil => simp
  | cons x r ih =>
    obtain ⟨i, v⟩ := x
    intro a h e he
    simp [trising] at h
    rcases List.mem_cons.mp he with rfl | he
    · exact h.1
    · have := ih _ h.2 e he; omega

theorem trising_filter (p : Nat × β → Bool) (t : Table β) : ∀ a, trising a t = true → trising a (t.filter p) = true := by
  induction t with
  | nil => intro a _; rfl
  | cons x r ih =>
    obtain ⟨i, v⟩ := x
    intro a h
    simp [trising] at h
    by_cases hp : p (i, v) = true
    · simp [hp, trising]; exact ⟨h.1, ih _ h.2⟩
    · simp [hp]; exact trising_weaken (by omega) _ (ih _ h.2)

/-- Leaving entries out keeps the canonical form with a default for each key. -/
theorem twfBy_filter [DecidableEq β] (d : Nat → β) (t : Table β) (p : Nat × β → Bool) (h : twfBy d t = true) : twfBy d (t.filter p) = true := by
  unfold twfBy at *
  simp only [Bool.and_eq_true] at *
  refine ⟨trising_filter p t 0 h.1, ?_⟩
  have := h.2
  simp only [List.all_eq_true, List.mem_filter] at *
  exact fun e he => this e he.1

/-- Leaving entries out keeps the canonical form. -/
theorem twf_filter [DecidableEq β] (d : β) (t : Table β) (p : Nat × β → Bool) (h : twf d t = true) : twf d (t.filter p) = true := by
  unfold twf at *
  simp only [Bool.and_eq_true] at *
  refine ⟨trising_filter p t 0 h.1, ?_⟩
  have := h.2
  simp only [List.all_eq_true, List.mem_filter] at *
  exact fun e he => this e he.1

theorem twf_tputs [DecidableEq β] (d : β) (l : List β) : ∀ (t : Table β) (k : Nat), twf d t = true → twf d (tputs d t k l) = true := by
  induction l with
  | nil => intro t k h; exact h
  | cons v r ih => intro t k h; exact ih _ _ (twf_tput d t k v h)
end Sys2Proof.Machine
end

