-- ==== Sys2Proof/Laws/State.lean ====
section
/-! SUPPORT. What each update of State leaves alone, field by field, and what a register, a coach, a logical coach and a
slot read after a write. -/
namespace Sys2Proof.Machine
variable (s : State)

@[simp] theorem setCo_variant (c : Nat) (k : Coach) : (setCo s c k).variant = s.variant := rfl
@[simp] theorem setCo_dev (c : Nat) (k : Coach) : (setCo s c k).dev = s.dev := rfl
@[simp] theorem setCo_held (c : Nat) (k : Coach) : (setCo s c k).held = s.held := rfl
@[simp] theorem setCo_now (c : Nat) (k : Coach) : (setCo s c k).now = s.now := rfl
@[simp] theorem setCo_dtime (c : Nat) (k : Coach) : (setCo s c k).dtime = s.dtime := rfl
@[simp] theorem setCo_answer (c : Nat) (k : Coach) : (setCo s c k).answer = s.answer := rfl
@[simp] theorem setCo_pending (c : Nat) (k : Coach) : (setCo s c k).pending = s.pending := rfl
@[simp] theorem setCo_regs (c : Nat) (k : Coach) : (setCo s c k).regs = s.regs := rfl
@[simp] theorem setCo_perMaster (c : Nat) (k : Coach) : (setCo s c k).perMaster = s.perMaster := rfl
@[simp] theorem setCo_carts (c : Nat) (k : Coach) : (setCo s c k).carts = s.carts := rfl
@[simp] theorem setCo_mem (c : Nat) (k : Coach) : (setCo s c k).mem = s.mem := rfl
@[simp] theorem setCo_intc (c : Nat) (k : Coach) : (setCo s c k).intc = s.intc := rfl
@[simp] theorem setCo_timers (c : Nat) (k : Coach) : (setCo s c k).timers = s.timers := rfl
@[simp] theorem setCo_media (c : Nat) (k : Coach) : (setCo s c k).media = s.media := rfl
@[simp] theorem setCo_net (c : Nat) (k : Coach) : (setCo s c k).net = s.net := rfl
@[simp] theorem setCo_fpp (c : Nat) (k : Coach) : (setCo s c k).fpp = s.fpp := rfl
@[simp] theorem setCo_bb (c : Nat) (k : Coach) : (setCo s c k).bb = s.bb := rfl
@[simp] theorem setCo_pwr (c : Nat) (k : Coach) : (setCo s c k).pwr = s.pwr := rfl
@[simp] theorem setCo_serviceEn (c : Nat) (k : Coach) : (setCo s c k).serviceEn = s.serviceEn := rfl

@[simp] theorem setReg_variant (a : Nat) (v : W32) : (setReg s a v).variant = s.variant := rfl
@[simp] theorem setReg_dev (a : Nat) (v : W32) : (setReg s a v).dev = s.dev := rfl
@[simp] theorem setReg_held (a : Nat) (v : W32) : (setReg s a v).held = s.held := rfl
@[simp] theorem setReg_now (a : Nat) (v : W32) : (setReg s a v).now = s.now := rfl
@[simp] theorem setReg_dtime (a : Nat) (v : W32) : (setReg s a v).dtime = s.dtime := rfl
@[simp] theorem setReg_answer (a : Nat) (v : W32) : (setReg s a v).answer = s.answer := rfl
@[simp] theorem setReg_pending (a : Nat) (v : W32) : (setReg s a v).pending = s.pending := rfl
@[simp] theorem setReg_perMaster (a : Nat) (v : W32) : (setReg s a v).perMaster = s.perMaster := rfl
@[simp] theorem setReg_coaches (a : Nat) (v : W32) : (setReg s a v).coaches = s.coaches := rfl
@[simp] theorem setReg_carts (a : Nat) (v : W32) : (setReg s a v).carts = s.carts := rfl
@[simp] theorem setReg_mem (a : Nat) (v : W32) : (setReg s a v).mem = s.mem := rfl
@[simp] theorem setReg_intc (a : Nat) (v : W32) : (setReg s a v).intc = s.intc := rfl
@[simp] theorem setReg_timers (a : Nat) (v : W32) : (setReg s a v).timers = s.timers := rfl
@[simp] theorem setReg_media (a : Nat) (v : W32) : (setReg s a v).media = s.media := rfl
@[simp] theorem setReg_net (a : Nat) (v : W32) : (setReg s a v).net = s.net := rfl
@[simp] theorem setReg_fpp (a : Nat) (v : W32) : (setReg s a v).fpp = s.fpp := rfl
@[simp] theorem setReg_bb (a : Nat) (v : W32) : (setReg s a v).bb = s.bb := rfl
@[simp] theorem setReg_pwr (a : Nat) (v : W32) : (setReg s a v).pwr = s.pwr := rfl
@[simp] theorem setReg_serviceEn (a : Nat) (v : W32) : (setReg s a v).serviceEn = s.serviceEn := rfl

@[simp] theorem setRegF_variant (a lo w v : Nat) : (setRegF s a lo w v).variant = s.variant := rfl
@[simp] theorem setRegF_dev (a lo w v : Nat) : (setRegF s a lo w v).dev = s.dev := rfl
@[simp] theorem setRegF_held (a lo w v : Nat) : (setRegF s a lo w v).held = s.held := rfl
@[simp] theorem setRegF_now (a lo w v : Nat) : (setRegF s a lo w v).now = s.now := rfl
@[simp] theorem setRegF_dtime (a lo w v : Nat) : (setRegF s a lo w v).dtime = s.dtime := rfl
@[simp] theorem setRegF_answer (a lo w v : Nat) : (setRegF s a lo w v).answer = s.answer := rfl
@[simp] theorem setRegF_pending (a lo w v : Nat) : (setRegF s a lo w v).pending = s.pending := rfl
@[simp] theorem setRegF_perMaster (a lo w v : Nat) : (setRegF s a lo w v).perMaster = s.perMaster := rfl
@[simp] theorem setRegF_coaches (a lo w v : Nat) : (setRegF s a lo w v).coaches = s.coaches := rfl
@[simp] theorem setRegF_carts (a lo w v : Nat) : (setRegF s a lo w v).carts = s.carts := rfl
@[simp] theorem setRegF_mem (a lo w v : Nat) : (setRegF s a lo w v).mem = s.mem := rfl
@[simp] theorem setRegF_intc (a lo w v : Nat) : (setRegF s a lo w v).intc = s.intc := rfl
@[simp] theorem setRegF_timers (a lo w v : Nat) : (setRegF s a lo w v).timers = s.timers := rfl
@[simp] theorem setRegF_media (a lo w v : Nat) : (setRegF s a lo w v).media = s.media := rfl
@[simp] theorem setRegF_net (a lo w v : Nat) : (setRegF s a lo w v).net = s.net := rfl
@[simp] theorem setRegF_fpp (a lo w v : Nat) : (setRegF s a lo w v).fpp = s.fpp := rfl
@[simp] theorem setRegF_bb (a lo w v : Nat) : (setRegF s a lo w v).bb = s.bb := rfl
@[simp] theorem setRegF_pwr (a lo w v : Nat) : (setRegF s a lo w v).pwr = s.pwr := rfl
@[simp] theorem setRegF_serviceEn (a lo w v : Nat) : (setRegF s a lo w v).serviceEn = s.serviceEn := rfl

@[simp] theorem setRegB_variant (a i : Nat) (b : Bool) : (setRegB s a i b).variant = s.variant := rfl
@[simp] theorem setRegB_dev (a i : Nat) (b : Bool) : (setRegB s a i b).dev = s.dev := rfl
@[simp] theorem setRegB_held (a i : Nat) (b : Bool) : (setRegB s a i b).held = s.held := rfl
@[simp] theorem setRegB_now (a i : Nat) (b : Bool) : (setRegB s a i b).now = s.now := rfl
@[simp] theorem setRegB_dtime (a i : Nat) (b : Bool) : (setRegB s a i b).dtime = s.dtime := rfl
@[simp] theorem setRegB_answer (a i : Nat) (b : Bool) : (setRegB s a i b).answer = s.answer := rfl
@[simp] theorem setRegB_pending (a i : Nat) (b : Bool) : (setRegB s a i b).pending = s.pending := rfl
@[simp] theorem setRegB_perMaster (a i : Nat) (b : Bool) : (setRegB s a i b).perMaster = s.perMaster := rfl
@[simp] theorem setRegB_coaches (a i : Nat) (b : Bool) : (setRegB s a i b).coaches = s.coaches := rfl
@[simp] theorem setRegB_carts (a i : Nat) (b : Bool) : (setRegB s a i b).carts = s.carts := rfl
@[simp] theorem setRegB_mem (a i : Nat) (b : Bool) : (setRegB s a i b).mem = s.mem := rfl
@[simp] theorem setRegB_intc (a i : Nat) (b : Bool) : (setRegB s a i b).intc = s.intc := rfl
@[simp] theorem setRegB_timers (a i : Nat) (b : Bool) : (setRegB s a i b).timers = s.timers := rfl
@[simp] theorem setRegB_media (a i : Nat) (b : Bool) : (setRegB s a i b).media = s.media := rfl
@[simp] theorem setRegB_net (a i : Nat) (b : Bool) : (setRegB s a i b).net = s.net := rfl
@[simp] theorem setRegB_fpp (a i : Nat) (b : Bool) : (setRegB s a i b).fpp = s.fpp := rfl
@[simp] theorem setRegB_bb (a i : Nat) (b : Bool) : (setRegB s a i b).bb = s.bb := rfl
@[simp] theorem setRegB_pwr (a i : Nat) (b : Bool) : (setRegB s a i b).pwr = s.pwr := rfl
@[simp] theorem setRegB_serviceEn (a i : Nat) (b : Bool) : (setRegB s a i b).serviceEn = s.serviceEn := rfl

@[simp] theorem setPerM_variant (a m : Nat) (v : W32) : (setPerM s a m v).variant = s.variant := rfl
@[simp] theorem setPerM_dev (a m : Nat) (v : W32) : (setPerM s a m v).dev = s.dev := rfl
@[simp] theorem setPerM_held (a m : Nat) (v : W32) : (setPerM s a m v).held = s.held := rfl
@[simp] theorem setPerM_now (a m : Nat) (v : W32) : (setPerM s a m v).now = s.now := rfl
@[simp] theorem setPerM_dtime (a m : Nat) (v : W32) : (setPerM s a m v).dtime = s.dtime := rfl
@[simp] theorem setPerM_answer (a m : Nat) (v : W32) : (setPerM s a m v).answer = s.answer := rfl
@[simp] theorem setPerM_pending (a m : Nat) (v : W32) : (setPerM s a m v).pending = s.pending := rfl
@[simp] theorem setPerM_regs (a m : Nat) (v : W32) : (setPerM s a m v).regs = s.regs := rfl
@[simp] theorem setPerM_coaches (a m : Nat) (v : W32) : (setPerM s a m v).coaches = s.coaches := rfl
@[simp] theorem setPerM_carts (a m : Nat) (v : W32) : (setPerM s a m v).carts = s.carts := rfl
@[simp] theorem setPerM_mem (a m : Nat) (v : W32) : (setPerM s a m v).mem = s.mem := rfl
@[simp] theorem setPerM_intc (a m : Nat) (v : W32) : (setPerM s a m v).intc = s.intc := rfl
@[simp] theorem setPerM_timers (a m : Nat) (v : W32) : (setPerM s a m v).timers = s.timers := rfl
@[simp] theorem setPerM_media (a m : Nat) (v : W32) : (setPerM s a m v).media = s.media := rfl
@[simp] theorem setPerM_net (a m : Nat) (v : W32) : (setPerM s a m v).net = s.net := rfl
@[simp] theorem setPerM_fpp (a m : Nat) (v : W32) : (setPerM s a m v).fpp = s.fpp := rfl
@[simp] theorem setPerM_bb (a m : Nat) (v : W32) : (setPerM s a m v).bb = s.bb := rfl
@[simp] theorem setPerM_pwr (a m : Nat) (v : W32) : (setPerM s a m v).pwr = s.pwr := rfl
@[simp] theorem setPerM_serviceEn (a m : Nat) (v : W32) : (setPerM s a m v).serviceEn = s.serviceEn := rfl

@[simp] theorem setLogi_variant (n : Nat) (l : Logical) : (setLogi s n l).variant = s.variant := rfl
@[simp] theorem setLogi_dev (n : Nat) (l : Logical) : (setLogi s n l).dev = s.dev := rfl
@[simp] theorem setLogi_held (n : Nat) (l : Logical) : (setLogi s n l).held = s.held := rfl
@[simp] theorem setLogi_now (n : Nat) (l : Logical) : (setLogi s n l).now = s.now := rfl
@[simp] theorem setLogi_dtime (n : Nat) (l : Logical) : (setLogi s n l).dtime = s.dtime := rfl
@[simp] theorem setLogi_answer (n : Nat) (l : Logical) : (setLogi s n l).answer = s.answer := rfl
@[simp] theorem setLogi_pending (n : Nat) (l : Logical) : (setLogi s n l).pending = s.pending := rfl
@[simp] theorem setLogi_regs (n : Nat) (l : Logical) : (setLogi s n l).regs = s.regs := rfl
@[simp] theorem setLogi_perMaster (n : Nat) (l : Logical) : (setLogi s n l).perMaster = s.perMaster := rfl
@[simp] theorem setLogi_coaches (n : Nat) (l : Logical) : (setLogi s n l).coaches = s.coaches := rfl
@[simp] theorem setLogi_mem (n : Nat) (l : Logical) : (setLogi s n l).mem = s.mem := rfl
@[simp] theorem setLogi_intc (n : Nat) (l : Logical) : (setLogi s n l).intc = s.intc := rfl
@[simp] theorem setLogi_timers (n : Nat) (l : Logical) : (setLogi s n l).timers = s.timers := rfl
@[simp] theorem setLogi_media (n : Nat) (l : Logical) : (setLogi s n l).media = s.media := rfl
@[simp] theorem setLogi_net (n : Nat) (l : Logical) : (setLogi s n l).net = s.net := rfl
@[simp] theorem setLogi_fpp (n : Nat) (l : Logical) : (setLogi s n l).fpp = s.fpp := rfl
@[simp] theorem setLogi_bb (n : Nat) (l : Logical) : (setLogi s n l).bb = s.bb := rfl
@[simp] theorem setLogi_pwr (n : Nat) (l : Logical) : (setLogi s n l).pwr = s.pwr := rfl
@[simp] theorem setLogi_serviceEn (n : Nat) (l : Logical) : (setLogi s n l).serviceEn = s.serviceEn := rfl

@[simp] theorem setSlotSt_variant (c v : Nat) : (setSlotSt s c v).variant = s.variant := rfl
@[simp] theorem setSlotSt_dev (c v : Nat) : (setSlotSt s c v).dev = s.dev := rfl
@[simp] theorem setSlotSt_held (c v : Nat) : (setSlotSt s c v).held = s.held := rfl
@[simp] theorem setSlotSt_now (c v : Nat) : (setSlotSt s c v).now = s.now := rfl
@[simp] theorem setSlotSt_dtime (c v : Nat) : (setSlotSt s c v).dtime = s.dtime := rfl
@[simp] theorem setSlotSt_answer (c v : Nat) : (setSlotSt s c v).answer = s.answer := rfl
@[simp] theorem setSlotSt_pending (c v : Nat) : (setSlotSt s c v).pending = s.pending := rfl
@[simp] theorem setSlotSt_regs (c v : Nat) : (setSlotSt s c v).regs = s.regs := rfl
@[simp] theorem setSlotSt_perMaster (c v : Nat) : (setSlotSt s c v).perMaster = s.perMaster := rfl
@[simp] theorem setSlotSt_coaches (c v : Nat) : (setSlotSt s c v).coaches = s.coaches := rfl
@[simp] theorem setSlotSt_mem (c v : Nat) : (setSlotSt s c v).mem = s.mem := rfl
@[simp] theorem setSlotSt_intc (c v : Nat) : (setSlotSt s c v).intc = s.intc := rfl
@[simp] theorem setSlotSt_timers (c v : Nat) : (setSlotSt s c v).timers = s.timers := rfl
@[simp] theorem setSlotSt_media (c v : Nat) : (setSlotSt s c v).media = s.media := rfl
@[simp] theorem setSlotSt_net (c v : Nat) : (setSlotSt s c v).net = s.net := rfl
@[simp] theorem setSlotSt_fpp (c v : Nat) : (setSlotSt s c v).fpp = s.fpp := rfl
@[simp] theorem setSlotSt_bb (c v : Nat) : (setSlotSt s c v).bb = s.bb := rfl
@[simp] theorem setSlotSt_pwr (c v : Nat) : (setSlotSt s c v).pwr = s.pwr := rfl
@[simp] theorem setSlotSt_serviceEn (c v : Nat) : (setSlotSt s c v).serviceEn = s.serviceEn := rfl

@[simp] theorem setLogi_carts_slots (n : Nat) (l : Logical) : (setLogi s n l).carts.slots = s.carts.slots := rfl
@[simp] theorem setSlotSt_carts_logical (c v : Nat) : (setSlotSt s c v).carts.logical = s.carts.logical := rfl

/-- A coach reads as it was last written, and every other coach as before. -/
theorem co_setCo (c d : Nat) (k : Coach) : co (setCo s c k) d = if d = c then k else co s d := by
  unfold co setCo
  exact tget_tput _ _ _ _ _
@[simp] theorem co_setCo_same (c : Nat) (k : Coach) : co (setCo s c k) c = k := by simp [co_setCo]
/-- A system register reads as it was last written, and every other register as before. -/
theorem reg_setReg (a b : Nat) (v : W32) : reg (setReg s a v) b = if b = a then v else reg s b := by
  unfold reg setReg
  by_cases h : b = a
  · subst h; simp [tget_tput]
  · simp only [h, if_false]; exact tget_tput_ne _ _ _ _ h
@[simp] theorem reg_setReg_same (a : Nat) (v : W32) : reg (setReg s a v) a = v := by simp [reg_setReg]
/-- A register with a copy per master reads as that master's copy was last written. -/
theorem perM_setPerM_same (a m : Nat) (v : W32) : perM (setPerM s a m v) a m = v := by
  unfold perM setPerM
  exact tget_tput_same _ _ _ _
theorem logi_setLogi (n m : Nat) (l : Logical) : logi (setLogi s n l) m = if m = n then l else logi s m := by
  unfold logi setLogi
  by_cases h : m = n
  · subst h; simp [tget_tput]
  · simp only [h, if_false]; exact tget_tput_ne _ _ _ _ h
theorem slotSt_setSlotSt (c d v : Nat) : slotSt (setSlotSt s c v) d = if d = c then v else slotSt s d := by
  unfold slotSt setSlotSt
  by_cases h : d = c
  · subst h; simp [tget_tput]
  · simp only [h, if_false]; exact tget_tput_ne _ _ _ _ h
@[simp] theorem reg_setCo (c : Nat) (k : Coach) (a : Nat) : reg (setCo s c k) a = reg s a := rfl
@[simp] theorem co_setReg (a : Nat) (v : W32) (c : Nat) : co (setReg s a v) c = co s c := rfl
@[simp] theorem perM_setReg (a : Nat) (v : W32) (b m : Nat) : perM (setReg s a v) b m = perM s b m := rfl
@[simp] theorem reg_setPerM (a m : Nat) (v : W32) (b : Nat) : reg (setPerM s a m v) b = reg s b := rfl
/-- A command that exists completes. -/
theorem act_wf {ok : Bool} {t : State} (h : ok = true) : act ok t = .next t := by simp [act, h]

end Sys2Proof.Machine
end

