-- ==== Sys2Proof/Laws/Coach.lean ====
section
/-! SUPPORT. What the updates of a coach leave alone, field by field, and what its registers read after a write. -/
namespace Sys2Proof.Machine
variable (k : Coach)

@[simp] theorem wrCo_run (off : Nat) (v : W32) : (wrCo k off v).run = k.run := rfl
@[simp] theorem wrCo_pc (off : Nat) (v : W32) : (wrCo k off v).pc = k.pc := rfl
@[simp] theorem wrCo_lastPc (off : Nat) (v : W32) : (wrCo k off v).lastPc = k.lastPc := rfl
@[simp] theorem wrCo_g (off : Nat) (v : W32) : (wrCo k off v).g = k.g := rfl
@[simp] theorem wrCo_p (off : Nat) (v : W32) : (wrCo k off v).p = k.p := rfl
@[simp] theorem wrCo_n (off : Nat) (v : W32) : (wrCo k off v).n = k.n := rfl
@[simp] theorem wrCo_v (off : Nat) (v : W32) : (wrCo k off v).v = k.v := rfl
@[simp] theorem wrCo_acc (off : Nat) (v : W32) : (wrCo k off v).acc = k.acc := rfl
@[simp] theorem wrCo_cyc (off : Nat) (v : W32) : (wrCo k off v).cyc = k.cyc := rfl
@[simp] theorem wrCo_cycles (off : Nat) (v : W32) : (wrCo k off v).cycles = k.cycles := rfl
@[simp] theorem wrCo_seq (off : Nat) (v : W32) : (wrCo k off v).seq = k.seq := rfl
@[simp] theorem wrCo_pend (off : Nat) (v : W32) : (wrCo k off v).pend = k.pend := rfl
@[simp] theorem wrCo_coPend (off : Nat) (v : W32) : (wrCo k off v).coPend = k.coPend := rfl
@[simp] theorem wrCo_fb (off : Nat) (v : W32) : (wrCo k off v).fb = k.fb := rfl
@[simp] theorem wrCo_divFree (off : Nat) (v : W32) : (wrCo k off v).divFree = k.divFree := rfl
@[simp] theorem wrCo_access (off : Nat) (v : W32) : (wrCo k off v).access = k.access := rfl
@[simp] theorem wrCo_after (off : Nat) (v : W32) : (wrCo k off v).after = k.after := rfl
@[simp] theorem wrCo_precise (off : Nat) (v : W32) : (wrCo k off v).precise = k.precise := rfl
@[simp] theorem wrCo_bound (off : Nat) (v : W32) : (wrCo k off v).bound = k.bound := rfl
@[simp] theorem wrCo_holdStart (off : Nat) (v : W32) : (wrCo k off v).holdStart = k.holdStart := rfl
@[simp] theorem wrCo_long (off : Nat) (v : W32) : (wrCo k off v).long = k.long := rfl
@[simp] theorem wrCo_exc (off : Nat) (v : W32) : (wrCo k off v).exc = k.exc := rfl
@[simp] theorem wrCo_counters (off : Nat) (v : W32) : (wrCo k off v).counters = k.counters := rfl
@[simp] theorem wrCo_rs (off : Nat) (v : W32) : (wrCo k off v).rs = k.rs := rfl
@[simp] theorem wrCo_rsTop (off : Nat) (v : W32) : (wrCo k off v).rsTop = k.rsTop := rfl
@[simp] theorem wrCo_decoded (off : Nat) (v : W32) : (wrCo k off v).decoded = k.decoded := rfl
@[simp] theorem wrCo_wrong (off : Nat) (v : W32) : (wrCo k off v).wrong = k.wrong := rfl
@[simp] theorem wrCo_haltCount (off : Nat) (v : W32) : (wrCo k off v).haltCount = k.haltCount := rfl
@[simp] theorem wrCo_ketch (off : Nat) (v : W32) : (wrCo k off v).ketch = k.ketch := rfl
@[simp] theorem wrCo_ketchAt (off : Nat) (v : W32) : (wrCo k off v).ketchAt = k.ketchAt := rfl
@[simp] theorem wrCo_handlers (off : Nat) (v : W32) : (wrCo k off v).handlers = k.handlers := rfl
@[simp] theorem wrCo_irqCycles (off : Nat) (v : W32) : (wrCo k off v).irqCycles = k.irqCycles := rfl
@[simp] theorem wrCo_lastHalt (off : Nat) (v : W32) : (wrCo k off v).lastHalt = k.lastHalt := rfl
@[simp] theorem wrCo_dead (off : Nat) (v : W32) : (wrCo k off v).dead = k.dead := rfl
@[simp] theorem wrCo_job (off : Nat) (v : W32) : (wrCo k off v).job = k.job := rfl
@[simp] theorem wrCo_level (off : Nat) (v : W32) : (wrCo k off v).level = k.level := rfl
@[simp] theorem wrCo_frames (off : Nat) (v : W32) : (wrCo k off v).frames = k.frames := rfl
@[simp] theorem wrCo_espStart (off : Nat) (v : W32) : (wrCo k off v).espStart = k.espStart := rfl
@[simp] theorem wrCo_saves (off : Nat) (v : W32) : (wrCo k off v).saves = k.saves := rfl
@[simp] theorem wrCo_cdone (off : Nat) (v : W32) : (wrCo k off v).cdone = k.cdone := rfl
@[simp] theorem wrCo_cdonePc (off : Nat) (v : W32) : (wrCo k off v).cdonePc = k.cdonePc := rfl
@[simp] theorem wrCo_handed (off : Nat) (v : W32) : (wrCo k off v).handed = k.handed := rfl
@[simp] theorem wrCo_stopDue (off : Nat) (v : W32) : (wrCo k off v).stopDue = k.stopDue := rfl
@[simp] theorem wrCo_budgetDue (off : Nat) (v : W32) : (wrCo k off v).budgetDue = k.budgetDue := rfl
@[simp] theorem wrCo_budgetHold (off : Nat) (v : W32) : (wrCo k off v).budgetHold = k.budgetHold := rfl
@[simp] theorem wrCo_lastBeat (off : Nat) (v : W32) : (wrCo k off v).lastBeat = k.lastBeat := rfl

@[simp] theorem setCoF_run (off lo w v : Nat) : (setCoF k off lo w v).run = k.run := rfl
@[simp] theorem setCoF_pc (off lo w v : Nat) : (setCoF k off lo w v).pc = k.pc := rfl
@[simp] theorem setCoF_lastPc (off lo w v : Nat) : (setCoF k off lo w v).lastPc = k.lastPc := rfl
@[simp] theorem setCoF_g (off lo w v : Nat) : (setCoF k off lo w v).g = k.g := rfl
@[simp] theorem setCoF_p (off lo w v : Nat) : (setCoF k off lo w v).p = k.p := rfl
@[simp] theorem setCoF_n (off lo w v : Nat) : (setCoF k off lo w v).n = k.n := rfl
@[simp] theorem setCoF_v (off lo w v : Nat) : (setCoF k off lo w v).v = k.v := rfl
@[simp] theorem setCoF_acc (off lo w v : Nat) : (setCoF k off lo w v).acc = k.acc := rfl
@[simp] theorem setCoF_cyc (off lo w v : Nat) : (setCoF k off lo w v).cyc = k.cyc := rfl
@[simp] theorem setCoF_cycles (off lo w v : Nat) : (setCoF k off lo w v).cycles = k.cycles := rfl
@[simp] theorem setCoF_seq (off lo w v : Nat) : (setCoF k off lo w v).seq = k.seq := rfl
@[simp] theorem setCoF_pend (off lo w v : Nat) : (setCoF k off lo w v).pend = k.pend := rfl
@[simp] theorem setCoF_coPend (off lo w v : Nat) : (setCoF k off lo w v).coPend = k.coPend := rfl
@[simp] theorem setCoF_fb (off lo w v : Nat) : (setCoF k off lo w v).fb = k.fb := rfl
@[simp] theorem setCoF_divFree (off lo w v : Nat) : (setCoF k off lo w v).divFree = k.divFree := rfl
@[simp] theorem setCoF_access (off lo w v : Nat) : (setCoF k off lo w v).access = k.access := rfl
@[simp] theorem setCoF_after (off lo w v : Nat) : (setCoF k off lo w v).after = k.after := rfl
@[simp] theorem setCoF_precise (off lo w v : Nat) : (setCoF k off lo w v).precise = k.precise := rfl
@[simp] theorem setCoF_bound (off lo w v : Nat) : (setCoF k off lo w v).bound = k.bound := rfl
@[simp] theorem setCoF_holdStart (off lo w v : Nat) : (setCoF k off lo w v).holdStart = k.holdStart := rfl
@[simp] theorem setCoF_long (off lo w v : Nat) : (setCoF k off lo w v).long = k.long := rfl
@[simp] theorem setCoF_exc (off lo w v : Nat) : (setCoF k off lo w v).exc = k.exc := rfl
@[simp] theorem setCoF_counters (off lo w v : Nat) : (setCoF k off lo w v).counters = k.counters := rfl
@[simp] theorem setCoF_rs (off lo w v : Nat) : (setCoF k off lo w v).rs = k.rs := rfl
@[simp] theorem setCoF_rsTop (off lo w v : Nat) : (setCoF k off lo w v).rsTop = k.rsTop := rfl
@[simp] theorem setCoF_decoded (off lo w v : Nat) : (setCoF k off lo w v).decoded = k.decoded := rfl
@[simp] theorem setCoF_wrong (off lo w v : Nat) : (setCoF k off lo w v).wrong = k.wrong := rfl
@[simp] theorem setCoF_haltCount (off lo w v : Nat) : (setCoF k off lo w v).haltCount = k.haltCount := rfl
@[simp] theorem setCoF_ketch (off lo w v : Nat) : (setCoF k off lo w v).ketch = k.ketch := rfl
@[simp] theorem setCoF_ketchAt (off lo w v : Nat) : (setCoF k off lo w v).ketchAt = k.ketchAt := rfl
@[simp] theorem setCoF_handlers (off lo w v : Nat) : (setCoF k off lo w v).handlers = k.handlers := rfl
@[simp] theorem setCoF_irqCycles (off lo w v : Nat) : (setCoF k off lo w v).irqCycles = k.irqCycles := rfl
@[simp] theorem setCoF_lastHalt (off lo w v : Nat) : (setCoF k off lo w v).lastHalt = k.lastHalt := rfl
@[simp] theorem setCoF_dead (off lo w v : Nat) : (setCoF k off lo w v).dead = k.dead := rfl
@[simp] theorem setCoF_job (off lo w v : Nat) : (setCoF k off lo w v).job = k.job := rfl
@[simp] theorem setCoF_level (off lo w v : Nat) : (setCoF k off lo w v).level = k.level := rfl
@[simp] theorem setCoF_frames (off lo w v : Nat) : (setCoF k off lo w v).frames = k.frames := rfl
@[simp] theorem setCoF_espStart (off lo w v : Nat) : (setCoF k off lo w v).espStart = k.espStart := rfl
@[simp] theorem setCoF_saves (off lo w v : Nat) : (setCoF k off lo w v).saves = k.saves := rfl
@[simp] theorem setCoF_cdone (off lo w v : Nat) : (setCoF k off lo w v).cdone = k.cdone := rfl
@[simp] theorem setCoF_cdonePc (off lo w v : Nat) : (setCoF k off lo w v).cdonePc = k.cdonePc := rfl
@[simp] theorem setCoF_handed (off lo w v : Nat) : (setCoF k off lo w v).handed = k.handed := rfl
@[simp] theorem setCoF_stopDue (off lo w v : Nat) : (setCoF k off lo w v).stopDue = k.stopDue := rfl
@[simp] theorem setCoF_budgetDue (off lo w v : Nat) : (setCoF k off lo w v).budgetDue = k.budgetDue := rfl
@[simp] theorem setCoF_budgetHold (off lo w v : Nat) : (setCoF k off lo w v).budgetHold = k.budgetHold := rfl
@[simp] theorem setCoF_lastBeat (off lo w v : Nat) : (setCoF k off lo w v).lastBeat = k.lastBeat := rfl

@[simp] theorem setG_run (i v : Nat) : (setG k i v).run = k.run := rfl
@[simp] theorem setG_pc (i v : Nat) : (setG k i v).pc = k.pc := rfl
@[simp] theorem setG_lastPc (i v : Nat) : (setG k i v).lastPc = k.lastPc := rfl
@[simp] theorem setG_p (i v : Nat) : (setG k i v).p = k.p := rfl
@[simp] theorem setG_n (i v : Nat) : (setG k i v).n = k.n := rfl
@[simp] theorem setG_v (i v : Nat) : (setG k i v).v = k.v := rfl
@[simp] theorem setG_acc (i v : Nat) : (setG k i v).acc = k.acc := rfl
@[simp] theorem setG_co (i v : Nat) : (setG k i v).co = k.co := rfl
@[simp] theorem setG_cyc (i v : Nat) : (setG k i v).cyc = k.cyc := rfl
@[simp] theorem setG_cycles (i v : Nat) : (setG k i v).cycles = k.cycles := rfl
@[simp] theorem setG_seq (i v : Nat) : (setG k i v).seq = k.seq := rfl
@[simp] theorem setG_pend (i v : Nat) : (setG k i v).pend = k.pend := rfl
@[simp] theorem setG_coPend (i v : Nat) : (setG k i v).coPend = k.coPend := rfl
@[simp] theorem setG_fb (i v : Nat) : (setG k i v).fb = k.fb := rfl
@[simp] theorem setG_divFree (i v : Nat) : (setG k i v).divFree = k.divFree := rfl
@[simp] theorem setG_access (i v : Nat) : (setG k i v).access = k.access := rfl
@[simp] theorem setG_after (i v : Nat) : (setG k i v).after = k.after := rfl
@[simp] theorem setG_precise (i v : Nat) : (setG k i v).precise = k.precise := rfl
@[simp] theorem setG_bound (i v : Nat) : (setG k i v).bound = k.bound := rfl
@[simp] theorem setG_holdStart (i v : Nat) : (setG k i v).holdStart = k.holdStart := rfl
@[simp] theorem setG_long (i v : Nat) : (setG k i v).long = k.long := rfl
@[simp] theorem setG_exc (i v : Nat) : (setG k i v).exc = k.exc := rfl
@[simp] theorem setG_counters (i v : Nat) : (setG k i v).counters = k.counters := rfl
@[simp] theorem setG_rs (i v : Nat) : (setG k i v).rs = k.rs := rfl
@[simp] theorem setG_rsTop (i v : Nat) : (setG k i v).rsTop = k.rsTop := rfl
@[simp] theorem setG_decoded (i v : Nat) : (setG k i v).decoded = k.decoded := rfl
@[simp] theorem setG_wrong (i v : Nat) : (setG k i v).wrong = k.wrong := rfl
@[simp] theorem setG_haltCount (i v : Nat) : (setG k i v).haltCount = k.haltCount := rfl
@[simp] theorem setG_ketch (i v : Nat) : (setG k i v).ketch = k.ketch := rfl
@[simp] theorem setG_ketchAt (i v : Nat) : (setG k i v).ketchAt = k.ketchAt := rfl
@[simp] theorem setG_handlers (i v : Nat) : (setG k i v).handlers = k.handlers := rfl
@[simp] theorem setG_irqCycles (i v : Nat) : (setG k i v).irqCycles = k.irqCycles := rfl
@[simp] theorem setG_lastHalt (i v : Nat) : (setG k i v).lastHalt = k.lastHalt := rfl
@[simp] theorem setG_dead (i v : Nat) : (setG k i v).dead = k.dead := rfl
@[simp] theorem setG_job (i v : Nat) : (setG k i v).job = k.job := rfl
@[simp] theorem setG_level (i v : Nat) : (setG k i v).level = k.level := rfl
@[simp] theorem setG_frames (i v : Nat) : (setG k i v).frames = k.frames := rfl
@[simp] theorem setG_espStart (i v : Nat) : (setG k i v).espStart = k.espStart := rfl
@[simp] theorem setG_saves (i v : Nat) : (setG k i v).saves = k.saves := rfl
@[simp] theorem setG_cdone (i v : Nat) : (setG k i v).cdone = k.cdone := rfl
@[simp] theorem setG_cdonePc (i v : Nat) : (setG k i v).cdonePc = k.cdonePc := rfl
@[simp] theorem setG_handed (i v : Nat) : (setG k i v).handed = k.handed := rfl
@[simp] theorem setG_stopDue (i v : Nat) : (setG k i v).stopDue = k.stopDue := rfl
@[simp] theorem setG_budgetDue (i v : Nat) : (setG k i v).budgetDue = k.budgetDue := rfl
@[simp] theorem setG_budgetHold (i v : Nat) : (setG k i v).budgetHold = k.budgetHold := rfl
@[simp] theorem setG_lastBeat (i v : Nat) : (setG k i v).lastBeat = k.lastBeat := rfl

/-! ### What counting the budget down, passing time and a hold run leave -/

@[simp] theorem budgetCount_run (m : Nat) : (budgetCount k m).run = k.run := by
  unfold budgetCount; split
  · exact setCoF_run _ _ _ _ _
  · rfl
@[simp] theorem budgetCount_pc (m : Nat) : (budgetCount k m).pc = k.pc := by
  unfold budgetCount; split
  · exact setCoF_pc _ _ _ _ _
  · rfl
@[simp] theorem budgetCount_lastPc (m : Nat) : (budgetCount k m).lastPc = k.lastPc := by
  unfold budgetCount; split
  · exact setCoF_lastPc _ _ _ _ _
  · rfl
@[simp] theorem budgetCount_g (m : Nat) : (budgetCount k m).g = k.g := by
  unfold budgetCount; split
  · exact setCoF_g _ _ _ _ _
  · rfl
@[simp] theorem budgetCount_p (m : Nat) : (budgetCount k m).p = k.p := by
  unfold budgetCount; split
  · exact setCoF_p _ _ _ _ _
  · rfl
@[simp] theorem budgetCount_n (m : Nat) : (budgetCount k m).n = k.n := by
  unfold budgetCount; split
  · exact setCoF_n _ _ _ _ _
  · rfl
@[simp] theorem budgetCount_v (m : Nat) : (budgetCount k m).v = k.v := by
  unfold budgetCount; split
  · exact setCoF_v _ _ _ _ _
  · rfl
@[simp] theorem budgetCount_acc (m : Nat) : (budgetCount k m).acc = k.acc := by
  unfold budgetCount; split
  · exact setCoF_acc _ _ _ _ _
  · rfl
@[simp] theorem budgetCount_cyc (m : Nat) : (budgetCount k m).cyc = k.cyc := by
  unfold budgetCount; split
  · exact setCoF_cyc _ _ _ _ _
  · rfl
@[simp] theorem budgetCount_cycles (m : Nat) : (budgetCount k m).cycles = k.cycles := by
  unfold budgetCount; split
  · exact setCoF_cycles _ _ _ _ _
  · rfl
@[simp] theorem budgetCount_seq (m : Nat) : (budgetCount k m).seq = k.seq := by
  unfold budgetCount; split
  · exact setCoF_seq _ _ _ _ _
  · rfl
@[simp] theorem budgetCount_pend (m : Nat) : (budgetCount k m).pend = k.pend := by
  unfold budgetCount; split
  · exact setCoF_pend _ _ _ _ _
  · rfl
@[simp] theorem budgetCount_coPend (m : Nat) : (budgetCount k m).coPend = k.coPend := by
  unfold budgetCount; split
  · exact setCoF_coPend _ _ _ _ _
  · rfl
@[simp] theorem budgetCount_fb (m : Nat) : (budgetCount k m).fb = k.fb := by
  unfold budgetCount; split
  · exact setCoF_fb _ _ _ _ _
  · rfl
@[simp] theorem budgetCount_divFree (m : Nat) : (budgetCount k m).divFree = k.divFree := by
  unfold budgetCount; split
  · exact setCoF_divFree _ _ _ _ _
  · rfl
@[simp] theorem budgetCount_access (m : Nat) : (budgetCount k m).access = k.access := by
  unfold budgetCount; split
  · exact setCoF_access _ _ _ _ _
  · rfl
@[simp] theorem budgetCount_after (m : Nat) : (budgetCount k m).after = k.after := by
  unfold budgetCount; split
  · exact setCoF_after _ _ _ _ _
  · rfl
@[simp] theorem budgetCount_precise (m : Nat) : (budgetCount k m).precise = k.precise := by
  unfold budgetCount; split
  · exact setCoF_precise _ _ _ _ _
  · rfl
@[simp] theorem budgetCount_bound (m : Nat) : (budgetCount k m).bound = k.bound := by
  unfold budgetCount; split
  · exact setCoF_bound _ _ _ _ _
  · rfl
@[simp] theorem budgetCount_holdStart (m : Nat) : (budgetCount k m).holdStart = k.holdStart := by
  unfold budgetCount; split
  · exact setCoF_holdStart _ _ _ _ _
  · rfl
@[simp] theorem budgetCount_long (m : Nat) : (budgetCount k m).long = k.long := by
  unfold budgetCount; split
  · exact setCoF_long _ _ _ _ _
  · rfl
@[simp] theorem budgetCount_exc (m : Nat) : (budgetCount k m).exc = k.exc := by
  unfold budgetCount; split
  · exact setCoF_exc _ _ _ _ _
  · rfl
@[simp] theorem budgetCount_counters (m : Nat) : (budgetCount k m).counters = k.counters := by
  unfold budgetCount; split
  · exact setCoF_counters _ _ _ _ _
  · rfl
@[simp] theorem budgetCount_rs (m : Nat) : (budgetCount k m).rs = k.rs := by
  unfold budgetCount; split
  · exact setCoF_rs _ _ _ _ _
  · rfl
@[simp] theorem budgetCount_rsTop (m : Nat) : (budgetCount k m).rsTop = k.rsTop := by
  unfold budgetCount; split
  · exact setCoF_rsTop _ _ _ _ _
  · rfl
@[simp] theorem budgetCount_decoded (m : Nat) : (budgetCount k m).decoded = k.decoded := by
  unfold budgetCount; split
  · exact setCoF_decoded _ _ _ _ _
  · rfl
@[simp] theorem budgetCount_wrong (m : Nat) : (budgetCount k m).wrong = k.wrong := by
  unfold budgetCount; split
  · exact setCoF_wrong _ _ _ _ _
  · rfl
@[simp] theorem budgetCount_haltCount (m : Nat) : (budgetCount k m).haltCount = k.haltCount := by
  unfold budgetCount; split
  · exact setCoF_haltCount _ _ _ _ _
  · rfl
@[simp] theorem budgetCount_ketch (m : Nat) : (budgetCount k m).ketch = k.ketch := by
  unfold budgetCount; split
  · exact setCoF_ketch _ _ _ _ _
  · rfl
@[simp] theorem budgetCount_ketchAt (m : Nat) : (budgetCount k m).ketchAt = k.ketchAt := by
  unfold budgetCount; split
  · exact setCoF_ketchAt _ _ _ _ _
  · rfl
@[simp] theorem budgetCount_handlers (m : Nat) : (budgetCount k m).handlers = k.handlers := by
  unfold budgetCount; split
  · exact setCoF_handlers _ _ _ _ _
  · rfl
@[simp] theorem budgetCount_irqCycles (m : Nat) : (budgetCount k m).irqCycles = k.irqCycles := by
  unfold budgetCount; split
  · exact setCoF_irqCycles _ _ _ _ _
  · rfl
@[simp] theorem budgetCount_lastHalt (m : Nat) : (budgetCount k m).lastHalt = k.lastHalt := by
  unfold budgetCount; split
  · exact setCoF_lastHalt _ _ _ _ _
  · rfl
@[simp] theorem budgetCount_dead (m : Nat) : (budgetCount k m).dead = k.dead := by
  unfold budgetCount; split
  · exact setCoF_dead _ _ _ _ _
  · rfl
@[simp] theorem budgetCount_job (m : Nat) : (budgetCount k m).job = k.job := by
  unfold budgetCount; split
  · exact setCoF_job _ _ _ _ _
  · rfl
@[simp] theorem budgetCount_level (m : Nat) : (budgetCount k m).level = k.level := by
  unfold budgetCount; split
  · exact setCoF_level _ _ _ _ _
  · rfl
@[simp] theorem budgetCount_frames (m : Nat) : (budgetCount k m).frames = k.frames := by
  unfold budgetCount; split
  · exact setCoF_frames _ _ _ _ _
  · rfl
@[simp] theorem budgetCount_espStart (m : Nat) : (budgetCount k m).espStart = k.espStart := by
  unfold budgetCount; split
  · exact setCoF_espStart _ _ _ _ _
  · rfl
@[simp] theorem budgetCount_saves (m : Nat) : (budgetCount k m).saves = k.saves := by
  unfold budgetCount; split
  · exact setCoF_saves _ _ _ _ _
  · rfl
@[simp] theorem budgetCount_cdone (m : Nat) : (budgetCount k m).cdone = k.cdone := by
  unfold budgetCount; split
  · exact setCoF_cdone _ _ _ _ _
  · rfl
@[simp] theorem budgetCount_cdonePc (m : Nat) : (budgetCount k m).cdonePc = k.cdonePc := by
  unfold budgetCount; split
  · exact setCoF_cdonePc _ _ _ _ _
  · rfl
@[simp] theorem budgetCount_handed (m : Nat) : (budgetCount k m).handed = k.handed := by
  unfold budgetCount; split
  · exact setCoF_handed _ _ _ _ _
  · rfl
@[simp] theorem budgetCount_stopDue (m : Nat) : (budgetCount k m).stopDue = k.stopDue := by
  unfold budgetCount; split
  · exact setCoF_stopDue _ _ _ _ _
  · rfl
@[simp] theorem budgetCount_budgetDue (m : Nat) : (budgetCount k m).budgetDue = k.budgetDue := by
  unfold budgetCount; split
  · exact setCoF_budgetDue _ _ _ _ _
  · rfl
@[simp] theorem budgetCount_budgetHold (m : Nat) : (budgetCount k m).budgetHold = k.budgetHold := by
  unfold budgetCount; split
  · exact setCoF_budgetHold _ _ _ _ _
  · rfl
@[simp] theorem budgetCount_lastBeat (m : Nat) : (budgetCount k m).lastBeat = k.lastBeat := by
  unfold budgetCount; split
  · exact setCoF_lastBeat _ _ _ _ _
  · rfl

@[simp] theorem passTime_run (n st : Nat) : (passTime k n st).run = k.run := by
  unfold passTime; dsimp only; split <;> exact budgetCount_run _ _
@[simp] theorem passTime_pc (n st : Nat) : (passTime k n st).pc = k.pc := by
  unfold passTime; dsimp only; split <;> exact budgetCount_pc _ _
@[simp] theorem passTime_lastPc (n st : Nat) : (passTime k n st).lastPc = k.lastPc := by
  unfold passTime; dsimp only; split <;> exact budgetCount_lastPc _ _
@[simp] theorem passTime_g (n st : Nat) : (passTime k n st).g = k.g := by
  unfold passTime; dsimp only; split <;> exact budgetCount_g _ _
@[simp] theorem passTime_p (n st : Nat) : (passTime k n st).p = k.p := by
  unfold passTime; dsimp only; split <;> exact budgetCount_p _ _
@[simp] theorem passTime_n (n st : Nat) : (passTime k n st).n = k.n := by
  unfold passTime; dsimp only; split <;> exact budgetCount_n _ _
@[simp] theorem passTime_v (n st : Nat) : (passTime k n st).v = k.v := by
  unfold passTime; dsimp only; split <;> exact budgetCount_v _ _
@[simp] theorem passTime_acc (n st : Nat) : (passTime k n st).acc = k.acc := by
  unfold passTime; dsimp only; split <;> exact budgetCount_acc _ _
@[simp] theorem passTime_seq (n st : Nat) : (passTime k n st).seq = k.seq := by
  unfold passTime; dsimp only; split <;> exact budgetCount_seq _ _
@[simp] theorem passTime_pend (n st : Nat) : (passTime k n st).pend = k.pend := by
  unfold passTime; dsimp only; split <;> exact budgetCount_pend _ _
@[simp] theorem passTime_coPend (n st : Nat) : (passTime k n st).coPend = k.coPend := by
  unfold passTime; dsimp only; split <;> exact budgetCount_coPend _ _
@[simp] theorem passTime_fb (n st : Nat) : (passTime k n st).fb = k.fb := by
  unfold passTime; dsimp only; split <;> exact budgetCount_fb _ _
@[simp] theorem passTime_divFree (n st : Nat) : (passTime k n st).divFree = k.divFree := by
  unfold passTime; dsimp only; split <;> exact budgetCount_divFree _ _
@[simp] theorem passTime_access (n st : Nat) : (passTime k n st).access = k.access := by
  unfold passTime; dsimp only; split <;> exact budgetCount_access _ _
@[simp] theorem passTime_after (n st : Nat) : (passTime k n st).after = k.after := by
  unfold passTime; dsimp only; split <;> exact budgetCount_after _ _
@[simp] theorem passTime_precise (n st : Nat) : (passTime k n st).precise = k.precise := by
  unfold passTime; dsimp only; split <;> exact budgetCount_precise _ _
@[simp] theorem passTime_bound (n st : Nat) : (passTime k n st).bound = k.bound := by
  unfold passTime; dsimp only; split <;> exact budgetCount_bound _ _
@[simp] theorem passTime_holdStart (n st : Nat) : (passTime k n st).holdStart = k.holdStart := by
  unfold passTime; dsimp only; split <;> exact budgetCount_holdStart _ _
@[simp] theorem passTime_long (n st : Nat) : (passTime k n st).long = k.long := by
  unfold passTime; dsimp only; split <;> exact budgetCount_long _ _
@[simp] theorem passTime_exc (n st : Nat) : (passTime k n st).exc = k.exc := by
  unfold passTime; dsimp only; split <;> exact budgetCount_exc _ _
@[simp] theorem passTime_counters (n st : Nat) : (passTime k n st).counters = k.counters := by
  unfold passTime; dsimp only; split <;> exact budgetCount_counters _ _
@[simp] theorem passTime_rs (n st : Nat) : (passTime k n st).rs = k.rs := by
  unfold passTime; dsimp only; split <;> exact budgetCount_rs _ _
@[simp] theorem passTime_rsTop (n st : Nat) : (passTime k n st).rsTop = k.rsTop := by
  unfold passTime; dsimp only; split <;> exact budgetCount_rsTop _ _
@[simp] theorem passTime_decoded (n st : Nat) : (passTime k n st).decoded = k.decoded := by
  unfold passTime; dsimp only; split <;> exact budgetCount_decoded _ _
@[simp] theorem passTime_wrong (n st : Nat) : (passTime k n st).wrong = k.wrong := by
  unfold passTime; dsimp only; split <;> exact budgetCount_wrong _ _
@[simp] theorem passTime_haltCount (n st : Nat) : (passTime k n st).haltCount = k.haltCount := by
  unfold passTime; dsimp only; split <;> exact budgetCount_haltCount _ _
@[simp] theorem passTime_ketch (n st : Nat) : (passTime k n st).ketch = k.ketch := by
  unfold passTime; dsimp only; split <;> exact budgetCount_ketch _ _
@[simp] theorem passTime_ketchAt (n st : Nat) : (passTime k n st).ketchAt = k.ketchAt := by
  unfold passTime; dsimp only; split <;> exact budgetCount_ketchAt _ _
@[simp] theorem passTime_handlers (n st : Nat) : (passTime k n st).handlers = k.handlers := by
  unfold passTime; dsimp only; split <;> exact budgetCount_handlers _ _
@[simp] theorem passTime_lastHalt (n st : Nat) : (passTime k n st).lastHalt = k.lastHalt := by
  unfold passTime; dsimp only; split <;> exact budgetCount_lastHalt _ _
@[simp] theorem passTime_dead (n st : Nat) : (passTime k n st).dead = k.dead := by
  unfold passTime; dsimp only; split <;> exact budgetCount_dead _ _
@[simp] theorem passTime_job (n st : Nat) : (passTime k n st).job = k.job := by
  unfold passTime; dsimp only; split <;> exact budgetCount_job _ _
@[simp] theorem passTime_level (n st : Nat) : (passTime k n st).level = k.level := by
  unfold passTime; dsimp only; split <;> exact budgetCount_level _ _
@[simp] theorem passTime_frames (n st : Nat) : (passTime k n st).frames = k.frames := by
  unfold passTime; dsimp only; split <;> exact budgetCount_frames _ _
@[simp] theorem passTime_espStart (n st : Nat) : (passTime k n st).espStart = k.espStart := by
  unfold passTime; dsimp only; split <;> exact budgetCount_espStart _ _
@[simp] theorem passTime_saves (n st : Nat) : (passTime k n st).saves = k.saves := by
  unfold passTime; dsimp only; split <;> exact budgetCount_saves _ _
@[simp] theorem passTime_cdone (n st : Nat) : (passTime k n st).cdone = k.cdone := by
  unfold passTime; dsimp only; split <;> exact budgetCount_cdone _ _
@[simp] theorem passTime_cdonePc (n st : Nat) : (passTime k n st).cdonePc = k.cdonePc := by
  unfold passTime; dsimp only; split <;> exact budgetCount_cdonePc _ _
@[simp] theorem passTime_handed (n st : Nat) : (passTime k n st).handed = k.handed := by
  unfold passTime; dsimp only; split <;> exact budgetCount_handed _ _
@[simp] theorem passTime_stopDue (n st : Nat) : (passTime k n st).stopDue = k.stopDue := by
  unfold passTime; dsimp only; split <;> exact budgetCount_stopDue _ _
@[simp] theorem passTime_budgetDue (n st : Nat) : (passTime k n st).budgetDue = k.budgetDue := by
  unfold passTime; dsimp only; split <;> exact budgetCount_budgetDue _ _
@[simp] theorem passTime_budgetHold (n st : Nat) : (passTime k n st).budgetHold = k.budgetHold := by
  unfold passTime; dsimp only; split <;> exact budgetCount_budgetHold _ _
@[simp] theorem passTime_lastBeat (n st : Nat) : (passTime k n st).lastBeat = k.lastBeat := by
  unfold passTime; dsimp only; split <;> exact budgetCount_lastBeat _ _
@[simp] theorem passTime_cyc (n st : Nat) : (passTime k n st).cyc = k.cyc + n := by
  unfold passTime; dsimp only; split <;> exact budgetCount_cyc _ _
@[simp] theorem passTime_cycles (n st : Nat) : (passTime k n st).cycles = k.cycles + n + st := by
  unfold passTime; dsimp only; split <;> exact budgetCount_cycles _ _

@[simp] theorem raiseExc_run (r : ExcReq) : (raiseExc k r).run = k.run := rfl
@[simp] theorem raiseExc_pc (r : ExcReq) : (raiseExc k r).pc = k.pc := rfl
@[simp] theorem raiseExc_lastPc (r : ExcReq) : (raiseExc k r).lastPc = k.lastPc := rfl
@[simp] theorem raiseExc_g (r : ExcReq) : (raiseExc k r).g = k.g := rfl
@[simp] theorem raiseExc_p (r : ExcReq) : (raiseExc k r).p = k.p := rfl
@[simp] theorem raiseExc_n (r : ExcReq) : (raiseExc k r).n = k.n := rfl
@[simp] theorem raiseExc_v (r : ExcReq) : (raiseExc k r).v = k.v := rfl
@[simp] theorem raiseExc_acc (r : ExcReq) : (raiseExc k r).acc = k.acc := rfl
@[simp] theorem raiseExc_co (r : ExcReq) : (raiseExc k r).co = k.co := rfl
@[simp] theorem raiseExc_cyc (r : ExcReq) : (raiseExc k r).cyc = k.cyc := rfl
@[simp] theorem raiseExc_cycles (r : ExcReq) : (raiseExc k r).cycles = k.cycles := rfl
@[simp] theorem raiseExc_seq (r : ExcReq) : (raiseExc k r).seq = k.seq := rfl
@[simp] theorem raiseExc_pend (r : ExcReq) : (raiseExc k r).pend = k.pend := rfl
@[simp] theorem raiseExc_coPend (r : ExcReq) : (raiseExc k r).coPend = k.coPend := rfl
@[simp] theorem raiseExc_fb (r : ExcReq) : (raiseExc k r).fb = k.fb := rfl
@[simp] theorem raiseExc_divFree (r : ExcReq) : (raiseExc k r).divFree = k.divFree := rfl
@[simp] theorem raiseExc_access (r : ExcReq) : (raiseExc k r).access = k.access := rfl
@[simp] theorem raiseExc_after (r : ExcReq) : (raiseExc k r).after = k.after := rfl
@[simp] theorem raiseExc_precise (r : ExcReq) : (raiseExc k r).precise = k.precise := rfl
@[simp] theorem raiseExc_bound (r : ExcReq) : (raiseExc k r).bound = k.bound := rfl
@[simp] theorem raiseExc_holdStart (r : ExcReq) : (raiseExc k r).holdStart = k.holdStart := rfl
@[simp] theorem raiseExc_long (r : ExcReq) : (raiseExc k r).long = k.long := rfl
@[simp] theorem raiseExc_counters (r : ExcReq) : (raiseExc k r).counters = k.counters := rfl
@[simp] theorem raiseExc_rs (r : ExcReq) : (raiseExc k r).rs = k.rs := rfl
@[simp] theorem raiseExc_rsTop (r : ExcReq) : (raiseExc k r).rsTop = k.rsTop := rfl
@[simp] theorem raiseExc_wrong (r : ExcReq) : (raiseExc k r).wrong = k.wrong := rfl
@[simp] theorem raiseExc_haltCount (r : ExcReq) : (raiseExc k r).haltCount = k.haltCount := rfl
@[simp] theorem raiseExc_ketch (r : ExcReq) : (raiseExc k r).ketch = k.ketch := rfl
@[simp] theorem raiseExc_ketchAt (r : ExcReq) : (raiseExc k r).ketchAt = k.ketchAt := rfl
@[simp] theorem raiseExc_handlers (r : ExcReq) : (raiseExc k r).handlers = k.handlers := rfl
@[simp] theorem raiseExc_irqCycles (r : ExcReq) : (raiseExc k r).irqCycles = k.irqCycles := rfl
@[simp] theorem raiseExc_lastHalt (r : ExcReq) : (raiseExc k r).lastHalt = k.lastHalt := rfl
@[simp] theorem raiseExc_dead (r : ExcReq) : (raiseExc k r).dead = k.dead := rfl
@[simp] theorem raiseExc_job (r : ExcReq) : (raiseExc k r).job = k.job := rfl
@[simp] theorem raiseExc_level (r : ExcReq) : (raiseExc k r).level = k.level := rfl
@[simp] theorem raiseExc_frames (r : ExcReq) : (raiseExc k r).frames = k.frames := rfl
@[simp] theorem raiseExc_espStart (r : ExcReq) : (raiseExc k r).espStart = k.espStart := rfl
@[simp] theorem raiseExc_saves (r : ExcReq) : (raiseExc k r).saves = k.saves := rfl
@[simp] theorem raiseExc_cdone (r : ExcReq) : (raiseExc k r).cdone = k.cdone := rfl
@[simp] theorem raiseExc_cdonePc (r : ExcReq) : (raiseExc k r).cdonePc = k.cdonePc := rfl
@[simp] theorem raiseExc_handed (r : ExcReq) : (raiseExc k r).handed = k.handed := rfl
@[simp] theorem raiseExc_stopDue (r : ExcReq) : (raiseExc k r).stopDue = k.stopDue := rfl
@[simp] theorem raiseExc_budgetDue (r : ExcReq) : (raiseExc k r).budgetDue = k.budgetDue := rfl
@[simp] theorem raiseExc_budgetHold (r : ExcReq) : (raiseExc k r).budgetHold = k.budgetHold := rfl
@[simp] theorem raiseExc_lastBeat (r : ExcReq) : (raiseExc k r).lastBeat = k.lastBeat := rfl
@[simp] theorem raiseExc_exc (r : ExcReq) : (raiseExc k r).exc = some r := rfl

@[simp] theorem holdRun_run (h : Bool) : (holdRun k h).run = k.run := by
  unfold holdRun; split
  · split <;> rfl
  · split <;> rfl
@[simp] theorem holdRun_pc (h : Bool) : (holdRun k h).pc = k.pc := by
  unfold holdRun; split
  · split <;> rfl
  · split <;> rfl
@[simp] theorem holdRun_lastPc (h : Bool) : (holdRun k h).lastPc = k.lastPc := by
  unfold holdRun; split
  · split <;> rfl
  · split <;> rfl
@[simp] theorem holdRun_g (h : Bool) : (holdRun k h).g = k.g := by
  unfold holdRun; split
  · split <;> rfl
  · split <;> rfl
@[simp] theorem holdRun_p (h : Bool) : (holdRun k h).p = k.p := by
  unfold holdRun; split
  · split <;> rfl
  · split <;> rfl
@[simp] theorem holdRun_n (h : Bool) : (holdRun k h).n = k.n := by
  unfold holdRun; split
  · split <;> rfl
  · split <;> rfl
@[simp] theorem holdRun_v (h : Bool) : (holdRun k h).v = k.v := by
  unfold holdRun; split
  · split <;> rfl
  · split <;> rfl
@[simp] theorem holdRun_acc (h : Bool) : (holdRun k h).acc = k.acc := by
  unfold holdRun; split
  · split <;> rfl
  · split <;> rfl
@[simp] theorem holdRun_cyc (h : Bool) : (holdRun k h).cyc = k.cyc := by
  unfold holdRun; split
  · split <;> rfl
  · split <;> rfl
@[simp] theorem holdRun_cycles (h : Bool) : (holdRun k h).cycles = k.cycles := by
  unfold holdRun; split
  · split <;> rfl
  · split <;> rfl
@[simp] theorem holdRun_seq (h : Bool) : (holdRun k h).seq = k.seq := by
  unfold holdRun; split
  · split <;> rfl
  · split <;> rfl
@[simp] theorem holdRun_pend (h : Bool) : (holdRun k h).pend = k.pend := by
  unfold holdRun; split
  · split <;> rfl
  · split <;> rfl
@[simp] theorem holdRun_coPend (h : Bool) : (holdRun k h).coPend = k.coPend := by
  unfold holdRun; split
  · split <;> rfl
  · split <;> rfl
@[simp] theorem holdRun_fb (h : Bool) : (holdRun k h).fb = k.fb := by
  unfold holdRun; split
  · split <;> rfl
  · split <;> rfl
@[simp] theorem holdRun_divFree (h : Bool) : (holdRun k h).divFree = k.divFree := by
  unfold holdRun; split
  · split <;> rfl
  · split <;> rfl
@[simp] theorem holdRun_access (h : Bool) : (holdRun k h).access = k.access := by
  unfold holdRun; split
  · split <;> rfl
  · split <;> rfl
@[simp] theorem holdRun_after (h : Bool) : (holdRun k h).after = k.after := by
  unfold holdRun; split
  · split <;> rfl
  · split <;> rfl
@[simp] theorem holdRun_precise (h : Bool) : (holdRun k h).precise = k.precise := by
  unfold holdRun; split
  · split <;> rfl
  · split <;> rfl
@[simp] theorem holdRun_bound (h : Bool) : (holdRun k h).bound = k.bound := by
  unfold holdRun; split
  · split <;> rfl
  · split <;> rfl
@[simp] theorem holdRun_long (h : Bool) : (holdRun k h).long = k.long := by
  unfold holdRun; split
  · split <;> rfl
  · split <;> rfl
@[simp] theorem holdRun_exc (h : Bool) : (holdRun k h).exc = k.exc := by
  unfold holdRun; split
  · split <;> rfl
  · split <;> rfl
@[simp] theorem holdRun_counters (h : Bool) : (holdRun k h).counters = k.counters := by
  unfold holdRun; split
  · split <;> rfl
  · split <;> rfl
@[simp] theorem holdRun_rs (h : Bool) : (holdRun k h).rs = k.rs := by
  unfold holdRun; split
  · split <;> rfl
  · split <;> rfl
@[simp] theorem holdRun_rsTop (h : Bool) : (holdRun k h).rsTop = k.rsTop := by
  unfold holdRun; split
  · split <;> rfl
  · split <;> rfl
@[simp] theorem holdRun_decoded (h : Bool) : (holdRun k h).decoded = k.decoded := by
  unfold holdRun; split
  · split <;> rfl
  · split <;> rfl
@[simp] theorem holdRun_wrong (h : Bool) : (holdRun k h).wrong = k.wrong := by
  unfold holdRun; split
  · split <;> rfl
  · split <;> rfl
@[simp] theorem holdRun_haltCount (h : Bool) : (holdRun k h).haltCount = k.haltCount := by
  unfold holdRun; split
  · split <;> rfl
  · split <;> rfl
@[simp] theorem holdRun_ketch (h : Bool) : (holdRun k h).ketch = k.ketch := by
  unfold holdRun; split
  · split <;> rfl
  · split <;> rfl
@[simp] theorem holdRun_ketchAt (h : Bool) : (holdRun k h).ketchAt = k.ketchAt := by
  unfold holdRun; split
  · split <;> rfl
  · split <;> rfl
@[simp] theorem holdRun_handlers (h : Bool) : (holdRun k h).handlers = k.handlers := by
  unfold holdRun; split
  · split <;> rfl
  · split <;> rfl
@[simp] theorem holdRun_irqCycles (h : Bool) : (holdRun k h).irqCycles = k.irqCycles := by
  unfold holdRun; split
  · split <;> rfl
  · split <;> rfl
@[simp] theorem holdRun_lastHalt (h : Bool) : (holdRun k h).lastHalt = k.lastHalt := by
  unfold holdRun; split
  · split <;> rfl
  · split <;> rfl
@[simp] theorem holdRun_dead (h : Bool) : (holdRun k h).dead = k.dead := by
  unfold holdRun; split
  · split <;> rfl
  · split <;> rfl
@[simp] theorem holdRun_job (h : Bool) : (holdRun k h).job = k.job := by
  unfold holdRun; split
  · split <;> rfl
  · split <;> rfl
@[simp] theorem holdRun_level (h : Bool) : (holdRun k h).level = k.level := by
  unfold holdRun; split
  · split <;> rfl
  · split <;> rfl
@[simp] theorem holdRun_frames (h : Bool) : (holdRun k h).frames = k.frames := by
  unfold holdRun; split
  · split <;> rfl
  · split <;> rfl
@[simp] theorem holdRun_espStart (h : Bool) : (holdRun k h).espStart = k.espStart := by
  unfold holdRun; split
  · split <;> rfl
  · split <;> rfl
@[simp] theorem holdRun_saves (h : Bool) : (holdRun k h).saves = k.saves := by
  unfold holdRun; split
  · split <;> rfl
  · split <;> rfl
@[simp] theorem holdRun_cdone (h : Bool) : (holdRun k h).cdone = k.cdone := by
  unfold holdRun; split
  · split <;> rfl
  · split <;> rfl
@[simp] theorem holdRun_cdonePc (h : Bool) : (holdRun k h).cdonePc = k.cdonePc := by
  unfold holdRun; split
  · split <;> rfl
  · split <;> rfl
@[simp] theorem holdRun_handed (h : Bool) : (holdRun k h).handed = k.handed := by
  unfold holdRun; split
  · split <;> rfl
  · split <;> rfl
@[simp] theorem holdRun_stopDue (h : Bool) : (holdRun k h).stopDue = k.stopDue := by
  unfold holdRun; split
  · split <;> rfl
  · split <;> rfl
@[simp] theorem holdRun_budgetDue (h : Bool) : (holdRun k h).budgetDue = k.budgetDue := by
  unfold holdRun; split
  · split <;> rfl
  · split <;> rfl
@[simp] theorem holdRun_budgetHold (h : Bool) : (holdRun k h).budgetHold = k.budgetHold := by
  unfold holdRun; split
  · split <;> rfl
  · split <;> rfl
@[simp] theorem holdRun_lastBeat (h : Bool) : (holdRun k h).lastBeat = k.lastBeat := by
  unfold holdRun; split
  · split <;> rfl
  · split <;> rfl

/-- A CO_ register reads as it was last written, and every other register as before. -/
theorem rdCo_wrCo (a b : Nat) (v : W32) : rdCo (wrCo k a v) b = if b = a then v else rdCo k b := by
  unfold rdCo wrCo
  by_cases h : b = a
  · subst h; simp [tget_tput]
  · simp only [h, if_false]; exact tget_tput_ne _ _ _ _ h
@[simp] theorem rdCo_wrCo_same (a : Nat) (v : W32) : rdCo (wrCo k a v) a = v := by simp [rdCo_wrCo]
@[simp] theorem rdG_wrCo (a : Nat) (v : W32) (i : Nat) : rdG (wrCo k a v) i = rdG k i := rfl
/-- A G register reads as it was last written. -/
theorem gN_setG (i j v : Nat) : gN (setG k i v) j = if j = i then (n32 v).toNat else gN k j := by
  unfold gN rdG setG
  by_cases h : j = i
  · subst h; simp [tget_tput]
  · simp only [h, if_false]; rw [tget_tput_other _ _ _ h]
/-- A refused bundle or Ketch instruction changes no register of the coach. -/
theorem refuseAt_eq (r : Refused) (h : k.long = none) : refuseAt k r =
    raiseExc k { entry := r.entry, code := r.code, scnum := 0, slots := r.slots, info := r.info, detail1 := n32 r.detail1, apc := k.pc, pc := k.pc } := by
  unfold refuseAt stopLong
  rw [h]

/-! ### Landing and draining raise nothing and begin nothing -/

/-- What landing leaves alone: the run state, the pc, what was raised, a long operation, the mode, an access under way. -/
def SameControl (k l : Coach) : Prop :=
  l.run = k.run ∧ l.pc = k.pc ∧ l.exc = k.exc ∧ l.long = k.long ∧ l.ketch = k.ketch ∧ l.access = k.access ∧ l.after = k.after ∧ l.seq = k.seq
variable {k}
theorem SameControl.refl (k : Coach) : SameControl k k := ⟨rfl, rfl, rfl, rfl, rfl, rfl, rfl, rfl⟩
theorem SameControl.trans {l m : Coach} (h : SameControl k l) (g : SameControl l m) : SameControl k m := by
  obtain ⟨a1, a2, a3, a4, a5, a6, a7, a8⟩ := h
  obtain ⟨b1, b2, b3, b4, b5, b6, b7, b8⟩ := g
  exact ⟨b1.trans a1, b2.trans a2, b3.trans a3, b4.trans a4, b5.trans a5, b6.trans a6, b7.trans a7, b8.trans a8⟩
theorem SameControl.foldl {α : Type} (f : Coach → α → Coach) (h : ∀ k a, SameControl k (f k a)) (l : List α) (k : Coach) :
    SameControl k (l.foldl f k) := by
  induction l generalizing k with
  | nil => exact .refl k
  | cons a r ih => exact (h k a).trans (ih (f k a))
theorem SameControl.precise {l : Coach} (h : SameControl k l) (q : Option Precise) : SameControl k { l with precise := q } := h
theorem SameControl.pend {l : Coach} (h : SameControl k l) (q : List Pend) : SameControl k { l with pend := q } := h
theorem SameControl.coPend {l : Coach} (h : SameControl k l) (q : List CoStore) : SameControl k { l with coPend := q } := h
theorem sameControl_wrCo (off : Nat) (v : W32) : SameControl k (wrCo k off v) := ⟨rfl, rfl, rfl, rfl, rfl, rfl, rfl, rfl⟩
theorem sameControl_setCoF (off lo w v : Nat) : SameControl k (setCoF k off lo w v) := ⟨rfl, rfl, rfl, rfl, rfl, rfl, rfl, rfl⟩
theorem sameControl_passTime (n st : Nat) : SameControl k (passTime k n st) :=
  ⟨passTime_run .., passTime_pc .., passTime_exc .., passTime_long .., passTime_ketch .., passTime_access .., passTime_after .., passTime_seq ..⟩
theorem sameControl_holdRun (h : Bool) : SameControl k (holdRun k h) :=
  ⟨holdRun_run .., holdRun_pc .., holdRun_exc .., holdRun_long .., holdRun_ketch .., holdRun_access .., holdRun_after .., holdRun_seq ..⟩
theorem sameControl_coWrite (c : Nat) (h : Option Nat) (off : Nat) (v : W32) : SameControl k (coWrite c h k off v) := by
  unfold coWrite
  split
  · exact .refl _
  · split
    · exact sameControl_wrCo _ _
    · split
      · exact ⟨rfl, rfl, rfl, rfl, rfl, rfl, rfl, rfl⟩
      · have h : ∀ (b : Bool) (x : W32), SameControl k (if b then setCoF (wrCo k off x) 0x002 12 1 1 else wrCo k off x) := by
          intro b x
          cases b
          · exact sameControl_wrCo _ _
          · exact (sameControl_wrCo _ _).trans (sameControl_setCoF _ _ _ _)
        exact h _ _
theorem sameControl_landOne (p : Pend) : SameControl k (landOne k p) := by
  unfold landOne; cases p.file <;> exact ⟨rfl, rfl, rfl, rfl, rfl, rfl, rfl, rfl⟩
theorem sameControl_landFlags (p : Pend) : SameControl k (landFlags k p) := by
  unfold landFlags; dsimp only
  have h : ∀ a b d, SameControl k (wrCo (wrCo (wrCo k 0x102 a) 0x200 b) 0x280 d) := fun a b d =>
    ((sameControl_wrCo _ _).trans (sameControl_wrCo _ _)).trans (sameControl_wrCo _ _)
  split
  · exact (h _ _ _).precise _
  · exact h _ _ _
theorem sameControl_landImprecise (ps : List Pend) : SameControl k (landImprecise k ps) := by
  unfold landImprecise; dsimp only; split
  · exact .refl _
  · split
    · exact sameControl_wrCo _ _
    · exact (sameControl_setCoF _ _ _ _).trans ((sameControl_wrCo _ _).trans (sameControl_wrCo _ _))
theorem sameControl_landGroup (ps : List Pend) : SameControl k (landGroup k ps) := by
  unfold landGroup; dsimp only
  have h : ∀ l, SameControl k (landImprecise (l.foldl landFlags (l.foldl landOne k)) l) := fun l =>
    ((SameControl.foldl _ (fun _ _ => sameControl_landOne _) l k).trans
      (SameControl.foldl _ (fun _ _ => sameControl_landFlags _) l _)).trans (sameControl_landImprecise _)
  split
  · exact h _
  · split
    · exact (h _).precise _
    · exact (h _).trans (sameControl_setCoF _ _ _ _)
theorem sameControl_landAt (c : Nat) (h : Option Nat) (t : Nat) : SameControl k (landAt c h k t) := by
  unfold landAt; dsimp only
  have g : ∀ l : List CoStore, SameControl k (l.foldl (fun k e => coWrite c h k e.off e.val) { k with coPend := k.coPend.filter (fun e => e.due ≠ t) }) := fun l =>
    ((SameControl.refl k).coPend _).trans (SameControl.foldl _ (fun _ _ => sameControl_coWrite _ _ _ _) l _)
  split
  · exact (g _).pend _
  · exact ((g _).pend _).trans (sameControl_landGroup _)
theorem sameControl_landUpto (c : Nat) (h : Option Nat) (n t : Nat) (k : Coach) : SameControl k (landUpto c h n k t) := by
  induction n generalizing k with
  | zero => exact .refl k
  | succ n ih =>
    unfold landUpto
    split
    · split
      · exact (sameControl_landAt _ _ _).trans (ih _)
      · exact .refl k
    · exact .refl k
theorem sameControl_perfAdd (off n : Nat) : SameControl k (perfAdd k off n) := sameControl_wrCo _ _
theorem sameControl_predict (a next : Nat) (o : Option Op) : SameControl k (predict k a next o).1 := by
  unfold predict
  split
  · split <;> exact .refl k
  all_goals exact .refl k
theorem SameControl.wrong {l : Coach} (h : SameControl k l) (q : Option Bubbles) : SameControl k { l with wrong := q } := h
/-- A bubble cycle lands what is due and decodes; it changes nothing of the control. -/
theorem sameControl_bubbleStep (s : State) (c : Nat) : SameControl k (bubbleStep s c k) := by
  unfold bubbleStep
  split
  · exact .refl k
  · split
    · exact (SameControl.refl k).wrong _
    · rename_i w _ _
      have h : SameControl k (perfAdd (landUpto c (holdOf s c) (k.pend.length + k.coPend.length) k (Nat.min w.cyc k.cyc)) 0x60A 1) :=
        (sameControl_landUpto _ _ _ _ _).trans (sameControl_perfAdd _ _)
      dsimp only
      split
      · exact h.wrong _
      · split
        · exact h.wrong _
        · have g := (h.trans (sameControl_perfAdd 0x602 1)).trans (sameControl_perfAdd 0x604 1)
          split
          · exact g.wrong _
          · exact (g.trans (sameControl_predict _ _ _)).wrong _
theorem sameControl_bubblesAll (s : State) (c : Nat) : SameControl k (bubblesAll s c k) :=
  SameControl.foldl _ (fun _ _ => sameControl_bubbleStep s c) _ _
theorem sameControl_landNow (s : State) (c : Nat) : SameControl k (landNow s c k) :=
  (sameControl_bubblesAll s c).trans (sameControl_landUpto _ _ _ _ _)
/-- A drain changes neither the pc nor what is raised or under way. -/
theorem sameControl_drain (s : State) (c : Nat) : SameControl k (drain s c k) := by
  unfold drain; exact (sameControl_passTime _ _).trans (sameControl_landNow _ _)

end Sys2Proof.Machine
end

