-- ==== Sys2Proof/Laws/Legal.lean ====
section
/-! SUPPORT. How a legal state is passed on: through local definitions, through folds, through a command that exists. -/
namespace Sys2Proof.Machine

/-- A legal state of variant `v` whose queue of waiting commands is `q`: what every operation of the machine keeps. -/
structure Kept (v : Config.Variant) (q : List Instr) (s : State) : Prop where
  legal : Legal s
  variant : s.variant = v
  pending : s.pending = q

/-- What `Kept` says of the parts of a state. -/
def KeptParts (v : Config.Variant) (q : List Instr) (variant : Config.Variant) (pending : List Instr) (dev held queue sessions spi bbIntake errIntake : Nat)
    (data : Table Word) (check : Table Byte) (parity : Table (BitVec 256)) (pcheck : Table W32) (regs perMaster : Table W32) (coaches : Table Coach) : Prop :=
  variant = v ∧ pending = q ∧ dev ≤ 7 ∧ held ≤ 7 ∧ queue ≤ 32 ∧ sessions ≤ 32 ∧ spi ≤ 4 ∧ bbIntake ≤ 32 ∧ errIntake ≤ 32 ∧
    Memory.wfOf data check parity pcheck = true ∧ Regs.wf variant regs perMaster coaches = true

theorem regsWf_iff {v : Config.Variant} {r p : Table W32} {c : Table Coach} :
    Regs.wf v r p c = true ↔ twfBy (sysReset v) r = true ∧ twf 0 p = true ∧ twf Coach.reset c = true := by
  unfold Regs.wf
  simp only [Bool.and_eq_true, and_assoc]
theorem wfOf_iff {d : Table Word} {c : Table Byte} {p : Table (BitVec 256)} {q : Table W32} :
    Memory.wfOf d c p q = true ↔ twf 0 d = true ∧ twf 0 c = true ∧ twf 0 p = true ∧ twf 0 q = true := by
  unfold Memory.wfOf
  simp only [Bool.and_eq_true, and_assoc]

section
variable {v : Config.Variant} {q : List Instr} {s : State}
/-- A state written out field by field. -/
theorem legal_mk {variant : Config.Variant} {dev held now dtime : Nat} {answer : W32} {pending : List Instr} {regs perMaster : Table W32}
    {coaches : Table Coach} {carts : Carts} {mem : Mem} {intc : Intc} {timers : Timers} {media : Media} {net : Net} {fpp : Fpp} {bb : Bb}
    {pwr : Pwr} {serviceEn : Bool}
    (h : KeptParts v q variant pending dev held fpp.queue.length fpp.sessions.length fpp.spi.length bb.intake.length mem.intake.length mem.data mem.check
      mem.parity mem.pcheck regs perMaster coaches) :
    Kept v q (State.mk variant dev held now dtime answer pending regs perMaster coaches carts mem intc timers media net fpp bb pwr serviceEn) :=
  ⟨⟨h.2.2.1, h.2.2.2.1, h.2.2.2.2.1, h.2.2.2.2.2.1, h.2.2.2.2.2.2.1, h.2.2.2.2.2.2.2.1, h.2.2.2.2.2.2.2.2.1, h.2.2.2.2.2.2.2.2.2.1,
    h.2.2.2.2.2.2.2.2.2.2⟩, h.1, h.2.1⟩
/-- The parts of a state that is kept. -/
theorem legal_parts (h : Kept v q s) :
    KeptParts v q s.variant s.pending s.dev s.held s.fpp.queue.length s.fpp.sessions.length s.fpp.spi.length s.bb.intake.length s.mem.intake.length
      s.mem.data s.mem.check s.mem.parity s.mem.pcheck s.regs s.perMaster s.coaches :=
  ⟨h.2, h.3, h.1.1, h.1.2, h.1.3, h.1.4, h.1.5, h.1.6, h.1.7, h.1.8, h.1.9⟩
/-- The parts one by one. -/
theorem legal_each {variant : Config.Variant} {pending : List Instr} {dev held queue sessions spi bbIntake errIntake : Nat} {data : Table Word}
    {check : Table Byte} {parity : Table (BitVec 256)} {pcheck : Table W32} {regs perMaster : Table W32} {coaches : Table Coach}
    (hv : variant = v) (hq : pending = q) (h1 : dev ≤ 7) (h2 : held ≤ 7) (h3 : queue ≤ 32) (h4 : sessions ≤ 32) (h5 : spi ≤ 4) (h6 : bbIntake ≤ 32)
    (h7 : errIntake ≤ 32) (h8 : twf 0 data = true) (h9 : twf 0 check = true) (h10 : twf 0 parity = true) (h11 : twf 0 pcheck = true)
    (h12 : twfBy (sysReset variant) regs = true) (h13 : twf 0 perMaster = true) (h14 : twf Coach.reset coaches = true) :
    KeptParts v q variant pending dev held queue sessions spi bbIntake errIntake data check parity pcheck regs perMaster coaches :=
  ⟨hv, hq, h1, h2, h3, h4, h5, h6, h7, wfOf_iff.mpr ⟨h8, h9, h10, h11⟩, regsWf_iff.mpr ⟨h12, h13, h14⟩⟩
theorem legal_variant (h : Kept v q s) : s.variant = v := h.variant
theorem legal_pending (h : Kept v q s) : s.pending = q := h.pending
theorem legal_dev (h : Kept v q s) : s.dev ≤ 7 := h.legal.dev
theorem legal_held (h : Kept v q s) : s.held ≤ 7 := h.legal.held
theorem legal_queue (h : Kept v q s) : s.fpp.queue.length ≤ 32 := h.legal.queue
theorem legal_sessions (h : Kept v q s) : s.fpp.sessions.length ≤ 32 := h.legal.sessions
theorem legal_spi (h : Kept v q s) : s.fpp.spi.length ≤ 4 := h.legal.spi
theorem legal_bb (h : Kept v q s) : s.bb.intake.length ≤ 32 := h.legal.bbIntake
theorem legal_err (h : Kept v q s) : s.mem.intake.length ≤ 32 := h.legal.errIntake
theorem legal_data (h : Kept v q s) : twf 0 s.mem.data = true := (wfOf_iff.mp h.legal.memory).1
theorem legal_check (h : Kept v q s) : twf 0 s.mem.check = true := (wfOf_iff.mp h.legal.memory).2.1
theorem legal_parity (h : Kept v q s) : twf 0 s.mem.parity = true := (wfOf_iff.mp h.legal.memory).2.2.1
theorem legal_pcheck (h : Kept v q s) : twf 0 s.mem.pcheck = true := (wfOf_iff.mp h.legal.memory).2.2.2
theorem legal_regs (h : Kept v q s) : twfBy (sysReset s.variant) s.regs = true := (regsWf_iff.mp h.legal.registers).1
theorem legal_perMaster (h : Kept v q s) : twf 0 s.perMaster = true := (regsWf_iff.mp h.legal.registers).2.1
theorem legal_coaches (h : Kept v q s) : twf Coach.reset s.coaches = true := (regsWf_iff.mp h.legal.registers).2.2
end


variable {v : Config.Variant} {q : List Instr}

theorem legal_foldl {α : Type} {l : List α} {f : State → α → State} {s : State} (hs : Kept v q s) (hf : ∀ t a, Kept v q t → Kept v q (f t a)) :
    Kept v q (l.foldl f s) := by
  induction l generalizing s with
  | nil => exact hs
  | cons a r ih => exact ih (hf s a hs)

theorem legal_act {ok : Bool} {u : State} (h : Kept v q u) : ∀ t, act ok u = .next t → Kept v q t := by
  intro t ht
  unfold act at ht
  split at ht
  · cases ht; exact h
  · cases ht
theorem legal_ite {c : Prop} [Decidable c] {a b : State} (ha : c → Kept v q a) (hb : ¬c → Kept v q b) : Kept v q (if c then a else b) := by
  split
  · exact ha ‹_›
  · exact hb ‹_›

theorem le_of_len {α : Type} {l : List α} {x : α} {n : Nat} (h : l.length < n) : (l ++ [x]).length ≤ n := by simp; omega
theorem le_of_map {α : Type} {l : List α} {f : α → α} {n : Nat} (h : l.length ≤ n) : (l.map f).length ≤ n := by simpa using h
theorem le_of_filter {α : Type} {l : List α} {f : α → Bool} {n : Nat} (h : l.length ≤ n) : (l.filter f).length ≤ n :=
  Nat.le_trans (List.length_filter_le f l) h
theorem le_of_drop {α : Type} {l : List α} {k n : Nat} (h : l.length ≤ n) : (l.drop k).length ≤ n := by simp; omega
theorem le_of_take {α : Type} {l : List α} {k n : Nat} (h : k ≤ n) : (l.take k).length ≤ n := by simp; omega
theorem le_of_tail {α : Type} {l r : List α} {x : α} {n : Nat} (e : l = x :: r) (h : l.length ≤ n) : r.length ≤ n := by
  subst e; simp at h; omega

theorem le_of_turn {α : Type} {l : List α} {x : α} {n : Nat} (h : l.length ≤ n + 1) : (l.drop 1 ++ [x]).length ≤ n + 1 := by
  simp; omega
theorem lt_of_tail {α : Type} {l r : List α} {x : α} {n : Nat} (e : l = x :: r) (h : l.length ≤ n) : r.length < n := by
  subst e; simp at h; omega

/-! ## Results that hold a state beside something else -/

def Kept1 (v : Config.Variant) (q : List Instr) {α : Type} (p : State × α) : Prop := Kept v q p.1
theorem legal1_out {α : Type} {p : State × α} (h : Kept1 v q p) : Kept v q p.1 := h
theorem legal1_mk {α : Type} {a : State} {b : α} (h : Kept v q a) : Kept1 v q (a, b) := h
theorem legal1_pair {α : Type} {a : State} {b : α} (h : Kept1 v q (a, b)) : Kept v q a := h
theorem legal1_ite {α : Type} {c : Prop} [Decidable c] {a b : State × α} (ha : c → Kept1 v q a) (hb : ¬c → Kept1 v q b) : Kept1 v q (if c then a else b) := by
  split
  · exact ha ‹_›
  · exact hb ‹_›
theorem legal1_foldl {α γ : Type} {l : List γ} {f : State × α → γ → State × α} {s : State × α} (hs : Kept1 v q s) (hf : ∀ t a, Kept1 v q t → Kept1 v q (f t a)) :
    Kept1 v q (l.foldl f s) := by
  induction l generalizing s with
  | nil => exact hs
  | cons a r ih => exact ih (hf s a hs)
theorem legal1_eq {α : Type} {p r : State × α} (e : p = r) (h : Kept1 v q p) : Kept1 v q r := e ▸ h
def Kept2 (v : Config.Variant) (q : List Instr) {α : Type} (p : α × State) : Prop := Kept v q p.2
theorem legal2_out {α : Type} {p : α × State} (h : Kept2 v q p) : Kept v q p.2 := h
theorem legal2_mk {α : Type} {a : State} {b : α} (h : Kept v q a) : Kept2 v q (b, a) := h
theorem legal2_pair {α : Type} {a : State} {b : α} (h : Kept2 v q (b, a)) : Kept v q a := h
theorem legal2_ite {α : Type} {c : Prop} [Decidable c] {a b : α × State} (ha : c → Kept2 v q a) (hb : ¬c → Kept2 v q b) : Kept2 v q (if c then a else b) := by
  split
  · exact ha ‹_›
  · exact hb ‹_›
theorem legal2_foldl {α γ : Type} {l : List γ} {f : α × State → γ → α × State} {s : α × State} (hs : Kept2 v q s) (hf : ∀ t a, Kept2 v q t → Kept2 v q (f t a)) :
    Kept2 v q (l.foldl f s) := by
  induction l generalizing s with
  | nil => exact hs
  | cons a r ih => exact ih (hf s a hs)
theorem legal2_eq {α : Type} {p r : α × State} (e : p = r) (h : Kept2 v q p) : Kept2 v q r := e ▸ h
def KeptO (v : Config.Variant) (q : List Instr) (p : BankOut) : Prop := Kept v q p.st
theorem legalO_out {p : BankOut} (h : KeptO v q p) : Kept v q p.st := h
theorem legalO_ite {c : Prop} [Decidable c] {a b : BankOut} (ha : c → KeptO v q a) (hb : ¬c → KeptO v q b) : KeptO v q (if c then a else b) := by
  split
  · exact ha ‹_›
  · exact hb ‹_›
def KeptG (v : Config.Variant) (q : List Instr) (p : GateOut) : Prop := Kept v q p.st
theorem legalG_out {p : GateOut} (h : KeptG v q p) : Kept v q p.st := h
theorem legalG_mk {st : State} {bad : Option Refused} {k : Coach} {next : W32} {stall : Nat} (h : Kept v q st) :
    KeptG v q { st := st, bad := bad, k := k, next := next, stall := stall } := h
theorem legalG_ite {c : Prop} [Decidable c] {a b : GateOut} (ha : c → KeptG v q a) (hb : ¬c → KeptG v q b) : KeptG v q (if c then a else b) := by
  split
  · exact ha ‹_›
  · exact hb ‹_›
/-- An answer that may be no state. -/
def KeptS (v : Config.Variant) (q : List Instr) (o : Option State) : Prop := ∀ t, o = some t → Kept v q t
theorem legalS_none : KeptS v q none := by intro t h; cases h
theorem legalS_mk {s : State} (h : Kept v q s) : KeptS v q (some s) := by intro t e; cases e; exact h
theorem legalS_ite {c : Prop} [Decidable c] {a b : Option State} (ha : c → KeptS v q a) (hb : ¬c → KeptS v q b) : KeptS v q (if c then a else b) := by
  split
  · exact ha ‹_›
  · exact hb ‹_›
theorem legalS_foldl {α : Type} {l : List α} {f : Option State → α → Option State} {s : Option State} (hs : KeptS v q s)
    (hf : ∀ t a, KeptS v q t → KeptS v q (f t a)) : KeptS v q (l.foldl f s) := by
  induction l generalizing s with
  | nil => exact hs
  | cons a r ih => exact ih (hf s a hs)
theorem legalS_bind {o : Option State} {f : State → Option State} (ho : KeptS v q o) (hf : ∀ t, Kept v q t → KeptS v q (f t)) : KeptS v q (o.bind f) := by
  intro t e
  cases o with
  | none => cases e
  | some a => exact hf a (ho a rfl) t e
theorem legalS_eq {o : Option State} {t : State} (e : o = some t) (h : KeptS v q o) : Kept v q t := h t e
def KeptT (v : Config.Variant) (q : List Instr) {α : Type} (o : Option (State × α)) : Prop := ∀ t, o = some t → Kept v q t.1
theorem legalT_none {α : Type} : KeptT v q (none : Option (State × α)) := by intro t h; cases h
theorem legalT_some {α : Type} {p : State × α} (h : Kept1 v q p) : KeptT v q (some p) := by intro t e; cases e; exact h
theorem legalT_ite {α : Type} {c : Prop} [Decidable c] {a b : Option (State × α)} (ha : c → KeptT v q a) (hb : ¬c → KeptT v q b) : KeptT v q (if c then a else b) := by
  split
  · exact ha ‹_›
  · exact hb ‹_›
theorem legalT_eq {α : Type} {o : Option (State × α)} {t : State × α} (e : o = some t) (h : KeptT v q o) : Kept1 v q t := h t e
theorem legalO_mk {st : State} {code data wait : Nat} (h : Kept v q st) : KeptO v q { st := st, code := code, data := data, wait := wait } := h
/-- A legal state is kept as it is. -/
theorem legal_here (s : State) (h : Legal s) : Kept s.variant s.pending s := ⟨h, rfl, rfl⟩
/-- The state that the command at the front of the queue acts on. -/
theorem legal_rest (s : State) (rest : List Instr) (h : Legal s) : Kept s.variant rest { s with pending := rest } :=
  legal_mk (legal_each rfl rfl h.dev h.held h.queue h.sessions h.spi h.bbIntake h.errIntake (legal_data (legal_here s h)) (legal_check (legal_here s h))
    (legal_parity (legal_here s h)) (legal_pcheck (legal_here s h)) (legal_regs (legal_here s h)) (legal_perMaster (legal_here s h))
    (legal_coaches (legal_here s h)))

end Sys2Proof.Machine
end

