-- ==== Sys2Proof/Laws/LegalOps.lean ====
section
/-! SUPPORT. What every operation of Machine/Ops.lean does to a legal state: it leaves one. -/
namespace Sys2Proof.Machine
open Sys2Proof.Config
variable {vr : Config.Variant} {qu : List Instr}

theorem setCo_legal {s : State} {c : ℕ} {k : Coach} (hs : Kept vr qu s) : Kept vr qu (setCo s c k) := by
  unfold setCo
  refine legal_mk (legal_each ?_ ?_ ?_ ?_ ?_ ?_ ?_ ?_ ?_ ?_ ?_ ?_ ?_ ?_ ?_ ?_)
  · with_reducible refine @legal_variant vr qu _ ?_
    with_reducible assumption
  · with_reducible refine @legal_pending vr qu _ ?_
    with_reducible assumption
  · with_reducible refine @legal_dev vr qu _ ?_
    with_reducible assumption
  · with_reducible refine @legal_held vr qu _ ?_
    with_reducible assumption
  · with_reducible refine @legal_queue vr qu _ ?_
    with_reducible assumption
  · with_reducible refine @legal_sessions vr qu _ ?_
    with_reducible assumption
  · with_reducible refine @legal_spi vr qu _ ?_
    with_reducible assumption
  · with_reducible refine @legal_bb vr qu _ ?_
    with_reducible assumption
  · with_reducible refine @legal_err vr qu _ ?_
    with_reducible assumption
  · with_reducible refine @legal_data vr qu _ ?_
    with_reducible assumption
  · with_reducible refine @legal_check vr qu _ ?_
    with_reducible assumption
  · with_reducible refine @legal_parity vr qu _ ?_
    with_reducible assumption
  · with_reducible refine @legal_pcheck vr qu _ ?_
    with_reducible assumption
  · with_reducible refine @legal_regs vr qu _ ?_
    with_reducible assumption
  · with_reducible refine @legal_perMaster vr qu _ ?_
    with_reducible assumption
  · with_reducible refine twf_tput _ _ _ _ ?_
    with_reducible refine @legal_coaches vr qu _ ?_
    with_reducible assumption

theorem setReg_legal {s : State} {a : ℕ} {v : W32} (hs : Kept vr qu s) : Kept vr qu (setReg s a v) := by
  unfold setReg
  refine legal_mk (legal_each ?_ ?_ ?_ ?_ ?_ ?_ ?_ ?_ ?_ ?_ ?_ ?_ ?_ ?_ ?_ ?_)
  · with_reducible refine @legal_variant vr qu _ ?_
    with_reducible assumption
  · with_reducible refine @legal_pending vr qu _ ?_
    with_reducible assumption
  · with_reducible refine @legal_dev vr qu _ ?_
    with_reducible assumption
  · with_reducible refine @legal_held vr qu _ ?_
    with_reducible assumption
  · with_reducible refine @legal_queue vr qu _ ?_
    with_reducible assumption
  · with_reducible refine @legal_sessions vr qu _ ?_
    with_reducible assumption
  · with_reducible refine @legal_spi vr qu _ ?_
    with_reducible assumption
  · with_reducible refine @legal_bb vr qu _ ?_
    with_reducible assumption
  · with_reducible refine @legal_err vr qu _ ?_
    with_reducible assumption
  · with_reducible refine @legal_data vr qu _ ?_
    with_reducible assumption
  · with_reducible refine @legal_check vr qu _ ?_
    with_reducible assumption
  · with_reducible refine @legal_parity vr qu _ ?_
    with_reducible assumption
  · with_reducible refine @legal_pcheck vr qu _ ?_
    with_reducible assumption
  · with_reducible refine twfBy_tput _ _ _ _ ?_
    with_reducible refine @legal_regs vr qu _ ?_
    with_reducible assumption
  · with_reducible refine @legal_perMaster vr qu _ ?_
    with_reducible assumption
  · with_reducible refine @legal_coaches vr qu _ ?_
    with_reducible assumption

theorem setRegF_legal {s : State} {a : ℕ} {lo : ℕ} {w : ℕ} {v : ℕ} (hs : Kept vr qu s) : Kept vr qu (setRegF s a lo w v) := by
  unfold setRegF
  with_reducible apply setReg_legal
  with_reducible assumption

theorem setRegB_legal {s : State} {a : ℕ} {i : ℕ} {b : Bool} (hs : Kept vr qu s) : Kept vr qu (setRegB s a i b) := by
  unfold setRegB
  with_reducible apply setRegF_legal
  with_reducible assumption

theorem setPerM_legal {s : State} {a : ℕ} {m : ℕ} {v : W32} (hs : Kept vr qu s) : Kept vr qu (setPerM s a m v) := by
  unfold setPerM
  refine legal_mk (legal_each ?_ ?_ ?_ ?_ ?_ ?_ ?_ ?_ ?_ ?_ ?_ ?_ ?_ ?_ ?_ ?_)
  · with_reducible refine @legal_variant vr qu _ ?_
    with_reducible assumption
  · with_reducible refine @legal_pending vr qu _ ?_
    with_reducible assumption
  · with_reducible refine @legal_dev vr qu _ ?_
    with_reducible assumption
  · with_reducible refine @legal_held vr qu _ ?_
    with_reducible assumption
  · with_reducible refine @legal_queue vr qu _ ?_
    with_reducible assumption
  · with_reducible refine @legal_sessions vr qu _ ?_
    with_reducible assumption
  · with_reducible refine @legal_spi vr qu _ ?_
    with_reducible assumption
  · with_reducible refine @legal_bb vr qu _ ?_
    with_reducible assumption
  · with_reducible refine @legal_err vr qu _ ?_
    with_reducible assumption
  · with_reducible refine @legal_data vr qu _ ?_
    with_reducible assumption
  · with_reducible refine @legal_check vr qu _ ?_
    with_reducible assumption
  · with_reducible refine @legal_parity vr qu _ ?_
    with_reducible assumption
  · with_reducible refine @legal_pcheck vr qu _ ?_
    with_reducible assumption
  · with_reducible refine @legal_regs vr qu _ ?_
    with_reducible assumption
  · with_reducible refine twf_tput _ _ _ _ ?_
    with_reducible refine @legal_perMaster vr qu _ ?_
    with_reducible assumption
  · with_reducible refine @legal_coaches vr qu _ ?_
    with_reducible assumption

theorem setLogi_legal {s : State} {n : ℕ} {l : Logical} (hs : Kept vr qu s) : Kept vr qu (setLogi s n l) := by
  unfold setLogi
  extract_lets +onlyGivenNames t1
  with_reducible refine legal_mk (legal_parts ?_)
  with_reducible assumption

theorem setSlotSt_legal {s : State} {c : ℕ} {v : ℕ} (hs : Kept vr qu s) : Kept vr qu (setSlotSt s c v) := by
  unfold setSlotSt
  extract_lets +onlyGivenNames t1
  with_reducible refine legal_mk (legal_parts ?_)
  with_reducible assumption

theorem bbOffer_legal {s : State} {e : BbEntry} (hs : Kept vr qu s) : Kept vr qu (bbOffer s e) := by
  unfold bbOffer
  extract_lets +onlyGivenNames t1
  extract_lets +onlyGivenNames t2
  with_reducible refine legal_ite (fun c3 => ?_) (fun c3 => ?_)
  · with_reducible refine legal_mk (legal_parts ?_)
    with_reducible assumption
  · with_reducible refine legal_ite (fun c4 => ?_) (fun c4 => ?_)
    · refine legal_mk (legal_each ?_ ?_ ?_ ?_ ?_ ?_ ?_ ?_ ?_ ?_ ?_ ?_ ?_ ?_ ?_ ?_)
      · with_reducible refine @legal_variant vr qu _ ?_
        with_reducible assumption
      · with_reducible refine @legal_pending vr qu _ ?_
        with_reducible assumption
      · with_reducible refine @legal_dev vr qu _ ?_
        with_reducible assumption
      · with_reducible refine @legal_held vr qu _ ?_
        with_reducible assumption
      · with_reducible refine @legal_queue vr qu _ ?_
        with_reducible assumption
      · with_reducible refine @legal_sessions vr qu _ ?_
        with_reducible assumption
      · with_reducible refine @legal_spi vr qu _ ?_
        with_reducible assumption
      · (simp at *; omega)
      · with_reducible refine @legal_err vr qu _ ?_
        with_reducible assumption
      · with_reducible refine @legal_data vr qu _ ?_
        with_reducible assumption
      · with_reducible refine @legal_check vr qu _ ?_
        with_reducible assumption
      · with_reducible refine @legal_parity vr qu _ ?_
        with_reducible assumption
      · with_reducible refine @legal_pcheck vr qu _ ?_
        with_reducible assumption
      · with_reducible refine @legal_regs vr qu _ ?_
        with_reducible assumption
      · with_reducible refine @legal_perMaster vr qu _ ?_
        with_reducible assumption
      · with_reducible refine @legal_coaches vr qu _ ?_
        with_reducible assumption
    · with_reducible apply setRegF_legal
      with_reducible assumption

theorem bbL0_legal {s : State} {code : ℕ} {p0 : W32} {p1 : W32} {p2 : W32} {p3 : W32} (hs : Kept vr qu s) : Kept vr qu (bbL0 s code p0 p1 p2 p3) := by
  unfold bbL0
  with_reducible apply bbOffer_legal
  with_reducible assumption

theorem bbHw_legal {s : State} {si : ℕ} {code : ℕ} {p0 : W32} {p1 : W32} {p2 : W32} {p3 : W32} (hs : Kept vr qu s) : Kept vr qu (bbHw s si code p0 p1 p2 p3) := by
  unfold bbHw
  with_reducible apply bbOffer_legal
  with_reducible assumption

theorem setSrc_legal {s : State} {n : ℕ} {st : ℕ} {cnt : ℕ} (hs : Kept vr qu s) : Kept vr qu (setSrc s n st cnt) := by
  unfold setSrc
  with_reducible apply setReg_legal
  with_reducible assumption

theorem srcEvent_legal {s : State} {n : ℕ} (hs : Kept vr qu s) : Kept vr qu (srcEvent s n) := by
  unfold srcEvent
  extract_lets +onlyGivenNames t1
  extract_lets +onlyGivenNames t2
  extract_lets +onlyGivenNames t3
  refine (fun (ht3 : Kept vr qu t3) => ?_) ?_
  · clear_value t3
    extract_lets +onlyGivenNames t4
    extract_lets +onlyGivenNames t5
    with_reducible refine legal_ite (fun c6 => ?_) (fun c6 => ?_)
    · with_reducible assumption
    · split
      · with_reducible refine legal_ite (fun c7 => ?_) (fun c7 => ?_)
        · with_reducible apply setSrc_legal
          with_reducible assumption
        · with_reducible refine legal_mk (legal_parts ?_)
          with_reducible assumption
      · with_reducible apply setSrc_legal
        with_reducible assumption
      · with_reducible apply setSrc_legal
        with_reducible assumption
  · unfold t3
    with_reducible apply setSrc_legal
    with_reducible assumption

theorem setLevel_legal {s : State} {n : ℕ} {b : Bool} (hs : Kept vr qu s) : Kept vr qu (setLevel s n b) := by
  unfold setLevel
  extract_lets +onlyGivenNames t1
  extract_lets +onlyGivenNames t2
  refine (fun (ht2 : Kept vr qu t2) => ?_) ?_
  · clear_value t2
    extract_lets +onlyGivenNames t3
    with_reducible refine legal_ite (fun c4 => ?_) (fun c4 => ?_)
    · with_reducible assumption
    · with_reducible refine legal_ite (fun c5 => ?_) (fun c5 => ?_)
      · with_reducible apply srcEvent_legal
        with_reducible assumption
      · with_reducible assumption
  · unfold t2
    with_reducible refine legal_mk (legal_parts ?_)
    with_reducible assumption

theorem pulse_legal {s : State} {n : ℕ} (hs : Kept vr qu s) : Kept vr qu (pulse s n) := by
  unfold pulse
  with_reducible apply setLevel_legal
  with_reducible apply setLevel_legal
  with_reducible assumption

theorem srcRearm_legal {s : State} {n : ℕ} (hs : Kept vr qu s) : Kept vr qu (srcRearm s n) := by
  unfold srcRearm
  extract_lets +onlyGivenNames t1
  with_reducible refine legal_ite (fun c2 => ?_) (fun c2 => ?_)
  · with_reducible apply srcEvent_legal
    with_reducible assumption
  · with_reducible assumption

theorem errQueue_legal {s : State} {r : ErrRec} (hs : Kept vr qu s) : Kept vr qu (errQueue s r) := by
  unfold errQueue
  extract_lets +onlyGivenNames t1
  with_reducible refine legal_ite (fun c2 => ?_) (fun c2 => ?_)
  · refine legal_mk (legal_each ?_ ?_ ?_ ?_ ?_ ?_ ?_ ?_ ?_ ?_ ?_ ?_ ?_ ?_ ?_ ?_)
    · with_reducible refine @legal_variant vr qu _ ?_
      with_reducible assumption
    · with_reducible refine @legal_pending vr qu _ ?_
      with_reducible assumption
    · with_reducible refine @legal_dev vr qu _ ?_
      with_reducible assumption
    · with_reducible refine @legal_held vr qu _ ?_
      with_reducible assumption
    · with_reducible refine @legal_queue vr qu _ ?_
      with_reducible assumption
    · with_reducible refine @legal_sessions vr qu _ ?_
      with_reducible assumption
    · with_reducible refine @legal_spi vr qu _ ?_
      with_reducible assumption
    · with_reducible refine @legal_bb vr qu _ ?_
      with_reducible assumption
    · (simp at *; omega)
    · with_reducible refine @legal_data vr qu _ ?_
      with_reducible assumption
    · with_reducible refine @legal_check vr qu _ ?_
      with_reducible assumption
    · with_reducible refine @legal_parity vr qu _ ?_
      with_reducible assumption
    · with_reducible refine @legal_pcheck vr qu _ ?_
      with_reducible assumption
    · with_reducible refine @legal_regs vr qu _ ?_
      with_reducible assumption
    · with_reducible refine @legal_perMaster vr qu _ ?_
      with_reducible assumption
    · with_reducible refine @legal_coaches vr qu _ ?_
      with_reducible assumption
  · with_reducible apply setRegF_legal
    with_reducible assumption

theorem errReport_legal {s : State} {cls : ℕ} {kind : ℕ} {inst : ℕ} {master : ℕ} {detail : ℕ} {addr : ℕ} (hs : Kept vr qu s) : Kept vr qu (errReport s cls kind inst master detail addr) := by
  unfold errReport
  extract_lets +onlyGivenNames t1
  extract_lets +onlyGivenNames t2
  refine (fun (ht2 : Kept vr qu t2) => ?_) ?_
  · clear_value t2
    with_reducible apply errQueue_legal
    with_reducible assumption
  · unfold t2
    with_reducible refine legal_mk (legal_parts ?_)
    with_reducible assumption

theorem setPtp_legal {s : State} {d : ℕ} {p : Ptp} (hs : Kept vr qu s) : Kept vr qu (setPtp s d p) := by
  unfold setPtp
  extract_lets +onlyGivenNames t1
  with_reducible refine legal_mk (legal_parts ?_)
  with_reducible assumption

theorem shiftTime_legal {s : State} {i : ℤ} (hs : Kept vr qu s) : Kept vr qu (shiftTime s i) := by
  unfold shiftTime
  extract_lets +onlyGivenNames t1
  refine (fun (ht1 : Kept vr qu t1) => ?_) ?_
  · clear_value t1
    with_reducible refine legal_foldl ?_ (fun u3 y3 hu3 => ?_)
    · with_reducible assumption
    · extract_lets +onlyGivenNames t4
      with_reducible refine legal_ite (fun c5 => ?_) (fun c5 => ?_)
      · with_reducible assumption
      · with_reducible apply setPtp_legal
        with_reducible assumption
  · unfold t1
    with_reducible refine legal_mk (legal_parts ?_)
    with_reducible assumption

theorem tickCycle_legal {s : State} (hs : Kept vr qu s) : Kept vr qu (tickCycle s) := by
  unfold tickCycle
  extract_lets +onlyGivenNames t1
  refine (fun (ht1 : Kept vr qu t1) => ?_) ?_
  · clear_value t1
    with_reducible refine legal_ite (fun c3 => ?_) (fun c3 => ?_)
    · with_reducible assumption
    · split
      · extract_lets +onlyGivenNames t5
        with_reducible refine legal_ite (fun c6 => ?_) (fun c6 => ?_)
        · with_reducible apply shiftTime_legal
          with_reducible assumption
        · with_reducible refine legal_ite (fun c7 => ?_) (fun c7 => ?_)
          · with_reducible apply shiftTime_legal
            with_reducible assumption
          · with_reducible assumption
      · with_reducible assumption
  · unfold t1
    with_reducible refine legal_mk (legal_parts ?_)
    with_reducible assumption

end Sys2Proof.Machine
end

