-- ==== Sys2Proof/Laws/LegalProtect.lean ====
section
/-! SUPPORT. What every operation of Machine/Protect.lean does to a legal state: it leaves one. -/
namespace Sys2Proof.Machine
open Sys2Proof.Config
variable {vr : Config.Variant} {qu : List Instr}

theorem setParity_legal {s : State} {pk : ℕ} {p : ℕ} (hs : Kept vr qu s) : Kept vr qu (setParity s pk p) := by
  unfold setParity
  extract_lets +onlyGivenNames t1
  refine legal_mk (legal_each ?_ ?_ ?_ ?_ ?_ ?_ ?_ ?_ ?_ ?_ ?_ ?_ ?_ ?_ ?_ ?_)
  · with_reducible refine @legal_variant vr qu _ ?_
    with_reducible assumption
  · with_reducible refine @legal_pending vr qu _ ?_
    with_reducible assumption
  · with_reducible refine @legal_dev vr qu _ ?_
    with_reducible assumption
  · with_reducible refine @legal_held vr qu _ ?_
    with_reducible assumption
  · with_reducible refine @legal_queue vr qu _ ?_
    with_reducible assumption
  · with_reducible refine @legal_sessions vr qu _ ?_
    with_reducible assumption
  · with_reducible refine @legal_spi vr qu _ ?_
    with_reducible assumption
  · with_reducible refine @legal_bb vr qu _ ?_
    with_reducible assumption
  · with_reducible refine @legal_err vr qu _ ?_
    with_reducible assumption
  · with_reducible refine @legal_data vr qu _ ?_
    with_reducible assumption
  · with_reducible refine @legal_check vr qu _ ?_
    with_reducible assumption
  · with_reducible refine twf_tput _ _ _ _ ?_
    with_reducible refine @legal_parity vr qu _ ?_
    with_reducible assumption
  · with_reducible refine twf_tput _ _ _ _ ?_
    with_reducible refine @legal_pcheck vr qu _ ?_
    with_reducible assumption
  · with_reducible refine @legal_regs vr qu _ ?_
    with_reducible assumption
  · with_reducible refine @legal_perMaster vr qu _ ?_
    with_reducible assumption
  · with_reducible refine @legal_coaches vr qu _ ?_
    with_reducible assumption

theorem addParity_legal {s : State} {pk : ℕ} {d : ℕ} (hs : Kept vr qu s) : Kept vr qu (addParity s pk d) := by
  unfold addParity
  extract_lets +onlyGivenNames t1
  refine legal_mk (legal_each ?_ ?_ ?_ ?_ ?_ ?_ ?_ ?_ ?_ ?_ ?_ ?_ ?_ ?_ ?_ ?_)
  · with_reducible refine @legal_variant vr qu _ ?_
    with_reducible assumption
  · with_reducible refine @legal_pending vr qu _ ?_
    with_reducible assumption
  · with_reducible refine @legal_dev vr qu _ ?_
    with_reducible assumption
  · with_reducible refine @legal_held vr qu _ ?_
    with_reducible assumption
  · with_reducible refine @legal_queue vr qu _ ?_
    with_reducible assumption
  · with_reducible refine @legal_sessions vr qu _ ?_
    with_reducible assumption
  · with_reducible refine @legal_spi vr qu _ ?_
    with_reducible assumption
  · with_reducible refine @legal_bb vr qu _ ?_
    with_reducible assumption
  · with_reducible refine @legal_err vr qu _ ?_
    with_reducible assumption
  · with_reducible refine @legal_data vr qu _ ?_
    with_reducible assumption
  · with_reducible refine @legal_check vr qu _ ?_
    with_reducible assumption
  · with_reducible refine twf_tput _ _ _ _ ?_
    with_reducible refine @legal_parity vr qu _ ?_
    with_reducible assumption
  · with_reducible refine twf_tput _ _ _ _ ?_
    with_reducible refine @legal_pcheck vr qu _ ?_
    with_reducible assumption
  · with_reducible refine @legal_regs vr qu _ ?_
    with_reducible assumption
  · with_reducible refine @legal_perMaster vr qu _ ?_
    with_reducible assumption
  · with_reducible refine @legal_coaches vr qu _ ?_
    with_reducible assumption

theorem rewriteLine_legal {s : State} {lk : ℕ} {new : ℕ} {poison : Bool} (hs : Kept vr qu s) : Kept vr qu (rewriteLine s lk new poison) := by
  unfold rewriteLine
  extract_lets +onlyGivenNames t1
  extract_lets +onlyGivenNames t2
  extract_lets +onlyGivenNames t3
  extract_lets +onlyGivenNames t4
  refine (fun (ht4 : Kept vr qu t4) => ?_) ?_
  · clear_value t4
    with_reducible refine legal_ite (fun c5 => ?_) (fun c5 => ?_)
    · with_reducible apply setRegB_legal
      with_reducible assumption
    · with_reducible assumption
  · unfold t4
    refine legal_mk (legal_each ?_ ?_ ?_ ?_ ?_ ?_ ?_ ?_ ?_ ?_ ?_ ?_ ?_ ?_ ?_ ?_)
    · with_reducible refine @legal_variant vr qu _ ?_
      with_reducible assumption
    · with_reducible refine @legal_pending vr qu _ ?_
      with_reducible assumption
    · with_reducible refine @legal_dev vr qu _ ?_
      with_reducible assumption
    · with_reducible refine @legal_held vr qu _ ?_
      with_reducible assumption
    · with_reducible refine @legal_queue vr qu _ ?_
      with_reducible assumption
    · with_reducible refine @legal_sessions vr qu _ ?_
      with_reducible assumption
    · with_reducible refine @legal_spi vr qu _ ?_
      with_reducible assumption
    · with_reducible refine @legal_bb vr qu _ ?_
      with_reducible assumption
    · with_reducible refine @legal_err vr qu _ ?_
      with_reducible assumption
    · with_reducible refine twf_tputs _ _ _ _ ?_
      with_reducible refine @legal_data vr qu _ ?_
      with_reducible assumption
    · with_reducible refine twf_tput _ _ _ _ ?_
      with_reducible refine @legal_check vr qu _ ?_
      with_reducible assumption
    · with_reducible refine @legal_parity vr qu _ ?_
      with_reducible assumption
    · with_reducible refine @legal_pcheck vr qu _ ?_
      with_reducible assumption
    · with_reducible refine @legal_regs vr qu _ ?_
      with_reducible assumption
    · with_reducible refine @legal_perMaster vr qu _ ?_
      with_reducible assumption
    · with_reducible refine @legal_coaches vr qu _ ?_
      with_reducible assumption

theorem putLine_legal {s : State} {lk : ℕ} {old : ℕ} {new : ℕ} {poison : Bool} (hs : Kept vr qu s) : Kept vr qu (putLine s lk old new poison) := by
  unfold putLine
  extract_lets +onlyGivenNames t1
  refine (fun (ht1 : Kept vr qu t1) => ?_) ?_
  · clear_value t1
    with_reducible refine legal_ite (fun c2 => ?_) (fun c2 => ?_)
    · with_reducible assumption
    · with_reducible apply addParity_legal
      with_reducible assumption
  · unfold t1
    with_reducible apply rewriteLine_legal
    with_reducible assumption

theorem corrCount_legal {s : State} {ik : ℕ} {lk : ℕ} (hs : Kept vr qu s) : Kept vr qu (corrCount s ik lk) := by
  unfold corrCount
  extract_lets +onlyGivenNames t1
  extract_lets +onlyGivenNames t2
  extract_lets +onlyGivenNames t3
  extract_lets +onlyGivenNames t4
  with_reducible refine legal_ite (fun c5 => ?_) (fun c5 => ?_)
  · with_reducible refine legal_mk (legal_parts ?_)
    with_reducible assumption
  · with_reducible refine legal_ite (fun c6 => ?_) (fun c6 => ?_)
    · with_reducible refine legal_mk (legal_parts ?_)
      with_reducible assumption
    · with_reducible apply setRegB_legal
      with_reducible refine legal_mk (legal_parts ?_)
      with_reducible assumption

theorem lineReport_legal {s : State} {cls : ℕ} {lk : ℕ} {master : ℕ} {detail : ℕ} (hs : Kept vr qu s) : Kept vr qu (lineReport s cls lk master detail) := by
  unfold lineReport
  with_reducible apply errReport_legal
  with_reducible assumption

theorem corrected_legal {s : State} {lk : ℕ} {master : ℕ} {syn : ℕ} {back : Bool} (hs : Kept vr qu s) : Kept vr qu (corrected s lk master syn back) := by
  unfold corrected
  extract_lets +onlyGivenNames t1
  refine (fun (ht1 : Kept vr qu t1) => ?_) ?_
  · clear_value t1
    extract_lets +onlyGivenNames t2
    extract_lets +onlyGivenNames t3
    with_reducible refine legal_ite (fun c4 => ?_) (fun c4 => ?_)
    · with_reducible refine legal_mk (legal_parts ?_)
      with_reducible assumption
    · with_reducible assumption
  · unfold t1
    with_reducible apply corrCount_legal
    with_reducible apply lineReport_legal
    with_reducible assumption

theorem parCorrected_legal {s : State} {pk : ℕ} {q : ℕ} {master : ℕ} {syn : ℕ} (hs : Kept vr qu s) : Kept vr qu (parCorrected s pk q master syn) := by
  unfold parCorrected
  with_reducible apply corrCount_legal
  with_reducible apply lineReport_legal
  with_reducible assumption

theorem correctPars_legal {s : State} {pk : ℕ} {master : ℕ} {ps : List LineRead} (hs : Kept vr qu s) : Kept vr qu (correctPars s pk master ps) := by
  unfold correctPars
  with_reducible refine legal_foldl ?_ (fun u1 y1 hu1 => ?_)
  · with_reducible assumption
  · split
    · with_reducible refine legal_ite (fun c2 => ?_) (fun c2 => ?_)
      · with_reducible apply parCorrected_legal
        with_reducible assumption
      · with_reducible assumption
    · with_reducible assumption

theorem correctSingles_legal {s : State} {pk : ℕ} {master : ℕ} (hs : Kept vr qu s) : Kept vr qu (correctSingles s pk master) := by
  unfold correctSingles
  with_reducible apply correctPars_legal
  with_reducible refine legal_foldl ?_ (fun u3 y3 hu3 => ?_)
  · with_reducible assumption
  · extract_lets +onlyGivenNames t4
    with_reducible refine legal_ite (fun c5 => ?_) (fun c5 => ?_)
    · with_reducible apply corrected_legal
      with_reducible assumption
    · with_reducible assumption

theorem putDecoded_legal {s : State} {pk : ℕ} {cs : List (List ℕ)} {ls : List LineRead} {ch : List ℕ} (hs : Kept vr qu s) : Kept vr qu (putDecoded s pk cs ls ch) := by
  unfold putDecoded
  with_reducible refine legal_foldl ?_ (fun u1 y1 hu1 => ?_)
  · with_reducible assumption
  · with_reducible apply rewriteLine_legal
    with_reducible assumption

theorem poisonLine_legal {s : State} {pk : ℕ} {n : ℕ} {l : LineRead} (hs : Kept vr qu s) : Kept vr qu (poisonLine s pk n l) := by
  unfold poisonLine
  with_reducible refine legal_ite (fun c1 => ?_) (fun c1 => ?_)
  · with_reducible apply rewriteLine_legal
    with_reducible assumption
  · with_reducible refine legal_ite (fun c2 => ?_) (fun c2 => ?_)
    · with_reducible apply rewriteLine_legal
      with_reducible assumption
    · with_reducible assumption

theorem poisonLost_legal {s : State} {pk : ℕ} {ls : List LineRead} (hs : Kept vr qu s) : Kept vr qu (poisonLost s pk ls) := by
  unfold poisonLost
  with_reducible refine legal_foldl ?_ (fun u1 y1 hu1 => ?_)
  · with_reducible assumption
  · split
    · with_reducible apply poisonLine_legal
      with_reducible assumption
    · with_reducible assumption

theorem reconPage_legal {s0 : State} {pk : ℕ} {master : ℕ} (hs : Kept vr qu s0) : Kept1 vr qu (reconPage s0 pk master) := by
  unfold reconPage
  extract_lets +onlyGivenNames t1
  refine (fun (ht1 : Kept vr qu t1) => ?_) ?_
  · clear_value t1
    extract_lets +onlyGivenNames t2
    extract_lets +onlyGivenNames t3
    extract_lets +onlyGivenNames t4
    extract_lets +onlyGivenNames t5
    extract_lets +onlyGivenNames t6
    extract_lets +onlyGivenNames t7
    extract_lets +onlyGivenNames t8
    refine (fun (ht8 : Kept vr qu t8) => ?_) ?_
    · clear_value t8
      extract_lets +onlyGivenNames t9
      refine (fun (ht9 : Kept vr qu t9) => ?_) ?_
      · clear_value t9
        with_reducible refine legal1_ite (fun c10 => ?_) (fun c10 => ?_)
        · refine legal1_mk ?_
          with_reducible apply lineReport_legal
          with_reducible apply setParity_legal
          with_reducible apply putDecoded_legal
          with_reducible assumption
        · refine legal1_mk ?_
          with_reducible refine legal_foldl ?_ (fun u11 y11 hu11 => ?_)
          · with_reducible assumption
          · with_reducible apply lineReport_legal
            with_reducible assumption
      · unfold t9
        with_reducible apply setParity_legal
        with_reducible assumption
    · unfold t8
      with_reducible apply poisonLost_legal
      with_reducible assumption
  · unfold t1
    with_reducible apply correctSingles_legal
    with_reducible assumption

theorem setMerge_legal {s : State} {po : ℕ} {l : List MergeEntry} (hs : Kept vr qu s) : Kept vr qu (setMerge s po l) := by
  unfold setMerge
  extract_lets +onlyGivenNames t1
  with_reducible refine legal_mk (legal_parts ?_)
  with_reducible assumption

theorem mergeDrop_legal {s : State} {po : ℕ} {lk : ℕ} (hs : Kept vr qu s) : Kept vr qu (mergeDrop s po lk) := by
  unfold mergeDrop
  with_reducible apply setMerge_legal
  with_reducible assumption

theorem mergeClear_legal {s : State} {lk : ℕ} (hs : Kept vr qu s) : Kept vr qu (mergeClear s lk) := by
  unfold mergeClear
  extract_lets +onlyGivenNames t1
  with_reducible apply mergeDrop_legal
  with_reducible apply mergeDrop_legal
  with_reducible assumption

theorem writeOutEntry_legal {s : State} {po : ℕ} {e : MergeEntry} {master : ℕ} (hs : Kept vr qu s) : Kept vr qu (writeOutEntry s po e master) := by
  unfold writeOutEntry
  extract_lets +onlyGivenNames t1
  refine (fun (ht1 : Kept vr qu t1) => ?_) ?_
  · clear_value t1
    extract_lets +onlyGivenNames t2
    extract_lets +onlyGivenNames t3
    extract_lets +onlyGivenNames t4
    split
    · rename_i q6
      refine (fun hq6 => ?_) (@legal1_eq vr qu _ _ _ q6 ?_)
      · extract_lets +onlyGivenNames t7
        extract_lets +onlyGivenNames t8
        refine (fun (ht8 : Kept vr qu t8) => ?_) ?_
        · clear_value t8
          extract_lets +onlyGivenNames t9
          refine (fun (ht9 : Kept vr qu t9) => ?_) ?_
          · clear_value t9
            with_reducible apply putLine_legal
            with_reducible assumption
          · unfold t9
            with_reducible refine legal_ite (fun c10 => ?_) (fun c10 => ?_)
            · with_reducible apply lineReport_legal
              with_reducible assumption
            · with_reducible assumption
        · unfold t8
          with_reducible refine legal_ite (fun c11 => ?_) (fun c11 => ?_)
          · with_reducible apply corrected_legal
            exact legal1_pair (by assumption)
          · exact legal1_pair (by assumption)
      · with_reducible refine legal1_ite (fun c12 => ?_) (fun c12 => ?_)
        · with_reducible apply reconPage_legal
          with_reducible assumption
        · refine legal1_mk ?_
          with_reducible assumption
  · unfold t1
    with_reducible apply mergeDrop_legal
    with_reducible assumption

theorem narrowWrite_legal {s : State} {po : ℕ} {lk : ℕ} {i : ℕ} {n : ℕ} {data : ℕ} {master : ℕ} (hs : Kept vr qu s) : Kept vr qu (narrowWrite s po lk i n data master) := by
  unfold narrowWrite
  extract_lets +onlyGivenNames t1
  extract_lets +onlyGivenNames t2
  extract_lets +onlyGivenNames t3
  refine (fun (ht3 : Kept vr qu t3) => ?_) ?_
  · clear_value t3
    extract_lets +onlyGivenNames t4
    refine (fun (ht4 : Kept vr qu t4) => ?_) ?_
    · clear_value t4
      split
      · with_reducible apply setMerge_legal
        with_reducible assumption
      · with_reducible apply setMerge_legal
        with_reducible assumption
    · unfold t4
      with_reducible refine legal_ite (fun c5 => ?_) (fun c5 => ?_)
      · with_reducible assumption
      · split
        · with_reducible apply writeOutEntry_legal
          with_reducible assumption
        · with_reducible assumption
  · unfold t3
    with_reducible refine legal_mk (legal_parts ?_)
    with_reducible assumption

theorem readLine_legal {s : State} {lk : ℕ} {need : ℕ} {master : ℕ} (hs : Kept vr qu s) : KeptO vr qu (readLine s lk need master) := by
  unfold readLine
  extract_lets +onlyGivenNames t1
  split
  · extract_lets +onlyGivenNames t3
    with_reducible refine legalO_ite (fun c4 => ?_) (fun c4 => ?_)
    · refine legalO_mk ?_
      with_reducible apply lineReport_legal
      with_reducible assumption
    · with_reducible refine legalO_ite (fun c5 => ?_) (fun c5 => ?_)
      · refine legalO_mk ?_
        with_reducible assumption
      · with_reducible refine legalO_ite (fun c6 => ?_) (fun c6 => ?_)
        · refine legalO_mk ?_
          with_reducible assumption
        · with_reducible refine legalO_ite (fun c7 => ?_) (fun c7 => ?_)
          · refine legalO_mk ?_
            with_reducible apply lineReport_legal
            with_reducible assumption
          · refine legalO_mk ?_
            with_reducible refine legal_ite (fun c8 => ?_) (fun c8 => ?_)
            · with_reducible apply corrected_legal
              with_reducible assumption
            · with_reducible assumption
  · with_reducible refine legalO_ite (fun c9 => ?_) (fun c9 => ?_)
    · refine legalO_mk ?_
      with_reducible assumption
    · with_reducible refine legalO_ite (fun c10 => ?_) (fun c10 => ?_)
      · refine legalO_mk ?_
        with_reducible apply lineReport_legal
        with_reducible assumption
      · refine legalO_mk ?_
        with_reducible refine legal_ite (fun c11 => ?_) (fun c11 => ?_)
        · with_reducible apply corrected_legal
          with_reducible assumption
        · with_reducible assumption

theorem writeLine_legal {s : State} {lk : ℕ} {new : ℕ} {master : ℕ} (hs : Kept vr qu s) : KeptO vr qu (writeLine s lk new master) := by
  unfold writeLine
  extract_lets +onlyGivenNames t1
  extract_lets +onlyGivenNames t2
  refine (fun (ht2 : Kept vr qu t2) => ?_) ?_
  · clear_value t2
    extract_lets +onlyGivenNames t3
    refine (fun (ht3 : Kept vr qu t3) => ?_) ?_
    · clear_value t3
      with_reducible refine legalO_ite (fun c4 => ?_) (fun c4 => ?_)
      · refine legalO_mk ?_
        with_reducible assumption
      · refine legalO_mk ?_
        with_reducible apply putLine_legal
        with_reducible assumption
    · unfold t3
      with_reducible refine legal_ite (fun c5 => ?_) (fun c5 => ?_)
      · with_reducible apply corrected_legal
        with_reducible assumption
      · with_reducible assumption
  · unfold t2
    with_reducible apply mergeClear_legal
    with_reducible assumption

theorem atomLine_legal {s : State} {lk : ℕ} {i : ℕ} {n : ℕ} {swap : Bool} {opnd : ℕ} {master : ℕ} (hs : Kept vr qu s) : KeptO vr qu (atomLine s lk i n swap opnd master) := by
  unfold atomLine
  extract_lets +onlyGivenNames t1
  extract_lets +onlyGivenNames t2
  extract_lets +onlyGivenNames t3
  refine (fun (ht3 : Kept vr qu t3) => ?_) ?_
  · clear_value t3
    extract_lets +onlyGivenNames t4
    extract_lets +onlyGivenNames t5
    extract_lets +onlyGivenNames t6
    refine (fun (ht6 : Kept vr qu t6) => ?_) ?_
    · clear_value t6
      extract_lets +onlyGivenNames t7
      refine (fun (ht7 : Kept vr qu t7) => ?_) ?_
      · clear_value t7
        extract_lets +onlyGivenNames t8
        with_reducible refine legalO_ite (fun c9 => ?_) (fun c9 => ?_)
        · refine legalO_mk ?_
          with_reducible assumption
        · with_reducible refine legalO_ite (fun c10 => ?_) (fun c10 => ?_)
          · refine legalO_mk ?_
            with_reducible apply lineReport_legal
            with_reducible assumption
          · with_reducible refine legalO_ite (fun c11 => ?_) (fun c11 => ?_)
            · refine legalO_mk ?_
              clear_value t2
              split
              · with_reducible apply writeOutEntry_legal
                with_reducible assumption
              · with_reducible assumption
            · refine legalO_mk ?_
              with_reducible apply putLine_legal
              with_reducible assumption
      · unfold t7
        with_reducible refine legal_ite (fun c12 => ?_) (fun c12 => ?_)
        · with_reducible apply corrected_legal
          with_reducible assumption
        · with_reducible assumption
    · unfold t6
      clear_value t2
      split
      · with_reducible apply mergeDrop_legal
        with_reducible assumption
      · with_reducible assumption
  · unfold t3
    clear_value t2
    split
    · with_reducible apply writeOutEntry_legal
      with_reducible assumption
    · with_reducible assumption

theorem bankAccess_legal {s : State} {po : ℕ} {k : AccKind} {wk : ℕ} {n : ℕ} {data : ℕ} {master : ℕ} (hs : Kept vr qu s) : KeptO vr qu (bankAccess s po k wk n data master) := by
  unfold bankAccess
  extract_lets +onlyGivenNames t1
  extract_lets +onlyGivenNames t2
  extract_lets +onlyGivenNames t3
  refine (fun (ht3 : KeptO vr qu t3) => ?_) ?_
  · clear_value t3
    extract_lets +onlyGivenNames t4
    refine (fun (ht4 : KeptO vr qu t4) => ?_) ?_
    · clear_value t4
      extract_lets +onlyGivenNames t5
      refine (fun (ht5 : KeptO vr qu t5) => ?_) ?_
      · clear_value t5
        extract_lets +onlyGivenNames t6
        refine (fun (ht6 : KeptO vr qu t6) => ?_) ?_
        · clear_value t6
          split
          · with_reducible refine legalO_ite (fun c7 => ?_) (fun c7 => ?_)
            · with_reducible refine legalO_ite (fun c8 => ?_) (fun c8 => ?_)
              · with_reducible assumption
              · with_reducible refine legalO_ite (fun c9 => ?_) (fun c9 => ?_)
                · with_reducible assumption
                · refine legalO_mk ?_
                  refine legalO_out ?_
                  with_reducible assumption
            · with_reducible refine legalO_ite (fun c10 => ?_) (fun c10 => ?_)
              · with_reducible assumption
              · refine legalO_mk ?_
                refine legalO_out ?_
                with_reducible assumption
          · with_reducible refine legalO_ite (fun c11 => ?_) (fun c11 => ?_)
            · with_reducible refine legalO_ite (fun c12 => ?_) (fun c12 => ?_)
              · refine legalO_mk ?_
                with_reducible assumption
              · with_reducible refine legalO_ite (fun c13 => ?_) (fun c13 => ?_)
                · with_reducible assumption
                · with_reducible apply writeLine_legal
                  refine legalO_out ?_
                  with_reducible assumption
            · with_reducible refine legalO_ite (fun c14 => ?_) (fun c14 => ?_)
              · with_reducible apply writeLine_legal
                with_reducible assumption
              · refine legalO_mk ?_
                with_reducible apply narrowWrite_legal
                with_reducible assumption
          · with_reducible apply atomLine_legal
            with_reducible assumption
          · with_reducible apply atomLine_legal
            with_reducible assumption
        · unfold t6
          with_reducible apply writeLine_legal
          with_reducible assumption
      · unfold t5
        with_reducible apply readLine_legal
        with_reducible assumption
    · unfold t4
      with_reducible apply readLine_legal
      refine legalO_out ?_
      with_reducible assumption
  · unfold t3
    with_reducible apply readLine_legal
    with_reducible assumption

theorem afterRecon_legal {k : AccKind} {again : State → BankOut} {r : State × Bool} (h : Kept1 vr qu r)
    (g : ∀ t, Kept vr qu t → KeptO vr qu (again t)) : KeptO vr qu (afterRecon k again r) := by
  unfold afterRecon
  with_reducible exact legalO_ite (fun _ => legalO_mk (legal1_out h)) (fun _ => g _ (legal1_out h))
theorem nowStep_legal {k : AccKind} {master : Nat} {again : State → BankOut} {a : BankOut} (h : KeptO vr qu a)
    (g : ∀ t, Kept vr qu t → KeptO vr qu (again t)) : KeptO vr qu (nowStep k master again a) := by
  unfold nowStep
  with_reducible exact legalO_ite (fun _ => h) (fun _ => afterRecon_legal (reconPage_legal (legalO_out h)) g)
theorem bankAccessNow_legal {s : State} {po : Nat} {k : AccKind} {wk n data master : Nat} (hs : Kept vr qu s) :
    KeptO vr qu (bankAccessNow s po k wk n data master) := by
  unfold bankAccessNow
  exact nowStep_legal (bankAccess_legal hs) (fun t ht => nowStep_legal (bankAccess_legal ht) (fun u hu => legalO_mk (legalO_out (bankAccess_legal hu))))

end Sys2Proof.Machine
end

