-- ==== Sys2Proof/Laws/LegalAccess.lean ====
section
/-! SUPPORT. What every operation of Machine/Access.lean does to a legal state: it leaves one. -/
namespace Sys2Proof.Machine
open Sys2Proof.Config
variable {vr : Config.Variant} {qu : List Instr}

theorem dramRefused_legal {s : State} {kind : ℕ} (hs : Kept vr qu s) : Kept vr qu (dramRefused s kind) := by
  unfold dramRefused
  extract_lets +onlyGivenNames t1
  with_reducible refine legal_ite (fun c2 => ?_) (fun c2 => ?_)
  · with_reducible refine legal_mk (legal_parts ?_)
    with_reducible assumption
  · with_reducible assumption

theorem memFlag_legal {s : State} {i : ℕ} (hs : Kept vr qu s) : Kept vr qu (memFlag s i) := by
  unfold memFlag
  with_reducible apply pulse_legal
  with_reducible apply setRegB_legal
  with_reducible assumption

theorem epochRefuse_legal {s : State} {m : ℕ} {a : ℕ} (hs : Kept vr qu s) : Kept vr qu (epochRefuse s m a) := by
  unfold epochRefuse
  extract_lets +onlyGivenNames t1
  refine (fun (ht1 : Kept vr qu t1) => ?_) ?_
  · clear_value t1
    extract_lets +onlyGivenNames t2
    extract_lets +onlyGivenNames t3
    refine (fun (ht3 : Kept vr qu t3) => ?_) ?_
    · clear_value t3
      with_reducible apply errReport_legal
      with_reducible assumption
    · unfold t3
      with_reducible refine legal_mk (legal_parts ?_)
      with_reducible assumption
  · unfold t1
    with_reducible apply memFlag_legal
    with_reducible assumption

theorem regionRefuse_legal {s : State} {m : ℕ} {a : ℕ} {code : ℕ} (hs : Kept vr qu s) : Kept vr qu (regionRefuse s m a code) := by
  unfold regionRefuse
  extract_lets +onlyGivenNames t1
  extract_lets +onlyGivenNames t2
  refine (fun (ht2 : Kept vr qu t2) => ?_) ?_
  · clear_value t2
    with_reducible apply errReport_legal
    with_reducible assumption
  · unfold t2
    with_reducible refine legal_mk (legal_parts ?_)
    with_reducible assumption

theorem setReqs_legal {s : State} {po : ℕ} {l : List BankReq} (hs : Kept vr qu s) : Kept vr qu (setReqs s po l) := by
  unfold setReqs
  extract_lets +onlyGivenNames t1
  with_reducible refine legal_mk (legal_parts ?_)
  with_reducible assumption

theorem answerAccess_legal {s : State} {m : ℕ} {ld : ℕ} {r : Answer} (hs : Kept vr qu s) : Kept vr qu (answerAccess s m ld r) := by
  unfold answerAccess
  extract_lets +onlyGivenNames t1
  with_reducible apply setCo_legal
  with_reducible assumption

theorem noteRefused_legal {s : State} {m : ℕ} {ld : ℕ} {n : ℕ} (hs : Kept vr qu s) : Kept vr qu (noteRefused s m ld n) := by
  unfold noteRefused
  extract_lets +onlyGivenNames t1
  with_reducible apply setCo_legal
  with_reducible assumption

theorem serveAccess_legal {s0 : State} {po : ℕ} {r : BankReq} {a : Access} (hs : Kept vr qu s0) : Kept vr qu (serveAccess s0 po r a) := by
  unfold serveAccess
  extract_lets +onlyGivenNames t1
  refine (fun (ht1 : Kept vr qu t1) => ?_) ?_
  · clear_value t1
    extract_lets +onlyGivenNames t2
    split
    · extract_lets +onlyGivenNames t4
      refine (fun (ht4 : KeptO vr qu t4) => ?_) ?_
      · clear_value t4
        extract_lets +onlyGivenNames t5
        refine (fun (ht5 : Kept vr qu t5) => ?_) ?_
        · clear_value t5
          extract_lets +onlyGivenNames t6
          with_reducible refine legal_ite (fun c7 => ?_) (fun c7 => ?_)
          · with_reducible apply answerAccess_legal
            dsimp only [t2]
            with_reducible apply setReqs_legal
            with_reducible apply epochRefuse_legal
            with_reducible assumption
          · with_reducible refine legal_ite (fun c8 => ?_) (fun c8 => ?_)
            · with_reducible apply answerAccess_legal
              dsimp only [t2]
              with_reducible apply setReqs_legal
              with_reducible apply dramRefused_legal
              with_reducible assumption
            · with_reducible refine legal_ite (fun c9 => ?_) (fun c9 => ?_)
              · refine legal_mk (legal_each ?_ ?_ ?_ ?_ ?_ ?_ ?_ ?_ ?_ ?_ ?_ ?_ ?_ ?_ ?_ ?_)
                · with_reducible refine @legal_variant vr qu _ ?_
                  with_reducible assumption
                · with_reducible refine @legal_pending vr qu _ ?_
                  with_reducible assumption
                · with_reducible refine @legal_dev vr qu _ ?_
                  with_reducible assumption
                · with_reducible refine @legal_held vr qu _ ?_
                  with_reducible assumption
                · with_reducible refine @legal_queue vr qu _ ?_
                  with_reducible assumption
                · with_reducible refine @legal_sessions vr qu _ ?_
                  with_reducible assumption
                · with_reducible refine @legal_spi vr qu _ ?_
                  with_reducible assumption
                · with_reducible refine @legal_bb vr qu _ ?_
                  with_reducible assumption
                · with_reducible refine @legal_err vr qu _ ?_
                  refine legalO_out ?_
                  with_reducible assumption
                · with_reducible refine @legal_data vr qu _ ?_
                  refine legalO_out ?_
                  with_reducible assumption
                · with_reducible refine @legal_check vr qu _ ?_
                  refine legalO_out ?_
                  with_reducible assumption
                · with_reducible refine @legal_parity vr qu _ ?_
                  refine legalO_out ?_
                  with_reducible assumption
                · with_reducible refine @legal_pcheck vr qu _ ?_
                  refine legalO_out ?_
                  with_reducible assumption
                · with_reducible refine @legal_regs vr qu _ ?_
                  with_reducible assumption
                · with_reducible refine @legal_perMaster vr qu _ ?_
                  with_reducible assumption
                · with_reducible refine @legal_coaches vr qu _ ?_
                  with_reducible assumption
              · with_reducible apply answerAccess_legal
                dsimp only [t2]
                with_reducible apply setReqs_legal
                refine legalO_out ?_
                with_reducible assumption
        · unfold t5
          refine legalO_out ?_
          with_reducible assumption
      · unfold t4
        with_reducible apply bankAccess_legal
        with_reducible assumption
    · with_reducible apply answerAccess_legal
      dsimp only [t2]
      with_reducible apply setReqs_legal
      with_reducible assumption
  · unfold t1
    with_reducible apply noteRefused_legal
    with_reducible assumption

theorem writeBackOne_legal {s : State} {bk : ℕ} (hs : Kept vr qu s) : Kept vr qu (writeBackOne s bk) := by
  unfold writeBackOne
  extract_lets +onlyGivenNames t1
  split
  · with_reducible assumption
  · extract_lets +onlyGivenNames t3
    extract_lets +onlyGivenNames t4
    refine (fun (ht4 : Kept vr qu t4) => ?_) ?_
    · clear_value t4
      with_reducible refine legal_ite (fun c5 => ?_) (fun c5 => ?_)
      · with_reducible apply rewriteLine_legal
        with_reducible assumption
      · with_reducible assumption
    · unfold t4
      with_reducible refine legal_mk (legal_parts ?_)
      with_reducible assumption

theorem refuseOthers_legal {s : State} {po : ℕ} {r : Option BankReq} (hs : Kept vr qu s) : Kept vr qu (refuseOthers s po r) := by
  unfold refuseOthers
  with_reducible apply setReqs_legal
  with_reducible assumption

theorem portCycle_legal {s : State} {po : ℕ} (hs : Kept vr qu s) : Kept vr qu (portCycle s po) := by
  unfold portCycle
  extract_lets +onlyGivenNames t1
  with_reducible refine legal_ite (fun c3 => ?_) (fun c3 => ?_)
  · with_reducible apply refuseOthers_legal
    with_reducible assumption
  · with_reducible refine legal_ite (fun c5 => ?_) (fun c5 => ?_)
    · with_reducible apply refuseOthers_legal
      with_reducible apply writeBackOne_legal
      with_reducible assumption
    · split
      · with_reducible assumption
      · extract_lets +onlyGivenNames t7
        refine (fun (ht7 : Kept vr qu t7) => ?_) ?_
        · clear_value t7
          split
          · with_reducible apply serveAccess_legal
            with_reducible assumption
          · with_reducible apply setReqs_legal
            with_reducible assumption
        · unfold t7
          with_reducible apply refuseOthers_legal
          with_reducible assumption

theorem flushMerge_legal {s : State} {lk : ℕ} {m : ℕ} (hs : Kept vr qu s) : Kept vr qu (flushMerge s lk m) := by
  unfold flushMerge
  split
  · with_reducible apply writeOutEntry_legal
    with_reducible assumption
  · with_reducible assumption

theorem reconFailed_legal {s : State} {po : ℕ} {q : BankReq} {a : Access} (hs : Kept vr qu s) : Kept vr qu (reconFailed s po q a) := by
  unfold reconFailed
  extract_lets +onlyGivenNames t1
  refine (fun (ht1 : Kept vr qu t1) => ?_) ?_
  · clear_value t1
    with_reducible apply answerAccess_legal
    with_reducible apply setReqs_legal
    with_reducible assumption
  · unfold t1
    with_reducible refine legal_ite (fun c2 => ?_) (fun c2 => ?_)
    · with_reducible assumption
    · split
      · with_reducible apply flushMerge_legal
        with_reducible assumption
      · with_reducible assumption

theorem reconAnswer_legal {s : State} {ok : Bool} {bk : ℕ} {r : Recon} (hs : Kept vr qu s) : Kept vr qu (reconAnswer s ok bk r) := by
  unfold reconAnswer
  split
  · with_reducible assumption
  · split
    · with_reducible assumption
    · with_reducible refine legal_ite (fun c1 => ?_) (fun c1 => ?_)
      · with_reducible assumption
      · with_reducible apply reconFailed_legal
        with_reducible assumption

theorem reconNext_legal {s : State} {bk : ℕ} (hs : Kept vr qu s) : Kept vr qu (reconNext s bk) := by
  unfold reconNext
  extract_lets +onlyGivenNames t1
  split
  · with_reducible assumption
  · extract_lets +onlyGivenNames t3
    refine (fun (ht3 : Kept vr qu t3) => ?_) ?_
    · clear_value t3
      extract_lets +onlyGivenNames t4
      refine (fun (ht4 : Kept1 vr qu t4) => ?_) ?_
      · clear_value t4
        with_reducible apply reconAnswer_legal
        refine legal1_out ?_
        with_reducible assumption
      · unfold t4
        with_reducible apply reconPage_legal
        with_reducible assumption
    · unfold t3
      with_reducible refine legal_mk (legal_parts ?_)
      with_reducible assumption

theorem portTurn_legal {m cl : Nat} : ∀ {n : Nat} {s : State} {po lost : Nat} (_ : Kept vr qu s), Kept1 vr qu (portTurn m cl n s po lost)
  | 0, _, _, _, h => by
    unfold portTurn
    exact legal1_mk h
  | n + 1, s, po, lost, h => by
    unfold portTurn
    refine legal1_ite (fun _ => portTurn_legal (reconNext_legal h)) (fun _ =>
      legal1_ite (fun _ => portTurn_legal (refuseOthers_legal (writeBackOne_legal h))) (fun _ => ?_))
    split
    · exact legal1_mk h
    · exact legal1_ite (fun _ => portTurn_legal (portCycle_legal h)) (fun _ => legal1_mk (refuseOthers_legal h))

theorem bulkTurn_legal {s : State} {po : ℕ} (hs : Kept vr qu s) : Kept vr qu (bulkTurn s po) := by
  unfold bulkTurn
  extract_lets +onlyGivenNames t1
  extract_lets +onlyGivenNames t2
  with_reducible refine legal_ite (fun c3 => ?_) (fun c3 => ?_)
  · dsimp only [t2]
    with_reducible refine legal_mk (legal_parts ?_)
    with_reducible assumption
  · with_reducible refine legal_ite (fun c4 => ?_) (fun c4 => ?_)
    · dsimp only [t2]
      with_reducible refine legal_mk (legal_parts ?_)
      with_reducible assumption
    · dsimp only [t2]
      with_reducible refine legal_mk (legal_parts ?_)
      with_reducible apply portCycle_legal
      with_reducible assumption

theorem turnAccess_legal {s : State} {cl : ℕ} {po : ℕ} {k : AccKind} {wk : ℕ} {n : ℕ} {data : ℕ} {m : ℕ} (hs : Kept vr qu s) : KeptO vr qu (turnAccess s cl po k wk n data m) := by
  unfold turnAccess
  extract_lets +onlyGivenNames t1
  refine (fun (ht1 : Kept1 vr qu t1) => ?_) ?_
  · clear_value t1
    extract_lets +onlyGivenNames t2
    refine (fun (ht2 : KeptO vr qu t2) => ?_) ?_
    · clear_value t2
      with_reducible refine legalO_ite (fun c3 => ?_) (fun c3 => ?_)
      · with_reducible apply bankAccessNow_legal
        with_reducible apply bulkTurn_legal
        with_reducible assumption
      · refine legalO_mk ?_
        refine legalO_out ?_
        with_reducible assumption
    · unfold t2
      with_reducible apply bankAccessNow_legal
      refine legal1_out ?_
      with_reducible assumption
  · unfold t1
    with_reducible apply portTurn_legal
    with_reducible assumption

theorem devAccess_legal {s : State} {m : ℕ} {k : AccKind} {a : ℕ} {n : ℕ} {data : ℕ} (hs : Kept vr qu s) : KeptO vr qu (devAccess s m k a n data) := by
  unfold devAccess
  with_reducible refine legalO_ite (fun c2 => ?_) (fun c2 => ?_)
  · refine legalO_mk ?_
    with_reducible apply regionRefuse_legal
    with_reducible assumption
  · split
    · extract_lets +onlyGivenNames t4
      with_reducible refine legalO_ite (fun c5 => ?_) (fun c5 => ?_)
      · refine legalO_mk ?_
        with_reducible assumption
      · with_reducible refine legalO_ite (fun c6 => ?_) (fun c6 => ?_)
        · refine legalO_mk ?_
          with_reducible apply regionRefuse_legal
          with_reducible assumption
        · with_reducible refine legalO_ite (fun c7 => ?_) (fun c7 => ?_)
          · refine legalO_mk ?_
            with_reducible apply epochRefuse_legal
            with_reducible assumption
          · with_reducible refine legalO_ite (fun c8 => ?_) (fun c8 => ?_)
            · refine legalO_mk ?_
              with_reducible apply dramRefused_legal
              with_reducible assumption
            · with_reducible apply turnAccess_legal
              with_reducible assumption
    · refine legalO_mk ?_
      with_reducible assumption
    · refine legalO_mk ?_
      with_reducible assumption
    · with_reducible refine legalO_ite (fun c9 => ?_) (fun c9 => ?_)
      · refine legalO_mk ?_
        with_reducible apply epochRefuse_legal
        with_reducible assumption
      · split
        · refine legalO_mk ?_
          with_reducible assumption
        · refine legalO_mk ?_
          with_reducible assumption
        · refine legalO_mk ?_
          with_reducible assumption
        · refine legalO_mk ?_
          with_reducible assumption

theorem devReads_legal {m : Nat} : ∀ {n : Nat} {s : State} {a : Nat} {acc : List Word} (_ : Kept vr qu s), Kept1 vr qu (devReads m n s a acc)
  | 0, _, _, _, h => by
    unfold devReads
    exact legal1_mk h
  | n + 1, s, a, acc, h => by
    unfold devReads
    refine legal1_ite (fun _ => legal1_mk (legalO_out (devAccess_legal h))) (fun _ => devReads_legal (legalO_out (devAccess_legal h)))

theorem devWrites_legal {m : Nat} : ∀ {l : List Word} {s : State} {a : Nat} (_ : Kept vr qu s), Kept1 vr qu (devWrites m l s a)
  | [], _, _, h => by
    unfold devWrites
    exact legal1_mk h
  | w :: r, s, a, h => by
    unfold devWrites
    refine legal1_ite (fun _ => legal1_mk (legalO_out (devAccess_legal h))) (fun _ => devWrites_legal (legalO_out (devAccess_legal h)))

theorem fetchFill_legal {s : State} {c : ℕ} {a : ℕ} (hs : Kept vr qu s) : Kept vr qu (fetchFill s c a) := by
  unfold fetchFill
  extract_lets +onlyGivenNames t1
  with_reducible refine legal_ite (fun c2 => ?_) (fun c2 => ?_)
  · with_reducible assumption
  · split
    · with_reducible refine legal_ite (fun c3 => ?_) (fun c3 => ?_)
      · with_reducible assumption
      · with_reducible refine legal_ite (fun c4 => ?_) (fun c4 => ?_)
        · with_reducible apply epochRefuse_legal
          with_reducible assumption
        · with_reducible refine legal_ite (fun c5 => ?_) (fun c5 => ?_)
          · with_reducible apply dramRefused_legal
            with_reducible assumption
          · with_reducible refine legal_foldl ?_ (fun u6 y6 hu6 => ?_)
            · with_reducible assumption
            · refine legalO_out ?_
              with_reducible apply turnAccess_legal
              with_reducible assumption
    · with_reducible refine legal_ite (fun c7 => ?_) (fun c7 => ?_)
      · with_reducible assumption
      · with_reducible apply epochRefuse_legal
        with_reducible assumption
    · with_reducible assumption

end Sys2Proof.Machine
end

