-- ==== Sys2Proof/Laws/LegalFetch.lean ====
section
/-! SUPPORT. What every operation of Machine/Fetch.lean does to a legal state: it leaves one. -/
namespace Sys2Proof.Machine
open Sys2Proof.Config
variable {vr : Config.Variant} {qu : List Instr}

theorem fetchOp_legal {s : State} {c : ℕ} (hs : Kept vr qu s) : Kept vr qu (fetchOp s c) := by
  unfold fetchOp
  extract_lets +onlyGivenNames t1
  extract_lets +onlyGivenNames t2
  with_reducible refine legal_ite (fun c3 => ?_) (fun c3 => ?_)
  · with_reducible assumption
  · with_reducible refine legal_ite (fun c4 => ?_) (fun c4 => ?_)
    · with_reducible apply setCo_legal
      with_reducible assumption
    · with_reducible refine legal_ite (fun c5 => ?_) (fun c5 => ?_)
      · with_reducible assumption
      · split
        · with_reducible assumption
        · with_reducible refine legal_ite (fun c6 => ?_) (fun c6 => ?_)
          · with_reducible apply setCo_legal
            with_reducible assumption
          · with_reducible assumption

end Sys2Proof.Machine
end

