-- ==== Sys2Proof/Laws/LegalException.lean ====
section
/-! SUPPORT. What every operation of Machine/Exception.lean does to a legal state: it leaves one. -/
namespace Sys2Proof.Machine
open Sys2Proof.Config
variable {vr : Config.Variant} {qu : List Instr}

theorem lostCycles_legal {s : State} {c : ℕ} {kind : ℕ} {inst : ℕ} {n : ℕ} (hs : Kept vr qu s) : Kept vr qu (lostCycles s c kind inst n) := by
  unfold lostCycles
  with_reducible refine legal_ite (fun c1 => ?_) (fun c1 => ?_)
  · with_reducible assumption
  · with_reducible apply setCo_legal
    with_reducible assumption

theorem coachNow_legal {s : State} {c : ℕ} {kd : AccKind} {a : ℕ} {n : ℕ} {data : ℕ} (hs : Kept vr qu s) : KeptO vr qu (coachNow s c kd a n data) := by
  unfold coachNow
  split
  · extract_lets +onlyGivenNames t2
    refine (fun (ht2 : KeptO vr qu t2) => ?_) ?_
    · clear_value t2
      with_reducible refine legalO_ite (fun c3 => ?_) (fun c3 => ?_)
      · refine legalO_mk ?_
        with_reducible apply epochRefuse_legal
        with_reducible assumption
      · with_reducible refine legalO_ite (fun c4 => ?_) (fun c4 => ?_)
        · refine legalO_mk ?_
          with_reducible apply dramRefused_legal
          with_reducible assumption
        · refine legalO_mk ?_
          with_reducible apply lostCycles_legal
          refine legalO_out ?_
          with_reducible assumption
    · unfold t2
      with_reducible apply turnAccess_legal
      with_reducible assumption
  · with_reducible refine legalO_ite (fun c5 => ?_) (fun c5 => ?_)
    · refine legalO_mk ?_
      with_reducible apply epochRefuse_legal
      with_reducible assumption
    · refine legalO_mk ?_
      with_reducible assumption
  · with_reducible refine legalO_ite (fun c6 => ?_) (fun c6 => ?_)
    · refine legalO_mk ?_
      with_reducible apply epochRefuse_legal
      with_reducible assumption
    · refine legalO_mk ?_
      with_reducible assumption
  · refine legalO_mk ?_
    with_reducible assumption

theorem declareDead_legal {s : State} {n : ℕ} {why : ℕ} (hs : Kept vr qu s) : Kept vr qu (declareDead s n why) := by
  unfold declareDead
  extract_lets +onlyGivenNames t1
  extract_lets +onlyGivenNames t2
  refine (fun (ht2 : Kept vr qu t2) => ?_) ?_
  · clear_value t2
    with_reducible refine legal_ite (fun c3 => ?_) (fun c3 => ?_)
    · with_reducible assumption
    · with_reducible apply pulse_legal
      with_reducible apply setLogi_legal
      with_reducible assumption
  · unfold t2
    with_reducible apply bbL0_legal
    with_reducible assumption

theorem noteHalt_legal {s : State} {c : ℕ} (hs : Kept vr qu s) : Kept vr qu (noteHalt s c) := by
  unfold noteHalt
  extract_lets +onlyGivenNames t1
  split
  · with_reducible refine legal_ite (fun c3 => ?_) (fun c3 => ?_)
    · with_reducible apply setCo_legal
      with_reducible assumption
    · with_reducible assumption
  · extract_lets +onlyGivenNames t4
    extract_lets +onlyGivenNames t5
    refine (fun (ht5 : Kept vr qu t5) => ?_) ?_
    · clear_value t5
      split
      · with_reducible refine legal_ite (fun c6 => ?_) (fun c6 => ?_)
        · with_reducible apply declareDead_legal
          with_reducible assumption
        · with_reducible assumption
      · with_reducible assumption
    · unfold t5
      with_reducible apply setLogi_legal
      with_reducible assumption

theorem haltCoach_legal {s : State} {c : ℕ} {k : Coach} {r : ExcReq} {halt : ℕ} (hs : Kept vr qu s) : Kept vr qu (haltCoach s c k r halt) := by
  unfold haltCoach
  extract_lets +onlyGivenNames t1
  extract_lets +onlyGivenNames t2
  extract_lets +onlyGivenNames t3
  refine (fun (ht3 : Kept vr qu t3) => ?_) ?_
  · clear_value t3
    extract_lets +onlyGivenNames t4
    extract_lets +onlyGivenNames t5
    extract_lets +onlyGivenNames t6
    extract_lets +onlyGivenNames t7
    refine (fun (ht7 : Kept vr qu t7) => ?_) ?_
    · clear_value t7
      extract_lets +onlyGivenNames t8
      refine (fun (ht8 : Kept vr qu t8) => ?_) ?_
      · clear_value t8
        with_reducible apply noteHalt_legal
        with_reducible apply bbHw_legal
        with_reducible assumption
      · unfold t8
        split
        · with_reducible apply setLevel_legal
          with_reducible assumption
        · with_reducible assumption
    · unfold t7
      with_reducible refine legal_foldl ?_ (fun u9 y9 hu9 => ?_)
      · with_reducible assumption
      · refine legalO_out ?_
        with_reducible apply turnAccess_legal
        with_reducible assumption
  · unfold t3
    with_reducible apply setCo_legal
    with_reducible assumption

theorem copyCrash_legal {s : State} {c : ℕ} (hs : Kept vr qu s) : Kept vr qu (copyCrash s c) := by
  unfold copyCrash
  extract_lets +onlyGivenNames t1
  extract_lets +onlyGivenNames t2
  extract_lets +onlyGivenNames t3
  refine (fun (ht3 : Kept1 vr qu t3) => ?_) ?_
  · clear_value t3
    extract_lets +onlyGivenNames t4
    refine (fun (ht4 : Kept vr qu t4) => ?_) ?_
    · clear_value t4
      extract_lets +onlyGivenNames t5
      with_reducible refine legal_ite (fun c6 => ?_) (fun c6 => ?_)
      · with_reducible assumption
      · with_reducible refine legal_mk (legal_parts ?_)
        with_reducible assumption
    · unfold t4
      refine legal1_out ?_
      with_reducible assumption
  · unfold t3
    with_reducible refine legal1_foldl ?_ (fun u8 y8 hu8 => ?_)
    · refine legal1_mk ?_
      with_reducible assumption
    · extract_lets +onlyGivenNames t9
      refine (fun (ht9 : KeptO vr qu t9) => ?_) ?_
      · clear_value t9
        refine legal1_mk ?_
        refine legalO_out ?_
        with_reducible assumption
      · unfold t9
        with_reducible apply turnAccess_legal
        refine legal1_out ?_
        with_reducible assumption

theorem pushFrame_legal {s : State} {c : ℕ} {esp : ℕ} {vals : List W32} (hs : Kept vr qu s) : Kept1 vr qu (pushFrame s c esp vals) := by
  unfold pushFrame
  with_reducible refine legal1_foldl ?_ (fun u2 y2 hu2 => ?_)
  · refine legal1_mk ?_
    with_reducible assumption
  · extract_lets +onlyGivenNames t3
    refine (fun (ht3 : KeptO vr qu t3) => ?_) ?_
    · clear_value t3
      with_reducible refine legal1_ite (fun c4 => ?_) (fun c4 => ?_)
      · with_reducible assumption
      · refine legal1_mk ?_
        refine legalO_out ?_
        with_reducible assumption
    · unfold t3
      with_reducible apply coachNow_legal
      refine legal1_out ?_
      with_reducible assumption

theorem vectorOf_legal {s : State} {c : ℕ} {e : ℕ} (hs : Kept vr qu s) : Kept1 vr qu (vectorOf s c e) := by
  unfold vectorOf
  extract_lets +onlyGivenNames t1
  extract_lets +onlyGivenNames t2
  refine (fun (ht2 : KeptO vr qu t2) => ?_) ?_
  · clear_value t2
    with_reducible refine legal1_ite (fun c3 => ?_) (fun c3 => ?_)
    · refine legal1_mk ?_
      refine legalO_out ?_
      with_reducible assumption
    · refine legal1_mk ?_
      refine legalO_out ?_
      with_reducible assumption
  · unfold t2
    with_reducible apply coachNow_legal
    with_reducible assumption

theorem doubleFault_legal {s : State} {c : ℕ} {r : ExcReq} {bad : ℕ} (hs : Kept vr qu s) : Kept vr qu (doubleFault s c r bad) := by
  unfold doubleFault
  extract_lets +onlyGivenNames t1
  extract_lets +onlyGivenNames t2
  extract_lets +onlyGivenNames t3
  extract_lets +onlyGivenNames t4
  refine (fun (ht4 : Kept1 vr qu t4) => ?_) ?_
  · clear_value t4
    extract_lets +onlyGivenNames t5
    refine (fun (ht5 : Kept1 vr qu t5) => ?_) ?_
    · clear_value t5
      extract_lets +onlyGivenNames t6
      with_reducible refine legal_ite (fun c7 => ?_) (fun c7 => ?_)
      · with_reducible apply haltCoach_legal
        with_reducible assumption
      · with_reducible refine legal_ite (fun c8 => ?_) (fun c8 => ?_)
        · with_reducible apply haltCoach_legal
          refine legal1_out ?_
          with_reducible assumption
        · with_reducible refine legal_ite (fun c9 => ?_) (fun c9 => ?_)
          · with_reducible apply haltCoach_legal
            refine legal1_out ?_
            with_reducible assumption
          · with_reducible apply setCo_legal
            refine legal1_out ?_
            with_reducible assumption
    · unfold t5
      with_reducible apply vectorOf_legal
      refine legal1_out ?_
      with_reducible assumption
  · unfold t4
    with_reducible apply pushFrame_legal
    with_reducible assumption

theorem enter_legal {s : State} {c : ℕ} {r : ExcReq} (hs : Kept vr qu s) : Kept vr qu (enter s c r) := by
  unfold enter
  extract_lets +onlyGivenNames t1
  extract_lets +onlyGivenNames t2
  refine (fun (ht2 : Kept vr qu t2) => ?_) ?_
  · clear_value t2
    extract_lets +onlyGivenNames t3
    extract_lets +onlyGivenNames t4
    refine (fun (ht4 : Kept1 vr qu t4) => ?_) ?_
    · clear_value t4
      extract_lets +onlyGivenNames t5
      refine (fun (ht5 : Kept1 vr qu t5) => ?_) ?_
      · clear_value t5
        extract_lets +onlyGivenNames t6
        with_reducible refine legal_ite (fun c7 => ?_) (fun c7 => ?_)
        · with_reducible apply haltCoach_legal
          with_reducible assumption
        · with_reducible refine legal_ite (fun c8 => ?_) (fun c8 => ?_)
          · with_reducible apply haltCoach_legal
            with_reducible assumption
          · with_reducible refine legal_ite (fun c9 => ?_) (fun c9 => ?_)
            · with_reducible apply haltCoach_legal
              refine legal1_out ?_
              with_reducible assumption
            · with_reducible refine legal_ite (fun c10 => ?_) (fun c10 => ?_)
              · with_reducible apply setCo_legal
                refine legal1_out ?_
                with_reducible assumption
              · with_reducible apply doubleFault_legal
                with_reducible apply setCo_legal
                refine legal1_out ?_
                with_reducible assumption
      · unfold t5
        with_reducible apply vectorOf_legal
        refine legal1_out ?_
        with_reducible assumption
    · unfold t4
      with_reducible apply pushFrame_legal
      with_reducible assumption
  · unfold t2
    with_reducible apply setCo_legal
    with_reducible assumption

theorem entryOp_legal {s : State} {c : ℕ} (hs : Kept vr qu s) : Kept vr qu (entryOp s c) := by
  unfold entryOp
  extract_lets +onlyGivenNames t1
  extract_lets +onlyGivenNames t2
  extract_lets +onlyGivenNames t3
  split
  · with_reducible assumption
  · with_reducible refine legal_ite (fun c4 => ?_) (fun c4 => ?_)
    · with_reducible assumption
    · with_reducible refine legal_ite (fun c5 => ?_) (fun c5 => ?_)
      · with_reducible apply enter_legal
        with_reducible apply setCo_legal
        with_reducible assumption
      · split
        · with_reducible apply enter_legal
          with_reducible apply setCo_legal
          with_reducible assumption
        · split
          · with_reducible apply enter_legal
            with_reducible apply setCo_legal
            with_reducible assumption
          · with_reducible apply enter_legal
            with_reducible apply setCo_legal
            with_reducible assumption

theorem eretRead_legal {s : State} {c : ℕ} (hs : Kept vr qu s) : Kept1 vr qu (eretRead s c) := by
  unfold eretRead
  extract_lets +onlyGivenNames t1
  extract_lets +onlyGivenNames t2
  extract_lets +onlyGivenNames t3
  refine (fun (ht3 : KeptO vr qu t3) => ?_) ?_
  · clear_value t3
    extract_lets +onlyGivenNames t4
    refine (fun (ht4 : KeptO vr qu t4) => ?_) ?_
    · clear_value t4
      split
      · refine legal1_mk ?_
        with_reducible assumption
      · split
        · refine legal1_mk ?_
          with_reducible assumption
        · with_reducible refine legal1_ite (fun c5 => ?_) (fun c5 => ?_)
          · refine legal1_mk ?_
            refine legalO_out ?_
            with_reducible assumption
          · with_reducible refine legal1_ite (fun c6 => ?_) (fun c6 => ?_)
            · refine legal1_mk ?_
              refine legalO_out ?_
              with_reducible assumption
            · refine legal1_mk ?_
              refine legalO_out ?_
              with_reducible assumption
    · unfold t4
      with_reducible apply coachNow_legal
      refine legalO_out ?_
      with_reducible assumption
  · unfold t3
    with_reducible apply coachNow_legal
    with_reducible assumption

theorem dropReqs_legal {s : State} {c : ℕ} (hs : Kept vr qu s) : Kept vr qu (dropReqs s c) := by
  unfold dropReqs
  extract_lets +onlyGivenNames t1
  with_reducible refine legal_mk (legal_parts ?_)
  with_reducible assumption

theorem startCoach_legal {s : State} {c : ℕ} {grace : Option ℕ} (hs : Kept vr qu s) : Kept vr qu (startCoach s c grace) := by
  unfold startCoach
  extract_lets +onlyGivenNames t1
  extract_lets +onlyGivenNames t2
  extract_lets +onlyGivenNames t3
  refine (fun (ht3 : Kept vr qu t3) => ?_) ?_
  · clear_value t3
    extract_lets +onlyGivenNames t4
    refine (fun (ht4 : Kept vr qu t4) => ?_) ?_
    · clear_value t4
      extract_lets +onlyGivenNames t5
      refine (fun (ht5 : Kept1 vr qu t5) => ?_) ?_
      · clear_value t5
        extract_lets +onlyGivenNames t6
        with_reducible refine legal_ite (fun c7 => ?_) (fun c7 => ?_)
        · with_reducible apply setCo_legal
          refine legal1_out ?_
          with_reducible assumption
        · with_reducible apply doubleFault_legal
          refine legal1_out ?_
          with_reducible assumption
      · unfold t5
        with_reducible apply vectorOf_legal
        with_reducible assumption
    · unfold t4
      split
      · with_reducible apply setLevel_legal
        with_reducible assumption
      · with_reducible assumption
  · unfold t3
    with_reducible apply setCo_legal
    with_reducible apply dropReqs_legal
    with_reducible assumption

end Sys2Proof.Machine
end

