-- ==== Sys2Proof/Laws/LegalRegs.lean ====
section
/-! SUPPORT. What every operation of Machine/Regs.lean does to a legal state: it leaves one. -/
namespace Sys2Proof.Machine
open Sys2Proof.Config
variable {vr : Config.Variant} {qu : List Instr}

theorem conflictAt_legal {s : State} {a : ℕ} {b : ℕ} (hs : Kept vr qu s) : Kept vr qu (conflictAt s a b) := by
  unfold conflictAt
  extract_lets +onlyGivenNames t1
  refine (fun (ht1 : Kept vr qu t1) => ?_) ?_
  · clear_value t1
    with_reducible refine legal_ite (fun c2 => ?_) (fun c2 => ?_)
    · with_reducible assumption
    · with_reducible refine legal_ite (fun c3 => ?_) (fun c3 => ?_)
      · with_reducible apply memFlag_legal
        with_reducible assumption
      · with_reducible refine legal_ite (fun c4 => ?_) (fun c4 => ?_)
        · with_reducible apply pulse_legal
          with_reducible assumption
        · with_reducible refine legal_ite (fun c5 => ?_) (fun c5 => ?_)
          · with_reducible apply pulse_legal
            with_reducible assumption
          · with_reducible assumption
  · unfold t1
    with_reducible apply setRegB_legal
    with_reducible assumption

theorem conflict_legal {s : State} {addr : ℕ} (hs : Kept vr qu s) : Kept vr qu (conflict s addr) := by
  unfold conflict
  split
  · with_reducible apply conflictAt_legal
    with_reducible assumption
  · with_reducible assumption

theorem storePlain_legal {s : State} {m : ℕ} {a : ℕ} {v : W32} (hs : Kept vr qu s) : Kept vr qu (storePlain s m a v) := by
  unfold storePlain
  split
  · with_reducible assumption
  · extract_lets +onlyGivenNames t2
    extract_lets +onlyGivenNames t3
    refine (fun (ht3 : Kept vr qu t3) => ?_) ?_
    · clear_value t3
      with_reducible refine legal_ite (fun c4 => ?_) (fun c4 => ?_)
      · with_reducible apply conflictAt_legal
        with_reducible assumption
      · with_reducible assumption
    · unfold t3
      with_reducible apply setReg_legal
      with_reducible assumption

theorem storeClaim_legal {s : State} {m : ℕ} {a : ℕ} {v : W32} {busy : Bool} (hs : Kept vr qu s) : Kept vr qu (storeClaim s m a v busy) := by
  unfold storeClaim
  with_reducible refine legal_ite (fun c1 => ?_) (fun c1 => ?_)
  · with_reducible refine legal_ite (fun c2 => ?_) (fun c2 => ?_)
    · with_reducible apply conflict_legal
      with_reducible assumption
    · with_reducible apply setReg_legal
      with_reducible assumption
  · with_reducible refine legal_ite (fun c3 => ?_) (fun c3 => ?_)
    · with_reducible apply setReg_legal
      with_reducible assumption
    · with_reducible apply conflict_legal
      with_reducible assumption

theorem longDone_legal {s : State} {key : ℕ} {status : ℕ} (hs : Kept vr qu s) : Kept vr qu (longDone s key status) := by
  unfold longDone
  extract_lets +onlyGivenNames t1
  split
  · with_reducible refine legal_ite (fun c2 => ?_) (fun c2 => ?_)
    · refine legal_mk (legal_each ?_ ?_ ?_ ?_ ?_ ?_ ?_ ?_ ?_ ?_ ?_ ?_ ?_ ?_ ?_ ?_)
      · with_reducible refine @legal_variant vr qu _ ?_
        with_reducible assumption
      · with_reducible refine @legal_pending vr qu _ ?_
        with_reducible assumption
      · with_reducible refine @legal_dev vr qu _ ?_
        with_reducible assumption
      · with_reducible refine @legal_held vr qu _ ?_
        with_reducible assumption
      · with_reducible refine @legal_queue vr qu _ ?_
        with_reducible assumption
      · with_reducible refine le_of_map ?_
        with_reducible refine @legal_sessions vr qu _ ?_
        with_reducible assumption
      · with_reducible refine @legal_spi vr qu _ ?_
        with_reducible assumption
      · with_reducible refine @legal_bb vr qu _ ?_
        with_reducible assumption
      · with_reducible refine @legal_err vr qu _ ?_
        with_reducible assumption
      · with_reducible refine @legal_data vr qu _ ?_
        with_reducible assumption
      · with_reducible refine @legal_check vr qu _ ?_
        with_reducible assumption
      · with_reducible refine @legal_parity vr qu _ ?_
        with_reducible assumption
      · with_reducible refine @legal_pcheck vr qu _ ?_
        with_reducible assumption
      · with_reducible refine @legal_regs vr qu _ ?_
        with_reducible assumption
      · with_reducible refine @legal_perMaster vr qu _ ?_
        with_reducible assumption
      · with_reducible refine @legal_coaches vr qu _ ?_
        with_reducible assumption
    · with_reducible assumption
  · with_reducible assumption

end Sys2Proof.Machine
end

