-- ==== Sys2Proof/Laws/LegalIntc.lean ====
section
/-! SUPPORT. What every operation of Machine/Intc.lean does to a legal state: it leaves one. -/
namespace Sys2Proof.Machine
open Sys2Proof.Config
variable {vr : Config.Variant} {qu : List Instr}

theorem icSwsetStore_legal {s : State} {v : W32} (hs : Kept vr qu s) : Kept vr qu (icSwsetStore s v) := by
  unfold icSwsetStore
  with_reducible apply srcEvent_legal
  with_reducible assumption

theorem icCompStore_legal {s : State} {m : ℕ} {v : W32} (hs : Kept vr qu s) : Kept vr qu (icCompStore s m v) := by
  unfold icCompStore
  extract_lets +onlyGivenNames t1
  extract_lets +onlyGivenNames t2
  refine (fun (ht2 : Kept vr qu t2) => ?_) ?_
  · clear_value t2
    with_reducible refine legal_ite (fun c3 => ?_) (fun c3 => ?_)
    · with_reducible apply srcRearm_legal
      with_reducible apply setSrc_legal
      with_reducible assumption
    · with_reducible apply pulse_legal
      with_reducible apply setReg_legal
      with_reducible assumption
  · unfold t2
    with_reducible apply setReg_legal
    with_reducible assumption

theorem icScfgStore_legal {s : State} {m : ℕ} {n : ℕ} {v : W32} (hs : Kept vr qu s) : Kept vr qu (icScfgStore s m n v) := by
  unfold icScfgStore
  extract_lets +onlyGivenNames t1
  extract_lets +onlyGivenNames t2
  refine (fun (ht2 : Kept vr qu t2) => ?_) ?_
  · clear_value t2
    with_reducible refine legal_ite (fun c3 => ?_) (fun c3 => ?_)
    · with_reducible assumption
    · with_reducible refine legal_ite (fun c4 => ?_) (fun c4 => ?_)
      · with_reducible refine legal_ite (fun c5 => ?_) (fun c5 => ?_)
        · with_reducible apply setSrc_legal
          with_reducible apply storePlain_legal
          with_reducible assumption
        · with_reducible apply conflict_legal
          with_reducible assumption
      · with_reducible refine legal_ite (fun c6 => ?_) (fun c6 => ?_)
        · with_reducible apply conflict_legal
          with_reducible assumption
        · with_reducible refine legal_ite (fun c7 => ?_) (fun c7 => ?_)
          · with_reducible apply srcRearm_legal
            with_reducible assumption
          · with_reducible assumption
  · unfold t2
    with_reducible apply storePlain_legal
    with_reducible assumption

theorem icStgtStore_legal {s : State} {m : ℕ} {n : ℕ} {v : W32} (hs : Kept vr qu s) : Kept vr qu (icStgtStore s m n v) := by
  unfold icStgtStore
  extract_lets +onlyGivenNames t1
  with_reducible refine legal_ite (fun c2 => ?_) (fun c2 => ?_)
  · with_reducible assumption
  · with_reducible refine legal_ite (fun c3 => ?_) (fun c3 => ?_)
    · with_reducible apply conflict_legal
      with_reducible assumption
    · with_reducible refine legal_ite (fun c4 => ?_) (fun c4 => ?_)
      · with_reducible apply conflict_legal
        with_reducible assumption
      · with_reducible refine legal_ite (fun c5 => ?_) (fun c5 => ?_)
        · with_reducible assumption
        · with_reducible apply storePlain_legal
          with_reducible assumption

theorem icStore_legal {s : State} {m : ℕ} {a : ℕ} {v : W32} (hs : Kept vr qu s) : Kept vr qu (icStore s m a v) := by
  unfold icStore
  extract_lets +onlyGivenNames t1
  with_reducible refine legal_ite (fun c2 => ?_) (fun c2 => ?_)
  · with_reducible apply icCompStore_legal
    with_reducible assumption
  · with_reducible refine legal_ite (fun c3 => ?_) (fun c3 => ?_)
    · with_reducible apply icSwsetStore_legal
      with_reducible assumption
    · with_reducible refine legal_ite (fun c4 => ?_) (fun c4 => ?_)
      · with_reducible apply icScfgStore_legal
        with_reducible assumption
      · with_reducible refine legal_ite (fun c5 => ?_) (fun c5 => ?_)
        · with_reducible apply icStgtStore_legal
          with_reducible assumption
        · with_reducible apply storePlain_legal
          with_reducible assumption

theorem sourceOp_legal {s : State} {n : ℕ} {signal : Bool} (hs : Kept vr qu s) : Kept vr qu (sourceOp s n signal) := by
  unfold sourceOp
  with_reducible refine legal_ite (fun c1 => ?_) (fun c1 => ?_)
  · with_reducible assumption
  · with_reducible refine legal_ite (fun c2 => ?_) (fun c2 => ?_)
    · with_reducible refine legal_ite (fun c3 => ?_) (fun c3 => ?_)
      · with_reducible apply srcEvent_legal
        with_reducible assumption
      · with_reducible assumption
    · with_reducible apply setLevel_legal
      with_reducible assumption

theorem gatherOp_legal {s : State} {n : ℕ} (hs : Kept vr qu s) : Kept vr qu (gatherOp s n) := by
  unfold gatherOp
  with_reducible refine legal_ite (fun c1 => ?_) (fun c1 => ?_)
  · with_reducible apply setSrc_legal
    with_reducible assumption
  · with_reducible assumption

theorem disableOp_legal {s : State} {m : ℕ} {n : ℕ} {v : W32} (hs : Kept vr qu s) : Kept vr qu (disableOp s m n v) := by
  unfold disableOp
  with_reducible refine legal_ite (fun c1 => ?_) (fun c1 => ?_)
  · with_reducible apply icScfgStore_legal
    with_reducible assumption
  · with_reducible assumption

theorem execSourceEvent_legal {n : ℕ} {signal : Bool} {s : State} (hs : Kept vr qu s) : ∀ u, execSourceEvent n signal s = .next u → Kept vr qu u := by
  unfold execSourceEvent
  apply legal_act
  with_reducible apply sourceOp_legal
  with_reducible assumption

theorem execGatherTimeout_legal {n : ℕ} {s : State} (hs : Kept vr qu s) : ∀ u, execGatherTimeout n s = .next u → Kept vr qu u := by
  unfold execGatherTimeout
  apply legal_act
  with_reducible apply gatherOp_legal
  with_reducible assumption

theorem execIcSwset_legal {m : ℕ} {v : W32} {s : State} (hs : Kept vr qu s) : ∀ u, execIcSwset m v s = .next u → Kept vr qu u := by
  unfold execIcSwset
  apply legal_act
  with_reducible apply icSwsetStore_legal
  with_reducible assumption

theorem execIcComp_legal {m : ℕ} {v : W32} {s : State} (hs : Kept vr qu s) : ∀ u, execIcComp m v s = .next u → Kept vr qu u := by
  unfold execIcComp
  apply legal_act
  with_reducible apply icCompStore_legal
  with_reducible assumption

theorem execSourceDisable_legal {m : ℕ} {n : ℕ} {v : W32} {s : State} (hs : Kept vr qu s) : ∀ u, execSourceDisable m n v s = .next u → Kept vr qu u := by
  unfold execSourceDisable
  apply legal_act
  with_reducible apply disableOp_legal
  with_reducible assumption

end Sys2Proof.Machine
end

