-- ==== Sys2Proof/Laws/LegalMemory.lean ====
section
/-! SUPPORT. What every operation of Machine/Memory.lean does to a legal state: it leaves one. -/
namespace Sys2Proof.Machine
open Sys2Proof.Config
variable {vr : Config.Variant} {qu : List Instr}

theorem bankArbOp_legal {s : State} {p : PortId} (hs : Kept vr qu s) : Kept vr qu (bankArbOp s p) := by
  unfold bankArbOp
  with_reducible refine legal_ite (fun c1 => ?_) (fun c1 => ?_)
  · with_reducible apply portCycle_legal
    with_reducible assumption
  · with_reducible assumption

theorem writeOutOp_legal {s : State} {p : PortId} (hs : Kept vr qu s) : Kept vr qu (writeOutOp s p) := by
  unfold writeOutOp
  extract_lets +onlyGivenNames t1
  with_reducible refine legal_ite (fun c2 => ?_) (fun c2 => ?_)
  · with_reducible assumption
  · split
    · with_reducible apply writeOutEntry_legal
      with_reducible assumption
    · with_reducible assumption

theorem correctionOp_legal {s : State} {kind : ℕ} {inst : ℕ} {bank : ℕ} (hs : Kept vr qu s) : Kept vr qu (correctionOp s kind inst bank) := by
  unfold correctionOp
  extract_lets +onlyGivenNames t1
  extract_lets +onlyGivenNames t2
  refine (fun (ht2 : Kept vr qu t2) => ?_) ?_
  · clear_value t2
    with_reducible refine legal_ite (fun c3 => ?_) (fun c3 => ?_)
    · with_reducible assumption
    · with_reducible refine legal_ite (fun c4 => ?_) (fun c4 => ?_)
      · with_reducible apply refuseOthers_legal
        with_reducible assumption
      · with_reducible assumption
  · unfold t2
    with_reducible apply refuseOthers_legal
    with_reducible apply writeBackOne_legal
    with_reducible assumption

theorem reconOp_legal {s : State} {kind : ℕ} {inst : ℕ} {bank : ℕ} (hs : Kept vr qu s) : Kept vr qu (reconOp s kind inst bank) := by
  unfold reconOp
  with_reducible apply reconNext_legal
  with_reducible assumption

theorem remapRow_legal {s : State} {kind : ℕ} {inst : ℕ} {bank : ℕ} {row : ℕ} (hs : Kept vr qu s) : Kept vr qu (remapRow s kind inst bank row) := by
  unfold remapRow
  extract_lets +onlyGivenNames t1
  extract_lets +onlyGivenNames t2
  extract_lets +onlyGivenNames t3
  refine (fun (ht3 : Kept vr qu t3) => ?_) ?_
  · clear_value t3
    extract_lets +onlyGivenNames t4
    extract_lets +onlyGivenNames t5
    split
    · extract_lets +onlyGivenNames t7
      refine (fun (ht7 : Kept vr qu t7) => ?_) ?_
      · clear_value t7
        extract_lets +onlyGivenNames t8
        refine (fun (ht8 : Kept vr qu t8) => ?_) ?_
        · clear_value t8
          extract_lets +onlyGivenNames t9
          with_reducible refine legal_ite (fun c10 => ?_) (fun c10 => ?_)
          · with_reducible refine legal_mk (legal_parts ?_)
            with_reducible assumption
          · with_reducible assumption
        · unfold t8
          with_reducible apply errReport_legal
          with_reducible assumption
      · unfold t7
        with_reducible refine legal_mk (legal_parts ?_)
        with_reducible assumption
    · with_reducible refine legal_ite (fun c11 => ?_) (fun c11 => ?_)
      · with_reducible assumption
      · with_reducible apply errReport_legal
        with_reducible refine legal_mk (legal_parts ?_)
        with_reducible assumption
  · unfold t3
    with_reducible refine legal_foldl ?_ (fun u13 y13 hu13 => ?_)
    · with_reducible assumption
    · extract_lets +onlyGivenNames t14
      with_reducible refine legal_ite (fun c15 => ?_) (fun c15 => ?_)
      · with_reducible apply rewriteLine_legal
        with_reducible assumption
      · with_reducible assumption

theorem remapOp_legal {s : State} {kind : ℕ} {inst : ℕ} {line : ℕ} (hs : Kept vr qu s) : Kept vr qu (remapOp s kind inst line) := by
  unfold remapOp
  extract_lets +onlyGivenNames t1
  extract_lets +onlyGivenNames t2
  extract_lets +onlyGivenNames t3
  refine (fun (ht3 : Kept vr qu t3) => ?_) ?_
  · clear_value t3
    extract_lets +onlyGivenNames t4
    with_reducible refine legal_ite (fun c5 => ?_) (fun c5 => ?_)
    · with_reducible refine legal_mk (legal_parts ?_)
      with_reducible assumption
    · with_reducible assumption
  · unfold t3
    with_reducible apply remapRow_legal
    with_reducible assumption

theorem setScrub_legal {s : State} {kind : ℕ} {inst : ℕ} {b : Scrub} (hs : Kept vr qu s) : Kept vr qu (setScrub s kind inst b) := by
  unfold setScrub
  extract_lets +onlyGivenNames t1
  with_reducible refine legal_mk (legal_parts ?_)
  with_reducible assumption

theorem passSummary_legal {s : State} {kind : ℕ} {inst : ℕ} (hs : Kept vr qu s) : Kept vr qu (passSummary s kind inst) := by
  unfold passSummary
  extract_lets +onlyGivenNames t1
  extract_lets +onlyGivenNames t2
  extract_lets +onlyGivenNames t3
  refine (fun (ht3 : Kept vr qu t3) => ?_) ?_
  · clear_value t3
    extract_lets +onlyGivenNames t4
    with_reducible refine legal_mk (legal_parts ?_)
    with_reducible assumption
  · unfold t3
    with_reducible refine legal_foldl ?_ (fun u6 y6 hu6 => ?_)
    · with_reducible assumption
    · extract_lets +onlyGivenNames t7
      with_reducible refine legal_ite (fun c8 => ?_) (fun c8 => ?_)
      · with_reducible assumption
      · with_reducible apply bbHw_legal
        with_reducible assumption

theorem scrubPass_legal {s : State} {kind : ℕ} {inst : ℕ} {b : Scrub} (hs : Kept vr qu s) : Kept vr qu (scrubPass s kind inst b) := by
  unfold scrubPass
  extract_lets +onlyGivenNames t1
  refine (fun (ht1 : Kept vr qu t1) => ?_) ?_
  · clear_value t1
    with_reducible apply passSummary_legal
    with_reducible assumption
  · unfold t1
    with_reducible apply setScrub_legal
    with_reducible assumption

theorem scrubBegin_legal {s : State} {kind : ℕ} {inst : ℕ} (hs : Kept vr qu s) : Kept vr qu (scrubBegin s kind inst) := by
  unfold scrubBegin
  extract_lets +onlyGivenNames t1
  split
  · with_reducible apply setScrub_legal
    with_reducible assumption
  · extract_lets +onlyGivenNames t3
    refine (fun (ht3 : Kept vr qu t3) => ?_) ?_
    · clear_value t3
      extract_lets +onlyGivenNames t4
      with_reducible apply setScrub_legal
      with_reducible assumption
    · unfold t3
      with_reducible refine legal_ite (fun c5 => ?_) (fun c5 => ?_)
      · with_reducible apply scrubPass_legal
        with_reducible assumption
      · with_reducible assumption

theorem scrubStartOp_legal {s : State} {kind : ℕ} {inst : ℕ} (hs : Kept vr qu s) : Kept vr qu (scrubStartOp s kind inst) := by
  unfold scrubStartOp
  extract_lets +onlyGivenNames t1
  extract_lets +onlyGivenNames t2
  extract_lets +onlyGivenNames t3
  refine (fun (ht3 : Kept vr qu t3) => ?_) ?_
  · clear_value t3
    extract_lets +onlyGivenNames t4
    refine (fun (ht4 : Kept vr qu t4) => ?_) ?_
    · clear_value t4
      with_reducible refine legal_ite (fun c5 => ?_) (fun c5 => ?_)
      · with_reducible assumption
      · with_reducible refine legal_ite (fun c6 => ?_) (fun c6 => ?_)
        · with_reducible assumption
        · with_reducible refine legal_ite (fun c7 => ?_) (fun c7 => ?_)
          · with_reducible apply setScrub_legal
            with_reducible assumption
          · with_reducible apply scrubBegin_legal
            with_reducible apply setScrub_legal
            with_reducible assumption
    · unfold t4
      with_reducible refine legal_ite (fun c8 => ?_) (fun c8 => ?_)
      · with_reducible assumption
      · with_reducible apply errReport_legal
        with_reducible assumption
  · unfold t3
    with_reducible apply setRegF_legal
    with_reducible assumption

theorem callRecon_legal {s : State} {lk : ℕ} {pk : ℕ} (hs : Kept vr qu s) : Kept vr qu (callRecon s lk pk) := by
  unfold callRecon
  extract_lets +onlyGivenNames t1
  extract_lets +onlyGivenNames t2
  with_reducible refine legal_mk (legal_parts ?_)
  with_reducible assumption

theorem scrubCheck_legal {s : State} {pk : ℕ} (hs : Kept vr qu s) : Kept vr qu (scrubCheck s pk) := by
  unfold scrubCheck
  extract_lets +onlyGivenNames t1
  extract_lets +onlyGivenNames t2
  extract_lets +onlyGivenNames t3
  extract_lets +onlyGivenNames t4
  refine (fun (ht4 : Kept vr qu t4) => ?_) ?_
  · clear_value t4
    extract_lets +onlyGivenNames t5
    refine (fun (ht5 : Kept vr qu t5) => ?_) ?_
    · clear_value t5
      extract_lets +onlyGivenNames t6
      with_reducible refine legal_ite (fun c7 => ?_) (fun c7 => ?_)
      · with_reducible apply callRecon_legal
        with_reducible assumption
      · with_reducible refine legal_ite (fun c8 => ?_) (fun c8 => ?_)
        · with_reducible assumption
        · with_reducible apply callRecon_legal
          with_reducible apply errReport_legal
          with_reducible assumption
    · unfold t5
      with_reducible refine legal_ite (fun c9 => ?_) (fun c9 => ?_)
      · with_reducible apply setParity_legal
        with_reducible assumption
      · with_reducible assumption
  · unfold t4
    with_reducible apply correctPars_legal
    with_reducible assumption

theorem scrubReadOp_legal {s : State} {kind : ℕ} {inst : ℕ} (hs : Kept vr qu s) : Kept vr qu (scrubReadOp s kind inst) := by
  unfold scrubReadOp
  extract_lets +onlyGivenNames t1
  extract_lets +onlyGivenNames t2
  extract_lets +onlyGivenNames t3
  extract_lets +onlyGivenNames t4
  extract_lets +onlyGivenNames t5
  refine (fun (ht5 : Kept vr qu t5) => ?_) ?_
  · clear_value t5
    extract_lets +onlyGivenNames t6
    extract_lets +onlyGivenNames t7
    refine (fun (ht7 : Kept vr qu t7) => ?_) ?_
    · clear_value t7
      extract_lets +onlyGivenNames t8
      refine (fun (ht8 : Kept vr qu t8) => ?_) ?_
      · clear_value t8
        extract_lets +onlyGivenNames t9
        extract_lets +onlyGivenNames t10
        refine (fun (ht10 : Kept vr qu t10) => ?_) ?_
        · clear_value t10
          with_reducible refine legal_ite (fun c11 => ?_) (fun c11 => ?_)
          · with_reducible assumption
          · with_reducible refine legal_ite (fun c12 => ?_) (fun c12 => ?_)
            · with_reducible apply setScrub_legal
              with_reducible assumption
            · with_reducible refine legal_ite (fun c13 => ?_) (fun c13 => ?_)
              · with_reducible assumption
              · with_reducible refine legal_ite (fun c14 => ?_) (fun c14 => ?_)
                · with_reducible refine legal_ite (fun c15 => ?_) (fun c15 => ?_)
                  · with_reducible apply callRecon_legal
                    with_reducible assumption
                  · with_reducible apply setScrub_legal
                    with_reducible assumption
                · with_reducible refine legal_ite (fun c16 => ?_) (fun c16 => ?_)
                  · with_reducible apply setScrub_legal
                    with_reducible assumption
                  · with_reducible refine legal_ite (fun c17 => ?_) (fun c17 => ?_)
                    · with_reducible apply scrubBegin_legal
                      with_reducible assumption
                    · with_reducible assumption
        · unfold t10
          with_reducible refine legal_ite (fun c18 => ?_) (fun c18 => ?_)
          · with_reducible apply scrubPass_legal
            with_reducible assumption
          · with_reducible apply setScrub_legal
            with_reducible assumption
      · unfold t8
        with_reducible apply scrubCheck_legal
        with_reducible assumption
    · unfold t7
      with_reducible refine legal_ite (fun c19 => ?_) (fun c19 => ?_)
      · with_reducible apply corrected_legal
        with_reducible assumption
      · with_reducible refine legal_ite (fun c20 => ?_) (fun c20 => ?_)
        · with_reducible apply lineReport_legal
          with_reducible assumption
        · with_reducible assumption
  · unfold t5
    split
    · with_reducible apply writeOutEntry_legal
      with_reducible assumption
    · with_reducible assumption

theorem settleParity_legal {s : State} {pk : ℕ} (hs : Kept vr qu s) : Kept vr qu (settleParity s pk) := by
  unfold settleParity
  with_reducible apply setParity_legal
  with_reducible assumption

theorem bankZero_legal {s : State} {kind : ℕ} {inst : ℕ} {bank : ℕ} (hs : Kept vr qu s) : Kept vr qu (bankZero s kind inst bank) := by
  unfold bankZero
  extract_lets +onlyGivenNames t1
  extract_lets +onlyGivenNames t2
  extract_lets +onlyGivenNames t3
  extract_lets +onlyGivenNames t4
  extract_lets +onlyGivenNames t5
  refine (fun (ht5 : Kept vr qu t5) => ?_) ?_
  · clear_value t5
    with_reducible refine legal_ite (fun c6 => ?_) (fun c6 => ?_)
    · with_reducible refine legal_foldl ?_ (fun u7 y7 hu7 => ?_)
      · with_reducible assumption
      · with_reducible apply settleParity_legal
        with_reducible assumption
    · with_reducible assumption
  · unfold t5
    refine legal_mk (legal_each ?_ ?_ ?_ ?_ ?_ ?_ ?_ ?_ ?_ ?_ ?_ ?_ ?_ ?_ ?_ ?_)
    · with_reducible refine @legal_variant vr qu _ ?_
      with_reducible assumption
    · with_reducible refine @legal_pending vr qu _ ?_
      with_reducible assumption
    · with_reducible refine @legal_dev vr qu _ ?_
      with_reducible assumption
    · with_reducible refine @legal_held vr qu _ ?_
      with_reducible assumption
    · with_reducible refine @legal_queue vr qu _ ?_
      with_reducible assumption
    · with_reducible refine @legal_sessions vr qu _ ?_
      with_reducible assumption
    · with_reducible refine @legal_spi vr qu _ ?_
      with_reducible assumption
    · with_reducible refine @legal_bb vr qu _ ?_
      with_reducible assumption
    · with_reducible refine @legal_err vr qu _ ?_
      with_reducible assumption
    · with_reducible refine twf_filter _ _ _ ?_
      with_reducible refine @legal_data vr qu _ ?_
      with_reducible assumption
    · with_reducible refine twf_filter _ _ _ ?_
      with_reducible refine @legal_check vr qu _ ?_
      with_reducible assumption
    · with_reducible refine twf_filter _ _ _ ?_
      with_reducible refine @legal_parity vr qu _ ?_
      with_reducible assumption
    · with_reducible refine twf_filter _ _ _ ?_
      with_reducible refine @legal_pcheck vr qu _ ?_
      with_reducible assumption
    · with_reducible refine @legal_regs vr qu _ ?_
      with_reducible assumption
    · with_reducible refine @legal_perMaster vr qu _ ?_
      with_reducible assumption
    · with_reducible refine @legal_coaches vr qu _ ?_
      with_reducible assumption

theorem marchStartOp_legal {s : State} (hs : Kept vr qu s) : Kept vr qu (marchStartOp s) := by
  unfold marchStartOp
  extract_lets +onlyGivenNames t1
  extract_lets +onlyGivenNames t2
  extract_lets +onlyGivenNames t3
  extract_lets +onlyGivenNames t4
  refine (fun (ht4 : Kept vr qu t4) => ?_) ?_
  · clear_value t4
    extract_lets +onlyGivenNames t5
    with_reducible refine legal_ite (fun c6 => ?_) (fun c6 => ?_)
    · with_reducible assumption
    · with_reducible refine legal_ite (fun c7 => ?_) (fun c7 => ?_)
      · with_reducible refine legal_mk (legal_parts ?_)
        with_reducible assumption
      · with_reducible apply longDone_legal
        with_reducible apply setRegB_legal
        with_reducible assumption
  · unfold t4
    with_reducible refine legal_ite (fun c8 => ?_) (fun c8 => ?_)
    · with_reducible assumption
    · with_reducible refine legal_foldl ?_ (fun u9 y9 hu9 => ?_)
      · with_reducible assumption
      · with_reducible apply bankZero_legal
        with_reducible assumption

theorem marchTest_legal {s : State} {m : March} {i : ℕ} {op : ℕ} (hs : Kept vr qu s) : Kept1 vr qu (marchTest s m i op) := by
  unfold marchTest
  extract_lets +onlyGivenNames t1
  extract_lets +onlyGivenNames t2
  extract_lets +onlyGivenNames t3
  extract_lets +onlyGivenNames t4
  refine (fun (ht4 : Kept vr qu t4) => ?_) ?_
  · clear_value t4
    with_reducible refine legal1_ite (fun c5 => ?_) (fun c5 => ?_)
    · refine legal1_mk ?_
      with_reducible assumption
    · refine legal1_mk ?_
      with_reducible apply remapRow_legal
      with_reducible assumption
  · unfold t4
    with_reducible apply errReport_legal
    with_reducible assumption

theorem marchRowOp_legal {s : State} {op : ℕ} (hs : Kept vr qu s) : Kept vr qu (marchRowOp s op) := by
  unfold marchRowOp
  split
  · extract_lets +onlyGivenNames t2
    refine (fun (ht2 : Kept1 vr qu t2) => ?_) ?_
    · clear_value t2
      extract_lets +onlyGivenNames t3
      refine (fun (ht3 : Kept vr qu t3) => ?_) ?_
      · clear_value t3
        extract_lets +onlyGivenNames t4
        extract_lets +onlyGivenNames t5
        with_reducible refine legal_ite (fun c6 => ?_) (fun c6 => ?_)
        · refine legal_mk (legal_each ?_ ?_ ?_ ?_ ?_ ?_ ?_ ?_ ?_ ?_ ?_ ?_ ?_ ?_ ?_ ?_)
          · with_reducible refine @legal_variant vr qu _ ?_
            with_reducible assumption
          · with_reducible refine @legal_pending vr qu _ ?_
            with_reducible assumption
          · with_reducible refine @legal_dev vr qu _ ?_
            with_reducible assumption
          · with_reducible refine @legal_held vr qu _ ?_
            with_reducible assumption
          · with_reducible refine @legal_queue vr qu _ ?_
            with_reducible assumption
          · with_reducible refine @legal_sessions vr qu _ ?_
            with_reducible assumption
          · with_reducible refine @legal_spi vr qu _ ?_
            with_reducible assumption
          · with_reducible refine @legal_bb vr qu _ ?_
            with_reducible assumption
          · with_reducible refine @legal_err vr qu _ ?_
            refine legal1_out ?_
            with_reducible assumption
          · with_reducible refine @legal_data vr qu _ ?_
            refine legal1_out ?_
            with_reducible assumption
          · with_reducible refine @legal_check vr qu _ ?_
            refine legal1_out ?_
            with_reducible assumption
          · with_reducible refine @legal_parity vr qu _ ?_
            refine legal1_out ?_
            with_reducible assumption
          · with_reducible refine @legal_pcheck vr qu _ ?_
            refine legal1_out ?_
            with_reducible assumption
          · with_reducible refine @legal_regs vr qu _ ?_
            with_reducible assumption
          · with_reducible refine @legal_perMaster vr qu _ ?_
            with_reducible assumption
          · with_reducible refine @legal_coaches vr qu _ ?_
            with_reducible assumption
        · with_reducible assumption
      · unfold t3
        refine legal1_out ?_
        with_reducible assumption
    · unfold t2
      with_reducible apply marchTest_legal
      with_reducible assumption
  · with_reducible assumption

theorem marchExtra_legal {s : State} {m : March} {i : ℕ} {op : ℕ} (hs : Kept vr qu s) : Kept1 vr qu (marchExtra s m i op) := by
  unfold marchExtra
  split
  · refine legal1_mk ?_
    with_reducible assumption
  · extract_lets +onlyGivenNames t2
    extract_lets +onlyGivenNames t3
    refine (fun (ht3 : Kept vr qu t3) => ?_) ?_
    · clear_value t3
      extract_lets +onlyGivenNames t4
      with_reducible refine legal1_ite (fun c5 => ?_) (fun c5 => ?_)
      · refine legal1_mk ?_
        with_reducible refine legal_mk (legal_parts ?_)
        with_reducible assumption
      · refine legal1_mk ?_
        with_reducible assumption
    · unfold t3
      with_reducible apply errReport_legal
      with_reducible assumption

theorem marchEndOp_legal {s : State} {failing : List (ℕ × ℕ)} (hs : Kept vr qu s) : Kept vr qu (marchEndOp s failing) := by
  unfold marchEndOp
  split
  · with_reducible assumption
  · extract_lets +onlyGivenNames t2
    refine (fun (ht2 : Kept1 vr qu t2) => ?_) ?_
    · clear_value t2
      extract_lets +onlyGivenNames t3
      refine (fun (ht3 : Kept1 vr qu t3) => ?_) ?_
      · clear_value t3
        extract_lets +onlyGivenNames t4
        extract_lets +onlyGivenNames t5
        refine (fun (ht5 : Kept vr qu t5) => ?_) ?_
        · clear_value t5
          extract_lets +onlyGivenNames t6
          refine (fun (ht6 : Kept vr qu t6) => ?_) ?_
          · clear_value t6
            extract_lets +onlyGivenNames t7
            with_reducible refine legal_ite (fun c8 => ?_) (fun c8 => ?_)
            · with_reducible assumption
            · with_reducible apply longDone_legal
              with_reducible refine legal_mk (legal_parts ?_)
              with_reducible assumption
          · unfold t6
            with_reducible apply setRegB_legal
            with_reducible apply setReg_legal
            with_reducible assumption
        · unfold t5
          with_reducible apply setRegF_legal
          with_reducible apply setRegF_legal
          refine legal1_out ?_
          with_reducible assumption
      · unfold t3
        with_reducible refine legal1_ite (fun c9 => ?_) (fun c9 => ?_)
        · refine legal1_mk ?_
          with_reducible assumption
        · with_reducible refine legal1_foldl ?_ (fun u10 y10 hu10 => ?_)
          · with_reducible assumption
          · with_reducible apply marchTest_legal
            refine legal1_out ?_
            with_reducible assumption
    · unfold t2
      with_reducible refine legal1_foldl ?_ (fun u11 y11 hu11 => ?_)
      · refine legal1_mk ?_
        with_reducible assumption
      · with_reducible apply marchExtra_legal
        refine legal1_out ?_
        with_reducible assumption

theorem mtStore_legal {s : State} {m : ℕ} {v : W32} (hs : Kept vr qu s) : Kept vr qu (mtStore s m v) := by
  unfold mtStore
  with_reducible refine legal_ite (fun c1 => ?_) (fun c1 => ?_)
  · with_reducible refine legal_ite (fun c2 => ?_) (fun c2 => ?_)
    · with_reducible apply conflictAt_legal
      with_reducible assumption
    · with_reducible apply setRegB_legal
      with_reducible apply storePlain_legal
      with_reducible assumption
  · with_reducible apply storePlain_legal
    with_reducible assumption

theorem fuseEnd_legal {s : State} {status : ℕ} (hs : Kept vr qu s) : Kept vr qu (fuseEnd s status) := by
  unfold fuseEnd
  extract_lets +onlyGivenNames t1
  with_reducible apply longDone_legal
  with_reducible apply setRegB_legal
  with_reducible refine legal_mk (legal_parts ?_)
  with_reducible assumption

theorem fuseNext_legal {s : State} (hs : Kept vr qu s) : Kept vr qu (fuseNext s) := by
  unfold fuseNext
  with_reducible refine legal_ite (fun c1 => ?_) (fun c1 => ?_)
  · with_reducible assumption
  · with_reducible apply fuseEnd_legal
    with_reducible assumption

theorem fuseStart_legal {s : State} (hs : Kept vr qu s) : Kept vr qu (fuseStart s) := by
  unfold fuseStart
  extract_lets +onlyGivenNames t1
  refine (fun (ht1 : Kept vr qu t1) => ?_) ?_
  · clear_value t1
    extract_lets +onlyGivenNames t2
    with_reducible refine legal_ite (fun c3 => ?_) (fun c3 => ?_)
    · with_reducible assumption
    · with_reducible apply fuseNext_legal
      with_reducible refine legal_mk (legal_parts ?_)
      with_reducible assumption
  · unfold t1
    with_reducible apply setRegB_legal
    with_reducible assumption

theorem fuseStore_legal {s : State} {m : ℕ} {v : W32} (hs : Kept vr qu s) : Kept vr qu (fuseStore s m v) := by
  unfold fuseStore
  extract_lets +onlyGivenNames t1
  refine (fun (ht1 : Kept vr qu t1) => ?_) ?_
  · clear_value t1
    with_reducible refine legal_ite (fun c2 => ?_) (fun c2 => ?_)
    · with_reducible apply fuseStart_legal
      with_reducible assumption
    · with_reducible assumption
  · unfold t1
    with_reducible apply setRegB_legal
    with_reducible apply storePlain_legal
    with_reducible assumption

theorem fuseStartOp_legal {s : State} (hs : Kept vr qu s) : Kept vr qu (fuseStartOp s) := by
  unfold fuseStartOp
  extract_lets +onlyGivenNames t1
  refine (fun (ht1 : Kept vr qu t1) => ?_) ?_
  · clear_value t1
    with_reducible refine legal_ite (fun c2 => ?_) (fun c2 => ?_)
    · with_reducible apply fuseStart_legal
      with_reducible assumption
    · with_reducible apply longDone_legal
      with_reducible assumption
  · unfold t1
    with_reducible refine legal_ite (fun c3 => ?_) (fun c3 => ?_)
    · with_reducible assumption
    · with_reducible apply setRegB_legal
      with_reducible assumption

theorem fuseMarkBad_legal {s : State} (hs : Kept vr qu s) : Kept vr qu (fuseMarkBad s) := by
  unfold fuseMarkBad
  extract_lets +onlyGivenNames t1
  extract_lets +onlyGivenNames t2
  with_reducible apply setRegB_legal
  with_reducible refine legal_mk (legal_parts ?_)
  with_reducible assumption

theorem fuseEntryOp_legal {s : State} {ok : Bool} (hs : Kept vr qu s) : Kept vr qu (fuseEntryOp s ok) := by
  unfold fuseEntryOp
  extract_lets +onlyGivenNames t1
  extract_lets +onlyGivenNames t2
  refine (fun (ht2 : Kept vr qu t2) => ?_) ?_
  · clear_value t2
    extract_lets +onlyGivenNames t3
    with_reducible refine legal_ite (fun c4 => ?_) (fun c4 => ?_)
    · with_reducible assumption
    · with_reducible refine legal_ite (fun c5 => ?_) (fun c5 => ?_)
      · with_reducible apply fuseNext_legal
        with_reducible refine legal_mk (legal_parts ?_)
        with_reducible assumption
      · with_reducible refine legal_ite (fun c6 => ?_) (fun c6 => ?_)
        · with_reducible apply fuseNext_legal
          with_reducible refine legal_mk (legal_parts ?_)
          with_reducible assumption
        · with_reducible apply fuseNext_legal
          with_reducible refine legal_mk (legal_parts ?_)
          with_reducible assumption
  · unfold t2
    with_reducible apply fuseMarkBad_legal
    with_reducible assumption

theorem vppOp_legal {s : State} (hs : Kept vr qu s) : Kept vr qu (vppOp s) := by
  unfold vppOp
  extract_lets +onlyGivenNames t1
  refine (fun (ht1 : Kept vr qu t1) => ?_) ?_
  · clear_value t1
    with_reducible refine legal_ite (fun c2 => ?_) (fun c2 => ?_)
    · with_reducible apply fuseEnd_legal
      with_reducible apply fuseMarkBad_legal
      with_reducible assumption
    · with_reducible assumption
  · unfold t1
    with_reducible apply setRegB_legal
    with_reducible assumption

theorem pendStoreOp_legal {s : State} (hs : Kept vr qu s) : Kept vr qu (pendStoreOp s) := by
  unfold pendStoreOp
  extract_lets +onlyGivenNames t1
  with_reducible refine legal_mk (legal_parts ?_)
  with_reducible assumption

theorem logForward_legal {s : State} {r : ErrRec} (hs : Kept vr qu s) : Kept vr qu (logForward s r) := by
  unfold logForward
  extract_lets +onlyGivenNames t1
  extract_lets +onlyGivenNames t2
  extract_lets +onlyGivenNames t3
  refine (fun (ht3 : Kept vr qu t3) => ?_) ?_
  · clear_value t3
    with_reducible refine legal_ite (fun c4 => ?_) (fun c4 => ?_)
    · with_reducible assumption
    · with_reducible apply bbHw_legal
      with_reducible assumption
  · unfold t3
    with_reducible refine legal_ite (fun c5 => ?_) (fun c5 => ?_)
    · with_reducible refine legal_mk (legal_parts ?_)
      with_reducible assumption
    · with_reducible assumption

theorem logLost_legal {s : State} (h : Kept vr qu s) (hl : s.mem.intake.length < 32) : Kept vr qu (logLost s) := by
  unfold logLost
  split
  · extract_lets r t u
    have ht : Kept vr qu t := setReg_legal h
    refine legal_mk (legal_each ht.variant ht.pending ht.legal.dev ht.legal.held ht.legal.queue ht.legal.sessions ht.legal.spi ht.legal.bbIntake ?_ (legal_data ht) (legal_check ht) (legal_parity ht) (legal_pcheck ht) (legal_regs ht) (legal_perMaster ht) (legal_coaches ht))
    exact le_of_len hl
  · exact h

theorem logPut_legal {s : State} {r : ErrRec} (hs : Kept vr qu s) : Kept vr qu (logPut s r) := by
  unfold logPut
  extract_lets +onlyGivenNames t1
  extract_lets +onlyGivenNames t2
  refine (fun (ht2 : Kept vr qu t2) => ?_) ?_
  · clear_value t2
    extract_lets +onlyGivenNames t3
    with_reducible refine legal_ite (fun c4 => ?_) (fun c4 => ?_)
    · with_reducible apply setRegB_legal
      with_reducible apply setRegF_legal
      with_reducible assumption
    · with_reducible refine legal_mk (legal_parts ?_)
      with_reducible assumption
  · unfold t2
    with_reducible refine legal_mk (legal_parts ?_)
    with_reducible assumption

theorem logWriteOp_legal {s : State} (hs : Kept vr qu s) : Kept vr qu (logWriteOp s) := by
  unfold logWriteOp
  extract_lets +onlyGivenNames t1
  split
  · with_reducible assumption
  · with_reducible refine legal_ite (fun _ => hs) (fun _ => ?_)
    extract_lets +onlyGivenNames t3
    refine (fun (ht3 : Kept vr qu t3) => ?_) ?_
    · clear_value t3
      extract_lets +onlyGivenNames t4
      refine (fun (ht4 : Kept vr qu t4) => ?_) ?_
      · clear_value t4
        with_reducible refine legal_ite (fun c5 => ?_) (fun c5 => ?_)
        · with_reducible apply pulse_legal
          with_reducible assumption
        · with_reducible assumption
      · unfold t4
        with_reducible apply setLevel_legal
        with_reducible apply logForward_legal
        with_reducible apply logPut_legal
        with_reducible assumption
    · unfold t3
      with_reducible apply logLost_legal
      · refine legal_mk (legal_each ?_ ?_ ?_ ?_ ?_ ?_ ?_ ?_ ?_ ?_ ?_ ?_ ?_ ?_ ?_ ?_)
        · with_reducible refine @legal_variant vr qu _ ?_
          with_reducible assumption
        · with_reducible refine @legal_pending vr qu _ ?_
          with_reducible assumption
        · with_reducible refine @legal_dev vr qu _ ?_
          with_reducible assumption
        · with_reducible refine @legal_held vr qu _ ?_
          with_reducible assumption
        · with_reducible refine @legal_queue vr qu _ ?_
          with_reducible assumption
        · with_reducible refine @legal_sessions vr qu _ ?_
          with_reducible assumption
        · with_reducible refine @legal_spi vr qu _ ?_
          with_reducible assumption
        · with_reducible refine @legal_bb vr qu _ ?_
          with_reducible assumption
        · exact le_of_tail (by assumption) (legal_err hs)
        · with_reducible refine @legal_data vr qu _ ?_
          with_reducible assumption
        · with_reducible refine @legal_check vr qu _ ?_
          with_reducible assumption
        · with_reducible refine @legal_parity vr qu _ ?_
          with_reducible assumption
        · with_reducible refine @legal_pcheck vr qu _ ?_
          with_reducible assumption
        · with_reducible refine @legal_regs vr qu _ ?_
          with_reducible assumption
        · with_reducible refine @legal_perMaster vr qu _ ?_
          with_reducible assumption
        · with_reducible refine @legal_coaches vr qu _ ?_
          with_reducible assumption
      · exact lt_of_tail (by assumption) (legal_err hs)

theorem eccStatStore_legal {s : State} {m : ℕ} {v : W32} (hs : Kept vr qu s) : Kept vr qu (eccStatStore s m v) := by
  unfold eccStatStore
  extract_lets +onlyGivenNames t1
  extract_lets +onlyGivenNames t2
  extract_lets +onlyGivenNames t3
  extract_lets +onlyGivenNames t4
  extract_lets +onlyGivenNames t5
  refine (fun (ht5 : Kept vr qu t5) => ?_) ?_
  · clear_value t5
    with_reducible refine legal_ite (fun c6 => ?_) (fun c6 => ?_)
    · with_reducible apply conflictAt_legal
      dsimp only [t1]
      with_reducible apply setReg_legal
      with_reducible assumption
    · with_reducible refine legal_ite (fun c7 => ?_) (fun c7 => ?_)
      · with_reducible apply conflictAt_legal
        dsimp only [t1]
        with_reducible apply setReg_legal
        with_reducible assumption
      · dsimp only [t1]
        with_reducible apply setReg_legal
        with_reducible refine legal_ite (fun c8 => ?_) (fun c8 => ?_)
        · with_reducible apply setLevel_legal
          with_reducible assumption
        · with_reducible assumption
  · unfold t5
    with_reducible apply setRegF_legal
    with_reducible refine legal_mk (legal_parts ?_)
    with_reducible assumption

theorem injArmOp_legal {s : State} {m : ℕ} {v : W32} (hs : Kept vr qu s) : Kept vr qu (injArmOp s m v) := by
  unfold injArmOp
  with_reducible apply storePlain_legal
  with_reducible assumption

theorem memIgnore_legal {s : State} (hs : Kept vr qu s) : Kept vr qu (memIgnore s) := by
  unfold memIgnore
  extract_lets +onlyGivenNames t1
  with_reducible apply memFlag_legal
  with_reducible refine legal_mk (legal_parts ?_)
  with_reducible assumption

theorem lpStart_legal {s : State} {rd : Bool} (hs : Kept vr qu s) : Kept vr qu (lpStart s rd) := by
  unfold lpStart
  with_reducible refine legal_ite (fun c1 => ?_) (fun c1 => ?_)
  · with_reducible apply setRegB_legal
    with_reducible assumption
  · with_reducible refine legal_ite (fun c2 => ?_) (fun c2 => ?_)
    · with_reducible apply setRegB_legal
      with_reducible apply setRegB_legal
      with_reducible assumption
    · with_reducible assumption

theorem lpStore_legal {s : State} {m : ℕ} {a : ℕ} {v : W32} (hs : Kept vr qu s) : Kept vr qu (lpStore s m a v) := by
  unfold lpStore
  extract_lets +onlyGivenNames t1
  refine (fun (ht1 : Kept vr qu t1) => ?_) ?_
  · clear_value t1
    with_reducible refine legal_ite (fun c2 => ?_) (fun c2 => ?_)
    · with_reducible apply memIgnore_legal
      with_reducible assumption
    · with_reducible refine legal_ite (fun c3 => ?_) (fun c3 => ?_)
      · with_reducible assumption
      · with_reducible refine legal_ite (fun c4 => ?_) (fun c4 => ?_)
        · with_reducible apply lpStart_legal
          with_reducible assumption
        · with_reducible refine legal_ite (fun c5 => ?_) (fun c5 => ?_)
          · with_reducible apply lpStart_legal
            with_reducible assumption
          · with_reducible assumption
  · unfold t1
    with_reducible apply storePlain_legal
    with_reducible assumption

theorem lpWriteOp_legal {s : State} {m : ℕ} {v : W32} (hs : Kept vr qu s) : Kept vr qu (lpWriteOp s m v) := by
  unfold lpWriteOp
  with_reducible apply lpStore_legal
  with_reducible assumption

theorem lpReadOp_legal {s : State} {m : ℕ} {v : W32} (hs : Kept vr qu s) : Kept vr qu (lpReadOp s m v) := by
  unfold lpReadOp
  with_reducible refine legal_ite (fun c1 => ?_) (fun c1 => ?_)
  · with_reducible apply lpStore_legal
    with_reducible assumption
  · with_reducible assumption

theorem lpDoneOp_legal {s : State} (hs : Kept vr qu s) : Kept vr qu (lpDoneOp s) := by
  unfold lpDoneOp
  extract_lets +onlyGivenNames t1
  extract_lets +onlyGivenNames t2
  extract_lets +onlyGivenNames t3
  extract_lets +onlyGivenNames t4
  extract_lets +onlyGivenNames t5
  refine (fun (ht5 : KeptO vr qu t5) => ?_) ?_
  · clear_value t5
    extract_lets +onlyGivenNames t6
    refine (fun (ht6 : KeptO vr qu t6) => ?_) ?_
    · clear_value t6
      extract_lets +onlyGivenNames t7
      refine (fun (ht7 : Kept vr qu t7) => ?_) ?_
      · clear_value t7
        with_reducible refine legal_ite (fun c8 => ?_) (fun c8 => ?_)
        · with_reducible assumption
        · with_reducible apply setRegB_legal
          with_reducible apply setRegB_legal
          with_reducible assumption
      · unfold t7
        with_reducible refine legal_ite (fun c9 => ?_) (fun c9 => ?_)
        · with_reducible refine legal_foldl ?_ (fun u10 y10 hu10 => ?_)
          · refine legalO_out ?_
            with_reducible assumption
          · with_reducible apply setReg_legal
            with_reducible assumption
        · with_reducible apply setReg_legal
          refine legalO_out ?_
          with_reducible assumption
    · unfold t6
      with_reducible apply turnAccess_legal
      with_reducible assumption
  · unfold t5
    with_reducible apply turnAccess_legal
    with_reducible assumption

theorem regionStore_legal {s : State} {m : ℕ} {sup : Bool} {a : ℕ} {v : W32} (hs : Kept vr qu s) : Kept vr qu (regionStore s m sup a v) := by
  unfold regionStore
  extract_lets +onlyGivenNames t1
  extract_lets +onlyGivenNames t2
  extract_lets +onlyGivenNames t3
  refine (fun (ht3 : Kept vr qu t3) => ?_) ?_
  · clear_value t3
    with_reducible refine legal_ite (fun c4 => ?_) (fun c4 => ?_)
    · with_reducible assumption
    · with_reducible refine legal_ite (fun c5 => ?_) (fun c5 => ?_)
      · with_reducible refine legal_ite (fun c6 => ?_) (fun c6 => ?_)
        · with_reducible apply storePlain_legal
          with_reducible assumption
        · with_reducible apply memIgnore_legal
          with_reducible assumption
      · with_reducible refine legal_ite (fun c7 => ?_) (fun c7 => ?_)
        · with_reducible apply memIgnore_legal
          with_reducible assumption
        · with_reducible refine legal_ite (fun c8 => ?_) (fun c8 => ?_)
          · with_reducible apply storePlain_legal
            with_reducible assumption
          · with_reducible refine legal_ite (fun c9 => ?_) (fun c9 => ?_)
            · with_reducible assumption
            · with_reducible apply memIgnore_legal
              with_reducible assumption
  · unfold t3
    with_reducible apply storePlain_legal
    with_reducible assumption

theorem regionOp_legal {s : State} {m : ℕ} {sup : Bool} {a : ℕ} {v : W32} (hs : Kept vr qu s) : Kept vr qu (regionOp s m sup a v) := by
  unfold regionOp
  with_reducible refine legal_ite (fun c1 => ?_) (fun c1 => ?_)
  · with_reducible apply regionStore_legal
    with_reducible assumption
  · with_reducible assumption

theorem dctlStore_legal {s : State} {m : ℕ} {v : W32} (hs : Kept vr qu s) : Kept vr qu (dctlStore s m v) := by
  unfold dctlStore
  with_reducible refine legal_ite (fun c1 => ?_) (fun c1 => ?_)
  · with_reducible apply storePlain_legal
    with_reducible assumption
  · with_reducible apply memFlag_legal
    with_reducible assumption

theorem parkOp_legal {s : State} (hs : Kept vr qu s) : Kept vr qu (parkOp s) := by
  unfold parkOp
  extract_lets +onlyGivenNames t1
  with_reducible refine legal_ite (fun c2 => ?_) (fun c2 => ?_)
  · with_reducible refine legal_mk (legal_parts ?_)
    with_reducible assumption
  · with_reducible assumption

theorem parkedOp_legal {s : State} (hs : Kept vr qu s) : Kept vr qu (parkedOp s) := by
  unfold parkedOp
  extract_lets +onlyGivenNames t1
  with_reducible refine legal_ite (fun c2 => ?_) (fun c2 => ?_)
  · with_reducible apply setLevel_legal
    with_reducible apply setRegB_legal
    with_reducible refine legal_mk (legal_parts ?_)
    with_reducible assumption
  · with_reducible assumption

theorem unparkOp_legal {s : State} (hs : Kept vr qu s) : Kept vr qu (unparkOp s) := by
  unfold unparkOp
  with_reducible refine legal_ite (fun c1 => ?_) (fun c1 => ?_)
  · with_reducible apply setLevel_legal
    with_reducible apply setRegB_legal
    with_reducible assumption
  · with_reducible assumption

theorem execBankArbitration_legal {p : PortId} {s : State} (hs : Kept vr qu s) : ∀ u, execBankArbitration p s = .next u → Kept vr qu u := by
  unfold execBankArbitration
  apply legal_act
  with_reducible apply bankArbOp_legal
  with_reducible assumption

theorem execWriteOut_legal {p : PortId} {s : State} (hs : Kept vr qu s) : ∀ u, execWriteOut p s = .next u → Kept vr qu u := by
  unfold execWriteOut
  apply legal_act
  with_reducible apply writeOutOp_legal
  with_reducible assumption

theorem execCorrectionWriteBack_legal {kind : ℕ} {inst : ℕ} {bank : ℕ} {s : State} (hs : Kept vr qu s) : ∀ u, execCorrectionWriteBack kind inst bank s = .next u → Kept vr qu u := by
  unfold execCorrectionWriteBack
  apply legal_act
  with_reducible apply correctionOp_legal
  with_reducible assumption

theorem execRemap_legal {kind : ℕ} {inst : ℕ} {line : ℕ} {s : State} (hs : Kept vr qu s) : ∀ u, execRemap kind inst line s = .next u → Kept vr qu u := by
  unfold execRemap
  apply legal_act
  with_reducible apply remapOp_legal
  with_reducible assumption

theorem execScrubPageStart_legal {kind : ℕ} {inst : ℕ} {s : State} (hs : Kept vr qu s) : ∀ u, execScrubPageStart kind inst s = .next u → Kept vr qu u := by
  unfold execScrubPageStart
  apply legal_act
  with_reducible apply scrubStartOp_legal
  with_reducible assumption

theorem execScrubRead_legal {kind : ℕ} {inst : ℕ} {s : State} (hs : Kept vr qu s) : ∀ u, execScrubRead kind inst s = .next u → Kept vr qu u := by
  unfold execScrubRead
  apply legal_act
  with_reducible apply scrubReadOp_legal
  with_reducible assumption

theorem execMarchStart_legal {s : State} (hs : Kept vr qu s) : ∀ u, execMarchStart s = .next u → Kept vr qu u := by
  unfold execMarchStart
  apply legal_act
  with_reducible apply marchStartOp_legal
  with_reducible assumption

theorem execMarchRow_legal {failOp : ℕ} {s : State} (hs : Kept vr qu s) : ∀ u, execMarchRow failOp s = .next u → Kept vr qu u := by
  unfold execMarchRow
  apply legal_act
  with_reducible apply marchRowOp_legal
  with_reducible assumption

theorem execMarchComplete_legal {failing : List (ℕ × ℕ)} {s : State} (hs : Kept vr qu s) : ∀ u, execMarchComplete failing s = .next u → Kept vr qu u := by
  unfold execMarchComplete
  apply legal_act
  with_reducible apply marchEndOp_legal
  with_reducible assumption

theorem execFuseProgram_legal {s : State} (hs : Kept vr qu s) : ∀ u, execFuseProgram s = .next u → Kept vr qu u := by
  unfold execFuseProgram
  apply legal_act
  with_reducible apply fuseStartOp_legal
  with_reducible assumption

theorem execFuseEntryDone_legal {readbackOk : Bool} {s : State} (hs : Kept vr qu s) : ∀ u, execFuseEntryDone readbackOk s = .next u → Kept vr qu u := by
  unfold execFuseEntryDone
  apply legal_act
  with_reducible apply fuseEntryOp_legal
  with_reducible assumption

theorem execVppRemoved_legal {s : State} (hs : Kept vr qu s) : ∀ u, execVppRemoved s = .next u → Kept vr qu u := by
  unfold execVppRemoved
  apply legal_act
  with_reducible apply vppOp_legal
  with_reducible assumption

theorem execInjectionArm_legal {m : ℕ} {v : W32} {s : State} (hs : Kept vr qu s) : ∀ u, execInjectionArm m v s = .next u → Kept vr qu u := by
  unfold execInjectionArm
  apply legal_act
  with_reducible apply injArmOp_legal
  with_reducible assumption

theorem execLogWrite_legal {s : State} (hs : Kept vr qu s) : ∀ u, execLogWrite s = .next u → Kept vr qu u := by
  unfold execLogWrite
  apply legal_act
  with_reducible apply logWriteOp_legal
  with_reducible assumption

theorem execTailStore_legal {m : ℕ} {v : W32} {s : State} (hs : Kept vr qu s) : ∀ u, execTailStore m v s = .next u → Kept vr qu u := by
  unfold execTailStore
  apply legal_act
  with_reducible apply eccStatStore_legal
  with_reducible assumption

theorem execLoadPortWrite_legal {m : ℕ} {v : W32} {s : State} (hs : Kept vr qu s) : ∀ u, execLoadPortWrite m v s = .next u → Kept vr qu u := by
  unfold execLoadPortWrite
  apply legal_act
  with_reducible apply lpWriteOp_legal
  with_reducible assumption

theorem execLoadPortRead_legal {m : ℕ} {v : W32} {s : State} (hs : Kept vr qu s) : ∀ u, execLoadPortRead m v s = .next u → Kept vr qu u := by
  unfold execLoadPortRead
  apply legal_act
  with_reducible apply lpReadOp_legal
  with_reducible assumption

theorem execLoadPortDone_legal {s : State} (hs : Kept vr qu s) : ∀ u, execLoadPortDone s = .next u → Kept vr qu u := by
  unfold execLoadPortDone
  apply legal_act
  with_reducible apply lpDoneOp_legal
  with_reducible assumption

theorem execRegionWrite_legal {m : ℕ} {sup : Bool} {addr : ℕ} {v : W32} {s : State} (hs : Kept vr qu s) : ∀ u, execRegionWrite m sup addr v s = .next u → Kept vr qu u := by
  unfold execRegionWrite
  apply legal_act
  with_reducible apply regionOp_legal
  with_reducible assumption

theorem execDramPark_legal {s : State} (hs : Kept vr qu s) : ∀ u, execDramPark s = .next u → Kept vr qu u := by
  unfold execDramPark
  apply legal_act
  with_reducible apply parkOp_legal
  with_reducible assumption

theorem execParkComplete_legal {s : State} (hs : Kept vr qu s) : ∀ u, execParkComplete s = .next u → Kept vr qu u := by
  unfold execParkComplete
  apply legal_act
  with_reducible apply parkedOp_legal
  with_reducible assumption

theorem execDramUnpark_legal {s : State} (hs : Kept vr qu s) : ∀ u, execDramUnpark s = .next u → Kept vr qu u := by
  unfold execDramUnpark
  apply legal_act
  with_reducible apply unparkOp_legal
  with_reducible assumption

theorem execPendingRepairListStore_legal {s : State} (hs : Kept vr qu s) : ∀ u, execPendingRepairListStore s = .next u → Kept vr qu u := by
  unfold execPendingRepairListStore
  apply legal_act
  with_reducible apply pendStoreOp_legal
  with_reducible assumption

end Sys2Proof.Machine
end

