-- ==== Sys2Proof/Laws/LegalGate.lean ====
section
/-! SUPPORT. What every operation of Machine/Gate.lean does to a legal state: it leaves one. -/
namespace Sys2Proof.Machine
open Sys2Proof.Config
variable {vr : Config.Variant} {qu : List Instr}

theorem ssPush_legal {s : State} {c : ℕ} {k : Coach} {v : W32} (hs : Kept vr qu s) : Kept1 vr qu (ssPush s c k v) := by
  unfold ssPush
  with_reducible refine legal1_ite (fun c1 => ?_) (fun c1 => ?_)
  · refine legal1_mk ?_
    with_reducible assumption
  · refine legal1_mk ?_
    refine legalO_out ?_
    with_reducible apply coachNow_legal
    with_reducible assumption

theorem recRead_legal {s : State} {c : ℕ} {p : ℕ} {bad : Refused} (hs : Kept vr qu s) : Kept1 vr qu (recRead s c p bad) := by
  unfold recRead
  split
  · refine legal1_mk ?_
    with_reducible assumption
  · with_reducible refine legal1_foldl ?_ (fun u3 y3 hu3 => ?_)
    · refine legal1_mk ?_
      with_reducible assumption
    · extract_lets +onlyGivenNames t4
      refine (fun (ht4 : KeptO vr qu t4) => ?_) ?_
      · clear_value t4
        with_reducible refine legal1_ite (fun c5 => ?_) (fun c5 => ?_)
        · with_reducible assumption
        · with_reducible refine legal1_ite (fun c6 => ?_) (fun c6 => ?_)
          · refine legal1_mk ?_
            refine legalO_out ?_
            with_reducible assumption
          · refine legal1_mk ?_
            refine legalO_out ?_
            with_reducible assumption
      · unfold t4
        with_reducible apply coachNow_legal
        refine legal1_out ?_
        with_reducible assumption

theorem recWrite_legal {s : State} {c : ℕ} {p : ℕ} {l : List ℕ} (hs : Kept vr qu s) : Kept1 vr qu (recWrite s c p l) := by
  unfold recWrite
  with_reducible refine legal1_foldl ?_ (fun u2 y2 hu2 => ?_)
  · refine legal1_mk ?_
    with_reducible assumption
  · extract_lets +onlyGivenNames t3
    refine (fun (ht3 : KeptO vr qu t3) => ?_) ?_
    · clear_value t3
      with_reducible refine legal1_ite (fun c4 => ?_) (fun c4 => ?_)
      · with_reducible assumption
      · with_reducible refine legal1_ite (fun c5 => ?_) (fun c5 => ?_)
        · refine legal1_mk ?_
          refine legalO_out ?_
          with_reducible assumption
        · refine legal1_mk ?_
          refine legalO_out ?_
          with_reducible assumption
    · unfold t3
      with_reducible apply coachNow_legal
      refine legal1_out ?_
      with_reducible assumption

theorem gateReturn_legal {s : State} {c : ℕ} {k : Coach} (hs : Kept vr qu s) : KeptG vr qu (gateReturn s c k) := by
  unfold gateReturn
  extract_lets +onlyGivenNames t1
  extract_lets +onlyGivenNames t2
  extract_lets +onlyGivenNames t3
  refine (fun (ht3 : Kept1 vr qu t3) => ?_) ?_
  · clear_value t3
    extract_lets +onlyGivenNames t4
    extract_lets +onlyGivenNames t5
    extract_lets +onlyGivenNames t6
    extract_lets +onlyGivenNames t7
    extract_lets +onlyGivenNames t8
    refine (fun (ht8 : KeptG vr qu t8) => ?_) ?_
    · clear_value t8
      extract_lets +onlyGivenNames t9
      refine (fun (ht9 : KeptG vr qu t9) => ?_) ?_
      · clear_value t9
        extract_lets +onlyGivenNames t10
        refine (fun (ht10 : KeptG vr qu t10) => ?_) ?_
        · clear_value t10
          extract_lets +onlyGivenNames t11
          refine (fun (ht11 : KeptG vr qu t11) => ?_) ?_
          · clear_value t11
            extract_lets +onlyGivenNames t12
            extract_lets +onlyGivenNames t13
            extract_lets +onlyGivenNames t14
            with_reducible refine legalG_ite (fun c16 => ?_) (fun c16 => ?_)
            · dsimp only [t1]
              refine legalG_mk ?_
              with_reducible assumption
            · split
              · extract_lets +onlyGivenNames t18
                refine (fun (ht18 : KeptG vr qu t18) => ?_) ?_
                · clear_value t18
                  refine legalG_mk ?_
                  refine legal1_out ?_
                  with_reducible assumption
                · unfold t18
                  dsimp only [t1]
                  refine legalG_mk ?_
                  with_reducible assumption
              · with_reducible refine legalG_ite (fun c20 => ?_) (fun c20 => ?_)
                · refine legalG_mk ?_
                  refine legal1_out ?_
                  with_reducible assumption
                · with_reducible refine legalG_ite (fun c22 => ?_) (fun c22 => ?_)
                  · refine legalG_mk ?_
                    refine legal1_out ?_
                    with_reducible assumption
                  · with_reducible refine legalG_ite (fun c24 => ?_) (fun c24 => ?_)
                    · refine legalG_mk ?_
                      refine legal1_out ?_
                      with_reducible assumption
                    · split
                      · refine legalG_mk ?_
                        refine legal1_out ?_
                        with_reducible assumption
                      · extract_lets +onlyGivenNames t26
                        refine legalG_mk ?_
                        refine legal1_out ?_
                        with_reducible assumption
          · unfold t11
            dsimp only [t1]
            refine legalG_mk ?_
            with_reducible assumption
        · unfold t10
          dsimp only [t1]
          refine legalG_mk ?_
          with_reducible assumption
      · unfold t9
        dsimp only [t1]
        refine legalG_mk ?_
        with_reducible assumption
    · unfold t8
      dsimp only [t1]
      refine legalG_mk ?_
      with_reducible assumption
  · unfold t3
    with_reducible apply recRead_legal
    with_reducible assumption

theorem gateEntry_legal {s : State} {c : ℕ} {k : Coach} {ret : W32} (hs : Kept vr qu s) : KeptG vr qu (gateEntry s c k ret) := by
  unfold gateEntry
  extract_lets +onlyGivenNames t1
  extract_lets +onlyGivenNames t2
  extract_lets +onlyGivenNames t3
  extract_lets +onlyGivenNames t4
  with_reducible refine legalG_ite (fun c6 => ?_) (fun c6 => ?_)
  · dsimp only [t1]
    refine legalG_mk ?_
    with_reducible assumption
  · with_reducible refine legalG_ite (fun c8 => ?_) (fun c8 => ?_)
    · dsimp only [t1]
      refine legalG_mk ?_
      with_reducible assumption
    · with_reducible refine legalG_ite (fun c10 => ?_) (fun c10 => ?_)
      · dsimp only [t1]
        refine legalG_mk ?_
        with_reducible assumption
      · with_reducible refine legalG_ite (fun c12 => ?_) (fun c12 => ?_)
        · dsimp only [t1]
          refine legalG_mk ?_
          with_reducible assumption
        · split
          · dsimp only [t1]
            refine legalG_mk ?_
            with_reducible assumption
          · extract_lets +onlyGivenNames t14
            refine (fun (ht14 : Kept1 vr qu t14) => ?_) ?_
            · clear_value t14
              extract_lets +onlyGivenNames t15
              refine (fun (ht15 : Kept1 vr qu t15) => ?_) ?_
              · clear_value t15
                extract_lets +onlyGivenNames t16
                extract_lets +onlyGivenNames t17
                extract_lets +onlyGivenNames t18
                split
                · dsimp only [t1]
                  refine legalG_mk ?_
                  with_reducible assumption
                · with_reducible refine legalG_ite (fun c21 => ?_) (fun c21 => ?_)
                  · dsimp only [t1]
                    refine legalG_mk ?_
                    with_reducible assumption
                  · split
                    · extract_lets +onlyGivenNames t23
                      refine (fun (ht23 : KeptG vr qu t23) => ?_) ?_
                      · clear_value t23
                        refine legalG_mk ?_
                        refine legal1_out ?_
                        with_reducible assumption
                      · unfold t23
                        dsimp only [t1]
                        refine legalG_mk ?_
                        with_reducible assumption
                    · refine legalG_mk ?_
                      refine legal1_out ?_
                      with_reducible assumption
              · unfold t15
                with_reducible apply ssPush_legal
                refine legal1_out ?_
                with_reducible assumption
            · unfold t14
              with_reducible apply recWrite_legal
              with_reducible assumption

theorem gateKcall_legal {s : State} {c : ℕ} {k : Coach} {pc : ℕ} {a : ℕ} {nargs : ℕ} {rt0 : ℕ} {rt1 : ℕ} (hs : Kept vr qu s) : KeptG vr qu (gateKcall s c k pc a nargs rt0 rt1) := by
  unfold gateKcall
  extract_lets +onlyGivenNames t1
  extract_lets +onlyGivenNames t2
  extract_lets +onlyGivenNames t3
  with_reducible refine legalG_ite (fun c5 => ?_) (fun c5 => ?_)
  · dsimp only [t1]
    refine legalG_mk ?_
    with_reducible assumption
  · with_reducible refine legalG_ite (fun c7 => ?_) (fun c7 => ?_)
    · dsimp only [t1]
      refine legalG_mk ?_
      with_reducible assumption
    · with_reducible refine legalG_ite (fun c9 => ?_) (fun c9 => ?_)
      · dsimp only [t1]
        refine legalG_mk ?_
        with_reducible assumption
      · with_reducible refine legalG_ite (fun c11 => ?_) (fun c11 => ?_)
        · dsimp only [t1]
          refine legalG_mk ?_
          with_reducible assumption
        · with_reducible refine legalG_ite (fun c13 => ?_) (fun c13 => ?_)
          · dsimp only [t1]
            refine legalG_mk ?_
            with_reducible assumption
          · with_reducible refine legalG_ite (fun c15 => ?_) (fun c15 => ?_)
            · dsimp only [t1]
              refine legalG_mk ?_
              with_reducible assumption
            · split
              · dsimp only [t1]
                refine legalG_mk ?_
                with_reducible assumption
              · split
                · dsimp only [t1]
                  refine legalG_mk ?_
                  with_reducible assumption
                · split
                  · dsimp only [t1]
                    refine legalG_mk ?_
                    with_reducible assumption
                  · with_reducible refine legalG_ite (fun c20 => ?_) (fun c20 => ?_)
                    · dsimp only [t1]
                      refine legalG_mk ?_
                      with_reducible assumption
                    · split
                      · dsimp only [t1]
                        refine legalG_mk ?_
                        with_reducible assumption
                      · extract_lets +onlyGivenNames t22
                        refine (fun (ht22 : Kept1 vr qu t22) => ?_) ?_
                        · clear_value t22
                          extract_lets +onlyGivenNames t23
                          refine (fun (ht23 : Kept1 vr qu t23) => ?_) ?_
                          · clear_value t23
                            extract_lets +onlyGivenNames t24
                            extract_lets +onlyGivenNames t25
                            split
                            · extract_lets +onlyGivenNames t27
                              refine (fun (ht27 : KeptG vr qu t27) => ?_) ?_
                              · clear_value t27
                                refine legalG_mk ?_
                                refine legal1_out ?_
                                with_reducible assumption
                              · unfold t27
                                dsimp only [t1]
                                refine legalG_mk ?_
                                with_reducible assumption
                            · refine legalG_mk ?_
                              refine legal1_out ?_
                              with_reducible assumption
                          · unfold t23
                            with_reducible apply ssPush_legal
                            refine legal1_out ?_
                            with_reducible assumption
                        · unfold t22
                          with_reducible apply recWrite_legal
                          with_reducible assumption

theorem gateKret_legal {s : State} {c : ℕ} {k : Coach} {nres : ℕ} (hs : Kept vr qu s) : KeptG vr qu (gateKret s c k nres) := by
  unfold gateKret
  extract_lets +onlyGivenNames t1
  extract_lets +onlyGivenNames t2
  extract_lets +onlyGivenNames t3
  refine (fun (ht3 : Kept1 vr qu t3) => ?_) ?_
  · clear_value t3
    extract_lets +onlyGivenNames t4
    extract_lets +onlyGivenNames t5
    extract_lets +onlyGivenNames t6
    refine (fun (ht6 : KeptG vr qu t6) => ?_) ?_
    · clear_value t6
      extract_lets +onlyGivenNames t7
      refine (fun (ht7 : KeptG vr qu t7) => ?_) ?_
      · clear_value t7
        extract_lets +onlyGivenNames t8
        extract_lets +onlyGivenNames t9
        with_reducible refine legalG_ite (fun c11 => ?_) (fun c11 => ?_)
        · dsimp only [t1]
          refine legalG_mk ?_
          with_reducible assumption
        · with_reducible refine legalG_ite (fun c13 => ?_) (fun c13 => ?_)
          · dsimp only [t1]
            refine legalG_mk ?_
            with_reducible assumption
          · with_reducible refine legalG_ite (fun c15 => ?_) (fun c15 => ?_)
            · dsimp only [t1]
              refine legalG_mk ?_
              with_reducible assumption
            · split
              · extract_lets +onlyGivenNames t17
                refine (fun (ht17 : KeptG vr qu t17) => ?_) ?_
                · clear_value t17
                  refine legalG_mk ?_
                  refine legal1_out ?_
                  with_reducible assumption
                · unfold t17
                  dsimp only [t1]
                  refine legalG_mk ?_
                  with_reducible assumption
              · with_reducible refine legalG_ite (fun c19 => ?_) (fun c19 => ?_)
                · refine legalG_mk ?_
                  refine legal1_out ?_
                  with_reducible assumption
                · split
                  · extract_lets +onlyGivenNames t21
                    refine (fun (ht21 : KeptG vr qu t21) => ?_) ?_
                    · clear_value t21
                      refine legalG_mk ?_
                      refine legal1_out ?_
                      with_reducible assumption
                    · unfold t21
                      dsimp only [t1]
                      refine legalG_mk ?_
                      with_reducible assumption
                  · split
                    · extract_lets +onlyGivenNames t23
                      refine (fun (ht23 : KeptG vr qu t23) => ?_) ?_
                      · clear_value t23
                        refine legalG_mk ?_
                        refine legal1_out ?_
                        with_reducible assumption
                      · unfold t23
                        dsimp only [t1]
                        refine legalG_mk ?_
                        with_reducible assumption
                    · split
                      · refine legalG_mk ?_
                        refine legal1_out ?_
                        with_reducible assumption
                      · refine legalG_mk ?_
                        refine legal1_out ?_
                        with_reducible assumption
      · unfold t7
        dsimp only [t1]
        refine legalG_mk ?_
        with_reducible assumption
    · unfold t6
      dsimp only [t1]
      refine legalG_mk ?_
      with_reducible assumption
  · unfold t3
    with_reducible apply recRead_legal
    with_reducible assumption

end Sys2Proof.Machine
end

