-- ==== Sys2Proof/Laws/LegalIssue.lean ====
section
/-! SUPPORT. What every operation of Machine/Issue.lean does to a legal state: it leaves one. -/
namespace Sys2Proof.Machine
open Sys2Proof.Config
variable {vr : Config.Variant} {qu : List Instr}

theorem flowOf_legal {s : State} {c : ℕ} {k : Coach} {off : Bool} {noEnd : Bool} {d : Decoded} {seq : W32} {o : Option Op} (hs : Kept vr qu s) : Kept1 vr qu (flowOf s c k off noEnd d seq o) := by
  unfold flowOf
  extract_lets +onlyGivenNames t1
  extract_lets +onlyGivenNames t2
  extract_lets +onlyGivenNames t3
  extract_lets +onlyGivenNames t4
  extract_lets +onlyGivenNames t5
  extract_lets +onlyGivenNames t6
  refine (fun (ht6 : Kept1 vr qu t6) => ?_) ?_
  · clear_value t6
    extract_lets +onlyGivenNames t7
    extract_lets +onlyGivenNames t8
    split
    · extract_lets +onlyGivenNames t10
      extract_lets +onlyGivenNames t11
      extract_lets +onlyGivenNames t12
      extract_lets +onlyGivenNames t13
      extract_lets +onlyGivenNames t14
      extract_lets +onlyGivenNames t15
      with_reducible refine legal1_ite (fun c16 => ?_) (fun c16 => ?_)
      · refine legal1_mk ?_
        with_reducible assumption
      · with_reducible refine legal1_ite (fun c17 => ?_) (fun c17 => ?_)
        · refine legal1_mk ?_
          with_reducible assumption
        · with_reducible refine legal1_ite (fun c18 => ?_) (fun c18 => ?_)
          · refine legal1_mk ?_
            with_reducible assumption
          · refine legal1_mk ?_
            with_reducible assumption
    · refine legal1_mk ?_
      with_reducible assumption
    · refine legal1_mk ?_
      refine legal1_out ?_
      with_reducible assumption
    · refine legal1_mk ?_
      refine legal1_out ?_
      with_reducible assumption
    · extract_lets +onlyGivenNames t19
      with_reducible refine legal1_ite (fun c20 => ?_) (fun c20 => ?_)
      · refine legal1_mk ?_
        with_reducible assumption
      · split
        · refine legal1_mk ?_
          with_reducible assumption
        · refine legal1_mk ?_
          with_reducible assumption
    · refine legal1_mk ?_
      with_reducible assumption
    · refine legal1_mk ?_
      with_reducible assumption
    · refine legal1_mk ?_
      with_reducible assumption
    · extract_lets +onlyGivenNames t21
      refine legal1_mk ?_
      with_reducible assumption
    · refine legal1_mk ?_
      with_reducible assumption
    · refine legal1_mk ?_
      with_reducible assumption
  · unfold t6
    with_reducible apply ssPush_legal
    with_reducible assumption

theorem serveNow_legal {s : State} {c : ℕ} {a : Access} (hs : Kept vr qu s) : Kept vr qu (serveNow s c a) := by
  unfold serveNow
  extract_lets +onlyGivenNames t1
  split
  · extract_lets +onlyGivenNames t3
    refine (fun (ht3 : KeptO vr qu t3) => ?_) ?_
    · clear_value t3
      with_reducible apply answerAccess_legal
      refine legalO_out ?_
      with_reducible assumption
    · unfold t3
      with_reducible apply bankAccess_legal
      with_reducible assumption
  · with_reducible refine legal_ite (fun c4 => ?_) (fun c4 => ?_)
    · with_reducible apply answerAccess_legal
      with_reducible assumption
    · with_reducible apply answerAccess_legal
      with_reducible apply setCo_legal
      with_reducible assumption
  · with_reducible assumption

theorem sendAccess_legal {s : State} {c : ℕ} {a : Access} (hs : Kept vr qu s) : Kept vr qu (sendAccess s c a) := by
  unfold sendAccess
  split
  · extract_lets +onlyGivenNames t2
    with_reducible apply setReqs_legal
    with_reducible assumption
  · with_reducible assumption

theorem fencedNote_legal {s : State} {c : ℕ} {accs : List Access} (hs : Kept vr qu s) : Kept vr qu (fencedNote s c accs) := by
  unfold fencedNote
  extract_lets +onlyGivenNames t1
  extract_lets +onlyGivenNames t2
  with_reducible refine legal_ite (fun c3 => ?_) (fun c3 => ?_)
  · with_reducible refine legal_mk (legal_parts ?_)
    with_reducible assumption
  · with_reducible assumption

theorem finishGate_legal {s : State} {c : ℕ} {k : Coach} {n : Coach} {ent : Bool} {ret : W32} {st : ℕ} (hs : Kept vr qu s) : Kept vr qu (finishGate s c k n ent ret st) := by
  unfold finishGate
  extract_lets +onlyGivenNames t1
  extract_lets +onlyGivenNames t2
  refine (fun (ht2 : KeptG vr qu t2) => ?_) ?_
  · clear_value t2
    extract_lets +onlyGivenNames t3
    split
    · with_reducible apply setCo_legal
      with_reducible refine legal_ite (fun c4 => ?_) (fun c4 => ?_)
      · refine legalG_out ?_
        with_reducible assumption
      · with_reducible assumption
    · with_reducible apply setCo_legal
      refine legalG_out ?_
      with_reducible assumption
  · unfold t2
    with_reducible refine legalG_ite (fun c5 => ?_) (fun c5 => ?_)
    · with_reducible apply gateEntry_legal
      with_reducible apply setCo_legal
      with_reducible assumption
    · with_reducible apply gateReturn_legal
      with_reducible apply setCo_legal
      with_reducible assumption

theorem serveHeld_legal {s : State} {c : ℕ} (hs : Kept vr qu s) : Kept vr qu (serveHeld s c) := by
  unfold serveHeld
  extract_lets +onlyGivenNames t1
  extract_lets +onlyGivenNames t2
  extract_lets +onlyGivenNames t3
  with_reducible refine legal_ite (fun c4 => ?_) (fun c4 => ?_)
  · with_reducible refine legal_foldl ?_ (fun u5 y5 hu5 => ?_)
    · with_reducible assumption
    · with_reducible refine legal_ite (fun c6 => ?_) (fun c6 => ?_)
      · with_reducible apply serveNow_legal
        with_reducible assumption
      · with_reducible refine legal_ite (fun c7 => ?_) (fun c7 => ?_)
        · with_reducible assumption
        · with_reducible apply sendAccess_legal
          with_reducible assumption
  · with_reducible assumption

theorem finishBundle_legal {s0 : State} {c : ℕ} {st : ℕ} (hs : Kept vr qu s0) : Kept vr qu (finishBundle s0 c st) := by
  unfold finishBundle
  extract_lets +onlyGivenNames t1
  refine (fun (ht1 : Kept vr qu t1) => ?_) ?_
  · clear_value t1
    extract_lets +onlyGivenNames t2
    extract_lets +onlyGivenNames t3
    extract_lets +onlyGivenNames t4
    extract_lets +onlyGivenNames t5
    extract_lets +onlyGivenNames t6
    extract_lets +onlyGivenNames t7
    split
    · with_reducible assumption
    · extract_lets +onlyGivenNames t9
      extract_lets +onlyGivenNames t10
      extract_lets +onlyGivenNames t11
      extract_lets +onlyGivenNames t12
      with_reducible refine legal_ite (fun c14 => ?_) (fun c14 => ?_)
      · with_reducible assumption
      · split
        · clear_value t3
          split
          · extract_lets +onlyGivenNames t17
            extract_lets +onlyGivenNames t18
            with_reducible apply setCo_legal
            with_reducible assumption
          · with_reducible apply finishGate_legal
            with_reducible assumption
        · clear_value t3
          split
          · extract_lets +onlyGivenNames t20
            extract_lets +onlyGivenNames t21
            with_reducible apply setCo_legal
            with_reducible assumption
          · with_reducible apply setCo_legal
            with_reducible assumption
  · unfold t1
    with_reducible apply serveHeld_legal
    with_reducible assumption

theorem fetchTouch_legal {s : State} {c : ℕ} {b : Bundle} {pc : ℕ} (hs : Kept vr qu s) : Kept vr qu (fetchTouch s c b pc) := by
  unfold fetchTouch
  with_reducible refine legal_ite (fun c2 => ?_) (fun c2 => ?_)
  · with_reducible assumption
  · with_reducible refine legal_foldl ?_ (fun u4 y4 hu4 => ?_)
    · with_reducible assumption
    · extract_lets +onlyGivenNames t5
      extract_lets +onlyGivenNames t6
      extract_lets +onlyGivenNames t7
      extract_lets +onlyGivenNames t8
      with_reducible refine legal_ite (fun c9 => ?_) (fun c9 => ?_)
      · with_reducible assumption
      · with_reducible refine legal_ite (fun c10 => ?_) (fun c10 => ?_)
        · with_reducible apply corrected_legal
          with_reducible assumption
        · with_reducible refine legal_ite (fun c11 => ?_) (fun c11 => ?_)
          · with_reducible apply lineReport_legal
            with_reducible assumption
          · with_reducible refine legal_ite (fun c12 => ?_) (fun c12 => ?_)
            · with_reducible refine legal_mk (legal_parts ?_)
              with_reducible assumption
            · with_reducible assumption

theorem fetchLead_legal {s : State} {c : ℕ} {pc : ℕ} (hs : Kept vr qu s) : Kept vr qu (fetchLead s c pc) := by
  unfold fetchLead
  extract_lets +onlyGivenNames t1
  refine (fun (ht1 : Kept vr qu t1) => ?_) ?_
  · clear_value t1
    with_reducible refine legal_ite (fun c2 => ?_) (fun c2 => ?_)
    · with_reducible assumption
    · with_reducible refine legal_ite (fun c3 => ?_) (fun c3 => ?_)
      · with_reducible apply fetchFill_legal
        with_reducible assumption
      · with_reducible assumption
  · unfold t1
    with_reducible apply fetchFill_legal
    with_reducible assumption

theorem issueEret_legal {s : State} {c : ℕ} {k : Coach} {hold : Bool} (hs : Kept vr qu s) : Kept vr qu (issueEret s c k hold) := by
  unfold issueEret
  extract_lets +onlyGivenNames t1
  extract_lets +onlyGivenNames t2
  refine (fun (ht2 : Kept vr qu t2) => ?_) ?_
  · clear_value t2
    extract_lets +onlyGivenNames t3
    refine (fun (ht3 : Kept1 vr qu t3) => ?_) ?_
    · clear_value t3
      extract_lets +onlyGivenNames t4
      extract_lets +onlyGivenNames t5
      split
      · with_reducible apply setCo_legal
        refine legal1_out ?_
        with_reducible assumption
      · with_reducible apply setCo_legal
        refine legal1_out ?_
        with_reducible assumption
    · unfold t3
      with_reducible apply eretRead_legal
      with_reducible assumption
  · unfold t2
    with_reducible apply setCo_legal
    with_reducible assumption

theorem issueChecked_legal {s : State} {c : ℕ} {k : Coach} {b : Bundle} (hs : Kept vr qu s) : Kept vr qu (issueChecked s c k b) := by
  unfold issueChecked
  extract_lets +onlyGivenNames t1
  extract_lets +onlyGivenNames t2
  extract_lets +onlyGivenNames t3
  extract_lets +onlyGivenNames t4
  extract_lets +onlyGivenNames t5
  extract_lets +onlyGivenNames t6
  extract_lets +onlyGivenNames t7
  extract_lets +onlyGivenNames t8
  extract_lets +onlyGivenNames t9
  extract_lets +onlyGivenNames t10
  extract_lets +onlyGivenNames t11
  extract_lets +onlyGivenNames t12
  extract_lets +onlyGivenNames t13
  refine (fun (ht13 : Kept1 vr qu t13) => ?_) ?_
  · clear_value t13
    extract_lets +onlyGivenNames t14
    extract_lets +onlyGivenNames t15
    split
    · extract_lets +onlyGivenNames t17
      with_reducible refine legal_ite (fun c18 => ?_) (fun c18 => ?_)
      · with_reducible apply setCo_legal
        with_reducible assumption
      · with_reducible apply setCo_legal
        with_reducible assumption
    · split
      · extract_lets +onlyGivenNames t20
        split
        · with_reducible apply setCo_legal
          with_reducible assumption
        · dsimp only [t11]
          with_reducible refine legal_ite (fun c21 => ?_) (fun c21 => ?_)
          · with_reducible apply finishBundle_legal
            with_reducible refine legal_foldl ?_ (fun u22 y22 hu22 => ?_)
            · with_reducible refine legal_foldl ?_ (fun u23 y23 hu23 => ?_)
              · with_reducible apply fencedNote_legal
                with_reducible apply setCo_legal
                with_reducible assumption
              · with_reducible apply serveNow_legal
                with_reducible assumption
            · with_reducible apply sendAccess_legal
              with_reducible assumption
          · with_reducible refine legal_foldl ?_ (fun u24 y24 hu24 => ?_)
            · with_reducible refine legal_foldl ?_ (fun u25 y25 hu25 => ?_)
              · with_reducible apply fencedNote_legal
                with_reducible apply setCo_legal
                with_reducible assumption
              · with_reducible apply serveNow_legal
                with_reducible assumption
            · with_reducible apply sendAccess_legal
              with_reducible assumption
      · dsimp only [t11]
        with_reducible refine legal_ite (fun c26 => ?_) (fun c26 => ?_)
        · with_reducible apply finishBundle_legal
          with_reducible refine legal_foldl ?_ (fun u27 y27 hu27 => ?_)
          · with_reducible refine legal_foldl ?_ (fun u28 y28 hu28 => ?_)
            · with_reducible apply fencedNote_legal
              with_reducible apply setCo_legal
              refine legal1_out ?_
              with_reducible assumption
            · with_reducible apply serveNow_legal
              with_reducible assumption
          · with_reducible apply sendAccess_legal
            with_reducible assumption
        · with_reducible refine legal_foldl ?_ (fun u29 y29 hu29 => ?_)
          · with_reducible refine legal_foldl ?_ (fun u30 y30 hu30 => ?_)
            · with_reducible apply fencedNote_legal
              with_reducible apply setCo_legal
              refine legal1_out ?_
              with_reducible assumption
            · with_reducible apply serveNow_legal
              with_reducible assumption
          · with_reducible apply sendAccess_legal
            with_reducible assumption
  · unfold t13
    with_reducible apply flowOf_legal
    with_reducible assumption

theorem issueOp_legal {s : State} {c : ℕ} (hs : Kept vr qu s) : Kept vr qu (issueOp s c) := by
  unfold issueOp
  extract_lets +onlyGivenNames t1
  extract_lets +onlyGivenNames t2
  extract_lets +onlyGivenNames t3
  refine (fun (ht3 : Kept vr qu t3) => ?_) ?_
  · clear_value t3
    extract_lets +onlyGivenNames t4
    extract_lets +onlyGivenNames t5
    extract_lets +onlyGivenNames t6
    refine (fun (ht6 : Kept vr qu t6) => ?_) ?_
    · clear_value t6
      extract_lets +onlyGivenNames t7
      extract_lets +onlyGivenNames t8
      extract_lets +onlyGivenNames t9
      with_reducible refine legal_ite (fun c10 => ?_) (fun c10 => ?_)
      · with_reducible assumption
      · split
        · with_reducible apply setCo_legal
          with_reducible assumption
        · with_reducible refine legal_ite (fun c11 => ?_) (fun c11 => ?_)
          · with_reducible apply setCo_legal
            with_reducible assumption
          · split
            · with_reducible apply setCo_legal
              with_reducible assumption
            · split
              · with_reducible apply setCo_legal
                with_reducible assumption
              · split
                · with_reducible apply setCo_legal
                  with_reducible assumption
                · split
                  · with_reducible apply setCo_legal
                    with_reducible assumption
                  · with_reducible refine legal_ite (fun c12 => ?_) (fun c12 => ?_)
                    · with_reducible apply issueEret_legal
                      with_reducible assumption
                    · with_reducible apply issueChecked_legal
                      with_reducible apply setCo_legal
                      with_reducible assumption
    · unfold t6
      with_reducible apply fetchTouch_legal
      with_reducible apply setCo_legal
      with_reducible assumption
  · unfold t3
    with_reducible refine legal_ite (fun c13 => ?_) (fun c13 => ?_)
    · with_reducible assumption
    · with_reducible apply fetchLead_legal
      with_reducible assumption

theorem landOp_legal {s : State} {c : ℕ} (hs : Kept vr qu s) : Kept vr qu (landOp s c) := by
  unfold landOp
  extract_lets +onlyGivenNames t1
  with_reducible refine legal_ite (fun c2 => ?_) (fun c2 => ?_)
  · with_reducible assumption
  · split
    · with_reducible assumption
    · with_reducible refine legal_ite (fun c3 => ?_) (fun c3 => ?_)
      · with_reducible apply setCo_legal
        with_reducible assumption
      · with_reducible refine legal_ite (fun c4 => ?_) (fun c4 => ?_)
        · with_reducible apply setCo_legal
          with_reducible assumption
        · with_reducible assumption

theorem trapOp_legal {s : State} {c : ℕ} (hs : Kept vr qu s) : Kept vr qu (trapOp s c) := by
  unfold trapOp
  extract_lets +onlyGivenNames t1
  extract_lets +onlyGivenNames t2
  with_reducible refine legal_ite (fun c3 => ?_) (fun c3 => ?_)
  · with_reducible assumption
  · split
    · with_reducible assumption
    · split
      · with_reducible apply setCo_legal
        with_reducible assumption
      · with_reducible assumption

end Sys2Proof.Machine
end

