-- ==== Sys2Proof/Laws/LegalLongOps.lean ====
section
/-! SUPPORT. What every operation of Machine/LongOps.lean does to a legal state: it leaves one. -/
namespace Sys2Proof.Machine
open Sys2Proof.Config
variable {vr : Config.Variant} {qu : List Instr}

theorem longAccess_legal {s : State} {c : ℕ} {kd : AccKind} {a : ℕ} {n : ℕ} {data : ℕ} (hs : Kept vr qu s) : Kept1 vr qu (longAccess s c kd a n data) := by
  unfold longAccess
  extract_lets +onlyGivenNames t1
  refine (fun (ht1 : KeptO vr qu t1) => ?_) ?_
  · clear_value t1
    split
    · refine legal1_mk ?_
      with_reducible assumption
    · with_reducible refine legal1_ite (fun c2 => ?_) (fun c2 => ?_)
      · refine legal1_mk ?_
        refine legalO_out ?_
        with_reducible assumption
      · refine legal1_mk ?_
        refine legalO_out ?_
        with_reducible assumption
  · unfold t1
    with_reducible apply coachNow_legal
    with_reducible assumption

theorem blkElem_legal {s : State} {c : ℕ} {l : LongOp} {more : Bool} (hs : Kept vr qu s) : Kept vr qu (blkElem s c l more) := by
  unfold blkElem
  extract_lets +onlyGivenNames t1
  extract_lets +onlyGivenNames t2
  extract_lets +onlyGivenNames t3
  extract_lets +onlyGivenNames t4
  extract_lets +onlyGivenNames t5
  refine (fun (ht5 : Kept1 vr qu t5) => ?_) ?_
  · clear_value t5
    extract_lets +onlyGivenNames t6
    refine (fun (ht6 : Kept1 vr qu t6) => ?_) ?_
    · clear_value t6
      extract_lets +onlyGivenNames t7
      split
      · with_reducible apply setCo_legal
        refine legal1_out ?_
        with_reducible assumption
      · split
        · with_reducible apply setCo_legal
          refine legal1_out ?_
          with_reducible assumption
        · with_reducible apply setCo_legal
          refine legal1_out ?_
          with_reducible assumption
    · unfold t6
      with_reducible apply longAccess_legal
      refine legal1_out ?_
      with_reducible assumption
  · unfold t5
    with_reducible refine legal1_ite (fun c8 => ?_) (fun c8 => ?_)
    · with_reducible apply longAccess_legal
      with_reducible assumption
    · refine legal1_mk ?_
      with_reducible assumption

theorem blkOp_legal {s : State} {c : ℕ} (hs : Kept vr qu s) : Kept vr qu (blkOp s c) := by
  unfold blkOp
  extract_lets +onlyGivenNames t1
  split
  · with_reducible assumption
  · with_reducible refine legal_ite (fun c2 => ?_) (fun c2 => ?_)
    · with_reducible assumption
    · with_reducible apply blkElem_legal
      with_reducible assumption

theorem blkFlush_legal {s : State} {c : ℕ} (hs : Kept vr qu s) : Kept vr qu (blkFlush s c) := by
  unfold blkFlush
  with_reducible refine legal_foldl ?_ (fun u1 y1 hu1 => ?_)
  · with_reducible assumption
  · split
    · with_reducible refine legal_ite (fun c2 => ?_) (fun c2 => ?_)
      · with_reducible apply blkElem_legal
        with_reducible assumption
      · with_reducible assumption
    · with_reducible assumption

theorem longLines_legal {c a : Nat} : ∀ {n : Nat} {s : State} {acc : Array Nat} (_ : Kept vr qu s), Kept1 vr qu (longLines c a n s acc)
  | 0, _, _, h => by
    unfold longLines
    exact legal1_mk h
  | n + 1, s, acc, h => by
    unfold longLines
    extract_lets +onlyGivenNames x r
    have hr : Kept vr qu r.1 := legal1_out (longAccess_legal h)
    split
    · exact legal1_mk hr
    · exact longLines_legal hr

theorem vfirbOp_legal {s : State} {c : ℕ} (hs : Kept vr qu s) : Kept vr qu (vfirbOp s c) := by
  unfold vfirbOp
  extract_lets +onlyGivenNames t1
  split
  · with_reducible assumption
  · extract_lets +onlyGivenNames t3
    extract_lets +onlyGivenNames t4
    extract_lets +onlyGivenNames t5
    extract_lets +onlyGivenNames t6
    extract_lets +onlyGivenNames t7
    extract_lets +onlyGivenNames t8
    extract_lets +onlyGivenNames t9
    extract_lets +onlyGivenNames t10
    extract_lets +onlyGivenNames t11
    extract_lets +onlyGivenNames t12
    refine (fun (ht12 : Kept1 vr qu t12) => ?_) ?_
    · clear_value t12
      extract_lets +onlyGivenNames t13
      refine (fun (ht13 : Kept1 vr qu t13) => ?_) ?_
      · clear_value t13
        extract_lets +onlyGivenNames t14
        extract_lets +onlyGivenNames t15
        extract_lets +onlyGivenNames t16
        extract_lets +onlyGivenNames t17
        extract_lets +onlyGivenNames t18
        refine (fun (ht18 : Kept1 vr qu t18) => ?_) ?_
        · clear_value t18
          extract_lets +onlyGivenNames t19
          extract_lets +onlyGivenNames t20
          with_reducible refine legal_ite (fun c21 => ?_) (fun c21 => ?_)
          · with_reducible assumption
          · split
            · with_reducible apply setCo_legal
              refine legal1_out ?_
              with_reducible assumption
            · split
              · with_reducible apply setCo_legal
                refine legal1_out ?_
                with_reducible assumption
              · split
                · with_reducible apply setCo_legal
                  refine legal1_out ?_
                  with_reducible assumption
                · with_reducible apply setCo_legal
                  refine legal1_out ?_
                  with_reducible assumption
        · unfold t18
          with_reducible apply longAccess_legal
          refine legal1_out ?_
          with_reducible assumption
      · unfold t13
        with_reducible apply longLines_legal
        refine legal1_out ?_
        with_reducible assumption
    · unfold t12
      with_reducible apply longLines_legal
      with_reducible assumption

end Sys2Proof.Machine
end

