-- ==== Sys2Proof/Laws/LegalCoach.lean ====
section
/-! SUPPORT. What every operation of Machine/Coach.lean does to a legal state: it leaves one. -/
namespace Sys2Proof.Machine
open Sys2Proof.Config
variable {vr : Config.Variant} {qu : List Instr}

theorem eventOp_legal {s : State} {c : ℕ} (hs : Kept vr qu s) : Kept vr qu (eventOp s c) := by
  unfold eventOp
  extract_lets +onlyGivenNames t1
  extract_lets +onlyGivenNames t2
  refine (fun (ht2 : Kept vr qu t2) => ?_) ?_
  · clear_value t2
    with_reducible refine legal_ite (fun c3 => ?_) (fun c3 => ?_)
    · with_reducible assumption
    · split
      · with_reducible apply setCo_legal
        with_reducible assumption
      · split
        · with_reducible apply setCo_legal
          with_reducible assumption
        · with_reducible apply setCo_legal
          with_reducible assumption
        · with_reducible refine legal_ite (fun c4 => ?_) (fun c4 => ?_)
          · with_reducible assumption
          · with_reducible apply setCo_legal
            with_reducible assumption
  · unfold t2
    with_reducible apply blkFlush_legal
    with_reducible apply setCo_legal
    with_reducible assumption

theorem holdOp_legal {s : State} {c : ℕ} (hs : Kept vr qu s) : Kept vr qu (holdOp s c) := by
  unfold holdOp
  extract_lets +onlyGivenNames t1
  with_reducible refine legal_ite (fun c2 => ?_) (fun c2 => ?_)
  · with_reducible assumption
  · with_reducible apply setCo_legal
    with_reducible assumption

theorem holdMaxOp_legal {s : State} {c : ℕ} (hs : Kept vr qu s) : Kept vr qu (holdMaxOp s c) := by
  unfold holdMaxOp
  extract_lets +onlyGivenNames t1
  refine (fun (ht1 : Kept vr qu t1) => ?_) ?_
  · clear_value t1
    with_reducible refine legal_ite (fun c2 => ?_) (fun c2 => ?_)
    · with_reducible refine legal_mk (legal_parts ?_)
      with_reducible assumption
    · with_reducible assumption
  · unfold t1
    with_reducible apply setCo_legal
    with_reducible assumption

theorem heartbeatOp_legal {s : State} {c : ℕ} (hs : Kept vr qu s) : Kept vr qu (heartbeatOp s c) := by
  unfold heartbeatOp
  extract_lets +onlyGivenNames t1
  with_reducible refine legal_ite (fun c2 => ?_) (fun c2 => ?_)
  · with_reducible refine legal_mk (legal_parts ?_)
    with_reducible assumption
  · with_reducible refine legal_ite (fun c3 => ?_) (fun c3 => ?_)
    · with_reducible apply setCo_legal
      with_reducible assumption
    · with_reducible assumption

theorem execBundleIssue_legal {c : ℕ} {s : State} (hs : Kept vr qu s) : ∀ u, execBundleIssue c s = .next u → Kept vr qu u := by
  unfold execBundleIssue
  apply legal_act
  with_reducible apply issueOp_legal
  with_reducible assumption

theorem execFetchDecode_legal {c : ℕ} {s : State} (hs : Kept vr qu s) : ∀ u, execFetchDecode c s = .next u → Kept vr qu u := by
  unfold execFetchDecode
  apply legal_act
  with_reducible apply fetchOp_legal
  with_reducible assumption

theorem execResultLands_legal {c : ℕ} {s : State} (hs : Kept vr qu s) : ∀ u, execResultLands c s = .next u → Kept vr qu u := by
  unfold execResultLands
  apply legal_act
  with_reducible apply landOp_legal
  with_reducible assumption

theorem execBlkElement_legal {c : ℕ} {s : State} (hs : Kept vr qu s) : ∀ u, execBlkElement c s = .next u → Kept vr qu u := by
  unfold execBlkElement
  apply legal_act
  with_reducible apply blkOp_legal
  with_reducible assumption

theorem execVfirbGroup_legal {c : ℕ} {s : State} (hs : Kept vr qu s) : ∀ u, execVfirbGroup c s = .next u → Kept vr qu u := by
  unfold execVfirbGroup
  apply legal_act
  with_reducible apply vfirbOp_legal
  with_reducible assumption

theorem execEventTaken_legal {c : ℕ} {s : State} (hs : Kept vr qu s) : ∀ u, execEventTaken c s = .next u → Kept vr qu u := by
  unfold execEventTaken
  apply legal_act
  with_reducible apply eventOp_legal
  with_reducible assumption

theorem execHoldOverrun_legal {c : ℕ} {s : State} (hs : Kept vr qu s) : ∀ u, execHoldOverrun c s = .next u → Kept vr qu u := by
  unfold execHoldOverrun
  apply legal_act
  with_reducible apply holdOp_legal
  with_reducible assumption

theorem execSubnormalTrap_legal {c : ℕ} {s : State} (hs : Kept vr qu s) : ∀ u, execSubnormalTrap c s = .next u → Kept vr qu u := by
  unfold execSubnormalTrap
  apply legal_act
  with_reducible apply trapOp_legal
  with_reducible assumption

theorem execExceptionEntry_legal {c : ℕ} {s : State} (hs : Kept vr qu s) : ∀ u, execExceptionEntry c s = .next u → Kept vr qu u := by
  unfold execExceptionEntry
  apply legal_act
  with_reducible apply entryOp_legal
  with_reducible assumption

theorem execHoldMaxRead_legal {c : ℕ} {s : State} (hs : Kept vr qu s) : ∀ u, execHoldMaxRead c s = .next u → Kept vr qu u := by
  unfold execHoldMaxRead
  apply legal_act
  with_reducible apply holdMaxOp_legal
  with_reducible assumption

theorem execHeartbeatStore_legal {c : ℕ} {s : State} (hs : Kept vr qu s) : ∀ u, execHeartbeatStore c s = .next u → Kept vr qu u := by
  unfold execHeartbeatStore
  apply legal_act
  with_reducible apply heartbeatOp_legal
  with_reducible assumption

end Sys2Proof.Machine
end

