-- ==== Sys2Proof/Laws/LegalCarts.lean ====
section
/-! SUPPORT. What every operation of Machine/Carts.lean does to a legal state: it leaves one. -/
namespace Sys2Proof.Machine
open Sys2Proof.Config
variable {vr : Config.Variant} {qu : List Instr}

theorem cartCount_legal {s : State} {v : ℕ} {i : ℕ} (hs : Kept vr qu s) : Kept vr qu (cartCount s v i) := by
  unfold cartCount
  extract_lets +onlyGivenNames t1
  with_reducible refine legal_mk (legal_parts ?_)
  with_reducible assumption

theorem setLive_legal {s : State} {v : ℕ} {b : Bool} (hs : Kept vr qu s) : Kept vr qu (setLive s v b) := by
  unfold setLive
  extract_lets +onlyGivenNames t1
  with_reducible refine legal_mk (legal_parts ?_)
  with_reducible assumption

theorem setQueue_legal {s : State} {n : ℕ} {q : List Job} (hs : Kept vr qu s) : Kept vr qu (setQueue s n q) := by
  unfold setQueue
  extract_lets +onlyGivenNames t1
  with_reducible refine legal_mk (legal_parts ?_)
  with_reducible assumption

theorem enqueue_legal {s : State} {n : ℕ} {j : Job} (hs : Kept vr qu s) : Kept vr qu (enqueue s n j) := by
  unfold enqueue
  with_reducible apply setQueue_legal
  with_reducible assumption

theorem dispPulse_legal {s : State} {n : ℕ} {i : ℕ} (hs : Kept vr qu s) : Kept vr qu (dispPulse s n i) := by
  unfold dispPulse
  with_reducible apply pulse_legal
  with_reducible assumption

theorem countMiss_legal {s : State} {v : ℕ} (hs : Kept vr qu s) : Kept vr qu (countMiss s v) := by
  unfold countMiss
  extract_lets +onlyGivenNames t1
  refine (fun (ht1 : Kept vr qu t1) => ?_) ?_
  · clear_value t1
    split
    · with_reducible apply dispPulse_legal
      with_reducible assumption
    · with_reducible assumption
  · unfold t1
    with_reducible apply cartCount_legal
    with_reducible assumption

theorem notifySucc_legal {s : State} {v : ℕ} {k : ℕ} {lost : Bool} (hs : Kept vr qu s) : Kept vr qu (notifySucc s v k lost) := by
  unfold notifySucc
  split
  · with_reducible assumption
  · extract_lets +onlyGivenNames t2
    with_reducible refine legal_foldl ?_ (fun u4 y4 hu4 => ?_)
    · with_reducible assumption
    · extract_lets +onlyGivenNames t5
      extract_lets +onlyGivenNames t6
      with_reducible refine legal_mk (legal_parts ?_)
      with_reducible assumption

theorem tellWagons_legal {s : State} {v : ℕ} {k : ℕ} {lost : Bool} (hs : Kept vr qu s) : Kept vr qu (tellWagons s v k lost) := by
  unfold tellWagons
  extract_lets +onlyGivenNames t1
  with_reducible refine legal_mk (legal_parts ?_)
  with_reducible assumption

theorem lostPeriod_legal {s : State} {v : ℕ} {k : ℕ} (hs : Kept vr qu s) : Kept vr qu (lostPeriod s v k) := by
  unfold lostPeriod
  extract_lets +onlyGivenNames t1
  extract_lets +onlyGivenNames t2
  with_reducible apply tellWagons_legal
  refine legal_mk (legal_each ?_ ?_ ?_ ?_ ?_ ?_ ?_ ?_ ?_ ?_ ?_ ?_ ?_ ?_ ?_ ?_)
  · with_reducible refine @legal_variant vr qu _ ?_
    with_reducible assumption
  · with_reducible refine @legal_pending vr qu _ ?_
    with_reducible assumption
  · with_reducible refine @legal_dev vr qu _ ?_
    with_reducible assumption
  · with_reducible refine @legal_held vr qu _ ?_
    with_reducible assumption
  · with_reducible refine @legal_queue vr qu _ ?_
    with_reducible assumption
  · with_reducible refine @legal_sessions vr qu _ ?_
    with_reducible assumption
  · with_reducible refine @legal_spi vr qu _ ?_
    with_reducible assumption
  · (split <;> exact @legal_bb vr qu _ (by assumption))
  · with_reducible refine @legal_err vr qu _ ?_
    with_reducible assumption
  · with_reducible refine @legal_data vr qu _ ?_
    with_reducible assumption
  · with_reducible refine @legal_check vr qu _ ?_
    with_reducible assumption
  · with_reducible refine @legal_parity vr qu _ ?_
    with_reducible assumption
  · with_reducible refine @legal_pcheck vr qu _ ?_
    with_reducible assumption
  · with_reducible refine @legal_regs vr qu _ ?_
    with_reducible assumption
  · with_reducible refine @legal_perMaster vr qu _ ?_
    with_reducible assumption
  · with_reducible refine @legal_coaches vr qu _ ?_
    with_reducible assumption

theorem releaseCart_legal {s : State} {v : ℕ} {k : ℕ} {rel : ℕ} {plost : Bool} (hs : Kept vr qu s) : Kept vr qu (releaseCart s v k rel plost) := by
  unfold releaseCart
  extract_lets +onlyGivenNames t1
  refine (fun (ht1 : Kept vr qu t1) => ?_) ?_
  · clear_value t1
    extract_lets +onlyGivenNames t2
    refine (fun (ht2 : Kept vr qu t2) => ?_) ?_
    · clear_value t2
      extract_lets +onlyGivenNames t3
      split
      · extract_lets +onlyGivenNames t5
        refine (fun (ht5 : Kept vr qu t5) => ?_) ?_
        · clear_value t5
          with_reducible refine legal_ite (fun c6 => ?_) (fun c6 => ?_)
          · with_reducible refine legal_ite (fun c7 => ?_) (fun c7 => ?_)
            · with_reducible assumption
            · with_reducible apply notifySucc_legal
              with_reducible assumption
          · split
            · with_reducible refine legal_ite (fun c8 => ?_) (fun c8 => ?_)
              · with_reducible assumption
              · with_reducible apply notifySucc_legal
                with_reducible assumption
            · with_reducible apply enqueue_legal
              with_reducible assumption
        · unfold t5
          with_reducible refine legal_ite (fun c9 => ?_) (fun c9 => ?_)
          · with_reducible refine legal_mk (legal_parts ?_)
            with_reducible assumption
          · with_reducible assumption
      · with_reducible assumption
    · unfold t2
      with_reducible apply setLive_legal
      with_reducible apply cartCount_legal
      with_reducible assumption
  · unfold t1
    with_reducible apply lostPeriod_legal
    with_reducible apply cartCount_legal
    with_reducible assumption

theorem graphOne_legal {s : State} {v : ℕ} (hs : Kept vr qu s) : Kept vr qu (graphOne s v) := by
  unfold graphOne
  extract_lets +onlyGivenNames t1
  split
  · with_reducible assumption
  · with_reducible apply releaseCart_legal
    with_reducible refine legal_mk (legal_parts ?_)
    with_reducible assumption

theorem timeRelOp_legal {s : State} {v : ℕ} (hs : Kept vr qu s) : Kept vr qu (timeRelOp s v) := by
  unfold timeRelOp
  extract_lets +onlyGivenNames t1
  extract_lets +onlyGivenNames t2
  split
  · extract_lets +onlyGivenNames t4
    with_reducible refine legal_ite (fun c5 => ?_) (fun c5 => ?_)
    · with_reducible apply releaseCart_legal
      with_reducible refine legal_mk (legal_parts ?_)
      with_reducible assumption
    · with_reducible assumption
  · with_reducible assumption

theorem mediaRoot_legal {s : State} {m : ℕ} {n : ℕ} {v : ℕ} (hs : Kept vr qu s) : Kept vr qu (mediaRoot s m n v) := by
  unfold mediaRoot
  extract_lets +onlyGivenNames t1
  split
  · with_reducible assumption
  · with_reducible refine legal_ite (fun c2 => ?_) (fun c2 => ?_)
    · with_reducible assumption
    · with_reducible refine legal_ite (fun c3 => ?_) (fun c3 => ?_)
      · with_reducible apply releaseCart_legal
        with_reducible assumption
      · with_reducible apply cartCount_legal
        with_reducible refine legal_mk (legal_parts ?_)
        with_reducible assumption

theorem mediaRelease_legal {s : State} {m : ℕ} {n : ℕ} (hs : Kept vr qu s) : Kept vr qu (mediaRelease s m n) := by
  unfold mediaRelease
  split
  · with_reducible refine legal_ite (fun c1 => ?_) (fun c1 => ?_)
    · with_reducible refine legal_foldl ?_ (fun u2 y2 hu2 => ?_)
      · with_reducible assumption
      · with_reducible apply mediaRoot_legal
        with_reducible assumption
    · with_reducible assumption
  · with_reducible assumption

theorem heldRelOp_legal {s : State} {v : ℕ} (hs : Kept vr qu s) : Kept vr qu (heldRelOp s v) := by
  unfold heldRelOp
  extract_lets +onlyGivenNames t1
  extract_lets +onlyGivenNames t2
  split
  · with_reducible assumption
  · with_reducible refine legal_ite (fun c3 => ?_) (fun c3 => ?_)
    · with_reducible assumption
    · with_reducible apply releaseCart_legal
      with_reducible refine legal_mk (legal_parts ?_)
      with_reducible assumption

theorem graphRelOp_legal {s : State} {v : ℕ} (hs : Kept vr qu s) : Kept vr qu (graphRelOp s v) := by
  unfold graphRelOp
  with_reducible refine legal_ite (fun c1 => ?_) (fun c1 => ?_)
  · with_reducible apply graphOne_legal
    with_reducible assumption
  · with_reducible assumption

theorem withdrawJobOp_legal {s : State} {v : ℕ} (hs : Kept vr qu s) : Kept vr qu (withdrawJobOp s v) := by
  unfold withdrawJobOp
  split
  · with_reducible assumption
  · split
    · with_reducible assumption
    · extract_lets +onlyGivenNames t3
      refine (fun (ht3 : Kept vr qu t3) => ?_) ?_
      · clear_value t3
        with_reducible apply notifySucc_legal
        with_reducible apply lostPeriod_legal
        with_reducible apply countMiss_legal
        with_reducible assumption
      · unfold t3
        with_reducible apply setLive_legal
        with_reducible apply setQueue_legal
        with_reducible assumption

theorem setRegion7_legal {s : State} {c : ℕ} {l : List W32} (hs : Kept vr qu s) : Kept vr qu (setRegion7 s c l) := by
  unfold setRegion7
  with_reducible refine legal_foldl ?_ (fun u1 y1 hu1 => ?_)
  · with_reducible assumption
  · with_reducible apply setReg_legal
    with_reducible assumption

theorem writeFrame_legal {s : State} {c : ℕ} {lvl : ℕ} (hs : Kept vr qu s) : Kept vr qu (writeFrame s c lvl) := by
  unfold writeFrame
  extract_lets +onlyGivenNames t1
  extract_lets +onlyGivenNames t2
  extract_lets +onlyGivenNames t3
  refine (fun (ht3 : Kept vr qu t3) => ?_) ?_
  · clear_value t3
    extract_lets +onlyGivenNames t4
    with_reducible refine legal_foldl ?_ (fun u5 y5 hu5 => ?_)
    · with_reducible assumption
    · refine legalO_out ?_
      with_reducible apply turnAccess_legal
      with_reducible assumption
  · unfold t3
    with_reducible apply setCo_legal
    with_reducible assumption

theorem loadJob_legal {s : State} {c : ℕ} {n : ℕ} {j : Job} (hs : Kept vr qu s) : Kept vr qu (loadJob s c n j) := by
  unfold loadJob
  extract_lets +onlyGivenNames t1
  extract_lets +onlyGivenNames t2
  extract_lets +onlyGivenNames t3
  extract_lets +onlyGivenNames t4
  extract_lets +onlyGivenNames t5
  split
  · with_reducible assumption
  · extract_lets +onlyGivenNames t7
    extract_lets +onlyGivenNames t8
    extract_lets +onlyGivenNames t9
    extract_lets +onlyGivenNames t10
    extract_lets +onlyGivenNames t11
    extract_lets +onlyGivenNames t12
    extract_lets +onlyGivenNames t13
    extract_lets +onlyGivenNames t14
    extract_lets +onlyGivenNames t15
    extract_lets +onlyGivenNames t16
    extract_lets +onlyGivenNames t17
    extract_lets +onlyGivenNames t18
    with_reducible apply setRegion7_legal
    with_reducible apply setCo_legal
    with_reducible assumption

theorem dispTime_legal {s : State} {c : ℕ} {n : ℕ} (hs : Kept vr qu s) : Kept vr qu (dispTime s c n) := by
  unfold dispTime
  extract_lets +onlyGivenNames t1
  with_reducible apply setCo_legal
  with_reducible assumption

theorem startOver_legal {s : State} {c : ℕ} {n : ℕ} {j : Job} (hs : Kept vr qu s) : Kept vr qu (startOver s c n j) := by
  unfold startOver
  extract_lets +onlyGivenNames t1
  extract_lets +onlyGivenNames t2
  extract_lets +onlyGivenNames t3
  refine (fun (ht3 : Kept vr qu t3) => ?_) ?_
  · clear_value t3
    extract_lets +onlyGivenNames t4
    with_reducible apply loadJob_legal
    with_reducible apply dispTime_legal
    with_reducible apply setCo_legal
    with_reducible assumption
  · unfold t3
    with_reducible apply writeFrame_legal
    with_reducible apply setCo_legal
    with_reducible assumption

theorem jobStartOp_legal {s : State} {c : ℕ} (hs : Kept vr qu s) : Kept vr qu (jobStartOp s c) := by
  unfold jobStartOp
  extract_lets +onlyGivenNames t1
  split
  · with_reducible assumption
  · split
    · with_reducible assumption
    · extract_lets +onlyGivenNames t4
      with_reducible refine legal_ite (fun c5 => ?_) (fun c5 => ?_)
      · with_reducible apply startOver_legal
        with_reducible apply setCo_legal
        with_reducible apply setQueue_legal
        with_reducible assumption
      · with_reducible assumption

theorem endJob_legal {s : State} {c : ℕ} {n : ℕ} {j : Job} {lostBit : Bool} (hs : Kept vr qu s) : Kept vr qu (endJob s c n j lostBit) := by
  unfold endJob
  extract_lets +onlyGivenNames t1
  extract_lets +onlyGivenNames t2
  extract_lets +onlyGivenNames t3
  extract_lets +onlyGivenNames t4
  extract_lets +onlyGivenNames t5
  extract_lets +onlyGivenNames t6
  refine (fun (ht6 : Kept vr qu t6) => ?_) ?_
  · clear_value t6
    extract_lets +onlyGivenNames t7
    refine (fun (ht7 : Kept vr qu t7) => ?_) ?_
    · clear_value t7
      extract_lets +onlyGivenNames t8
      refine (fun (ht8 : Kept vr qu t8) => ?_) ?_
      · clear_value t8
        extract_lets +onlyGivenNames t9
        refine (fun (ht9 : Kept vr qu t9) => ?_) ?_
        · clear_value t9
          extract_lets +onlyGivenNames t10
          refine (fun (ht10 : Kept vr qu t10) => ?_) ?_
          · clear_value t10
            extract_lets +onlyGivenNames t11
            refine (fun (ht11 : Kept vr qu t11) => ?_) ?_
            · clear_value t11
              extract_lets +onlyGivenNames t12
              refine (fun (ht12 : Kept vr qu t12) => ?_) ?_
              · clear_value t12
                extract_lets +onlyGivenNames t13
                split
                · with_reducible apply setCo_legal
                  with_reducible assumption
                · extract_lets +onlyGivenNames t15
                  extract_lets +onlyGivenNames t16
                  clear_value t15
                  split
                  · with_reducible apply loadJob_legal
                    with_reducible apply dispTime_legal
                    with_reducible apply setQueue_legal
                    with_reducible assumption
                  · with_reducible apply setRegion7_legal
                    with_reducible apply dispTime_legal
                    with_reducible apply setCo_legal
                    with_reducible assumption
              · unfold t12
                split
                · with_reducible refine legal_foldl ?_ (fun u17 y17 hu17 => ?_)
                  · with_reducible assumption
                  · with_reducible apply graphOne_legal
                    with_reducible assumption
                · with_reducible assumption
            · unfold t11
              with_reducible apply notifySucc_legal
              with_reducible assumption
          · unfold t10
            with_reducible refine legal_ite (fun c18 => ?_) (fun c18 => ?_)
            · with_reducible apply lostPeriod_legal
              with_reducible assumption
            · with_reducible apply tellWagons_legal
              with_reducible assumption
        · unfold t9
          with_reducible apply setLive_legal
          with_reducible assumption
      · unfold t8
        with_reducible refine legal_ite (fun c19 => ?_) (fun c19 => ?_)
        · with_reducible apply countMiss_legal
          with_reducible assumption
        · with_reducible assumption
    · unfold t7
      with_reducible apply cartCount_legal
      with_reducible assumption
  · unfold t6
    with_reducible apply dispTime_legal
    with_reducible apply setCo_legal
    with_reducible assumption

theorem jobEndOp_legal {s : State} {c : ℕ} (hs : Kept vr qu s) : Kept vr qu (jobEndOp s c) := by
  unfold jobEndOp
  extract_lets +onlyGivenNames t1
  split
  · with_reducible assumption
  · split
    · with_reducible refine legal_ite (fun c2 => ?_) (fun c2 => ?_)
      · with_reducible apply endJob_legal
        with_reducible apply setCo_legal
        with_reducible assumption
      · with_reducible assumption
    · with_reducible assumption

theorem overrunOp_legal {s : State} {c : ℕ} (hs : Kept vr qu s) : Kept vr qu (overrunOp s c) := by
  unfold overrunOp
  extract_lets +onlyGivenNames t1
  extract_lets +onlyGivenNames t2
  split
  · with_reducible refine legal_ite (fun c3 => ?_) (fun c3 => ?_)
    · with_reducible apply dispPulse_legal
      with_reducible apply cartCount_legal
      with_reducible apply setCo_legal
      with_reducible assumption
    · with_reducible assumption
  · with_reducible assumption

theorem graceOp_legal {s : State} {c : ℕ} (hs : Kept vr qu s) : Kept vr qu (graceOp s c) := by
  unfold graceOp
  extract_lets +onlyGivenNames t1
  split
  · with_reducible refine legal_ite (fun c2 => ?_) (fun c2 => ?_)
    · with_reducible apply endJob_legal
      with_reducible apply setCo_legal
      with_reducible assumption
    · with_reducible assumption
  · with_reducible assumption

theorem handoverOp_legal {s : State} {c : ℕ} (hs : Kept vr qu s) : Kept vr qu (handoverOp s c) := by
  unfold handoverOp
  extract_lets +onlyGivenNames t1
  extract_lets +onlyGivenNames t2
  with_reducible refine legal_ite (fun c4 => ?_) (fun c4 => ?_)
  · with_reducible assumption
  · split
    · with_reducible apply setCo_legal
      with_reducible assumption
    · extract_lets +onlyGivenNames t6
      extract_lets +onlyGivenNames t7
      extract_lets +onlyGivenNames t8
      extract_lets +onlyGivenNames t9
      extract_lets +onlyGivenNames t10
      refine (fun (ht10 : Kept vr qu t10) => ?_) ?_
      · clear_value t10
        extract_lets +onlyGivenNames t11
        with_reducible refine legal_ite (fun c12 => ?_) (fun c12 => ?_)
        · with_reducible apply dispPulse_legal
          with_reducible apply setLogi_legal
          with_reducible assumption
        · with_reducible refine legal_ite (fun c13 => ?_) (fun c13 => ?_)
          · with_reducible apply setLogi_legal
            with_reducible assumption
          · with_reducible assumption
      · unfold t10
        with_reducible apply setCo_legal
        with_reducible assumption

theorem waitBeatOp_legal {s : State} {c : ℕ} (hs : Kept vr qu s) : Kept vr qu (waitBeatOp s c) := by
  unfold waitBeatOp
  extract_lets +onlyGivenNames t1
  extract_lets +onlyGivenNames t2
  with_reducible refine legal_ite (fun c3 => ?_) (fun c3 => ?_)
  · with_reducible apply setCo_legal
    with_reducible assumption
  · with_reducible assumption

theorem discardJobs_legal {s : State} {c : ℕ} (hs : Kept vr qu s) : Kept vr qu (discardJobs s c) := by
  unfold discardJobs
  extract_lets +onlyGivenNames t1
  extract_lets +onlyGivenNames t2
  extract_lets +onlyGivenNames t3
  refine (fun (ht3 : Kept vr qu t3) => ?_) ?_
  · clear_value t3
    with_reducible refine legal_foldl ?_ (fun u4 y4 hu4 => ?_)
    · with_reducible assumption
    · with_reducible apply notifySucc_legal
      with_reducible apply lostPeriod_legal
      with_reducible apply setLive_legal
      with_reducible assumption
  · unfold t3
    with_reducible apply setCo_legal
    with_reducible assumption

theorem startOp_legal {s : State} {c : ℕ} (hs : Kept vr qu s) : Kept vr qu (startOp s c) := by
  unfold startOp
  extract_lets +onlyGivenNames t1
  refine (fun (ht1 : Kept vr qu t1) => ?_) ?_
  · clear_value t1
    with_reducible refine legal_ite (fun c3 => ?_) (fun c3 => ?_)
    · with_reducible assumption
    · split
      · extract_lets +onlyGivenNames t5
        with_reducible apply setLogi_legal
        with_reducible assumption
      · with_reducible assumption
  · unfold t1
    with_reducible apply startCoach_legal
    with_reducible apply discardJobs_legal
    with_reducible apply copyCrash_legal
    with_reducible assumption

theorem sampleOne_legal {s : State} {n : ℕ} (hs : Kept vr qu s) : Kept vr qu (sampleOne s n) := by
  unfold sampleOne
  extract_lets +onlyGivenNames t1
  split
  · with_reducible assumption
  · extract_lets +onlyGivenNames t3
    extract_lets +onlyGivenNames t4
    with_reducible refine legal_ite (fun c5 => ?_) (fun c5 => ?_)
    · with_reducible assumption
    · with_reducible refine legal_ite (fun c6 => ?_) (fun c6 => ?_)
      · with_reducible apply setLogi_legal
        with_reducible assumption
      · with_reducible refine legal_ite (fun c7 => ?_) (fun c7 => ?_)
        · with_reducible apply declareDead_legal
          with_reducible assumption
        · with_reducible assumption

theorem sampleOp_legal {s : State} (hs : Kept vr qu s) : Kept vr qu (sampleOp s) := by
  unfold sampleOp
  with_reducible refine legal_foldl ?_ (fun u1 y1 hu1 => ?_)
  · with_reducible assumption
  · with_reducible apply sampleOne_legal
    with_reducible assumption

theorem takeJob_legal {s : State} {n : ℕ} {c : ℕ} {h : ℕ} {cycles : ℕ} {j : Job} (hs : Kept vr qu s) : Kept vr qu (takeJob s n c h cycles j) := by
  unfold takeJob
  extract_lets +onlyGivenNames t1
  refine (fun (ht1 : Kept vr qu t1) => ?_) ?_
  · clear_value t1
    extract_lets +onlyGivenNames t2
    extract_lets +onlyGivenNames t3
    refine (fun (ht3 : Kept vr qu t3) => ?_) ?_
    · clear_value t3
      extract_lets +onlyGivenNames t4
      extract_lets +onlyGivenNames t5
      refine (fun (ht5 : Kept vr qu t5) => ?_) ?_
      · clear_value t5
        with_reducible apply startOver_legal
        with_reducible apply dispTime_legal
        with_reducible apply cartCount_legal
        with_reducible assumption
      · unfold t5
        with_reducible apply setLogi_legal
        with_reducible assumption
    · unfold t3
      with_reducible apply setLogi_legal
      with_reducible assumption
  · unfold t1
    with_reducible apply setQueue_legal
    with_reducible assumption

theorem hitchOp_legal {s : State} {n : ℕ} (hs : Kept vr qu s) : Kept vr qu (hitchOp s n) := by
  unfold hitchOp
  split
  · with_reducible assumption
  · split
    · with_reducible apply takeJob_legal
      with_reducible assumption
    · with_reducible assumption

theorem crossOp_legal {s : State} {n : ℕ} (hs : Kept vr qu s) : Kept vr qu (crossOp s n) := by
  unfold crossOp
  extract_lets +onlyGivenNames t1
  extract_lets +onlyGivenNames t2
  refine (fun (ht2 : Kept vr qu t2) => ?_) ?_
  · clear_value t2
    split
    · with_reducible assumption
    · with_reducible refine legal_ite (fun c3 => ?_) (fun c3 => ?_)
      · with_reducible assumption
      · split
        · with_reducible apply takeJob_legal
          with_reducible assumption
        · split
          · with_reducible apply takeJob_legal
            with_reducible assumption
          · with_reducible assumption
  · unfold t2
    with_reducible apply setLogi_legal
    with_reducible assumption

theorem execCoachStart_legal {c : ℕ} {s : State} (hs : Kept vr qu s) : ∀ u, execCoachStart c s = .next u → Kept vr qu u := by
  unfold execCoachStart
  apply legal_act
  with_reducible apply startOp_legal
  with_reducible assumption

theorem execHandoverWait_legal {c : ℕ} {s : State} (hs : Kept vr qu s) : ∀ u, execHandoverWait c s = .next u → Kept vr qu u := by
  unfold execHandoverWait
  apply legal_act
  with_reducible apply handoverOp_legal
  with_reducible assumption

theorem execWaitHeartbeat_legal {c : ℕ} {s : State} (hs : Kept vr qu s) : ∀ u, execWaitHeartbeat c s = .next u → Kept vr qu u := by
  unfold execWaitHeartbeat
  apply legal_act
  with_reducible apply waitBeatOp_legal
  with_reducible assumption

theorem execJobEnd_legal {c : ℕ} {s : State} (hs : Kept vr qu s) : ∀ u, execJobEnd c s = .next u → Kept vr qu u := by
  unfold execJobEnd
  apply legal_act
  with_reducible apply jobEndOp_legal
  with_reducible assumption

theorem execJobStart_legal {c : ℕ} {s : State} (hs : Kept vr qu s) : ∀ u, execJobStart c s = .next u → Kept vr qu u := by
  unfold execJobStart
  apply legal_act
  with_reducible apply jobStartOp_legal
  with_reducible assumption

theorem execTimeRelease_legal {cart : ℕ} {s : State} (hs : Kept vr qu s) : ∀ u, execTimeRelease cart s = .next u → Kept vr qu u := by
  unfold execTimeRelease
  apply legal_act
  with_reducible apply timeRelOp_legal
  with_reducible assumption

theorem execHeldRelease_legal {cart : ℕ} {s : State} (hs : Kept vr qu s) : ∀ u, execHeldRelease cart s = .next u → Kept vr qu u := by
  unfold execHeldRelease
  apply legal_act
  with_reducible apply heldRelOp_legal
  with_reducible assumption

theorem execGraphRelease_legal {cart : ℕ} {s : State} (hs : Kept vr qu s) : ∀ u, execGraphRelease cart s = .next u → Kept vr qu u := by
  unfold execGraphRelease
  apply legal_act
  with_reducible apply graphRelOp_legal
  with_reducible assumption

theorem execJobWithdrawn_legal {cart : ℕ} {s : State} (hs : Kept vr qu s) : ∀ u, execJobWithdrawn cart s = .next u → Kept vr qu u := by
  unfold execJobWithdrawn
  apply legal_act
  with_reducible apply withdrawJobOp_legal
  with_reducible assumption

theorem execBudgetOverrun_legal {c : ℕ} {s : State} (hs : Kept vr qu s) : ∀ u, execBudgetOverrun c s = .next u → Kept vr qu u := by
  unfold execBudgetOverrun
  apply legal_act
  with_reducible apply overrunOp_legal
  with_reducible assumption

theorem execGraceExpired_legal {c : ℕ} {s : State} (hs : Kept vr qu s) : ∀ u, execGraceExpired c s = .next u → Kept vr qu u := by
  unfold execGraceExpired
  apply legal_act
  with_reducible apply graceOp_legal
  with_reducible assumption

theorem execHitchSearch_legal {n : ℕ} {s : State} (hs : Kept vr qu s) : ∀ u, execHitchSearch n s = .next u → Kept vr qu u := by
  unfold execHitchSearch
  apply legal_act
  with_reducible apply hitchOp_legal
  with_reducible assumption

theorem execCrossClusterSearch_legal {n : ℕ} {s : State} (hs : Kept vr qu s) : ∀ u, execCrossClusterSearch n s = .next u → Kept vr qu u := by
  unfold execCrossClusterSearch
  apply legal_act
  with_reducible apply crossOp_legal
  with_reducible assumption

theorem execHeartbeatSample_legal {s : State} (hs : Kept vr qu s) : ∀ u, execHeartbeatSample s = .next u → Kept vr qu u := by
  unfold execHeartbeatSample
  apply legal_act
  with_reducible apply sampleOp_legal
  with_reducible assumption

end Sys2Proof.Machine
end

