-- ==== Sys2Proof/Laws/LegalStreams.lean ====
section
/-! SUPPORT. What every operation of Machine/Streams.lean does to a legal state: it leaves one. -/
namespace Sys2Proof.Machine
open Sys2Proof.Config
variable {vr : Config.Variant} {qu : List Instr}

theorem setClk_legal {s : State} {m : ℕ} {c : MediaClock} (hs : Kept vr qu s) : Kept vr qu (setClk s m c) := by
  unfold setClk
  extract_lets +onlyGivenNames t1
  with_reducible refine legal_mk (legal_parts ?_)
  with_reducible assumption

theorem setMcState_legal {s : State} {m : ℕ} {st : ℕ} (hs : Kept vr qu s) : Kept vr qu (setMcState s m st) := by
  unfold setMcState
  with_reducible refine legal_ite (fun c1 => ?_) (fun c1 => ?_)
  · with_reducible assumption
  · with_reducible apply pulse_legal
    with_reducible apply setRegF_legal
    with_reducible assumption

theorem setClamp_legal {s : State} {m : ℕ} {b : Bool} (hs : Kept vr qu s) : Kept vr qu (setClamp s m b) := by
  unfold setClamp
  with_reducible refine legal_ite (fun c1 => ?_) (fun c1 => ?_)
  · with_reducible assumption
  · with_reducible apply pulse_legal
    with_reducible apply setRegB_legal
    with_reducible assumption

theorem setCtxW_legal {s : State} {x : ℕ} {w : ℕ} {v : W32} (hs : Kept vr qu s) : Kept vr qu (setCtxW s x w v) := by
  unfold setCtxW
  extract_lets +onlyGivenNames t1
  with_reducible refine legal_mk (legal_parts ?_)
  with_reducible assumption

theorem setCtx_legal {s : State} {x : ℕ} {c : Ctx} (hs : Kept vr qu s) : Kept vr qu (setCtx s x c) := by
  unfold setCtx
  extract_lets +onlyGivenNames t1
  with_reducible refine legal_mk (legal_parts ?_)
  with_reducible assumption

theorem grantRegions_legal {s : State} {m : ℕ} {bits : ℕ} (hs : Kept vr qu s) : Kept vr qu (grantRegions s m bits) := by
  unfold grantRegions
  with_reducible refine legal_foldl ?_ (fun u2 y2 hu2 => ?_)
  · with_reducible assumption
  · extract_lets +onlyGivenNames t3
    with_reducible apply setRegF_legal
    with_reducible apply setReg_legal
    with_reducible apply setReg_legal
    with_reducible assumption

theorem ctxCount_legal {s : State} {x : ℕ} {k : ℕ} (hs : Kept vr qu s) : Kept vr qu (ctxCount s x k) := by
  unfold ctxCount
  extract_lets +onlyGivenNames t1
  with_reducible refine legal_mk (legal_parts ?_)
  with_reducible assumption

theorem engRead_legal {s : State} {m : ℕ} {a : ℕ} {n : ℕ} (hs : Kept vr qu s) : Kept1 vr qu (engRead s m a n) := by
  unfold engRead
  extract_lets +onlyGivenNames t1
  refine (fun (ht1 : KeptO vr qu t1) => ?_) ?_
  · clear_value t1
    with_reducible refine legal1_ite (fun c2 => ?_) (fun c2 => ?_)
    · refine legal1_mk ?_
      refine legalO_out ?_
      with_reducible assumption
    · refine legal1_mk ?_
      refine legalO_out ?_
      with_reducible assumption
  · unfold t1
    with_reducible apply devAccess_legal
    with_reducible assumption

theorem engWrite_legal {s : State} {m : ℕ} {a : ℕ} {n : ℕ} {data : ℕ} (hs : Kept vr qu s) : Kept vr qu (engWrite s m a n data) := by
  unfold engWrite
  refine legalO_out ?_
  with_reducible apply devAccess_legal
  with_reducible assumption

theorem engBytes_legal {s : State} {m : ℕ} {a : ℕ} {b : List (Option ℕ)} (hs : Kept vr qu s) : Kept vr qu (engBytes s m a b) := by
  unfold engBytes
  extract_lets +onlyGivenNames t1
  refine (fun (ht1 : Kept1 vr qu t1) => ?_) ?_
  · clear_value t1
    extract_lets +onlyGivenNames t2
    with_reducible apply engWrite_legal
    refine legal1_out ?_
    with_reducible assumption
  · unfold t1
    with_reducible refine legal1_ite (fun c3 => ?_) (fun c3 => ?_)
    · refine legal1_mk ?_
      with_reducible assumption
    · with_reducible apply engRead_legal
      with_reducible assumption

end Sys2Proof.Machine
end

