-- ==== Sys2Proof/Laws/LegalWagons.lean ====
section
/-! SUPPORT. What every operation of Machine/Wagons.lean does to a legal state: it leaves one. -/
namespace Sys2Proof.Machine
open Sys2Proof.Config
variable {vr : Config.Variant} {qu : List Instr}

theorem setWag_legal {s : State} {n : ℕ} {w : ℕ} {x : Wagon} (hs : Kept vr qu s) : Kept vr qu (setWag s n w x) := by
  unfold setWag
  extract_lets +onlyGivenNames t1
  with_reducible refine legal_mk (legal_parts ?_)
  with_reducible assumption

theorem stopWagons_legal {s : State} (hs : Kept vr qu s) : Kept vr qu (stopWagons s) := by
  unfold stopWagons
  extract_lets +onlyGivenNames t1
  with_reducible refine legal_mk (legal_parts ?_)
  with_reducible assumption

theorem wagStart_legal {s : State} {n : ℕ} {w : ℕ} (hs : Kept vr qu s) : Kept vr qu (wagStart s n w) := by
  unfold wagStart
  extract_lets +onlyGivenNames t1
  extract_lets +onlyGivenNames t2
  extract_lets +onlyGivenNames t3
  with_reducible apply setWag_legal
  with_reducible assumption

theorem concealBlock_legal {s : State} {n : ℕ} {w : ℕ} (hs : Kept vr qu s) : Kept vr qu (concealBlock s n w) := by
  unfold concealBlock
  extract_lets +onlyGivenNames t1
  extract_lets +onlyGivenNames t2
  refine (fun (ht2 : Kept vr qu t2) => ?_) ?_
  · clear_value t2
    with_reducible apply pulse_legal
    with_reducible apply setReg_legal
    with_reducible assumption
  · unfold t2
    with_reducible apply setWag_legal
    with_reducible assumption

theorem concealOp_legal {s : State} {n : ℕ} {w : ℕ} (hs : Kept vr qu s) : Kept vr qu (concealOp s n w) := by
  unfold concealOp
  extract_lets +onlyGivenNames t1
  extract_lets +onlyGivenNames t2
  with_reducible refine legal_ite (fun c3 => ?_) (fun c3 => ?_)
  · with_reducible apply concealBlock_legal
    with_reducible assumption
  · with_reducible assumption

theorem lateBlocks_legal {s : State} {n : ℕ} {w : ℕ} (hs : Kept vr qu s) : Kept vr qu (lateBlocks s n w) := by
  unfold lateBlocks
  extract_lets +onlyGivenNames t1
  extract_lets +onlyGivenNames t2
  extract_lets +onlyGivenNames t3
  extract_lets +onlyGivenNames t4
  refine (fun (ht4 : Kept vr qu t4) => ?_) ?_
  · clear_value t4
    with_reducible refine legal_ite (fun c5 => ?_) (fun c5 => ?_)
    · with_reducible assumption
    · with_reducible apply pulse_legal
      with_reducible apply setReg_legal
      with_reducible assumption
  · unfold t4
    with_reducible apply setWag_legal
    with_reducible assumption

theorem blockReadyOp_legal {s : State} {n : ℕ} {w : ℕ} (hs : Kept vr qu s) : Kept vr qu (blockReadyOp s n w) := by
  unfold blockReadyOp
  extract_lets +onlyGivenNames t1
  extract_lets +onlyGivenNames t2
  extract_lets +onlyGivenNames t3
  refine (fun (ht3 : Kept vr qu t3) => ?_) ?_
  · clear_value t3
    extract_lets +onlyGivenNames t4
    refine (fun (ht4 : Kept vr qu t4) => ?_) ?_
    · clear_value t4
      extract_lets +onlyGivenNames t5
      with_reducible refine legal_ite (fun c6 => ?_) (fun c6 => ?_)
      · with_reducible assumption
      · with_reducible refine legal_ite (fun c7 => ?_) (fun c7 => ?_)
        · with_reducible apply setWag_legal
          with_reducible assumption
        · with_reducible assumption
    · unfold t4
      with_reducible apply lateBlocks_legal
      with_reducible assumption
  · unfold t3
    with_reducible refine legal_ite (fun c8 => ?_) (fun c8 => ?_)
    · with_reducible apply concealBlock_legal
      with_reducible assumption
    · with_reducible assumption

theorem srcSample_legal {s : State} {n : ℕ} {d : Wag} {b : ℕ} {i : ℕ} {j : ℕ} (hs : Kept vr qu s) : Kept1 vr qu (srcSample s n d b i j) := by
  unfold srcSample
  extract_lets +onlyGivenNames t1
  extract_lets +onlyGivenNames t2
  extract_lets +onlyGivenNames t3
  extract_lets +onlyGivenNames t4
  split
  · refine legal1_mk ?_
    with_reducible assumption
  · extract_lets +onlyGivenNames t6
    refine (fun (ht6 : Kept1 vr qu t6) => ?_) ?_
    · clear_value t6
      extract_lets +onlyGivenNames t7
      extract_lets +onlyGivenNames t8
      extract_lets +onlyGivenNames t9
      refine (fun (ht9 : Kept1 vr qu t9) => ?_) ?_
      · clear_value t9
        extract_lets +onlyGivenNames t10
        refine (fun (ht10 : Kept1 vr qu t10) => ?_) ?_
        · clear_value t10
          extract_lets +onlyGivenNames t11
          refine (fun (ht11 : Kept1 vr qu t11) => ?_) ?_
          · clear_value t11
            split
            · refine legal1_mk ?_
              refine legal1_out ?_
              with_reducible assumption
            · refine legal1_mk ?_
              with_reducible assumption
            · refine legal1_mk ?_
              with_reducible assumption
            · split
              · refine legal1_mk ?_
                refine legal1_out ?_
                with_reducible assumption
              · refine legal1_mk ?_
                refine legal1_out ?_
                with_reducible assumption
              · refine legal1_mk ?_
                refine legal1_out ?_
                with_reducible assumption
            · refine legal1_mk ?_
              with_reducible assumption
          · unfold t11
            with_reducible apply engRead_legal
            with_reducible assumption
        · unfold t10
          with_reducible apply engRead_legal
          refine legal1_out ?_
          with_reducible assumption
      · unfold t9
        with_reducible apply engRead_legal
        with_reducible assumption
    · unfold t6
      with_reducible apply engRead_legal
      with_reducible assumption

theorem outSample_legal {s : State} {n : ℕ} {w : ℕ} {d : Wag} {i : ℕ} {j : ℕ} (hs : Kept vr qu s) : Kept1 vr qu (outSample s n w d i j) := by
  unfold outSample
  extract_lets +onlyGivenNames t1
  extract_lets +onlyGivenNames t2
  extract_lets +onlyGivenNames t3
  refine (fun (ht3 : Kept1 vr qu t3) => ?_) ?_
  · clear_value t3
    extract_lets +onlyGivenNames t4
    refine (fun (ht4 : Kept1 vr qu t4) => ?_) ?_
    · clear_value t4
      extract_lets +onlyGivenNames t5
      extract_lets +onlyGivenNames t6
      extract_lets +onlyGivenNames t7
      refine (fun (ht7 : Kept vr qu t7) => ?_) ?_
      · clear_value t7
        refine legal1_mk ?_
        with_reducible assumption
      · unfold t7
        with_reducible refine legal_ite (fun c8 => ?_) (fun c8 => ?_)
        · with_reducible apply setWag_legal
          refine legal1_out ?_
          with_reducible assumption
        · refine legal1_out ?_
          with_reducible assumption
    · unfold t4
      with_reducible refine legal1_ite (fun c9 => ?_) (fun c9 => ?_)
      · refine legal1_mk ?_
        with_reducible assumption
      · refine legal1_mk ?_
        refine legal1_out ?_
        with_reducible assumption
  · unfold t3
    with_reducible apply srcSample_legal
    with_reducible assumption

theorem gather_legal {n w : Nat} {d : Wag} : ∀ {l : List (Option (Nat × Nat))} {s : State} {acc : List (Option Nat)} (_ : Kept vr qu s),
    Kept1 vr qu (gather n w d l s acc)
  | [], _, _, h => by
    unfold gather
    exact legal1_mk h
  | none :: r, s, acc, h => by
    unfold gather
    exact gather_legal h
  | some e :: r, s, acc, h => by
    unfold gather
    exact gather_legal (legal1_out (outSample_legal h))

theorem ringLine_legal {s : State} {n : ℕ} {w : ℕ} {d : Wag} {l : ℕ} (hs : Kept vr qu s) : Kept vr qu (ringLine s n w d l) := by
  unfold ringLine
  extract_lets +onlyGivenNames t1
  extract_lets +onlyGivenNames t2
  extract_lets +onlyGivenNames t3
  extract_lets +onlyGivenNames t4
  extract_lets +onlyGivenNames t5
  extract_lets +onlyGivenNames t6
  refine (fun (ht6 : Kept1 vr qu t6) => ?_) ?_
  · clear_value t6
    with_reducible refine legal_ite (fun c7 => ?_) (fun c7 => ?_)
    · with_reducible apply engWrite_legal
      with_reducible assumption
    · with_reducible refine legal_ite (fun c8 => ?_) (fun c8 => ?_)
      · with_reducible apply engWrite_legal
        refine legal1_out ?_
        with_reducible assumption
      · with_reducible refine legal_foldl ?_ (fun u9 y9 hu9 => ?_)
        · refine legal1_out ?_
          with_reducible assumption
        · split
          · with_reducible apply engWrite_legal
            with_reducible assumption
          · with_reducible assumption
  · unfold t6
    with_reducible apply gather_legal
    with_reducible assumption

theorem portLine_legal {s : State} {n : ℕ} {w : ℕ} {d : Wag} {l : ℕ} (hs : Kept vr qu s) : Kept vr qu (portLine s n w d l) := by
  unfold portLine
  extract_lets +onlyGivenNames t1
  with_reducible refine legal_foldl ?_ (fun u3 y3 hu3 => ?_)
  · with_reducible assumption
  · extract_lets +onlyGivenNames t4
    extract_lets +onlyGivenNames t5
    refine (fun (ht5 : Kept1 vr qu t5) => ?_) ?_
    · clear_value t5
      extract_lets +onlyGivenNames t6
      extract_lets +onlyGivenNames t7
      extract_lets +onlyGivenNames t8
      refine (fun (ht8 : Kept vr qu t8) => ?_) ?_
      · clear_value t8
        extract_lets +onlyGivenNames t9
        with_reducible refine legal_ite (fun c10 => ?_) (fun c10 => ?_)
        · with_reducible refine legal_mk (legal_parts ?_)
          with_reducible assumption
        · with_reducible assumption
      · unfold t8
        refine legal1_out ?_
        with_reducible assumption
    · unfold t5
      with_reducible apply outSample_legal
      with_reducible assumption

theorem talkerLine_legal {s : State} {n : ℕ} {w : ℕ} {d : Wag} {l : ℕ} (hs : Kept vr qu s) : Kept vr qu (talkerLine s n w d l) := by
  unfold talkerLine
  extract_lets +onlyGivenNames t1
  extract_lets +onlyGivenNames t2
  extract_lets +onlyGivenNames t3
  extract_lets +onlyGivenNames t4
  extract_lets +onlyGivenNames t5
  extract_lets +onlyGivenNames t6
  extract_lets +onlyGivenNames t7
  extract_lets +onlyGivenNames t8
  extract_lets +onlyGivenNames t9
  extract_lets +onlyGivenNames t10
  refine (fun (ht10 : Kept1 vr qu t10) => ?_) ?_
  · clear_value t10
    with_reducible refine legal_ite (fun c12 => ?_) (fun c12 => ?_)
    · with_reducible apply engWrite_legal
      with_reducible assumption
    · with_reducible apply engBytes_legal
      refine legal1_out ?_
      with_reducible assumption
  · unfold t10
    with_reducible apply gather_legal
    with_reducible assumption

theorem asrcPush_legal {s : State} {u : ℕ} {c : ℕ} {v : W32} (hs : Kept vr qu s) : Kept vr qu (asrcPush s u c v) := by
  unfold asrcPush
  extract_lets +onlyGivenNames t1
  extract_lets +onlyGivenNames t2
  with_reducible refine legal_mk (legal_parts ?_)
  with_reducible assumption

theorem asrcLine_legal {s : State} {n : ℕ} {w : ℕ} {d : Wag} {l : ℕ} (hs : Kept vr qu s) : Kept vr qu (asrcLine s n w d l) := by
  unfold asrcLine
  with_reducible refine legal_foldl ?_ (fun u2 y2 hu2 => ?_)
  · with_reducible assumption
  · extract_lets +onlyGivenNames t3
    extract_lets +onlyGivenNames t4
    refine (fun (ht4 : Kept1 vr qu t4) => ?_) ?_
    · clear_value t4
      with_reducible refine legal_ite (fun c5 => ?_) (fun c5 => ?_)
      · with_reducible apply asrcPush_legal
        refine legal1_out ?_
        with_reducible assumption
      · with_reducible assumption
    · unfold t4
      with_reducible apply outSample_legal
      with_reducible assumption

theorem wagDone_legal {s : State} {n : ℕ} {w : ℕ} {d : Wag} (hs : Kept vr qu s) : Kept vr qu (wagDone s n w d) := by
  unfold wagDone
  extract_lets +onlyGivenNames t1
  extract_lets +onlyGivenNames t2
  refine (fun (ht2 : Kept vr qu t2) => ?_) ?_
  · clear_value t2
    extract_lets +onlyGivenNames t3
    extract_lets +onlyGivenNames t4
    refine (fun (ht4 : Kept vr qu t4) => ?_) ?_
    · clear_value t4
      extract_lets +onlyGivenNames t5
      with_reducible apply setWag_legal
      with_reducible assumption
    · unfold t4
      with_reducible refine legal_ite (fun c6 => ?_) (fun c6 => ?_)
      · with_reducible refine legal_mk (legal_parts ?_)
        with_reducible assumption
      · with_reducible assumption
  · unfold t2
    with_reducible apply setReg_legal
    with_reducible assumption

theorem wagBegin_legal {s : State} {n : ℕ} {w : ℕ} {d : Wag} (hs : Kept vr qu s) : Kept vr qu (wagBegin s n w d) := by
  unfold wagBegin
  extract_lets +onlyGivenNames t1
  with_reducible refine legal_ite (fun c2 => ?_) (fun c2 => ?_)
  · with_reducible assumption
  · with_reducible refine legal_ite (fun c3 => ?_) (fun c3 => ?_)
    · with_reducible apply setWag_legal
      with_reducible assumption
    · with_reducible refine legal_ite (fun c4 => ?_) (fun c4 => ?_)
      · with_reducible apply setWag_legal
        with_reducible assumption
      · with_reducible assumption

theorem lineMoveOp_legal {s : State} {n : ℕ} (hs : Kept vr qu s) : Kept vr qu (lineMoveOp s n) := by
  unfold lineMoveOp
  extract_lets +onlyGivenNames t1
  split
  · with_reducible assumption
  · extract_lets +onlyGivenNames t3
    extract_lets +onlyGivenNames t4
    refine (fun (ht4 : Kept vr qu t4) => ?_) ?_
    · clear_value t4
      extract_lets +onlyGivenNames t5
      extract_lets +onlyGivenNames t6
      refine (fun (ht6 : Kept vr qu t6) => ?_) ?_
      · clear_value t6
        extract_lets +onlyGivenNames t7
        extract_lets +onlyGivenNames t8
        refine (fun (ht8 : Kept vr qu t8) => ?_) ?_
        · clear_value t8
          with_reducible refine legal_ite (fun c9 => ?_) (fun c9 => ?_)
          · with_reducible apply wagDone_legal
            with_reducible assumption
          · with_reducible assumption
        · unfold t8
          with_reducible apply setWag_legal
          with_reducible assumption
      · unfold t6
        split
        · with_reducible apply ringLine_legal
          with_reducible assumption
        · with_reducible apply portLine_legal
          with_reducible assumption
        · with_reducible apply talkerLine_legal
          with_reducible assumption
        · with_reducible apply asrcLine_legal
          with_reducible assumption
    · unfold t4
      with_reducible apply wagBegin_legal
      with_reducible assumption

theorem listenerFeeds_legal {s : State} {d : Wag} (hs : Kept vr qu s) : Kept vr qu (listenerFeeds s d) := by
  unfold listenerFeeds
  with_reducible refine legal_ite (fun c1 => ?_) (fun c1 => ?_)
  · with_reducible apply setReg_legal
    with_reducible assumption
  · with_reducible assumption

theorem wagStore_legal {s : State} {m : ℕ} {n : ℕ} {w : ℕ} {i : ℕ} {v : W32} (hs : Kept vr qu s) : Kept vr qu (wagStore s m n w i v) := by
  unfold wagStore
  extract_lets +onlyGivenNames t1
  extract_lets +onlyGivenNames t2
  extract_lets +onlyGivenNames t3
  extract_lets +onlyGivenNames t4
  refine (fun (ht4 : Kept vr qu t4) => ?_) ?_
  · clear_value t4
    extract_lets +onlyGivenNames t5
    refine (fun (ht5 : Kept vr qu t5) => ?_) ?_
    · clear_value t5
      extract_lets +onlyGivenNames t6
      refine (fun (ht6 : Kept vr qu t6) => ?_) ?_
      · clear_value t6
        with_reducible refine legal_ite (fun c7 => ?_) (fun c7 => ?_)
        · with_reducible apply conflict_legal
          with_reducible assumption
        · with_reducible refine legal_ite (fun c8 => ?_) (fun c8 => ?_)
          · with_reducible refine legal_ite (fun c9 => ?_) (fun c9 => ?_)
            · with_reducible apply grantRegions_legal
              with_reducible assumption
            · with_reducible apply conflict_legal
              with_reducible assumption
          · with_reducible refine legal_ite (fun c10 => ?_) (fun c10 => ?_)
            · with_reducible refine legal_ite (fun c11 => ?_) (fun c11 => ?_)
              · with_reducible apply conflict_legal
                with_reducible assumption
              · with_reducible apply listenerFeeds_legal
                with_reducible apply wagStart_legal
                with_reducible apply setRegF_legal
                with_reducible assumption
            · with_reducible apply storePlain_legal
              with_reducible assumption
      · unfold t6
        with_reducible apply grantRegions_legal
        with_reducible assumption
    · unfold t5
      with_reducible apply storePlain_legal
      with_reducible assumption
  · unfold t4
    with_reducible apply setRegF_legal
    with_reducible apply storePlain_legal
    with_reducible assumption

theorem seStore_legal {s : State} {m : ℕ} {a : ℕ} {v : W32} (hs : Kept vr qu s) : Kept vr qu (seStore s m a v) := by
  unfold seStore
  extract_lets +onlyGivenNames t1
  extract_lets +onlyGivenNames t2
  with_reducible refine legal_ite (fun c3 => ?_) (fun c3 => ?_)
  · with_reducible apply wagStore_legal
    with_reducible assumption
  · with_reducible apply storePlain_legal
    with_reducible assumption

theorem execWagonEnable_legal {m : ℕ} {n : ℕ} {w : ℕ} {v : W32} {s : State} (hs : Kept vr qu s) : ∀ u, execWagonEnable m n w v s = .next u → Kept vr qu u := by
  unfold execWagonEnable
  apply legal_act
  with_reducible refine legal_ite (fun c1 => ?_) (fun c1 => ?_)
  · with_reducible apply wagStore_legal
    with_reducible assumption
  · with_reducible assumption

theorem execWagonDisable_legal {m : ℕ} {n : ℕ} {w : ℕ} {v : W32} {s : State} (hs : Kept vr qu s) : ∀ u, execWagonDisable m n w v s = .next u → Kept vr qu u := by
  unfold execWagonDisable
  apply legal_act
  with_reducible refine legal_ite (fun c1 => ?_) (fun c1 => ?_)
  · with_reducible apply wagStore_legal
    with_reducible assumption
  · with_reducible assumption

theorem execBlockReady_legal {n : ℕ} {w : ℕ} {s : State} (hs : Kept vr qu s) : ∀ u, execBlockReady n w s = .next u → Kept vr qu u := by
  unfold execBlockReady
  apply legal_act
  with_reducible apply blockReadyOp_legal
  with_reducible assumption

theorem execLineMove_legal {n : ℕ} {s : State} (hs : Kept vr qu s) : ∀ u, execLineMove n s = .next u → Kept vr qu u := by
  unfold execLineMove
  apply legal_act
  with_reducible apply lineMoveOp_legal
  with_reducible assumption

theorem execConcealment_legal {n : ℕ} {w : ℕ} {s : State} (hs : Kept vr qu s) : ∀ u, execConcealment n w s = .next u → Kept vr qu u := by
  unfold execConcealment
  apply legal_act
  with_reducible apply concealOp_legal
  with_reducible assumption

end Sys2Proof.Machine
end

