-- ==== Sys2Proof/Laws/LegalMedia.lean ====
section
/-! SUPPORT. What every operation of Machine/Media.lean does to a legal state: it leaves one. -/
namespace Sys2Proof.Machine
open Sys2Proof.Config
variable {vr : Config.Variant} {qu : List Instr}

theorem setRx_legal {s : State} {p : ℕ} {n : ℕ} {f : RxFrame} (hs : Kept vr qu s) : Kept vr qu (setRx s p n f) := by
  unfold setRx
  extract_lets +onlyGivenNames t1
  with_reducible refine legal_mk (legal_parts ?_)
  with_reducible assumption

theorem markAbsent_legal {s : State} {p : ℕ} {n : ℕ} (hs : Kept vr qu s) : Kept vr qu (markAbsent s p n) := by
  unfold markAbsent
  with_reducible apply setRx_legal
  with_reducible assumption

theorem setBegun_legal {s : State} {p : ℕ} {l : List ℕ} (hs : Kept vr qu s) : Kept vr qu (setBegun s p l) := by
  unfold setBegun
  extract_lets +onlyGivenNames t1
  with_reducible refine legal_mk (legal_parts ?_)
  with_reducible assumption

theorem setOut_legal {s : State} {p : ℕ} {slot : ℕ} {v : W32} (hs : Kept vr qu s) : Kept vr qu (setOut s p slot v) := by
  unfold setOut
  extract_lets +onlyGivenNames t1
  with_reducible refine legal_mk (legal_parts ?_)
  with_reducible assumption

theorem clearOut_legal {s : State} {p : ℕ} (hs : Kept vr qu s) : Kept vr qu (clearOut s p) := by
  unfold clearOut
  extract_lets +onlyGivenNames t1
  with_reducible refine legal_mk (legal_parts ?_)
  with_reducible assumption

theorem beginFrame_legal {s : State} {p : ℕ} {n : ℕ} (hs : Kept vr qu s) : Kept vr qu (beginFrame s p n) := by
  unfold beginFrame
  extract_lets +onlyGivenNames t1
  refine (fun (ht1 : Kept vr qu t1) => ?_) ?_
  · clear_value t1
    extract_lets +onlyGivenNames t2
    refine (fun (ht2 : Kept vr qu t2) => ?_) ?_
    · clear_value t2
      extract_lets +onlyGivenNames t3
      extract_lets +onlyGivenNames t4
      refine (fun (ht4 : Kept vr qu t4) => ?_) ?_
      · clear_value t4
        extract_lets +onlyGivenNames t5
        extract_lets +onlyGivenNames t6
        extract_lets +onlyGivenNames t7
        refine (fun (ht7 : Kept vr qu t7) => ?_) ?_
        · clear_value t7
          with_reducible refine legal_ite (fun c9 => ?_) (fun c9 => ?_)
          · with_reducible refine legal_ite (fun c11 => ?_) (fun c11 => ?_)
            · with_reducible assumption
            · with_reducible refine legal_foldl ?_ (fun u13 y13 hu13 => ?_)
              · with_reducible assumption
              · extract_lets +onlyGivenNames t14
                with_reducible apply setOut_legal
                with_reducible assumption
          · with_reducible refine legal_ite (fun c15 => ?_) (fun c15 => ?_)
            · with_reducible assumption
            · with_reducible apply pulse_legal
              with_reducible apply setRegF_legal
              with_reducible assumption
        · unfold t7
          with_reducible refine legal_foldl ?_ (fun u16 y16 hu16 => ?_)
          · with_reducible assumption
          · with_reducible apply setOut_legal
            with_reducible assumption
      · unfold t4
        with_reducible refine legal_mk (legal_parts ?_)
        with_reducible assumption
    · unfold t2
      with_reducible apply setBegun_legal
      with_reducible assumption
  · unfold t1
    with_reducible apply setRegB_legal
    with_reducible assumption

theorem frameSyncOp_legal {s : State} {p : ℕ} {far : Bool} {count : ℕ} (hs : Kept vr qu s) : Kept vr qu (frameSyncOp s p far count) := by
  unfold frameSyncOp
  extract_lets +onlyGivenNames t1
  extract_lets +onlyGivenNames t2
  extract_lets +onlyGivenNames t3
  extract_lets +onlyGivenNames t4
  extract_lets +onlyGivenNames t5
  extract_lets +onlyGivenNames t6
  refine (fun (ht6 : Kept vr qu t6) => ?_) ?_
  · clear_value t6
    with_reducible refine legal_ite (fun c7 => ?_) (fun c7 => ?_)
    · with_reducible assumption
    · with_reducible apply beginFrame_legal
      with_reducible refine legal_foldl ?_ (fun u8 y8 hu8 => ?_)
      · with_reducible assumption
      · with_reducible apply markAbsent_legal
        with_reducible assumption
  · unfold t6
    with_reducible refine legal_ite (fun c9 => ?_) (fun c9 => ?_)
    · with_reducible apply pulse_legal
      with_reducible apply setRegF_legal
      with_reducible assumption
    · with_reducible assumption

theorem capturedOp_legal {s : State} {p : ℕ} {samples : List W32} (hs : Kept vr qu s) : Kept vr qu (capturedOp s p samples) := by
  unfold capturedOp
  split
  · extract_lets +onlyGivenNames t2
    extract_lets +onlyGivenNames t3
    refine (fun (ht3 : Kept vr qu t3) => ?_) ?_
    · clear_value t3
      extract_lets +onlyGivenNames t4
      with_reducible refine legal_ite (fun c5 => ?_) (fun c5 => ?_)
      · with_reducible refine legal_mk (legal_parts ?_)
        with_reducible assumption
      · with_reducible assumption
    · unfold t3
      with_reducible apply setRx_legal
      with_reducible apply setBegun_legal
      with_reducible assumption
  · with_reducible assumption

theorem noclkOp_legal {s : State} {p : ℕ} (hs : Kept vr qu s) : Kept vr qu (noclkOp s p) := by
  unfold noclkOp
  with_reducible refine legal_ite (fun c1 => ?_) (fun c1 => ?_)
  · with_reducible apply setLevel_legal
    with_reducible apply setRegB_legal
    with_reducible apply setRegB_legal
    with_reducible apply clearOut_legal
    with_reducible apply setBegun_legal
    with_reducible assumption
  · with_reducible assumption

theorem bclkOp_legal {s : State} {p : ℕ} (hs : Kept vr qu s) : Kept vr qu (bclkOp s p) := by
  unfold bclkOp
  with_reducible refine legal_ite (fun c1 => ?_) (fun c1 => ?_)
  · with_reducible apply setLevel_legal
    with_reducible apply setRegB_legal
    with_reducible assumption
  · with_reducible assumption

theorem portEdge_legal {s : State} {k : ℕ} {n : ℕ} {p : ℕ} (hs : Kept vr qu s) : Kept vr qu (portEdge s k n p) := by
  unfold portEdge
  with_reducible refine legal_ite (fun c1 => ?_) (fun c1 => ?_)
  · with_reducible assumption
  · with_reducible refine legal_ite (fun c2 => ?_) (fun c2 => ?_)
    · with_reducible apply beginFrame_legal
      with_reducible assumption
    · with_reducible refine legal_ite (fun c3 => ?_) (fun c3 => ?_)
      · with_reducible apply markAbsent_legal
        with_reducible assumption
      · with_reducible assumption

theorem edgeOp_legal {s : State} {k : ℕ} (hs : Kept vr qu s) : Kept vr qu (edgeOp s k) := by
  unfold edgeOp
  extract_lets +onlyGivenNames t1
  extract_lets +onlyGivenNames t2
  extract_lets +onlyGivenNames t3
  extract_lets +onlyGivenNames t4
  refine (fun (ht4 : Kept vr qu t4) => ?_) ?_
  · clear_value t4
    extract_lets +onlyGivenNames t5
    refine (fun (ht5 : Kept vr qu t5) => ?_) ?_
    · clear_value t5
      extract_lets +onlyGivenNames t6
      extract_lets +onlyGivenNames t7
      refine (fun (ht7 : Kept vr qu t7) => ?_) ?_
      · clear_value t7
        extract_lets +onlyGivenNames t8
        refine (fun (ht8 : Kept vr qu t8) => ?_) ?_
        · clear_value t8
          with_reducible refine legal_ite (fun c9 => ?_) (fun c9 => ?_)
          · with_reducible assumption
          · with_reducible apply mediaRelease_legal
            with_reducible assumption
        · unfold t8
          with_reducible refine legal_foldl ?_ (fun u10 y10 hu10 => ?_)
          · with_reducible assumption
          · with_reducible apply portEdge_legal
            with_reducible assumption
      · unfold t7
        with_reducible refine legal_mk (legal_parts ?_)
        with_reducible assumption
    · unfold t5
      with_reducible apply setClk_legal
      with_reducible assumption
  · unfold t4
    with_reducible apply setClamp_legal
    with_reducible assumption

theorem refLost_legal {s : State} {k : ℕ} (hs : Kept vr qu s) : Kept vr qu (refLost s k) := by
  unfold refLost
  with_reducible refine legal_ite (fun c1 => ?_) (fun c1 => ?_)
  · with_reducible apply setClamp_legal
    with_reducible apply setMcState_legal
    with_reducible apply setRegF_legal
    with_reducible assumption
  · with_reducible assumption

theorem refReturn_legal {s : State} {k : ℕ} (hs : Kept vr qu s) : Kept vr qu (refReturn s k) := by
  unfold refReturn
  extract_lets +onlyGivenNames t1
  with_reducible refine legal_ite (fun c2 => ?_) (fun c2 => ?_)
  · with_reducible apply setMcState_legal
    with_reducible apply setClk_legal
    with_reducible assumption
  · with_reducible assumption

theorem lockOp_legal {s : State} {k : ℕ} (hs : Kept vr qu s) : Kept vr qu (lockOp s k) := by
  unfold lockOp
  with_reducible refine legal_ite (fun c1 => ?_) (fun c1 => ?_)
  · with_reducible apply setMcState_legal
    with_reducible assumption
  · with_reducible assumption

theorem mcStart_legal {s : State} {k : ℕ} (hs : Kept vr qu s) : Kept vr qu (mcStart s k) := by
  unfold mcStart
  extract_lets +onlyGivenNames t1
  extract_lets +onlyGivenNames t2
  refine (fun (ht2 : Kept vr qu t2) => ?_) ?_
  · clear_value t2
    extract_lets +onlyGivenNames t3
    refine (fun (ht3 : Kept vr qu t3) => ?_) ?_
    · clear_value t3
      extract_lets +onlyGivenNames t4
      refine (fun (ht4 : Kept vr qu t4) => ?_) ?_
      · clear_value t4
        extract_lets +onlyGivenNames t5
        refine (fun (ht5 : Kept vr qu t5) => ?_) ?_
        · clear_value t5
          with_reducible apply setMcState_legal
          with_reducible assumption
        · unfold t5
          with_reducible refine legal_foldl ?_ (fun u7 y7 hu7 => ?_)
          · with_reducible assumption
          · extract_lets +onlyGivenNames t8
            with_reducible refine legal_ite (fun c9 => ?_) (fun c9 => ?_)
            · with_reducible refine legal_mk (legal_parts ?_)
              with_reducible assumption
            · with_reducible assumption
      · unfold t4
        with_reducible refine legal_foldl ?_ (fun u11 y11 hu11 => ?_)
        · with_reducible assumption
        · extract_lets +onlyGivenNames t12
          with_reducible refine legal_ite (fun c13 => ?_) (fun c13 => ?_)
          · with_reducible apply setCtx_legal
            with_reducible assumption
          · with_reducible assumption
    · unfold t3
      with_reducible apply setRegF_legal
      with_reducible assumption
  · unfold t2
    with_reducible apply setClk_legal
    with_reducible assumption

theorem mcStore_legal {s : State} {m : ℕ} {k : ℕ} {v : W32} (hs : Kept vr qu s) : Kept vr qu (mcStore s m k v) := by
  unfold mcStore
  extract_lets +onlyGivenNames t1
  extract_lets +onlyGivenNames t2
  extract_lets +onlyGivenNames t3
  refine (fun (ht3 : Kept vr qu t3) => ?_) ?_
  · clear_value t3
    with_reducible refine legal_ite (fun c4 => ?_) (fun c4 => ?_)
    · with_reducible apply conflict_legal
      with_reducible assumption
    · with_reducible refine legal_ite (fun c5 => ?_) (fun c5 => ?_)
      · with_reducible refine legal_ite (fun c6 => ?_) (fun c6 => ?_)
        · with_reducible apply conflict_legal
          with_reducible assumption
        · with_reducible refine legal_ite (fun c7 => ?_) (fun c7 => ?_)
          · with_reducible assumption
          · with_reducible refine legal_ite (fun c8 => ?_) (fun c8 => ?_)
            · with_reducible apply conflict_legal
              with_reducible assumption
            · with_reducible apply setClamp_legal
              with_reducible apply setMcState_legal
              with_reducible apply storePlain_legal
              with_reducible assumption
      · with_reducible refine legal_ite (fun c9 => ?_) (fun c9 => ?_)
        · with_reducible apply conflict_legal
          with_reducible assumption
        · with_reducible refine legal_ite (fun c10 => ?_) (fun c10 => ?_)
          · with_reducible apply mcStart_legal
            with_reducible assumption
          · with_reducible assumption
  · unfold t3
    with_reducible apply storePlain_legal
    with_reducible assumption

theorem apCtlStore_legal {s : State} {m : ℕ} {p : ℕ} {v : W32} (hs : Kept vr qu s) : Kept vr qu (apCtlStore s m p v) := by
  unfold apCtlStore
  extract_lets +onlyGivenNames t1
  extract_lets +onlyGivenNames t2
  extract_lets +onlyGivenNames t3
  refine (fun (ht3 : Kept vr qu t3) => ?_) ?_
  · clear_value t3
    extract_lets +onlyGivenNames t4
    extract_lets +onlyGivenNames t5
    refine (fun (ht5 : Kept vr qu t5) => ?_) ?_
    · clear_value t5
      with_reducible refine legal_ite (fun c6 => ?_) (fun c6 => ?_)
      · with_reducible apply conflict_legal
        with_reducible assumption
      · with_reducible refine legal_ite (fun c7 => ?_) (fun c7 => ?_)
        · with_reducible refine legal_ite (fun c8 => ?_) (fun c8 => ?_)
          · with_reducible apply conflict_legal
            with_reducible assumption
          · with_reducible refine legal_ite (fun c9 => ?_) (fun c9 => ?_)
            · with_reducible assumption
            · with_reducible refine legal_ite (fun c10 => ?_) (fun c10 => ?_)
              · with_reducible apply conflict_legal
                with_reducible assumption
              · with_reducible apply setLevel_legal
                with_reducible apply setRegF_legal
                with_reducible assumption
        · with_reducible refine legal_ite (fun c11 => ?_) (fun c11 => ?_)
          · with_reducible apply conflict_legal
            with_reducible assumption
          · with_reducible apply storePlain_legal
            with_reducible assumption
    · unfold t5
      with_reducible refine legal_mk (legal_parts ?_)
      with_reducible assumption
  · unfold t3
    with_reducible apply clearOut_legal
    with_reducible apply setBegun_legal
    with_reducible apply storePlain_legal
    with_reducible assumption

theorem apFmtStore_legal {s : State} {m : ℕ} {p : ℕ} {v : W32} (hs : Kept vr qu s) : Kept vr qu (apFmtStore s m p v) := by
  unfold apFmtStore
  extract_lets +onlyGivenNames t1
  extract_lets +onlyGivenNames t2
  refine (fun (ht2 : Kept vr qu t2) => ?_) ?_
  · clear_value t2
    with_reducible refine legal_ite (fun c3 => ?_) (fun c3 => ?_)
    · with_reducible apply conflict_legal
      with_reducible assumption
    · with_reducible refine legal_ite (fun c4 => ?_) (fun c4 => ?_)
      · with_reducible refine legal_ite (fun c5 => ?_) (fun c5 => ?_)
        · with_reducible assumption
        · with_reducible apply conflict_legal
          with_reducible assumption
      · with_reducible refine legal_ite (fun c6 => ?_) (fun c6 => ?_)
        · with_reducible apply conflict_legal
          with_reducible assumption
        · with_reducible assumption
  · unfold t2
    with_reducible apply storePlain_legal
    with_reducible assumption

theorem apEnStore_legal {s : State} {m : ℕ} {p : ℕ} {a : ℕ} {v : W32} (hs : Kept vr qu s) : Kept vr qu (apEnStore s m p a v) := by
  unfold apEnStore
  with_reducible refine legal_ite (fun c1 => ?_) (fun c1 => ?_)
  · with_reducible refine legal_ite (fun c2 => ?_) (fun c2 => ?_)
    · with_reducible assumption
    · with_reducible apply conflict_legal
      with_reducible assumption
  · with_reducible apply storePlain_legal
    with_reducible assumption

theorem apStore_legal {s : State} {m : ℕ} {a : ℕ} {v : W32} (hs : Kept vr qu s) : Kept vr qu (apStore s m a v) := by
  unfold apStore
  extract_lets +onlyGivenNames t1
  split
  · with_reducible apply apCtlStore_legal
    with_reducible assumption
  · with_reducible apply apFmtStore_legal
    with_reducible assumption
  · with_reducible apply apEnStore_legal
    with_reducible assumption
  · with_reducible apply apEnStore_legal
    with_reducible assumption
  · with_reducible apply storePlain_legal
    with_reducible assumption

theorem pdmStore_legal {s : State} {m : ℕ} {i : ℕ} {v : W32} (hs : Kept vr qu s) : Kept vr qu (pdmStore s m i v) := by
  unfold pdmStore
  extract_lets +onlyGivenNames t1
  extract_lets +onlyGivenNames t2
  extract_lets +onlyGivenNames t3
  extract_lets +onlyGivenNames t4
  extract_lets +onlyGivenNames t5
  refine (fun (ht5 : Kept vr qu t5) => ?_) ?_
  · clear_value t5
    extract_lets +onlyGivenNames t6
    with_reducible refine legal_ite (fun c7 => ?_) (fun c7 => ?_)
    · with_reducible apply conflict_legal
      with_reducible assumption
    · with_reducible refine legal_ite (fun c8 => ?_) (fun c8 => ?_)
      · with_reducible apply conflict_legal
        with_reducible assumption
      · with_reducible refine legal_ite (fun c9 => ?_) (fun c9 => ?_)
        · with_reducible refine legal_mk (legal_parts ?_)
          with_reducible assumption
        · with_reducible assumption
  · unfold t5
    with_reducible apply setRegB_legal
    with_reducible apply storePlain_legal
    with_reducible assumption

theorem pdmRegStore_legal {s : State} {m : ℕ} {a : ℕ} {v : W32} (hs : Kept vr qu s) : Kept vr qu (pdmRegStore s m a v) := by
  unfold pdmRegStore
  with_reducible refine legal_ite (fun c1 => ?_) (fun c1 => ?_)
  · with_reducible apply pdmStore_legal
    with_reducible assumption
  · with_reducible apply storePlain_legal
    with_reducible assumption

theorem setAsLocked_legal {s : State} {u : ℕ} {b : Bool} (hs : Kept vr qu s) : Kept vr qu (setAsLocked s u b) := by
  unfold setAsLocked
  with_reducible apply setLevel_legal
  with_reducible apply setRegB_legal
  with_reducible assumption

theorem asCtlStore_legal {s : State} {m : ℕ} {u : ℕ} {v : W32} (hs : Kept vr qu s) : Kept vr qu (asCtlStore s m u v) := by
  unfold asCtlStore
  extract_lets +onlyGivenNames t1
  extract_lets +onlyGivenNames t2
  refine (fun (ht2 : Kept vr qu t2) => ?_) ?_
  · clear_value t2
    extract_lets +onlyGivenNames t3
    extract_lets +onlyGivenNames t4
    refine (fun (ht4 : Kept vr qu t4) => ?_) ?_
    · clear_value t4
      extract_lets +onlyGivenNames t5
      with_reducible refine legal_ite (fun c6 => ?_) (fun c6 => ?_)
      · with_reducible apply conflict_legal
        with_reducible assumption
      · with_reducible refine legal_ite (fun c7 => ?_) (fun c7 => ?_)
        · with_reducible refine legal_ite (fun c8 => ?_) (fun c8 => ?_)
          · with_reducible apply conflict_legal
            with_reducible assumption
          · with_reducible refine legal_mk (legal_parts ?_)
            with_reducible assumption
        · with_reducible refine legal_ite (fun c9 => ?_) (fun c9 => ?_)
          · with_reducible apply conflict_legal
            with_reducible assumption
          · with_reducible refine legal_ite (fun c10 => ?_) (fun c10 => ?_)
            · with_reducible refine legal_mk (legal_parts ?_)
              with_reducible assumption
            · with_reducible assumption
    · unfold t4
      with_reducible apply storePlain_legal
      with_reducible assumption
  · unfold t2
    with_reducible apply setAsLocked_legal
    with_reducible apply storePlain_legal
    with_reducible assumption

theorem asDelayStore_legal {s : State} {m : ℕ} {u : ℕ} {v : W32} (hs : Kept vr qu s) : Kept vr qu (asDelayStore s m u v) := by
  unfold asDelayStore
  extract_lets +onlyGivenNames t1
  with_reducible refine legal_ite (fun c2 => ?_) (fun c2 => ?_)
  · with_reducible apply conflict_legal
    with_reducible assumption
  · with_reducible apply storePlain_legal
    with_reducible assumption

theorem asStore_legal {s : State} {m : ℕ} {a : ℕ} {v : W32} (hs : Kept vr qu s) : Kept vr qu (asStore s m a v) := by
  unfold asStore
  extract_lets +onlyGivenNames t1
  extract_lets +onlyGivenNames t2
  with_reducible refine legal_ite (fun c3 => ?_) (fun c3 => ?_)
  · with_reducible apply storePlain_legal
    with_reducible assumption
  · split
    · with_reducible apply asCtlStore_legal
      with_reducible assumption
    · with_reducible apply asDelayStore_legal
      with_reducible assumption
    · with_reducible refine legal_ite (fun c4 => ?_) (fun c4 => ?_)
      · with_reducible apply conflict_legal
        with_reducible assumption
      · with_reducible apply storePlain_legal
        with_reducible assumption
    · with_reducible apply storePlain_legal
      with_reducible assumption

theorem asBlockOp_legal {s : State} {u : ℕ} (hs : Kept vr qu s) : Kept vr qu (asBlockOp s u) := by
  unfold asBlockOp
  extract_lets +onlyGivenNames t1
  extract_lets +onlyGivenNames t2
  extract_lets +onlyGivenNames t3
  extract_lets +onlyGivenNames t4
  extract_lets +onlyGivenNames t5
  split
  · with_reducible assumption
  · extract_lets +onlyGivenNames t7
    extract_lets +onlyGivenNames t8
    extract_lets +onlyGivenNames t9
    with_reducible refine legal_ite (fun c10 => ?_) (fun c10 => ?_)
    · with_reducible refine legal_mk (legal_parts ?_)
      with_reducible assumption
    · with_reducible assumption

theorem asLockOp_legal {s : State} {u : ℕ} {ratio : W32} (hs : Kept vr qu s) : Kept vr qu (asLockOp s u ratio) := by
  unfold asLockOp
  extract_lets +onlyGivenNames t1
  extract_lets +onlyGivenNames t2
  with_reducible refine legal_ite (fun c3 => ?_) (fun c3 => ?_)
  · with_reducible apply setAsLocked_legal
    with_reducible apply setReg_legal
    with_reducible assumption
  · with_reducible assumption

theorem asUnlockOp_legal {s : State} {u : ℕ} (hs : Kept vr qu s) : Kept vr qu (asUnlockOp s u) := by
  unfold asUnlockOp
  extract_lets +onlyGivenNames t1
  extract_lets +onlyGivenNames t2
  extract_lets +onlyGivenNames t3
  refine (fun (ht3 : Kept vr qu t3) => ?_) ?_
  · clear_value t3
    with_reducible refine legal_ite (fun c4 => ?_) (fun c4 => ?_)
    · with_reducible apply setAsLocked_legal
      with_reducible apply setRegF_legal
      with_reducible assumption
    · with_reducible assumption
  · unfold t3
    with_reducible refine legal_mk (legal_parts ?_)
    with_reducible assumption

theorem exInOp_legal {s : State} (hs : Kept vr qu s) : Kept vr qu (exInOp s) := by
  unfold exInOp
  extract_lets +onlyGivenNames t1
  extract_lets +onlyGivenNames t2
  extract_lets +onlyGivenNames t3
  extract_lets +onlyGivenNames t4
  with_reducible refine legal_ite (fun c6 => ?_) (fun c6 => ?_)
  · with_reducible assumption
  · split
    · extract_lets +onlyGivenNames t8
      refine (fun (ht8 : Kept vr qu t8) => ?_) ?_
      · clear_value t8
        extract_lets +onlyGivenNames t9
        extract_lets +onlyGivenNames t10
        extract_lets +onlyGivenNames t11
        refine (fun (ht11 : Kept vr qu t11) => ?_) ?_
        · clear_value t11
          with_reducible refine legal_ite (fun c12 => ?_) (fun c12 => ?_)
          · with_reducible refine legal_mk (legal_parts ?_)
            with_reducible assumption
          · with_reducible refine legal_ite (fun c13 => ?_) (fun c13 => ?_)
            · with_reducible apply releaseCart_legal
              with_reducible assumption
            · with_reducible assumption
        · unfold t11
          with_reducible refine legal_mk (legal_parts ?_)
          with_reducible assumption
      · unfold t8
        with_reducible refine legal_foldl ?_ (fun u14 y14 hu14 => ?_)
        · with_reducible assumption
        · with_reducible apply engWrite_legal
          with_reducible apply engWrite_legal
          with_reducible assumption
    · with_reducible assumption

theorem exOutOp_legal {s : State} (hs : Kept vr qu s) : Kept vr qu (exOutOp s) := by
  unfold exOutOp
  extract_lets +onlyGivenNames t1
  extract_lets +onlyGivenNames t2
  extract_lets +onlyGivenNames t3
  split
  · with_reducible assumption
  · extract_lets +onlyGivenNames t5
    extract_lets +onlyGivenNames t6
    refine (fun (ht6 : Kept vr qu t6) => ?_) ?_
    · clear_value t6
      extract_lets +onlyGivenNames t7
      with_reducible refine legal_ite (fun c8 => ?_) (fun c8 => ?_)
      · with_reducible assumption
      · with_reducible refine legal_ite (fun c9 => ?_) (fun c9 => ?_)
        · with_reducible refine legal_mk (legal_parts ?_)
          with_reducible assumption
        · with_reducible apply pulse_legal
          with_reducible refine legal_mk (legal_parts ?_)
          with_reducible assumption
    · unfold t6
      with_reducible refine legal_foldl ?_ (fun u11 y11 hu11 => ?_)
      · with_reducible assumption
      · extract_lets +onlyGivenNames t12
        extract_lets +onlyGivenNames t13
        refine (fun (ht13 : Kept1 vr qu t13) => ?_) ?_
        · clear_value t13
          extract_lets +onlyGivenNames t14
          refine (fun (ht14 : Kept1 vr qu t14) => ?_) ?_
          · clear_value t14
            extract_lets +onlyGivenNames t15
            extract_lets +onlyGivenNames t16
            extract_lets +onlyGivenNames t17
            refine (fun (ht17 : Kept vr qu t17) => ?_) ?_
            · clear_value t17
              extract_lets +onlyGivenNames t18
              extract_lets +onlyGivenNames t19
              refine (fun (ht19 : Kept vr qu t19) => ?_) ?_
              · clear_value t19
                extract_lets +onlyGivenNames t20
                refine (fun (ht20 : Kept vr qu t20) => ?_) ?_
                · clear_value t20
                  with_reducible apply setOut_legal
                  with_reducible assumption
                · unfold t20
                  dsimp only [t3]
                  with_reducible refine legal_mk (legal_parts ?_)
                  with_reducible assumption
              · unfold t19
                with_reducible refine legal_ite (fun c21 => ?_) (fun c21 => ?_)
                · with_reducible refine legal_mk (legal_parts ?_)
                  with_reducible assumption
                · with_reducible assumption
            · unfold t17
              refine legal1_out ?_
              with_reducible assumption
          · unfold t14
            with_reducible apply engRead_legal
            refine legal1_out ?_
            with_reducible assumption
        · unfold t13
          with_reducible apply engRead_legal
          with_reducible assumption

theorem latchRead_legal {s : State} {m : ℕ} {a : ℕ} {x : ℕ} (hs : Kept vr qu s) : Kept1 vr qu (latchRead s m a x) := by
  unfold latchRead
  refine legal1_mk ?_
  with_reducible apply setPerM_legal
  with_reducible assumption

theorem mcscLoad_legal {s : State} {m : ℕ} {a : ℕ} (hs : Kept vr qu s) : Kept1 vr qu (mcscLoad s m a) := by
  unfold mcscLoad
  with_reducible refine legal1_ite (fun c1 => ?_) (fun c1 => ?_)
  · with_reducible apply latchRead_legal
    with_reducible assumption
  · refine legal1_mk ?_
    with_reducible assumption

theorem dtimeLoad_legal {s : State} {m : ℕ} {a : ℕ} (hs : Kept vr qu s) : Kept1 vr qu (dtimeLoad s m a) := by
  unfold dtimeLoad
  extract_lets +onlyGivenNames t1
  with_reducible refine legal1_ite (fun c2 => ?_) (fun c2 => ?_)
  · with_reducible apply latchRead_legal
    with_reducible assumption
  · refine legal1_mk ?_
    with_reducible assumption

theorem gbaseLoad_legal {s : State} {m : ℕ} {a : ℕ} (hs : Kept vr qu s) : Kept1 vr qu (gbaseLoad s m a) := by
  unfold gbaseLoad
  with_reducible refine legal1_ite (fun c1 => ?_) (fun c1 => ?_)
  · with_reducible apply latchRead_legal
    with_reducible assumption
  · refine legal1_mk ?_
    with_reducible assumption

theorem counterLoad_legal {s : State} {m : ℕ} {a : ℕ} (hs : Kept vr qu s) : KeptT vr qu (counterLoad s m a) := by
  unfold counterLoad
  extract_lets +onlyGivenNames t1
  extract_lets +onlyGivenNames t2
  with_reducible refine legalT_ite (fun c3 => ?_) (fun c3 => ?_)
  · refine legalT_some ?_
    with_reducible apply mcscLoad_legal
    with_reducible assumption
  · with_reducible refine legalT_ite (fun c4 => ?_) (fun c4 => ?_)
    · refine legalT_some ?_
      with_reducible apply dtimeLoad_legal
      with_reducible assumption
    · with_reducible refine legalT_ite (fun c5 => ?_) (fun c5 => ?_)
      · refine legalT_some ?_
        with_reducible apply gbaseLoad_legal
        with_reducible assumption
      · exact legalT_none

theorem latchOp_legal {s : State} {m : ℕ} {a : ℕ} (hs : Kept vr qu s) : Kept vr qu (latchOp s m a) := by
  unfold latchOp
  with_reducible refine legal_ite (fun c2 => ?_) (fun c2 => ?_)
  · with_reducible assumption
  · split
    · rename_i q4
      refine (fun hq4 => ?_) (@legalT_eq vr qu _ _ _ q4 ?_)
      · extract_lets +onlyGivenNames t5
        refine (fun (ht5 : Kept vr qu t5) => ?_) ?_
        · clear_value t5
          with_reducible refine legal_mk (legal_parts ?_)
          with_reducible assumption
        · unfold t5
          refine legal1_out ?_
          with_reducible assumption
      · with_reducible apply counterLoad_legal
        with_reducible assumption
    · with_reducible assumption

theorem execSampleEdge_legal {k : ℕ} {s : State} (hs : Kept vr qu s) : ∀ u, execSampleEdge k s = .next u → Kept vr qu u := by
  unfold execSampleEdge
  apply legal_act
  with_reducible apply edgeOp_legal
  with_reducible assumption

theorem execMediaClockEnable_legal {m : ℕ} {k : ℕ} {v : W32} {s : State} (hs : Kept vr qu s) : ∀ u, execMediaClockEnable m k v s = .next u → Kept vr qu u := by
  unfold execMediaClockEnable
  apply legal_act
  with_reducible refine legal_ite (fun c1 => ?_) (fun c1 => ?_)
  · with_reducible apply mcStore_legal
    with_reducible assumption
  · with_reducible assumption

theorem execMediaClockDisable_legal {m : ℕ} {k : ℕ} {v : W32} {s : State} (hs : Kept vr qu s) : ∀ u, execMediaClockDisable m k v s = .next u → Kept vr qu u := by
  unfold execMediaClockDisable
  apply legal_act
  with_reducible refine legal_ite (fun c1 => ?_) (fun c1 => ?_)
  · with_reducible apply mcStore_legal
    with_reducible assumption
  · with_reducible assumption

theorem execReferenceLost_legal {k : ℕ} {s : State} (hs : Kept vr qu s) : ∀ u, execReferenceLost k s = .next u → Kept vr qu u := by
  unfold execReferenceLost
  apply legal_act
  with_reducible apply refLost_legal
  with_reducible assumption

theorem execReferenceReturn_legal {k : ℕ} {s : State} (hs : Kept vr qu s) : ∀ u, execReferenceReturn k s = .next u → Kept vr qu u := by
  unfold execReferenceReturn
  apply legal_act
  with_reducible apply refReturn_legal
  with_reducible assumption

theorem execLockAchieved_legal {k : ℕ} {s : State} (hs : Kept vr qu s) : ∀ u, execLockAchieved k s = .next u → Kept vr qu u := by
  unfold execLockAchieved
  apply legal_act
  with_reducible apply lockOp_legal
  with_reducible assumption

theorem execCountLatchRead_legal {m : ℕ} {addr : ℕ} {s : State} (hs : Kept vr qu s) : ∀ u, execCountLatchRead m addr s = .next u → Kept vr qu u := by
  unfold execCountLatchRead
  apply legal_act
  with_reducible apply latchOp_legal
  with_reducible assumption

theorem execFrameSync_legal {p : ℕ} {far : Bool} {count : ℕ} {s : State} (hs : Kept vr qu s) : ∀ u, execFrameSync p far count s = .next u → Kept vr qu u := by
  unfold execFrameSync
  apply legal_act
  with_reducible apply frameSyncOp_legal
  with_reducible assumption

theorem execFrameCaptured_legal {p : ℕ} {samples : List W32} {s : State} (hs : Kept vr qu s) : ∀ u, execFrameCaptured p samples s = .next u → Kept vr qu u := by
  unfold execFrameCaptured
  apply legal_act
  with_reducible apply capturedOp_legal
  with_reducible assumption

theorem execNoclk_legal {p : ℕ} {s : State} (hs : Kept vr qu s) : ∀ u, execNoclk p s = .next u → Kept vr qu u := by
  unfold execNoclk
  apply legal_act
  with_reducible apply noclkOp_legal
  with_reducible assumption

theorem execBclkReturn_legal {p : ℕ} {s : State} (hs : Kept vr qu s) : ∀ u, execBclkReturn p s = .next u → Kept vr qu u := by
  unfold execBclkReturn
  apply legal_act
  with_reducible apply bclkOp_legal
  with_reducible assumption

theorem execPortEnable_legal {m : ℕ} {p : ℕ} {v : W32} {s : State} (hs : Kept vr qu s) : ∀ u, execPortEnable m p v s = .next u → Kept vr qu u := by
  unfold execPortEnable
  apply legal_act
  with_reducible refine legal_ite (fun c1 => ?_) (fun c1 => ?_)
  · with_reducible apply apCtlStore_legal
    with_reducible assumption
  · with_reducible assumption

theorem execPortDisable_legal {m : ℕ} {p : ℕ} {v : W32} {s : State} (hs : Kept vr qu s) : ∀ u, execPortDisable m p v s = .next u → Kept vr qu u := by
  unfold execPortDisable
  apply legal_act
  with_reducible refine legal_ite (fun c1 => ?_) (fun c1 => ?_)
  · with_reducible apply apCtlStore_legal
    with_reducible assumption
  · with_reducible assumption

theorem execFormatStore_legal {m : ℕ} {p : ℕ} {v : W32} {s : State} (hs : Kept vr qu s) : ∀ u, execFormatStore m p v s = .next u → Kept vr qu u := by
  unfold execFormatStore
  apply legal_act
  with_reducible refine legal_ite (fun c1 => ?_) (fun c1 => ?_)
  · with_reducible apply apFmtStore_legal
    with_reducible assumption
  · with_reducible assumption

theorem execPdmControlStore_legal {m : ℕ} {i : ℕ} {v : W32} {s : State} (hs : Kept vr qu s) : ∀ u, execPdmControlStore m i v s = .next u → Kept vr qu u := by
  unfold execPdmControlStore
  apply legal_act
  with_reducible apply pdmStore_legal
  with_reducible assumption

theorem execAsrcStreamEnable_legal {m : ℕ} {n : ℕ} {t : ℕ} {v : W32} {s : State} (hs : Kept vr qu s) : ∀ u, execAsrcStreamEnable m n t v s = .next u → Kept vr qu u := by
  unfold execAsrcStreamEnable
  apply legal_act
  with_reducible refine legal_ite (fun c1 => ?_) (fun c1 => ?_)
  · with_reducible apply asCtlStore_legal
    with_reducible assumption
  · with_reducible assumption

theorem execAsrcStreamDisable_legal {m : ℕ} {n : ℕ} {t : ℕ} {v : W32} {s : State} (hs : Kept vr qu s) : ∀ u, execAsrcStreamDisable m n t v s = .next u → Kept vr qu u := by
  unfold execAsrcStreamDisable
  apply legal_act
  with_reducible refine legal_ite (fun c1 => ?_) (fun c1 => ?_)
  · with_reducible apply asCtlStore_legal
    with_reducible assumption
  · with_reducible assumption

theorem execAsrcDelayStore_legal {m : ℕ} {n : ℕ} {t : ℕ} {v : W32} {s : State} (hs : Kept vr qu s) : ∀ u, execAsrcDelayStore m n t v s = .next u → Kept vr qu u := by
  unfold execAsrcDelayStore
  apply legal_act
  with_reducible refine legal_ite (fun c1 => ?_) (fun c1 => ?_)
  · with_reducible apply asDelayStore_legal
    with_reducible assumption
  · with_reducible assumption

theorem execAsrcOutputBlock_legal {n : ℕ} {t : ℕ} {s : State} (hs : Kept vr qu s) : ∀ u, execAsrcOutputBlock n t s = .next u → Kept vr qu u := by
  unfold execAsrcOutputBlock
  apply legal_act
  with_reducible apply asBlockOp_legal
  with_reducible assumption

theorem execAsrcLock_legal {n : ℕ} {t : ℕ} {ratio : W32} {s : State} (hs : Kept vr qu s) : ∀ u, execAsrcLock n t ratio s = .next u → Kept vr qu u := by
  unfold execAsrcLock
  apply legal_act
  with_reducible apply asLockOp_legal
  with_reducible assumption

theorem execAsrcUnlock_legal {n : ℕ} {t : ℕ} {s : State} (hs : Kept vr qu s) : ∀ u, execAsrcUnlock n t s = .next u → Kept vr qu u := by
  unfold execAsrcUnlock
  apply legal_act
  with_reducible apply asUnlockOp_legal
  with_reducible assumption

theorem execExpressInputPair_legal {s : State} (hs : Kept vr qu s) : ∀ u, execExpressInputPair s = .next u → Kept vr qu u := by
  unfold execExpressInputPair
  apply legal_act
  with_reducible apply exInOp_legal
  with_reducible assumption

theorem execExpressOutput_legal {s : State} (hs : Kept vr qu s) : ∀ u, execExpressOutput s = .next u → Kept vr qu u := by
  unfold execExpressOutput
  apply legal_act
  with_reducible apply exOutOp_legal
  with_reducible assumption

end Sys2Proof.Machine
end

