-- ==== Sys2Proof/Laws/LegalNetQ.lean ====
section
/-! SUPPORT. What every operation of Machine/NetQ.lean does to a legal state: it leaves one. -/
namespace Sys2Proof.Machine
open Sys2Proof.Config
variable {vr : Config.Variant} {qu : List Instr}

theorem ethCount_legal {s : State} {e : ℕ} {k : ℕ} (hs : Kept vr qu s) : Kept vr qu (ethCount s e k) := by
  unfold ethCount
  with_reducible apply setReg_legal
  with_reducible assumption

theorem ethDrop_legal {s : State} {e : ℕ} {k : ℕ} (hs : Kept vr qu s) : Kept vr qu (ethDrop s e k) := by
  unfold ethDrop
  with_reducible apply pulse_legal
  with_reducible apply ethCount_legal
  with_reducible assumption

theorem setQueueAt_legal {s : State} {e : ℕ} {q : ℕ} {l : List TxFrame} (hs : Kept vr qu s) : Kept vr qu (setQueueAt s e q l) := by
  unfold setQueueAt
  extract_lets +onlyGivenNames t1
  with_reducible refine legal_mk (legal_parts ?_)
  with_reducible assumption

theorem setCredit_legal {s : State} {e : ℕ} {q : ℕ} {c : ℤ} {t : ℕ} (hs : Kept vr qu s) : Kept vr qu (setCredit s e q c t) := by
  unfold setCredit
  extract_lets +onlyGivenNames t1
  with_reducible refine legal_mk (legal_parts ?_)
  with_reducible assumption

theorem creditNow_legal {s : State} {e : ℕ} {q : ℕ} (hs : Kept vr qu s) : Kept vr qu (creditNow s e q) := by
  unfold creditNow
  extract_lets +onlyGivenNames t1
  extract_lets +onlyGivenNames t2
  with_reducible refine legal_ite (fun c3 => ?_) (fun c3 => ?_)
  · with_reducible assumption
  · with_reducible apply setCredit_legal
    with_reducible assumption

theorem creditsNow_legal {s : State} {e : ℕ} (hs : Kept vr qu s) : Kept vr qu (creditsNow s e) := by
  unfold creditsNow
  with_reducible refine legal_foldl ?_ (fun u1 y1 hu1 => ?_)
  · with_reducible assumption
  · with_reducible apply creditNow_legal
    with_reducible assumption

theorem txEnqueue_legal {s : State} {e : ℕ} {q : ℕ} {f : TxFrame} (hs : Kept vr qu s) : Kept vr qu (txEnqueue s e q f) := by
  unfold txEnqueue
  extract_lets +onlyGivenNames t1
  refine (fun (ht1 : Kept vr qu t1) => ?_) ?_
  · clear_value t1
    with_reducible refine legal_ite (fun c2 => ?_) (fun c2 => ?_)
    · with_reducible apply ethDrop_legal
      with_reducible assumption
    · with_reducible refine legal_ite (fun c3 => ?_) (fun c3 => ?_)
      · with_reducible apply ethDrop_legal
        with_reducible assumption
      · with_reducible apply setQueueAt_legal
        with_reducible assumption
  · unfold t1
    with_reducible apply creditNow_legal
    with_reducible assumption

theorem sendPlain_legal {s : State} {e : ℕ} {q : ℕ} {n : ℕ} {w : TxKind} (hs : Kept vr qu s) : Kept vr qu (sendPlain s e q n w) := by
  unfold sendPlain
  with_reducible apply txEnqueue_legal
  with_reducible assumption

theorem dropHeads_legal {s : State} {e q k : ℕ} (hs : Kept vr qu s) : Kept vr qu (dropHeads s e q k) := by
  unfold dropHeads
  extract_lets +onlyGivenNames l t
  have ht : Kept vr qu t := setQueueAt_legal hs
  clear_value t
  with_reducible refine legal_ite (fun c => ?_) (fun c => ?_)
  · exact setCredit_legal ht
  · exact ht

theorem dropBig_legal {s : State} {e : ℕ} {q : ℕ} (hs : Kept vr qu s) : Kept vr qu (dropBig s e q) := by
  unfold dropBig
  extract_lets +onlyGivenNames t1
  with_reducible refine legal_foldl ?_ (fun u3 y3 hu3 => ?_)
  · exact dropHeads_legal hs
  · with_reducible apply ethDrop_legal
    with_reducible assumption

theorem startFrame_legal {s : State} {e : ℕ} {q : ℕ} {f : TxFrame} {r : List TxFrame} (hs : Kept vr qu s) : Kept vr qu (startFrame s e q f r) := by
  unfold startFrame
  extract_lets +onlyGivenNames t1
  extract_lets +onlyGivenNames t2
  refine (fun (ht2 : Kept vr qu t2) => ?_) ?_
  · clear_value t2
    extract_lets +onlyGivenNames t3
    extract_lets +onlyGivenNames t4
    refine (fun (ht4 : Kept vr qu t4) => ?_) ?_
    · clear_value t4
      extract_lets +onlyGivenNames t5
      with_reducible apply ethCount_legal
      with_reducible refine legal_mk (legal_parts ?_)
      with_reducible assumption
    · unfold t4
      with_reducible refine legal_ite (fun c6 => ?_) (fun c6 => ?_)
      · with_reducible apply setCredit_legal
        with_reducible assumption
      · with_reducible assumption
  · unfold t2
    with_reducible apply setQueueAt_legal
    with_reducible assumption

theorem gateBegin_legal {s : State} {e : ℕ} {at_ : ℕ} (hs : Kept vr qu s) : Kept vr qu (gateBegin s e at_) := by
  unfold gateBegin
  extract_lets +onlyGivenNames t1
  with_reducible refine legal_mk (legal_parts ?_)
  with_reducible assumption

theorem gateStart_legal {s : State} {e : ℕ} (hs : Kept vr qu s) : Kept vr qu (gateStart s e) := by
  unfold gateStart
  extract_lets +onlyGivenNames t1
  extract_lets +onlyGivenNames t2
  refine (fun (ht2 : Kept vr qu t2) => ?_) ?_
  · clear_value t2
    extract_lets +onlyGivenNames t3
    extract_lets +onlyGivenNames t4
    extract_lets +onlyGivenNames t5
    refine (fun (ht5 : Kept vr qu t5) => ?_) ?_
    · clear_value t5
      extract_lets +onlyGivenNames t6
      with_reducible refine legal_mk (legal_parts ?_)
      with_reducible assumption
    · unfold t5
      with_reducible refine legal_mk (legal_parts ?_)
      with_reducible assumption
  · unfold t2
    with_reducible apply gateBegin_legal
    with_reducible assumption

theorem gateEndOp_legal {s : State} {e : ℕ} (hs : Kept vr qu s) : Kept vr qu (gateEndOp s e) := by
  unfold gateEndOp
  extract_lets +onlyGivenNames t1
  extract_lets +onlyGivenNames t2
  extract_lets +onlyGivenNames t3
  refine (fun (ht3 : Kept vr qu t3) => ?_) ?_
  · clear_value t3
    extract_lets +onlyGivenNames t4
    extract_lets +onlyGivenNames t5
    extract_lets +onlyGivenNames t6
    extract_lets +onlyGivenNames t7
    extract_lets +onlyGivenNames t8
    extract_lets +onlyGivenNames t9
    refine (fun (ht9 : Kept vr qu t9) => ?_) ?_
    · clear_value t9
      extract_lets +onlyGivenNames t10
      with_reducible refine legal_ite (fun c11 => ?_) (fun c11 => ?_)
      · with_reducible assumption
      · with_reducible refine legal_mk (legal_parts ?_)
        with_reducible assumption
    · unfold t9
      with_reducible refine legal_mk (legal_parts ?_)
      with_reducible assumption
  · unfold t3
    with_reducible apply creditsNow_legal
    with_reducible assumption

theorem gateRequest_legal {s : State} {e : ℕ} (hs : Kept vr qu s) : Kept vr qu (gateRequest s e) := by
  unfold gateRequest
  extract_lets +onlyGivenNames t1
  extract_lets +onlyGivenNames t2
  with_reducible refine legal_mk (legal_parts ?_)
  with_reducible assumption

theorem gateSwapOp_legal {s : State} {e : ℕ} (hs : Kept vr qu s) : Kept vr qu (gateSwapOp s e) := by
  unfold gateSwapOp
  extract_lets +onlyGivenNames t1
  extract_lets +onlyGivenNames t2
  refine (fun (ht2 : Kept vr qu t2) => ?_) ?_
  · clear_value t2
    extract_lets +onlyGivenNames t3
    refine (fun (ht3 : Kept vr qu t3) => ?_) ?_
    · clear_value t3
      extract_lets +onlyGivenNames t4
      extract_lets +onlyGivenNames t5
      refine (fun (ht5 : Kept vr qu t5) => ?_) ?_
      · clear_value t5
        with_reducible refine legal_ite (fun c6 => ?_) (fun c6 => ?_)
        · with_reducible assumption
        · with_reducible apply pulse_legal
          with_reducible refine legal_ite (fun c7 => ?_) (fun c7 => ?_)
          · with_reducible apply gateBegin_legal
            with_reducible assumption
          · with_reducible assumption
      · unfold t5
        with_reducible refine legal_mk (legal_parts ?_)
        with_reducible assumption
    · unfold t3
      with_reducible apply setRegB_legal
      with_reducible apply setRegB_legal
      with_reducible assumption
  · unfold t2
    with_reducible apply creditsNow_legal
    with_reducible assumption

theorem gctlStore_legal {s : State} {m : ℕ} {e : ℕ} {v : W32} (hs : Kept vr qu s) : Kept vr qu (gctlStore s m e v) := by
  unfold gctlStore
  extract_lets +onlyGivenNames t1
  extract_lets +onlyGivenNames t2
  extract_lets +onlyGivenNames t3
  extract_lets +onlyGivenNames t4
  refine (fun (ht4 : Kept vr qu t4) => ?_) ?_
  · clear_value t4
    extract_lets +onlyGivenNames t5
    refine (fun (ht5 : Kept vr qu t5) => ?_) ?_
    · clear_value t5
      extract_lets +onlyGivenNames t6
      with_reducible refine legal_ite (fun c7 => ?_) (fun c7 => ?_)
      · with_reducible apply conflict_legal
        with_reducible assumption
      · with_reducible refine legal_ite (fun c8 => ?_) (fun c8 => ?_)
        · with_reducible apply conflict_legal
          with_reducible assumption
        · with_reducible refine legal_ite (fun c9 => ?_) (fun c9 => ?_)
          · with_reducible apply gateStart_legal
            with_reducible assumption
          · with_reducible refine legal_ite (fun c10 => ?_) (fun c10 => ?_)
            · with_reducible assumption
            · with_reducible refine legal_mk (legal_parts ?_)
              with_reducible assumption
    · unfold t5
      with_reducible refine legal_ite (fun c11 => ?_) (fun c11 => ?_)
      · with_reducible apply gateRequest_legal
        with_reducible assumption
      · with_reducible assumption
  · unfold t4
    with_reducible apply storePlain_legal
    with_reducible apply creditsNow_legal
    with_reducible assumption

theorem gclStore_legal {s : State} {m : ℕ} {a : ℕ} {v : W32} (hs : Kept vr qu s) : Kept vr qu (gclStore s m a v) := by
  unfold gclStore
  extract_lets +onlyGivenNames t1
  extract_lets +onlyGivenNames t2
  extract_lets +onlyGivenNames t3
  with_reducible refine legal_ite (fun c4 => ?_) (fun c4 => ?_)
  · with_reducible apply conflict_legal
    with_reducible assumption
  · with_reducible refine legal_ite (fun c5 => ?_) (fun c5 => ?_)
    · with_reducible apply conflict_legal
      with_reducible apply storePlain_legal
      with_reducible assumption
    · with_reducible apply storePlain_legal
      with_reducible assumption

end Sys2Proof.Machine
end

