-- ==== Sys2Proof/Laws/LegalMessages.lean ====
section
/-! SUPPORT. What every operation of Machine/Messages.lean does to a legal state: it leaves one. -/
namespace Sys2Proof.Machine
open Sys2Proof.Config
variable {vr : Config.Variant} {qu : List Instr}

theorem fppCount_legal {s : State} {k : ℕ} (hs : Kept vr qu s) : Kept vr qu (fppCount s k) := by
  unfold fppCount
  extract_lets +onlyGivenNames t1
  with_reducible refine legal_mk (legal_parts ?_)
  with_reducible assumption

theorem respond_legal {s : State} {r : Response} (hs : Kept vr qu s) : Kept vr qu (respond s r) := by
  unfold respond
  extract_lets +onlyGivenNames t1
  split
  · with_reducible refine legal_mk (legal_parts ?_)
    with_reducible assumption
  · with_reducible apply sendPlain_legal
    with_reducible assumption
  · with_reducible refine legal_ite (fun c2 => ?_) (fun c2 => ?_)
    · refine legal_mk (legal_each ?_ ?_ ?_ ?_ ?_ ?_ ?_ ?_ ?_ ?_ ?_ ?_ ?_ ?_ ?_ ?_)
      · with_reducible refine @legal_variant vr qu _ ?_
        with_reducible assumption
      · with_reducible refine @legal_pending vr qu _ ?_
        with_reducible assumption
      · with_reducible refine @legal_dev vr qu _ ?_
        with_reducible assumption
      · with_reducible refine @legal_held vr qu _ ?_
        with_reducible assumption
      · with_reducible refine @legal_queue vr qu _ ?_
        with_reducible assumption
      · with_reducible refine @legal_sessions vr qu _ ?_
        with_reducible assumption
      · with_reducible refine le_of_len ?_
        with_reducible assumption
      · with_reducible refine @legal_bb vr qu _ ?_
        with_reducible assumption
      · with_reducible refine @legal_err vr qu _ ?_
        with_reducible assumption
      · with_reducible refine @legal_data vr qu _ ?_
        with_reducible assumption
      · with_reducible refine @legal_check vr qu _ ?_
        with_reducible assumption
      · with_reducible refine @legal_parity vr qu _ ?_
        with_reducible assumption
      · with_reducible refine @legal_pcheck vr qu _ ?_
        with_reducible assumption
      · with_reducible refine @legal_regs vr qu _ ?_
        with_reducible assumption
      · with_reducible refine @legal_perMaster vr qu _ ?_
        with_reducible assumption
      · with_reducible refine @legal_coaches vr qu _ ?_
        with_reducible assumption
    · with_reducible apply fppCount_legal
      refine legal_mk (legal_each ?_ ?_ ?_ ?_ ?_ ?_ ?_ ?_ ?_ ?_ ?_ ?_ ?_ ?_ ?_ ?_)
      · with_reducible refine @legal_variant vr qu _ ?_
        with_reducible assumption
      · with_reducible refine @legal_pending vr qu _ ?_
        with_reducible assumption
      · with_reducible refine @legal_dev vr qu _ ?_
        with_reducible assumption
      · with_reducible refine @legal_held vr qu _ ?_
        with_reducible assumption
      · with_reducible refine @legal_queue vr qu _ ?_
        with_reducible assumption
      · with_reducible refine @legal_sessions vr qu _ ?_
        with_reducible assumption
      · exact le_of_turn (legal_spi hs)
      · with_reducible refine @legal_bb vr qu _ ?_
        with_reducible assumption
      · with_reducible refine @legal_err vr qu _ ?_
        with_reducible assumption
      · with_reducible refine @legal_data vr qu _ ?_
        with_reducible assumption
      · with_reducible refine @legal_check vr qu _ ?_
        with_reducible assumption
      · with_reducible refine @legal_parity vr qu _ ?_
        with_reducible assumption
      · with_reducible refine @legal_pcheck vr qu _ ?_
        with_reducible assumption
      · with_reducible refine @legal_regs vr qu _ ?_
        with_reducible assumption
      · with_reducible refine @legal_perMaster vr qu _ ?_
        with_reducible assumption
      · with_reducible refine @legal_coaches vr qu _ ?_
        with_reducible assumption

theorem answerWith_legal {s : State} {q : Request} {status : ℕ} {typ : ℕ} {offset : ℕ} {total : ℕ} {data : List Byte} (hs : Kept vr qu s) : Kept vr qu (answerWith s q status typ offset total data) := by
  unfold answerWith
  with_reducible apply respond_legal
  with_reducible assumption

theorem done_legal {s : State} {q : Request} (hs : Kept vr qu s) : Kept vr qu (done s q) := by
  unfold done
  with_reducible apply answerWith_legal
  with_reducible assumption

theorem busy_legal {s : State} {q : Request} (hs : Kept vr qu s) : Kept vr qu (busy s q) := by
  unfold busy
  with_reducible apply answerWith_legal
  with_reducible assumption

theorem abort_legal {s : State} {q : Request} {code : ℕ} (hs : Kept vr qu s) : Kept vr qu (abort s q code) := by
  unfold abort
  with_reducible apply answerWith_legal
  with_reducible apply fppCount_legal
  with_reducible assumption

theorem arrivalPulse_legal {s : State} {a : Transport} (hs : Kept vr qu s) : Kept vr qu (arrivalPulse s a) := by
  unfold arrivalPulse
  split
  · with_reducible apply pulse_legal
    with_reducible assumption
  · with_reducible assumption
  · with_reducible apply pulse_legal
    with_reducible assumption

theorem arrivalOp_legal {s : State} {a : Arrival} {l : List Byte} (hs : Kept vr qu s) : Kept vr qu (arrivalOp s a l) := by
  unfold arrivalOp
  extract_lets +onlyGivenNames t1
  extract_lets +onlyGivenNames t2
  extract_lets +onlyGivenNames t3
  refine (fun (ht3 : Kept vr qu t3) => ?_) ?_
  · clear_value t3
    extract_lets +onlyGivenNames t4
    with_reducible refine legal_ite (fun c5 => ?_) (fun c5 => ?_)
    · with_reducible assumption
    · with_reducible refine legal_ite (fun c6 => ?_) (fun c6 => ?_)
      · with_reducible apply fppCount_legal
        with_reducible assumption
      · with_reducible refine legal_ite (fun c7 => ?_) (fun c7 => ?_)
        · with_reducible assumption
        · with_reducible refine legal_ite (fun c8 => ?_) (fun c8 => ?_)
          · with_reducible assumption
          · with_reducible refine legal_ite (fun c9 => ?_) (fun c9 => ?_)
            · with_reducible apply abort_legal
              with_reducible apply fppCount_legal
              with_reducible assumption
            · with_reducible refine legal_ite (fun c10 => ?_) (fun c10 => ?_)
              · with_reducible apply abort_legal
                with_reducible assumption
              · refine legal_mk (legal_each ?_ ?_ ?_ ?_ ?_ ?_ ?_ ?_ ?_ ?_ ?_ ?_ ?_ ?_ ?_ ?_)
                · with_reducible refine @legal_variant vr qu _ ?_
                  with_reducible assumption
                · with_reducible refine @legal_pending vr qu _ ?_
                  with_reducible assumption
                · with_reducible refine @legal_dev vr qu _ ?_
                  with_reducible assumption
                · with_reducible refine @legal_held vr qu _ ?_
                  with_reducible assumption
                · with_reducible refine le_of_len ?_
                  omega
                · with_reducible refine @legal_sessions vr qu _ ?_
                  with_reducible assumption
                · with_reducible refine @legal_spi vr qu _ ?_
                  with_reducible assumption
                · with_reducible refine @legal_bb vr qu _ ?_
                  with_reducible assumption
                · with_reducible refine @legal_err vr qu _ ?_
                  with_reducible assumption
                · with_reducible refine @legal_data vr qu _ ?_
                  with_reducible assumption
                · with_reducible refine @legal_check vr qu _ ?_
                  with_reducible assumption
                · with_reducible refine @legal_parity vr qu _ ?_
                  with_reducible assumption
                · with_reducible refine @legal_pcheck vr qu _ ?_
                  with_reducible assumption
                · with_reducible refine @legal_regs vr qu _ ?_
                  with_reducible assumption
                · with_reducible refine @legal_perMaster vr qu _ ?_
                  with_reducible assumption
                · with_reducible refine @legal_coaches vr qu _ ?_
                  with_reducible assumption
  · unfold t3
    with_reducible apply arrivalPulse_legal
    with_reducible assumption

theorem execRequestArrival_legal {a : Arrival} {bytes : List Byte} {s : State} (hs : Kept vr qu s) : ∀ u, execRequestArrival a bytes s = .next u → Kept vr qu u := by
  unfold execRequestArrival
  apply legal_act
  with_reducible apply arrivalOp_legal
  with_reducible assumption

theorem spiReadOp_legal {s : State} (hs : Kept vr qu s) : Kept vr qu (spiReadOp s) := by
  unfold spiReadOp
  extract_lets +onlyGivenNames t1
  split
  · with_reducible assumption
  · refine legal_mk (legal_each ?_ ?_ ?_ ?_ ?_ ?_ ?_ ?_ ?_ ?_ ?_ ?_ ?_ ?_ ?_ ?_)
    · with_reducible refine @legal_variant vr qu _ ?_
      with_reducible assumption
    · with_reducible refine @legal_pending vr qu _ ?_
      with_reducible assumption
    · with_reducible refine @legal_dev vr qu _ ?_
      with_reducible assumption
    · with_reducible refine @legal_held vr qu _ ?_
      with_reducible assumption
    · with_reducible refine @legal_queue vr qu _ ?_
      with_reducible assumption
    · with_reducible refine @legal_sessions vr qu _ ?_
      with_reducible assumption
    · exact le_of_tail (by assumption) (legal_spi hs)
    · with_reducible refine @legal_bb vr qu _ ?_
      with_reducible assumption
    · with_reducible refine @legal_err vr qu _ ?_
      with_reducible assumption
    · with_reducible refine @legal_data vr qu _ ?_
      with_reducible assumption
    · with_reducible refine @legal_check vr qu _ ?_
      with_reducible assumption
    · with_reducible refine @legal_parity vr qu _ ?_
      with_reducible assumption
    · with_reducible refine @legal_pcheck vr qu _ ?_
      with_reducible assumption
    · with_reducible refine @legal_regs vr qu _ ?_
      with_reducible assumption
    · with_reducible refine @legal_perMaster vr qu _ ?_
      with_reducible assumption
    · with_reducible refine @legal_coaches vr qu _ ?_
      with_reducible assumption

theorem execSpiRead_legal {s : State} (hs : Kept vr qu s) : ∀ u, execSpiRead s = .next u → Kept vr qu u := by
  unfold execSpiRead
  apply legal_act
  with_reducible apply spiReadOp_legal
  with_reducible assumption

end Sys2Proof.Machine
end

