-- ==== Sys2Proof/Laws/LegalGptp.lean ====
section
/-! SUPPORT. What every operation of Machine/Gptp.lean does to a legal state: it leaves one. -/
namespace Sys2Proof.Machine
open Sys2Proof.Config
variable {vr : Config.Variant} {qu : List Instr}

theorem setPtpState_legal {s : State} {d : ℕ} {st : ℕ} (hs : Kept vr qu s) : Kept vr qu (setPtpState s d st) := by
  unfold setPtpState
  with_reducible refine legal_ite (fun c1 => ?_) (fun c1 => ?_)
  · with_reducible assumption
  · with_reducible apply pulse_legal
    with_reducible apply setRegF_legal
    with_reducible assumption

theorem ptpRefLost_legal {s : State} {d : ℕ} (hs : Kept vr qu s) : Kept vr qu (ptpRefLost s d) := by
  unfold ptpRefLost
  with_reducible refine legal_foldl ?_ (fun u1 y1 hu1 => ?_)
  · with_reducible assumption
  · with_reducible refine legal_ite (fun c2 => ?_) (fun c2 => ?_)
    · with_reducible apply refLost_legal
      with_reducible assumption
    · with_reducible assumption

theorem leaveSync_legal {s : State} {d : ℕ} (hs : Kept vr qu s) : Kept vr qu (leaveSync s d) := by
  unfold leaveSync
  extract_lets +onlyGivenNames t1
  extract_lets +onlyGivenNames t2
  refine (fun (ht2 : Kept vr qu t2) => ?_) ?_
  · clear_value t2
    with_reducible refine legal_ite (fun c3 => ?_) (fun c3 => ?_)
    · with_reducible apply ptpRefLost_legal
      with_reducible apply setPtpState_legal
      with_reducible assumption
    · with_reducible assumption
  · unfold t2
    with_reducible apply setPtp_legal
    with_reducible assumption

theorem becomeGm_legal {s : State} {d : ℕ} (hs : Kept vr qu s) : Kept vr qu (becomeGm s d) := by
  unfold becomeGm
  extract_lets +onlyGivenNames t1
  with_reducible apply setPtpState_legal
  with_reducible apply setRegB_legal
  with_reducible apply setPtp_legal
  with_reducible assumption

theorem adoptGm_legal {s : State} {d : ℕ} {vec : ℕ} {gm : ℕ} (hs : Kept vr qu s) : Kept vr qu (adoptGm s d vec gm) := by
  unfold adoptGm
  extract_lets +onlyGivenNames t1
  refine (fun (ht1 : Kept vr qu t1) => ?_) ?_
  · clear_value t1
    extract_lets +onlyGivenNames t2
    with_reducible apply setPtp_legal
    with_reducible apply setRegB_legal
    with_reducible assumption
  · unfold t1
    with_reducible refine legal_ite (fun c3 => ?_) (fun c3 => ?_)
    · with_reducible assumption
    · with_reducible apply leaveSync_legal
      with_reducible assumption

theorem announceOp_legal {s : State} {d : ℕ} {prio1 : ℕ} {cls : ℕ} {acc : ℕ} {var : ℕ} {prio2 : ℕ} {gm : ℕ} (hs : Kept vr qu s) : Kept vr qu (announceOp s d prio1 cls acc var prio2 gm) := by
  unfold announceOp
  extract_lets +onlyGivenNames t1
  extract_lets +onlyGivenNames t2
  extract_lets +onlyGivenNames t3
  with_reducible refine legal_ite (fun c4 => ?_) (fun c4 => ?_)
  · with_reducible assumption
  · with_reducible refine legal_ite (fun c5 => ?_) (fun c5 => ?_)
    · with_reducible assumption
    · with_reducible refine legal_ite (fun c6 => ?_) (fun c6 => ?_)
      · with_reducible refine legal_ite (fun c7 => ?_) (fun c7 => ?_)
        · with_reducible assumption
        · with_reducible apply becomeGm_legal
          with_reducible assumption
      · with_reducible apply adoptGm_legal
        with_reducible assumption

theorem trackTime_legal {s : State} {d : ℕ} (hs : Kept vr qu s) : Kept vr qu (trackTime s d) := by
  unfold trackTime
  extract_lets +onlyGivenNames t1
  extract_lets +onlyGivenNames t2
  with_reducible refine legal_ite (fun c3 => ?_) (fun c3 => ?_)
  · with_reducible assumption
  · with_reducible refine legal_ite (fun c4 => ?_) (fun c4 => ?_)
    · with_reducible refine legal_ite (fun c5 => ?_) (fun c5 => ?_)
      · with_reducible apply shiftTime_legal
        with_reducible apply bbHw_legal
        with_reducible assumption
      · with_reducible assumption
    · with_reducible refine legal_ite (fun c6 => ?_) (fun c6 => ?_)
      · with_reducible apply pulse_legal
        with_reducible apply setRegB_legal
        with_reducible apply bbHw_legal
        with_reducible assumption
      · with_reducible assumption

theorem syncTime_legal {s : State} {d : ℕ} {origin : ℕ} (hs : Kept vr qu s) : Kept vr qu (syncTime s d origin) := by
  unfold syncTime
  extract_lets +onlyGivenNames t1
  extract_lets +onlyGivenNames t2
  extract_lets +onlyGivenNames t3
  extract_lets +onlyGivenNames t4
  extract_lets +onlyGivenNames t5
  refine (fun (ht5 : Kept vr qu t5) => ?_) ?_
  · clear_value t5
    extract_lets +onlyGivenNames t6
    refine (fun (ht6 : Kept vr qu t6) => ?_) ?_
    · clear_value t6
      with_reducible apply trackTime_legal
      with_reducible assumption
    · unfold t6
      clear_value t4
      split
      · with_reducible refine legal_ite (fun c7 => ?_) (fun c7 => ?_)
        · with_reducible apply setPtpState_legal
          with_reducible assumption
        · with_reducible assumption
      · with_reducible apply leaveSync_legal
        with_reducible assumption
  · unfold t5
    with_reducible apply setPtp_legal
    with_reducible assumption

theorem sendPtp_legal {s : State} {d : ℕ} {n : ℕ} {m : PtpBody} (hs : Kept vr qu s) : Kept vr qu (sendPtp s d n m) := by
  unfold sendPtp
  with_reducible apply sendPlain_legal
  with_reducible assumption

theorem setAs_legal {s : State} {d : ℕ} {b : Bool} (hs : Kept vr qu s) : Kept vr qu (setAs s d b) := by
  unfold setAs
  extract_lets +onlyGivenNames t1
  extract_lets +onlyGivenNames t2
  refine (fun (ht2 : Kept vr qu t2) => ?_) ?_
  · clear_value t2
    with_reducible refine legal_ite (fun c3 => ?_) (fun c3 => ?_)
    · with_reducible assumption
    · with_reducible apply leaveSync_legal
      with_reducible assumption
  · unfold t2
    with_reducible apply setRegB_legal
    with_reducible apply setPtp_legal
    with_reducible assumption

theorem ptpReceive_legal {s : State} {e : ℕ} {d : ℕ} {m : PtpBody} (hs : Kept vr qu s) : Kept vr qu (ptpReceive s e d m) := by
  unfold ptpReceive
  extract_lets +onlyGivenNames t1
  extract_lets +onlyGivenNames t2
  extract_lets +onlyGivenNames t3
  extract_lets +onlyGivenNames t4
  refine (fun (ht4 : Kept vr qu t4) => ?_) ?_
  · clear_value t4
    split
    · with_reducible apply announceOp_legal
      with_reducible assumption
    · with_reducible refine legal_ite (fun c6 => ?_) (fun c6 => ?_)
      · with_reducible assumption
      · with_reducible refine legal_ite (fun c7 => ?_) (fun c7 => ?_)
        · with_reducible assumption
        · with_reducible apply syncTime_legal
          with_reducible assumption
    · with_reducible refine legal_ite (fun c8 => ?_) (fun c8 => ?_)
      · with_reducible apply syncTime_legal
        with_reducible assumption
      · with_reducible assumption
    · with_reducible apply sendPtp_legal
      with_reducible assumption
    · with_reducible refine legal_ite (fun c9 => ?_) (fun c9 => ?_)
      · with_reducible apply setPtp_legal
        with_reducible assumption
      · with_reducible assumption
    · extract_lets +onlyGivenNames t10
      with_reducible refine legal_ite (fun c11 => ?_) (fun c11 => ?_)
      · with_reducible apply setAs_legal
        with_reducible apply setPtp_legal
        with_reducible assumption
      · with_reducible assumption
    · with_reducible apply setPtp_legal
      with_reducible assumption
  · unfold t4
    with_reducible apply setPtp_legal
    with_reducible assumption

theorem ptpSent_legal {s : State} {e : ℕ} {num : ℕ} {m : PtpBody} (hs : Kept vr qu s) : Kept vr qu (ptpSent s e num m) := by
  unfold ptpSent
  split
  · with_reducible assumption
  · extract_lets +onlyGivenNames t2
    split
    · with_reducible apply sendPtp_legal
      with_reducible assumption
    · with_reducible apply setPtp_legal
      with_reducible assumption
    · with_reducible apply sendPtp_legal
      with_reducible assumption
    · with_reducible assumption

theorem syncLostOp_legal {s : State} {d : ℕ} (hs : Kept vr qu s) : Kept vr qu (syncLostOp s d) := by
  unfold syncLostOp
  extract_lets +onlyGivenNames t1
  extract_lets +onlyGivenNames t2
  refine (fun (ht2 : Kept vr qu t2) => ?_) ?_
  · clear_value t2
    extract_lets +onlyGivenNames t3
    with_reducible refine legal_ite (fun c4 => ?_) (fun c4 => ?_)
    · with_reducible apply setPtp_legal
      with_reducible assumption
    · with_reducible assumption
  · unfold t2
    with_reducible apply leaveSync_legal
    with_reducible assumption

theorem syncSendOp_legal {s : State} {d : ℕ} (hs : Kept vr qu s) : Kept vr qu (syncSendOp s d) := by
  unfold syncSendOp
  extract_lets +onlyGivenNames t1
  extract_lets +onlyGivenNames t2
  refine (fun (ht2 : Kept vr qu t2) => ?_) ?_
  · clear_value t2
    extract_lets +onlyGivenNames t3
    extract_lets +onlyGivenNames t4
    refine (fun (ht4 : Kept vr qu t4) => ?_) ?_
    · clear_value t4
      with_reducible refine legal_ite (fun c5 => ?_) (fun c5 => ?_)
      · with_reducible assumption
      · with_reducible apply sendPtp_legal
        with_reducible apply sendPtp_legal
        with_reducible assumption
    · unfold t4
      with_reducible apply setPtp_legal
      with_reducible assumption
  · unfold t2
    with_reducible refine legal_ite (fun c6 => ?_) (fun c6 => ?_)
    · with_reducible assumption
    · with_reducible apply becomeGm_legal
      with_reducible assumption

theorem pdelayOp_legal {s : State} {d : ℕ} (hs : Kept vr qu s) : Kept vr qu (pdelayOp s d) := by
  unfold pdelayOp
  extract_lets +onlyGivenNames t1
  with_reducible refine legal_ite (fun c2 => ?_) (fun c2 => ?_)
  · with_reducible assumption
  · with_reducible apply sendPtp_legal
    with_reducible apply setPtp_legal
    with_reducible assumption

theorem ptpStore_legal {s : State} {m : ℕ} {a : ℕ} {v : W32} (hs : Kept vr qu s) : Kept vr qu (ptpStore s m a v) := by
  unfold ptpStore
  extract_lets +onlyGivenNames t1
  extract_lets +onlyGivenNames t2
  extract_lets +onlyGivenNames t3
  extract_lets +onlyGivenNames t4
  refine (fun (ht4 : Kept vr qu t4) => ?_) ?_
  · clear_value t4
    extract_lets +onlyGivenNames t5
    refine (fun (ht5 : Kept vr qu t5) => ?_) ?_
    · clear_value t5
      with_reducible refine legal_ite (fun c6 => ?_) (fun c6 => ?_)
      · with_reducible refine legal_ite (fun c7 => ?_) (fun c7 => ?_)
        · with_reducible apply conflict_legal
          with_reducible assumption
        · with_reducible apply storePlain_legal
          with_reducible assumption
      · with_reducible refine legal_ite (fun c8 => ?_) (fun c8 => ?_)
        · with_reducible refine legal_ite (fun c9 => ?_) (fun c9 => ?_)
          · with_reducible refine legal_ite (fun c10 => ?_) (fun c10 => ?_)
            · with_reducible apply conflict_legal
              with_reducible assumption
            · with_reducible apply setPtp_legal
              with_reducible apply setPtpState_legal
              with_reducible apply setRegF_legal
              with_reducible assumption
          · with_reducible refine legal_ite (fun c11 => ?_) (fun c11 => ?_)
            · with_reducible apply setPtpState_legal
              with_reducible assumption
            · with_reducible assumption
        · with_reducible apply storePlain_legal
          with_reducible assumption
    · unfold t5
      with_reducible apply storePlain_legal
      with_reducible assumption
  · unfold t4
    with_reducible apply leaveSync_legal
    with_reducible apply storePlain_legal
    with_reducible assumption

theorem execSyncReceiptTimeout_legal {d : ℕ} {s : State} (hs : Kept vr qu s) : ∀ u, execSyncReceiptTimeout d s = .next u → Kept vr qu u := by
  unfold execSyncReceiptTimeout
  apply legal_act
  with_reducible apply syncLostOp_legal
  with_reducible assumption

theorem execSyncTransmit_legal {d : ℕ} {s : State} (hs : Kept vr qu s) : ∀ u, execSyncTransmit d s = .next u → Kept vr qu u := by
  unfold execSyncTransmit
  apply legal_act
  with_reducible apply syncSendOp_legal
  with_reducible assumption

theorem execPdelayRequest_legal {d : ℕ} {s : State} (hs : Kept vr qu s) : ∀ u, execPdelayRequest d s = .next u → Kept vr qu u := by
  unfold execPdelayRequest
  apply legal_act
  with_reducible apply pdelayOp_legal
  with_reducible assumption

end Sys2Proof.Machine
end

