-- ==== Sys2Proof/Laws/LegalNet.lean ====
section
/-! SUPPORT. What every operation of Machine/Net.lean does to a legal state: it leaves one. -/
namespace Sys2Proof.Machine
open Sys2Proof.Config
variable {vr : Config.Variant} {qu : List Instr}

theorem ctxCountN_legal {s : State} {x : ℕ} {k : ℕ} {n : ℕ} (hs : Kept vr qu s) : Kept vr qu (ctxCountN s x k n) := by
  unfold ctxCountN
  extract_lets +onlyGivenNames t1
  with_reducible refine legal_mk (legal_parts ?_)
  with_reducible assumption

theorem ctxPulse_legal {s : State} {x : ℕ} (hs : Kept vr qu s) : Kept vr qu (ctxPulse s x) := by
  unfold ctxPulse
  with_reducible apply pulse_legal
  with_reducible assumption

theorem clearValid_legal {s : State} {x : ℕ} (hs : Kept vr qu s) : Kept vr qu (clearValid s x) := by
  unfold clearValid
  extract_lets +onlyGivenNames t1
  with_reducible refine legal_ite (fun c3 => ?_) (fun c3 => ?_)
  · with_reducible assumption
  · with_reducible refine legal_foldl ?_ (fun u5 y5 hu5 => ?_)
    · with_reducible assumption
    · extract_lets +onlyGivenNames t6
      extract_lets +onlyGivenNames t7
      refine (fun (ht7 : Kept1 vr qu t7) => ?_) ?_
      · clear_value t7
        with_reducible apply engWrite_legal
        refine legal1_out ?_
        with_reducible assumption
      · unfold t7
        with_reducible apply engRead_legal
        with_reducible assumption

theorem bindCtx_legal {s : State} {x : ℕ} {p : Partner} (hs : Kept vr qu s) : Kept vr qu (bindCtx s x p) := by
  unfold bindCtx
  extract_lets +onlyGivenNames t1
  refine (fun (ht1 : Kept vr qu t1) => ?_) ?_
  · clear_value t1
    extract_lets +onlyGivenNames t2
    extract_lets +onlyGivenNames t3
    refine (fun (ht3 : Kept vr qu t3) => ?_) ?_
    · clear_value t3
      with_reducible apply ctxPulse_legal
      with_reducible apply ctxCount_legal
      with_reducible assumption
    · unfold t3
      with_reducible apply setCtx_legal
      with_reducible assumption
  · unfold t1
    with_reducible refine legal_ite (fun c4 => ?_) (fun c4 => ?_)
    · with_reducible apply clearValid_legal
      with_reducible assumption
    · with_reducible assumption

theorem seqGap_legal {s : State} {x : ℕ} {mod : ℕ} {seq : ℕ} (hs : Kept vr qu s) : Kept vr qu (seqGap s x mod seq) := by
  unfold seqGap
  extract_lets +onlyGivenNames t1
  split
  · with_reducible apply setCtx_legal
    with_reducible assumption
  · extract_lets +onlyGivenNames t3
    with_reducible refine legal_ite (fun c4 => ?_) (fun c4 => ?_)
    · with_reducible assumption
    · with_reducible apply ctxCountN_legal
      with_reducible apply setCtx_legal
      with_reducible assumption

theorem writeSlot_legal {s : State} {x : ℕ} {p : Place} (hs : Kept vr qu s) : Kept vr qu (writeSlot s x p) := by
  unfold writeSlot
  extract_lets +onlyGivenNames t1
  extract_lets +onlyGivenNames t2
  extract_lets +onlyGivenNames t3
  extract_lets +onlyGivenNames t4
  refine (fun (ht4 : Kept vr qu t4) => ?_) ?_
  · clear_value t4
    with_reducible apply engWrite_legal
    with_reducible assumption
  · unfold t4
    with_reducible refine legal_foldl ?_ (fun u5 y5 hu5 => ?_)
    · with_reducible assumption
    · with_reducible apply engWrite_legal
      with_reducible assumption

theorem acceptPacket_legal {s : State} {x : ℕ} {place : Option Place} (hs : Kept vr qu s) : Kept vr qu (acceptPacket s x place) := by
  unfold acceptPacket
  extract_lets +onlyGivenNames t1
  extract_lets +onlyGivenNames t2
  refine (fun (ht2 : Kept vr qu t2) => ?_) ?_
  · clear_value t2
    with_reducible apply ctxCount_legal
    split
    · with_reducible apply writeSlot_legal
      with_reducible assumption
    · with_reducible assumption
  · unfold t2
    with_reducible apply setCtx_legal
    with_reducible assumption

theorem listen_legal {s : State} {x : ℕ} {p : Partner} {named : Bool} {mod : ℕ} {seq : ℕ} {arr : ℤ} {place : Option Place} (hs : Kept vr qu s) : Kept vr qu (listen s x p named mod seq arr place) := by
  unfold listen
  extract_lets +onlyGivenNames t1
  extract_lets +onlyGivenNames t2
  refine (fun (ht2 : Kept vr qu t2) => ?_) ?_
  · clear_value t2
    with_reducible refine legal_ite (fun c3 => ?_) (fun c3 => ?_)
    · with_reducible refine legal_ite (fun c4 => ?_) (fun c4 => ?_)
      · with_reducible apply ctxCount_legal
        with_reducible assumption
      · with_reducible apply acceptPacket_legal
        with_reducible apply seqGap_legal
        with_reducible apply bindCtx_legal
        with_reducible assumption
    · with_reducible refine legal_ite (fun c5 => ?_) (fun c5 => ?_)
      · split
        · with_reducible apply acceptPacket_legal
          with_reducible assumption
        · split
          · with_reducible apply ctxCount_legal
            with_reducible assumption
          · with_reducible apply acceptPacket_legal
            with_reducible assumption
      · with_reducible refine legal_ite (fun c6 => ?_) (fun c6 => ?_)
        · with_reducible apply ctxCount_legal
          with_reducible assumption
        · with_reducible apply ctxCount_legal
          with_reducible assumption
  · unfold t2
    with_reducible apply seqGap_legal
    with_reducible assumption

theorem flagCount_legal {s : State} {x : ℕ} {mr : Bool} {tu : Bool} (hs : Kept vr qu s) : Kept vr qu (flagCount s x mr tu) := by
  unfold flagCount
  extract_lets +onlyGivenNames t1
  with_reducible apply setCtx_legal
  with_reducible assumption

theorem aafIn_legal {s : State} {e : ℕ} {x : ℕ} {src : ℕ} {p : AafPacket} (hs : Kept vr qu s) : Kept vr qu (aafIn s e x src p) := by
  unfold aafIn
  extract_lets +onlyGivenNames t1
  extract_lets +onlyGivenNames t2
  refine (fun (ht2 : Kept vr qu t2) => ?_) ?_
  · clear_value t2
    extract_lets +onlyGivenNames t3
    extract_lets +onlyGivenNames t4
    extract_lets +onlyGivenNames t5
    with_reducible refine legal_ite (fun c6 => ?_) (fun c6 => ?_)
    · with_reducible apply ctxCount_legal
      with_reducible assumption
    · with_reducible apply listen_legal
      with_reducible assumption
  · unfold t2
    with_reducible apply flagCount_legal
    with_reducible assumption

theorem crfIn_legal {s : State} {e : ℕ} {x : ℕ} {src : ℕ} {p : CrfPacket} (hs : Kept vr qu s) : Kept vr qu (crfIn s e x src p) := by
  unfold crfIn
  with_reducible refine legal_ite (fun c1 => ?_) (fun c1 => ?_)
  · with_reducible apply ctxCount_legal
    with_reducible assumption
  · with_reducible apply listen_legal
    with_reducible assumption

theorem rtpIn_legal {s : State} {e : ℕ} {x : ℕ} {srcIp : ℕ} {srcPort : ℕ} {p : RtpPacket} (hs : Kept vr qu s) : Kept vr qu (rtpIn s e x srcIp srcPort p) := by
  unfold rtpIn
  extract_lets +onlyGivenNames t1
  extract_lets +onlyGivenNames t2
  extract_lets +onlyGivenNames t3
  with_reducible refine legal_ite (fun c4 => ?_) (fun c4 => ?_)
  · with_reducible apply ctxCount_legal
    with_reducible assumption
  · with_reducible apply listen_legal
    with_reducible assumption

theorem lostOp_legal {s : State} {x : ℕ} (hs : Kept vr qu s) : Kept vr qu (lostOp s x) := by
  unfold lostOp
  extract_lets +onlyGivenNames t1
  extract_lets +onlyGivenNames t2
  refine (fun (ht2 : Kept vr qu t2) => ?_) ?_
  · clear_value t2
    extract_lets +onlyGivenNames t3
    refine (fun (ht3 : Kept vr qu t3) => ?_) ?_
    · clear_value t3
      with_reducible refine legal_ite (fun c4 => ?_) (fun c4 => ?_)
      · with_reducible assumption
      · with_reducible refine legal_ite (fun c5 => ?_) (fun c5 => ?_)
        · with_reducible refine legal_foldl ?_ (fun u6 y6 hu6 => ?_)
          · with_reducible assumption
          · with_reducible refine legal_ite (fun c7 => ?_) (fun c7 => ?_)
            · with_reducible apply refLost_legal
              with_reducible assumption
            · with_reducible assumption
        · with_reducible assumption
    · unfold t3
      with_reducible apply bbHw_legal
      with_reducible assumption
  · unfold t2
    with_reducible apply ctxPulse_legal
    with_reducible apply ctxCount_legal
    with_reducible apply setCtx_legal
    with_reducible assumption

theorem unmatched_legal {s : State} {e : ℕ} (hs : Kept vr qu s) : Kept vr qu (unmatched s e) := by
  unfold unmatched
  with_reducible apply ethCount_legal
  with_reducible assumption

theorem udpIn_legal {s : State} {e : ℕ} {srcIp : ℕ} {dst : ℕ} {srcPort : ℕ} {port : ℕ} {b : UdpBody} (hs : Kept vr qu s) : Kept vr qu (udpIn s e srcIp dst srcPort port b) := by
  unfold udpIn
  extract_lets +onlyGivenNames t1
  extract_lets +onlyGivenNames t2
  split
  · split
    · with_reducible apply rtpIn_legal
      with_reducible assumption
    · with_reducible apply ctxCount_legal
      with_reducible assumption
  · with_reducible refine legal_ite (fun c3 => ?_) (fun c3 => ?_)
    · with_reducible apply arrivalOp_legal
      with_reducible assumption
    · with_reducible apply unmatched_legal
      with_reducible assumption

theorem classify_legal {s : State} {e : ℕ} {f : EthFrame} (hs : Kept vr qu s) : Kept vr qu (classify s e f) := by
  unfold classify
  split
  · split
    · with_reducible apply ptpReceive_legal
      with_reducible assumption
    · with_reducible assumption
  · split
    · with_reducible apply aafIn_legal
      with_reducible assumption
    · with_reducible apply unmatched_legal
      with_reducible assumption
  · split
    · with_reducible apply crfIn_legal
      with_reducible assumption
    · with_reducible apply unmatched_legal
      with_reducible assumption
  · with_reducible refine legal_ite (fun c1 => ?_) (fun c1 => ?_)
    · with_reducible apply unmatched_legal
      with_reducible assumption
    · with_reducible apply udpIn_legal
      with_reducible assumption
  · with_reducible refine legal_ite (fun c2 => ?_) (fun c2 => ?_)
    · with_reducible apply sendPlain_legal
      with_reducible assumption
    · with_reducible apply unmatched_legal
      with_reducible assumption
  · with_reducible refine legal_ite (fun c3 => ?_) (fun c3 => ?_)
    · with_reducible apply sendPlain_legal
      with_reducible assumption
    · with_reducible apply unmatched_legal
      with_reducible assumption
  · with_reducible refine legal_ite (fun c4 => ?_) (fun c4 => ?_)
    · with_reducible refine legal_foldl ?_ (fun u5 y5 hu5 => ?_)
      · with_reducible assumption
      · with_reducible apply sendPlain_legal
        with_reducible assumption
    · with_reducible refine legal_ite (fun c6 => ?_) (fun c6 => ?_)
      · with_reducible apply sendPlain_legal
        with_reducible assumption
      · with_reducible assumption
  · with_reducible apply unmatched_legal
    with_reducible assumption

theorem frameInOp_legal {s : State} {e : ℕ} {f : EthFrame} (hs : Kept vr qu s) : Kept vr qu (frameInOp s e f) := by
  unfold frameInOp
  extract_lets +onlyGivenNames t1
  refine (fun (ht1 : Kept vr qu t1) => ?_) ?_
  · clear_value t1
    with_reducible refine legal_ite (fun c2 => ?_) (fun c2 => ?_)
    · with_reducible assumption
    · with_reducible refine legal_ite (fun c3 => ?_) (fun c3 => ?_)
      · with_reducible apply ethCount_legal
        with_reducible assumption
      · with_reducible refine legal_ite (fun c4 => ?_) (fun c4 => ?_)
        · with_reducible assumption
        · with_reducible refine legal_ite (fun c5 => ?_) (fun c5 => ?_)
          · with_reducible apply ethCount_legal
            with_reducible assumption
          · with_reducible refine legal_ite (fun c6 => ?_) (fun c6 => ?_)
            · with_reducible apply ethCount_legal
              with_reducible assumption
            · with_reducible refine legal_ite (fun c7 => ?_) (fun c7 => ?_)
              · with_reducible apply unmatched_legal
                with_reducible assumption
              · with_reducible apply classify_legal
                with_reducible assumption
  · unfold t1
    with_reducible apply ethCount_legal
    with_reducible assumption

theorem slotPayload_legal {s : State} {x : ℕ} {n : ℕ} (hs : Kept vr qu s) : Kept1 vr qu (slotPayload s x n) := by
  unfold slotPayload
  extract_lets +onlyGivenNames t1
  extract_lets +onlyGivenNames t2
  extract_lets +onlyGivenNames t3
  refine (fun (ht3 : Kept1 vr qu t3) => ?_) ?_
  · clear_value t3
    with_reducible refine legal1_ite (fun c4 => ?_) (fun c4 => ?_)
    · refine legal1_mk ?_
      refine legal1_out ?_
      with_reducible assumption
    · refine legal1_mk ?_
      with_reducible assumption
  · unfold t3
    with_reducible refine legal1_foldl ?_ (fun u6 y6 hu6 => ?_)
    · refine legal1_mk ?_
      with_reducible assumption
    · extract_lets +onlyGivenNames t7
      refine (fun (ht7 : Kept1 vr qu t7) => ?_) ?_
      · clear_value t7
        refine legal1_mk ?_
        refine legal1_out ?_
        with_reducible assumption
      · unfold t7
        with_reducible apply engRead_legal
        refine legal1_out ?_
        with_reducible assumption

theorem zeroBlock_legal {s : State} {x : ℕ} {n : ℕ} (hs : Kept vr qu s) : Kept vr qu (zeroBlock s x n) := by
  unfold zeroBlock
  extract_lets +onlyGivenNames t1
  split
  · with_reducible assumption
  · extract_lets +onlyGivenNames t3
    refine (fun (ht3 : Kept vr qu t3) => ?_) ?_
    · clear_value t3
      with_reducible apply engWrite_legal
      with_reducible assumption
    · unfold t3
      with_reducible refine legal_foldl ?_ (fun u4 y4 hu4 => ?_)
      · with_reducible assumption
      · with_reducible apply engWrite_legal
        with_reducible assumption

theorem launchPayload_legal {s : State} {x : ℕ} {n : ℕ} (hs : Kept vr qu s) : Kept1 vr qu (launchPayload s x n) := by
  unfold launchPayload
  with_reducible refine legal1_ite (fun c1 => ?_) (fun c1 => ?_)
  · refine legal1_mk ?_
    with_reducible apply zeroBlock_legal
    with_reducible assumption
  · with_reducible apply slotPayload_legal
    with_reducible assumption

theorem launchOp_legal {s : State} {x : ℕ} (hs : Kept vr qu s) : Kept vr qu (launchOp s x) := by
  unfold launchOp
  extract_lets +onlyGivenNames t1
  extract_lets +onlyGivenNames t2
  extract_lets +onlyGivenNames t3
  extract_lets +onlyGivenNames t4
  extract_lets +onlyGivenNames t5
  extract_lets +onlyGivenNames t6
  extract_lets +onlyGivenNames t7
  refine (fun (ht7 : Kept vr qu t7) => ?_) ?_
  · clear_value t7
    extract_lets +onlyGivenNames t8
    refine (fun (ht8 : Kept1 vr qu t8) => ?_) ?_
    · clear_value t8
      extract_lets +onlyGivenNames t9
      refine (fun (ht9 : Kept vr qu t9) => ?_) ?_
      · clear_value t9
        extract_lets +onlyGivenNames t10
        extract_lets +onlyGivenNames t11
        refine (fun (ht11 : Kept vr qu t11) => ?_) ?_
        · clear_value t11
          extract_lets +onlyGivenNames t12
          with_reducible refine legal_ite (fun c13 => ?_) (fun c13 => ?_)
          · with_reducible assumption
          · with_reducible refine legal_ite (fun c14 => ?_) (fun c14 => ?_)
            · with_reducible apply txEnqueue_legal
              with_reducible apply ctxCount_legal
              with_reducible assumption
            · with_reducible apply txEnqueue_legal
              with_reducible assumption
        · unfold t11
          with_reducible apply ctxCount_legal
          with_reducible apply setCtx_legal
          with_reducible assumption
      · unfold t9
        with_reducible refine legal_ite (fun c15 => ?_) (fun c15 => ?_)
        · refine legal1_out ?_
          with_reducible assumption
        · with_reducible apply ctxCount_legal
          refine legal1_out ?_
          with_reducible assumption
    · unfold t8
      with_reducible apply launchPayload_legal
      with_reducible assumption
  · unfold t7
    with_reducible apply setCtx_legal
    with_reducible assumption

theorem frameOutOp_legal {s : State} {e : ℕ} (hs : Kept vr qu s) : Kept vr qu (frameOutOp s e) := by
  unfold frameOutOp
  extract_lets +onlyGivenNames t1
  refine (fun (ht1 : Kept vr qu t1) => ?_) ?_
  · clear_value t1
    with_reducible refine legal_ite (fun c3 => ?_) (fun c3 => ?_)
    · with_reducible assumption
    · split
      · with_reducible assumption
      · extract_lets +onlyGivenNames t5
        refine (fun (ht5 : Kept vr qu t5) => ?_) ?_
        · clear_value t5
          split
          · with_reducible apply ptpSent_legal
            with_reducible assumption
          · with_reducible assumption
        · unfold t5
          with_reducible apply startFrame_legal
          with_reducible assumption
  · unfold t1
    with_reducible refine legal_foldl ?_ (fun u6 y6 hu6 => ?_)
    · with_reducible apply creditsNow_legal
      with_reducible assumption
    · with_reducible apply dropBig_legal
      with_reducible assumption

theorem setLink_legal {s : State} {e : ℕ} {b : Bool} (hs : Kept vr qu s) : Kept vr qu (setLink s e b) := by
  unfold setLink
  with_reducible apply setLevel_legal
  with_reducible apply setRegB_legal
  with_reducible assumption

theorem dropLink_legal {s : State} {e : ℕ} (hs : Kept vr qu s) : Kept vr qu (dropLink s e) := by
  unfold dropLink
  exact legal_foldl (creditsNow_legal (setLink_legal hs)) (fun u q hu => dropHeads_legal hu)

theorem linkDownOp_legal {s : State} {e : ℕ} (hs : Kept vr qu s) : Kept vr qu (linkDownOp s e) := by
  unfold linkDownOp
  with_reducible refine legal_ite (fun c1 => ?_) (fun c1 => ?_)
  · with_reducible apply dropLink_legal
    with_reducible assumption
  · with_reducible assumption

theorem linkUpOp_legal {s : State} {e : ℕ} (hs : Kept vr qu s) : Kept vr qu (linkUpOp s e) := by
  unfold linkUpOp
  with_reducible refine legal_ite (fun c1 => ?_) (fun c1 => ?_)
  · with_reducible apply setLink_legal
    with_reducible assumption
  · with_reducible assumption

theorem ethCtlStore_legal {s : State} {m : ℕ} {e : ℕ} {v : W32} (hs : Kept vr qu s) : Kept vr qu (ethCtlStore s m e v) := by
  unfold ethCtlStore
  extract_lets +onlyGivenNames t1
  extract_lets +onlyGivenNames t2
  extract_lets +onlyGivenNames t3
  refine (fun (ht3 : Kept vr qu t3) => ?_) ?_
  · clear_value t3
    with_reducible refine legal_ite (fun c4 => ?_) (fun c4 => ?_)
    · with_reducible apply conflict_legal
      with_reducible assumption
    · with_reducible refine legal_ite (fun c5 => ?_) (fun c5 => ?_)
      · with_reducible refine legal_ite (fun c6 => ?_) (fun c6 => ?_)
        · with_reducible apply dropLink_legal
          with_reducible assumption
        · with_reducible refine legal_ite (fun c7 => ?_) (fun c7 => ?_)
          · with_reducible assumption
          · with_reducible apply conflict_legal
            with_reducible assumption
      · with_reducible refine legal_ite (fun c8 => ?_) (fun c8 => ?_)
        · with_reducible apply conflict_legal
          with_reducible assumption
        · with_reducible assumption
  · unfold t3
    with_reducible apply storePlain_legal
    with_reducible assumption

theorem cxConflict_legal {s : State} {e : ℕ} {x : ℕ} (hs : Kept vr qu s) : Kept vr qu (cxConflict s e x) := by
  unfold cxConflict
  extract_lets +onlyGivenNames t1
  with_reducible apply conflictAt_legal
  with_reducible refine legal_mk (legal_parts ?_)
  with_reducible assumption

theorem cxStart_legal {s : State} {x : ℕ} (hs : Kept vr qu s) : Kept vr qu (cxStart s x) := by
  unfold cxStart
  extract_lets +onlyGivenNames t1
  extract_lets +onlyGivenNames t2
  extract_lets +onlyGivenNames t3
  extract_lets +onlyGivenNames t4
  refine (fun (ht4 : Kept vr qu t4) => ?_) ?_
  · clear_value t4
    with_reducible refine legal_ite (fun c5 => ?_) (fun c5 => ?_)
    · with_reducible apply setCtx_legal
      with_reducible assumption
    · with_reducible refine legal_ite (fun c6 => ?_) (fun c6 => ?_)
      · with_reducible apply sendPlain_legal
        with_reducible assumption
      · with_reducible assumption
  · unfold t4
    with_reducible apply setCtx_legal
    with_reducible assumption

theorem cxStop_legal {s : State} {x : ℕ} {wasRtp : Bool} {e : ℕ} {g : ℕ} (hs : Kept vr qu s) : Kept vr qu (cxStop s x wasRtp e g) := by
  unfold cxStop
  extract_lets +onlyGivenNames t1
  extract_lets +onlyGivenNames t2
  refine (fun (ht2 : Kept vr qu t2) => ?_) ?_
  · clear_value t2
    with_reducible refine legal_ite (fun c3 => ?_) (fun c3 => ?_)
    · with_reducible apply sendPlain_legal
      with_reducible assumption
    · with_reducible assumption
  · unfold t2
    with_reducible apply setCtx_legal
    with_reducible assumption

theorem cxWrite_legal {s : State} {m : ℕ} {e : ℕ} {x : ℕ} {w : ℕ} {v : W32} (hs : Kept vr qu s) : Kept vr qu (cxWrite s m e x w v) := by
  unfold cxWrite
  extract_lets +onlyGivenNames t1
  extract_lets +onlyGivenNames t2
  extract_lets +onlyGivenNames t3
  extract_lets +onlyGivenNames t4
  refine (fun (ht4 : Kept vr qu t4) => ?_) ?_
  · clear_value t4
    extract_lets +onlyGivenNames t5
    refine (fun (ht5 : Kept vr qu t5) => ?_) ?_
    · clear_value t5
      with_reducible refine legal_ite (fun c6 => ?_) (fun c6 => ?_)
      · with_reducible apply cxConflict_legal
        with_reducible assumption
      · with_reducible refine legal_ite (fun c7 => ?_) (fun c7 => ?_)
        · with_reducible refine legal_ite (fun c8 => ?_) (fun c8 => ?_)
          · with_reducible apply grantRegions_legal
            with_reducible assumption
          · with_reducible apply cxConflict_legal
            with_reducible assumption
        · with_reducible refine legal_ite (fun c9 => ?_) (fun c9 => ?_)
          · with_reducible refine legal_ite (fun c10 => ?_) (fun c10 => ?_)
            · with_reducible apply grantRegions_legal
              with_reducible assumption
            · with_reducible apply cxConflict_legal
              with_reducible assumption
          · with_reducible refine legal_ite (fun c11 => ?_) (fun c11 => ?_)
            · dsimp only [t3]
              with_reducible apply setCtxW_legal
              with_reducible assumption
            · with_reducible apply cxConflict_legal
              dsimp only [t3]
              with_reducible apply setCtxW_legal
              with_reducible assumption
    · unfold t5
      with_reducible apply cxStart_legal
      dsimp only [t3]
      with_reducible apply setCtxW_legal
      with_reducible assumption
  · unfold t4
    with_reducible apply cxStop_legal
    dsimp only [t3]
    with_reducible apply setCtxW_legal
    with_reducible assumption

theorem cxRebind_legal {s : State} {e : ℕ} {x : ℕ} (hs : Kept vr qu s) : Kept vr qu (cxRebind s e x) := by
  unfold cxRebind
  extract_lets +onlyGivenNames t1
  with_reducible refine legal_ite (fun c2 => ?_) (fun c2 => ?_)
  · with_reducible assumption
  · with_reducible refine legal_ite (fun c3 => ?_) (fun c3 => ?_)
    · with_reducible apply cxConflict_legal
      with_reducible assumption
    · with_reducible apply setCtx_legal
      with_reducible assumption

theorem cxClaimStore_legal {s : State} {m : ℕ} {e : ℕ} {x : ℕ} {v : W32} (hs : Kept vr qu s) : Kept vr qu (cxClaimStore s m e x v) := by
  unfold cxClaimStore
  extract_lets +onlyGivenNames t1
  extract_lets +onlyGivenNames t2
  with_reducible refine legal_ite (fun c3 => ?_) (fun c3 => ?_)
  · with_reducible refine legal_ite (fun c4 => ?_) (fun c4 => ?_)
    · with_reducible apply cxConflict_legal
      with_reducible assumption
    · dsimp only [t2]
      with_reducible refine legal_mk (legal_parts ?_)
      with_reducible assumption
  · with_reducible refine legal_ite (fun c5 => ?_) (fun c5 => ?_)
    · dsimp only [t2]
      with_reducible refine legal_mk (legal_parts ?_)
      with_reducible assumption
    · with_reducible apply cxConflict_legal
      with_reducible assumption

theorem cxStatStore_legal {s : State} {e : ℕ} {x : ℕ} {v : W32} (hs : Kept vr qu s) : Kept vr qu (cxStatStore s e x v) := by
  unfold cxStatStore
  extract_lets +onlyGivenNames t1
  extract_lets +onlyGivenNames t2
  refine (fun (ht2 : Kept vr qu t2) => ?_) ?_
  · clear_value t2
    with_reducible refine legal_ite (fun c3 => ?_) (fun c3 => ?_)
    · with_reducible apply cxRebind_legal
      with_reducible assumption
    · with_reducible assumption
  · unfold t2
    with_reducible refine legal_ite (fun c4 => ?_) (fun c4 => ?_)
    · with_reducible refine legal_mk (legal_parts ?_)
      with_reducible assumption
    · with_reducible assumption

theorem cxStore_legal {s : State} {m : ℕ} {e : ℕ} {o : ℕ} {v : W32} (hs : Kept vr qu s) : Kept vr qu (cxStore s m e o v) := by
  unfold cxStore
  extract_lets +onlyGivenNames t1
  with_reducible refine legal_ite (fun c2 => ?_) (fun c2 => ?_)
  · with_reducible apply setPerM_legal
    with_reducible assumption
  · with_reducible refine legal_ite (fun c3 => ?_) (fun c3 => ?_)
    · with_reducible apply cxStatStore_legal
      with_reducible assumption
    · with_reducible refine legal_ite (fun c4 => ?_) (fun c4 => ?_)
      · with_reducible apply cxClaimStore_legal
        with_reducible assumption
      · with_reducible refine legal_ite (fun c5 => ?_) (fun c5 => ?_)
        · with_reducible apply cxWrite_legal
          with_reducible assumption
        · with_reducible assumption

theorem ethStore_legal {s : State} {m : ℕ} {a : ℕ} {v : W32} (hs : Kept vr qu s) : Kept vr qu (ethStore s m a v) := by
  unfold ethStore
  extract_lets +onlyGivenNames t1
  extract_lets +onlyGivenNames t2
  with_reducible refine legal_ite (fun c3 => ?_) (fun c3 => ?_)
  · with_reducible apply cxStore_legal
    with_reducible assumption
  · with_reducible refine legal_ite (fun c4 => ?_) (fun c4 => ?_)
    · with_reducible apply ethCtlStore_legal
      with_reducible assumption
    · with_reducible refine legal_ite (fun c5 => ?_) (fun c5 => ?_)
      · with_reducible apply gctlStore_legal
        with_reducible assumption
      · with_reducible refine legal_ite (fun c6 => ?_) (fun c6 => ?_)
        · with_reducible apply gclStore_legal
          with_reducible assumption
        · with_reducible refine legal_ite (fun c7 => ?_) (fun c7 => ?_)
          · with_reducible apply storePlain_legal
            with_reducible apply creditNow_legal
            with_reducible assumption
          · with_reducible apply storePlain_legal
            with_reducible assumption

theorem mdioOp_legal {s : State} {result : Word} (hs : Kept vr qu s) : Kept vr qu (mdioOp s result) := by
  unfold mdioOp
  extract_lets +onlyGivenNames t1
  split
  · with_reducible assumption
  · extract_lets +onlyGivenNames t3
    refine (fun (ht3 : Kept vr qu t3) => ?_) ?_
    · clear_value t3
      with_reducible apply longDone_legal
      with_reducible assumption
    · unfold t3
      with_reducible refine legal_mk (legal_parts ?_)
      with_reducible assumption

theorem execFrameReceive_legal {e : ℕ} {f : EthFrame} {s : State} (hs : Kept vr qu s) : ∀ u, execFrameReceive e f s = .next u → Kept vr qu u := by
  unfold execFrameReceive
  apply legal_act
  with_reducible apply frameInOp_legal
  with_reducible assumption

theorem execListenerLost_legal {x : ℕ} {s : State} (hs : Kept vr qu s) : ∀ u, execListenerLost x s = .next u → Kept vr qu u := by
  unfold execListenerLost
  apply legal_act
  with_reducible apply lostOp_legal
  with_reducible assumption

theorem execTalkerLaunch_legal {x : ℕ} {s : State} (hs : Kept vr qu s) : ∀ u, execTalkerLaunch x s = .next u → Kept vr qu u := by
  unfold execTalkerLaunch
  apply legal_act
  with_reducible apply launchOp_legal
  with_reducible assumption

theorem execFrameTransmit_legal {e : ℕ} {s : State} (hs : Kept vr qu s) : ∀ u, execFrameTransmit e s = .next u → Kept vr qu u := by
  unfold execFrameTransmit
  apply legal_act
  with_reducible apply frameOutOp_legal
  with_reducible assumption

theorem execGateIntervalEnd_legal {e : ℕ} {s : State} (hs : Kept vr qu s) : ∀ u, execGateIntervalEnd e s = .next u → Kept vr qu u := by
  unfold execGateIntervalEnd
  apply legal_act
  with_reducible apply gateEndOp_legal
  with_reducible assumption

theorem execGateChangeRequest_legal {m : ℕ} {e : ℕ} {v : W32} {s : State} (hs : Kept vr qu s) : ∀ u, execGateChangeRequest m e v s = .next u → Kept vr qu u := by
  unfold execGateChangeRequest
  apply legal_act
  with_reducible refine legal_ite (fun c1 => ?_) (fun c1 => ?_)
  · with_reducible apply gctlStore_legal
    with_reducible assumption
  · with_reducible assumption

theorem execGateListChange_legal {e : ℕ} {s : State} (hs : Kept vr qu s) : ∀ u, execGateListChange e s = .next u → Kept vr qu u := by
  unfold execGateListChange
  apply legal_act
  with_reducible apply gateSwapOp_legal
  with_reducible assumption

theorem execContextEnable_legal {m : ℕ} {e : ℕ} {v : W32} {s : State} (hs : Kept vr qu s) : ∀ u, execContextEnable m e v s = .next u → Kept vr qu u := by
  unfold execContextEnable
  apply legal_act
  with_reducible refine legal_ite (fun c1 => ?_) (fun c1 => ?_)
  · with_reducible apply cxStore_legal
    with_reducible assumption
  · with_reducible assumption

theorem execContextDisable_legal {m : ℕ} {e : ℕ} {v : W32} {s : State} (hs : Kept vr qu s) : ∀ u, execContextDisable m e v s = .next u → Kept vr qu u := by
  unfold execContextDisable
  apply legal_act
  with_reducible refine legal_ite (fun c1 => ?_) (fun c1 => ?_)
  · with_reducible apply cxStore_legal
    with_reducible assumption
  · with_reducible assumption

theorem execRebind_legal {m : ℕ} {e : ℕ} {v : W32} {s : State} (hs : Kept vr qu s) : ∀ u, execRebind m e v s = .next u → Kept vr qu u := by
  unfold execRebind
  apply legal_act
  with_reducible refine legal_ite (fun c1 => ?_) (fun c1 => ?_)
  · with_reducible apply cxStore_legal
    with_reducible assumption
  · with_reducible assumption

theorem execLinkDown_legal {e : ℕ} {s : State} (hs : Kept vr qu s) : ∀ u, execLinkDown e s = .next u → Kept vr qu u := by
  unfold execLinkDown
  apply legal_act
  with_reducible apply linkDownOp_legal
  with_reducible assumption

theorem execLinkUp_legal {e : ℕ} {s : State} (hs : Kept vr qu s) : ∀ u, execLinkUp e s = .next u → Kept vr qu u := by
  unfold execLinkUp
  apply legal_act
  with_reducible apply linkUpOp_legal
  with_reducible assumption

theorem execMdioCommand_legal {result : Word} {s : State} (hs : Kept vr qu s) : ∀ u, execMdioCommand result s = .next u → Kept vr qu u := by
  unfold execMdioCommand
  apply legal_act
  with_reducible apply mdioOp_legal
  with_reducible assumption

end Sys2Proof.Machine
end

