-- ==== Sys2Proof/Laws/LegalTimer.lean ====
section
/-! SUPPORT. What every operation of Machine/Timer.lean does to a legal state: it leaves one. -/
namespace Sys2Proof.Machine
open Sys2Proof.Config
variable {vr : Config.Variant} {qu : List Instr}

theorem setCount_legal {s : State} {k : ℕ} {v : W32} (hs : Kept vr qu s) : Kept vr qu (setCount s k v) := by
  unfold setCount
  extract_lets +onlyGivenNames t1
  with_reducible refine legal_mk (legal_parts ?_)
  with_reducible assumption

theorem setImage_legal {s : State} {k : ℕ} {v : W32} (hs : Kept vr qu s) : Kept vr qu (setImage s k v) := by
  unfold setImage
  extract_lets +onlyGivenNames t1
  with_reducible refine legal_mk (legal_parts ?_)
  with_reducible assumption

theorem tmEval_legal {s : State} {k : ℕ} (hs : Kept vr qu s) : Kept vr qu (tmEval s k) := by
  unfold tmEval
  extract_lets +onlyGivenNames t1
  extract_lets +onlyGivenNames t2
  extract_lets +onlyGivenNames t3
  refine (fun (ht3 : Kept vr qu t3) => ?_) ?_
  · clear_value t3
    with_reducible refine legal_ite (fun c4 => ?_) (fun c4 => ?_)
    · with_reducible apply pulse_legal
      with_reducible assumption
    · with_reducible assumption
  · unfold t3
    with_reducible refine legal_mk (legal_parts ?_)
    with_reducible assumption

theorem tmEvalUp_legal : ∀ {n k : Nat} {s : State} (_ : Kept vr qu s), Kept vr qu (tmEvalUp s k n)
  | 0, _, _, h => by
    unfold tmEvalUp
    exact h
  | n + 1, k, s, h => by
    unfold tmEvalUp
    exact legal_ite (fun _ => tmEvalUp_legal (tmEval_legal h)) (fun _ => tmEval_legal h)

theorem tmTakeTick_legal {s : State} {k : ℕ} (hs : Kept vr qu s) : Kept vr qu (tmTakeTick s k) := by
  unfold tmTakeTick
  extract_lets +onlyGivenNames t1
  with_reducible refine legal_mk (legal_parts ?_)
  with_reducible assumption

theorem tmIncr_legal : ∀ {n k : Nat} {s : State} (_ : Kept vr qu s), Kept vr qu (tmIncr s k n)
  | 0, _, _, h => by
    unfold tmIncr
    exact h
  | n + 1, k, s, h => by
    have h1 : Kept vr qu (setCount s k (tmCount s k + 1)) := setCount_legal h
    unfold tmIncr
    exact legal_ite (fun _ => h1) (fun _ => legal_ite (fun _ => pulse_legal h1)
      (fun _ => legal_ite (fun _ => tmIncr_legal (pulse_legal h1)) (fun _ => setRegF_legal (setRegB_legal (pulse_legal h1)))))

theorem tmTick_legal {s : State} {k : ℕ} (hs : Kept vr qu s) : Kept vr qu (tmTick s k) := by
  unfold tmTick
  extract_lets +onlyGivenNames t1
  refine (fun (ht1 : Kept vr qu t1) => ?_) ?_
  · clear_value t1
    with_reducible refine legal_foldl ?_ (fun u2 y2 hu2 => ?_)
    · with_reducible assumption
    · with_reducible refine legal_ite (fun c3 => ?_) (fun c3 => ?_)
      · with_reducible assumption
      · with_reducible apply tmEvalUp_legal
        with_reducible assumption
  · unfold t1
    with_reducible apply tmIncr_legal
    with_reducible apply tmTakeTick_legal
    with_reducible assumption

theorem tickOp_legal {s : State} {k : ℕ} (hs : Kept vr qu s) : Kept vr qu (tickOp s k) := by
  unfold tickOp
  with_reducible refine legal_ite (fun c1 => ?_) (fun c1 => ?_)
  · with_reducible apply tmTick_legal
    with_reducible assumption
  · with_reducible assumption

theorem wrapOp_legal {s : State} {k : ℕ} (hs : Kept vr qu s) : Kept vr qu (wrapOp s k) := by
  unfold wrapOp
  with_reducible refine legal_ite (fun c1 => ?_) (fun c1 => ?_)
  · with_reducible apply tmTick_legal
    with_reducible assumption
  · with_reducible assumption

theorem matchOp_legal {s : State} {k : ℕ} (hs : Kept vr qu s) : Kept vr qu (matchOp s k) := by
  unfold matchOp
  with_reducible apply tmEval_legal
  with_reducible assumption

theorem tmFreeze_legal {s : State} {m : ℕ} {start : Bool} (hs : Kept vr qu s) : Kept vr qu (tmFreeze s m start) := by
  unfold tmFreeze
  with_reducible refine legal_foldl ?_ (fun u2 y2 hu2 => ?_)
  · with_reducible assumption
  · extract_lets +onlyGivenNames t3
    refine (fun (ht3 : Kept vr qu t3) => ?_) ?_
    · clear_value t3
      extract_lets +onlyGivenNames t4
      with_reducible refine legal_ite (fun c5 => ?_) (fun c5 => ?_)
      · with_reducible assumption
      · with_reducible refine legal_ite (fun c6 => ?_) (fun c6 => ?_)
        · with_reducible apply setRegB_legal
          with_reducible assumption
        · with_reducible refine legal_ite (fun c7 => ?_) (fun c7 => ?_)
          · with_reducible assumption
          · with_reducible refine legal_ite (fun c8 => ?_) (fun c8 => ?_)
            · with_reducible refine legal_mk (legal_parts ?_)
              with_reducible assumption
            · with_reducible assumption
    · unfold t3
      with_reducible apply setImage_legal
      with_reducible apply setRegB_legal
      with_reducible assumption

theorem tmCntWrite_legal {s : State} {m : ℕ} {k : ℕ} {v : W32} (hs : Kept vr qu s) : Kept vr qu (tmCntWrite s m k v) := by
  unfold tmCntWrite
  with_reducible refine legal_ite (fun c1 => ?_) (fun c1 => ?_)
  · with_reducible apply setRegB_legal
    with_reducible assumption
  · with_reducible apply tmEvalUp_legal
    with_reducible apply setImage_legal
    with_reducible apply setCount_legal
    with_reducible assumption

theorem tmCntRead_legal {s : State} {k : ℕ} (hs : Kept vr qu s) : Kept1 vr qu (tmCntRead s k) := by
  unfold tmCntRead
  with_reducible refine legal1_ite (fun c1 => ?_) (fun c1 => ?_)
  · refine legal1_mk ?_
    with_reducible apply setRegB_legal
    with_reducible assumption
  · refine legal1_mk ?_
    with_reducible assumption

theorem tmCmpWrite_legal {s : State} {m : ℕ} {k : ℕ} {v : W32} (hs : Kept vr qu s) : Kept vr qu (tmCmpWrite s m k v) := by
  unfold tmCmpWrite
  with_reducible apply tmEvalUp_legal
  with_reducible apply storePlain_legal
  with_reducible assumption

theorem tmCtlWrite_legal {s : State} {m : ℕ} {k : ℕ} {v : W32} (hs : Kept vr qu s) : Kept vr qu (tmCtlWrite s m k v) := by
  unfold tmCtlWrite
  extract_lets +onlyGivenNames t1
  extract_lets +onlyGivenNames t2
  extract_lets +onlyGivenNames t3
  refine (fun (ht3 : Kept vr qu t3) => ?_) ?_
  · clear_value t3
    extract_lets +onlyGivenNames t4
    refine (fun (ht4 : Kept vr qu t4) => ?_) ?_
    · clear_value t4
      with_reducible refine legal_ite (fun c5 => ?_) (fun c5 => ?_)
      · with_reducible apply setRegB_legal
        with_reducible assumption
      · with_reducible refine legal_ite (fun c6 => ?_) (fun c6 => ?_)
        · with_reducible apply setRegB_legal
          with_reducible assumption
        · with_reducible refine legal_ite (fun c7 => ?_) (fun c7 => ?_)
          · with_reducible apply setRegB_legal
            with_reducible assumption
          · with_reducible apply tmEvalUp_legal
            with_reducible assumption
    · unfold t4
      with_reducible refine legal_ite (fun c8 => ?_) (fun c8 => ?_)
      · with_reducible apply setRegB_legal
        with_reducible assumption
      · with_reducible assumption
  · unfold t3
    with_reducible apply storePlain_legal
    with_reducible assumption

theorem tmStore_legal {s : State} {m : ℕ} {a : ℕ} {v : W32} (hs : Kept vr qu s) : Kept vr qu (tmStore s m a v) := by
  unfold tmStore
  extract_lets +onlyGivenNames t1
  extract_lets +onlyGivenNames t2
  with_reducible refine legal_ite (fun c3 => ?_) (fun c3 => ?_)
  · with_reducible apply setPerM_legal
    with_reducible assumption
  · with_reducible refine legal_ite (fun c4 => ?_) (fun c4 => ?_)
    · with_reducible apply tmFreeze_legal
      with_reducible assumption
    · with_reducible refine legal_ite (fun c5 => ?_) (fun c5 => ?_)
      · with_reducible apply storePlain_legal
        with_reducible assumption
      · split
        · with_reducible apply tmCntWrite_legal
          with_reducible assumption
        · with_reducible apply tmCmpWrite_legal
          with_reducible assumption
        · with_reducible apply tmCtlWrite_legal
          with_reducible assumption
        · with_reducible apply storePlain_legal
          with_reducible assumption

theorem tmLoad_legal {s : State} {m : ℕ} {a : ℕ} (hs : Kept vr qu s) : Kept1 vr qu (tmLoad s m a) := by
  unfold tmLoad
  extract_lets +onlyGivenNames t1
  with_reducible refine legal1_ite (fun c2 => ?_) (fun c2 => ?_)
  · refine legal1_mk ?_
    with_reducible assumption
  · with_reducible refine legal1_ite (fun c3 => ?_) (fun c3 => ?_)
    · with_reducible apply tmCntRead_legal
      with_reducible assumption
    · refine legal1_mk ?_
      with_reducible assumption

theorem execCounterTick_legal {k : ℕ} {s : State} (hs : Kept vr qu s) : ∀ u, execCounterTick k s = .next u → Kept vr qu u := by
  unfold execCounterTick
  apply legal_act
  with_reducible apply tickOp_legal
  with_reducible assumption

theorem execCounterWrap_legal {k : ℕ} {s : State} (hs : Kept vr qu s) : ∀ u, execCounterWrap k s = .next u → Kept vr qu u := by
  unfold execCounterWrap
  apply legal_act
  with_reducible apply wrapOp_legal
  with_reducible assumption

theorem execMatchEvent_legal {k : ℕ} {s : State} (hs : Kept vr qu s) : ∀ u, execMatchEvent k s = .next u → Kept vr qu u := by
  unfold execMatchEvent
  apply legal_act
  with_reducible apply matchOp_legal
  with_reducible assumption

theorem execFreezeStop_legal {m : ℕ} {s : State} (hs : Kept vr qu s) : ∀ u, execFreezeStop m s = .next u → Kept vr qu u := by
  unfold execFreezeStop
  apply legal_act
  with_reducible apply tmFreeze_legal
  with_reducible assumption

theorem execFreezeStart_legal {m : ℕ} {s : State} (hs : Kept vr qu s) : ∀ u, execFreezeStart m s = .next u → Kept vr qu u := by
  unfold execFreezeStart
  apply legal_act
  with_reducible apply tmFreeze_legal
  with_reducible assumption

theorem execTmCntStore_legal {m : ℕ} {k : ℕ} {v : W32} {s : State} (hs : Kept vr qu s) : ∀ u, execTmCntStore m k v s = .next u → Kept vr qu u := by
  unfold execTmCntStore
  apply legal_act
  with_reducible apply tmCntWrite_legal
  with_reducible assumption

theorem execTmCntLoad_legal {m : ℕ} {k : ℕ} {s : State} (hs : Kept vr qu s) : ∀ u, execTmCntLoad m k s = .next u → Kept vr qu u := by
  unfold execTmCntLoad
  apply legal_act
  extract_lets +onlyGivenNames t1
  refine (fun (ht1 : Kept vr qu t1) => ?_) ?_
  · clear_value t1
    with_reducible refine legal_mk (legal_parts ?_)
    with_reducible assumption
  · unfold t1
    refine legal1_out ?_
    with_reducible apply tmCntRead_legal
    with_reducible assumption

theorem execTmCmpStore_legal {m : ℕ} {k : ℕ} {v : W32} {s : State} (hs : Kept vr qu s) : ∀ u, execTmCmpStore m k v s = .next u → Kept vr qu u := by
  unfold execTmCmpStore
  apply legal_act
  with_reducible apply tmCmpWrite_legal
  with_reducible assumption

theorem execMenEnable_legal {m : ℕ} {k : ℕ} {s : State} (hs : Kept vr qu s) : ∀ u, execMenEnable m k s = .next u → Kept vr qu u := by
  unfold execMenEnable
  apply legal_act
  with_reducible refine legal_ite (fun c1 => ?_) (fun c1 => ?_)
  · with_reducible assumption
  · with_reducible apply tmCtlWrite_legal
    with_reducible assumption

end Sys2Proof.Machine
end

