-- ==== Sys2Proof/Laws/LegalDomains.lean ====
section
/-! SUPPORT. What every operation of Machine/Domains.lean does to a legal state: it leaves one. -/
namespace Sys2Proof.Machine
open Sys2Proof.Config
variable {vr : Config.Variant} {qu : List Instr}

theorem putClock_legal {s : State} {k : ℕ} {mult : ℕ} (hs : Kept vr qu s) : Kept vr qu (putClock s k mult) := by
  unfold putClock
  extract_lets +onlyGivenNames t1
  refine (fun (ht1 : Kept vr qu t1) => ?_) ?_
  · clear_value t1
    extract_lets +onlyGivenNames t2
    with_reducible refine legal_mk (legal_parts ?_)
    with_reducible assumption
  · unfold t1
    with_reducible apply setReg_legal
    with_reducible assumption

theorem landClock_legal {s : State} {k : ℕ} (hs : Kept vr qu s) : Kept vr qu (landClock s k) := by
  unfold landClock
  split
  · with_reducible assumption
  · with_reducible apply putClock_legal
    with_reducible assumption

theorem wipeDomain_legal {s : State} {d : ℕ} (hs : Kept vr qu s) : Kept vr qu (wipeDomain s d) := by
  unfold wipeDomain
  extract_lets +onlyGivenNames t1
  refine legal_mk (legal_each ?_ ?_ ?_ ?_ ?_ ?_ ?_ ?_ ?_ ?_ ?_ ?_ ?_ ?_ ?_ ?_)
  · with_reducible refine @legal_variant vr qu _ ?_
    with_reducible assumption
  · with_reducible refine @legal_pending vr qu _ ?_
    with_reducible assumption
  · with_reducible refine @legal_dev vr qu _ ?_
    with_reducible assumption
  · with_reducible refine @legal_held vr qu _ ?_
    with_reducible assumption
  · with_reducible refine @legal_queue vr qu _ ?_
    with_reducible assumption
  · with_reducible refine @legal_sessions vr qu _ ?_
    with_reducible assumption
  · with_reducible refine @legal_spi vr qu _ ?_
    with_reducible assumption
  · with_reducible refine @legal_bb vr qu _ ?_
    with_reducible assumption
  · with_reducible refine @legal_err vr qu _ ?_
    with_reducible assumption
  · with_reducible refine twf_filter _ _ _ ?_
    with_reducible refine @legal_data vr qu _ ?_
    with_reducible assumption
  · with_reducible refine twf_filter _ _ _ ?_
    with_reducible refine @legal_check vr qu _ ?_
    with_reducible assumption
  · with_reducible refine twf_filter _ _ _ ?_
    with_reducible refine @legal_parity vr qu _ ?_
    with_reducible assumption
  · with_reducible refine twf_filter _ _ _ ?_
    with_reducible refine @legal_pcheck vr qu _ ?_
    with_reducible assumption
  · with_reducible refine @legal_regs vr qu _ ?_
    with_reducible assumption
  · with_reducible refine @legal_perMaster vr qu _ ?_
    with_reducible assumption
  · with_reducible refine @legal_coaches vr qu _ ?_
    with_reducible assumption

theorem flushDomain_legal {s : State} {d : ℕ} (hs : Kept vr qu s) : Kept vr qu (flushDomain s d) := by
  unfold flushDomain
  with_reducible refine legal_foldl ?_ (fun u1 y1 hu1 => ?_)
  · with_reducible assumption
  · with_reducible refine legal_foldl ?_ (fun u2 y2 hu2 => ?_)
    · with_reducible assumption
    · with_reducible refine legal_ite (fun c3 => ?_) (fun c3 => ?_)
      · with_reducible apply writeOutEntry_legal
        with_reducible assumption
      · with_reducible assumption

theorem resetBlock_legal {s : State} {lo : ℕ} {hi : ℕ} (hs : Kept vr qu s) : Kept vr qu (resetBlock s lo hi) := by
  unfold resetBlock
  refine legal_mk (legal_each ?_ ?_ ?_ ?_ ?_ ?_ ?_ ?_ ?_ ?_ ?_ ?_ ?_ ?_ ?_ ?_)
  · with_reducible refine @legal_variant vr qu _ ?_
    with_reducible assumption
  · with_reducible refine @legal_pending vr qu _ ?_
    with_reducible assumption
  · with_reducible refine @legal_dev vr qu _ ?_
    with_reducible assumption
  · with_reducible refine @legal_held vr qu _ ?_
    with_reducible assumption
  · with_reducible refine @legal_queue vr qu _ ?_
    with_reducible assumption
  · with_reducible refine @legal_sessions vr qu _ ?_
    with_reducible assumption
  · with_reducible refine @legal_spi vr qu _ ?_
    with_reducible assumption
  · with_reducible refine @legal_bb vr qu _ ?_
    with_reducible assumption
  · with_reducible refine @legal_err vr qu _ ?_
    with_reducible assumption
  · with_reducible refine @legal_data vr qu _ ?_
    with_reducible assumption
  · with_reducible refine @legal_check vr qu _ ?_
    with_reducible assumption
  · with_reducible refine @legal_parity vr qu _ ?_
    with_reducible assumption
  · with_reducible refine @legal_pcheck vr qu _ ?_
    with_reducible assumption
  · exact twfBy_filter _ _ _ (legal_regs hs)
  · with_reducible refine @legal_perMaster vr qu _ ?_
    with_reducible assumption
  · with_reducible refine @legal_coaches vr qu _ ?_
    with_reducible assumption

theorem logicLost_legal {s : State} {d : ℕ} (hs : Kept vr qu s) : Kept vr qu (logicLost s d) := by
  unfold logicLost
  extract_lets +onlyGivenNames t1
  refine (fun (ht1 : Kept vr qu t1) => ?_) ?_
  · clear_value t1
    with_reducible refine legal_ite (fun c2 => ?_) (fun c2 => ?_)
    · with_reducible apply setCo_legal
      with_reducible apply dropReqs_legal
      with_reducible assumption
    · with_reducible refine legal_ite (fun c3 => ?_) (fun c3 => ?_)
      · with_reducible apply resetBlock_legal
        with_reducible apply dropLink_legal
        with_reducible assumption
      · with_reducible refine legal_ite (fun c4 => ?_) (fun c4 => ?_)
        · with_reducible apply resetBlock_legal
          with_reducible assumption
        · with_reducible refine legal_ite (fun c5 => ?_) (fun c5 => ?_)
          · with_reducible apply resetBlock_legal
            with_reducible assumption
          · with_reducible assumption
  · unfold t1
    split
    · with_reducible apply setLevel_legal
      with_reducible assumption
    · with_reducible assumption

theorem setDomain_legal {s0 : State} {d : ℕ} {st : ℕ} (hs : Kept vr qu s0) : Kept vr qu (setDomain s0 d st) := by
  unfold setDomain
  extract_lets +onlyGivenNames t1
  refine (fun (ht1 : Kept vr qu t1) => ?_) ?_
  · clear_value t1
    with_reducible refine legal_ite (fun c2 => ?_) (fun c2 => ?_)
    · with_reducible assumption
    · with_reducible refine legal_ite (fun c3 => ?_) (fun c3 => ?_)
      · with_reducible apply setRegF_legal
        with_reducible apply wipeDomain_legal
        with_reducible apply logicLost_legal
        with_reducible assumption
      · with_reducible refine legal_ite (fun c4 => ?_) (fun c4 => ?_)
        · with_reducible apply setRegF_legal
          with_reducible apply logicLost_legal
          with_reducible apply flushDomain_legal
          with_reducible assumption
        · with_reducible apply setRegF_legal
          with_reducible assumption
  · unfold t1
    with_reducible refine legal_ite (fun c5 => ?_) (fun c5 => ?_)
    · with_reducible apply copyCrash_legal
      with_reducible assumption
    · with_reducible assumption

theorem switchOff_legal {s : State} {d : ℕ} (hs : Kept vr qu s) : Kept vr qu (switchOff s d) := by
  unfold switchOff
  with_reducible apply setDomain_legal
  with_reducible assumption

theorem switchOn_legal {s : State} {d : ℕ} (hs : Kept vr qu s) : Kept vr qu (switchOn s d) := by
  unfold switchOn
  with_reducible apply setDomain_legal
  with_reducible apply setRegF_legal
  with_reducible assumption

theorem domStart_legal {s : State} {d : ℕ} {req : ℕ} (hs : Kept vr qu s) : Kept vr qu (domStart s d req) := by
  unfold domStart
  extract_lets +onlyGivenNames t1
  refine (fun (ht1 : Kept vr qu t1) => ?_) ?_
  · clear_value t1
    extract_lets +onlyGivenNames t2
    with_reducible refine legal_ite (fun c3 => ?_) (fun c3 => ?_)
    · with_reducible assumption
    · with_reducible refine legal_mk (legal_parts ?_)
      with_reducible assumption
  · unfold t1
    with_reducible apply setRegB_legal
    with_reducible assumption

theorem domainReqOp_legal {s : State} {d : ℕ} {req : ℕ} (hs : Kept vr qu s) : Kept vr qu (domainReqOp s d req) := by
  unfold domainReqOp
  with_reducible refine legal_ite (fun c1 => ?_) (fun c1 => ?_)
  · with_reducible assumption
  · with_reducible apply domStart_legal
    with_reducible apply setRegF_legal
    with_reducible assumption

theorem domNext_legal {s : State} (hs : Kept vr qu s) : Kept vr qu (domNext s) := by
  unfold domNext
  split
  · with_reducible apply domStart_legal
    with_reducible assumption
  · with_reducible assumption

theorem domainDoneOp_legal {s : State} {d : ℕ} (hs : Kept vr qu s) : Kept vr qu (domainDoneOp s d) := by
  unfold domainDoneOp
  split
  · with_reducible assumption
  · extract_lets +onlyGivenNames t2
    refine (fun (ht2 : Kept vr qu t2) => ?_) ?_
    · clear_value t2
      extract_lets +onlyGivenNames t3
      with_reducible apply domNext_legal
      with_reducible refine legal_mk (legal_parts ?_)
      with_reducible assumption
    · unfold t2
      with_reducible apply setRegB_legal
      with_reducible apply setDomain_legal
      with_reducible assumption

theorem execDomainRequest_legal {d : ℕ} {req : ℕ} {s : State} (hs : Kept vr qu s) : ∀ u, execDomainRequest d req s = .next u → Kept vr qu u := by
  unfold execDomainRequest
  apply legal_act
  with_reducible apply domainReqOp_legal
  with_reducible assumption

theorem execDomainTransitionDone_legal {d : ℕ} {s : State} (hs : Kept vr qu s) : ∀ u, execDomainTransitionDone d s = .next u → Kept vr qu u := by
  unfold execDomainTransitionDone
  apply legal_act
  with_reducible apply domainDoneOp_legal
  with_reducible assumption

end Sys2Proof.Machine
end

