-- ==== Sys2Proof/Laws/LegalBlackBox.lean ====
section
/-! SUPPORT. What every operation of Machine/BlackBox.lean does to a legal state: it leaves one. -/
namespace Sys2Proof.Machine
open Sys2Proof.Config
variable {vr : Config.Variant} {qu : List Instr}

theorem setDev_legal {s : State} {new row : Nat} (h : Kept vr qu s) (hd : new ≤ 7) : Kept vr qu (setDev s new row) := by
  unfold setDev
  extract_lets t
  have ht : Kept vr qu t := bbL0_legal h
  exact legal_mk (legal_each ht.variant ht.pending hd ht.legal.held ht.legal.queue ht.legal.sessions ht.legal.spi ht.legal.bbIntake ht.legal.errIntake (legal_data ht) (legal_check ht) (legal_parity ht)
    (legal_pcheck ht) (legal_regs ht) (legal_perMaster ht) (legal_coaches ht))

theorem refusedByState_legal {s : State} {what : ℕ} {code : ℕ} (hs : Kept vr qu s) : Kept vr qu (refusedByState s what code) := by
  unfold refusedByState
  with_reducible apply bbL0_legal
  with_reducible assumption

theorem setHeader_legal {s : State} {h : BbHeader} (hs : Kept vr qu s) : Kept vr qu (setHeader s h) := by
  unfold setHeader
  extract_lets +onlyGivenNames t1
  with_reducible refine legal_mk (legal_parts ?_)
  with_reducible assumption

theorem bbLostNext_legal {s : State} (h : Kept vr qu s) (hl : s.bb.intake.length < 32) : Kept vr qu (bbLostNext s) := by
  unfold bbLostNext
  split
  · extract_lets r t u
    have ht : Kept vr qu t := setReg_legal h
    refine legal_mk (legal_each ht.variant ht.pending ht.legal.dev ht.legal.held ht.legal.queue ht.legal.sessions ht.legal.spi ?_ ht.legal.errIntake (legal_data ht) (legal_check ht) (legal_parity ht) (legal_pcheck ht) (legal_regs ht) (legal_perMaster ht) (legal_coaches ht))
    exact le_of_len hl
  · exact h

theorem ringPut_legal {s : State} {e : BbEntry} (hs : Kept vr qu s) : Kept vr qu (ringPut s e) := by
  unfold ringPut
  extract_lets +onlyGivenNames t1
  extract_lets +onlyGivenNames t2
  extract_lets +onlyGivenNames t3
  extract_lets +onlyGivenNames t4
  refine (fun (ht4 : Kept vr qu t4) => ?_) ?_
  · clear_value t4
    extract_lets +onlyGivenNames t5
    extract_lets +onlyGivenNames t6
    with_reducible refine legal_ite (fun c7 => ?_) (fun c7 => ?_)
    · with_reducible apply pulse_legal
      with_reducible apply setHeader_legal
      with_reducible refine legal_mk (legal_parts ?_)
      with_reducible assumption
    · with_reducible refine legal_ite (fun c8 => ?_) (fun c8 => ?_)
      · with_reducible apply setHeader_legal
        with_reducible refine legal_mk (legal_parts ?_)
        with_reducible assumption
      · with_reducible apply setHeader_legal
        with_reducible assumption
  · unfold t4
    with_reducible refine legal_mk (legal_parts ?_)
    with_reducible assumption

theorem ringWriteOp_legal {s : State} (h : Kept vr qu s) : Kept vr qu (ringWriteOp s) := by
  unfold ringWriteOp
  split
  · exact h
  · split
    · exact h
    · rename_i e r q
      have hr : r.length < 32 := lt_of_tail q (legal_bb h)
      have ht : Kept vr qu (bbLostNext { s with bb := { s.bb with intake := r, nextWrite := s.now + 16 } }) :=
        bbLostNext_legal (legal_mk (legal_each h.variant h.pending h.legal.dev h.legal.held h.legal.queue h.legal.sessions h.legal.spi (Nat.le_of_lt hr) h.legal.errIntake (legal_data h) (legal_check h)
          (legal_parity h) (legal_pcheck h) (legal_regs h) (legal_perMaster h) (legal_coaches h))) hr
      exact legal_ite (fun _ => setHeader_legal ht) (fun _ => ringPut_legal ht)

theorem ringDrain_legal : ∀ {n : Nat} {s : State} (_ : Kept vr qu s), Kept vr qu (ringDrain n s)
  | 0, _, h => by
    unfold ringDrain
    exact h
  | n + 1, s, h => by
    unfold ringDrain
    exact legal_ite (fun _ => h) (fun _ => ringDrain_legal (ringWriteOp_legal (legal_mk (legal_parts h))))

theorem eraseCopy_legal {s : State} {p : ℕ} (hs : Kept vr qu s) : Kept vr qu (eraseCopy s p) := by
  unfold eraseCopy
  extract_lets +onlyGivenNames t1
  with_reducible refine legal_mk (legal_parts ?_)
  with_reducible assumption

theorem putCopy_legal {s : State} {p : ℕ} {c : BbCopy} (hs : Kept vr qu s) : Kept vr qu (putCopy s p c) := by
  unfold putCopy
  extract_lets +onlyGivenNames t1
  refine (fun (ht1 : Kept vr qu t1) => ?_) ?_
  · clear_value t1
    extract_lets +onlyGivenNames t2
    with_reducible refine legal_mk (legal_parts ?_)
    with_reducible assumption
  · unfold t1
    with_reducible apply eraseCopy_legal
    with_reducible assumption

theorem rearmStart_legal {s : State} (hs : Kept vr qu s) : Kept vr qu (rearmStart s) := by
  unfold rearmStart
  extract_lets +onlyGivenNames t1
  with_reducible refine legal_mk (legal_parts ?_)
  with_reducible assumption

theorem rearmDoneOp_legal {s : State} (hs : Kept vr qu s) : Kept vr qu (rearmDoneOp s) := by
  unfold rearmDoneOp
  extract_lets +onlyGivenNames t1
  extract_lets +onlyGivenNames t2
  refine (fun (ht2 : Kept vr qu t2) => ?_) ?_
  · clear_value t2
    extract_lets +onlyGivenNames t3
    extract_lets +onlyGivenNames t4
    extract_lets +onlyGivenNames t5
    refine (fun (ht5 : Kept vr qu t5) => ?_) ?_
    · clear_value t5
      with_reducible refine legal_ite (fun c6 => ?_) (fun c6 => ?_)
      · with_reducible assumption
      · with_reducible apply longDone_legal
        with_reducible apply bbL0_legal
        with_reducible assumption
    · unfold t5
      with_reducible apply setHeader_legal
      with_reducible refine legal_mk (legal_parts ?_)
      with_reducible assumption
  · unfold t2
    with_reducible apply putCopy_legal
    with_reducible assumption

theorem eraseAll_legal {s : State} (hs : Kept vr qu s) : Kept vr qu (eraseAll s) := by
  unfold eraseAll
  with_reducible refine legal_foldl ?_ (fun u1 y1 hu1 => ?_)
  · with_reducible assumption
  · with_reducible apply eraseCopy_legal
    with_reducible assumption

theorem l0Put_legal {s : State} {off : ℕ} {lines : ℕ} {x : ℕ} (hs : Kept vr qu s) : Kept vr qu (l0Put s off lines x) := by
  unfold l0Put
  with_reducible refine legal_foldl ?_ (fun u1 y1 hu1 => ?_)
  · with_reducible assumption
  · refine legalO_out ?_
    with_reducible apply turnAccess_legal
    with_reducible assumption

theorem bbSelftest_legal {s : State} (hs : Kept vr qu s) : Kept vr qu (bbSelftest s) := by
  unfold bbSelftest
  extract_lets +onlyGivenNames t1
  extract_lets +onlyGivenNames t2
  extract_lets +onlyGivenNames t3
  refine (fun (ht3 : Kept vr qu t3) => ?_) ?_
  · clear_value t3
    extract_lets +onlyGivenNames t4
    refine (fun (ht4 : Kept vr qu t4) => ?_) ?_
    · clear_value t4
      extract_lets +onlyGivenNames t5
      extract_lets +onlyGivenNames t6
      extract_lets +onlyGivenNames t7
      refine (fun (ht7 : Kept vr qu t7) => ?_) ?_
      · clear_value t7
        extract_lets +onlyGivenNames t8
        refine (fun (ht8 : Kept vr qu t8) => ?_) ?_
        · clear_value t8
          with_reducible refine legal_ite (fun c9 => ?_) (fun c9 => ?_)
          · with_reducible assumption
          · with_reducible apply ringPut_legal
            with_reducible assumption
        · unfold t8
          with_reducible apply setHeader_legal
          with_reducible assumption
      · unfold t7
        with_reducible refine legal_mk (legal_parts ?_)
        with_reducible assumption
    · unfold t4
      with_reducible refine legal_foldl ?_ (fun u10 y10 hu10 => ?_)
      · with_reducible assumption
      · with_reducible refine legal_ite (fun c11 => ?_) (fun c11 => ?_)
        · with_reducible assumption
        · with_reducible apply l0Put_legal
          with_reducible assumption
  · unfold t3
    with_reducible apply l0Put_legal
    with_reducible assumption

theorem bbBoot_legal {s : State} {copied : Bool} (hs : Kept vr qu s) : Kept vr qu (bbBoot s copied) := by
  unfold bbBoot
  split
  · with_reducible assumption
  · extract_lets +onlyGivenNames t2
    refine (fun (ht2 : Kept vr qu t2) => ?_) ?_
    · clear_value t2
      extract_lets +onlyGivenNames t3
      extract_lets +onlyGivenNames t4
      refine (fun (ht4 : Kept vr qu t4) => ?_) ?_
      · clear_value t4
        with_reducible apply bbL0_legal
        with_reducible assumption
      · unfold t4
        with_reducible refine legal_mk (legal_parts ?_)
        with_reducible assumption
    · unfold t2
      with_reducible refine legal_ite (fun c5 => ?_) (fun c5 => ?_)
      · with_reducible apply putCopy_legal
        with_reducible assumption
      · with_reducible apply eraseCopy_legal
        with_reducible assumption

theorem bbReadySlot_legal {s : State} (hs : Kept vr qu s) : Kept vr qu (bbReadySlot s) := by
  unfold bbReadySlot
  with_reducible refine legal_ite (fun c1 => ?_) (fun c1 => ?_)
  · with_reducible assumption
  · with_reducible apply eraseCopy_legal
    with_reducible assumption

theorem bbCommit_legal {s : State} (hs : Kept vr qu s) : Kept vr qu (bbCommit s) := by
  unfold bbCommit
  extract_lets +onlyGivenNames t1
  with_reducible apply bbOffer_legal
  with_reducible assumption

theorem bbStore_legal {s : State} {m : ℕ} {a : ℕ} {v : W32} (hs : Kept vr qu s) : Kept vr qu (bbStore s m a v) := by
  unfold bbStore
  extract_lets +onlyGivenNames t1
  refine (fun (ht1 : Kept vr qu t1) => ?_) ?_
  · clear_value t1
    with_reducible refine legal_ite (fun c2 => ?_) (fun c2 => ?_)
    · with_reducible assumption
    · with_reducible refine legal_ite (fun c3 => ?_) (fun c3 => ?_)
      · with_reducible apply bbCommit_legal
        with_reducible assumption
      · with_reducible refine legal_ite (fun c4 => ?_) (fun c4 => ?_)
        · with_reducible apply setHeader_legal
          with_reducible assumption
        · with_reducible assumption
  · unfold t1
    with_reducible apply storePlain_legal
    with_reducible assumption

theorem bbCommitOp_legal {s : State} {m : ℕ} {v : W32} (hs : Kept vr qu s) : Kept vr qu (bbCommitOp s m v) := by
  unfold bbCommitOp
  with_reducible apply bbStore_legal
  with_reducible assumption

theorem lostSumOp_legal {s : State} (hs : Kept vr qu s) : Kept vr qu (lostSumOp s) := by
  unfold lostSumOp
  extract_lets +onlyGivenNames t1
  extract_lets +onlyGivenNames t2
  extract_lets +onlyGivenNames t3
  refine (fun (ht3 : Kept vr qu t3) => ?_) ?_
  · clear_value t3
    extract_lets +onlyGivenNames t4
    with_reducible refine legal_ite (fun c5 => ?_) (fun c5 => ?_)
    · with_reducible assumption
    · with_reducible refine legal_mk (legal_parts ?_)
      with_reducible assumption
  · unfold t3
    with_reducible apply bbL0_legal
    with_reducible assumption

theorem pfailOp_legal {s : State} (hs : Kept vr qu s) : Kept vr qu (pfailOp s) := by
  unfold pfailOp
  extract_lets +onlyGivenNames t1
  extract_lets +onlyGivenNames t2
  refine (fun (ht2 : Kept vr qu t2) => ?_) ?_
  · clear_value t2
    extract_lets +onlyGivenNames t3
    refine (fun (ht3 : Kept vr qu t3) => ?_) ?_
    · clear_value t3
      with_reducible refine legal_ite (fun c4 => ?_) (fun c4 => ?_)
      · with_reducible assumption
      · with_reducible apply parkOp_legal
        with_reducible apply setLevel_legal
        with_reducible assumption
    · unfold t3
      with_reducible refine legal_ite (fun c5 => ?_) (fun c5 => ?_)
      · with_reducible refine legal_mk (legal_parts ?_)
        with_reducible assumption
      · with_reducible apply bbHw_legal
        with_reducible assumption
  · unfold t2
    with_reducible refine legal_mk (legal_parts ?_)
    with_reducible assumption

theorem pfailEndOp_legal {s : State} (hs : Kept vr qu s) : Kept vr qu (pfailEndOp s) := by
  unfold pfailEndOp
  extract_lets +onlyGivenNames t1
  with_reducible refine legal_ite (fun c2 => ?_) (fun c2 => ?_)
  · with_reducible apply setLevel_legal
    with_reducible refine legal_mk (legal_parts ?_)
    with_reducible assumption
  · with_reducible assumption

theorem dipEndOp_legal {s : State} (hs : Kept vr qu s) : Kept vr qu (dipEndOp s) := by
  unfold dipEndOp
  extract_lets +onlyGivenNames t1
  extract_lets +onlyGivenNames t2
  extract_lets +onlyGivenNames t3
  refine (fun (ht3 : Kept vr qu t3) => ?_) ?_
  · clear_value t3
    extract_lets +onlyGivenNames t4
    with_reducible refine legal_ite (fun c5 => ?_) (fun c5 => ?_)
    · with_reducible assumption
    · with_reducible apply unparkOp_legal
      with_reducible refine legal_mk (legal_parts ?_)
      with_reducible assumption
  · unfold t3
    with_reducible apply bbHw_legal
    with_reducible assumption

theorem execRingWrite_legal {s : State} (hs : Kept vr qu s) : ∀ u, execRingWrite s = .next u → Kept vr qu u := by
  unfold execRingWrite
  apply legal_act
  with_reducible apply ringWriteOp_legal
  with_reducible assumption

theorem execBbInCommit_legal {m : ℕ} {v : W32} {s : State} (hs : Kept vr qu s) : ∀ u, execBbInCommit m v s = .next u → Kept vr qu u := by
  unfold execBbInCommit
  apply legal_act
  with_reducible apply bbCommitOp_legal
  with_reducible assumption

theorem execRearmComplete_legal {s : State} (hs : Kept vr qu s) : ∀ u, execRearmComplete s = .next u → Kept vr qu u := by
  unfold execRearmComplete
  apply legal_act
  with_reducible apply rearmDoneOp_legal
  with_reducible assumption

theorem execLostPeriodSummary_legal {s : State} (hs : Kept vr qu s) : ∀ u, execLostPeriodSummary s = .next u → Kept vr qu u := by
  unfold execLostPeriodSummary
  apply legal_act
  with_reducible apply lostSumOp_legal
  with_reducible assumption

theorem execPfailAssert_legal {s : State} (hs : Kept vr qu s) : ∀ u, execPfailAssert s = .next u → Kept vr qu u := by
  unfold execPfailAssert
  apply legal_act
  with_reducible apply pfailOp_legal
  with_reducible assumption

theorem execPfailRelease_legal {s : State} (hs : Kept vr qu s) : ∀ u, execPfailRelease s = .next u → Kept vr qu u := by
  unfold execPfailRelease
  apply legal_act
  with_reducible apply pfailEndOp_legal
  with_reducible assumption

theorem execDipEnd_legal {s : State} (hs : Kept vr qu s) : ∀ u, execDipEnd s = .next u → Kept vr qu u := by
  unfold execDipEnd
  apply legal_act
  with_reducible apply dipEndOp_legal
  with_reducible assumption

end Sys2Proof.Machine
end

