-- ==== Sys2Proof/Laws/LegalAdmission.lean ====
section
/-! SUPPORT. What every operation of Machine/Admission.lean does to a legal state: it leaves one. -/
namespace Sys2Proof.Machine
open Sys2Proof.Config
variable {vr : Config.Variant} {qu : List Instr}

theorem coachRegions_legal {s : State} {phase : ℕ} (hs : Kept vr qu s) : Kept vr qu (coachRegions s phase) := by
  unfold coachRegions
  with_reducible refine legal_foldl ?_ (fun u2 y2 hu2 => ?_)
  · with_reducible assumption
  · with_reducible refine legal_foldl ?_ (fun u4 y4 hu4 => ?_)
    · with_reducible assumption
    · extract_lets +onlyGivenNames t5
      with_reducible apply setRegF_legal
      with_reducible apply setReg_legal
      with_reducible apply setReg_legal
      with_reducible assumption

theorem engineRegions_legal {s : State} (hs : Kept vr qu s) : Kept vr qu (engineRegions s) := by
  unfold engineRegions
  with_reducible refine legal_foldl ?_ (fun u1 y1 hu1 => ?_)
  · with_reducible assumption
  · with_reducible refine legal_ite (fun c2 => ?_) (fun c2 => ?_)
    · with_reducible assumption
    · with_reducible apply grantRegions_legal
      with_reducible assumption

theorem loadLines_legal {kind inst : Nat} : ∀ {n : Nat} {l : List Nat} {off : Nat} {s : State} (_ : Kept vr qu s), Kept vr qu (loadLines kind inst l off n s)
  | 0, _, _, _, h => by
    unfold loadLines
    exact h
  | n + 1, l, off, s, h => by
    unfold loadLines
    exact legal_ite (fun _ => h) (fun _ => loadLines_legal (legal_ite (fun _ => legalO_out (turnAccess_legal h))
      (fun _ => legal_foldl h (fun _ _ hu => legalO_out (turnAccess_legal hu)))))

theorem loadCoach_legal {s0 : State} {r : ImageRec} {c : ℕ} (hs : Kept vr qu s0) : Kept vr qu (loadCoach s0 r c) := by
  unfold loadCoach
  extract_lets +onlyGivenNames t1
  refine (fun (ht1 : Kept vr qu t1) => ?_) ?_
  · clear_value t1
    extract_lets +onlyGivenNames t2
    extract_lets +onlyGivenNames t3
    refine (fun (ht3 : Kept vr qu t3) => ?_) ?_
    · clear_value t3
      extract_lets +onlyGivenNames t4
      with_reducible apply loadLines_legal
      with_reducible assumption
    · unfold t3
      with_reducible apply loadLines_legal
      with_reducible assumption
  · unfold t1
    with_reducible apply copyCrash_legal
    with_reducible assumption

theorem beginCoach_legal {s : State} {r : ImageRec} {c : ℕ} (hs : Kept vr qu s) : Kept vr qu (beginCoach s r c) := by
  unfold beginCoach
  extract_lets +onlyGivenNames t1
  refine (fun (ht1 : Kept vr qu t1) => ?_) ?_
  · clear_value t1
    extract_lets +onlyGivenNames t2
    refine (fun (ht2 : Kept vr qu t2) => ?_) ?_
    · clear_value t2
      extract_lets +onlyGivenNames t3
      with_reducible apply setLogi_legal
      with_reducible assumption
    · unfold t2
      with_reducible apply startCoach_legal
      with_reducible assumption
  · unfold t1
    with_reducible apply setReg_legal
    with_reducible assumption

theorem freshCarts_legal {s : State} {t : Timetable} {w : Table ℕ} (hs : Kept vr qu s) : Kept vr qu (freshCarts s t w) := by
  unfold freshCarts
  extract_lets +onlyGivenNames t1
  with_reducible refine legal_mk (legal_parts ?_)
  with_reducible assumption

theorem admitOk_legal {s : State} {t : Timetable} {w : Table ℕ} (hs : Kept vr qu s) : Kept vr qu (admitOk s t w) := by
  unfold admitOk
  extract_lets +onlyGivenNames t1
  refine (fun (ht1 : Kept vr qu t1) => ?_) ?_
  · clear_value t1
    extract_lets +onlyGivenNames t2
    refine (fun (ht2 : Kept vr qu t2) => ?_) ?_
    · clear_value t2
      extract_lets +onlyGivenNames t3
      extract_lets +onlyGivenNames t4
      refine (fun (ht4 : Kept vr qu t4) => ?_) ?_
      · clear_value t4
        extract_lets +onlyGivenNames t5
        refine (fun (ht5 : Kept vr qu t5) => ?_) ?_
        · clear_value t5
          extract_lets +onlyGivenNames t6
          refine (fun (ht6 : Kept vr qu t6) => ?_) ?_
          · clear_value t6
            extract_lets +onlyGivenNames t7
            refine (fun (ht7 : Kept vr qu t7) => ?_) ?_
            · clear_value t7
              extract_lets +onlyGivenNames t8
              extract_lets +onlyGivenNames t9
              refine (fun (ht9 : Kept vr qu t9) => ?_) ?_
              · clear_value t9
                extract_lets +onlyGivenNames t10
                refine (fun (ht10 : Kept vr qu t10) => ?_) ?_
                · clear_value t10
                  with_reducible refine legal_foldl ?_ (fun u11 y11 hu11 => ?_)
                  · with_reducible assumption
                  · with_reducible apply beginCoach_legal
                    with_reducible assumption
                · unfold t10
                  with_reducible refine legal_foldl ?_ (fun u12 y12 hu12 => ?_)
                  · with_reducible assumption
                  · with_reducible apply setRegB_legal
                    with_reducible assumption
              · unfold t9
                with_reducible refine legal_foldl ?_ (fun u13 y13 hu13 => ?_)
                · with_reducible assumption
                · with_reducible apply loadCoach_legal
                  with_reducible assumption
            · unfold t7
              with_reducible refine legal_foldl ?_ (fun u14 y14 hu14 => ?_)
              · with_reducible assumption
              · with_reducible apply setRegB_legal
                with_reducible apply setReg_legal
                with_reducible assumption
          · unfold t6
            with_reducible refine legal_ite (fun c15 => ?_) (fun c15 => ?_)
            · with_reducible apply grantRegions_legal
              with_reducible assumption
            · with_reducible assumption
        · unfold t5
          with_reducible apply engineRegions_legal
          with_reducible apply coachRegions_legal
          with_reducible assumption
      · unfold t4
        with_reducible refine legal_mk (legal_parts ?_)
        with_reducible assumption
    · unfold t2
      with_reducible refine legal_foldl ?_ (fun u16 y16 hu16 => ?_)
      · with_reducible assumption
      · with_reducible apply switchOn_legal
        with_reducible assumption
  · unfold t1
    with_reducible apply freshCarts_legal
    with_reducible assumption

theorem admitOp_legal {s : State} (hs : Kept vr qu s) : Kept vr qu (admitOp s) := by
  unfold admitOp
  extract_lets +onlyGivenNames t1
  refine (fun (ht1 : Kept vr qu t1) => ?_) ?_
  · clear_value t1
    extract_lets +onlyGivenNames t2
    extract_lets +onlyGivenNames t3
    extract_lets +onlyGivenNames t4
    split
    · with_reducible assumption
    · extract_lets +onlyGivenNames t6
      extract_lets +onlyGivenNames t7
      extract_lets +onlyGivenNames t8
      extract_lets +onlyGivenNames t9
      extract_lets +onlyGivenNames t10
      refine (fun (ht10 : Kept vr qu t10) => ?_) ?_
      · clear_value t10
        extract_lets +onlyGivenNames t11
        with_reducible refine legal_ite (fun c12 => ?_) (fun c12 => ?_)
        · with_reducible assumption
        · clear_value t9
          split
          · with_reducible apply longDone_legal
            with_reducible refine legal_mk (legal_parts ?_)
            with_reducible assumption
          · with_reducible apply admitOk_legal
            with_reducible assumption
      · unfold t10
        with_reducible refine legal_mk (legal_parts ?_)
        with_reducible assumption
  · unfold t1
    with_reducible refine legal_foldl ?_ (fun u13 y13 hu13 => ?_)
    · with_reducible assumption
    · with_reducible apply landClock_legal
      with_reducible assumption

theorem runEntryOp_legal {s : State} (hs : Kept vr qu s) : Kept vr qu (runEntryOp s) := by
  unfold runEntryOp
  extract_lets +onlyGivenNames t1
  split
  · with_reducible assumption
  · extract_lets +onlyGivenNames t3
    extract_lets +onlyGivenNames t4
    refine (fun (ht4 : Kept vr qu t4) => ?_) ?_
    · clear_value t4
      extract_lets +onlyGivenNames t5
      refine (fun (ht5 : Kept vr qu t5) => ?_) ?_
      · clear_value t5
        extract_lets +onlyGivenNames t6
        extract_lets +onlyGivenNames t7
        refine (fun (ht7 : Kept vr qu t7) => ?_) ?_
        · clear_value t7
          extract_lets +onlyGivenNames t8
          refine (fun (ht8 : Kept vr qu t8) => ?_) ?_
          · clear_value t8
            with_reducible refine legal_ite (fun c9 => ?_) (fun c9 => ?_)
            · with_reducible assumption
            · with_reducible apply longDone_legal
              with_reducible assumption
          · unfold t8
            with_reducible refine legal_ite (fun c10 => ?_) (fun c10 => ?_)
            · with_reducible apply setDev_legal
              · with_reducible assumption
              · omega
            · with_reducible apply setDev_legal
              · with_reducible assumption
              · omega
        · unfold t7
          with_reducible refine legal_mk (legal_parts ?_)
          with_reducible assumption
      · unfold t5
        with_reducible refine legal_foldl ?_ (fun u11 y11 hu11 => ?_)
        · with_reducible assumption
        · with_reducible apply wagStart_legal
          with_reducible assumption
    · unfold t4
      with_reducible refine legal_mk (legal_parts ?_)
      with_reducible assumption

theorem stopCoach_legal {s : State} {c : ℕ} (hs : Kept vr qu s) : Kept vr qu (stopCoach s c) := by
  unfold stopCoach
  extract_lets +onlyGivenNames t1
  extract_lets +onlyGivenNames t2
  refine (fun (ht2 : Kept vr qu t2) => ?_) ?_
  · clear_value t2
    split
    · with_reducible apply setCo_legal
      with_reducible assumption
    · with_reducible apply setCo_legal
      with_reducible assumption
    · with_reducible apply setCo_legal
      with_reducible assumption
    · with_reducible assumption
  · unfold t2
    with_reducible apply copyCrash_legal
    with_reducible assumption

theorem dropQueue_legal {s : State} {n : ℕ} (hs : Kept vr qu s) : Kept vr qu (dropQueue s n) := by
  unfold dropQueue
  with_reducible refine legal_foldl ?_ (fun u1 y1 hu1 => ?_)
  · with_reducible apply setQueue_legal
    with_reducible assumption
  · with_reducible apply lostPeriod_legal
    with_reducible assumption

theorem loseJobs_legal {s : State} {c : ℕ} (hs : Kept vr qu s) : Kept vr qu (loseJobs s c) := by
  unfold loseJobs
  extract_lets +onlyGivenNames t1
  with_reducible refine legal_foldl ?_ (fun u2 y2 hu2 => ?_)
  · with_reducible assumption
  · with_reducible apply lostPeriod_legal
    with_reducible assumption

theorem withdrawTable_legal {s : State} (hs : Kept vr qu s) : Kept vr qu (withdrawTable s) := by
  unfold withdrawTable
  extract_lets +onlyGivenNames t1
  refine (fun (ht1 : Kept vr qu t1) => ?_) ?_
  · clear_value t1
    extract_lets +onlyGivenNames t2
    refine (fun (ht2 : Kept vr qu t2) => ?_) ?_
    · clear_value t2
      split
      · with_reducible assumption
      · extract_lets +onlyGivenNames t4
        refine (fun (ht4 : Kept vr qu t4) => ?_) ?_
        · clear_value t4
          extract_lets +onlyGivenNames t5
          refine (fun (ht5 : Kept vr qu t5) => ?_) ?_
          · clear_value t5
            extract_lets +onlyGivenNames t6
            extract_lets +onlyGivenNames t7
            with_reducible refine legal_mk (legal_parts ?_)
            with_reducible assumption
          · unfold t5
            with_reducible refine legal_ite (fun c8 => ?_) (fun c8 => ?_)
            · with_reducible apply grantRegions_legal
              with_reducible assumption
            · with_reducible assumption
        · unfold t4
          with_reducible refine legal_foldl ?_ (fun u9 y9 hu9 => ?_)
          · with_reducible assumption
          · with_reducible apply stopCoach_legal
            with_reducible assumption
    · unfold t2
      with_reducible refine legal_foldl ?_ (fun u10 y10 hu10 => ?_)
      · with_reducible assumption
      · with_reducible refine legal_ite (fun c11 => ?_) (fun c11 => ?_)
        · with_reducible apply loseJobs_legal
          with_reducible assumption
        · with_reducible assumption
  · unfold t1
    with_reducible refine legal_foldl ?_ (fun u12 y12 hu12 => ?_)
    · with_reducible assumption
    · with_reducible apply dropQueue_legal
      with_reducible assumption

theorem withdrawOp_legal {s : State} (hs : Kept vr qu s) : Kept vr qu (withdrawOp s) := by
  unfold withdrawOp
  with_reducible refine legal_ite (fun c1 => ?_) (fun c1 => ?_)
  · with_reducible apply setDev_legal
    · with_reducible apply stopWagons_legal
      with_reducible apply withdrawTable_legal
      with_reducible assumption
    · omega
  · with_reducible assumption

theorem cimReload_legal {s : State} {c : ℕ} {pk : ℕ} (hs : Kept vr qu s) : Kept vr qu (cimReload s c pk) := by
  unfold cimReload
  split
  · split
    · extract_lets +onlyGivenNames t3
      with_reducible refine legal_foldl ?_ (fun u5 y5 hu5 => ?_)
      · with_reducible assumption
      · extract_lets +onlyGivenNames t6
        with_reducible refine legal_ite (fun c7 => ?_) (fun c7 => ?_)
        · refine legalO_out ?_
          with_reducible apply turnAccess_legal
          with_reducible assumption
        · with_reducible assumption
    · with_reducible assumption
  · with_reducible assumption

theorem pageReconOp_legal {s : State} {kind : ℕ} {inst : ℕ} {bank : ℕ} (hs : Kept vr qu s) : Kept vr qu (pageReconOp s kind inst bank) := by
  unfold pageReconOp
  extract_lets +onlyGivenNames t1
  refine (fun (ht1 : Kept vr qu t1) => ?_) ?_
  · clear_value t1
    split
    · with_reducible refine legal_ite (fun c2 => ?_) (fun c2 => ?_)
      · with_reducible apply cimReload_legal
        with_reducible assumption
      · with_reducible assumption
    · with_reducible assumption
  · unfold t1
    with_reducible apply reconOp_legal
    with_reducible assumption

theorem execPageReconstruction_legal {kind : ℕ} {inst : ℕ} {bank : ℕ} {s : State} (hs : Kept vr qu s) : ∀ u, execPageReconstruction kind inst bank s = .next u → Kept vr qu u := by
  unfold execPageReconstruction
  apply legal_act
  with_reducible apply pageReconOp_legal
  with_reducible assumption

theorem execAdmit_legal {s : State} (hs : Kept vr qu s) : ∀ u, execAdmit s = .next u → Kept vr qu u := by
  unfold execAdmit
  apply legal_act
  with_reducible apply admitOp_legal
  with_reducible assumption

theorem execAdmitRunEntry_legal {s : State} (hs : Kept vr qu s) : ∀ u, execAdmitRunEntry s = .next u → Kept vr qu u := by
  unfold execAdmitRunEntry
  apply legal_act
  with_reducible apply runEntryOp_legal
  with_reducible assumption

end Sys2Proof.Machine
end

