-- ==== Sys2Proof/Laws/LegalFailover.lean ====
section
/-! SUPPORT. What every operation of Machine/Failover.lean does to a legal state: it leaves one. -/
namespace Sys2Proof.Machine
open Sys2Proof.Config
variable {vr : Config.Variant} {qu : List Instr}

theorem setRegionEpochs_legal {s : State} {c : ℕ} {ep : ℕ} (hs : Kept vr qu s) : Kept vr qu (setRegionEpochs s c ep) := by
  unfold setRegionEpochs
  with_reducible refine legal_foldl ?_ (fun u1 y1 hu1 => ?_)
  · with_reducible assumption
  · with_reducible apply setRegF_legal
    with_reducible assumption

theorem mapSlot_legal {s : State} {n : ℕ} {c : ℕ} (hs : Kept vr qu s) : Kept vr qu (mapSlot s n c) := by
  unfold mapSlot
  extract_lets +onlyGivenNames t1
  extract_lets +onlyGivenNames t2
  refine (fun (ht2 : Kept vr qu t2) => ?_) ?_
  · clear_value t2
    extract_lets +onlyGivenNames t3
    refine (fun (ht3 : Kept vr qu t3) => ?_) ?_
    · clear_value t3
      extract_lets +onlyGivenNames t4
      refine (fun (ht4 : Kept vr qu t4) => ?_) ?_
      · clear_value t4
        split
        · split
          · with_reducible apply beginCoach_legal
            with_reducible apply loadCoach_legal
            with_reducible assumption
          · with_reducible assumption
        · with_reducible assumption
      · unfold t4
        with_reducible apply setLogi_legal
        with_reducible assumption
    · unfold t3
      with_reducible apply setReg_legal
      with_reducible apply setRegionEpochs_legal
      with_reducible assumption
  · unfold t2
    with_reducible apply setSlotSt_legal
    with_reducible apply switchOn_legal
    with_reducible assumption

theorem advanceEpoch_legal {s : State} {n : ℕ} {f : ℕ} (hs : Kept vr qu s) : Kept vr qu (advanceEpoch s n f) := by
  unfold advanceEpoch
  extract_lets +onlyGivenNames t1
  with_reducible refine legal_ite (fun c2 => ?_) (fun c2 => ?_)
  · with_reducible assumption
  · with_reducible apply setRegionEpochs_legal
    with_reducible apply setLogi_legal
    with_reducible assumption

theorem rehomeCart_legal {s : State} {t : Timetable} {n : ℕ} {v : ℕ} (hs : Kept vr qu s) : Kept vr qu (rehomeCart s t n v) := by
  unfold rehomeCart
  extract_lets +onlyGivenNames t1
  extract_lets +onlyGivenNames t2
  refine (fun (ht2 : Kept vr qu t2) => ?_) ?_
  · clear_value t2
    extract_lets +onlyGivenNames t3
    extract_lets +onlyGivenNames t4
    clear_value t4 t1
    split
    · with_reducible apply enqueue_legal
      dsimp only [t3]
      with_reducible refine legal_mk (legal_parts ?_)
      with_reducible assumption
    · dsimp only [t3]
      with_reducible refine legal_mk (legal_parts ?_)
      with_reducible assumption
    · with_reducible apply notifySucc_legal
      with_reducible apply lostPeriod_legal
      with_reducible apply setLive_legal
      dsimp only [t3]
      with_reducible refine legal_mk (legal_parts ?_)
      with_reducible assumption
    · dsimp only [t3]
      with_reducible refine legal_mk (legal_parts ?_)
      with_reducible assumption
  · unfold t2
    with_reducible apply setQueue_legal
    with_reducible assumption

theorem loseCoach_legal {s : State} {n : ℕ} (hs : Kept vr qu s) : Kept vr qu (loseCoach s n) := by
  unfold loseCoach
  extract_lets +onlyGivenNames t1
  extract_lets +onlyGivenNames t2
  refine (fun (ht2 : Kept vr qu t2) => ?_) ?_
  · clear_value t2
    extract_lets +onlyGivenNames t3
    refine (fun (ht3 : Kept vr qu t3) => ?_) ?_
    · clear_value t3
      extract_lets +onlyGivenNames t4
      extract_lets +onlyGivenNames t5
      refine (fun (ht5 : Kept vr qu t5) => ?_) ?_
      · clear_value t5
        with_reducible refine legal_ite (fun c6 => ?_) (fun c6 => ?_)
        · with_reducible apply setDev_legal
          · with_reducible assumption
          · omega
        · with_reducible apply refusedByState_legal
          with_reducible assumption
      · unfold t5
        with_reducible apply bbL0_legal
        with_reducible assumption
    · unfold t3
      split
      · with_reducible refine legal_foldl ?_ (fun u7 y7 hu7 => ?_)
        · with_reducible assumption
        · with_reducible apply rehomeCart_legal
          with_reducible assumption
      · with_reducible assumption
  · unfold t2
    with_reducible apply dispPulse_legal
    with_reducible apply setLogi_legal
    with_reducible assumption

theorem failoverOp_legal {s : State} {n : ℕ} {offReported : Bool} {spareOk : Bool} {us : ℕ} (hs : Kept vr qu s) : Kept vr qu (failoverOp s n offReported spareOk us) := by
  unfold failoverOp
  extract_lets +onlyGivenNames t1
  extract_lets +onlyGivenNames t2
  refine (fun (ht2 : Kept vr qu t2) => ?_) ?_
  · clear_value t2
    extract_lets +onlyGivenNames t3
    refine (fun (ht3 : Kept vr qu t3) => ?_) ?_
    · clear_value t3
      extract_lets +onlyGivenNames t4
      extract_lets +onlyGivenNames t5
      refine (fun (ht5 : Kept vr qu t5) => ?_) ?_
      · clear_value t5
        with_reducible refine legal_ite (fun c7 => ?_) (fun c7 => ?_)
        · with_reducible assumption
        · split
          · with_reducible apply loseCoach_legal
            with_reducible assumption
          · extract_lets +onlyGivenNames t9
            refine (fun (ht9 : Kept vr qu t9) => ?_) ?_
            · clear_value t9
              extract_lets +onlyGivenNames t10
              extract_lets +onlyGivenNames t11
              refine (fun (ht11 : Kept vr qu t11) => ?_) ?_
              · clear_value t11
                with_reducible refine legal_ite (fun c12 => ?_) (fun c12 => ?_)
                · with_reducible apply loseCoach_legal
                  with_reducible apply setSlotSt_legal
                  with_reducible apply switchOff_legal
                  with_reducible apply switchOn_legal
                  with_reducible assumption
                · with_reducible apply dispPulse_legal
                  with_reducible apply bbL0_legal
                  with_reducible assumption
              · unfold t11
                with_reducible apply setLogi_legal
                with_reducible assumption
            · unfold t9
              with_reducible apply mapSlot_legal
              with_reducible assumption
      · unfold t5
        with_reducible apply setSlotSt_legal
        with_reducible apply advanceEpoch_legal
        with_reducible assumption
    · unfold t3
      with_reducible refine legal_ite (fun c13 => ?_) (fun c13 => ?_)
      · with_reducible apply switchOff_legal
        with_reducible assumption
      · with_reducible apply bbL0_legal
        with_reducible assumption
  · unfold t2
    with_reducible apply discardJobs_legal
    with_reducible apply copyCrash_legal
    with_reducible assumption

theorem recommissionOp_legal {s : State} {pass : Bool} (hs : Kept vr qu s) : Kept vr qu (recommissionOp s pass) := by
  unfold recommissionOp
  split
  · with_reducible assumption
  · extract_lets +onlyGivenNames t2
    refine (fun (ht2 : Kept vr qu t2) => ?_) ?_
    · clear_value t2
      extract_lets +onlyGivenNames t3
      extract_lets +onlyGivenNames t4
      refine (fun (ht4 : Kept vr qu t4) => ?_) ?_
      · clear_value t4
        extract_lets +onlyGivenNames t5
        refine (fun (ht5 : Kept vr qu t5) => ?_) ?_
        · clear_value t5
          extract_lets +onlyGivenNames t6
          refine (fun (ht6 : Kept vr qu t6) => ?_) ?_
          · clear_value t6
            extract_lets +onlyGivenNames t7
            refine (fun (ht7 : Kept vr qu t7) => ?_) ?_
            · clear_value t7
              with_reducible refine legal_ite (fun c9 => ?_) (fun c9 => ?_)
              · with_reducible apply switchOff_legal
                with_reducible assumption
              · split
                · with_reducible assumption
                · extract_lets +onlyGivenNames t11
                  extract_lets +onlyGivenNames t12
                  refine (fun (ht12 : Kept vr qu t12) => ?_) ?_
                  · clear_value t12
                    extract_lets +onlyGivenNames t13
                    extract_lets +onlyGivenNames t14
                    refine (fun (ht14 : Kept vr qu t14) => ?_) ?_
                    · clear_value t14
                      extract_lets +onlyGivenNames t15
                      extract_lets +onlyGivenNames t16
                      refine (fun (ht16 : Kept vr qu t16) => ?_) ?_
                      · clear_value t16
                        with_reducible refine legal_ite (fun c17 => ?_) (fun c17 => ?_)
                        · with_reducible assumption
                        · with_reducible refine legal_ite (fun c18 => ?_) (fun c18 => ?_)
                          · with_reducible apply setDev_legal
                            · with_reducible assumption
                            · omega
                          · with_reducible apply refusedByState_legal
                            with_reducible assumption
                      · unfold t16
                        with_reducible refine legal_mk (legal_parts ?_)
                        with_reducible assumption
                    · unfold t14
                      with_reducible apply dispPulse_legal
                      with_reducible apply setLogi_legal
                      with_reducible assumption
                  · unfold t12
                    with_reducible apply mapSlot_legal
                    with_reducible apply setLogi_legal
                    with_reducible assumption
            · unfold t7
              with_reducible apply setSlotSt_legal
              with_reducible apply switchOff_legal
              with_reducible assumption
          · unfold t6
            with_reducible apply longDone_legal
            with_reducible assumption
        · unfold t5
          with_reducible apply bbL0_legal
          with_reducible assumption
      · unfold t4
        with_reducible refine legal_mk (legal_parts ?_)
        with_reducible assumption
    · unfold t2
      with_reducible apply setCo_legal
      with_reducible apply wipeDomain_legal
      with_reducible assumption

theorem execFailover_legal {n : ℕ} {offReported : Bool} {spareOk : Bool} {outageUs : ℕ} {s : State} (hs : Kept vr qu s) : ∀ u, execFailover n offReported spareOk outageUs s = .next u → Kept vr qu u := by
  unfold execFailover
  apply legal_act
  with_reducible apply failoverOp_legal
  with_reducible assumption

theorem execRecommission_legal {pass : Bool} {s : State} (hs : Kept vr qu s) : ∀ u, execRecommission pass s = .next u → Kept vr qu u := by
  unfold execRecommission
  apply legal_act
  with_reducible apply recommissionOp_legal
  with_reducible assumption

end Sys2Proof.Machine
end

