-- ==== Sys2Proof/Laws/LegalPower.lean ====
section
/-! SUPPORT. What every operation of Machine/Power.lean does to a legal state: it leaves one. -/
namespace Sys2Proof.Machine
open Sys2Proof.Config
variable {vr : Config.Variant} {qu : List Instr}

theorem avsSet_legal {s : State} {v : ℕ} (hs : Kept vr qu s) : Kept vr qu (avsSet s v) := by
  unfold avsSet
  extract_lets +onlyGivenNames t1
  extract_lets +onlyGivenNames t2
  refine (fun (ht2 : Kept vr qu t2) => ?_) ?_
  · clear_value t2
    extract_lets +onlyGivenNames t3
    extract_lets +onlyGivenNames t4
    with_reducible refine legal_ite (fun c5 => ?_) (fun c5 => ?_)
    · with_reducible assumption
    · with_reducible refine legal_ite (fun c6 => ?_) (fun c6 => ?_)
      · with_reducible refine legal_mk (legal_parts ?_)
        with_reducible assumption
      · with_reducible refine legal_mk (legal_parts ?_)
        with_reducible assumption
  · unfold t2
    with_reducible apply setRegF_legal
    with_reducible assumption

theorem avsUpdate_legal {s : State} (hs : Kept vr qu s) : Kept vr qu (avsUpdate s) := by
  unfold avsUpdate
  with_reducible apply avsSet_legal
  with_reducible assumption

theorem stepDownOp_legal {s : State} (hs : Kept vr qu s) : Kept vr qu (stepDownOp s) := by
  unfold stepDownOp
  extract_lets +onlyGivenNames t1
  refine (fun (ht1 : Kept vr qu t1) => ?_) ?_
  · clear_value t1
    extract_lets +onlyGivenNames t2
    split
    · with_reducible refine legal_ite (fun c3 => ?_) (fun c3 => ?_)
      · with_reducible apply avsUpdate_legal
        with_reducible refine legal_mk (legal_parts ?_)
        with_reducible assumption
      · with_reducible assumption
    · with_reducible assumption
  · unfold t1
    with_reducible apply setRegF_legal
    with_reducible assumption

theorem supplyClear_legal {s : State} (hs : Kept vr qu s) : Kept vr qu (supplyClear s) := by
  unfold supplyClear
  with_reducible apply setLevel_legal
  with_reducible apply setRegF_legal
  with_reducible assumption

theorem supplyAlarmOp_legal {s : State} {code : ℕ} {rail : ℕ} (hs : Kept vr qu s) : Kept vr qu (supplyAlarmOp s code rail) := by
  unfold supplyAlarmOp
  with_reducible refine legal_ite (fun c1 => ?_) (fun c1 => ?_)
  · with_reducible assumption
  · with_reducible apply bbHw_legal
    with_reducible apply setLevel_legal
    with_reducible apply setRegF_legal
    with_reducible assumption

theorem readbackOp_legal {s : State} {mv : ℕ} {amps : ℕ} {responded : Bool} (hs : Kept vr qu s) : Kept vr qu (readbackOp s mv amps responded) := by
  unfold readbackOp
  extract_lets +onlyGivenNames t1
  refine (fun (ht1 : Kept vr qu t1) => ?_) ?_
  · clear_value t1
    extract_lets +onlyGivenNames t2
    extract_lets +onlyGivenNames t3
    extract_lets +onlyGivenNames t4
    extract_lets +onlyGivenNames t5
    with_reducible refine legal_ite (fun c6 => ?_) (fun c6 => ?_)
    · with_reducible assumption
    · with_reducible apply avsUpdate_legal
      with_reducible refine legal_ite (fun c7 => ?_) (fun c7 => ?_)
      · with_reducible apply supplyClear_legal
        with_reducible assumption
      · with_reducible assumption
  · unfold t1
    with_reducible refine legal_ite (fun c8 => ?_) (fun c8 => ?_)
    · with_reducible apply setReg_legal
      with_reducible assumption
    · with_reducible apply setRegB_legal
      with_reducible assumption

theorem marginOp_legal {s : State} {l : List ℕ} (hs : Kept vr qu s) : Kept vr qu (marginOp s l) := by
  unfold marginOp
  extract_lets +onlyGivenNames t1
  extract_lets +onlyGivenNames t2
  extract_lets +onlyGivenNames t3
  refine (fun (ht3 : Kept vr qu t3) => ?_) ?_
  · clear_value t3
    extract_lets +onlyGivenNames t4
    extract_lets +onlyGivenNames t5
    refine (fun (ht5 : Kept vr qu t5) => ?_) ?_
    · clear_value t5
      extract_lets +onlyGivenNames t6
      with_reducible apply avsUpdate_legal
      with_reducible refine legal_ite (fun c7 => ?_) (fun c7 => ?_)
      · with_reducible apply supplyClear_legal
        with_reducible assumption
      · with_reducible assumption
    · unfold t5
      with_reducible refine legal_ite (fun c8 => ?_) (fun c8 => ?_)
      · with_reducible apply setRegF_legal
        with_reducible assumption
      · with_reducible assumption
  · unfold t3
    with_reducible refine legal_foldl ?_ (fun u9 y9 hu9 => ?_)
    · with_reducible assumption
    · with_reducible apply setReg_legal
      with_reducible assumption

theorem vageStoreOp_legal {s : State} (hs : Kept vr qu s) : Kept vr qu (vageStoreOp s) := by
  unfold vageStoreOp
  extract_lets +onlyGivenNames t1
  with_reducible refine legal_ite (fun c2 => ?_) (fun c2 => ?_)
  · with_reducible refine legal_mk (legal_parts ?_)
    with_reducible assumption
  · with_reducible assumption

theorem setJunction_legal {s : State} {sensor : ℕ} {temp : ℤ} (hs : Kept vr qu s) : Kept vr qu (setJunction s sensor temp) := by
  unfold setJunction
  extract_lets +onlyGivenNames t1
  refine (fun (ht1 : Kept vr qu t1) => ?_) ?_
  · clear_value t1
    extract_lets +onlyGivenNames t2
    with_reducible refine legal_mk (legal_parts ?_)
    with_reducible assumption
  · unfold t1
    with_reducible apply setReg_legal
    with_reducible assumption

theorem thermalOp_legal {s : State} {sensor : ℕ} {temp : ℕ} (hs : Kept vr qu s) : Kept vr qu (thermalOp s sensor temp) := by
  unfold thermalOp
  extract_lets +onlyGivenNames t1
  refine (fun (ht1 : Kept vr qu t1) => ?_) ?_
  · clear_value t1
    extract_lets +onlyGivenNames t2
    extract_lets +onlyGivenNames t3
    refine (fun (ht3 : Kept vr qu t3) => ?_) ?_
    · clear_value t3
      with_reducible refine legal_ite (fun c4 => ?_) (fun c4 => ?_)
      · with_reducible assumption
      · with_reducible apply avsUpdate_legal
        with_reducible assumption
    · unfold t3
      with_reducible refine legal_ite (fun c5 => ?_) (fun c5 => ?_)
      · with_reducible assumption
      · with_reducible apply bbHw_legal
        with_reducible apply setLevel_legal
        with_reducible refine legal_mk (legal_parts ?_)
        with_reducible assumption
  · unfold t1
    with_reducible refine legal_ite (fun c6 => ?_) (fun c6 => ?_)
    · with_reducible apply setJunction_legal
      with_reducible assumption
    · with_reducible assumption

theorem thermalEndOp_legal {s : State} (hs : Kept vr qu s) : Kept vr qu (thermalEndOp s) := by
  unfold thermalEndOp
  extract_lets +onlyGivenNames t1
  refine (fun (ht1 : Kept vr qu t1) => ?_) ?_
  · clear_value t1
    extract_lets +onlyGivenNames t2
    with_reducible refine legal_ite (fun c3 => ?_) (fun c3 => ?_)
    · with_reducible assumption
    · with_reducible apply avsUpdate_legal
      with_reducible apply setLevel_legal
      with_reducible refine legal_mk (legal_parts ?_)
      with_reducible assumption
  · unfold t1
    with_reducible apply setJunction_legal
    with_reducible assumption

theorem clockDone_legal {s : State} {k : ℕ} {mult : ℕ} (hs : Kept vr qu s) : Kept vr qu (clockDone s k mult) := by
  unfold clockDone
  with_reducible apply avsUpdate_legal
  with_reducible apply putClock_legal
  with_reducible apply avsSet_legal
  with_reducible assumption

theorem clockSet_legal {s : State} {k : ℕ} {mult : ℕ} (hs : Kept vr qu s) : Kept vr qu (clockSet s k mult) := by
  unfold clockSet
  extract_lets +onlyGivenNames t1
  refine (fun (ht1 : Kept vr qu t1) => ?_) ?_
  · clear_value t1
    extract_lets +onlyGivenNames t2
    with_reducible refine legal_ite (fun c3 => ?_) (fun c3 => ?_)
    · with_reducible refine legal_mk (legal_parts ?_)
      with_reducible assumption
    · with_reducible apply clockDone_legal
      with_reducible assumption
  · unfold t1
    with_reducible apply avsSet_legal
    with_reducible assumption

theorem clusterClockOp_legal {s : State} {k : ℕ} {mult : ℕ} (hs : Kept vr qu s) : Kept vr qu (clusterClockOp s k mult) := by
  unfold clusterClockOp
  with_reducible refine legal_ite (fun c1 => ?_) (fun c1 => ?_)
  · with_reducible refine legal_ite (fun c2 => ?_) (fun c2 => ?_)
    · with_reducible refine legal_ite (fun c3 => ?_) (fun c3 => ?_)
      · with_reducible apply clockDone_legal
        with_reducible assumption
      · with_reducible assumption
    · with_reducible apply clockSet_legal
      with_reducible assumption
  · with_reducible assumption

theorem wdogStore_legal {s : State} {m : ℕ} {v : W32} (hs : Kept vr qu s) : Kept vr qu (wdogStore s m v) := by
  unfold wdogStore
  extract_lets +onlyGivenNames t1
  with_reducible refine legal_ite (fun c2 => ?_) (fun c2 => ?_)
  · with_reducible refine legal_mk (legal_parts ?_)
    with_reducible assumption
  · with_reducible apply conflict_legal
    with_reducible assumption

theorem pwrDomStore_legal {s : State} {m : ℕ} {d : ℕ} {v : W32} (hs : Kept vr qu s) : Kept vr qu (pwrDomStore s m d v) := by
  unfold pwrDomStore
  extract_lets +onlyGivenNames t1
  extract_lets +onlyGivenNames t2
  refine (fun (ht2 : Kept vr qu t2) => ?_) ?_
  · clear_value t2
    with_reducible refine legal_ite (fun c3 => ?_) (fun c3 => ?_)
    · with_reducible assumption
    · with_reducible refine legal_ite (fun c4 => ?_) (fun c4 => ?_)
      · with_reducible apply conflict_legal
        with_reducible assumption
      · with_reducible apply domStart_legal
        with_reducible assumption
  · unfold t2
    with_reducible apply storePlain_legal
    with_reducible assumption

theorem pwrStore_legal {s : State} {m : ℕ} {a : ℕ} {v : W32} (hs : Kept vr qu s) : Kept vr qu (pwrStore s m a v) := by
  unfold pwrStore
  extract_lets +onlyGivenNames t1
  with_reducible refine legal_ite (fun c2 => ?_) (fun c2 => ?_)
  · with_reducible apply pwrDomStore_legal
    with_reducible assumption
  · with_reducible refine legal_ite (fun c3 => ?_) (fun c3 => ?_)
    · with_reducible apply wdogStore_legal
      with_reducible assumption
    · with_reducible apply storePlain_legal
      with_reducible assumption

theorem execAvsReadback_legal {mv : ℕ} {amps : ℕ} {responded : Bool} {s : State} (hs : Kept vr qu s) : ∀ u, execAvsReadback mv amps responded s = .next u → Kept vr qu u := by
  unfold execAvsReadback
  apply legal_act
  with_reducible apply readbackOp_legal
  with_reducible assumption

theorem execVoltageStepDown_legal {s : State} (hs : Kept vr qu s) : ∀ u, execVoltageStepDown s = .next u → Kept vr qu u := by
  unfold execVoltageStepDown
  apply legal_act
  with_reducible apply stepDownOp_legal
  with_reducible assumption

theorem execMarginMeasure_legal {margins : List ℕ} {s : State} (hs : Kept vr qu s) : ∀ u, execMarginMeasure margins s = .next u → Kept vr qu u := by
  unfold execMarginMeasure
  apply legal_act
  with_reducible apply marginOp_legal
  with_reducible assumption

theorem execVAgeStore_legal {s : State} (hs : Kept vr qu s) : ∀ u, execVAgeStore s = .next u → Kept vr qu u := by
  unfold execVAgeStore
  apply legal_act
  with_reducible apply vageStoreOp_legal
  with_reducible assumption

theorem execSupplyAlarm_legal {code : ℕ} {rail : ℕ} {s : State} (hs : Kept vr qu s) : ∀ u, execSupplyAlarm code rail s = .next u → Kept vr qu u := by
  unfold execSupplyAlarm
  apply legal_act
  with_reducible apply supplyAlarmOp_legal
  with_reducible assumption

theorem execThermalAlarm_legal {sensor : ℕ} {temp : ℕ} {s : State} (hs : Kept vr qu s) : ∀ u, execThermalAlarm sensor temp s = .next u → Kept vr qu u := by
  unfold execThermalAlarm
  apply legal_act
  with_reducible apply thermalOp_legal
  with_reducible assumption

theorem execThermalAlarmEnd_legal {s : State} (hs : Kept vr qu s) : ∀ u, execThermalAlarmEnd s = .next u → Kept vr qu u := by
  unfold execThermalAlarmEnd
  apply legal_act
  with_reducible apply thermalEndOp_legal
  with_reducible assumption

theorem execClusterClockSet_legal {k : ℕ} {mult : ℕ} {s : State} (hs : Kept vr qu s) : ∀ u, execClusterClockSet k mult s = .next u → Kept vr qu u := by
  unfold execClusterClockSet
  apply legal_act
  with_reducible apply clusterClockOp_legal
  with_reducible assumption

theorem execWatchdogKick_legal {m : ℕ} {v : W32} {s : State} (hs : Kept vr qu s) : ∀ u, execWatchdogKick m v s = .next u → Kept vr qu u := by
  unfold execWatchdogKick
  apply legal_act
  with_reducible apply wdogStore_legal
  with_reducible assumption

end Sys2Proof.Machine
end

