-- ==== Sys2Proof/Laws/LegalStore.lean ====
section
/-! SUPPORT. What every operation of Machine/Store.lean does to a legal state: it leaves one. -/
namespace Sys2Proof.Machine
open Sys2Proof.Config
variable {vr : Config.Variant} {qu : List Instr}

theorem pllStore_legal {s : State} {m : ℕ} {k : ℕ} {v : W32} (hs : Kept vr qu s) : Kept vr qu (pllStore s m k v) := by
  unfold pllStore
  extract_lets +onlyGivenNames t1
  refine (fun (ht1 : Kept vr qu t1) => ?_) ?_
  · clear_value t1
    with_reducible refine legal_ite (fun c2 => ?_) (fun c2 => ?_)
    · with_reducible apply clockDone_legal
      with_reducible assumption
    · with_reducible assumption
  · unfold t1
    with_reducible apply storePlain_legal
    with_reducible assumption

theorem regStore_legal {s : State} {m : ℕ} {sup : Bool} {a : ℕ} {v : W32} (hs : Kept vr qu s) : Kept vr qu (regStore s m sup a v) := by
  unfold regStore
  extract_lets +onlyGivenNames t1
  extract_lets +onlyGivenNames t2
  split
  · with_reducible assumption
  · with_reducible refine legal_ite (fun c3 => ?_) (fun c3 => ?_)
    · with_reducible apply storeClaim_legal
      with_reducible assumption
    · with_reducible refine legal_ite (fun c4 => ?_) (fun c4 => ?_)
      · with_reducible apply pllStore_legal
        with_reducible assumption
      · with_reducible refine legal_ite (fun c5 => ?_) (fun c5 => ?_)
        · with_reducible refine legal_ite (fun c6 => ?_) (fun c6 => ?_)
          · with_reducible apply regionStore_legal
            with_reducible assumption
          · with_reducible refine legal_ite (fun c7 => ?_) (fun c7 => ?_)
            · with_reducible apply lpStore_legal
              with_reducible assumption
            · with_reducible refine legal_ite (fun c8 => ?_) (fun c8 => ?_)
              · with_reducible apply dctlStore_legal
                with_reducible assumption
              · with_reducible apply storePlain_legal
                with_reducible assumption
        · with_reducible refine legal_ite (fun c9 => ?_) (fun c9 => ?_)
          · with_reducible refine legal_ite (fun c10 => ?_) (fun c10 => ?_)
            · with_reducible apply eccStatStore_legal
              with_reducible assumption
            · with_reducible refine legal_ite (fun c11 => ?_) (fun c11 => ?_)
              · with_reducible apply injArmOp_legal
                with_reducible assumption
              · with_reducible apply storePlain_legal
                with_reducible assumption
          · with_reducible refine legal_ite (fun c12 => ?_) (fun c12 => ?_)
            · with_reducible apply mtStore_legal
              with_reducible assumption
            · with_reducible refine legal_ite (fun c13 => ?_) (fun c13 => ?_)
              · with_reducible apply fuseStore_legal
                with_reducible assumption
              · with_reducible refine legal_ite (fun c14 => ?_) (fun c14 => ?_)
                · with_reducible apply icStore_legal
                  with_reducible assumption
                · with_reducible refine legal_ite (fun c15 => ?_) (fun c15 => ?_)
                  · with_reducible apply tmStore_legal
                    with_reducible assumption
                  · with_reducible refine legal_ite (fun c16 => ?_) (fun c16 => ?_)
                    · with_reducible apply pwrStore_legal
                      with_reducible assumption
                    · with_reducible refine legal_ite (fun c17 => ?_) (fun c17 => ?_)
                      · with_reducible apply mcStore_legal
                        with_reducible assumption
                      · with_reducible refine legal_ite (fun c18 => ?_) (fun c18 => ?_)
                        · with_reducible apply bbStore_legal
                          with_reducible assumption
                        · with_reducible refine legal_ite (fun c19 => ?_) (fun c19 => ?_)
                          · with_reducible apply ptpStore_legal
                            with_reducible assumption
                          · with_reducible refine legal_ite (fun c20 => ?_) (fun c20 => ?_)
                            · with_reducible apply seStore_legal
                              with_reducible assumption
                            · with_reducible refine legal_ite (fun c21 => ?_) (fun c21 => ?_)
                              · with_reducible apply asStore_legal
                                with_reducible assumption
                              · with_reducible refine legal_ite (fun c22 => ?_) (fun c22 => ?_)
                                · with_reducible apply apStore_legal
                                  with_reducible assumption
                                · with_reducible refine legal_ite (fun c23 => ?_) (fun c23 => ?_)
                                  · with_reducible apply pdmRegStore_legal
                                    with_reducible assumption
                                  · with_reducible refine legal_ite (fun c24 => ?_) (fun c24 => ?_)
                                    · with_reducible apply ethStore_legal
                                      with_reducible assumption
                                    · with_reducible apply storePlain_legal
                                      with_reducible assumption

theorem regLoad_legal {s : State} {m : ℕ} {a : ℕ} (hs : Kept vr qu s) : Kept1 vr qu (regLoad s m a) := by
  unfold regLoad
  extract_lets +onlyGivenNames t1
  extract_lets +onlyGivenNames t2
  split
  · refine legal1_mk ?_
    with_reducible assumption
  · split
    · rename_i q3
      refine (fun hq3 => ?_) (@legalT_eq vr qu _ _ _ q3 ?_)
      · with_reducible assumption
      · with_reducible apply counterLoad_legal
        with_reducible assumption
    · with_reducible refine legal1_ite (fun c4 => ?_) (fun c4 => ?_)
      · refine legal1_mk ?_
        with_reducible assumption
      · with_reducible refine legal1_ite (fun c5 => ?_) (fun c5 => ?_)
        · refine legal1_mk ?_
          with_reducible assumption
        · with_reducible refine legal1_ite (fun c6 => ?_) (fun c6 => ?_)
          · refine legal1_mk ?_
            with_reducible assumption
          · with_reducible refine legal1_ite (fun c7 => ?_) (fun c7 => ?_)
            · refine legal1_mk ?_
              with_reducible assumption
            · with_reducible refine legal1_ite (fun c8 => ?_) (fun c8 => ?_)
              · refine legal1_mk ?_
                with_reducible assumption
              · with_reducible refine legal1_ite (fun c9 => ?_) (fun c9 => ?_)
                · with_reducible apply tmLoad_legal
                  with_reducible assumption
                · with_reducible refine legal1_ite (fun c10 => ?_) (fun c10 => ?_)
                  · refine legal1_mk ?_
                    with_reducible assumption
                  · with_reducible refine legal1_ite (fun c11 => ?_) (fun c11 => ?_)
                    · refine legal1_mk ?_
                      with_reducible assumption
                    · with_reducible refine legal1_ite (fun c12 => ?_) (fun c12 => ?_)
                      · refine legal1_mk ?_
                        with_reducible assumption
                      · with_reducible refine legal1_ite (fun c13 => ?_) (fun c13 => ?_)
                        · refine legal1_mk ?_
                          with_reducible assumption
                        · with_reducible refine legal1_ite (fun c14 => ?_) (fun c14 => ?_)
                          · refine legal1_mk ?_
                            with_reducible assumption
                          · refine legal1_mk ?_
                            with_reducible assumption

theorem execRegisterWrite_legal {m : ℕ} {sup : Bool} {addr : ℕ} {v : W32} {s : State} (hs : Kept vr qu s) : ∀ u, execRegisterWrite m sup addr v s = .next u → Kept vr qu u := by
  unfold execRegisterWrite
  apply legal_act
  with_reducible refine legal_ite (fun c1 => ?_) (fun c1 => ?_)
  · with_reducible assumption
  · with_reducible apply regStore_legal
    with_reducible assumption

theorem execClaimUnit_legal {m : ℕ} {addr : ℕ} {s : State} (hs : Kept vr qu s) : ∀ u, execClaimUnit m addr s = .next u → Kept vr qu u := by
  unfold execClaimUnit
  apply legal_act
  with_reducible refine legal_ite (fun c1 => ?_) (fun c1 => ?_)
  · with_reducible apply regStore_legal
    with_reducible assumption
  · with_reducible assumption

theorem execReleaseClaim_legal {m : ℕ} {addr : ℕ} {s : State} (hs : Kept vr qu s) : ∀ u, execReleaseClaim m addr s = .next u → Kept vr qu u := by
  unfold execReleaseClaim
  apply legal_act
  with_reducible refine legal_ite (fun c1 => ?_) (fun c1 => ?_)
  · with_reducible apply regStore_legal
    with_reducible assumption
  · with_reducible assumption

theorem execCanErrorStateChange_legal {c : ℕ} {s : State} (hs : Kept vr qu s) : ∀ u, execCanErrorStateChange c s = .next u → Kept vr qu u := by
  unfold execCanErrorStateChange
  apply legal_act
  with_reducible apply pulse_legal
  with_reducible assumption

theorem acceptOne_legal {s : State} {c : ℕ} {a : Access} (hs : Kept vr qu s) : Kept vr qu (acceptOne s c a) := by
  unfold acceptOne
  extract_lets +onlyGivenNames t1
  refine (fun (ht1 : KeptO vr qu t1) => ?_) ?_
  · clear_value t1
    split
    · extract_lets +onlyGivenNames t3
      extract_lets +onlyGivenNames t4
      with_reducible refine legal_ite (fun c5 => ?_) (fun c5 => ?_)
      · with_reducible assumption
      · split
        · with_reducible refine legal_ite (fun c6 => ?_) (fun c6 => ?_)
          · with_reducible apply portCycle_legal
            with_reducible assumption
          · with_reducible assumption
        · with_reducible assumption
    · extract_lets +onlyGivenNames t7
      refine (fun (ht7 : Kept1 vr qu t7) => ?_) ?_
      · clear_value t7
        with_reducible refine legal_ite (fun c8 => ?_) (fun c8 => ?_)
        · with_reducible apply answerAccess_legal
          with_reducible apply epochRefuse_legal
          with_reducible assumption
        · with_reducible refine legal_ite (fun c9 => ?_) (fun c9 => ?_)
          · with_reducible apply answerAccess_legal
            refine legal1_out ?_
            with_reducible assumption
          · with_reducible refine legal_ite (fun c10 => ?_) (fun c10 => ?_)
            · with_reducible assumption
            · with_reducible apply answerAccess_legal
              with_reducible apply regStore_legal
              with_reducible assumption
      · unfold t7
        with_reducible apply regLoad_legal
        with_reducible assumption
    · with_reducible apply serveNow_legal
      with_reducible assumption
    · with_reducible apply answerAccess_legal
      refine legalO_out ?_
      with_reducible assumption
  · unfold t1
    with_reducible apply coachNow_legal
    with_reducible assumption

theorem acceptOp_legal {s : State} {c : ℕ} {extra : ℕ} (hs : Kept vr qu s) : Kept vr qu (acceptOp s c extra) := by
  unfold acceptOp
  extract_lets +onlyGivenNames t1
  extract_lets +onlyGivenNames t2
  refine (fun (ht2 : Kept vr qu t2) => ?_) ?_
  · clear_value t2
    extract_lets +onlyGivenNames t3
    extract_lets +onlyGivenNames t4
    extract_lets +onlyGivenNames t5
    extract_lets +onlyGivenNames t6
    refine (fun (ht6 : Kept vr qu t6) => ?_) ?_
    · clear_value t6
      with_reducible apply finishBundle_legal
      with_reducible assumption
    · unfold t6
      with_reducible refine legal_ite (fun c7 => ?_) (fun c7 => ?_)
      · with_reducible refine legal_mk (legal_parts ?_)
        with_reducible assumption
      · with_reducible assumption
  · unfold t2
    with_reducible refine legal_foldl ?_ (fun u8 y8 hu8 => ?_)
    · with_reducible assumption
    · with_reducible apply acceptOne_legal
      with_reducible assumption

theorem execAccessAccepted_legal {c : ℕ} {extra : ℕ} {s : State} (hs : Kept vr qu s) : ∀ u, execAccessAccepted c extra s = .next u → Kept vr qu u := by
  unfold execAccessAccepted
  apply legal_act
  with_reducible apply acceptOp_legal
  with_reducible assumption

end Sys2Proof.Machine
end

