-- ==== Sys2Proof/Laws/LegalDictWrite.lean ====
section
/-! SUPPORT. What every operation of Machine/DictWrite.lean does to a legal state: it leaves one. -/
namespace Sys2Proof.Machine
open Sys2Proof.Config
variable {vr : Config.Variant} {qu : List Instr}

theorem storeTry_legal {s : State} {m : ℕ} {a : ℕ} {v : ℕ} (hs : Kept vr qu s) : KeptS vr qu (storeTry s m a v) := by
  unfold storeTry
  split
  · exact legalS_none
  · extract_lets +onlyGivenNames t2
    refine (fun (ht2 : Kept vr qu t2) => ?_) ?_
    · clear_value t2
      with_reducible refine legalS_ite (fun c3 => ?_) (fun c3 => ?_)
      · refine legalS_mk ?_
        with_reducible apply regStore_legal
        with_reducible assumption
      · with_reducible refine legalS_ite (fun c4 => ?_) (fun c4 => ?_)
        · exact legalS_none
        · refine legalS_mk ?_
          with_reducible apply setRegB_legal
          with_reducible assumption
    · unfold t2
      with_reducible apply regStore_legal
      with_reducible apply setRegB_legal
      with_reducible assumption

theorem dictStores_legal {s : State} {cl : ℕ} {l : List (ℕ × ℕ)} (hs : Kept vr qu s) : Kept2 vr qu (dictStores s cl l) := by
  unfold dictStores
  extract_lets +onlyGivenNames t1
  refine (fun (ht1 : Kept vr qu t1) => ?_) ?_
  · clear_value t1
    split
    · refine legal2_mk ?_
      with_reducible assumption
    · rename_i q2
      refine (fun hq2 => ?_) (@legalS_eq vr qu _ _ q2 ?_)
      · with_reducible refine legal2_ite (fun c3 => ?_) (fun c3 => ?_)
        · refine legal2_mk ?_
          with_reducible assumption
        · refine legal2_mk ?_
          with_reducible assumption
      · with_reducible refine legalS_foldl ?_ (fun u4 y4 hu4 => ?_)
        · refine legalS_mk ?_
          with_reducible assumption
        · refine legalS_bind ?_ ?_
          · with_reducible assumption
          · intro x5
            intro x6
            with_reducible apply storeTry_legal
            with_reducible assumption
  · unfold t1
    with_reducible refine legal_ite (fun c7 => ?_) (fun c7 => ?_)
    · with_reducible apply setReg_legal
      with_reducible assumption
    · with_reducible assumption

theorem dictStore_legal {s : State} {a : ℕ} {v : ℕ} (hs : Kept vr qu s) : Kept2 vr qu (dictStore s a v) := by
  unfold dictStore
  with_reducible apply dictStores_legal
  with_reducible assumption

theorem ethWrite_legal {s : State} {e : ℕ} {sub : ℕ} {d : List Byte} (hs : Kept vr qu s) : Kept2 vr qu (ethWrite s e sub d) := by
  unfold ethWrite
  extract_lets +onlyGivenNames t1
  extract_lets +onlyGivenNames t2
  extract_lets +onlyGivenNames t3
  extract_lets +onlyGivenNames t4
  split
  · with_reducible apply dictStores_legal
    with_reducible assumption
  · with_reducible refine legal2_ite (fun c5 => ?_) (fun c5 => ?_)
    · with_reducible apply dictStores_legal
      with_reducible assumption
    · refine legal2_mk ?_
      with_reducible assumption
  · with_reducible apply dictStores_legal
    with_reducible assumption
  · with_reducible apply dictStores_legal
    with_reducible assumption
  · with_reducible apply dictStores_legal
    with_reducible assumption
  · with_reducible apply dictStores_legal
    with_reducible assumption

theorem ctxStore1_legal {s : State} {x : ℕ} {w : ℕ} {v : ℕ} (hs : Kept vr qu s) : KeptS vr qu (ctxStore1 s x w v) := by
  unfold ctxStore1
  extract_lets +onlyGivenNames t1
  extract_lets +onlyGivenNames t2
  extract_lets +onlyGivenNames t3
  refine (fun (ht3 : Kept vr qu t3) => ?_) ?_
  · clear_value t3
    extract_lets +onlyGivenNames t4
    with_reducible refine legalS_ite (fun c5 => ?_) (fun c5 => ?_)
    · exact legalS_none
    · refine legalS_mk ?_
      with_reducible refine legal_mk (legal_parts ?_)
      with_reducible assumption
  · unfold t3
    with_reducible apply cxWrite_legal
    with_reducible refine legal_mk (legal_parts ?_)
    with_reducible assumption

theorem ctxStores_legal {s : State} {x : ℕ} {l : List (ℕ × ℕ)} (hs : Kept vr qu s) : KeptS vr qu (ctxStores s x l) := by
  unfold ctxStores
  with_reducible refine legalS_foldl ?_ (fun u1 y1 hu1 => ?_)
  · refine legalS_mk ?_
    with_reducible assumption
  · refine legalS_bind ?_ ?_
    · with_reducible assumption
    · intro x2
      intro x3
      with_reducible apply ctxStore1_legal
      with_reducible assumption

theorem ctxWriteVal_legal {s : State} {x : ℕ} {d : List Byte} (hs : Kept vr qu s) : Kept2 vr qu (ctxWriteVal s x d) := by
  unfold ctxWriteVal
  extract_lets +onlyGivenNames t1
  extract_lets +onlyGivenNames t2
  extract_lets +onlyGivenNames t3
  extract_lets +onlyGivenNames t4
  refine (fun (ht4 : Kept vr qu t4) => ?_) ?_
  · clear_value t4
    extract_lets +onlyGivenNames t5
    with_reducible refine legal2_ite (fun c6 => ?_) (fun c6 => ?_)
    · refine legal2_mk ?_
      with_reducible assumption
    · split
      · refine legal2_mk ?_
        with_reducible assumption
      · rename_i q7
        refine (fun hq7 => ?_) (@legalS_eq vr qu _ _ q7 ?_)
        · with_reducible refine legal2_ite (fun c8 => ?_) (fun c8 => ?_)
          · refine legal2_mk ?_
            with_reducible assumption
          · refine legal2_mk ?_
            with_reducible assumption
        · with_reducible apply ctxStores_legal
          with_reducible assumption
  · unfold t4
    with_reducible refine legal_mk (legal_parts ?_)
    with_reducible assumption

theorem rebindWrite_legal {s : State} {x : ℕ} (hs : Kept vr qu s) : Kept2 vr qu (rebindWrite s x) := by
  unfold rebindWrite
  with_reducible refine legal2_ite (fun c1 => ?_) (fun c1 => ?_)
  · refine legal2_mk ?_
    with_reducible assumption
  · with_reducible refine legal2_ite (fun c2 => ?_) (fun c2 => ?_)
    · refine legal2_mk ?_
      with_reducible assumption
    · refine legal2_mk ?_
      with_reducible apply cxRebind_legal
      with_reducible assumption

theorem wagonWrite_legal {s : State} {n : ℕ} {w : ℕ} {d : List Byte} (hs : Kept vr qu s) : Kept2 vr qu (wagonWrite s n w d) := by
  unfold wagonWrite
  extract_lets +onlyGivenNames t1
  with_reducible refine legal2_ite (fun c2 => ?_) (fun c2 => ?_)
  · refine legal2_mk ?_
    with_reducible assumption
  · with_reducible apply dictStores_legal
    with_reducible assumption

theorem mapWrite_legal {s : State} {d : List Byte} (hs : Kept vr qu s) : Kept2 vr qu (mapWrite s d) := by
  unfold mapWrite
  extract_lets +onlyGivenNames t1
  extract_lets +onlyGivenNames t2
  extract_lets +onlyGivenNames t3
  with_reducible refine legal2_ite (fun c4 => ?_) (fun c4 => ?_)
  · refine legal2_mk ?_
    with_reducible assumption
  · with_reducible refine legal2_ite (fun c5 => ?_) (fun c5 => ?_)
    · refine legal2_mk ?_
      with_reducible assumption
    · with_reducible refine legal2_ite (fun c6 => ?_) (fun c6 => ?_)
      · refine legal2_mk ?_
        with_reducible assumption
      · refine legal2_mk ?_
        with_reducible refine legal_foldl ?_ (fun u7 y7 hu7 => ?_)
        · with_reducible assumption
        · with_reducible apply domainReqOp_legal
          with_reducible assumption

theorem clockWrite_legal {s : State} {k : ℕ} {v : ℕ} (hs : Kept vr qu s) : Kept2 vr qu (clockWrite s k v) := by
  unfold clockWrite
  with_reducible refine legal2_ite (fun c1 => ?_) (fun c1 => ?_)
  · refine legal2_mk ?_
    with_reducible assumption
  · with_reducible refine legal2_ite (fun c2 => ?_) (fun c2 => ?_)
    · refine legal2_mk ?_
      with_reducible assumption
    · refine legal2_mk ?_
      with_reducible apply clockSet_legal
      with_reducible assumption

theorem claimWrite_legal {s : State} {v : ℕ} (hs : Kept vr qu s) : Kept2 vr qu (claimWrite s v) := by
  unfold claimWrite
  extract_lets +onlyGivenNames t1
  extract_lets +onlyGivenNames t2
  extract_lets +onlyGivenNames t3
  extract_lets +onlyGivenNames t4
  with_reducible refine legal2_ite (fun c5 => ?_) (fun c5 => ?_)
  · refine legal2_mk ?_
    with_reducible assumption
  · with_reducible refine legal2_ite (fun c6 => ?_) (fun c6 => ?_)
    · refine legal2_mk ?_
      with_reducible assumption
    · split
      · refine legal2_mk ?_
        with_reducible refine legal_mk (legal_parts ?_)
        with_reducible assumption
      · refine legal2_mk ?_
        with_reducible refine legal_mk (legal_parts ?_)
        with_reducible assumption
      · split
        · refine legal2_mk ?_
          with_reducible apply setReg_legal
          with_reducible assumption
        · refine legal2_mk ?_
          with_reducible assumption

theorem releaseWrite_legal {s : State} {v : ℕ} (hs : Kept vr qu s) : Kept2 vr qu (releaseWrite s v) := by
  unfold releaseWrite
  extract_lets +onlyGivenNames t1
  extract_lets +onlyGivenNames t2
  extract_lets +onlyGivenNames t3
  extract_lets +onlyGivenNames t4
  extract_lets +onlyGivenNames t5
  extract_lets +onlyGivenNames t6
  with_reducible refine legal2_ite (fun c7 => ?_) (fun c7 => ?_)
  · refine legal2_mk ?_
    with_reducible assumption
  · with_reducible refine legal2_ite (fun c8 => ?_) (fun c8 => ?_)
    · refine legal2_mk ?_
      with_reducible assumption
    · with_reducible refine legal2_ite (fun c9 => ?_) (fun c9 => ?_)
      · refine legal2_mk ?_
        with_reducible assumption
      · with_reducible refine legal2_ite (fun c10 => ?_) (fun c10 => ?_)
        · refine legal2_mk ?_
          with_reducible assumption
        · split
          · refine legal2_mk ?_
            with_reducible refine legal_mk (legal_parts ?_)
            with_reducible assumption
          · refine legal2_mk ?_
            with_reducible refine legal_mk (legal_parts ?_)
            with_reducible assumption
          · split
            · refine legal2_mk ?_
              with_reducible apply setReg_legal
              with_reducible assumption
            · refine legal2_mk ?_
              with_reducible assumption

theorem inRange_legal {s : State} {b : Bool} {t : State} (hs : Kept vr qu s) (hs1 : Kept vr qu t) : Kept2 vr qu (inRange s b t) := by
  unfold inRange
  with_reducible refine legal2_ite (fun c1 => ?_) (fun c1 => ?_)
  · refine legal2_mk ?_
    with_reducible assumption
  · refine legal2_mk ?_
    with_reducible assumption

theorem commPend_legal {s : State} {sub : ℕ} {d : List Byte} (hs : Kept vr qu s) : Kept vr qu (commPend s sub d) := by
  unfold commPend
  extract_lets +onlyGivenNames t1
  with_reducible refine legal_mk (legal_parts ?_)
  with_reducible assumption

theorem keepVal_legal {s : State} {idx : ℕ} {sub : ℕ} {d : List Byte} (hs : Kept vr qu s) : Kept vr qu (keepVal s idx sub d) := by
  unfold keepVal
  extract_lets +onlyGivenNames t1
  with_reducible refine legal_mk (legal_parts ?_)
  with_reducible assumption

theorem stateWrite_legal {s : State} {v : ℕ} (hs : Kept vr qu s) : Kept2 vr qu (stateWrite s v) := by
  unfold stateWrite
  extract_lets +onlyGivenNames t1
  refine (fun (ht1 : Kept vr qu t1) => ?_) ?_
  · clear_value t1
    extract_lets +onlyGivenNames t2
    extract_lets +onlyGivenNames t3
    refine (fun (ht3 : Kept vr qu t3) => ?_) ?_
    · clear_value t3
      with_reducible refine legal2_ite (fun c4 => ?_) (fun c4 => ?_)
      · refine legal2_mk ?_
        with_reducible refine legal_ite (fun c5 => ?_) (fun c5 => ?_)
        · refine legal_mk (legal_each ?_ ?_ ?_ ?_ ?_ ?_ ?_ ?_ ?_ ?_ ?_ ?_ ?_ ?_ ?_ ?_)
          · with_reducible refine @legal_variant vr qu _ ?_
            with_reducible assumption
          · with_reducible refine @legal_pending vr qu _ ?_
            with_reducible assumption
          · with_reducible refine @legal_dev vr qu _ ?_
            with_reducible assumption
          · omega
          · with_reducible refine @legal_queue vr qu _ ?_
            with_reducible assumption
          · with_reducible refine @legal_sessions vr qu _ ?_
            with_reducible assumption
          · with_reducible refine @legal_spi vr qu _ ?_
            with_reducible assumption
          · with_reducible refine @legal_bb vr qu _ ?_
            with_reducible assumption
          · with_reducible refine @legal_err vr qu _ ?_
            with_reducible assumption
          · with_reducible refine @legal_data vr qu _ ?_
            with_reducible assumption
          · with_reducible refine @legal_check vr qu _ ?_
            with_reducible assumption
          · with_reducible refine @legal_parity vr qu _ ?_
            with_reducible assumption
          · with_reducible refine @legal_pcheck vr qu _ ?_
            with_reducible assumption
          · with_reducible refine @legal_regs vr qu _ ?_
            with_reducible assumption
          · with_reducible refine @legal_perMaster vr qu _ ?_
            with_reducible assumption
          · with_reducible refine @legal_coaches vr qu _ ?_
            with_reducible assumption
        · with_reducible assumption
      · with_reducible refine legal2_ite (fun c6 => ?_) (fun c6 => ?_)
        · refine legal2_mk ?_
          with_reducible apply setDev_legal
          · with_reducible apply stopWagons_legal
            with_reducible assumption
          · omega
        · refine legal2_mk ?_
          with_reducible assumption
    · unfold t3
      with_reducible refine legal_mk (legal_parts ?_)
      with_reducible assumption
  · unfold t1
    with_reducible apply longDone_legal
    with_reducible apply withdrawTable_legal
    with_reducible refine legal_ite (fun c7 => ?_) (fun c7 => ?_)
    · with_reducible apply setDev_legal
      · with_reducible assumption
      · omega
    · with_reducible apply setDev_legal
      · with_reducible assumption
      · omega

theorem clearReports_legal {s : State} (hs : Kept vr qu s) : Kept vr qu (clearReports s) := by
  unfold clearReports
  extract_lets +onlyGivenNames t1
  with_reducible refine legal_mk (legal_parts ?_)
  with_reducible assumption

theorem writeLow_legal {s : State} {idx : ℕ} {sub : ℕ} {d : List Byte} (hs : Kept vr qu s) : Kept2 vr qu (writeLow s idx sub d) := by
  unfold writeLow
  extract_lets +onlyGivenNames t1
  extract_lets +onlyGivenNames t2
  extract_lets +onlyGivenNames t3
  refine (fun (ht3 : Kept vr qu t3) => ?_) ?_
  · clear_value t3
    extract_lets +onlyGivenNames t4
    split
    · with_reducible apply stateWrite_legal
      with_reducible assumption
    · with_reducible apply inRange_legal
      · with_reducible assumption
      · with_reducible apply commPend_legal
        with_reducible assumption
    · with_reducible apply mapWrite_legal
      with_reducible assumption
    · refine legal2_mk ?_
      with_reducible apply avsUpdate_legal
      with_reducible apply setRegB_legal
      with_reducible assumption
    · with_reducible apply inRange_legal
      · with_reducible assumption
      · with_reducible assumption
    · refine legal2_mk ?_
      with_reducible refine legal_mk (legal_parts ?_)
      with_reducible assumption
    · refine legal2_mk ?_
      with_reducible assumption
    · refine legal2_mk ?_
      with_reducible apply withdrawOp_legal
      with_reducible assumption
    · with_reducible apply inRange_legal
      · with_reducible assumption
      · with_reducible assumption
    · with_reducible apply inRange_legal
      · with_reducible assumption
      · with_reducible assumption
    · with_reducible apply inRange_legal
      · with_reducible assumption
      · with_reducible assumption
    · with_reducible refine legal2_ite (fun c5 => ?_) (fun c5 => ?_)
      · refine legal2_mk ?_
        with_reducible assumption
      · with_reducible refine legal2_ite (fun c6 => ?_) (fun c6 => ?_)
        · refine legal2_mk ?_
          with_reducible assumption
        · refine legal2_mk ?_
          with_reducible refine legal_mk (legal_parts ?_)
          with_reducible assumption
    · split
      · with_reducible apply clockWrite_legal
        with_reducible assumption
      · refine legal2_mk ?_
        with_reducible assumption
  · unfold t3
    with_reducible apply switchOn_legal
    with_reducible assumption

theorem writeStreams_legal {s : State} {e : Option Session} {idx : ℕ} {sub : ℕ} {d : List Byte} (hs : Kept vr qu s) : Kept2 vr qu (writeStreams s e idx sub d) := by
  unfold writeStreams
  extract_lets +onlyGivenNames t1
  extract_lets +onlyGivenNames t2
  extract_lets +onlyGivenNames t3
  split
  · with_reducible apply ethWrite_legal
    with_reducible assumption
  · with_reducible apply dictStores_legal
    with_reducible assumption
  · with_reducible apply dictStores_legal
    with_reducible assumption
  · with_reducible apply dictStores_legal
    with_reducible assumption
  · split
    · with_reducible apply dictStores_legal
      with_reducible assumption
    · with_reducible apply dictStores_legal
      with_reducible assumption
    · with_reducible apply dictStores_legal
      with_reducible assumption
  · split
    · with_reducible apply inRange_legal
      · with_reducible assumption
      · with_reducible refine legal_mk (legal_parts ?_)
        with_reducible assumption
    · with_reducible refine legal2_ite (fun c4 => ?_) (fun c4 => ?_)
      · with_reducible apply dictStore_legal
        with_reducible assumption
      · refine legal2_mk ?_
        with_reducible assumption
    · with_reducible apply dictStore_legal
      with_reducible assumption
    · with_reducible apply ctxWriteVal_legal
      with_reducible assumption
    · with_reducible apply rebindWrite_legal
      with_reducible assumption
    · with_reducible apply wagonWrite_legal
      with_reducible assumption
    · refine legal2_mk ?_
      with_reducible apply keepVal_legal
      with_reducible assumption

theorem writeMemory_legal {s : State} {idx : ℕ} {sub : ℕ} {d : List Byte} (hs : Kept vr qu s) : Kept2 vr qu (writeMemory s idx sub d) := by
  unfold writeMemory
  extract_lets +onlyGivenNames t1
  split
  · refine legal2_mk ?_
    with_reducible apply clearReports_legal
    with_reducible assumption
  · with_reducible apply inRange_legal
    · with_reducible assumption
    · with_reducible refine legal_foldl ?_ (fun u2 y2 hu2 => ?_)
      · with_reducible assumption
      · with_reducible apply setRegB_legal
        with_reducible assumption
  · with_reducible apply inRange_legal
    · with_reducible assumption
    · with_reducible apply setRegF_legal
      with_reducible assumption
  · with_reducible refine legal2_ite (fun c3 => ?_) (fun c3 => ?_)
    · refine legal2_mk ?_
      with_reducible apply fuseStart_legal
      with_reducible assumption
    · refine legal2_mk ?_
      with_reducible assumption
  · split
    · with_reducible apply dictStores_legal
      with_reducible assumption
    · refine legal2_mk ?_
      with_reducible assumption
  · refine legal2_mk ?_
    with_reducible apply setRegB_legal
    with_reducible assumption
  · with_reducible apply dictStores_legal
    with_reducible assumption
  · with_reducible refine legal2_ite (fun c4 => ?_) (fun c4 => ?_)
    · with_reducible apply dictStores_legal
      with_reducible assumption
    · refine legal2_mk ?_
      with_reducible assumption

theorem writeBox_legal {s : State} {idx : ℕ} {sub : ℕ} {d : List Byte} (hs : Kept vr qu s) : Kept2 vr qu (writeBox s idx sub d) := by
  unfold writeBox
  extract_lets +onlyGivenNames t1
  extract_lets +onlyGivenNames t2
  split
  · refine legal2_mk ?_
    with_reducible apply setHeader_legal
    with_reducible apply setRegF_legal
    with_reducible assumption
  · refine legal2_mk ?_
    with_reducible apply bbL0_legal
    with_reducible assumption
  · refine legal2_mk ?_
    with_reducible apply rearmStart_legal
    with_reducible assumption
  · refine legal2_mk ?_
    with_reducible apply bbL0_legal
    with_reducible assumption
  · with_reducible apply claimWrite_legal
    with_reducible assumption
  · with_reducible apply releaseWrite_legal
    with_reducible assumption
  · refine legal2_mk ?_
    with_reducible assumption

theorem writeVal_legal {s : State} {e : Option Session} {idx : ℕ} {sub : ℕ} {d : List Byte} (hs : Kept vr qu s) : Kept2 vr qu (writeVal s e idx sub d) := by
  unfold writeVal
  with_reducible refine legal2_ite (fun c1 => ?_) (fun c1 => ?_)
  · with_reducible apply writeLow_legal
    with_reducible assumption
  · with_reducible refine legal2_ite (fun c2 => ?_) (fun c2 => ?_)
    · with_reducible apply writeStreams_legal
      with_reducible assumption
    · with_reducible refine legal2_ite (fun c3 => ?_) (fun c3 => ?_)
      · with_reducible apply writeMemory_legal
        with_reducible assumption
      · with_reducible apply writeBox_legal
        with_reducible assumption

end Sys2Proof.Machine
end

