-- ==== Sys2Proof/Laws/LegalAgent.lean ====
section
/-! SUPPORT. What every operation of Machine/Agent.lean does to a legal state: it leaves one. -/
namespace Sys2Proof.Machine
open Sys2Proof.Config
variable {vr : Config.Variant} {qu : List Instr}

theorem modSess_legal {s : State} {t : Transport} {f : Session → Session} (hs : Kept vr qu s) : Kept vr qu (modSess s t f) := by
  unfold modSess
  extract_lets +onlyGivenNames t1
  refine legal_mk (legal_each ?_ ?_ ?_ ?_ ?_ ?_ ?_ ?_ ?_ ?_ ?_ ?_ ?_ ?_ ?_ ?_)
  · with_reducible refine @legal_variant vr qu _ ?_
    with_reducible assumption
  · with_reducible refine @legal_pending vr qu _ ?_
    with_reducible assumption
  · with_reducible refine @legal_dev vr qu _ ?_
    with_reducible assumption
  · with_reducible refine @legal_held vr qu _ ?_
    with_reducible assumption
  · with_reducible refine @legal_queue vr qu _ ?_
    with_reducible assumption
  · with_reducible refine le_of_map ?_
    with_reducible refine @legal_sessions vr qu _ ?_
    with_reducible assumption
  · with_reducible refine @legal_spi vr qu _ ?_
    with_reducible assumption
  · with_reducible refine @legal_bb vr qu _ ?_
    with_reducible assumption
  · with_reducible refine @legal_err vr qu _ ?_
    with_reducible assumption
  · with_reducible refine @legal_data vr qu _ ?_
    with_reducible assumption
  · with_reducible refine @legal_check vr qu _ ?_
    with_reducible assumption
  · with_reducible refine @legal_parity vr qu _ ?_
    with_reducible assumption
  · with_reducible refine @legal_pcheck vr qu _ ?_
    with_reducible assumption
  · with_reducible refine @legal_regs vr qu _ ?_
    with_reducible assumption
  · with_reducible refine @legal_perMaster vr qu _ ?_
    with_reducible assumption
  · with_reducible refine @legal_coaches vr qu _ ?_
    with_reducible assumption

theorem closeIdle_legal {s : State} {at_ : ℕ} (hs : Kept vr qu s) : Kept vr qu (closeIdle s at_) := by
  unfold closeIdle
  extract_lets +onlyGivenNames t1
  refine legal_mk (legal_each ?_ ?_ ?_ ?_ ?_ ?_ ?_ ?_ ?_ ?_ ?_ ?_ ?_ ?_ ?_ ?_)
  · with_reducible refine @legal_variant vr qu _ ?_
    with_reducible assumption
  · with_reducible refine @legal_pending vr qu _ ?_
    with_reducible assumption
  · with_reducible refine @legal_dev vr qu _ ?_
    with_reducible assumption
  · with_reducible refine @legal_held vr qu _ ?_
    with_reducible assumption
  · with_reducible refine @legal_queue vr qu _ ?_
    with_reducible assumption
  · with_reducible refine le_of_filter ?_
    with_reducible refine @legal_sessions vr qu _ ?_
    with_reducible assumption
  · with_reducible refine @legal_spi vr qu _ ?_
    with_reducible assumption
  · with_reducible refine @legal_bb vr qu _ ?_
    with_reducible assumption
  · with_reducible refine @legal_err vr qu _ ?_
    with_reducible assumption
  · with_reducible refine @legal_data vr qu _ ?_
    with_reducible assumption
  · with_reducible refine @legal_check vr qu _ ?_
    with_reducible assumption
  · with_reducible refine @legal_parity vr qu _ ?_
    with_reducible assumption
  · with_reducible refine @legal_pcheck vr qu _ ?_
    with_reducible assumption
  · with_reducible refine @legal_regs vr qu _ ?_
    with_reducible assumption
  · with_reducible refine @legal_perMaster vr qu _ ?_
    with_reducible assumption
  · with_reducible refine @legal_coaches vr qu _ ?_
    with_reducible assumption

theorem touch_legal {s : State} {q : Request} (hs : Kept vr qu s) : Kept vr qu (touch s q) := by
  unfold touch
  extract_lets +onlyGivenNames t1
  split
  · with_reducible apply modSess_legal
    with_reducible assumption
  · with_reducible refine legal_ite (fun c2 => ?_) (fun c2 => ?_)
    · refine legal_mk (legal_each ?_ ?_ ?_ ?_ ?_ ?_ ?_ ?_ ?_ ?_ ?_ ?_ ?_ ?_ ?_ ?_)
      · with_reducible refine @legal_variant vr qu _ ?_
        with_reducible assumption
      · with_reducible refine @legal_pending vr qu _ ?_
        with_reducible assumption
      · with_reducible refine @legal_dev vr qu _ ?_
        with_reducible assumption
      · with_reducible refine @legal_held vr qu _ ?_
        with_reducible assumption
      · with_reducible refine @legal_queue vr qu _ ?_
        with_reducible assumption
      · with_reducible refine le_of_len ?_
        with_reducible assumption
      · with_reducible refine @legal_spi vr qu _ ?_
        with_reducible assumption
      · with_reducible refine @legal_bb vr qu _ ?_
        with_reducible assumption
      · with_reducible refine @legal_err vr qu _ ?_
        with_reducible assumption
      · with_reducible refine @legal_data vr qu _ ?_
        with_reducible assumption
      · with_reducible refine @legal_check vr qu _ ?_
        with_reducible assumption
      · with_reducible refine @legal_parity vr qu _ ?_
        with_reducible assumption
      · with_reducible refine @legal_pcheck vr qu _ ?_
        with_reducible assumption
      · with_reducible refine @legal_regs vr qu _ ?_
        with_reducible assumption
      · with_reducible refine @legal_perMaster vr qu _ ?_
        with_reducible assumption
      · with_reducible refine @legal_coaches vr qu _ ?_
        with_reducible assumption
    · with_reducible assumption

theorem setOutcome_legal {s : State} {t : Transport} {key : ℕ} {status : ℕ} (hs : Kept vr qu s) : Kept vr qu (setOutcome s t key status) := by
  unfold setOutcome
  with_reducible apply modSess_legal
  with_reducible assumption

theorem endOutcome_legal {s : State} {t : Transport} {status : ℕ} (hs : Kept vr qu s) : Kept vr qu (endOutcome s t status) := by
  unfold endOutcome
  with_reducible apply setOutcome_legal
  with_reducible refine legal_ite (fun c1 => ?_) (fun c1 => ?_)
  · with_reducible assumption
  · with_reducible apply fppCount_legal
    with_reducible assumption

theorem ownEntry_legal {s : State} {old : ℕ} {oldE : ℕ} {new : ℕ} {newE : ℕ} (hs : Kept vr qu s) : Kept vr qu (ownEntry s old oldE new newE) := by
  unfold ownEntry
  with_reducible apply bbL0_legal
  with_reducible assumption

theorem electionEndOp_legal {s : State} (hs : Kept vr qu s) : Kept vr qu (electionEndOp s) := by
  unfold electionEndOp
  extract_lets +onlyGivenNames t1
  split
  · with_reducible assumption
  · extract_lets +onlyGivenNames t3
    extract_lets +onlyGivenNames t4
    refine (fun (ht4 : Kept vr qu t4) => ?_) ?_
    · clear_value t4
      extract_lets +onlyGivenNames t5
      refine (fun (ht5 : Kept vr qu t5) => ?_) ?_
      · clear_value t5
        with_reducible apply ownEntry_legal
        with_reducible assumption
      · unfold t5
        with_reducible refine legal_foldl ?_ (fun u6 y6 hu6 => ?_)
        · with_reducible assumption
        · with_reducible apply endOutcome_legal
          with_reducible assumption
    · unfold t4
      with_reducible refine legal_mk (legal_parts ?_)
      with_reducible assumption

theorem noOwner_legal {s : State} (hs : Kept vr qu s) : Kept vr qu (noOwner s) := by
  unfold noOwner
  extract_lets +onlyGivenNames t1
  with_reducible apply ownEntry_legal
  with_reducible refine legal_mk (legal_parts ?_)
  with_reducible assumption

theorem lapseOp_legal {s : State} (hs : Kept vr qu s) : Kept vr qu (lapseOp s) := by
  unfold lapseOp
  extract_lets +onlyGivenNames t1
  refine (fun (ht1 : Kept vr qu t1) => ?_) ?_
  · clear_value t1
    extract_lets +onlyGivenNames t2
    with_reducible apply noOwner_legal
    with_reducible refine legal_mk (legal_parts ?_)
    with_reducible assumption
  · unfold t1
    split
    · with_reducible apply modSess_legal
      with_reducible assumption
    · with_reducible assumption

theorem svcStop_legal {s : State} {why : ℕ} (hs : Kept vr qu s) : Kept vr qu (svcStop s why) := by
  unfold svcStop
  extract_lets +onlyGivenNames t1
  refine (fun (ht1 : Kept vr qu t1) => ?_) ?_
  · clear_value t1
    extract_lets +onlyGivenNames t2
    with_reducible refine legal_mk (legal_parts ?_)
    with_reducible assumption
  · unfold t1
    with_reducible apply bbL0_legal
    with_reducible assumption

theorem svcEndOp_legal {s : State} {why : ℕ} {at_ : ℕ} (hs : Kept vr qu s) : Kept vr qu (svcEndOp s why at_) := by
  unfold svcEndOp
  extract_lets +onlyGivenNames t1
  refine (fun (ht1 : Kept vr qu t1) => ?_) ?_
  · clear_value t1
    extract_lets +onlyGivenNames t2
    refine legal_mk (legal_each ?_ ?_ ?_ ?_ ?_ ?_ ?_ ?_ ?_ ?_ ?_ ?_ ?_ ?_ ?_ ?_)
    · with_reducible refine @legal_variant vr qu _ ?_
      with_reducible assumption
    · with_reducible refine @legal_pending vr qu _ ?_
      with_reducible assumption
    · with_reducible refine @legal_dev vr qu _ ?_
      with_reducible assumption
    · omega
    · with_reducible refine @legal_queue vr qu _ ?_
      with_reducible assumption
    · with_reducible refine @legal_sessions vr qu _ ?_
      with_reducible assumption
    · with_reducible refine @legal_spi vr qu _ ?_
      with_reducible assumption
    · with_reducible refine @legal_bb vr qu _ ?_
      with_reducible assumption
    · with_reducible refine @legal_err vr qu _ ?_
      with_reducible assumption
    · with_reducible refine @legal_data vr qu _ ?_
      with_reducible assumption
    · with_reducible refine @legal_check vr qu _ ?_
      with_reducible assumption
    · with_reducible refine @legal_parity vr qu _ ?_
      with_reducible assumption
    · with_reducible refine @legal_pcheck vr qu _ ?_
      with_reducible assumption
    · with_reducible refine @legal_regs vr qu _ ?_
      with_reducible assumption
    · with_reducible refine @legal_perMaster vr qu _ ?_
      with_reducible assumption
    · with_reducible refine @legal_coaches vr qu _ ?_
      with_reducible assumption
  · unfold t1
    with_reducible apply setDev_legal
    · with_reducible apply svcStop_legal
      with_reducible assumption
    · with_reducible refine @legal_held vr qu _ ?_
      with_reducible assumption

theorem settle_legal {s : State} {at_ : ℕ} (hs : Kept vr qu s) : Kept vr qu (settle s at_) := by
  unfold settle
  extract_lets +onlyGivenNames t1
  refine (fun (ht1 : Kept vr qu t1) => ?_) ?_
  · clear_value t1
    extract_lets +onlyGivenNames t2
    refine (fun (ht2 : Kept vr qu t2) => ?_) ?_
    · clear_value t2
      extract_lets +onlyGivenNames t3
      refine (fun (ht3 : Kept vr qu t3) => ?_) ?_
      · clear_value t3
        with_reducible apply closeIdle_legal
        with_reducible assumption
      · unfold t3
        with_reducible refine legal_ite (fun c4 => ?_) (fun c4 => ?_)
        · with_reducible apply lapseOp_legal
          with_reducible assumption
        · with_reducible assumption
    · unfold t2
      with_reducible refine legal_ite (fun c5 => ?_) (fun c5 => ?_)
      · with_reducible apply electionEndOp_legal
        with_reducible assumption
      · with_reducible assumption
  · unfold t1
    with_reducible refine legal_ite (fun c6 => ?_) (fun c6 => ?_)
    · with_reducible apply svcEndOp_legal
      with_reducible assumption
    · with_reducible assumption

theorem takeHead_legal {s : State} {ok : Request → Bool} {go : State → Request → State} (h : Kept vr qu s)
    (hg : ∀ t q, Kept vr qu t → Kept vr qu (go t q)) : Kept vr qu (takeHead s ok go) := by
  unfold takeHead
  split
  · exact h
  · split
    · rename_i q r e
      refine legal_ite (fun _ => hg _ _ (touch_legal (settle_legal (fppCount_legal ?_)))) (fun _ => h)
      exact legal_mk (legal_each h.variant h.pending h.legal.dev h.legal.held (le_of_tail e (legal_queue h)) h.legal.sessions h.legal.spi h.legal.bbIntake h.legal.errIntake (legal_data h) (legal_check h)
        (legal_parity h) (legal_pcheck h) (legal_regs h) (legal_perMaster h) (legal_coaches h))
    · exact h

theorem accepted_legal {s : State} {q : Request} (hs : Kept vr qu s) : Kept vr qu (accepted s q) := by
  unfold accepted
  extract_lets +onlyGivenNames t1
  with_reducible refine legal_ite (fun c2 => ?_) (fun c2 => ?_)
  · with_reducible refine legal_mk (legal_parts ?_)
    with_reducible assumption
  · with_reducible assumption

theorem abortAt_legal {s : State} {q : Request} {code : ℕ} {byState : Bool} (hs : Kept vr qu s) : Kept vr qu (abortAt s q code byState) := by
  unfold abortAt
  with_reducible apply abort_legal
  with_reducible refine legal_ite (fun c1 => ?_) (fun c1 => ?_)
  · with_reducible apply refusedByState_legal
    with_reducible assumption
  · with_reducible assumption

theorem readReq_legal {s : State} {q : Request} (hs : Kept vr qu s) : Kept vr qu (readReq s q) := by
  unfold readReq
  extract_lets +onlyGivenNames t1
  extract_lets +onlyGivenNames t2
  extract_lets +onlyGivenNames t3
  with_reducible refine legal_ite (fun c5 => ?_) (fun c5 => ?_)
  · with_reducible apply abortAt_legal
    with_reducible assumption
  · clear_value t3
    split
    · with_reducible apply abort_legal
      with_reducible assumption
    · extract_lets +onlyGivenNames t7
      refine (fun (ht7 : Kept vr qu t7) => ?_) ?_
      · clear_value t7
        with_reducible refine legal_ite (fun c8 => ?_) (fun c8 => ?_)
        · with_reducible apply abort_legal
          with_reducible assumption
        · with_reducible apply answerWith_legal
          with_reducible assumption
      · unfold t7
        with_reducible apply modSess_legal
        with_reducible apply accepted_legal
        with_reducible assumption

theorem statusReq_legal {s : State} {q : Request} (hs : Kept vr qu s) : Kept vr qu (statusReq s q) := by
  unfold statusReq
  extract_lets +onlyGivenNames t1
  extract_lets +onlyGivenNames t2
  extract_lets +onlyGivenNames t3
  with_reducible refine legal_ite (fun c4 => ?_) (fun c4 => ?_)
  · with_reducible apply abort_legal
    with_reducible assumption
  · with_reducible apply answerWith_legal
    with_reducible apply accepted_legal
    with_reducible assumption

theorem markDirty_legal {s : State} {key : ℕ} (hs : Kept vr qu s) : Kept vr qu (markDirty s key) := by
  unfold markDirty
  extract_lets +onlyGivenNames t1
  with_reducible refine legal_mk (legal_parts ?_)
  with_reducible assumption

theorem writeApply_legal {s : State} {q : Request} {d : List Byte} (hs : Kept vr qu s) : Kept2 vr qu (writeApply s q d) := by
  unfold writeApply
  extract_lets +onlyGivenNames t1
  extract_lets +onlyGivenNames t2
  extract_lets +onlyGivenNames t3
  extract_lets +onlyGivenNames t4
  extract_lets +onlyGivenNames t5
  extract_lets +onlyGivenNames t6
  extract_lets +onlyGivenNames t7
  extract_lets +onlyGivenNames t8
  refine (fun (ht8 : Kept vr qu t8) => ?_) ?_
  · clear_value t8
    extract_lets +onlyGivenNames t9
    refine (fun (ht9 : Kept2 vr qu t9) => ?_) ?_
    · clear_value t9
      with_reducible refine legal2_ite (fun c10 => ?_) (fun c10 => ?_)
      · refine legal2_mk ?_
        with_reducible assumption
      · with_reducible refine legal2_ite (fun c11 => ?_) (fun c11 => ?_)
        · with_reducible refine legal2_ite (fun c12 => ?_) (fun c12 => ?_)
          · refine legal2_mk ?_
            with_reducible assumption
          · with_reducible refine legal2_ite (fun c13 => ?_) (fun c13 => ?_)
            · refine legal2_mk ?_
              with_reducible assumption
            · refine legal2_mk ?_
              with_reducible apply modSess_legal
              with_reducible assumption
        · with_reducible refine legal2_ite (fun c14 => ?_) (fun c14 => ?_)
          · refine legal2_mk ?_
            with_reducible assumption
          · with_reducible refine legal2_ite (fun c15 => ?_) (fun c15 => ?_)
            · refine legal2_mk ?_
              with_reducible assumption
            · with_reducible refine legal2_ite (fun c16 => ?_) (fun c16 => ?_)
              · refine legal2_mk ?_
                with_reducible apply markDirty_legal
                with_reducible apply keepVal_legal
                refine legal2_out ?_
                with_reducible assumption
              · refine legal2_mk ?_
                refine legal2_out ?_
                with_reducible assumption
    · unfold t9
      with_reducible apply writeVal_legal
      with_reducible assumption
  · unfold t8
    with_reducible refine legal_ite (fun c17 => ?_) (fun c17 => ?_)
    · with_reducible apply setOutcome_legal
      with_reducible refine legal_mk (legal_parts ?_)
      with_reducible assumption
    · with_reducible assumption

theorem svcNote_legal {s : State} {q : Request} {d : List Byte} {t : State} (hs : Kept vr qu s) (hs1 : Kept vr qu t) : Kept vr qu (svcNote s q d t) := by
  unfold svcNote
  with_reducible refine legal_ite (fun c1 => ?_) (fun c1 => ?_)
  · with_reducible apply bbL0_legal
    with_reducible assumption
  · with_reducible assumption

theorem finishWrite_legal {s : State} {q : Request} {d : List Byte} (hs : Kept vr qu s) : Kept vr qu (finishWrite s q d) := by
  unfold finishWrite
  extract_lets +onlyGivenNames t1
  refine (fun (ht1 : Kept2 vr qu t1) => ?_) ?_
  · clear_value t1
    extract_lets +onlyGivenNames t2
    refine (fun (ht2 : Kept vr qu t2) => ?_) ?_
    · clear_value t2
      with_reducible refine legal_ite (fun c3 => ?_) (fun c3 => ?_)
      · with_reducible apply svcNote_legal
        · with_reducible assumption
        · with_reducible apply abortAt_legal
          with_reducible assumption
      · with_reducible apply svcNote_legal
        · with_reducible assumption
        · with_reducible refine legal_ite (fun c4 => ?_) (fun c4 => ?_)
          · with_reducible apply busy_legal
            with_reducible assumption
          · with_reducible apply done_legal
            with_reducible assumption
    · unfold t2
      with_reducible apply accepted_legal
      refine legal2_out ?_
      with_reducible assumption
  · unfold t1
    with_reducible apply writeApply_legal
    with_reducible assumption

theorem dropXfer_legal {s : State} {q : Request} (hs : Kept vr qu s) : Kept vr qu (dropXfer s q) := by
  unfold dropXfer
  with_reducible apply modSess_legal
  with_reducible assumption

theorem firstSegment_legal {s : State} {q : Request} (hs : Kept vr qu s) : Kept vr qu (firstSegment s q) := by
  unfold firstSegment
  extract_lets +onlyGivenNames t1
  refine (fun (ht1 : Kept vr qu t1) => ?_) ?_
  · clear_value t1
    extract_lets +onlyGivenNames t2
    refine (fun (ht2 : Kept vr qu t2) => ?_) ?_
    · clear_value t2
      with_reducible refine legal_ite (fun c3 => ?_) (fun c3 => ?_)
      · with_reducible apply svcNote_legal
        · with_reducible assumption
        · with_reducible apply abort_legal
          with_reducible assumption
      · with_reducible refine legal_ite (fun c4 => ?_) (fun c4 => ?_)
        · with_reducible apply finishWrite_legal
          with_reducible assumption
        · with_reducible refine legal_ite (fun c5 => ?_) (fun c5 => ?_)
          · with_reducible apply abort_legal
            with_reducible assumption
          · with_reducible apply done_legal
            with_reducible apply accepted_legal
            with_reducible assumption
    · unfold t2
      with_reducible apply modSess_legal
      with_reducible assumption
  · unfold t1
    with_reducible apply dropXfer_legal
    with_reducible assumption

theorem laterSegment_legal {s : State} {q : Request} {e : Session} (hs : Kept vr qu s) : Kept vr qu (laterSegment s q e) := by
  unfold laterSegment
  with_reducible refine legal_ite (fun c1 => ?_) (fun c1 => ?_)
  · with_reducible apply svcNote_legal
    · with_reducible assumption
    · with_reducible apply abort_legal
      with_reducible apply dropXfer_legal
      with_reducible assumption
  · with_reducible refine legal_ite (fun c2 => ?_) (fun c2 => ?_)
    · with_reducible apply svcNote_legal
      · with_reducible assumption
      · with_reducible apply abort_legal
        with_reducible apply dropXfer_legal
        with_reducible assumption
    · with_reducible refine legal_ite (fun c3 => ?_) (fun c3 => ?_)
      · with_reducible apply finishWrite_legal
        with_reducible apply dropXfer_legal
        with_reducible assumption
      · with_reducible apply done_legal
        with_reducible apply accepted_legal
        with_reducible apply modSess_legal
        with_reducible assumption

theorem writeReq_legal {s : State} {q : Request} (hs : Kept vr qu s) : Kept vr qu (writeReq s q) := by
  unfold writeReq
  with_reducible refine legal_ite (fun c1 => ?_) (fun c1 => ?_)
  · with_reducible apply svcNote_legal
    · with_reducible assumption
    · with_reducible apply abort_legal
      with_reducible assumption
  · with_reducible refine legal_ite (fun c2 => ?_) (fun c2 => ?_)
    · with_reducible apply firstSegment_legal
      with_reducible assumption
    · split
      · with_reducible apply laterSegment_legal
        with_reducible assumption
      · with_reducible apply svcNote_legal
        · with_reducible assumption
        · with_reducible apply abort_legal
          with_reducible assumption

theorem claimReq_legal {s : State} {q : Request} (hs : Kept vr qu s) : Kept vr qu (claimReq s q) := by
  unfold claimReq
  extract_lets +onlyGivenNames t1
  extract_lets +onlyGivenNames t2
  extract_lets +onlyGivenNames t3
  extract_lets +onlyGivenNames t4
  extract_lets +onlyGivenNames t5
  extract_lets +onlyGivenNames t6
  refine (fun (ht6 : Kept vr qu t6) => ?_) ?_
  · clear_value t6
    with_reducible refine legal_ite (fun c7 => ?_) (fun c7 => ?_)
    · with_reducible apply abort_legal
      with_reducible assumption
    · with_reducible apply busy_legal
      with_reducible apply setOutcome_legal
      with_reducible assumption
  · unfold t6
    with_reducible refine legal_mk (legal_parts ?_)
    with_reducible assumption

theorem notePresent_legal {s : State} {p : Present} (hs : Kept vr qu s) : Kept vr qu (notePresent s p) := by
  unfold notePresent
  extract_lets +onlyGivenNames t1
  with_reducible refine legal_mk (legal_parts ?_)
  with_reducible assumption

theorem heartbeatReq_legal {s : State} {q : Request} (hs : Kept vr qu s) : Kept vr qu (heartbeatReq s q) := by
  unfold heartbeatReq
  extract_lets +onlyGivenNames t1
  extract_lets +onlyGivenNames t2
  extract_lets +onlyGivenNames t3
  extract_lets +onlyGivenNames t4
  extract_lets +onlyGivenNames t5
  refine (fun (ht5 : Kept vr qu t5) => ?_) ?_
  · clear_value t5
    extract_lets +onlyGivenNames t6
    extract_lets +onlyGivenNames t7
    refine (fun (ht7 : Kept vr qu t7) => ?_) ?_
    · clear_value t7
      with_reducible refine legal_ite (fun c8 => ?_) (fun c8 => ?_)
      · with_reducible apply abort_legal
        with_reducible assumption
      · with_reducible apply answerWith_legal
        with_reducible assumption
    · unfold t7
      with_reducible refine legal_ite (fun c9 => ?_) (fun c9 => ?_)
      · with_reducible refine legal_mk (legal_parts ?_)
        with_reducible assumption
      · with_reducible apply notePresent_legal
        with_reducible assumption
  · unfold t5
    with_reducible refine legal_ite (fun c10 => ?_) (fun c10 => ?_)
    · with_reducible refine legal_mk (legal_parts ?_)
      with_reducible assumption
    · with_reducible assumption

theorem handoverReq_legal {s : State} {q : Request} (hs : Kept vr qu s) : Kept vr qu (handoverReq s q) := by
  unfold handoverReq
  extract_lets +onlyGivenNames t1
  extract_lets +onlyGivenNames t2
  extract_lets +onlyGivenNames t3
  extract_lets +onlyGivenNames t4
  with_reducible refine legal_ite (fun c6 => ?_) (fun c6 => ?_)
  · with_reducible apply abort_legal
    with_reducible assumption
  · clear_value t2
    split
    · with_reducible assumption
    · extract_lets +onlyGivenNames t8
      refine (fun (ht8 : Kept vr qu t8) => ?_) ?_
      · clear_value t8
        with_reducible apply done_legal
        with_reducible apply ownEntry_legal
        with_reducible assumption
      · unfold t8
        with_reducible refine legal_mk (legal_parts ?_)
        with_reducible assumption

theorem releaseReq_legal {s : State} {q : Request} (hs : Kept vr qu s) : Kept vr qu (releaseReq s q) := by
  unfold releaseReq
  extract_lets +onlyGivenNames t1
  with_reducible refine legal_ite (fun c2 => ?_) (fun c2 => ?_)
  · with_reducible apply abort_legal
    with_reducible assumption
  · with_reducible apply done_legal
    with_reducible apply noOwner_legal
    with_reducible assumption

theorem svcClaimReq_legal {s : State} {q : Request} (hs : Kept vr qu s) : Kept vr qu (svcClaimReq s q) := by
  unfold svcClaimReq
  extract_lets +onlyGivenNames t1
  extract_lets +onlyGivenNames t2
  extract_lets +onlyGivenNames t3
  refine (fun (ht3 : Kept vr qu t3) => ?_) ?_
  · clear_value t3
    with_reducible refine legal_ite (fun c4 => ?_) (fun c4 => ?_)
    · with_reducible apply abortAt_legal
      with_reducible assumption
    · with_reducible apply answerWith_legal
      with_reducible apply accepted_legal
      with_reducible assumption
  · unfold t3
    with_reducible refine legal_mk (legal_parts ?_)
    with_reducible assumption

theorem proofFailed_legal {s : State} {at_ : ℕ} {isProof : Bool} (hs : Kept vr qu s) : Kept vr qu (proofFailed s at_ isProof) := by
  unfold proofFailed
  extract_lets +onlyGivenNames t1
  extract_lets +onlyGivenNames t2
  extract_lets +onlyGivenNames t3
  refine (fun (ht3 : Kept vr qu t3) => ?_) ?_
  · clear_value t3
    with_reducible apply bbL0_legal
    with_reducible assumption
  · unfold t3
    with_reducible refine legal_mk (legal_parts ?_)
    with_reducible assumption

theorem svcBegin_legal {s : State} {t : Transport} {key : ℕ} {at_ : ℕ} (hs : Kept vr qu s) : Kept vr qu (svcBegin s t key at_) := by
  unfold svcBegin
  extract_lets +onlyGivenNames t1
  extract_lets +onlyGivenNames t2
  extract_lets +onlyGivenNames t3
  refine (fun (ht3 : Kept vr qu t3) => ?_) ?_
  · clear_value t3
    with_reducible apply bbL0_legal
    with_reducible assumption
  · unfold t3
    with_reducible apply setDev_legal
    · refine legal_mk (legal_each ?_ ?_ ?_ ?_ ?_ ?_ ?_ ?_ ?_ ?_ ?_ ?_ ?_ ?_ ?_ ?_)
      · with_reducible refine @legal_variant vr qu _ ?_
        with_reducible assumption
      · with_reducible refine @legal_pending vr qu _ ?_
        with_reducible assumption
      · with_reducible refine @legal_dev vr qu _ ?_
        with_reducible assumption
      · with_reducible refine @legal_dev vr qu _ ?_
        with_reducible assumption
      · with_reducible refine @legal_queue vr qu _ ?_
        with_reducible assumption
      · with_reducible refine @legal_sessions vr qu _ ?_
        with_reducible assumption
      · with_reducible refine @legal_spi vr qu _ ?_
        with_reducible assumption
      · with_reducible refine @legal_bb vr qu _ ?_
        with_reducible assumption
      · with_reducible refine @legal_err vr qu _ ?_
        with_reducible assumption
      · with_reducible refine @legal_data vr qu _ ?_
        with_reducible assumption
      · with_reducible refine @legal_check vr qu _ ?_
        with_reducible assumption
      · with_reducible refine @legal_parity vr qu _ ?_
        with_reducible assumption
      · with_reducible refine @legal_pcheck vr qu _ ?_
        with_reducible assumption
      · with_reducible refine @legal_regs vr qu _ ?_
        with_reducible assumption
      · with_reducible refine @legal_perMaster vr qu _ ?_
        with_reducible assumption
      · with_reducible refine @legal_coaches vr qu _ ?_
        with_reducible assumption
    · omega

theorem svcProved_legal {s : State} {q : Request} {late : Bool} {key : Option ℕ} (hs : Kept vr qu s) : Kept vr qu (svcProved s q late key) := by
  unfold svcProved
  split
  · with_reducible apply setOutcome_legal
    with_reducible apply svcBegin_legal
    with_reducible assumption
  · with_reducible apply endOutcome_legal
    with_reducible apply proofFailed_legal
    with_reducible assumption

theorem svcProveReq_legal {s : State} {q : Request} (hs : Kept vr qu s) : Kept vr qu (svcProveReq s q) := by
  unfold svcProveReq
  extract_lets +onlyGivenNames t1
  extract_lets +onlyGivenNames t2
  extract_lets +onlyGivenNames t3
  extract_lets +onlyGivenNames t4
  refine (fun (ht4 : Kept vr qu t4) => ?_) ?_
  · clear_value t4
    with_reducible refine legal_ite (fun c6 => ?_) (fun c6 => ?_)
    · with_reducible apply abortAt_legal
      with_reducible assumption
    · split
      · with_reducible apply abort_legal
        with_reducible assumption
      · extract_lets +onlyGivenNames t8
        with_reducible apply svcProved_legal
        with_reducible assumption
  · unfold t4
    with_reducible apply busy_legal
    with_reducible apply accepted_legal
    with_reducible assumption

theorem svcEndReq_legal {s : State} {q : Request} (hs : Kept vr qu s) : Kept vr qu (svcEndReq s q) := by
  unfold svcEndReq
  extract_lets +onlyGivenNames t1
  with_reducible refine legal_ite (fun c2 => ?_) (fun c2 => ?_)
  · with_reducible apply abort_legal
    with_reducible assumption
  · with_reducible apply svcEndOp_legal
    with_reducible apply done_legal
    with_reducible assumption

theorem challengeExpiryOp_legal {s : State} (hs : Kept vr qu s) : Kept vr qu (challengeExpiryOp s) := by
  unfold challengeExpiryOp
  split
  · with_reducible refine legal_ite (fun c1 => ?_) (fun c1 => ?_)
    · with_reducible apply proofFailed_legal
      with_reducible assumption
    · with_reducible assumption
  · with_reducible assumption

theorem execRead_legal {s : State} (hs : Kept vr qu s) : ∀ u, execRead s = .next u → Kept vr qu u := by
  unfold execRead
  apply legal_act
  with_reducible apply takeHead_legal
  · with_reducible assumption
  · intro x1
    intro x2
    intro x3
    with_reducible apply readReq_legal
    with_reducible assumption

theorem execWrite_legal {s : State} (hs : Kept vr qu s) : ∀ u, execWrite s = .next u → Kept vr qu u := by
  unfold execWrite
  apply legal_act
  with_reducible apply takeHead_legal
  · with_reducible assumption
  · intro x1
    intro x2
    intro x3
    with_reducible apply writeReq_legal
    with_reducible assumption

theorem execStatus_legal {s : State} (hs : Kept vr qu s) : ∀ u, execStatus s = .next u → Kept vr qu u := by
  unfold execStatus
  apply legal_act
  with_reducible apply takeHead_legal
  · with_reducible assumption
  · intro x1
    intro x2
    intro x3
    with_reducible apply statusReq_legal
    with_reducible assumption

theorem execClaim_legal {s : State} (hs : Kept vr qu s) : ∀ u, execClaim s = .next u → Kept vr qu u := by
  unfold execClaim
  apply legal_act
  with_reducible apply takeHead_legal
  · with_reducible assumption
  · intro x1
    intro x2
    intro x3
    with_reducible apply claimReq_legal
    with_reducible assumption

theorem execHeartbeat_legal {s : State} (hs : Kept vr qu s) : ∀ u, execHeartbeat s = .next u → Kept vr qu u := by
  unfold execHeartbeat
  apply legal_act
  with_reducible apply takeHead_legal
  · with_reducible assumption
  · intro x1
    intro x2
    intro x3
    with_reducible apply heartbeatReq_legal
    with_reducible assumption

theorem execHandover_legal {s : State} (hs : Kept vr qu s) : ∀ u, execHandover s = .next u → Kept vr qu u := by
  unfold execHandover
  apply legal_act
  with_reducible apply takeHead_legal
  · with_reducible assumption
  · intro x1
    intro x2
    intro x3
    with_reducible apply handoverReq_legal
    with_reducible assumption

theorem execRelease_legal {s : State} (hs : Kept vr qu s) : ∀ u, execRelease s = .next u → Kept vr qu u := by
  unfold execRelease
  apply legal_act
  with_reducible apply takeHead_legal
  · with_reducible assumption
  · intro x1
    intro x2
    intro x3
    with_reducible apply releaseReq_legal
    with_reducible assumption

theorem execSvcClaim_legal {s : State} (hs : Kept vr qu s) : ∀ u, execSvcClaim s = .next u → Kept vr qu u := by
  unfold execSvcClaim
  apply legal_act
  with_reducible apply takeHead_legal
  · with_reducible assumption
  · intro x1
    intro x2
    intro x3
    with_reducible apply svcClaimReq_legal
    with_reducible assumption

theorem execSvcProve_legal {s : State} (hs : Kept vr qu s) : ∀ u, execSvcProve s = .next u → Kept vr qu u := by
  unfold execSvcProve
  apply legal_act
  with_reducible apply takeHead_legal
  · with_reducible assumption
  · intro x1
    intro x2
    intro x3
    with_reducible apply svcProveReq_legal
    with_reducible assumption

theorem execSvcEnd_legal {s : State} (hs : Kept vr qu s) : ∀ u, execSvcEnd s = .next u → Kept vr qu u := by
  unfold execSvcEnd
  apply legal_act
  with_reducible apply takeHead_legal
  · with_reducible assumption
  · intro x1
    intro x2
    intro x3
    with_reducible apply svcEndReq_legal
    with_reducible assumption

theorem execElectionEnd_legal {s : State} (hs : Kept vr qu s) : ∀ u, execElectionEnd s = .next u → Kept vr qu u := by
  unfold execElectionEnd
  apply legal_act
  with_reducible refine legal_ite (fun c1 => ?_) (fun c1 => ?_)
  · with_reducible apply electionEndOp_legal
    with_reducible assumption
  · with_reducible assumption

theorem execOwnerLapse_legal {s : State} (hs : Kept vr qu s) : ∀ u, execOwnerLapse s = .next u → Kept vr qu u := by
  unfold execOwnerLapse
  apply legal_act
  with_reducible refine legal_ite (fun c1 => ?_) (fun c1 => ?_)
  · with_reducible apply lapseOp_legal
    with_reducible assumption
  · with_reducible assumption

theorem execSessionClose_legal {t : Transport} {s : State} (hs : Kept vr qu s) : ∀ u, execSessionClose t s = .next u → Kept vr qu u := by
  unfold execSessionClose
  apply legal_act
  extract_lets +onlyGivenNames t1
  refine legal_mk (legal_each ?_ ?_ ?_ ?_ ?_ ?_ ?_ ?_ ?_ ?_ ?_ ?_ ?_ ?_ ?_ ?_)
  · with_reducible refine @legal_variant vr qu _ ?_
    with_reducible assumption
  · with_reducible refine @legal_pending vr qu _ ?_
    with_reducible assumption
  · with_reducible refine @legal_dev vr qu _ ?_
    with_reducible assumption
  · with_reducible refine @legal_held vr qu _ ?_
    with_reducible assumption
  · with_reducible refine @legal_queue vr qu _ ?_
    with_reducible assumption
  · with_reducible refine le_of_filter ?_
    with_reducible refine @legal_sessions vr qu _ ?_
    with_reducible assumption
  · with_reducible refine @legal_spi vr qu _ ?_
    with_reducible assumption
  · with_reducible refine @legal_bb vr qu _ ?_
    with_reducible assumption
  · with_reducible refine @legal_err vr qu _ ?_
    with_reducible assumption
  · with_reducible refine @legal_data vr qu _ ?_
    with_reducible assumption
  · with_reducible refine @legal_check vr qu _ ?_
    with_reducible assumption
  · with_reducible refine @legal_parity vr qu _ ?_
    with_reducible assumption
  · with_reducible refine @legal_pcheck vr qu _ ?_
    with_reducible assumption
  · with_reducible refine @legal_regs vr qu _ ?_
    with_reducible assumption
  · with_reducible refine @legal_perMaster vr qu _ ?_
    with_reducible assumption
  · with_reducible refine @legal_coaches vr qu _ ?_
    with_reducible assumption

theorem execTransferTimeout_legal {t : Transport} {s : State} (hs : Kept vr qu s) : ∀ u, execTransferTimeout t s = .next u → Kept vr qu u := by
  unfold execTransferTimeout
  apply legal_act
  with_reducible apply modSess_legal
  with_reducible assumption

theorem execChallengeExpiry_legal {s : State} (hs : Kept vr qu s) : ∀ u, execChallengeExpiry s = .next u → Kept vr qu u := by
  unfold execChallengeExpiry
  apply legal_act
  with_reducible apply challengeExpiryOp_legal
  with_reducible assumption

theorem execServiceLapse_legal {s : State} (hs : Kept vr qu s) : ∀ u, execServiceLapse s = .next u → Kept vr qu u := by
  unfold execServiceLapse
  apply legal_act
  with_reducible refine legal_ite (fun c1 => ?_) (fun c1 => ?_)
  · with_reducible apply svcEndOp_legal
    with_reducible assumption
  · with_reducible assumption

theorem execServiceEnDeassert_legal {s : State} (hs : Kept vr qu s) : ∀ u, execServiceEnDeassert s = .next u → Kept vr qu u := by
  unfold execServiceEnDeassert
  apply legal_act
  extract_lets +onlyGivenNames t1
  refine (fun (ht1 : Kept vr qu t1) => ?_) ?_
  · clear_value t1
    with_reducible refine legal_ite (fun c2 => ?_) (fun c2 => ?_)
    · with_reducible apply svcEndOp_legal
      with_reducible assumption
    · with_reducible assumption
  · unfold t1
    with_reducible refine legal_mk (legal_parts ?_)
    with_reducible assumption

theorem execSafeCommand_legal {s : State} (hs : Kept vr qu s) : ∀ u, execSafeCommand s = .next u → Kept vr qu u := by
  unfold execSafeCommand
  apply legal_act
  with_reducible apply takeHead_legal
  · with_reducible assumption
  · intro x1
    intro x2
    intro x3
    with_reducible apply writeReq_legal
    with_reducible assumption

theorem execConfigCommand_legal {s : State} (hs : Kept vr qu s) : ∀ u, execConfigCommand s = .next u → Kept vr qu u := by
  unfold execConfigCommand
  apply legal_act
  with_reducible apply takeHead_legal
  · with_reducible assumption
  · intro x1
    intro x2
    intro x3
    with_reducible apply writeReq_legal
    with_reducible assumption

theorem execWithdraw_legal {s : State} (hs : Kept vr qu s) : ∀ u, execWithdraw s = .next u → Kept vr qu u := by
  unfold execWithdraw
  apply legal_act
  with_reducible apply takeHead_legal
  · with_reducible assumption
  · intro x1
    intro x2
    intro x3
    with_reducible apply writeReq_legal
    with_reducible assumption

theorem execResourceClaim_legal {s : State} (hs : Kept vr qu s) : ∀ u, execResourceClaim s = .next u → Kept vr qu u := by
  unfold execResourceClaim
  apply legal_act
  with_reducible apply takeHead_legal
  · with_reducible assumption
  · intro x1
    intro x2
    intro x3
    with_reducible apply writeReq_legal
    with_reducible assumption

theorem execResourceRelease_legal {s : State} (hs : Kept vr qu s) : ∀ u, execResourceRelease s = .next u → Kept vr qu u := by
  unfold execResourceRelease
  apply legal_act
  with_reducible apply takeHead_legal
  · with_reducible assumption
  · intro x1
    intro x2
    intro x3
    with_reducible apply writeReq_legal
    with_reducible assumption

theorem execClearReportCounts_legal {s : State} (hs : Kept vr qu s) : ∀ u, execClearReportCounts s = .next u → Kept vr qu u := by
  unfold execClearReportCounts
  apply legal_act
  with_reducible apply takeHead_legal
  · with_reducible assumption
  · intro x1
    intro x2
    intro x3
    with_reducible apply writeReq_legal
    with_reducible assumption

theorem execManualTrigger_legal {s : State} (hs : Kept vr qu s) : ∀ u, execManualTrigger s = .next u → Kept vr qu u := by
  unfold execManualTrigger
  apply legal_act
  with_reducible apply takeHead_legal
  · with_reducible assumption
  · intro x1
    intro x2
    intro x3
    with_reducible apply writeReq_legal
    with_reducible assumption

theorem execRearm_legal {s : State} (hs : Kept vr qu s) : ∀ u, execRearm s = .next u → Kept vr qu u := by
  unfold execRearm
  apply legal_act
  with_reducible apply takeHead_legal
  · with_reducible assumption
  · intro x1
    intro x2
    intro x3
    with_reducible apply writeReq_legal
    with_reducible assumption

theorem execOwnerNote_legal {s : State} (hs : Kept vr qu s) : ∀ u, execOwnerNote s = .next u → Kept vr qu u := by
  unfold execOwnerNote
  apply legal_act
  with_reducible apply takeHead_legal
  · with_reducible assumption
  · intro x1
    intro x2
    intro x3
    with_reducible apply writeReq_legal
    with_reducible assumption

theorem eraseDoneOp_legal {s : State} (hs : Kept vr qu s) : Kept vr qu (eraseDoneOp s) := by
  unfold eraseDoneOp
  split
  · with_reducible refine legal_ite (fun c1 => ?_) (fun c1 => ?_)
    · with_reducible apply longDone_legal
      with_reducible apply eraseAll_legal
      with_reducible assumption
    · with_reducible assumption
  · with_reducible assumption

theorem execCopySlotErase_legal {s : State} (hs : Kept vr qu s) : ∀ u, execCopySlotErase s = .next u → Kept vr qu u := by
  unfold execCopySlotErase
  apply legal_act
  with_reducible refine legal_ite (fun c1 => ?_) (fun c1 => ?_)
  · with_reducible apply eraseDoneOp_legal
    with_reducible assumption
  · with_reducible apply takeHead_legal
    · with_reducible assumption
    · intro x2
      intro x3
      intro x4
      with_reducible apply writeReq_legal
      with_reducible assumption

theorem commApplyOp_legal {s : State} (hs : Kept vr qu s) : Kept vr qu (commApplyOp s) := by
  unfold commApplyOp
  with_reducible refine legal_foldl ?_ (fun u2 y2 hu2 => ?_)
  · with_reducible assumption
  · extract_lets +onlyGivenNames t3
    refine (fun (ht3 : Kept vr qu t3) => ?_) ?_
    · clear_value t3
      extract_lets +onlyGivenNames t4
      refine legal_mk (legal_each ?_ ?_ ?_ ?_ ?_ ?_ ?_ ?_ ?_ ?_ ?_ ?_ ?_ ?_ ?_ ?_)
      · with_reducible refine @legal_variant vr qu _ ?_
        with_reducible assumption
      · with_reducible refine @legal_pending vr qu _ ?_
        with_reducible assumption
      · with_reducible refine @legal_dev vr qu _ ?_
        with_reducible assumption
      · with_reducible refine @legal_held vr qu _ ?_
        with_reducible assumption
      · with_reducible refine @legal_queue vr qu _ ?_
        with_reducible assumption
      · with_reducible refine le_of_filter ?_
        with_reducible refine @legal_sessions vr qu _ ?_
        with_reducible assumption
      · with_reducible refine @legal_spi vr qu _ ?_
        with_reducible assumption
      · with_reducible refine @legal_bb vr qu _ ?_
        with_reducible assumption
      · with_reducible refine @legal_err vr qu _ ?_
        with_reducible assumption
      · with_reducible refine @legal_data vr qu _ ?_
        with_reducible assumption
      · with_reducible refine @legal_check vr qu _ ?_
        with_reducible assumption
      · with_reducible refine @legal_parity vr qu _ ?_
        with_reducible assumption
      · with_reducible refine @legal_pcheck vr qu _ ?_
        with_reducible assumption
      · with_reducible refine @legal_regs vr qu _ ?_
        with_reducible assumption
      · with_reducible refine @legal_perMaster vr qu _ ?_
        with_reducible assumption
      · with_reducible refine @legal_coaches vr qu _ ?_
        with_reducible assumption
    · unfold t3
      with_reducible apply markDirty_legal
      with_reducible apply keepVal_legal
      with_reducible assumption

theorem execCommSettingsApply_legal {s : State} (hs : Kept vr qu s) : ∀ u, execCommSettingsApply s = .next u → Kept vr qu u := by
  unfold execCommSettingsApply
  apply legal_act
  with_reducible apply commApplyOp_legal
  with_reducible assumption

theorem persistOp_legal {s : State} {ok : Bool} (hs : Kept vr qu s) : Kept vr qu (persistOp s ok) := by
  unfold persistOp
  extract_lets +onlyGivenNames t1
  split
  · with_reducible assumption
  · extract_lets +onlyGivenNames t3
    refine (fun (ht3 : Kept vr qu t3) => ?_) ?_
    · clear_value t3
      extract_lets +onlyGivenNames t4
      with_reducible refine legal_ite (fun c5 => ?_) (fun c5 => ?_)
      · with_reducible refine legal_mk (legal_parts ?_)
        with_reducible assumption
      · with_reducible apply bbL0_legal
        with_reducible apply fppCount_legal
        with_reducible assumption
    · unfold t3
      with_reducible refine legal_mk (legal_parts ?_)
      with_reducible assumption

theorem execRwpPersist_legal {ok : Bool} {s : State} (hs : Kept vr qu s) : ∀ u, execRwpPersist ok s = .next u → Kept vr qu u := by
  unfold execRwpPersist
  apply legal_act
  with_reducible apply persistOp_legal
  with_reducible assumption

end Sys2Proof.Machine
end

