-- ==== Sys2Proof/Laws/LegalBoot.lean ====
section
/-! SUPPORT. What every operation of Machine/Boot.lean does to a legal state: it leaves one. -/
namespace Sys2Proof.Machine
open Sys2Proof.Config
variable {vr : Config.Variant} {qu : List Instr}

theorem resetFrom_legal {s : State} {code : Nat} (h : Kept vr qu s) : Kept vr qu (resetFrom s code) :=
  legal_mk (legal_each h.variant h.pending (Nat.zero_le _) (Nat.zero_le _) (Nat.zero_le _) (Nat.zero_le _) (Nat.zero_le _) (Nat.zero_le _)
    (Nat.zero_le _) rfl rfl rfl rfl rfl rfl rfl)

theorem resetOp_legal {s : State} {code : ℕ} (hs : Kept vr qu s) : Kept vr qu (resetOp s code) := by
  unfold resetOp
  extract_lets +onlyGivenNames t1
  extract_lets +onlyGivenNames t2
  refine (fun (ht2 : Kept vr qu t2) => ?_) ?_
  · clear_value t2
    extract_lets +onlyGivenNames t3
    refine (fun (ht3 : Kept vr qu t3) => ?_) ?_
    · clear_value t3
      extract_lets +onlyGivenNames t4
      refine (fun (ht4 : Kept vr qu t4) => ?_) ?_
      · clear_value t4
        with_reducible refine legal_ite (fun c5 => ?_) (fun c5 => ?_)
        · with_reducible refine legal_mk (legal_parts ?_)
          with_reducible assumption
        · with_reducible refine legal_mk (legal_parts ?_)
          with_reducible assumption
      · unfold t4
        with_reducible apply bbL0_legal
        with_reducible assumption
    · unfold t3
      with_reducible refine legal_ite (fun c6 => ?_) (fun c6 => ?_)
      · with_reducible apply bbL0_legal
        with_reducible assumption
      · with_reducible assumption
  · unfold t2
    with_reducible apply setReg_legal
    with_reducible apply resetFrom_legal
    with_reducible assumption

theorem l0HaltOp_legal {s : State} (hs : Kept vr qu s) : Kept vr qu (l0HaltOp s) := by
  unfold l0HaltOp
  extract_lets +onlyGivenNames t1
  extract_lets +onlyGivenNames t2
  refine (fun (ht2 : Kept vr qu t2) => ?_) ?_
  · clear_value t2
    with_reducible refine legal_ite (fun c3 => ?_) (fun c3 => ?_)
    · with_reducible apply resetOp_legal
      with_reducible assumption
    · with_reducible apply resetOp_legal
      with_reducible apply ringDrain_legal
      with_reducible assumption
  · unfold t2
    with_reducible refine legal_ite (fun c4 => ?_) (fun c4 => ?_)
    · with_reducible assumption
    · with_reducible apply bbHw_legal
      with_reducible assumption

theorem wdogOp_legal {s : State} (hs : Kept vr qu s) : Kept vr qu (wdogOp s) := by
  unfold wdogOp
  with_reducible refine legal_ite (fun c1 => ?_) (fun c1 => ?_)
  · with_reducible apply resetOp_legal
    with_reducible assumption
  · with_reducible assumption

theorem tripOp_legal {s : State} (hs : Kept vr qu s) : Kept vr qu (tripOp s) := by
  unfold tripOp
  extract_lets +onlyGivenNames t1
  refine (fun (ht1 : Kept vr qu t1) => ?_) ?_
  · clear_value t1
    extract_lets +onlyGivenNames t2
    with_reducible refine legal_mk (legal_parts ?_)
    with_reducible assumption
  · unfold t1
    with_reducible apply resetOp_legal
    with_reducible assumption

theorem releaseOp_legal {s : State} (hs : Kept vr qu s) : Kept vr qu (releaseOp s) := by
  unfold releaseOp
  extract_lets +onlyGivenNames t1
  with_reducible refine legal_ite (fun c2 => ?_) (fun c2 => ?_)
  · with_reducible assumption
  · with_reducible apply setDev_legal
    · with_reducible refine legal_mk (legal_parts ?_)
      with_reducible assumption
    · omega

theorem applyFuse_legal {s : State} {e : ℕ} (hs : Kept vr qu s) : Kept vr qu (applyFuse s e) := by
  unfold applyFuse
  extract_lets +onlyGivenNames t1
  extract_lets +onlyGivenNames t2
  extract_lets +onlyGivenNames t3
  with_reducible refine legal_ite (fun c4 => ?_) (fun c4 => ?_)
  · with_reducible assumption
  · with_reducible refine legal_mk (legal_parts ?_)
    with_reducible assumption

theorem applyFuses_legal {s : State} (hs : Kept vr qu s) : Kept vr qu (applyFuses s) := by
  unfold applyFuses
  extract_lets +onlyGivenNames t1
  refine (fun (ht1 : Kept vr qu t1) => ?_) ?_
  · clear_value t1
    with_reducible refine legal_foldl ?_ (fun u2 y2 hu2 => ?_)
    · with_reducible assumption
    · with_reducible apply applyFuse_legal
      with_reducible assumption
  · unfold t1
    with_reducible refine legal_foldl ?_ (fun u3 y3 hu3 => ?_)
    · with_reducible assumption
    · with_reducible refine legal_ite (fun c4 => ?_) (fun c4 => ?_)
      · with_reducible apply applyFuse_legal
        with_reducible assumption
      · with_reducible assumption

theorem lockPlls_legal {s : State} (hs : Kept vr qu s) : Kept vr qu (lockPlls s) := by
  unfold lockPlls
  with_reducible refine legal_foldl ?_ (fun u1 y1 hu1 => ?_)
  · with_reducible apply setReg_legal
    with_reducible assumption
  · with_reducible apply setRegB_legal
    with_reducible assumption

theorem slotOff_legal {s : State} {c : ℕ} (hs : Kept vr qu s) : Kept vr qu (slotOff s c) := by
  unfold slotOff
  with_reducible apply setRegF_legal
  with_reducible apply switchOff_legal
  with_reducible assumption

theorem badLogical_legal {s : State} {n : ℕ} (hs : Kept vr qu s) : Kept vr qu (badLogical s n) := by
  unfold badLogical
  extract_lets +onlyGivenNames t1
  split
  · with_reducible apply mapSlot_legal
    with_reducible assumption
  · with_reducible apply bbL0_legal
    with_reducible apply setLogi_legal
    with_reducible assumption

theorem badUnitsOff_legal {s : State} {bad : List ℕ} (hs : Kept vr qu s) : Kept vr qu (badUnitsOff s bad) := by
  unfold badUnitsOff
  extract_lets +onlyGivenNames t1
  extract_lets +onlyGivenNames t2
  refine (fun (ht2 : Kept vr qu t2) => ?_) ?_
  · clear_value t2
    extract_lets +onlyGivenNames t3
    refine (fun (ht3 : Kept vr qu t3) => ?_) ?_
    · clear_value t3
      with_reducible refine legal_foldl ?_ (fun u5 y5 hu5 => ?_)
      · with_reducible assumption
      · extract_lets +onlyGivenNames t6
        refine (fun (ht6 : Kept vr qu t6) => ?_) ?_
        · clear_value t6
          extract_lets +onlyGivenNames t7
          with_reducible refine legal_mk (legal_parts ?_)
          with_reducible assumption
        · unfold t6
          with_reducible refine legal_ite (fun c8 => ?_) (fun c8 => ?_)
          · with_reducible assumption
          · with_reducible apply slotOff_legal
            with_reducible assumption
    · unfold t3
      with_reducible refine legal_foldl ?_ (fun u9 y9 hu9 => ?_)
      · with_reducible assumption
      · with_reducible apply badLogical_legal
        with_reducible assumption
  · unfold t2
    with_reducible refine legal_foldl ?_ (fun u10 y10 hu10 => ?_)
    · with_reducible assumption
    · with_reducible apply setSlotSt_legal
      with_reducible apply slotOff_legal
      with_reducible assumption

theorem claimSources_legal {s : State} (hs : Kept vr qu s) : Kept vr qu (claimSources s) := by
  unfold claimSources
  with_reducible refine legal_foldl ?_ (fun u1 y1 hu1 => ?_)
  · with_reducible assumption
  · with_reducible apply setReg_legal
    with_reducible assumption

theorem selfRow_legal {s : State} {bad : List ℕ} {f : FailRow} (hs : Kept vr qu s) : Kept1 vr qu (selfRow s bad f) := by
  unfold selfRow
  extract_lets +onlyGivenNames t1
  extract_lets +onlyGivenNames t2
  with_reducible refine legal1_ite (fun c3 => ?_) (fun c3 => ?_)
  · refine legal1_mk ?_
    with_reducible assumption
  · refine legal1_mk ?_
    with_reducible apply remapRow_legal
    with_reducible apply errReport_legal
    with_reducible assumption

theorem selftestOp_legal {s : State} {found : MarchFound} (hs : Kept vr qu s) : Kept vr qu (selftestOp s found) := by
  unfold selftestOp
  extract_lets +onlyGivenNames t1
  extract_lets +onlyGivenNames t2
  refine (fun (ht2 : Kept vr qu t2) => ?_) ?_
  · clear_value t2
    extract_lets +onlyGivenNames t3
    refine (fun (ht3 : Kept1 vr qu t3) => ?_) ?_
    · clear_value t3
      extract_lets +onlyGivenNames t4
      refine (fun (ht4 : Kept vr qu t4) => ?_) ?_
      · clear_value t4
        extract_lets +onlyGivenNames t5
        extract_lets +onlyGivenNames t6
        refine (fun (ht6 : Kept vr qu t6) => ?_) ?_
        · clear_value t6
          extract_lets +onlyGivenNames t7
          refine (fun (ht7 : Kept vr qu t7) => ?_) ?_
          · clear_value t7
            extract_lets +onlyGivenNames t8
            refine (fun (ht8 : Kept vr qu t8) => ?_) ?_
            · clear_value t8
              extract_lets +onlyGivenNames t9
              refine (fun (ht9 : Kept vr qu t9) => ?_) ?_
              · clear_value t9
                extract_lets +onlyGivenNames t10
                with_reducible refine legal_ite (fun c11 => ?_) (fun c11 => ?_)
                · with_reducible assumption
                · with_reducible refine legal_ite (fun c12 => ?_) (fun c12 => ?_)
                  · with_reducible apply refusedByState_legal
                    with_reducible assumption
                  · with_reducible refine legal_mk (legal_parts ?_)
                    with_reducible assumption
              · unfold t9
                with_reducible apply claimSources_legal
                with_reducible apply setDev_legal
                · with_reducible assumption
                · omega
            · unfold t8
              with_reducible apply badUnitsOff_legal
              with_reducible assumption
          · unfold t7
            with_reducible refine legal_foldl ?_ (fun u13 y13 hu13 => ?_)
            · with_reducible assumption
            · with_reducible apply slotOff_legal
              with_reducible assumption
        · unfold t6
          with_reducible apply bbSelftest_legal
          with_reducible assumption
      · unfold t4
        refine legal1_out ?_
        with_reducible assumption
    · unfold t3
      with_reducible refine legal1_foldl ?_ (fun u14 y14 hu14 => ?_)
      · refine legal1_mk ?_
        with_reducible assumption
      · with_reducible apply selfRow_legal
        refine legal1_out ?_
        with_reducible assumption
  · unfold t2
    with_reducible apply applyFuses_legal
    with_reducible apply lockPlls_legal
    with_reducible refine legal_mk (legal_parts ?_)
    with_reducible assumption

theorem storeWords_legal : ∀ {n : Nat} {s : State} {a : Nat} {l : List Nat} (_ : Kept vr qu s), Kept vr qu (storeWords n s a l)
  | 0, _, _, _, h => by
    unfold storeWords
    exact h
  | n + 1, s, a, l, h => by
    unfold storeWords
    exact legal_ite (fun _ => h) (fun _ => legal_ite (fun _ => storeWords_legal (legalO_out (devAccess_legal h)))
      (fun _ => storeWords_legal (legalO_out (devAccess_legal h))))

theorem loadImages_legal {b store : Nat} : ∀ {l : List PkgEntry} {s : State} {n : Nat} (_ : Kept vr qu s), Kept vr qu (loadImages s b store l n)
  | [], _, _, h => by
    unfold loadImages
    exact h
  | e :: r, s, n, h => by
    unfold loadImages
    exact legal_ite (fun _ => loadImages_legal (storeWords_legal h)) (fun _ => legal_ite (fun _ => loadImages_legal (storeWords_legal h))
      (fun _ => loadImages_legal h))

theorem loadPackage_legal {s : State} {slot : ℕ} (hs : Kept vr qu s) : Kept vr qu (loadPackage s slot) := by
  unfold loadPackage
  extract_lets +onlyGivenNames t1
  extract_lets +onlyGivenNames t2
  extract_lets +onlyGivenNames t3
  extract_lets +onlyGivenNames t4
  extract_lets +onlyGivenNames t5
  refine (fun (ht5 : Kept vr qu t5) => ?_) ?_
  · clear_value t5
    with_reducible apply loadImages_legal
    with_reducible assumption
  · unfold t5
    with_reducible refine legal_mk (legal_parts ?_)
    with_reducible assumption

theorem applyMap_legal {s : State} {d : List Byte} (hs : Kept vr qu s) : Kept vr qu (applyMap s d) := by
  unfold applyMap
  with_reducible refine legal_foldl ?_ (fun u2 y2 hu2 => ?_)
  · with_reducible assumption
  · extract_lets +onlyGivenNames t3
    with_reducible refine legal_ite (fun c4 => ?_) (fun c4 => ?_)
    · with_reducible assumption
    · with_reducible apply setDomain_legal
      with_reducible apply setRegF_legal
      with_reducible assumption

theorem applyStored_legal {s : State} {e : ℕ × List Byte} (hs : Kept vr qu s) : Kept vr qu (applyStored s e) := by
  unfold applyStored
  extract_lets +onlyGivenNames t1
  extract_lets +onlyGivenNames t2
  refine (fun (ht2 : Kept vr qu t2) => ?_) ?_
  · clear_value t2
    extract_lets +onlyGivenNames t3
    refine (fun (ht3 : Kept2 vr qu t3) => ?_) ?_
    · clear_value t3
      with_reducible refine legal_ite (fun c4 => ?_) (fun c4 => ?_)
      · with_reducible assumption
      · with_reducible refine legal_ite (fun c5 => ?_) (fun c5 => ?_)
        · with_reducible apply applyMap_legal
          with_reducible assumption
        · with_reducible refine legal_ite (fun c6 => ?_) (fun c6 => ?_)
          · refine legal2_out ?_
            with_reducible assumption
          · with_reducible assumption
    · unfold t3
      with_reducible apply writeVal_legal
      with_reducible assumption
  · unfold t2
    with_reducible apply keepVal_legal
    with_reducible assumption

theorem applyClocks_legal {s : State} (hs : Kept vr qu s) : Kept vr qu (applyClocks s) := by
  unfold applyClocks
  extract_lets +onlyGivenNames t1
  refine (fun (ht1 : Kept vr qu t1) => ?_) ?_
  · clear_value t1
    with_reducible refine legal_foldl ?_ (fun u2 y2 hu2 => ?_)
    · with_reducible assumption
    · with_reducible apply clockDone_legal
      with_reducible assumption
  · unfold t1
    with_reducible apply avsUpdate_legal
    with_reducible apply setRegB_legal
    with_reducible assumption

theorem restore_legal {s : State} (hs : Kept vr qu s) : Kept vr qu (restore s) := by
  unfold restore
  extract_lets +onlyGivenNames t1
  refine (fun (ht1 : Kept vr qu t1) => ?_) ?_
  · clear_value t1
    with_reducible apply applyClocks_legal
    with_reducible refine legal_foldl ?_ (fun u2 y2 hu2 => ?_)
    · with_reducible assumption
    · with_reducible apply applyStored_legal
      with_reducible assumption
  · unfold t1
    with_reducible apply setRegF_legal
    with_reducible assumption

theorem startLeads_legal {s : State} (hs : Kept vr qu s) : Kept vr qu (startLeads s) := by
  unfold startLeads
  with_reducible refine legal_foldl ?_ (fun u1 y1 hu1 => ?_)
  · with_reducible assumption
  · with_reducible apply startCoach_legal
    with_reducible assumption

theorem bootRegions_legal {s : State} (hs : Kept vr qu s) : Kept vr qu (bootRegions s) := by
  unfold bootRegions
  with_reducible refine legal_foldl ?_ (fun u2 y2 hu2 => ?_)
  · with_reducible apply coachRegions_legal
    with_reducible assumption
  · extract_lets +onlyGivenNames t3
    extract_lets +onlyGivenNames t4
    with_reducible apply setRegF_legal
    with_reducible apply setReg_legal
    with_reducible apply setReg_legal
    with_reducible assumption

theorem enterConfig_legal {s : State} (hs : Kept vr qu s) : Kept vr qu (enterConfig s) := by
  unfold enterConfig
  extract_lets +onlyGivenNames t1
  refine (fun (ht1 : Kept vr qu t1) => ?_) ?_
  · clear_value t1
    extract_lets +onlyGivenNames t2
    refine (fun (ht2 : Kept vr qu t2) => ?_) ?_
    · clear_value t2
      extract_lets +onlyGivenNames t3
      with_reducible apply bbReadySlot_legal
      with_reducible refine legal_mk (legal_parts ?_)
      with_reducible assumption
    · unfold t2
      with_reducible apply setDev_legal
      · with_reducible apply bbBoot_legal
        with_reducible assumption
      · omega
  · unfold t1
    with_reducible apply restore_legal
    with_reducible apply startLeads_legal
    with_reducible apply bootRegions_legal
    with_reducible assumption

theorem bootOp_legal {s : State} (hs : Kept vr qu s) : Kept vr qu (bootOp s) := by
  unfold bootOp
  extract_lets +onlyGivenNames t1
  refine (fun (ht1 : Kept vr qu t1) => ?_) ?_
  · clear_value t1
    extract_lets +onlyGivenNames t2
    extract_lets +onlyGivenNames t3
    refine (fun (ht3 : Kept vr qu t3) => ?_) ?_
    · clear_value t3
      extract_lets +onlyGivenNames t4
      with_reducible refine legal_ite (fun c5 => ?_) (fun c5 => ?_)
      · with_reducible assumption
      · split
        · with_reducible apply enterConfig_legal
          with_reducible apply loadPackage_legal
          with_reducible assumption
        · with_reducible refine legal_mk (legal_parts ?_)
          with_reducible assumption
    · unfold t3
      with_reducible apply setDev_legal
      · with_reducible apply bbL0_legal
        with_reducible assumption
      · omega
  · unfold t1
    with_reducible refine legal_ite (fun c6 => ?_) (fun c6 => ?_)
    · with_reducible apply bbL0_legal
      with_reducible assumption
    · with_reducible assumption

theorem execPowerOnReset_legal {s : State} (hs : Kept vr qu s) : ∀ u, execPowerOnReset s = .next u → Kept vr qu u := by
  unfold execPowerOnReset
  apply legal_act
  with_reducible apply resetOp_legal
  with_reducible assumption

theorem execResetNAssert_legal {s : State} (hs : Kept vr qu s) : ∀ u, execResetNAssert s = .next u → Kept vr qu u := by
  unfold execResetNAssert
  apply legal_act
  with_reducible apply resetOp_legal
  with_reducible assumption

theorem execL0HaltReset_legal {s : State} (hs : Kept vr qu s) : ∀ u, execL0HaltReset s = .next u → Kept vr qu u := by
  unfold execL0HaltReset
  apply legal_act
  with_reducible apply l0HaltOp_legal
  with_reducible assumption

theorem execWatchdogExpiry_legal {s : State} (hs : Kept vr qu s) : ∀ u, execWatchdogExpiry s = .next u → Kept vr qu u := by
  unfold execWatchdogExpiry
  apply legal_act
  with_reducible apply wdogOp_legal
  with_reducible assumption

theorem execThermalTrip_legal {s : State} (hs : Kept vr qu s) : ∀ u, execThermalTrip s = .next u → Kept vr qu u := by
  unfold execThermalTrip
  apply legal_act
  with_reducible apply tripOp_legal
  with_reducible assumption

theorem execPllLockLost_legal {s : State} (hs : Kept vr qu s) : ∀ u, execPllLockLost s = .next u → Kept vr qu u := by
  unfold execPllLockLost
  apply legal_act
  with_reducible apply resetOp_legal
  with_reducible assumption

theorem execResetRelease_legal {s : State} (hs : Kept vr qu s) : ∀ u, execResetRelease s = .next u → Kept vr qu u := by
  unfold execResetRelease
  apply legal_act
  with_reducible apply releaseOp_legal
  with_reducible assumption

theorem execSelftestComplete_legal {found : MarchFound} {s : State} (hs : Kept vr qu s) : ∀ u, execSelftestComplete found s = .next u → Kept vr qu u := by
  unfold execSelftestComplete
  apply legal_act
  with_reducible apply selftestOp_legal
  with_reducible assumption

theorem execBootComplete_legal {s : State} (hs : Kept vr qu s) : ∀ u, execBootComplete s = .next u → Kept vr qu u := by
  unfold execBootComplete
  apply legal_act
  with_reducible apply bootOp_legal
  with_reducible assumption

end Sys2Proof.Machine
end

