-- ==== Sys2Proof/Laws/LegalKetch.lean ====
section
/-! SUPPORT. What every operation of Machine/Ketch.lean does to a legal state: it leaves one. -/
namespace Sys2Proof.Machine
open Sys2Proof.Config
variable {vr : Config.Variant} {qu : List Instr}

theorem kDone_legal {s : State} {c : ℕ} {k : Coach} {next : W32} {n : ℕ} {st : ℕ} (hs : Kept vr qu s) : Kept vr qu (kDone s c k next n st) := by
  unfold kDone
  extract_lets +onlyGivenNames t1
  with_reducible apply setCo_legal
  with_reducible assumption

theorem kWrite_legal {s : State} {c : ℕ} {k : Coach} {d : ℕ} {v : KVal} (hs : Kept vr qu s) : Kept vr qu (kWrite s c k d v) := by
  unfold kWrite
  extract_lets +onlyGivenNames t1
  extract_lets +onlyGivenNames t2
  extract_lets +onlyGivenNames t3
  extract_lets +onlyGivenNames t4
  with_reducible apply kDone_legal
  with_reducible assumption

theorem kCompute_legal {s : State} {c : ℕ} {k : Coach} {d : ℕ} {r : Except Refused KVal} (hs : Kept vr qu s) : Kept vr qu (kCompute s c k d r) := by
  unfold kCompute
  split
  · with_reducible apply setCo_legal
    with_reducible assumption
  · with_reducible apply kWrite_legal
    with_reducible assumption

theorem kSend_legal {s : State} {c : ℕ} {k : Coach} {a : Access} {n : ℕ} (hs : Kept vr qu s) : Kept vr qu (kSend s c k a n) := by
  unfold kSend
  extract_lets +onlyGivenNames t1
  extract_lets +onlyGivenNames t2
  with_reducible apply setCo_legal
  with_reducible assumption

theorem kAccess_legal {s : State} {c : ℕ} {k : Coach} {a : Access} {n : ℕ} (hs : Kept vr qu s) : Kept vr qu (kAccess s c k a n) := by
  unfold kAccess
  extract_lets +onlyGivenNames t1
  refine (fun (ht1 : Kept vr qu t1) => ?_) ?_
  · clear_value t1
    split
    · with_reducible apply setCo_legal
      with_reducible assumption
    · with_reducible refine legal_ite (fun c2 => ?_) (fun c2 => ?_)
      · with_reducible apply finishBundle_legal
        with_reducible apply serveNow_legal
        with_reducible assumption
      · with_reducible apply sendAccess_legal
        with_reducible assumption
  · unfold t1
    with_reducible apply kSend_legal
    with_reducible assumption

theorem kLoad_legal {s : State} {c : ℕ} {k : Coach} {op : ℕ} {d : ℕ} {a : ℕ} {imm : ℤ} (hs : Kept vr qu s) : Kept vr qu (kLoad s c k op d a imm) := by
  unfold kLoad
  split
  · with_reducible apply setCo_legal
    with_reducible assumption
  · with_reducible apply kAccess_legal
    with_reducible assumption

theorem kStore_legal {s : State} {c : ℕ} {k : Coach} {op : ℕ} {a : ℕ} {b : ℕ} {imm : ℤ} (hs : Kept vr qu s) : Kept vr qu (kStore s c k op a b imm) := by
  unfold kStore
  split
  · with_reducible apply setCo_legal
    with_reducible assumption
  · with_reducible refine legal_ite (fun c1 => ?_) (fun c1 => ?_)
    · with_reducible apply setCo_legal
      with_reducible assumption
    · with_reducible apply kAccess_legal
      with_reducible assumption

theorem kFrameStore_legal {s : State} {c : ℕ} {q : ℕ} {n : ℕ} (hs : Kept vr qu s) : Kept1 vr qu (kFrameStore s c q n) := by
  unfold kFrameStore
  with_reducible refine legal1_foldl ?_ (fun u2 y2 hu2 => ?_)
  · refine legal1_mk ?_
    with_reducible assumption
  · extract_lets +onlyGivenNames t3
    refine (fun (ht3 : KeptO vr qu t3) => ?_) ?_
    · clear_value t3
      with_reducible refine legal1_ite (fun c4 => ?_) (fun c4 => ?_)
      · with_reducible assumption
      · refine legal1_mk ?_
        refine legalO_out ?_
        with_reducible assumption
    · unfold t3
      with_reducible apply coachNow_legal
      refine legal1_out ?_
      with_reducible assumption

theorem kFrame_legal {s : State} {c : ℕ} {k : Coach} {n : ℕ} (hs : Kept vr qu s) : Kept vr qu (kFrame s c k n) := by
  unfold kFrame
  extract_lets +onlyGivenNames t1
  split
  · with_reducible apply setCo_legal
    with_reducible assumption
  · split
    · with_reducible apply setCo_legal
      with_reducible assumption
    · extract_lets +onlyGivenNames t4
      extract_lets +onlyGivenNames t5
      refine (fun (ht5 : Kept1 vr qu t5) => ?_) ?_
      · clear_value t5
        split
        · with_reducible apply setCo_legal
          with_reducible assumption
        · split
          · with_reducible apply setCo_legal
            refine legal1_out ?_
            with_reducible assumption
          · with_reducible apply kDone_legal
            refine legal1_out ?_
            with_reducible assumption
      · unfold t5
        with_reducible apply kFrameStore_legal
        with_reducible assumption

theorem kBranch_legal {s : State} {c : ℕ} {k : Coach} {taken : Bool} {imm : ℤ} (hs : Kept vr qu s) : Kept vr qu (kBranch s c k taken imm) := by
  unfold kBranch
  with_reducible refine legal_ite (fun c1 => ?_) (fun c1 => ?_)
  · with_reducible apply kDone_legal
    with_reducible assumption
  · with_reducible apply kDone_legal
    with_reducible assumption

theorem kCond_legal {s : State} {c : ℕ} {k : Coach} {op : ℕ} {a : ℕ} {imm : ℤ} (hs : Kept vr qu s) : Kept vr qu (kCond s c k op a imm) := by
  unfold kCond
  split
  · with_reducible apply setCo_legal
    with_reducible assumption
  · with_reducible apply kBranch_legal
    with_reducible assumption

theorem kJump_legal {s : State} {c : ℕ} {k : Coach} {a : ℕ} (hs : Kept vr qu s) : Kept vr qu (kJump s c k a) := by
  unfold kJump
  split
  · with_reducible apply setCo_legal
    with_reducible assumption
  · with_reducible apply kDone_legal
    with_reducible assumption

theorem kCallTo_legal {s : State} {c : ℕ} {k : Coach} {op : ℕ} {target : W32} (hs : Kept vr qu s) : Kept vr qu (kCallTo s c k op target) := by
  unfold kCallTo
  extract_lets +onlyGivenNames t1
  refine (fun (ht1 : Kept1 vr qu t1) => ?_) ?_
  · clear_value t1
    split
    · with_reducible apply setCo_legal
      with_reducible assumption
    · with_reducible refine legal_ite (fun c2 => ?_) (fun c2 => ?_)
      · with_reducible apply setCo_legal
        with_reducible assumption
      · with_reducible apply kDone_legal
        refine legal1_out ?_
        with_reducible assumption
  · unfold t1
    with_reducible apply ssPush_legal
    with_reducible assumption

theorem kCallR_legal {s : State} {c : ℕ} {k : Coach} {a : ℕ} (hs : Kept vr qu s) : Kept vr qu (kCallR s c k a) := by
  unfold kCallR
  split
  · with_reducible apply setCo_legal
    with_reducible assumption
  · with_reducible apply kCallTo_legal
    with_reducible assumption

theorem kRet_legal {s : State} {c : ℕ} {k : Coach} (hs : Kept vr qu s) : Kept vr qu (kRet s c k) := by
  unfold kRet
  extract_lets +onlyGivenNames t1
  extract_lets +onlyGivenNames t2
  split
  · with_reducible apply setCo_legal
    with_reducible assumption
  · split
    · with_reducible apply setCo_legal
      with_reducible assumption
    · with_reducible apply kDone_legal
      with_reducible assumption

theorem kGate_legal {s : State} {c : Nat} {k : Coach} {o : GateOut} {n : Nat} (h : Kept vr qu s) (ho : KeptG vr qu o) : Kept vr qu (kGate s c k o n) := by
  unfold kGate
  split
  · exact setCo_legal (legal_ite (fun _ => legalG_out ho) (fun _ => h))
  · exact setCo_legal (legalG_out ho)

theorem kEret_legal {s : State} {c : ℕ} {k : Coach} (hs : Kept vr qu s) : Kept vr qu (kEret s c k) := by
  unfold kEret
  extract_lets +onlyGivenNames t1
  refine (fun (ht1 : Kept vr qu t1) => ?_) ?_
  · clear_value t1
    extract_lets +onlyGivenNames t2
    refine (fun (ht2 : Kept1 vr qu t2) => ?_) ?_
    · clear_value t2
      extract_lets +onlyGivenNames t3
      with_reducible refine legal_ite (fun c4 => ?_) (fun c4 => ?_)
      · with_reducible apply setCo_legal
        with_reducible assumption
      · split
        · with_reducible apply setCo_legal
          refine legal1_out ?_
          with_reducible assumption
        · with_reducible apply setCo_legal
          refine legal1_out ?_
          with_reducible assumption
    · unfold t2
      with_reducible apply eretRead_legal
      with_reducible assumption
  · unfold t1
    with_reducible apply setCo_legal
    with_reducible assumption

theorem kRun_legal {s : State} {c : ℕ} {k : Coach} {w : ℕ} (hs : Kept vr qu s) : Kept vr qu (kRun s c k w) := by
  unfold kRun
  extract_lets +onlyGivenNames t1
  extract_lets +onlyGivenNames t2
  extract_lets +onlyGivenNames t3
  extract_lets +onlyGivenNames t4
  refine (fun (ht4 : Kept vr qu t4) => ?_) ?_
  · clear_value t4
    extract_lets +onlyGivenNames t5
    split
    · with_reducible apply kDone_legal
      with_reducible assumption
    · with_reducible apply kCompute_legal
      with_reducible assumption
    · with_reducible apply kWrite_legal
      with_reducible assumption
    · with_reducible apply kCompute_legal
      with_reducible assumption
    · with_reducible apply kCompute_legal
      with_reducible assumption
    · with_reducible apply kCompute_legal
      with_reducible assumption
    · with_reducible apply kCompute_legal
      with_reducible assumption
    · with_reducible apply kCompute_legal
      with_reducible assumption
    · with_reducible apply kCompute_legal
      with_reducible assumption
    · with_reducible apply kCompute_legal
      with_reducible assumption
    · with_reducible apply kCompute_legal
      with_reducible assumption
    · with_reducible apply kCompute_legal
      with_reducible assumption
    · with_reducible apply kWrite_legal
      with_reducible assumption
    · with_reducible apply kLoad_legal
      with_reducible assumption
    · with_reducible apply kStore_legal
      with_reducible assumption
    · with_reducible apply kLoad_legal
      with_reducible assumption
    · with_reducible apply kStore_legal
      with_reducible assumption
    · with_reducible apply kFrame_legal
      with_reducible assumption
    · with_reducible apply kCond_legal
      with_reducible assumption
    · with_reducible apply kCond_legal
      with_reducible assumption
    · with_reducible apply kBranch_legal
      with_reducible assumption
    · with_reducible apply kJump_legal
      with_reducible assumption
    · with_reducible apply kCallTo_legal
      with_reducible assumption
    · with_reducible apply kCallR_legal
      with_reducible assumption
    · with_reducible apply kRet_legal
      with_reducible assumption
    · with_reducible apply kGate_legal
      · with_reducible assumption
      · with_reducible apply gateKcall_legal
        with_reducible assumption
    · with_reducible apply kGate_legal
      · with_reducible assumption
      · with_reducible apply gateKret_legal
        with_reducible assumption
    · with_reducible apply setCo_legal
      with_reducible assumption
    · with_reducible apply setCo_legal
      with_reducible assumption
    · with_reducible apply kEret_legal
      with_reducible assumption
    · with_reducible apply kCompute_legal
      with_reducible assumption
  · unfold t4
    with_reducible apply kDone_legal
    with_reducible assumption

theorem ketchOp_legal {op : ℕ} {s : State} {c : ℕ} (hs : Kept vr qu s) : Kept vr qu (ketchOp op s c) := by
  unfold ketchOp
  extract_lets +onlyGivenNames t1
  extract_lets +onlyGivenNames t2
  extract_lets +onlyGivenNames t3
  extract_lets +onlyGivenNames t4
  refine (fun (ht4 : Kept vr qu t4) => ?_) ?_
  · clear_value t4
    with_reducible refine legal_ite (fun c5 => ?_) (fun c5 => ?_)
    · with_reducible assumption
    · split
      · with_reducible apply setCo_legal
        with_reducible assumption
      · with_reducible refine legal_ite (fun c6 => ?_) (fun c6 => ?_)
        · with_reducible apply setCo_legal
          with_reducible assumption
        · split
          · with_reducible apply setCo_legal
            with_reducible assumption
          · with_reducible refine legal_ite (fun c7 => ?_) (fun c7 => ?_)
            · with_reducible apply setCo_legal
              with_reducible assumption
            · with_reducible refine legal_ite (fun c8 => ?_) (fun c8 => ?_)
              · with_reducible apply kRun_legal
                with_reducible apply setCo_legal
                with_reducible assumption
              · with_reducible assumption
  · unfold t4
    with_reducible apply fetchFill_legal
    with_reducible assumption

theorem modeSwitchOp_legal {s : State} {c : ℕ} (hs : Kept vr qu s) : Kept vr qu (modeSwitchOp s c) := by
  unfold modeSwitchOp
  extract_lets +onlyGivenNames t1
  extract_lets +onlyGivenNames t2
  extract_lets +onlyGivenNames t3
  extract_lets +onlyGivenNames t4
  extract_lets +onlyGivenNames t5
  extract_lets +onlyGivenNames t6
  with_reducible refine legal_ite (fun c7 => ?_) (fun c7 => ?_)
  · with_reducible assumption
  · with_reducible refine legal_ite (fun c8 => ?_) (fun c8 => ?_)
    · with_reducible assumption
    · with_reducible refine legal_ite (fun c9 => ?_) (fun c9 => ?_)
      · with_reducible apply setCo_legal
        with_reducible assumption
      · with_reducible apply setCo_legal
        with_reducible assumption

end Sys2Proof.Machine
end

