-- ==== Sys2Proof/Laws/LegalKetchCmd.lean ====
section
/-! SUPPORT. What every operation of Machine/KetchCmd.lean does to a legal state: it leaves one. -/
namespace Sys2Proof.Machine
open Sys2Proof.Config
variable {vr : Config.Variant} {qu : List Instr}

theorem execKetchModeSwitch_legal {c : ℕ} {s : State} (hs : Kept vr qu s) : ∀ u, execKetchModeSwitch c s = .next u → Kept vr qu u := by
  unfold execKetchModeSwitch
  apply legal_act
  with_reducible apply modeSwitchOp_legal
  with_reducible assumption

theorem execKetchNop_legal {c : ℕ} {s : State} (hs : Kept vr qu s) : ∀ u, execKetchNop c s = .next u → Kept vr qu u := by
  unfold execKetchNop
  apply legal_act
  with_reducible apply ketchOp_legal
  with_reducible assumption

theorem execMove_legal {c : ℕ} {s : State} (hs : Kept vr qu s) : ∀ u, execMove c s = .next u → Kept vr qu u := by
  unfold execMove
  apply legal_act
  with_reducible apply ketchOp_legal
  with_reducible assumption

theorem execLdi_legal {c : ℕ} {s : State} (hs : Kept vr qu s) : ∀ u, execLdi c s = .next u → Kept vr qu u := by
  unfold execLdi
  apply legal_act
  with_reducible apply ketchOp_legal
  with_reducible assumption

theorem execLdhi_legal {c : ℕ} {s : State} (hs : Kept vr qu s) : ∀ u, execLdhi c s = .next u → Kept vr qu u := by
  unfold execLdhi
  apply legal_act
  with_reducible apply ketchOp_legal
  with_reducible assumption

theorem execKetchAdd_legal {c : ℕ} {s : State} (hs : Kept vr qu s) : ∀ u, execKetchAdd c s = .next u → Kept vr qu u := by
  unfold execKetchAdd
  apply legal_act
  with_reducible apply ketchOp_legal
  with_reducible assumption

theorem execKetchSub_legal {c : ℕ} {s : State} (hs : Kept vr qu s) : ∀ u, execKetchSub c s = .next u → Kept vr qu u := by
  unfold execKetchSub
  apply legal_act
  with_reducible apply ketchOp_legal
  with_reducible assumption

theorem execKetchMul_legal {c : ℕ} {s : State} (hs : Kept vr qu s) : ∀ u, execKetchMul c s = .next u → Kept vr qu u := by
  unfold execKetchMul
  apply legal_act
  with_reducible apply ketchOp_legal
  with_reducible assumption

theorem execKetchAddi_legal {c : ℕ} {s : State} (hs : Kept vr qu s) : ∀ u, execKetchAddi c s = .next u → Kept vr qu u := by
  unfold execKetchAddi
  apply legal_act
  with_reducible apply ketchOp_legal
  with_reducible assumption

theorem execKetchAnd_legal {c : ℕ} {s : State} (hs : Kept vr qu s) : ∀ u, execKetchAnd c s = .next u → Kept vr qu u := by
  unfold execKetchAnd
  apply legal_act
  with_reducible apply ketchOp_legal
  with_reducible assumption

theorem execKetchOr_legal {c : ℕ} {s : State} (hs : Kept vr qu s) : ∀ u, execKetchOr c s = .next u → Kept vr qu u := by
  unfold execKetchOr
  apply legal_act
  with_reducible apply ketchOp_legal
  with_reducible assumption

theorem execKetchXor_legal {c : ℕ} {s : State} (hs : Kept vr qu s) : ∀ u, execKetchXor c s = .next u → Kept vr qu u := by
  unfold execKetchXor
  apply legal_act
  with_reducible apply ketchOp_legal
  with_reducible assumption

theorem execKetchShl_legal {c : ℕ} {s : State} (hs : Kept vr qu s) : ∀ u, execKetchShl c s = .next u → Kept vr qu u := by
  unfold execKetchShl
  apply legal_act
  with_reducible apply ketchOp_legal
  with_reducible assumption

theorem execKetchShr_legal {c : ℕ} {s : State} (hs : Kept vr qu s) : ∀ u, execKetchShr c s = .next u → Kept vr qu u := by
  unfold execKetchShr
  apply legal_act
  with_reducible apply ketchOp_legal
  with_reducible assumption

theorem execKetchSar_legal {c : ℕ} {s : State} (hs : Kept vr qu s) : ∀ u, execKetchSar c s = .next u → Kept vr qu u := by
  unfold execKetchSar
  apply legal_act
  with_reducible apply ketchOp_legal
  with_reducible assumption

theorem execKetchSeq_legal {c : ℕ} {s : State} (hs : Kept vr qu s) : ∀ u, execKetchSeq c s = .next u → Kept vr qu u := by
  unfold execKetchSeq
  apply legal_act
  with_reducible apply ketchOp_legal
  with_reducible assumption

theorem execKetchSlt_legal {c : ℕ} {s : State} (hs : Kept vr qu s) : ∀ u, execKetchSlt c s = .next u → Kept vr qu u := by
  unfold execKetchSlt
  apply legal_act
  with_reducible apply ketchOp_legal
  with_reducible assumption

theorem execCvt_legal {c : ℕ} {s : State} (hs : Kept vr qu s) : ∀ u, execCvt c s = .next u → Kept vr qu u := by
  unfold execCvt
  apply legal_act
  with_reducible apply ketchOp_legal
  with_reducible assumption

theorem execMktag_legal {c : ℕ} {s : State} (hs : Kept vr qu s) : ∀ u, execMktag c s = .next u → Kept vr qu u := by
  unfold execMktag
  apply legal_act
  with_reducible apply ketchOp_legal
  with_reducible assumption

theorem execTagof_legal {c : ℕ} {s : State} (hs : Kept vr qu s) : ∀ u, execTagof c s = .next u → Kept vr qu u := by
  unfold execTagof
  apply legal_act
  with_reducible apply ketchOp_legal
  with_reducible assumption

theorem execLd_legal {c : ℕ} {s : State} (hs : Kept vr qu s) : ∀ u, execLd c s = .next u → Kept vr qu u := by
  unfold execLd
  apply legal_act
  with_reducible apply ketchOp_legal
  with_reducible assumption

theorem execSt_legal {c : ℕ} {s : State} (hs : Kept vr qu s) : ∀ u, execSt c s = .next u → Kept vr qu u := by
  unfold execSt
  apply legal_act
  with_reducible apply ketchOp_legal
  with_reducible assumption

theorem execLdraw_legal {c : ℕ} {s : State} (hs : Kept vr qu s) : ∀ u, execLdraw c s = .next u → Kept vr qu u := by
  unfold execLdraw
  apply legal_act
  with_reducible apply ketchOp_legal
  with_reducible assumption

theorem execStraw_legal {c : ℕ} {s : State} (hs : Kept vr qu s) : ∀ u, execStraw c s = .next u → Kept vr qu u := by
  unfold execStraw
  apply legal_act
  with_reducible apply ketchOp_legal
  with_reducible assumption

theorem execFrame_legal {c : ℕ} {s : State} (hs : Kept vr qu s) : ∀ u, execFrame c s = .next u → Kept vr qu u := by
  unfold execFrame
  apply legal_act
  with_reducible apply ketchOp_legal
  with_reducible assumption

theorem execKetchBz_legal {c : ℕ} {s : State} (hs : Kept vr qu s) : ∀ u, execKetchBz c s = .next u → Kept vr qu u := by
  unfold execKetchBz
  apply legal_act
  with_reducible apply ketchOp_legal
  with_reducible assumption

theorem execKetchBnz_legal {c : ℕ} {s : State} (hs : Kept vr qu s) : ∀ u, execKetchBnz c s = .next u → Kept vr qu u := by
  unfold execKetchBnz
  apply legal_act
  with_reducible apply ketchOp_legal
  with_reducible assumption

theorem execKetchB_legal {c : ℕ} {s : State} (hs : Kept vr qu s) : ∀ u, execKetchB c s = .next u → Kept vr qu u := by
  unfold execKetchB
  apply legal_act
  with_reducible apply ketchOp_legal
  with_reducible assumption

theorem execJmp_legal {c : ℕ} {s : State} (hs : Kept vr qu s) : ∀ u, execJmp c s = .next u → Kept vr qu u := by
  unfold execJmp
  apply legal_act
  with_reducible apply ketchOp_legal
  with_reducible assumption

theorem execKetchCall_legal {c : ℕ} {s : State} (hs : Kept vr qu s) : ∀ u, execKetchCall c s = .next u → Kept vr qu u := by
  unfold execKetchCall
  apply legal_act
  with_reducible apply ketchOp_legal
  with_reducible assumption

theorem execKetchCallr_legal {c : ℕ} {s : State} (hs : Kept vr qu s) : ∀ u, execKetchCallr c s = .next u → Kept vr qu u := by
  unfold execKetchCallr
  apply legal_act
  with_reducible apply ketchOp_legal
  with_reducible assumption

theorem execKetchRet_legal {c : ℕ} {s : State} (hs : Kept vr qu s) : ∀ u, execKetchRet c s = .next u → Kept vr qu u := by
  unfold execKetchRet
  apply legal_act
  with_reducible apply ketchOp_legal
  with_reducible assumption

theorem execKcall_legal {c : ℕ} {s : State} (hs : Kept vr qu s) : ∀ u, execKcall c s = .next u → Kept vr qu u := by
  unfold execKcall
  apply legal_act
  with_reducible apply ketchOp_legal
  with_reducible assumption

theorem execKret_legal {c : ℕ} {s : State} (hs : Kept vr qu s) : ∀ u, execKret c s = .next u → Kept vr qu u := by
  unfold execKret
  apply legal_act
  with_reducible apply ketchOp_legal
  with_reducible assumption

theorem execKsys_legal {c : ℕ} {s : State} (hs : Kept vr qu s) : ∀ u, execKsys c s = .next u → Kept vr qu u := by
  unfold execKsys
  apply legal_act
  with_reducible apply ketchOp_legal
  with_reducible assumption

theorem execKbrk_legal {c : ℕ} {s : State} (hs : Kept vr qu s) : ∀ u, execKbrk c s = .next u → Kept vr qu u := by
  unfold execKbrk
  apply legal_act
  with_reducible apply ketchOp_legal
  with_reducible assumption

theorem execKeret_legal {c : ℕ} {s : State} (hs : Kept vr qu s) : ∀ u, execKeret c s = .next u → Kept vr qu u := by
  unfold execKeret
  apply legal_act
  with_reducible apply ketchOp_legal
  with_reducible assumption

end Sys2Proof.Machine
end

