-- ==== Sys2Proof/Laws/Memory.lean ====
section
/-! SUPPORT. An access of a bank, a report and a reconstruction change memory, its reports and its registers alone: what they leave
of the state. -/
namespace Sys2Proof.Machine

/-- What the memories leave alone: everything but themselves and the system registers. -/
def SameOutside (s t : State) : Prop := t = { s with mem := t.mem, regs := t.regs }
theorem SameOutside.refl (s : State) : SameOutside s s := rfl
theorem SameOutside.trans {s t u : State} (h : SameOutside s t) (g : SameOutside t u) : SameOutside s u := by
  unfold SameOutside at *
  rw [g, h]
theorem SameOutside.mem {s t : State} (h : SameOutside s t) (m : Mem) : SameOutside s { t with mem := m } := by
  unfold SameOutside at *
  rw [h]
theorem SameOutside.coaches {s t : State} (h : SameOutside s t) : t.coaches = s.coaches := by
  unfold SameOutside at h
  rw [h]
theorem SameOutside.co {s t : State} (h : SameOutside s t) (c : Nat) : co t c = co s c := by
  unfold Machine.co; rw [h.coaches]
theorem SameOutside.foldl {α : Type} (f : State → α → State) (h : ∀ s a, SameOutside s (f s a)) (l : List α) (s : State) :
    SameOutside s (l.foldl f s) := by
  induction l generalizing s with
  | nil => exact .refl s
  | cons a r ih => exact (h s a).trans (ih (f s a))
variable {s : State}
theorem sameOutside_setReg (a : Nat) (v : W32) : SameOutside s (setReg s a v) := rfl
theorem sameOutside_setRegF (a lo w v : Nat) : SameOutside s (setRegF s a lo w v) := rfl
theorem sameOutside_setRegB (a i : Nat) (b : Bool) : SameOutside s (setRegB s a i b) := rfl
theorem sameOutside_errQueue (r : ErrRec) : SameOutside s (errQueue s r) := by
  unfold errQueue; split
  · exact (SameOutside.refl s).mem _
  · exact sameOutside_setRegF _ _ _ _
theorem sameOutside_errReport (cls kind inst master detail addr : Nat) : SameOutside s (errReport s cls kind inst master detail addr) := by
  unfold errReport; exact ((SameOutside.refl s).mem _).trans (sameOutside_errQueue _)
theorem sameOutside_lineReport (cls lk master detail : Nat) : SameOutside s (lineReport s cls lk master detail) := sameOutside_errReport _ _ _ _ _ _
theorem sameOutside_setParity (pk p : Nat) : SameOutside s (setParity s pk p) := (SameOutside.refl s).mem _
theorem sameOutside_addParity (pk d : Nat) : SameOutside s (addParity s pk d) := (SameOutside.refl s).mem _
theorem sameOutside_rewriteLine (lk new : Nat) (p : Bool) : SameOutside s (rewriteLine s lk new p) := by
  unfold rewriteLine; dsimp only; split
  · exact ((SameOutside.refl s).mem _).trans (sameOutside_setRegB _ _ _)
  · exact (SameOutside.refl s).mem _
theorem sameOutside_setMerge (po : Nat) (l : List MergeEntry) : SameOutside s (setMerge s po l) := (SameOutside.refl s).mem _
theorem sameOutside_mergeDrop (po lk : Nat) : SameOutside s (mergeDrop s po lk) := sameOutside_setMerge _ _
theorem sameOutside_corrCount (ik lk : Nat) : SameOutside s (corrCount s ik lk) := by
  unfold corrCount; dsimp only; split
  · exact (SameOutside.refl s).mem _
  · split
    · exact (SameOutside.refl s).mem _
    · exact ((SameOutside.refl s).mem _).trans (sameOutside_setRegB _ _ _)
theorem sameOutside_corrected (lk master syn : Nat) (b : Bool) : SameOutside s (corrected s lk master syn b) := by
  unfold corrected; dsimp only; split
  · exact ((sameOutside_lineReport _ _ _ _).trans (sameOutside_corrCount _ _)).mem _
  · exact (sameOutside_lineReport _ _ _ _).trans (sameOutside_corrCount _ _)
theorem sameOutside_parCorrected (pk q master syn : Nat) : SameOutside s (parCorrected s pk q master syn) :=
  (sameOutside_lineReport _ _ _ _).trans (sameOutside_corrCount _ _)
theorem sameOutside_correctPars (pk master : Nat) (ps : List LineRead) : SameOutside s (correctPars s pk master ps) := by
  unfold correctPars
  refine SameOutside.foldl _ (fun t q => ?_) _ s
  split
  · split
    · exact sameOutside_parCorrected _ _ _ _
    · exact .refl _
  · exact .refl _
theorem sameOutside_correctSingles (pk master : Nat) : SameOutside s (correctSingles s pk master) := by
  unfold correctSingles
  refine (SameOutside.foldl _ (fun t n => ?_) _ s).trans (sameOutside_correctPars _ _ _)
  dsimp only; split
  · exact sameOutside_corrected _ _ _ _
  · exact .refl _
theorem sameOutside_putLine (lk old new : Nat) (p : Bool) : SameOutside s (putLine s lk old new p) := by
  unfold putLine; dsimp only; split
  · exact sameOutside_rewriteLine _ _ _
  · exact (sameOutside_rewriteLine _ _ _).trans (sameOutside_addParity _ _)
theorem sameOutside_putDecoded (pk : Nat) (cs : List (List Nat)) (ls : List LineRead) (ch : List Nat) : SameOutside s (putDecoded s pk cs ls ch) :=
  SameOutside.foldl _ (fun _ _ => sameOutside_rewriteLine _ _ _) ch s
theorem sameOutside_poisonLine (pk n : Nat) (l : LineRead) : SameOutside s (poisonLine s pk n l) := by
  unfold poisonLine; split
  · exact sameOutside_rewriteLine _ _ _
  · split
    · exact sameOutside_rewriteLine _ _ _
    · exact .refl _
theorem sameOutside_poisonLost (pk : Nat) (ls : List LineRead) : SameOutside s (poisonLost s pk ls) := by
  refine SameOutside.foldl _ (fun t n => ?_) _ s
  split
  · exact sameOutside_poisonLine _ _ _
  · exact .refl _
theorem SameOutside.ite {c : Prop} [Decidable c] {a b : State × Bool} (ha : SameOutside s a.1) (hb : SameOutside s b.1) :
    SameOutside s (if c then a else b).1 := by
  split
  · exact ha
  · exact hb
theorem sameOutside_reconPage (pk master : Nat) : SameOutside s (reconPage s pk master).1 := by
  unfold reconPage
  extract_lets u dec ls
  have h : SameOutside s u := sameOutside_correctSingles pk master
  clear_value u dec ls
  with_reducible refine SameOutside.ite ?_ ?_
  · exact ((h.trans (sameOutside_putDecoded _ _ _ _)).trans (sameOutside_setParity _ _)).trans (sameOutside_lineReport _ _ _ _)
  · exact ((h.trans (sameOutside_poisonLost _ _)).trans (sameOutside_setParity _ _)).trans
      (SameOutside.foldl _ (fun _ _ => sameOutside_lineReport _ _ _ _) _ _)
theorem sameOutside_writeOutEntry (po : Nat) (e : MergeEntry) (master : Nat) : SameOutside s (writeOutEntry s po e master) := by
  unfold writeOutEntry; dsimp only
  have h1 : SameOutside s (if (lineGet (mergeDrop s po e.line) e.line).st = 3 then reconPage (mergeDrop s po e.line) (e.line / 64) master
      else (mergeDrop s po e.line, true)).1 := by
    split
    · exact (sameOutside_mergeDrop _ _).trans (sameOutside_reconPage _ _)
    · exact sameOutside_mergeDrop _ _
  generalize (if (lineGet (mergeDrop s po e.line) e.line).st = 3 then reconPage (mergeDrop s po e.line) (e.line / 64) master
      else (mergeDrop s po e.line, true)) = x at h1 ⊢
  refine SameOutside.trans ?_ (sameOutside_putLine _ _ _ _)
  split <;> split <;> first
    | exact (h1.trans (sameOutside_corrected _ _ _ _)).trans (sameOutside_lineReport _ _ _ _)
    | exact h1.trans (sameOutside_lineReport _ _ _ _)
    | exact h1.trans (sameOutside_corrected _ _ _ _)
    | exact h1
theorem sameOutside_narrowWrite (po lk i n data master : Nat) : SameOutside s (narrowWrite s po lk i n data master) := by
  unfold narrowWrite; dsimp only; split
  · exact ((SameOutside.refl s).mem _).trans (sameOutside_setMerge _ _)
  · refine SameOutside.trans ?_ (sameOutside_setMerge _ _)
    split
    · exact (SameOutside.refl s).mem _
    · split
      · exact ((SameOutside.refl s).mem _).trans (sameOutside_writeOutEntry _ _ _)
      · exact (SameOutside.refl s).mem _
theorem sameOutside_readLine (lk need master : Nat) : SameOutside s (readLine s lk need master).st := by
  unfold readLine; dsimp only
  repeat' split
  all_goals first | exact .refl _ | exact sameOutside_lineReport _ _ _ _ | exact sameOutside_corrected _ _ _ _
/-- An entry of the written line is dropped and a correctable line is corrected before the write. -/
theorem sameOutside_beforeWrite (lk master : Nat) :
    SameOutside s (if (lineGet s lk).st = 1 then
      corrected (match mergeFind s lk with | some (po, _) => mergeDrop s po lk | none => s) lk master (lineGet s lk).syn false
      else (match mergeFind s lk with | some (po, _) => mergeDrop s po lk | none => s)) := by
  have h : SameOutside s (match mergeFind s lk with | some (po, _) => mergeDrop s po lk | none => s) := by
    split
    · exact sameOutside_mergeDrop _ _
    · exact .refl _
  generalize (match mergeFind s lk with | some (po, _) => mergeDrop s po lk | none => s) = u at h ⊢
  split
  · exact h.trans (sameOutside_corrected _ _ _ _)
  · exact h
theorem sameOutside_writeLine (lk new master : Nat) : SameOutside s (writeLine s lk new master).st := by
  have h : SameOutside s (mergeClear s lk) := (sameOutside_mergeDrop _ _).trans (sameOutside_mergeDrop _ _)
  unfold writeLine; dsimp only; split
  · exact .refl _
  · refine SameOutside.trans ?_ (sameOutside_putLine _ _ _ _)
    split
    · exact h.trans (sameOutside_corrected _ _ _ _)
    · exact h
theorem sameOutside_atomLine (lk i n : Nat) (b : Bool) (opnd master : Nat) : SameOutside s (atomLine s lk i n b opnd master).st := by
  have h := sameOutside_beforeWrite (s := s) lk master
  unfold atomLine
  cases hm : mergeFind s lk with
  | none =>
    rw [hm] at h
    dsimp only at h ⊢
    split
    · exact .refl _
    · split
      · exact sameOutside_lineReport _ _ _ _
      · split
        · exact .refl _
        · exact h.trans (sameOutside_putLine _ _ _ _)
  | some q =>
    rw [hm] at h
    dsimp only at h ⊢
    split
    · exact .refl _
    · split
      · exact (sameOutside_writeOutEntry _ _ _).trans (sameOutside_lineReport _ _ _ _)
      · split
        · exact sameOutside_writeOutEntry _ _ _
        · exact h.trans (sameOutside_putLine _ _ _ _)
/-- An access of a bank changes nothing but the memories and the system registers. -/
theorem sameOutside_bankAccess (po : Nat) (k : AccKind) (wk n data master : Nat) : SameOutside s (bankAccess s po k wk n data master).st := by
  unfold bankAccess; cases k
  · dsimp only; split
    · split
      · exact sameOutside_readLine _ _ _
      · split
        · exact (sameOutside_readLine _ _ _).trans (sameOutside_readLine _ _ _)
        · exact (sameOutside_readLine _ _ _).trans (sameOutside_readLine _ _ _)
    · split
      · exact sameOutside_readLine _ _ _
      · exact sameOutside_readLine _ _ _
  · dsimp only; split
    · split
      · exact .refl _
      · split
        · exact sameOutside_writeLine _ _ _
        · exact (sameOutside_writeLine _ _ _).trans (sameOutside_writeLine _ _ _)
    · split
      · exact sameOutside_writeLine _ _ _
      · exact sameOutside_narrowWrite _ _ _ _ _ _
  · exact sameOutside_atomLine _ _ _ _ _ _
  · exact sameOutside_atomLine _ _ _ _ _ _
theorem SameOutside.iteOut {c : Prop} [Decidable c] {a b : BankOut} (ha : SameOutside s a.st) (hb : SameOutside s b.st) :
    SameOutside s (if c then a else b).st := by
  split
  · exact ha
  · exact hb
theorem sameOutside_afterRecon {k : AccKind} {again : State → BankOut} {r : State × Bool} (h : SameOutside s r.1)
    (g : ∀ t, SameOutside s t → SameOutside s (again t).st) : SameOutside s (afterRecon k again r).st := by
  unfold afterRecon
  with_reducible exact .iteOut h (g _ h)
theorem sameOutside_nowStep {k : AccKind} {master : Nat} {again : State → BankOut} {a : BankOut} (h : SameOutside s a.st)
    (g : ∀ t, SameOutside s t → SameOutside s (again t).st) : SameOutside s (nowStep k master again a).st := by
  unfold nowStep
  with_reducible exact .iteOut h (sameOutside_afterRecon (h.trans (sameOutside_reconPage _ _)) g)
theorem sameOutside_bankAccessNow (po : Nat) (k : AccKind) (wk n data master : Nat) : SameOutside s (bankAccessNow s po k wk n data master).st := by
  unfold bankAccessNow
  exact sameOutside_nowStep (sameOutside_bankAccess _ _ _ _ _ _) (fun t ht =>
    sameOutside_nowStep (ht.trans (sameOutside_bankAccess _ _ _ _ _ _)) (fun u hu => hu.trans (sameOutside_bankAccess po k wk n data master)))

end Sys2Proof.Machine
end

