-- ==== Sys2Proof/Laws/PerInstr.lean ====
section
/-! SUPPORT. One law per command: no word spells it, for the command table gives its rows no bits. -/
namespace Sys2Proof.Laws

/-- The command has no encoding: no word decodes to it. -/
def NoWord.Statement (i : Instr) : Prop := ∀ nbits w : Nat, decodeTableWord nbits w ≠ some i
/-- No word decodes to any command. -/
theorem no_word (i : Instr) : NoWord.Statement i := by intro n w h; cases h

theorem NoWord.bundleIssue (c : Nat) : NoWord.Statement (.bundleIssue c) := no_word _
theorem NoWord.fetchDecode (c : Nat) : NoWord.Statement (.fetchDecode c) := no_word _
theorem NoWord.resultLands (c : Nat) : NoWord.Statement (.resultLands c) := no_word _
theorem NoWord.accessAccepted (c : Nat) (extra : Nat) : NoWord.Statement (.accessAccepted c extra) := no_word _
theorem NoWord.blkElement (c : Nat) : NoWord.Statement (.blkElement c) := no_word _
theorem NoWord.vfirbGroup (c : Nat) : NoWord.Statement (.vfirbGroup c) := no_word _
theorem NoWord.ketchModeSwitch (c : Nat) : NoWord.Statement (.ketchModeSwitch c) := no_word _
theorem NoWord.ketchNop (c : Nat) : NoWord.Statement (.ketchNop c) := no_word _
theorem NoWord.move (c : Nat) : NoWord.Statement (.move c) := no_word _
theorem NoWord.ldi (c : Nat) : NoWord.Statement (.ldi c) := no_word _
theorem NoWord.ldhi (c : Nat) : NoWord.Statement (.ldhi c) := no_word _
theorem NoWord.ketchAdd (c : Nat) : NoWord.Statement (.ketchAdd c) := no_word _
theorem NoWord.ketchSub (c : Nat) : NoWord.Statement (.ketchSub c) := no_word _
theorem NoWord.ketchMul (c : Nat) : NoWord.Statement (.ketchMul c) := no_word _
theorem NoWord.ketchAddi (c : Nat) : NoWord.Statement (.ketchAddi c) := no_word _
theorem NoWord.ketchAnd (c : Nat) : NoWord.Statement (.ketchAnd c) := no_word _
theorem NoWord.ketchOr (c : Nat) : NoWord.Statement (.ketchOr c) := no_word _
theorem NoWord.ketchXor (c : Nat) : NoWord.Statement (.ketchXor c) := no_word _
theorem NoWord.ketchShl (c : Nat) : NoWord.Statement (.ketchShl c) := no_word _
theorem NoWord.ketchShr (c : Nat) : NoWord.Statement (.ketchShr c) := no_word _
theorem NoWord.ketchSar (c : Nat) : NoWord.Statement (.ketchSar c) := no_word _
theorem NoWord.ketchSeq (c : Nat) : NoWord.Statement (.ketchSeq c) := no_word _
theorem NoWord.ketchSlt (c : Nat) : NoWord.Statement (.ketchSlt c) := no_word _
theorem NoWord.cvt (c : Nat) : NoWord.Statement (.cvt c) := no_word _
theorem NoWord.mktag (c : Nat) : NoWord.Statement (.mktag c) := no_word _
theorem NoWord.tagof (c : Nat) : NoWord.Statement (.tagof c) := no_word _
theorem NoWord.ld (c : Nat) : NoWord.Statement (.ld c) := no_word _
theorem NoWord.st (c : Nat) : NoWord.Statement (.st c) := no_word _
theorem NoWord.ldraw (c : Nat) : NoWord.Statement (.ldraw c) := no_word _
theorem NoWord.straw (c : Nat) : NoWord.Statement (.straw c) := no_word _
theorem NoWord.frame (c : Nat) : NoWord.Statement (.frame c) := no_word _
theorem NoWord.ketchBz (c : Nat) : NoWord.Statement (.ketchBz c) := no_word _
theorem NoWord.ketchBnz (c : Nat) : NoWord.Statement (.ketchBnz c) := no_word _
theorem NoWord.ketchB (c : Nat) : NoWord.Statement (.ketchB c) := no_word _
theorem NoWord.jmp (c : Nat) : NoWord.Statement (.jmp c) := no_word _
theorem NoWord.ketchCall (c : Nat) : NoWord.Statement (.ketchCall c) := no_word _
theorem NoWord.ketchCallr (c : Nat) : NoWord.Statement (.ketchCallr c) := no_word _
theorem NoWord.ketchRet (c : Nat) : NoWord.Statement (.ketchRet c) := no_word _
theorem NoWord.kcall (c : Nat) : NoWord.Statement (.kcall c) := no_word _
theorem NoWord.kret (c : Nat) : NoWord.Statement (.kret c) := no_word _
theorem NoWord.ksys (c : Nat) : NoWord.Statement (.ksys c) := no_word _
theorem NoWord.kbrk (c : Nat) : NoWord.Statement (.kbrk c) := no_word _
theorem NoWord.keret (c : Nat) : NoWord.Statement (.keret c) := no_word _
theorem NoWord.eventTaken (c : Nat) : NoWord.Statement (.eventTaken c) := no_word _
theorem NoWord.holdOverrun (c : Nat) : NoWord.Statement (.holdOverrun c) := no_word _
theorem NoWord.subnormalTrap (c : Nat) : NoWord.Statement (.subnormalTrap c) := no_word _
theorem NoWord.exceptionEntry (c : Nat) : NoWord.Statement (.exceptionEntry c) := no_word _
theorem NoWord.coachStart (c : Nat) : NoWord.Statement (.coachStart c) := no_word _
theorem NoWord.holdMaxRead (c : Nat) : NoWord.Statement (.holdMaxRead c) := no_word _
theorem NoWord.handoverWait (c : Nat) : NoWord.Statement (.handoverWait c) := no_word _
theorem NoWord.waitHeartbeat (c : Nat) : NoWord.Statement (.waitHeartbeat c) := no_word _
theorem NoWord.jobEnd (c : Nat) : NoWord.Statement (.jobEnd c) := no_word _
theorem NoWord.jobStart (c : Nat) : NoWord.Statement (.jobStart c) := no_word _
theorem NoWord.heartbeatStore (c : Nat) : NoWord.Statement (.heartbeatStore c) := no_word _
theorem NoWord.timeRelease (cart : Nat) : NoWord.Statement (.timeRelease cart) := no_word _
theorem NoWord.heldRelease (cart : Nat) : NoWord.Statement (.heldRelease cart) := no_word _
theorem NoWord.graphRelease (cart : Nat) : NoWord.Statement (.graphRelease cart) := no_word _
theorem NoWord.jobWithdrawn (cart : Nat) : NoWord.Statement (.jobWithdrawn cart) := no_word _
theorem NoWord.budgetOverrun (c : Nat) : NoWord.Statement (.budgetOverrun c) := no_word _
theorem NoWord.graceExpired (c : Nat) : NoWord.Statement (.graceExpired c) := no_word _
theorem NoWord.hitchSearch (n : Nat) : NoWord.Statement (.hitchSearch n) := no_word _
theorem NoWord.crossClusterSearch (n : Nat) : NoWord.Statement (.crossClusterSearch n) := no_word _
theorem NoWord.heartbeatSample : NoWord.Statement (.heartbeatSample) := no_word _
theorem NoWord.failover (n : Nat) (offReported spareOk : Bool) (outageUs : Nat) : NoWord.Statement (.failover n offReported spareOk outageUs) := no_word _
theorem NoWord.recommission (pass : Bool) : NoWord.Statement (.recommission pass) := no_word _
theorem NoWord.admitTable : NoWord.Statement (.admitTable) := no_word _
theorem NoWord.admitRunEntry : NoWord.Statement (.admitRunEntry) := no_word _
theorem NoWord.withdraw : NoWord.Statement (.withdraw) := no_word _
theorem NoWord.sourceEvent (n : Nat) (signal : Bool) : NoWord.Statement (.sourceEvent n signal) := no_word _
theorem NoWord.gatherTimeout (n : Nat) : NoWord.Statement (.gatherTimeout n) := no_word _
theorem NoWord.icSwset (m : Nat) (v : W32) : NoWord.Statement (.icSwset m v) := no_word _
theorem NoWord.icComp (m : Nat) (v : W32) : NoWord.Statement (.icComp m v) := no_word _
theorem NoWord.sourceDisable (m n : Nat) (v : W32) : NoWord.Statement (.sourceDisable m n v) := no_word _
theorem NoWord.claimUnit (m addr : Nat) : NoWord.Statement (.claimUnit m addr) := no_word _
theorem NoWord.releaseClaim (m addr : Nat) : NoWord.Statement (.releaseClaim m addr) := no_word _
theorem NoWord.counterTick (k : Nat) : NoWord.Statement (.counterTick k) := no_word _
theorem NoWord.counterWrap (k : Nat) : NoWord.Statement (.counterWrap k) := no_word _
theorem NoWord.matchEvent (k : Nat) : NoWord.Statement (.matchEvent k) := no_word _
theorem NoWord.freezeStop (m : Nat) : NoWord.Statement (.freezeStop m) := no_word _
theorem NoWord.freezeStart (m : Nat) : NoWord.Statement (.freezeStart m) := no_word _
theorem NoWord.tmCntStore (m k : Nat) (v : W32) : NoWord.Statement (.tmCntStore m k v) := no_word _
theorem NoWord.tmCntLoad (m k : Nat) : NoWord.Statement (.tmCntLoad m k) := no_word _
theorem NoWord.tmCmpStore (m k : Nat) (v : W32) : NoWord.Statement (.tmCmpStore m k v) := no_word _
theorem NoWord.menEnable (m k : Nat) : NoWord.Statement (.menEnable m k) := no_word _
theorem NoWord.bankArbitration (p : PortId) : NoWord.Statement (.bankArbitration p) := no_word _
theorem NoWord.writeOut (p : PortId) : NoWord.Statement (.writeOut p) := no_word _
theorem NoWord.correctionWriteBack (kind inst bank : Nat) : NoWord.Statement (.correctionWriteBack kind inst bank) := no_word _
theorem NoWord.pageReconstruction (kind inst bank : Nat) : NoWord.Statement (.pageReconstruction kind inst bank) := no_word _
theorem NoWord.remap (kind inst line : Nat) : NoWord.Statement (.remap kind inst line) := no_word _
theorem NoWord.scrubPageStart (kind inst : Nat) : NoWord.Statement (.scrubPageStart kind inst) := no_word _
theorem NoWord.scrubRead (kind inst : Nat) : NoWord.Statement (.scrubRead kind inst) := no_word _
theorem NoWord.marchStart : NoWord.Statement (.marchStart) := no_word _
theorem NoWord.marchRow (failOp : Nat) : NoWord.Statement (.marchRow failOp) := no_word _
theorem NoWord.marchComplete (failing : List (Nat × Nat)) : NoWord.Statement (.marchComplete failing) := no_word _
theorem NoWord.fuseProgram : NoWord.Statement .fuseProgram := no_word _
theorem NoWord.fuseEntryDone (readbackOk : Bool) : NoWord.Statement (.fuseEntryDone readbackOk) := no_word _
theorem NoWord.vppRemoved : NoWord.Statement (.vppRemoved) := no_word _
theorem NoWord.injectionArm (m : Nat) (v : W32) : NoWord.Statement (.injectionArm m v) := no_word _
theorem NoWord.logWrite : NoWord.Statement (.logWrite) := no_word _
theorem NoWord.tailStore (m : Nat) (v : W32) : NoWord.Statement (.tailStore m v) := no_word _
theorem NoWord.loadPortWrite (m : Nat) (v : W32) : NoWord.Statement (.loadPortWrite m v) := no_word _
theorem NoWord.loadPortRead (m : Nat) (v : W32) : NoWord.Statement (.loadPortRead m v) := no_word _
theorem NoWord.loadPortDone : NoWord.Statement (.loadPortDone) := no_word _
theorem NoWord.regionWrite (m : Nat) (sup : Bool) (addr : Nat) (v : W32) : NoWord.Statement (.regionWrite m sup addr v) := no_word _
theorem NoWord.dramPark : NoWord.Statement (.dramPark) := no_word _
theorem NoWord.parkComplete : NoWord.Statement (.parkComplete) := no_word _
theorem NoWord.dramUnpark : NoWord.Statement (.dramUnpark) := no_word _
theorem NoWord.sampleEdge (k : Nat) : NoWord.Statement (.sampleEdge k) := no_word _
theorem NoWord.mediaClockEnable (m k : Nat) (v : W32) : NoWord.Statement (.mediaClockEnable m k v) := no_word _
theorem NoWord.mediaClockDisable (m k : Nat) (v : W32) : NoWord.Statement (.mediaClockDisable m k v) := no_word _
theorem NoWord.referenceLost (k : Nat) : NoWord.Statement (.referenceLost k) := no_word _
theorem NoWord.referenceReturn (k : Nat) : NoWord.Statement (.referenceReturn k) := no_word _
theorem NoWord.lockAchieved (k : Nat) : NoWord.Statement (.lockAchieved k) := no_word _
theorem NoWord.countLatchRead (m addr : Nat) : NoWord.Statement (.countLatchRead m addr) := no_word _
theorem NoWord.frameSync (p : Nat) (far : Bool) (count : Nat) : NoWord.Statement (.frameSync p far count) := no_word _
theorem NoWord.frameCaptured (p : Nat) (samples : List W32) : NoWord.Statement (.frameCaptured p samples) := no_word _
theorem NoWord.noclk (p : Nat) : NoWord.Statement (.noclk p) := no_word _
theorem NoWord.bclkReturn (p : Nat) : NoWord.Statement (.bclkReturn p) := no_word _
theorem NoWord.portEnable (m p : Nat) (v : W32) : NoWord.Statement (.portEnable m p v) := no_word _
theorem NoWord.portDisable (m p : Nat) (v : W32) : NoWord.Statement (.portDisable m p v) := no_word _
theorem NoWord.formatStore (m p : Nat) (v : W32) : NoWord.Statement (.formatStore m p v) := no_word _
theorem NoWord.pdmControlStore (m i : Nat) (v : W32) : NoWord.Statement (.pdmControlStore m i v) := no_word _
theorem NoWord.wagonEnable (m n w : Nat) (v : W32) : NoWord.Statement (.wagonEnable m n w v) := no_word _
theorem NoWord.wagonDisable (m n w : Nat) (v : W32) : NoWord.Statement (.wagonDisable m n w v) := no_word _
theorem NoWord.blockReady (n w : Nat) : NoWord.Statement (.blockReady n w) := no_word _
theorem NoWord.lineMove (n : Nat) : NoWord.Statement (.lineMove n) := no_word _
theorem NoWord.concealment (n w : Nat) : NoWord.Statement (.concealment n w) := no_word _
theorem NoWord.asrcStreamEnable (m n t : Nat) (v : W32) : NoWord.Statement (.asrcStreamEnable m n t v) := no_word _
theorem NoWord.asrcStreamDisable (m n t : Nat) (v : W32) : NoWord.Statement (.asrcStreamDisable m n t v) := no_word _
theorem NoWord.asrcDelayStore (m n t : Nat) (v : W32) : NoWord.Statement (.asrcDelayStore m n t v) := no_word _
theorem NoWord.asrcOutputBlock (n t : Nat) : NoWord.Statement (.asrcOutputBlock n t) := no_word _
theorem NoWord.asrcLock (n t : Nat) (ratio : W32) : NoWord.Statement (.asrcLock n t ratio) := no_word _
theorem NoWord.asrcUnlock (n t : Nat) : NoWord.Statement (.asrcUnlock n t) := no_word _
theorem NoWord.expressInputPair : NoWord.Statement (.expressInputPair) := no_word _
theorem NoWord.expressOutput : NoWord.Statement (.expressOutput) := no_word _
theorem NoWord.frameReceive (e : Nat) (f : EthFrame) : NoWord.Statement (.frameReceive e f) := no_word _
theorem NoWord.syncReceiptTimeout (d : Nat) : NoWord.Statement (.syncReceiptTimeout d) := no_word _
theorem NoWord.syncTransmit (d : Nat) : NoWord.Statement (.syncTransmit d) := no_word _
theorem NoWord.pdelayRequest (d : Nat) : NoWord.Statement (.pdelayRequest d) := no_word _
theorem NoWord.listenerLost (x : Nat) : NoWord.Statement (.listenerLost x) := no_word _
theorem NoWord.talkerLaunch (x : Nat) : NoWord.Statement (.talkerLaunch x) := no_word _
theorem NoWord.frameTransmit (e : Nat) : NoWord.Statement (.frameTransmit e) := no_word _
theorem NoWord.gateIntervalEnd (e : Nat) : NoWord.Statement (.gateIntervalEnd e) := no_word _
theorem NoWord.gateChangeRequest (m e : Nat) (v : W32) : NoWord.Statement (.gateChangeRequest m e v) := no_word _
theorem NoWord.gateListChange (e : Nat) : NoWord.Statement (.gateListChange e) := no_word _
theorem NoWord.contextEnable (m e : Nat) (v : W32) : NoWord.Statement (.contextEnable m e v) := no_word _
theorem NoWord.contextDisable (m e : Nat) (v : W32) : NoWord.Statement (.contextDisable m e v) := no_word _
theorem NoWord.rebind (m e : Nat) (v : W32) : NoWord.Statement (.rebind m e v) := no_word _
theorem NoWord.linkDown (e : Nat) : NoWord.Statement (.linkDown e) := no_word _
theorem NoWord.linkUp (e : Nat) : NoWord.Statement (.linkUp e) := no_word _
theorem NoWord.mdioCommand (result : Word) : NoWord.Statement (.mdioCommand result) := no_word _
theorem NoWord.requestArrival (a : Arrival) (bytes : List Byte) : NoWord.Statement (.requestArrival a bytes) := no_word _
theorem NoWord.spiRead : NoWord.Statement (.spiRead) := no_word _
theorem NoWord.read : NoWord.Statement (.read) := no_word _
theorem NoWord.write : NoWord.Statement (.write) := no_word _
theorem NoWord.status : NoWord.Statement (.status) := no_word _
theorem NoWord.claim : NoWord.Statement (.claim) := no_word _
theorem NoWord.heartbeat : NoWord.Statement (.heartbeat) := no_word _
theorem NoWord.handover : NoWord.Statement (.handover) := no_word _
theorem NoWord.release : NoWord.Statement (.release) := no_word _
theorem NoWord.electionEnd : NoWord.Statement (.electionEnd) := no_word _
theorem NoWord.ownerLapse : NoWord.Statement (.ownerLapse) := no_word _
theorem NoWord.sessionClose (t : Transport) : NoWord.Statement (.sessionClose t) := no_word _
theorem NoWord.transferTimeout (t : Transport) : NoWord.Statement (.transferTimeout t) := no_word _
theorem NoWord.svcClaim : NoWord.Statement (.svcClaim) := no_word _
theorem NoWord.svcProve : NoWord.Statement (.svcProve) := no_word _
theorem NoWord.challengeExpiry : NoWord.Statement (.challengeExpiry) := no_word _
theorem NoWord.svcEnd : NoWord.Statement (.svcEnd) := no_word _
theorem NoWord.serviceLapse : NoWord.Statement (.serviceLapse) := no_word _
theorem NoWord.serviceEnDeassert : NoWord.Statement (.serviceEnDeassert) := no_word _
theorem NoWord.safeCommand : NoWord.Statement (.safeCommand) := no_word _
theorem NoWord.configCommand : NoWord.Statement (.configCommand) := no_word _
theorem NoWord.resourceClaim : NoWord.Statement (.resourceClaim) := no_word _
theorem NoWord.resourceRelease : NoWord.Statement (.resourceRelease) := no_word _
theorem NoWord.clearReportCounts : NoWord.Statement (.clearReportCounts) := no_word _
theorem NoWord.commSettingsApply : NoWord.Statement (.commSettingsApply) := no_word _
theorem NoWord.rwpPersist (ok : Bool) : NoWord.Statement (.rwpPersist ok) := no_word _
theorem NoWord.ringWrite : NoWord.Statement (.ringWrite) := no_word _
theorem NoWord.bbInCommit (m : Nat) (v : W32) : NoWord.Statement (.bbInCommit m v) := no_word _
theorem NoWord.manualTrigger : NoWord.Statement (.manualTrigger) := no_word _
theorem NoWord.rearm : NoWord.Statement (.rearm) := no_word _
theorem NoWord.ownerNote : NoWord.Statement (.ownerNote) := no_word _
theorem NoWord.copySlotErase : NoWord.Statement (.copySlotErase) := no_word _
theorem NoWord.lostPeriodSummary : NoWord.Statement (.lostPeriodSummary) := no_word _
theorem NoWord.pfailAssert : NoWord.Statement (.pfailAssert) := no_word _
theorem NoWord.pfailRelease : NoWord.Statement (.pfailRelease) := no_word _
theorem NoWord.dipEnd : NoWord.Statement (.dipEnd) := no_word _
theorem NoWord.powerOnReset : NoWord.Statement (.powerOnReset) := no_word _
theorem NoWord.resetNAssert : NoWord.Statement (.resetNAssert) := no_word _
theorem NoWord.l0HaltReset : NoWord.Statement (.l0HaltReset) := no_word _
theorem NoWord.watchdogExpiry : NoWord.Statement (.watchdogExpiry) := no_word _
theorem NoWord.watchdogKick (m : Nat) (v : W32) : NoWord.Statement (.watchdogKick m v) := no_word _
theorem NoWord.thermalTrip : NoWord.Statement (.thermalTrip) := no_word _
theorem NoWord.pllLockLost : NoWord.Statement (.pllLockLost) := no_word _
theorem NoWord.resetRelease : NoWord.Statement (.resetRelease) := no_word _
theorem NoWord.selftestComplete (found : MarchFound) : NoWord.Statement (.selftestComplete found) := no_word _
theorem NoWord.bootComplete : NoWord.Statement .bootComplete := no_word _
theorem NoWord.domainRequest (d req : Nat) : NoWord.Statement (.domainRequest d req) := no_word _
theorem NoWord.domainTransitionDone (d : Nat) : NoWord.Statement (.domainTransitionDone d) := no_word _
theorem NoWord.avsReadback (mv amps : Nat) (responded : Bool) : NoWord.Statement (.avsReadback mv amps responded) := no_word _
theorem NoWord.voltageStepDown : NoWord.Statement (.voltageStepDown) := no_word _
theorem NoWord.marginMeasure (margins : List Nat) : NoWord.Statement (.marginMeasure margins) := no_word _
theorem NoWord.vAgeStore : NoWord.Statement (.vAgeStore) := no_word _
theorem NoWord.supplyAlarm (code rail : Nat) : NoWord.Statement (.supplyAlarm code rail) := no_word _
theorem NoWord.thermalAlarm (sensor temp : Nat) : NoWord.Statement (.thermalAlarm sensor temp) := no_word _
theorem NoWord.clusterClockSet (k mult : Nat) : NoWord.Statement (.clusterClockSet k mult) := no_word _
theorem NoWord.registerWrite (m : Nat) (sup : Bool) (addr : Nat) (v : W32) : NoWord.Statement (.registerWrite m sup addr v) := no_word _
theorem NoWord.thermalAlarmEnd : NoWord.Statement (.thermalAlarmEnd) := no_word _
theorem NoWord.rearmComplete : NoWord.Statement (.rearmComplete) := no_word _
theorem NoWord.canErrorStateChange (c : Nat) : NoWord.Statement (.canErrorStateChange c) := no_word _
theorem NoWord.pendingRepairListStore : NoWord.Statement (.pendingRepairListStore) := no_word _

end Sys2Proof.Laws
end

