-- ==== Sys2Proof/Laws/Registers.lean ====
section
/-! SUPPORT. What a field of a register reads after a write, and all that the shared operations over registers can do: events
of interrupt sources, entries offered to the black box, conflicts, plain stores. -/
namespace Sys2Proof.Machine

/-! ## Fields -/

theorem fld_lt (x lo w : Nat) : fld x lo w < 2 ^ w := Nat.mod_lt _ (Nat.two_pow_pos w)
theorem testBit_fld (x lo w i : Nat) : (fld x lo w).testBit i = (decide (i < w) && x.testBit (lo + i)) := by
  unfold fld
  rw [Nat.testBit_mod_two_pow, Nat.testBit_shiftRight]
theorem testBit_setFld (x lo w v i : Nat) :
    (setFld x lo w v).testBit i = if i < lo then x.testBit i else if i < lo + w then v.testBit (i - lo) else x.testBit i := by
  unfold setFld
  have h1 : x % 2 ^ lo < 2 ^ lo := Nat.mod_lt _ (Nat.two_pow_pos _)
  have h2 : v % 2 ^ w < 2 ^ w := Nat.mod_lt _ (Nat.two_pow_pos _)
  have h3 : x % 2 ^ lo + v % 2 ^ w * 2 ^ lo < 2 ^ (lo + w) := by
    have : v % 2 ^ w * 2 ^ lo ≤ (2 ^ w - 1) * 2 ^ lo := Nat.mul_le_mul_right _ (by omega)
    have e : (2 ^ w - 1) * 2 ^ lo = 2 ^ (lo + w) - 2 ^ lo := by rw [Nat.sub_mul, Nat.pow_add, Nat.mul_comm (2 ^ w)]; simp
    have : 2 ^ lo ≤ 2 ^ (lo + w) := Nat.pow_le_pow_right (by omega) (by omega)
    omega
  rw [Nat.add_comm (x % 2 ^ lo + v % 2 ^ w * 2 ^ lo), Nat.mul_comm (x >>> (lo + w)), Nat.testBit_two_pow_mul_add _ h3, Nat.add_comm (x % 2 ^ lo),
    Nat.mul_comm (v % 2 ^ w), Nat.testBit_two_pow_mul_add _ h1]
  by_cases a : i < lo
  · have : i < lo + w := by omega
    simp [a, this]
  · by_cases b : i < lo + w
    · have : i - lo < w := by omega
      simp [a, b, this]
    · simp [a, b, Nat.testBit_shiftRight]
      congr 1
      omega
theorem rbit_eq (x : W32) (i : Nat) : rbit x i = x.toNat.testBit i := rfl
theorem testBit_rfld (x : W32) (lo w i : Nat) : (rfld x lo w).testBit i = (decide (i < w) && rbit x (lo + i)) := testBit_fld _ _ _ _
/-- A bit of a register with one field replaced. -/
theorem rbit_setR (x : W32) (lo w v i : Nat) (hi : i < 32) :
    rbit (setR x lo w v) i = if i < lo then rbit x i else if i < lo + w then v.testBit (i - lo) else rbit x i := by
  unfold setR rbit
  rw [BitVec.getLsbD_ofNat]
  simp only [hi, decide_true, Bool.true_and]
  rw [testBit_setFld]
  rfl
theorem rfld_lt (x : W32) (lo w : Nat) : rfld x lo w < 2 ^ w := fld_lt _ _ _
/-- A field reads as it was last written, in its width. -/
theorem rfld_setR_same (x : W32) (lo w v : Nat) (h : lo + w ≤ 32) : rfld (setR x lo w v) lo w = v % 2 ^ w := by
  apply Nat.eq_of_testBit_eq
  intro i
  rw [testBit_rfld, Nat.testBit_mod_two_pow]
  by_cases hi : i < w
  · rw [rbit_setR _ _ _ _ _ (by omega)]
    rw [if_neg (by omega), if_pos (by omega), Nat.add_sub_cancel_left]
  · simp [hi]
/-- A field beside the one written reads as before. -/
theorem rfld_setR_other (x : W32) (lo w v lo' w' : Nat) (h : lo' + w' ≤ lo ∨ lo + w ≤ lo') (h2 : lo' + w' ≤ 32) : rfld (setR x lo w v) lo' w' = rfld x lo' w' := by
  apply Nat.eq_of_testBit_eq
  intro i
  rw [testBit_rfld, testBit_rfld]
  by_cases hi : i < w'
  · rw [rbit_setR _ _ _ _ _ (by omega)]
    split
    · rfl
    · split
      · omega
      · rfl
  · simp [hi]

variable (s : State)
theorem reg_setRegF (a b lo w v : Nat) : reg (setRegF s a lo w v) b = if b = a then setR (reg s a) lo w v else reg s b := by
  unfold setRegF; exact reg_setReg _ _ _ _
theorem regF_setRegF_same (a lo w v : Nat) (h : lo + w ≤ 32) : regF (setRegF s a lo w v) a lo w = v % 2 ^ w := by
  unfold regF; rw [reg_setRegF, if_pos rfl]; exact rfld_setR_same _ _ _ _ h
theorem regF_setRegF_other (a lo w v lo' w' : Nat) (h : lo' + w' ≤ lo ∨ lo + w ≤ lo') (h2 : lo' + w' ≤ 32) :
    regF (setRegF s a lo w v) a lo' w' = regF s a lo' w' := by
  unfold regF; rw [reg_setRegF, if_pos rfl]; exact rfld_setR_other _ _ _ _ _ _ h h2
theorem regF_setRegF_ne (a b lo w v lo' w' : Nat) (h : b ≠ a) : regF (setRegF s a lo w v) b lo' w' = regF s b lo' w' := by
  unfold regF; rw [reg_setRegF, if_neg h]
theorem regB_setRegF (a lo w v i : Nat) (hi : i < 32) :
    regB (setRegF s a lo w v) a i = if i < lo then regB s a i else if i < lo + w then v.testBit (i - lo) else regB s a i := by
  unfold regB; rw [reg_setRegF, if_pos rfl, rbit_setR _ _ _ _ _ hi]
theorem regB_setRegF_ne (a b lo w v i : Nat) (h : b ≠ a) : regB (setRegF s a lo w v) b i = regB s b i := by
  unfold regB; rw [reg_setRegF, if_neg h]
theorem regB_setRegB_same (a i : Nat) (b : Bool) (hi : i < 32) : regB (setRegB s a i b) a i = b := by
  unfold setRegB; rw [regB_setRegF _ _ _ _ _ _ hi]; cases b <;> simp [b2n]
theorem regB_setRegB_other (a i j : Nat) (b : Bool) (hj : j < 32) (h : j ≠ i) : regB (setRegB s a i b) a j = regB s a j := by
  unfold setRegB; rw [regB_setRegF _ _ _ _ _ _ hj]; split
  · rfl
  · split
    · omega
    · rfl
theorem reg_setRegB_ne (a c i : Nat) (b : Bool) (h : c ≠ a) : reg (setRegB s a i b) c = reg s c := by
  unfold setRegB; rw [reg_setRegF, if_neg h]
theorem reg_setRegF_ne (a c lo w v : Nat) (h : c ≠ a) : reg (setRegF s a lo w v) c = reg s c := by
  rw [reg_setRegF, if_neg h]
theorem regF_setRegB_other (a i : Nat) (b : Bool) (lo w : Nat) (h : lo + w ≤ i ∨ i + 1 ≤ lo) (h2 : lo + w ≤ 32) : regF (setRegB s a i b) a lo w = regF s a lo w :=
  regF_setRegF_other _ _ _ _ _ _ _ h h2

/-! ## Events (R420, R421) -/

/-- All that an event, a change of level or a pulse of source `n` changes: the state and count of the source, the start of its gather, its
signal. -/
structure SourceOnly (n : Nat) (s t : State) : Prop where
  rest : t = { s with regs := t.regs, intc := t.intc }
  regs : ∀ a, a ≠ icScnt n → reg t a = reg s a
  signals : ∀ m, m ≠ n → srcSignal t m = srcSignal s m

variable {s}
theorem SourceOnly.refl (n : Nat) (s : State) : SourceOnly n s s := ⟨rfl, fun _ _ => rfl, fun _ _ => rfl⟩
theorem SourceOnly.trans {n : Nat} {s t u : State} (h : SourceOnly n s t) (g : SourceOnly n t u) : SourceOnly n s u :=
  ⟨by rw [g.rest, h.rest], fun a ha => (g.regs a ha).trans (h.regs a ha), fun m hm => (g.signals m hm).trans (h.signals m hm)⟩
theorem sourceOnly_setSrc (s : State) (n st cnt : Nat) : SourceOnly n s (setSrc s n st cnt) :=
  ⟨rfl, fun a ha => by unfold setSrc; rw [reg_setReg, if_neg ha], fun _ _ => rfl⟩
theorem sourceOnly_srcEvent (s : State) (n : Nat) : SourceOnly n s (srcEvent s n) := by
  unfold srcEvent
  split
  · exact SourceOnly.refl _ _
  · dsimp only
    split
    · split
      · exact sourceOnly_setSrc _ _ _ _
      · exact ⟨rfl, fun a ha => (sourceOnly_setSrc s n 1 1).regs a ha, fun _ _ => rfl⟩
    · exact sourceOnly_setSrc _ _ _ _
    · exact sourceOnly_setSrc _ _ _ _
theorem srcSignal_srcEvent (s : State) (n m : Nat) : srcSignal (srcEvent s n) m = srcSignal s m := by
  unfold srcEvent
  split
  · rfl
  · dsimp only
    split
    · split <;> rfl
    · rfl
    · rfl
theorem srcSignal_set (s : State) (n m : Nat) (b : Bool) :
    srcSignal { s with intc := { s.intc with signal := tput 0 s.intc.signal n (b2n b) } } m = if m = n then b else srcSignal s m := by
  unfold srcSignal
  dsimp only
  rw [tget_tput]
  split
  · cases b <;> simp [b2n]
  · rfl
/-- A source's signal reads as it was last set. -/
theorem srcSignal_setLevel (s : State) (n m : Nat) (b : Bool) : srcSignal (setLevel s n b) m = if m = n then b else srcSignal s m := by
  unfold setLevel
  split
  · next h => split
              · next e => rw [e, h]
              · rfl
  · dsimp only
    split
    · rw [srcSignal_srcEvent, srcSignal_set]
    · rw [srcSignal_set]
theorem sourceOnly_setLevel (s : State) (n : Nat) (b : Bool) : SourceOnly n s (setLevel s n b) := by
  have hs : ∀ m, m ≠ n → srcSignal (setLevel s n b) m = srcSignal s m := fun m hm => by rw [srcSignal_setLevel, if_neg hm]
  unfold setLevel at hs ⊢
  split
  · exact SourceOnly.refl _ _
  · next h =>
    rw [if_neg h] at hs
    dsimp only at hs ⊢
    split
    · next h2 =>
      rw [if_pos h2] at hs
      have g := sourceOnly_srcEvent { s with intc := { s.intc with signal := tput 0 s.intc.signal n (b2n b) } } n
      exact ⟨by rw [g.rest], fun a ha => (g.regs a ha), hs⟩
    · next h2 => rw [if_neg h2] at hs; exact ⟨rfl, fun _ _ => rfl, hs⟩
theorem sourceOnly_pulse (s : State) (n : Nat) : SourceOnly n s (pulse s n) := (sourceOnly_setLevel s n true).trans (sourceOnly_setLevel _ n false)
theorem srcSignal_pulse (s : State) (n m : Nat) : srcSignal (pulse s n) m = if m = n then false else srcSignal s m := by
  unfold pulse
  rw [srcSignal_setLevel]
  split
  · rfl
  · next h => rw [srcSignal_setLevel, if_neg h]
theorem SourceOnly.regF {n : Nat} {s t : State} (h : SourceOnly n s t) (a lo w : Nat) (ha : a ≠ icScnt n) : regF t a lo w = regF s a lo w := by
  unfold Machine.regF; rw [h.regs a ha]
theorem SourceOnly.regB {n : Nat} {s t : State} (h : SourceOnly n s t) (a i : Nat) (ha : a ≠ icScnt n) : regB t a i = regB s a i := by
  unfold Machine.regB; rw [h.regs a ha]
theorem SourceOnly.variant {n : Nat} {s t : State} (h : SourceOnly n s t) : t.variant = s.variant := by rw [h.rest]
theorem SourceOnly.dev {n : Nat} {s t : State} (h : SourceOnly n s t) : t.dev = s.dev := by rw [h.rest]
theorem SourceOnly.now {n : Nat} {s t : State} (h : SourceOnly n s t) : t.now = s.now := by rw [h.rest]
theorem SourceOnly.dtime {n : Nat} {s t : State} (h : SourceOnly n s t) : t.dtime = s.dtime := by rw [h.rest]
theorem SourceOnly.coaches {n : Nat} {s t : State} (h : SourceOnly n s t) : t.coaches = s.coaches := by rw [h.rest]
theorem SourceOnly.carts {n : Nat} {s t : State} (h : SourceOnly n s t) : t.carts = s.carts := by rw [h.rest]
theorem SourceOnly.mem {n : Nat} {s t : State} (h : SourceOnly n s t) : t.mem = s.mem := by rw [h.rest]
theorem SourceOnly.timers {n : Nat} {s t : State} (h : SourceOnly n s t) : t.timers = s.timers := by rw [h.rest]
theorem SourceOnly.media {n : Nat} {s t : State} (h : SourceOnly n s t) : t.media = s.media := by rw [h.rest]
theorem SourceOnly.net {n : Nat} {s t : State} (h : SourceOnly n s t) : t.net = s.net := by rw [h.rest]
theorem SourceOnly.fpp {n : Nat} {s t : State} (h : SourceOnly n s t) : t.fpp = s.fpp := by rw [h.rest]
theorem SourceOnly.bb {n : Nat} {s t : State} (h : SourceOnly n s t) : t.bb = s.bb := by rw [h.rest]
theorem SourceOnly.pwr {n : Nat} {s t : State} (h : SourceOnly n s t) : t.pwr = s.pwr := by rw [h.rest]

/-! ## The black box's intake (R478) -/

/-- All that an entry offered to the black box changes: the intake, the header's count of drops, a count of losses. -/
structure OfferOnly (s t : State) : Prop where
  rest : t = { s with regs := t.regs, bb := t.bb }
  regs : ∀ a, (∀ c, a ≠ bbLost c) → reg t a = reg s a
  bb : t.bb = { s.bb with intake := t.bb.intake, header := { s.bb.header with dropped := t.bb.header.dropped } }
theorem offerOnly_bbOffer (s : State) (e : BbEntry) : OfferOnly s (bbOffer s e) := by
  unfold bbOffer
  split
  · exact ⟨rfl, fun _ _ => rfl, rfl⟩
  · split
    · exact ⟨rfl, fun _ _ => rfl, rfl⟩
    · exact ⟨rfl, fun a ha => reg_setRegF_ne _ _ _ _ _ _ (ha _), rfl⟩
/-- An entry offered while the intake has room, no loss is unreported and the ring is not FROZEN joins the intake. -/
theorem bbOffer_room (s : State) (e : BbEntry) (h1 : (s.bb.ready && s.bb.header.state = 2 && !s.bb.rearming) = false) (h2 : s.bb.intake.length < 32)
    (h3 : bbNoneLost s = true) : bbOffer s e = { s with bb := { s.bb with intake := s.bb.intake ++ [e] } } := by
  unfold bbOffer
  rw [h1]
  simp [h2, h3]

/-! ## Stores (R12, R14) -/

theorem conflictAt_plain (s : State) (a b : Nat) (h0 : a ≠ 0) (hm : a ≠ memStat ∨ b ≠ 0) (h1 : ¬(0x04200000 ≤ a ∧ a < 0x04300000)) (h2 : ¬(0x04700000 ≤ a ∧ a < 0x04760000)) :
    conflictAt s a b = setRegB s a b true := by
  unfold conflictAt
  have e : (decide (a = memStat) && decide (b = 0)) = false := by
    rcases hm with h | h <;> simp [h]
  simp only [h0, if_false, e, Bool.false_eq_true]
  have e1 : (decide (0x04200000 ≤ a) && decide (a < 0x04300000)) = false := by
    rw [← Bool.not_eq_true, Bool.and_eq_true, decide_eq_true_eq, decide_eq_true_eq]; exact h1
  have e2 : (decide (0x04700000 ≤ a) && decide (a < 0x04760000)) = false := by
    rw [← Bool.not_eq_true, Bool.and_eq_true, decide_eq_true_eq, decide_eq_true_eq]; exact h2
  simp [e1, e2]
end Sys2Proof.Machine
end

