-- ==== Sys2Proof/Tests/Slice0.lean ====
section
/-! SUPPORT. Tests of single steps on small states, the refusal of ill-formed commands, and for each statement states that
meet its hypotheses, clause by clause. -/
namespace Sys2Proof.Tests
open Sys2Proof Sys2Proof.Machine
set_option Elab.async false

/-! ## Small states -/

/-- Reset with the domain of processor `c` on and the coach as given. -/
def onCoach (c : Nat) (k : Coach) : State := setRegF (setCo State.reset c k) (pwrDom c) 8 2 2
/-- A line of a memory with its check byte. -/
def withLine (s : State) (kind inst off data : Nat) : State := rewriteLine s (wordKey kind inst off / 4) data false
/-- A coach that runs at `pc`. -/
def runAt (pc : Nat) : Coach := { Coach.reset with run := .running, pc := n32 pc, lastPc := n32 pc }
/-- Lead coach 75 in Ketch mode before the instruction word `w`, at supervisor level or not. -/
def ketchState (w : Nat) (k : Coach) : State :=
  withLine (onCoach 75 (setCoF { k with ketch := true } 0x000 15 1 1)) 2 3 0x100 w
/-- Registers K1 and K2 hold `a` and `b`; K14 a code address and K15 a pointer. -/
def ketchRegs (a b : Nat) : Coach :=
  { runAt 0x100 with g := [(1, n32 a), (2, n32 b), (14, n32 (kWord 3 0x200)), (15, n32 (kWord 2 0x1000))] }
/-- Signal coach 71 before the words of a bundle. -/
def bundleState (words : Nat) (k : Coach) : State := withLine (withLine (onCoach 71 k) 1 71 0x100 (words % 2 ^ 64)) 1 71 0x104 (words / 2 ^ 64)

/-! ## Ill-formed commands -/

/-- One ill-formed command for each check of `Instr.wf`, at the first value that it refuses. -/
def illFormed : List Instr :=
  [.bundleIssue 76, .accessAccepted 76 0, .coachStart 76, .timeRelease 4096, .hitchSearch 64, .failover 64 true true 0, .sourceEvent 2048 true,
   .icSwset 76 0, .icSwset 79 0, .icComp 102 0, .icComp 103 0, .icComp 108 0, .sourceDisable 0 2048 0, .claimUnit 0 0x100000000, .releaseClaim 76 0,
   .counterTick 64, .freezeStop 127, .tmCntStore 0 64 0, .tmCntLoad 76 0, .bankArbitration { kind := 0, inst := 72, bank := 0, portB := false },
   .bankArbitration { kind := 6, inst := 0, bank := 0, portB := false }, .writeOut { kind := 0, inst := 0, bank := 256, portB := false },
   .correctionWriteBack 1 72 0, .correctionWriteBack 2 4 0, .pageReconstruction 3 8 0, .pageReconstruction 4 1 0, .remap 5 2 0, .scrubRead 6 0,
   .marchRow 11, .marchComplete [(0, 0)], .marchComplete [(0, 11)], .regionWrite 72 true 0x100000000 0, .sampleEdge 4, .mediaClockEnable 0 4 0,
   .countLatchRead 0 0x100000000, .noclk 32, .portEnable 0 32 0, .pdmControlStore 0 8 0, .wagonEnable 0 16 0 0, .wagonEnable 0 0 64 0,
   .blockReady 16 0, .blockReady 0 64, .lineMove 16, .asrcStreamEnable 0 4 0 0, .asrcStreamEnable 0 0 64 0, .asrcUnlock 4 0, .asrcUnlock 0 64,
   .syncTransmit 4, .listenerLost 2048, .frameTransmit 6, .gateChangeRequest 0 6 0, .contextEnable 0 6 0, .linkDown 6, .sessionClose (.can 4 0), .requestArrival (.can 4 true 0) [], .selftestComplete { units := [], rows := [{ kind := 0, inst := 0, bank := 0, row := 0, op := 0 }] },
   .sessionClose (.can 0 256), .transferTimeout (.udp 6 0 0), .transferTimeout (.udp 0 0x100000000 0), .sessionClose (.udp 0 0 65536),
   .bbInCommit 76 0, .watchdogKick 103 0, .domainRequest 148 0, .domainRequest 0 4, .domainTransitionDone 148, .clusterClockSet 8 0,
   .registerWrite 0 true 0x100000000 0, .canErrorStateChange 4]
theorem test_wf_refuses_each : illFormed.all (fun i => !Instr.wf i) = true := by decide +kernel
def refuses (o : Host.Outcome State Fault Refusal) : Bool := match o with | .refused .illFormed => true | _ => false
theorem test_exec_refuses_each : illFormed.all (fun i => refuses (exec i State.reset)) = true := by decide +kernel
theorem test_wf_takes_the_last : [Instr.bundleIssue 75, .timeRelease 4095, .hitchSearch 63, .sourceEvent 2047 true, .icSwset 107 0, .marchRow 10,
    .domainRequest 147 3, .canErrorStateChange 3].all Instr.wf = true := by decide +kernel

/-! ## Ketch mode -/

/-- The word of a Ketch operation: D 3, A 1, B 2 and the immediate, where the operation has the fields. -/
def ketchWord (op imm : Nat) : Nat :=
  let w := op * 2 ^ 26 + 3 * 2 ^ 22 + 1 * 2 ^ 18 + 2 * 2 ^ 14
  (w - (w &&& kUnused op)) ||| imm
def isOk : Except Refused KVal → Bool
  | .ok v => !v.trap
  | .error _ => false
/-- What the statement of the computing instructions takes as their result. -/
def ketchResult (op : Nat) (k : Coach) (w : Nat) : Except Refused KVal :=
  let a := gN k (kA w)
  let b := gN k (kB w)
  match op with
  | 0x01 => kMove a
  | 0x02 => .ok (kval (kWord 0 (wrapN 29 (kImm18 w))) 1)
  | 0x03 => kLdhi (gN k (kD w)) (w % 2 ^ 18)
  | 0x04 => kAdd k a b
  | 0x05 => kSub k a b
  | 0x06 => kMul k a b
  | 0x07 => kAddi a (kImm14 w)
  | 0x0E => kSeq a b
  | 0x0F => kSlt k a b
  | 0x10 => kCvt k (fld w 11 3) a
  | 0x11 => kMktag k (fld w 11 3) a
  | 0x12 => .ok (kval (kTag a) 1)
  | _ => kLogic op a b
/-- The hypotheses of one clause of the computing instructions: the word is at the coach and its result is, or is not, a value. -/
def computes (ok : Bool) (op a b imm : Nat) : Bool :=
  let w := ketchWord op imm
  let s := ketchState w (ketchRegs a b)
  ketchAt s 75 w && decide (kOp w = op) && (isOk (ketchResult op (ketchK s 75) w) == ok)
theorem witness_ketchComputingInstructions_ok :
    [0x01, 0x02, 0x03, 0x04, 0x05, 0x06, 0x07, 0x08, 0x09, 0x0A, 0x0B, 0x0C, 0x0D, 0x0E, 0x0F, 0x10, 0x11, 0x12].all
      (fun op => computes true op 0x0FFFFFFF 0x1FFFFFFF 0) = true := by decide +kernel
theorem witness_ketchComputingInstructions_refused :
    [0x01, 0x04, 0x05, 0x06, 0x07, 0x08, 0x09, 0x0A, 0x0B, 0x0C, 0x0D, 0x0E, 0x0F, 0x10, 0x11].all
      (fun op => computes false op 0xC0000000 0xFFFFFFFF 0) = true := by decide +kernel
/-- Operands `a` and `b` at the coach before an instruction of the operation `op`, at supervisor level. -/
def completes (op a b imm : Nat) : Bool :=
  let w := ketchWord op imm
  let s := ketchState w (ketchRegs a b)
  ketchAt s 75 w && decide (kOp w = op) && decide (gN (ketchK s 75) (kA w) = a) && decide (kOp w = 3 ∨ gN (ketchK s 75) (kB w) = b ∨ kB w = 0)
theorem witness_ketchInstructionsComplete :
    ([0x01, 0x02, 0x03, 0x04, 0x05, 0x06, 0x07, 0x08, 0x09, 0x0A, 0x0B, 0x0C, 0x0D, 0x0E, 0x0F, 0x10, 0x11, 0x12].all
      (fun op => completes op 0 0 0 || decide (kOp (ketchWord op 0) = 2))) = true ∧ kTag 0 = 0 ∧ kTag 0x1FFFFFFF = 0 ∧
    [0x04, 0x05, 0x0E, 0x0F].all (fun op => completes op 0x20000000 0x3FFFFFFF 0) = true ∧ kTag 0x20000000 = 1 ∧ kTag 0x3FFFFFFF = 1 ∧
    (completes 0x04 0x40000000 5 0 && completes 0x0F 0x40000000 0x40000005 0) = true ∧ kTag 0x40000000 = 2 ∧ kPtrAdd 0 (sx 29 5) = some 5 ∧
    completes 0x10 0x3FFFFFFF 0 0x800 = true ∧ fld (ketchWord 0x10 0x800) 11 3 = 1 ∧ isSup (ketchK (ketchState (ketchWord 0x11 0x2800) (ketchRegs 0 0)) 75) = true ∧
    completes 0x11 0 0 0x2800 = true ∧ fld (ketchWord 0x11 0x2800) 11 3 = 5 := by decide +kernel
theorem witness_integerResults : kTag 0x1FFFFFFF = 0 ∧ kTag 0 = 0 := by decide
theorem witness_tagChecks : kTag 0xC0000000 ≥ 6 ∧ kTag 0xBFFFFFFF < 6 ∧ (∀ e ∈ [(0, 0, 0)], ¬(e.1 = kTag 0xBFFFFFFF ∧ e.2.1 = kTag 0)) ∧
    (match kPair 4 [(0, 0, 0)] 0 0 with | .ok t => t == 0 | .error _ => false) = true := by decide
/-- A control-flow word at the coach, its first operand `a`. -/
def flows (op a imm : Nat) : Bool := let w := ketchWord op imm; ketchAt (ketchState w (ketchRegs a 0)) 75 w && decide (kOp w = op)
def flowK (op a imm : Nat) : Coach := ketchK (ketchState (ketchWord op imm) (ketchRegs a 0)) 75
theorem witness_ketchControlFlow : flows 0x00 0 0 ∧ flows 0x1A 0 0x3FFFF ∧ (flows 0x18 0 1 ∧ kTag (gN (flowK 0x18 0 1) 1) = 0 ∧ kPay (gN (flowK 0x18 0 1) 1) = 0) ∧
    (flows 0x19 0x1FFFFFFF 1 ∧ kTag (gN (flowK 0x19 0x1FFFFFFF 1) 1) = 0) ∧ (flows 0x1B 0x60000000 0 ∧ kTag (gN (flowK 0x1B 0x60000000 0) 1) = 3) ∧
    (flows 0x1C 0 1 ∧ kPayOf ((flowK 0x1C 0 1).pc + 2).toNat = some 0x81 ∧ ssPushOk (flowK 0x1C 0 1) = true) ∧
    (flows 0x1D 0x60000000 0 ∧ kTag (gN (flowK 0x1D 0x60000000 0) 1) = 3) ∧
    (flows 0x1E 0 0 ∧ kTag (gN (flowK 0x1E 0 0) 14) = 3 ∧
      ssPopCheck (ketchU (ketchState (ketchWord 0x1E 0) (ketchRegs 0 0)) 75) 75 (flowK 0x1E 0 0) 0x400 = none) ∧
    flows 0x18 0x20000000 0 ∧ flows 0x19 0xFFFFFFFF 0 ∧ flows 0x1B 0 0 ∧ flows 0x1D 0 0 := by decide +kernel
/-- A coach whose shadow stack is full. -/
def fullStack : Coach := wrCo (wrCo (wrCo (ketchRegs 0 0) 0x324 0x3DC0) 0x326 0x3DC2) 0x322 0x3DC2
theorem witness_ketchControlFlow_full : let w := ketchWord 0x1C 0
    let s := ketchState w fullStack
    ketchAt s 75 w = true ∧ kOp w = 0x1C ∧ ssPushOk (ketchK s 75) = false ∧ kPayOf ((ketchK s 75).pc + 2).toNat ≠ none := by decide +kernel
/-- The address checks of an access from pointer `a` pass, and its bank is the coach's own and serves it, or is another's. -/
def accesses (op a imm : Nat) (own : Bool) : Bool :=
  let w := ketchWord op imm
  let s := setRegF (setRegF (setRegF (setRegF (ketchState w (ketchRegs a 0)) (memRB 75 1 + 2) 0 32 0xFFFFFFC0) (memRB 75 1 + 4) 0 32 0x1000F) (pwrDom 84) 8 2 2) 0x04082096 0 16 1
  let k := ketchK s 75
  let x := kAddr (kPay (gN k 1) + imm)
  let acc := if op = 0x13 || op = 0x15 then kLoadAcc k 3 x else kStoreAcc k 0 x
  let u := ketchSent s 75 acc (if op = 0x13 || op = 0x15 then 4 else 1)
  ketchAt s 75 w && decide (kOp w = op) && decide (kTag (gN k 1) = 2) && (match kPtrAdd (kPay (gN k 1)) imm with | some p => decide (kAddr p = x) | none => false) &&
  (checkAccs (ketchU s 75) 75 k [acc]).isNone &&
  (if own then (ownAnswer u 75 acc).isSome else (match route u 75 acc.addr with | .bank _ _ _ false => true | _ => false))
theorem witness_ketchMemory : [0x13, 0x14, 0x15, 0x16].all (fun op => accesses op (kWord 2 0x400) 0 true && accesses op (kWord 2 (0x01000000 / 2)) 0 false) = true := by
  decide +kernel
theorem witness_ketchMemory_refused : flows 0x13 0 0 ∧ flows 0x14 0xC0000000 0 := by decide +kernel
theorem witness_ketchFrame : let w := ketchWord 0x17 64
    let s := ketchState w (ketchRegs 0 0)
    let k := ketchK s 75
    ketchAt s 75 w = true ∧ kOp w = 0x17 ∧ kTag (gN k 15) = 2 ∧ kPtrAdd (kPay (gN k 15)) (-(64 : Int)) = some 0xFC0 ∧ (kImm14 w).toNat = 64 ∧
    kFrameBad (ketchU s 75) 75 0xFC0 64 = none ∧ (kFrameStore (ketchU s 75) 75 0xFC0 64).2 = none := by decide +kernel
/-- A gate word at the coach, and what its gate action answers. -/
def gates (op a imm : Nat) (k : Coach) : Bool × Option Nat :=
  let w := ketchWord op imm
  let s := ketchState w { k with g := tput 0 k.g 1 (n32 a) }
  let q := ketchK s 75
  (ketchAt s 75 w && decide (kOp w = op),
   (if op = 0x1F then (gateKcall (ketchU s 75) 75 q q.pc.toNat (kA w) (fld w 14 4) (fld w 11 3) (fld w 8 3)).bad else (gateKret (ketchU s 75) 75 q (fld w 16 2)).bad).map
     (fun e => e.entry))
theorem witness_ketchGates_kcall : gates 0x1F (kWord 3 0x200) 0 { ketchRegs 0 0 with g := [(2, 0), (15, n32 (kWord 2 0x1000))] } = (true, none) := by decide +kernel
theorem witness_ketchGates_refused : gates 0x1F 0 0 (ketchRegs 0 0) = (true, some 15) ∧ gates 0x20 0 0 { ketchRegs 0 0 with g := [] } = (true, some 15) := by decide +kernel
/-- The record that KRET reads, at pointer 0x1000. -/
def gateRecord : State := withLine (ketchState (ketchWord 0x20 0) (ketchRegs 0 0)) 2 3 0x2000 (0x400 + markE * 2 ^ 32)
theorem witness_ketchGates_kret : let q := ketchK gateRecord 75
    ketchAt gateRecord 75 (ketchWord 0x20 0) = true ∧ (gateKret (ketchU gateRecord 75) 75 q 0).bad = none := by decide +kernel
theorem witness_ketchSystem : flows 0x21 0 0xFFFF ∧ flows 0x22 0 0 ∧
    (let w := ketchWord 0x23 0
     let s := ketchState w (setCoF (ketchRegs 0 0) 0x002 1 1 0)
     ketchAt s 75 w = true ∧ isSup (ketchK s 75) = false) ∧
    (let w := ketchWord 0x23 0
     let s := ketchState w (wrCo (ketchRegs 0 0) 0x402 0x1000)
     let k := ketchK s 75
     ketchAt s 75 w = true ∧ isSup k = true ∧ (eretRead (ketchU s 75) 75).2.1 = none) := by decide +kernel
theorem witness_ketchModeSwitch : let s := onCoach 75 (setCoF (runAt 0x100) 0x000 15 1 1)
    let k := landNow s 75 (co s 75)
    let d := drain s 75 k
    isRunning (co s 75) = true ∧ (co s 75).ketch = false ∧ coB k 0x000 15 ≠ k.ketch ∧ k.ketchAt ≤ k.seq ∧ trapDue d = false ∧ d.precise = none := by decide +kernel

/-! ## Bundles -/

/-- Words of a long syllable that ends its bundle. -/
def longWords (maj x : Nat) : Nat := 0xC000 + maj * 256 + x / 65536 + x % 65536 * 65536
/-- BLKFILL of V1 to P2, G3 elements of 8 words. -/
def fillWords : Nat := longWords 0x10 (1 * 2 ^ 20 + 2 * 2 ^ 16 + 3 * 2 ^ 8 + 3 * 2 ^ 6 + 1)
def bundleHere (s : State) : Bundle := bundleAt (issueFilled s 71) 71 (issueLanded s 71).pc.toNat
theorem witness_aRefusedBundle : let s := bundleState 0x4002 (runAt 0x100)
    bundleNext s 71 (bundleHere s) = true ∧ (bundleFails s 71 (bundleHere s)).isSome = true := by decide +kernel
theorem witness_bundleIssues : let s := bundleState 0x4000 (runAt 0x100)
    let b := bundleHere s
    bundleNext s 71 b = true ∧ bundleFails s 71 b = none ∧ bundleAccs s 71 b = [] ∧ (bundleOps b).any (fun o => o = .eret) = false ∧
    longOf (issueCoach s 71 b) b = none ∧ gateOf (issueCoach s 71 b) b (isLead 71) = none := by decide +kernel
theorem witness_longOperationBegins : [0, 1].all (fun n =>
    let s := bundleState fillWords { runAt 0x100 with g := if n = 0 then [] else [(3, n32 n)], p := [(2, 0x40)] }
    let b := bundleHere s
    bundleNext s 71 b && (bundleFails s 71 b).isNone && (match longOf (issueCoach s 71 b) b with | some l => decide (rdG (issueCoach s 71 b) l.gn = n32 n) | none => false)) = true := by
  decide +kernel
/-- Level 0 ends at 0x102 with a count of 1, level 2 with the largest count. -/
def loopCoach : Coach := wrCo (wrCo (wrCo (wrCo (runAt 0x100) 0x302 0x102) 0x304 1) 0x312 0x102) 0x314 0xFFFFFFFF
theorem witness_loopEndTest :
    (rdCo loopCoach 0x314 ≠ 0 ∧ rdCo loopCoach 0x312 = 0x102 ∧ 1 < (rdCo loopCoach 0x314).toNat) ∧
    (∀ i, i < 2 → ¬((rdCo loopCoach (0x304 + 8 * i) ≠ 0 ∧ rdCo loopCoach (0x302 + 8 * i) = 0x102) ∧ 1 < (rdCo loopCoach (0x304 + 8 * i)).toNat)) ∧
    (rdCo loopCoach 0x304 ≠ 0 ∧ rdCo loopCoach 0x302 = 0x102) ∧ (∀ l, l < 3 → ¬ rdCo (runAt 0x100) (0x304 + 8 * l) ≠ 0) := by decide
theorem witness_integerOperations :
    (let x : Int := (0x7FFFFFFF : W32).toInt + (0 : W32).toInt; -(2 ^ 31) ≤ x ∧ x < 2 ^ 31) ∧ 2 ^ 31 ≤ (0x7FFFFFFF : W32).toInt + (1 : W32).toInt ∧
    (0x80000000 : W32).toInt + (0xFFFFFFFF : W32).toInt < -(2 ^ 31) ∧ 2 ^ 31 ≤ (0 : W32).toInt - (0x80000000 : W32).toInt ∧
    (0x80000000 : W32).toInt - (1 : W32).toInt < -(2 ^ 31) ∧ 32 ≤ (32 : W32).toNat ∧ (31 : W32).toNat < 32 := by decide
theorem witness_failedMove : rdG { runAt 0 with g := [(1, 1)] } 1 ≠ 0 ∧ rdG (runAt 0) 1 = 0 := by decide
theorem witness_division : (1 : W32) ≠ 0 ∧ ¬((0x80000000 : W32) = 0x80000000 ∧ (1 : W32) = 0xFFFFFFFF) := by decide
theorem witness_circular : let k := { runAt 0 with n := [(8, n32 0xFFFFFFF0), (9, 16)] }
    let b := (rdN k (circPair k 0).1).toNat
    let l := (rdN k (circPair k 0).2).toNat
    0 < l ∧ b + l ≤ 2 ^ 32 ∧ b ≤ (0xFFFFFFFF : W32).toNat ∧ (0xFFFFFFFF : W32).toNat < b + l ∧ -(l : Int) ≤ 16 ∧ (16 : Int) ≤ l := by decide
theorem witness_mac : 7 < parts 1 ∧ 3 < parts 0 ∧ 7 < 8 := by decide
/-- A result for G5 due at cycle 3. -/
def aResult : Pend := { resG 3 6 5 0xFFFFFFFF with due := 3 }
theorem witness_resultsLand :
    (let s := onCoach 71 { runAt 0x100 with cyc := 3, pend := [aResult] }
     (co s 71).access = [] ∧ (co s 71).run ≠ .off ∧ nextDue (co s 71) = some 3 ∧ 3 ≤ (co s 71).cyc) ∧
    (let s := onCoach 71 (setCoF { runAt 0x100 with pend := [aResult] } 0x000 0 1 1)
     (co s 71).access = [] ∧ (co s 71).run ≠ .off ∧ nextDue (co s 71) = some 3 ∧ isPrecise (co s 71) = true) := by decide +kernel
/-- A load from the coach's own memory, answered with an error code or without. -/
def answeredCoach (err : Nat) : Coach :=
  { runAt 0x100 with
    access := [{ ld := 0, kind := .load, addr := 0x40, n := 2, data := 0, dst := 1, sx := false, due := 4, resp := some { err := err, data := 7 }, refused := 0 }],
    after := some { pc := 0x102, co := [], cyc := 0, bubbles := 0, pend := [], coPend := [], fb := [], divFree := 0, long := none, counters := [], rsTop := 0,
                    wrong := none, bound := .drain, exc := none, keepRs := true, gate := none } }
theorem witness_answeredBundle : [0, 4].all (fun e =>
    let u := answered (onCoach 71 (answeredCoach e)) 71
    let k := co u 71
    (match k.after with | some f => f.gate.isNone | none => false) && k.access.all (fun a => a.resp.isSome) && k.exc.isNone && k.long.isNone &&
    (k.access.all (fun a => match a.resp with | some r => r.err = 0 | none => false) == decide (e = 0))) = true := by decide +kernel
/-- A coach inside a long operation. -/
def longCoach (kind ra rb ry : Nat) (p : Table W32) (gc : W32) : Coach :=
  { runAt 0x100 with
    g := [(3, 8), (4, gc)], p := p,
    long := some { kind := kind, ra := ra, rb := rb, ry := ry, gn := 3, gc := 4, size := 3, hold := false, apc := 0x100, next := 0x102, steps := 1 } }
def blockAt (kind : Nat) (p : Table W32) : Bool × Bool × Bool :=
  let s := onCoach 71 (longCoach kind 1 2 0 p 0)
  let k := co s 71
  let r := if kind = 0 then longAccess s 71 .load (rdP k 1).toNat 8 0 else (s, none, (rdV k 1).toNat % 2 ^ 128)
  let w := longAccess r.1 71 .store (rdP k 2).toNat 8 r.2.2
  (inLong s 71 k, r.2.1.isNone, w.2.1.isNone)
theorem witness_blockElement : blockAt 0 [(1, 0x1FFF8), (2, 0x40)] = (true, true, true) ∧ blockAt 1 [(2, 0x40)] = (true, true, true) ∧
    blockAt 0 [(1, 0x20000), (2, 0x40)] = (true, false, true) ∧ blockAt 1 [(2, 0x41)] = (true, true, false) := by decide +kernel
theorem witness_vfirbGroup : [0, 0x20000].all (fun a =>
    let gc := n32 (2 ^ 31 + 8)
    let s := onCoach 71 (longCoach 2 1 2 5 [(1, n32 a), (2, 0x80), (5, 0x100)] gc)
    let k := co s 71
    let x := longLines 71 (rdP k 1).toNat (cdiv ((8 + 8) * laneW 1) 128) s #[]
    let h := longLines 71 (rdP k 2).toNat (cdiv (8 * laneW 1) 128) x.1 #[]
    let ys := (upto 8).map (fun i => vfirbOut 1 0 0 8 i (lineSample (laneW 1) x.2.2) (lineSample (laneW 1) h.2.2))
    let num := (upto 8).foldl (fun r i => r + (ys.getD i (0, 0)).1 % 2 ^ laneW 1 * 2 ^ (laneW 1 * i)) 0
    let o := longAccess h.1 71 .store (rdP k 5).toNat 8 num
    inLong s 71 k && decide (rfld (rdG k 4) 0 15 = 8) && rbit (rdG k 4) 31 && (x.2.1.isNone == decide (a = 0)) && (x.2.1.isSome || h.2.1.isNone && o.2.1.isNone)) = true := by
  decide +kernel
theorem witness_fetchDecodes :
    (let s := bundleState 0x4000 (runAt 0x100)
     (co s 71).run = .running ∧ (co s 71).ketch = false ∧ (co s 71).wrong = none ∧ isRunning (co s 71) = true ∧ (co s 71).decoded = none ∧
     (bundleAt s 71 (co s 71).pc.toNat).fetched = true) ∧
    (let s := bundleState 0x4000 (setCoF (runAt 0x100) 0x000 2 1 1)
     isRunning (co s 71) = true ∧ predOff (co s 71) = true ∧ (co s 71).wrong = none ∧ (bundleAt s 71 (co s 71).pc.toNat).fetched = true) ∧
    (let s := bundleState 0x4000 { runAt 0x100 with wrong := some { cyc := 0, left := 5, path := some 0x100, off := false } }
     (co s 71).run = .running ∧ (co s 71).ketch = false ∧ (co s 71).wrong.isSome = true) := by decide +kernel
/-- A processor at a drain point. -/
def quiet (s : State) (c : Nat) : Bool :=
  coachPresent s c && decide ((co s c).run = .running) && (co s c).access.isEmpty && (co s c).after.isNone && (co s c).exc.isNone
/-- Event `e` is due at a processor, before and after it leaves a long operation, and nothing comes before it. -/
def eventAt (c : Nat) (k : Coach) (e : Nat) : Bool :=
  let s := onCoach c { k with bound := .drain }
  let k := landNow s c (co s c)
  let u := blkFlush (setCo s c k) c
  quiet s c && (preciseReq k).isNone && !trapDue k && decide (eventDue s c k = some e) && (co u c).exc.isNone && decide (eventDue u c (co u c) = some e) && k.long.isNone
theorem witness_events :
    eventAt 75 (setCoF (runAt 0x100) 0x002 6 1 1) 9 = true ∧ eventAt 71 { runAt 0x100 with budgetDue := true } 14 = true ∧
    eventAt 71 { runAt 0x100 with stopDue := true } 100 = true ∧
    (let s := onCoach 71 { wrCo (runAt 0x100) 0x004 1 with holdStart := some 0, cycles := 2, bound := .barred }
     quiet s 71 = true ∧ holdOver (co s 71) = true ∧ (co s 71).holdStart = some 0) ∧
    (let s := onCoach 71 { runAt 0x100 with cyc := 3, pend := [{ aResult with trap := 1 }] }
     quiet s 71 = true ∧ (co s 71).long = none ∧ (trapReq (co s 71)).isSome = true ∧ trapDue (landNow s 71 (co s 71)) = true) := by decide +kernel
/-- A coach with an exception raised, its frame at an address. -/
def raised (esp : W32) (e : Nat) : Coach := { wrCo (wrCo (runAt 0x100) 0x402 esp) 0x400 0x100 with exc := some (excReq e 1 0x100 0x100) }
theorem witness_exceptionEntry : [17, 32].all (fun e =>
    let s := onCoach 71 (raised 0x200 e)
    match (co s 71).exc with
    | some r =>
      let u := entryState s 71 r
      let esp := frameBelow (rdCo (co u 71) 0x402)
      let p := pushFrame u 71 esp (frameVals (co u 71) r 0)
      let v := vectorOf p.1 71 r.entry
      (co s 71).access.isEmpty && (trapReq (entryCoach s 71)).isNone && (preciseReq (entryCoach s 71)).isNone && !coB (co u 71) 0x40C 2 && pushOk u 71 esp && decide (p.2 = 0) && decide (v.2.2 = 0)
    | none => false) = true := by decide +kernel
theorem witness_failedEntry :
    (let s := onCoach 71 (setCoF (raised 0x200 17) 0x40C 2 1 1)
     (co s 71).access = [] ∧ entersNow s 71 (excReq 17 1 0x100 0x100) ∧ coB (co (entryState s 71 (excReq 17 1 0x100 0x100)) 71) 0x40C 2 = true) ∧
    (let s := onCoach 71 (raised 0x201 17)
     let u := entryState s 71 (excReq 17 1 0x100 0x100)
     entersNow s 71 (excReq 17 1 0x100 0x100) ∧ pushOk u 71 (frameBelow (rdCo (co u 71) 0x402)) = false) := by
  unfold entersNow;
  decide +kernel
theorem witness_holdMaxAndHeartbeat : coachPresent State.reset 71 = true ∧ slotSt State.reset 71 ≠ 2 ∧ (co State.reset 71).run ≠ .running ∧
    (co (onCoach 71 (runAt 0)) 71).run = .running ∧ slotSt (onCoach 71 (runAt 0)) 71 ≠ 2 ∧ slotSt (setSlotSt State.reset 71 2) 71 = 2 := by decide +kernel


/-! ## Witnesses: carts -/

def aCart (rsrc pred home : Nat) : Cart :=
  { bestEffort := false, steal := 1, rsrc := rsrc, fetch := true, pred := pred, home := home, entry := 0x10, wbase := 0, wsize := 0, arg0 := 0, arg1 := 0,
    ssdepth := 0, budget := 100, epoch := 5, period := 1000, scnt := 0, succ := 0, deadline := 1000, offset := 7, nsh := 0, lmax := 1, reserved := false }
def withCarts (s : State) (l : List Cart) : State :=
  { s with carts := { s.carts with table := some { epoch := 5, start := 0, carts := l, succ := [], images := [{ coach := 0, cim := 1, ldm := 0xFFFF, hold := 0, bad := false }] } } }
def aJob (v k deadline home : Nat) : Job := { cart := v, k := k, rel := 0, deadline := deadline, plost := false, stolen := false, home := home, spoiled := false }
def inService (s : State) (n : Nat) : State := setLogi s n { logi s n with lstate := 0 }
/-- 4,096 carts of one kind, homed on coach 63. -/
def fullTable (rsrc pred : Nat) : State := withCarts State.reset (List.replicate 4096 (aCart rsrc pred 63))
def homed (s : State) (v h : Nat) : Bool := match cartHome s v with | some x => x == h | none => false
theorem witness_releases :
    (let s := { fullTable 0 0 with dtime := 10 * 2007 }
     let s := { s with carts := { s.carts with nextK := tput 0 [] 4095 2 } }
     let l := setLive s 4095 true
     (releasing s && homed s 4095 63 && !cartLive s 4095 && decide (0 + 7 + tget 0 s.carts.nextK 4095 * 1000 = ticks s) && cartLive l 4095 && releasing l &&
      decide (0 + 7 + tget 0 l.carts.nextK 4095 * 1000 ≤ ticks l)) = true) ∧
    (let s := { fullTable 4 0 with dtime := 20812521 }
     let s := { s with carts := { s.carts with heldRel := tput 0 [] 4095 2008, lastRel := tput 0 [] 4095 1 } }
     let l := setLive s 4095 true
     (releasing s && admPassed s 4095 (4 - 4) 1000 && !(admPassed { s with dtime := 20812520 } 4095 0 1000) && homed s 4095 63 && !cartLive s 4095 &&
      cartLive l 4095 && admPassed l 4095 0 1000) = true) ∧
    (let g : GraphInst := { cart := 4095, left := 0, plost := true, at_ := 500, k := 3, rel := 7 }
     let s := { fullTable 1 1 with dtime := 500 }
     let s := { s with carts := { s.carts with graph := [g] } }
     releasing s = true ∧ s.carts.graph.find? (fun g => g.cart = 4095 && g.left = 0 && decide (g.at_ ≤ s.dtime)) = some g ∧ cartLive s 4095 = false ∧
     homed s 4095 63 = true) := by decide +kernel
theorem witness_withdrawn :
    let s := setQueue { fullTable 0 0 with dtime := 5001 } 63 [aJob 4095 2 500 63]
    (upto 64).find? (fun n => (queueOf s n).any (fun j => j.cart = 4095 && decide (j.deadline * 10 < s.dtime))) = some 63 ∧
    (queueOf s 63).find? (fun j => j.cart = 4095) = some (aJob 4095 2 500 63) := by decide +kernel
/-- Logical coach 63 in service on slot 70, with the coach as given and the cart 0 of a small table. -/
def cartCoach (k : Coach) : State := inService (withCarts (onCoach 70 k) [aCart 0 0 63]) 63
theorem witness_jobStart :
    (let s := setQueue (cartCoach { Coach.reset with run := .waiting, handed := true, level := 15, bound := .drain }) 63 [aJob 0 2 500 63]
     serving s 70 = some 63 ∧ queueOf s 63 = [aJob 0 2 500 63] ∧ cartOf s 0 = some (aCart 0 0 63) ∧ (co s 70).run = .waiting ∧ (co s 70).handed = true ∧
     eventDue s 70 (co s 70) = none ∧ releasing s = true ∧ (co s 70).level < 16) ∧
    (let s := setQueue (cartCoach { runAt 0x100 with handed := true, job := some (aJob 0 1 501 63), bound := .drain }) 63 [aJob 0 2 500 63]
     serving s 70 = some 63 ∧ (co s 70).run = .running ∧ ahead s (aJob 0 2 500 63) (aJob 0 1 501 63) = true ∧ atDrainPt (co s 70) = true ∧
     (co s 70).handlers = 0 ∧ (co s 70).pend.all (fun p => p.trap = 0) = true ∧ (co s 70).precise = none ∧ eventDue s 70 (co s 70) = none ∧ (co s 70).cdone = none ∧ (co s 70).handed = true ∧ releasing s = true) := by
  decide +kernel
def aFrame : Frame :=
  { pc := 0x200, g := [], p := [], n := [], v := [], acc := [], co := [], region := [], job := none, espStart := 0, fromWait := true, handlers := 0 }
theorem witness_jobEnd : [[], [aFrame]].all (fun fs =>
    let s := cartCoach { runAt 0x100 with handed := true, job := some (aJob 0 1 501 63), cdone := some false, level := fs.length, frames := fs }
    let o := cartCoach (setCoF { runAt 0x100 with handed := true, job := some (aJob 0 1 501 63), level := fs.length, frames := fs, bound := .drain } 0x504 29 1 1)
    decide (serving s 70 = some 63) && (co s 70).cdone.isSome && decide ((co s 70).run = .running) && decide (queueOf s 63 = []) &&
    (match s.carts.table with | some tt => succsAt tt 0 == [] | none => false) &&
    decide (logicalOf o 70 = some 63) && coB (co o 70) 0x504 29 && decide (coF (co o 70) 0x506 0 24 = 0) && (co o 70).access.isEmpty && (co o 70).after.isNone &&
    decide ((co o 70).run = .running) && atDrainPt (co o 70) && !(co o 70).stopDue && decide (queueOf o 63 = [])) = true := by decide +kernel
theorem witness_overrun :
    let s := cartCoach (setCoF { runAt 0x100 with job := some (aJob 0 1 501 63) } 0x506 31 1 1)
    (co s 70).job = some (aJob 0 1 501 63) ∧ coB (co s 70) 0x506 31 = true ∧ coF (co s 70) 0x506 0 24 = 0 ∧ coB (co s 70) 0x504 29 = false := by decide +kernel
theorem witness_handoverWait :
    (let s := onCoach 70 { runAt 0x100 with cdone := some false }
     let k := co s 70
     k.run = .running ∧ k.job = none ∧ k.cdone ≠ none ∧ k.access = [] ∧ k.after = none ∧ k.exc = none ∧ k.stopDue = false ∧ k.level = 0 ∧
     logicalOf s 70 = some 63 ∧ k.handed = false ∧ (drain s 70 k).handed = false ∧ (logi s 63).lstate = 3) ∧
    (let s := { onCoach 71 { Coach.reset with run := .waiting, lastBeat := 10 } with dtime := 250010 }
     (co s 71).run = .waiting ∧ (co s 71).lastBeat + 250000 = s.dtime) := by decide +kernel
theorem witness_coachStart : [0, 71, 72, 75].all (fun c =>
    let s := onCoach c { runAt 0x100 with run := .halted }
    (co s c).run != .stopped && !(co s c).stopDue && !(co s c).dead && coachPresent s c && domOn s c && decide (slotSt s c ≠ 2) && decide ((vectorOf (startedState s c) c 0).2.2 = 0)) = true := by decide +kernel
/-- Coach 63 waits, with its hitch enabled and the image of coaches 0, 62 and 63 the same. -/
def idleCoach (c : Cart) (h : Nat) : State :=
  let s := inService (withCarts (onCoach 70 { Coach.reset with run := .waiting, handed := true }) [c]) 63
  let s := [0, 62, 63].foldl (fun s n => setReg s (clImg n) 5) s
  setQueue { setRegB (setRegB s (clDctl 7) 7 true) (clDctl 7) 8 true with dtime := 1024000 } h [aJob 0 2 110000 h]
def bestCart (home : Nat) : Cart := { aCart 0 0 home with bestEffort := true, steal := 2, offset := 999 }
theorem witness_hitch :
    (let s := { idleCoach (aCart 0 0 62) 62 with dtime := 1024000 }
     let s := { s with carts := { s.carts with nextK := tput 0 [] 0 200 } }
     thiefOf s 63 = some 70 ∧ cartOf s 0 = some (aCart 0 0 62) ∧ pickSteal s 63 (ownCluster s 63) false = some (62, aJob 0 2 110000 62) ∧
     regB s (clDctl 7) 8 = true ∧ 1024 * 1000 ≤ (s.dtime - (logi s 63).lastCross) * clusterMHz s 7) ∧
    (let s := idleCoach (bestCart 0) 0
     thiefOf s 63 = some 70 ∧ cartOf s 0 = some (bestCart 0) ∧ pickSteal s 63 (ownCluster s 63) false = none ∧ regB s (clDctl 7) 8 = true ∧
     1024 * 1000 ≤ (s.dtime - (logi s 63).lastCross) * clusterMHz s 7 ∧
     pickSteal (setLogi s 63 { logi s 63 with lastCross := s.dtime }) 63 (farClusters s 63) true = some (0, aJob 0 2 110000 0)) := by decide +kernel
theorem witness_heartbeats :
    let s := { inService (onCoach 70 { wrCo (runAt 0x100) 0x500 1 with handed := true }) 63 with dtime := 1000000 }
    let o := { inService (onCoach 70 (runAt 0x100)) 63 with dtime := 1000000 }
    slotOf s 63 = some 70 ∧ (logi s 63).lstate = 0 ∧ (co s 70).run = .running ∧ (co s 70).handed = true ∧ rdCo (co s 70) 0x500 ≠ (logi s 63).lastCount ∧
    (co o 70).handed = false ∧ (logi o 63).lstate = 0 ∧ (logi o 63).lastChange + 1000000 = o.dtime := by decide +kernel

/-! ## Witnesses: failover, admission, the entry to RUN -/

def deadCoach (ep : Nat) : State := setLogi State.reset 63 { logi State.reset 63 with lstate := 1, epoch := ep, slot := 70 }
theorem witness_failover :
    (let s := deadCoach 0xFFFE
     (logi s 63).lstate = 1 ∧ (logi s 63).slot = 70 ∧ slotSt s 70 = 0 ∧ (logi s 63).epoch < 0xFFFF ∧ spareOf s 63 = some 71) ∧
    (let s := deadCoach 0xFFFF
     (logi s 63).lstate = 1 ∧ (logi s 63).slot = 70 ∧ slotSt s 70 = 0 ∧ (logi s 63).epoch ≥ 0xFFFF) ∧
    (let s := setSlotSt (deadCoach 1) 71 2
     (logi s 63).lstate = 1 ∧ (logi s 63).slot = 70 ∧ slotSt s 70 = 0 ∧ spareOf s 63 = none) := by decide +kernel
theorem witness_recommission :
    let s := setSlotSt { State.reset with carts := { State.reset.carts with recomSlot := some 71 } } 71 2
    s.carts.recomSlot = some 71 ∧ domPresent s.variant 71 = true ∧ (upto s.variant.coaches).all (fun n => decide ((logi s n).lstate ≠ 2)) = true := by decide +kernel
/-- A timetable image with one cart on coach 0 every 10 µs, whose image is number 1, under `epoch`. -/
def smallImage (epoch : Nat) : List Word :=
  [1, BitVec.ofNat 16 epoch, 0, 0, 0, 0, 1, 0, 1, 0, 0, 0, 0, 0, 0, 0] ++
  [0x10, 0, 0, 0, 0, 0, 0, 0, 100, 0, 1000, BitVec.ofNat 16 (256 * epoch), 1000, 0, 0, 0, 0, 0, 1, 0] ++ [0, 1, 0xFFFF, 0]
def imageState (img : List Word) : State :=
  { State.reset with dev := 3, fpp := { State.reset.fpp with long := some (0x4000 * 256 + 2, 5, .spi) }, carts := { State.reset.carts with image := img },
                     pwr := { State.reset.pwr with images := [(1, 1, 0, List.replicate 17 0)] } }
def failsWith (o : Option AdmFail) (r : Nat) : Bool := match o with | some e => e.reason == r | none => false
theorem witness_admission :
    (imageState (smallImage 5)).fpp.long = some (0x4000 * 256 + 2, 5, .spi) ∧ (imageState (smallImage 5)).dev = 3 ∧
    (imageState (smallImage 5)).carts.starting = false ∧ admitFailure (admitState (imageState (smallImage 5))) 5 = none ∧
    failsWith (admitFailure (admitState (imageState [])) 5) 1 = true ∧ failsWith (admitFailure (admitState (imageState (smallImage 6))) 5) 0xB = true := by decide +kernel
theorem witness_runEntry :
    let s := { withCarts (onCoach 0 { runAt 0x100 with handed := true }) [aCart 0 0 0] with dev := 3 }
    let s := { s with carts := { s.carts with starting := true } }
    s.carts.starting = true ∧ s.dev = 3 ∧
    (match s.carts.table with | some tt => (namedSlots s tt).all (fun e => (co s e.2).handed) && decide ((namedSlots s tt).length = 1) | none => false) = true := by
  decide +kernel

/-! ## Witnesses: interrupts and timers -/

/-- Source `n` enabled, at a state with a count, aimed at L3 and claimed by L3. -/
def srcAt (n st cnt cfg : Nat) : State :=
  setReg (setReg (setSrc (setReg State.reset (icScfg n) (n32 (2 ^ 31 + cfg))) n st cnt) (icStgt n) (n32 (67 * 256))) (icSclaim n) (n32 (256 + 75))
theorem witness_sourceEvents : [0, 255].all (fun n =>
    srcPresent State.reset.variant n &&
    [(0, 1 * 65536 + 9), (0, 2 * 65536), (0, 2 * 65536 + 9), (1, 3 * 65536), (2, 0)].all (fun c =>
      let s := srcAt n c.1 2 c.2
      srcEn s n && decide (srcState s n = c.1) && decide (regF s (icScfg n) 16 8 = c.2 / 65536) && decide (regF s (icScfg n) 0 16 = c.2 % 65536))) = true := by
  decide +kernel
theorem witness_signals : masterOk 107 = true ∧ srcEn State.reset 2047 = false ∧ [256, 327, 384, 1040].all (fun n =>
    srcPresent State.reset.variant n && (srcSignal State.reset n != true) && (srcSignal State.reset n == false)) = true := by decide +kernel
theorem witness_completions :
    (let s := { srcAt 2047 1 2 3 with now := 3000 }
     srcState s 2047 = 1 ∧ tget 0 s.intc.gather 2047 + 1000 * regF s (icScfg 2047) 0 16 = s.now) ∧
    (let s := srcAt 255 2 2 0
     rfld 255 0 11 = 255 ∧ srcState s 255 = 2 ∧ aimedAt s 75 255 = true) ∧
    (srcState (srcAt 255 1 2 0) (rfld 255 0 11) ≠ 2 ∧ rfld 255 0 11 ≠ 1080) ∧
    (let s := srcAt 1095 1 2 0
     srcEn s 1095 = true ∧ rbit 0x7FFFFFFF 31 = false ∧ srcPresent s.variant 1095 = true ∧ ownsClaim s (icSclaim 1095) 75 = true) := by decide +kernel
/-- Counter `k` claimed by L3, running or not, at a count. -/
def counterAt (k : Nat) (run : Bool) (cnt : W32) (ctl : Nat) : State :=
  setReg (setReg (setCount (setRegB State.reset (tmStat k) 2 run) k cnt) (tmCtl k) (n32 ctl)) (tmClaim k) (n32 (256 + 75))
theorem witness_counters :
    (let s := { counterAt 63 true 0xFFFFFFFE 7 with now := 8 }
     tmTickDue s 63 = true ∧ tmTickDue { s with now := 7 } 63 = false ∧ tmCount s 63 ≠ 0xFFFFFFFF) ∧
    (let s := { counterAt 62 true 0xFFFFFFFF 7 with now := 8 }
     let l := setReg s (tmCtl 63) (n32 (2 ^ 28))
     let r := setRegB l (tmStat 63) 2 true
     tmTickDue s 62 = true ∧ tmCount s 62 = 0xFFFFFFFF ∧ tmLink s 63 = false ∧
     tmTickDue l 62 = true ∧ tmCount l 62 = 0xFFFFFFFF ∧ tmLink l 63 = true ∧ tmRuns l 63 = false ∧
     tmTickDue r 62 = true ∧ tmCount r 62 = 0xFFFFFFFF ∧ tmLink r 63 = true ∧ tmRuns r 63 = true) ∧
    (let s := { counterAt 63 true 0xFFFFFFFF 7 with now := 8 }
     tmTickDue s 63 = true ∧ tmCount s 63 = 0xFFFFFFFF ∧ tmLink s 64 = false) := by decide +kernel
theorem witness_matches :
    (let s := setReg (counterAt 63 false 9 (2 ^ 26)) (tmCmp 63) 9
     tmEqual s 63 = true ∧ tget 0 s.timers.equal 63 = 0 ∧ tmMen s 63 = true) ∧
    (let s := setReg (counterAt 63 false 9 (2 ^ 26)) (tmCmp 63) 8
     tmEqual s 63 = false) := by decide +kernel
theorem witness_timerRegisters : [0, 63].all (fun k =>
    let s := counterAt k false 9 0
    let r := counterAt k true 9 0
    let l := setReg s (tmCmp k) 9
    ownsClaim s (tmClaim k) 75 && !tmRuns s k && !ownsClaim s (tmClaim k) 74 && tmRuns r k && ownsClaim r (tmClaim k) 75 && !tmMen s k && tmIsLate l k && !tmMen l k &&
    ownsClaim l (tmClaim k) 75) = true := by decide +kernel
theorem witness_freeze : masterOk 75 = true ∧
    (let s := setPerM (counterAt 63 true 9 0) (tmBase + 2 * (63 / 32)) 75 0x80000000
     rbit (perM s (tmBase + 2 * (63 / 32)) 75) (63 % 32) = true ∧ ownsClaim s (tmClaim 63) 75 = true ∧ tmRuns s 63 ≠ false ∧
     rbit (perM s (tmBase + 2 * (62 / 32)) 75) (62 % 32) = false ∧ ownsClaim s (tmClaim 62) 75 = false) := by decide +kernel

/-! ## Witnesses: memories and stored-data protection -/

def withMem (s : State) (f : Mem → Mem) : State := { s with mem := f s.mem }
/-- The line at place key 4 lk with one wrong bit. -/
def flipped (s : State) (lk : Nat) : State := withMem s (fun m => { m with data := tput 0 m.data (4 * lk) 1 })
/-- The last line of lead memory 3. -/
def lastLine : Nat := wordKey 2 3 0x7FFFC / 4
/-- The last line of lead memory 3's bank 0, which has two ports. -/
def dualLine : Nat := wordKey 2 3 0x3FFC / 4
theorem witness_wholeLine :
    (lineGet State.reset lastLine).st = 0 ∧ injLine State.reset ≠ some lastLine ∧ (2 : Nat) ^ 64 - 1 < 2 ^ 64 := by decide +kernel
theorem witness_narrowWrite :
    mergeFind State.reset dualLine = none ∧ (mergeOf State.reset (portKey (bankKeyOf (4 * dualLine)) true)).length < 4 ∧
    (let s := narrowWrite State.reset (portKey (bankKeyOf (4 * dualLine)) false) dualLine 2 2 0xFFFF0001 75
     mergeFind s dualLine ≠ none) := by decide +kernel
/-- Lead coach 75 waits with a load of its memory at bank 0. -/
def atBank (n : Nat) : State :=
  let po := portKey (bankKey 2 3 0) false
  withMem (onCoach 75 { runAt 0x100 with access := [{ ld := 1, kind := .load, addr := 0x3FFC, n := 4, data := 0, dst := 1, sx := false, due := 4, resp := none, refused := 0 }] })
    (fun m => { m with ports := tput [] [] po [{ master := 74, ld := 0, refusals := 0 }, { master := 75, ld := 1, refusals := n }] })
theorem witness_bankCycle :
    let p : PortId := { kind := 2, inst := 3, bank := 0, portB := false }
    let po := portOfId p
    let u := refuseOthers (atBank 0) po (portPick (atBank 0) po)
    portOk p = true ∧ bankExists (atBank 0) 2 3 0 = true ∧
    (let s := withMem (atBank 0) (fun m => { m with march := some { pres := false, kind := 2, inst := 3, bank := 0, slot := false, row := 0, fails := 0, firstFail := 0, unrepaired := false } })
     (s.mem.recon.any (fun r => r.bank = po / 2) || marchHolds s (po / 2)) = true) ∧
    ((atBank 0).mem.recon.any (fun r => r.bank = po / 2) || marchHolds (atBank 0) (po / 2)) = false ∧
    (atBank 0).mem.writeBack.any (fun e => e.1 = po / 2) = false ∧ portPick (atBank 0) po = some { master := 75, ld := 1, refusals := 0 } ∧
    (match waiting u 75 1 with
     | some a => decide (route u 75 a.addr = .bank 2 3 0x3FFC true) && bankUp u 2 3 0x3FFC && decide ((bankAccess (noteRefused u 75 1 0) po a.kind (wordKey 2 3 0x3FFC) a.n a.data 75).code ≠ 99)
     | none => false) = true := by decide +kernel
theorem witness_writeOut :
    let p : PortId := { kind := 2, inst := 3, bank := 31, portB := true }
    let po := portOfId p
    let s := { narrowWrite (narrowWrite State.reset po lastLine 0 2 0xFFFF0001 75) po lastLine 2 2 7 75 with now := 5 }
    let i := { narrowWrite State.reset po lastLine 0 2 0xFFFF0001 75 with now := 17 }
    let pick (s : State) := minBy (fun e => [if e.mask = 15 then 0 else 1, e.stamp]) ((mergeOf s po).filter (fun e => e.mask = 15 || entryIdle s po e))
    portOk p = true ∧ bankExists s p.kind p.inst p.bank = true ∧
    [s, i].all (fun s => freeCycle s po && (match pick s with
      | some e => decide (e.line = lastLine) && decide ((lineGet s e.line).st = 0) && decide (mergeBad e = 0) && decide (injLine s ≠ some e.line)
      | none => false)) = true ∧ pick { i with now := 16 } = none := by decide +kernel
theorem witness_corrections :
    instOk 2 3 = true ∧
    (let s := withMem (flipped State.reset lastLine) (fun m => { m with writeBack := [(bankKey 2 3 31, lastLine)] })
     s.mem.writeBack.find? (fun e => e.1 = bankKey 2 3 31) = some (bankKey 2 3 31, lastLine) ∧ (lineGet s lastLine).st = 1) ∧
    (let r : Recon := { bank := bankKey 2 3 31, page := lastLine / 64, req := none, port := { kind := 2, inst := 3, bank := 31, portB := false } }
     let s := withMem State.reset (fun m => { m with recon := [r] })
     s.mem.recon.find? (fun r => r.bank = bankKey 2 3 31) = some r ∧ r.req = none) ∧
    injLine State.reset ≠ some lastLine ∧ State.reset.carts.table = none := by decide +kernel
theorem witness_remap : [3, 4].all (fun n =>
    let lk := instKey 2 3 * 2 ^ 30 + 0x1FFFF
    let bk := bankKey 2 3 (bankKeyOf (4 * lk) % 256)
    let s := withMem State.reset (fun m => { m with corr := [{ line := lk, pass := 0, count := 3 }], spares := tput 0 [] bk n })
    instOk 2 3 && s.mem.corr.any (fun e => e.line = lk && decide (e.count ≥ 3)) &&
    decide (bk = bankKeyOf (4 * lk)) && decide (s.mem.pendFix.length < 64) &&
    decide (nextSpare s 2 bk = if n = 3 then some 3 else none)) = true := by decide +kernel
/-- The scrubber of lead memory 3 at a page and line, its interval 1. -/
def scrubAt (page line : Nat) (active : Bool) : State :=
  setScrub { setReg State.reset (scbInt 2) 0x10001 with now := 15625 } 2 3 { scrubReset with page := page, line := line, active := active }
theorem witness_scrub :
    instOk 2 3 = true ∧
    (let s := scrubAt 2047 0 false
     let b := scrubOf s (instKey 2 3)
     regB s (scbInt 2) 16 = true ∧ bankExists s 2 3 0 = true ∧ b.started + regF s (scbInt 2) 0 16 * 15625 = s.now ∧ b.active = false ∧
     scrubFrom (setRegF s (pwrDom (memDomain 2 3 0)) 8 2 2) 2 3 2047 = some 2047 ∧ b.page = 2047 ∧
     scrubFrom s 2 3 2047 = some 2047) ∧
    (let s := scrubAt 2047 63 true
     let b := scrubOf s (instKey 2 3)
     let lk := scrubPage s 2 3 b.page * 64 + b.line % 64
     b.active = true ∧ b.line < 64 ∧ scrubbable s 2 3 b.page = true ∧ dueOut s (portOf (keyKind (4 * lk)) (keyInst (4 * lk)) (keyOff (4 * lk)) 104 false) = none ∧ regB s (scbInt 2) 16 = true ∧ b.started + regF s (scbInt 2) 0 16 * 15625 ≤ s.now ∧
     freeCycle s (portOf (keyKind (4 * lk)) (keyInst (4 * lk)) (keyOff (4 * lk)) 104 false) = true ∧ mergeFind s lk = none ∧ (lineGet s lk).st = 0) := by
  decide +kernel
def marching (pres : Bool) (row : Nat) : State :=
  withMem State.reset (fun m => { m with march := some { pres := pres, kind := 2, inst := 3, bank := 31, slot := false, row := row, fails := 0, firstFail := 0, unrepaired := false } })
theorem witness_march :
    (let s := { setReg State.reset mtCtl (n32 (2 ^ 31 + 2 * 2 ^ 21 + 3 * 2 ^ 14 + 31 * 2 ^ 7)) with dev := 3 }
     regB s mtCtl 31 = true ∧ s.mem.march = none ∧ regB s mtCtl 29 = false ∧ s.dev = 3 ∧ regF s mtCtl 21 4 = 2 ∧ regF s mtCtl 14 7 = 3 ∧ regF s mtCtl 7 7 = 31 ∧
     bankExists s 2 3 31 = true) ∧
    (match (marching true 511).mem.march with | some m => m.pres && decide (m.row < marchRows m) | none => false) = true ∧
    (match (marching true 512).mem.march with | some m => m.pres && decide (marchRows m ≤ m.row) | none => false) = true ∧
    (match (marching false 0).mem.march with | some m => !m.pres && !m.slot | none => false) = true := by decide +kernel
theorem witness_fuses :
    (let s := withMem { State.reset with dev := 3 } (fun m => { m with pendFix := [rowEntry 2 3 31 0 0], fieldFuse := List.replicate 255 0 })
     s.dev = 3 ∧ s.mem.fusing = false ∧ s.mem.pendFix ≠ [] ∧ s.mem.fieldFuse.length < 256) ∧
    State.reset.mem.fusing = false ∧ State.reset.dev ≠ 3 ∧
    (withMem State.reset (fun m => { m with fusing := true, pendFix := [1] })).mem.fusing = true := by decide +kernel
def aRec : ErrRec := { time := 5, cls := 2, kind := 2, inst := 3, master := 75, detail := 1, addr := 0x3FFC }
theorem witness_errorLog : masterOk 75 = true ∧ [511, 512].all (fun h =>
    let s := { withMem State.reset (fun m => { m with intake := [aRec], held := h, nextLog := 64 }) with now := 64 }
    decide (s.mem.intake = [aRec]) && decide (s.mem.nextLog ≤ s.now) && errNoneLost s && decide (rfld (n32 (511 * 2 ^ 19)) 19 9 = 511) &&
    (let n := rfld (n32 (511 * 2 ^ 19)) 19 9
     let d := if n = logHead s then s.mem.held else (n + 512 - logTail s) % 512
     decide (d ≤ s.mem.held))) = true ∧
    (let s := withMem State.reset (fun m => { m with held := 2, nextLog := 64 })
     s.now < s.mem.nextLog ∧ s.mem.held < (3 + 512 - logTail s) % 512 ∧ 3 ≠ logHead s) := by decide +kernel
theorem witness_regions : masterOk 75 = true ∧ rfld (0x5 : W32) 1 2 ≠ 3 ∧ memRB 75 6 + 2 * 1 = 0x04080000 + 64 * 75 + 8 * 6 + 2 := by decide +kernel
theorem witness_loadPort :
    (let s := setReg (setReg (setRegF State.reset (pwrDom 71) 8 2 2) lpCtl 71) lpAddr 0x7FF8
     lpBusy s = false ∧ domOn s (regF s lpCtl 0 7) = true ∧ (reg s lpAddr).toNat < (if regB s lpCtl 8 then 0x20000 else 0x8000)) ∧
    (let s := setReg (setRegF State.reset (pwrDom 71) 8 2 2) lpAddr 0x1FFF8
     let v : W32 := n32 (71 + 256 + 512)
     lpBusy s = false ∧ rbit v 9 = true ∧ rfld v 0 7 < 72 ∧ domOn s (rfld v 0 7) = true ∧ (reg s lpAddr).toNat < (if rbit v 8 then 0x20000 else 0x8000)) ∧
    [0x8000, 0x8200].all (fun x => lpBusy (setReg State.reset lpCtl (n32 x)) && (regB (setReg State.reset lpCtl (n32 x)) lpCtl 9 == decide (x = 0x8200))) = true := by
  decide +kernel
theorem witness_dramParks :
    (let s := setReg State.reset dctl 1
     regB s dctl 0 = true ∧ dramParked s = false) ∧
    (let s := withMem State.reset (fun m => { m with parking := true })
     s.mem.parking = true) ∧
    (let s := { setReg State.reset dctl 0x20000 with now := 1000005, bb := { State.reset.bb with dipRelease := 5 } }
     regB s dctl 17 = true ∧ regB s dctl 0 = false ∧ s.bb.pfail = false ∧ s.bb.dipRelease + 1000000 = s.now) := by decide +kernel

/-! ## Witnesses: claims, stores, the sample fabric -/

def withRegs (s : State) (l : List (Nat × Nat)) : State := l.foldl (fun s e => setReg s e.1 (n32 e.2)) s
theorem witness_claims : masterOk 75 = true ∧
    (match regInfo State.reset.variant (tmClaim 63) with | some i => i.isClaim | none => false) = true ∧ tmClaim 63 < 2 ^ 32 ∧
    claimHeld State.reset (tmClaim 63) = false ∧
    (let s := counterAt 63 false 0 0
     claimHeld s (tmClaim 63) = true ∧ claimId s (tmClaim 63) = 75 ∧ claimBusy s (tmClaim 63) = false) ∧
    claimBusy (counterAt 63 true 0 0) (tmClaim 63) = true := by decide +kernel
theorem witness_stores :
    [scbInt 0, scbInt 5, scbStat].all (fun a => decide (a / 0x10000 = 0x40A) && (match regInfo State.reset.variant a with | some _ => true | none => false) &&
      (sysReserved State.reset a 0x10001 == [])) = true ∧
    [0, 3].all (fun c =>
      let n := 1025 + 2 * c
      let s := setReg State.reset (icScfg n) (n32 (2 ^ 31 + 2 * 2 ^ 28 + 65536))
      !srcSignal s n && srcEn s n && decide (srcSense s n = 2) && decide (srcState s n = 0) && decide (regF s (icScfg n) 16 8 = 1) && !srcEn State.reset n) = true := by
  decide +kernel
/-- Media clocks 0 and 3 run free, LOCKED at 48 kHz; TDM port 0 is on, a master or a slave of clock 0, with two slots each way. -/
def mediaState (master : Bool) : State :=
  withRegs (setRegF State.reset (pwrDom 132) 8 2 2)
    [(mcCtl 0, 2 ^ 31 + 2 ^ 25), (mcStat 0, 2 ^ 31), (mcCtl 3, 2 ^ 31 + 2 ^ 25), (mcStat 3, 2 ^ 31), (mcClaim 3, 256 + 75),
     (apCtl 0, 2 ^ 31 + b2n master * 2 ^ 30), (apFmt 0, 2 ^ 25 + 2 ^ 20 + 2 ^ 23), (apRxen 0, 3), (apTxen 0, 3), (apClaim 0, 256 + 75)]
theorem witness_sampleEdge :
    (let s := setClk { mediaState true with now := 20811 } 0 { clk0 with edge := 1, count := 2 ^ 64 - 1 }
     let u := setReg s (mcCtl 0) (n32 (2 ^ 31 + 2 ^ 28 + 2 ^ 25))
     mcState s 0 ≠ 0 ∧ edgeTooSoon s 0 = true ∧ edgeTooSoon { s with now := 20812 } 0 = false ∧ onGrid u 0 = true ∧ mcState u 0 ≠ 0 ∧
     apOn s 0 = true ∧ apMaster s 0 = true ∧ apMc s 0 = 0) ∧ mcState State.reset 3 = 0 := by decide +kernel
theorem witness_mediaClocks : masterOk 75 = true ∧ ownsClaim (mediaState true) (mcClaim 3) 75 = true ∧
    (let s := withRegs State.reset [(mcClaim 3, 256 + 75)]
     [2 ^ 31, 2 ^ 31 + 2 ^ 28, 2 ^ 31 + 4 * 2 ^ 28].all (fun v => !mcOn s 3 && rbit (n32 v) 31 && !mcPinBad s 75 3 (reg (storePlain s 75 (mcCtl 3) (n32 v)) (mcCtl 3)))) = true ∧
    (let s := mediaState true
     mcOn s 3 = true ∧ rbit (n32 (2 ^ 25)) 31 = false ∧ (reg s (mcCtl 3) ^^^ n32 (2 ^ 25)) &&& 0x7FFF07FF = 0 ∧ mcNamed s 3 = false) ∧
    (let s := setReg (mediaState true) (apCtl 0) (n32 (2 ^ 31 + 3 * 2 ^ 28))
     mcOn s 3 = true ∧ (reg s (mcCtl 3) ^^^ n32 (2 ^ 25)) &&& 0x7FFF07FF = 0 ∧ mcNamed s 3 = true) := by decide +kernel
theorem witness_reference :
    (let s := withRegs State.reset [(mcCtl 3, 2 ^ 31 + 2 ^ 28), (mcStat 3, 2 ^ 30)]
     mcSrc s 3 ≠ 0 ∧ mcState s 3 = 1 ∧
     (clk { s with now := 40000000000 } 3).steadySince + (match regF s (mcCtl 3) 23 2 with | 0 => 40000000000 | 1 => 4000000000 | _ => 400000000) ≤ 40000000000) ∧
    mcState (withRegs State.reset [(mcCtl 3, 2 ^ 31 + 2 ^ 28), (mcStat 3, 3 * 2 ^ 30)]) 3 = 3 := by decide +kernel
def withMedia (s : State) (f : Media → Media) : State := { s with media := f s.media }
theorem witness_frames :
    (let s := withMedia (mediaState false) (fun m => { m with lastSync := tput 0 [] 0 9 })
     apOn s 0 = true ∧ apMaster s 0 = false ∧ regB s (apStat 0) 30 = false ∧ mcState s (apMc s 0) ≠ 0 ∧ tget 0 s.media.lastSync 0 = 9) ∧
    (let s := setClk (mediaState false) 0 { clk0 with edge := 1, count := 9 }
     syncFits s 0 false 9 = true ∧ syncFits { s with now := 6000 } 0 true 9 = true) ∧
    begunOf (setBegun (mediaState true) 0 [7, 8]) 0 = 7 :: [8] ∧
    (let s := withRegs (mediaState false) [(apStat 0, 2 ^ 30)]
     apOn s 0 = true ∧ regB s (apStat 0) 30 = true) := by decide +kernel
theorem witness_ports : 0 < State.reset.variant.tdmPorts ∧
    (let s := withRegs (mediaState true) [(apCtl 0, 0)]
     ownsClaim s (apClaim 0) 75 = true ∧ apOn s 0 = false ∧ rbit (n32 (2 ^ 31)) 31 = true ∧ domOn s (132 + 0 / 4) = true ∧
     (let v := n32 (2 ^ 25 + 2 ^ 20 + 2 ^ 23)
      fmtLimits s 0 (reg (storePlain s 75 (apFmt 0) v) (apFmt 0)) = true ∧ sysReserved s (apFmt 0) v.toNat = []) ∧
     (let v := n32 (7 * 2 ^ 25 + 2 ^ 20 + 2 ^ 23)
      fmtLimits s 0 (reg (storePlain s 75 (apFmt 0) v) (apFmt 0)) = false)) ∧
    (let s := mediaState true
     let v := n32 (2 ^ 30)
     apOn s 0 = true ∧ rbit v 31 = false ∧ (reg s (apCtl 0) ^^^ v) &&& 0x70000000 = 0 ∧ apNamed s 0 = false ∧ ownsClaim s (apClaim 0) 75 = true) ∧
    (let s := withRegs (mediaState true) [(pdmClaim 7, 256 + 75)]
     let v := n32 (2 ^ 31 + 3 * 2 ^ 29 + 2 ^ 28)
     ownsClaim s (pdmClaim 7) 75 = true ∧ clockHz s (rfld v 29 2) = 48000 ∧ rbit v 28 = true ∧ regB s (pdmCtl 7) 31 = false ∧ ownsClaim s (pdmClaim 7) 74 = false) := by
  decide +kernel
theorem witness_pins :
    apMaster (mediaState false) 0 = false ∧
    (let s := withRegs (mediaState true) [(apCtl 0, 2 ^ 30)]
     apMaster s 0 = true ∧ apOn s 0 = false ∧ pdmOn s 0 = false) ∧
    (let s := withMedia (mediaState true) (fun m => { m with out := tput 0 [] 1 (n32 (2 ^ 31)) })
     let first := 0 + apSlotBits s 0
     let last := apFrameBits s 0 - 1
     apMaster s 0 = true ∧ apOn s 0 = true ∧ first % apFrameBits s 0 / apSlotBits s 0 = 1 ∧ last / apSlotBits s 0 = 1 ∧ regB s (apTxen 0) 1 = true ∧
     0 % apSlotBits s 0 < apWordBits s 0 ∧ apWordBits s 0 ≤ last % apSlotBits s 0 ∧
     doutPin s 0 (first + 1) = .high ∧ doutPin s 0 (last + 1) = .low ∧
     (let u := withRegs s [(apTxen 0, 0)]
      regB u (apTxen 0) 1 = false ∧ doutPin u 0 (first + 1) = .low)) := by decide +kernel
/-- ASRC stream 63 of engine 0 claimed by L3, with control word `ctl`, read by wagon 63 of engine 14 into port 0. -/
def asrcState (ctl stat : Nat) : State :=
  withRegs (mediaState true) [(asClaim 0 63, 256 + 75), (asCtl 0 63, ctl), (asStat 0 63, stat), (seDesc 14 63 0, 2 ^ 31 + 4 * 2 ^ 28 + 2 ^ 25), (seDesc 14 63 1, 63 * 2 ^ 20 + 16)]
theorem witness_asrc : masterOk 75 = true ∧ 0 < State.reset.variant.asrcEngines ∧
    (let s := asrcState 0 0
     let v := n32 (2 ^ 31 + 2 ^ 26 + 1023)
     ownsClaim s (asClaim 0 63) 75 = true ∧ asOn s 63 = false ∧ rbit v 31 = true ∧ asFits (storePlain s 75 (asCtl 0 63) v) 63 = true ∧
     (n32 1966080).toNat * 100 = 4096 * asHzOut s 63 ∧ 4096 * asHzOut s 63 < (n32 1966081).toNat * 100) ∧
    (let s := asrcState (2 ^ 31 + 2 ^ 26) 0
     let r := 536870912 * 1001 / 1000
     let w := withMedia s (fun m => { m with asrcInTo := tput 0 [] 63 (10 ^ 9) })
     asOn s 63 = true ∧ asLocked s 63 = false ∧ tget 0 { s with now := 10 ^ 9 - 1 }.media.asrcSteady 63 + 10 ^ 9 ≤ { s with now := 10 ^ 9 - 1 }.now + 1 ∧ 1000 * (r * asHzIn s 63) ≤ 1001 * (2 ^ 29 * asHzOut s 63) ∧ 999 * (2 ^ 29 * asHzOut s 63) ≤ 1000 * (r * asHzIn s 63) ∧
     asLocked (asrcState (2 ^ 31 + 2 ^ 26) (2 ^ 31)) 63 = true ∧ asReader w 63 = some (14, 63) ∧ tget 0 w.media.asrcInTo 63 ≠ 0 ∧
     0 ≤ stampDiff ((tget 0 w.media.asrcInTo 63 - 1 : Nat) : Int)
       (mtEst w (asMc w 63) ((0 + 1 - 1 : Nat) : Int) - (((reg w (asDelay 0 63)).toNat * 62500000 / asHzOut w 63 : Nat) : Int) +
         ((asTaps w 63 * 128000000000 / asHzIn w 63 : Nat) : Int))) := by decide +kernel
theorem witness_express :
    let f (c : Nat) : RxFrame := { count := c, absent := false, slots := [] }
    let s := withMedia State.reset (fun m => { m with xOn := true, lastCap := tput 0 [] 255 64, rx := tput (f 0) (tput (f 0) [] (255 * 64 + 62) (f 62)) (255 * 64 + 63) (f 63), xPair := 62 })
    s.media.xOn = true ∧ valN s 0x6140 1 0xFF = 255 ∧ tget 0 s.media.lastCap 255 = 62 + 2 ∧ s.media.xPair ≤ 62 ∧ rxAt s 255 62 = some (f 62) ∧ rxAt s 255 63 = some (f 63) ∧
    (withMedia s (fun m => { m with xOwed := some 62 })).media.xOwed = some 62 := by decide +kernel
/-- Wagon 63 of engine 14, PORT 0 to PORT 0 on clock 0, 2 channels of 4 samples, claimed by L3. -/
def wagonState (en : Bool) (pdelay : Nat) : State :=
  withRegs (mediaState true) [(seDesc 14 63 0, b2n en * 2 ^ 31 + 2 ^ 28 + 2 ^ 25), (seDesc 14 63 1, 16), (seDesc 14 63 2, 16), (seDesc 14 63 3, 2 ^ 22 + 3 * 2 ^ 11),
    (seDesc 14 63 4, pdelay * 2 ^ 16 + 1), (seClaim 14 63, 256 + 75)]
theorem witness_wagonEnable : masterOk 75 = true ∧
    (let s := wagonState false 8
     let v := n32 (2 ^ 31 + 2 ^ 28 + 2 ^ 25)
     let u := grantRegions (storePlain s 75 (seDesc 14 63 0) v) (seMaster 14) (engineBits (storePlain s 75 (seDesc 14 63 0) v) 14)
     wagTaken s 14 63 = false ∧ ownsClaim s (seClaim 14 63) 75 = true ∧ regB s (seDesc 14 63 0) 31 = false ∧ rbit v 31 = true ∧ sysReserved s (seDesc 14 63 0) v.toNat = [] ∧ wagonOk u 14 63 (wagOf u 14 63) = true ∧
     (let v := n32 (2 ^ 31 + 2 ^ 28)
      let u := grantRegions (storePlain s 75 (seDesc 14 63 0) v) (seMaster 14) (engineBits (storePlain s 75 (seDesc 14 63 0) v) 14)
      wagonOk u 14 63 (wagOf u 14 63) = false)) ∧
    (let s := wagonState true 8
     regB s (seDesc 14 63 0) 31 = true ∧ wagTaken s 14 63 = false ∧ ownsClaim s (seClaim 14 63) 75 = true ∧ ownsClaim s (seClaim 14 63) 74 = false) := by decide +kernel
/-- The wagon runs at block 0, its frames as given. -/
def wagonRun (pdelay : Nat) (st : Nat) (late : List Nat) (absent : Bool) (counts : List Nat) : State :=
  let s := withCarts (wagonState true pdelay) [aCart 0 0 0]
  setWag (counts.foldl (fun s c => setRx s 0 c { count := c, absent := absent, slots := [1, 2] }) s) 14 63 { wag0 with st := st, late := late, live := true }
theorem witness_wagonMoves :
    (let s := wagonRun 1000 0 [] false [0, 1, 2, 3]
     let d := wagOf s 14 63
     wagonRuns s 14 63 d = true ∧ startPassed s d 0 = false ∧ srcReady s 14 d 0 = true) ∧
    (let s := wagonRun 1000 2 [0] false [0, 1, 2, 3]
     let d := wagOf s 14 63
     wagonRuns s 14 63 d = true ∧ (wagRun s 14 63).st ≠ 0 ∧ (wagRun s 14 63).late.filter (srcReady s 14 d) = [0]) ∧
    (let s := wagonRun 0 0 [] false [0, 1, 2]
     let d := wagOf s 14 63
     wagonRuns s 14 63 d = true ∧ srcReady s 14 d 0 = false ∧ startPassed s d 0 = true) ∧
    (let s := wagonRun 1000 0 [] true [3]
     let d := wagOf s 14 63
     wagonRuns s 14 63 d = true ∧ srcReady s 14 d 0 = false ∧ srcLost s d 0 = true ∧ startPassed s d 0 = false) ∧
    (let s := wagonRun 1000 1 [] false [0, 1, 2, 3]
     minBy (fun e => [(dueIn s (wagOf s 14 e.2) (wagRun s 14 e.2).block + 2 ^ 80).toNat, e.2])
       (((enWagons s).filter (fun e => e.1 = 14)).filter (fun e => wagonRuns s 14 e.2 (wagOf s 14 e.2) && (wagRun s 14 e.2).st ≠ 0)) = some (14, 63) ∧
     (wagOf s 14 63).dstk = 1 ∧ (wagRun s 14 63).line + 1 < cdiv ((wagOf s 14 63).nch * (wagOf s 14 63).bs) 4) := by decide +kernel

/-! ## Witnesses: network and gPTP -/

/-- Port 0 is on with its link up, its DMA has its regions, the GSM is on; domain 0 at `t` ns. -/
def netState (t : Nat) : State :=
  { grantRegions (withRegs (setRegF (setRegF State.reset (pwrDom 126) 8 2 2) (pwrDom 116) 8 2 2) [(ethBase 0, 2 ^ 31), (ethStat 0, 2 ^ 31), (ethClaim 0, 256 + 75), (ethBase 0 + 8, 0x0A000001)]) 96 7
    with dtime := t, now := t }
def aFrameOf (len tags : Nat) (ok pause : Bool) (b : FrameBody) : EthFrame :=
  { length := len, fcsOk := ok, vlanTags := tags, vid := 2, pause := pause, srcMac := 0x1122, dstMac := 0x3344, body := b }
theorem witness_framesChecked :
    let s := netState 0
    ethOn s 0 = true ∧ ethLink s 0 = true ∧ ethIp s 0 ≠ 0 ∧ ethIp s 0 = 0x0A000001 ∧ (queueAt s 0 0).length < 32 ∧
    (let f := aFrameOf 1522 1 true false (.arpRequest 0x0A000001 5)
     ¬ 1518 + (if f.vlanTags = 0 then 0 else 4) < f.length ∧ 64 ≤ f.length ∧ f.vlanTags ≤ 1 ∧ f.pause = false) ∧
    (let f := aFrameOf 1519 0 true false .other
     1518 + (if f.vlanTags = 0 then 0 else 4) < f.length) ∧
    (aFrameOf 63 0 true false .other).length < 64 ∧ (aFrameOf 64 0 false false .other).fcsOk = false ∧ (aFrameOf 64 0 true true .other).pause = true ∧
    1 < (aFrameOf 64 2 true false .other).vlanTags := by decide +kernel
/-- Context descriptor words. -/
def withCtx (s : State) (x : Nat) (l : List (Nat × Nat)) (c : Ctx) : State := setCtx (l.foldl (fun s e => setCtxW s x e.1 (n32 e.2)) s) x c
def crfListener (st : Nat) (p q : Option Partner) : State :=
  withCtx (netState (10 ^ 9)) 1023 [(0, 2 ^ 31 + 2 ^ 28 + 2 ^ 17 + 95 * 2 ^ 9), (2, 7), (4, 2)] { ctx0 with state := st, partner := p, prev := q }
def aCrf (kind : Nat) : CrfPacket :=
  { streamId := 7, version := 0, sv := true, kind := kind, pull := 0, baseFreq := 48000, interval := 96, seqNum := 255, timestamps := [5] }
def partnerA : Partner := { addr := 0x1122, port := 0, ssrc := 0 }
def partnerB : Partner := { addr := 0x9999, port := 0, ssrc := 0 }
theorem witness_crfListener : [(2, some partnerA, none), (2, some partnerB, some partnerA), (2, some partnerB, none), (1, none, none), (3, some partnerA, none)].all (fun e =>
    let s := crfListener e.1 e.2.1 e.2.2
    ethOn s 0 && ethLink s 0 && decide (avtpCtx s 0 2 7 = some 1023) && decide (ctxProto s 1023 = 1) && decide ((ctxOf s 1023).state = e.1) && decide (ctxHz s 1023 = 48000) &&
    decide (ctxSpp s 1023 = 96) && decide (ctxNch s 1023 = 1) && !ctxFilt s 1023) = true ∧ (aCrf 1).timestamps.length = 1 ∧ (aCrf 0).kind ≠ 1 := by decide +kernel
def aafListener : State :=
  withCtx (netState (10 ^ 9)) 1023 [(0, 2 ^ 31 + 8 * 2 ^ 20 + 2 ^ 17 + 5 * 2 ^ 9), (2, 7), (4, 2), (6, 0x02000000), (7, 255 * 2 ^ 24)] { ctx0 with state := 2, partner := some partnerA }
def anAaf (ts : Nat) : AafPacket :=
  { streamId := 7, version := 0, sv := true, tv := true, mr := false, tu := false, format := 4, nsr := 5, channels := 1, bitDepth := 16, seqNum := 0, timestamp := ts,
    payload := List.replicate 12 0 }
theorem witness_aafListener :
    let s := aafListener
    let u := seqGap (flagCount (ethCount s 0 0) 1023 false false) 1023 256 0
    let arr := arrivalIn u 0 1023
    let fault (ts : Nat) : Option Nat :=
      let mt := (arr + sx 32 (wrapN 32 ((ts : Int) - arr)) - (ctxPoff s 1023 * 1000 : Nat)).toNat
      placeFault u 1023 arr { n := (2 * mt * ctxHz s 1023 + 10 ^ 9) / (2 * 10 ^ 9), t := 256 * mt, payload := (anAaf ts).payload }
    avtpCtx s 0 2 7 = some 1023 ∧ ctxProto s 1023 = 0 ∧ aafFormat (ctxFmt s 1023) = 4 ∧ 4 + ctxF s 1023 0 17 3 = 5 ∧ ctxNch s 1023 = 1 ∧ aafDepth (ctxFmt s 1023) = 16 ∧
    ctxBytes s 1023 = 12 ∧ (ctxOf s 1023).state = 2 ∧ (ctxOf s 1023).partner = some partnerA ∧ fault (10 ^ 9) = some 1 ∧ fault (10 ^ 9 + 1000000) = none ∧
    fault (10 ^ 9 + 100000000) = some 2 := by decide +kernel
theorem witness_listenerLost :
    let s := setReg (setReg (crfListener 2 (some partnerA) none) (mcCtl 3) (n32 (2 ^ 31 + 6 * 2 ^ 28 + 1023))) (mcStat 3) (n32 (2 ^ 30))
    ctxEn s 1023 = true ∧ isTalker 1023 = false ∧ (ctxOf s 1023).state = 2 ∧ (ctxOf s 1023).lastArrival + 3 * ctxTp s 1023 ≤ s.now ∧ 3 * ctxTp s 1023 = 6000000 ∧
    (s.bb.ready && s.bb.header.state = 2) = false ∧ s.bb.intake.length < 32 ∧ bbNoneLost s = true ∧ mcOn s 3 = true ∧ mcSrc s 3 = 6 ∧ regF s (mcCtl 3) 0 11 = 1023 ∧
    mcState s 3 = 1 := by decide +kernel
/-- Talker 2047 of a protocol on clock 3, locked to domain 0, LAT 1,000 µs. -/
def talkerState (proto : Nat) (link : Bool) : State :=
  withCtx (withRegs (netState 1000000) [(ethStat 0, b2n link * 2 ^ 31), (mcCtl 3, 2 ^ 31 + 2 ^ 28 + 2 ^ 25), (mcStat 3, 2 ^ 31)]) 2047
    [(0, 2 ^ 31 + proto * 2 ^ 28 + (if proto = 1 then 0 else 8) * 2 ^ 20 + 2 ^ 17 + 5 * 2 ^ 9), (6, 0x02000000), (7, 255 * 2 ^ 24 + 3 * 2 ^ 19)] { ctx0 with state := 4 }
theorem witness_talker : [0, 1].all (fun p => [true, false].all (fun l =>
    let s := talkerState p l
    ctxEn s 2047 && isTalker 2047 && decide ((ctxOf s 2047).state = 4) && launchDue s 2047 (ctxOf s 2047).nextN && !(launchDue { s with dtime := 999999 } 2047 0) &&
    decide (ctxProto s 2047 = p) && decide ((queueAt s 0 (ctxF s 2047 7 21 3)).length < 32) && (ethLink s 0 == l) && zeroFed s 2047 && (let r := withCarts s [aCart 0 0 0]
      !zeroFed r 2047 && launchDue r 2047 (ctxOf r 2047).nextN && !(slotHolds r (ethMaster 0) 2047 (ctxOf r 2047).nextN)))) = true := by
  decide +kernel
theorem witness_framesSent :
    let f : TxFrame := { length := 84, what := .arpReply 5, payload := [] }
    let s := setQueueAt (netState 5) 0 7 [f, f]
    let u := (upto 8).foldl (fun s q => dropBig s 0 q) (creditsNow s 0)
    ethOn s 0 = true ∧ ethLink s 0 = true ∧ tget 0 s.net.lineFree 0 ≤ s.now ∧ nextFrame u 0 = some (7, f, [f]) ∧
    ({ s with net := { s.net with mdio := some (n32 (2 ^ 31)) } } : State).net.mdio = some (n32 (2 ^ 31)) ∧ rfld (n32 (2 ^ 31)) 30 2 = 2 := by decide +kernel
/-- Gates of port 0 with one or two entries of 100 ns in a cycle of 200 ns. -/
def gateState (n : Nat) (t idx : Nat) : State :=
  let s := withRegs (netState t) [(ethGctl 0, 2 ^ 31 + n), (gclBase 0 false, 0xFF000064), (gclBase 0 false + 2, 0x01000064), (gclBase 0 true, 0xFF000064), (ethBase 0 + 0x22, 200)]
  { s with net := { s.net with gateLen := tput 0 [] 0 n, gateSpan := tput 0 [] 0 200, gateIdx := tput 0 [] 0 idx } }
theorem witness_gates : masterOk 75 = true ∧
    (let s := gateState 2 100 0
     gatesRun s 0 = true ∧ tget 0 s.net.gateCycle 0 + (gateNow s 0).2.1 = s.dtime ∧ ¬ (gateWindows s 0).length ≤ tget 0 s.net.gateIdx 0 + 1) ∧
    (let s := gateState 2 200 1
     gatesRun s 0 = true ∧ tget 0 s.net.gateCycle 0 + (gateNow s 0).2.1 = s.dtime ∧ (gateWindows s 0).length ≤ tget 0 s.net.gateIdx 0 + 1) ∧
    (let s := gateState 1 100 0
     let v := n32 (2 ^ 31 + 2 ^ 30 + 1)
     rbit v 30 = true ∧ ethPresent s.variant 0 = true ∧ ownsClaim s (ethClaim 0) 75 = true ∧ regB s (ethGctl 0) 30 = false ∧ rbit v 31 = regB s (ethGctl 0) 31 ∧
     gateZero (storePlain (creditsNow s 0) 75 (ethGctl 0) v) 0 = false) ∧
    (let s := setRegB (gateState 1 100 0) (ethGctl 0) 30 true
     let s := { s with net := { s.net with gateChange := tput 0 [] 0 101 } }
     regB s (ethGctl 0) 30 = true ∧ tget 0 s.net.gateChange 0 ≠ 0 ∧ tget 0 s.net.gateChange 0 = s.dtime + 1 ∧ regB s (ethGctl 0) 31 = true) := by decide +kernel
/-- L3 holds context `x`, a CRF stream, and has selected it in the window of port 0. -/
def ctxState (x : Nat) (en : Bool) : State :=
  let s := withCtx (netState 5) x [(0, b2n en * 2 ^ 31 + 2 ^ 28 + 2 ^ 17 + 95 * 2 ^ 9), (4, 2), (7, 95)] ctx0
  setPerM (setPerM { s with net := { s.net with ctxClaim := tput 0 [] x 0x14B } } (ethBase 0 + 0x4000) 75 (n32 x)) (ethBase 0 + 0x4000) 74 (n32 x)
theorem witness_contexts : masterOk 75 = true ∧ masterOk 74 = true ∧ [1023, 2047].all (fun x =>
    let s := ctxState x false
    let t := ctxState x true
    let v := n32 (2 ^ 31 + 2 ^ 28 + 2 ^ 17 + 95 * 2 ^ 9)
    let w := n32 (2 ^ 31 + 3 * 2 ^ 28 + 2 ^ 17 + 95 * 2 ^ 9)
    let ok (v : W32) : Bool := (cxReserved 0 v.toNat).isEmpty && cxOk (setCtxW s x 0 (n32 (v.toNat &&& 0xBFFFFEFF))) x
    ethPresent s.variant 0 && decide (cxSel s 75 0 = x) && cxOwned s x 75 && decide (cxSel s 74 0 = x) && !cxOwned s x 74 && rbit v 31 && !ctxEn s x && ok v && !ok w && ctxEn t x &&
    cxOwned t x 75 && !cxTaken t x) = true ∧
    (let t := ctxState 1023 true
     rbit (n32 (2 ^ 27)) 27 = true ∧ isTalker (cxSel t 75 0) = false ∧ ctxEn t (cxSel t 75 0) = true ∧ cxTaken t (cxSel t 75 0) = false) := by decide +kernel
theorem witness_time :
    (let s := setPtp (withRegs (netState 375000000) [(ptpDctl 1, 2 ^ 31), (ptpDstat 1, 2 ^ 31), (mcCtl 3, 2 ^ 31 + 2 ^ 29), (mcStat 3, 2 ^ 31)]) 1 { ptp0 with gm := 5 }
     ptpOn s 1 = true ∧ ptpIsGm s 1 = false ∧ (ptpOf s 1).gm ≠ 0 ∧ (ptpOf s 1).lastSync + 3 * logNs (ptpOf s 1).syncInterval ≤ s.now ∧ ptpState s 1 = 2 ∧ mcOn s 3 = true ∧
     mcSrc s 3 = 1 + 1 ∧ mcState s 3 = 2 ∧ ptpState (setReg s (ptpDstat 1) 0) 1 ≠ 2) ∧
    (let s := withRegs (netState 5) [(ptpDctl 1, 2 ^ 31 + 2 ^ 30)]
     ptpOn s 1 = true ∧ gmCap s 1 = true ∧ (ptpOf s 1).gm = 0 ∧ (ptpOf s 1).lastTx = 0 ∧ ptpIsGm s 1 = false ∧ ethLink s (ptpPort s 1) = true ∧ (queueAt s (ptpPort s 1) 7).length < 31 ∧
     (ptpOf s 1).lastPdelay = 0) := by decide +kernel

/-! ## Witnesses: the parameter agent -/

def withFpp (s : State) (f : Fpp → Fpp) : State := { s with fpp := f s.fpp }
/-- Node 127 of CAN FD channel 0 is owner at epoch 7, with an open session. -/
def canA : Transport := .can 0 127
def aSession : Session := { session0 canA (10 ^ 9) with outcomes := tput 0xFFFF [] 0 0x80 }
def ownedState (dev : Nat) : State :=
  withFpp { State.reset with dev := dev, dtime := 10 ^ 9 } (fun f => { f with own := 2, ownerNode := 5, ownerSession := some canA, ownerSeen := 10 ^ 9, epoch := 7, sessions := [aSession] })
def aReq (cmd idx sub typ : Nat) (d : List Byte) : Request :=
  { from_ := canA, arrival := 10 ^ 9, cmd := cmd, seq := 1, index := idx, sub := sub, typ := typ, epoch := 7, offset := 0, total := d.length, seglen := d.length, data := d,
    malformed := false }
def asked (s : State) (q : Request) : State := withFpp s (fun f => { f with queue := [q] })
/-- 20 bytes of a request with command `c`. -/
def aMessage (c : Nat) : List Byte := BitVec.ofNat 8 c :: List.replicate 19 0
/-- Node 127 sends a CAN FD frame of a priority to an address. -/
def canFrom (pri dst : Nat) : Arrival := .can 0 true (pri * 2 ^ 26 + 2 * 2 ^ 24 + dst * 2 ^ 16 + 127 * 2 ^ 8)
theorem witness_arrival :
    arrivalOk (canFrom 1 16) = true ∧ arrivalFrom (canFrom 1 16) = canA ∧ transportUp (ownedState 2) canA = true ∧ discarded (canFrom 1 16) ((aMessage 1).drop 1) = true ∧
    discarded (canFrom 1 16) (aMessage 1) = false ∧ notForUs (ownedState 2) (canFrom 1 16) = false ∧ discarded (canFrom 0 16) (aMessage 1) = true ∧
    discarded (canFrom 1 17) (aMessage 1) = false ∧ notForUs (ownedState 2) (canFrom 1 17) = true ∧
    cmdOk (parseReq canA 0 (aMessage 1)).cmd = true ∧ discarded (canFrom 1 16) (aMessage 0x7F) = false ∧ cmdOk (parseReq canA 0 (aMessage 0x7F)).cmd = false ∧
    (parseReq canA 0 (aMessage 0x7F)).cmd < 0x80 ∧ (withFpp (ownedState 2) (fun f => { f with queue := List.replicate 31 (aReq 1 0 0 0 []) })).fpp.queue.length < 32 ∧
    32 ≤ (withFpp (ownedState 2) (fun f => { f with queue := List.replicate 32 (aReq 1 0 0 0 []) })).fpp.queue.length := by decide +kernel
theorem witness_reads :
    (let q := aReq 1 0x1020 1 0 []
     let u := taken (asked (ownedState 2) q) q []
     entrySubs q.index ≠ [] ∧ (subAt q.index q.sub).isSome = true ∧ unitAbsent u q.index q.sub = false ∧ subAcc q.index q.sub ≠ 2 ∧ subAcc q.index q.sub ≠ 4 ∧
     readLegal u q.index = true ∧ readLegal { u with dev := 3 } 0x4001 = true ∧ readLegal u 0x4001 = false) ∧
    (let q := { aReq 1 0x1020 1 0 [] with offset := 2 }
     let s := withFpp (asked (ownedState 2) q) (fun f => { f with sessions := [{ aSession with snapIndex := keyOf 0x1020 1, snap := some [1, 2] }] })
     snapOf (taken s q []) q = some [1, 2]) ∧
    entrySubs 0x1FFF = [] ∧
    (let q := aReq 3 0 0 0 []
     sessOf (taken (asked (ownedState 2) q) q []) q.from_ = some aSession ∧ tget 0xFFFF aSession.outcomes (keyOf 0 0) = 0x80) := by decide +kernel
/-- The write passes the checks in its session. -/
def takes (s : State) (q : Request) : Bool := let v := dropXfer (taken (asked s q) q []) q; writeCode v q q.data == 0 && (sessOf v q.from_).isSome
theorem witness_writes :
    (let q := { aReq 2 0x3020 2 3 [0, 50] with epoch := 6 }
     q.malformed = false ∧ q.offset = 0 ∧ q.total = q.data.length ∧ writeCode (dropXfer (taken (asked (ownedState 3) q) q []) q) q q.data = 4) ∧
    (let q := aReq 2 0x7020 1 3 [1, 255]
     takes (ownedState 3) q = true ∧ isSelector 0x7020 1 = true ∧ selectorCode (ownedState 3) 0x7020 1 511 = 0 ∧ (ownedState 3).bb.rearming = false) ∧
    [[(0 : Byte), 50], [3, 232], [0, 49], [3, 233]].all (fun d => takes (ownedState 3) (aReq 2 0x3020 2 3 d)) = true := by decide +kernel
def aClaim (p : Byte) (n : Byte) : List Byte := [0, 0, 0, 0, 0, n, p, 0]
theorem witness_elections :
    (let q := aReq 0x10 0 0 0 (aClaim 15 1)
     let u := taken (asked (withFpp (ownedState 2) (fun f => { f with own := 0 })) q) q []
     badCmd q 8 = false ∧ u.dev ≠ 7 ∧ u.fpp.own ≠ 2 ∧ nth q.data 6 = 15 ∧ node6 q.data 0 = 1 ∧ (sessOf u q.from_).isSome = true ∧
     (taken (asked (ownedState 2) q) q []).fpp.own = 2) ∧
    (let c (n p : Nat) : Candidate := { session := canA, node := n, prio := p }
     let s := withFpp (ownedState 2) (fun f => { f with own := 1, electionEnd := 10 ^ 9, candidates := [c 5 3, c 4 3, c 1 2] })
     s.fpp.own = 1 ∧ s.fpp.electionEnd = s.dtime ∧ queuePast s s.fpp.electionEnd = true ∧ s.fpp.candidates ≠ []) ∧
    (let s := { ownedState 2 with dtime := 1500000000 }
     s.fpp.own = 2 ∧ s.dev ≠ 7 ∧ s.fpp.ownerSeen + 500000000 = s.dtime ∧ queuePast s (s.fpp.ownerSeen + 500000000) = true) := by decide +kernel
theorem witness_owners :
    (let q := aReq 0x11 0 0 0 (aClaim 3 5)
     let u := taken (asked (ownedState 2) q) q []
     badCmd q 8 = false ∧ (sessOf u q.from_).isSome = true ∧ u.fpp.own = 2 ∧ u.fpp.ownerNode = node6 q.data 0 ∧ q.epoch = u.fpp.epoch) ∧
    (let q := aReq 0x11 0 0 0 (aClaim 3 6)
     let u := taken (asked (ownedState 2) q) q []
     badCmd q 8 = false ∧ (sessOf u q.from_).isSome = true ∧ u.fpp.ownerNode ≠ node6 q.data 0) ∧
    (let q := aReq 0x12 0 0 0 [0, 0, 0, 0, 0, 5, 0, 0, 0, 0, 0, 9]
     let x : Present := { node := 9, prio := 3, session := .spi, at_ := 500000001 }
     let s := asked (withFpp (ownedState 2) (fun f => { f with present := [x] })) q
     let u := taken s q []
     badCmd q 12 = false ∧ u.dev ≠ 7 ∧ mayOwn u q = true ∧ u.fpp.present.find? (fun x => x.node = node6 q.data 6 && decide (q.arrival < x.at_ + 500000000)) = some x) ∧
    (let q := aReq 0x13 0 0 0 [0, 0, 0, 0, 0, 5]
     let u := taken (asked (ownedState 2) q) q []
     badCmd q 6 = false ∧ u.dev ≠ 7 ∧ mayOwn u q = true) := by decide +kernel
theorem witness_sessions : transportOk canA = true ∧
    (let s := withFpp (ownedState 2) (fun f => { f with own := 0, sessions := [{ aSession with last := 0, xferKey := some (1, 1, 1), xferAt := 0 }] })
     sessOf s canA = some { aSession with last := 0, xferKey := some (1, 1, 1), xferAt := 0 } ∧ isOwnerSess s canA = false ∧ isHolder s canA = false) ∧
    (withFpp (ownedState 2) (fun f => { f with comm := [(1, [5])] })).fpp.comm = [(1, [5])] ∧
    (withFpp (ownedState 2) (fun f => { f with dirty := [0x302002] })).fpp.dirty = 0x302002 :: [] := by decide +kernel
/-- The service holder's session, in SERVICE from CONFIG. -/
def heldState (t : Nat) : State :=
  withFpp { ownedState 7 with held := 3, dtime := t } (fun f => { f with svcHeld := true, svcSession := some canA, svcSeen := 10 ^ 9 })
theorem witness_service :
    (let q := aReq 0x20 0 0 0 (aClaim 0 5)
     let u := taken (asked (withFpp (ownedState 3) (fun f => { f with keys := [[1]] })) q) q []
     badCmd q 8 = false ∧ 3 ≤ u.dev ∧ u.dev ≠ 7 ∧ u.serviceEn = true ∧ u.fpp.svcHeld = false ∧ u.fpp.keys ≠ [] ∧ u.fpp.lockedUntil ≤ q.arrival ∧ (sessOf u q.from_).isSome = true) ∧
    (let q := aReq 0x21 0 0 0 (List.replicate 64 0)
     let u := taken (asked (withFpp (ownedState 3) (fun f => { f with challenge := some (0, 1), challengeFor := some canA })) q) q []
     badCmd q 64 = false ∧ 3 ≤ u.dev ∧ u.dev ≠ 7 ∧ u.fpp.svcHeld = false ∧ u.fpp.challengeFor = some q.from_ ∧ u.fpp.challenge = some (0, 1) ∧ q.arrival < 1 + 10 ^ 10 ∧ u.serviceEn = true) ∧
    (let q := aReq 0x22 0 0 0 []
     badCmd q 0 = false ∧ isHolder (taken (asked (heldState (10 ^ 9)) q) q []) q.from_ = true) ∧
    (let s := withFpp { ownedState 3 with dtime := 10 ^ 10 + 1 } (fun f => { f with challenge := some (0, 1) })
     s.fpp.challenge = some (0, 1) ∧ 1 + 10 ^ 10 ≤ s.dtime ∧ queuePast s (1 + 10 ^ 10) = true) ∧
    (let s := heldState 1500000000
     s.dev = 7 ∧ s.fpp.svcHeld = true ∧ s.fpp.svcSeen + 500000000 = s.dtime ∧ queuePast s (s.fpp.svcSeen + 500000000) = true) := by decide +kernel
theorem witness_commands :
    takes (ownedState 5) (aReq 2 0x1020 3 2 [6]) = true ∧ takes (heldState (10 ^ 9)) (aReq 2 0x1020 3 2 [6]) = true ∧ takes (ownedState 6) (aReq 2 0x1020 3 2 [3]) = true ∧
    takes (ownedState 4) (aReq 2 0x4000 3 1 [1]) = true ∧
    (let q := aReq 2 0x9000 1 4 [10, 0, 0, 9]
     takes (ownedState 3) q = true ∧ ofBe q.data = 0x0A000000 + 9 ∧ tget 0 (taken (asked (ownedState 3) q) q []).media.pinClaims 9 = 0) ∧
    (let q := aReq 2 0x9000 2 4 [10, 0, 0, 9]
     let s := withMedia (ownedState 3) (fun m => { m with pinClaims := tput 0 [] 9 108 })
     takes s q = true ∧ tget 0 (taken (asked s q) q []).media.pinClaims 9 = 108 ∧ pinUsed (taken (asked s q) q []) 9 = false) ∧
    takes (ownedState 3) (aReq 2 0x7010 0xF 1 [1]) = true ∧
    (let s := ownedState 3
     takes s (aReq 2 0x8001 2 1 [1]) = true ∧ takes s (aReq 2 0x8001 3 1 [1]) = true ∧ takes s (aReq 2 0x8001 4 10 (List.replicate 16 0)) = true ∧ takes (heldState (10 ^ 9)) (aReq 2 0x8011 1 1 [1]) = true ∧
     s.bb.rearming = false ∧ s.fpp.long = none ∧ (s.bb.ready && s.bb.header.state = 2) = false ∧ s.bb.intake.length < 32 ∧ bbNoneLost s = true) ∧
    (withFpp (ownedState 3) (fun f => { f with long := some (0x801101, 1, canA) })).fpp.long = some (0x801101, 1, canA) := by decide +kernel

/-! ## Witnesses: black box, reset and boot, power -/

def withBb (s : State) (f : Bb → Bb) : State := { s with bb := f s.bb }
def anEntry : BbEntry := { bbZero with code := 0x0201, time := 5 }
/-- A ring in a state with one entry waiting. -/
def ringState (st : Nat) (e : BbEntry) : State :=
  setReg (withBb State.reset (fun b => { b with ready := true, nextWrite := 16, intake := [e], header := { b.header with state := st, wridx := 4095, seq := 2 ^ 32 - 1 }, since := 255 })) (bbBase + 2) 0x37
/-- The ring's next entry may be written 16 cycles after the last. -/
def ringAt (st : Nat) (e : BbEntry) (n : Nat) : State := { ringState st e with now := n }
theorem witness_ring : [0, 1, 2].all (fun st => let s := ringAt st anEntry 16
      decide (s.bb.nextWrite ≤ s.now) && s.bb.ready && !s.bb.rearming && decide (s.bb.intake = [anEntry]) && decide (s.bb.header.state = st) && triggers s anEntry && bbNoneLost s) = true ∧
    triggers (ringAt 0 bbZero 16) bbZero = false ∧ (ringAt 0 bbZero 15).now < (ringAt 0 bbZero 15).bb.nextWrite ∧
    (let s := setReg (ringAt 0 anEntry 16) (bbLost 15) 3
     s.bb.nextWrite ≤ s.now ∧ (upto 16).find? (fun c => !(reg s (bbLost c) = 0)) = some 15) := by decide +kernel
theorem witness_entries : masterOk 75 = true ∧
    (let s := withBb State.reset (fun b => { b with intake := List.replicate 31 anEntry })
     (s.bb.ready && s.bb.header.state = 2 && !s.bb.rearming) = false ∧ s.bb.intake.length < 32 ∧ bbNoneLost s = true) ∧
    (withBb State.reset (fun b => { b with rearming := true })).bb.rearming = true ∧
    (let s := { State.reset with dtime := 10 ^ 9, carts := { State.reset.carts with lostNow := tput 0 [] 4095 1 } }
     s.carts.lostNow ≠ [] ∧ s.carts.lastSecond < s.dtime / 10 ^ 9) := by decide +kernel
theorem witness_dips :
    State.reset.bb.pfail = false ∧ State.reset.bb.dip = false ∧ dramParked State.reset = false ∧
    (withBb State.reset (fun b => { b with pfail := true, dip := true })).bb.pfail = true ∧
    (let s := { withBb State.reset (fun b => { b with dip := true, dipRelease := 7 }) with now := 1000007 }
     s.bb.dip = true ∧ s.bb.pfail = false ∧ s.bb.dipRelease + 1000000 = s.now) := by decide +kernel
theorem witness_resets :
    (let s := { State.reset with dev := 2, now := 100000003, pwr := { State.reset.pwr with kicked := 3 } }
     s.dev ≠ 0 ∧ 2 ≤ s.dev ∧ s.pwr.kicked + 100000000 = s.now ∧ 100000002 < s.pwr.kicked + 100000000) ∧ State.reset.dev = 0 := by decide +kernel
theorem witness_boot : masterOk 72 = true ∧ masterOk 75 = true ∧
    (let f : MarchFound := { units := [71], rows := [{ kind := 2, inst := 3, bank := 31, row := 511, op := 10 }] }
     f.units.contains 72 = false ∧ (∀ r, r ∈ f.rows → 1 ≤ r.op ∧ r.op ≤ 10) ∧ (∀ r, r ∈ f.rows → r.inst ≠ 72) ∧
     { f with units := [72] }.units.contains 72 = true ∧ { f with rows := [] }.rows = []) ∧ { State.reset with dev := 1 }.dev = 1 ∧
    srcOfL0 256 = true ∧ srcPresent State.reset.variant 256 = true ∧
    (let s := { State.reset with dev := 2 }
     s.dev = 2 ∧ s.pwr.bootFail = none ∧ bootOrder s = []) := by decide +kernel
def moving (l : List (Nat × Nat)) : State := { State.reset with pwr := { State.reset.pwr with moving := l } }
theorem witness_domains :
    (let s := moving [(1, 1), (2, 1), (3, 1)]
     domPresent s.variant 71 = true ∧ domRefuse s 71 0 = none ∧ domState s 71 ≠ 0 ∧ domBusy s 71 = false ∧ movingCount s < 4) ∧
    (let s := moving [(1, 1), (2, 1), (3, 1), (4, 1)]
     domPresent s.variant 71 = true ∧ domRefuse s 71 0 = none ∧ domState s 71 ≠ 0 ∧ domBusy s 71 = false ∧ 4 ≤ movingCount s) ∧
    (domRefuse State.reset 147 0).isSome = true ∧
    [0, 1, 2].all (fun r => let s := moving [(84, r + 1)]
      decide (tget 0 s.pwr.moving 84 = r + 1) && decide (domState s 84 ≠ 0) && (regF s (pwrDom 84) 0 2 == 2)) = true := by decide +kernel
/-- The bus is enabled with the target at `mv`. -/
def avsAt (mv alarm age : Nat) : State :=
  { withRegs State.reset [(pwrAvs, 2 ^ 31 + mv), (pwrStat, age * 65536 + alarm * 256)] with now := 10000000001, pwr := { State.reset.pwr with slackSince := some 1 } }
theorem witness_voltage :
    [2, 3].all (fun c => let s := avsAt 805 c 150; regB s pwrAvs 31 && decide (supplyCode s = c) && decide (vage s = 150)) = true ∧
    regB State.reset pwrAvs 31 = false ∧ (avsAt 805 0 0).pwr.slackSince = some 1 ∧ 1 + 10000000000 ≤ (avsAt 805 0 0).now ∧
    (∀ a ∈ List.replicate 40 24, 24 ≤ a) ∧ (((List.replicate 39 255 ++ [23]).drop (4 * 9)).take 4).foldl Nat.min 255 < 24 ∧
    (avsAt 805 0 10).pwr.vageStored + 10 ≤ vage (avsAt 805 0 10) := by decide +kernel
/-- Whatever the fuses hold, what the chip needs is no more than 800 mV. -/
theorem witness_voltageStep : vNow (avsAt 805 0 0) < avsTarget (avsAt 805 0 0) ∧ stepFree (avsAt 805 0 0) = true :=
  ⟨Nat.lt_of_le_of_lt (Nat.min_le_left 800 _) (by decide +kernel), by decide +kernel⟩
/-- Whatever the fuses hold, a clock needs 650 mV at least and 800 mV at most. -/
theorem witness_clockRises : regB (avsAt 649 0 0) pwrAvs 31 = true ∧ avsTarget (avsAt 649 0 0) < clockVolt (avsAt 649 0 0) 7 44 ∧
    ¬ avsTarget (avsAt 800 0 0) < clockVolt (avsAt 800 0 0) 7 44 :=
  ⟨by decide +kernel, Nat.lt_of_lt_of_le (m := 650) (by decide +kernel) (Nat.le_trans (Nat.le_min.mpr ⟨by decide, Nat.le_max_left _ _⟩) (Nat.le_max_left _ _)),
   Nat.not_lt.mpr (Nat.le_trans (Nat.max_le.mpr ⟨Nat.min_le_left 800 _, Nat.min_le_left 800 _⟩) (by decide +kernel))⟩
theorem witness_clockWaits : [(6, false), (7, true)].all (fun e =>
    let s := { State.reset with dev := 3, now := e.1, pwr := { State.reset.pwr with clockWait := tput 0 [] 7 45, clockAt := tput 0 [] 7 7 } }
    decide (tget 0 s.pwr.clockWait 7 = 44 + 1) && (decide (tget 0 s.pwr.clockAt 7 ≤ s.now) == e.2) && clusterIdle s 7) = true ∧
    tget 0 State.reset.pwr.clockWait 7 ≠ 44 + 1 := by decide +kernel
theorem witness_alarms :
    supplyCode (avsAt 800 0 0) ≠ 1 ∧ supplyCode (avsAt 800 0 0) ≠ 5 ∧ State.reset.pwr.thermal = false ∧
    ({ State.reset with pwr := { State.reset.pwr with thermal := true } } : State).pwr.thermal = true ∧
    (let s := { avsAt 800 0 0 with dev := 3 }
     s.dev = 3 ∧ 7 < s.variant.clusters ∧ clusterIdle s 7 = true ∧ regB s pwrAvs 31 = true) ∧
    clusterIdle (onCoach 71 (runAt 0x100)) 7 = false := by decide +kernel

/-! ## The legal states and the step -/

/-- A request as it waits at `at_`. -/
def waitingRequest (at_ : Nat) : Request :=
  { from_ := .spi, arrival := at_, cmd := 1, seq := 0, index := 0x1000, sub := 1, typ := 0, epoch := 0, offset := 0, total := 0, seglen := 0,
    data := [], malformed := false }
/-- A response that waits in the SPI port. -/
def waitingResponse : Response :=
  { dest := .spi, cmd := 0x81, seq := 0, index := 0x1000, sub := 1, typ := 0, epoch := 0, offset := 0, total := 0, status := 0, data := [] }
/-- A state at every bound of a legal state: held in service from RUN, with its queues and intakes full and words and registers listed. -/
def fullState : State :=
  let s := setRegF (withLine State.reset 2 3 0x100 0x1122334455667788) 0x04082090 0 16 0x1234
  { s with dev := 7, held := 7, pending := [.bundleIssue 0, .coachStart 1],
           fpp := { s.fpp with queue := (upto 32).map waitingRequest, spi := (upto 4).map (fun _ => waitingResponse),
                               sessions := (upto 32).map (fun i => session0 (.can 0 i) 0) },
           bb := { s.bb with intake := (upto 32).map (fun i => { time := i, skind := 0, sinst := 0, code := 0, seq := 0, p0 := 0, p1 := 0, p2 := 0, p3 := 0 }) },
           mem := { s.mem with intake := (upto 32).map (fun i => { time := i, cls := 0, kind := 0, inst := 0, master := 0, detail := 0, addr := 0 }) } }
def leavesQueue (o : Host.Outcome State Fault Refusal) (l : List Instr) : Bool := match o with | .next t => t.pending == l | _ => false
theorem witness_everyStepKeepsALegalState : Legal fullState ∧ leavesQueue (step fullState) [.coachStart 1] = true :=
  ⟨⟨by decide +kernel, by decide +kernel, by decide +kernel, by decide +kernel, by decide +kernel, by decide +kernel, by decide +kernel,
    by decide +kernel, by decide +kernel⟩, by decide +kernel⟩
theorem witness_stepRunsTheFrontCommand : fullState.pending = [.bundleIssue 0, .coachStart 1] := by decide +kernel
theorem witness_commandsLeaveTheQueueAlone : leavesQueue (exec (.coachStart 1) fullState) fullState.pending = true := by decide +kernel
theorem witness_anEmptyQueueIsOneCycle : State.reset.pending = [] ∧ { State.reset with now := 9999 }.pending = [] ∧
    (State.reset.now + 1) % 10000 ≠ 0 ∧ ({ State.reset with now := 9999 }.now + 1) % 10000 = 0 := by decide +kernel
theorem witness_everyCommandThatExistsCompletes : Instr.wf (.bundleIssue 75) = true ∧ Instr.wf (.bundleIssue 76) = false := by decide +kernel

/-! ## Worked examples of the spec -/

/-- Chapter 03, Table 8: PERM with control 0x2547. -/
theorem test_perm_extracts_a_field : permOp 0x33441122 0x77885566 0x2547 = 0x44556677 := by decide +kernel
/-- Chapter 03, Table 12: base 0x3000 and length 48 in N10 and N11, CP3 = 1. -/
def circCoach : Coach := { wrCo Coach.reset 0x100 (1 * 2 ^ 6) with n := [(10, 0x3000), (11, 48)] }
theorem test_circular_advance : circAdv circCoach 3 0x302C 2 = 0x302E ∧ circAdv circCoach 3 0x302E 2 = 0x3000 ∧
    circAdv circCoach 3 0x3000 2 = 0x3002 ∧ circAdv circCoach 3 0x3000 (-2) = 0x302E := by decide +kernel
/-- Chapter 03, Example 3: the addresses of an eight-point reorder. -/
theorem test_bit_reversed_order : [0x1000, 0x1004, 0x1002, 0x1006, 0x1001, 0x1005, 0x1003, 0x1007].map (fun p => brevAdv p 4) =
    [0x1004, 0x1002, 0x1006, 0x1001, 0x1005, 0x1003, 0x1007, 0x1000] := by decide +kernel
/-- Chapter 04, Table 6: the new part and the sticky flag. -/
def accCase (m old a b op sg s : Nat) : Nat × Nat :=
  let k := { Coach.reset with acc := [(0, BitVec.ofNat 288 old)], v := [(1, BitVec.ofNat 128 a), (2, BitVec.ofNat 128 b)] }
  let p := macxOp k 0 2 0 1 2 op m false 0 sg s
  (fld p.val.toNat 0 (partW m), p.mstat)
theorem test_mac_clamps_and_wraps :
    (accCase 0 0x7FE000000000000000 0x80000000 0x80000000 0 0 1).1 = 0x7FFFFFFFFFFFFFFFFF ∧
    (accCase 0 0x7FE000000000000000 0x80000000 0x80000000 0 0 0).1 = 0x802000000000000000 ∧
    (accCase 1 0x7C0000000 0x8000 0x8000 0 0 1).1 = 0x7FFFFFFFF ∧ (accCase 1 0x7C0000000 0x8000 0x8000 0 0 0).1 = 0x800000000 ∧
    accCase 0 0x55 0xFFFFFFFF 0xFFFFFFFF 2 1 0 = (0x00FFFFFFFE00000001, 0) ∧ accCase 0 0 3 5 1 0 0 = (0xFFFFFFFFFFFFFFFFF1, 0) := by decide +kernel
/-- Chapter 04, Table 8: extraction by rounding shift. -/
theorem test_extraction : extract 32 0 1 (-3) = (0xFFFFFFFE, 0) ∧ extract 32 0 1 3 = (1, 0) ∧ extract 32 1 31 0x1800000000000000 = (0x30000000, 0) ∧
    (extract 32 1 8 (2 ^ 40)).1 = 0x7FFFFFFF ∧ (extract 32 0 8 (2 ^ 40)).1 = 0 ∧ extract 16 1 4 0x12345 = (0x1234, 0) ∧
    (extract 16 1 4 (-(2 ^ 20))).1 = 0x8000 ∧ (extract 16 0 4 (-(2 ^ 20))).1 = 0 := by decide +kernel
/-- Chapter 05, Example 1: 1,000 / 7 and −1,000 / 7 take 12 cycles; R128: −7 by 2. -/
theorem test_divides : divOp 1 1000 7 = (142, 0) ∧ divLat 1 1000 7 = 12 ∧ divLat 0 0xFFFFFC18 7 = 12 ∧ divOp 0 0xFFFFFFF9 2 = (0xFFFFFFFD, 0) ∧ divOp 2 0xFFFFFFF9 2 = (0xFFFFFFFF, 0) := by decide +kernel
/-- Chapter 05, Table 8: NaNs on a signal coach and on a lead coach. -/
def nanCase (lead : Bool) (f a b c : Nat) : Nat × Nat := let r := fltLane { rtz := false, trapSub := false, lead := lead } f 0 a b c; (r.val, r.fl)
theorem test_nans_on_signal_coaches : nanCase false 0 0x7FC12345 0x3F800000 0 = (0x7FC00000, 0) ∧ nanCase false 0 0x3F800000 0xFF810000 0 = (0x7FC00000, 1) ∧
    nanCase false 3 0 0x7F800000 0x7FC12345 = (0x7FC00000, 1) ∧ nanCase false 5 0x7FC12345 0x3F800000 0 = (0x3F800000, 0) ∧
    nanCase false 6 0x7FC12345 0xFF810000 0 = (0x7FC00000, 1) ∧ nanCase false 0x11 0x7FC12345 0 0 = (0x7E00, 0) ∧
    nanCase false 0x10 0x7C01 0 0 = (0x7FC00000, 1) ∧ nanCase false 0x0E 0x7FC12345 0 0 = (0, 1) ∧ nanCase false 8 0x7FC12345 0 0 = (0xFFC12345, 0) := by
  decide +kernel
theorem test_nans_on_lead_coaches : nanCase true 0 0x7FC12345 0x3F800000 0 = (0x7FC12345, 0) ∧ nanCase true 0 0x3F800000 0xFF810000 0 = (0xFFC10000, 1) ∧
    nanCase true 0 0xFF810000 0x7FC12345 0 = (0xFFC10000, 1) ∧ nanCase true 3 0 0x7F800000 0x7FC12345 = (0x7FC12345, 1) ∧
    nanCase true 2 0 0x7F800000 0 = (0x7FC00000, 1) ∧ nanCase true 5 0xFF810000 0x3F800000 0 = (0x3F800000, 1) ∧
    nanCase true 0x11 0x7FC12345 0 0 = (0x7E09, 0) ∧ nanCase true 0x10 0x7E09 0 0 = (0x7FC12000, 0) ∧ nanCase true 0x10 0x7C01 0 0 = (0x7FC02000, 1) := by
  decide +kernel
/-- Chapter 05, Table 10: FMUL at the normal limit in flush mode and in trap mode. -/
theorem test_flush_at_the_limit : nanCase true 2 0x00800000 0x3F000000 0 = (0, 24) ∧
    (fltLane { rtz := false, trapSub := true, lead := true } 2 0 0x00800000 0x3F000000 0).trap = true := by decide +kernel
/-- Chapter 11, Example 1: the line's data and check bits with some of their bits lineWithFlips. -/
def lineWithFlips (data check : Nat) : LineRead := let x := 0x0123456789ABCDEF; lightRead (x ^^^ data) (lightCheck x ^^^ check)
theorem test_light_code : lineWithFlips (2 ^ 19) 0 = { data := 0x0123456789ABCDEF, st := 1, syn := 0x38 } ∧
    (lineWithFlips (2 ^ 19 + 2 ^ 5) 0).st = 3 ∧ (lineWithFlips (2 ^ 19 + 2 ^ 5) 0).syn = 0x2D ∧
    lineWithFlips 0 4 = { data := 0x0123456789ABCDEF, st := 1, syn := 4 } ∧ lineWithFlips 7 0 = { data := 0x0123456789ABCDEF ^^^ 7, st := 1, syn := 1 } := by decide +kernel
/-- Chapter 15, Example 1: the request that the controller at CAN address 0x21 sends and the response to it. -/
def mapRequest : List Byte := [0x01, 0x07, 0x10, 0x10, 0x0E] ++ List.replicate 15 0
def mapResponse : List Byte :=
  [0x81, 7, 0x10, 0x10, 0x0E, 0x0A, 0, 0x42, 0, 0, 0, 0, 0, 0, 0, 0x14, 0, 0x14, 0, 0] ++ List.replicate 18 0xFF ++ [0, 0x0F]
def afterNext (o : Host.Outcome State Fault Refusal) (s : State) : State := match o with | .next t => t | _ => s
theorem test_read_of_the_domain_map :
    let s := { State.reset with dev := 3, fpp := { State.reset.fpp with epoch := 0x42 } }
    let t := afterNext (exec (.requestArrival (.can 0 true 0x06102100) mapRequest) s) s
    let out := (afterNext (exec .read t) s).fpp.out
    out.map encodeResp = [mapResponse] ∧ out.map (canFrame s 0x21) = [(0x06211000, mapResponse ++ List.replicate 8 0)] := by decide +kernel
/-- Chapter 09, Example 1: the carts of coaches 2.3 and 2.4 (cart 2), all clusters at 1.5 GHz. -/
def exampleCart (best : Bool) (budget nsh lmax deadline home scnt : Nat) : Cart :=
  { aCart 4 0 home with bestEffort := best, budget := budget, nsh := nsh, lmax := lmax, deadline := deadline, scnt := scnt, succ := 0 }
def exampleTable : Timetable :=
  { epoch := 5, start := 0, succ := [2], images := [{ coach := 19, cim := 1, ldm := 0xFFFF, hold := 0, bad := false }],
    carts := [exampleCart false 16000 256 300 20000 19 0, exampleCart false 9000 1024 200 12500 19 1, { exampleCart false 22000 1012 200 0 20 0 with pred := 1 },
              exampleCart false 60000 2000 600 100000 19 0, exampleCart false 400000 4096 250 50000 19 0, exampleCart true 30000 0 400 0 19 0] }
def atFullClock : State := setRegF (setRegF State.reset 0x04020100 0 6 44) 0x04020101 0 6 44
theorem test_admission_example :
    let s := atFullClock
    let w := splitWindows s exampleTable
    clusterMHz s 2 = 1500 ∧ winC w 0 = 17486 ∧ winC w 1 = 13478 ∧ winC w 3 = 69503 ∧ winC w 4 = 424996 ∧
    winC w 2 = 26694 ∧ winD w 1 = 4178 ∧ winR w 2 = 4188 ∧ winD w 2 = 12500 ∧
    (coachU exampleTable w [0, 1, 3, 4, 5] 0 1500 * 1000000).ceil = 896495 ∧ (term w 2 1500 * 1000000).floor = 214100 := by decide +kernel
/-- The digest of "abc", from the examples of FIPS 180-4. -/
theorem test_sha256 : sha256 [0x61, 0x62, 0x63] = 0xba7816bf8f01cfea414140de5dae2223b00361a396177a9cb410ff61f20015ad := by decide +kernel
end Sys2Proof.Tests
end

section
/-! Conditional moves of the integer unit (chapter 03, R69): a move whose condition fails has no value, and an ALU3
operation without a value has no result. -/
namespace Sys2Proof.Machine

/-- CMOVZ has the value `a` where `b` is 0 and no value otherwise (R69). -/
theorem aluOp_cmovz (a b : W32) : aluOp 0x18 a b = (if b = 0 then some a else none, 0) := by
  have hzero : b.toNat = 0 ↔ b = 0 := BitVec.toNat_inj (y := 0)
  simp only [aluOp, hzero]

/-- CMOVNZ has no value where `b` is 0 and the value `a` otherwise (R69). -/
theorem aluOp_cmovnz (a b : W32) : aluOp 0x19 a b = (if b = 0 then none else some a, 0) := by
  have hzero : b.toNat = 0 ↔ b = 0 := BitVec.toNat_inj (y := 0)
  simp only [aluOp, hzero]

/-- An ALU3 operation without a value, in the register or the immediate form, puts no result on its way. -/
theorem aluResults_alu_of_no_value {k : Coach} {f a b : Nat} {imm : Bool} (d : Nat)
    (h : (aluOp f (rdG k a) (if imm then n32 b else rdG k b)).1 = none) : aluResults k (.alu f d a imm b) = [] := by
  simp only [aluResults, h]

/-- Settles O17: the failed condition leaves the operation without a value, and so without a result. -/
theorem aFailedConditionalMoveWritesNothing : Obligations.AFailedConditionalMoveWritesNothing := by
  intro k d a b
  constructor
  case left =>
    intro hne
    exact aluResults_alu_of_no_value d (by rw [if_neg Bool.false_ne_true, aluOp_cmovz, if_neg hne])
  case right =>
    intro hzero
    exact aluResults_alu_of_no_value d (by rw [if_neg Bool.false_ne_true, aluOp_cmovnz, if_pos hzero])

end Sys2Proof.Machine
end

section
/-! Packing of accumulator parts and MACX (chapter 04, R97 and R104): the word that a write of all parts carries is
read back part by part. -/
namespace Sys2Proof.Machine

/-! ## Words packed from fields of one width -/

/-- The word whose field of `w` bits at `w * i` is `f i`, for `i < n`, where each `f i` fits. -/
def packed (w n : Nat) (f : Nat → Nat) : Nat := ((upto n).map (fun i => f i * 2 ^ (w * i))).foldl (· + ·) 0

theorem packed_succ (w n : Nat) (f : Nat → Nat) : packed w (n + 1) f = 2 ^ (w * n) * f n + packed w n f := by
  simp only [packed, upto, List.range_succ, List.map_append, List.foldl_append, List.map_cons, List.map_nil,
    List.foldl_cons, List.foldl_nil]
  rw [Nat.add_comm, Nat.mul_comm]

theorem packed_lt {w n : Nat} {f : Nat → Nat} (hf : ∀ i, f i < 2 ^ w) : packed w n f < 2 ^ (w * n) := by
  induction n with
  | zero => exact Nat.two_pow_pos _
  | succ n ih =>
    rw [packed_succ]
    calc 2 ^ (w * n) * f n + packed w n f < 2 ^ (w * n) * f n + 2 ^ (w * n) := Nat.add_lt_add_left ih _
      _ = 2 ^ (w * n) * (f n + 1) := (Nat.mul_succ _ _).symm
      _ ≤ 2 ^ (w * n) * 2 ^ w := Nat.mul_le_mul_left _ (hf n)
      _ = 2 ^ (w * (n + 1)) := by rw [Nat.mul_succ, Nat.pow_add]

/-- A field at or above the split of `2 ^ p * hi + lo` is a field of the high part. -/
theorem fld_join_high {p lo : Nat} (h : lo < 2 ^ p) (hi w : Nat) : fld (2 ^ p * hi + lo) p w = hi % 2 ^ w := by
  rw [fld, Nat.shiftRight_eq_div_pow, Nat.mul_add_div (Nat.two_pow_pos p), Nat.div_eq_of_lt h, Nat.add_zero]

/-- A field below the split of `2 ^ p * hi + lo` is a field of the low part. -/
theorem fld_join_low {p lo a w : Nat} (h : lo < 2 ^ p) (hi : Nat) (ha : a + w ≤ p) : fld (2 ^ p * hi + lo) a w = fld lo a w := by
  apply Nat.eq_of_testBit_eq
  intro i
  rw [testBit_fld, testBit_fld]
  by_cases hiw : i < w
  · rw [Nat.testBit_two_pow_mul_add hi h, if_pos (by omega)]
  · simp [hiw]

theorem fld_packed {w n l : Nat} {f : Nat → Nat} (hf : ∀ i, f i < 2 ^ w) (hl : l < n) : fld (packed w n f) (w * l) w = f l := by
  induction n with
  | zero => exact absurd hl (Nat.not_lt_zero l)
  | succ n ih =>
    rw [packed_succ]
    by_cases hn : l = n
    · rw [hn, fld_join_high (packed_lt hf), Nat.mod_eq_of_lt (hf n)]
    · have hbelow : l < n := by omega
      have hend : w * l + w ≤ w * n := Nat.mul_succ w l ▸ Nat.mul_le_mul_left w hbelow
      rw [fld_join_low (packed_lt hf) _ hend, ih hbelow]

/-- Fields of ones are one run of ones. -/
theorem packed_ones (w n : Nat) : packed w n (fun _ => 2 ^ w - 1) = 2 ^ (w * n) - 1 := by
  induction n with
  | zero => rfl
  | succ n ih =>
    have hpos : 0 < 2 ^ (w * n) := Nat.two_pow_pos _
    have hmul : 2 ^ (w * n) ≤ 2 ^ (w * n) * 2 ^ w := Nat.le_mul_of_pos_right _ (Nat.two_pow_pos w)
    rw [packed_succ, ih, Nat.mul_succ, Nat.pow_add, Nat.mul_sub_one]
    omega

/-- Flags that one entry raises stay raised in the union over a list. -/
theorem or_foldl_or_of_mem {x : Nat} {xs : List Nat} (acc : Nat) (h : x ∈ xs ∨ acc ||| x = acc) :
    xs.foldl (· ||| ·) acc ||| x = xs.foldl (· ||| ·) acc := by
  induction xs generalizing acc with
  | nil => exact h.resolve_left List.not_mem_nil
  | cons y ys ih =>
    apply ih
    rcases h with hmem | hacc
    · rcases List.mem_cons.mp hmem with rfl | hys
      · right
        rw [Nat.or_assoc, Nat.or_self]
      · exact .inl hys
    · right
      rw [Nat.or_right_comm, hacc]

/-! ## Writes of all parts of an accumulator -/

theorem wrapN_lt (w : Nat) (i : Int) : wrapN w i < 2 ^ w := by
  have hpos : (0 : Int) < ((2 ^ w : Nat) : Int) := Int.natCast_pos.mpr (Nat.two_pow_pos w)
  exact (Int.toNat_lt (Int.emod_nonneg _ (Int.ne_of_gt hpos))).mpr (Int.emod_lt_of_pos i hpos)

/-- A fitted value has the part's width (R97). -/
theorem fitAcc_lt (w s : Nat) (i : Int) : (fitAcc w s i).1 < 2 ^ w := by
  unfold fitAcc
  split
  · exact wrapN_lt w _
  · exact wrapN_lt w i

/-- In both modes the parts fill the accumulator (R94). -/
theorem partW_mul_parts (m : Nat) : partW m * parts m = 288 := by
  unfold partW parts
  split <;> rfl

/-- A write of every part of an accumulator, part `l` taking `v l`. -/
def accWriteAll (slot d m s : Nat) (v : Nat → Int) : Pend := accWrite slot d m s ((upto (parts m)).map (fun l => (l, v l)))

theorem accWriteAll_val (slot d m s : Nat) (v : Nat → Int) :
    (accWriteAll slot d m s v).val.toNat = packed (partW m) (parts m) (fun l => (fitAcc (partW m) s (v l)).1) := by
  have hval : (accWriteAll slot d m s v).val = BitVec.ofNat 288 (packed (partW m) (parts m) (fun l => (fitAcc (partW m) s (v l)).1)) := by
    simp only [accWriteAll, accWrite, res, List.map_map]
    rfl
  rw [hval, BitVec.toNat_ofNat, ← partW_mul_parts m]
  exact Nat.mod_eq_of_lt (packed_lt (fun l => fitAcc_lt (partW m) s (v l)))

theorem accWriteAll_mask (slot d m s : Nat) (v : Nat → Int) : (accWriteAll slot d m s v).mask = BitVec.ofNat 288 (2 ^ 288 - 1) := by
  have hones := packed_ones (partW m) (parts m)
  rw [partW_mul_parts] at hones
  simp only [accWriteAll, accWrite, res, List.map_map]
  exact congrArg (BitVec.ofNat 288) hones

theorem accWriteAll_mstat (slot d m s : Nat) (v : Nat → Int) :
    (accWriteAll slot d m s v).mstat = ((upto (parts m)).map (fun l => (fitAcc (partW m) s (v l)).2)).foldl (· ||| ·) 0 := by
  simp only [accWriteAll, accWrite, List.map_map]
  rfl

/-- Each part of a whole write reads as its fitted value (R97). -/
theorem fld_accWriteAll {m l : Nat} (slot d s : Nat) (v : Nat → Int) (hl : l < parts m) :
    fld (accWriteAll slot d m s v).val.toNat (partW m * l) (partW m) = (fitAcc (partW m) s (v l)).1 := by
  rw [accWriteAll_val, fld_packed (fun i => fitAcc_lt (partW m) s (v i)) hl]

/-- The flags of each part are among the flags of the whole write (R97). -/
theorem accWriteAll_mstat_or {m l : Nat} (slot d s : Nat) (v : Nat → Int) (hl : l < parts m) :
    (fitAcc (partW m) s (v l)).2 ||| (accWriteAll slot d m s v).mstat = (accWriteAll slot d m s v).mstat := by
  rw [accWriteAll_mstat, Nat.or_comm]
  exact or_foldl_or_of_mem 0 (.inl (List.mem_map.mpr ⟨l, List.mem_range.mpr hl, rfl⟩))

/-! ## MACX -/

/-- The exact value that MACX forms for part `l` before the fit (R104). -/
def macxPart (k : Coach) (now slot d a b op m : Nat) (bc : Bool) (j sg l : Nat) : Int :=
  let old := accPart m (accOperand k now (slot - 2) d) l
  let prod := mulOpnd m (sg != 1) (laneM m (rdV k a) l) * mulOpnd m (sg = 0) (laneM m (rdV k b) (if bc then j else l))
  if op = 0 then old + prod else if op = 1 then old - prod else prod

theorem macxOp_eq (k : Coach) (now slot d a b op m : Nat) (bc : Bool) (j sg s : Nat) :
    macxOp k now slot d a b op m bc j sg s = accWriteAll slot d m s (macxPart k now slot d a b op m bc j sg) := rfl

/-- Settles O19: MACX is a write of all parts, so its value, mask and flags are those of the packed parts. -/
theorem macWritesEveryPart : Obligations.MacWritesEveryPart := by
  intro k now slot d a b op m bc j sg st l _ hl _ old prod r v
  have hr : r = accWriteAll slot d m st (macxPart k now slot d a b op m bc j sg) := macxOp_eq ..
  have hv : v = macxPart k now slot d a b op m bc j sg l := rfl
  rw [hr, hv]
  exact ⟨fld_accWriteAll slot d st _ hl, accWriteAll_mask slot d m st _, rfl, rfl, rfl, accWriteAll_mstat_or slot d st _ hl⟩

end Sys2Proof.Machine
end


section
/-! The loop end test (chapter 06, R163 and R165): a level that does not loop back is passed, its count cleared where it ends,
so the levels before the first loop back are a fold of `passLevel`. -/
namespace Sys2Proof.Machine

/-- The bundle before the word `next` ends level `l` (R163). -/
abbrev EndsLevel (k : Coach) (next : W32) (l : Nat) : Prop := rdCo k (0x304 + 8 * l) ≠ 0 ∧ rdCo k (0x302 + 8 * l) = next
/-- Level `l` ends here with a further pass of its body to come (R163). -/
abbrev LoopsBack (k : Coach) (next : W32) (l : Nat) : Prop := EndsLevel k next l ∧ 1 < (rdCo k (0x304 + 8 * l)).toNat
/-- The test of a level that does not loop back: it becomes inactive where it ends (R165). -/
def passLevel (next : W32) (k : Coach) (l : Nat) : Coach := if EndsLevel k next l then wrCo k (0x304 + 8 * l) 0 else k
/-- The tests of several levels, none of which loops back. -/
def passLevels (next : W32) (k : Coach) (ls : List Nat) : Coach := ls.foldl (passLevel next) k

section
variable {k : Coach} {next : W32}

/-! ## What the test of one level leaves -/

theorem rdCo_passLevel_of_ne {l off : Nat} (h : off ≠ 0x304 + 8 * l) : rdCo (passLevel next k l) off = rdCo k off := by
  unfold passLevel
  split
  · rw [rdCo_wrCo, if_neg h]
  · rfl

theorem passLevel_count (l : Nat) :
    rdCo (passLevel next k l) (0x304 + 8 * l) = if EndsLevel k next l then 0 else rdCo k (0x304 + 8 * l) := by
  unfold passLevel
  split
  · exact rdCo_wrCo_same _ _ _
  · rfl

theorem passLevel_count_of_ne {i l : Nat} (h : i ≠ l) : rdCo (passLevel next k l) (0x304 + 8 * i) = rdCo k (0x304 + 8 * i) :=
  rdCo_passLevel_of_ne (by omega)

theorem passLevel_end (i l : Nat) : rdCo (passLevel next k l) (0x302 + 8 * i) = rdCo k (0x302 + 8 * i) :=
  rdCo_passLevel_of_ne (by omega)

theorem passLevel_start (i l : Nat) : rdCo (passLevel next k l) (0x300 + 8 * i) = rdCo k (0x300 + 8 * i) :=
  rdCo_passLevel_of_ne (by omega)

/-- A passed level is inactive or ends elsewhere: it does not end here any more. -/
theorem not_endsLevel_passLevel (l : Nat) : ¬ EndsLevel (passLevel next k l) next l := by
  rintro ⟨hcount, hend⟩
  rw [passLevel_count] at hcount
  rw [passLevel_end] at hend
  split at hcount
  · exact hcount rfl
  · next h => exact h ⟨hcount, hend⟩

theorem endsLevel_passLevel_of_ne {i l : Nat} (h : i ≠ l) : EndsLevel (passLevel next k l) next i ↔ EndsLevel k next i := by
  rw [EndsLevel, passLevel_count_of_ne h, passLevel_end]

theorem loopsBack_passLevel_of_ne {i l : Nat} (h : i ≠ l) : LoopsBack (passLevel next k l) next i ↔ LoopsBack k next i := by
  rw [LoopsBack, endsLevel_passLevel_of_ne h, passLevel_count_of_ne h]

/-- No test of another level makes a level loop back. -/
theorem not_loopsBack_passLevel {i l : Nat} (h : ¬ LoopsBack k next i) : ¬ LoopsBack (passLevel next k l) next i := by
  by_cases hi : i = l
  · subst hi
    exact fun hb => not_endsLevel_passLevel i hb.1
  · rwa [loopsBack_passLevel_of_ne hi]

/-! ## What the tests of several levels leave -/

theorem passLevels_cons (l : Nat) (ls : List Nat) : passLevels next k (l :: ls) = passLevels next (passLevel next k l) ls := rfl

theorem rdCo_passLevels_of_ne {ls : List Nat} {off : Nat} (h : ∀ l ∈ ls, off ≠ 0x304 + 8 * l) :
    rdCo (passLevels next k ls) off = rdCo k off := by
  induction ls generalizing k with
  | nil => rfl
  | cons l ls ih =>
    obtain ⟨hl, hls⟩ := List.forall_mem_cons.mp h
    rw [passLevels_cons, ih hls, rdCo_passLevel_of_ne hl]

theorem passLevels_count_of_notMem {ls : List Nat} {i : Nat} (h : i ∉ ls) :
    rdCo (passLevels next k ls) (0x304 + 8 * i) = rdCo k (0x304 + 8 * i) :=
  rdCo_passLevels_of_ne fun l hl he => h (by rwa [show i = l by omega])

theorem passLevels_count_of_mem {ls : List Nat} {i : Nat} (h : i ∈ ls) :
    rdCo (passLevels next k ls) (0x304 + 8 * i) = if EndsLevel k next i then 0 else rdCo k (0x304 + 8 * i) := by
  induction ls generalizing k with
  | nil => cases h
  | cons l ls ih =>
    rw [passLevels_cons]
    by_cases hi : i = l
    · subst hi
      by_cases hmem : i ∈ ls
      · rw [ih hmem, if_neg (not_endsLevel_passLevel i), passLevel_count]
      · rw [passLevels_count_of_notMem hmem, passLevel_count]
    · simp only [ih (List.mem_of_ne_of_mem hi h), endsLevel_passLevel_of_ne hi, passLevel_count_of_ne hi]

/-! ## The test as a whole -/

theorem loopEnd_go_cons (l : Nat) (ls : List Nat) : loopEnd.go next (l :: ls) k =
    if EndsLevel k next l then
      (if 1 < (rdCo k (0x304 + 8 * l)).toNat then (wrCo k (0x304 + 8 * l) (rdCo k (0x304 + 8 * l) - 1), rdCo k (0x300 + 8 * l))
        else loopEnd.go next ls (wrCo k (0x304 + 8 * l) 0))
    else loopEnd.go next ls k := by
  simp only [loopEnd.go, EndsLevel, Bool.and_eq_true, decide_eq_true_eq]

theorem loopEnd_go_cons_of_loopsBack {l : Nat} (ls : List Nat) (h : LoopsBack k next l) :
    loopEnd.go next (l :: ls) k = (wrCo k (0x304 + 8 * l) (rdCo k (0x304 + 8 * l) - 1), rdCo k (0x300 + 8 * l)) := by
  rw [loopEnd_go_cons, if_pos h.1, if_pos h.2]

theorem loopEnd_go_cons_of_not_loopsBack {l : Nat} (ls : List Nat) (h : ¬ LoopsBack k next l) :
    loopEnd.go next (l :: ls) k = loopEnd.go next ls (passLevel next k l) := by
  rw [loopEnd_go_cons, passLevel]
  split
  · next hends => rw [if_neg fun hmore => h ⟨hends, hmore⟩]
  · rfl

/-- Without a loop back every level is passed and the next word follows. -/
theorem loopEnd_go_of_no_loopsBack {ls : List Nat} (h : ∀ l ∈ ls, ¬ LoopsBack k next l) :
    loopEnd.go next ls k = (passLevels next k ls, next) := by
  induction ls generalizing k with
  | nil => rfl
  | cons l ls ih =>
    obtain ⟨hl, hls⟩ := List.forall_mem_cons.mp h
    rw [loopEnd_go_cons_of_not_loopsBack ls hl, ih fun i hi => not_loopsBack_passLevel (hls i hi), passLevels_cons]

/-- The first level that loops back stops the test: the levels before it are passed, those behind it are not tested. -/
theorem loopEnd_go_of_first_loopsBack {before : List Nat} {l : Nat} (after : List Nat) (hl : l ∉ before)
    (hback : LoopsBack k next l) (hfirst : ∀ i ∈ before, ¬ LoopsBack k next i) :
    loopEnd.go next (before ++ l :: after) k =
      (wrCo (passLevels next k before) (0x304 + 8 * l) (rdCo k (0x304 + 8 * l) - 1), rdCo k (0x300 + 8 * l)) := by
  induction before generalizing k with
  | nil => exact loopEnd_go_cons_of_loopsBack after hback
  | cons j before ih =>
    obtain ⟨hj, hbefore⟩ := List.forall_mem_cons.mp hfirst
    obtain ⟨hne, hmem⟩ := List.ne_and_not_mem_of_not_mem_cons hl
    rw [List.cons_append, loopEnd_go_cons_of_not_loopsBack _ hj,
      ih hmem ((loopsBack_passLevel_of_ne hne).mpr hback) fun i hi => not_loopsBack_passLevel (hbefore i hi),
      passLevel_count_of_ne hne, passLevel_start, passLevels_cons]

/-- The levels in the order of the test, cut at level `l`. -/
theorem levels_cut_at : ∀ l < 3, [0, 1, 2] = List.range l ++ l :: List.range' (l + 1) (2 - l) := by decide

theorem loopEnd_of_first_loopsBack {l : Nat} (hl : l < 3) (hback : LoopsBack k next l) (hfirst : ∀ i < l, ¬ LoopsBack k next i) :
    loopEnd k next =
      (wrCo (passLevels next k (List.range l)) (0x304 + 8 * l) (rdCo k (0x304 + 8 * l) - 1), rdCo k (0x300 + 8 * l)) := by
  rw [loopEnd, levels_cut_at l hl]
  exact loopEnd_go_of_first_loopsBack _ List.not_mem_range_self hback fun i hi => hfirst i (List.mem_range.mp hi)

theorem loopEnd_of_no_loopsBack (h : ∀ l < 3, ¬ LoopsBack k next l) : loopEnd k next = (passLevels next k (List.range 3), next) :=
  loopEnd_go_of_no_loopsBack fun l hl => h l (List.mem_range.mp hl)

/-- The test writes counts alone. -/
theorem rdCo_loopEnd_of_ne {off : Nat} (h : ∀ l < 3, off ≠ 0x304 + 8 * l) : rdCo (loopEnd k next).1 off = rdCo k off := by
  have hframe {n : Nat} (hn : n ≤ 3) : rdCo (passLevels next k (List.range n)) off = rdCo k off :=
    rdCo_passLevels_of_ne fun l hl => h l (Nat.lt_of_lt_of_le (List.mem_range.mp hl) hn)
  by_cases hany : ∃ l, l < 3 ∧ LoopsBack k next l
  · obtain ⟨hl, hback⟩ := Nat.find_spec hany
    have hfirst : ∀ i < Nat.find hany, ¬ LoopsBack k next i := fun i hi hb => Nat.find_min hany hi ⟨hi.trans hl, hb⟩
    rw [loopEnd_of_first_loopsBack hl hback hfirst, rdCo_wrCo, if_neg (h _ hl), hframe hl.le]
  · rw [loopEnd_of_no_loopsBack fun l hl hb => hany ⟨l, hl, hb⟩, hframe le_rfl]

end

/-- Settles O16: the levels before the first that loops back are passed in order, and no level behind it is tested. -/
theorem loopEndTest : Obligations.LoopEndTest := by
  intro k seq ends back r
  refine ⟨fun l hl hback hfirst => ?_, fun hnone => ?_, fun off h0 h1 h2 => rdCo_loopEnd_of_ne ?_⟩
  · have hr : r = _ := loopEnd_of_first_loopsBack hl hback hfirst
    rw [hr]
    refine ⟨rfl, rdCo_wrCo_same _ _ _, fun i hi => ?_, fun i hi _ => ?_⟩
    · rw [rdCo_wrCo, if_neg (by omega)]
      exact passLevels_count_of_mem (List.mem_range.mpr hi)
    · rw [rdCo_wrCo, if_neg (by omega)]
      exact passLevels_count_of_notMem (by simpa using hi.le)
  · have hr : r = _ := loopEnd_of_no_loopsBack hnone
    rw [hr]
    exact ⟨rfl, fun l hl => passLevels_count_of_mem (List.mem_range.mpr hl)⟩
  · intro l hl
    omega

end Sys2Proof.Machine
end

section
/-! The whole machine (chapters 00 and 95): every command is guarded by the existence of its units and keeps what is legal; a step runs
a command or one cycle of the fabric. -/
namespace Sys2Proof.Machine

/-- Every command keeps a legal state legal, its variant and its queue of waiting commands. -/
theorem exec_legal {vr : Config.Variant} {qu : List Instr} {c : Instr} {s : State} (hs : Kept vr qu s) :
    ∀ u, exec c s = .next u → Kept vr qu u := by
  cases c with
  | bundleIssue _ => exact execBundleIssue_legal hs
  | fetchDecode _ => exact execFetchDecode_legal hs
  | resultLands _ => exact execResultLands_legal hs
  | accessAccepted _ _ => exact execAccessAccepted_legal hs
  | blkElement _ => exact execBlkElement_legal hs
  | vfirbGroup _ => exact execVfirbGroup_legal hs
  | ketchModeSwitch _ => exact execKetchModeSwitch_legal hs
  | ketchNop _ => exact execKetchNop_legal hs
  | move _ => exact execMove_legal hs
  | ldi _ => exact execLdi_legal hs
  | ldhi _ => exact execLdhi_legal hs
  | ketchAdd _ => exact execKetchAdd_legal hs
  | ketchSub _ => exact execKetchSub_legal hs
  | ketchMul _ => exact execKetchMul_legal hs
  | ketchAddi _ => exact execKetchAddi_legal hs
  | ketchAnd _ => exact execKetchAnd_legal hs
  | ketchOr _ => exact execKetchOr_legal hs
  | ketchXor _ => exact execKetchXor_legal hs
  | ketchShl _ => exact execKetchShl_legal hs
  | ketchShr _ => exact execKetchShr_legal hs
  | ketchSar _ => exact execKetchSar_legal hs
  | ketchSeq _ => exact execKetchSeq_legal hs
  | ketchSlt _ => exact execKetchSlt_legal hs
  | cvt _ => exact execCvt_legal hs
  | mktag _ => exact execMktag_legal hs
  | tagof _ => exact execTagof_legal hs
  | ld _ => exact execLd_legal hs
  | st _ => exact execSt_legal hs
  | ldraw _ => exact execLdraw_legal hs
  | straw _ => exact execStraw_legal hs
  | frame _ => exact execFrame_legal hs
  | ketchBz _ => exact execKetchBz_legal hs
  | ketchBnz _ => exact execKetchBnz_legal hs
  | ketchB _ => exact execKetchB_legal hs
  | jmp _ => exact execJmp_legal hs
  | ketchCall _ => exact execKetchCall_legal hs
  | ketchCallr _ => exact execKetchCallr_legal hs
  | ketchRet _ => exact execKetchRet_legal hs
  | kcall _ => exact execKcall_legal hs
  | kret _ => exact execKret_legal hs
  | ksys _ => exact execKsys_legal hs
  | kbrk _ => exact execKbrk_legal hs
  | keret _ => exact execKeret_legal hs
  | eventTaken _ => exact execEventTaken_legal hs
  | holdOverrun _ => exact execHoldOverrun_legal hs
  | subnormalTrap _ => exact execSubnormalTrap_legal hs
  | exceptionEntry _ => exact execExceptionEntry_legal hs
  | coachStart _ => exact execCoachStart_legal hs
  | holdMaxRead _ => exact execHoldMaxRead_legal hs
  | handoverWait _ => exact execHandoverWait_legal hs
  | waitHeartbeat _ => exact execWaitHeartbeat_legal hs
  | jobEnd _ => exact execJobEnd_legal hs
  | jobStart _ => exact execJobStart_legal hs
  | heartbeatStore _ => exact execHeartbeatStore_legal hs
  | timeRelease _ => exact execTimeRelease_legal hs
  | heldRelease _ => exact execHeldRelease_legal hs
  | graphRelease _ => exact execGraphRelease_legal hs
  | jobWithdrawn _ => exact execJobWithdrawn_legal hs
  | budgetOverrun _ => exact execBudgetOverrun_legal hs
  | graceExpired _ => exact execGraceExpired_legal hs
  | hitchSearch _ => exact execHitchSearch_legal hs
  | crossClusterSearch _ => exact execCrossClusterSearch_legal hs
  | heartbeatSample => exact execHeartbeatSample_legal hs
  | failover _ _ _ _ => exact execFailover_legal hs
  | recommission _ => exact execRecommission_legal hs
  | admitTable => exact execAdmit_legal hs
  | admitRunEntry => exact execAdmitRunEntry_legal hs
  | withdraw => exact execWithdraw_legal hs
  | sourceEvent _ _ => exact execSourceEvent_legal hs
  | gatherTimeout _ => exact execGatherTimeout_legal hs
  | icSwset _ _ => exact execIcSwset_legal hs
  | icComp _ _ => exact execIcComp_legal hs
  | sourceDisable _ _ _ => exact execSourceDisable_legal hs
  | claimUnit _ _ => exact execClaimUnit_legal hs
  | releaseClaim _ _ => exact execReleaseClaim_legal hs
  | counterTick _ => exact execCounterTick_legal hs
  | counterWrap _ => exact execCounterWrap_legal hs
  | matchEvent _ => exact execMatchEvent_legal hs
  | freezeStop _ => exact execFreezeStop_legal hs
  | freezeStart _ => exact execFreezeStart_legal hs
  | tmCntStore _ _ _ => exact execTmCntStore_legal hs
  | tmCntLoad _ _ => exact execTmCntLoad_legal hs
  | tmCmpStore _ _ _ => exact execTmCmpStore_legal hs
  | menEnable _ _ => exact execMenEnable_legal hs
  | bankArbitration _ => exact execBankArbitration_legal hs
  | writeOut _ => exact execWriteOut_legal hs
  | correctionWriteBack _ _ _ => exact execCorrectionWriteBack_legal hs
  | pageReconstruction _ _ _ => exact execPageReconstruction_legal hs
  | remap _ _ _ => exact execRemap_legal hs
  | scrubPageStart _ _ => exact execScrubPageStart_legal hs
  | scrubRead _ _ => exact execScrubRead_legal hs
  | marchStart => exact execMarchStart_legal hs
  | marchRow _ => exact execMarchRow_legal hs
  | marchComplete _ => exact execMarchComplete_legal hs
  | fuseProgram => exact execFuseProgram_legal hs
  | fuseEntryDone _ => exact execFuseEntryDone_legal hs
  | vppRemoved => exact execVppRemoved_legal hs
  | injectionArm _ _ => exact execInjectionArm_legal hs
  | logWrite => exact execLogWrite_legal hs
  | tailStore _ _ => exact execTailStore_legal hs
  | loadPortWrite _ _ => exact execLoadPortWrite_legal hs
  | loadPortRead _ _ => exact execLoadPortRead_legal hs
  | loadPortDone => exact execLoadPortDone_legal hs
  | regionWrite _ _ _ _ => exact execRegionWrite_legal hs
  | dramPark => exact execDramPark_legal hs
  | parkComplete => exact execParkComplete_legal hs
  | dramUnpark => exact execDramUnpark_legal hs
  | sampleEdge _ => exact execSampleEdge_legal hs
  | mediaClockEnable _ _ _ => exact execMediaClockEnable_legal hs
  | mediaClockDisable _ _ _ => exact execMediaClockDisable_legal hs
  | referenceLost _ => exact execReferenceLost_legal hs
  | referenceReturn _ => exact execReferenceReturn_legal hs
  | lockAchieved _ => exact execLockAchieved_legal hs
  | countLatchRead _ _ => exact execCountLatchRead_legal hs
  | frameSync _ _ _ => exact execFrameSync_legal hs
  | frameCaptured _ _ => exact execFrameCaptured_legal hs
  | noclk _ => exact execNoclk_legal hs
  | bclkReturn _ => exact execBclkReturn_legal hs
  | portEnable _ _ _ => exact execPortEnable_legal hs
  | portDisable _ _ _ => exact execPortDisable_legal hs
  | formatStore _ _ _ => exact execFormatStore_legal hs
  | pdmControlStore _ _ _ => exact execPdmControlStore_legal hs
  | wagonEnable _ _ _ _ => exact execWagonEnable_legal hs
  | wagonDisable _ _ _ _ => exact execWagonDisable_legal hs
  | blockReady _ _ => exact execBlockReady_legal hs
  | lineMove _ => exact execLineMove_legal hs
  | concealment _ _ => exact execConcealment_legal hs
  | asrcStreamEnable _ _ _ _ => exact execAsrcStreamEnable_legal hs
  | asrcStreamDisable _ _ _ _ => exact execAsrcStreamDisable_legal hs
  | asrcDelayStore _ _ _ _ => exact execAsrcDelayStore_legal hs
  | asrcOutputBlock _ _ => exact execAsrcOutputBlock_legal hs
  | asrcLock _ _ _ => exact execAsrcLock_legal hs
  | asrcUnlock _ _ => exact execAsrcUnlock_legal hs
  | expressInputPair => exact execExpressInputPair_legal hs
  | expressOutput => exact execExpressOutput_legal hs
  | frameReceive _ _ => exact execFrameReceive_legal hs
  | syncReceiptTimeout _ => exact execSyncReceiptTimeout_legal hs
  | syncTransmit _ => exact execSyncTransmit_legal hs
  | pdelayRequest _ => exact execPdelayRequest_legal hs
  | listenerLost _ => exact execListenerLost_legal hs
  | talkerLaunch _ => exact execTalkerLaunch_legal hs
  | frameTransmit _ => exact execFrameTransmit_legal hs
  | gateIntervalEnd _ => exact execGateIntervalEnd_legal hs
  | gateChangeRequest _ _ _ => exact execGateChangeRequest_legal hs
  | gateListChange _ => exact execGateListChange_legal hs
  | contextEnable _ _ _ => exact execContextEnable_legal hs
  | contextDisable _ _ _ => exact execContextDisable_legal hs
  | rebind _ _ _ => exact execRebind_legal hs
  | linkDown _ => exact execLinkDown_legal hs
  | linkUp _ => exact execLinkUp_legal hs
  | mdioCommand _ => exact execMdioCommand_legal hs
  | requestArrival _ _ => exact execRequestArrival_legal hs
  | spiRead => exact execSpiRead_legal hs
  | read => exact execRead_legal hs
  | write => exact execWrite_legal hs
  | status => exact execStatus_legal hs
  | claim => exact execClaim_legal hs
  | heartbeat => exact execHeartbeat_legal hs
  | handover => exact execHandover_legal hs
  | release => exact execRelease_legal hs
  | electionEnd => exact execElectionEnd_legal hs
  | ownerLapse => exact execOwnerLapse_legal hs
  | sessionClose _ => exact execSessionClose_legal hs
  | transferTimeout _ => exact execTransferTimeout_legal hs
  | svcClaim => exact execSvcClaim_legal hs
  | svcProve => exact execSvcProve_legal hs
  | challengeExpiry => exact execChallengeExpiry_legal hs
  | svcEnd => exact execSvcEnd_legal hs
  | serviceLapse => exact execServiceLapse_legal hs
  | serviceEnDeassert => exact execServiceEnDeassert_legal hs
  | safeCommand => exact execSafeCommand_legal hs
  | configCommand => exact execConfigCommand_legal hs
  | resourceClaim => exact execResourceClaim_legal hs
  | resourceRelease => exact execResourceRelease_legal hs
  | clearReportCounts => exact execClearReportCounts_legal hs
  | commSettingsApply => exact execCommSettingsApply_legal hs
  | rwpPersist _ => exact execRwpPersist_legal hs
  | ringWrite => exact execRingWrite_legal hs
  | bbInCommit _ _ => exact execBbInCommit_legal hs
  | manualTrigger => exact execManualTrigger_legal hs
  | rearm => exact execRearm_legal hs
  | ownerNote => exact execOwnerNote_legal hs
  | copySlotErase => exact execCopySlotErase_legal hs
  | lostPeriodSummary => exact execLostPeriodSummary_legal hs
  | pfailAssert => exact execPfailAssert_legal hs
  | pfailRelease => exact execPfailRelease_legal hs
  | dipEnd => exact execDipEnd_legal hs
  | powerOnReset => exact execPowerOnReset_legal hs
  | resetNAssert => exact execResetNAssert_legal hs
  | l0HaltReset => exact execL0HaltReset_legal hs
  | watchdogExpiry => exact execWatchdogExpiry_legal hs
  | watchdogKick _ _ => exact execWatchdogKick_legal hs
  | thermalTrip => exact execThermalTrip_legal hs
  | pllLockLost => exact execPllLockLost_legal hs
  | resetRelease => exact execResetRelease_legal hs
  | selftestComplete _ => exact execSelftestComplete_legal hs
  | bootComplete => exact execBootComplete_legal hs
  | domainRequest _ _ => exact execDomainRequest_legal hs
  | domainTransitionDone _ => exact execDomainTransitionDone_legal hs
  | avsReadback _ _ _ => exact execAvsReadback_legal hs
  | voltageStepDown => exact execVoltageStepDown_legal hs
  | marginMeasure _ => exact execMarginMeasure_legal hs
  | vAgeStore => exact execVAgeStore_legal hs
  | supplyAlarm _ _ => exact execSupplyAlarm_legal hs
  | thermalAlarm _ _ => exact execThermalAlarm_legal hs
  | clusterClockSet _ _ => exact execClusterClockSet_legal hs
  | registerWrite _ _ _ _ => exact execRegisterWrite_legal hs
  | thermalAlarmEnd => exact execThermalAlarmEnd_legal hs
  | rearmComplete => exact execRearmComplete_legal hs
  | canErrorStateChange _ => exact execCanErrorStateChange_legal hs
  | pendingRepairListStore => exact execPendingRepairListStore_legal hs

/-- The effect of every command is guarded by the existence of the units that it names. -/
theorem exec_eq_act (c : Instr) (s : State) : ∃ t, exec c s = act c.wf t := by
  cases c <;> exact ⟨_, rfl⟩

/-- Settles O1. -/
theorem stepRunsTheFrontCommand : Obligations.StepRunsTheFrontCommand := by
  intro s c rest h
  simp only [step, h]

/-- Settles O3: the variant and the queue are part of what every command keeps. -/
theorem commandsLeaveTheQueueAlone : Obligations.CommandsLeaveTheQueueAlone := by
  intro s t c hs h
  have hkept := exec_legal (legal_here s hs) t h
  exact ⟨hkept.pending, hkept.variant⟩

/-- Settles O5: a step is a cycle of the fabric or a command on the queue's rest, and both keep a legal state. -/
theorem everyStepKeepsALegalState : Obligations.EveryStepKeepsALegalState := by
  intro s t hs h
  cases hq : s.pending with
  | nil =>
    have ht : t = tickCycle s := by simpa [step, hq] using h.symm
    exact ht ▸ (tickCycle_legal (legal_here s hs)).legal
  | cons c rest =>
    rw [stepRunsTheFrontCommand s c rest hq] at h
    exact (exec_legal (legal_rest s rest hs) t h).legal

/-- Settles O6: `act` answers a state where its guard holds and refuses otherwise. -/
theorem everyCommandThatExistsCompletes : Obligations.EveryCommandThatExistsCompletes := by
  intro s c
  obtain ⟨t, ht⟩ := exec_eq_act c s
  rw [ht]
  exact ⟨fun hwf => ⟨t, act_wf hwf⟩, fun hwf => by simp [act, hwf]⟩

/-! ## The cycle of an empty queue -/

/-- The move of one domain's offset changes the offsets alone. -/
theorem shiftOffset_frame (t : State) (i : Int) (d : Nat) :
    (if ptpOf t d = ptp0 then t else setPtp t d { ptpOf t d with offset := (ptpOf t d).offset - i }) =
      { t with net := { t.net with ptp := (if ptpOf t d = ptp0 then t else setPtp t d { ptpOf t d with offset := (ptpOf t d).offset - i }).net.ptp } } := by
  split <;> rfl

/-- A shift of the device time changes it and the offsets of the domains alone. -/
theorem shiftTime_frame (s : State) (i : Int) :
    shiftTime s i = { s with dtime := ((s.dtime : Int) + i).toNat, net := { s.net with ptp := (shiftTime s i).net.ptp } } := by
  unfold shiftTime
  simp only [upto, List.range_succ, List.range_zero, List.nil_append, List.foldl_append, List.foldl_cons, List.foldl_nil]
  rw [shiftOffset_frame _ i 1, shiftOffset_frame _ i 0]

/-- What a cycle is: a tick of both clocks, and in one cycle of 10,000 a slew by 1 ns either way. -/
theorem tickCycle_cases (s : State) :
    let t : State := { s with now := s.now + 1, dtime := s.dtime + 1 }
    tickCycle s = t ∨ (s.now + 1) % 10000 = 0 ∧ (tickCycle s = shiftTime t 1 ∨ tickCycle s = shiftTime t (-1)) := by
  intro t
  unfold tickCycle
  by_cases h : (s.now + 1) % 10000 = 0
  · simp only [h, ne_eq, not_true_eq_false, if_false, true_and]
    cases dtDomain t with
    | none => exact .inl rfl
    | some d =>
      dsimp only
      split
      · exact .inr (.inl rfl)
      · split
        · exact .inr (.inr rfl)
        · exact .inl rfl
  · exact .inl (if_pos h)

/-- Settles O2: the slew moves the device time of the tick by 1 ns at most. -/
theorem anEmptyQueueIsOneCycle : Obligations.AnEmptyQueueIsOneCycle := by
  intro s hq
  refine ⟨tickCycle s, by simp only [step, hq], ?_⟩
  rcases tickCycle_cases s with h | ⟨hslew, h | h⟩
  · rw [h]
    exact ⟨rfl, by simp, by simp, fun _ => rfl, rfl⟩
  all_goals
    rw [h, shiftTime_frame]
    exact ⟨rfl, by dsimp only; omega, by dsimp only; omega, fun hne => absurd hslew hne, rfl⟩

/-- Settles O4: reset leaves every queue and table empty. -/
theorem resetIsLegal : Obligations.ResetIsLegal where
  dev := by decide
  held := by decide
  queue := by decide
  sessions := by decide
  spi := by decide
  bbIntake := by decide
  errIntake := by decide
  memory := rfl
  registers := rfl

end Sys2Proof.Machine
end

section
/-! The register table by block (chapters 09 to 17): which row of it an address of the window has, and that every claim word resets to 0. -/
namespace Sys2Proof.Machine
open Sys2Proof.Config
variable {v : Variant} {i : RegInfo} {o n : Nat}

/-- Where a word pair of the window lies: the dispatch of `regInfo` on the block. -/
theorem regInfo_block {a b o : Nat} (ha : a = 0x04000000 + b * 0x10000 + o) (hb : b < 256) (ho : o < 0x10000) (he : o % 2 = 0) :
    regInfo v a =
      if b < 8 then (if b < v.clusters then regCL o else none)
      else if b = 8 then regMEM o
      else if b = 9 then regECC o
      else if b = 10 then regSCB o
      else if b = 11 then regMT o
      else if b = 12 then regFUSE o
      else if b = 13 then regIC v o
      else if b = 14 then regTM o
      else if b = 15 then regPWR v o
      else if b = 16 then regCLK o
      else if b = 17 then regBB o
      else if b = 18 || b = 19 then some (ro 0)
      else if b = 20 then regPTP o
      else if 0x20 ≤ b && b < 0x30 then regSE (b - 0x20) o
      else if 0x30 ≤ b && b < 0x34 then (if b - 0x30 < v.asrcEngines then regASRC (b - 0x30) o else none)
      else if 0x40 ≤ b && b < 0x60 then (if b - 0x40 < v.tdmPorts then regAP (b - 0x40) o else none)
      else if b = 0x60 then regPDM o
      else if 0x70 ≤ b && b < 0x76 then (if ethPresent v (b - 0x70) then regETH (b - 0x70) o else none)
      else none := by
  have hwin : (a < 0x04000000 || a ≥ 0x05000000 || a % 2 = 1) = false := by simp; omega
  have hblock : a / 0x10000 % 256 = b := by omega
  have hoff : a % 0x10000 = o := by omega
  unfold regInfo
  rw [hwin, if_neg Bool.false_ne_true]
  simp only [hblock, hoff]

/-! ## Claim words reset to 0 -/

/-- A claim word among what the table gives resets to 0: no claim is held. -/
def ClaimFree (r : Option RegInfo) : Prop := ∀ i, r = some i → i.isClaim = true → i.rst = 0

theorem claimFree_none : ClaimFree none := by simp [ClaimFree]
theorem claimFree_ro (rst : W32) : ClaimFree (some (ro rst)) := by simp [ClaimFree, ro]

theorem claimFree_ite {c : Prop} [Decidable c] {x y : Option RegInfo} (hx : ClaimFree x) (hy : ClaimFree y) : ClaimFree (if c then x else y) := by
  split
  · exact hx
  · exact hy

theorem regCL_claimFree : ClaimFree (regCL o) := by
  simp only [regCL, ro]
  repeat' split
  all_goals simp [ClaimFree]
theorem regMEM_claimFree : ClaimFree (regMEM o) := by
  simp only [regMEM, ro]
  repeat' split
  all_goals simp [ClaimFree]
theorem regECC_claimFree : ClaimFree (regECC o) := by
  simp only [regECC, ro]
  repeat' split
  all_goals simp [ClaimFree]
theorem regSCB_claimFree : ClaimFree (regSCB o) := by
  simp only [regSCB, ro]
  repeat' split
  all_goals simp [ClaimFree]
theorem regMT_claimFree : ClaimFree (regMT o) := by
  simp only [regMT, ro]
  repeat' split
  all_goals simp [ClaimFree]
theorem regFUSE_claimFree : ClaimFree (regFUSE o) := by
  simp only [regFUSE, ro]
  repeat' split
  all_goals simp [ClaimFree]
theorem regIC_claimFree : ClaimFree (regIC v o) := by
  simp only [regIC, ro]
  repeat' split
  all_goals simp [ClaimFree]
theorem regTM_claimFree : ClaimFree (regTM o) := by
  simp only [regTM, ro]
  repeat' split
  all_goals simp [ClaimFree]
theorem regPWR_claimFree : ClaimFree (regPWR v o) := by
  simp only [regPWR, ro]
  repeat' split
  all_goals simp [ClaimFree]
theorem regCLK_claimFree : ClaimFree (regCLK o) := by
  simp only [regCLK, ro]
  repeat' split
  all_goals simp [ClaimFree]
theorem regBB_claimFree : ClaimFree (regBB o) := by
  simp only [regBB, ro]
  repeat' split
  all_goals simp [ClaimFree]
theorem regPTP_claimFree : ClaimFree (regPTP o) := by
  simp only [regPTP, ro]
  repeat' split
  all_goals simp [ClaimFree]
theorem regSE_claimFree : ClaimFree (regSE n o) := by
  simp only [regSE, ro]
  repeat' split
  all_goals simp [ClaimFree]
theorem regASRC_claimFree : ClaimFree (regASRC n o) := by
  simp only [regASRC, ro]
  repeat' split
  all_goals simp [ClaimFree]
theorem regAP_claimFree : ClaimFree (regAP n o) := by
  simp only [regAP, ro]
  repeat' split
  all_goals simp [ClaimFree]
theorem regPDM_claimFree : ClaimFree (regPDM o) := by
  simp only [regPDM, ro]
  repeat' split
  all_goals simp [ClaimFree]
theorem regETH_claimFree : ClaimFree (regETH n o) := by
  simp only [regETH, ro]
  repeat' with_reducible apply claimFree_ite
  all_goals simp [ClaimFree]

/-- Every claim word of the window resets to 0. -/
theorem regInfo_claimFree (v : Variant) (a : Nat) : ClaimFree (regInfo v a) := by
  unfold regInfo
  dsimp only
  repeat' with_reducible apply claimFree_ite
  all_goals
    simp only [claimFree_none, regCL_claimFree, regMEM_claimFree, regECC_claimFree, regSCB_claimFree, regMT_claimFree, regFUSE_claimFree, regIC_claimFree,
      regTM_claimFree, regPWR_claimFree, regCLK_claimFree, regBB_claimFree, regPTP_claimFree, regSE_claimFree, regASRC_claimFree, regAP_claimFree,
      regPDM_claimFree, regETH_claimFree, claimFree_ro]

/-! ## Registers by their block -/

theorem regInfo_mem (ho : o < 0x10000) (he : o % 2 = 0) : regInfo v (0x04080000 + o) = regMEM o := by
  rw [regInfo_block (b := 8) (o := o) (by omega) (by omega) ho he]; rfl
theorem regInfo_scb (ho : o < 0x10000) (he : o % 2 = 0) : regInfo v (0x040A0000 + o) = regSCB o := by
  rw [regInfo_block (b := 10) (o := o) (by omega) (by omega) ho he]; rfl
theorem regInfo_ic (ho : o < 0x10000) (he : o % 2 = 0) : regInfo v (0x040D0000 + o) = regIC v o := by
  rw [regInfo_block (b := 13) (o := o) (by omega) (by omega) ho he]; rfl
theorem regInfo_tm (ho : o < 0x10000) (he : o % 2 = 0) : regInfo v (0x040E0000 + o) = regTM o := by
  rw [regInfo_block (b := 14) (o := o) (by omega) (by omega) ho he]; rfl
theorem regInfo_pwr (ho : o < 0x10000) (he : o % 2 = 0) : regInfo v (0x040F0000 + o) = regPWR v o := by
  rw [regInfo_block (b := 15) (o := o) (by omega) (by omega) ho he]; rfl
theorem regInfo_clk (ho : o < 0x10000) (he : o % 2 = 0) : regInfo v (0x04100000 + o) = regCLK o := by
  rw [regInfo_block (b := 16) (o := o) (by omega) (by omega) ho he]; rfl
theorem regInfo_bb (ho : o < 0x10000) (he : o % 2 = 0) : regInfo v (0x04110000 + o) = regBB o := by
  rw [regInfo_block (b := 17) (o := o) (by omega) (by omega) ho he]; rfl
theorem regInfo_se (hn : n < 16) (ho : o < 0x10000) (he : o % 2 = 0) : regInfo v (seBase n + o) = regSE n o := by
  rw [regInfo_block (b := 0x20 + n) (o := o) (by unfold seBase; omega) (by omega) ho he]
  simp [show ¬ 0x20 + n < 8 by omega, show ∀ j < 0x20, ¬ 0x20 + n = j by omega, show ¬ 0x30 ≤ 0x20 + n by omega]
theorem regInfo_asrc (hn : n < v.asrcEngines) (ho : o < 0x10000) (he : o % 2 = 0) : regInfo v (asBase n + o) = regASRC n o := by
  have hle : v.asrcEngines ≤ 4 := by cases v <;> decide
  rw [regInfo_block (b := 0x30 + n) (o := o) (by unfold asBase; omega) (by omega) ho he]
  simp [show ¬ 0x30 + n < 8 by omega, show ∀ j < 0x30, ¬ 0x30 + n = j by omega, show ¬ 0x30 + n < 0x30 by omega, show 0x30 + n < 0x34 by omega, hn]
theorem regInfo_ap (hn : n < v.tdmPorts) (ho : o < 0x10000) (he : o % 2 = 0) : regInfo v (apBase n + o) = regAP n o := by
  have hle : v.tdmPorts ≤ 32 := by cases v <;> decide
  rw [regInfo_block (b := 0x40 + n) (o := o) (by unfold apBase; omega) (by omega) ho he]
  simp [show ¬ 0x40 + n < 8 by omega, show ∀ j < 0x40, ¬ 0x40 + n = j by omega, show ¬ 0x40 + n < 0x30 by omega, show ¬ 0x40 + n < 0x34 by omega,
    show 0x40 + n < 0x60 by omega, hn]
theorem regInfo_pdm (ho : o < 0x10000) (he : o % 2 = 0) : regInfo v (0x04600000 + o) = regPDM o := by
  rw [regInfo_block (b := 0x60) (o := o) (by omega) (by omega) ho he]; rfl
theorem regInfo_eth (hn : n < 6) (hp : ethPresent v n = true) (ho : o < 0x10000) (he : o % 2 = 0) : regInfo v (ethBase n + o) = regETH n o := by
  rw [regInfo_block (b := 0x70 + n) (o := o) (by unfold ethBase; omega) (by omega) ho he]
  simp [show ¬ 0x70 + n < 8 by omega, show ∀ j < 0x70, ¬ 0x70 + n = j by omega, show ¬ 0x70 + n < 0x30 by omega, show ¬ 0x70 + n < 0x34 by omega,
    show ¬ 0x70 + n < 0x60 by omega, show 0x70 + n < 0x76 by omega, hp]

/-! ## What the registers of a device in reset read -/

/-- A register of the device that reset leaves reads as the table's reset value. -/
theorem reg_reset (a : Nat) : reg State.reset a = sysReset .fj9064 a := rfl
theorem sysReset_of_regInfo {a : Nat} (h : regInfo v a = some i) : sysReset v a = i.rst := by simp only [sysReset, h]

theorem claimHeld_reset {a : Nat} (h : regInfo .fj9064 a = some i) (hc : i.isClaim = true) : claimHeld State.reset a = false := by
  unfold claimHeld regB
  rw [reg_reset, sysReset_of_regInfo h, regInfo_claimFree _ _ i h hc]
  rfl

theorem regInfo_icScfg (hn : n < 2048) : regInfo v (icScfg n) = regIC v (0x4000 + 8 * n) := by
  rw [← regInfo_ic (by omega) (by omega)]; unfold icScfg icBase; congr 1; omega
theorem regInfo_icScnt (hn : n < 2048) : regInfo v (icScnt n) = regIC v (0x4004 + 8 * n) := by
  rw [← regInfo_ic (by omega) (by omega)]; unfold icScnt icBase; congr 1; omega

/-- The four registers of a source (R431), by their place among the source's 8 words. -/
theorem regIC_source {j : Nat} (hn : n < 2048) (hj : j < 8) :
    regIC v (0x4000 + 8 * n + j) =
      if !srcPresent v n then some (ro 0)
      else
        let y : RegInfo := { ro 0 with confAt := icStat, confBit := 0, claim := icSclaim n }
        if j = 0 then some { y with own := 0xF0FFFFFF, rst := 0x20010000 }
        else if j = 2 then some { y with own := 0x7F1F }
        else if j = 4 then some y
        else some { y with isClaim := true } := by
  have hsrc : (0x4000 + 8 * n + j - 0x4000) / 8 = n := by omega
  have hmod : (0x4000 + 8 * n + j) % 8 = j := by omega
  have hin : (decide (0x4000 ≤ 0x4000 + 8 * n + j) && decide (0x4000 + 8 * n + j < 0x8000)) = true := by simp; omega
  unfold regIC
  rw [if_neg (by simp; omega), if_neg (by simp; omega), if_neg (by omega), if_pos hin]
  simp only [hsrc, hmod]

theorem reg_icScfg_reset (hn : n < 2048) : reg State.reset (icScfg n) = if srcPresent .fj9064 n then 0x20010000 else 0 := by
  rw [reg_reset, sysReset, regInfo_icScfg hn, ← Nat.add_zero (0x4000 + 8 * n), regIC_source hn (by omega)]
  cases srcPresent .fj9064 n <;> rfl
theorem reg_icScnt_reset (hn : n < 2048) : reg State.reset (icScnt n) = 0 := by
  rw [reg_reset, sysReset, regInfo_icScnt hn, show 0x4004 + 8 * n = 0x4000 + 8 * n + 4 by omega, regIC_source hn (by omega)]
  cases srcPresent .fj9064 n <;> rfl

/-- An interrupt source after reset: disabled and IDLE. -/
theorem source_reset (hn : n < 2048) : srcEn State.reset n = false ∧ srcState State.reset n = 0 := by
  simp only [srcEn, srcState, regB, regF, reg_icScfg_reset hn, reg_icScnt_reset hn]
  cases srcPresent .fj9064 n <;> decide

end Sys2Proof.Machine
end

section
/-! What reset leaves (chapters 02 to 17). -/
namespace Sys2Proof.Machine

/-- Settles O60: reset leaves every table empty, so that each register reads as the register table's reset value. -/
theorem resetValues : Obligations.ResetValues := by
  refine ⟨rfl, ?coaches, fun a i h hc => claimHeld_reset h hc, fun n hn => ?sources, by decide +kernel, by decide +kernel, by decide +kernel,
    by decide +kernel, ?contexts, by decide +kernel, ?regions, by decide +kernel, by decide +kernel, by decide, by decide, by decide⟩
  case sources =>
    obtain ⟨hen, hst⟩ := source_reset hn
    refine ⟨hen, hst, fun hp => ?_⟩
    have hp : srcPresent .fj9064 n = true := hp
    rw [reg_icScfg_reset hn, if_pos hp]
  case coaches =>
    intro c
    rw [show co State.reset c = Coach.reset from rfl]
    decide
  case regions =>
    have hclear : ∀ c < 72, ∀ r < 8, regF State.reset (memRB c r + 4) 0 4 = 0 := by decide +kernel
    exact fun c r hc hr => hclear c hc r hr
  case contexts =>
    intro x
    have hw (w : Nat) : ctxW State.reset x w = descReset w := rfl
    refine ⟨?_, ?_, ?_⟩
    · rw [ctxEn, hw]; decide
    · rw [ctxPoff, ctxF, hw]; decide
    · rw [ctxLat, ctxF, hw]; decide
end Sys2Proof.Machine
end

section
/-! Stores by access code (R12 to R14): what `storeVal` leaves bit by bit, when a store conflicts, and what a store of an owned register
leaves; frames over system registers. -/
namespace Sys2Proof.Machine

/-! ## Frames over registers -/

variable {s t u : State} {l : List Nat}

theorem onlyRegs_refl (l : List Nat) (s : State) : OnlyRegs l s s := ⟨rfl, fun _ _ => rfl⟩
theorem onlyRegs_trans (h : OnlyRegs l s t) (g : OnlyRegs l t u) : OnlyRegs l s u :=
  ⟨by rw [g.1, h.1], fun a ha => (g.2 a ha).trans (h.2 a ha)⟩
theorem onlyRegs_mono {l' : List Nat} (h : OnlyRegs l s t) (hl : ∀ a ∈ l, a ∈ l') : OnlyRegs l' s t :=
  ⟨h.1, fun a ha => h.2 a fun hmem => ha (hl a hmem)⟩
theorem onlyRegs_setReg (s : State) (a : Nat) (v : W32) : OnlyRegs [a] s (setReg s a v) :=
  ⟨rfl, fun b hb => by rw [reg_setReg, if_neg (by simpa using hb)]⟩
theorem onlyRegs_setRegF (s : State) (a lo w v : Nat) : OnlyRegs [a] s (setRegF s a lo w v) := onlyRegs_setReg _ _ _
theorem onlyRegs_setRegB (s : State) (a i : Nat) (b : Bool) : OnlyRegs [a] s (setRegB s a i b) := onlyRegs_setReg _ _ _
theorem onlyRegs_setSrc (s : State) (n st cnt : Nat) : OnlyRegs [icScnt n] s (setSrc s n st cnt) := onlyRegs_setReg _ _ _

/-! ## State and count of a source as last set -/

theorem rfld_n32 (x lo w : Nat) (h : lo + w ≤ 32) : rfld (n32 x) lo w = fld x lo w := by
  apply Nat.eq_of_testBit_eq
  intro i
  rw [testBit_rfld, testBit_fld]
  by_cases hi : i < w
  · rw [rbit, n32, BitVec.getLsbD_ofNat, decide_eq_true (show lo + i < 32 by omega), Bool.true_and]
  · simp [hi]

theorem srcState_setSrc (s : State) (n : Nat) {st cnt : Nat} (hst : st < 4) (hcnt : cnt < 256) : srcState (setSrc s n st cnt) n = st := by
  unfold srcState setSrc regF
  rw [reg_setReg_same, rfld_n32 _ _ _ (by omega), fld, Nat.shiftRight_eq_div_pow]
  omega
theorem srcCount_setSrc (s : State) (n : Nat) {st cnt : Nat} (hcnt : cnt < 256) : srcCount (setSrc s n st cnt) n = cnt := by
  unfold srcCount setSrc regF
  rw [reg_setReg_same, rfld_n32 _ _ _ (by omega), fld, Nat.shiftRight_zero]
  omega
theorem srcState_lt (s : State) (n : Nat) : srcState s n < 4 := rfld_lt _ _ _
theorem srcCount_lt (s : State) (n : Nat) : srcCount s n < 256 := rfld_lt _ _ _
/-- State and count of a source are what its register says. -/
theorem srcState_congr {n : Nat} (h : reg t (icScnt n) = reg s (icScnt n)) : srcState t n = srcState s n := by
  simp only [srcState, regF, h]
theorem srcCount_congr {n : Nat} (h : reg t (icScnt n) = reg s (icScnt n)) : srcCount t n = srcCount s n := by
  simp only [srcCount, regF, h]

/-! ## The value that a store leaves -/

variable {m a : Nat} {v : W32} {i : RegInfo}

/-- The bits that a store by master `m` writes. -/
def storeMask (s : State) (m : Nat) (i : RegInfo) : Nat := i.rw ||| (if ownsClaim s i.claim m then i.own else 0)
/-- The word that a store offers: each field that holds a reserved value keeps what it held (R14). -/
def storeWord (s : State) (a : Nat) (v : W32) : Nat :=
  (sysReserved s a v.toNat).foldl (fun x e => setFld x e.1 e.2 (fld (reg s a).toNat e.1 e.2)) v.toNat
/-- A store conflicts where it meets OWN bits of another holder, or offers a reserved value to bits that it writes. -/
def storeConflicts (s : State) (m a : Nat) (v : W32) (i : RegInfo) : Bool :=
  (i.own ≠ 0 && !ownsClaim s i.claim m) || (!(sysReserved s a v.toNat).isEmpty && (storeMask s m i ≠ 0))

theorem storeVal_eq (s : State) (m a : Nat) (v : W32) (i : RegInfo) :
    storeVal s m a v i =
      (n32 (((reg s a).toNat &&& (2 ^ 32 - 1 - storeMask s m i) ||| storeWord s a v &&& storeMask s m i) &&& (2 ^ 32 - 1 - (v.toNat &&& i.w1c))),
        storeConflicts s m a v i) := rfl

theorem testBit_allBut {x : Nat} (h : x < 2 ^ 32) (j : Nat) : (2 ^ 32 - 1 - x).testBit j = (decide (j < 32) && !x.testBit j) := by
  rw [show 2 ^ 32 - 1 - x = 2 ^ 32 - (x + 1) by omega]
  exact Nat.testBit_two_pow_sub_succ h j

/-- A store leaves the word offered in the bits that it writes, the old ones elsewhere, and 0 where a W1C bit is stored as 1. -/
theorem rbit_storeVal (hmask : storeMask s m i < 2 ^ 32) {j : Nat} (hj : j < 32) :
    rbit (storeVal s m a v i).1 j =
      ((if (storeMask s m i).testBit j then (storeWord s a v).testBit j else rbit (reg s a) j) && !(rbit v j && i.w1c.testBit j)) := by
  have hw1c : v.toNat &&& i.w1c < 2 ^ 32 := Nat.lt_of_le_of_lt Nat.and_le_left v.isLt
  rw [storeVal_eq]
  dsimp only
  rw [rbit, n32, BitVec.getLsbD_ofNat, decide_eq_true hj, Bool.true_and, Nat.testBit_and, Nat.testBit_or, Nat.testBit_and, Nat.testBit_and,
    testBit_allBut hmask, testBit_allBut hw1c, Nat.testBit_and, decide_eq_true hj, rbit_eq, rbit_eq]
  cases (storeMask s m i).testBit j <;> simp

theorem storeWord_of_no_reserved (h : sysReserved s a v.toNat = []) : storeWord s a v = v.toNat := by simp only [storeWord, h, List.foldl_nil]

theorem eq_of_rbit {x y : W32} (h : ∀ j < 32, rbit x j = rbit y j) : x = y := BitVec.eq_of_getLsbD_eq h

/-- A store of a register all of whose bits it writes leaves what is stored. -/
theorem storeVal_all (hmask : storeMask s m i = 2 ^ 32 - 1) (hw1c : i.w1c = 0) (hres : sysReserved s a v.toNat = []) : (storeVal s m a v i).1 = v := by
  apply eq_of_rbit
  intro j hj
  rw [rbit_storeVal (by omega) hj, hmask, hw1c, storeWord_of_no_reserved hres, Nat.testBit_two_pow_sub_one, decide_eq_true hj]
  simp [rbit_eq]

theorem storePlain_of_conflict (hi : regInfo s.variant a = some i) (hc : storeConflicts s m a v i = true) :
    storePlain s m a v = conflictAt (setReg s a (storeVal s m a v i).1) i.confAt i.confBit := by
  simp only [storePlain, hi, storeVal_eq, hc, if_true]
theorem storePlain_of_no_conflict (hi : regInfo s.variant a = some i) (hc : storeConflicts s m a v i = false) :
    storePlain s m a v = setReg s a (storeVal s m a v i).1 := by
  simp only [storePlain, hi, storeVal_eq, hc, Bool.false_eq_true, if_false]

theorem storeMask_owned (hown : ownsClaim s i.claim m = true) : storeMask s m i = i.rw ||| i.own := by simp only [storeMask, hown, if_true]
theorem storeMask_not_owned (hown : ownsClaim s i.claim m = false) : storeMask s m i = i.rw := by
  simp only [storeMask, hown, Bool.false_eq_true, if_false, Nat.or_zero]
theorem storeConflicts_owned (hown : ownsClaim s i.claim m = true) (hres : sysReserved s a v.toNat = []) : storeConflicts s m a v i = false := by
  simp [storeConflicts, hown, hres]
theorem storeConflicts_not_owned (hown : ownsClaim s i.claim m = false) (hne : i.own ≠ 0) : storeConflicts s m a v i = true := by
  simp [storeConflicts, hown, hne]

end Sys2Proof.Machine
end

section
/-! Gathers and completions (chapter 14, R421 to R423, R429). -/
namespace Sys2Proof.Machine
variable {s : State} {m n : Nat} {v : W32}

theorem gatherOp_due (hst : srcState s n = 1) (hdue : tget 0 s.intc.gather n + 1000 * regF s (icScfg n) 0 16 ≤ s.now) :
    gatherOp s n = setSrc s n 2 (srcCount s n) := by
  simp [gatherOp, hst, hdue]

/-- A source below 256 has no level that could assert again. -/
theorem srcRearm_software (s : State) (h : n < 256) : srcRearm s n = s := by
  simp [srcRearm, show ¬ 256 ≤ n by omega]

theorem icCompStore_good (hn : rfld v 0 11 = n) (hst : srcState s n = 2) (hby : m = 72 ∨ aimedAt s m n = true) :
    icCompStore s m v = srcRearm (setSrc s n 0 0) n := by
  simp [icCompStore, hn, hst, hby]
theorem icCompStore_bad (hst : srcState s (rfld v 0 11) ≠ 2) :
    icCompStore s m v = pulse (setReg (setReg s (icBase + 0x204) (reg s (icBase + 0x204) + 1)) (icBase + 0x206) (n32 (m % 128 * 4096 + rfld v 0 11))) 1080 := by
  simp [icCompStore, hst]

/-- The registers of bad completions are no source's. -/
theorem icScnt_ne_completions (n j : Nat) (hj : j < 0x4000) : icBase + j ≠ icScnt n := by
  unfold icScnt icBase; omega
theorem icScnt_inj {k : Nat} (h : k ≠ n) : icScnt k ≠ icScnt n := by unfold icScnt; omega

theorem disableOp_holder (hen : srcEn s n = true) (hv : rbit v 31 = false) (hp : srcPresent s.variant n = true) (hown : ownsClaim s (icSclaim n) m = true) :
    disableOp s m n v = setSrc (storePlain s m (icScfg n) v) n 0 0 := by
  simp [disableOp, icScfgStore, hen, hv, hp, hown]

/-- Settles O32: each command sets the state and count of the one source that it names. -/
theorem gathersAndCompletions : Obligations.GathersAndCompletions := by
  intro s m n v hm hn
  refine ⟨fun hst hdue => ?gather, fun hname hst hby hsoft => ?completion, fun hst hself => ?bad, fun hen hv hp hown => ?disable⟩
  case gather =>
    refine ⟨gatherOp s n, act_wf (decide_eq_true hn), ?_⟩
    rw [gatherOp_due hst hdue]
    exact ⟨srcState_setSrc s n (by omega) (srcCount_lt s n), srcCount_setSrc s n (srcCount_lt s n), onlyRegs_setSrc s n _ _⟩
  case completion =>
    refine ⟨icCompStore s m v, act_wf hm, ?_⟩
    rw [icCompStore_good hname hst hby, srcRearm_software _ hsoft]
    exact ⟨srcState_setSrc s n (by omega) (by omega), srcCount_setSrc s n (by omega), onlyRegs_setSrc s n _ _⟩
  case bad =>
    refine ⟨icCompStore s m v, act_wf hm, ?_⟩
    rw [icCompStore_bad hst]
    have hpulse := (sourceOnly_pulse (setReg (setReg s (icBase + 0x204) (reg s (icBase + 0x204) + 1)) (icBase + 0x206)
      (n32 (m % 128 * 4096 + rfld v 0 11))) 1080).regs
    refine ⟨?_, ?_, srcState_congr ?_⟩
    · rw [hpulse _ (icScnt_ne_completions _ _ (by omega)), reg_setReg, if_neg (by decide), reg_setReg_same]
    · rw [hpulse _ (icScnt_ne_completions _ _ (by omega)), reg_setReg_same]
    · rw [hpulse _ (icScnt_inj hself), reg_setReg, if_neg (icScnt_ne_completions _ _ (by omega)).symm, reg_setReg,
        if_neg (icScnt_ne_completions _ _ (by omega)).symm]
  case disable =>
    refine ⟨disableOp s m n v, act_wf (by simp [Instr.wf, hm, hn]), ?_⟩
    rw [disableOp_holder hen hv hp hown]
    exact ⟨srcState_setSrc _ n (by omega) (by omega), srcCount_setSrc _ n (by omega)⟩

end Sys2Proof.Machine
end

section
/-! The timer block (chapter 14, R432 to R439): what an evaluation, an increment and a freeze of one counter change. -/
namespace Sys2Proof.Machine
variable {s t u : State} {k j m : Nat}

/-! ## Evaluations (R438) -/

/-- All that evaluations of equalities change: the equalities kept, and the sources that they pulse. -/
structure EvalOnly (s t : State) : Prop where
  rest : t = { s with regs := t.regs, intc := t.intc, timers := { s.timers with equal := t.timers.equal } }
  regs : ∀ a, tmBase ≤ a → reg t a = reg s a

theorem EvalOnly.refl (s : State) : EvalOnly s s := ⟨rfl, fun _ _ => rfl⟩
theorem EvalOnly.trans (h : EvalOnly s t) (g : EvalOnly t u) : EvalOnly s u :=
  ⟨by rw [g.rest, h.rest], fun a ha => (g.regs a ha).trans (h.regs a ha)⟩
theorem EvalOnly.count (h : EvalOnly s t) (j : Nat) : tmCount t j = tmCount s j := by rw [h.rest]; rfl
theorem EvalOnly.image (h : EvalOnly s t) : t.timers.image = s.timers.image := by rw [h.rest]
theorem EvalOnly.base (h : EvalOnly s t) : t.timers.base = s.timers.base := by rw [h.rest]
theorem EvalOnly.counts (h : EvalOnly s t) : t.timers.count = s.timers.count := by rw [h.rest]

/-- The timer block lies above every register of a source. -/
theorem ne_icScnt_of_tmBase_le {a n : Nat} (ha : tmBase ≤ a) (hn : n < 2048) : a ≠ icScnt n := by
  unfold tmBase at ha; unfold icScnt icBase; omega
/-- A pulse leaves the registers of the timer block. -/
theorem reg_pulse_of_tmBase_le {a n : Nat} (ha : tmBase ≤ a) (hn : n < 2048) : reg (pulse s n) a = reg s a :=
  (sourceOnly_pulse s n).regs a (ne_icScnt_of_tmBase_le ha hn)

theorem evalOnly_tmEval (s : State) (hk : k < 64) : EvalOnly s (tmEval s k) := by
  unfold tmEval
  dsimp only
  split
  · have hpulse := sourceOnly_pulse { s with timers := { s.timers with equal := tput 0 s.timers.equal k (b2n (tmEqual s k)) } } (384 + k)
    exact ⟨by rw [hpulse.rest], fun a ha => reg_pulse_of_tmBase_le ha (by omega)⟩
  · exact ⟨rfl, fun _ _ => rfl⟩
theorem evalOnly_tmEvalUp (s : State) (hk : k < 64) (n : Nat) : EvalOnly s (tmEvalUp s k n) := by
  induction n generalizing s k with
  | zero => exact EvalOnly.refl s
  | succ n ih =>
    unfold tmEvalUp
    dsimp only
    split
    · next h =>
      simp only [Bool.and_eq_true, decide_eq_true_eq] at h
      exact (evalOnly_tmEval s hk).trans (ih _ h.1)
    · exact evalOnly_tmEval s hk
/-- The evaluations that follow a tick (R438). -/
theorem evalOnly_foldl {l : List Nat} (hl : ∀ j ∈ l, j < 64) (s t : State) :
    EvalOnly t (l.foldl (fun t j => if tmCount t j = tmCount s j then t else tmEvalUp t j 64) t) := by
  induction l generalizing t with
  | nil => exact EvalOnly.refl t
  | cons a r ih =>
    rw [List.foldl_cons]
    refine EvalOnly.trans ?_ (ih (fun j hj => hl j (List.mem_cons_of_mem a hj)) _)
    split
    · exact EvalOnly.refl t
    · exact evalOnly_tmEvalUp t (hl a List.mem_cons_self) 64

/-! ## Increments (R432, R437) -/

theorem tmCount_setCount (s : State) (k j : Nat) (v : W32) : tmCount (setCount s k v) j = if j = k then v else tmCount s j := tget_tput _ _ _ _ _
theorem tmCount_pulse (s : State) (n j : Nat) : tmCount (pulse s n) j = tmCount s j := by
  unfold tmCount; rw [(sourceOnly_pulse s n).timers]
theorem tmCount_setRegF (s : State) (a lo w v j : Nat) : tmCount (setRegF s a lo w v) j = tmCount s j := rfl
theorem tmCount_setRegB (s : State) (a i j : Nat) (b : Bool) : tmCount (setRegB s a i b) j = tmCount s j := rfl
theorem timers_pulse (s : State) (n : Nat) : (pulse s n).timers = s.timers := (sourceOnly_pulse s n).timers

/-- All that an increment of counter `k` changes: the counts from `k` on, their records of lost carries, and the sources that it pulses. -/
structure IncrOnly (k : Nat) (s t : State) : Prop where
  rest : t = { s with regs := t.regs, intc := t.intc, timers := { s.timers with count := t.timers.count } }
  counts : ∀ j < k, tmCount t j = tmCount s j

theorem IncrOnly.base (h : IncrOnly k s t) : t.timers.base = s.timers.base := by rw [h.rest]

theorem incrOnly_setCount (s : State) (k : Nat) (v : W32) : IncrOnly k s (setCount s k v) :=
  ⟨rfl, fun j hj => by rw [tmCount_setCount, if_neg (by omega)]⟩
theorem IncrOnly.trans (h : IncrOnly k s t) (g : IncrOnly j t u) (hkj : k ≤ j) : IncrOnly k s u :=
  ⟨by rw [g.rest, h.rest], fun i hi => (g.counts i (by omega)).trans (h.counts i hi)⟩
theorem incrOnly_pulse (s : State) (n k : Nat) : IncrOnly k s (pulse s n) :=
  ⟨by rw [timers_pulse]; exact (sourceOnly_pulse s n).rest, fun j _ => tmCount_pulse s n j⟩
theorem incrOnly_setRegF (s : State) (a lo w v k : Nat) : IncrOnly k s (setRegF s a lo w v) := ⟨rfl, fun _ _ => rfl⟩

theorem incrOnly_tmIncr (s : State) (k n : Nat) : IncrOnly k s (tmIncr s k n) := by
  induction n generalizing s k with
  | zero => exact ⟨rfl, fun _ _ => rfl⟩
  | succ n ih =>
    have hcount := incrOnly_setCount s k (tmCount s k + 1)
    have hwrap := hcount.trans (incrOnly_pulse _ (448 + k) k) le_rfl
    unfold tmIncr
    dsimp only
    split
    · exact hcount
    · split
      · exact hwrap
      · split
        · exact hwrap.trans (ih _ (k + 1)) (by omega)
        · exact (hwrap.trans (incrOnly_setRegF _ _ _ _ _ k) le_rfl).trans (incrOnly_setRegF _ _ _ _ _ k) le_rfl

/-- An increment counts its own counter up by 1, whatever it carries. -/
theorem tmCount_tmIncr_self (s : State) (k n : Nat) : tmCount (tmIncr s k (n + 1)) k = tmCount s k + 1 := by
  have hcount : tmCount (setCount s k (tmCount s k + 1)) k = tmCount s k + 1 := by rw [tmCount_setCount, if_pos rfl]
  have hwrap : tmCount (pulse (setCount s k (tmCount s k + 1)) (448 + k)) k = tmCount s k + 1 := (tmCount_pulse _ _ _).trans hcount
  unfold tmIncr
  dsimp only
  split
  · exact hcount
  · split
    · exact hwrap
    · split
      · rw [(incrOnly_tmIncr _ (k + 1) n).counts k (by omega), hwrap]
      · rw [tmCount_setRegF, tmCount_setRegB, hwrap]

/-- The state in which a counter has wrapped: its count is 0 and its source is pulsed. -/
def tmWrapped (s : State) (k : Nat) : State := pulse (setCount s k 0) (448 + k)

theorem reg_tmWrapped {a : Nat} (ha : tmBase ≤ a) (hk : k < 64) : reg (tmWrapped s k) a = reg s a := reg_pulse_of_tmBase_le ha (by omega)
theorem tmLink_tmWrapped (hk : k < 64) (j : Nat) : tmLink (tmWrapped s k) j = tmLink s j := by
  unfold tmLink regB
  rw [reg_tmWrapped (by unfold tmCtl; omega) hk]
theorem tmRuns_tmWrapped (hk : k < 64) (j : Nat) : tmRuns (tmWrapped s k) j = tmRuns s j := by
  unfold tmRuns regB
  rw [reg_tmWrapped (by unfold tmStat; omega) hk]
theorem tmCount_tmWrapped_other (h : j ≠ k) : tmCount (tmWrapped s k) j = tmCount s j := by
  unfold tmWrapped; rw [tmCount_pulse, tmCount_setCount, if_neg h]

theorem tmIncr_no_wrap (n : Nat) (h : tmCount s k ≠ 0xFFFFFFFF) : tmIncr s k (n + 1) = setCount s k (tmCount s k + 1) := by
  simp only [tmIncr, h, decide_false, Bool.not_false, if_true]
/-- A wrap: with the counter above linked it carries, or loses the carry; else it ends there. -/
theorem tmIncr_wrap (n : Nat) (h : tmCount s k = 0xFFFFFFFF) (hk : k < 64) :
    tmIncr s k (n + 1) =
      if tmLink s (k + 1) then
        if tmRuns s (k + 1) then tmIncr (tmWrapped s k) (k + 1) n
        else setRegF (setRegB (tmWrapped s k) (tmLost (k + 1)) 16 true) (tmLost (k + 1)) 0 16 (incSat 16 (regF s (tmLost (k + 1)) 0 16))
      else tmWrapped s k := by
  have hlost : regF (tmWrapped s k) (tmLost (k + 1)) 0 16 = regF s (tmLost (k + 1)) 0 16 := by
    unfold regF; rw [reg_tmWrapped (by unfold tmLost; omega) hk]
  have hzero : pulse (setCount s k (tmCount s k + 1)) (448 + k) = tmWrapped s k := by rw [h]; rfl
  conv_lhs => unfold tmIncr
  simp only [h, decide_true, Bool.not_true, Bool.false_eq_true, if_false]
  rw [← h, hzero, tmLink_tmWrapped hk, tmRuns_tmWrapped hk, hlost]
  cases tmLink s (k + 1)
  · rfl
  · simp only [Bool.not_true, Bool.false_eq_true, if_false, if_true]

/-! ## Ticks (R432, R433) -/

/-- A tick is the increment from the state in which it is taken, and evaluations. -/
theorem evalOnly_tmTick (s : State) (k : Nat) : EvalOnly (tmIncr (tmTakeTick s k) k 64) (tmTick s k) :=
  evalOnly_foldl (fun _ hj => List.mem_range.mp hj) s _

theorem tmCount_tmTakeTick (s : State) (k j : Nat) : tmCount (tmTakeTick s k) j = tmCount s j := rfl

theorem EvalOnly.of_tick (h : IncrOnly k (tmTakeTick s k) t) (g : EvalOnly t u) : u = { s with regs := u.regs, intc := u.intc, timers := u.timers } := by
  have hrest := g.rest
  rw [h.rest] at hrest
  exact hrest ▸ rfl
theorem tmTick_frame (s : State) (k : Nat) : tmTick s k = { s with regs := (tmTick s k).regs, intc := (tmTick s k).intc, timers := (tmTick s k).timers } :=
  (evalOnly_tmTick s k).of_tick (incrOnly_tmIncr (tmTakeTick s k) k 64)
theorem base_tmTick (s : State) (k : Nat) : tget 0 (tmTick s k).timers.base k = tget 0 s.timers.base k + tmStride s k := by
  rw [(evalOnly_tmTick s k).base, (incrOnly_tmIncr (tmTakeTick s k) k 64).base]
  exact tget_tput_same _ _ _ _

theorem tickOp_due (hdue : tmTickDue s k = true) (h : tmCount s k ≠ 0xFFFFFFFF) : tickOp s k = tmTick s k := by
  simp only [tickOp, hdue, h, decide_false, Bool.not_false, Bool.and_true, if_true]
theorem wrapOp_due (hdue : tmTickDue s k = true) (h : tmCount s k = 0xFFFFFFFF) : wrapOp s k = tmTick s k := by
  simp only [wrapOp, hdue, h, decide_true, Bool.and_true, if_true]

theorem incSat_lt (w x : Nat) : incSat w x < 2 ^ w := by
  have := Nat.two_pow_pos w
  unfold incSat; split <;> omega

theorem countersTickAndCarry : Clause.CountersTickAndCarry := by
  intro s k hk hdue
  have heval := evalOnly_tmTick s k
  refine ⟨fun hne => ?tick, fun hmax => ?wrap⟩
  case tick =>
    refine ⟨tickOp s k, act_wf (decide_eq_true hk), ?_⟩
    rw [tickOp_due hdue hne]
    refine ⟨?_, fun j hj => ?_, base_tmTick s k, tmTick_frame s k⟩
    · rw [heval.count, tmIncr_no_wrap (s := tmTakeTick s k) 63 hne, tmCount_setCount, if_pos rfl]; rfl
    · rw [heval.count, tmIncr_no_wrap (s := tmTakeTick s k) 63 hne, tmCount_setCount, if_neg hj]; rfl
  case wrap =>
    refine ⟨wrapOp s k, act_wf (decide_eq_true hk), ?_⟩
    rw [wrapOp_due hdue hmax]
    have hincr := tmIncr_wrap (s := tmTakeTick s k) 63 hmax hk
    rw [show tmLink (tmTakeTick s k) (k + 1) = tmLink s (k + 1) from rfl, show tmRuns (tmTakeTick s k) (k + 1) = tmRuns s (k + 1) from rfl] at hincr
    refine ⟨?_, fun hlink hruns => ?carry, fun hlink hruns => ?lost, fun hlink j hj => ?alone⟩
    · rw [heval.count, tmCount_tmIncr_self, tmCount_tmTakeTick, hmax]; rfl
    case carry =>
      rw [heval.count, hincr, if_pos hlink, if_pos hruns, tmCount_tmIncr_self _ _ 62, tmCount_tmWrapped_other (by omega), tmCount_tmTakeTick]
    case lost =>
      rw [if_pos hlink, if_neg (by rw [hruns]; simp)] at hincr
      have hreg : reg (tmTick s k) (tmLost (k + 1)) = reg (tmIncr (tmTakeTick s k) k 64) (tmLost (k + 1)) := heval.regs _ (by unfold tmLost; omega)
      refine ⟨?_, ?_, ?_⟩
      · rw [heval.count, hincr, tmCount_setRegF, tmCount_setRegB, tmCount_tmWrapped_other (by omega), tmCount_tmTakeTick]
      · unfold regB
        rw [hreg, hincr]
        exact (regB_setRegF _ _ _ _ _ _ (by omega)).trans (regB_setRegB_same _ _ _ _ (by omega))
      · unfold regF
        rw [hreg, hincr]
        exact (regF_setRegF_same _ _ _ _ _ (by omega)).trans (Nat.mod_eq_of_lt (incSat_lt 16 _))
    case alone =>
      rw [heval.count, hincr, if_neg (by rw [hlink]; simp),
        tmCount_tmWrapped_other hj, tmCount_tmTakeTick]

/-! ## Matches (R438) -/

theorem tmEqual_iff (s : State) (k : Nat) :
    tmEqual s k = true ↔ tmCount s k = reg s (tmCmp k) ∧ (k = 0 ∨ tmCmpx s k = false ∨ tmEqual s (k - 1) = true) := by
  cases k with
  | zero => simp [tmEqual]
  | succ k => simp [tmEqual]

theorem matchesAreRises : Clause.MatchesAreRises := by
  intro s k hk
  refine ⟨tmEqual_iff s k, tmEval s k, act_wf (decide_eq_true hk), ?_, (evalOnly_tmEval s hk).counts, fun hrise => ?rise, fun hno => ?stays⟩
  · unfold tmEval
    dsimp only
    split
    · rw [timers_pulse]; exact tget_tput_same _ _ _ _
    · exact tget_tput_same _ _ _ _
  case rise =>
    exact ⟨{ s with timers := { s.timers with equal := tput 0 s.timers.equal k (b2n (tmEqual s k)) } }, if_pos hrise, rfl⟩
  case stays =>
    have heq : tmEval s k = { s with timers := { s.timers with equal := tput 0 s.timers.equal k (b2n (tmEqual s k)) } } := if_neg (by rw [hno]; simp)
    rw [heq]

/-- Settles O33. -/
theorem countersAndMatches : Obligations.CountersAndMatches := ⟨countersTickAndCarry, matchesAreRises⟩

end Sys2Proof.Machine
end

section
/-! Stores and loads of timer registers, and freezes (chapter 14, R434 to R436, R439). -/
namespace Sys2Proof.Machine
open Sys2Proof.Config
variable {s t u : State} {k j m : Nat} {v : W32} {b : Bool}

/-! ## The registers of a counter -/

/-- The compare and the control word of a counter, as R440 gives them. -/
def tmCmpInfo (k : Nat) : RegInfo :=
  { rw := 0, own := 0xFFFFFFFF, w1c := 0, rst := 0xFFFFFFFF, claim := tmClaim k, confAt := tmBstat, confBit := 0, isClaim := false }
def tmCtlInfo (k : Nat) : RegInfo :=
  { rw := 0, own := 0xFC00FFFF, w1c := 0, rst := 0, claim := tmClaim k, confAt := tmBstat, confBit := 0, isClaim := false }

theorem regInfo_tmCmp (hk : k < 64) (w : Variant) : regInfo w (tmCmp k) = some (tmCmpInfo k) := by
  have hin : (decide (0x1000 ≤ 0x1002 + 16 * k) && decide (0x1002 + 16 * k < 0x1400)) = true := by simp; omega
  rw [show tmCmp k = 0x040E0000 + (0x1002 + 16 * k) by unfold tmCmp tmBase; omega, regInfo_tm (by omega) (by omega), regTM]
  simp only [hin, show ¬ 0x1002 + 16 * k < 6 by omega, show ¬ 0x1002 + 16 * k = 6 by omega, show (0x1002 + 16 * k) % 16 = 2 by omega,
    show (0x1002 + 16 * k - 0x1000) / 16 = k by omega, if_false, if_true]
  rfl
theorem regInfo_tmCtl (hk : k < 64) (w : Variant) : regInfo w (tmCtl k) = some (tmCtlInfo k) := by
  have hin : (decide (0x1000 ≤ 0x1004 + 16 * k) && decide (0x1004 + 16 * k < 0x1400)) = true := by simp; omega
  rw [show tmCtl k = 0x040E0000 + (0x1004 + 16 * k) by unfold tmCtl tmBase; omega, regInfo_tm (by omega) (by omega), regTM]
  simp only [hin, show ¬ 0x1004 + 16 * k < 6 by omega, show ¬ 0x1004 + 16 * k = 6 by omega, show (0x1004 + 16 * k) % 16 = 4 by omega,
    show (0x1004 + 16 * k - 0x1000) / 16 = k by omega, if_false, if_true]
  rfl

/-- Reserved values of a timer register stand in the control words alone (R433, R437, R438). -/
theorem sysReserved_tm {o : Nat} (ho : o < 0x10000) (w : Nat) :
    sysReserved s (0x040E0000 + o) w =
      if 0x1000 ≤ o && o % 16 = 4 then
        (if fld w 29 3 = 3 then [(29, 3)] else []) ++ (if o = 0x1004 && fld w 28 1 = 1 then [(28, 1)] else []) ++
          (if fld w 27 1 = 1 && (fld w 28 1 = 0 || o = 0x1004) then [(27, 1)] else [])
      else [] := by
  have hblock : (0x040E0000 + o) / 0x10000 % 256 = 14 := by omega
  have hoff : (0x040E0000 + o) % 0x10000 = o := by omega
  unfold sysReserved
  rw [hblock, hoff]
  rfl
theorem sysReserved_tmCmp (hk : k < 64) (w : Nat) : sysReserved s (tmCmp k) w = [] := by
  rw [show tmCmp k = 0x040E0000 + (0x1002 + 16 * k) by unfold tmCmp tmBase; omega, sysReserved_tm (by omega), if_neg (by simp)]
/-- The reserved fields of a control word are its bits from 27 on. -/
theorem sysReserved_tmCtl_fields (hk : k < 64) (w : Nat) : ∀ e ∈ sysReserved s (tmCtl k) w, 27 ≤ e.1 ∧ e.1 + e.2 ≤ 32 := by
  rw [show tmCtl k = 0x040E0000 + (0x1004 + 16 * k) by unfold tmCtl tmBase; omega, sysReserved_tm (by omega), if_pos (by simp; omega)]
  simp only [List.mem_append]
  rintro e ((he | he) | he)
  all_goals
    split at he
    · rw [List.mem_singleton.mp he]; decide
    · cases he

theorem setFld_fld (x lo w : Nat) : setFld x lo w (fld x lo w) = x := by
  apply Nat.eq_of_testBit_eq
  intro i
  rw [testBit_setFld, testBit_fld]
  split
  · rfl
  · split
    · rw [decide_eq_true (by omega), Bool.true_and]; congr 1; omega
    · rfl
/-- Where the reserved fields offer what they hold, the word offered is the word stored. -/
theorem storeWord_of_kept {a : Nat} (h : ∀ e ∈ sysReserved s a v.toNat, fld v.toNat e.1 e.2 = fld (reg s a).toNat e.1 e.2) :
    storeWord s a v = v.toNat := by
  unfold storeWord
  generalize sysReserved s a v.toNat = l at h
  induction l with
  | nil => rfl
  | cons e r ih =>
    rw [List.foldl_cons, ← h e List.mem_cons_self, setFld_fld]
    exact ih fun e' he' => h e' (List.mem_cons_of_mem e he')

theorem conflictAt_tmBstat (s : State) : conflictAt s tmBstat 0 = setRegB s tmBstat 0 true :=
  conflictAt_plain s tmBstat 0 (by decide) (by decide) (by decide) (by decide)

/-- The holder's store to a compare register leaves the value stored. -/
theorem storePlain_tmCmp (hk : k < 64) (hown : ownsClaim s (tmClaim k) m = true) : storePlain s m (tmCmp k) v = setReg s (tmCmp k) v := by
  rw [storePlain_of_no_conflict (regInfo_tmCmp hk _) (storeConflicts_owned hown (sysReserved_tmCmp hk _)),
    storeVal_all (i := tmCmpInfo k) ((storeMask_owned (i := tmCmpInfo k) hown).trans (Nat.zero_or _)) rfl (sysReserved_tmCmp hk _)]

/-- The value with MEN set. -/
def menSet (s : State) (k : Nat) : W32 := setR (reg s (tmCtl k)) 26 1 1

theorem rbit_menSet {i : Nat} (hi : i < 32) : rbit (menSet s k) i = if i = 26 then true else rbit (reg s (tmCtl k)) i := by
  unfold menSet
  rw [rbit_setR _ _ _ _ _ hi]
  by_cases h : i = 26
  · subst h; rfl
  · rw [if_neg h]
    split
    · rfl
    · rw [if_neg (by omega)]

/-- The holder's store that sets MEN leaves it set and every other bit of the register as it was. -/
theorem storeVal_menSet (hk : k < 64) (i : RegInfo) (hi : regInfo s.variant (tmCtl k) = some i) (hown : ownsClaim s (tmClaim k) m = true) :
    (storeVal s m (tmCtl k) (menSet s k) i).1 = menSet s k := by
  rw [regInfo_tmCtl hk] at hi
  cases hi
  have hword : storeWord s (tmCtl k) (menSet s k) = (menSet s k).toNat := storeWord_of_kept fun e he => by
    obtain ⟨hlo, hhi⟩ := sysReserved_tmCtl_fields hk _ e he
    exact rfld_setR_other _ _ _ _ _ _ (by omega) hhi
  have hmask : storeMask s m (tmCtlInfo k) = 0xFC00FFFF := (storeMask_owned (i := tmCtlInfo k) hown).trans (Nat.zero_or _)
  apply eq_of_rbit
  intro i hi
  rw [rbit_storeVal (by rw [hmask]; omega) hi, hmask, hword, rbit_menSet hi, ← rbit_eq, rbit_menSet hi]
  by_cases h : i = 26
  · subst h; simp [tmCtlInfo]; exact .inl (by decide)
  · simp [h, tmCtlInfo]

/-- All that the store of the value with MEN set may change beside it: the block's CONFLICT bit. -/
theorem storePlain_menSet (hk : k < 64) (hown : ownsClaim s (tmClaim k) m = true) :
    OnlyRegs [tmCtl k, tmBstat] s (storePlain s m (tmCtl k) (menSet s k)) ∧ reg (storePlain s m (tmCtl k) (menSet s k)) (tmCtl k) = menSet s k := by
  have hset : OnlyRegs [tmCtl k, tmBstat] s (setReg s (tmCtl k) (menSet s k)) := onlyRegs_mono (onlyRegs_setReg _ _ _) (by simp)
  have hinfo := regInfo_tmCtl hk s.variant
  have hval := storeVal_menSet hk _ hinfo hown
  cases hc : storeConflicts s m (tmCtl k) (menSet s k) (tmCtlInfo k) with
  | true =>
    rw [storePlain_of_conflict hinfo hc, hval, show (tmCtlInfo k).confAt = tmBstat from rfl, show (tmCtlInfo k).confBit = 0 from rfl, conflictAt_tmBstat]
    refine ⟨onlyRegs_trans hset (onlyRegs_mono (onlyRegs_setRegB _ _ _ _) (by simp)), ?_⟩
    rw [reg_setRegB_ne _ _ _ _ _ (by unfold tmCtl tmBase tmBstat; omega), reg_setReg_same]
  | false =>
    rw [storePlain_of_no_conflict hinfo hc, hval]
    exact ⟨hset, reg_setReg_same _ _ _⟩

/-! ## Late compares (R439) -/

/-- A compare chain is read from counts, targets and CMPX bits alone. -/
theorem tmChain_congr (hcount : ∀ j, tmCount t j = tmCount s j) (hcmp : ∀ j, reg t (tmCmp j) = reg s (tmCmp j))
    (hcmpx : ∀ j, tmCmpx t j = tmCmpx s j) (k : Nat) : tmChain t k = tmChain s k := by
  induction k with
  | zero => simp only [tmChain, hcount, hcmp]
  | succ k ih => simp only [tmChain, hcount, hcmp, hcmpx, ih]
theorem tmIsLate_congr (h : tmChain t k = tmChain s k) : tmIsLate t k = tmIsLate s k := by unfold tmIsLate; rw [h]

theorem tmIsLate_storePlain_menSet (hk : k < 64) (hown : ownsClaim s (tmClaim k) m = true) :
    tmIsLate (storePlain s m (tmCtl k) (menSet s k)) k = tmIsLate s k := by
  obtain ⟨⟨hrest, hregs⟩, hreg⟩ := storePlain_menSet hk hown
  generalize storePlain s m (tmCtl k) (menSet s k) = t at hrest hregs hreg
  refine tmIsLate_congr (tmChain_congr (fun j => by rw [hrest]; rfl) (fun j => hregs _ ?_) (fun j => ?_) k)
  · simp [tmCmp, tmCtl, tmBase, tmBstat]; omega
  · unfold tmCmpx regB
    by_cases hj : j = k
    · rw [hj, hreg, rbit_menSet (by omega), if_neg (by omega)]
    · rw [hregs]
      simp only [List.mem_cons, List.not_mem_nil, or_false]
      unfold tmCtl tmBase tmBstat; omega

/-- What the holder's store that sets MEN does (R439). -/
theorem tmCtlWrite_menSet (hown : ownsClaim s (tmClaim k) m = true) (hmen : tmMen s k = false) :
    tmCtlWrite s m k (menSet s k) =
      let t := storePlain s m (tmCtl k) (menSet s k)
      tmEvalUp (if tmMen t k && tmIsLate t k then setRegB t (tmStat k) 1 true else t) k 64 := by
  have hsame : (reg s (tmCtl k) ^^^ menSet s k) &&& 0xF800FFFF = 0 := by
    apply eq_of_rbit
    intro i hi
    show ((reg s (tmCtl k) ^^^ menSet s k) &&& 0xF800FFFF).getLsbD i = (0 : W32).getLsbD i
    rw [BitVec.getLsbD_and, BitVec.getLsbD_xor]
    change ((rbit (reg s (tmCtl k)) i ^^ rbit (menSet s k) i) && _) = _
    rw [rbit_menSet hi]
    by_cases h : i = 26
    · subst h; simp
    · simp [h]
  have hlink : rbit (menSet s k) 28 = rbit (reg s (tmCtl k)) 28 := by rw [rbit_menSet (by omega), if_neg (by omega)]
  have hold : rbit (reg s (tmCtl k)) 26 = false := hmen
  unfold tmCtlWrite
  simp only [hown, hsame, hlink, hold, Bool.not_true, Bool.not_false, Bool.false_eq_true, if_false, ne_eq, not_true_eq_false, decide_false, Bool.and_false,
    Bool.and_not_self, Bool.false_and, Bool.and_true]

theorem reg_setCount (s : State) (k : Nat) (v : W32) (a : Nat) : reg (setCount s k v) a = reg s a := rfl
theorem reg_setImage (s : State) (k : Nat) (v : W32) (a : Nat) : reg (setImage s k v) a = reg s a := rfl
theorem reg_timers (s : State) (x : Timers) (a : Nat) : reg { s with timers := x } a = reg s a := rfl
theorem regB_answer (s : State) (x : W32) (a i : Nat) : regB { s with answer := x } a i = regB s a i := rfl

/-- A store to the count by the holder, of a stopped counter. -/
theorem tmCntWrite_holder (hown : ownsClaim s (tmClaim k) m = true) (hstop : tmRuns s k = false) :
    tmCntWrite s m k v = tmEvalUp (setImage (setCount s k v) k v) k 64 := by
  unfold tmCntWrite
  rw [hown, hstop]
  rfl
/-- Any other store to the count. -/
theorem tmCntWrite_barred (h : ownsClaim s (tmClaim k) m = false ∨ tmRuns s k = true) : tmCntWrite s m k v = setRegB s tmBstat 0 true := by
  unfold tmCntWrite
  rw [if_pos (by rcases h with h | h <;> simp [h])]
theorem tmCntRead_stopped (h : tmRuns s k = false) : tmCntRead s k = (s, tmCount s k) := by simp [tmCntRead, h]
theorem tmCntRead_running (h : tmRuns s k = true) : tmCntRead s k = (setRegB s (tmStat k) 0 true, tget 0 s.timers.image k) := by simp [tmCntRead, h]

/-- What a store to the count leaves of a stopped counter of the holder. -/
theorem evalUp_count_stored {s t : State} (h : EvalOnly (setImage (setCount s k v) k v) t) :
    tmCount t k = v ∧ tget 0 t.timers.image k = v ∧ ∀ j, j ≠ k → tmCount t j = tmCount s j := by
  refine ⟨?_, ?_, fun j hj => ?_⟩
  · rw [h.count]; exact tget_tput_same _ _ _ _
  · rw [h.image]; exact tget_tput_same _ _ _ _
  · rw [h.count]; exact tget_tput_other _ _ _ hj

/-- What the store that sets MEN leaves, the evaluations behind it included. -/
theorem tmCtlWrite_menSet_effect (hk : k < 64) (hown : ownsClaim s (tmClaim k) m = true) (hmen : tmMen s k = false) :
    tmMen (tmCtlWrite s m k (menSet s k)) k = true ∧ (tmCtlWrite s m k (menSet s k)).timers.count = s.timers.count ∧
      (tmIsLate s k = true → regB (tmCtlWrite s m k (menSet s k)) (tmStat k) 1 = true) := by
  obtain ⟨⟨hrest, hregs⟩, hreg⟩ := storePlain_menSet hk hown
  have hlate := tmIsLate_storePlain_menSet hk hown
  rw [tmCtlWrite_menSet hown hmen]
  generalize storePlain s m (tmCtl k) (menSet s k) = t at hrest hregs hreg hlate
  have hmenT : tmMen t k = true := by unfold tmMen regB; rw [hreg, rbit_menSet (by omega), if_pos rfl]
  have heval := evalOnly_tmEvalUp (if tmIsLate t k then setRegB t (tmStat k) 1 true else t) hk 64
  simp only [hmenT, Bool.true_and]
  generalize tmEvalUp (if tmIsLate t k then setRegB t (tmStat k) 1 true else t) k 64 = u at heval
  refine ⟨?_, ?_, fun hl => ?_⟩
  · unfold tmMen regB at hmenT ⊢
    rw [heval.regs _ (by unfold tmCtl; omega)]
    split
    · rwa [reg_setRegB_ne _ _ _ _ _ (by unfold tmCtl tmStat; omega)]
    · exact hmenT
  · rw [heval.counts]
    split <;> rw [hrest] <;> rfl
  · unfold regB
    rw [heval.regs _ (by unfold tmStat; omega), hlate, if_pos hl]
    exact regB_setRegB_same _ _ _ _ (by omega)

theorem timerRegisters : Clause.TimerRegisters := by
  intro s m k v hm hk
  have hwf : (masterOk m && decide (k < 64)) = true := by simp [hm, hk]
  refine ⟨fun hown hstop => ⟨_, act_wf hwf, ?count⟩, fun hbar => ⟨_, act_wf hwf, ?barred⟩, fun hstop => ?loadStopped, fun hrun => ⟨_, act_wf hwf, ?loadRunning⟩,
    fun hown => ⟨_, act_wf hwf, ?compare⟩, fun hmen hown => ⟨_, ?enables, tmCtlWrite_menSet_effect hk hown hmen⟩⟩
  case count =>
    rw [tmCntWrite_holder hown hstop]
    exact evalUp_count_stored (evalOnly_tmEvalUp _ hk 64)
  case barred =>
    rw [tmCntWrite_barred hbar]
    exact ⟨regB_setRegB_same _ _ _ _ (by omega), rfl, onlyRegs_setRegB _ _ _ _⟩
  case loadStopped =>
    rw [show exec (.tmCntLoad m k) s = act (masterOk m && decide (k < 64)) { (tmCntRead s k).1 with answer := (tmCntRead s k).2 } from rfl,
      tmCntRead_stopped hstop]
    exact act_wf hwf
  case loadRunning =>
    rw [tmCntRead_running hrun]
    exact ⟨rfl, (regB_answer _ _ _ _).trans (regB_setRegB_same _ _ _ _ (by omega)), rfl⟩
  case compare =>
    have heval := evalOnly_tmEvalUp (setReg s (tmCmp k) v) hk 64
    rw [tmCmpWrite, storePlain_tmCmp hk hown, heval.regs _ (by unfold tmCmp; omega), heval.counts]
    exact ⟨reg_setReg_same _ _ _, rfl⟩
  case enables =>
    rw [show exec (.menEnable m k) s = act (masterOk m && decide (k < 64)) (if tmMen s k then s else tmCtlWrite s m k (menSet s k)) from rfl, hmen,
      if_neg Bool.false_ne_true]
    exact act_wf hwf

/-! ## Freezes (R434) -/

theorem ownsClaim_congr {a : Nat} (h : reg t a = reg s a) : ownsClaim t a m = ownsClaim s a m := by
  unfold ownsClaim claimHeld claimId regB regF
  rw [h]

/-- What a freeze of one counter does: of the counters selected, those of the storing master run or stand as asked, their image taken. -/
def freezeOne (m : Nat) (b : Bool) (s : State) (k : Nat) : State :=
  if !(rbit (perM s (tmBase + 2 * (k / 32)) m) (k % 32)) then s
  else if !(ownsClaim s (tmClaim k) m) then setRegB s tmBstat 0 true
  else if tmRuns s k = b then s
  else
    let t := setImage (setRegB s (tmStat k) 2 b) k (tmCount s k)
    if b then { t with timers := { t.timers with base := tput 0 t.timers.base k (tmSource t k) } } else t

theorem tmFreeze_eq (s : State) (m : Nat) (b : Bool) : tmFreeze s m b = (List.range 64).foldl (freezeOne m b) s := rfl

/-- A counter that a freeze by master `m` acts on. -/
def freezes (s : State) (m k : Nat) : Bool := rbit (perM s (tmBase + 2 * (k / 32)) m) (k % 32) && ownsClaim s (tmClaim k) m

/-- All that a freeze of counter `k` leaves alone. -/
structure FreezeOnly (k : Nat) (s t : State) : Prop where
  perMaster : t.perMaster = s.perMaster
  count : t.timers.count = s.timers.count
  image : ∀ j, j ≠ k → tget 0 t.timers.image j = tget 0 s.timers.image j
  regs : ∀ a, a ≠ tmStat k → a ≠ tmBstat → reg t a = reg s a

theorem freezeOnly_freezeOne (m : Nat) (b : Bool) (s : State) (k : Nat) : FreezeOnly k s (freezeOne m b s k) := by
  have hrun : FreezeOnly k s (setImage (setRegB s (tmStat k) 2 b) k (tmCount s k)) :=
    ⟨rfl, rfl, fun j hj => tget_tput_other _ _ _ hj, fun a ha _ => (reg_setImage _ _ _ _).trans (reg_setRegB_ne _ _ _ _ _ ha)⟩
  unfold freezeOne
  split
  · exact ⟨rfl, rfl, fun _ _ => rfl, fun _ _ _ => rfl⟩
  · split
    · exact ⟨rfl, rfl, fun _ _ => rfl, fun a _ ha => reg_setRegB_ne _ _ _ _ _ ha⟩
    · split
      · exact ⟨rfl, rfl, fun _ _ => rfl, fun _ _ _ => rfl⟩
      · dsimp only
        split
        · exact ⟨hrun.perMaster, hrun.count, hrun.image, fun a h1 h2 => (reg_timers _ _ _).trans (hrun.regs a h1 h2)⟩
        · exact hrun

theorem FreezeOnly.freezes (h : FreezeOnly k s t) (j : Nat) : freezes t m j = freezes s m j := by
  have hclaim : reg t (tmClaim j) = reg s (tmClaim j) :=
    h.regs _ (by unfold tmClaim tmStat; omega) (by unfold tmClaim tmBase tmBstat; omega)
  unfold Machine.freezes perM
  rw [h.perMaster, ownsClaim_congr hclaim]
theorem FreezeOnly.runs_other (h : FreezeOnly k s t) (hj : j ≠ k) : tmRuns t j = tmRuns s j := by
  simp only [tmRuns, regB, h.regs (tmStat j) (by unfold tmStat; omega) (by unfold tmStat tmBase tmBstat; omega)]

/-- The state in which a counter has been made to run or stand, its image taken. -/
theorem freezeOne_acts (hf : freezes s m k = true) (hne : tmRuns s k ≠ b) :
    ∃ x, freezeOne m b s k = { setImage (setRegB s (tmStat k) 2 b) k (tmCount s k) with timers := x } ∧ tget 0 x.image k = tmCount s k := by
  obtain ⟨hsel, hown⟩ : rbit (perM s (tmBase + 2 * (k / 32)) m) (k % 32) = true ∧ ownsClaim s (tmClaim k) m = true := by simpa [freezes] using hf
  unfold freezeOne
  simp only [hsel, hown, hne, Bool.not_true, Bool.false_eq_true, if_false]
  cases b
  · exact ⟨_, rfl, tget_tput_same _ _ _ _⟩
  · exact ⟨_, rfl, tget_tput_same _ _ _ _⟩
theorem image_freezeOne (hf : freezes s m k = true) (hne : tmRuns s k ≠ b) : tget 0 (freezeOne m b s k).timers.image k = tmCount s k := by
  obtain ⟨x, hx, himage⟩ := freezeOne_acts hf hne
  rw [hx]
  exact himage
theorem tmRuns_freezeOne (m : Nat) (b : Bool) (s : State) (k : Nat) :
    tmRuns (freezeOne m b s k) k = if freezes s m k then b else tmRuns s k := by
  cases hf : freezes s m k with
  | true =>
    by_cases hne : tmRuns s k = b
    · obtain ⟨hsel, hown⟩ : rbit (perM s (tmBase + 2 * (k / 32)) m) (k % 32) = true ∧ ownsClaim s (tmClaim k) m = true := by simpa [freezes] using hf
      simp [freezeOne, hsel, hown, hne]
    · obtain ⟨x, hx, -⟩ := freezeOne_acts hf hne
      unfold tmRuns regB
      rw [hx, reg_timers, reg_setImage]
      exact regB_setRegB_same _ _ _ _ (by omega)
  | false =>
    have hone : freezeOne m b s k = s ∨ freezeOne m b s k = setRegB s tmBstat 0 true := by
      unfold freezeOne
      unfold freezes at hf
      cases hsel : rbit (perM s (tmBase + 2 * (k / 32)) m) (k % 32)
      · exact .inl rfl
      · rw [hsel, Bool.true_and] at hf
        exact .inr (by simp [hf])
    rcases hone with h | h
    · rw [h]; rfl
    · rw [h]
      unfold tmRuns regB
      rw [reg_setRegB_ne _ _ _ _ _ (by unfold tmStat tmBase tmBstat; omega)]
      rfl

/-- What the freezes of the counters below `n` have done. -/
structure FrozenBelow (n m : Nat) (b : Bool) (s t : State) : Prop where
  count : t.timers.count = s.timers.count
  freezes : ∀ k, freezes t m k = Machine.freezes s m k
  runs : ∀ k, tmRuns t k = if k < n ∧ Machine.freezes s m k = true then b else tmRuns s k
  image : ∀ k < n, Machine.freezes s m k = true → tmRuns s k ≠ b → tget 0 t.timers.image k = tmCount s k

theorem frozenBelow_foldl (s : State) (m : Nat) (b : Bool) (n : Nat) : FrozenBelow n m b s ((List.range n).foldl (freezeOne m b) s) := by
  induction n with
  | zero => exact ⟨rfl, fun _ => rfl, fun k => by simp, fun k hk => absurd hk (by omega)⟩
  | succ n ih =>
    rw [List.range_succ, List.foldl_append, List.foldl_cons, List.foldl_nil]
    generalize (List.range n).foldl (freezeOne m b) s = t at ih
    have hone := freezeOnly_freezeOne m b t n
    refine ⟨hone.count.trans ih.count, fun k => (hone.freezes k).trans (ih.freezes k), fun k => ?_, fun k hk hf hne => ?_⟩
    · by_cases hk : k = n
      · subst hk
        rw [tmRuns_freezeOne, ih.freezes, ih.runs]
        simp
      · rw [hone.runs_other hk, ih.runs]
        simp only [show k < n + 1 ↔ k < n by omega]
    · by_cases hkn : k = n
      · subst hkn
        rw [image_freezeOne (by rw [ih.freezes]; exact hf) (by rw [ih.runs]; simpa using hne)]
        unfold tmCount
        rw [ih.count]
      · rw [hone.image k hkn]
        exact ih.image k (by omega) hf hne

theorem froze_tmFreeze (s : State) (m : Nat) (b : Bool) : Froze s (tmFreeze s m b) m b := by
  rw [tmFreeze_eq]
  have h := frozenBelow_foldl s m b 64
  refine ⟨h.count, fun k hk hsel hown => ?_, fun k hk hno => ?_⟩
  · have hf : freezes s m k = true := by simp [freezes, hsel, hown]
    exact ⟨by rw [h.runs, if_pos ⟨hk, hf⟩], h.image k hk hf⟩
  · have hf : freezes s m k = false := by rcases hno with h | h <;> simp [freezes, h]
    rw [h.runs, if_neg (by simp [hf])]

theorem freezeStartsAndStops : Clause.FreezeStartsAndStops := fun s m hm =>
  ⟨⟨_, act_wf hm, froze_tmFreeze s m true⟩, ⟨_, act_wf hm, froze_tmFreeze s m false⟩⟩

/-- Settles O34. -/
theorem timerRegistersAndFreezes : Obligations.TimerRegistersAndFreezes := ⟨timerRegisters, freezeStartsAndStops⟩

end Sys2Proof.Machine
end

section
/-! Ketch mode (chapter 08): what a Ketch command does once its instruction word is at the coach's pc. -/
namespace Sys2Proof.Machine

variable {s : State} {c w op : Nat} {k : Coach}

/-- What the coach of a Ketch instruction keeps of the coach before it: nothing is raised and nothing is under way. -/
def Issuing (k : Coach) : Prop := k.exc = none ∧ k.long = none ∧ k.access = [] ∧ k.after = none

theorem issuing_of_isRunning (h : isRunning k = true) : Issuing k := by
  simp only [isRunning, Bool.and_eq_true, List.isEmpty_iff, Option.isNone_iff_eq_none] at h
  obtain ⟨⟨⟨⟨-, ha⟩, hf⟩, he⟩, hl⟩ := h
  exact ⟨he, hl, ha, hf⟩

theorem SameControl.issuing {l : Coach} (h : SameControl k l) (hk : Issuing k) : Issuing l := by
  obtain ⟨-, -, he, hl, -, ha, hf, -⟩ := h
  obtain ⟨ke, kl, ka, kf⟩ := hk
  exact ⟨he.trans ke, hl.trans kl, ha.trans ka, hf.trans kf⟩

theorem sameControl_ketchK (s : State) (c : Nat) : SameControl (co s c) (ketchK s c) :=
  (sameControl_drain s c).trans (sameControl_holdRun false)

theorem ketchAt_isRunning (h : ketchAt s c w = true) : isRunning (co s c) = true := by
  unfold ketchAt at h
  simp only [Bool.and_eq_true] at h
  exact h.1.1.1.1.1.1.1.1

theorem issuing_ketchK (h : ketchAt s c w = true) : Issuing (ketchK s c) :=
  (sameControl_ketchK s c).issuing (issuing_of_isRunning (ketchAt_isRunning h))

/-- The command of the operation that stands at the pc runs it. -/
theorem ketchOp_at (h : ketchAt s c w = true) (hw : kOp w = op) : ketchOp op s c = kRun (ketchU s c) c (ketchK s c) w := by
  unfold ketchAt at h
  simp only [Bool.and_eq_true, Bool.not_eq_true', Option.isNone_iff_eq_none] at h
  obtain ⟨⟨⟨⟨⟨⟨⟨⟨hr, hl⟩, hk⟩, hp⟩, ht⟩, hm⟩, he⟩, hf⟩, hi⟩ := h
  have hfetch : kFetch (fetchFill s c (ketchK s c).pc.toNat) c (ketchK s c).pc.toNat = .ok w := by
    unfold ketchS at hf
    generalize kFetch (fetchFill s c (ketchK s c).pc.toNat) c (ketchK s c).pc.toNat = r at hf ⊢
    cases r with
    | error e => exact absurd hf Bool.false_ne_true
    | ok x => rw [of_decide_eq_true hf]
  unfold ketchK at hfetch
  unfold ketchOp
  simp only [hr, hl, hk, hp, ht, hm, he, hfetch, hi, hw, Bool.and_self, Bool.not_true, Bool.or_self, Option.isSome_none, Bool.false_eq_true, if_false, if_true]
  rfl

/-! ### The four ends of a Ketch instruction -/

theorem onlyCoach_refl (s : State) (c : Nat) : OnlyCoach c s s := ⟨rfl, fun _ _ => rfl⟩

theorem onlyCoach_setCo (s : State) (c : Nat) (l : Coach) : OnlyCoach c s (setCo s c l) := by
  refine ⟨rfl, fun d hd => ?_⟩
  rw [co_setCo, if_neg hd]

theorem onlyCoach_trans {t u : State} (h : OnlyCoach c s t) (g : OnlyCoach c t u) : OnlyCoach c s u := by
  obtain ⟨ht, hco⟩ := h
  obtain ⟨hu, gco⟩ := g
  refine ⟨?_, fun d hd => (gco d hd).trans (hco d hd)⟩
  rw [hu, ht]

theorem onlyCoach_ketchU (s : State) (c : Nat) (l : Coach) : OnlyCoach c (ketchS s c) (setCo (ketchU s c) c l) :=
  onlyCoach_trans (onlyCoach_setCo _ c _) (onlyCoach_setCo _ c _)

theorem rdCo_budgetCount {off : Nat} (h : off ≠ 0x506) (k : Coach) (m : Nat) : rdCo (budgetCount k m) off = rdCo k off := by
  unfold budgetCount setCoF
  split
  · exact (rdCo_wrCo ..).trans (if_neg h)
  · rfl

/-- Time that passes counts the budget alone among the CO_ registers. -/
theorem rdCo_passTime {off : Nat} (h : off ≠ 0x506) (k : Coach) (n st : Nat) : rdCo (passTime k n st) off = rdCo k off := by
  unfold passTime
  dsimp only
  have hb := rdCo_budgetCount h { k with cyc := k.cyc + n, cycles := k.cycles + n + st } (n + st)
  split
  · exact hb
  · exact hb

/-- An instruction that computes nothing leaves the coach at its goal. -/
theorem ketchGoes_kDone {q : State} (he : k.exc = none) (goal : W32) (n st : Nat) : KetchGoes q (kDone q c k goal n st) c k goal n := by
  unfold kDone
  refine ⟨onlyCoach_setCo _ _ _, ?_⟩
  rw [co_setCo_same]
  exact ⟨rfl, passTime_g .., passTime_p .., passTime_n .., passTime_v .., passTime_acc .., passTime_pend .., passTime_coPend .., passTime_cyc ..,
    (passTime_exc ..).trans he, fun off h => rdCo_passTime h k n st⟩

/-- The base state of `KetchGoes` may be any that differs in the coach alone. -/
theorem ketchGoes_of_base {q u t : State} {goal : W32} {n : Nat} (h : KetchGoes u t c k goal n) (hq : OnlyCoach c q u) : KetchGoes q t c k goal n :=
  ⟨onlyCoach_trans hq h.1, h.2⟩

theorem ketchGoes_done (h : ketchAt s c w = true) (goal : W32) (n st : Nat) :
    KetchGoes (ketchS s c) (kDone (ketchU s c) c (ketchK s c) goal n st) c (ketchK s c) goal n :=
  ketchGoes_of_base (ketchGoes_kDone (issuing_ketchK h).1 goal n st) (onlyCoach_setCo _ _ _)

/-- A computed word is on its way. -/
theorem ketchWrites_kWrite (h : ketchAt s c w = true) (d : Nat) {v : KVal} (hv : v.trap = false) :
    KetchWrites s (kWrite (ketchU s c) c (ketchK s c) d v) c d v := by
  unfold kWrite
  simp only [hv, Bool.false_eq_true, if_false]
  generalize hp : ({ resG v.cycles 2 d (n32 v.word) with
      istat := v.istat, fpstat := v.fpstat, exc := intExc (ketchK s c) v.istat ||| fltExc (ketchK s c) v.fpstat,
      due := (ketchK s c).cyc + v.cycles, seq := (ketchK s c).seq, apc := (ketchK s c).pc, prec := true } : Pend) = p
  obtain ⟨hoc, hpc, hg, hpp, hn, hvv, hacc, hpend, -, hcyc, hexc, -⟩ :=
    ketchGoes_kDone (q := ketchU s c) (c := c) (k := { ketchK s c with pend := (ketchK s c).pend ++ [p] }) (issuing_ketchK h).1
      (kNext (ketchK s c)) v.cycles 0
  exact ⟨onlyCoach_trans (onlyCoach_setCo _ _ _) hoc, hpc, hg, hpp, hn, hvv, hacc, hcyc, hexc, p, hpend, by subst hp; exact ⟨rfl, rfl, rfl, rfl, rfl⟩⟩

theorem ketchRefuses_refuseAt (h : ketchAt s c w = true) (e : Refused) :
    KetchRefuses s (setCo (ketchU s c) c (refuseAt (ketchK s c) e)) c e := by
  refine ⟨onlyCoach_ketchU _ _ _, ?_⟩
  rw [co_setCo_same, refuseAt_eq _ e (issuing_ketchK h).2.1]
  exact ⟨rfl, rfl, rfl, _, rfl, rfl, rfl, rfl, rfl⟩

/-- What a computing instruction's value says of its command. -/
theorem ketchComputes_of_run {i : Instr} {d : Nat} {r : Except Refused KVal} (h : ketchAt s c w = true)
    (hi : exec i s = .next (kCompute (ketchU s c) c (ketchK s c) d r)) : KetchComputes s c d i r := by
  refine ⟨fun v hr hv => ⟨_, hi, ?_⟩, fun e hr => ⟨_, hi, ?_⟩⟩
  · subst hr; exact ketchWrites_kWrite h d hv
  · subst hr; exact ketchRefuses_refuseAt h e

/-- A command of an operation of a lead coach, in its place. -/
theorem act_ketchOp {ok : Bool} (hok : ok = true) (h : ketchAt s c w = true) (hw : kOp w = op) :
    act ok (ketchOp op s c) = .next (kRun (ketchU s c) c (ketchK s c) w) := by
  rw [act_wf hok, ketchOp_at h hw]

end Sys2Proof.Machine
end

section
/-! The arithmetic of Ketch words and the computing instructions (chapter 08). -/
namespace Sys2Proof.Machine

variable {s : State} {c w op : Nat} {k : Coach} {a b : Nat}

theorem sx_kPay (a : Nat) : sx 29 (kPay a) = sx 29 a := by
  unfold sx kPay
  rw [Nat.mod_mod]

theorem kPay_lt (a : Nat) : kPay a < 2 ^ 29 := Nat.mod_lt _ (by decide)

/-- A word of tag 000 is its payload. -/
theorem kWord_zero {v : Nat} (h : v < 2 ^ 29) : kWord 0 v = v := by
  unfold kWord
  rw [Nat.mod_eq_of_lt h, Nat.zero_mod, Nat.zero_mul, Nat.zero_add]

/-! ### Operand checks -/

theorem kUse_none {opnd x : Nat} (h : kTag x < 6) : kUse op opnd a b x = none := by
  unfold kUse kTagOk
  rw [decide_eq_true h]
  rfl

theorem kUse_some {opnd x : Nat} (h : 6 ≤ kTag x) : kUse op opnd a b x = some (tagCheck 2 op opnd a b x) := by
  unfold kUse kTagOk
  rw [decide_eq_false (Nat.not_lt.mpr h)]
  rfl

/-- Two usable operands whose tags an entry permits give that entry's tag. -/
theorem kPair_found {perm : List (Nat × Nat × Nat)} {e : Nat × Nat × Nat} (ha : kTag a < 6) (hb : kTag b < 6)
    (he : perm.find? (fun e => e.1 = kTag a && e.2.1 = kTag b) = some e) : kPair op perm a b = .ok e.2.2 := by
  unfold kPair
  rw [kUse_none ha, kUse_none hb, he]

/-- Two usable operands whose tags no entry permits end in code 0x01. -/
theorem kPair_not_found {perm : List (Nat × Nat × Nat)} (ha : kTag a < 6) (hb : kTag b < 6)
    (he : perm.find? (fun e => e.1 = kTag a && e.2.1 = kTag b) = none) :
    kPair op perm a b = .error (if perm.any (fun e => e.1 = kTag a) then tagCheck 1 op 1 a b b else tagCheck 1 op 0 a b a) := by
  unfold kPair
  rw [kUse_none ha, kUse_none hb, he]

theorem kPair_ok {perm : List (Nat × Nat × Nat)} {x y : Nat} {e : Nat × Nat × Nat} (ha : kTag a = x) (hb : kTag b = y) (hx : x < 6) (hy : y < 6)
    (he : perm.find? (fun e => e.1 = x && e.2.1 = y) = some e) : kPair op perm a b = .ok e.2.2 := by
  subst ha hb
  exact kPair_found hx hy he

theorem kPair_unusable_left (perm : List (Nat × Nat × Nat)) (ha : 6 ≤ kTag a) : kPair op perm a b = .error (tagCheck 2 op 0 a b a) := by
  unfold kPair
  rw [kUse_some ha]

theorem kPair_unusable_right (perm : List (Nat × Nat × Nat)) (ha : kTag a < 6) (hb : 6 ≤ kTag b) :
    kPair op perm a b = .error (tagCheck 2 op 1 a b b) := by
  unfold kPair
  rw [kUse_none ha, kUse_some hb]

theorem kOne_ok {opnd x : Nat} {perm : List Nat} (hx : kTag x < 6) (hp : perm.contains (kTag x) = true) : kOne op opnd perm a x = none := by
  unfold kOne
  rw [kUse_none hx, if_pos hp]

/-- A pair that no entry permits ends in code 0x01. -/
theorem kPair_not_permitted {perm : List (Nat × Nat × Nat)} (ha : kTag a < 6) (hb : kTag b < 6)
    (h : ∀ e ∈ perm, ¬(e.1 = kTag a ∧ e.2.1 = kTag b)) : ∃ e, kPair op perm a b = .error e ∧ e.entry = 15 ∧ e.code = 1 := by
  have hf : perm.find? (fun e => e.1 = kTag a && e.2.1 = kTag b) = none := by
    rw [List.find?_eq_none]
    intro e he
    simpa using h e he
  rw [kPair_not_found ha hb hf]
  refine ⟨_, rfl, ?_⟩
  split
  · exact ⟨rfl, rfl⟩
  · exact ⟨rfl, rfl⟩

/-- A permitted pair has usable tags, and its entry gives the tag of the result. -/
theorem kPair_permitted {perm : List (Nat × Nat × Nat)} {t : Nat} (h : kPair op perm a b = .ok t) :
    kTag a < 6 ∧ kTag b < 6 ∧ (kTag a, kTag b, t) ∈ perm := by
  by_cases ha : kTag a < 6
  · by_cases hb : kTag b < 6
    · cases he : perm.find? (fun e => e.1 = kTag a && e.2.1 = kTag b) with
      | some e =>
        rw [kPair_found ha hb he] at h
        have hp := List.find?_some he
        simp only [Bool.and_eq_true, decide_eq_true_eq] at hp
        obtain ⟨h1, h2⟩ := hp
        injection h with ht
        have hm := List.mem_of_find?_eq_some he
        refine ⟨ha, hb, ?_⟩
        rw [← h1, ← h2, ← ht]
        exact hm
      | none =>
        rw [kPair_not_found ha hb he] at h
        cases h
    · rw [kPair_unusable_right perm ha (Nat.le_of_not_lt hb)] at h
      cases h
  · rw [kPair_unusable_left perm (Nat.le_of_not_lt ha)] at h
    cases h

theorem ketchTagChecks : Clause.KetchTagChecks := fun _ perm _ _ =>
  ⟨fun h => ⟨_, kPair_unusable_left perm h, rfl, rfl⟩, fun ha hb => ⟨_, kPair_unusable_right perm ha hb, rfl, rfl⟩, kPair_not_permitted,
    fun _ => kPair_permitted⟩

/-! ### What the operands of tag 000 give -/

theorem kAdd_int (k : Coach) (ha : kTag a = 0) (hb : kTag b = 0) : kAdd k a b = .ok (kInt (sx 29 a + sx 29 b) 1) := by
  unfold kAdd
  rw [kPair_ok ha hb (by decide) (by decide) (e := (0, 0, 0)) rfl]
  rfl

theorem kAdd_fixed (k : Coach) (ha : kTag a = 1) (hb : kTag b = 1) : kAdd k a b = .ok (kFix (sx 29 a + sx 29 b) 1) := by
  unfold kAdd
  rw [kPair_ok ha hb (by decide) (by decide) (e := (1, 1, 1)) rfl]
  rfl

theorem kAdd_ptr (k : Coach) {q : Nat} (ha : kTag a = 2) (hb : kTag b = 0) (hq : kPtrAdd (kPay a) (sx 29 b) = some q) :
    kAdd k a b = .ok (kval (kWord 2 q) 1) := by
  unfold kAdd
  rw [kPair_ok ha hb (by decide) (by decide) (e := (2, 0, 2)) rfl]
  change (if kTag a = 0 then _ else kPtr 4 2 a b (kPay a) (sx 29 b) 0 a) = _
  rw [if_neg (by rw [ha]; decide)]
  unfold kPtr
  rw [hq]

theorem kSub_int (k : Coach) (ha : kTag a = 0) (hb : kTag b = 0) : kSub k a b = .ok (kInt (sx 29 a - sx 29 b) 1) := by
  unfold kSub
  rw [kPair_ok ha hb (by decide) (by decide) (e := (0, 0, 0)) rfl, ha]
  rfl

theorem kSub_fixed (k : Coach) (ha : kTag a = 1) (hb : kTag b = 1) : kSub k a b = .ok (kFix (sx 29 a - sx 29 b) 1) := by
  unfold kSub
  rw [kPair_ok ha hb (by decide) (by decide) (e := (1, 1, 1)) rfl, ha]
  rfl

theorem kMul_int (k : Coach) (ha : kTag a = 0) (hb : kTag b = 0) : kMul k a b = .ok (kInt (sx 29 a * sx 29 b) 3) := by
  unfold kMul
  rw [kPair_ok ha hb (by decide) (by decide) (e := (0, 0, 0)) rfl]
  rfl

theorem kTag_kWord_zero (v : Nat) : kTag (kWord 0 v) = 0 := by
  unfold kTag kWord
  rw [Nat.zero_mod, Nat.zero_mul, Nat.zero_add, Nat.div_eq_of_lt (Nat.mod_lt _ (by decide)), Nat.zero_mod]

theorem kAddi_int {imm : Int} (ha : kTag a = 0) : kAddi a imm = .ok (kInt (sx 29 a + imm) 1) := by
  unfold kAddi
  dsimp only
  rw [kPair_ok ha (kTag_kWord_zero _) (by decide) (by decide) (e := (0, 0, 0)) rfl]
  rfl

/-- The payload that a logic or shift instruction gives of two payloads. -/
def logicPay (op x n : Nat) : Nat :=
  match op with
  | 0x08 => x &&& n
  | 0x09 => x ||| n
  | 0x0A => x ^^^ n
  | 0x0B => if n < 29 then (x <<< n) % 2 ^ 29 else 0
  | 0x0C => if n < 29 then x >>> n else 0
  | _ => wrapN 29 (sx 29 x / ((2 ^ (Nat.min n 28) : Nat) : Int))

theorem kLogic_int {v : Nat} (ha : kTag a = 0) (hb : kTag b = 0) (h : logicPay op (kPay a) (kPay b) = v) (hv : v < 2 ^ 29) :
    kLogic op a b = .ok (kval v 1) := by
  have e : kLogic op a b = .ok (kval (kWord 0 (logicPay op (kPay a) (kPay b))) 1) := by
    unfold kLogic
    rw [kPair_ok ha hb (by decide) (by decide) (e := (0, 0, 0)) rfl]
    rfl
  rw [e, h, kWord_zero hv]

theorem kSeq_same (ha : kTag a < 6) (hb : kTag b = kTag a) : kSeq a b = .ok (kval (if kPay a = kPay b then 1 else 0) 1) := by
  have hf : permSeq.find? (fun e => e.1 = kTag a && e.2.1 = kTag a) = some (kTag a, kTag a, 0) := by
    generalize kTag a = x at ha
    interval_cases x <;> rfl
  unfold kSeq
  rw [kPair_ok rfl hb ha ha hf]
  by_cases h : kPay a = kPay b
  · rw [if_pos h, b2n, decide_eq_true h]; rfl
  · rw [if_neg h, b2n, decide_eq_false h]; rfl

theorem b2n_eq (p : Prop) [Decidable p] : b2n (decide p) = if p then 1 else 0 := by
  unfold b2n
  by_cases h : p
  · rw [decide_eq_true h, if_pos rfl, if_pos h]
  · rw [decide_eq_false h, if_neg Bool.false_ne_true, if_neg h]

/-- Signed comparison of two integers or of two fixed numbers. -/
theorem kSlt_signed (k : Coach) (h : kTag a = 0 ∧ kTag b = 0 ∨ kTag a = 1 ∧ kTag b = 1) :
    kSlt k a b = .ok (kval (if sx 29 a < sx 29 b then 1 else 0) 1) := by
  unfold kSlt
  rw [← b2n_eq]
  rcases h with ⟨ha, hb⟩ | ⟨ha, hb⟩
  · rw [kPair_ok ha hb (by decide) (by decide) (e := (0, 0, 0)) rfl, ha]
    rfl
  · rw [kPair_ok ha hb (by decide) (by decide) (e := (1, 1, 0)) rfl, ha]
    rfl

theorem kSlt_pointers (k : Coach) (ha : kTag a = 2) (hb : kTag b = 2) : kSlt k a b = .ok (kval (if kPay a < kPay b then 1 else 0) 1) := by
  unfold kSlt
  rw [← b2n_eq, kPair_ok ha hb (by decide) (by decide) (e := (2, 2, 0)) rfl, ha]
  rfl

theorem kMove_usable (ha : kTag a < 6) : kMove a = .ok (kval a 1) := by
  unfold kMove
  rw [kUse_none ha]

theorem kLdhi_int {d : Nat} (imm : Nat) (hd : kTag d = 0) : kLdhi d imm = .ok (kval (kWord 0 (kPay d % 2 ^ 18 + imm % 2 ^ 11 * 2 ^ 18)) 1) := by
  unfold kLdhi
  rw [kOne_ok (by rw [hd]; decide) (by rw [hd]; rfl)]

theorem kCvt_plain (k : Coach) {t : Nat} (ha : kTag a ≤ 1) (ht : t ≤ 1) : kCvt k t a = .ok (kval (kWord t (kPay a)) 1) := by
  have ha4 : kTag a ≠ 4 := by omega
  have ht4 : t ≠ 4 := by omega
  unfold kCvt
  rw [kOne_ok (by omega) (by generalize kTag a = x at ha; interval_cases x <;> rfl)]
  simp only [ha4, ht4, decide_false, Bool.false_and, if_false, Bool.false_eq_true]

theorem kMktag_allowed (k : Coach) {t : Nat} (ha : kTag a = 0) (ht : t = 0 ∨ t = 1 ∨ t = 4 ∨ isSup k = true) :
    kMktag k t a = .ok (kval (kWord t (kPay a)) 1) := by
  unfold kMktag
  rw [kOne_ok (by rw [ha]; decide) (by rw [ha]; rfl)]
  rcases ht with h | h | h | h
  · rw [h]; rfl
  · rw [h]; rfl
  · rw [h]; rfl
  · rw [h, Bool.not_true, Bool.and_false]; rfl

theorem satSd_eq (i : Int) : satSd 29 i = decide (i < -(2 ^ 28) ∨ 2 ^ 28 - 1 < i) := by
  rw [Bool.eq_iff_iff]
  simp only [satSd, maxS, minS, Bool.or_eq_true, decide_eq_true_eq]
  norm_num
  omega

theorem kInt_istat (i : Int) (n : Nat) : (kInt i n).istat = if i < -(2 ^ 28) ∨ 2 ^ 28 - 1 < i then 1 else 0 := by
  change (if satSd 29 i = true then 1 else 0) = _
  simp only [satSd_eq, decide_eq_true_eq]

theorem kLogic_and (ha : kTag a = 0) (hb : kTag b = 0) : kLogic 0x08 a b = .ok (kval (kPay a &&& kPay b) 1) :=
  kLogic_int ha hb rfl (Nat.lt_of_le_of_lt Nat.and_le_left (kPay_lt a))
theorem kLogic_or (ha : kTag a = 0) (hb : kTag b = 0) : kLogic 0x09 a b = .ok (kval (kPay a ||| kPay b) 1) :=
  kLogic_int ha hb rfl (Nat.or_lt_two_pow (kPay_lt a) (kPay_lt b))
theorem kLogic_xor (ha : kTag a = 0) (hb : kTag b = 0) : kLogic 0x0A a b = .ok (kval (kPay a ^^^ kPay b) 1) :=
  kLogic_int ha hb rfl (Nat.xor_lt_two_pow (kPay_lt a) (kPay_lt b))
theorem kLogic_shl (ha : kTag a = 0) (hb : kTag b = 0) :
    kLogic 0x0B a b = .ok (kval (if kPay b < 29 then kPay a * 2 ^ kPay b % 2 ^ 29 else 0) 1) := by
  rw [← Nat.shiftLeft_eq]
  refine kLogic_int ha hb rfl ?_
  split
  · exact Nat.mod_lt _ (by decide)
  · decide
theorem kLogic_shr (ha : kTag a = 0) (hb : kTag b = 0) : kLogic 0x0C a b = .ok (kval (if kPay b < 29 then kPay a / 2 ^ kPay b else 0) 1) := by
  rw [← Nat.shiftRight_eq_div_pow]
  refine kLogic_int ha hb rfl ?_
  split
  · exact Nat.lt_of_le_of_lt (Nat.shiftRight_eq_div_pow .. ▸ Nat.div_le_self _ _) (kPay_lt a)
  · decide
theorem kLogic_sar (ha : kTag a = 0) (hb : kTag b = 0) :
    kLogic 0x0D a b = .ok (kval (wrapN 29 (sx 29 a / ((2 ^ (Nat.min (kPay b) 28) : Nat) : Int))) 1) := by
  rw [← sx_kPay a]
  exact kLogic_int ha hb rfl (wrapN_lt _ _)

theorem ketchIntegerResults : Clause.KetchIntegerResults := fun k _ _ _ ha hb =>
  ⟨kAdd_int k ha hb, kSub_int k ha hb, kMul_int k ha hb, kAddi_int ha, kLogic_and ha hb, kLogic_or ha hb, kLogic_xor ha hb, kLogic_shl ha hb,
    kLogic_shr ha hb, kLogic_sar ha hb, kSeq_same (ha ▸ by decide) (hb.trans ha.symm), kSlt_signed k (.inl ⟨ha, hb⟩),
    fun i n => ⟨rfl, rfl, kInt_istat i n⟩⟩

/-! ### The computing instructions complete -/

/-- A computing instruction whose operands give a value without a trap completes with it. -/
theorem completes {i : Instr} {d : Nat} {r : Except Refused KVal} {v : KVal} (h : ketchAt s c w = true)
    (hi : exec i s = .next (kCompute (ketchU s c) c (ketchK s c) d r)) (hr : r = .ok v) (hv : v.trap = false) :
    ∃ t, exec i s = .next t ∧ KetchWrites s t c d v := (ketchComputes_of_run h hi).1 v hr hv

theorem ketchInstructionsComplete : Clause.KetchInstructionsComplete := by
  intro s c w hc h
  have run {op : Nat} {t : State} (hw : kOp w = op) (ht : kRun (ketchU s c) c (ketchK s c) w = t) :
      act (decide (c < 76)) (ketchOp op s c) = .next t := (act_ketchOp (decide_eq_true hc) h hw).trans (congrArg _ ht)
  dsimp only
  refine ⟨?move, ?ldi, ?ldhi, ?addInt, ?addFixed, ?addPtr, ?subInt, ?subFixed, ?mul, ?addi, ?and, ?or, ?xor, ?shl, ?shr, ?sar, ?seq, ?slt,
    ?sltPtr, ?cvt, ?mktag, ?tagof⟩
  case move => exact fun hw ha => completes h (run hw (by simp only [kRun, hw])) (kMove_usable ha) rfl
  case ldi => exact fun hw => ⟨_, run hw (by simp only [kRun, hw]), ketchWrites_kWrite h _ rfl⟩
  case ldhi =>
    intro hw hd
    have hm : w % 2 ^ 18 % 2 ^ 11 = w % 2 ^ 11 := by omega
    exact completes h (run hw (by simp only [kRun, hw])) (hm ▸ kLdhi_int _ hd) rfl
  case addInt => exact fun hw ⟨ha, hb⟩ => completes h (run hw (by simp only [kRun, hw])) (kAdd_int (ketchK s c) ha hb) rfl
  case addFixed => exact fun hw ha hb => completes h (run hw (by simp only [kRun, hw])) (kAdd_fixed (ketchK s c) ha hb) rfl
  case addPtr => exact fun q hw ha hb hq => completes h (run hw (by simp only [kRun, hw])) (kAdd_ptr (ketchK s c) ha hb hq) rfl
  case subInt => exact fun hw ⟨ha, hb⟩ => completes h (run hw (by simp only [kRun, hw])) (kSub_int (ketchK s c) ha hb) rfl
  case subFixed => exact fun hw ha hb => completes h (run hw (by simp only [kRun, hw])) (kSub_fixed (ketchK s c) ha hb) rfl
  case mul => exact fun hw ⟨ha, hb⟩ => completes h (run hw (by simp only [kRun, hw])) (kMul_int (ketchK s c) ha hb) rfl
  case addi => exact fun hw ha => completes h (run hw (by simp only [kRun, hw])) (kAddi_int ha) rfl
  case and => exact fun hw ⟨ha, hb⟩ => completes h (run hw (by simp only [kRun, hw])) (kLogic_and ha hb) rfl
  case or => exact fun hw ⟨ha, hb⟩ => completes h (run hw (by simp only [kRun, hw])) (kLogic_or ha hb) rfl
  case xor => exact fun hw ⟨ha, hb⟩ => completes h (run hw (by simp only [kRun, hw])) (kLogic_xor ha hb) rfl
  case shl => exact fun hw ⟨ha, hb⟩ => completes h (run hw (by simp only [kRun, hw])) (kLogic_shl ha hb) rfl
  case shr => exact fun hw ⟨ha, hb⟩ => completes h (run hw (by simp only [kRun, hw])) (kLogic_shr ha hb) rfl
  case sar => exact fun hw ⟨ha, hb⟩ => completes h (run hw (by simp only [kRun, hw])) (kLogic_sar ha hb) rfl
  case seq => exact fun hw ha hb => completes h (run hw (by simp only [kRun, hw])) (kSeq_same ha hb) rfl
  case slt => exact fun hw hab => completes h (run hw (by simp only [kRun, hw])) (kSlt_signed (ketchK s c) hab) rfl
  case sltPtr => exact fun hw ha hb => completes h (run hw (by simp only [kRun, hw])) (kSlt_pointers (ketchK s c) ha hb) rfl
  case cvt => exact fun hw ha ht => completes h (run hw (by simp only [kRun, hw])) (kCvt_plain (ketchK s c) ha ht) rfl
  case mktag => exact fun hw ha ht => completes h (run hw (by simp only [kRun, hw])) (kMktag_allowed (ketchK s c) ha ht) rfl
  case tagof => exact fun hw => ⟨_, run hw (by simp only [kRun, hw]), ketchWrites_kWrite h _ rfl⟩

/-- Settles O8. -/
theorem integerResultsAndTagChecks : Obligations.IntegerResultsAndTagChecks :=
  ⟨ketchIntegerResults, ketchTagChecks, ketchInstructionsComplete⟩

end Sys2Proof.Machine
end

section
/-! Ketch control flow (chapter 08, R223). -/
namespace Sys2Proof.Machine

variable {s : State} {c w op : Nat} {k : Coach} {a b : Nat}

/-- An operand of a tag that is not permitted ends in entry 15. -/
theorem kOne_refused {opnd x : Nat} {perm : List Nat} (h : perm.contains (kTag x) = false) :
    ∃ e, kOne op opnd perm a x = some e ∧ e.entry = 15 := by
  unfold kOne
  by_cases hx : kTag x < 6
  · rw [kUse_none hx, h]
    exact ⟨_, rfl, rfl⟩
  · rw [kUse_some (Nat.le_of_not_lt hx)]
    exact ⟨_, rfl, rfl⟩

theorem kOne_single {opnd x t : Nat} (ht : t < 6) (h : kTag x = t) : kOne op opnd [t] a x = none :=
  kOne_ok (h ▸ ht) (by rw [h]; simp)

theorem kOne_single_refused {opnd x t : Nat} (h : kTag x ≠ t) : ∃ e, kOne op opnd [t] a x = some e ∧ e.entry = 15 :=
  kOne_refused (by simpa using h)

/-- The pushed address leaves every field of the coach but the stack pointer. -/
theorem ssPush_exc (s : State) (c : Nat) (k : Coach) (v : W32) : (ssPush s c k v).2.exc = k.exc := by
  unfold ssPush
  split
  · rfl
  · rfl

theorem ssPop_exc (k : Coach) : (ssPop k).exc = k.exc := by
  unfold ssPop
  split
  · rfl
  · rfl

theorem rdCo_setG (k : Coach) (i v off : Nat) : rdCo (setG k i v) off = rdCo k off := rfl

/-- Bank cycles that a push has cost count in the cycles and in the budget, and in nothing that `KetchGoes` names. -/
theorem ketchGoes_lost {q t : State} {l : Coach} {goal : W32} {i v n m : Nat}
    (h : KetchGoes q t c (setG (passTime l 0 m) i v) goal n) : KetchGoes q t c (setG l i v) goal n := by
  obtain ⟨hoc, hpc, hg, hp, hn, hv, hacc, hpend, hcop, hcyc, hexc, hco⟩ := h
  refine ⟨hoc, hpc, hg.trans ?_, hp.trans (passTime_p ..), hn.trans (passTime_n ..), hv.trans (passTime_v ..), hacc.trans (passTime_acc ..),
    hpend.trans (passTime_pend ..), hcop.trans (passTime_coPend ..), hcyc.trans ?_, hexc, fun off ho => (hco off ho).trans ?_⟩
  · unfold setG
    rw [passTime_g]
  · exact congrArg (· + n) (passTime_cyc l 0 m)
  · rw [rdCo_setG, rdCo_setG, rdCo_passTime ho]

theorem ketchGoes_kCallTo {op : Nat} {p : Nat} {goal : W32} (he : k.exc = none) (hp : kPayOf (kNext k).toNat = some p) (hs : ssPushOk k = true) :
    KetchGoes (ssPush s c k (kNext k)).1 (kCallTo s c k op goal) c (setG (ssPush s c k (kNext k)).2 14 (kWord 3 p)) goal 4 := by
  unfold kCallTo
  rw [hp]
  simp only [hs, Bool.not_true, Bool.false_eq_true, if_false]
  refine ketchGoes_lost (ketchGoes_kDone ?_ goal 4 0)
  exact (passTime_exc ..).trans ((ssPush_exc ..).trans he)

/-- The coach's state after a refusal. -/
def Refusing (s : State) (c : Nat) (k : Coach) (t : State) : Prop := ∃ e : Refused, e.entry = 15 ∧ t = setCo s c (refuseAt k e)

theorem refusing_kCond {imm : Int} (ha : kTag a ≠ 0) : Refusing s c k (kCond s c k op a imm) := by
  obtain ⟨e, he, h15⟩ := kOne_single_refused (op := op) (a := a) (opnd := 0) ha
  refine ⟨e, h15, ?_⟩
  unfold kCond
  rw [he]

theorem refusing_kJump (ha : kTag a ≠ 3) : Refusing s c k (kJump s c k a) := by
  obtain ⟨e, he, h15⟩ := kOne_single_refused (op := 0x1B) (a := a) (opnd := 0) ha
  refine ⟨e, h15, ?_⟩
  unfold kJump
  rw [he]

theorem refusing_kCallR (ha : kTag a ≠ 3) : Refusing s c k (kCallR s c k a) := by
  obtain ⟨e, he, h15⟩ := kOne_single_refused (op := 0x1D) (a := a) (opnd := 0) ha
  refine ⟨e, h15, ?_⟩
  unfold kCallR
  rw [he]

theorem ketchRefuses_of_refusing {i : Instr} {t : State} (h : ketchAt s c w = true) (hi : exec i s = .next t)
    (ht : Refusing (ketchU s c) c (ketchK s c) t) : ∃ t e, exec i s = .next t ∧ KetchRefuses s t c e ∧ e.entry = 15 := by
  obtain ⟨e, h15, rfl⟩ := ht
  exact ⟨_, e, hi, ketchRefuses_refuseAt h e, h15⟩

/-- A full shadow stack refuses the call. -/
theorem kCallTo_full {p : Nat} {goal : W32} (hp : kPayOf (kNext k).toNat = some p) (hs : ssPushOk k = false) :
    kCallTo s c k op goal = setCo s c (refuseAt k (refuse1 3 1 0 0)) := by
  unfold kCallTo
  rw [hp]
  simp only [hs, Bool.not_false, if_true]

theorem kRet_ok (hr : kTag (gN k 14) = 3) (hs : ssPopCheck s c k (n32 (kAddr (kPay (gN k 14)))) = none) :
    kRet s c k = kDone s c (ssPop k) (n32 (kAddr (kPay (gN k 14)))) 4 0 := by
  unfold kRet
  dsimp only
  rw [kOne_single (by decide) hr]
  dsimp only
  rw [hs]

/-- A conditional branch on an integer goes by whether it is taken. -/
theorem kCond_int {imm : Int} (ha : kTag a = 0) :
    kCond s c k op a imm = kBranch s c k (if op = 0x18 then decide (kPay a = 0) else decide (kPay a ≠ 0)) imm := by
  unfold kCond
  rw [kOne_single (by decide) ha]

theorem kBranch_eq (s : State) (c : Nat) (k : Coach) (taken : Bool) (imm : Int) :
    kBranch s c k taken imm = kDone s c k (if taken then w32 (k.pc.toNat + 2 * imm) else kNext k) (if taken then 4 else 1) 0 := by
  cases taken <;> rfl

/-- Settles O9. -/
theorem ketchControlFlow : Obligations.KetchControlFlow := by
  intro s c w hc h
  have run {op : Nat} {t : State} (hw : kOp w = op) (ht : kRun (ketchU s c) c (ketchK s c) w = t) :
      act (decide (c < 76)) (ketchOp op s c) = .next t := (act_ketchOp (decide_eq_true hc) h hw).trans (congrArg _ ht)
  have hexc := (issuing_ketchK h).1
  dsimp only
  refine ⟨?nop, ?b, ?bz, ?bnz, ?jmp, ?call, ?full, ?ret, ?bzTag, ?bnzTag, ?jmpTag, ?callrTag⟩
  case nop => exact fun hw => ⟨kDone _ c _ (kNext _) 1 0, run hw (by simp only [kRun, hw]), ketchGoes_done h _ 1 0⟩
  case b => exact fun hw => ⟨_, run hw (by simp only [kRun, hw]; rfl), ketchGoes_done h _ 4 0⟩
  case bz =>
    intro hw ha
    refine ⟨_, run hw (by simp only [kRun, hw]; rw [kCond_int ha, if_pos rfl, kBranch_eq]), ?_⟩
    simp only [decide_eq_true_eq]
    exact ketchGoes_done h _ _ 0
  case bnz =>
    intro hw ha
    refine ⟨_, run hw (by simp only [kRun, hw]; rw [kCond_int ha, if_neg (by decide), kBranch_eq]), ?_⟩
    simp only [decide_eq_true_eq, ne_eq, ite_not]
    exact ketchGoes_done h _ _ 0
  case jmp =>
    intro hw ha
    exact ⟨_, run hw (by simp only [kRun, hw]; unfold kJump; rw [kOne_single (by decide) ha]), ketchGoes_done h _ 4 0⟩
  case call =>
    intro p hp hs
    refine ⟨fun hw => ⟨kCallTo (ketchU s c) c _ 0x1C _, run hw (by simp only [kRun, hw]), ketchGoes_kCallTo hexc hp hs⟩, fun hw ha => ?_⟩
    exact ⟨kCallTo (ketchU s c) c _ 0x1D _, run hw (by simp only [kRun, hw]; unfold kCallR; rw [kOne_single (by decide) ha]), ketchGoes_kCallTo hexc hp hs⟩
  case full =>
    intro hw hs hp
    obtain ⟨p, hp⟩ := Option.ne_none_iff_exists'.mp hp
    exact ⟨_, refuse1 3 1 0 0, run hw (by simp only [kRun, hw]; rw [kCallTo_full hp hs]), ketchRefuses_refuseAt h _, rfl, rfl⟩
  case ret =>
    intro hw hr hs
    exact ⟨_, run hw (by simp only [kRun, hw]; exact kRet_ok hr hs),
      ketchGoes_of_base (ketchGoes_kDone ((ssPop_exc _).trans hexc) _ 4 0) (onlyCoach_setCo _ _ _)⟩
  case bzTag => exact fun hw ha => ketchRefuses_of_refusing h (run hw rfl) (by simp only [kRun, hw]; exact refusing_kCond ha)
  case bnzTag => exact fun hw ha => ketchRefuses_of_refusing h (run hw rfl) (by simp only [kRun, hw]; exact refusing_kCond ha)
  case jmpTag => exact fun hw ha => ketchRefuses_of_refusing h (run hw rfl) (by simp only [kRun, hw]; exact refusing_kJump ha)
  case callrTag => exact fun hw ha => ketchRefuses_of_refusing h (run hw rfl) (by simp only [kRun, hw]; exact refusing_kCallR ha)

end Sys2Proof.Machine
end

section
/-! How a bundle ends once its accesses have their answers (R190). -/
namespace Sys2Proof.Machine

variable {s t : State} {c : Nat} {k : Coach}

theorem co_congr {s t : State} (h : s.coaches = t.coaches) (c : Nat) : co s c = co t c := by
  unfold co
  rw [h]

/-- Nothing waits to be served at a coach whose accesses have their answers. -/
theorem serveHeld_answered (h : ∀ x ∈ (co s c).access, x.resp.isSome = true) : serveHeld s c = s := by
  have hw : (co s c).access.filter (fun a => a.resp.isNone) = [] := by
    rw [List.filter_eq_nil_iff]
    intro x hx
    rw [Option.isNone_eq_false_iff.mpr (h x hx)]
    exact Bool.false_ne_true
  unfold serveHeld
  dsimp only
  rw [hw]
  rfl

@[simp] theorem perfIssue_pc (k : Coach) : (perfIssue k).pc = k.pc := by
  unfold perfIssue
  split
  · rfl
  · rfl
@[simp] theorem perfIssue_g (k : Coach) : (perfIssue k).g = k.g := by
  unfold perfIssue
  split
  · rfl
  · rfl
@[simp] theorem perfIssue_p (k : Coach) : (perfIssue k).p = k.p := by
  unfold perfIssue
  split
  · rfl
  · rfl
@[simp] theorem perfIssue_pend (k : Coach) : (perfIssue k).pend = k.pend := by
  unfold perfIssue
  split
  · rfl
  · rfl
@[simp] theorem perfIssue_coPend (k : Coach) : (perfIssue k).coPend = k.coPend := by
  unfold perfIssue
  split
  · rfl
  · rfl
@[simp] theorem perfIssue_long (k : Coach) : (perfIssue k).long = k.long := by
  unfold perfIssue
  split
  · rfl
  · rfl

/-- The coach `m` is `k` with the effect of its answered bundle: what `f` holds, and the `loads`. -/
structure Finished (k : Coach) (f : After) (loads : List Pend) (m : Coach) : Prop where
  pc : m.pc = f.pc
  g : m.g = k.g
  p : m.p = k.p
  n : m.n = k.n
  v : m.v = k.v
  acc : m.acc = k.acc
  pend : m.pend = k.pend ++ f.pend ++ loads
  coPend : m.coPend = k.coPend ++ f.coPend
  seq : m.seq = k.seq + 1
  cyc : m.cyc = k.cyc + (1 + f.bubbles)
  access : m.access = []
  after : m.after = none
  bound : m.bound = f.bound
  exc : f.exc = none → m.exc = k.exc

theorem Finished.wrCo {f : After} {loads : List Pend} {m : Coach} (h : Finished k f loads m) (off : Nat) (x : W32) : Finished k f loads (wrCo m off x) :=
  ⟨h.pc, h.g, h.p, h.n, h.v, h.acc, h.pend, h.coPend, h.seq, h.cyc, h.access, h.after, h.bound, h.exc⟩

theorem Finished.perfIssue {f : After} {loads : List Pend} {m : Coach} (h : Finished k f loads m) : Finished k f loads (perfIssue m) := by
  unfold Machine.perfIssue perfAdd
  split
  · exact h
  · exact h.wrCo _ _

theorem Finished.raiseExc {f : After} {loads : List Pend} {m : Coach} (h : Finished k f loads m) (hf : f.exc ≠ none) (r : ExcReq) :
    Finished k f loads (raiseExc m r) :=
  ⟨h.pc, h.g, h.p, h.n, h.v, h.acc, h.pend, h.coPend, h.seq, h.cyc, h.access, h.after, h.bound, fun hn => absurd hn hf⟩

/-- The data that a bundle's answered accesses have brought. -/
def loadsOf (k : Coach) : List Pend :=
  k.access.flatMap (fun a => loadResults { k with access := [], after := none } a (match a.resp with | some x => x.data | none => 0))

/-- A bundle whose accesses have all been answered without error takes effect. -/
theorem finishBundle_ok {f : After} (st : Nat) (hf : (co s c).after = some f) (hg : f.gate = none)
    (hr : ∀ x ∈ (co s c).access, x.resp.isSome = true)
    (he : (co s c).access.filter (fun a => match a.resp with | some r => decide (r.err ≠ 0) | none => false) = []) :
    ∃ n, finishBundle s c st = setCo s c n ∧ Finished (co s c) f (loadsOf (co s c)) n := by
  have hany : (co s c).access.any (fun a => a.resp.isNone) = false := by
    rw [List.any_eq_false]
    intro x hx
    rw [Option.isNone_eq_false_iff.mpr (hr x hx)]
    exact Bool.false_ne_true
  unfold finishBundle
  rw [serveHeld_answered hr]
  dsimp only
  rw [hf]
  dsimp only
  rw [hany, if_neg Bool.false_ne_true]
  generalize hb : List.filter _ (co s c).access = bad
  obtain rfl : bad = [] := hb.symm.trans he
  dsimp only
  rw [hg]
  refine ⟨_, rfl, ?_⟩
  have hm {m : Coach} (hm : Finished (co s c) f (loadsOf (co s c)) m) :
      Finished (co s c) f (loadsOf (co s c)) (match f.exc with | some e => raiseExc m { e with pc := m.pc } | none => m) := by
    split
    next e he => exact hm.raiseExc (by rw [he]; nofun) _
    next => exact hm
  exact hm (Finished.perfIssue ⟨passTime_pc .., passTime_g .., passTime_p .., passTime_n .., passTime_v .., passTime_acc .., passTime_pend ..,
    passTime_coPend .., passTime_seq .., passTime_cyc .., passTime_access .., passTime_after .., passTime_bound .., fun _ => passTime_exc ..⟩)

/-- A coach with no long operation under way raises what refuses it, one cycle and its stall later. -/
theorem refuseAt_perfIssue_passTime {l : Coach} (st : Nat) (r : Refused) (h : l.long = none) :
    let m := refuseAt (perfIssue (passTime l 1 st)) r
    m.g = l.g ∧ m.p = l.p ∧ m.pend = l.pend ∧ m.coPend = l.coPend ∧ m.pc = l.pc ∧
      ∃ q, m.exc = some q ∧ q.entry = r.entry ∧ q.code = r.code ∧ q.pc = l.pc ∧ q.detail1 = n32 r.detail1 := by
  dsimp only
  rw [refuseAt_eq _ _ ((perfIssue_long _).trans ((passTime_long ..).trans h))]
  exact ⟨(perfIssue_g _).trans (passTime_g ..), (perfIssue_p _).trans (passTime_p ..), (perfIssue_pend _).trans (passTime_pend ..),
    (perfIssue_coPend _).trans (passTime_coPend ..), (perfIssue_pc _).trans (passTime_pc ..), _, rfl, rfl, rfl, (perfIssue_pc _).trans (passTime_pc ..), rfl⟩

/-- A bundle of which an access has been answered with an error is cancelled: it raises bus error and writes nothing. -/
theorem finishBundle_bad {f : After} (st : Nat) (hf : (co s c).after = some f) (hr : ∀ x ∈ (co s c).access, x.resp.isSome = true)
    {a : Access} {r : List Access} {x : Answer}
    (he : (co s c).access.filter (fun a => match a.resp with | some r => decide (r.err ≠ 0) | none => false) = a :: r) (hx : a.resp = some x)
    (hl : (co s c).long = none) :
    ∃ m, finishBundle s c st = setCo s c m ∧ m.g = (co s c).g ∧ m.p = (co s c).p ∧ m.pend = (co s c).pend ∧ m.coPend = (co s c).coPend ∧
      m.pc = (co s c).pc ∧ ∃ q, m.exc = some q ∧ q.entry = 8 ∧ q.code = x.err ∧ q.pc = (co s c).pc ∧ q.detail1 = n32 a.addr := by
  have hany : (co s c).access.any (fun a => a.resp.isNone) = false := by
    rw [List.any_eq_false]
    intro x hx
    rw [Option.isNone_eq_false_iff.mpr (hr x hx)]
    exact Bool.false_ne_true
  unfold finishBundle
  rw [serveHeld_answered hr]
  dsimp only
  rw [hf]
  dsimp only
  rw [hany, if_neg Bool.false_ne_true]
  generalize hb : List.filter _ (co s c).access = bad
  obtain rfl : bad = a :: r := hb.symm.trans he
  dsimp only
  rw [hx]
  exact ⟨_, rfl, refuseAt_perfIssue_passTime (l := { co s c with access := [], after := none }) st _ hl⟩

end Sys2Proof.Machine
end

section
/-! Ketch loads and stores (chapter 08, R228). -/
namespace Sys2Proof.Machine

variable {s : State} {c w op : Nat} {k : Coach} {a b : Nat}

/-! ### The address -/

/-- An address that is none of a pointer's ends in entry 15. -/
theorem kAddress_error {imm : Int} {e : Refused} (h : kAddress op a b imm = .error e) : e.entry = 15 := by
  unfold kAddress at h
  dsimp only at h
  split at h
  · cases h; rfl
  · split at h
    · cases h; rfl
    · split at h
      · cases h
      · cases h; rfl

theorem kAddress_ok_iff {imm : Int} {x : Nat} :
    kAddress op a b imm = .ok x ↔ ((op = 0x15 ∨ op = 0x16 ∨ kTag a < 6) ∧ kTag a = 2 ∧ ∃ p, kPtrAdd (kPay a) imm = some p ∧ x = kAddr p) := by
  by_cases ha : kTag a = 2
  · have hok : kTagOk a = true := by unfold kTagOk; rw [ha]; rfl
    have hlt : kTag a < 6 := ha ▸ by decide
    unfold kAddress
    simp only [hok, Bool.not_true, Bool.and_false, Bool.false_eq_true, if_false, ha, ne_eq, not_true]
    cases kPtrAdd (kPay a) imm with
    | none => simp
    | some p => simp [eq_comm]
  · refine iff_of_false ?_ fun h => ha h.2.1
    unfold kAddress
    simp only [ne_eq, ha, not_false_eq_true, if_true]
    split
    · exact nofun
    · exact nofun

theorem kAddress_ptr {imm : Int} {p : Nat} (ha : kTag a = 2) (hp : kPtrAdd (kPay a) imm = some p) : kAddress op a b imm = .ok (kAddr p) :=
  kAddress_ok_iff.mpr ⟨.inr (.inr (ha ▸ by decide)), ha, p, hp, rfl⟩

theorem kAddress_no_ptr {imm : Int} (ha : kTag a ≠ 2) : ∃ e, kAddress op a b imm = .error e ∧ e.entry = 15 := by
  cases h : kAddress op a b imm with
  | error e => exact ⟨e, rfl, kAddress_error h⟩
  | ok x => exact absurd (kAddress_ok_iff.mp h).2.1 ha

theorem refusing_kLoad {d : Nat} {imm : Int} (ha : kTag a ≠ 2) : Refusing s c k (kLoad s c k op d a imm) := by
  obtain ⟨e, he, h15⟩ := kAddress_no_ptr (op := op) (b := 0) (imm := imm) ha
  refine ⟨e, h15, ?_⟩
  unfold kLoad
  rw [he]

theorem refusing_kStore {imm : Int} (h : kTag a ≠ 2 ∨ 6 ≤ kTag b) : Refusing s c k (kStore s c k 0x14 a b imm) := by
  unfold kStore
  cases hx : kAddress 0x14 a b imm with
  | error e => exact ⟨e, kAddress_error hx, rfl⟩
  | ok x =>
    have hb : kTagOk b = false := by
      have := (kAddress_ok_iff.mp hx).2.1
      unfold kTagOk
      exact decide_eq_false (by omega)
    simp only [hb, Bool.not_false, decide_true, Bool.and_self, if_true]
    exact ⟨_, rfl, rfl⟩

/-! ### An access that is served, and one that waits -/

/-- The state after an access has been sent: the coach waits for it, and what it does with the answer stands ready. -/
theorem co_ketchSent (s : State) (c : Nat) (a : Access) (n : Nat) : ∃ f : After, co (ketchSent s c a n) c = { ketchK s c with access := [a], after := some f } ∧
    f.pc = (ketchK s c).pc + 2 ∧ f.bubbles = n - 1 ∧ f.pend = [] ∧ f.exc = none ∧ f.gate = none := by
  unfold ketchSent kSend
  rw [co_setCo_same]
  exact ⟨_, rfl, rfl, rfl, rfl, rfl, rfl⟩

theorem onlyCoach_ketchSent (s : State) (c : Nat) (a : Access) (n : Nat) : OnlyCoach c (ketchS s c) (ketchSent s c a n) :=
  onlyCoach_ketchU s c _

/-- The waiting access of a coach that waits for one alone takes its answer. -/
theorem answerAccess_one {t : State} {a : Access} {f : After} {l : Coach} (ht : co t c = { l with access := [a], after := some f })
    (ha : a.resp = none) (r : Answer) :
    answerAccess t c a.ld r = setCo t c { l with access := [{ a with resp := some r }], after := some f } := by
  unfold answerAccess
  rw [ht]
  simp only [List.map_cons, List.map_nil, ha, Option.isNone_none, decide_true, Bool.and_self, if_true]

/-- An access to the coach's own memory whose answer `ownAnswer` gives is served now, without error. -/
theorem ownAnswer_some {u : State} {a : Access} {o : BankOut} (h : ownAnswer u c a = some o) :
    servedNow u c a = true ∧ o.code = 0 ∧ u.coaches = o.st.coaches ∧
      serveNow u c a = answerAccess o.st c a.ld { err := 0, data := o.data } := by
  unfold ownAnswer at h
  split at h
  next kind inst off hr =>
    dsimp only at h
    split at h
    next hs =>
      simp only [Bool.and_eq_true, decide_eq_true_eq] at hs
      obtain ⟨hs, hz⟩ := hs
      injection h with h
      subst h
      refine ⟨hs, hz, (sameOutside_bankAccess ..).coaches.symm, ?_⟩
      unfold serveNow
      rw [hr]
      dsimp only
      rw [hz]
    next => cases h
  next => cases h

/-- An access to a bank that is not the coach's own is sent to it. -/
theorem servedNow_far {u : State} {a : Access} {kind inst off : Nat} (h : route u c a.addr = .bank kind inst off false) :
    servedNow u c a = false ∧
      sendAccess u c a = setReqs u (portOf kind inst off c false) (portReqs u (portOf kind inst off c false) ++ [{ master := c, ld := a.ld, refusals := 0 }]) := by
  refine ⟨?_, ?_⟩
  · unfold servedNow
    rw [h]
  · unfold sendAccess
    rw [h]

/-- What a Ketch access whose checks pass does. -/
theorem ketchAccesses {i : Instr} {a : Access} {n : Nat} (h : ketchAt s c w = true) (ha : a.resp = none) (hld : a.ld = 0) (hn : 1 ≤ n)
    (hi : exec i s = .next (kAccess (ketchU s c) c (ketchK s c) a n)) : KetchAccesses s c i a n := by
  intro hchk
  have hacc : kAccess (ketchU s c) c (ketchK s c) a n =
      if servedNow (ketchSent s c a n) c a then finishBundle (serveNow (ketchSent s c a n) c a) c 0 else sendAccess (ketchSent s c a n) c a := by
    unfold kAccess
    rw [hchk]
    rfl
  obtain ⟨f, hk, hpc, hbub, hpend, hexc, hgate⟩ := co_ketchSent s c a n
  refine ⟨fun o ho => ?_, fun kind inst off hr => ?_⟩
  · obtain ⟨hs, -, hco, hserve⟩ := ownAnswer_some ho
    have hko : co o.st c = { ketchK s c with access := [a], after := some f } := (co_congr hco c).symm.trans hk
    rw [hs, if_pos rfl, hserve, answerAccess_one hko ha] at hacc
    generalize hv : setCo o.st c { ketchK s c with access := [{ a with resp := some { err := 0, data := o.data } }], after := some f } = v at hacc
    have hkv : co v c = { ketchK s c with access := [{ a with resp := some { err := 0, data := o.data } }], after := some f } := by
      rw [← hv, co_setCo_same]
    obtain ⟨m, hm, hfin⟩ := finishBundle_ok (s := v) (c := c) (f := f) 0 (by rw [hkv]) hgate (by rw [hkv]; simp) (by rw [hkv]; simp)
    rw [hkv] at hfin
    refine ⟨_, hi.trans (congrArg _ (hacc.trans hm)), by rw [← hv]; rfl, fun d hd => ?_, ?_⟩
    · rw [co_setCo, if_neg hd, ← hv, co_setCo, if_neg hd, ← co_congr hco]
      exact (onlyCoach_ketchSent s c a n).2 d hd
    · rw [co_setCo_same]
      refine ⟨hfin.pc.trans hpc, hfin.g, hfin.p, hfin.cyc.trans ?_, (hfin.exc hexc).trans (issuing_ketchK h).1, ?_⟩
      · change (ketchK s c).cyc + (1 + f.bubbles) = _
        omega
      · rw [hfin.pend, hpend, List.append_nil]
        exact congrArg _ (List.append_nil _)
  · obtain ⟨hs, hsend⟩ := servedNow_far hr
    rw [hs, if_neg Bool.false_ne_true, hsend] at hacc
    have hkc : co (setReqs (ketchSent s c a n) (portOf kind inst off c false)
        (portReqs (ketchSent s c a n) (portOf kind inst off c false) ++ [{ master := c, ld := a.ld, refusals := 0 }])) c =
        { ketchK s c with access := [a], after := some f } := hk
    refine ⟨_, hi.trans (congrArg _ hacc), by rw [hld], ?_⟩
    rw [hkc]
    exact ⟨rfl, rfl, rfl⟩

theorem kLoad_ptr {d p : Nat} {imm : Int} (ha : kTag a = 2) (hp : kPtrAdd (kPay a) imm = some p) :
    kLoad s c k op d a imm = kAccess s c k (kLoadAcc k d (kAddr p)) 4 := by
  unfold kLoad
  rw [kAddress_ptr ha hp]

theorem kStore_ptr {p : Nat} {imm : Int} (ha : kTag a = 2) (hp : kPtrAdd (kPay a) imm = some p) (hb : op = 0x14 → kTag b < 6) :
    kStore s c k op a b imm = kAccess s c k (kStoreAcc k b (kAddr p)) 1 := by
  unfold kStore
  rw [kAddress_ptr ha hp]
  refine if_neg ?_
  rw [Bool.and_eq_true, Bool.not_eq_true', decide_eq_true_eq]
  rintro ⟨ho, hk⟩
  exact of_decide_eq_false hk (hb ho)

/-- Settles O10. -/
theorem ketchMemoryInstructions : Obligations.KetchMemoryInstructions := by
  intro s c w hc h
  have run {op : Nat} {t : State} (hw : kOp w = op) (ht : kRun (ketchU s c) c (ketchK s c) w = t) :
      act (decide (c < 76)) (ketchOp op s c) = .next t := (act_ketchOp (decide_eq_true hc) h hw).trans (congrArg _ ht)
  dsimp only
  refine ⟨fun p ha hp => ⟨fun hw => ?_, fun hw => ?_, fun hw hb => ?_, fun hw => ?_⟩, fun hw ha => ?_, fun hw hab => ?_, fun _ _ _ => rfl,
    fun _ _ _ _ _ => kAddress_ok_iff⟩
  · exact ketchAccesses h rfl rfl (by decide) (run hw (by simp only [kRun, hw]; exact kLoad_ptr ha hp))
  · exact ketchAccesses h rfl rfl (by decide) (run hw (by simp only [kRun, hw]; exact kLoad_ptr ha hp))
  · exact ketchAccesses h rfl rfl (by decide) (run hw (by simp only [kRun, hw]; exact kStore_ptr ha hp fun _ => hb))
  · exact ketchAccesses h rfl rfl (by decide) (run hw (by simp only [kRun, hw]; exact kStore_ptr ha hp nofun))
  · exact ketchRefuses_of_refusing h (run hw rfl) (by simp only [kRun, hw]; exact refusing_kLoad ha)
  · exact ketchRefuses_of_refusing h (run hw rfl) (by simp only [kRun, hw]; exact refusing_kStore hab)

end Sys2Proof.Machine
end

section
/-! Ketch gates, system instructions and the mode switch (chapter 08, R216, R217, R231 to R237). -/
namespace Sys2Proof.Machine

/-! ### A coach that is written twice -/

theorem terase_of_not_mem {β : Type} {k : Nat} : ∀ {t : Table β}, (∀ e ∈ t, e.1 ≠ k) → terase t k = t
  | [], _ => rfl
  | (i, v) :: r, h => by
    rw [terase, if_neg (h _ List.mem_cons_self), terase_of_not_mem fun e he => h e (List.mem_cons_of_mem _ he)]

theorem terase_tins {β : Type} {k : Nat} (v : β) : ∀ {t : Table β}, (∀ e ∈ t, e.1 ≠ k) → terase (tins k v t) k = t
  | [], _ => by rw [tins, terase, if_pos rfl]; rfl
  | (i, u) :: r, h => by
    have hr := fun e he => h e (List.mem_cons_of_mem _ he)
    have hi : i ≠ k := h _ List.mem_cons_self
    unfold tins
    split
    · rw [terase, if_pos rfl, terase_of_not_mem h]
    · rw [terase, if_neg hi, terase_tins v hr]

/-- The last of two writes of one key counts. -/
theorem tput_tput {β : Type} [DecidableEq β] (d : β) (t : Table β) (k : Nat) (u v : β) : tput d (tput d t k u) k v = tput d t k v := by
  have h : terase (tput d t k u) k = terase t k := by
    unfold tput
    split
    · exact terase_of_not_mem (terase_keys t k)
    · exact terase_tins u (terase_keys t k)
  unfold tput at h ⊢
  rw [h]

theorem setCo_setCo (s : State) (c : Nat) (k l : Coach) : setCo (setCo s c k) c l = setCo s c l := by
  unfold setCo
  dsimp only
  rw [tput_tput]

variable {s : State} {c w op : Nat} {k : Coach} {a b : Nat}

/-! ### Registers written one after the other -/

theorem rdG_setG (k : Coach) (i j v : Nat) : rdG (setG k i v) j = if j = i then n32 v else rdG k j := by
  unfold rdG setG
  exact tget_tput ..

/-- Writing `f i` to each of the first `n` registers. -/
theorem rdG_foldl_setG (f : Nat → Nat) (n : Nat) (k : Coach) (j : Nat) :
    rdG ((upto n).foldl (fun l i => setG l i (f i)) k) j = if j < n then n32 (f j) else rdG k j := by
  induction n with
  | zero => rfl
  | succ n ih =>
    unfold upto at ih ⊢
    rw [List.range_succ, List.foldl_append, List.foldl_cons, List.foldl_nil, rdG_setG, ih]
    by_cases hj : j = n
    · rw [if_pos hj, if_pos (by omega), hj]
    · rw [if_neg hj]
      by_cases hl : j < n
      · rw [if_pos hl, if_pos (by omega)]
      · rw [if_neg hl, if_neg (by omega)]

theorem n32_toNat (x : W32) : n32 x.toNat = x := by rw [n32, BitVec.ofNat_toNat, BitVec.setWidth_eq]

/-- The mode that a gate sets. -/
theorem setKetch_ketch (k : Coach) (b : Bool) : (setKetch k b).ketch = b := rfl
theorem g_withMode (l : Coach) (b : Bool) : ({ l with ketch := b, decoded := none } : Coach).g = l.g := rfl
theorem co_withMode (l : Coach) (b : Bool) : ({ l with ketch := b, decoded := none } : Coach).co = l.co := rfl
theorem setKetch_g (k : Coach) (b : Bool) : (setKetch k b).g = k.g := (g_withMode _ b).trans (setCoF_g ..)
theorem rdG_setKetch (k : Coach) (b : Bool) (i : Nat) : rdG (setKetch k b) i = rdG k i := by
  unfold rdG
  rw [setKetch_g]
theorem rdCo_congr {k l : Coach} (h : k.co = l.co) (off : Nat) : rdCo k off = rdCo l off := by
  unfold rdCo
  rw [h]
theorem rdCo_setKetch_mode (k : Coach) (b : Bool) (off : Nat) : rdCo (setKetch k b) off = rdCo (wrCo k 0x000 (setR (rdCo k 0x000) 15 1 (b2n b))) off :=
  rdCo_congr (co_withMode _ b) off
theorem coB_setKetch (k : Coach) (b : Bool) : coB (setKetch k b) 0x000 15 = b := by
  unfold coB
  rw [rdCo_setKetch_mode, rdCo_wrCo_same, rbit_setR _ _ _ _ _ (by decide), if_neg (by decide), if_pos (by decide)]
  cases b
  · rfl
  · rfl
theorem rdCo_setKetch {off : Nat} (h : off ≠ 0x000) (b : Bool) : rdCo (setKetch k b) off = rdCo k off := by
  rw [rdCo_setKetch_mode, rdCo_wrCo, if_neg h]

/-! ### KCALL and KRET -/

theorem gate_ite {p : Prop} [Decidable p] {P : GateOut → Prop} {x y : GateOut} (hx : p → P x) (hy : ¬p → P y) : P (if p then x else y) := by
  by_cases h : p
  · rw [if_pos h]; exact hx h
  · rw [if_neg h]; exact hy h

/-- What a gate that is not refused leaves, beside the next address: the mode, LNK and the arguments. -/
def Kcalled (k : Coach) (a n : Nat) (o : GateOut) : Prop :=
  o.bad = none → o.k.ketch = false ∧ coB o.k 0x000 15 = false ∧ o.next = n32 (kAddr (kPay (gN k a))) ∧ rdCo o.k 0x320 = n32 gateRet ∧
    ∀ i, i < n → rdG o.k i = (kToE (gN k i)).getD 0

theorem kcalled_refused {n : Nat} {o : GateOut} {r : Refused} (h : o.bad = some r) : Kcalled k a n o := fun hn => absurd (h.symm.trans hn) nofun

theorem kcalled_gateKcall (s : State) (c : Nat) (k : Coach) (pc a n rt0 rt1 : Nat) : Kcalled k a n (gateKcall s c k pc a n rt0 rt1) := by
  unfold gateKcall
  dsimp only
  refine gate_ite (fun _ => kcalled_refused rfl) fun _ => gate_ite (fun _ => kcalled_refused rfl) fun hn => ?_
  iterate 4 refine gate_ite (fun _ => kcalled_refused rfl) fun _ => ?_
  split
  · exact kcalled_refused rfl
  split
  · exact kcalled_refused rfl
  split
  · exact kcalled_refused rfl
  refine gate_ite (fun _ => kcalled_refused rfl) fun _ => ?_
  split
  · exact kcalled_refused rfl
  split
  · exact kcalled_refused rfl
  intro _
  refine ⟨rfl, coB_setKetch _ _, rfl, ?_, fun i hi => ?_⟩
  · dsimp only
    rw [rdCo_setKetch (by decide), rdCo_wrCo_same]
  · have h15 : i ≠ 15 := by omega
    dsimp only
    rw [rdG_setKetch, rdG_wrCo, rdG_setG, if_neg h15]
    exact (rdG_foldl_setG (fun i => ((kToE (gN k i)).getD 0).toNat) n _ i).trans ((if_pos hi).trans (n32_toNat _))

/-- What a gate return that is not refused leaves: the mode and the results. -/
def Kreturned (k : Coach) (n : Nat) (o : GateOut) : Prop :=
  o.bad = none → o.k.ketch = false ∧ coB o.k 0x000 15 = false ∧ ∀ i, i < n → rdG o.k i = (kToE (gN k i)).getD 0

theorem kreturned_refused {n : Nat} {o : GateOut} {r : Refused} (h : o.bad = some r) : Kreturned k n o := fun hn => absurd (h.symm.trans hn) nofun

theorem kreturned_gateKret (s : State) (c : Nat) (k : Coach) (n : Nat) : Kreturned k n (gateKret s c k n) := by
  unfold gateKret
  dsimp only
  refine gate_ite (fun _ => kreturned_refused rfl) fun hn => ?_
  iterate 2 refine gate_ite (fun _ => kreturned_refused rfl) fun _ => ?_
  split
  · exact kreturned_refused rfl
  refine gate_ite (fun _ => kreturned_refused rfl) fun _ => ?_
  split
  · exact kreturned_refused rfl
  split
  · exact kreturned_refused rfl
  split
  · exact kreturned_refused rfl
  intro _
  refine ⟨rfl, coB_setKetch _ _, fun i hi => ?_⟩
  have h15 : i ≠ 15 := by omega
  dsimp only
  rw [rdG_setKetch, rdG_setG, if_neg h15]
  refine (rdG_foldl_setG (fun i => if i < n then ((kToE (gN k i)).getD 0).toNat else 0) 2 _ i).trans ?_
  rw [if_pos (by omega), if_pos hi, n32_toNat]

/-- A gate that is refused for another reason than a bus error changes nothing but what it raises. -/
theorem kGate_refused {o : GateOut} {e : Refused} (n : Nat) (h : o.bad = some e) (h8 : e.entry ≠ 8) : kGate s c k o n = setCo s c (refuseAt k e) := by
  unfold kGate
  rw [h]
  dsimp only
  rw [if_neg h8]

/-- The coach after a gate action that is done. -/
def gated (k l : Coach) (next : W32) (n st : Nat) : Coach := { passTime l n st with pc := next, lastPc := k.pc, seq := k.seq + 1, bound := .drain }

theorem kGate_done {o : GateOut} (n : Nat) (h : o.bad = none) : kGate s c k o n = setCo o.st c (gated k o.k o.next n o.stall) := by
  unfold kGate gated
  rw [h]

theorem gated_ketch (k l : Coach) (next : W32) (n st : Nat) : (gated k l next n st).ketch = l.ketch := passTime_ketch ..
theorem gated_cyc (k l : Coach) (next : W32) (n st : Nat) : (gated k l next n st).cyc = l.cyc + n := passTime_cyc ..
theorem rdG_gated (k l : Coach) (next : W32) (n st i : Nat) : rdG (gated k l next n st) i = rdG l i := by
  unfold rdG gated
  rw [passTime_g]
theorem rdCo_gated {off : Nat} (h : off ≠ 0x506) (k l : Coach) (next : W32) (n st : Nat) : rdCo (gated k l next n st) off = rdCo l off :=
  (rdCo_congr rfl off).trans (rdCo_passTime h l n st)
theorem coB_gated (k l : Coach) (next : W32) (n st : Nat) : coB (gated k l next n st) 0x000 15 = coB l 0x000 15 := by
  unfold coB
  rw [rdCo_gated (by decide)]

theorem ketchGates : Clause.KetchGates := by
  intro s c w hc h
  have run {op : Nat} {t : State} (hw : kOp w = op) (ht : kRun (ketchU s c) c (ketchK s c) w = t) :
      act (decide (c < 76)) (ketchOp op s c) = .next t := (act_ketchOp (decide_eq_true hc) h hw).trans (congrArg _ ht)
  dsimp only
  refine ⟨fun hw ho => ?_, fun hw ho => ?_, fun e hw ho h8 => ?_, fun e hw ho h8 => ?_⟩
  · obtain ⟨hk, hb, hn, hl, hg⟩ := kcalled_gateKcall _ _ _ _ _ _ _ _ ho
    refine ⟨_, run hw (by simp only [kRun, hw]; exact kGate_done 8 ho), rfl, ?_⟩
    rw [co_setCo_same]
    exact ⟨(gated_ketch ..).trans hk, (coB_gated ..).trans hb, hn, (rdCo_gated (by decide) ..).trans hl, fun i hi => (rdG_gated ..).trans (hg i hi), gated_cyc ..⟩
  · obtain ⟨hk, hb, hg⟩ := kreturned_gateKret _ _ _ _ ho
    refine ⟨_, run hw (by simp only [kRun, hw]; exact kGate_done 9 ho), rfl, ?_⟩
    rw [co_setCo_same]
    exact ⟨(gated_ketch ..).trans hk, (coB_gated ..).trans hb, rfl, fun i hi => (rdG_gated ..).trans (hg i hi)⟩
  · exact ⟨_, run hw (by simp only [kRun, hw]; exact kGate_refused 8 ho h8), ketchRefuses_refuseAt h e⟩
  · exact ⟨_, run hw (by simp only [kRun, hw]; exact kGate_refused 9 ho h8), ketchRefuses_refuseAt h e⟩

/-! ### KSYS, KBRK and KERET -/

theorem rdCo_setCoF_same (k : Coach) (off lo w v : Nat) : rdCo (setCoF k off lo w v) off = setR (rdCo k off) lo w v := rdCo_wrCo_same ..
theorem rdCo_setCoF_ne {off : Nat} (k : Coach) {o lo w v : Nat} (h : off ≠ o) : rdCo (setCoF k o lo w v) off = rdCo k off :=
  (rdCo_wrCo ..).trans (if_neg h)

/-- The registers that ERET restores, the exception stack pointer among them. -/
def eretCo (k : Coach) (v : List W32) : Coach :=
  let l := setCoF (setCoF k 0x002 1 1 (rfld (v.getD 1 0) 1 1)) 0x002 7 1 (rfld (v.getD 1 0) 7 1)
  setCoF (wrCo (wrCo (wrCo l 0x320 (v.getD 2 0)) 0x322 (setR 0 0 14 (v.getD 3 0).toNat)) 0x402 (rdCo l 0x402 + 16)) 0x40C 2 1 0

theorem pc_eretRegs (k : Coach) (v : List W32) : (eretRegs k v).pc = v.getD 0 0 := by
  unfold eretRegs
  dsimp only

theorem g_eretRegs (k : Coach) (v : List W32) : (eretRegs k v).g = k.g := by
  unfold eretRegs
  simp only [setCoF_g, wrCo_g]

theorem rdCo_eretRegs (k : Coach) (v : List W32) (off : Nat) : rdCo (eretRegs k v) off = rdCo (eretCo k v) off := by
  refine rdCo_congr ?_ off
  unfold eretRegs eretCo
  dsimp only

theorem rfld_one (x : W32) (i : Nat) : (rfld x i 1).testBit 0 = rbit x i := by
  rw [testBit_rfld]
  rfl

theorem isSup_eretRegs (k : Coach) (v : List W32) : isSup (eretRegs k v) = rbit (v.getD 1 0) 1 := by
  unfold isSup coB
  rw [rdCo_eretRegs, eretCo, rdCo_setCoF_ne _ (by decide), rdCo_wrCo, if_neg (by decide), rdCo_wrCo, if_neg (by decide), rdCo_wrCo,
    if_neg (by decide), rdCo_setCoF_same, rbit_setR _ _ _ _ _ (by decide), if_pos (by decide), rdCo_setCoF_same, rbit_setR _ _ _ _ _ (by decide),
    if_neg (by decide), if_pos (by decide), Nat.sub_self, rfld_one]

theorem lnk_eretRegs (k : Coach) (v : List W32) : rdCo (eretRegs k v) 0x320 = v.getD 2 0 := by
  rw [rdCo_eretRegs, eretCo, rdCo_setCoF_ne _ (by decide), rdCo_wrCo, if_neg (by decide), rdCo_wrCo, if_neg (by decide), rdCo_wrCo_same]

theorem df_eretRegs (k : Coach) (v : List W32) : coB (eretRegs k v) 0x40C 2 = false := by
  unfold coB
  rw [rdCo_eretRegs, eretCo, rdCo_setCoF_same, rbit_setR _ _ _ _ _ (by decide), if_neg (by decide), if_pos (by decide)]
  rfl

theorem esp_eretRegs (k : Coach) (v : List W32) : rdCo (eretRegs k v) 0x402 = rdCo k 0x402 + 16 := by
  rw [rdCo_eretRegs, eretCo, rdCo_setCoF_ne _ (by decide), rdCo_wrCo_same, rdCo_setCoF_ne _ (by decide), rdCo_setCoF_ne _ (by decide)]

/-- KERET below supervisor level is refused. -/
theorem kEret_task (h : isSup k = false) : kEret s c k = setCo s c (refuseAt k (refuse1 6 1 0 0)) := by
  unfold kEret
  rw [h]
  rfl

/-- The coach that KERET returns to. -/
def keretCoach (r : State × Option (Nat × Nat × Nat) × List W32) (c : Nat) (k : Coach) (st : Nat) : Coach :=
  eretRegs (passTime { co r.1 c with lastPc := k.pc, seq := k.seq + 1 } 8 st) r.2.2

theorem kEret_sup {u : State} (hu : setCo u c k = u) (h : isSup k = true) (hr : (eretRead u c).2.1 = none) :
    kEret u c k = setCo (eretRead u c).1 c (keretCoach (eretRead u c) c k (eretStall u c)) := by
  unfold kEret keretCoach
  rw [h]
  dsimp only
  rw [hu, if_neg (by decide), hr]

theorem setCo_ketchU (s : State) (c : Nat) : setCo (ketchU s c) c (ketchK s c) = ketchU s c := setCo_setCo ..

/-- The supervisor call of a Ketch instruction. -/
def ksysReq (k : Coach) (w : Nat) : ExcReq := { excReq 17 0 (kNext k) k.pc with scnum := w % 2 ^ 16 }

section
variable (r : State × Option (Nat × Nat × Nat) × List W32) (c : Nat) (k : Coach) (st : Nat)

theorem pc_keretCoach : (keretCoach r c k st).pc = r.2.2.getD 0 0 := by
  unfold keretCoach
  rw [pc_eretRegs]

theorem isSup_keretCoach : isSup (keretCoach r c k st) = rbit (r.2.2.getD 1 0) 1 := by
  unfold keretCoach
  rw [isSup_eretRegs]

theorem lnk_keretCoach : rdCo (keretCoach r c k st) 0x320 = r.2.2.getD 2 0 := by
  unfold keretCoach
  rw [lnk_eretRegs]

theorem df_keretCoach : coB (keretCoach r c k st) 0x40C 2 = false := by
  unfold keretCoach
  rw [df_eretRegs]

theorem esp_keretCoach : rdCo (keretCoach r c k st) 0x402 = rdCo (co r.1 c) 0x402 + 16 := by
  unfold keretCoach
  rw [esp_eretRegs, rdCo_passTime (by decide)]
  exact congrArg (· + 16) (rdCo_congr rfl _)

theorem g_keretCoach : (keretCoach r c k st).g = (co r.1 c).g := by
  unfold keretCoach
  rw [g_eretRegs, passTime_g]

end

theorem ketchSystemInstructions : Clause.KetchSystemInstructions := by
  intro s c w hc h
  have run {op : Nat} {t : State} (hw : kOp w = op) (ht : kRun (ketchU s c) c (ketchK s c) w = t) :
      act (decide (c < 76)) (ketchOp op s c) = .next t := (act_ketchOp (decide_eq_true hc) h hw).trans (congrArg _ ht)
  dsimp only
  refine ⟨fun hw => ?ksys, fun hw => ?kbrk, fun hw hs => ?task, fun hw hs hr => ?keret⟩
  case ksys =>
    obtain ⟨hoc, hpc, hg, -, -, -, -, hpend, -, hcyc, -⟩ := ketchGoes_done h (kNext (ketchK s c)) 1 0
    refine ⟨setCo (kDone (ketchU s c) c (ketchK s c) (kNext (ketchK s c)) 1 0) c (raiseExc (co _ c) (ksysReq (ketchK s c) w)), ksysReq (ketchK s c) w,
      run hw (by simp only [kRun, hw]; rfl), onlyCoach_trans hoc (onlyCoach_setCo _ _ _), ?_⟩
    rw [co_setCo_same]
    exact ⟨raiseExc_exc .., rfl, rfl, rfl, rfl, (raiseExc_pc ..).trans hpc, (raiseExc_g ..).trans hg, (raiseExc_pend ..).trans hpend, (raiseExc_cyc ..).trans hcyc⟩
  case kbrk => exact ⟨_, run hw (by simp only [kRun, hw]), ketchRefuses_refuseAt h _⟩
  case task => exact ⟨_, run hw (by simp only [kRun, hw]; exact kEret_task hs), ketchRefuses_refuseAt h _⟩
  case keret =>
    refine ⟨_, run hw (by simp only [kRun, hw]; exact kEret_sup (setCo_ketchU s c) hs hr), rfl, fun d hd => (co_setCo ..).trans (if_neg hd), ?_⟩
    rw [co_setCo_same]
    exact ⟨pc_keretCoach .., isSup_keretCoach .., lnk_keretCoach .., df_keretCoach .., g_keretCoach .., esp_keretCoach ..⟩

/-! ### KETCH_MODE_SWITCH -/

theorem gN_uninit_fold (k : Coach) (i : Nat) : gN ((upto 15).foldl (fun l i => setG l i kUninit) k) i = if i < 15 then kUninit else gN k i := by
  unfold gN
  rw [rdG_foldl_setG (fun _ => kUninit)]
  split
  · rfl
  · rfl

/-- Of the coach that switches, the fields that no register of G is. -/
def SameButG (k l : Coach) : Prop := l.pc = k.pc ∧ l.pend = k.pend ∧ l.p = k.p ∧ l.n = k.n ∧ l.v = k.v ∧ l.acc = k.acc

theorem sameButG_foldl (f : Nat → Nat) (l : List Nat) (k : Coach) : SameButG k (l.foldl (fun m i => setG m i (f i)) k) := by
  induction l generalizing k with
  | nil => exact ⟨rfl, rfl, rfl, rfl, rfl, rfl⟩
  | cons a r ih =>
    obtain ⟨h1, h2, h3, h4, h5, h6⟩ := ih (setG k a (f a))
    exact ⟨h1, h2, h3, h4, h5, h6⟩

/-- The registers of a coach that enters or leaves Ketch mode. -/
def switched (k : Coach) (m : Bool) : Coach := if m then (upto 15).foldl (fun l i => setG l i kUninit) k else k

theorem sameButG_switched (k : Coach) (m : Bool) : SameButG k (switched k m) := by
  cases m
  · exact ⟨rfl, rfl, rfl, rfl, rfl, rfl⟩
  · exact sameButG_foldl _ _ k

theorem gN_switched (k : Coach) (m : Bool) (i : Nat) : gN (switched k m) i = if i < 15 ∧ m = true then kUninit else gN k i := by
  cases m
  · rw [if_neg (by simp)]; rfl
  · simp only [and_true]
    exact gN_uninit_fold k i

theorem gN_holdRun (k : Coach) (b : Bool) (i : Nat) : gN (holdRun k b) i = gN k i := by
  unfold gN rdG
  rw [holdRun_g]

theorem ketchModeSwitch : Clause.KetchModeSwitch := by
  intro s c hc hr hl
  dsimp only
  generalize hk : (if (co s c).ketch = true then drain s c (co s c) else landNow s c (co s c)) = k
  intro hm hat ht hp
  have hop : modeSwitchOp s c = setCo s c { holdRun (switched (drain s c k) (coB k 0x000 15)) false with ketch := coB k 0x000 15, bound := .drain, decoded := none } := by
    have hlate : (coB k 0x000 15 && decide (k.seq < k.ketchAt)) = false := by
      rw [Bool.and_eq_false_imp]
      exact fun hb => decide_eq_false (Nat.not_lt.mpr (hat hb))
    unfold modeSwitchOp
    dsimp only
    simp only [hr, hl, hk, hm, hlate, ht, hp, Bool.and_self, Bool.not_true, Bool.false_eq_true, decide_false, Bool.or_self, Option.isSome_none, if_false]
    rfl
  obtain ⟨hpc, hpend, hpp, hn, hv, hacc⟩ := sameButG_switched (drain s c k) (coB k 0x000 15)
  refine ⟨_, (act_wf (decide_eq_true hc)).trans (congrArg _ hop), onlyCoach_setCo _ _ _, ?_⟩
  rw [co_setCo_same]
  refine ⟨rfl, (holdRun_pc ..).trans hpc, (holdRun_pend ..).trans hpend, ?_, fun i hi => ?_, (holdRun_p ..).trans hpp, (holdRun_n ..).trans hn,
    (holdRun_v ..).trans hv, (holdRun_acc ..).trans hacc⟩
  · exact (gN_holdRun ..).trans ((gN_switched ..).trans (if_neg (by simp)))
  · refine (gN_holdRun ..).trans ((gN_switched ..).trans ?_)
    simp only [hi, true_and]

/-- Settles O12. -/
theorem ketchGatesCallsAndModes : Obligations.KetchGatesCallsAndModes := ⟨ketchGates, ketchSystemInstructions, ketchModeSwitch⟩

end Sys2Proof.Machine
end

section
/-! What a BUNDLE_ISSUE does with the bundle at the coach's pc (chapters 02 and 07). -/
namespace Sys2Proof.Machine

variable {s : State} {c : Nat} {b : Bundle} {k : Coach}

/-- The coach at which the first check that fails refuses the bundle, and why. -/
def refusedBy (s : State) (c : Nat) (b : Bundle) : Option (Coach × Refused) :=
  match checkFetch (checkState s c b) c (checkCoach s c b) b with
  | some r => some (checkCoach s c b, r)
  | none =>
    match checkOps (checkState s c b) c (decodedCoach s c b) b with
    | some r => some (decodedCoach s c b, r)
    | none => match checkAccs (checkState s c b) c (decodedCoach s c b) (bundleAccs s c b) with
      | some r => some (decodedCoach s c b, r)
      | none => match checkCtl (checkState s c b) c (decodedCoach s c b) b with
        | some r => some (decodedCoach s c b, r)
        | none => none

theorem bundleFails_eq (s : State) (c : Nat) (b : Bundle) : bundleFails s c b = (refusedBy s c b).map Prod.snd := by
  unfold bundleFails refusedBy
  dsimp only
  cases checkFetch (checkState s c b) c (checkCoach s c b) b with
  | some r => rfl
  | none =>
    cases checkOps (checkState s c b) c (decodedCoach s c b) b with
    | some r => rfl
    | none =>
      cases checkAccs (checkState s c b) c (decodedCoach s c b) (bundleAccs s c b) with
      | some r => rfl
      | none =>
        cases checkCtl (checkState s c b) c (decodedCoach s c b) b with
        | some r => rfl
        | none => rfl

theorem refusedBy_coach {r : Coach × Refused} (h : refusedBy s c b = some r) : r.1 = checkCoach s c b ∨ r.1 = decodedCoach s c b := by
  unfold refusedBy at h
  split at h
  · cases h; exact .inl rfl
  split at h
  · cases h; exact .inr rfl
  split at h
  · cases h; exact .inr rfl
  split at h
  · cases h; exact .inr rfl
  · cases h

/-- What stands before the bundle at the pc: nothing. -/
theorem bundleNext_iff : bundleNext s c b = true ↔
    isRunning (co s c) = true ∧ coachPresent s c = true ∧ (co s c).ketch = false ∧ issueBarred (issueLanded s c) = false ∧
      eventDue s c (issueLanded s c) = none ∧ eventDue (issueFilled s c) c (issueLanded s c) = none ∧
      b = bundleAt (issueFilled s c) c (issueLanded s c).pc.toNat ∧ preciseReq (checkCoach s c b) = none ∧ issueBarred (checkCoach s c b) = false := by
  unfold bundleNext
  simp only [Bool.and_eq_true, Bool.not_eq_true', Option.isNone_iff_eq_none, decide_eq_true_eq, and_assoc]

theorem issueOp_at (h : bundleNext s c b = true) : issueOp s c = match refusedBy s c b with
    | some (k, r) => setCo (checkState s c b) c (refuseAt k r)
    | none => if (bundleOps b).any (fun o => decide (o = .eret)) then issueEret (checkState s c b) c (decodedCoach s c b) (bundleHold b)
      else issueChecked (setCo (checkState s c b) c (decodedCoach s c b)) c (decodedCoach s c b) b := by
  obtain ⟨hr, hp, hk, hb, he, hf, hbb, hpr, hbw⟩ := bundleNext_iff.mp h
  have hb' : issueBarred (landNow s c (co s c)) = false := hb
  have he' : eventDue s c (landNow s c (co s c)) = none := he
  have hf' : eventDue (fetchLead s c (landNow s c (co s c)).pc.toNat) c (landNow s c (co s c)) = none := hf
  have hbb' : bundleAt (fetchLead s c (landNow s c (co s c)).pc.toNat) c (landNow s c (co s c)).pc.toNat = b := hbb.symm
  have hpr' : preciseReq (issueWait (fetchLead s c (landNow s c (co s c)).pc.toNat) c (landNow s c (co s c)) b) = none := hpr
  have hbw' : issueBarred (issueWait (fetchLead s c (landNow s c (co s c)).pc.toNat) c (landNow s c (co s c)) b) = false := hbw
  unfold issueOp
  simp only [hr, hp, hk, hb', he', hf', hbb', hpr', hbw', Bool.not_true, Bool.not_false, Bool.and_self, Bool.or_self, Option.isSome_none, Bool.false_eq_true, if_false]
  unfold refusedBy
  change (match checkFetch (checkState s c b) c (checkCoach s c b) b with | some r => _ | none => _) = _
  cases checkFetch (checkState s c b) c (checkCoach s c b) b with
  | some r => rfl
  | none =>
    dsimp only
    change (match checkOps (checkState s c b) c (decodedCoach s c b) b with | some r => _ | none => _) = _
    cases checkOps (checkState s c b) c (decodedCoach s c b) b with
    | some r => rfl
    | none =>
      dsimp only
      change (match checkAccs (checkState s c b) c (decodedCoach s c b) (bundleAccs s c b) with | some r => _ | none => _) = _
      cases checkAccs (checkState s c b) c (decodedCoach s c b) (bundleAccs s c b) with
      | some r => rfl
      | none =>
        dsimp only
        change (match checkCtl (checkState s c b) c (decodedCoach s c b) b with | some r => _ | none => _) = _
        cases checkCtl (checkState s c b) c (decodedCoach s c b) b with
        | some r => rfl
        | none => rfl

/-! ### The coach that is checked -/

theorem sameControl_decoded {l : Coach} (h : SameControl k l) (d : Option Decoded) : SameControl k { l with decoded := d } := h

theorem sameControl_ite {p : Prop} [Decidable p] {l m : Coach} (hl : SameControl k l) (hm : SameControl k m) : SameControl k (if p then l else m) := by
  split
  · exact hl
  · exact hm

theorem sameControl_decodePath (a : W32) (b : Bundle) : SameControl k (decodePath k a b) := by
  unfold decodePath
  exact sameControl_ite (sameControl_decoded (sameControl_perfAdd _ _) _)
    (sameControl_decoded ((sameControl_perfAdd _ _).trans (sameControl_predict _ _ _)) _)

theorem sameControl_checkCoach (s : State) (c : Nat) (b : Bundle) : SameControl (co s c) (checkCoach s c b) :=
  (sameControl_landNow s c).trans ((sameControl_passTime _ _).trans (sameControl_landNow _ c))

theorem sameControl_decodedCoach (s : State) (c : Nat) (b : Bundle) : SameControl (co s c) (decodedCoach s c b) := by
  unfold decodedCoach
  exact sameControl_ite (sameControl_checkCoach s c b) ((sameControl_checkCoach s c b).trans (sameControl_decodePath _ _))

theorem issuing_checkCoach (h : bundleNext s c b = true) : Issuing (checkCoach s c b) :=
  (sameControl_checkCoach s c b).issuing (issuing_of_isRunning (bundleNext_iff.mp h).1)

theorem issuing_decodedCoach (h : bundleNext s c b = true) : Issuing (decodedCoach s c b) :=
  (sameControl_decodedCoach s c b).issuing (issuing_of_isRunning (bundleNext_iff.mp h).1)

/-- A refused bundle raises its exception on its own address. -/
theorem refuses_refuseAt {u : State} (r : Refused) (h : k.long = none) : Refuses u (setCo u c (refuseAt k r)) c k r := by
  refine ⟨onlyCoach_setCo _ _ _, ?_⟩
  rw [co_setCo_same, refuseAt_eq _ _ h]
  exact ⟨rfl, rfl, rfl, rfl, rfl, rfl, rfl, rdCo_congr rfl _, rdCo_congr rfl _, _, rfl, rfl, rfl, rfl, rfl, rfl⟩

/-- Settles O13. -/
theorem aRefusedBundleWritesNothing : Obligations.ARefusedBundleWritesNothing := by
  intro s c b r hc h hf
  rw [bundleFails_eq, Option.map_eq_some_iff] at hf
  obtain ⟨⟨k, r'⟩, hf, rfl⟩ := hf
  have hk := refusedBy_coach hf
  have hl : k.long = none := by
    rcases hk with rfl | rfl
    · exact (issuing_checkCoach h).2.1
    · exact (issuing_decodedCoach h).2.1
  refine ⟨_, act_wf (decide_eq_true hc), k, hk, ?_⟩
  rw [issueOp_at h, hf]
  exact refuses_refuseAt _ hl

end Sys2Proof.Machine
end

section
/-! Where a bundle's control flow goes (chapter 06): prediction decides when, never where. -/
namespace Sys2Proof.Machine

variable {s : State} {c : Nat} {k l : Coach} {noEnd : Bool} {seq : W32}

/-- Two coaches agree on what a transfer may depend on: the registers below the performance counters, G and P. -/
def Agree (k l : Coach) : Prop := (∀ off, off < 0x600 → rdCo k off = rdCo l off) ∧ k.g = l.g ∧ k.p = l.p

theorem Agree.refl (k : Coach) : Agree k k := ⟨fun _ _ => rfl, rfl, rfl⟩
theorem Agree.symm (h : Agree k l) : Agree l k := ⟨fun off ho => (h.1 off ho).symm, h.2.1.symm, h.2.2.symm⟩
theorem Agree.trans {m : Coach} (h : Agree k l) (g : Agree l m) : Agree k m :=
  ⟨fun off ho => (h.1 off ho).trans (g.1 off ho), h.2.1.trans g.2.1, h.2.2.trans g.2.2⟩
theorem agree_perfAdd (k : Coach) {off : Nat} (n : Nat) (h : 0x600 ≤ off) : Agree (perfAdd k off n) k :=
  ⟨fun o ho => (rdCo_wrCo ..).trans (if_neg (by omega)), rfl, rfl⟩
theorem agree_ctrSet (k : Coach) (a v : Nat) : Agree (ctrSet k a v) k := ⟨fun _ _ => rdCo_congr rfl _, rfl, rfl⟩
theorem agree_wrong (k : Coach) (w : Option Bubbles) : Agree { k with wrong := w } k := ⟨fun _ _ => rdCo_congr rfl _, rfl, rfl⟩
theorem Agree.wrCo (h : Agree k l) (off : Nat) (v : W32) : Agree (wrCo k off v) (wrCo l off v) := by
  refine ⟨fun o ho => ?_, h.2⟩
  rw [rdCo_wrCo, rdCo_wrCo, h.1 o ho]

/-- The loop end test reads no more of the coach than `Agree` names. -/
theorem Agree.loopEnd_go {next : W32} {ls : List Nat} (hls : ∀ i ∈ ls, i < 3) {k l : Coach} (h : Agree k l) :
    Agree (loopEnd.go next ls k).1 (loopEnd.go next ls l).1 ∧ (loopEnd.go next ls k).2 = (loopEnd.go next ls l).2 := by
  induction ls generalizing k l with
  | nil => exact ⟨h, rfl⟩
  | cons i ls ih =>
    have hi : i < 3 := hls i List.mem_cons_self
    have ih := fun {k l} => ih (k := k) (l := l) fun j hj => hls j (List.mem_cons_of_mem _ hj)
    unfold loopEnd.go
    rw [h.1 (0x304 + 8 * i) (by omega), h.1 (0x302 + 8 * i) (by omega), h.1 (0x300 + 8 * i) (by omega)]
    dsimp only
    split
    · split
      · exact ⟨h.wrCo _ _, rfl⟩
      · exact ih (h.wrCo _ _)
    · exact ih h

/-- A bundle without a transfer goes on by the loop end test, or to the following word. -/
def goesOn (k : Coach) (seq : W32) (noEnd : Bool) : Coach × W32 := if noEnd then (k, seq) else loopEnd k seq

theorem Agree.goesOn (h : Agree k l) (seq : W32) (noEnd : Bool) :
    Agree (goesOn k seq noEnd).1 (goesOn l seq noEnd).1 ∧ (goesOn k seq noEnd).2 = (goesOn l seq noEnd).2 := by
  cases noEnd
  · exact h.loopEnd_go (by decide)
  · exact ⟨h, rfl⟩

/-- What a LOOP of level `i` does. -/
def loopGoes (k : Coach) (seq : W32) (noEnd : Bool) (i len cnt : Nat) : Coach × W32 :=
  if cnt = 0 then (loopSet k i seq len 0, seq + n32 len) else (loopSet (goesOn k seq noEnd).1 i seq len cnt, (goesOn k seq noEnd).2)

/-- The coach with its counters and its return stack flushed. -/
def flushed (k : Coach) : Coach := { k with counters := [], rs := [], rsTop := 0 }
theorem agree_flushed (k : Coach) : Agree (flushed k) k := ⟨fun _ _ => rdCo_congr rfl _, rfl, rfl⟩

/-- The transfer of a bundle, which no prediction enters into: the state, the coach's registers and the next address. -/
def transfer (s : State) (c : Nat) (k : Coach) (noEnd : Bool) (seq : W32) : Option Op → State × Coach × W32
  | some (.br cond a bo) => (s, if brTaken cond (s32 (rdG k a)) then (k, w32 (k.pc.toNat + bo)) else goesOn k seq noEnd)
  | some (.jr p) => (s, k, rdP k p)
  | some (.call bo) => ((ssPush s c k seq).1, wrCo (ssPush s c k seq).2 0x320 seq, w32 (k.pc.toNat + bo))
  | some (.callR p) => ((ssPush s c k seq).1, wrCo (ssPush s c k seq).2 0x320 seq, rdP k p)
  | some (.ret p v) => (s, ssPop k, retTarget k p v)
  | some (.loopI i len cnt) => (s, loopGoes k seq noEnd i len cnt)
  | some (.loopR i len g) => (s, loopGoes k seq noEnd i len (rdG k g).toNat)
  | some .pflush => (s, goesOn (flushed k) seq noEnd)
  | some (.pbar n) => (s, goesOn (setCoF k 0x328 0 8 n) seq noEnd)
  | some (.syscall _) => (s, k, seq)
  | _ => (s, goesOn k seq noEnd)

theorem transfer_br (s : State) (c : Nat) (k : Coach) (noEnd : Bool) (seq : W32) (cond a : Nat) (bo : Int) :
    transfer s c k noEnd seq (some (.br cond a bo)) = (s, if brTaken cond (s32 (rdG k a)) then (k, w32 (k.pc.toNat + bo)) else goesOn k seq noEnd) := rfl
theorem transfer_loopI (s : State) (c : Nat) (k : Coach) (noEnd : Bool) (seq : W32) (i len cnt : Nat) :
    transfer s c k noEnd seq (some (.loopI i len cnt)) = (s, loopGoes k seq noEnd i len cnt) := rfl

/-- A control flow leads where a transfer says. -/
def Leads (r : State × Flow) (t : State × Coach × W32) : Prop := r.1 = t.1 ∧ Agree r.2.k t.2.1 ∧ r.2.next = t.2.2

theorem leads_flowTo (s : State) (next : W32) (bub : Nat) (w : Option W32) (off : Bool) (h : Agree k l) : Leads (s, flowTo k next bub w off) (s, l, next) :=
  ⟨rfl, (agree_wrong k _).trans h, rfl⟩

theorem flowOn_eq (k : Coach) (seq : W32) (noEnd : Bool) :
    flowOn k seq noEnd = { k := { (goesOn k seq noEnd).1 with wrong := none }, next := (goesOn k seq noEnd).2, bub := 0 } := rfl

theorem leads_flowOn (s : State) (h : Agree k l) : Leads (s, flowOn k seq noEnd) (s, goesOn l seq noEnd) := by
  obtain ⟨h1, h2⟩ := h.goesOn seq noEnd
  exact ⟨rfl, (agree_wrong _ _).trans h1, h2⟩

/-- A condition above 5 always holds. -/
theorem brTaken_of_not_isCond {cond : Nat} (h : isCond cond = false) (g : Int) : brTaken cond g = true := by
  obtain ⟨n, rfl⟩ := Nat.exists_eq_add_of_le' (Nat.le_of_not_lt (of_decide_eq_false h))
  rfl

theorem agree_flowTo (k : Coach) (next : W32) (bub : Nat) (w : Option W32) (off : Bool) : Agree (flowTo k next bub w off).k k := agree_wrong k _

/-- A mispredicted branch trains its counter and counts, and changes nothing that a transfer depends on. -/
theorem agree_trained (k : Coach) (hit : Prop) [Decidable hit] (a v : Nat) : Agree (if hit then k else perfAdd (ctrSet k a v) 0x606 1) k := by
  split
  · exact .refl k
  · exact (agree_perfAdd _ 1 (by decide)).trans (agree_ctrSet k a v)

theorem leads_ite {b : Prop} [Decidable b] {q r : State × Flow} {t : State × Coach × W32} (hq : Leads q t) (hr : Leads r t) :
    Leads (if b then q else r) t := by
  split
  · exact hq
  · exact hr

theorem leads_flow_ite {b : Prop} [Decidable b] {q r : Flow} {t : State × Coach × W32} (hq : Leads (s, q) t) (hr : Leads (s, r) t) :
    Leads (s, if b then q else r) t := by
  split
  · exact hq
  · exact hr

theorem leads_of_leads {f g : Flow} {t : State × Coach × W32} (h : Leads (s, f) t) (hk : Agree g.k f.k) (hn : g.next = f.next) : Leads (s, g) t :=
  ⟨h.1, hk.trans h.2.1, hn.trans h.2.2⟩

/-- A branch goes where its condition says, whatever was predicted. -/
theorem leads_branch (s : State) (c : Nat) (k : Coach) (off noEnd : Bool) (d : Decoded) (seq : W32) (cond a : Nat) (bo : Int) :
    Leads (flowOf s c k off noEnd d seq (some (.br cond a bo))) (transfer s c k noEnd seq (some (.br cond a bo))) := by
  unfold flowOf transfer
  dsimp only
  cases hc : isCond cond with
  | false =>
    rw [brTaken_of_not_isCond hc]
    exact leads_flowTo _ _ _ _ _ (.refl k)
  | true =>
    rw [Bool.not_true, if_neg Bool.false_ne_true]
    cases brTaken cond (s32 (rdG k a)) with
    | false =>
      simp only [Bool.false_eq_true, if_false]
      refine leads_ite (leads_flowOn s (.refl k)) ?_
      have h := leads_flowOn (seq := seq) (noEnd := noEnd) s (agree_trained k (false = d.taken) k.pc.toNat (d.v - 1))
      exact leads_flow_ite h (leads_of_leads h (agree_flowTo ..) rfl)
    | true =>
      simp only [if_true]
      refine leads_ite (leads_flowTo s _ _ _ _ (.refl k)) ?_
      have h := agree_trained k (true = d.taken) k.pc.toNat (Nat.min 3 (d.v + 1))
      exact leads_flow_ite (leads_flowTo s _ _ _ _ h) (leads_flowTo s _ _ _ _ h)

theorem Agree.loopSet (h : Agree k l) (i : Nat) (start : W32) (len cnt : Nat) : Agree (loopSet k i start len cnt) (loopSet l i start len cnt) :=
  ((h.wrCo _ _).wrCo _ _).wrCo _ _

/-- What a bundle does with control is what its transfer says: prediction enters into the bubbles alone. -/
theorem leads_flowOf (s : State) (c : Nat) (k : Coach) (off noEnd : Bool) (d : Decoded) (seq : W32) (o : Option Op) :
    Leads (flowOf s c k off noEnd d seq o) (transfer s c k noEnd seq o) := by
  have on : Leads (s, flowOn k seq noEnd) (s, goesOn k seq noEnd) := leads_flowOn s (.refl k)
  have loop (i len cnt : Nat) (path : Option W32) : Leads (s, if cnt = 0 then flowTo (loopSet k i seq len 0) (seq + n32 len) 3 path off
      else { flowOn k seq noEnd with k := loopSet (flowOn k seq noEnd).k i seq len cnt }) (s, loopGoes k seq noEnd i len cnt) := by
    unfold loopGoes
    by_cases h : cnt = 0
    · rw [if_pos h, if_pos h]
      exact leads_flowTo s _ _ _ _ (.refl _)
    · rw [if_neg h, if_neg h]
      obtain ⟨-, hk, hn⟩ := on
      exact ⟨rfl, hk.loopSet i seq len cnt, hn⟩
  cases o with
  | none => exact on
  | some o =>
    cases o with
    | br cond a bo => exact leads_branch s c k off noEnd d seq cond a bo
    | jr p => exact leads_flowTo s _ _ _ _ (.refl k)
    | call bo => exact leads_flowTo _ _ _ _ _ (.refl _)
    | callR p => exact leads_flowTo _ _ _ _ _ (.refl _)
    | ret p v =>
      cases off with
      | true => exact leads_flowTo s _ _ _ _ (.refl _)
      | false =>
        unfold flowOf transfer
        dsimp only
        rw [if_neg Bool.false_ne_true]
        cases d.ret with
        | none => exact leads_flowTo s _ _ _ _ (.refl _)
        | some a =>
          dsimp only
          split
          · exact leads_flowTo s _ _ _ _ (.refl _)
          · exact leads_flowTo s _ _ _ _ (agree_perfAdd _ 1 (by decide))
    | loopI i len cnt => exact loop i len cnt _
    | loopR i len g => exact loop i len _ _
    | pflush => exact leads_of_leads (leads_flowOn s (.refl _)) (agree_flowTo ..) rfl
    | pbar n => exact leads_of_leads (leads_flowOn s (.refl _)) (agree_flowTo ..) rfl
    | syscall n => exact ⟨rfl, agree_wrong k none, rfl⟩
    | _ => exact on

theorem predictionChangesNoTransfer : Clause.PredictionChangesNoTransfer := by
  intro s c k off on noEnd d e seq o
  obtain ⟨f1, f2, f3⟩ := leads_flowOf s c k off noEnd d seq o
  obtain ⟨g1, g2, g3⟩ := leads_flowOf s c k on noEnd e seq o
  obtain ⟨hco, hg, hp⟩ := f2.trans g2.symm
  exact ⟨f3.trans g3.symm, f1.trans g1.symm, hco, hg, hp⟩

theorem rdCo_loopSet {i : Nat} (hi : i < 3) (k : Coach) (start : W32) (len cnt : Nat) :
    let t := loopSet k i start len cnt
    rdCo t (0x300 + 8 * i) = start ∧ rdCo t (0x302 + 8 * i) = start + n32 len ∧ rdCo t (0x304 + 8 * i) = n32 cnt := by
  unfold loopSet
  refine ⟨?_, ?_, rdCo_wrCo_same ..⟩
  · rw [rdCo_wrCo, if_neg (by omega), rdCo_wrCo, if_neg (by omega), rdCo_wrCo_same]
  · rw [rdCo_wrCo, if_neg (by omega), rdCo_wrCo_same]

theorem goesOn_next (k : Coach) (seq : W32) (noEnd : Bool) : (goesOn k seq noEnd).2 = if noEnd then seq else (loopEnd k seq).2 := by
  cases noEnd
  · rfl
  · rfl

theorem controlFlowTargets : Clause.ControlFlowTargets := by
  intro s c k off noEnd d seq
  have leads := leads_flowOf s c k off noEnd d seq
  have below {o : Option Op} {a : Nat} (ha : a < 0x600) := (leads o).2.1.1 a ha
  refine ⟨fun cond a bo => ?_, fun p => (leads (some (.jr p))).2.2, fun bo => ?_, fun p => ?_, fun p => (leads (some (.ret p true))).2.2,
    fun p => (leads (some (.ret p false))).2.2, fun i len cnt hi => ?_, fun i len g => rfl, fun n => (leads (some (.syscall n))).2.2, ?_, ?_⟩
  · refine (leads (some (.br cond a bo))).2.2.trans ?_
    rw [transfer_br]
    cases brTaken cond (s32 (rdG k a)) with
    | false => exact goesOn_next k seq noEnd
    | true => rfl
  · exact ⟨(leads (some (.call bo))).2.2, (below (by decide)).trans (rdCo_wrCo_same ..)⟩
  · exact ⟨(leads (some (.callR p))).2.2, (below (by decide)).trans (rdCo_wrCo_same ..)⟩
  · have hset : ∃ l, (transfer s c k noEnd seq (some (.loopI i len cnt))).2.1 = loopSet l i seq len cnt ∧
        (transfer s c k noEnd seq (some (.loopI i len cnt))).2.2 = if cnt = 0 then seq + n32 len else (goesOn k seq noEnd).2 := by
      rw [transfer_loopI]
      unfold loopGoes
      by_cases h : cnt = 0
      · exact ⟨k, by rw [if_pos h, h], by rw [if_pos h, if_pos h]⟩
      · exact ⟨_, by rw [if_neg h], by rw [if_neg h, if_neg h]⟩
    obtain ⟨l, hl, hn⟩ := hset
    obtain ⟨h0, h2, h4⟩ := rdCo_loopSet hi l seq len cnt
    rw [← hl] at h0 h2 h4
    refine ⟨(leads (some (.loopI i len cnt))).2.2.trans (hn.trans ?_), (below (by omega)).trans h0, (below (by omega)).trans h2, (below (by omega)).trans h4⟩
    rw [goesOn_next]
  · exact (leads (some .pflush)).2.2.trans (((agree_flushed k).goesOn seq noEnd).2.trans (goesOn_next k seq noEnd))
  · exact (leads none).2.2.trans (goesOn_next k seq noEnd)

/-- Settles O15. -/
theorem predictionAndTargets : Obligations.PredictionAndTargets := ⟨predictionChangesNoTransfer, controlFlowTargets⟩

end Sys2Proof.Machine
end

section
/-! A bundle that passes its checks issues (R40, R46), and a long operation begins (R124, R207). -/
namespace Sys2Proof.Machine

variable {s : State} {c : Nat} {k l : Coach} {b : Bundle}

/-! ### What the issue's bookkeeping leaves alone -/

/-- Only CO_ registers of the coach differ. -/
def CoOnly (k l : Coach) : Prop := l = { k with co := l.co }

theorem CoOnly.refl (k : Coach) : CoOnly k k := rfl
theorem CoOnly.trans {m : Coach} (h : CoOnly k l) (g : CoOnly l m) : CoOnly k m := by
  unfold CoOnly at *
  rw [g, h]
theorem coOnly_wrCo (k : Coach) (off : Nat) (v : W32) : CoOnly k (wrCo k off v) := rfl
theorem coOnly_setCoF (k : Coach) (off lo w v : Nat) : CoOnly k (setCoF k off lo w v) := coOnly_wrCo k off _
theorem CoOnly.g (h : CoOnly k l) : l.g = k.g := by rw [h]
theorem CoOnly.p (h : CoOnly k l) : l.p = k.p := by rw [h]
theorem CoOnly.v (h : CoOnly k l) : l.v = k.v := by rw [h]
theorem CoOnly.long (h : CoOnly k l) : l.long = k.long := by rw [h]
theorem CoOnly.pc (h : CoOnly k l) : l.pc = k.pc := by rw [h]

theorem coOnly_loopEnd_go (next : W32) (ls : List Nat) (k : Coach) : CoOnly k (loopEnd.go next ls k).1 := by
  induction ls generalizing k with
  | nil => exact .refl k
  | cons i ls ih =>
    unfold loopEnd.go
    dsimp only
    split
    · split
      · exact coOnly_wrCo k _ _
      · exact (coOnly_wrCo k _ _).trans (ih _)
    · exact ih k

theorem coOnly_loopEnd (k : Coach) (next : W32) : CoOnly k (loopEnd k next).1 := coOnly_loopEnd_go next [0, 1, 2] k

theorem coOnly_barCount (k : Coach) : CoOnly k (barCount k) := by
  unfold barCount
  dsimp only
  split
  · exact coOnly_setCoF ..
  · exact .refl k

/-! ### A bundle with no access -/

/-- Whether an operation makes an access does not depend on the coach. -/
theorem ldAccess_isNone (k l : Coach) (so : Nat × Op) (h : ldAccess k so = none) : ldAccess l so = none := by
  obtain ⟨i, o⟩ := so
  cases o with
  | mem => cases h
  | atom => cases h
  | _ => rfl

theorem filterMap_ldAccess_nil (k l : Coach) {sl : List (Nat × Op)} (h : sl.filterMap (ldAccess k) = []) : sl.filterMap (ldAccess l) = [] := by
  rw [List.filterMap_eq_nil_iff] at h ⊢
  exact fun so hso => ldAccess_isNone k l so (h so hso)

/-- The supervisor call of a bundle. -/
def issueExc (k : Coach) (b : Bundle) : Option ExcReq :=
  match ctlOf b with
  | some (.syscall n) => some { excReq 17 0 0 k.pc with scnum := n, slots := 128 }
  | _ => none

/-- What a bundle with the accesses `accs` leaves to be done once they have their answers. -/
def issueAfter (s : State) (c : Nat) (k : Coach) (b : Bundle) (accs : List Access) (f : Flow) : After :=
  { pc := f.next, co := f.k.co, cyc := k.cyc, bubbles := f.bub, pend := stamp k (bundleResults k (isLead c) (bundleSlots b)),
    coPend := coStores s c k accs, fb := feedbacks k (isLead c) (bundleSlots b), divFree := divAfter k (bundleSlots b), long := none,
    counters := f.k.counters, rsTop := f.k.rsTop, wrong := f.k.wrong, bound := if bundleHold b then .barred else .drain, exc := issueExc k b,
    keepRs := (match ctlOf b with | some .pflush => false | _ => true), gate := none }

/-- The control flow of a bundle with the accesses `accs`. -/
def issueFlow (s : State) (c : Nat) (k : Coach) (b : Bundle) (accs : List Access) : State × Flow :=
  flowOf s c (barCount k) (predOff k)
    (raisesAtRetire k (stamp k (bundleResults k (isLead c) (bundleSlots b)) ++ accs.flatMap (fun a => loadResults k a 0)))
    (k.decoded.getD { addr := k.pc, on := false, v := 0, taken := false, ret := none }) (n32 b.next) (ctlOf b)

/-- The bundle waits for its accesses: those of its own memory are served now, the others sent. -/
def issueSent (u : State) (c : Nat) (l : Coach) (accs : List Access) (aft : After) : State :=
  let s := fencedNote (setCo u c { l with access := accs, after := some aft }) c accs
  let now := (accOrder accs).filter (fun a => servedNow s c a && !heldBack s c accs a)
  let far := accs.filter (fun a => !(servedNow s c a || heldBack s c accs a))
  let s := now.foldl (fun s a => serveNow s c a) s
  let s := far.foldl (fun s a => sendAccess s c a) s
  if far.isEmpty then finishBundle s c (ownConflict s c (accs.map (fun a => a.addr))) else s

/-- A bundle that is no long operation and no gate action. -/
theorem issueChecked_plain {u : State} {accs : List Access} (ha : (bundleSlots b).filterMap (ldAccess (issueCoach s c b)) = accs)
    (hl : longOf (issueCoach s c b) b = none) (hg : gateOf (issueCoach s c b) b (isLead c) = none) :
    issueChecked u c (decodedCoach s c b) b =
      let f := issueFlow u c (issueCoach s c b) b accs
      issueSent f.1 c (lostBetween u f.1 c (issueCoach s c b)) accs (issueAfter u c (issueCoach s c b) b accs f.2) := by
  subst ha
  unfold issueChecked
  dsimp only
  change (match longOf (issueCoach s c b) b with | some l => _ | none => _) = _
  rw [hl]
  dsimp only
  change (match gateOf (issueCoach s c b) b (isLead c) with | some l => _ | none => _) = _
  rw [hg]
  rfl

theorem fencedNote_nil (u : State) (c : Nat) : fencedNote u c [] = u := by
  unfold fencedNote
  split
  · rfl
  · rfl

theorem issueSent_nil (u : State) (c : Nat) (l : Coach) (aft : After) :
    issueSent u c l [] aft = finishBundle (setCo u c { l with access := [], after := some aft }) c 0 := by
  unfold issueSent
  rw [fencedNote_nil]
  rfl

/-- The flow of a bundle with no access. -/
theorem issueFlow_nil (u : State) (c : Nat) (k : Coach) (b : Bundle) : issueFlow u c k b [] =
    flowOf u c (barCount k) (predOff k) (raisesAtRetire k (stamp k (bundleResults k (isLead c) (bundleSlots b))))
      (k.decoded.getD { addr := k.pc, on := false, v := 0, taken := false, ret := none }) (n32 b.next) (ctlOf b) := by
  unfold issueFlow
  rw [List.flatMap_nil, List.append_nil]

/-- A bundle that passes every check issues. -/
theorem issueOp_issues (h : bundleNext s c b = true) (hf : bundleFails s c b = none) (he : (bundleOps b).any (fun o => decide (o = .eret)) = false) :
    issueOp s c = issueChecked (setCo (checkState s c b) c (decodedCoach s c b)) c (decodedCoach s c b) b := by
  rw [bundleFails_eq, Option.map_eq_none_iff] at hf
  rw [issueOp_at h, hf]
  dsimp only
  rw [he, if_neg Bool.false_ne_true]

theorem aBundleIssues : Clause.ABundleIssues := by
  intro s c b hc h hf ha he hl hg k f
  have hk : f = issueFlow (setCo (checkState s c b) c (decodedCoach s c b)) c k b [] := (issueFlow_nil ..).symm
  have hop := issueChecked_plain (u := setCo (checkState s c b) c (decodedCoach s c b)) (filterMap_ldAccess_nil _ (issueCoach s c b) ha) hl hg
  dsimp only at hop
  rw [issueSent_nil, ← hk] at hop
  generalize hv : setCo f.1 c _ = v at hop
  have hcv : co v c = { lostBetween (setCo (checkState s c b) c (decodedCoach s c b)) f.1 c k with
      access := [], after := some (issueAfter (setCo (checkState s c b) c (decodedCoach s c b)) c k b [] f.2) } := by
    rw [← hv, co_setCo_same]
  obtain ⟨m, hm, hfin⟩ := finishBundle_ok (s := v) (c := c) 0 (by rw [hcv]) rfl (by rw [hcv]; exact nofun) (by rw [hcv]; rfl)
  rw [hcv] at hfin
  refine ⟨_, (act_wf (decide_eq_true hc)).trans (congrArg _ ((issueOp_issues h hf he).trans (hop.trans hm))), by rw [← hv]; rfl, fun d hd => ?_, ?_⟩
  · rw [co_setCo, if_neg hd, ← hv, co_setCo, if_neg hd]
  · rw [co_setCo_same]
    refine ⟨hfin.pc, hfin.g.trans (passTime_g ..), hfin.p.trans (passTime_p ..), hfin.n.trans (passTime_n ..), hfin.v.trans (passTime_v ..),
      hfin.acc.trans (passTime_acc ..), ?_, hfin.seq.trans (congrArg (· + 1) (passTime_seq ..)), ?_, hfin.access, hfin.bound⟩
    · exact hfin.pend.trans ((List.append_nil _).trans (congrArg (· ++ _) (passTime_pend ..)))
    · refine hfin.cyc.trans ((congrArg (· + (1 + f.2.bub)) (passTime_cyc k 0 _)).trans ?_)
      omega

/-! ### Long operations -/

/-- A long operation is a bundle's one operation, and no ERET. -/
theorem no_eret_of_longOf {l : LongOp} (h : longOf k b = some l) : (bundleOps b).any (fun o => decide (o = .eret)) = false := by
  unfold longOf at h
  dsimp only at h
  split at h
  next e => rw [e]; rfl
  next e => rw [e]; rfl
  next e => rw [e]; rfl
  next => cases h

/-- The coach with one bundle more issued. -/
def bundleCounted (k : Coach) : Coach := { k with seq := k.seq + 1, decoded := none }
theorem bundleCounted_g (k : Coach) : (bundleCounted k).g = k.g := rfl
theorem bundleCounted_p (k : Coach) : (bundleCounted k).p = k.p := rfl
theorem bundleCounted_v (k : Coach) : (bundleCounted k).v = k.v := rfl
theorem bundleCounted_pc (k : Coach) : (bundleCounted k).pc = k.pc := rfl

/-- The coach with a long operation under way. -/
def longOpen (k : Coach) (l : LongOp) : Coach := { k with long := some l, lastPc := l.apc }
theorem longOpen_files (k : Coach) (l : LongOp) :
    (longOpen k l).g = k.g ∧ (longOpen k l).p = k.p ∧ (longOpen k l).v = k.v ∧ (longOpen k l).long = some l ∧ (longOpen k l).pc = k.pc :=
  ⟨rfl, rfl, rfl, rfl, rfl⟩

/-- The coach of a long operation whose first element is to come. -/
def longBegun (s : State) (c : Nat) (k : Coach) (l : LongOp) : Coach :=
  perfAdd (passTime (bundleCounted (setCoF (barCount k) 0x002 7 1 0)) (longStart l)
    (longStartStall s c (setCoF (barCount k) 0x002 7 1 0) l)) 0x600 1

theorem issueChecked_long {u : State} {l : LongOp} (hl : longOf (issueCoach s c b) b = some l) :
    issueChecked u c (decodedCoach s c b) b = if (rdG (longBegun u c (issueCoach s c b) l) l.gn).toNat = 0
      then setCo u c (longEnd (longBegun u c (issueCoach s c b) l) l)
      else setCo u c (longOpen (longBegun u c (issueCoach s c b) l) l) := by
  unfold issueChecked
  dsimp only
  change (match longOf (issueCoach s c b) b with | some l => _ | none => _) = _
  rw [hl]
  rfl

section
variable (s : State) (c : Nat) (k : Coach) (l : LongOp)

theorem g_longBegun : (longBegun s c k l).g = k.g := by
  unfold longBegun perfAdd
  rw [wrCo_g, passTime_g, bundleCounted_g, setCoF_g]
  exact (coOnly_barCount k).g

theorem p_longBegun : (longBegun s c k l).p = k.p := by
  unfold longBegun perfAdd
  rw [wrCo_p, passTime_p, bundleCounted_p, setCoF_p]
  exact (coOnly_barCount k).p

theorem v_longBegun : (longBegun s c k l).v = k.v := by
  unfold longBegun perfAdd
  rw [wrCo_v, passTime_v, bundleCounted_v, setCoF_v]
  exact (coOnly_barCount k).v

theorem pc_longBegun : (longBegun s c k l).pc = k.pc := by
  unfold longBegun perfAdd
  rw [wrCo_pc, passTime_pc, bundleCounted_pc, setCoF_pc]
  exact (coOnly_barCount k).pc

theorem rdG_longBegun (i : Nat) : rdG (longBegun s c k l) i = rdG k i := by
  unfold rdG
  rw [g_longBegun]

end

/-- The bundle after a long operation begins with every register of the files as it was. -/
theorem longEnd_files (k : Coach) (l : LongOp) : (longEnd k l).g = k.g ∧ (longEnd k l).p = k.p ∧ (longEnd k l).v = k.v ∧ (longEnd k l).long = none := by
  have h := coOnly_loopEnd { k with long := none } l.next
  unfold longEnd
  dsimp only
  exact ⟨h.g, h.p, h.v, h.long⟩

theorem aLongOperationBegins : Clause.ALongOperationBegins := by
  intro s c b l hc h hf hl
  have hop := (issueOp_issues h hf (no_eret_of_longOf hl)).trans (issueChecked_long hl)
  generalize setCo (checkState s c b) c (decodedCoach s c b) = u at hop ⊢
  rw [rdG_longBegun] at hop
  have hz : (rdG (issueCoach s c b) l.gn).toNat = 0 ↔ rdG (issueCoach s c b) l.gn = 0 := ⟨fun h => BitVec.eq_of_toNat_eq h, fun h => by rw [h]; rfl⟩
  by_cases hn : rdG (issueCoach s c b) l.gn = 0
  · rw [if_pos (hz.mpr hn)] at hop
    obtain ⟨hg, hp, hv, hlong⟩ := longEnd_files (longBegun u c (issueCoach s c b) l) l
    refine ⟨_, (act_wf (decide_eq_true hc)).trans (congrArg _ hop), onlyCoach_setCo _ _ _, ?_⟩
    rw [co_setCo_same]
    exact ⟨hg.trans (g_longBegun ..), hp.trans (p_longBegun ..), hv.trans (v_longBegun ..), fun h => absurd hn h, fun _ => hlong⟩
  · rw [if_neg fun h => hn (hz.mp h)] at hop
    refine ⟨_, (act_wf (decide_eq_true hc)).trans (congrArg _ hop), onlyCoach_setCo _ _ _, ?_⟩
    rw [co_setCo_same]
    obtain ⟨hg, hp, hv, hlong, hpc⟩ := longOpen_files (longBegun u c (issueCoach s c b) l) l
    exact ⟨hg.trans (g_longBegun ..), hp.trans (p_longBegun ..), hv.trans (v_longBegun ..), fun _ => ⟨hlong, hpc.trans (pc_longBegun ..)⟩, fun h => absurd h hn⟩

/-- Settles O14. -/
theorem bundlesIssue : Obligations.BundlesIssue := ⟨aBundleIssues, aLongOperationBegins⟩

end Sys2Proof.Machine
end

section
/-! What the integer operations, the divider and circular addressing compute (chapters 03 and 05). -/
namespace Sys2Proof.Machine

variable (a b : W32)

/-! ### Words as signed numbers -/

theorem toInt_bounds : -(2 ^ 31) ≤ a.toInt ∧ a.toInt < 2 ^ 31 := ⟨BitVec.le_toInt a, BitVec.toInt_lt⟩

/-- A signed number fits a word. -/
abbrev Fits (i : Int) : Prop := -(2 ^ 31) ≤ i ∧ i < 2 ^ 31


theorem satSd_of_fits {i : Int} (h : Fits i) : satSd 32 i = false := by
  obtain ⟨h1, h2⟩ := h
  unfold satSd maxS minS
  rw [Bool.or_eq_false_iff]
  exact ⟨decide_eq_false (by norm_num; omega), decide_eq_false (by norm_num; omega)⟩

theorem satSd_of_not_fits {i : Int} (h : ¬Fits i) : satSd 32 i = true := by
  unfold Fits at h
  unfold satSd maxS minS
  rw [Bool.or_eq_true]
  by_cases hi : i < 2 ^ 31
  · exact .inr (decide_eq_true (by norm_num; omega))
  · exact .inl (decide_eq_true (by norm_num; omega))

theorem wrapOv_eq (i : Int) : wrapOv i = (w32 i, if Fits i then 0 else 1) := by
  unfold wrapOv
  by_cases h : Fits i
  · rw [satSd_of_fits h, if_pos h]; rfl
  · rw [satSd_of_not_fits h, if_neg h]; rfl

theorem satSat_fits {i : Int} (h : Fits i) : satSat i = (w32 i, 0) := by
  have hs : satS 32 i = i := by
    obtain ⟨h1, h2⟩ := h
    unfold satS maxS minS
    rw [if_neg (by norm_num; omega), if_neg (by norm_num; omega)]
  unfold satSat
  rw [satSd_of_fits h, hs]
  rfl

theorem satSat_above {i : Int} (h : 2 ^ 31 ≤ i) : satSat i = (0x7FFFFFFF, 4) := by
  have hs : satS 32 i = 2 ^ 31 - 1 := by
    unfold satS maxS
    rw [if_pos (by norm_num; omega)]
    norm_num
  unfold satSat
  rw [satSd_of_not_fits fun hf => absurd hf.2 (by omega), hs]
  rfl

theorem satSat_below {i : Int} (h : i < -(2 ^ 31)) : satSat i = (0x80000000, 4) := by
  have hs : satS 32 i = -(2 ^ 31) := by
    unfold satS maxS minS
    rw [if_neg (by norm_num; omega), if_pos (by norm_num; omega)]
    norm_num
  unfold satSat
  rw [satSd_of_not_fits fun hf => absurd hf.1 (by omega), hs]
  rfl

theorem w32_add : w32 (s32 a + s32 b) = a + b := by
  unfold w32 s32
  rw [BitVec.ofInt_add, BitVec.ofInt_toInt, BitVec.ofInt_toInt]

theorem w32_neg : w32 (-s32 a) = -a := by
  unfold w32 s32
  rw [BitVec.ofInt_neg, BitVec.ofInt_toInt]

theorem w32_sub : w32 (s32 a - s32 b) = a - b := by
  rw [Int.sub_eq_add_neg, BitVec.sub_eq_add_neg]
  unfold w32 s32
  rw [BitVec.ofInt_add, BitVec.ofInt_toInt, BitVec.ofInt_neg, BitVec.ofInt_toInt]

theorem n32_b2n (p : Prop) [Decidable p] : n32 (b2n (decide p)) = if p then 1 else 0 := by
  rw [b2n_eq]
  split
  · rfl
  · rfl

theorem toNat_eq_zero_iff : a.toNat = 0 ↔ a = 0 := ⟨fun h => BitVec.eq_of_toNat_eq h, fun h => by rw [h]; rfl⟩

/-- The magnitude of a word wraps in one case only. -/
theorem fits_abs_iff : Fits (if s32 a < 0 then -s32 a else s32 a) ↔ a ≠ 0x80000000 := by
  have hb := toInt_bounds a
  have hm : a = 0x80000000 ↔ a.toInt = -(2 ^ 31) := by
    rw [← BitVec.toInt_inj]
    rfl
  rw [ne_eq, hm]
  unfold s32 Fits
  split
  · omega
  · omega

/-! ### ALU3 -/

theorem aluOp_adds_eq : aluOp 0x02 a b = (some (satSat (s32 a + s32 b)).1, (satSat (s32 a + s32 b)).2) := rfl
theorem aluOp_subs_eq : aluOp 0x03 a b = (some (satSat (s32 a - s32 b)).1, (satSat (s32 a - s32 b)).2) := rfl
theorem aluOp_shl_eq : aluOp 0x08 a b = (some (if b.toNat < 32 then a <<< b.toNat else 0), 0) := rfl
theorem aluOp_shr_eq : aluOp 0x09 a b = (some (if b.toNat < 32 then a >>> b.toNat else 0), 0) := rfl
theorem aluOp_sar_eq : aluOp 0x0A a b = (some (if b.toNat < 32 then a.sshiftRight b.toNat else if s32 a < 0 then 0xFFFFFFFF else 0), 0) := rfl

theorem shiftLeft_eq_ofNat (n : Nat) : a <<< n = BitVec.ofNat 32 (a.toNat * 2 ^ n) := by
  apply BitVec.eq_of_toNat_eq
  rw [BitVec.toNat_shiftLeft, BitVec.toNat_ofNat, Nat.shiftLeft_eq]

theorem shiftRight_eq_ofNat (n : Nat) : a >>> n = BitVec.ofNat 32 (a.toNat / 2 ^ n) := by
  apply BitVec.eq_of_toNat_eq
  rw [BitVec.toNat_ushiftRight, BitVec.toNat_ofNat, Nat.shiftRight_eq_div_pow]
  exact (Nat.mod_eq_of_lt (Nat.lt_of_le_of_lt (Nat.div_le_self _ _) a.isLt)).symm

theorem sshiftRight_eq_ofInt (n : Nat) : a.sshiftRight n = BitVec.ofInt 32 (a.toInt / 2 ^ n) := by
  rw [BitVec.sshiftRight_eq, Int.shiftRight_eq_div_pow]
  norm_num

/-- An absolute value wraps where it does not fit. -/
theorem aluOp_abs : aluOp 0x17 a b = (some (if a.toInt < 0 then -a else a), if a = 0x80000000 then 1 else 0) := by
  have hv : w32 (if s32 a < 0 then -s32 a else s32 a) = if a.toInt < 0 then -a else a := by
    by_cases h : a.toInt < 0
    · rw [if_pos (show s32 a < 0 from h), if_pos h, w32_neg]
    · rw [if_neg (show ¬s32 a < 0 from h), if_neg h]
      exact BitVec.ofInt_toInt
  have hf : (if satSd 32 (if s32 a < 0 then -s32 a else s32 a) then 1 else 0) = if a = 0x80000000 then 1 else 0 := by
    by_cases h : a = 0x80000000
    · rw [satSd_of_not_fits fun hf => (fits_abs_iff a).mp hf h, if_pos h]; rfl
    · rw [satSd_of_fits ((fits_abs_iff a).mpr h), if_neg h]; rfl
  exact Prod.ext (congrArg some hv) hf

theorem aluOp_mvz : aluOp 0x18 a b = (if b = 0 then some a else none, 0) := by
  change (if b.toNat = 0 then some a else none, 0) = _
  simp only [toNat_eq_zero_iff]

theorem aluOp_mvnz : aluOp 0x19 a b = (if b = 0 then none else some a, 0) := by
  change (if b.toNat = 0 then none else some a, 0) = _
  simp only [toNat_eq_zero_iff]

theorem pair_some {x y : W32} {i j : Nat} (h : x = y) (hf : i = j) : ((some x, i) : Option W32 × Nat) = (some y, j) := by rw [h, hf]

theorem integerOperations : Clause.IntegerOperations := by
  intro a b
  dsimp only
  refine ⟨?add, ?sub, ?addFits, ?addAbove, ?addBelow, ?subFits, ?subAbove, ?subBelow, fun h => ⟨?_, ?_, ?_⟩, fun h => ⟨?_, ?_, ?_⟩, ?slt, ?sltu, aluOp_abs a b,
    aluOp_mvz a b, aluOp_mvnz a b⟩
  case add =>
    have h : aluOp 0x00 a b = (some (wrapOv (s32 a + s32 b)).1, (wrapOv (s32 a + s32 b)).2) := rfl
    rw [h, wrapOv_eq, w32_add]
    rfl
  case sub =>
    have h : aluOp 0x01 a b = (some (wrapOv (s32 a - s32 b)).1, (wrapOv (s32 a - s32 b)).2) := rfl
    rw [h, wrapOv_eq, w32_sub]
    rfl
  case addFits => exact fun h => by rw [aluOp_adds_eq, satSat_fits (i := s32 a + s32 b) h, w32_add]
  case addAbove => exact fun h => by rw [aluOp_adds_eq, satSat_above (i := s32 a + s32 b) h]
  case addBelow => exact fun h => by rw [aluOp_adds_eq, satSat_below (i := s32 a + s32 b) h]
  case subFits => exact fun h => by rw [aluOp_subs_eq, satSat_fits (i := s32 a - s32 b) h, w32_sub]
  case subAbove => exact fun h => by rw [aluOp_subs_eq, satSat_above (i := s32 a - s32 b) h]
  case subBelow => exact fun h => by rw [aluOp_subs_eq, satSat_below (i := s32 a - s32 b) h]
  · rw [aluOp_shl_eq, if_neg (Nat.not_lt.mpr h)]
  · rw [aluOp_shr_eq, if_neg (Nat.not_lt.mpr h)]
  · rw [aluOp_sar_eq, if_neg (Nat.not_lt.mpr h)]
    rfl
  · rw [aluOp_shl_eq, if_pos h, shiftLeft_eq_ofNat]
  · rw [aluOp_shr_eq, if_pos h, shiftRight_eq_ofNat]
  · rw [aluOp_sar_eq, if_pos h, sshiftRight_eq_ofInt]
  case slt => exact pair_some (n32_b2n (s32 a < s32 b)) rfl
  case sltu => exact pair_some (n32_b2n (a.toNat < b.toNat)) rfl

/-! ### The divider -/

theorem mag_signed : mag true a = a.toInt.natAbs := by
  have h := BitVec.toInt_eq_toNat_cond a
  have hl := a.isLt
  unfold mag s32
  rw [Bool.true_and]
  by_cases hn : a.toInt < 0
  · rw [decide_eq_true hn, if_pos rfl]
    split at h
    · omega
    · norm_num at h hl ⊢
      omega
  · rw [decide_eq_false hn, if_neg Bool.false_ne_true]
    split at h
    · omega
    · norm_num at h hl
      omega

theorem mag_unsigned : mag false a = a.toNat := rfl

/-- A number is its magnitude, or the opposite of it below 0. -/
theorem eq_signed_natAbs (x : Int) : x = if x < 0 then -(x.natAbs : Int) else x.natAbs := by
  split
  · omega
  · omega

/-- A quotient of magnitudes with its sign is the truncated quotient. -/
theorem tdiv_of_signs (x y : Int) :
    x.tdiv y = if decide (x < 0) != decide (y < 0) then -((x.natAbs / y.natAbs : Nat) : Int) else ((x.natAbs / y.natAbs : Nat) : Int) := by
  conv_lhs => rw [eq_signed_natAbs x, eq_signed_natAbs y]
  generalize x.natAbs = m
  generalize y.natAbs = n
  by_cases hx : x < 0
  · by_cases hy : y < 0
    · simp [hx, hy, Int.neg_tdiv, Int.tdiv_neg, Int.ofNat_tdiv]
    · simp [hx, hy, Int.neg_tdiv, Int.ofNat_tdiv]
  · by_cases hy : y < 0
    · simp [hx, hy, Int.tdiv_neg, Int.ofNat_tdiv]
    · simp [hx, hy, Int.ofNat_tdiv]

theorem tmod_of_sign (x y : Int) : x.tmod y = if x < 0 then -((x.natAbs % y.natAbs : Nat) : Int) else ((x.natAbs % y.natAbs : Nat) : Int) := by
  conv_lhs => rw [eq_signed_natAbs x, eq_signed_natAbs y]
  generalize x.natAbs = m
  generalize y.natAbs = n
  by_cases hx : x < 0
  · by_cases hy : y < 0
    · simp [hx, hy, Int.neg_tmod, Int.tmod_neg, Int.tmod_eq_emod_of_nonneg]
    · simp [hx, hy, Int.neg_tmod, Int.tmod_eq_emod_of_nonneg]
  · by_cases hy : y < 0
    · simp [hx, hy, Int.tmod_neg, Int.tmod_eq_emod_of_nonneg]
    · simp [hx, hy, Int.tmod_eq_emod_of_nonneg]

theorem w32_natCast (n : Nat) : w32 (n : Int) = n32 n := BitVec.ofInt_natCast 32 n

/-- The divide of two words of which the divisor is not 0, and of which the quotient fits. -/
theorem divOp_eq {f : Nat} (hb : b ≠ 0) (ho : ¬(f % 2 = 0 ∧ a = 0x80000000 ∧ b = 0xFFFFFFFF)) :
    divOp f a b =
      let sg := decide (f % 2 = 0)
      let q := mag sg a / mag sg b
      let r := mag sg a % mag sg b
      let na := sg && decide (s32 a < 0)
      let nb := sg && decide (s32 b < 0)
      (if f ≥ 2 then (if na then w32 (-(r : Int)) else n32 r) else (if na != nb then w32 (-(q : Int)) else n32 q), 0) := by
  have ho' : (decide (f % 2 = 0) && decide (a = 0x80000000) && decide (b = 0xFFFFFFFF)) = false := by
    rw [← Bool.not_eq_true, Bool.and_eq_true, Bool.and_eq_true, decide_eq_true_eq, decide_eq_true_eq, decide_eq_true_eq, and_assoc]
    exact ho
  unfold divOp
  dsimp only
  rw [if_neg hb, ho', if_neg Bool.false_ne_true]

theorem divOp_signed (hb : b ≠ 0) (ho : ¬(a = 0x80000000 ∧ b = 0xFFFFFFFF)) :
    divOp 0 a b = (BitVec.ofInt 32 (a.toInt.tdiv b.toInt), 0) ∧ divOp 2 a b = (BitVec.ofInt 32 (a.toInt.tmod b.toInt), 0) := by
  have hq : divOp 0 a b = (if decide (s32 a < 0) != decide (s32 b < 0) then w32 (-((mag true a / mag true b : Nat) : Int)) else n32 (mag true a / mag true b), 0) :=
    divOp_eq a b hb fun h => ho h.2
  have hr : divOp 2 a b = (if decide (s32 a < 0) then w32 (-((mag true a % mag true b : Nat) : Int)) else n32 (mag true a % mag true b), 0) :=
    divOp_eq a b hb fun h => ho h.2
  rw [hq, hr, mag_signed, mag_signed, tdiv_of_signs, tmod_of_sign, apply_ite (BitVec.ofInt 32), apply_ite (BitVec.ofInt 32), BitVec.ofInt_natCast,
    BitVec.ofInt_natCast]
  simp only [decide_eq_true_eq]
  exact ⟨rfl, rfl⟩

theorem divOp_unsigned (hb : b ≠ 0) :
    divOp 1 a b = (BitVec.ofNat 32 (a.toNat / b.toNat), 0) ∧ divOp 3 a b = (BitVec.ofNat 32 (a.toNat % b.toNat), 0) := by
  rw [divOp_eq a b hb (fun h => absurd h.1 (by decide)), divOp_eq a b hb (fun h => absurd h.1 (by decide))]
  exact ⟨rfl, rfl⟩

theorem divisionTruncates : Clause.DivisionTruncates := fun a b =>
  ⟨divOp_signed a b, divOp_unsigned a b, rfl, rfl, rfl, rfl, rfl, rfl⟩

/-! ### Circular addressing -/

theorem circularAddressesStayInTheBuffer : Clause.CircularAddressesStayInTheBuffer := by
  intro k pr p i b l hl hbl hb hp h1 h2 r
  have hr : r = (w32 (if (p.toNat : Int) + i ≥ b + l then p.toNat + i - l else if (p.toNat : Int) + i < b then p.toNat + i + l else p.toNat + i)).toNat := by
    change (circAdv k pr p i).toNat = _
    unfold circAdv
    dsimp only
    rw [if_pos (show ((l : Nat) : Int) ≠ 0 by omega)]
  have hw (t : Int) (h0 : 0 ≤ t) (ht : t < 2 ^ 32) : ((w32 t).toNat : Int) = t := by
    unfold w32
    rw [BitVec.toNat_ofInt]
    norm_num
    omega
  have key : ∃ t : Int, (r : Int) = t ∧ (b : Int) ≤ t ∧ t < b + l ∧ (t = p.toNat + i ∨ t = p.toNat + i - l ∨ t = p.toNat + i + l) := by
    rw [hr]
    split
    · exact ⟨_, hw _ (by omega) (by omega), by omega, by omega, .inr (.inl rfl)⟩
    · split
      · exact ⟨_, hw _ (by omega) (by omega), by omega, by omega, .inr (.inr rfl)⟩
      · exact ⟨_, hw _ (by omega) (by omega), by omega, by omega, .inl rfl⟩
  obtain ⟨t, hrt, hbt, htl, h⟩ := key
  refine ⟨by omega, by omega, ?_⟩
  rw [hrt]
  rcases h with rfl | rfl | rfl
  · rw [Int.sub_self, Int.zero_emod]
  · rw [show (p.toNat : Int) + i - l - (p.toNat + i) = -l by omega, Int.emod_eq_zero_of_dvd (Int.dvd_neg.mpr (Int.dvd_refl _))]
  · rw [show (p.toNat : Int) + i + l - (p.toNat + i) = l by omega, Int.emod_self]

/-- Settles O18. -/
theorem whatIntegerOperationsCompute : Obligations.WhatIntegerOperationsCompute :=
  ⟨integerOperations, divisionTruncates, circularAddressesStayInTheBuffer⟩

end Sys2Proof.Machine
end

section
/-! How results land (R45, R47). -/
namespace Sys2Proof.Machine

variable {s : State} {c : Nat} {k l : Coach}

/-! ### A result writes the bits of its mask -/

/-- A register of `w` bits after a result has landed in it. -/
theorem getLsbD_landed {w : Nat} (old : BitVec w) (m v : BitVec 288) (j : Nat) :
    (BitVec.ofNat w ((old.toNat &&& (2 ^ w - 1 - m.toNat % 2 ^ w)) ||| (v.toNat &&& m.toNat))).getLsbD j =
      if m.getLsbD j = true ∧ j < w then v.getLsbD j else old.getLsbD j := by
  rw [BitVec.getLsbD_ofNat, Nat.testBit_or, Nat.testBit_and, Nat.testBit_and]
  by_cases hj : j < w
  · have hm : (2 ^ w - 1 - m.toNat % 2 ^ w).testBit j = !m.getLsbD j := by
      have hlt : m.toNat % 2 ^ w < 2 ^ w := Nat.mod_lt _ (Nat.two_pow_pos w)
      rw [show 2 ^ w - 1 - m.toNat % 2 ^ w = 2 ^ w - (m.toNat % 2 ^ w + 1) by omega, Nat.testBit_two_pow_sub_succ hlt, decide_eq_true hj,
        Bool.true_and, Nat.testBit_mod_two_pow, decide_eq_true hj, Bool.true_and, BitVec.testBit_toNat]
    rw [hm, BitVec.testBit_toNat, BitVec.testBit_toNat, BitVec.testBit_toNat]
    cases hb : m.getLsbD j with
    | true => simp [hj]
    | false => simp [hj]
  · rw [if_neg fun h => hj h.2, BitVec.getLsbD_of_ge old j (Nat.le_of_not_lt hj), decide_eq_false hj, Bool.false_and]

/-- A bit of a table of registers after a result has landed in register `n`. -/
theorem getLsbD_tput_landed {w : Nat} (t : Table (BitVec w)) (n : Nat) (m v : BitVec 288) (i j : Nat) :
    (tget 0 (tput 0 t n (BitVec.ofNat w (((tget 0 t n).toNat &&& (2 ^ w - 1 - m.toNat % 2 ^ w)) ||| (v.toNat &&& m.toNat)))) i).getLsbD j =
      if i = n ∧ m.getLsbD j = true ∧ j < w then v.getLsbD j else (tget 0 t i).getLsbD j := by
  by_cases hi : i = n
  · subst hi
    rw [tget_tput_same, getLsbD_landed]
    simp only [true_and]
  · rw [tget_tput_other _ _ _ hi, if_neg fun h => hi h.1]

theorem landOne_g {p : Pend} (h : p.file = .g) (k : Coach) : (landOne k p).g = tput 0 k.g p.idx
    (BitVec.ofNat 32 (((rdG k p.idx).toNat &&& (2 ^ 32 - 1 - p.mask.toNat % 2 ^ 32)) ||| (p.val.toNat &&& p.mask.toNat))) := by
  unfold landOne
  rw [h]

theorem landOne_v {p : Pend} (h : p.file = .v) (k : Coach) : (landOne k p).v = tput 0 k.v p.idx
    (BitVec.ofNat 128 (((rdV k p.idx).toNat &&& (2 ^ 128 - 1 - p.mask.toNat % 2 ^ 128)) ||| (p.val.toNat &&& p.mask.toNat))) := by
  unfold landOne
  rw [h]

theorem landOne_acc {p : Pend} (h : p.file = .acc) (k : Coach) : (landOne k p).acc = tput 0 k.acc p.idx
    (BitVec.ofNat 288 (((rdAcc k p.idx).toNat &&& (2 ^ 288 - 1 - p.mask.toNat % 2 ^ 288)) ||| (p.val.toNat &&& p.mask.toNat))) := by
  unfold landOne
  rw [h]

/-- A result leaves the files that it does not write. -/
theorem landOne_other (k : Coach) (p : Pend) : (p.file ≠ .g → (landOne k p).g = k.g) ∧ (p.file ≠ .p → (landOne k p).p = k.p) ∧
    (p.file ≠ .n → (landOne k p).n = k.n) ∧ (p.file ≠ .v → (landOne k p).v = k.v) ∧ (p.file ≠ .acc → (landOne k p).acc = k.acc) := by
  unfold landOne
  cases p.file with
  | g => exact ⟨fun h => absurd rfl h, fun _ => rfl, fun _ => rfl, fun _ => rfl, fun _ => rfl⟩
  | p => exact ⟨fun _ => rfl, fun h => absurd rfl h, fun _ => rfl, fun _ => rfl, fun _ => rfl⟩
  | n => exact ⟨fun _ => rfl, fun _ => rfl, fun h => absurd rfl h, fun _ => rfl, fun _ => rfl⟩
  | v => exact ⟨fun _ => rfl, fun _ => rfl, fun _ => rfl, fun h => absurd rfl h, fun _ => rfl⟩
  | acc => exact ⟨fun _ => rfl, fun _ => rfl, fun _ => rfl, fun _ => rfl, fun h => absurd rfl h⟩

theorem aResultWritesItsBits : Clause.AResultWritesItsBits := by
  intro k p i j
  obtain ⟨hg, hp, hn, hv, hacc⟩ := landOne_other k p
  refine ⟨fun h => ?_, fun h => ?_, fun h => ?_, hg, hp, hn, hv, hacc⟩
  · unfold rdG
    rw [landOne_g h]
    exact getLsbD_tput_landed ..
  · unfold rdAcc
    rw [landOne_acc h]
    refine (getLsbD_tput_landed ..).trans (if_congr ?_ rfl rfl)
    exact and_congr_right fun _ => and_iff_left_of_imp fun hm => BitVec.lt_of_getLsbD hm
  · unfold rdV
    rw [landOne_v h]
    exact getLsbD_tput_landed ..

/-! ### What landing leaves of what is on its way -/

/-- What is on its way, and the cycle, are the same. -/
def SamePend (k l : Coach) : Prop := l.pend = k.pend ∧ l.coPend = k.coPend ∧ l.cyc = k.cyc

theorem SamePend.refl (k : Coach) : SamePend k k := ⟨rfl, rfl, rfl⟩
theorem SamePend.trans {m : Coach} (h : SamePend k l) (g : SamePend l m) : SamePend k m :=
  ⟨g.1.trans h.1, g.2.1.trans h.2.1, g.2.2.trans h.2.2⟩
theorem SamePend.foldl {α : Type} (f : Coach → α → Coach) (h : ∀ k a, SamePend k (f k a)) (xs : List α) (k : Coach) : SamePend k (xs.foldl f k) := by
  induction xs generalizing k with
  | nil => exact .refl k
  | cons a r ih => exact (h k a).trans (ih (f k a))
theorem SamePend.ite {p : Prop} [Decidable p] {m : Coach} (hl : SamePend k l) (hm : SamePend k m) : SamePend k (if p then l else m) := by
  split
  · exact hl
  · exact hm
theorem samePend_wrCo (k : Coach) (off : Nat) (v : W32) : SamePend k (wrCo k off v) := ⟨rfl, rfl, rfl⟩
theorem samePend_setCoF (k : Coach) (off lo w v : Nat) : SamePend k (setCoF k off lo w v) := samePend_wrCo k off _
theorem SamePend.precise (h : SamePend k l) (q : Option Precise) : SamePend k { l with precise := q } := h
theorem SamePend.wrong (h : SamePend k l) (q : Option Bubbles) : SamePend k { l with wrong := q } := h
theorem samePend_cdone (k : Coach) (q : Option Bool) : SamePend k { k with cdone := q } := .refl k

theorem samePend_coWrite (k : Coach) (c : Nat) (h : Option Nat) (off : Nat) (v : W32) : SamePend k (coWrite c h k off v) := by
  unfold coWrite
  split
  · exact .refl k
  · with_reducible refine .ite (samePend_wrCo ..) ?_
    with_reducible refine .ite (samePend_cdone ..) ?_
    exact .ite ((samePend_wrCo ..).trans (samePend_setCoF ..)) (samePend_wrCo ..)

theorem samePend_landOne (k : Coach) (p : Pend) : SamePend k (landOne k p) := by
  unfold landOne
  cases p.file <;> exact .refl k

theorem samePend_landFlags (k : Coach) (p : Pend) : SamePend k (landFlags k p) := by
  have h : ∀ a b d, SamePend k (wrCo (wrCo (wrCo k 0x102 a) 0x200 b) 0x280 d) := fun _ _ _ => .refl k
  unfold landFlags
  exact .ite ((h _ _ _).precise _) (h _ _ _)

theorem samePend_landImprecise (k : Coach) (ps : List Pend) : SamePend k (landImprecise k ps) := by
  unfold landImprecise
  dsimp only
  split
  · exact .refl k
  · exact .ite (samePend_wrCo ..) ((samePend_setCoF ..).trans ((samePend_wrCo ..).trans (samePend_wrCo ..)))

theorem samePend_landGroup (k : Coach) (ps : List Pend) : SamePend k (landGroup k ps) := by
  have h : ∀ xs : List Pend, SamePend k (landImprecise (xs.foldl landFlags (xs.foldl landOne k)) xs) := fun xs =>
    ((SamePend.foldl _ samePend_landOne xs k).trans (.foldl _ samePend_landFlags xs _)).trans (samePend_landImprecise _ _)
  unfold landGroup
  dsimp only
  split
  · exact h _
  · exact .ite ((h _).precise _) ((h _).trans (samePend_setCoF ..))

/-- What is due at cycle `t` lands, and nothing else of what is on its way changes. -/
theorem landAt_pend (k : Coach) (c : Nat) (h : Option Nat) (t : Nat) :
    (landAt c h k t).pend = k.pend.filter (fun p => !(decide (p.due = t) && decide (p.trap = 0))) ∧
    (landAt c h k t).coPend = k.coPend.filter (fun e => decide (e.due ≠ t)) ∧ (landAt c h k t).cyc = k.cyc := by
  have hco := SamePend.foldl _ (fun k (e : CoStore) => samePend_coWrite k c h e.off e.val) (k.coPend.filter (fun e => decide (e.due = t)))
    { k with coPend := k.coPend.filter (fun e => decide (e.due ≠ t)) }
  obtain ⟨h1, h2, h3⟩ := hco
  unfold landAt
  dsimp only
  generalize List.foldl _ _ (k.coPend.filter (fun e => decide (e.due = t))) = l at h1 h2 h3 ⊢
  obtain ⟨g1, g2, g3⟩ : SamePend { l with pend := l.pend.filter (fun p => !(decide (p.due = t) && decide (p.trap = 0))) }
      (if (l.pend.filter (fun p => decide (p.due = t) && decide (p.trap = 0))).isEmpty
        then { l with pend := l.pend.filter (fun p => !(decide (p.due = t) && decide (p.trap = 0))) }
        else landGroup { l with pend := l.pend.filter (fun p => !(decide (p.due = t) && decide (p.trap = 0))) }
          (l.pend.filter (fun p => decide (p.due = t) && decide (p.trap = 0)))) := .ite (.refl _) (samePend_landGroup _ _)
  exact ⟨g1.trans (congrArg _ h1), g2.trans h2, g3.trans h3⟩

/-- The least of a list and a number. -/
theorem foldl_min_some (xs : List Nat) (a : Nat) :
    ∃ d, xs.foldl (fun r d => match r with | none => some d | some m => some (Nat.min m d)) (some a) = some d ∧ (d = a ∨ d ∈ xs) ∧ d ≤ a ∧ ∀ x ∈ xs, d ≤ x := by
  induction xs generalizing a with
  | nil => exact ⟨a, rfl, .inl rfl, Nat.le_refl a, nofun⟩
  | cons y ys ih =>
    obtain ⟨d, hd, hmem, hle, hall⟩ := ih (Nat.min a y)
    have ha : Nat.min a y ≤ a := Nat.min_le_left a y
    have hy : Nat.min a y ≤ y := Nat.min_le_right a y
    refine ⟨d, hd, ?_, Nat.le_trans hle ha, ?_⟩
    · rcases hmem with rfl | hmem
      · rcases Nat.le_total a y with h | h
        · exact .inl (Nat.min_eq_left h)
        · exact .inr (List.mem_cons.mpr (.inl (Nat.min_eq_right h)))
      · exact .inr (List.mem_cons_of_mem _ hmem)
    · intro x hx
      rcases List.mem_cons.mp hx with rfl | hx
      · exact Nat.le_trans hle hy
      · exact hall x hx

/-- The cycles at which something on its way is due, traps apart. -/
def dueCycles (k : Coach) : List Nat := (k.pend.filter (fun p => decide (p.trap = 0))).map (fun p => p.due) ++ k.coPend.map (fun e => e.due)

theorem nextDue_none (h : nextDue k = none) : dueCycles k = [] := by
  change (dueCycles k).foldl _ none = none at h
  cases hd : dueCycles k with
  | nil => rfl
  | cons a r =>
    rw [hd, List.foldl_cons] at h
    obtain ⟨d, hd, -⟩ := foldl_min_some r a
    exact absurd (h.symm.trans hd) nofun

theorem nextDue_some {d : Nat} (h : nextDue k = some d) : d ∈ dueCycles k ∧ ∀ x ∈ dueCycles k, d ≤ x := by
  change (dueCycles k).foldl _ none = some d at h
  cases hd : dueCycles k with
  | nil => rw [hd] at h; cases h
  | cons a r =>
    rw [hd, List.foldl_cons] at h
    obtain ⟨m, hm, hmem, hle, hall⟩ := foldl_min_some r a
    cases h.symm.trans hm
    refine ⟨?_, fun x hx => ?_⟩
    · rcases hmem with rfl | hmem
      · exact List.mem_cons_self
      · exact List.mem_cons_of_mem _ hmem
    · rcases List.mem_cons.mp hx with rfl | hx
      · exact hle
      · exact hall x hx

theorem mem_dueCycles_pend {p : Pend} (h : p ∈ k.pend) (ht : p.trap = 0) : p.due ∈ dueCycles k :=
  List.mem_append_left _ (List.mem_map_of_mem (List.mem_filter.mpr ⟨h, decide_eq_true ht⟩))
theorem mem_dueCycles_coPend {e : CoStore} (h : e ∈ k.coPend) : e.due ∈ dueCycles k := List.mem_append_right _ (List.mem_map_of_mem h)

/-- What is due at a cycle is gone from the cycles after it has landed. -/
theorem dueCycles_landAt (k : Coach) (c : Nat) (h : Option Nat) (t : Nat) : dueCycles (landAt c h k t) = (dueCycles k).filter (fun d => decide (d ≠ t)) := by
  obtain ⟨h1, h2, -⟩ := landAt_pend k c h t
  unfold dueCycles
  rw [h1, h2, List.filter_append, List.filter_map, List.filter_map, List.filter_filter, List.filter_filter]
  congr 2
  refine List.filter_congr fun p _ => ?_
  by_cases ht : p.trap = 0 <;> by_cases hd : p.due = t <;> simp [ht, hd]

/-- What is on its way for later than cycle `t` stays, the cycle does too, and nothing comes on its way. -/
def Lands (t : Nat) (k l : Coach) : Prop := l.cyc = k.cyc ∧ (∀ p ∈ k.pend, t < p.due → p ∈ l.pend)

theorem Lands.trans {t : Nat} {m : Coach} (h : Lands t k l) (g : Lands t l m) : Lands t k m :=
  ⟨g.1.trans h.1, fun p hp ht => g.2 p (h.2 p hp ht) ht⟩
theorem Lands.mono {t u : Nat} (h : Lands t k l) (htu : t ≤ u) : Lands u k l := ⟨h.1, fun p hp hu => h.2 p hp (Nat.lt_of_le_of_lt htu hu)⟩
theorem SamePend.lands (h : SamePend k l) (t : Nat) : Lands t k l := ⟨h.2.2, fun _ hp _ => h.1 ▸ hp⟩

theorem lands_landAt (k : Coach) (c : Nat) (h : Option Nat) {t u : Nat} (htu : t ≤ u) : Lands u k (landAt c h k t) := by
  obtain ⟨h1, -, h3⟩ := landAt_pend k c h t
  refine ⟨h3, fun p hp hu => ?_⟩
  rw [h1, List.mem_filter]
  exact ⟨hp, by simp only [show p.due ≠ t by omega, decide_false, Bool.false_and, Bool.not_false]⟩

theorem lands_landUpto (c : Nat) (h : Option Nat) (n t : Nat) (k : Coach) : Lands t k (landUpto c h n k t) := by
  induction n generalizing k with
  | zero => exact (SamePend.refl k).lands t
  | succ n ih =>
    unfold landUpto
    split
    · split
      next hd => exact (lands_landAt k c h hd).trans (ih _)
      next => exact (SamePend.refl k).lands t
    · exact (SamePend.refl k).lands t

/-- With steps enough, nothing that is due by cycle `t` is left on its way. -/
theorem landed_landUpto (c : Nat) (h : Option Nat) (n t : Nat) (k : Coach) (hn : (dueCycles k).length ≤ n) :
    ∀ d ∈ dueCycles (landUpto c h n k t), t < d := by
  induction n generalizing k with
  | zero =>
    intro d hd
    have : dueCycles k = [] := List.eq_nil_of_length_eq_zero (Nat.le_zero.mp hn)
    rw [landUpto, this] at hd
    cases hd
  | succ n ih =>
    unfold landUpto
    split
    next d hd =>
      obtain ⟨hmem, hall⟩ := nextDue_some hd
      split
      next hle =>
        refine ih _ ?_
        rw [dueCycles_landAt]
        have hlt : ((dueCycles k).filter (fun x => decide (x ≠ d))).length < (dueCycles k).length :=
          List.length_filter_lt_length_iff_exists.mpr ⟨d, hmem, by simp⟩
        omega
      next hgt => exact fun x hx => Nat.lt_of_lt_of_le (Nat.lt_of_not_le hgt) (hall x hx)
    next hd =>
      rw [nextDue_none hd]
      exact nofun

theorem length_dueCycles_le (k : Coach) : (dueCycles k).length ≤ k.pend.length + k.coPend.length := by
  unfold dueCycles
  rw [List.length_append, List.length_map, List.length_map]
  exact Nat.add_le_add_right (List.length_filter_le _ _) _

theorem samePend_perfAdd (k : Coach) (off n : Nat) : SamePend k (perfAdd k off n) := samePend_wrCo ..

theorem samePend_predict (k : Coach) (a next : Nat) (o : Option Op) : SamePend k (predict k a next o).1 := by
  unfold predict
  split
  · split
    · exact .refl k
    · exact .refl k
  all_goals exact .refl k

/-- The wrong path's decoding changes nothing that is on its way. -/
theorem samePend_decoded {m : Coach} (off : Bool) (a next : Nat) (o : Option Op) (h : SamePend k m) :
    SamePend k (if off then (m, 0, false, none) else predict m a next o).1 := by
  cases off
  · exact h.trans (samePend_predict ..)
  · exact h

/-- A bubble cycle lands nothing that is due later than the coach's cycle. -/
theorem lands_bubbleStep (s : State) (c : Nat) (k : Coach) : Lands k.cyc k (bubbleStep s c k) := by
  unfold bubbleStep
  split
  · exact (SamePend.refl k).lands _
  next w _ =>
    split
    · exact ((SamePend.refl k).wrong none).lands _
    · have hl := (lands_landUpto c (holdOf s c) (k.pend.length + k.coPend.length) (Nat.min w.cyc k.cyc) k).mono (Nat.min_le_right w.cyc k.cyc)
      have hp := samePend_perfAdd (landUpto c (holdOf s c) (k.pend.length + k.coPend.length) k (Nat.min w.cyc k.cyc)) 0x60A 1
      dsimp only
      split
      · exact hl.trans ((hp.wrong _).lands _)
      · split
        · exact hl.trans ((hp.wrong _).lands _)
        · exact hl.trans (((samePend_decoded _ _ _ _ (hp.trans ((samePend_perfAdd ..).trans (samePend_perfAdd ..)))).wrong _).lands _)

theorem lands_foldl_bubbleStep {α : Type} (s : State) (c : Nat) (xs : List α) (k : Coach) :
    Lands k.cyc k (xs.foldl (fun k _ => bubbleStep s c k) k) := by
  induction xs generalizing k with
  | nil => exact (SamePend.refl k).lands _
  | cons a r ih =>
    have h := lands_bubbleStep s c k
    have g := ih (bubbleStep s c k)
    rw [h.1] at g
    exact h.trans g

theorem lands_landNow (s : State) (c : Nat) (k : Coach) : Lands k.cyc k (landNow s c k) := by
  have h : Lands k.cyc k (bubblesAll s c k) := lands_foldl_bubbleStep s c (upto 5) k
  have g := lands_landUpto c (holdOf s c) ((bubblesAll s c k).pend.length + (bubblesAll s c k).coPend.length) (bubblesAll s c k).cyc (bubblesAll s c k)
  rw [h.1] at g
  unfold landNow
  dsimp only
  rw [h.1]
  exact h.trans g

/-- Nothing that is due is left on its way. -/
theorem landed_landNow (s : State) (c : Nat) (k : Coach) : ∀ d ∈ dueCycles (landNow s c k), k.cyc < d := by
  have h : (bubblesAll s c k).cyc = k.cyc := (lands_foldl_bubbleStep s c (upto 5) k).1
  unfold landNow
  rw [← h]
  exact landed_landUpto c _ _ _ _ (length_dueCycles_le _)

theorem samePend_preciseReq {q : Coach × ExcReq} (h : preciseReq k = some q) : SamePend k q.1 := by
  unfold preciseReq at h
  split at h
  · cases h
  · split at h
    · cases h
    · split at h
      · cases h
        exact .ite (samePend_setCoF ..) (.refl k)
      · cases h
        exact .refl k

theorem sameControl_preciseReq {q : Coach × ExcReq} (h : preciseReq k = some q) : SameControl k q.1 := by
  unfold preciseReq at h
  split at h
  · cases h
  · split at h
    · cases h
    · split at h
      · cases h
        exact sameControl_ite (sameControl_setCoF ..) (.refl k)
      · cases h
        exact .refl k

/-- A precise exception that is raised takes nothing off its way and moves no pc. -/
theorem landPrecise_pend (k : Coach) : SamePend k (landPrecise k) ∧ (landPrecise k).pc = k.pc := by
  unfold landPrecise
  split
  · exact ⟨.refl k, rfl⟩
  · cases h : preciseReq k with
    | none => exact ⟨.refl k, rfl⟩
    | some q => exact ⟨samePend_preciseReq h, (sameControl_preciseReq h).2.1⟩

theorem resultsLandWhenDue : Clause.ResultsLandWhenDue := by
  intro s c d hc ha hr hd hwhen
  have hop : landOp s c = setCo s c (landPrecise (landNow s c (if d ≤ (co s c).cyc then co s c else passTime (co s c) (d - (co s c).cyc) 0))) := by
    unfold landOp
    simp only [ha, List.isEmpty_nil, Bool.not_true, hr, decide_false, Bool.or_self, Bool.false_eq_true, if_false, hd]
    by_cases hle : d ≤ (co s c).cyc
    · rw [if_pos hle, if_pos hle]
    · rw [if_neg hle, if_neg hle, hwhen.resolve_left hle]
      rfl
  generalize hk : (if d ≤ (co s c).cyc then co s c else passTime (co s c) (d - (co s c).cyc) 0) = k at hop
  have hcyc : k.cyc = Nat.max d (co s c).cyc := by
    subst hk
    split
    next h => exact (Nat.max_eq_right h).symm
    next h => exact (passTime_cyc ..).trans ((Nat.add_sub_of_le (Nat.le_of_not_le h)).trans (Nat.max_eq_left (Nat.le_of_not_le h)).symm)
  have hpend : k.pend = (co s c).pend ∧ k.pc = (co s c).pc := by
    subst hk
    split
    · exact ⟨rfl, rfl⟩
    · exact ⟨passTime_pend .., passTime_pc ..⟩
  obtain ⟨⟨hp1, hp2, hp3⟩, hpc⟩ := landPrecise_pend (landNow s c k)
  obtain ⟨hl1, hl2⟩ := lands_landNow s c k
  have hlanded := landed_landNow s c k
  refine ⟨_, (act_wf (decide_eq_true hc)).trans (congrArg _ hop), onlyCoach_setCo _ _ _, ?_⟩
  rw [co_setCo_same, hp1, hp2, hp3, hl1]
  refine ⟨hcyc, fun p hp ht => hlanded _ (mem_dueCycles_pend hp ht), fun e he => hlanded _ (mem_dueCycles_coPend he), fun p hp ht => hl2 p (hpend.1 ▸ hp) ht, ?_⟩
  exact hpc.trans ((sameControl_landNow s c).2.1.trans hpend.2)

/-! ### ACCESS_ACCEPTED -/

/-- The longest DRAM wait is noted. -/
theorem acceptOp_answered (s : State) (c extra : Nat) : ∃ n st, acceptOp s c extra = finishBundle { answered s c with mem := { (answered s c).mem with longest := n } } c st := by
  unfold acceptOp
  dsimp only
  split
  · exact ⟨_, _, rfl⟩
  · exact ⟨_, _, rfl⟩

theorem anAnsweredBundleTakesEffect : Clause.AnAnsweredBundleTakesEffect := by
  intro s c extra f hc u k hf hg hr he hl
  obtain ⟨n, st, hop⟩ := acceptOp_answered s c extra
  generalize hv : ({ answered s c with mem := { (answered s c).mem with longest := n } } : State) = v at hop
  have hco (d : Nat) : co v d = co u d := by rw [← hv]; rfl
  have hresp : ∀ x ∈ (co v c).access, x.resp.isSome = true := by
    rw [hco]
    exact List.all_eq_true.mp hr
  refine ⟨fun hok => ?_, fun a r x hbad hx => ?_⟩
  · have hnone : (co v c).access.filter (fun a => match a.resp with | some r => decide (r.err ≠ 0) | none => false) = [] := by
      rw [hco, List.filter_eq_nil_iff]
      intro a ha
      have := List.all_eq_true.mp hok a ha
      cases hx : a.resp with
      | none => rw [hx] at this; cases this
      | some r =>
        rw [hx] at this
        simpa using this
    obtain ⟨m, hm, hfin⟩ := finishBundle_ok (s := v) (c := c) st (by rw [hco]; exact hf) hg hresp hnone
    rw [hco] at hfin
    refine ⟨_, (act_wf (decide_eq_true hc)).trans (congrArg _ (hop.trans hm)), by rw [← hv]; rfl, fun d hd => ?_, ?_⟩
    · rw [co_setCo, if_neg hd, hco]
    · rw [co_setCo_same]
      exact ⟨hfin.pc, hfin.access, hfin.after, hfin.g, hfin.p, hfin.pend, hfin.coPend⟩
  · obtain ⟨m, hm, hbundle⟩ := finishBundle_bad (s := v) (c := c) st (by rw [hco]; exact hf) hresp (by rw [hco]; exact hbad) hx (by rw [hco]; exact hl)
    rw [hco] at hbundle
    refine ⟨_, (act_wf (decide_eq_true hc)).trans (congrArg _ (hop.trans hm)), by rw [← hv]; rfl, ?_⟩
    rw [co_setCo_same]
    exact hbundle

/-- Settles O20. -/
theorem resultsLandAndBundlesEnd : Obligations.ResultsLandAndBundlesEnd := ⟨resultsLandWhenDue, aResultWritesItsBits, anAnsweredBundleTakesEffect⟩

end Sys2Proof.Machine
end

section
/-! Long operations, element by element and group by group (R121 to R126, R207 to R212). -/
namespace Sys2Proof.Machine

variable {s : State} {c : Nat} {k : Coach} {l : LongOp}

/-! ### A fault, and a step -/

theorem stopLong_files (k : Coach) : (stopLong k).g = k.g ∧ (stopLong k).p = k.p := by
  unfold stopLong
  split
  · exact ⟨setCoF_g .., setCoF_p ..⟩
  · exact ⟨rfl, rfl⟩

/-- A fault stops a long operation with its registers as they are. -/
theorem longFault_raises (k : Coach) (l : LongOp) (entry code ld a : Nat) : ∃ x, (longFault k l entry code ld a).exc = some x ∧ x.entry = entry ∧
    x.code = code ∧ (longFault k l entry code ld a).g = k.g ∧ (longFault k l entry code ld a).p = k.p :=
  ⟨_, raiseExc_exc .., rfl, rfl, (raiseExc_g ..).trans (stopLong_files k).1, (raiseExc_p ..).trans (stopLong_files k).2⟩

theorem CoOnly.acc {k l : Coach} (h : CoOnly k l) : l.acc = k.acc := by rw [h]
theorem CoOnly.cyc {k l : Coach} (h : CoOnly k l) : l.cyc = k.cyc := by rw [h]

/-- What a step of a long operation leaves, whether the next element is due or the operation ends. -/
structure Stepped (k : Coach) (l : LongOp) (m : Coach) : Prop where
  g : m.g = k.g
  p : m.p = k.p
  v : m.v = k.v
  acc : m.acc = k.acc
  cyc : m.cyc = k.cyc
  co : ∀ off, (∀ i < 3, off ≠ 0x304 + 8 * i) → rdCo m off = rdCo k off
  long : m.long = none ↔ rdG k l.gn = 0

theorem stepped_longStep (k : Coach) (l : LongOp) : Stepped k l (longStep k l) := by
  unfold longStep
  split
  next h =>
    have hc := coOnly_loopEnd { k with long := none } l.next
    unfold longEnd
    dsimp only
    exact ⟨hc.g, hc.p, hc.v, hc.acc, hc.cyc, fun off ho => (rdCo_congr rfl off).trans ((rdCo_loopEnd_of_ne ho).trans (rdCo_congr rfl off)),
      iff_of_true hc.long h⟩
  next h => exact ⟨rfl, rfl, rfl, rfl, rfl, fun off _ => rdCo_congr rfl off, iff_of_false nofun h⟩

theorem rdP_setP (k : Coach) (i j : Nat) (v : W32) : rdP (setP k i v) j = if j = i then v else rdP k j := tget_tput ..

/-- Only pointers of the coach differ. -/
def POnly (k m : Coach) : Prop := m = { k with p := m.p }

theorem POnly.setP {m : Coach} (h : POnly k m) (i : Nat) (v : W32) : POnly k (setP m i v) := by
  unfold POnly at *
  rw [h]
  rfl
theorem POnly.ite {q : Prop} [Decidable q] {m n : Coach} (hm : POnly k m) (hn : POnly k n) : POnly k (if q then m else n) := by
  split
  · exact hm
  · exact hn

/-- An element or a group changes the pointers and the count alone. -/
theorem longAdvance_eq (k : Coach) (l : LongOp) (words cnt : Nat) :
    longAdvance k l words cnt = { k with p := (longAdvance k l words cnt).p, g := tput 0 k.g l.gn (rdG k l.gn - n32 cnt) } := by
  have h (m : Coach) (hm : POnly k m) :
      ({ m with g := tput 0 m.g l.gn (rdG k l.gn - n32 cnt) } : Coach) = { k with p := m.p, g := tput 0 k.g l.gn (rdG k l.gn - n32 cnt) } := by
    unfold POnly at hm
    rw [hm]
  have hself : POnly k k := rfl
  have hsource : POnly k (if l.kind = 1 then k else setP k l.ra (rdP k l.ra + n32 words)) := .ite hself (hself.setP _ _)
  unfold longAdvance
  exact h _ (.ite (hsource.setP _ _) (.ite hsource (hsource.setP _ _)))

section
variable (k : Coach) (l : LongOp) (words cnt : Nat)

theorem longAdvance_v : (longAdvance k l words cnt).v = k.v := by rw [longAdvance_eq]
theorem longAdvance_acc : (longAdvance k l words cnt).acc = k.acc := by rw [longAdvance_eq]
theorem longAdvance_cyc : (longAdvance k l words cnt).cyc = k.cyc := by rw [longAdvance_eq]
theorem longAdvance_co : (longAdvance k l words cnt).co = k.co := by rw [longAdvance_eq]
theorem rdG_longAdvance : rdG (longAdvance k l words cnt) l.gn = rdG k l.gn - n32 cnt := by
  rw [longAdvance_eq]
  exact tget_tput_same ..

end

theorem rdP_withG (k : Coach) (g : Table W32) (i : Nat) : rdP { k with g := g } i = rdP k i := rfl

/-- The destination pointer of a block operation advances. -/
theorem rdP_longAdvance_rb (k : Coach) (words cnt : Nat) (hk : l.kind = 1 ∨ (l.kind = 0 ∧ l.ra ≠ l.rb)) :
    rdP (longAdvance k l words cnt) l.rb = rdP k l.rb + n32 words := by
  unfold longAdvance
  rcases hk with hk | ⟨hk, hne⟩
  · simp only [hk, if_true, Nat.one_ne_zero, OfNat.one_ne_ofNat, if_false, decide_false, Bool.false_and, Bool.false_eq_true, rdP_withG, rdP_setP]
  · simp only [hk, hne, OfNat.zero_ne_ofNat, zero_ne_one, if_false, decide_true, decide_false, Bool.and_false, Bool.false_eq_true, rdP_withG, rdP_setP, if_true,
      hne.symm]

/-- The source pointer of a block move, and the sample pointer of a filter, advance. -/
theorem rdP_longAdvance_ra (k : Coach) (words cnt : Nat) (hk : (l.kind = 0 ∧ l.ra ≠ l.rb) ∨ (l.kind = 2 ∧ l.ra ≠ l.ry)) :
    rdP (longAdvance k l words cnt) l.ra = rdP k l.ra + n32 words := by
  unfold longAdvance
  rcases hk with ⟨hk, hne⟩ | ⟨hk, hne⟩
  · simp only [hk, hne, OfNat.zero_ne_ofNat, zero_ne_one, if_false, decide_true, decide_false, Bool.and_false, Bool.false_eq_true, rdP_withG, rdP_setP, if_true]
  · simp only [hk, hne, OfNat.ofNat_ne_one, if_false, rdP_withG, rdP_setP, if_true]

/-- The output pointer of a filter advances. -/
theorem rdP_longAdvance_ry (k : Coach) (words cnt : Nat) (hk : l.kind = 2) (hne : l.ra ≠ l.ry) :
    rdP (longAdvance k l words cnt) l.ry = rdP k l.ry + n32 words := by
  unfold longAdvance
  simp only [hk, hne.symm, OfNat.ofNat_ne_one, if_false, rdP_withG, rdP_setP, if_true]

/-! ### BLK_ELEMENT -/

/-- The registers of an element or a group that has completed in `n` cycles. -/
theorem stepped_passTime (k : Coach) (l m : LongOp) (n st : Nat) :
    let q := longStep (passTime k n st) l
    q.g = k.g ∧ q.p = k.p ∧ q.v = k.v ∧ q.acc = k.acc ∧ q.cyc = k.cyc + n ∧ (q.long = none ↔ rdG k l.gn = 0) ∧ rdCo q 0x200 = rdCo k 0x200 := by
  have h := stepped_longStep (passTime k n st) l
  refine ⟨h.g.trans (passTime_g ..), h.p.trans (passTime_p ..), h.v.trans (passTime_v ..), h.acc.trans (passTime_acc ..), h.cyc.trans (passTime_cyc ..), ?_,
    (h.co _ (by decide)).trans (rdCo_passTime (by decide) ..)⟩
  rw [h.long]
  unfold rdG
  rw [passTime_g]

theorem aBlockElementMoves : Clause.ABlockElementMoves := by
  intro s c l hc hl hk hin k n r w
  have hop : blkOp s c = blkElem s c l true := by
    unfold blkOp
    simp only [hl, hin, show l.kind ≠ 2 by omega, decide_false, Bool.not_true, Bool.or_self, Bool.false_eq_true, if_false]
  have hexec : exec (.blkElement c) s = .next (blkElem s c l true) := (act_wf (decide_eq_true hc)).trans (congrArg _ hop)
  refine ⟨fun hr hw hra => ?_, fun f hf => ?_, fun f hr hf => ?_⟩
  · obtain ⟨st, hel⟩ : ∃ st, blkElem s c l true = setCo w.1 c (longStep (passTime (longAdvance (co w.1 c) l n 1) 1 st) l) := by
      unfold blkElem
      dsimp only
      rw [show (ite (l.kind = 0) _ _ : State × Option (Nat × Nat) × Nat).2.1 = none from hr]
      dsimp only
      rw [show (longAccess _ c .store _ _ _).2.1 = none from hw]
      exact ⟨_, rfl⟩
    obtain ⟨hg, hp, hv, -, hcyc, hlong, -⟩ := stepped_passTime (longAdvance (co w.1 c) l n 1) l l 1 st
    have hblk : l.kind = 1 ∨ (l.kind = 0 ∧ l.ra ≠ l.rb) := by omega
    refine ⟨_, hexec.trans (congrArg _ hel), rfl, fun d hd => (co_setCo ..).trans (if_neg hd), ?_⟩
    rw [co_setCo_same]
    have hgn : rdG (longStep (passTime (longAdvance (co w.1 c) l n 1) 1 st) l) l.gn = rdG (co w.1 c) l.gn - 1 := by
      unfold rdG
      rw [hg]
      exact rdG_longAdvance ..
    refine ⟨hgn.trans rfl, (congrArg (tget 0 · l.rb) hp).trans (rdP_longAdvance_rb _ _ _ hblk), fun h0 => ?_, hcyc.trans (congrArg (· + 1) (longAdvance_cyc ..)), ?_,
      hv.trans (longAdvance_v ..)⟩
    · exact (congrArg (tget 0 · l.ra) hp).trans (rdP_longAdvance_ra _ _ _ (.inl ⟨h0, by omega⟩))
    · rw [hlong, hgn, rdG_longAdvance]
      rfl
  · have hel : blkElem s c l true = setCo r.1 c (longFault (co r.1 c) l f.1 f.2 0 (rdP k l.ra).toNat) := by
      unfold blkElem
      dsimp only
      rw [show (ite (l.kind = 0) _ _ : State × Option (Nat × Nat) × Nat).2.1 = some f from hf]
    obtain ⟨x, hx, he, hcd, hg, hp⟩ := longFault_raises (co r.1 c) l f.1 f.2 0 (rdP k l.ra).toNat
    refine ⟨_, x, hexec.trans (congrArg _ hel), ?_⟩
    rw [co_setCo_same]
    exact ⟨hx, he, hcd, hg, hp⟩
  · have hel : blkElem s c l true = setCo w.1 c (longFault (co w.1 c) l f.1 f.2 1 (rdP k l.rb).toNat) := by
      unfold blkElem
      dsimp only
      rw [show (ite (l.kind = 0) _ _ : State × Option (Nat × Nat) × Nat).2.1 = none from hr]
      dsimp only
      rw [show (longAccess _ c .store _ _ _).2.1 = some f from hf]
    obtain ⟨x, hx, he, hcd, hg, hp⟩ := longFault_raises (co w.1 c) l f.1 f.2 1 (rdP k l.rb).toNat
    refine ⟨_, x, hexec.trans (congrArg _ hel), ?_⟩
    rw [co_setCo_same]
    exact ⟨hx, he, hcd, hg, hp⟩

/-! ### VFIRB_GROUP -/

theorem aVfirbGroupIsStored : Clause.AVfirbGroupIsStored := by
  intro s c l hc hl hk hin k gc m t0 w ln x h ys num o
  have hexec : exec (.vfirbGroup c) s = .next (vfirbOp s c) := act_wf (decide_eq_true hc)
  have hgo : (decide (l.kind ≠ 2) || !inLong s c (co s c)) = false := by simp [hk, hin]
  refine ⟨fun hx hh ho hne => ?_, fun f hf => ?_⟩
  · obtain ⟨st, hel⟩ : ∃ st, vfirbOp s c = setCo o.1 c (longStep (passTime (wrCo (longAdvance (co o.1 c) { l with rb := l.ra } 8 ln) 0x200
        (rdCo (co o.1 c) 0x200 ||| n32 (ys.foldl (fun r y => r ||| y.2) 0))) (if isLead c then t0 / 2 + 2 else t0 / 4 + 1) st) l) := by
      unfold vfirbOp
      dsimp only
      rw [hl]
      dsimp only
      rw [hgo, if_neg Bool.false_ne_true]
      rw [show (longLines c (rdP (co s c) l.ra).toNat _ s #[]).2.1 = none from hx]
      dsimp only
      rw [show (longLines c (rdP (co s c) l.rb).toNat _ _ #[]).2.1 = none from hh]
      dsimp only
      rw [show (longAccess _ c .store _ _ _).2.1 = none from ho]
      exact ⟨_, rfl⟩
    generalize hv : n32 (ys.foldl (fun r y => r ||| y.2) 0) = v at hel ⊢
    generalize hn : (if isLead c then t0 / 2 + 2 else t0 / 4 + 1) = n at hel ⊢
    generalize hadv : longAdvance (co o.1 c) { l with rb := l.ra } 8 ln = q at hel
    obtain ⟨hg, hp, -, hacc, hcyc, -, hco⟩ := stepped_passTime (wrCo q 0x200 (rdCo (co o.1 c) 0x200 ||| v)) l l n st
    have hq := coOnly_wrCo q 0x200 (rdCo (co o.1 c) 0x200 ||| v)
    refine ⟨_, hexec.trans (congrArg _ hel), rfl, fun d hd => (co_setCo ..).trans (if_neg hd), ?_⟩
    rw [co_setCo_same]
    refine ⟨(congrArg (tget 0 · l.gn) (hg.trans hq.g)).trans ?_, (congrArg (tget 0 · l.ra) (hp.trans hq.p)).trans ?_,
      (congrArg (tget 0 · l.ry) (hp.trans hq.p)).trans ?_, hco.trans (rdCo_wrCo_same ..), hcyc.trans ?_, hacc.trans (hq.acc.trans ?_)⟩
    · rw [← hadv]
      exact rdG_longAdvance (co o.1 c) { l with rb := l.ra } 8 ln
    · rw [← hadv]
      exact rdP_longAdvance_ra (l := { l with rb := l.ra }) _ 8 ln (.inr ⟨hk, hne⟩)
    · rw [← hadv]
      exact rdP_longAdvance_ry (l := { l with rb := l.ra }) _ 8 ln hk hne
    · rw [hq.cyc, ← hadv, longAdvance_cyc]
    · rw [← hadv, longAdvance_acc]
  · have hel : vfirbOp s c = setCo x.1 c (longFault (co x.1 c) l f.1 f.2.1 0 f.2.2) := by
      unfold vfirbOp
      dsimp only
      rw [hl]
      dsimp only
      rw [hgo, if_neg Bool.false_ne_true]
      rw [show (longLines c (rdP (co s c) l.ra).toNat _ s #[]).2.1 = some f from hf]
    obtain ⟨q, hq, he, hcd, hg, hp⟩ := longFault_raises (co x.1 c) l f.1 f.2.1 0 f.2.2
    refine ⟨_, q, hexec.trans (congrArg _ hel), ?_⟩
    rw [co_setCo_same]
    exact ⟨hq, he, hcd, hg, hp⟩

/-- Settles O21. -/
theorem longOperationsAdvance : Obligations.LongOperationsAdvance := ⟨aBlockElementMoves, aVfirbGroupIsStored⟩

end Sys2Proof.Machine
end

section
/-! What the fetch unit and the landing of results change of a coach (R45, R47, R171 to R176), and the commands that read or store
its registers from outside. -/
namespace Sys2Proof.Machine

variable {s : State} {c : Nat} {k l : Coach}

/-- Beside the register files, the CO_ registers and the fetch unit's own state nothing of the coach differs. -/
def SettlesOnly (k l : Coach) : Prop :=
  l = { k with g := l.g, p := l.p, n := l.n, v := l.v, acc := l.acc, co := l.co, pend := l.pend, coPend := l.coPend, precise := l.precise,
               cdone := l.cdone, counters := l.counters, rs := l.rs, rsTop := l.rsTop, wrong := l.wrong }

/-- What lands and what fetch does before it: nothing new comes on its way. -/
structure Settles (k l : Coach) : Prop where
  only : SettlesOnly k l
  pend : ∀ p ∈ l.pend, p ∈ k.pend

theorem Settles.refl (k : Coach) : Settles k k := ⟨rfl, fun _ => id⟩
theorem Settles.trans {m : Coach} (h : Settles k l) (g : Settles l m) : Settles k m := by
  obtain ⟨h1, h2⟩ := h
  obtain ⟨g1, g2⟩ := g
  refine ⟨?_, fun p hp => h2 p (g2 p hp)⟩
  unfold SettlesOnly at *
  refine g1.trans ?_
  rw [h1]
theorem Settles.foldl {α : Type} (f : Coach → α → Coach) (h : ∀ k a, Settles k (f k a)) (xs : List α) (k : Coach) : Settles k (xs.foldl f k) := by
  induction xs generalizing k with
  | nil => exact .refl k
  | cons a r ih => exact (h k a).trans (ih (f k a))
theorem Settles.ite {p : Prop} [Decidable p] {m : Coach} (hl : Settles k l) (hm : Settles k m) : Settles k (if p then l else m) := by
  split
  · exact hl
  · exact hm
theorem settles_wrCo (k : Coach) (off : Nat) (v : W32) : Settles k (wrCo k off v) := ⟨rfl, fun _ => id⟩
theorem settles_setCoF (k : Coach) (off lo w v : Nat) : Settles k (setCoF k off lo w v) := settles_wrCo k off _
theorem settles_perfAdd (k : Coach) (off n : Nat) : Settles k (perfAdd k off n) := settles_wrCo k off _
theorem settles_precise (k : Coach) (q : Option Precise) : Settles k { k with precise := q } := ⟨rfl, fun _ => id⟩
theorem settles_wrong (k : Coach) (q : Option Bubbles) : Settles k { k with wrong := q } := ⟨rfl, fun _ => id⟩
theorem settles_cdone (k : Coach) (q : Option Bool) : Settles k { k with cdone := q } := ⟨rfl, fun _ => id⟩
theorem settles_coPend (k : Coach) (q : List CoStore) : Settles k { k with coPend := q } := ⟨rfl, fun _ => id⟩
theorem settles_filter (k : Coach) (f : Pend → Bool) : Settles k { k with pend := k.pend.filter f } := ⟨rfl, fun _ hp => List.mem_of_mem_filter hp⟩

theorem settles_coWrite (k : Coach) (c : Nat) (h : Option Nat) (off : Nat) (v : W32) : Settles k (coWrite c h k off v) := by
  unfold coWrite
  split
  · exact .refl k
  · with_reducible refine .ite (settles_wrCo ..) ?_
    with_reducible refine .ite (settles_cdone ..) ?_
    exact .ite ((settles_wrCo ..).trans (settles_setCoF ..)) (settles_wrCo ..)

theorem settles_landOne (k : Coach) (p : Pend) : Settles k (landOne k p) := by
  unfold landOne
  cases p.file <;> exact ⟨rfl, fun _ => id⟩

theorem settles_landFlags (k : Coach) (p : Pend) : Settles k (landFlags k p) := by
  have h : ∀ a b d, Settles k (wrCo (wrCo (wrCo k 0x102 a) 0x200 b) 0x280 d) := fun _ _ _ => ⟨rfl, fun _ => id⟩
  unfold landFlags
  exact .ite ((h _ _ _).trans (settles_precise ..)) (h _ _ _)

theorem settles_landImprecise (k : Coach) (ps : List Pend) : Settles k (landImprecise k ps) := by
  unfold landImprecise
  dsimp only
  split
  · exact .refl k
  · exact .ite (settles_wrCo ..) ((settles_setCoF ..).trans ((settles_wrCo ..).trans (settles_wrCo ..)))

theorem settles_landGroup (k : Coach) (ps : List Pend) : Settles k (landGroup k ps) := by
  have h : ∀ xs : List Pend, Settles k (landImprecise (xs.foldl landFlags (xs.foldl landOne k)) xs) := fun xs =>
    ((Settles.foldl _ settles_landOne xs k).trans (.foldl _ settles_landFlags xs _)).trans (settles_landImprecise _ _)
  unfold landGroup
  dsimp only
  split
  · exact h _
  · exact .ite ((h _).trans (settles_precise ..)) ((h _).trans (settles_setCoF ..))

theorem settles_landAt (k : Coach) (c : Nat) (h : Option Nat) (t : Nat) : Settles k (landAt c h k t) := by
  have hco : Settles k ((k.coPend.filter (fun e => decide (e.due = t))).foldl (fun k e => coWrite c h k e.off e.val)
      { k with coPend := k.coPend.filter (fun e => decide (e.due ≠ t)) }) :=
    (settles_coPend ..).trans (.foldl _ (fun k (e : CoStore) => settles_coWrite k c h e.off e.val) _ _)
  unfold landAt
  exact .ite (hco.trans (settles_filter ..)) ((hco.trans (settles_filter ..)).trans (settles_landGroup ..))

theorem settles_landUpto (c : Nat) (h : Option Nat) (n t : Nat) (k : Coach) : Settles k (landUpto c h n k t) := by
  induction n generalizing k with
  | zero => exact .refl k
  | succ n ih =>
    unfold landUpto
    split
    · exact .ite ((settles_landAt ..).trans (ih _)) (.refl k)
    · exact .refl k

theorem settles_predict (k : Coach) (a next : Nat) (o : Option Op) : Settles k (predict k a next o).1 := by
  unfold predict
  split
  · split <;> exact ⟨rfl, fun _ => id⟩
  all_goals exact ⟨rfl, fun _ => id⟩

theorem settles_decoded (k : Coach) (off : Bool) (a next : Nat) (o : Option Op) :
    Settles k (if off then (k, 0, false, none) else predict k a next o).1 := by
  cases off
  · exact settles_predict ..
  · exact .refl k

/-- A bubble cycle settles what is due by it and uses up one of the cycles left. -/
theorem settles_bubbleStep (s : State) (c : Nat) (k : Coach) : Settles k (bubbleStep s c k) := by
  unfold bubbleStep
  split
  · exact .refl k
  next w _ =>
    have h := (settles_landUpto c (holdOf s c) (k.pend.length + k.coPend.length) (Nat.min w.cyc k.cyc) k).trans (settles_perfAdd _ 0x60A 1)
    have hgo := h.trans ((settles_perfAdd _ 0x602 1).trans (settles_perfAdd _ 0x604 1))
    split
    · exact settles_wrong ..
    · dsimp only
      split
      · exact h.trans (settles_wrong ..)
      · split
        · exact h.trans (settles_wrong ..)
        · exact (hgo.trans (settles_decoded ..)).trans (settles_wrong ..)

/-- One bubble cycle fewer is left. -/
theorem wrong_bubbleStep (s : State) (c : Nat) {w : Bubbles} (h : k.wrong = some w) :
    (bubbleStep s c k).wrong = none ∨ ∃ x, (bubbleStep s c k).wrong = some x ∧ x.left < w.left := by
  have hgo (p : Option W32) (h0 : w.left ≠ 0) :
      (if w.left = 1 then none else some { cyc := w.cyc + 1, left := w.left - 1, path := p, off := w.off } : Option Bubbles) = none ∨
      ∃ x, (if w.left = 1 then none else some { cyc := w.cyc + 1, left := w.left - 1, path := p, off := w.off } : Option Bubbles) = some x ∧
        x.left < w.left := by
    split
    · exact .inl rfl
    · exact .inr ⟨_, rfl, Nat.sub_lt (Nat.pos_of_ne_zero h0) Nat.one_pos⟩
  unfold bubbleStep
  rw [h]
  dsimp only
  split
  · exact .inl rfl
  next h0 =>
    split
    · exact hgo _ h0
    · split
      · exact hgo _ h0
      · exact hgo _ h0

theorem settles_bubblesAll (s : State) (c : Nat) (k : Coach) : Settles k (bubblesAll s c k) := .foldl _ (fun k _ => settles_bubbleStep s c k) _ _
theorem settles_landNow (s : State) (c : Nat) (k : Coach) : Settles k (landNow s c k) := (settles_bubblesAll ..).trans (settles_landUpto ..)

theorem SettlesOnly.decoded (h : SettlesOnly k l) : l.decoded = k.decoded := by rw [h]
theorem SettlesOnly.pc (h : SettlesOnly k l) : l.pc = k.pc := by rw [h]
theorem SettlesOnly.cyc (h : SettlesOnly k l) : l.cyc = k.cyc := by rw [h]
theorem SettlesOnly.holdStart (h : SettlesOnly k l) : l.holdStart = k.holdStart := by rw [h]
theorem SettlesOnly.cycles (h : SettlesOnly k l) : l.cycles = k.cycles := by rw [h]

/-! ### FETCH_DECODE -/

theorem predOff_perfAdd (k : Coach) (n : Nat) : predOff (perfAdd k 0x602 n) = predOff k := by
  unfold predOff perfAdd coB coF
  rw [rdCo_wrCo, rdCo_wrCo, if_neg (by decide), if_neg (by decide)]

/-- Decoding of the bundle to come. -/
theorem decodePath_spec (k : Coach) (a : W32) (b : Bundle) : (∃ d, (decodePath k a b).decoded = some d ∧ d.addr = a ∧ d.on = !predOff k) ∧
    rdCo (decodePath k a b) 0x602 = rdCo k 0x602 + 1 ∧ (decodePath k a b).g = k.g ∧
    (predOff k = true → (decodePath k a b).counters = k.counters ∧ (decodePath k a b).rs = k.rs ∧ (decodePath k a b).rsTop = k.rsTop) := by
  have hco : rdCo (perfAdd k 0x602 1) 0x602 = rdCo k 0x602 + 1 := rdCo_wrCo_same ..
  unfold decodePath
  dsimp only
  rw [predOff_perfAdd]
  cases hp : predOff k with
  | true => exact ⟨⟨_, rfl, rfl, rfl⟩, hco, rfl, fun _ => ⟨rfl, rfl, rfl⟩⟩
  | false =>
    have hq : (predict (perfAdd k 0x602 1) a.toNat b.next (ctlOf b)).1.co = (perfAdd k 0x602 1).co ∧
        (predict (perfAdd k 0x602 1) a.toNat b.next (ctlOf b)).1.g = (perfAdd k 0x602 1).g := by
      unfold predict
      split
      · split <;> exact ⟨rfl, rfl⟩
      all_goals exact ⟨rfl, rfl⟩
    exact ⟨⟨_, rfl, rfl, rfl⟩, (rdCo_congr hq.1 0x602).trans hco, hq.2, nofun⟩

theorem fetchDecodesAhead : Clause.FetchDecodesAhead := by
  intro s c hc hrun hk
  have hexec : exec (.fetchDecode c) s = .next (fetchOp s c) := act_wf (decide_eq_true hc)
  have hgo : (!decide ((co s c).run = .running) || (co s c).ketch) = false := by rw [hrun, hk]; rfl
  refine ⟨fun hw hr hd hf => ?_, fun w hw => ?_⟩
  · have hop : fetchOp s c = setCo s c (decodePath (co s c) (co s c).pc (bundleAt s c (co s c).pc.toNat)) := by
      unfold fetchOp
      dsimp only
      rw [hgo, hw, hr, hd, hf]
      rfl
    obtain ⟨h1, h2, h3, h4⟩ := decodePath_spec (co s c) (co s c).pc (bundleAt s c (co s c).pc.toNat)
    refine ⟨_, hexec.trans (congrArg _ hop), onlyCoach_setCo .., ?_⟩
    rw [co_setCo_same]
    exact ⟨h1, h2, h3, (sameControl_decodePath ..).2.1, h4⟩
  · have hop : fetchOp s c = setCo s c (bubbleStep s c (co s c)) := by
      unfold fetchOp
      dsimp only
      rw [hgo, hw]
      rfl
    have hs := settles_bubbleStep s c (co s c)
    refine ⟨_, hexec.trans (congrArg _ hop), onlyCoach_setCo .., ?_⟩
    rw [co_setCo_same]
    exact ⟨hs.only.pc, hs.only.decoded, hs.pend, hs.only.cyc, wrong_bubbleStep s c hw⟩

/-! ### HOLD_MAX_READ and HEARTBEAT_STORE -/

theorem coInfo_heartbeat (c : Nat) (hc : c < 72) : (coInfo (isLead c) 0x500).isSome = true := by
  have h : (coInfo false 0x500).isSome = true := by decide
  rw [show isLead c = false by unfold isLead; rw [decide_eq_false (Nat.not_le.mpr hc), Bool.false_and]]
  exact h

theorem holdMaxAndHeartbeat : Clause.HoldMaxAndHeartbeat := by
  intro s c hc hp
  have hexec : exec (.heartbeatStore c) s = .next (heartbeatOp s c) := act_wf (decide_eq_true hc)
  refine ⟨?_, fun hr hf => hexec.trans (congrArg _ ?_), fun h72 hf hr => ?_, fun hf => hexec.trans (congrArg _ ?_)⟩
  · have hop : holdMaxOp s c = { setCo s c (wrCo (co s c) 0x006 0) with answer := rdCo (co s c) 0x006 } := by
      unfold holdMaxOp
      rw [if_pos hp]
      rfl
    refine ⟨_, (act_wf (decide_eq_true hc)).trans (congrArg _ hop), rfl, ?_, fun off ho => ?_, fun d hd => ?_, rfl⟩
    · exact (congrArg (rdCo · 0x006) (co_setCo_same ..)).trans (rdCo_wrCo_same ..)
    · exact (congrArg (rdCo · off) (co_setCo_same ..)).trans ((rdCo_wrCo ..).trans (if_neg ho))
    · exact (co_setCo ..).trans (if_neg hd)
  · unfold heartbeatOp
    rw [if_neg hf, decide_eq_false hr, Bool.and_false]
    rfl
  · have hop : heartbeatOp s c = setCo s c (wrCo (co s c) 0x500 (rdCo (co s c) 0x500 + 1)) := by
      obtain ⟨i, hi⟩ := Option.isSome_iff_exists.mp (coInfo_heartbeat c h72)
      unfold heartbeatOp coWrite
      rw [if_neg hf, hp, decide_eq_true hr, hi]
      rfl
    refine ⟨_, hexec.trans (congrArg _ hop), onlyCoach_setCo .., ?_⟩
    rw [co_setCo_same]
    exact ⟨rdCo_wrCo_same .., fun off ho => (rdCo_wrCo ..).trans (if_neg ho)⟩
  · unfold heartbeatOp
    rw [if_pos hf]

/-- Settles O24. -/
theorem fetchAndCoachRegisters : Obligations.FetchAndCoachRegisters := ⟨fetchDecodesAhead, holdMaxAndHeartbeat⟩

end Sys2Proof.Machine
end

section
/-! Events at drain points, hold-overruns and subnormal traps (R60, R151, R194 to R196, R213). -/
namespace Sys2Proof.Machine

variable {s : State} {c : Nat} {k : Coach}

theorem mayLeave_of (hp : coachPresent s c = true) (hr : k.run = .running) (ha : k.access = []) (hf : k.after = none) (he : k.exc = none) :
    mayLeave s c k = true := by
  unfold mayLeave
  rw [hp, hr, ha, hf, he]
  rfl

/-! ### EVENT_TAKEN -/

/-- A coach with no long operation has no elements to complete. -/
theorem blkFlush_none (h : (co s c).long = none) : blkFlush s c = s := by
  unfold blkFlush
  refine List.foldlRecOn (upto 4) _ (motive := fun t => t = s) rfl fun t ht _ _ => ?_
  subst ht
  rw [h]

/-- Where an event is due that is no hold-overrun, the elements loaded are completed and the event is taken. -/
theorem eventOp_taken {e : Nat} (hl : mayLeave s c (co s c) = true) :
    let k := landNow s c (co s c)
    let u := blkFlush (setCo s c k) c
    preciseReq k = none → trapDue k = false → eventDue s c k = some e → e ≠ 12 → (co u c).exc = none →
    eventOp s c = setCo u c (takeEvent u c (co u c)) := by
  intro k u hp ht he h12 hx
  unfold eventOp
  rw [hl]
  dsimp only
  rw [if_neg (by decide), show preciseReq (landNow s c (co s c)) = none from hp, show trapDue (landNow s c (co s c)) = false from ht]
  dsimp only
  rw [if_neg Bool.false_ne_true, show eventDue s c (landNow s c (co s c)) = some e from he]
  split
  next h => cases h
  next h => cases h; exact absurd rfl h12
  next => exact if_neg (by rw [show co _ c = co u c from rfl, hx]; exact Bool.false_ne_true)

/-- The exception that an event raises, in the drained coach. -/
theorem takeEvent_raises {u : State} {e : Nat} (he : eventDue u c k = some e) (h12 : e ≠ 12) (h100 : e ≠ 100) :
    let d := drain u c (stopLong k)
    ∃ x, (takeEvent u c k).exc = some x ∧ x.entry = e ∧ x.pc = d.pc ∧ (takeEvent u c k).pc = d.pc ∧ (takeEvent u c k).g = d.g ∧
      (takeEvent u c k).pend = d.pend ∧ (e = 9 → x.code = rfld (rdCo d 0x412) 8 8 ∧ x.apc = rdCo d 0x410) := by
  intro d
  unfold takeEvent
  rw [he]
  split
  next h => cases h
  next h => cases h; exact absurd rfl h12
  next h => cases h; exact absurd rfl h100
  next h =>
    cases h
    dsimp only [d]
    generalize drain u c (stopLong k) = d
    split
    next h9 => exact ⟨_, raiseExc_exc .., h9.symm, rfl, raiseExc_pc .., raiseExc_g .., rfl, fun _ => ⟨rfl, rfl⟩⟩
    next h9 =>
      split
      · exact ⟨_, raiseExc_exc .., rfl, rfl, raiseExc_pc .., raiseExc_g .., rfl, fun h => absurd h h9⟩
      · exact ⟨_, raiseExc_exc .., rfl, rfl, raiseExc_pc .., raiseExc_g .., rfl, fun h => absurd h h9⟩

theorem takeEvent_stops {u : State} (he : eventDue u c k = some 100) : takeEvent u c k = stoppedCoach (drain u c (stopLong k)) := by
  unfold takeEvent
  rw [he]
  rfl

/-! ### HOLD_OVERRUN -/

theorem stopLong_rdCo {off : Nat} (h : off ≠ 0x002) (k : Coach) : rdCo (stopLong k) off = rdCo k off := by
  unfold stopLong
  split
  · exact (rdCo_wrCo ..).trans (if_neg h)
  · rfl
theorem stopLong_ovhold (k : Coach) : coB (stopLong k) 0x002 10 = coB k 0x002 10 := by
  unfold stopLong
  split
  · unfold coB setCoF
    rw [rdCo_wrCo_same, rbit_setR _ _ _ _ _ (by decide)]
    rfl
  · rfl
theorem stopLong_holdStart (k : Coach) : (stopLong k).holdStart = k.holdStart := by
  unfold stopLong
  split <;> rfl
theorem stopLong_pend (k : Coach) : (stopLong k).pend = k.pend := by
  unfold stopLong
  split <;> rfl

/-- A coach whose hold run is over and whose job is spoiled. -/
def released (k : Coach) : Coach := spoilJob { k with holdStart := none, bound := .drain }
/-- The registers of a hold-overrun that began its run at `b`. -/
def overrunRegs (k : Coach) (b : Nat) : Coach :=
  wrCo (setCoF k 0x002 10 1 1) 0x006 (n32 (Nat.max (rdCo k 0x006).toNat (Nat.min (k.cycles - b) 65535)))
/-- The coach of a hold-overrun before the long operation under way stops. -/
def overran (k : Coach) (b : Nat) : Coach := released (overrunRegs k b)

theorem released_fields (k : Coach) : (released k).holdStart = none ∧ (released k).g = k.g ∧ (released k).pend = k.pend ∧ (released k).co = k.co := by
  unfold released spoilJob
  split
  · exact ⟨rfl, rfl, rfl, rfl⟩
  · exact ⟨rfl, rfl, rfl, rfl⟩

theorem holdOverrun_eq {b : Nat} (h : k.holdStart = some b) :
    holdOverrun k = raiseExc (stopLong (overran k b)) (excReq 12 0 (stopLong (overran k b)).pc (stopLong (overran k b)).lastPc) := by
  unfold holdOverrun
  rw [h]
  dsimp only
  rw [show rdCo (setCoF k 0x002 10 1 1) 0x006 = rdCo k 0x006 from (rdCo_wrCo ..).trans (if_neg (by decide))]
  rfl

theorem overran_max_lt (k : Coach) (b : Nat) : Nat.max (rdCo k 0x006).toNat (Nat.min (k.cycles - b) 65535) < 2 ^ 32 := by
  have h := (rdCo k 0x006).isLt
  exact Nat.max_lt.mpr ⟨h, Nat.lt_of_le_of_lt (Nat.min_le_right ..) (by decide)⟩

/-- What a hold-overrun shows and leaves. -/
theorem holdOverrun_spec {b : Nat} (h : k.holdStart = some b) : ∃ x, (holdOverrun k).exc = some x ∧ x.entry = 12 ∧ coB (holdOverrun k) 0x002 10 = true ∧
    (rdCo (holdOverrun k) 0x006).toNat = Nat.max (rdCo k 0x006).toNat (Nat.min (k.cycles - b) 65535) ∧ (holdOverrun k).holdStart = none ∧
    (holdOverrun k).g = k.g ∧ (holdOverrun k).pend = k.pend := by
  obtain ⟨h1, h2, h3, h4⟩ := released_fields (overrunRegs k b)
  have hco (off : Nat) : rdCo (overran k b) off = rdCo (overrunRegs k b) off := rdCo_congr h4 off
  rw [holdOverrun_eq h]
  refine ⟨_, raiseExc_exc .., rfl, (stopLong_ovhold _).trans ?_, ?_, (stopLong_holdStart _).trans h1,
    (raiseExc_g ..).trans ((stopLong_files _).1.trans h2),
    (stopLong_pend _).trans h3⟩
  · unfold coB
    rw [hco]
    unfold overrunRegs
    rw [rdCo_wrCo, if_neg (by decide)]
    unfold setCoF
    rw [rdCo_wrCo_same, rbit_setR _ _ _ _ _ (by decide)]
    rfl
  · refine (congrArg BitVec.toNat ((stopLong_rdCo (by decide) _).trans ((hco _).trans (rdCo_wrCo_same ..)))).trans ?_
    exact (BitVec.toNat_ofNat ..).trans (Nat.mod_eq_of_lt (overran_max_lt k b))

/-! ### SUBNORMAL_TRAP -/

theorem trapReq_entry {r : ExcReq} (h : trapReq k = some r) : r.entry = 11 := by
  unfold trapReq at h
  dsimp only at h
  split at h
  · cases h
  · cases h
    rfl

/-- The traps that are taken are gone; the files stay. -/
theorem dropTraps_fields (k : Coach) : (dropTraps k).g = k.g ∧ (dropTraps k).v = k.v ∧ (dropTraps k).acc = k.acc ∧ ∀ p ∈ (dropTraps k).pend, p ∈ k.pend := by
  unfold dropTraps
  dsimp only
  split
  · exact ⟨rfl, rfl, rfl, fun _ => id⟩
  · exact ⟨rfl, rfl, rfl, fun _ hp => List.mem_of_mem_filter hp⟩

/-- Settles O22. -/
theorem eventsRaiseTheirException : Obligations.EventsRaiseTheirException := by
  intro s c hc hp hr ha hf he k u d
  have hl := mayLeave_of hp hr ha hf he
  refine ⟨fun e hpk htk hek h12 hux heu => ?_, fun hlong => ?_, fun b hov hb => ?_, fun r hlong hne htw hrw => ?_⟩
  · have hexec : exec (.eventTaken c) s = .next (setCo u c (takeEvent u c (co u c))) :=
      (act_wf (decide_eq_true hc)).trans (congrArg _ (eventOp_taken hl hpk htk hek h12 hux))
    refine ⟨fun h100 => ?_, fun h100 => ⟨_, hexec, onlyCoach_setCo .., ?_⟩⟩
    · obtain ⟨x, hx⟩ := takeEvent_raises heu h12 h100
      refine ⟨_, x, hexec, onlyCoach_setCo .., ?_⟩
      rw [co_setCo_same]
      exact hx
    · rw [co_setCo_same, takeEvent_stops (h100 ▸ heu)]
      exact ⟨rfl, rfl, rfl, rfl, rfl⟩
  · exact blkFlush_none ((congrArg Coach.long (co_setCo_same ..)).trans hlong)
  · have hop : holdOp s c = setCo s c (holdOverrun k) := by
      unfold holdOp
      rw [hl, hr]
      dsimp only
      rw [if_neg (by decide), if_pos hov]
    obtain ⟨x, hx⟩ := holdOverrun_spec hb
    refine ⟨_, x, (act_wf (decide_eq_true hc)).trans (congrArg _ hop), onlyCoach_setCo .., ?_⟩
    rw [co_setCo_same]
    exact hx
  · have hrun : isRunning (co s c) = true := by
      unfold isRunning
      rw [hr, ha, hf, he, hlong]
      rfl
    obtain ⟨q, hq⟩ := Option.ne_none_iff_exists'.mp hne
    have hop : trapOp s c = setCo s c (raiseExc (dropTraps (if isPrecise (co s c) then issueTrapWait s c (co s c) else k)) r) := by
      unfold trapOp
      dsimp only
      rw [hrun, if_neg (by decide), hq]
      dsimp only
      rw [if_pos htw, hrw]
    obtain ⟨h1, h2, h3, h4⟩ := dropTraps_fields (if isPrecise (co s c) then issueTrapWait s c (co s c) else k)
    refine ⟨_, (act_wf (decide_eq_true hc)).trans (congrArg _ hop), onlyCoach_setCo .., ?_⟩
    rw [co_setCo_same]
    exact ⟨raiseExc_exc .., trapReq_entry hrw, (raiseExc_g ..).trans h1, (raiseExc_v ..).trans h2, (raiseExc_acc ..).trans h3, h4⟩

end Sys2Proof.Machine
end

section
/-! An access whose turn comes serves what waits before it at its port: of the coaches only the answers to what they wait for change
(R284, R290). -/
namespace Sys2Proof.Machine

variable {s t u : State}

/-- Of every coach only the accesses under way differ, and no access begins or is forgotten. -/
def OnlyAnswers (k l : Coach) : Prop := l = { k with access := l.access } ∧ l.access.length = k.access.length

theorem OnlyAnswers.refl (k : Coach) : OnlyAnswers k k := ⟨rfl, rfl⟩
theorem OnlyAnswers.trans {k l m : Coach} (h : OnlyAnswers k l) (g : OnlyAnswers l m) : OnlyAnswers k m :=
  ⟨g.1.trans (by rw [h.1]), g.2.trans h.2⟩

/-- Beside the memories, the registers, the interrupt sources and the answers to accesses under way nothing differs. -/
structure Served (s t : State) : Prop where
  rest : t = { s with coaches := t.coaches, mem := t.mem, regs := t.regs, intc := t.intc }
  coach : ∀ d, OnlyAnswers (co s d) (co t d)

theorem Served.of_coaches (h : t = { s with mem := t.mem, regs := t.regs, intc := t.intc }) : Served s t := by
  refine ⟨by rw [h], fun d => ?_⟩
  have hd : co t d = co s d := by
    unfold co
    rw [h]
  rw [hd]
  exact .refl _
theorem Served.refl (s : State) : Served s s := .of_coaches rfl
theorem Served.trans (h : Served s t) (g : Served t u) : Served s u :=
  ⟨by rw [g.rest, h.rest], fun d => (h.coach d).trans (g.coach d)⟩
theorem SameOutside.served (h : SameOutside s t) : Served s t := by
  unfold SameOutside at h
  exact .of_coaches (by rw [h])
theorem SourceOnly.served {n : Nat} (h : SourceOnly n s t) : Served s t := .of_coaches (by rw [h.rest])
theorem Served.ite {p : Prop} [Decidable p] (ht : Served s t) (hu : Served s u) : Served s (if p then t else u) := by
  split
  · exact ht
  · exact hu
theorem Served.foldl {α : Type} (f : State → α → State) (h : ∀ s a, Served s (f s a)) (xs : List α) (s : State) : Served s (xs.foldl f s) := by
  induction xs generalizing s with
  | nil => exact .refl s
  | cons a r ih => exact (h s a).trans (ih (f s a))
theorem served_setCo (s : State) (m : Nat) (l : List Access) (h : l.length = (co s m).access.length) : Served s (setCo s m { co s m with access := l }) := by
  refine ⟨rfl, fun d => ?_⟩
  rw [co_setCo]
  split
  next hd =>
    rw [hd]
    exact ⟨rfl, h⟩
  next => exact .refl _
theorem served_answerAccess (s : State) (m ld : Nat) (r : Answer) : Served s (answerAccess s m ld r) := served_setCo _ _ _ (List.length_map _)
theorem served_noteRefused (s : State) (m ld n : Nat) : Served s (noteRefused s m ld n) := served_setCo _ _ _ (List.length_map _)
theorem served_setReqs (s : State) (po : Nat) (l : List BankReq) : Served s (setReqs s po l) := .of_coaches rfl
theorem served_refuseOthers (s : State) (po : Nat) (r : Option BankReq) : Served s (refuseOthers s po r) := served_setReqs ..

theorem OfferOnly.coaches (h : OfferOnly s t) : t.coaches = s.coaches := by rw [h.rest]
theorem OfferOnly.co_eq (h : OfferOnly s t) (c : Nat) : co t c = co s c := congrArg (tget Coach.reset · c) h.coaches
theorem pulse_coaches (s : State) (n : Nat) : (pulse s n).coaches = s.coaches := (sourceOnly_pulse s n).coaches

theorem served_epochRefuse (s : State) (m a : Nat) : Served s (epochRefuse s m a) := by
  have hset : Served s (setRegB s memStat 1 true) := .of_coaches rfl
  have hflag : Served s (memFlag s 1) := hset.trans (sourceOnly_pulse ..).served
  unfold epochRefuse
  exact hflag.trans ((SameOutside.mem (.refl _) _).trans (sameOutside_errReport ..)).served

theorem served_dramRefused (s : State) (kind : Nat) : Served s (dramRefused s kind) := by
  unfold dramRefused
  exact .ite (.of_coaches rfl) (.refl s)

theorem served_serveAccess (s : State) (po : Nat) (r : BankReq) (a : Access) : Served s (serveAccess s po r a) := by
  have hn := served_noteRefused s r.master r.ld r.refusals
  unfold serveAccess
  dsimp only
  split
  · with_reducible refine .ite ?_ ?_
    · exact ((hn.trans (served_epochRefuse ..)).trans (served_setReqs ..)).trans (served_answerAccess ..)
    · with_reducible refine .ite ?_ ?_
      · exact ((hn.trans (served_dramRefused ..)).trans (served_setReqs ..)).trans (served_answerAccess ..)
      · with_reducible refine .ite ?_ ?_
        · exact hn.trans (SameOutside.mem (sameOutside_bankAccess ..) _).served
        · exact ((hn.trans (sameOutside_bankAccess ..).served).trans (served_setReqs ..)).trans (served_answerAccess ..)
  · exact (hn.trans (served_setReqs ..)).trans (served_answerAccess ..)

theorem sameOutside_writeBackOne (s : State) (bk : Nat) : SameOutside s (writeBackOne s bk) := by
  unfold writeBackOne
  split
  · exact .refl s
  · dsimp only
    split
    · exact (SameOutside.mem (.refl s) _).trans (sameOutside_rewriteLine ..)
    · exact SameOutside.mem (.refl s) _

theorem served_portCycle (s : State) (po : Nat) : Served s (portCycle s po) := by
  unfold portCycle
  with_reducible refine .ite (served_refuseOthers ..) ?_
  with_reducible refine .ite ((sameOutside_writeBackOne ..).served.trans (served_refuseOthers ..)) ?_
  split
  · exact .refl s
  · dsimp only
    split
    · exact (served_refuseOthers ..).trans (served_serveAccess ..)
    · exact (served_refuseOthers ..).trans (served_setReqs ..)

theorem sameOutside_flushMerge (s : State) (lk m : Nat) : SameOutside s (flushMerge s lk m) := by
  unfold flushMerge
  split
  · exact sameOutside_writeOutEntry ..
  · exact .refl s

theorem served_reconFailed (s : State) (po : Nat) (q : BankReq) (a : Access) : Served s (reconFailed s po q a) := by
  unfold reconFailed
  refine .trans (.trans ?_ (served_setReqs ..)) (served_answerAccess ..)
  refine .ite (.refl s) ?_
  split
  · exact (sameOutside_flushMerge ..).served
  · exact .refl s

theorem served_reconAnswer (s : State) (ok : Bool) (bk : Nat) (r : Recon) : Served s (reconAnswer s ok bk r) := by
  unfold reconAnswer
  split
  · exact .refl s
  · split
    · exact .refl s
    · exact .ite (.refl s) (served_reconFailed ..)

theorem served_reconNext (s : State) (bk : Nat) : Served s (reconNext s bk) := by
  unfold reconNext
  split
  · exact .refl s
  · exact (SameOutside.mem (.refl s) _).served.trans ((sameOutside_reconPage ..).served.trans (served_reconAnswer ..))

theorem served_portTurn (m cl n : Nat) (s : State) (po lost : Nat) : Served s (portTurn m cl n s po lost).1 := by
  induction n generalizing s lost with
  | zero => exact .refl s
  | succ n ih =>
    unfold portTurn
    dsimp only
    split
    · exact (served_reconNext ..).trans (ih ..)
    · split
      · exact ((sameOutside_writeBackOne ..).served.trans (served_refuseOthers ..)).trans (ih ..)
      · split
        · exact .refl s
        · split
          · exact (served_portCycle ..).trans (ih ..)
          · exact served_refuseOthers ..

theorem served_bulkTurn (s : State) (po : Nat) : Served s (bulkTurn s po) := by
  unfold bulkTurn
  exact .ite (.of_coaches rfl) (.ite (.of_coaches rfl) ((served_portCycle ..).trans (.of_coaches rfl)))

/-- An access whose turn comes. -/
theorem served_turnAccess (s : State) (cl po : Nat) (k : AccKind) (wk n data m : Nat) : Served s (turnAccess s cl po k wk n data m).st := by
  unfold turnAccess
  split
  · exact (served_bulkTurn ..).trans (sameOutside_bankAccessNow ..).served
  · exact (served_portTurn ..).trans (sameOutside_bankAccessNow ..).served

theorem Served.carts (h : Served s t) : t.carts = s.carts := by rw [h.rest]
theorem Served.dtime (h : Served s t) : t.dtime = s.dtime := by rw [h.rest]
theorem Served.variant (h : Served s t) : t.variant = s.variant := by rw [h.rest]
theorem Served.access_nil (h : Served s t) {c : Nat} (hc : (co s c).access = []) : (co t c).access = [] :=
  List.eq_nil_of_length_eq_zero ((h.coach c).2.trans (congrArg List.length hc))
/-- A coach with no access under way is not touched. -/
theorem Served.co_eq (h : Served s t) {c : Nat} (hc : (co s c).access = []) : co t c = co s c := by
  have h1 := (h.coach c).1
  rw [h.access_nil hc, ← hc] at h1
  exact h1
theorem Served.run (h : Served s t) (c : Nat) : (co t c).run = (co s c).run := by rw [(h.coach c).1]
theorem Served.g (h : Served s t) (c : Nat) : (co t c).g = (co s c).g := by rw [(h.coach c).1]
theorem Served.exc (h : Served s t) (c : Nat) : (co t c).exc = (co s c).exc := by rw [(h.coach c).1]
theorem Served.long (h : Served s t) (c : Nat) : (co t c).long = (co s c).long := by rw [(h.coach c).1]
theorem Served.haltCount (h : Served s t) (c : Nat) : (co t c).haltCount = (co s c).haltCount := by rw [(h.coach c).1]

end Sys2Proof.Machine
end

section
/-! Exception entry, and the entries that end in HALTED-FAULT (R197, R198, R203). -/
namespace Sys2Proof.Machine

variable {s : State} {c : Nat} {k : Coach} {r : ExcReq}

/-- The entry of the raised exception itself. -/
theorem entryOp_enters (hx : (co s c).exc = some r) (ha : (co s c).access = []) (he : entersNow s c r) :
    entryOp s c = enter (setCo s c (entryCoach s c)) c r := by
  unfold entryOp
  dsimp only
  rw [hx, ha]
  dsimp only
  rw [if_neg (by decide)]
  rcases he with h1 | ⟨ht, hp⟩
  · exact if_pos h1
  · rw [show trapReq { drain s c (co s c) with exc := none } = none from ht, show preciseReq { drain s c (co s c) with exc := none } = none from hp]
    exact ite_self _

/-! ### What an entry writes -/

/-- The status, the stack pointer and the exception registers of an entry. -/
def entryRegs (k : Coach) (r : ExcReq) (esp : Nat) : Coach :=
  wrCo (wrCo (wrCo (wrCo (wrCo (setCoF (setCoF k 0x002 1 1 1) 0x002 7 1 0) 0x402 (n32 esp)) 0x404 r.apc) 0x406 (causeWord r 0)) 0x408 (detail0 r)) 0x40A
    r.detail1
/-- Entry 9 clears the imprecise exception too. -/
def impCleared (k : Coach) (r : ExcReq) : Coach := if r.entry = 9 then wrCo (setCoF k 0x002 6 1 0) 0x412 0 else k
/-- A handler begins. -/
def handlerBegun (k : Coach) (r : ExcReq) (pc : W32) : Coach :=
  { k with pc := pc, run := .running, exc := none, bound := .none, decoded := none, handlers := k.handlers + 1,
           budgetDue := k.budgetDue && decide (r.entry ≠ 14) }
theorem enterRegs_eq (k : Coach) (r : ExcReq) (esp : Nat) (pc : W32) : enterRegs k r esp pc = handlerBegun (impCleared (entryRegs k r esp) r) r pc := rfl

theorem coOnly_entryRegs (k : Coach) (r : ExcReq) (esp : Nat) : CoOnly k (entryRegs k r esp) := by
  unfold entryRegs
  exact (((((((coOnly_setCoF ..).trans (coOnly_setCoF ..)).trans (coOnly_wrCo ..)).trans (coOnly_wrCo ..)).trans (coOnly_wrCo ..)).trans
    (coOnly_wrCo ..)).trans (coOnly_wrCo ..))
theorem coOnly_impCleared (k : Coach) (r : ExcReq) : CoOnly k (impCleared k r) := by
  unfold impCleared
  split
  · exact (coOnly_setCoF ..).trans (coOnly_wrCo ..)
  · rfl

/-- The registers that an entry writes, and those it leaves. -/
theorem rdCo_entryRegs (k : Coach) (r : ExcReq) (esp off : Nat) (h : off ≠ 0x002) : rdCo (entryRegs k r esp) off =
    if off = 0x40A then r.detail1 else if off = 0x408 then detail0 r else if off = 0x406 then causeWord r 0 else if off = 0x404 then r.apc else
    if off = 0x402 then n32 esp else rdCo k off := by
  unfold entryRegs setCoF
  simp only [rdCo_wrCo, h, if_false]
theorem coB_entryRegs (k : Coach) (r : ExcReq) (esp : Nat) : coB (entryRegs k r esp) 0x002 1 = true ∧ coB (entryRegs k r esp) 0x002 7 = false ∧
    coB (entryRegs k r esp) 0x002 6 = coB k 0x002 6 := by
  have hst : rdCo (entryRegs k r esp) 0x002 = setR (setR (rdCo k 0x002) 1 1 1) 7 1 0 := by
    unfold entryRegs setCoF
    rw [rdCo_wrCo, if_neg (by decide), rdCo_wrCo, if_neg (by decide), rdCo_wrCo, if_neg (by decide), rdCo_wrCo, if_neg (by decide), rdCo_wrCo,
      if_neg (by decide), rdCo_wrCo_same, rdCo_wrCo_same]
  unfold coB
  rw [hst]
  refine ⟨?_, ?_, ?_⟩
  · rw [rbit_setR _ _ _ _ _ (by decide), rbit_setR _ _ _ _ _ (by decide)]
    rfl
  · rw [rbit_setR _ _ _ _ _ (by decide)]
    rfl
  · rw [rbit_setR _ _ _ _ _ (by decide), rbit_setR _ _ _ _ _ (by decide)]
    rfl

theorem rdCo_impCleared (k : Coach) (r : ExcReq) (off : Nat) (h : off ≠ 0x002) (h2 : off ≠ 0x412) : rdCo (impCleared k r) off = rdCo k off := by
  unfold impCleared setCoF
  split
  · rw [rdCo_wrCo, if_neg h2, rdCo_wrCo, if_neg h]
  · rfl
theorem coB_impCleared (k : Coach) (r : ExcReq) {i : Nat} (hi : i < 32) (h6 : i = 6 → r.entry ≠ 9) : coB (impCleared k r) 0x002 i = coB k 0x002 i := by
  unfold impCleared setCoF coB
  split
  next h9 =>
    have hne : i ≠ 6 := fun h => h6 h h9
    rw [rdCo_wrCo, if_neg (by decide), rdCo_wrCo_same, rbit_setR _ _ _ _ _ hi]
    by_cases hlt : i < 6
    · rw [if_pos hlt]
    · rw [if_neg hlt, if_neg (by omega)]
  · rfl

theorem rdCo_handlerBegun (k : Coach) (r : ExcReq) (pc : W32) (off : Nat) : rdCo (handlerBegun k r pc) off = rdCo k off := rdCo_congr rfl off
theorem rdCo_enterRegs (k : Coach) (r : ExcReq) (esp : Nat) (pc : W32) (off : Nat) (h : off ≠ 0x002) (h2 : off ≠ 0x412) :
    rdCo (enterRegs k r esp pc) off = if off = 0x40A then r.detail1 else if off = 0x408 then detail0 r else if off = 0x406 then causeWord r 0 else
      if off = 0x404 then r.apc else if off = 0x402 then n32 esp else rdCo k off := by
  rw [enterRegs_eq, rdCo_handlerBegun, rdCo_impCleared _ _ _ h h2, rdCo_entryRegs _ _ _ _ h]
/-- What an entry leaves in the registers that it writes. -/
theorem rdCo_enterRegs_written (k : Coach) (r : ExcReq) (esp : Nat) (pc : W32) : rdCo (enterRegs k r esp pc) 0x402 = n32 esp ∧
    rdCo (enterRegs k r esp pc) 0x404 = r.apc ∧ rdCo (enterRegs k r esp pc) 0x406 = causeWord r 0 ∧ rdCo (enterRegs k r esp pc) 0x408 = detail0 r ∧
    rdCo (enterRegs k r esp pc) 0x40A = r.detail1 := by
  have h := rdCo_enterRegs k r esp pc
  refine ⟨?_, ?_, ?_, ?_, ?_⟩
  all_goals
    rw [h _ (by decide) (by decide)]
    simp only [Nat.reduceEqDiff, if_true, if_false]
theorem rdCo_enterRegs_kept (k : Coach) (r : ExcReq) (esp : Nat) (pc : W32) {off : Nat} (h : off = 0x000 ∨ off = 0x320) :
    rdCo (enterRegs k r esp pc) off = rdCo k off := by
  rcases h with rfl | rfl
  all_goals
    rw [rdCo_enterRegs _ _ _ _ _ (by decide) (by decide)]
    simp only [Nat.reduceEqDiff, if_false, OfNat.zero_ne_ofNat]
theorem coB_enterRegs (k : Coach) (r : ExcReq) (esp : Nat) (pc : W32) (i : Nat) (hi : i < 32) (h6 : i = 6 → r.entry ≠ 9) :
    coB (enterRegs k r esp pc) 0x002 i = coB (entryRegs k r esp) 0x002 i :=
  (congrArg (rbit · i) (rdCo_handlerBegun ..)).trans (coB_impCleared _ _ hi h6)

theorem CoOnly.haltCount {l : Coach} (h : CoOnly k l) : l.haltCount = k.haltCount := by rw [h]
theorem CoOnly.n {l : Coach} (h : CoOnly k l) : l.n = k.n := by rw [h]
theorem CoOnly.handlers {l : Coach} (h : CoOnly k l) : l.handlers = k.handlers := by rw [h]

theorem enterRegs_files (k : Coach) (r : ExcReq) (esp : Nat) (pc : W32) : (enterRegs k r esp pc).g = k.g ∧ (enterRegs k r esp pc).p = k.p ∧
    (enterRegs k r esp pc).n = k.n ∧ (enterRegs k r esp pc).v = k.v ∧ (enterRegs k r esp pc).acc = k.acc ∧ (enterRegs k r esp pc).cyc = k.cyc ∧
    (enterRegs k r esp pc).handlers = k.handlers + 1 := by
  have h : CoOnly k (impCleared (entryRegs k r esp) r) := (coOnly_entryRegs ..).trans (coOnly_impCleared ..)
  rw [enterRegs_eq]
  exact ⟨h.g, h.p, h.n, h.v, h.acc, h.cyc, congrArg (· + 1) h.handlers⟩

theorem enterRegs_begun (k : Coach) (r : ExcReq) (esp : Nat) (pc : W32) : (enterRegs k r esp pc).exc = none ∧ (enterRegs k r esp pc).run = .running ∧
    (enterRegs k r esp pc).pc = pc ∧ (enterRegs k r esp pc).bound = .none := by
  rw [enterRegs_eq]
  exact ⟨rfl, rfl, rfl, rfl⟩

/-- The coach after an entry, in terms of the one before it. -/
theorem enterRegs_passTime (k : Coach) (r : ExcReq) (esp n st : Nat) (pc : W32) :
    let q := enterRegs (passTime k n st) r esp pc
    q.exc = none ∧ q.run = .running ∧ q.pc = pc ∧ rdCo q 0x402 = n32 esp ∧ isSup q = true ∧ coB q 0x002 7 = false ∧ rdCo q 0x404 = r.apc ∧
      rdCo q 0x406 = causeWord r 0 ∧ rdCo q 0x408 = detail0 r ∧ rdCo q 0x40A = r.detail1 ∧ q.g = k.g ∧ q.p = k.p ∧ q.n = k.n ∧ q.v = k.v ∧ q.acc = k.acc ∧
      rdCo q 0x320 = rdCo k 0x320 ∧ rdCo q 0x000 = rdCo k 0x000 ∧ (r.entry ≠ 9 → coB q 0x002 6 = coB k 0x002 6) ∧ q.cyc = k.cyc + n ∧
      q.handlers = k.handlers + 1 ∧ q.bound = .none := by
  intro q
  obtain ⟨hx, hrun, hpc, hb⟩ := enterRegs_begun (passTime k n st) r esp pc
  obtain ⟨hg, hp, hn, hv, hacc, hcyc, hh⟩ := enterRegs_files (passTime k n st) r esp pc
  obtain ⟨r2, r4, r6, r8, rA⟩ := rdCo_enterRegs_written (passTime k n st) r esp pc
  have hkept (off : Nat) (h : off = 0x000 ∨ off = 0x320) := rdCo_enterRegs_kept (passTime k n st) r esp pc h
  obtain ⟨h1, h7, h6⟩ := coB_entryRegs (passTime k n st) r esp
  refine ⟨hx, hrun, hpc, r2, (coB_enterRegs _ _ _ _ 1 (by decide) nofun).trans h1, (coB_enterRegs _ _ _ _ 7 (by decide) nofun).trans h7, r4, r6, r8, rA,
    hg.trans (passTime_g ..), hp.trans (passTime_p ..), hn.trans (passTime_n ..), hv.trans (passTime_v ..), hacc.trans (passTime_acc ..),
    (hkept _ (.inr rfl)).trans (rdCo_passTime (by decide) ..), (hkept _ (.inl rfl)).trans (rdCo_passTime (by decide) ..), fun h9 => ?_,
    hcyc.trans (passTime_cyc ..), hh.trans (congrArg (· + 1) (passTime_handlers ..)), hb⟩
  exact (coB_enterRegs _ _ _ _ 6 (by decide) (fun _ => h9)).trans (h6.trans (congrArg (rbit · 6) (rdCo_passTime (by decide) ..)))

/-- An entry whose frame is pushed and whose handler can start. -/
theorem enter_pushes (s : State) (c : Nat) (r : ExcReq) {u : State} (hu : u = setCo s c (spoilBy (holdBudget (co s c) r) r))
    (hdf : coB (co u c) 0x40C 2 = false ∨ 32 ≤ r.entry) :
    ∀ esp p v, esp = frameBelow (rdCo (co u c) 0x402) → p = pushFrame u c esp (frameVals (co u c) r 0) → v = vectorOf p.1 c r.entry →
    pushOk u c esp = true → p.2 = 0 → v.2.2 = 0 →
    enter s c r = setCo v.1 c (enterRegs (passTime (co v.1 c) 9 (pushStall v.1 c esp)) r esp (n32 v.2.1)) := by
  intro esp p v hesp hpf hvec hok hp hv
  have hk : co u c = spoilBy (holdBudget (co s c) r) r := by rw [hu, co_setCo_same]
  have hd : (coB (co u c) 0x40C 2 && decide (r.entry < 32)) = false := by
    rcases hdf with h | h
    · rw [h, Bool.false_and]
    · rw [decide_eq_false (Nat.not_lt.mpr h), Bool.and_false]
  unfold enter
  dsimp only
  rw [← hu, ← hk, hd, if_neg Bool.false_ne_true, ← hesp, hok, Bool.not_true, if_neg Bool.false_ne_true, ← hpf, if_neg (not_not_intro hp), ← hvec, if_pos hv]

theorem entryState_eq (s : State) (c : Nat) (r : ExcReq) :
    entryState s c r = setCo (setCo s c (entryCoach s c)) c (spoilBy (holdBudget (co (setCo s c (entryCoach s c)) c) r) r) := by
  rw [co_setCo_same]
  rfl

theorem exceptionEntry : Clause.ExceptionEntry := by
  intro s c r hc hx ha u esp p v hin hdf hok hp hv
  have hop := (entryOp_enters hx ha hin).trans (enter_pushes _ c r (entryState_eq s c r) hdf esp p v rfl rfl rfl hok hp hv)
  refine ⟨_, (act_wf (decide_eq_true hc)).trans (congrArg _ hop), rfl, fun d hd => (co_setCo ..).trans (if_neg hd), ?_⟩
  rw [co_setCo_same]
  exact enterRegs_passTime ..

/-! ### HALTED-FAULT -/

theorem declareDead_coaches (s : State) (n why : Nat) : (declareDead s n why).coaches = s.coaches := by
  unfold declareDead
  dsimp only
  split
  · rfl
  · exact (pulse_coaches ..).trans (offerOnly_bbOffer ..).coaches

/-- L0's note of a halt marks the coach at most. -/
theorem noteHalt_coach (s : State) (c : Nat) : ∃ q b, co (noteHalt s c) c = { co s c with lastHalt := q, dead := b } := by
  unfold noteHalt
  split
  · dsimp only
    split
    · exact ⟨_, _, co_setCo_same ..⟩
    · exact ⟨_, _, rfl⟩
  · dsimp only
    split
    · split
      · exact ⟨_, _, congrArg (tget Coach.reset · c) (declareDead_coaches ..)⟩
      · exact ⟨_, _, rfl⟩
    · exact ⟨_, _, rfl⟩

/-- The coach of a halt, before its crash area is written. -/
def haltedCoach (k : Coach) : Coach :=
  passTime { k with run := .halted, exc := none, long := none, haltCount := incSat 16 k.haltCount, decoded := none } 8 0

/-- The crash area of a halt. -/
def crashWritten (s : State) (c : Nat) (vals : List W32) : State :=
  (upto 8).foldl (fun s i =>
    (turnAccess s 1 (portKey (bankKey (if c < 72 then 0 else 2) (if c < 72 then c else c - 72) 0) false) .store
      (wordKey (if c < 72 then 0 else 2) (if c < 72 then c else c - 72) (0x3FC0 + 8 * i)) 8 (valsNum ((vals.drop (4 * i)).take 4)) c).st) s
theorem served_crashWritten (s : State) (c : Nat) (vals : List W32) : Served s (crashWritten s c vals) := .foldl _ (fun _ _ => served_turnAccess ..) _ _

/-- The coach-fault signal of a processor that has one. -/
def haltSignalled (s : State) (c : Nat) : State := match haltSource c with | some n => setLevel s n true | none => s
theorem haltSignalled_coaches (s : State) (c : Nat) : (haltSignalled s c).coaches = s.coaches := by
  unfold haltSignalled
  split
  · exact (sourceOnly_setLevel ..).coaches
  · rfl

/-- The crash area is written, the signal raised and the black box's entry offered. -/
def haltReported (s : State) (c : Nat) (k : Coach) (r : ExcReq) (halt : Nat) : State :=
  bbHw (haltSignalled (crashWritten s c (crashVals k r halt)) c) c 0x0201 (causeWord r halt) r.apc (n32 k.cycles) (n32 k.haltCount)
theorem co_haltReported (s : State) (c : Nat) (k : Coach) (r : ExcReq) (halt d : Nat) :
    co (haltReported s c k r halt) d = co (crashWritten s c (crashVals k r halt)) d :=
  ((offerOnly_bbOffer ..).co_eq d).trans (congrArg (tget Coach.reset · d) (haltSignalled_coaches ..))

theorem haltCoach_eq (s : State) (c : Nat) (k : Coach) (r : ExcReq) (halt : Nat) :
    haltCoach s c k r halt = noteHalt (haltReported (setCo s c (haltedCoach k)) c (haltedCoach k) r halt) c := rfl

/-- What the coach's halt keeps through the crash area and L0's note. -/
theorem halted_fields {w u t : State} {q : Option Nat} {b : Bool} (hs : Served (setCo s c (haltedCoach k)) w) (hu : co u c = co w c)
    (ht : co t c = { co u c with lastHalt := q, dead := b }) :
    (co t c).run = .halted ∧ (co t c).exc = none ∧ (co t c).long = none ∧ (co t c).haltCount = incSat 16 k.haltCount ∧ (co t c).g = k.g := by
  have hk : co (setCo s c (haltedCoach k)) c = haltedCoach k := co_setCo_same ..
  rw [ht, hu]
  exact ⟨(hs.run c).trans ((congrArg Coach.run hk).trans (passTime_run ..)), (hs.exc c).trans ((congrArg Coach.exc hk).trans (passTime_exc ..)),
    (hs.long c).trans ((congrArg Coach.long hk).trans (passTime_long ..)), (hs.haltCount c).trans ((congrArg Coach.haltCount hk).trans (passTime_haltCount ..)),
    (hs.g c).trans ((congrArg Coach.g hk).trans (passTime_g ..))⟩

/-- The coach of a HALTED-FAULT. -/
theorem haltCoach_coach (s : State) (c : Nat) (k : Coach) (r : ExcReq) (halt : Nat) : (co (haltCoach s c k r halt) c).run = .halted ∧
    (co (haltCoach s c k r halt) c).exc = none ∧ (co (haltCoach s c k r halt) c).long = none ∧
    (co (haltCoach s c k r halt) c).haltCount = incSat 16 k.haltCount ∧ (co (haltCoach s c k r halt) c).g = k.g := by
  obtain ⟨q, b, hq⟩ := noteHalt_coach (haltReported (setCo s c (haltedCoach k)) c (haltedCoach k) r halt) c
  rw [haltCoach_eq]
  exact halted_fields (served_crashWritten ..) (co_haltReported ..) hq

theorem aFailedEntryHalts : Clause.AFailedEntryHalts := by
  intro s c r hc hx ha u hin hfail
  have hu : u = setCo (setCo s c (entryCoach s c)) c (spoilBy (holdBudget (co (setCo s c (entryCoach s c)) c) r) r) := entryState_eq s c r
  have hk : co u c = spoilBy (holdBudget (co (setCo s c (entryCoach s c)) c) r) r := by rw [hu, co_setCo_same]
  have hop : ∃ k h, entryOp s c = haltCoach u c k r h ∧ k.haltCount = (co u c).haltCount ∧ k.g = (co u c).g := by
    rw [entryOp_enters hx ha hin]
    unfold enter
    dsimp only
    rw [← hu, ← hk]
    split
    · exact ⟨_, _, rfl, rfl, rfl⟩
    next hd =>
      have hok : pushOk u c (frameBelow (rdCo (co u c) 0x402)) = false := by
        rcases hfail with ⟨h1, h2⟩ | h
        · exact absurd (by rw [h1, decide_eq_true h2]; rfl) hd
        · exact h
      have hc := coOnly_wrCo (co u c) 0x402 (n32 (frameBelow (rdCo (co u c) 0x402)))
      exact ⟨_, _, if_pos (by rw [hok]; rfl), hc.haltCount, hc.g⟩
  obtain ⟨k, h, hop, hcount, hg⟩ := hop
  obtain ⟨h1, h2, h3, h4, h5⟩ := haltCoach_coach u c k r h
  refine ⟨_, (act_wf (decide_eq_true hc)).trans (congrArg _ hop), h1, h2, h3, ?_, h5.trans hg⟩
  rw [h4, hcount]

/-- Settles O23. -/
theorem exceptionsAreEntered : Obligations.ExceptionsAreEntered := ⟨exceptionEntry, aFailedEntryHalts⟩

end Sys2Proof.Machine
end

section
/-! Releases of carts and the withdrawal of a late waiting job (R243 to R247, R255). -/
namespace Sys2Proof.Machine

variable {s t : State}

/-! ### Counts, queues, live carts, and what the wagons are told -/

theorem counts_cartCount (s : State) (v i m : Nat) :
    tget 0 (cartCount s v i).carts.counts m = tget 0 s.carts.counts m + if m = 8 * v + i then 1 else 0 := by
  unfold cartCount tmod
  dsimp only
  rw [tget_tput]
  split
  next h => rw [h]
  next => rfl

theorem cartLive_setLive (s : State) (v : Nat) (b : Bool) : cartLive (setLive s v b) v = b := by
  unfold cartLive setLive
  dsimp only
  rw [tget_tput_same]
  cases b <;> rfl

theorem queueOf_setQueue (s : State) (n m : Nat) (q : List Job) : queueOf (setQueue s n q) m = if m = n then q else queueOf s m := tget_tput ..

/-- A report to the wagons stands for its release. -/
theorem jobReport_tellWagons (s : State) (v k : Nat) (lost : Bool) : jobReport (tellWagons s v k lost) v k = some lost := by
  have h : tget 0 (tellWagons s v k lost).carts.ended (64 * v + k % 64) = 2 * k + b2n lost + 1 := by
    unfold tellWagons
    dsimp only
    rw [tget_tput_same]
  unfold jobReport
  dsimp only
  rw [h]
  cases lost with
  | false => exact if_pos rfl
  | true => exact (if_neg (show ¬ 2 * k + 1 + 1 = 2 * k + 1 by omega)).trans (if_pos rfl)

theorem jobReport_lostPeriod (s : State) (v k : Nat) : jobReport (lostPeriod s v k) v k = some true := jobReport_tellWagons ..

/-- A lost period leaves the queues, the counts, the graph and the carts that live alone. -/
theorem lostPeriod_rest (s : State) (v k : Nat) : lostPeriod s v k =
    { s with carts := { s.carts with ended := (lostPeriod s v k).carts.ended, lostNow := (lostPeriod s v k).carts.lostNow }, bb := (lostPeriod s v k).bb } := rfl

/-- Only the counts of a graph's instances differ. -/
def GraphOnly (s t : State) : Prop := t = { s with carts := { s.carts with graph := t.carts.graph } }

theorem GraphOnly.trans (h : GraphOnly s t) {u : State} (g : GraphOnly t u) : GraphOnly s u := by
  unfold GraphOnly at *
  rw [g, h]
theorem GraphOnly.foldl {α : Type} (f : State → α → State) (h : ∀ s a, GraphOnly s (f s a)) (xs : List α) (s : State) : GraphOnly s (xs.foldl f s) := by
  induction xs generalizing s with
  | nil => exact rfl
  | cons a r ih => exact (h s a).trans (ih (f s a))

theorem graphOnly_notifySucc (s : State) (v k : Nat) (lost : Bool) : GraphOnly s (notifySucc s v k lost) := by
  unfold notifySucc
  split
  · exact rfl
  · refine .foldl _ (fun s w => ?_) _ _
    exact rfl

/-! ### A release -/

theorem sortIns_perm {α : Type} (lt : α → α → Bool) (a : α) (xs : List α) : (sortIns lt a xs).Perm (a :: xs) := by
  induction xs with
  | nil => exact .refl _
  | cons b r ih =>
    unfold sortIns
    split
    · exact .refl _
    · exact (ih.cons b).trans (.swap a b r)

theorem queueOf_enqueue (s : State) (n m : Nat) (j : Job) : (queueOf (enqueue s n j) n).Perm (j :: queueOf s n) ∧
    (m ≠ n → queueOf (enqueue s n j) m = queueOf s m) := by
  refine ⟨?_, fun h => (queueOf_setQueue ..).trans (if_neg h)⟩
  unfold enqueue
  rw [queueOf_setQueue, if_pos rfl]
  exact sortIns_perm ..

/-- A state that a release begins in: only its own bookkeeping differs from `s`. -/
structure Releasing (s u : State) : Prop where
  rest : u = { s with carts := u.carts }
  table : u.carts.table = s.carts.table
  rehome : u.carts.rehome = s.carts.rehome
  live : u.carts.live = s.carts.live
  counts : u.carts.counts = s.carts.counts
  windows : u.carts.windows = s.carts.windows
  queues : u.carts.queues = s.carts.queues

variable {u : State} {v : Nat} {tt : Timetable} {c : Cart}

theorem Releasing.cartOf (h : Releasing s u) (v : Nat) : cartOf u v = cartOf s v := by
  unfold Machine.cartOf
  rw [h.table]
theorem Releasing.cartHome (h : Releasing s u) (v : Nat) : cartHome u v = cartHome s v := by
  unfold Machine.cartHome
  rw [h.cartOf, h.rehome]
theorem Releasing.cartLive (h : Releasing s u) (v : Nat) : cartLive u v = cartLive s v := by
  unfold Machine.cartLive
  rw [h.live]
theorem Releasing.queueOf (h : Releasing s u) (n : Nat) : queueOf u n = queueOf s n := by
  unfold Machine.queueOf
  rw [h.queues]

/-- The graph of a root's release begins. -/
def rootReleased (s : State) (tt : Timetable) (v k rel : Nat) : State :=
  { s with carts := { s.carts with
      lastRel := tput 0 s.carts.lastRel v (s.dtime + 1)
      graph := s.carts.graph ++ (reachOf tt v).map (fun w => { cart := w, left := (match tt.carts[w]? with | some x => x.pred | none => 0), plost := false, at_ := 0, k := k, rel := rel }) } }

theorem releaseCart_home (k rel h : Nat) (plost : Bool) (hc : cartOf u v = some c) (ht : u.carts.table = some tt) (hl : cartLive u v = false)
    (hh : cartHome u v = some h) :
    let x := setLive (cartCount u v 0) v true
    let y := if c.pred = 0 then rootReleased x tt v k rel else x
    releaseCart u v k rel plost =
      enqueue y h { cart := v, k := k, rel := rel, deadline := rel + cartD y v, plost := plost, stolen := false, home := h, spoiled := false } := by
  unfold releaseCart
  rw [hc, ht]
  dsimp only
  rw [hl, if_neg Bool.false_ne_true, hh]
  rfl

/-- The release of a cart that does not live and has a home. -/
theorem released_releaseCart (hr : Releasing s u) (k rel h : Nat) (plost : Bool) (hc : cartOf s v = some c) (ht : s.carts.table = some tt)
    (hl : cartLive s v = false) (hh : cartHome s v = some h) : Released s (releaseCart u v k rel plost) v k rel h plost := by
  rw [releaseCart_home k rel h plost ((hr.cartOf v).trans hc) (hr.table.trans ht) ((hr.cartLive v).trans hl) ((hr.cartHome v).trans hh)]
  have hx : ∀ y : State, y = setLive (cartCount u v 0) v true ∨ y = rootReleased (setLive (cartCount u v 0) v true) tt v k rel →
      Released s (enqueue y h { cart := v, k := k, rel := rel, deadline := rel + cartD y v, plost := plost, stolen := false, home := h, spoiled := false })
        v k rel h plost := by
    intro y hy
    have hrest : y = { s with carts := y.carts } ∧ cartLive y v = true ∧ y.carts.queues = u.carts.queues ∧ y.carts.windows = u.carts.windows ∧
        y.carts.counts = (cartCount u v 0).carts.counts := by
      have hlive := cartLive_setLive (cartCount u v 0) v true
      rcases hy with rfl | rfl
      · exact ⟨by rw [hr.rest]; rfl, hlive, rfl, rfl, rfl⟩
      · exact ⟨by rw [hr.rest]; rfl, hlive, rfl, rfl, rfl⟩
    obtain ⟨h1, h2, h3, h4, h5⟩ := hrest
    have hq (n : Nat) : queueOf y n = queueOf s n := by
      rw [← hr.queueOf]
      unfold queueOf
      rw [h3]
    have hd : cartD y v = cartD s v := by
      unfold cartD
      rw [h4, hr.windows]
    rw [hd]
    refine ⟨?_, h2, ?_, fun n hn => ?_, ?_⟩
    · unfold enqueue setQueue
      rw [h1]
    · rw [← hq h]
      exact (queueOf_enqueue y h 0 _).1
    · rw [← hq n]
      exact (queueOf_enqueue y h n _).2 hn
    · change tget 0 y.carts.counts (8 * v) = _
      rw [h5, counts_cartCount, hr.counts, if_pos (Nat.add_zero _).symm]
  split
  · exact hx _ (.inr rfl)
  · exact hx _ (.inl rfl)

/-- A release leaves the next release numbers and the held releases alone. -/
theorem releaseCart_next (u : State) (v k rel : Nat) (plost : Bool) : (releaseCart u v k rel plost).carts.nextK = u.carts.nextK ∧
    (releaseCart u v k rel plost).carts.heldRel = u.carts.heldRel := by
  have hlost (p : Nat) : ∀ x : State, (x.carts.nextK = u.carts.nextK ∧ x.carts.heldRel = u.carts.heldRel) →
      (let z := if p = 0 then x else notifySucc x v k true
       z.carts.nextK = u.carts.nextK ∧ z.carts.heldRel = u.carts.heldRel) := by
    intro x hx
    dsimp only
    split
    · exact hx
    · rw [graphOnly_notifySucc]
      exact hx
  unfold releaseCart
  split
  · split
    · exact hlost _ _ ⟨rfl, rfl⟩
    · split
      · exact hlost _ _ ⟨rfl, rfl⟩
      · dsimp only
        split
        · exact ⟨rfl, rfl⟩
        · exact ⟨rfl, rfl⟩
  · exact ⟨rfl, rfl⟩

/-- The release of a root while a job of the cart lives. -/
theorem skipped_releaseCart (hr : Releasing s u) (k rel : Nat) (plost : Bool) (hc : cartOf s v = some c) (ht : s.carts.table = some tt)
    (hp : c.pred = 0) (hl : cartLive s v = true) : Skipped s (releaseCart u v k rel plost) v k := by
  have heq : releaseCart u v k rel plost = lostPeriod (cartCount u v 5) v k := by
    unfold releaseCart
    rw [hr.cartOf, hc, hr.table, ht]
    dsimp only
    rw [hr.cartLive, hl, if_pos rfl, if_pos hp]
  rw [heq]
  refine ⟨?_, jobReport_lostPeriod .., hr.queueOf, ?_⟩
  · change tget 0 (cartCount u v 5).carts.counts _ = _
    rw [counts_cartCount, if_pos rfl, hr.counts]
  · rw [hr.rest]
    rfl

theorem releasesMakeJobs : Clause.ReleasesMakeJobs := by
  intro s v tt c hv ht hcart hrel
  have hc : cartOf s v = some c := by
    unfold cartOf
    rw [ht]
    exact hcart
  refine ⟨fun hsrc hpred hdue => ?_, fun hn hadm => ?_, fun g hg => ?_⟩
  · have hop : timeRelOp s v = releaseCart { s with carts := { s.carts with nextK := tput 0 s.carts.nextK v (tget 0 s.carts.nextK v + 1) } } v
        (tget 0 s.carts.nextK v) (tt.start + c.offset + tget 0 s.carts.nextK v * c.period) false := by
      unfold timeRelOp
      rw [ht, hc]
      dsimp only
      rw [hrel, decide_eq_true hsrc, decide_eq_true hpred, decide_eq_true hdue]
      rfl
    have hr : Releasing s { s with carts := { s.carts with nextK := tput 0 s.carts.nextK v (tget 0 s.carts.nextK v + 1) } } :=
      ⟨rfl, rfl, rfl, rfl, rfl, rfl, rfl⟩
    refine ⟨_, (act_wf (decide_eq_true hv)).trans (congrArg _ hop), (congrArg (tget 0 · v) (releaseCart_next ..).1).trans (by dsimp only; rw [tget_tput_same]),
      fun hl => skipped_releaseCart hr _ _ _ hc ht hpred hl, fun h hl hh => released_releaseCart hr _ _ h _ hc ht hl hh⟩
  · have hop : heldRelOp s v = releaseCart { s with carts := { s.carts with heldRel := tput 0 s.carts.heldRel v 0 } } v
        ((tget 0 s.carts.heldRel v - 1 - c.offset) / c.period) (ticks s) false := by
      unfold heldRelOp
      rw [hc]
      dsimp only
      rw [decide_eq_false hn, hrel, hadm]
      rfl
    have hr : Releasing s { s with carts := { s.carts with heldRel := tput 0 s.carts.heldRel v 0 } } := ⟨rfl, rfl, rfl, rfl, rfl, rfl, rfl⟩
    refine ⟨_, (act_wf (decide_eq_true hv)).trans (congrArg _ hop), (congrArg (tget 0 · v) (releaseCart_next ..).2).trans (by dsimp only; rw [tget_tput_same]),
      fun hl hpred => skipped_releaseCart hr _ _ _ hc ht hpred hl, fun h hl hh => released_releaseCart hr _ _ h _ hc ht hl hh⟩
  · have hop : graphRelOp s v = releaseCart { s with carts := { s.carts with graph := s.carts.graph.filter (fun x => !(x = g)) } } v g.k g.rel g.plost := by
      unfold graphRelOp graphOne
      rw [if_pos hrel, hg]
    have hr : Releasing s { s with carts := { s.carts with graph := s.carts.graph.filter (fun x => !(x = g)) } } := ⟨rfl, rfl, rfl, rfl, rfl, rfl, rfl⟩
    exact ⟨_, (act_wf (decide_eq_true hv)).trans (congrArg _ hop), fun h hl hh => released_releaseCart hr _ _ h _ hc ht hl hh⟩

/-! ### A late waiting job -/

/-- The pulse of a dispatcher changes registers and sources alone. -/
theorem dispPulse_rest (s : State) (n i : Nat) : dispPulse s n i = { s with regs := (dispPulse s n i).regs, intc := (dispPulse s n i).intc } := (sourceOnly_pulse ..).rest

/-- A miss is counted for the cart and pulsed by its dispatcher. -/
theorem countMiss_rest (s : State) (v : Nat) :
    countMiss s v = { cartCount s v 2 with regs := (countMiss s v).regs, intc := (countMiss s v).intc } := by
  unfold countMiss
  dsimp only
  split
  · exact dispPulse_rest ..
  · rfl

theorem aLateWaitingJobIsWithdrawn : Clause.ALateWaitingJobIsWithdrawn := by
  intro s v n j hv hn hj
  have hop : withdrawJobOp s v = notifySucc (lostPeriod (countMiss (setLive (setQueue s n ((queueOf s n).filter (fun x => !(x = j)))) v false) v) v j.k) v j.k true := by
    unfold withdrawJobOp
    rw [hn]
    dsimp only
    rw [hj]
  refine ⟨_, (act_wf (decide_eq_true hv)).trans (congrArg _ hop), ?_⟩
  generalize hq : (queueOf s n).filter (fun x => !(x = j)) = q
  generalize hx : setLive (setQueue s n q) v false = x
  have hlive : cartLive x v = false := by
    rw [← hx]
    exact cartLive_setLive ..
  have hqueue (m : Nat) : queueOf x m = if m = n then q else queueOf s m := by
    rw [← hx]
    exact queueOf_setQueue ..
  have hrest : x.coaches = s.coaches ∧ x.mem = s.mem ∧ x.carts.counts = s.carts.counts := by
    rw [← hx]
    exact ⟨rfl, rfl, rfl⟩
  obtain ⟨hco, hm, hcnt⟩ := hrest
  have hrep := jobReport_lostPeriod (countMiss x v) v j.k
  rw [graphOnly_notifySucc]
  refine ⟨?_, fun m hm => ?_, ?_, ?_, hrep, ?_, ?_⟩
  · change queueOf (countMiss x v) n = q
    rw [countMiss_rest]
    exact (hqueue n).trans (if_pos rfl)
  · change queueOf (countMiss x v) m = _
    rw [countMiss_rest]
    exact (hqueue m).trans (if_neg hm)
  · change cartLive (countMiss x v) v = false
    rw [countMiss_rest]
    exact hlive
  · change tget 0 (countMiss x v).carts.counts _ = _
    rw [countMiss_rest]
    change tget 0 (cartCount x v 2).carts.counts _ = _
    rw [counts_cartCount, if_pos rfl, hcnt]
  · change (countMiss x v).coaches = _
    rw [countMiss_rest]
    exact hco
  · change (countMiss x v).mem = _
    rw [countMiss_rest]
    exact hm

/-- Settles O25. -/
theorem releasesAndWithdrawals : Obligations.ReleasesAndWithdrawals := ⟨releasesMakeJobs, aLateWaitingJobIsWithdrawn⟩

end Sys2Proof.Machine
end

section
/-! Budgets and the handover wait (R248, R254, R262). -/
namespace Sys2Proof.Machine

variable {s : State} {c : Nat} {k : Coach}

/-! ### BUDGET_OVERRUN -/

theorem CoOnly.cdonePc {l : Coach} (h : CoOnly k l) : l.cdonePc = k.cdonePc := by rw [h]
theorem CoOnly.handed {l : Coach} (h : CoOnly k l) : l.handed = k.handed := by rw [h]

/-- The grace counts in place of the budget, with OVR set. -/
def graceRegs (k : Coach) : Coach := setCoF (setCoF k 0x504 29 1 1) 0x506 0 24 (coF k 0x508 0 12)
theorem coOnly_graceRegs (k : Coach) : CoOnly k (graceRegs k) := (coOnly_setCoF ..).trans (coOnly_setCoF ..)
theorem coB_graceRegs (k : Coach) : coB (graceRegs k) 0x504 29 = true := by
  have h : rdCo (graceRegs k) 0x504 = setR (rdCo k 0x504) 29 1 1 := ((rdCo_wrCo ..).trans (if_neg (by decide))).trans (rdCo_wrCo_same ..)
  unfold coB
  rw [h, rbit_setR _ _ _ _ _ (by decide)]
  rfl
theorem coF_graceRegs (k : Coach) : coF (graceRegs k) 0x506 0 24 = coF k 0x508 0 12 := by
  have h : rdCo (graceRegs k) 0x506 = setR (rdCo (setCoF k 0x504 29 1 1) 0x506) 0 24 (coF k 0x508 0 12) := rdCo_wrCo_same ..
  have hlt : coF k 0x508 0 12 < 2 ^ 24 := Nat.lt_of_lt_of_le (Nat.mod_lt _ (Nat.two_pow_pos 12)) (Nat.pow_le_pow_right (by decide) (by decide))
  generalize coF k 0x508 0 12 = v at h hlt ⊢
  unfold coF
  rw [h, rfld_setR_same _ _ _ _ (by decide)]
  exact Nat.mod_eq_of_lt hlt

theorem co_dispPulse (s : State) (n i d : Nat) : co (dispPulse s n i) d = co s d := congrArg (tget Coach.reset · d) (sourceOnly_pulse ..).coaches
theorem dispPulse_fields (s : State) (n i : Nat) : (dispPulse s n i).carts = s.carts ∧ (dispPulse s n i).mem = s.mem ∧ (dispPulse s n i).dtime = s.dtime := by
  rw [dispPulse_rest]
  exact ⟨rfl, rfl, rfl⟩

/-- Entry 14 falls due. -/
def overdue (k : Coach) : Coach := { k with budgetDue := true }
theorem overdue_fields (k : Coach) : (overdue k).co = k.co ∧ (overdue k).budgetDue = true ∧ (overdue k).g = k.g ∧ (overdue k).pc = k.pc := ⟨rfl, rfl, rfl, rfl⟩
/-- The coach whose budget has run out. -/
theorem graced_spec (k : Coach) : let l := overdue (graceRegs k)
    coB l 0x504 29 = true ∧ coF l 0x506 0 24 = coF k 0x508 0 12 ∧ l.budgetDue = true ∧ l.g = k.g ∧ l.pc = k.pc := by
  obtain ⟨hco, hb, hg, hpc⟩ := overdue_fields (graceRegs k)
  exact ⟨(congrArg (rbit · 29) (rdCo_congr hco _)).trans (coB_graceRegs k), (congrArg (rfld · 0 24) (rdCo_congr hco _)).trans (coF_graceRegs k), hb,
    hg.trans (coOnly_graceRegs k).g, hpc.trans (coOnly_graceRegs k).pc⟩

theorem aBudgetOverruns : Clause.ABudgetOverruns := by
  intro s c j hc hj h31 h0 hov
  have hop : overrunOp s c = dispPulse (cartCount (setCo s c (overdue (graceRegs (co s c)))) j.cart 3) (c / 9 * 8) 1 := by
    unfold overrunOp
    dsimp only
    rw [hj]
    dsimp only
    rw [h31, decide_eq_true h0, hov]
    rfl
  obtain ⟨hcarts, hmem, -⟩ := dispPulse_fields (cartCount (setCo s c (overdue (graceRegs (co s c)))) j.cart 3) (c / 9 * 8) 1
  have hco (d : Nat) : co (dispPulse (cartCount (setCo s c (overdue (graceRegs (co s c)))) j.cart 3) (c / 9 * 8) 1) d = co (setCo s c (overdue (graceRegs (co s c)))) d := co_dispPulse ..
  have hcount := counts_cartCount (setCo s c (overdue (graceRegs (co s c)))) j.cart 3 (8 * j.cart + 3)
  rw [if_pos rfl] at hcount
  refine ⟨_, (act_wf (decide_eq_true (Nat.lt_trans hc (by decide)))).trans (congrArg _ hop), ?_⟩
  rw [hco c, co_setCo_same, hcarts]
  obtain ⟨h1, h2, h3, h4, h5⟩ := graced_spec (co s c)
  exact ⟨h1, h2, h3, hcount, h4, h5, fun d hd => (hco d).trans ((co_setCo ..).trans (if_neg hd)), hmem⟩

/-! ### The handover wait -/

/-- The hold limit of a coach is at most `h`, where one is admitted. -/
def heldTo (b : Bool) (h : Nat) (k : Coach) : Coach :=
  if b && decide (coF k 0x004 0 12 > h) then setCoF (setCoF k 0x004 0 12 h) 0x002 12 1 1 else k
theorem coOnly_heldTo (b : Bool) (h : Nat) (k : Coach) : CoOnly k (heldTo b h k) := by
  unfold heldTo
  split
  · exact (coOnly_setCoF ..).trans (coOnly_setCoF ..)
  · rfl

/-- The coach that has handed over waits. -/
def waits (k : Coach) (now : Nat) : Coach :=
  { k with run := .waiting, pc := k.cdonePc, cdone := none, pend := [], precise := none, handed := true, lastBeat := now, decoded := none, bound := .drain }

/-- The first handover is noted, and brings a coach that re-commissioning held back into service. -/
def inService (s : State) (n : Nat) (k : Coach) : State :=
  if !k.handed && (logi s n).lstate = 3 then
    dispPulse (setLogi s n { logi s n with lstate := 0, lastChange := s.dtime, lastCount := rdCo k 0x500 }) n 2
  else if !k.handed then setLogi s n { logi s n with lastChange := s.dtime, lastCount := rdCo k 0x500 } else s

theorem logi_setLogi_other (s : State) {n m : Nat} (l : Logical) (h : m ≠ n) : logi (setLogi s n l) m = logi s m := tget_tput_ne _ _ _ _ h

theorem logi_dispPulse (s : State) (n i m : Nat) : logi (dispPulse s n i) m = logi s m := by
  unfold logi
  rw [(dispPulse_fields s n i).1]

theorem inService_coaches (s : State) (n : Nat) (k : Coach) : (inService s n k).coaches = s.coaches := by
  unfold inService
  split
  · exact (sourceOnly_pulse ..).coaches
  · split
    · rfl
    · rfl
theorem inService_lstate (s : State) (n : Nat) (k : Coach) (hk : k.handed = false) (h3 : (logi s n).lstate = 3) : (logi (inService s n k) n).lstate = 0 := by
  unfold inService
  rw [hk, decide_eq_true h3]
  exact congrArg Logical.lstate ((logi_dispPulse ..).trans ((logi_setLogi ..).trans (if_pos rfl)))

theorem theHandoverWait : Clause.TheHandoverWait := by
  intro s c hc k
  refine ⟨fun n hr hj hd ha hf hx hs hl hn => ?_, fun hr hb => ?_⟩
  · have hop : ∃ h, handoverOp s c = inService (setCo s c (waits (heldTo s.carts.table.isSome h (drain s c k)) s.dtime)) n
        (heldTo s.carts.table.isSome h (drain s c k)) := by
      obtain ⟨b, hb⟩ := Option.ne_none_iff_exists'.mp hd
      unfold handoverOp
      dsimp only
      rw [decide_eq_true hc, decide_eq_true hr, show (co s c).job = none from hj, show (co s c).cdone = some b from hb, show (co s c).access = [] from ha,
        show (co s c).after = none from hf, show (co s c).exc = none from hx, show (co s c).stopDue = false from hs, decide_eq_false (not_not_intro hl), hn]
      exact ⟨_, rfl⟩
    obtain ⟨h, hop⟩ := hop
    have hk := coOnly_heldTo s.carts.table.isSome h (drain s c k)
    generalize heldTo s.carts.table.isSome h (drain s c k) = l at hk hop
    have hco : ∀ u : State, ∀ d, co (inService u n l) d = co u d := fun u d => congrArg (tget Coach.reset · d) (inService_coaches ..)
    refine ⟨_, (act_wf (decide_eq_true (Nat.lt_trans hc (by decide)))).trans (congrArg _ hop), ?_⟩
    rw [hco, co_setCo_same]
    refine ⟨rfl, ?_, rfl, rfl, rfl, hk.g, fun d hd => (hco _ d).trans ((co_setCo ..).trans (if_neg hd)), fun _ hh h3 => inService_lstate _ _ _ ?_ h3⟩
    · exact hk.cdonePc
    · exact hk.handed.trans hh
  · have hop : waitBeatOp s c = setCo s c { wrCo k 0x500 (rdCo k 0x500 + 1) with lastBeat := k.lastBeat + 250000 } := by
      unfold waitBeatOp
      dsimp only
      rw [decide_eq_true hr, decide_eq_true hb]
      rfl
    refine ⟨_, (act_wf (decide_eq_true (Nat.lt_trans hc (by decide)))).trans (congrArg _ hop), onlyCoach_setCo .., ?_⟩
    rw [co_setCo_same]
    have hcg (off : Nat) : rdCo { wrCo k 0x500 (rdCo k 0x500 + 1) with lastBeat := k.lastBeat + 250000 } off = rdCo (wrCo k 0x500 (rdCo k 0x500 + 1)) off := rdCo_congr rfl off
    exact ⟨(hcg _).trans (rdCo_wrCo_same ..), rfl, rfl, fun off ho => (hcg off).trans ((rdCo_wrCo ..).trans (if_neg ho))⟩

/-- Settles O27. -/
theorem budgetsAndTheHandoverWait : Obligations.BudgetsAndTheHandoverWait := ⟨aBudgetOverruns, theHandoverWait⟩

end Sys2Proof.Machine
end

section
/-! A job starts over the context that is saved (R249). -/
namespace Sys2Proof.Machine
open Sys2Proof.Config

variable {s t u : State} {c n : Nat} {k : Coach} {j : Job} {v : Cart}

/-! ### The registers of a job that starts -/

/-- The CO_ registers that a job starts with, but its heartbeat: its mode, no loop, its shadow stack and its budget. -/
def jobCo (k : Coach) (base : W32) (ssb : Nat) (budget : W32) (v : Cart) : Coach :=
  setCoF (wrCo (wrCo (wrCo (wrCo (setCoF (wrCo (wrCo (wrCo (wrCo (setCoF (setCoF k 0x002 1 1 0) 0x002 7 1 0) 0x000 (setR base 2 1 (b2n (!v.fetch)))) 0x304 0) 0x30C 0)
    0x314 0) 0x328 0 8 0) 0x324 (n32 ssb)) 0x326 (n32 (ssb + 2 * v.ssdepth))) 0x322 (n32 ssb)) 0x506 budget) 0x504 29 1 0
/-- The job's cart, release number, window and arguments in their registers, at its entry. -/
def jobBegun (k : Coach) (v : Cart) (j : Job) : Coach :=
  { k with p := tput 0 (tput 0 (tput 0 k.p 0 (n32 (v.wbase * 64))) 1 v.arg0) 2 v.arg1, g := tput 0 (tput 0 k.g 0 (n32 j.cart)) 1 (n32 j.k),
           pc := n32 v.entry, job := some j, espStart := rdCo k 0x402, run := .running, bound := .none, decoded := none, handlers := 0,
           exc := none, long := none, cdone := none, budgetHold := none, budgetDue := false }
/-- A heartbeat is recorded. -/
def beats (k : Coach) : Coach := wrCo k 0x500 (rdCo k 0x500 + 1)

/-- Budget of a cart's job as CO_BUDGET takes it, counting. -/
def jobBudget (v : Cart) (j : Job) : W32 :=
  n32 (2 ^ 31 + (if v.budget + 4 * v.nsh < 2 ^ 24 then v.budget + 4 * v.nsh else (budgetLoad j.cart).toNat))

theorem coOnly_jobCo (k : Coach) (base : W32) (ssb : Nat) (budget : W32) (v : Cart) : CoOnly k (jobCo k base ssb budget v) := by
  unfold jobCo
  refine .trans ?_ (coOnly_setCoF ..)
  iterate 4 refine .trans ?_ (coOnly_wrCo ..)
  refine .trans ?_ (coOnly_setCoF ..)
  iterate 4 refine .trans ?_ (coOnly_wrCo ..)
  exact (coOnly_setCoF ..).trans (coOnly_setCoF ..)

theorem jobCo_reads (k : Coach) (base : W32) (ssb : Nat) (budget : W32) (v : Cart) :
    let l := jobCo k base ssb budget v
    rdCo l 0x304 = 0 ∧ rdCo l 0x30C = 0 ∧ rdCo l 0x314 = 0 ∧ rdCo l 0x506 = budget ∧ coB l 0x002 1 = false := by
  have h2 : rdCo (jobCo k base ssb budget v) 0x002 = setR (setR (rdCo k 0x002) 1 1 0) 7 1 0 := by
    unfold jobCo setCoF
    simp only [rdCo_wrCo, Nat.reduceEqDiff, if_false, if_true, OfNat.ofNat_ne_zero]
  refine ⟨?_, ?_, ?_, ?_, ?_⟩
  iterate 4
    unfold jobCo setCoF
    simp only [rdCo_wrCo, Nat.reduceEqDiff, if_false, if_true]
  unfold coB
  rw [h2, rbit_setR _ _ _ _ _ (by decide), rbit_setR _ _ _ _ _ (by decide)]
  rfl

theorem jobBegun_fields (k : Coach) (v : Cart) (j : Job) : (jobBegun k v j).run = .running ∧ (jobBegun k v j).job = some j ∧
    (jobBegun k v j).pc = n32 v.entry ∧ (jobBegun k v j).g = tput 0 (tput 0 k.g 0 (n32 j.cart)) 1 (n32 j.k) ∧
    (jobBegun k v j).p = tput 0 (tput 0 (tput 0 k.p 0 (n32 (v.wbase * 64))) 1 v.arg0) 2 v.arg1 ∧ (jobBegun k v j).exc = none ∧
    (jobBegun k v j).level = k.level ∧ (jobBegun k v j).frames = k.frames ∧ (jobBegun k v j).access = k.access ∧ (jobBegun k v j).co = k.co := by
  unfold jobBegun
  exact ⟨rfl, rfl, rfl, rfl, rfl, rfl, rfl, rfl, rfl, rfl⟩

/-- The budget of a job counts from its whole value. -/
theorem jobBudget_counts (v : Cart) (j : Job) (h : v.budget + 4 * v.nsh < 2 ^ 24) :
    rfld (jobBudget v j) 0 24 = v.budget + 4 * v.nsh ∧ rbit (jobBudget v j) 31 = true := by
  unfold jobBudget
  rw [if_pos h]
  generalize v.budget + 4 * v.nsh = x at h
  refine ⟨?_, ?_⟩
  · rw [rfld_n32 _ _ _ (by decide)]
    unfold fld
    rw [Nat.shiftRight_zero, Nat.add_mod, Nat.mod_eq_of_lt h]
    exact (congrArg (· % 2 ^ 24) (Nat.zero_add x)).trans (Nat.mod_eq_of_lt h)
  · unfold rbit n32
    rw [BitVec.getLsbD_ofNat, Nat.testBit_eq_decide_div_mod_eq, Nat.add_div_of_dvd_right (Nat.dvd_refl _), Nat.div_self (Nat.two_pow_pos 31),
      Nat.div_eq_of_lt (Nat.lt_trans h (by decide))]
    rfl

/-! ### loadJob -/

theorem CoOnly.run {l : Coach} (h : CoOnly k l) : l.run = k.run := by rw [h]
theorem CoOnly.job {l : Coach} (h : CoOnly k l) : l.job = k.job := by rw [h]
theorem CoOnly.level {l : Coach} (h : CoOnly k l) : l.level = k.level := by rw [h]
theorem CoOnly.frames {l : Coach} (h : CoOnly k l) : l.frames = k.frames := by rw [h]
theorem CoOnly.exc {l : Coach} (h : CoOnly k l) : l.exc = k.exc := by rw [h]
theorem CoOnly.access {l : Coach} (h : CoOnly k l) : l.access = k.access := by rw [h]

/-- A master's region 7 is registers alone. -/
theorem setRegion7_coaches (s : State) (c : Nat) (l : List W32) : (setRegion7 s c l).coaches = s.coaches ∧ (setRegion7 s c l).carts = s.carts := by
  unfold setRegion7
  generalize upto 3 = is
  induction is generalizing s with
  | nil => exact ⟨rfl, rfl⟩
  | cons i is ih => exact ih _

/-- The mode, the shadow stack and the region 7 that a job is loaded with. -/
def jobMode (k : Coach) : W32 := match k.frames.getLast? with | some f => tget 0 f.co 0x000 | none => rdCo k 0x000
def jobStack (k : Coach) : Nat :=
  if k.level ≤ 1 then 0x3DC0 else (match k.frames with | f :: _ => (tget 0 f.co 0x326).toNat | [] => 0x3DC0)
def jobRegion (s : State) (n : Nat) (v : Cart) : List W32 :=
  if v.wsize = 0 then [0, 0x3F, n32 ((logi s n).epoch * 65536)]
  else [n32 (v.wbase * 64), n32 (v.wbase * 64 + 2 ^ v.wsize - 1), n32 ((logi s n).epoch * 65536 + 7)]

/-- The coach on which a job is loaded. -/
theorem loadJob_eq (hv : cartOf s j.cart = some v) :
    loadJob s c n j = setRegion7 (setCo s c (beats (jobBegun (jobCo (co s c) (jobMode (co s c)) (jobStack (co s c)) (jobBudget v j) v) v j))) c
      (jobRegion s n v) := by
  unfold loadJob
  rw [hv]
  rfl

/-- What a loaded job finds, over the context `k`. -/
structure Loaded (k l : Coach) (j : Job) (v : Cart) : Prop where
  run : l.run = .running
  job : l.job = some j
  pc : l.pc = n32 v.entry
  g0 : rdG l 0 = n32 j.cart
  g1 : rdG l 1 = n32 j.k
  p0 : rdP l 0 = n32 (v.wbase * 64)
  p1 : rdP l 1 = v.arg0
  p2 : rdP l 2 = v.arg1
  level : l.level = k.level
  frames : l.frames = k.frames
  exc : l.exc = none
  access : l.access = k.access
  budget : rdCo l 0x506 = jobBudget v j
  loop0 : rdCo l 0x304 = 0
  loop1 : rdCo l 0x30C = 0
  loop2 : rdCo l 0x314 = 0
  user : isSup l = false

theorem rdCo_beats {off : Nat} (h : off ≠ 0x500) (k : Coach) : rdCo (beats k) off = rdCo k off := (rdCo_wrCo ..).trans (if_neg h)
theorem coOnly_beats (k : Coach) : CoOnly k (beats k) := coOnly_wrCo ..

theorem loaded_job (k : Coach) (base : W32) (ssb : Nat) (v : Cart) (j : Job) :
    Loaded k (beats (jobBegun (jobCo k base ssb (jobBudget v j) v) v j)) j v := by
  have hc := coOnly_jobCo k base ssb (jobBudget v j) v
  obtain ⟨h0, h1, h2, hb, hs⟩ := jobCo_reads k base ssb (jobBudget v j) v
  generalize jobCo k base ssb (jobBudget v j) v = l at hc h0 h1 h2 hb hs ⊢
  obtain ⟨frun, fjob, fpc, fg, fp, fexc, flevel, fframes, faccess, fco⟩ := jobBegun_fields l v j
  generalize jobBegun l v j = m at frun fjob fpc fg fp fexc flevel fframes faccess fco ⊢
  have hr (off : Nat) (h : off ≠ 0x500) : rdCo (beats m) off = rdCo l off := (rdCo_beats h m).trans (rdCo_congr fco off)
  have hbeat := coOnly_beats m
  have hg (i : Nat) : rdG (beats m) i = tget 0 (tput 0 (tput 0 l.g 0 (n32 j.cart)) 1 (n32 j.k)) i := congrArg (tget 0 · i) (hbeat.g.trans fg)
  have hp (i : Nat) : rdP (beats m) i = tget 0 (tput 0 (tput 0 (tput 0 l.p 0 (n32 (v.wbase * 64))) 1 v.arg0) 2 v.arg1) i :=
    congrArg (tget 0 · i) (hbeat.p.trans fp)
  constructor
  case run => exact hbeat.run.trans frun
  case job => exact hbeat.job.trans fjob
  case pc => exact hbeat.pc.trans fpc
  case g0 => rw [hg, tget_tput, if_neg (by decide), tget_tput_same]
  case g1 => rw [hg, tget_tput_same]
  case p0 => rw [hp, tget_tput, if_neg (by decide), tget_tput, if_neg (by decide), tget_tput_same]
  case p1 => rw [hp, tget_tput, if_neg (by decide), tget_tput_same]
  case p2 => rw [hp, tget_tput_same]
  case level => exact hbeat.level.trans (flevel.trans hc.level)
  case frames => exact hbeat.frames.trans (fframes.trans hc.frames)
  case exc => exact hbeat.exc.trans fexc
  case access => exact hbeat.access.trans (faccess.trans hc.access)
  case budget => exact (hr _ (by decide)).trans hb
  case loop0 => exact (hr _ (by decide)).trans h0
  case loop1 => exact (hr _ (by decide)).trans h1
  case loop2 => exact (hr _ (by decide)).trans h2
  case user => exact (congrArg (rbit · 1) (hr _ (by decide))).trans hs

theorem loadJob_loads (hv : cartOf s j.cart = some v) : Loaded (co s c) (co (loadJob s c n j) c) j v ∧ (∀ d, d ≠ c → co (loadJob s c n j) d = co s d) ∧
    (loadJob s c n j).carts = s.carts := by
  have hl := loaded_job (co s c) (jobMode (co s c)) (jobStack (co s c)) v j
  have h := loadJob_eq (c := c) (n := n) hv
  generalize beats (jobBegun (jobCo (co s c) (jobMode (co s c)) (jobStack (co s c)) (jobBudget v j) v) v j) = l at hl h
  obtain ⟨hcoaches, hcarts⟩ := setRegion7_coaches (setCo s c l) c (jobRegion s n v)
  have hco (d : Nat) : co (loadJob s c n j) d = co (setCo s c l) d := by
    rw [h]
    exact congrArg (tget Coach.reset · d) hcoaches
  refine ⟨?_, fun d hd => (hco d).trans ((co_setCo ..).trans (if_neg hd)), ?_⟩
  · rw [hco, co_setCo_same]
    exact hl
  · rw [h]
    exact hcarts

/-! ### startOver -/

/-- One more frame has been saved at a level. -/
def frameCounted (k : Coach) (lvl : Nat) : Coach := { k with saves := tput 0 k.saves lvl (tget 0 k.saves lvl + 1) }
theorem frameCounted_context (k : Coach) (lvl : Nat) : (frameCounted k lvl).access = k.access ∧ (frameCounted k lvl).level = k.level ∧
    (frameCounted k lvl).frames = k.frames := by
  unfold frameCounted
  exact ⟨rfl, rfl, rfl⟩

/-- The words of a frame leave the coach alone, but for their count. -/
theorem served_writeFrame (s : State) (c lvl : Nat) : Served (setCo s c (frameCounted (co s c) lvl)) (writeFrame s c lvl) := by
  unfold writeFrame
  exact .foldl _ (fun _ _ => served_turnAccess ..) _ _

theorem SettlesOnly.access {l : Coach} (h : SettlesOnly k l) : l.access = k.access := by rw [h]
theorem SettlesOnly.level {l : Coach} (h : SettlesOnly k l) : l.level = k.level := by rw [h]
theorem SettlesOnly.frames {l : Coach} (h : SettlesOnly k l) : l.frames = k.frames := by rw [h]
theorem SettlesOnly.espStart {l : Coach} (h : SettlesOnly k l) : l.espStart = k.espStart := by rw [h]

/-- A drain leaves the jobs and the contexts alone. -/
theorem drain_context (s : State) (c : Nat) (k : Coach) : (drain s c k).access = k.access ∧ (drain s c k).level = k.level ∧
    (drain s c k).frames = k.frames ∧ (drain s c k).espStart = k.espStart := by
  have h := (settles_landNow s c (passTime k (lastDue k - k.cyc) 0)).only
  exact ⟨h.access.trans (passTime_access ..), h.level.trans (passTime_level ..), h.frames.trans (passTime_frames ..), h.espStart.trans (passTime_espStart ..)⟩

/-- The context that a new job leaves is saved. -/
def contextSaved (k : Coach) (f : Frame) : Coach := { k with frames := f :: k.frames, level := k.level + 1 }
theorem contextSaved_context (k : Coach) (f : Frame) : (contextSaved k f).access = k.access ∧ (contextSaved k f).level = k.level + 1 ∧
    (contextSaved k f).frames = f :: k.frames := by
  unfold contextSaved
  exact ⟨rfl, rfl, rfl⟩
/-- Cycles of a dispatch pass. -/
def dispatched (k : Coach) (n : Nat) : Coach := { k with cyc := k.cyc + n, cycles := k.cycles + n }
theorem dispatched_context (k : Coach) (n : Nat) : (dispatched k n).access = k.access ∧ (dispatched k n).level = k.level ∧ (dispatched k n).frames = k.frames := by
  unfold dispatched
  exact ⟨rfl, rfl, rfl⟩
theorem dispTime_eq (s : State) (c n : Nat) : dispTime s c n = setCo s c (dispatched (co s c) n) := rfl

/-- A job starts on the coach `d` that has drained, whose context goes to the frame `f`. -/
theorem startOver_eq (s : State) (c n : Nat) (j : Job) : ∃ f, startOver s c n j =
    (let d := drain s c (co s c)
     let w := writeFrame (setCo s c d) c d.level
     loadJob (dispTime (setCo w c (contextSaved (co w c) f)) c 24) c n j) := by
  refine ⟨saveFrame s c (drain s c (co s c)), ?_⟩
  unfold startOver contextSaved
  rfl

/-- The state in which the job is loaded. -/
theorem loadState_context {d : Coach} {w x : State} {f : Frame} (hw : Served (setCo (setCo s c d) c (frameCounted d d.level)) w) (hd : d.access = [])
    (hx : x = dispTime (setCo w c (contextSaved (co w c) f)) c 24) : (co x c).access = [] ∧ (co x c).level = d.level + 1 ∧
    (co x c).frames = f :: d.frames ∧ x.carts = s.carts ∧ ∀ e, e ≠ c → OnlyAnswers (co s e) (co x e) := by
  have hc : co (setCo (setCo s c d) c (frameCounted d d.level)) c = frameCounted d d.level := co_setCo_same ..
  obtain ⟨k1, k2, k3⟩ := frameCounted_context d d.level
  have hk : co w c = frameCounted d d.level := (hw.co_eq (by rw [hc, k1, hd])).trans hc
  rw [hk] at hx
  obtain ⟨m1, m2, m3⟩ := contextSaved_context (frameCounted d d.level) f
  generalize contextSaved (frameCounted d d.level) f = m at m1 m2 m3 hx
  obtain ⟨n1, n2, n3⟩ := dispatched_context m 24
  rw [dispTime_eq, co_setCo_same] at hx
  have hself : co x c = dispatched m 24 := by rw [hx, co_setCo_same]
  refine ⟨?_, ?_, ?_, ?_, fun e he => ?_⟩
  · rw [hself, n1, m1, k1, hd]
  · rw [hself, n2, m2, k2]
  · rw [hself, n3, m3, k3]
  · rw [hx]
    exact hw.carts
  · have h := hw.coach e
    rw [co_setCo, if_neg he, co_setCo, if_neg he] at h
    rw [hx, co_setCo, if_neg he, co_setCo, if_neg he]
    exact h

theorem cartOf_congr (h : t.carts = s.carts) (v : Nat) : cartOf t v = cartOf s v := by
  unfold cartOf
  rw [h]

theorem queueOf_congr (h : t.carts = s.carts) (n : Nat) : queueOf t n = queueOf s n := by
  unfold queueOf
  rw [h]

theorem rfld_zero : rfld 0 0 32 = 0 := by simp [rfld, fld]

/-- A job that starts over the running context: it runs one level up, and no other coach changes but in the answers to its accesses. -/
theorem startOver_runs (ha : (co s c).access = []) (hv : cartOf s j.cart = some v) :
    JobRuns s (startOver s c n j) c j v ∧ OthersWait c s (startOver s c n j) ∧ (startOver s c n j).carts = s.carts := by
  obtain ⟨hda, hdl, hdf, -⟩ := drain_context s c (co s c)
  obtain ⟨f, heq⟩ := startOver_eq s c n j
  have hw := served_writeFrame (setCo s c (drain s c (co s c))) c (drain s c (co s c)).level
  dsimp only at heq
  generalize drain s c (co s c) = d at hda hdl hdf hw heq
  generalize writeFrame (setCo s c d) c d.level = w at hw heq
  rw [co_setCo_same] at hw
  generalize hx : dispTime (setCo w c (contextSaved (co w c) f)) c 24 = x at heq
  obtain ⟨h3, h1, h2, hcarts, hother⟩ := loadState_context hw (hda.trans ha) hx.symm
  have hvx : cartOf x j.cart = some v := (cartOf_congr hcarts _).trans hv
  obtain ⟨hl, ho, hc⟩ := loadJob_loads (c := c) (n := n) hvx
  rw [heq]
  refine ⟨⟨hl.run, hl.job, hl.pc, hl.g0, hl.g1, hl.p0, hl.p1, hl.p2, hl.level.trans (h1.trans (congrArg (· + 1) hdl)),
    (congrArg List.length (hl.frames.trans h2)).trans (congrArg (fun y => y.length + 1) hdf), hl.exc, hl.access.trans h3,
    fun hb => ?_, ?_, ?_, ?_, hl.user⟩, fun e he => ?_, hc.trans hcarts⟩
  · obtain ⟨hb1, hb2⟩ := jobBudget_counts v j hb
    exact ⟨(congrArg (rfld · 0 24) hl.budget).trans hb1, (congrArg (rbit · 31) hl.budget).trans hb2⟩
  · exact (congrArg (rfld · 0 32) hl.loop0).trans rfld_zero
  · exact (congrArg (rfld · 0 32) hl.loop1).trans rfld_zero
  · exact (congrArg (rfld · 0 32) hl.loop2).trans rfld_zero
  · rw [ho e he]
    exact (hother e he).1

/-! ### JOB_START -/

/-- A coach that serves has no access under way. -/
theorem serving_access (h : serving s c = some n) : (co s c).access = [] := by
  unfold serving at h
  split at h
  · dsimp only at h
    split at h
    next hh =>
      simp only [Bool.and_eq_true, List.isEmpty_iff] at hh
      exact hh.1.1.1.2
    next => cases h
  · cases h

theorem stopLong_context (k : Coach) : (stopLong k).access = k.access ∧ (stopLong k).level = k.level ∧ (stopLong k).frames = k.frames ∧
    (stopLong k).espStart = k.espStart := by
  unfold stopLong
  split
  · exact ⟨rfl, rfl, rfl, rfl⟩
  · exact ⟨rfl, rfl, rfl, rfl⟩

/-- A job may start at the coach: it waits, or runs a job that the new one is ahead of, at a drain point of its own. -/
def mayStart (s : State) (k : Coach) (j : Job) : Bool :=
  decide (k.run = .waiting) ||
    (decide (k.run = .running) && (match k.job with | some r => ahead s j r | none => false) && atDrainPt k && decide (k.handlers = 0) &&
      k.pend.all (fun p => decide (p.trap = 0)) && k.precise.isNone && k.cdone.isNone)

theorem jobStartOp_starts {q : List Job} (hs : serving s c = some n) (hq : queueOf s n = j :: q) (hgo : mayStart s (co s c) j = true)
    (hev : eventDue s c (co s c) = none) (hh : (co s c).handed = true) (hr : releasing s = true) (hlvl : (co s c).level < 16) :
    jobStartOp s c = startOver (setCo (setQueue s n q) c (stopLong (co s c))) c n j := by
  unfold jobStartOp
  rw [hs]
  dsimp only
  rw [hq]
  refine if_pos ?_
  rw [hev, hh, hr, decide_eq_true hlvl]
  simp only [Option.isNone_none, Bool.and_true]
  exact hgo

theorem theFirstJobStarts : Clause.TheFirstJobStarts := by
  intro s c n j q v hc hs hq hv k hgo hev hh hr hlvl
  have hg : mayStart s k j = true := by
    unfold mayStart
    rcases hgo with hw | ⟨h1, ⟨r, hj, ha⟩, h2, h3, h4, h5, h6⟩
    · rw [decide_eq_true hw]
      rfl
    · rw [decide_eq_true h1, hj, h2, decide_eq_true h3, h4, h5, h6]
      dsimp only
      rw [ha]
      exact Bool.or_true _
  have hop := jobStartOp_starts hs hq hg hev hh hr hlvl
  obtain ⟨h1, h2, h3, -⟩ := stopLong_context k
  generalize hl : stopLong k = l at h1 h2 h3
  rw [show stopLong (co s c) = l from hl] at hop
  have hco : co (setCo (setQueue s n q) c l) c = l := co_setCo_same ..
  have hother (d : Nat) (hd : d ≠ c) : co (setCo (setQueue s n q) c l) d = co s d := (co_setCo ..).trans (if_neg hd)
  obtain ⟨hrun, hothers, hcarts⟩ := startOver_runs (n := n) (s := setCo (setQueue s n q) c l) (c := c) ((congrArg Coach.access hco).trans (h1.trans (serving_access hs)))
    ((cartOf_congr (s := setQueue s n q) rfl _).trans hv)
  have hqueue (m : Nat) : queueOf (startOver (setCo (setQueue s n q) c l) c n j) m = queueOf (setQueue s n q) m :=
    queueOf_congr (s := setQueue s n q) hcarts m
  refine ⟨_, (act_wf (decide_eq_true (Nat.lt_trans hc (by decide)))).trans (congrArg _ hop), ?_, (hqueue n).trans ((queueOf_setQueue ..).trans (if_pos rfl)),
    fun m hm => (hqueue m).trans ((queueOf_setQueue ..).trans (if_neg hm)), fun d hd => (hothers d hd).trans (by rw [hother d hd])⟩
  unfold JobRuns at hrun ⊢
  rw [hco, h2, h3] at hrun
  exact hrun

end Sys2Proof.Machine
end

section
/-! The end of a job (R252, R254). -/
namespace Sys2Proof.Machine

variable {s t u : State} {c n : Nat} {k : Coach} {j : Job}

/-! ### The coach whose job has ended -/

/-- The registers of a coach whose job has ended: its stack pointer as at the start, no overrun, no budget, a heartbeat. -/
def endedRegs (k : Coach) : Coach :=
  let l := setCoF (wrCo k 0x402 k.espStart) 0x504 29 1 0
  wrCo (setCoF l 0x506 31 1 0) 0x500 (rdCo l 0x500 + 1)
/-- The job and what it raised are gone. -/
def jobless (k : Coach) : Coach :=
  { k with job := none, cdone := none, exc := none, long := none, budgetDue := false, budgetHold := none, decoded := none, handlers := 0, pend := [], precise := none }

theorem coOnly_endedRegs (k : Coach) : CoOnly k (endedRegs k) := by
  unfold endedRegs
  exact (((coOnly_wrCo ..).trans (coOnly_setCoF ..)).trans (coOnly_setCoF ..)).trans (coOnly_wrCo ..)
theorem rdCo_endedRegs (k : Coach) : rdCo (endedRegs k) 0x402 = k.espStart ∧ coB (endedRegs k) 0x506 31 = false := by
  have h6 : rdCo (endedRegs k) 0x506 = setR (rdCo k 0x506) 31 1 0 := by
    unfold endedRegs setCoF
    simp only [rdCo_wrCo, Nat.reduceEqDiff, if_false, if_true]
  refine ⟨?_, ?_⟩
  · unfold endedRegs setCoF
    simp only [rdCo_wrCo, Nat.reduceEqDiff, if_false, if_true]
  · unfold coB
    rw [h6, rbit_setR _ _ _ _ _ (by decide)]
    rfl
theorem jobless_fields (k : Coach) : (jobless k).co = k.co ∧ (jobless k).job = none ∧ (jobless k).handlers = 0 ∧ (jobless k).frames = k.frames ∧
    (jobless k).level = k.level := by
  unfold jobless
  exact ⟨rfl, rfl, rfl, rfl, rfl⟩
theorem dispatched_fields (k : Coach) (m : Nat) : (dispatched k m).co = k.co ∧ (dispatched k m).job = k.job ∧ (dispatched k m).handlers = k.handlers := by
  unfold dispatched
  exact ⟨rfl, rfl, rfl⟩

/-- The coach as it stands when its job's end has been counted. -/
def endedCoach (k : Coach) : Coach := dispatched (jobless (endedRegs k)) 10
theorem endedCoach_fields (k : Coach) : rdCo (endedCoach k) 0x402 = k.espStart ∧ coB (endedCoach k) 0x506 31 = false ∧ (endedCoach k).job = none ∧
    (endedCoach k).handlers = 0 ∧ (endedCoach k).frames = k.frames ∧ (endedCoach k).level = k.level := by
  obtain ⟨h1, h2⟩ := rdCo_endedRegs k
  have hc := coOnly_endedRegs k
  unfold endedCoach
  generalize endedRegs k = l at h1 h2 hc
  obtain ⟨a1, a2, a3, a4, a5⟩ := jobless_fields l
  generalize jobless l = m at a1 a2 a3 a4 a5
  obtain ⟨b1, b2, b3⟩ := dispatched_fields m 10
  obtain ⟨-, b4, b5⟩ := dispatched_context m 10
  have hr (off : Nat) : rdCo (dispatched m 10) off = rdCo l off := rdCo_congr (b1.trans a1) off
  exact ⟨(hr _).trans h1, (congrArg (rbit · 31) (hr _)).trans h2, b2.trans a2, b3.trans a3, b5.trans (a4.trans hc.frames), b4.trans (a5.trans hc.level)⟩

/-! ### What the end of a job books -/

/-- The books of carts, graphs and wagons may change, but no count of ended jobs. -/
structure Booked (s t : State) : Prop where
  coaches : t.coaches = s.coaches
  dtime : t.dtime = s.dtime
  ends : ∀ m, m % 8 = 1 → tget 0 t.carts.counts m = tget 0 s.carts.counts m

theorem Booked.refl (s : State) : Booked s s := ⟨rfl, rfl, fun _ _ => rfl⟩
theorem Booked.trans (h : Booked s t) (g : Booked t u) : Booked s u :=
  ⟨g.coaches.trans h.coaches, g.dtime.trans h.dtime, fun m hm => (g.ends m hm).trans (h.ends m hm)⟩
theorem Booked.ite {p : Prop} [Decidable p] (ht : Booked s t) (hu : Booked s u) : Booked s (if p then t else u) := by
  split
  · exact ht
  · exact hu
theorem Booked.foldl {α : Type} (f : State → α → State) (h : ∀ s a, Booked s (f s a)) (xs : List α) (s : State) : Booked s (xs.foldl f s) := by
  induction xs generalizing s with
  | nil => exact .refl s
  | cons a r ih => exact (h s a).trans (ih (f s a))
theorem booked_lostPeriod (s : State) (v k : Nat) : Booked s (lostPeriod s v k) := ⟨rfl, rfl, fun _ _ => rfl⟩
theorem booked_tellWagons (s : State) (v k : Nat) (b : Bool) : Booked s (tellWagons s v k b) := ⟨rfl, rfl, fun _ _ => rfl⟩
theorem booked_setLive (s : State) (v : Nat) (b : Bool) : Booked s (setLive s v b) := ⟨rfl, rfl, fun _ _ => rfl⟩
theorem booked_enqueue (s : State) (n : Nat) (j : Job) : Booked s (enqueue s n j) := ⟨rfl, rfl, fun _ _ => rfl⟩
theorem booked_notifySucc (s : State) (v k : Nat) (b : Bool) : Booked s (notifySucc s v k b) := by
  rw [graphOnly_notifySucc]
  exact ⟨rfl, rfl, fun _ _ => rfl⟩
theorem booked_cartCount (s : State) (v i : Nat) (h : i % 8 ≠ 1) : Booked s (cartCount s v i) :=
  ⟨rfl, rfl, fun m hm => (counts_cartCount ..).trans (by rw [if_neg (by omega), Nat.add_zero])⟩
theorem booked_countMiss (s : State) (v : Nat) : Booked s (countMiss s v) := by
  have h := booked_cartCount s v 2 (by decide)
  rw [countMiss_rest]
  exact ⟨h.coaches, h.dtime, h.ends⟩

theorem booked_releaseCart (s : State) (v k rel : Nat) (plost : Bool) : Booked s (releaseCart s v k rel plost) := by
  have hlost (p : Nat) {x : State} (hx : Booked s x) : Booked s (if p = 0 then x else notifySucc x v k true) := .ite hx (hx.trans (booked_notifySucc ..))
  have hlive : Booked s (setLive (cartCount s v 0) v true) := (booked_cartCount s v 0 (by decide)).trans (booked_setLive ..)
  unfold releaseCart
  split
  · split
    · exact hlost _ ((booked_cartCount s v 5 (by decide)).trans (booked_lostPeriod ..))
    · split
      · exact hlost _ (.refl s)
      · dsimp only
        split
        · exact (hlive.trans (u := rootReleased (setLive (cartCount s v 0) v true) _ v k rel) ⟨rfl, rfl, fun _ _ => rfl⟩).trans (booked_enqueue ..)
        · exact hlive.trans (booked_enqueue ..)
  · exact .refl s
theorem booked_graphOne (s : State) (v : Nat) : Booked s (graphOne s v) := by
  unfold graphOne
  split
  · exact .refl s
  next g _ =>
    have h : Booked s { s with carts := { s.carts with graph := s.carts.graph.filter (fun x => !(x = g)) } } := ⟨rfl, rfl, fun _ _ => rfl⟩
    exact h.trans (booked_releaseCart ..)

/-- The counts, the queues, what lives and what its successors learn, as the end of a job books it. -/
def endBooked (s : State) (j : Job) (lost : Bool) : State :=
  let s := cartCount s j.cart 1
  let s := if j.deadline * 10 < s.dtime then countMiss s j.cart else s
  let s := setLive s j.cart false
  let s := if lost then lostPeriod s j.cart j.k else tellWagons s j.cart j.k false
  notifySucc s j.cart j.k lost
/-- Its successors that are due are released. -/
def succReleased (s : State) (j : Job) : State := match s.carts.table with | some t => (succsAt t j.cart).foldl graphOne s | none => s

theorem booked_succReleased (s : State) (j : Job) : Booked s (succReleased s j) := by
  unfold succReleased
  split
  · exact .foldl _ booked_graphOne _ _
  · exact .refl s
theorem succReleased_none (h : ∀ tt, s.carts.table = some tt → succsAt tt j.cart = []) : succReleased s j = s := by
  unfold succReleased
  split
  next tt ht =>
    rw [h tt ht]
    rfl
  next => rfl

/-- The job's end is counted, nothing else of the ends. -/
theorem booked_endBooked (s : State) (j : Job) (lost : Bool) : Booked (cartCount s j.cart 1) (endBooked s j lost) := by
  have hmiss : Booked (cartCount s j.cart 1) (if j.deadline * 10 < s.dtime then countMiss (cartCount s j.cart 1) j.cart else cartCount s j.cart 1) :=
    .ite (booked_countMiss ..) (.refl _)
  have hlive := hmiss.trans (booked_setLive _ j.cart false)
  exact (hlive.trans (.ite (booked_lostPeriod _ j.cart j.k) (booked_tellWagons _ j.cart j.k false))).trans (booked_notifySucc ..)

/-- The cart of an ended job lives no more; no queue changes. -/
theorem endBooked_cart (s : State) (j : Job) (lost : Bool) : cartLive (endBooked s j lost) j.cart = false ∧
    (endBooked s j lost).carts.queues = s.carts.queues ∧ (endBooked s j lost).carts.table = s.carts.table := by
  have hx (x : State) (h1 : x.carts.queues = s.carts.queues) (h2 : x.carts.table = s.carts.table) :
      let y := if lost then lostPeriod (setLive x j.cart false) j.cart j.k else tellWagons (setLive x j.cart false) j.cart j.k false
      cartLive (notifySucc y j.cart j.k lost) j.cart = false ∧ (notifySucc y j.cart j.k lost).carts.queues = s.carts.queues ∧
      (notifySucc y j.cart j.k lost).carts.table = s.carts.table := by
    intro y
    have hlive := cartLive_setLive x j.cart false
    rw [graphOnly_notifySucc]
    cases lost with
    | true => exact ⟨hlive, h1, h2⟩
    | false => exact ⟨hlive, h1, h2⟩
  unfold endBooked
  dsimp only
  refine hx _ ?_ ?_
  · split
    · rw [countMiss_rest]
      rfl
    · rfl
  · split
    · rw [countMiss_rest]
      rfl
    · rfl

/-! ### The context after it -/

/-- With no saved context the coach waits. -/
def idle (k : Coach) (now : Nat) : Coach := { k with run := .waiting, level := 0, lastBeat := now }
theorem idle_fields (k : Coach) (now : Nat) : (idle k now).run = .waiting ∧ (idle k now).lastBeat = now ∧ (idle k now).job = k.job ∧ (idle k now).level = 0 ∧
    (idle k now).co = k.co ∧ (idle k now).handlers = k.handlers := by
  unfold idle
  exact ⟨rfl, rfl, rfl, rfl, rfl, rfl⟩
/-- The saved context goes on. -/
def resumed (k : Coach) (f : Frame) (r : List Frame) (now : Nat) : Coach := { loadFrame k f with frames := r, level := k.level - 1, lastBeat := now }
theorem loadFrame_fields (k : Coach) (f : Frame) : (loadFrame k f).pc = f.pc ∧ (loadFrame k f).g = f.g ∧ (loadFrame k f).p = f.p ∧ (loadFrame k f).n = f.n ∧
    (loadFrame k f).v = f.v ∧ (loadFrame k f).acc = f.acc ∧ (loadFrame k f).job = f.job := by
  unfold loadFrame
  exact ⟨rfl, rfl, rfl, rfl, rfl, rfl, rfl⟩
/-- The coach waits, or takes up what comes next. -/
def nextContext (s : State) (c n : Nat) : State :=
  let k := co s c
  match k.frames with
  | [] => setCo s c (idle k s.dtime)
  | f :: r =>
    let next := match queueOf s n with
      | q :: _ => if (match f.job with | some u => ahead s q u | none => true) then some q else none
      | [] => none
    match next with
    | some q => loadJob (dispTime (setQueue s n ((queueOf s n).drop 1)) c 10) c n q
    | none => setRegion7 (dispTime (setCo s c (resumed k f r s.dtime)) c 14) c f.region

/-- The end of a job: its registers, its books, its successors, the next context. -/
theorem endJob_eq (s : State) (c n : Nat) (j : Job) (lostBit : Bool) : ∃ lost,
    endJob s c n j lostBit = nextContext (succReleased (endBooked (setCo s c (endedCoach (co s c))) j lost) j) c n := by
  have h (k : Coach) : dispTime (setCo s c (jobless k)) c 10 = setCo s c (dispatched (jobless k) 10) := by
    rw [dispTime_eq, co_setCo_same, setCo_setCo]
  unfold endedCoach
  rw [← h]
  exact ⟨_, rfl⟩

theorem setRegion7_co (s : State) (c : Nat) (l : List W32) (d : Nat) : co (setRegion7 s c l) d = co s d :=
  congrArg (tget Coach.reset · d) (setRegion7_coaches ..).1

theorem nextContext_idle (h : (co s c).frames = []) : nextContext s c n = setCo s c (idle (co s c) s.dtime) := by
  unfold nextContext
  dsimp only
  rw [h]

theorem nextContext_resumed {f : Frame} {r : List Frame} (h : (co s c).frames = f :: r) (hq : queueOf s n = []) :
    nextContext s c n = setRegion7 (setCo s c (dispatched (resumed (co s c) f r s.dtime) 14)) c f.region := by
  have hd : dispTime (setCo s c (resumed (co s c) f r s.dtime)) c 14 = setCo s c (dispatched (resumed (co s c) f r s.dtime) 14) := by
    rw [dispTime_eq, co_setCo_same, setCo_setCo]
  unfold nextContext
  dsimp only
  rw [h]
  dsimp only
  rw [hq, ← hd]

/-- Loading a job changes no other coach and no books. -/
theorem loadJob_rest (s : State) (c n : Nat) (j : Job) : (loadJob s c n j).carts = s.carts ∧ ∀ d, d ≠ c → co (loadJob s c n j) d = co s d := by
  cases hv : cartOf s j.cart with
  | none =>
    have h : loadJob s c n j = s := by
      unfold loadJob
      rw [hv]
    rw [h]
    exact ⟨rfl, fun _ _ => rfl⟩
  | some v =>
    obtain ⟨-, ho, hc⟩ := loadJob_loads (c := c) (n := n) hv
    exact ⟨hc, ho⟩

/-- The next context changes no count and no other coach. -/
theorem nextContext_rest (s : State) (c n : Nat) : (nextContext s c n).carts.counts = s.carts.counts ∧ ∀ m, m ≠ c → co (nextContext s c n) m = co s m := by
  have hset (k : Coach) (m : Nat) (hm : m ≠ c) : co (setCo s c k) m = co s m := (co_setCo ..).trans (if_neg hm)
  unfold nextContext
  dsimp only
  split
  · exact ⟨rfl, hset _⟩
  · split
    next q _ =>
      obtain ⟨h1, h2⟩ := loadJob_rest (dispTime (setQueue s n ((queueOf s n).drop 1)) c 10) c n q
      exact ⟨congrArg (fun x => x.counts) h1, fun m hm => (h2 m hm).trans (hset _ m hm)⟩
    next =>
      refine ⟨congrArg (fun x => x.counts) (setRegion7_coaches ..).2, fun m hm => (setRegion7_co ..).trans ?_⟩
      rw [dispTime_eq, setCo_setCo]
      exact hset _ m hm
theorem nextContext_counts (s : State) (c n : Nat) : (nextContext s c n).carts.counts = s.carts.counts := (nextContext_rest s c n).1
theorem nextContext_other (s : State) (n : Nat) {m : Nat} (hm : m ≠ c) : co (nextContext s c n) m = co s m := (nextContext_rest s c n).2 m hm

/-- What a context that goes on has. -/
theorem resumed_fields (k : Coach) (f : Frame) (r : List Frame) (now m : Nat) :
    let l := dispatched (resumed k f r now) m
    l.pc = f.pc ∧ l.g = f.g ∧ l.p = f.p ∧ l.n = f.n ∧ l.v = f.v ∧ l.acc = f.acc ∧ l.job = f.job ∧ l.frames = r ∧ l.lastBeat = now ∧ l.level = k.level - 1 := by
  obtain ⟨h1, h2, h3, h4, h5, h6, h7⟩ := loadFrame_fields k f
  unfold resumed dispatched
  generalize loadFrame k f = l at h1 h2 h3 h4 h5 h6 h7
  exact ⟨h1, h2, h3, h4, h5, h6, h7, rfl, rfl, rfl⟩

/-- The end of a job of a coach that has drained. -/
theorem jobOver_endJob (s : State) (c n : Nat) (j : Job) (lostBit : Bool) {d : Coach} (hf : d.frames = (co s c).frames) (hl : d.level = (co s c).level)
    (he : d.espStart = (co s c).espStart) : JobOver s (endJob (setCo s c d) c n j lostBit) c n j := by
  obtain ⟨lost, heq⟩ := endJob_eq (setCo s c d) c n j lostBit
  rw [co_setCo_same, setCo_setCo] at heq
  obtain ⟨e1, e2, e3, e4, e5, e6⟩ := endedCoach_fields d
  generalize endedCoach d = e at heq e1 e2 e3 e4 e5 e6
  have hb := booked_endBooked (setCo s c e) j lost
  obtain ⟨hlive, hqueues, htable⟩ := endBooked_cart (setCo s c e) j lost
  generalize endBooked (setCo s c e) j lost = b at heq hb hlive hqueues htable
  have hs := hb.trans (booked_succReleased b j)
  generalize hx : succReleased b j = x at heq hs
  have hcoach (m : Nat) : co x m = co (setCo s c e) m := congrArg (tget Coach.reset · m) hs.coaches
  have hself : co x c = e := (hcoach c).trans (co_setCo_same ..)
  have hcount : tget 0 x.carts.counts (8 * j.cart + 1) = tget 0 s.carts.counts (8 * j.cart + 1) + 1 :=
    (hs.ends _ (by omega)).trans ((counts_cartCount ..).trans (by rw [if_pos rfl]; rfl))
  have hdtime : x.dtime = s.dtime := hs.dtime
  have hframes : (co x c).frames = (co s c).frames := (congrArg Coach.frames hself).trans (e5.trans hf)
  rw [heq]
  refine ⟨?_, fun h0 => ?_, fun f r h1 hq hsucc => ?_, fun m hm => ?_⟩
  · exact (congrArg (tget 0 · _) (nextContext_counts ..)).trans hcount
  · rw [nextContext_idle (hframes.trans h0), hself, hdtime, co_setCo_same]
    obtain ⟨i1, i2, i3, i4, i5, i6⟩ := idle_fields e s.dtime
    exact ⟨i1, i2, i3.trans e3, i4, (rdCo_congr i5 _).trans (e1.trans he), (congrArg (rbit · 31) (rdCo_congr i5 _)).trans e2, i6.trans e4⟩
  · have hxb : x = b := hx.symm.trans (succReleased_none fun tt ht => hsucc tt (htable.symm.trans ht))
    have hqueue : queueOf x n = [] := by
      unfold queueOf at hq ⊢
      rw [hxb, hqueues]
      exact hq
    rw [nextContext_resumed (hframes.trans h1) hqueue, setRegion7_co, co_setCo_same, hself, hdtime]
    obtain ⟨r1, r2, r3, r4, r5, r6, r7, r8, r9, r10⟩ := resumed_fields e f r s.dtime 14
    refine ⟨r1, r2, r3, r4, r5, r6, r7, r8, r9, r10.trans (by rw [e6, hl]), ?_⟩
    unfold cartLive at hlive ⊢
    rw [(setRegion7_coaches ..).2]
    change decide (tget 0 x.carts.live j.cart = 1) = false
    rw [hxb]
    exact hlive
  · rw [nextContext_other _ _ hm]
    exact (hcoach m).trans ((co_setCo ..).trans (if_neg hm))

/-- JOB_END. -/
theorem jobEndOp_ends {lost : Bool} (hs : serving s c = some n) (hj : (co s c).job = some j) (hd : (co s c).cdone = some lost) (hr : (co s c).run = .running) :
    jobEndOp s c = endJob (setCo s c (drain s c (co s c))) c n j lost := by
  unfold jobEndOp
  rw [hs]
  dsimp only
  rw [hj, hd]
  exact if_pos hr

theorem graceOp_ends (hn : logicalOf s c = some n) (hj : (co s c).job = some j) (hov : coB (co s c) 0x504 29 = true) (h0 : coF (co s c) 0x506 0 24 = 0)
    (ha : (co s c).access = []) (hf : (co s c).after = none) (hr : (co s c).run = .running) (hp : atDrainPt (co s c) = true) (hs : (co s c).stopDue = false) :
    graceOp s c = endJob (setCo s c (drain s c (stopLong (co s c)))) c n j true := by
  unfold graceOp
  dsimp only
  rw [hn, hj]
  dsimp only
  rw [hov, decide_eq_true h0, ha, hf, decide_eq_true hr, hp, hs]
  rfl

theorem jobsEnd : Clause.JobsEnd := by
  intro s c n j hc hj hr
  obtain ⟨-, d1, d2, d3⟩ := drain_context s c (co s c)
  obtain ⟨-, p1, p2, p3⟩ := stopLong_context (co s c)
  obtain ⟨-, q1, q2, q3⟩ := drain_context s c (stopLong (co s c))
  refine ⟨fun hs hd => ?_, fun hn hov h0 ha hf hp hsd => ?_⟩
  · obtain ⟨lost, hlost⟩ := Option.ne_none_iff_exists'.mp hd
    exact ⟨_, (act_wf (decide_eq_true (Nat.lt_trans hc (by decide)))).trans (congrArg _ (jobEndOp_ends hs hj hlost hr)), jobOver_endJob s c n j lost d2 d1 d3⟩
  · exact ⟨_, (act_wf (decide_eq_true (Nat.lt_trans hc (by decide)))).trans (congrArg _ (graceOp_ends hn hj hov h0 ha hf hr hp hsd)),
      jobOver_endJob s c n j true (q2.trans p2) (q1.trans p1) (q3.trans p3)⟩

/-- Settles O26. -/
theorem jobsStartAndEnd : Obligations.JobsStartAndEnd := ⟨theFirstJobStarts, jobsEnd⟩

end Sys2Proof.Machine
end

section
/-! A coach starts, takes a job when idle, and has its heartbeat sampled (R187, R263 to R269). -/
namespace Sys2Proof.Machine

variable {s t u : State} {c n : Nat} {k : Coach} {j : Job}

/-! ### Where a coach starts -/

/-- The coach's own access passes its cycles at most, when none of its accesses is under way. -/
theorem coachNow_coach (ha : (co s c).access = []) (kd : AccKind) (a m data : Nat) :
    co (coachNow s c kd a m data).st c = co s c ∨ ∃ x, co (coachNow s c kd a m data).st c = passTime (co s c) 0 x := by
  have hrefused : co (epochRefuse s c a) c = co s c := (served_epochRefuse s c a).co_eq ha
  unfold coachNow
  split
  next kind inst off own _ =>
    split
    · exact .inl hrefused
    · split
      · exact .inl ((served_dramRefused ..).co_eq ha)
      · have ht := (served_turnAccess s (reqClass c 0 own) (portOf kind inst off c own) kd (wordKey kind inst off) m data c).co_eq ha
        dsimp only
        generalize turnAccess s (reqClass c 0 own) (portOf kind inst off c own) kd (wordKey kind inst off) m data c = o at ht
        unfold lostCycles
        split
        · exact .inl ht
        next h0 =>
          rw [co_setCo_same, ht]
          exact .inr ⟨_, rfl⟩
  · split
    · exact .inl hrefused
    · exact .inl rfl
  · split
    · exact .inl hrefused
    · exact .inl rfl
  · exact .inl rfl

/-- The read of the vector table does the same. -/
theorem vectorOf_coach (ha : (co s c).access = []) (e : Nat) :
    co (vectorOf s c e).1 c = co s c ∨ ∃ x, co (vectorOf s c e).1 c = passTime (co s c) 0 x := by
  have h := coachNow_coach ha .load (coF (co s c) 0x400 7 10 * 128 + 2 * e) 2 0
  unfold vectorOf
  dsimp only
  generalize coachNow s c .load (coF (co s c) 0x400 7 10 * 128 + 2 * e) 2 0 = o at h
  split
  · exact h
  · exact h

/-- What a coach that starts shows: its logic at reset, at supervisor level, its count of halts kept. -/
structure Fresh (k l : Coach) : Prop where
  run : l.run = .running
  g : l.g = []
  p : l.p = []
  n : l.n = []
  v : l.v = []
  acc : l.acc = []
  job : l.job = none
  frames : l.frames = []
  exc : l.exc = none
  sup : isSup l = true
  pend : l.pend = []
  haltCount : l.haltCount = k.haltCount
  handed : l.handed = false
  access : l.access = []

/-- A coach's logic at reset, as it starts. -/
def restarted (k : Coach) : Coach := { restartCoach k with run := .running }
theorem fresh_restarted (k : Coach) : Fresh k (restarted k) := by
  have hr : rdCo (restartCoach k) 0x002 = 0x2 := (rdCo_wrCo ..).trans (if_neg (by decide))
  have hs : isSup (restarted k) = true := (congrArg (rbit · 1) ((rdCo_congr rfl _).trans hr)).trans (by decide)
  exact ⟨rfl, rfl, rfl, rfl, rfl, rfl, rfl, rfl, rfl, hs, rfl, rfl, rfl, rfl⟩

theorem Fresh.passTime {l : Coach} (h : Fresh k l) (x : Nat) : Fresh k (passTime l 0 x) :=
  ⟨(passTime_run ..).trans h.run, (passTime_g ..).trans h.g, (passTime_p ..).trans h.p, (passTime_n ..).trans h.n, (passTime_v ..).trans h.v,
    (passTime_acc ..).trans h.acc, (passTime_job ..).trans h.job, (passTime_frames ..).trans h.frames, (passTime_exc ..).trans h.exc,
    (congrArg (rbit · 1) (rdCo_passTime (by decide) ..)).trans h.sup, (passTime_pend ..).trans h.pend, (passTime_haltCount ..).trans h.haltCount,
    (passTime_handed ..).trans h.handed, (passTime_access ..).trans h.access⟩
/-- A coach at an address. -/
def startedAt (k : Coach) (a : W32) : Coach := { k with pc := a, lastPc := a }
theorem Fresh.at {l : Coach} (h : Fresh k l) (a : W32) : Fresh k (startedAt l a) := by
  obtain ⟨h1, h2, h3, h4, h5, h6, h7, h8, h9, h10, h11, h12, h13, h14⟩ := h
  exact ⟨h1, h2, h3, h4, h5, h6, h7, h8, h9, (congrArg (rbit · 1) (rdCo_congr rfl _)).trans h10, h11, h12, h13, h14⟩

theorem co_withCarts (s : State) (x : Carts) (d : Nat) : co { s with carts := x } d = co s d := rfl

/-- One line of the crash area, as L0 reads it. -/
def crashLine (c : Nat) (s : State) (i : Nat) : BankOut :=
  turnAccess s (if c < 72 then 5 else 4) (portKey (bankKey (if c < 72 then 0 else 2) (if c < 72 then c else c - 72) 0) true) .load
    (wordKey (if c < 72 then 0 else 2) (if c < 72 then c else c - 72) (0x3FC0 + 8 * i)) 8 0 72
theorem served_crashLine (c : Nat) (s : State) (i : Nat) : Served s (crashLine c s i).st := by
  unfold crashLine
  exact served_turnAccess ..
/-- The words of a line follow those read before it. -/
def lineRead (now : Nat) (i : Nat) (o : BankOut) (l : List Word) : State × List Word :=
  (o.st, l ++ (if o.code = 0 then wordsOf 8 o.data else (upto 8).map (fun w => Config.deviceRead (0x3FC0 + 8 * i + w) now)))
theorem served_lineRead {o : BankOut} (h : Served s o.st) (now i : Nat) (l : List Word) : Served s (lineRead now i o l).1 := h
def crashStep (now c : Nat) (t : State × List Word) (i : Nat) : State × List Word := lineRead now i (crashLine c t.1 i) t.2
theorem served_crashStep (now c : Nat) (t : State × List Word) (i : Nat) : Served t.1 (crashStep now c t i).1 := by
  unfold crashStep
  exact served_lineRead (served_crashLine c t.1 i) ..
/-- The crash area as L0 reads it. -/
def crashRead (s : State) (c : Nat) : State × List Word := (upto 8).foldl (crashStep s.now c) (s, [])

theorem served_foldl_fst {α β : Type} (f : State × β → α → State × β) (h : ∀ x a, Served x.1 (f x a).1) (xs : List α) (x : State × β) :
    Served x.1 (xs.foldl f x).1 := by
  induction xs generalizing x with
  | nil => exact .refl _
  | cons a r ih => exact (h x a).trans (ih _)
theorem served_crashRead (s : State) (c : Nat) : Served s (crashRead s c).1 := by
  unfold crashRead
  exact served_foldl_fst _ (served_crashStep s.now c) _ (s, [])

/-- L0's copy of a crash area leaves a coach's halts alone. -/
theorem copyCrash_eq (s : State) (c : Nat) : copyCrash s c = if (co s c).run ≠ .halted then s
    else { (crashRead s c).1 with carts := { (crashRead s c).1.carts with crash := tput [] (crashRead s c).1.carts.crash c (crashRead s c).2 } } := rfl
theorem copyCrash_haltCount (s : State) (c d : Nat) : (co (copyCrash s c) d).haltCount = (co s d).haltCount := by
  have h := served_crashRead s c
  have hr (r : State × List Word) (h : Served s r.1) :
      (co { r.1 with carts := { r.1.carts with crash := tput [] r.1.carts.crash c r.2 } } d).haltCount = (co s d).haltCount := h.haltCount d
  rw [copyCrash_eq]
  split
  · rfl
  · exact hr _ h

theorem discardJobs_coach (s : State) (c : Nat) : (co (discardJobs s c) c).haltCount = (co s c).haltCount := by
  unfold discardJobs
  dsimp only
  have h (xs : List Job) (x : State) : Booked x (xs.foldl (fun s j => notifySucc (lostPeriod (setLive s j.cart false) j.cart j.k) j.cart j.k true) x) :=
    .foldl _ (fun s j => ((booked_setLive ..).trans (booked_lostPeriod ..)).trans (booked_notifySucc ..)) _ _
  have hc : ∀ {x y : State}, Booked x y → co y c = co x c := fun h => congrArg (tget Coach.reset · c) h.coaches
  rw [hc (h _ _), co_setCo_same]

/-- The coach in which the vector table is read. -/
theorem startedState_coaches (s : State) (c : Nat) : (startedState s c).coaches =
    (setCo (dropReqs (discardJobs (copyCrash s c) c) c) c (restarted (co (discardJobs (copyCrash s c) c) c))).coaches := by
  unfold startedState
  dsimp only
  generalize discardJobs (copyCrash s c) c = u
  split
  · exact (sourceOnly_setLevel ..).coaches
  · rfl
theorem startedState_coach (s : State) (c : Nat) : Fresh (co s c) (co (startedState s c) c) := by
  have hh : (co (discardJobs (copyCrash s c) c) c).haltCount = (co s c).haltCount := (discardJobs_coach ..).trans (copyCrash_haltCount ..)
  have hco := startedState_coaches s c
  generalize discardJobs (copyCrash s c) c = u at hh hco
  have hk : co (startedState s c) c = restarted (co u c) := (congrArg (tget Coach.reset · c) hco).trans (co_setCo_same ..)
  have h := fresh_restarted (co u c)
  rw [hk]
  exact { h with haltCount := h.haltCount.trans hh }

theorem aCoachStarts : Clause.ACoachStarts := by
  intro s c hc hp hd hf hr hs hdead v hv
  have hstart : startCoach (discardJobs (copyCrash s c) c) c none = setCo v.1 c (startedAt (co v.1 c) (n32 v.2.1)) := by
    unfold startCoach
    exact if_pos hv
  have hgo : (!(coachPresent s c && domOn s c) || decide (slotSt s c = 2) || decide ((co s c).run = .stopped) || (co s c).stopDue || (co s c).dead) = false := by
    rw [hp, hd, decide_eq_false hf, decide_eq_false hr, hs, hdead]
    rfl
  obtain ⟨t, hop, ht⟩ : ∃ t, startOp s c = t ∧ t.coaches = (setCo v.1 c (startedAt (co v.1 c) (n32 v.2.1))).coaches := by
    refine ⟨_, rfl, ?_⟩
    unfold startOp
    rw [if_neg (by rw [hgo]; exact Bool.false_ne_true), hstart]
    dsimp only
    generalize setCo v.1 c (startedAt (co v.1 c) (n32 v.2.1)) = u
    split
    · rfl
    · rfl
  have hco : co t c = startedAt (co v.1 c) (n32 v.2.1) := (congrArg (tget Coach.reset · c) ht).trans (co_setCo_same ..)
  have hfresh : Fresh (co s c) (co v.1 c) := by
    have h := startedState_coach s c
    rcases vectorOf_coach h.access 0 with hv | ⟨x, hv⟩
    · rw [hv]
      exact h
    · rw [hv]
      exact h.passTime x
  have h := hfresh.at (n32 v.2.1)
  refine ⟨t, (act_wf (decide_eq_true hc)).trans (congrArg _ hop), ?_⟩
  rw [hco]
  exact ⟨h.run, rfl, h.g, h.p, h.n, h.v, h.acc, h.job, h.frames, h.exc, h.sup, h.pend, h.haltCount, h.handed⟩

/-! ### An idle coach takes a job -/

theorem minBy_mem {α : Type} (key : α → List Nat) (xs : List α) {a : α} (h : minBy key xs = some a) : a ∈ xs := by
  induction xs generalizing a with
  | nil => cases h
  | cons b r ih =>
    unfold minBy at h
    split at h
    · cases h
      exact List.mem_cons_self
    next c hc =>
      split at h
      · cases h
        exact List.mem_cons_of_mem _ (ih hc)
      · cases h
        exact List.mem_cons_self

/-- A job that is stolen waits at one of the coaches searched. -/
theorem pickSteal_mem {hs : List Nat} {be : Bool} {h : Nat} (hp : pickSteal s n hs be = some (h, j)) : h ∈ hs := by
  obtain ⟨m, hm, hmem⟩ := List.mem_flatMap.mp (minBy_mem _ _ hp)
  obtain ⟨q, -, hq⟩ := List.mem_map.mp hmem
  cases hq
  exact hm

theorem ne_of_pickSteal_own {be : Bool} {h : Nat} (hp : pickSteal s n (ownCluster s n) be = some (h, j)) : h ≠ n := by
  have := (List.mem_filter.mp (pickSteal_mem hp)).2
  simp only [Bool.and_eq_true, decide_eq_true_eq] at this
  exact this.2
theorem ne_of_pickSteal_far {be : Bool} {h : Nat} (hp : pickSteal s n (farClusters u n) be = some (h, j)) : h ≠ n := by
  have := (List.mem_filter.mp (pickSteal_mem hp)).2
  rw [decide_eq_true_eq] at this
  exact fun he => this (by rw [he])

theorem thiefOf_serving (h : thiefOf s n = some c) : serving s c = some n := by
  unfold thiefOf at h
  split at h
  next d _ =>
    split at h
    next hh =>
      cases h
      simp only [Bool.and_eq_true, decide_eq_true_eq] at hh
      exact hh.1.1.1.1.1.1
    next => cases h
  · cases h

/-- Both coaches and the cart count a job that is stolen. -/
def theftCounted (x : State) (n h v : Nat) : State :=
  let y := setLogi x h { logi x h with stealsOut := incSat 32 (logi x h).stealsOut }
  cartCount (setLogi y n { logi y n with stealsIn := incSat 32 (logi y n).stealsIn }) v 4
theorem setLogi_rest (x : State) (m : Nat) (l : Logical) : (setLogi x m l).coaches = x.coaches ∧ (setLogi x m l).carts.table = x.carts.table ∧
    (setLogi x m l).carts.queues = x.carts.queues ∧ (setLogi x m l).carts.counts = x.carts.counts := ⟨rfl, rfl, rfl, rfl⟩
theorem cartCount_rest (x : State) (v i : Nat) : (cartCount x v i).coaches = x.coaches ∧ (cartCount x v i).carts.table = x.carts.table ∧
    (cartCount x v i).carts.queues = x.carts.queues ∧ (cartCount x v i).carts.logical = x.carts.logical := ⟨rfl, rfl, rfl, rfl⟩
theorem logi_cartCount (x : State) (v i m : Nat) : logi (cartCount x v i) m = logi x m := rfl

theorem theftCounted_books (x : State) (n h v : Nat) (hne : h ≠ n) : (theftCounted x n h v).coaches = x.coaches ∧
    (theftCounted x n h v).carts.table = x.carts.table ∧ (theftCounted x n h v).carts.queues = x.carts.queues ∧
    logi (theftCounted x n h v) n = { logi x n with stealsIn := incSat 32 (logi x n).stealsIn } ∧
    logi (theftCounted x n h v) h = { logi x h with stealsOut := incSat 32 (logi x h).stealsOut } ∧
    tget 0 (theftCounted x n h v).carts.counts (8 * v + 4) = tget 0 x.carts.counts (8 * v + 4) + 1 := by
  unfold theftCounted
  dsimp only
  obtain ⟨a1, a2, a3, a4⟩ := setLogi_rest x h { logi x h with stealsOut := incSat 32 (logi x h).stealsOut }
  have al (m : Nat) := logi_setLogi (s := x) h m { logi x h with stealsOut := incSat 32 (logi x h).stealsOut }
  generalize setLogi x h { logi x h with stealsOut := incSat 32 (logi x h).stealsOut } = y at a1 a2 a3 a4 al ⊢
  obtain ⟨b1, b2, b3, b4⟩ := setLogi_rest y n { logi y n with stealsIn := incSat 32 (logi y n).stealsIn }
  have bl (m : Nat) := logi_setLogi (s := y) n m { logi y n with stealsIn := incSat 32 (logi y n).stealsIn }
  rw [al n, if_neg hne.symm] at bl b1 b2 b3 b4 ⊢
  generalize setLogi y n { logi x n with stealsIn := incSat 32 (logi x n).stealsIn } = z at b1 b2 b3 b4 bl ⊢
  obtain ⟨c1, c2, c3, -⟩ := cartCount_rest z v 4
  refine ⟨c1.trans (b1.trans a1), c2.trans (b2.trans a2), c3.trans (b3.trans a3), (bl n).trans (if_pos rfl), (bl h).trans ((if_neg hne).trans ?_),
    (counts_cartCount ..).trans (by rw [if_pos rfl, b4, a4])⟩
  rw [al h, if_pos rfl]

/-- The job leaves its home's queue, and the theft is counted. -/
theorem takeJob_eq (s : State) (n c h cycles : Nat) (j : Job) : takeJob s n c h cycles j =
    startOver (dispTime (theftCounted (setQueue s h ((queueOf s h).filter (fun x => !(x = j)))) n h j.cart) c cycles) c n { j with stolen := true } := rfl

/-- What a theft of job `j` of `h` by `c`, which serves `n`, leaves. -/
def Taken (s t : State) (n c h : Nat) (j : Job) (v : Cart) : Prop :=
  JobRuns s t c { j with stolen := true } v ∧ queueOf t h = (queueOf s h).filter (fun x => !(x = j)) ∧
  (∀ m, m ≠ h → queueOf t m = queueOf s m) ∧ (logi t n).stealsIn = incSat 32 (logi s n).stealsIn ∧ (logi t h).stealsOut = incSat 32 (logi s h).stealsOut ∧
  tget 0 t.carts.counts (8 * j.cart + 4) = tget 0 s.carts.counts (8 * j.cart + 4) + 1

theorem logi_congr (h : t.carts = s.carts) (m : Nat) : logi t m = logi s m := by
  unfold logi
  rw [h]
theorem queueOf_of_queues (h : t.carts.queues = s.carts.queues) (m : Nat) : queueOf t m = queueOf s m := by
  unfold queueOf
  rw [h]
theorem cartOf_of_table (h : t.carts.table = s.carts.table) (v : Nat) : cartOf t v = cartOf s v := by
  unfold cartOf
  rw [h]

theorem taken_takeJob {h : Nat} {v : Cart} (cycles : Nat) (hne : h ≠ n) (ha : (co s c).access = []) (hv : cartOf s j.cart = some v) :
    Taken s (takeJob s n c h cycles j) n c h j v ∧ logi (takeJob s n c h cycles j) n = { logi s n with stealsIn := incSat 32 (logi s n).stealsIn } := by
  rw [takeJob_eq]
  have hq (m : Nat) := queueOf_setQueue s h m ((queueOf s h).filter (fun x => !(x = j)))
  have hx : (setQueue s h ((queueOf s h).filter (fun x => !(x = j)))).coaches = s.coaches ∧
    (setQueue s h ((queueOf s h).filter (fun x => !(x = j)))).carts.table = s.carts.table ∧
    (setQueue s h ((queueOf s h).filter (fun x => !(x = j)))).carts.counts = s.carts.counts ∧
    ∀ m, logi (setQueue s h ((queueOf s h).filter (fun x => !(x = j)))) m = logi s m := ⟨rfl, rfl, rfl, fun _ => rfl⟩
  generalize setQueue s h ((queueOf s h).filter (fun x => !(x = j))) = x at hq hx ⊢
  obtain ⟨x1, x2, x3, x4⟩ := hx
  obtain ⟨b1, b2, b3, b4, b5, b6⟩ := theftCounted_books x n h j.cart hne
  generalize theftCounted x n h j.cart = y at b1 b2 b3 b4 b5 b6 ⊢
  rw [dispTime_eq]
  have hco : co y c = co s c := congrArg (tget Coach.reset · c) (b1.trans x1)
  rw [hco]
  obtain ⟨d1, d2, d3⟩ := dispatched_context (co s c) cycles
  generalize dispatched (co s c) cycles = d at d1 d2 d3 ⊢
  have hvz : cartOf (setCo y c d) j.cart = some v := (cartOf_of_table (s := s) (b2.trans x2) _).trans hv
  obtain ⟨hrun, -, hcarts⟩ := startOver_runs (s := setCo y c d) (c := c) (n := n) (j := { j with stolen := true })
    ((congrArg Coach.access (co_setCo_same ..)).trans (d1.trans ha)) hvz
  generalize startOver (setCo y c d) c n { j with stolen := true } = w at hrun hcarts ⊢
  have hcy : w.carts = y.carts := hcarts
  refine ⟨⟨?_, ?_, fun m hm => ?_, ?_, ?_, ?_⟩, ?_⟩
  · unfold JobRuns at hrun ⊢
    rw [co_setCo_same, d2, d3] at hrun
    exact hrun
  · rw [queueOf_congr hcy, queueOf_of_queues b3, hq, if_pos rfl]
  · rw [queueOf_congr hcy, queueOf_of_queues b3, hq, if_neg hm]
  · rw [logi_congr hcy, b4, x4]
  · rw [logi_congr hcy, b5, x4]
  · rw [hcy, b6, x3]
  · rw [logi_congr hcy, b4, x4]

/-- A search of the other clusters is noted. -/
def crossNoted (s : State) (n : Nat) : State := setLogi s n { logi s n with lastCross := s.dtime }
theorem crossNoted_rest (s : State) (n : Nat) : (∀ d, co (crossNoted s n) d = co s d) ∧ (∀ v, cartOf (crossNoted s n) v = cartOf s v) ∧
    (∀ m, queueOf (crossNoted s n) m = queueOf s m) ∧ (crossNoted s n).carts.counts = s.carts.counts ∧
    logi (crossNoted s n) n = { logi s n with lastCross := s.dtime } ∧ ∀ m, m ≠ n → logi (crossNoted s n) m = logi s m := by
  obtain ⟨h1, h2, h3, h4⟩ := setLogi_rest s n { logi s n with lastCross := s.dtime }
  exact ⟨fun d => congrArg (tget Coach.reset · d) h1, cartOf_of_table h2, queueOf_of_queues h3, h4, (logi_setLogi ..).trans (if_pos rfl),
    fun m hm => (logi_setLogi ..).trans (if_neg hm)⟩

section
variable {e : Nat × Job} (ht : thiefOf s n = some c) (hx : regB s (clDctl (n / 8)) 8 = true)
  (hlate : 1024 * 1000 ≤ (s.dtime - (logi s n).lastCross) * clusterMHz s (n / 8))
include ht hx hlate

/-- A search of the other clusters that finds a job in its own. -/
theorem crossOp_own (h : pickSteal s n (ownCluster s n) false = some e) : crossOp s n = takeJob s n c e.1 20 e.2 := by
  have hmatch (o : Option (Nat × Job)) (x : State) : o = some e →
      (match o with | some e => takeJob s n c e.1 20 e.2 | none => x) = takeJob s n c e.1 20 e.2 := by
    rintro rfl
    rfl
  unfold crossOp
  rw [ht]
  dsimp only
  rw [hx, decide_eq_false (Nat.not_lt.mpr hlate)]
  exact (if_neg (by decide)).trans (hmatch _ _ h)
/-- One that finds a job in another cluster. -/
theorem crossOp_far (h : pickSteal s n (ownCluster s n) false = none)
    (hf : pickSteal (crossNoted s n) n (farClusters s n) true = some e) : crossOp s n = takeJob (crossNoted s n) n c e.1 112 e.2 := by
  have hmatch (o p : Option (Nat × Job)) (x : Nat × Job → State) : o = none → p = some e →
      (match o with | some e => x e | none => (match p with | some e => takeJob (crossNoted s n) n c e.1 112 e.2 | none => crossNoted s n)) =
        takeJob (crossNoted s n) n c e.1 112 e.2 := by
    rintro rfl rfl
    rfl
  unfold crossOp
  rw [ht]
  dsimp only
  rw [hx, decide_eq_false (Nat.not_lt.mpr hlate)]
  exact (if_neg (by decide)).trans (hmatch _ _ _ h hf)

end

theorem anIdleCoachTakesAJob : Clause.AnIdleCoachTakesAJob := by
  intro s n c h j v hn ht hv l own T
  have ha : (co s c).access = [] := serving_access (thiefOf_serving ht)
  refine ⟨fun hown => ?_, fun hx hlate => ⟨fun hown => ?_, fun hown hfar => ?_⟩⟩
  · have hop : hitchOp s n = takeJob s n c h 20 j := by
      unfold hitchOp
      rw [ht]
      dsimp only
      rw [show pickSteal s n (ownCluster s n) false = some (h, j) from hown]
    exact ⟨_, (act_wf (decide_eq_true hn)).trans (congrArg _ hop), (taken_takeJob 20 (ne_of_pickSteal_own hown) ha hv).1⟩
  · have hop : crossOp s n = takeJob s n c h 20 j := crossOp_own (e := (h, j)) ht hx hlate hown
    have hexec : exec (.crossClusterSearch n) s = .next (crossOp s n) := act_wf (decide_eq_true hn)
    rw [hop] at hexec
    exact ⟨_, hexec, (taken_takeJob 20 (ne_of_pickSteal_own hown) ha hv).1⟩
  · have hop : crossOp s n = takeJob (crossNoted s n) n c h 112 j :=
      crossOp_far (e := (h, j)) ht hx hlate hown hfar
    have hne := ne_of_pickSteal_far hfar
    obtain ⟨c1, c2, c3, c4, c5, c6⟩ := crossNoted_rest s n
    have hexec : exec (.crossClusterSearch n) s = .next (crossOp s n) := act_wf (decide_eq_true hn)
    rw [hop] at hexec
    clear hop hfar
    generalize crossNoted s n = x at c1 c2 c3 c4 c5 c6 hexec
    obtain ⟨⟨h1, h2, h3, h4, h5, h6⟩, h7⟩ := taken_takeJob (s := x) (v := v) 112 hne ((congrArg Coach.access (c1 c)).trans ha) ((c2 _).trans hv)
    have hrun : JobRuns s (takeJob x n c h 112 j) c { j with stolen := true } v := by
      unfold JobRuns at h1 ⊢
      rw [c1] at h1
      exact h1
    have hT : Taken s (takeJob x n c h 112 j) n c h j v :=
      ⟨hrun, h2.trans (by rw [c3]), fun m hm => (h3 m hm).trans (c3 m), h4.trans (by rw [c5]), h5.trans (by rw [c6 h hne]), h6.trans (by rw [c4])⟩
    exact ⟨_, hexec, hT, congrArg Logical.lastCross (h7.trans (by rw [c5]))⟩

/-! ### HEARTBEAT_SAMPLE -/

/-- A sample of one coach changes its own record, registers, sources and the black box. -/
structure Sampled (n : Nat) (s t : State) : Prop where
  rest : t = { s with carts := t.carts, regs := t.regs, intc := t.intc, bb := t.bb }
  others : ∀ m, m ≠ n → logi t m = logi s m

theorem Sampled.refl (n : Nat) (s : State) : Sampled n s s := ⟨rfl, fun _ _ => rfl⟩
theorem Sampled.co (h : Sampled n s t) (c : Nat) : co t c = co s c := by
  unfold Machine.co
  rw [h.rest]
theorem Sampled.dtime (h : Sampled n s t) : t.dtime = s.dtime := by rw [h.rest]
theorem Sampled.variant (h : Sampled n s t) : t.variant = s.variant := by rw [h.rest]
theorem sampled_setLogi (s : State) (n : Nat) (l : Logical) : Sampled n s (setLogi s n l) := ⟨rfl, fun m hm => (logi_setLogi ..).trans (if_neg hm)⟩
theorem sampled_declareDead (s : State) (n why : Nat) : Sampled n s (declareDead s n why) := by
  have hb := (offerOnly_bbOffer s (bbEntry s 1 0xFF 0x0301 (n32 n) (n32 (logi s n).slot) (n32 why) (n32 (logi s n).epoch))).rest
  have hl (x : State) (l : Logical) (i : Nat) (hx : x = { s with regs := x.regs, bb := x.bb }) : Sampled n s (pulse (setLogi x n l) i) := by
    have hp := (sourceOnly_pulse (setLogi x n l) i).rest
    refine ⟨?_, fun m hm => ?_⟩
    · rw [hp, hx]
      rfl
    · have h1 : logi (pulse (setLogi x n l) i) m = logi (setLogi x n l) m := by
        unfold logi
        rw [hp]
      rw [h1, logi_setLogi, if_neg hm, hx]
      rfl
  unfold declareDead
  dsimp only
  split
  · exact .refl n s
  · exact hl _ _ _ hb

/-- Only records of coaches, registers, sources and the black box differ. -/
def RecordsOnly (s t : State) : Prop := t = { s with carts := t.carts, regs := t.regs, intc := t.intc, bb := t.bb }
theorem RecordsOnly.trans (h : RecordsOnly s t) (g : RecordsOnly t u) : RecordsOnly s u := by
  unfold RecordsOnly at *
  rw [g, h]
theorem RecordsOnly.co (h : RecordsOnly s t) (c : Nat) : co t c = co s c := by
  unfold RecordsOnly at h
  unfold Machine.co
  rw [h]
theorem RecordsOnly.fields (h : RecordsOnly s t) : t.coaches = s.coaches ∧ t.dtime = s.dtime ∧ t.mem = s.mem ∧ t.variant = s.variant := by
  unfold RecordsOnly at h
  rw [h]
  exact ⟨rfl, rfl, rfl, rfl⟩

theorem sampled_sampleOne (s : State) (n : Nat) : Sampled n s (sampleOne s n) := by
  unfold sampleOne
  split
  · exact .refl n s
  · dsimp only
    split
    · exact .refl n s
    · split
      · exact sampled_setLogi ..
      · split
        · exact sampled_declareDead ..
        · exact .refl n s

/-- What one sample makes of a coach in service. -/
theorem sampleOne_logi (hs : slotOf s n = some c) (h0 : (logi s n).lstate = 0) (h1 : (co s c).run ≠ .stopped) (h2 : (co s c).run ≠ .off) :
    let x := rdCo (co s c) 0x500
    let fresh := (co s c).handed = true ∧ x ≠ (logi s n).lastCount
    (fresh → logi (sampleOne s n) n = { logi s n with lastCount := x, lastChange := s.dtime }) ∧
    (¬ fresh → (logi s n).lastChange + 1000000 ≤ s.dtime → sampleOne s n = declareDead s n 1) ∧
    (¬ fresh → s.dtime < (logi s n).lastChange + 1000000 → sampleOne s n = s) := by
  intro x fresh
  have heq : sampleOne s n = if fresh then setLogi s n { logi s n with lastCount := x, lastChange := s.dtime }
      else if (logi s n).lastChange + 1000000 ≤ s.dtime then declareDead s n 1 else s := by
    unfold sampleOne
    rw [hs]
    dsimp only
    rw [decide_eq_false (not_not_intro h0), decide_eq_false h1, decide_eq_false h2]
    refine (if_neg (by decide)).trans (if_congr ?_ rfl (if_congr ?_ rfl rfl))
    · rw [Bool.and_eq_true, decide_eq_true_eq]
    · rw [decide_eq_true_eq]
  rw [heq]
  refine ⟨fun hf => ?_, fun hf hl => (if_neg hf).trans (if_pos hl), fun hf hl => (if_neg hf).trans (if_neg (Nat.not_le.mpr hl))⟩
  rw [if_pos hf, logi_setLogi, if_pos rfl]

theorem declareDead_lstate (h0 : (logi s n).lstate = 0) (why : Nat) : (logi (declareDead s n why) n).lstate = 1 := by
  have hl (x : State) (l : Logical) (i : Nat) : logi (pulse (setLogi x n l) i) n = l := by
    have hp := (sourceOnly_pulse (setLogi x n l) i).rest
    have h1 : logi (pulse (setLogi x n l) i) n = logi (setLogi x n l) n := by
      unfold logi
      rw [hp]
    rw [h1, logi_setLogi, if_pos rfl]
  unfold declareDead
  dsimp only
  rw [h0]
  exact congrArg Logical.lstate (hl _ _ _)

/-- In a sample of several coaches each is sampled once, as it stood before. -/
theorem foldl_sampleOne (xs : List Nat) (hx : xs.Nodup) (s : State) : RecordsOnly s (xs.foldl sampleOne s) ∧
    (∀ n, n ∉ xs → logi (xs.foldl sampleOne s) n = logi s n) ∧
    (∀ n ∈ xs, ∃ u, RecordsOnly s u ∧ logi u n = logi s n ∧ logi (xs.foldl sampleOne s) n = logi (sampleOne u n) n) := by
  induction xs generalizing s with
  | nil => exact ⟨rfl, fun _ _ => rfl, nofun⟩
  | cons a r ih =>
    obtain ⟨ha, hr⟩ := List.nodup_cons.mp hx
    have h1 := sampled_sampleOne s a
    obtain ⟨i1, i2, i3⟩ := ih hr (sampleOne s a)
    refine ⟨RecordsOnly.trans h1.rest i1, fun n hn => ?_, fun n hn => ?_⟩
    · have hna : n ≠ a := fun h => hn (h ▸ List.mem_cons_self)
      exact (i2 n fun h => hn (List.mem_cons_of_mem _ h)).trans (h1.others n hna)
    · rcases List.mem_cons.mp hn with rfl | hn
      · exact ⟨s, rfl, rfl, i2 n ha⟩
      · have hna : n ≠ a := fun h => ha (h ▸ hn)
        obtain ⟨u, u1, u2, u3⟩ := i3 n hn
        exact ⟨u, RecordsOnly.trans h1.rest u1, u2.trans (h1.others n hna), u3⟩

theorem slotOf_congr (hv : t.variant = s.variant) (hl : logi t n = logi s n) : slotOf t n = slotOf s n := by
  unfold slotOf
  rw [hv, hl]

theorem heartbeatsAreSampled : Clause.HeartbeatsAreSampled := by
  intro s
  obtain ⟨h1, -, h3⟩ := foldl_sampleOne (upto s.variant.coaches) (List.nodup_range) s
  obtain ⟨f1, f2, f3, -⟩ := h1.fields
  refine ⟨_, act_wf rfl, f1, f2, f3, fun n c hn hs h0 hr1 hr2 => ?_⟩
  obtain ⟨u, u1, u2, u3⟩ := h3 n (List.mem_range.mpr hn)
  obtain ⟨-, ud, -, uv⟩ := u1.fields
  have hk := u1.co c
  have hsu : slotOf u n = some c := (slotOf_congr uv u2).trans hs
  obtain ⟨k1, k2, k3⟩ := sampleOne_logi hsu (by rw [u2, h0]) (by rw [hk]; exact hr1) (by rw [hk]; exact hr2)
  rw [hk, u2, ud] at k1 k2 k3
  intro x fresh
  refine ⟨fun hf => ?_, fun hf hl => ?_, fun hf hl => ?_⟩
  · have h := u3.trans (k1 hf)
    rw [show logi (sampleOp s) n = _ from h]
    exact ⟨rfl, rfl, h0⟩
  · have h := u3.trans (congrArg (logi · n) (k2 hf hl))
    rw [show logi (sampleOp s) n = _ from h]
    exact declareDead_lstate (by rw [u2, h0]) 1
  · exact (u3.trans (congrArg (logi · n) (k3 hf hl))).trans u2

/-- Settles O28. -/
theorem coachesStartIdleAndBeat : Obligations.CoachesStartIdleAndBeat := ⟨aCoachStarts, anIdleCoachTakesAJob, heartbeatsAreSampled⟩

end Sys2Proof.Machine
end

section
/-! Failover to a spare slot and the end of RECOMMISSION (R269 to R274). -/
namespace Sys2Proof.Machine

variable {s t u : State} {n c d f : Nat}

/-! ### What leaves the map of the coaches alone -/

/-- The logical coaches, the slots, what RECOMMISSION has left and the device state stay. -/
structure KeepsMap (s t : State) : Prop where
  logical : t.carts.logical = s.carts.logical
  slots : t.carts.slots = s.carts.slots
  recomSlot : t.carts.recomSlot = s.carts.recomSlot
  recomResult : t.carts.recomResult = s.carts.recomResult
  variant : t.variant = s.variant
  dev : t.dev = s.dev

theorem KeepsMap.refl (s : State) : KeepsMap s s := ⟨rfl, rfl, rfl, rfl, rfl, rfl⟩
theorem KeepsMap.trans (h : KeepsMap s t) (g : KeepsMap t u) : KeepsMap s u :=
  ⟨g.logical.trans h.logical, g.slots.trans h.slots, g.recomSlot.trans h.recomSlot, g.recomResult.trans h.recomResult, g.variant.trans h.variant, g.dev.trans h.dev⟩
theorem KeepsMap.foldl {α : Type} (g : State → α → State) (h : ∀ s a, KeepsMap s (g s a)) (xs : List α) (s : State) : KeepsMap s (xs.foldl g s) := by
  induction xs generalizing s with
  | nil => exact .refl s
  | cons a r ih => exact (h s a).trans (ih _)
/-- Carts, variant and device state all stay. -/
structure SameCarts (s t : State) : Prop where
  carts : t.carts = s.carts
  variant : t.variant = s.variant
  dev : t.dev = s.dev
theorem SameCarts.refl (s : State) : SameCarts s s := ⟨rfl, rfl, rfl⟩
theorem SameCarts.trans (h : SameCarts s t) (g : SameCarts t u) : SameCarts s u := ⟨g.carts.trans h.carts, g.variant.trans h.variant, g.dev.trans h.dev⟩
theorem SameCarts.foldl {α : Type} (g : State → α → State) (h : ∀ s a, SameCarts s (g s a)) (xs : List α) (s : State) : SameCarts s (xs.foldl g s) := by
  induction xs generalizing s with
  | nil => exact .refl s
  | cons a r ih => exact (h s a).trans (ih _)
theorem SameCarts.foldl_fst {α β : Type} (g : State × β → α → State × β) (h : ∀ x a, SameCarts x.1 (g x a).1) (xs : List α) (x : State × β) :
    SameCarts x.1 (xs.foldl g x).1 := by
  induction xs generalizing x with
  | nil => exact .refl _
  | cons a r ih => exact (h x a).trans (ih _)
theorem SameCarts.keepsMap (h : SameCarts s t) : KeepsMap s t := by
  have hc := h.carts
  exact ⟨by rw [hc], by rw [hc], by rw [hc], by rw [hc], h.variant, h.dev⟩
theorem Served.sameCarts (h : Served s t) : SameCarts s t := by
  have hr := h.rest
  exact ⟨by rw [hr], by rw [hr], by rw [hr]⟩
theorem SourceOnly.sameCarts {m : Nat} (h : SourceOnly m s t) : SameCarts s t := ⟨h.carts, h.variant, h.dev⟩
theorem OfferOnly.sameCarts (h : OfferOnly s t) : SameCarts s t := by
  have hr := h.rest
  exact ⟨by rw [hr], by rw [hr], by rw [hr]⟩
theorem sameCarts_bbL0 (s : State) (code : Nat) (p0 p1 p2 p3 : W32) : SameCarts s (bbL0 s code p0 p1 p2 p3) := (offerOnly_bbOffer ..).sameCarts
theorem sameCarts_dispPulse (s : State) (n i : Nat) : SameCarts s (dispPulse s n i) := (sourceOnly_pulse ..).sameCarts
theorem sameCarts_setCo (s : State) (c : Nat) (k : Coach) : SameCarts s (setCo s c k) := ⟨rfl, rfl, rfl⟩
theorem sameCarts_setRegF (s : State) (a lo w v : Nat) : SameCarts s (setRegF s a lo w v) := ⟨rfl, rfl, rfl⟩
theorem sameCarts_setReg (s : State) (a : Nat) (v : W32) : SameCarts s (setReg s a v) := ⟨rfl, rfl, rfl⟩
theorem sameCarts_dropReqs (s : State) (c : Nat) : SameCarts s (dropReqs s c) := ⟨rfl, rfl, rfl⟩
theorem sameCarts_wipeDomain (s : State) (d : Nat) : SameCarts s (wipeDomain s d) := ⟨rfl, rfl, rfl⟩
theorem keepsMap_setLive (s : State) (v : Nat) (b : Bool) : KeepsMap s (setLive s v b) := ⟨rfl, rfl, rfl, rfl, rfl, rfl⟩
theorem keepsMap_lostPeriod (s : State) (v k : Nat) : KeepsMap s (lostPeriod s v k) := ⟨rfl, rfl, rfl, rfl, rfl, rfl⟩
theorem keepsMap_setQueue (s : State) (m : Nat) (q : List Job) : KeepsMap s (setQueue s m q) := ⟨rfl, rfl, rfl, rfl, rfl, rfl⟩
theorem keepsMap_notifySucc (s : State) (v k : Nat) (lost : Bool) : KeepsMap s (notifySucc s v k lost) := by
  have h : GraphOnly s (notifySucc s v k lost) := graphOnly_notifySucc ..
  unfold GraphOnly at h
  rw [h]
  exact ⟨rfl, rfl, rfl, rfl, rfl, rfl⟩
theorem sameCarts_haltSource (s : State) (c : Nat) (b : Bool) : SameCarts s (match haltSource c with | some m => setLevel s m b | none => s) := by
  split
  · exact (sourceOnly_setLevel ..).sameCarts
  · exact .refl s

theorem KeepsMap.logi (h : KeepsMap s t) (m : Nat) : logi t m = logi s m := congrArg (tget (logReset m) · m) h.logical
theorem KeepsMap.slotSt (h : KeepsMap s t) (m : Nat) : slotSt t m = slotSt s m := by
  unfold Machine.slotSt
  rw [h.slots, h.variant]
theorem KeepsMap.spareOf (h : KeepsMap s t) (m : Nat) : spareOf t m = spareOf s m :=
  congrArg (List.find? · ((upto 9).map (fun j => 9 * (m / 8) + j))) (funext fun x => by rw [h.slotSt])

theorem keepsMap_crashNoted {r : State × List Word} (h : KeepsMap s r.1) (c : Nat) :
    KeepsMap s { r.1 with carts := { r.1.carts with crash := tput [] r.1.carts.crash c r.2 } } :=
  ⟨h.logical, h.slots, h.recomSlot, h.recomResult, h.variant, h.dev⟩
theorem keepsMap_copyCrash (s : State) (c : Nat) : KeepsMap s (copyCrash s c) := by
  rw [copyCrash_eq]
  split
  · exact .refl s
  · exact keepsMap_crashNoted (served_crashRead s c).sameCarts.keepsMap c
theorem keepsMap_discardJobs (s : State) (c : Nat) : KeepsMap s (discardJobs s c) := by
  unfold discardJobs
  dsimp only
  exact (sameCarts_setCo ..).keepsMap.trans (.foldl _ (fun s j => ((keepsMap_setLive ..).trans (keepsMap_lostPeriod ..)).trans (keepsMap_notifySucc ..)) _ _)

theorem sameCarts_logicLost (hc : c < 72) (s : State) : SameCarts s (logicLost s c) := by
  unfold logicLost
  rw [if_pos (Nat.lt_trans hc (by decide))]
  exact ((sameCarts_haltSource s c false).trans (sameCarts_dropReqs ..)).trans (sameCarts_setCo ..)
/-- The state in which a domain switches: the crash area of a coach that goes off has been copied. -/
theorem keepsMap_crashKept (s : State) (d st : Nat) : KeepsMap s (if d < 76 && st ≠ 2 then copyCrash s d else s) := by
  split
  · exact keepsMap_copyCrash ..
  · exact .refl s
/-- The power of a coach's domain goes off. -/
theorem keepsMap_switchOff (hc : c < 72) (s : State) : KeepsMap s (switchOff s c) := by
  unfold switchOff setDomain
  have h := keepsMap_crashKept s c 0
  dsimp only
  generalize (if c < 76 && 0 ≠ 2 then copyCrash s c else s) = x at h ⊢
  split
  · exact h
  · exact ((h.trans (sameCarts_logicLost hc _).keepsMap).trans (sameCarts_wipeDomain ..).keepsMap).trans (sameCarts_setRegF ..).keepsMap
theorem domState_switchOff (s : State) (c : Nat) : domState (switchOff s c) c = 0 := by
  unfold switchOff setDomain
  dsimp only
  generalize (if c < 76 && 0 ≠ 2 then copyCrash s c else s) = x
  split
  next h => exact h
  · exact regF_setRegF_same (s := wipeDomain (logicLost x c) c) (pwrDom c) 8 2 0 (by decide)
theorem keepsMap_switchOn (s : State) (c : Nat) : KeepsMap s (switchOn s c) := by
  unfold switchOn setDomain
  have h := (sameCarts_setRegF s (pwrDom c) 0 2 2).keepsMap.trans (keepsMap_crashKept (setRegF s (pwrDom c) 0 2 2) c 2)
  dsimp only
  generalize (if c < 76 && 2 ≠ 2 then copyCrash (setRegF s (pwrDom c) 0 2 2) c else setRegF s (pwrDom c) 0 2 2) = x at h ⊢
  split
  · exact h
  · exact h.trans (sameCarts_setRegF ..).keepsMap
theorem sameCarts_setRegionEpochs (s : State) (c ep : Nat) : SameCarts s (setRegionEpochs s c ep) := .foldl _ (fun s r => sameCarts_setRegF ..) _ _
theorem sameCarts_longDone (s : State) (key status : Nat) : SameCarts s (longDone s key status) := by
  unfold longDone
  split
  · split
    · exact ⟨rfl, rfl, rfl⟩
    · exact .refl s
  · exact .refl s

/-! ### The start of a coach -/

theorem sameCarts_coachNow (s : State) (c : Nat) (kd : AccKind) (a m data : Nat) : SameCarts s (coachNow s c kd a m data).st := by
  have hrefused := (served_epochRefuse s c a).sameCarts
  unfold coachNow
  split
  next kind inst off own _ =>
    split
    · exact hrefused
    · split
      · exact (served_dramRefused ..).sameCarts
      · have h := (served_turnAccess s (reqClass c 0 own) (portOf kind inst off c own) kd (wordKey kind inst off) m data c).sameCarts
        dsimp only
        generalize turnAccess s (reqClass c 0 own) (portOf kind inst off c own) kd (wordKey kind inst off) m data c = o at h
        unfold lostCycles
        split
        · exact h
        · exact h.trans (sameCarts_setCo ..)
  · split
    · exact hrefused
    · exact .refl s
  · split
    · exact hrefused
    · exact .refl s
  · exact .refl s
theorem sameCarts_vectorOf (s : State) (c e : Nat) : SameCarts s (vectorOf s c e).1 := by
  have h := sameCarts_coachNow s c .load (coF (co s c) 0x400 7 10 * 128 + 2 * e) 2 0
  unfold vectorOf
  dsimp only
  generalize coachNow s c .load (coF (co s c) 0x400 7 10 * 128 + 2 * e) 2 0 = o at h
  split
  · exact h
  · exact h
theorem sameCarts_pushFrame (s : State) (c esp : Nat) (vals : List W32) : SameCarts s (pushFrame s c esp vals).1 := by
  unfold pushFrame
  refine SameCarts.foldl_fst _ (fun x i => ?_) _ (s, 0)
  dsimp only
  split
  · exact .refl _
  · exact sameCarts_coachNow ..
theorem sameCarts_haltReported (s : State) (c : Nat) (k : Coach) (r : ExcReq) (halt : Nat) : SameCarts s (haltReported s c k r halt) :=
  ((served_crashWritten ..).sameCarts.trans (sameCarts_haltSource ..)).trans (offerOnly_bbOffer ..).sameCarts

/-- The state, slot and epoch of one logical coach, the slots and the device state stay. -/
structure KeepsPost (n : Nat) (s t : State) : Prop where
  lstate : (logi t n).lstate = (logi s n).lstate
  slot : (logi t n).slot = (logi s n).slot
  epoch : (logi t n).epoch = (logi s n).epoch
  slots : t.carts.slots = s.carts.slots
  variant : t.variant = s.variant
  dev : t.dev = s.dev

theorem KeepsMap.post (h : KeepsMap s t) (n : Nat) : KeepsPost n s t :=
  ⟨congrArg _ (h.logi n), congrArg _ (h.logi n), congrArg _ (h.logi n), h.slots, h.variant, h.dev⟩
theorem KeepsPost.trans (h : KeepsPost n s t) (g : KeepsPost n t u) : KeepsPost n s u :=
  ⟨g.lstate.trans h.lstate, g.slot.trans h.slot, g.epoch.trans h.epoch, g.slots.trans h.slots, g.variant.trans h.variant, g.dev.trans h.dev⟩
theorem KeepsPost.slotSt (h : KeepsPost n s t) (m : Nat) : slotSt t m = slotSt s m := by
  unfold Machine.slotSt
  rw [h.slots, h.variant]
theorem keepsPost_setLogi_other {m : Nat} (h : n ≠ m) (s : State) (l : Logical) : KeepsPost n s (setLogi s m l) := by
  have he : logi (setLogi s m l) n = logi s n := (logi_setLogi ..).trans (if_neg h)
  exact ⟨congrArg _ he, congrArg _ he, congrArg _ he, rfl, rfl, rfl⟩
theorem keepsPost_setLogi {m : Nat} {l : Logical} (h1 : l.lstate = (logi s m).lstate) (h2 : l.slot = (logi s m).slot) (h3 : l.epoch = (logi s m).epoch) :
    KeepsPost n s (setLogi s m l) := by
  by_cases h : n = m
  · subst h
    have he : logi (setLogi s n l) n = l := (logi_setLogi ..).trans (if_pos rfl)
    exact ⟨(congrArg _ he).trans h1, (congrArg _ he).trans h2, (congrArg _ he).trans h3, rfl, rfl, rfl⟩
  · exact keepsPost_setLogi_other h s l
theorem keepsPost_declareDead {m : Nat} (h : n ≠ m) (s : State) (why : Nat) : KeepsPost n s (declareDead s m why) := by
  unfold declareDead
  dsimp only
  split
  · exact (KeepsMap.refl s).post n
  · exact (((sameCarts_bbL0 ..).keepsMap.post n).trans (keepsPost_setLogi_other h ..)).trans ((sourceOnly_pulse ..).sameCarts.keepsMap.post n)

/-- The note of a halt names the coach that the slot serves, and a coach in OUTAGE is served by none. -/
theorem ne_of_logicalOf {m : Nat} (h1 : (logi s n).lstate = 1) (h : logicalOf s c = some m) : n ≠ m := by
  rintro rfl
  have hs : slotOf s n = some c := of_decide_eq_true (List.find?_some (p := fun m => decide (slotOf s m = some c)) h)
  have hnone : slotOf s n = none := by
    unfold slotOf
    rw [h1]
    simp only [ne_eq, not_true_eq_false, decide_false, Bool.and_false, Bool.false_eq_true, if_false]
  rw [hnone] at hs
  exact absurd hs (by simp)
theorem keepsPost_noteHalt (hc : c < 72) (h1 : (logi s n).lstate = 1) : KeepsPost n s (noteHalt s c) := by
  have hr := (KeepsMap.refl s).post n
  unfold noteHalt
  rw [if_pos hc]
  split
  · dsimp only
    split
    · exact (sameCarts_setCo ..).keepsMap.post n
    · exact hr
  next m hm =>
    have hne : n ≠ m := ne_of_logicalOf h1 hm
    have hl := keepsPost_setLogi_other hne s { logi s m with halts := incSat 32 (logi s m).halts, lastHalt := some s.dtime }
    dsimp only
    split
    · split
      · exact hl.trans (keepsPost_declareDead hne ..)
      · exact hl
    · exact hl
theorem keepsPost_haltCoach (hc : c < 72) (h1 : (logi s n).lstate = 1) (k : Coach) (r : ExcReq) (halt : Nat) : KeepsPost n s (haltCoach s c k r halt) := by
  rw [haltCoach_eq]
  have h := (sameCarts_setCo s c (haltedCoach k)).keepsMap.trans (sameCarts_haltReported (setCo s c (haltedCoach k)) c (haltedCoach k) r halt).keepsMap
  exact (h.post n).trans (keepsPost_noteHalt hc ((congrArg _ (h.logi n)).trans h1))
theorem keepsPost_doubleFault (hc : c < 72) (h1 : (logi s n).lstate = 1) (r : ExcReq) (bad : Nat) : KeepsPost n s (doubleFault s c r bad) := by
  have hh {x : State} (h : KeepsMap s x) (k : Coach) (r : ExcReq) (i : Nat) : KeepsPost n s (haltCoach x c k r i) :=
    (h.post n).trans (keepsPost_haltCoach hc ((congrArg _ (h.logi n)).trans h1) k r i)
  unfold doubleFault
  dsimp only
  split
  · exact hh (.refl s) ..
  · have hp := (sameCarts_pushFrame s c (frameBelow (rdCo (co s c) 0x402)) (frameVals (co s c)
      { entry := 1, code := r.entry, scnum := 0, slots := 0, info := 0, detail1 := n32 bad, apc := r.apc, pc := n32 bad } 0)).keepsMap
    generalize pushFrame s c (frameBelow (rdCo (co s c) 0x402)) _ = p at hp ⊢
    split
    · exact hh hp ..
    · have hv := hp.trans (sameCarts_vectorOf p.1 c 1).keepsMap
      generalize vectorOf p.1 c 1 = v at hv ⊢
      split
      · exact hh hv ..
      · exact (hv.trans (sameCarts_setCo ..).keepsMap).post n
/-- A coach that starts: the state in which its vector table is read. -/
def starting (s : State) (c : Nat) (k : Coach) : State :=
  match haltSource c with | some m => setLevel (setCo (dropReqs s c) c k) m false | none => setCo (dropReqs s c) c k
/-- Where it goes on. -/
def startedFrom (c : Nat) (v : State × Nat × Nat) : State :=
  if v.2.2 = 0 then setCo v.1 c { co v.1 c with pc := n32 v.2.1, lastPc := n32 v.2.1 } else doubleFault v.1 c (excReq 0 0 0 0) v.2.1
theorem startCoach_eq (s : State) (c : Nat) (grace : Option Nat) : ∃ k, startCoach s c grace = startedFrom c (vectorOf (starting s c k) c 0) := ⟨_, rfl⟩
theorem keepsPost_startCoach (hc : c < 72) (h1 : (logi s n).lstate = 1) (grace : Option Nat) : KeepsPost n s (startCoach s c grace) := by
  obtain ⟨k, hk⟩ := startCoach_eq s c grace
  have hx : KeepsMap s (starting s c k) := ((sameCarts_dropReqs s c).keepsMap.trans (sameCarts_setCo _ c k).keepsMap).trans (sameCarts_haltSource _ c false).keepsMap
  have hv := hx.trans (sameCarts_vectorOf (starting s c k) c 0).keepsMap
  rw [hk]
  generalize vectorOf (starting s c k) c 0 = v at hv
  unfold startedFrom
  split
  · exact (hv.trans (sameCarts_setCo ..).keepsMap).post n
  · exact (hv.post n).trans (keepsPost_doubleFault hc ((congrArg _ (hv.logi n)).trans h1) _ _)
theorem keepsPost_beginCoach (hc : c < 72) (h1 : (logi s n).lstate = 1) (r : ImageRec) : KeepsPost n s (beginCoach s r c) := by
  unfold beginCoach
  dsimp only
  have hr := (sameCarts_setReg s (clImg r.coach) (n32 r.cim)).keepsMap
  exact ((hr.post n).trans (keepsPost_startCoach hc ((congrArg _ (hr.logi n)).trans h1) _)).trans (keepsPost_setLogi rfl rfl rfl)

theorem sameCarts_loadLines (kind inst : Nat) (l : List Nat) (off m : Nat) (s : State) : SameCarts s (loadLines kind inst l off m s) := by
  induction m generalizing l off s with
  | zero => exact .refl s
  | succ m ih =>
    unfold loadLines
    split
    · exact .refl s
    · dsimp only
      refine SameCarts.trans ?_ (ih ..)
      split
      · exact (served_turnAccess ..).sameCarts
      · exact .foldl _ (fun s i => (served_turnAccess ..).sameCarts) _ _
theorem keepsMap_loadCoach (s : State) (r : ImageRec) (c : Nat) : KeepsMap s (loadCoach s r c) :=
  ((keepsMap_copyCrash ..).trans (sameCarts_loadLines ..).keepsMap).trans (sameCarts_loadLines ..).keepsMap

/-! ### FAILOVER -/

/-- A coach at a later epoch, and one that another slot serves. -/
def atEpoch (l : Logical) (e : Nat) : Logical := { l with epoch := e }
def atSlot (l : Logical) (c : Nat) : Logical := { l with slot := c }
theorem dev_setSlotSt (s : State) (c v : Nat) : (setSlotSt s c v).dev = s.dev := rfl
theorem dev_setLogi (s : State) (n : Nat) (l : Logical) : (setLogi s n l).dev = s.dev := rfl
theorem slotSt_setLogi (s : State) (n : Nat) (l : Logical) (m : Nat) : slotSt (setLogi s n l) m = slotSt s m := rfl
theorem logi_setLogi_same (s : State) (n : Nat) (l : Logical) : logi (setLogi s n l) n = l := (logi_setLogi ..).trans (if_pos rfl)
theorem logi_setSlotSt (s : State) (c v m : Nat) : logi (setSlotSt s c v) m = logi s m := rfl

/-- The slot that failed has gone off, its jobs discarded. -/
def slotGone (s : State) (f : Nat) (off : Bool) : State :=
  if off then switchOff (discardJobs (copyCrash s f) f) f else bbL0 (discardJobs (copyCrash s f) f) 0x0605 (n32 f) 0 0 0
theorem keepsMap_slotGone (hf : f < 72) (s : State) (off : Bool) : KeepsMap s (slotGone s f off) := by
  have h : KeepsMap s (discardJobs (copyCrash s f) f) := (keepsMap_copyCrash ..).trans (keepsMap_discardJobs ..)
  unfold slotGone
  split
  · exact h.trans (keepsMap_switchOff hf _)
  · exact h.trans (sameCarts_bbL0 ..).keepsMap
/-- It is fenced, the coach's epoch past it. -/
def slotFenced (s : State) (n f : Nat) (off : Bool) : State := setSlotSt (advanceEpoch (slotGone s f off) n f) f 2

theorem advanceEpoch_spec (s : State) (n f : Nat) : (logi (advanceEpoch s n f) n).lstate = (logi s n).lstate ∧
    ((logi s n).epoch < 0xFFFF → (logi (advanceEpoch s n f) n).epoch = (logi s n).epoch + 1) ∧
    (advanceEpoch s n f).carts.slots = s.carts.slots ∧ (advanceEpoch s n f).variant = s.variant ∧ (advanceEpoch s n f).dev = s.dev := by
  unfold advanceEpoch
  dsimp only
  split
  next h => exact ⟨rfl, fun hn => absurd hn (Nat.not_lt.mpr h), rfl, rfl, rfl⟩
  next h =>
    have hk := (sameCarts_setRegionEpochs (setLogi s n (atEpoch (logi s n) ((logi s n).epoch + 1))) f ((logi s n).epoch + 1)).keepsMap
    have hl := (hk.logi n).trans (logi_setLogi_same s n (atEpoch (logi s n) ((logi s n).epoch + 1)))
    exact ⟨(congrArg Logical.lstate hl :), fun _ => (congrArg Logical.epoch hl :), hk.slots, hk.variant, hk.dev⟩
theorem slotFenced_spec (hf : f < 72) (s : State) (n : Nat) (off : Bool) : (logi (slotFenced s n f off) n).lstate = (logi s n).lstate ∧
    ((logi s n).epoch < 0xFFFF → (logi (slotFenced s n f off) n).epoch = (logi s n).epoch + 1) ∧
    (∀ m, slotSt (slotFenced s n f off) m = if m = f then 2 else slotSt s m) ∧ (slotFenced s n f off).dev = s.dev := by
  have hg := keepsMap_slotGone hf s off
  unfold slotFenced
  generalize slotGone s f off = g at hg
  obtain ⟨h1, h2, h3, h4, h5⟩ := advanceEpoch_spec g n f
  refine ⟨h1.trans (congrArg _ (hg.logi n)), fun he => ?_, fun m => ?_, h5.trans hg.dev⟩
  · have h0 : (logi g n).epoch = (logi s n).epoch := congrArg _ (hg.logi n)
    rw [← h0] at he ⊢
    exact h2 he
  · rw [slotSt_setSlotSt]
    refine if_congr Iff.rfl rfl ?_
    unfold slotSt
    rw [h3, h4, hg.slots, hg.variant]
/-- The slot that failed was no spare, so the spare is found as before. -/
theorem spareOf_slotFenced (hf : f < 72) (h0 : slotSt s f = 0) (off : Bool) : spareOf (slotFenced s n f off) n = spareOf s n := by
  obtain ⟨-, -, h, -⟩ := slotFenced_spec hf s n off
  refine congrArg (List.find? · ((upto 9).map (fun j => 9 * (n / 8) + j))) (funext fun m => decide_eq_decide.mpr ?_)
  rw [h]
  split
  next hm => rw [hm, h0]; decide
  · exact Iff.rfl

/-- A coach that a spare takes over is in service again. -/
def inServiceAgain (s : State) (n us : Nat) : State := setLogi s n { logi s n with lstate := 0, lastOutage := us % 2 ^ 32, lastHalt := none }
theorem failoverOp_eq (hn : n < s.variant.coaches) (h1 : (logi s n).lstate = 1) (hf : (logi s n).slot = f) (h72 : f < 72) (off ok : Bool) (us : Nat) :
    failoverOp s n off ok us = match (if decide ((logi (slotGone s f off) n).epoch ≥ 0xFFFF) then none else spareOf (slotFenced s n f off) n) with
      | none => loseCoach (slotFenced s n f off) n
      | some c => if !ok then loseCoach (setSlotSt (switchOff (switchOn (slotFenced s n f off) c) c) c 2) n
        else dispPulse (bbL0 (inServiceAgain (mapSlot (slotFenced s n f off) n c) n us) 0x0302 (n32 n) (n32 c) (n32 us)
          (n32 (logi (inServiceAgain (mapSlot (slotFenced s n f off) n c) n us) n).epoch)) n 2 := by
  unfold failoverOp
  dsimp only
  rw [hf, h1, decide_eq_false (Nat.not_le.mpr hn), decide_eq_false (Nat.not_le.mpr h72)]
  rfl

theorem keepsMap_put (s : State) (r : Table Nat) (w : List Nat) : KeepsMap s { s with carts := { s.carts with rehome := r, withdrawn := w } } := ⟨rfl, rfl, rfl, rfl, rfl, rfl⟩
theorem keepsMap_rehomeCart (s : State) (t : Timetable) (n v : Nat) : KeepsMap s (rehomeCart s t n v) := by
  unfold rehomeCart
  dsimp only
  split
  · exact ((keepsMap_setQueue ..).trans (keepsMap_put ..)).trans (keepsMap_setQueue ..)
  · exact (keepsMap_setQueue ..).trans (keepsMap_put ..)
  · exact ((((keepsMap_setQueue ..).trans (keepsMap_put ..)).trans (keepsMap_setLive ..)).trans (keepsMap_lostPeriod ..)).trans (keepsMap_notifySucc ..)
  · exact (keepsMap_setQueue ..).trans (keepsMap_put ..)

/-- The coach is LOST. -/
def lostNow (s : State) (n : Nat) : State := dispPulse (setLogi s n { logi s n with lstate := 2, slot := 255 }) n 2
/-- Its carts have found other coaches or are withdrawn. -/
def cartsRehomed (s : State) (n : Nat) : State := match s.carts.table with | some t => (nowHomed s t n).foldl (fun s v => rehomeCart s t n v) s | none => s
theorem keepsMap_cartsRehomed (s : State) (n : Nat) : KeepsMap s (cartsRehomed s n) := by
  unfold cartsRehomed
  split
  · exact .foldl _ (fun s v => keepsMap_rehomeCart ..) _ _
  · exact .refl s
/-- The device degrades. -/
def degraded (s : State) : State := if s.dev = 4 then setDev s 5 8 else refusedByState s 0 0
theorem degraded_spec (s : State) : (degraded s).carts = s.carts ∧ (degraded s).variant = s.variant ∧
    (s.dev = 4 → (degraded s).dev = 5) ∧ (s.dev ≠ 4 → (degraded s).dev = s.dev) := by
  unfold degraded
  split
  next h =>
    have hb := (offerOnly_bbOffer s (bbEntry s 1 0xFF 0x0101 (n32 s.dev) (n32 5) (n32 8) 0)).rest
    have hd : (setDev s 5 8).carts = (bbOffer s (bbEntry s 1 0xFF 0x0101 (n32 s.dev) (n32 5) (n32 8) 0)).carts ∧
        (setDev s 5 8).variant = (bbOffer s (bbEntry s 1 0xFF 0x0101 (n32 s.dev) (n32 5) (n32 8) 0)).variant ∧ (setDev s 5 8).dev = 5 := ⟨rfl, rfl, rfl⟩
    exact ⟨hd.1.trans (by rw [hb]), hd.2.1.trans (by rw [hb]), fun _ => hd.2.2, fun hn => absurd h hn⟩
  next h =>
    have hb := (offerOnly_bbOffer s (bbEntry s 1 0xFF 0x0102 (n32 s.dev) (n32 0) (n32 0) 0)).rest
    have hd : refusedByState s 0 0 = bbOffer s (bbEntry s 1 0xFF 0x0102 (n32 s.dev) (n32 0) (n32 0) 0) := rfl
    rw [hd]
    exact ⟨by rw [hb], by rw [hb], fun hn => absurd hn h, fun _ => by rw [hb]⟩
theorem loseCoach_eq (s : State) (n : Nat) : ∃ g, loseCoach s n = degraded (bbL0 (cartsRehomed (lostNow s n) n) 0x0303 (n32 n) (n32 g) 0 0) := ⟨_, rfl⟩
theorem loseCoach_spec (s : State) (n : Nat) : (logi (loseCoach s n) n).lstate = 2 ∧ (logi (loseCoach s n) n).slot = 255 ∧
    (∀ m, slotSt (loseCoach s n) m = slotSt s m) ∧ (s.dev = 4 → (loseCoach s n).dev = 5) ∧ (s.dev ≠ 4 → (loseCoach s n).dev = s.dev) := by
  obtain ⟨g, hg⟩ := loseCoach_eq s n
  have hk : KeepsMap (setLogi s n { logi s n with lstate := 2, slot := 255 }) (bbL0 (cartsRehomed (lostNow s n) n) 0x0303 (n32 n) (n32 g) 0 0) :=
    ((sameCarts_dispPulse ..).keepsMap.trans (keepsMap_cartsRehomed (lostNow s n) n)).trans (sameCarts_bbL0 ..).keepsMap
  rw [hg]
  generalize bbL0 (cartsRehomed (lostNow s n) n) 0x0303 (n32 n) (n32 g) 0 0 = x at hk
  obtain ⟨hc, hv, h4, h5⟩ := degraded_spec x
  have hl : logi (degraded x) n = { logi s n with lstate := 2, slot := 255 } :=
    (logi_congr hc n).trans ((hk.logi n).trans ((logi_setLogi ..).trans (if_pos rfl)))
  have hd : x.dev = s.dev := hk.dev
  refine ⟨congrArg _ hl, congrArg _ hl, fun m => ?_, fun h => h4 (hd.trans h), fun h => (h5 (fun h' => h (hd.symm.trans h'))).trans hd⟩
  refine Eq.trans ?_ (hk.slotSt m)
  unfold slotSt
  rw [hc, hv]

/-- A slot serves the coach under its epoch. -/
def slotMapped (s : State) (n c : Nat) : State :=
  setLogi (setReg (setRegionEpochs (setSlotSt (switchOn s c) c 0) c (logi s n).epoch) (memEpoch c) (n32 (logi s n).epoch)) n (atSlot (logi s n) c)
theorem mapSlot_eq (s : State) (n c : Nat) : mapSlot s n c = match (slotMapped s n c).carts.table with
    | some t => (match imgOfCoach t n with | some r => beginCoach (loadCoach (slotMapped s n c) r c) r c | none => slotMapped s n c)
    | none => slotMapped s n c := rfl
theorem slotMapped_spec (s : State) (n c : Nat) : logi (slotMapped s n c) n = atSlot (logi s n) c ∧
    (∀ m, slotSt (slotMapped s n c) m = if m = c then 0 else slotSt s m) ∧ (slotMapped s n c).dev = s.dev := by
  have hon := keepsMap_switchOn s c
  have hk : KeepsMap (setSlotSt (switchOn s c) c 0)
      (setReg (setRegionEpochs (setSlotSt (switchOn s c) c 0) c (logi s n).epoch) (memEpoch c) (n32 (logi s n).epoch)) :=
    (sameCarts_setRegionEpochs ..).keepsMap.trans (sameCarts_setReg ..).keepsMap
  unfold slotMapped
  generalize setReg (setRegionEpochs (setSlotSt (switchOn s c) c 0) c (logi s n).epoch) (memEpoch c) (n32 (logi s n).epoch) = x at hk
  refine ⟨logi_setLogi_same .., fun m => ?_, (dev_setLogi ..).trans (hk.dev.trans ((dev_setSlotSt ..).trans hon.dev))⟩
  rw [slotSt_setLogi, hk.slotSt, slotSt_setSlotSt, hon.slotSt]
theorem keepsPost_mapSlot (hc : c < 72) (h1 : (logi s n).lstate = 1) : KeepsPost n (slotMapped s n c) (mapSlot s n c) := by
  have hl : (logi (slotMapped s n c) n).lstate = 1 := (congrArg Logical.lstate (slotMapped_spec s n c).1).trans h1
  rw [mapSlot_eq]
  generalize slotMapped s n c = x at hl ⊢
  split
  · split
    next r _ =>
      have hk := keepsMap_loadCoach x r c
      exact (hk.post n).trans (keepsPost_beginCoach hc ((congrArg _ (hk.logi n)).trans hl) r)
    · exact (KeepsMap.refl _).post n
  · exact (KeepsMap.refl _).post n

theorem spareOf_spec (h : spareOf s n = some c) (hn : n < 64) : slotSt s c = 1 ∧ c < 72 := by
  unfold spareOf at h
  refine ⟨of_decide_eq_true (List.find?_some (p := fun c => decide (slotSt s c = 1)) h), ?_⟩
  obtain ⟨j, hj, rfl⟩ := List.mem_map.mp (List.mem_of_find?_eq_some h)
  have hj : j < 9 := by simpa [upto] using hj
  omega

/-- The coach is served by the spare, its outage noted. -/
theorem inServiceAgain_spec (hc : c < 72) (h1 : (logi s n).lstate = 1) (us : Nat) {t : State} (ht : KeepsMap (inServiceAgain (mapSlot s n c) n us) t) :
    (logi t n).lstate = 0 ∧ (logi t n).slot = c ∧ (logi t n).lastOutage = us % 2 ^ 32 ∧ (logi t n).epoch = (logi s n).epoch ∧
    ∀ m, slotSt t m = if m = c then 0 else slotSt s m := by
  have hp := keepsPost_mapSlot hc h1
  obtain ⟨hl, hs, -⟩ := slotMapped_spec s n c
  have hi : logi t n = { logi (mapSlot s n c) n with lstate := 0, lastOutage := us % 2 ^ 32, lastHalt := none } :=
    (ht.logi n).trans ((logi_setLogi ..).trans (if_pos rfl))
  have h2 : (logi (mapSlot s n c) n).slot = c := hp.slot.trans (congrArg Logical.slot hl :)
  have h3 : (logi (mapSlot s n c) n).epoch = (logi s n).epoch := hp.epoch.trans (congrArg Logical.epoch hl :)
  have h4 (m : Nat) : slotSt (inServiceAgain (mapSlot s n c) n us) m = slotSt (mapSlot s n c) m := rfl
  rw [hi]
  exact ⟨rfl, h2, rfl, h3, fun m => (ht.slotSt m).trans ((h4 m).trans ((hp.slotSt m).trans (hs m)))⟩

theorem slotOf_of_lost (h : (logi t n).slot = 255) : slotOf t n = none := by
  unfold slotOf
  rw [h]
  simp only [show ¬(255 < 72) by decide, decide_false, Bool.and_false, Bool.false_and, Bool.false_eq_true, if_false]

theorem failoverFencesAndMaps : Clause.FailoverFencesAndMaps := by
  intro s n f off ok us hn h64 h1 hf h72 h0
  obtain ⟨hl1, hep, hsl, hdev⟩ := slotFenced_spec h72 s n off
  have hgone : (logi (slotGone s f off) n).epoch = (logi s n).epoch := congrArg _ ((keepsMap_slotGone h72 s off).logi n)
  have hop := failoverOp_eq hn h1 hf h72 off ok us
  have hexec : exec (.failover n off ok us) s = .next (failoverOp s n off ok us) := act_wf (decide_eq_true h64)
  rw [hgone, spareOf_slotFenced h72 h0 off] at hop
  have hff : slotSt (slotFenced s n f off) f = 2 := (hsl f).trans (if_pos rfl)
  refine ⟨fun c he hc hok => ?_, fun hnone => ?_, fun c he hc hok => ?_⟩
  · obtain ⟨hc1, hc72⟩ := spareOf_spec hc h64
    have hcf : f ≠ c := by rintro rfl; rw [h0] at hc1; exact absurd hc1 (by decide)
    rw [decide_eq_false (Nat.not_le.mpr he), if_neg Bool.false_ne_true, hc] at hop
    subst hok
    refine ⟨_, hexec.trans (congrArg _ (hop.trans (if_neg Bool.false_ne_true))), ?_⟩
    obtain ⟨g1, g2, g3, g4, g5⟩ := inServiceAgain_spec hc72 (hl1.trans h1) us (t := dispPulse (bbL0 (inServiceAgain (mapSlot (slotFenced s n f off) n c) n us) 0x0302 (n32 n) (n32 c) (n32 us)
          (n32 (logi (inServiceAgain (mapSlot (slotFenced s n f off) n c) n us) n).epoch)) n 2) ((sameCarts_bbL0 ..).keepsMap.trans (sameCarts_dispPulse ..).keepsMap)
    exact ⟨g1, g2, g3, g4.trans (hep he), (g5 f).trans ((if_neg hcf).trans hff), (g5 c).trans (if_pos rfl)⟩
  · have hsel : (if decide ((logi s n).epoch ≥ 0xFFFF) then none else spareOf s n) = none := by
      split
      · rfl
      next h => exact hnone.resolve_left (fun h' => h (decide_eq_true h'))
    rw [hsel] at hop
    refine ⟨_, hexec.trans (congrArg _ hop), ?_⟩
    obtain ⟨g1, g2, g3, g4, g5⟩ := loseCoach_spec (slotFenced s n f off) n
    rw [hdev] at g4 g5
    exact ⟨g1, g2, slotOf_of_lost g2, (g3 f).trans hff, g4, g5⟩
  · obtain ⟨hc1, hc72⟩ := spareOf_spec hc h64
    rw [decide_eq_false (Nat.not_le.mpr he), if_neg Bool.false_ne_true, hc] at hop
    subst hok
    refine ⟨_, hexec.trans (congrArg _ (hop.trans (if_pos rfl))), ?_⟩
    have hk := (keepsMap_switchOn (slotFenced s n f off) c).trans (keepsMap_switchOff hc72 _)
    obtain ⟨g1, g2, g3, -⟩ := loseCoach_spec (setSlotSt (switchOff (switchOn (slotFenced s n f off) c) c) c 2) n
    refine ⟨g1, g2, (g3 f).trans ?_, (g3 c).trans ((slotSt_setSlotSt ..).trans (if_pos rfl))⟩
    rw [slotSt_setSlotSt, hk.slotSt, hff, ite_self]

/-! ### RECOMMISSION -/

/-- The march of the slot has ended with its result. -/
def marchEnded (s : State) (c : Nat) (pass : Bool) : State :=
  longDone (bbL0 { setCo (wipeDomain s c) c (offCoach (co s c)) with
    carts := { (setCo (wipeDomain s c) c (offCoach (co s c))).carts with recomSlot := none, recomResult := if pass then 1 else 2 } }
    0x0304 (n32 c) (n32 (if pass then 1 else 2)) 0 0) (0x4030 * 256 + 1) 0
/-- What it leaves of the map: the slots and the coaches as they were. -/
def withResult (s : State) (r : Nat) : State := { s with carts := { s.carts with recomSlot := none, recomResult := r } }
theorem withResult_spec (s : State) (r : Nat) : (withResult s r).carts.logical = s.carts.logical ∧ (∀ m, slotSt (withResult s r) m = slotSt s m) ∧
    (withResult s r).dev = s.dev ∧ (withResult s r).carts.recomSlot = none ∧ (withResult s r).carts.recomResult = r ∧ (withResult s r).variant = s.variant := ⟨rfl, fun _ => rfl, rfl, rfl, rfl, rfl⟩
theorem keepsMap_marchEnded (s : State) (c : Nat) (pass : Bool) :
    KeepsMap (withResult (setCo (wipeDomain s c) c (offCoach (co s c))) (if pass then 1 else 2)) (marchEnded s c pass) :=
  (sameCarts_bbL0 ..).keepsMap.trans (sameCarts_longDone ..).keepsMap
theorem marchEnded_spec (s : State) (c : Nat) (pass : Bool) (ht : KeepsMap (marchEnded s c pass) t) : t.carts.logical = s.carts.logical ∧
    (∀ m, slotSt t m = slotSt s m) ∧ t.dev = s.dev ∧ t.carts.recomSlot = none ∧ t.carts.recomResult = (if pass then 1 else 2) ∧ t.variant = s.variant := by
  have hw : KeepsMap s (setCo (wipeDomain s c) c (offCoach (co s c))) := (sameCarts_wipeDomain ..).keepsMap.trans (sameCarts_setCo ..).keepsMap
  have hk := (keepsMap_marchEnded s c pass).trans ht
  generalize setCo (wipeDomain s c) c (offCoach (co s c)) = w at hw hk
  obtain ⟨h1, h2, h3, h4, h5, h6⟩ := withResult_spec w (if pass then 1 else 2)
  exact ⟨hk.logical.trans (h1.trans hw.logical), fun m => (hk.slotSt m).trans ((h2 m).trans (hw.slotSt m)), hk.dev.trans (h3.trans hw.dev), hk.recomSlot.trans h4,
    hk.recomResult.trans h5, hk.variant.trans (h6.trans hw.variant)⟩

/-- A slot that passed its march is a spare, and serves a lost coach of its cluster where there is one. -/
def spareServes (s : State) (c : Nat) : State :=
  match (upto s.variant.coaches).find? (fun n => n / 8 = c / 9 && (logi s n).lstate = 2 && decide ((logi s n).epoch < 0xFFFF)) with
  | none => s
  | some n =>
    let l := logi s n
    let s := mapSlot (setLogi s n { l with epoch := l.epoch + 1 }) n c
    let s := dispPulse (setLogi s n { logi s n with lstate := 0, lastHalt := none }) n 2
    let s := { s with carts := { s.carts with rehome := s.carts.rehome.filter (fun e => !(e.2 = 1 && (match s.carts.table with | some t => homeAt t e.1 = n | none => true))) } }
    if unitLost s then s else if s.dev = 5 then setDev s 4 10 else refusedByState s 0 0
/-- What the result of the march brings. -/
def marchResult (s : State) (c : Nat) (pass : Bool) : State :=
  if !pass then switchOff s c else spareServes (setSlotSt (switchOff s c) c 1) c
theorem recommissionOp_eq (pass : Bool) (hc : s.carts.recomSlot = some c) : recommissionOp s pass = marchResult (marchEnded s c pass) c pass := by
  unfold recommissionOp
  rw [hc]
  rfl
theorem spareServes_none (h : ∀ n, n < s.variant.coaches → n / 8 = c / 9 → (logi s n).lstate ≠ 2) : spareServes s c = s := by
  have hnone : (upto s.variant.coaches).find? (fun n => n / 8 = c / 9 && (logi s n).lstate = 2 && decide ((logi s n).epoch < 0xFFFF)) = none := by
    refine List.find?_eq_none.mpr fun n hn => ?_
    have hn : n < s.variant.coaches := by simpa [upto] using hn
    rw [Bool.and_eq_true, Bool.and_eq_true, decide_eq_true_eq, decide_eq_true_eq]
    exact fun hb => h n hn hb.1.1 hb.1.2
  unfold spareServes
  rw [hnone]

theorem recommissionEnds : Clause.RecommissionEnds := by
  intro s c hc hr
  refine ⟨⟨_, (act_wf rfl).trans (congrArg _ (recommissionOp_eq false hr)), ?_⟩, fun hno => ?_⟩
  · obtain ⟨h1, h2, h3, h4, h5, -⟩ := marchEnded_spec s c false (keepsMap_switchOff hc _)
    exact ⟨h4, h5, h2 c, h3, fun _ => domState_switchOff .., h1⟩
  · obtain ⟨h1, h2, h3, h4, h5, h6⟩ := marchEnded_spec s c true (keepsMap_switchOff hc _)
    have hop : recommissionOp s true = spareServes (setSlotSt (switchOff (marchEnded s c true) c) c 1) c := recommissionOp_eq true hr
    generalize switchOff (marchEnded s c true) c = x at h1 h2 h3 h4 h5 h6 hop
    have hx (n : Nat) : logi (setSlotSt x c 1) n = logi s n := congrArg (tget (logReset n) · n) h1
    rw [spareServes_none (fun n hn hd => by rw [hx]; exact hno n (h6 ▸ hn) hd)] at hop
    exact ⟨_, (act_wf rfl).trans (congrArg _ hop), h4, h5, (slotSt_setSlotSt ..).trans (if_pos rfl), h3, h1⟩

/-- Settles O29: the slot that fails is fenced, and its coach is mapped to a spare, or LOST; what RECOMMISSION leaves. -/
theorem failoverAndRecommission : Obligations.FailoverAndRecommission := ⟨failoverFencesAndMaps, recommissionEnds⟩
end Sys2Proof.Machine
end

section
/-! Admission and the entry to RUN (R28, R243, R261). -/
namespace Sys2Proof.Machine

variable {s t u : State} {n c : Nat} {tt : Timetable}

/-! ### What leaves the admitted timetable alone -/

/-- The timetable, its windows and queues, the outcome of its admission and the device state stay. -/
structure KeepsTable (s t : State) : Prop where
  table : t.carts.table = s.carts.table
  windows : t.carts.windows = s.carts.windows
  starting : t.carts.starting = s.carts.starting
  outcome : t.carts.outcome = s.carts.outcome
  queues : t.carts.queues = s.carts.queues
  dev : t.dev = s.dev

theorem KeepsTable.refl (s : State) : KeepsTable s s := ⟨rfl, rfl, rfl, rfl, rfl, rfl⟩
theorem KeepsTable.trans (h : KeepsTable s t) (g : KeepsTable t u) : KeepsTable s u :=
  ⟨g.table.trans h.table, g.windows.trans h.windows, g.starting.trans h.starting, g.outcome.trans h.outcome, g.queues.trans h.queues, g.dev.trans h.dev⟩
theorem KeepsTable.foldl {α : Type} (g : State → α → State) (h : ∀ s a, KeepsTable s (g s a)) (xs : List α) (s : State) : KeepsTable s (xs.foldl g s) := by
  induction xs generalizing s with
  | nil => exact .refl s
  | cons a r ih => exact (h s a).trans (ih _)
theorem SameCarts.keepsTable (h : SameCarts s t) : KeepsTable s t := by
  have hc := h.carts
  exact ⟨by rw [hc], by rw [hc], by rw [hc], by rw [hc], by rw [hc], h.dev⟩
theorem keepsTable_setLogi (s : State) (n : Nat) (l : Logical) : KeepsTable s (setLogi s n l) := ⟨rfl, rfl, rfl, rfl, rfl, rfl⟩
theorem keepsTable_setRegB (s : State) (a i : Nat) (b : Bool) : KeepsTable s (setRegB s a i b) := (sameCarts_setRegF ..).keepsTable
theorem keepsTable_setReg (s : State) (a : Nat) (v : W32) : KeepsTable s (setReg s a v) := (sameCarts_setReg ..).keepsTable
theorem keepsTable_crashNoted {r : State × List Word} (h : KeepsTable s r.1) (c : Nat) :
    KeepsTable s { r.1 with carts := { r.1.carts with crash := tput [] r.1.carts.crash c r.2 } } :=
  ⟨h.table, h.windows, h.starting, h.outcome, h.queues, h.dev⟩
theorem keepsTable_copyCrash (s : State) (c : Nat) : KeepsTable s (copyCrash s c) := by
  rw [copyCrash_eq]
  split
  · exact .refl s
  · exact keepsTable_crashNoted (served_crashRead s c).sameCarts.keepsTable c
theorem keepsTable_loadCoach (s : State) (r : ImageRec) (c : Nat) : KeepsTable s (loadCoach s r c) :=
  ((keepsTable_copyCrash ..).trans (sameCarts_loadLines ..).keepsTable).trans (sameCarts_loadLines ..).keepsTable
theorem sameCarts_switchOn (s : State) (d : Nat) : SameCarts s (switchOn s d) := by
  have h : SameCarts s (if d < 76 && 2 ≠ 2 then copyCrash (setRegF s (pwrDom d) 0 2 2) d else setRegF s (pwrDom d) 0 2 2) := by
    rw [if_neg (by simp)]
    exact sameCarts_setRegF ..
  unfold switchOn setDomain
  dsimp only
  generalize (if d < 76 && 2 ≠ 2 then copyCrash (setRegF s (pwrDom d) 0 2 2) d else setRegF s (pwrDom d) 0 2 2) = x at h ⊢
  split
  · exact h
  · exact h.trans (sameCarts_setRegF ..)
theorem sameCarts_grantRegions (s : State) (m bits : Nat) : SameCarts s (grantRegions s m bits) :=
  .foldl _ (fun s i => ((sameCarts_setReg ..).trans (sameCarts_setReg ..)).trans (sameCarts_setRegF ..)) _ _
theorem sameCarts_coachRegions (s : State) (phase : Nat) : SameCarts s (coachRegions s phase) :=
  .foldl _ (fun s c => .foldl _ (fun s r => ((sameCarts_setReg ..).trans (sameCarts_setReg ..)).trans (sameCarts_setRegF ..)) _ _) _ _
theorem sameCarts_engineRegions (s : State) : SameCarts s (engineRegions s) := by
  refine .foldl _ (fun s n => ?_) _ _
  split
  · exact .refl s
  · exact sameCarts_grantRegions ..

/-! ### The start of a coach -/

theorem keepsTable_declareDead (s : State) (m why : Nat) : KeepsTable s (declareDead s m why) := by
  unfold declareDead
  dsimp only
  split
  · exact .refl s
  · exact ((sameCarts_bbL0 ..).keepsTable.trans (keepsTable_setLogi ..)).trans (sourceOnly_pulse ..).sameCarts.keepsTable
theorem keepsTable_noteHalt (s : State) (c : Nat) : KeepsTable s (noteHalt s c) := by
  unfold noteHalt
  split
  · dsimp only
    split
    · exact (sameCarts_setCo ..).keepsTable
    · exact .refl s
  · dsimp only
    split
    · split
      · exact (keepsTable_setLogi ..).trans (keepsTable_declareDead ..)
      · exact keepsTable_setLogi ..
    · exact keepsTable_setLogi ..
theorem keepsTable_haltCoach (s : State) (c : Nat) (k : Coach) (r : ExcReq) (halt : Nat) : KeepsTable s (haltCoach s c k r halt) := by
  rw [haltCoach_eq]
  exact ((sameCarts_setCo s c (haltedCoach k)).trans (sameCarts_haltReported ..)).keepsTable.trans (keepsTable_noteHalt ..)
theorem keepsTable_doubleFault (s : State) (c : Nat) (r : ExcReq) (bad : Nat) : KeepsTable s (doubleFault s c r bad) := by
  have hh {x : State} (h : SameCarts s x) (k : Coach) (r : ExcReq) (i : Nat) : KeepsTable s (haltCoach x c k r i) :=
    h.keepsTable.trans (keepsTable_haltCoach ..)
  unfold doubleFault
  dsimp only
  split
  · exact hh (.refl s) ..
  · have hp := sameCarts_pushFrame s c (frameBelow (rdCo (co s c) 0x402)) (frameVals (co s c)
      { entry := 1, code := r.entry, scnum := 0, slots := 0, info := 0, detail1 := n32 bad, apc := r.apc, pc := n32 bad } 0)
    generalize pushFrame s c (frameBelow (rdCo (co s c) 0x402)) _ = p at hp ⊢
    split
    · exact hh hp ..
    · have hv := hp.trans (sameCarts_vectorOf p.1 c 1)
      generalize vectorOf p.1 c 1 = v at hv ⊢
      split
      · exact hh hv ..
      · exact (hv.trans (sameCarts_setCo ..)).keepsTable
theorem keepsTable_startCoach (s : State) (c : Nat) (grace : Option Nat) : KeepsTable s (startCoach s c grace) := by
  obtain ⟨k, hk⟩ := startCoach_eq s c grace
  have hx : SameCarts s (starting s c k) := ((sameCarts_dropReqs s c).trans (sameCarts_setCo _ c k)).trans (sameCarts_haltSource _ c false)
  have hv := hx.trans (sameCarts_vectorOf (starting s c k) c 0)
  rw [hk]
  generalize vectorOf (starting s c k) c 0 = v at hv
  unfold startedFrom
  split
  · exact (hv.trans (sameCarts_setCo ..)).keepsTable
  · exact hv.keepsTable.trans (keepsTable_doubleFault ..)
theorem keepsTable_beginCoach (s : State) (r : ImageRec) (c : Nat) : KeepsTable s (beginCoach s r c) :=
  ((keepsTable_setReg ..).trans (keepsTable_startCoach ..)).trans (keepsTable_setLogi ..)

/-! ### ADMIT -/

theorem keepsTable_admitOk (s : State) (t : Timetable) (w : Table Nat) : KeepsTable (freshCarts s t w) (admitOk s t w) := by
  unfold admitOk
  extract_lets fresh on media taken regions express dispatchers named loaded enabled
  have hon : SameCarts fresh on := .foldl _ sameCarts_switchOn _ _
  have htaken : SameCarts on taken := ⟨rfl, rfl, rfl⟩
  have hregions : SameCarts taken regions := (sameCarts_coachRegions ..).trans (sameCarts_engineRegions _)
  have hexpress : SameCarts regions express := by
    unfold express
    split
    · exact sameCarts_grantRegions ..
    · exact .refl _
  have hdispatchers : KeepsTable express dispatchers := .foldl _ (fun s n => (keepsTable_setReg ..).trans (keepsTable_setRegB ..)) _ _
  have hloaded : KeepsTable dispatchers loaded := .foldl _ (fun s e => keepsTable_loadCoach ..) named _
  have henabled : KeepsTable loaded enabled := .foldl _ (fun s e => keepsTable_setRegB ..) named _
  exact (((((hon.trans htaken).trans hregions).trans hexpress).keepsTable.trans hdispatchers).trans hloaded).trans
    (henabled.trans (.foldl _ (fun s e => keepsTable_beginCoach ..) named _))
theorem freshCarts_spec (s : State) (t : Timetable) (w : Table Nat) : (freshCarts s t w).carts.table = some t ∧ (freshCarts s t w).carts.windows = w ∧
    (freshCarts s t w).carts.starting = true ∧ (freshCarts s t w).carts.outcome = 1 ∧ (freshCarts s t w).carts.queues = [] ∧
    (freshCarts s t w).dev = s.dev := ⟨rfl, rfl, rfl, rfl, rfl, rfl⟩

/-- A change of a cluster clock that waited touches registers and power alone. -/
structure ClocksOnly (s t : State) : Prop where
  rest : t = { s with regs := t.regs, pwr := t.pwr }
theorem ClocksOnly.trans (h : ClocksOnly s t) (g : ClocksOnly t u) : ClocksOnly s u := by
  have h1 := h.rest
  have h2 := g.rest
  exact ⟨by rw [h2, h1]⟩
theorem clocksOnly_landClock (s : State) (k : Nat) : ClocksOnly s (landClock s k) := by
  unfold landClock
  split
  · exact ⟨rfl⟩
  · exact ⟨rfl⟩
theorem clocksOnly_foldl (xs : List Nat) (s : State) : ClocksOnly s (xs.foldl landClock s) := by
  induction xs generalizing s with
  | nil => exact ⟨rfl⟩
  | cons a r ih => exact (clocksOnly_landClock s a).trans (ih _)
theorem admitState_keeps (s : State) : (admitState s).carts = s.carts ∧ (admitState s).dev = s.dev ∧ (admitState s).fpp = s.fpp := by
  have h := (clocksOnly_foldl (upto 8) s).rest
  unfold admitState
  generalize (upto 8).foldl landClock s = x at h
  rw [h]
  exact ⟨rfl, rfl, rfl⟩

/-- The utilisation of each coach as the checks compute it, and the checks' first failure. -/
def admitUse (s : State) (epoch : Nat) : Option AdmFail × Table W32 :=
  match (admitSplits s epoch).1 with
  | some e => (some e, [])
  | none => coachesGo s (parseImage s.carts.image) (admitSplits s epoch).2 (upto s.variant.coaches) []
/-- The utilisation is kept for entry 0x4001. -/
def withUse (s : State) (u : Table W32) : State := { s with carts := { s.carts with util := u } }
/-- The first failure is named. -/
def admitNamed (s : State) (e : AdmFail) : State :=
  { s with carts := { s.carts with outcome := 2, reason := e.reason, reasonCart := e.cart, reasonCoach := e.coach } }
/-- What an admission does with the first failure of its checks. -/
def admitEnds (s : State) (key epoch : Nat) (fail : Option AdmFail) : State :=
  match fail with
  | some e => longDone (admitNamed (withUse s (admitUse s epoch).2) e) key (if e.reason = 0xF then 9 else 0xD)
  | none => admitOk (withUse s (admitUse s epoch).2) (parseImage s.carts.image) (admitSplits s epoch).2
/-- The checks of an admission, and what follows them. -/
def admitChecked (s : State) (key epoch : Nat) : State :=
  let l := s.carts.image
  let t := parseImage l
  let first := orF (if imageSized l then absentFail s t else none) (formFail s l t epoch)
  let w := if first.isSome then [] else splitWindows s t
  let r := match first with | some e => (some e, []) | none => coachesGo s t w (upto s.variant.coaches) []
  let fail := match r.1 with | some e => some e | none => streamFail s t w
  let s := { s with carts := { s.carts with util := r.2 } }
  match fail with
  | some e =>
    longDone { s with carts := { s.carts with outcome := 2, reason := e.reason, reasonCart := e.cart, reasonCoach := e.coach } } key
      (if e.reason = 0xF then 9 else 0xD)
  | none => admitOk s t w
theorem admitChecked_eq (s : State) (key epoch : Nat) : admitChecked s key epoch = admitEnds s key epoch (admitFailure s epoch) := rfl
theorem admitOp_checks {key epoch : Nat} {who : Transport} (h1 : s.fpp.long = some (key, epoch, who)) (h2 : (upto 8).foldl landClock s = u) : admitOp s =
    if key ≠ 0x4000 * 256 + 2 || s.dev ≠ 3 || s.carts.starting then s else admitChecked u key epoch := by
  unfold admitOp
  rw [h1]
  refine if_congr Iff.rfl rfl ?_
  rw [h2]
  rfl
theorem admitOp_eq (epoch : Nat) (who : Transport) (h1 : s.fpp.long = some (0x4000 * 256 + 2, epoch, who)) (h2 : s.dev = 3) (h3 : s.carts.starting = false) :
    admitOp s = admitEnds (admitState s) (0x4000 * 256 + 2) epoch (admitFailure (admitState s) epoch) := by
  have hneg : ¬((0x4000 * 256 + 2 ≠ 0x4000 * 256 + 2 || s.dev ≠ 3 || s.carts.starting) = true) := by
    rw [h2, h3]
    decide
  rw [admitOp_checks h1 rfl, if_neg hneg, admitChecked_eq]
  unfold admitState
  rfl

/-- A long command that has ended with a failure. -/
theorem longDone_ends (key status : Nat) (e : Nat) (who : Transport) (h : s.fpp.long = some (key, e, who)) :
    (longDone s key status).fpp.long = none ∧ (longDone s key status) = { s with fpp := (longDone s key status).fpp } := by
  unfold longDone
  rw [h]
  dsimp only
  rw [if_pos rfl]
  exact ⟨rfl, rfl⟩
theorem admitNamed_spec (s : State) (u : Table W32) (e : AdmFail) : let t := admitNamed (withUse s u) e
    t.carts.outcome = 2 ∧ t.carts.reason = e.reason ∧ t.carts.reasonCart = e.cart ∧ t.carts.reasonCoach = e.coach ∧ t.carts.table = s.carts.table ∧
    t.carts.windows = s.carts.windows ∧ t.carts.queues = s.carts.queues ∧ t.fpp = s.fpp ∧ t = { s with carts := t.carts } := ⟨rfl, rfl, rfl, rfl, rfl, rfl, rfl, rfl, rfl⟩

theorem admissionIsWholeOrNothing : Clause.AdmissionIsWholeOrNothing := by
  intro s epoch who h1 h2 h3
  have hop := admitOp_eq epoch who h1 h2 h3
  obtain ⟨hcarts, hdev, hfpp⟩ := admitState_keeps s
  rw [h2] at hdev
  have himg : (admitState s).carts.image = s.carts.image := by rw [hcarts]
  generalize admitState s = a at *
  unfold admitEnds at hop
  rw [himg] at hop
  refine ⟨fun e he => ?_, fun hnone => ?_⟩
  · rw [he] at hop
    dsimp only at hop
    obtain ⟨g1, g2, g3, g4, g5, g6, g7, g8, g9⟩ := admitNamed_spec a (admitUse a epoch).2 e
    have hlong : (admitNamed (withUse a (admitUse a epoch).2) e).fpp.long = some (0x4000 * 256 + 2, epoch, who) := by rw [g8, hfpp, h1]
    generalize admitNamed (withUse a (admitUse a epoch).2) e = x at *
    obtain ⟨hl, hrest⟩ := longDone_ends _ (if e.reason = 0xF then 9 else 0xD) _ _ hlong
    refine ⟨_, (act_wf rfl).trans (congrArg _ hop), ?_⟩
    dsimp only
    rw [hcarts] at g5 g6 g7
    generalize longDone x (0x4000 * 256 + 2) (if e.reason = 0xF then 9 else 0xD) = y at hl hrest ⊢
    have hc : y.carts = x.carts := by rw [hrest]
    rw [hc]
    exact ⟨g1, g2, g3, g4, g5, g6, g7, hl, by rw [hrest, g9]⟩
  · rw [hnone] at hop
    have hk := keepsTable_admitOk (withUse a (admitUse a epoch).2) (parseImage s.carts.image) (admitSplits a epoch).2
    obtain ⟨g1, g2, g3, g4, g5, g6⟩ := freshCarts_spec (withUse a (admitUse a epoch).2) (parseImage s.carts.image) (admitSplits a epoch).2
    exact ⟨_, (act_wf rfl).trans (congrArg _ hop), hk.table.trans g1, hk.windows.trans g2, hk.starting.trans g3, hk.outcome.trans g4, hk.queues.trans g5,
      hk.dev.trans (g6.trans hdev)⟩

/-! ### The entry to RUN -/

/-- The first release of each TIME root. -/
def firstReleases (s : State) (t : Timetable) (vs : List Nat) (k : Table Nat) : Table Nat :=
  vs.foldl (fun k v => match t.carts[v]? with | some c => if c.rsrc = 0 then tput 0 k v (firstK s t c) else k | none => k) k
theorem firstReleases_cons (v : Nat) (vs : List Nat) (k : Table Nat) : firstReleases s tt (v :: vs) k =
    firstReleases s tt vs (match tt.carts[v]? with | some c => if c.rsrc = 0 then tput 0 k v (firstK s tt c) else k | none => k) := rfl
theorem tget_firstReleases {v : Nat} {c : Cart} (hc : tt.carts[v]? = some c) (h0 : c.rsrc = 0) (vs : List Nat) (k : Table Nat)
    (h : v ∈ vs ∨ tget 0 k v = firstK s tt c) : tget 0 (firstReleases s tt vs k) v = firstK s tt c := by
  induction vs generalizing k with
  | nil => exact h.resolve_left (List.not_mem_nil)
  | cons w r ih =>
    rw [firstReleases_cons]
    refine ih _ ?_
    by_cases hw : v = w
    · subst hw
      right
      rw [hc]
      exact (congrArg (tget 0 · v) (if_pos h0)).trans (tget_tput_same ..)
    · refine h.imp (fun hm => (List.mem_cons.mp hm).resolve_left hw) (fun hk => ?_)
      split
      · split
        · rw [tget_tput_other _ _ _ hw, hk]
        · exact hk
      · exact hk

/-- Every TIME root has its first release, and the start is over. -/
def released0 (s : State) (ks : Table Nat) : State := { s with carts := { s.carts with starting := false, nextK := ks } }
theorem released0_spec (s : State) (ks : Table Nat) : let t := released0 s ks
    t.carts.starting = false ∧ t.carts.nextK = ks ∧ t.carts.table = s.carts.table ∧ t.carts.logical = s.carts.logical ∧ t.coaches = s.coaches ∧ t.mem = s.mem ∧
    t.variant = s.variant := ⟨rfl, rfl, rfl, rfl, rfl, rfl, rfl⟩
/-- The wagons start. -/
def wagonsStarted (s : State) : State :=
  let s := (enWagons s).foldl (fun s e => wagStart s e.1 e.2) s
  { s with media := { s.media with fromSafe := false } }
/-- The wagons' start touches the media alone. -/
structure MediaOnly (s t : State) : Prop where
  rest : t = { s with media := t.media }
theorem mediaOnly_wagonsStarted (s : State) : MediaOnly s (wagonsStarted s) := by
  have h : ∀ (xs : List (Nat × Nat)) (s : State), MediaOnly s (xs.foldl (fun s e => wagStart s e.1 e.2) s) := by
    intro xs
    induction xs with
    | nil => exact fun s => ⟨rfl⟩
    | cons a r ih =>
      intro s
      have h1 : wagStart s a.1 a.2 = { s with media := (wagStart s a.1 a.2).media } := rfl
      have h2 := (ih (wagStart s a.1 a.2)).rest
      refine ⟨?_⟩
      rw [List.foldl_cons]
      generalize wagStart s a.1 a.2 = x at h1 h2
      rw [h2, h1]
  have h1 := (h (enWagons s) s).rest
  unfold wagonsStarted
  dsimp only
  generalize (enWagons s).foldl (fun s e => wagStart s e.1 e.2) s = x at h1
  exact ⟨by rw [h1]⟩
theorem MediaOnly.fields (h : MediaOnly s t) : t.carts = s.carts ∧ t.coaches = s.coaches ∧ t.mem = s.mem ∧ t.variant = s.variant := by
  have hr := h.rest
  exact ⟨by rw [hr], by rw [hr], by rw [hr], by rw [hr]⟩
/-- RUN, or DEGRADED while a unit is lost. -/
def runEntered (s : State) : State := if unitLost s then setDev s 5 7 else setDev s 4 6
theorem setDev_spec (s : State) (new row : Nat) : (setDev s new row).carts = s.carts ∧ (setDev s new row).coaches = s.coaches ∧
    (setDev s new row).mem = s.mem ∧ (setDev s new row).dev = new := by
  have hd : (setDev s new row).carts = (bbL0 s 0x0101 (n32 s.dev) (n32 new) (n32 row) 0).carts ∧
      (setDev s new row).coaches = (bbL0 s 0x0101 (n32 s.dev) (n32 new) (n32 row) 0).coaches ∧
      (setDev s new row).mem = (bbL0 s 0x0101 (n32 s.dev) (n32 new) (n32 row) 0).mem ∧ (setDev s new row).dev = new := ⟨rfl, rfl, rfl, rfl⟩
  have hb := (offerOnly_bbOffer s (bbEntry s 1 0xFF 0x0101 (n32 s.dev) (n32 new) (n32 row) 0)).rest
  obtain ⟨h1, h2, h3, h4⟩ := hd
  exact ⟨h1.trans (by unfold bbL0; rw [hb]), h2.trans (by unfold bbL0; rw [hb]), h3.trans (by unfold bbL0; rw [hb]), h4⟩
theorem runEntered_spec (s : State) : (runEntered s).carts = s.carts ∧ (runEntered s).coaches = s.coaches ∧ (runEntered s).mem = s.mem ∧
    (runEntered s).dev = (if unitLost s then 5 else 4) := by
  unfold runEntered
  split
  · exact setDev_spec s 5 7
  · exact setDev_spec s 4 6
theorem unitLost_congr (h1 : t.carts.logical = s.carts.logical) (h2 : t.mem = s.mem) (h3 : t.variant = s.variant) : unitLost t = unitLost s := by
  unfold unitLost logi
  rw [h1, h2, h3]
theorem longDone_fppOnly (s : State) (key status : Nat) : longDone s key status = { s with fpp := (longDone s key status).fpp } := by
  unfold longDone
  split
  · split
    · rfl
    · rfl
  · rfl

theorem runEntryOp_eq (ht : s.carts.table = some tt) (hs : s.carts.starting = true) (hd : s.dev = 3) (hh : ∀ e ∈ namedSlots s tt, (co s e.2).handed = true) :
    runEntryOp s = longDone (runEntered (wagonsStarted (released0 s (firstReleases s tt (upto tt.carts.length) [])))) (0x4000 * 256 + 2) 0 := by
  have hall : (namedSlots s tt).all (fun e => (co s e.2).handed) = true := List.all_eq_true.mpr hh
  have hneg : ¬((!s.carts.starting || s.dev ≠ 3 || !((namedSlots s tt).all (fun e => (co s e.2).handed))) = true) := by
    rw [hs, hd, hall]
    decide
  unfold runEntryOp
  rw [ht]
  exact if_neg hneg

theorem runIsEntered : Clause.RunIsEnteredOnceAllHaveHandedOver := by
  intro s tt ht hs hd hh
  refine ⟨_, (act_wf rfl).trans (congrArg _ (runEntryOp_eq ht hs hd hh)), ?_⟩
  obtain ⟨a1, a2, a3, a4, a5, a6, a7⟩ := released0_spec s (firstReleases s tt (upto tt.carts.length) [])
  generalize released0 s (firstReleases s tt (upto tt.carts.length) []) = a at *
  obtain ⟨b1, b2, b3, b4⟩ := (mediaOnly_wagonsStarted a).fields
  generalize wagonsStarted a = b at *
  obtain ⟨c1, c2, c3, c4⟩ := runEntered_spec b
  generalize runEntered b = x at *
  rw [longDone_fppOnly x]
  have hcarts : x.carts = a.carts := c1.trans b1
  have hlost : unitLost b = unitLost s := unitLost_congr ((congrArg Carts.logical b1).trans a4) (b3.trans a6) (b4.trans a7)
  dsimp only
  rw [hcarts, c2, b2, c3, b3, c4, hlost]
  refine ⟨a1, rfl, a3.trans ht, a5, a6, fun v c hv hc h0 => ?_⟩
  rw [a2]
  exact tget_firstReleases hc h0 _ _ (.inl (List.mem_range.mpr hv))

/-- Settles O30: an admission is whole or nothing, and RUN is entered once every coach has handed over. -/
theorem admissionAndTheEntryToRun : Obligations.AdmissionAndTheEntryToRun := ⟨admissionIsWholeOrNothing, runIsEntered⟩
end Sys2Proof.Machine
end

section
/-! The load port and the parking of the DRAM (R292, R303). -/
namespace Sys2Proof.Machine

variable {s t u : State} {a m : Nat} {v : W32} {i : RegInfo}

theorem setRegB_fields (s : State) (a i : Nat) (b : Bool) : (setRegB s a i b).mem = s.mem ∧ (setRegB s a i b).coaches = s.coaches := ⟨rfl, rfl⟩

/-! ### A register without OWN bits -/

/-- A store of a register without OWN bits that holds no reserved value is never in conflict. -/
theorem storePlain_plain (hi : regInfo s.variant a = some i) (hown : i.own = 0) (hres : sysReserved s a v.toNat = []) :
    storePlain s m a v = setReg s a (storeVal s m a v i).1 :=
  storePlain_of_no_conflict hi (by simp [storeConflicts, hown, hres])
theorem storeMask_plain (hown : i.own = 0) : storeMask s m i = i.rw := by simp [storeMask, hown]

theorem domOn_setReg {d : Nat} (h : pwrDom d ≠ a) : domOn (setReg s a v) d = domOn s d := by
  unfold domOn domState regF
  rw [reg_setReg, if_neg h]

/-! ### The load port -/

/-- What the register map says of the last data register and of the control register. -/
def lpDataInfo : RegInfo := { ro 0 with confAt := memStat, confBit := 0, rw := 0xFFFFFFFF }
def lpCtlInfo : RegInfo := { ro 0 with confAt := memStat, confBit := 0, rw := 0x17F, w1c := 0x4000 }
theorem lpData_info (va : Config.Variant) : regInfo va (lpData 3) = some lpDataInfo :=
  regInfo_mem (o := 0x220E) (by decide) (by decide)
theorem lpCtl_info (va : Config.Variant) : regInfo va lpCtl = some lpCtlInfo :=
  regInfo_mem (o := 0x2200) (by decide) (by decide)
theorem lpData_reserved (x : Nat) : sysReserved s (lpData 3) x = [] := rfl
theorem lpCtl_reserved {x : Nat} (h : fld x 0 7 < 72) : sysReserved s lpCtl x = [] := if_neg (by rw [Bool.and_eq_true, decide_eq_true_eq, decide_eq_true_eq]; exact fun hc => absurd hc.2 (Nat.not_le.mpr h))

theorem storePlain_lpData (s : State) (v : W32) : storePlain s 72 (lpData 3) v = setReg s (lpData 3) v := by
  have hv : (storeVal s 72 (lpData 3) v lpDataInfo).1 = v := storeVal_all (storeMask_plain rfl) rfl (lpData_reserved _)
  rw [storePlain_plain (lpData_info _) rfl (lpData_reserved _), hv]
/-- A store of the control word leaves its target and its memory in the register. -/
theorem storePlain_lpCtl (s : State) (v : W32) (h : rfld v 0 7 < 72) : ∃ x, storePlain s 72 lpCtl v = setReg s lpCtl x ∧ rfld x 0 7 = rfld v 0 7 ∧ rbit x 8 = rbit v 8 := by
  have hres : sysReserved s lpCtl v.toNat = [] := lpCtl_reserved h
  have hbit {j : Nat} (hj : j < 32) := rbit_storeVal (s := s) (m := 72) (a := lpCtl) (v := v) (i := lpCtlInfo) (j := j) (by rw [storeMask_plain rfl]; decide) hj
  rw [storeWord_of_no_reserved hres, storeMask_plain rfl] at hbit
  have hrw : lpCtlInfo.rw = 0x17F := rfl
  have hw1c : lpCtlInfo.w1c = 0x4000 := rfl
  rw [hrw, hw1c] at hbit
  refine ⟨_, storePlain_plain (lpCtl_info _) rfl hres, Nat.eq_of_testBit_eq fun j => ?_, ?_⟩
  · rw [testBit_rfld, testBit_rfld]
    by_cases hj : j < 7
    · rw [hbit (by omega)]
      have h7 : (0x17F : Nat).testBit (0 + j) = true ∧ (0x4000 : Nat).testBit (0 + j) = false := by interval_cases j <;> decide
      simp only [h7.1, h7.2, if_true, Bool.and_false, Bool.not_false, Bool.and_true, rbit_eq]
    · simp [hj]
  · rw [hbit (by decide)]
    simp [rbit_eq, Nat.testBit]

theorem lpBusy_congr (h : reg t lpCtl = reg s lpCtl) : lpBusy t = lpBusy s := by unfold lpBusy regB; rw [h]
/-- The move starts. -/
def lpMoving (s : State) (rd : Bool) : State := setRegB (setRegB s lpCtl 15 true) lpCtl 9 rd
theorem lpStart_moves (rd : Bool) (h1 : domOn s (regF s lpCtl 0 7) = true) (h2 : (reg s lpAddr).toNat < (if regB s lpCtl 8 then 0x20000 else 0x8000)) :
    lpStart s rd = lpMoving s rd := by
  unfold lpStart
  rw [h1, if_neg (by decide), if_pos h2]
  rfl
theorem lpMoving_spec (s : State) (rd : Bool) : lpBusy (lpMoving s rd) = true ∧ regB (lpMoving s rd) lpCtl 9 = rd ∧ OnlyRegs [lpCtl] s (lpMoving s rd) := by
  unfold lpBusy lpMoving
  refine ⟨?_, regB_setRegB_same _ _ _ _ (by decide), onlyRegs_trans (onlyRegs_setRegB ..) (onlyRegs_setRegB ..)⟩
  rw [regB_setRegB_other _ _ _ _ _ (by decide) (by decide), regB_setRegB_same _ _ _ _ (by decide)]

theorem pwrDom_ne_lp (d : Nat) (hd : d < 128) : pwrDom d ≠ lpData 3 ∧ pwrDom d ≠ lpCtl := by
  unfold pwrDom lpData lpCtl pwrBase
  omega
theorem rfld_lt_pow (x : W32) (lo w : Nat) : rfld x lo w < 2 ^ w := rfld_lt _ _ _

theorem lpWrite_moves (hb : lpBusy s = false) (hd : domOn s (regF s lpCtl 0 7) = true) (ha : (reg s lpAddr).toNat < (if regB s lpCtl 8 then 0x20000 else 0x8000)) :
    lpWriteOp s 72 v = lpMoving (setReg s (lpData 3) v) false := by
  have hctl : reg (setReg s (lpData 3) v) lpCtl = reg s lpCtl := (reg_setReg ..).trans (if_neg (by decide))
  have haddr : reg (setReg s (lpData 3) v) lpAddr = reg s lpAddr := (reg_setReg ..).trans (if_neg (by decide))
  have hdom := domOn_setReg (s := s) (v := v) (pwrDom_ne_lp (regF s lpCtl 0 7) (rfld_lt ..)).1
  unfold lpWriteOp lpStore
  rw [hb, if_neg (by decide), if_neg (by decide), storePlain_lpData]
  refine (if_pos rfl).trans (lpStart_moves false ?_ ?_)
  · unfold regF
    rw [hctl]
    exact hdom.trans hd
  · unfold regB
    rw [hctl, haddr]
    exact ha

theorem lpRead_moves (hb : lpBusy s = false) (h9 : rbit v 9 = true) (h72 : rfld v 0 7 < 72) (hd : domOn s (rfld v 0 7) = true)
    (ha : (reg s lpAddr).toNat < (if rbit v 8 then 0x20000 else 0x8000)) : ∃ x, lpReadOp s 72 v = lpMoving (setReg s lpCtl x) true := by
  obtain ⟨x, hx, h7, h8⟩ := storePlain_lpCtl s v h72
  have hctl : reg (setReg s lpCtl x) lpCtl = x := reg_setReg_same ..
  have haddr : reg (setReg s lpCtl x) lpAddr = reg s lpAddr := (reg_setReg ..).trans (if_neg (by decide))
  have hdom := domOn_setReg (s := s) (v := x) (pwrDom_ne_lp (rfld v 0 7) (Nat.lt_trans h72 (by decide))).2
  refine ⟨x, ?_⟩
  unfold lpReadOp lpStore
  rw [h9, hb, if_pos rfl, if_neg (by decide), if_neg (by decide), hx, if_neg (by decide)]
  refine (if_pos rfl).trans (lpStart_moves true ?_ ?_)
  · unfold regF
    rw [hctl, h7]
    exact hdom.trans hd
  · unfold regB
    rw [hctl, haddr, h8]
    exact ha

/-- A move that is done. -/
def lpQuiet (s : State) : State := setRegB (setRegB s lpCtl 15 false) lpCtl 9 false
theorem lpQuiet_spec (s : State) : lpBusy (lpQuiet s) = false ∧ (lpQuiet s).mem = s.mem ∧ (lpQuiet s).coaches = s.coaches ∧
    ∀ a, a ≠ lpCtl → reg (lpQuiet s) a = reg s a := by
  unfold lpBusy lpQuiet
  refine ⟨?_, (setRegB_fields ..).1.trans (setRegB_fields ..).1, (setRegB_fields ..).2.trans (setRegB_fields ..).2, fun a ha => ?_⟩
  · rw [regB_setRegB_other _ _ _ _ _ (by decide) (by decide), regB_setRegB_same _ _ _ _ (by decide)]
  · rw [reg_setRegB_ne _ _ _ _ _ ha, reg_setRegB_ne _ _ _ _ _ ha]
/-- The four data registers take the line read. -/
def lpTaken (s : State) (x : Nat) : State := (upto 4).foldl (fun t w => setReg t (lpData w) (n32 (x / 2 ^ (32 * w)))) s
theorem lpTaken_spec (s : State) (x : Nat) : (lpTaken s x).mem = s.mem ∧ ∀ w, w < 4 → reg (lpTaken s x) (lpData w) = n32 (x / 2 ^ (32 * w)) := by
  have hm (y : State) (a : Nat) (w : W32) : (setReg y a w).mem = y.mem := rfl
  have h : lpTaken s x = setReg (setReg (setReg (setReg s (lpData 0) (n32 (x / 2 ^ (32 * 0)))) (lpData 1) (n32 (x / 2 ^ (32 * 1)))) (lpData 2)
    (n32 (x / 2 ^ (32 * 2)))) (lpData 3) (n32 (x / 2 ^ (32 * 3))) := rfl
  rw [h]
  refine ⟨by rw [hm, hm, hm, hm], fun w hw => ?_⟩
  have hne {i j : Nat} (h : i ≠ j) : lpData i ≠ lpData j := by unfold lpData; omega
  interval_cases w
  · rw [reg_setReg, if_neg (hne (by decide)), reg_setReg, if_neg (hne (by decide)), reg_setReg, if_neg (hne (by decide)), reg_setReg_same]
  · rw [reg_setReg, if_neg (hne (by decide)), reg_setReg, if_neg (hne (by decide)), reg_setReg_same]
  · rw [reg_setReg, if_neg (hne (by decide)), reg_setReg_same]
  · exact reg_setReg_same ..

theorem memFlag_frame (s : State) (i : Nat) : (memFlag s i).mem = s.mem ∧ ∀ b, b ≠ memStat → (∀ n, b ≠ icScnt n) → reg (memFlag s i) b = reg s b := by
  have h := sourceOnly_pulse (setRegB s memStat i true) (if i = 1 then 1048 else 1049)
  unfold memFlag
  exact ⟨h.mem, fun b hb hn => (h.regs b (hn _)).trans (reg_setRegB_ne _ _ _ _ _ hb)⟩

theorem icScnt_ne_lp (n : Nat) : lpData 3 ≠ icScnt n ∧ lpCtl ≠ icScnt n := by
  unfold lpData lpCtl icScnt icBase
  omega
/-- A write that is ignored is counted. -/
def ignoredOnce (s : State) : State := { s with mem := { s.mem with ignoredWrites := incSat 32 s.mem.ignoredWrites } }
theorem memIgnore_spec (s : State) : (memIgnore s).mem.ignoredWrites = incSat 32 s.mem.ignoredWrites ∧
    ∀ b, b ≠ memStat → (∀ n, b ≠ icScnt n) → reg (memIgnore s) b = reg s b := by
  have hop : memIgnore s = memFlag (ignoredOnce s) 0 := rfl
  have hi : (ignoredOnce s).mem.ignoredWrites = incSat 32 s.mem.ignoredWrites ∧ ∀ b, reg (ignoredOnce s) b = reg s b := ⟨rfl, fun _ => rfl⟩
  obtain ⟨h1, h2⟩ := memFlag_frame (ignoredOnce s) 0
  rw [hop, h1]
  exact ⟨hi.1, fun b hb hn => (h2 b hb hn).trans (hi.2 b)⟩

/-- The port of the line that moves. -/
def lpPort (s : State) : Nat :=
  let kind := if regB s lpCtl 8 then 0 else 1
  let inst := regF s lpCtl 0 7
  let off := (reg s lpAddr).toNat
  portKey (bankKey kind inst (bankOf kind off)) (dualBank (bankKey kind inst (bankOf kind off)))
/-- The move of the line to and from the memory. -/
def lpStored (s : State) : BankOut :=
  turnAccess s 5 (lpPort s) .store (wordKey (if regB s lpCtl 8 then 0 else 1) (regF s lpCtl 0 7) (reg s lpAddr).toNat) 8
    (valsNum ((upto 4).map (fun w => reg s (lpData w)))) 72
def lpLoaded (s : State) : BankOut :=
  turnAccess s 5 (lpPort s) .load (wordKey (if regB s lpCtl 8 then 0 else 1) (regF s lpCtl 0 7) (reg s lpAddr).toNat) 8 0 72
theorem lpDoneOp_eq (hb : lpBusy s = true) : lpDoneOp s =
    lpQuiet (if regB s lpCtl 9 then lpTaken (lpLoaded s).st (lpLoaded s).data else setReg (lpStored s).st lpAddr (n32 ((reg s lpAddr).toNat + 8))) := by
  unfold lpDoneOp
  rw [hb]
  exact if_neg (by decide)
theorem lpDone_store {o : BankOut} (ho : lpStored s = o) (hb : lpBusy s = true) (h9 : regB s lpCtl 9 = false) :
    lpDoneOp s = lpQuiet (setReg o.st lpAddr (n32 ((reg s lpAddr).toNat + 8))) := by
  rw [lpDoneOp_eq hb, h9, ho]
  exact congrArg lpQuiet (if_neg Bool.false_ne_true)
theorem lpDone_load {o : BankOut} (ho : lpLoaded s = o) (hb : lpBusy s = true) (h9 : regB s lpCtl 9 = true) :
    lpDoneOp s = lpQuiet (lpTaken o.st o.data) := by
  rw [lpDoneOp_eq hb, h9, ho]
  exact congrArg lpQuiet (if_pos rfl)
theorem lpAddr_next (x : State) (off : Nat) : let t := lpQuiet (setReg x lpAddr (n32 (off + 8)))
    lpBusy t = false ∧ reg t lpAddr = n32 (off + 8) ∧ t.mem = x.mem ∧ t.coaches = x.coaches := by
  obtain ⟨h1, h2, h3, h4⟩ := lpQuiet_spec (setReg x lpAddr (n32 (off + 8)))
  exact ⟨h1, (h4 _ (by decide)).trans (reg_setReg_same ..), h2, h3⟩
theorem lpLine_read (x : State) (d : Nat) : let t := lpQuiet (lpTaken x d)
    lpBusy t = false ∧ t.mem = x.mem ∧ ∀ w, w < 4 → reg t (lpData w) = n32 (d / 2 ^ (32 * w)) := by
  obtain ⟨h1, h2, -, h4⟩ := lpQuiet_spec (lpTaken x d)
  obtain ⟨g1, g2⟩ := lpTaken_spec x d
  refine ⟨h1, h2.trans g1, fun w hw => (h4 _ ?_).trans (g2 w hw)⟩
  unfold lpData lpCtl
  omega

theorem loadPortDone_spec (hb : lpBusy s = true) :
    (∀ o, lpStored s = o → regB s lpCtl 9 = false → ∃ t, exec .loadPortDone s = .next t ∧ lpBusy t = false ∧ reg t lpAddr = n32 ((reg s lpAddr).toNat + 8) ∧
      t.mem = o.st.mem ∧ t.coaches = o.st.coaches) ∧
    (∀ o, lpLoaded s = o → regB s lpCtl 9 = true → ∃ t, exec .loadPortDone s = .next t ∧ lpBusy t = false ∧ t.mem = o.st.mem ∧
      ∀ w, w < 4 → reg t (lpData w) = n32 (o.data / 2 ^ (32 * w))) := by
  have hexec : exec .loadPortDone s = .next (lpDoneOp s) := act_wf rfl
  refine ⟨fun o ho h9 => ?_, fun o ho h9 => ?_⟩
  · rw [lpDone_store ho hb h9] at hexec
    exact ⟨_, hexec, lpAddr_next ..⟩
  · rw [lpDone_load ho hb h9] at hexec
    exact ⟨_, hexec, lpLine_read ..⟩

theorem loadPort_ignores (hm : masterOk m = true) (hne : m ≠ 72) : ∃ t, exec (.loadPortWrite m v) s = .next t ∧ reg t (lpData 3) = reg s (lpData 3) ∧
    lpBusy t = lpBusy s ∧ t.mem.ignoredWrites = incSat 32 s.mem.ignoredWrites := by
  have hop : lpWriteOp s m v = memIgnore s := if_pos hne
  have hexec : exec (.loadPortWrite m v) s = .next (lpWriteOp s m v) := act_wf hm
  obtain ⟨h1, h2⟩ := memIgnore_spec s
  rw [hop] at hexec
  exact ⟨_, hexec, h2 _ (by decide) (fun n => (icScnt_ne_lp n).1), lpBusy_congr (h2 _ (by decide) (fun n => (icScnt_ne_lp n).2)), h1⟩

theorem loadPort_starts :
    (lpBusy s = false → domOn s (regF s lpCtl 0 7) = true → (reg s lpAddr).toNat < (if regB s lpCtl 8 then 0x20000 else 0x8000) →
      ∃ t, exec (.loadPortWrite 72 v) s = .next t ∧ lpBusy t = true ∧ regB t lpCtl 9 = false ∧ reg t (lpData 3) = v ∧ OnlyRegs [lpCtl, lpData 3] s t) ∧
    (lpBusy s = false → rbit v 9 = true → rfld v 0 7 < 72 → domOn s (rfld v 0 7) = true →
      (reg s lpAddr).toNat < (if rbit v 8 then 0x20000 else 0x8000) → ∃ t, exec (.loadPortRead 72 v) s = .next t ∧ lpBusy t = true ∧ regB t lpCtl 9 = true) := by
  refine ⟨fun hb hd ha => ⟨_, (act_wf rfl).trans (congrArg _ (lpWrite_moves hb hd ha)), ?_⟩, fun hb h9 h72 hd ha => ?_⟩
  · obtain ⟨h1, h2, h3⟩ := lpMoving_spec (setReg s (lpData 3) v) false
    refine ⟨h1, h2, (h3.2 _ (by decide)).trans (reg_setReg_same ..), onlyRegs_trans (onlyRegs_mono (onlyRegs_setReg ..) ?_) (onlyRegs_mono h3 ?_)⟩
    · simp
    · simp
  · obtain ⟨x, hx⟩ := lpRead_moves hb h9 h72 hd ha
    obtain ⟨h1, h2, -⟩ := lpMoving_spec (setReg s lpCtl x) true
    exact ⟨_, (act_wf rfl).trans (congrArg _ hx), h1, h2⟩

theorem theLoadPort : Clause.TheLoadPort := by
  intro s m v hm
  refine ⟨loadPort_starts.1, loadPort_starts.2, fun hb => ?_, loadPort_ignores hm⟩
  obtain ⟨h1, h2⟩ := loadPortDone_spec hb
  intro kind inst off po
  refine ⟨fun h9 => ?_, fun h9 => ?_⟩
  · intro o
    exact h1 o rfl h9
  · intro o
    exact h2 o rfl h9

/-! ### The DRAM -/

/-- The controller has stopped. -/
def reachedRefresh (s : State) : State := setRegB { s with mem := { s.mem with parking := false } } dctl 17 true
theorem dctl_ne_icScnt (n : Nat) : dctl ≠ icScnt n := by
  unfold dctl icScnt icBase
  omega

theorem reachedRefresh_spec (s : State) : (reachedRefresh s).mem.parking = false ∧ (reachedRefresh s).mem.data = s.mem.data ∧
    regB (reachedRefresh s) dctl 17 = true := ⟨rfl, rfl, regB_setRegB_same _ _ _ _ (by decide)⟩
theorem dramParked_of_bit (h : regB s dctl 17 = true) : dramParked s = true := Bool.or_eq_true_iff.mpr (.inr h)
theorem parkOp_stops (h1 : regB s dctl 0 = true ∨ s.bb.pfail = true) (h2 : dramParked s = false) :
    parkOp s = { s with mem := { s.mem with parking := true, parks := incSat 32 s.mem.parks } } := by
  refine if_pos ?_
  rw [h2]
  simpa using h1
theorem unparkOp_leaves (h1 : regB s dctl 17 = true) (h2 : regB s dctl 0 = false) (h3 : s.bb.pfail = false)
    (h4 : s.bb.dipRelease = 0 ∨ s.bb.dipRelease + 1000000 ≤ s.now) : unparkOp s = setLevel (setRegB s dctl 17 false) 1050 false := by
  refine if_pos ?_
  rw [h1, h2, h3]
  simpa using h4

theorem parkedOp_reaches (h : s.mem.parking = true) : parkedOp s = setLevel (reachedRefresh s) 1050 true := if_pos h
theorem parkComplete_parks (h : s.mem.parking = true) :
    ∃ t, exec .parkComplete s = .next t ∧ t.mem.parking = false ∧ regB t dctl 17 = true ∧ dramParked t = true ∧ t.mem.data = s.mem.data := by
  have hexec : exec .parkComplete s = .next (parkedOp s) := act_wf rfl
  have hl := sourceOnly_setLevel (reachedRefresh s) 1050 true
  obtain ⟨g1, g2, g3⟩ := reachedRefresh_spec s
  rw [parkedOp_reaches h] at hexec
  generalize setLevel (reachedRefresh s) 1050 true = t at hexec hl
  have h17 : regB t dctl 17 = true := (hl.regB _ _ (dctl_ne_icScnt _)).trans g3
  rw [← hl.mem] at g1 g2
  exact ⟨t, hexec, g1, h17, dramParked_of_bit h17, g2⟩
theorem dramUnpark_leaves (h1 : regB s dctl 17 = true) (h2 : regB s dctl 0 = false) (h3 : s.bb.pfail = false)
    (h4 : s.bb.dipRelease = 0 ∨ s.bb.dipRelease + 1000000 ≤ s.now) : ∃ t, exec .dramUnpark s = .next t ∧ regB t dctl 17 = false ∧ t.mem = s.mem := by
  have hexec : exec .dramUnpark s = .next (unparkOp s) := act_wf rfl
  have hl := sourceOnly_setLevel (setRegB s dctl 17 false) 1050 false
  rw [unparkOp_leaves h1 h2 h3 h4] at hexec
  exact ⟨_, hexec, (hl.regB _ _ (dctl_ne_icScnt _)).trans (regB_setRegB_same _ _ _ _ (by decide)), hl.mem.trans (setRegB_fields ..).1⟩
theorem dramPark_stops (h1 : regB s dctl 0 = true ∨ s.bb.pfail = true) (h2 : dramParked s = false) :
    exec .dramPark s = .next { s with mem := { s.mem with parking := true, parks := incSat 32 s.mem.parks } } := by
  have hexec : exec .dramPark s = .next (parkOp s) := act_wf rfl
  rwa [parkOp_stops h1 h2] at hexec

theorem theDramParks : Clause.TheDramParks := fun _ => ⟨dramPark_stops, parkComplete_parks, dramUnpark_leaves⟩

/-- Settles O42: the load port moves lines, and the DRAM is parked and unparked. -/
theorem loadPortAndDram : Obligations.LoadPortAndDram := ⟨theLoadPort, theDramParks⟩
end Sys2Proof.Machine
end

section
/-! The stored lines: the words of a line as they are kept, the light code (R307 to R309), and what each write leaves of the other lines
(R313 to R317). -/
namespace Sys2Proof.Machine

/-! ### Consecutive words of a table -/

section
variable {β : Type} [DecidableEq β]

theorem tget_tputs_below (d : β) (l : List β) (t : Table β) {k j : Nat} (h : j < k) : tget d (tputs d t k l) j = tget d t j := by
  induction l generalizing t k with
  | nil => rfl
  | cons v r ih => exact (ih _ (Nat.lt_succ_of_lt h)).trans (tget_tput_other _ _ _ (Nat.ne_of_lt h))
theorem tget_tputs_above (d : β) (l : List β) (t : Table β) {k j : Nat} (h : k + l.length ≤ j) : tget d (tputs d t k l) j = tget d t j := by
  induction l generalizing t k with
  | nil => rfl
  | cons v r ih =>
    rw [List.length_cons] at h
    exact (ih _ (by omega)).trans (tget_tput_other _ _ _ (by omega))
theorem tget_tputs_inside (d : β) (l : List β) (t : Table β) {k i : Nat} (h : i < l.length) : tget d (tputs d t k l) (k + i) = l[i] := by
  induction l generalizing t k i with
  | nil => exact absurd h (Nat.not_lt_zero i)
  | cons v r ih =>
    match i with
    | 0 => exact (tget_tputs_below d r _ (Nat.lt_succ_self k)).trans (tget_tput_same ..)
    | i + 1 =>
      have hi := ih (tput d t k v) (k := k + 1) (i := i) (by simpa using h)
      rw [show k + (i + 1) = k + 1 + i by omega]
      exact hi
theorem tgets_tputs_same (d : β) (l : List β) (t : Table β) (k : Nat) : tgets d (tputs d t k l) k l.length = l := by
  refine List.ext_getElem (by simp [tgets]) fun i h1 h2 => ?_
  simp only [tgets, List.getElem_map, List.getElem_range]
  exact tget_tputs_inside d l t h2
theorem tgets_tputs_apart (d : β) (l : List β) (t : Table β) {k j n : Nat} (h : j + n ≤ k ∨ k + l.length ≤ j) : tgets d (tputs d t k l) j n = tgets d t j n := by
  refine List.map_congr_left fun i hi => ?_
  have hi : i < n := List.mem_range.mp hi
  rcases h with h | h
  · exact tget_tputs_below d l t (by omega)
  · exact tget_tputs_above d l t (by omega)
end

theorem length_wordsOf (n x : Nat) : (wordsOf n x).length = n := by
  induction n generalizing x with
  | zero => rfl
  | succ n ih => rw [wordsOf, List.length_cons, ih]
theorem ofWords_wordsOf (n x : Nat) : ofWords (wordsOf n x) = x % 2 ^ (16 * n) := by
  induction n generalizing x with
  | zero => rw [wordsOf, ofWords, Nat.mul_zero, Nat.pow_zero, Nat.mod_one]
  | succ n ih =>
    rw [wordsOf, ofWords, ih, BitVec.toNat_ofNat, Nat.shiftRight_eq_div_pow, show 16 * (n + 1) = 16 + 16 * n by omega, Nat.pow_add, Nat.mod_mul]

/-! ### The light code -/

theorem lightGo_xor (l : List Nat) (x c d : Nat) : lightGo l x (c ^^^ d) = lightGo l x c ^^^ d := by
  induction l generalizing x c with
  | nil => rfl
  | cons h r ih =>
    unfold lightGo
    split
    · rw [Nat.xor_right_comm, ih]
    · exact ih ..
/-- One wrong data bit changes the check byte by its column. -/
theorem lightGo_flip (l : List Nat) (x c i : Nat) (h : i < l.length) : lightGo l (x ^^^ 2 ^ i) c = lightGo l x c ^^^ l[i] := by
  induction l generalizing x c i with
  | nil => exact absurd h (Nat.not_lt_zero i)
  | cons a r ih =>
    match i with
    | 0 =>
      have hd : (x ^^^ 2 ^ 0) / 2 = x / 2 := by rw [Nat.xor_div_two]; simp
      have hm : (x ^^^ 2 ^ 0) % 2 = 1 ↔ ¬x % 2 = 1 := by rw [Nat.xor_mod_two_eq_one]; simp
      unfold lightGo
      rw [hd, ← lightGo_xor, List.getElem_cons_zero]
      by_cases hx : x % 2 = 1
      · rw [if_neg (hm.not.mpr (not_not_intro hx)), if_pos hx, Nat.xor_xor_cancel_right]
      · rw [if_pos (hm.mpr hx), if_neg hx]
    | i + 1 =>
      have hd : (x ^^^ 2 ^ (i + 1)) / 2 = x / 2 ^^^ 2 ^ i := by rw [Nat.xor_div_two, Nat.pow_succ, Nat.mul_div_cancel _ (by decide)]
      have hm : ((x ^^^ 2 ^ (i + 1)) % 2 = 1) = (x % 2 = 1) := by
        rw [Nat.xor_mod_two_eq_one, Nat.pow_succ, Nat.mul_mod_left]
        simp
      unfold lightGo
      rw [hd, ih _ _ _ (by simpa using h)]
      simp only [hm, List.getElem_cons_succ]
theorem lightGo_lt (l : List Nat) (hl : ∀ h ∈ l, h < 2 ^ 8) (x c : Nat) (hc : c < 2 ^ 8) : lightGo l x c < 2 ^ 8 := by
  induction l generalizing x c with
  | nil => exact hc
  | cons a r ih =>
    refine ih (fun h hm => hl h (List.mem_cons_of_mem _ hm)) _ _ ?_
    split
    · exact Nat.xor_lt_two_pow hc (hl a List.mem_cons_self)
    · exact hc
theorem lightCheck_lt (x : Nat) : lightCheck x < 2 ^ 8 := lightGo_lt _ (by decide) _ _ (by decide)
theorem lightCheck_flip (x i : Nat) (h : i < 64) : lightCheck (x ^^^ 2 ^ i) = lightCheck x ^^^ lightCols[i]'h := lightGo_flip lightCols x 0 i h

/-- A line that reads with a given syndrome. -/
theorem lightRead_eq {x c syn : Nat} (h : lightCheck x ^^^ c = syn) : lightRead x c =
    if syn = 0 then { data := x, st := 0, syn := syn }
    else if syn = 0x7F then { data := x, st := 2, syn := syn }
    else match lightPos syn with
      | some i => { data := x ^^^ 2 ^ i, st := 1, syn := syn }
      | none => { data := x, st := if popN 8 syn = 1 then 1 else 3, syn := syn } := by
  rw [← h]
  rfl
theorem lightRead_clean (x : Nat) : lightRead x (lightCheck x) = { data := x, st := 0, syn := 0 } := lightRead_eq (Nat.xor_self _)
theorem lightRead_poison (x : Nat) : lightRead x (lightCheck x ^^^ 0x7F) = { data := x, st := 2, syn := 0x7F } := by
  have hsyn : lightCheck x ^^^ (lightCheck x ^^^ 0x7F) = 0x7F := by rw [← Nat.xor_assoc, Nat.xor_self, Nat.zero_xor]
  exact lightRead_eq hsyn
/-- Each column is found at its own place, and none is 0 or the poison mark. -/
theorem lightPos_column : ∀ i (h : i < 64), lightPos (lightCols[i]'h) = some i ∧ lightCols[i]'h ≠ 0 ∧ lightCols[i]'h ≠ 0x7F := by decide
theorem lightPos_checkBit : ∀ i < 8, lightPos (2 ^ i) = none ∧ 2 ^ i ≠ 0 ∧ 2 ^ i ≠ 0x7F ∧ popN 8 (2 ^ i) = 1 := by decide
theorem lightRead_dataBit (x i : Nat) (h : i < 64) : lightRead (x ^^^ 2 ^ i) (lightCheck x) = { data := x, st := 1, syn := lightCols[i]'h } := by
  obtain ⟨hpos, h0, h7⟩ := lightPos_column i h
  have hsyn : lightCheck (x ^^^ 2 ^ i) ^^^ lightCheck x = lightCols[i]'h := by rw [lightCheck_flip x i h, Nat.xor_right_comm, Nat.xor_self, Nat.zero_xor]
  rw [lightRead_eq hsyn, if_neg h0, if_neg h7, hpos]
  simp only [Nat.xor_xor_cancel_right]
theorem lightRead_checkBit (x i : Nat) (h : i < 8) : lightRead x (lightCheck x ^^^ 2 ^ i) = { data := x, st := 1, syn := 2 ^ i } := by
  obtain ⟨hpos, h0, h7, hpop⟩ := lightPos_checkBit i h
  have hsyn : lightCheck x ^^^ (lightCheck x ^^^ 2 ^ i) = 2 ^ i := by rw [← Nat.xor_assoc, Nat.xor_self, Nat.zero_xor]
  rw [lightRead_eq hsyn, if_neg h0, if_neg h7, hpos, hpop]
  rfl

theorem theLightCodeCorrects : Clause.TheLightCodeCorrects := by
  intro x _
  refine ⟨by rw [lightRead_clean], by rw [lightRead_clean], by rw [lightRead_poison], fun i hi => ?_, fun i hi => ?_⟩
  · rw [lightRead_dataBit x i hi]
    exact ⟨rfl, rfl⟩
  · rw [lightRead_checkBit x i hi]
    exact ⟨rfl, rfl⟩

/-! ### What stays of the lines -/

variable {s t u : State} {lk : Nat}

/-- Outside a set of lines every line and its check byte stay. -/
structure LinesKept (p : Nat → Prop) (s t : State) : Prop where
  bits : ∀ l, ¬p l → lineBits t l = lineBits s l
  check : ∀ l, ¬p l → lineCheck t l = lineCheck s l

variable {p : Nat → Prop}

theorem LinesKept.refl (p : Nat → Prop) (s : State) : LinesKept p s s := ⟨fun _ _ => rfl, fun _ _ => rfl⟩
theorem LinesKept.trans (h : LinesKept p s t) (g : LinesKept p t u) : LinesKept p s u :=
  ⟨fun l hl => (g.bits l hl).trans (h.bits l hl), fun l hl => (g.check l hl).trans (h.check l hl)⟩
theorem LinesKept.mono {q : Nat → Prop} (h : LinesKept p s t) (hq : ∀ l, p l → q l) : LinesKept q s t :=
  ⟨fun l hl => h.bits l (fun hp => hl (hq l hp)), fun l hl => h.check l (fun hp => hl (hq l hp))⟩
theorem LinesKept.foldl {α : Type} (f : State → α → State) (xs : List α) (h : ∀ s, ∀ a ∈ xs, LinesKept p s (f s a)) (s : State) : LinesKept p s (xs.foldl f s) := by
  induction xs generalizing s with
  | nil => exact .refl p s
  | cons a r ih => exact (h s a List.mem_cons_self).trans (ih (fun s b hb => h s b (List.mem_cons_of_mem _ hb)) _)

/-- The stored bits and check bytes stay: whatever is counted, reported or merged. -/
structure KeepsStored (s t : State) : Prop where
  data : t.mem.data = s.mem.data
  check : t.mem.check = s.mem.check

theorem KeepsStored.refl (s : State) : KeepsStored s s := ⟨rfl, rfl⟩
theorem KeepsStored.trans (h : KeepsStored s t) (g : KeepsStored t u) : KeepsStored s u := ⟨g.data.trans h.data, g.check.trans h.check⟩
theorem KeepsStored.foldl {α : Type} (f : State → α → State) (h : ∀ s a, KeepsStored s (f s a)) (xs : List α) (s : State) : KeepsStored s (xs.foldl f s) := by
  induction xs generalizing s with
  | nil => exact .refl s
  | cons a r ih => exact (h s a).trans (ih _)
theorem KeepsStored.bits (h : KeepsStored s t) (l : Nat) : lineBits t l = lineBits s l := by unfold lineBits; rw [h.data]
theorem KeepsStored.checkByte (h : KeepsStored s t) (l : Nat) : lineCheck t l = lineCheck s l := by unfold lineCheck; rw [h.check]
theorem KeepsStored.lineGet (h : KeepsStored s t) (l : Nat) : lineGet t l = lineGet s l := by
  unfold Machine.lineGet
  rw [h.bits, h.checkByte]
theorem KeepsStored.lines (h : KeepsStored s t) (p : Nat → Prop) : LinesKept p s t := ⟨fun l _ => h.bits l, fun l _ => h.checkByte l⟩
theorem KeepsStored.of_mem (h : t.mem = s.mem) : KeepsStored s t := ⟨by rw [h], by rw [h]⟩
theorem keepsStored_setRegB (s : State) (a i : Nat) (b : Bool) : KeepsStored s (setRegB s a i b) := ⟨rfl, rfl⟩
theorem keepsStored_pulse (s : State) (n : Nat) : KeepsStored s (pulse s n) := .of_mem (sourceOnly_pulse ..).mem
theorem keepsStored_setMerge (s : State) (po : Nat) (l : List MergeEntry) : KeepsStored s (setMerge s po l) := ⟨rfl, rfl⟩
theorem keepsStored_mergeDrop (s : State) (po l : Nat) : KeepsStored s (mergeDrop s po l) := ⟨rfl, rfl⟩
theorem keepsStored_mergeClear (s : State) (l : Nat) : KeepsStored s (mergeClear s l) := ⟨rfl, rfl⟩
theorem keepsStored_setParity (s : State) (pk x : Nat) : KeepsStored s (setParity s pk x) := ⟨rfl, rfl⟩
theorem keepsStored_addParity (s : State) (pk x : Nat) : KeepsStored s (addParity s pk x) := ⟨rfl, rfl⟩

/-! ### An array write of a line -/

/-- The line's data and check byte as they are written. -/
def lineStored (s : State) (lk new c : Nat) : State :=
  { s with mem := { s.mem with data := tputs 0 s.mem.data (4 * lk) (wordsOf 4 new), check := tput 0 s.mem.check lk (BitVec.ofNat 8 c) } }
theorem lineBits_lineStored_same (s : State) (lk new c : Nat) : lineBits (lineStored s lk new c) lk = new % 2 ^ 64 := by
  have h := tgets_tputs_same (0 : Word) (wordsOf 4 new) s.mem.data (4 * lk)
  rw [length_wordsOf] at h
  exact (congrArg ofWords h).trans (ofWords_wordsOf 4 new)
theorem lineCheck_lineStored_same (s : State) (lk new c : Nat) : lineCheck (lineStored s lk new c) lk = c % 2 ^ 8 := by
  have h : tget 0 (tput 0 s.mem.check lk (BitVec.ofNat 8 c)) lk = BitVec.ofNat 8 c := tget_tput_same ..
  exact (congrArg BitVec.toNat h).trans (BitVec.toNat_ofNat ..)
theorem linesKept_lineStored (s : State) (lk new c : Nat) : LinesKept (· = lk) s (lineStored s lk new c) where
  bits l hl := by
    refine congrArg ofWords (tgets_tputs_apart (0 : Word) (wordsOf 4 new) s.mem.data ?_)
    rw [length_wordsOf]
    omega
  check l hl := congrArg BitVec.toNat (tget_tput_other _ _ _ hl)

/-- The check byte that a write stores. -/
def storedCheck (s : State) (lk new : Nat) (poison : Bool) : Nat :=
  lightCheck new ^^^ (if poison then 0x7F else 0) ^^^ (if injLine s = some lk then injMask (regF s (eccStat + 2) 1 2) else 0)
theorem rewriteLine_eq (s : State) (lk new : Nat) (poison : Bool) : rewriteLine s lk new poison =
    if injLine s = some lk then setRegB (lineStored s lk new (storedCheck s lk new poison)) (eccStat + 2) 0 false
    else lineStored s lk new (storedCheck s lk new poison) := rfl
theorem rewriteLine_stores (s : State) (lk new : Nat) (poison : Bool) : KeepsStored (lineStored s lk new (storedCheck s lk new poison)) (rewriteLine s lk new poison) := by
  rw [rewriteLine_eq]
  split
  · exact keepsStored_setRegB ..
  · exact .refl _
theorem rewriteLine_bits (s : State) (lk new : Nat) (poison : Bool) : lineBits (rewriteLine s lk new poison) lk = new % 2 ^ 64 :=
  ((rewriteLine_stores s lk new poison).bits lk).trans (lineBits_lineStored_same ..)
theorem linesKept_rewriteLine (s : State) (lk new : Nat) (poison : Bool) : LinesKept (· = lk) s (rewriteLine s lk new poison) :=
  (linesKept_lineStored ..).trans ((rewriteLine_stores s lk new poison).lines _)
/-- Without an injection armed for it a line reads as it was written. -/
theorem lineGet_rewriteLine (hinj : injLine s ≠ some lk) {new : Nat} (hnew : new < 2 ^ 64) :
    lineGet (rewriteLine s lk new false) lk = { data := new, st := 0, syn := 0 } := by
  have hs := rewriteLine_stores s lk new false
  have hc : storedCheck s lk new false = lightCheck new := by
    unfold storedCheck
    rw [if_neg hinj, if_neg Bool.false_ne_true, Nat.xor_zero, Nat.xor_zero]
  rw [hc] at hs
  rw [hs.lineGet]
  unfold lineGet
  rw [lineBits_lineStored_same, lineCheck_lineStored_same, Nat.mod_eq_of_lt hnew, Nat.mod_eq_of_lt (lightCheck_lt _), lightRead_clean]

theorem putLine_keeps (s : State) (lk old new : Nat) (poison : Bool) : KeepsStored (rewriteLine s lk new poison) (putLine s lk old new poison) := by
  unfold putLine
  dsimp only
  split
  · exact .refl _
  · exact keepsStored_addParity ..
theorem linesKept_putLine (s : State) (lk old new : Nat) (poison : Bool) : LinesKept (· = lk) s (putLine s lk old new poison) :=
  (linesKept_rewriteLine ..).trans ((putLine_keeps ..).lines _)

/-! ### Merge buffers -/

theorem mergeOf_setMerge (s : State) (po q : Nat) (l : List MergeEntry) : mergeOf (setMerge s po l) q = if q = po then l else mergeOf s q := tget_tput ..
theorem mergeOf_mergeDrop (s : State) (po lk q : Nat) : mergeOf (mergeDrop s po lk) q = if q = po then (mergeOf s po).filter (fun e => e.line ≠ lk) else mergeOf s q :=
  mergeOf_setMerge ..
theorem mergeOf_congr (h : t.mem.merge = s.mem.merge) (q : Nat) : mergeOf t q = mergeOf s q := by unfold mergeOf; rw [h]
theorem mergeFind_congr {l : Nat} (h : ∀ b, (mergeOf t (portKey (bankKeyOf (4 * l)) b)).find? (fun e => e.line = l) = (mergeOf s (portKey (bankKeyOf (4 * l)) b)).find? (fun e => e.line = l)) :
    mergeFind t l = mergeFind s l := by
  unfold mergeFind
  dsimp only
  rw [h false, h true]
theorem mergeFind_of_merge (h : t.mem.merge = s.mem.merge) (l : Nat) : mergeFind t l = mergeFind s l := mergeFind_congr fun b => by rw [mergeOf_congr h]
theorem find_filter_other {l : Nat} (h : l ≠ lk) (es : List MergeEntry) : (es.filter (fun e => e.line ≠ lk)).find? (fun e => e.line = l) = es.find? (fun e => e.line = l) := by
  rw [List.find?_filter]
  congr
  funext e
  by_cases he : e.line = l
  · simp [he, h]
  · simp [he]
theorem mergeFind_mergeDrop_other {l : Nat} (h : l ≠ lk) (s : State) (po : Nat) : mergeFind (mergeDrop s po lk) l = mergeFind s l := by
  refine mergeFind_congr fun b => ?_
  rw [mergeOf_mergeDrop]
  split
  next hq => rw [hq, find_filter_other h]
  · rfl
theorem mergeFind_mergeClear_other {l : Nat} (h : l ≠ lk) (s : State) : mergeFind (mergeClear s lk) l = mergeFind s l :=
  (mergeFind_mergeDrop_other h ..).trans (mergeFind_mergeDrop_other h ..)
theorem find_filter_none (es : List MergeEntry) : (es.filter (fun e => e.line ≠ lk)).find? (fun e => e.line = lk) = none := by
  rw [List.find?_eq_none]
  intro e he
  simpa using (List.mem_filter.mp he).2
theorem portKey_ne (bk : Nat) : portKey bk false ≠ portKey bk true := by unfold portKey b2n; simp
theorem mergeFind_mergeClear_same (s : State) (lk : Nat) : mergeFind (mergeClear s lk) lk = none := by
  have hf : mergeOf (mergeClear s lk) (portKey (bankKeyOf (4 * lk)) false) = (mergeOf s (portKey (bankKeyOf (4 * lk)) false)).filter (fun e => e.line ≠ lk) :=
    ((mergeOf_mergeDrop ..).trans (if_neg (portKey_ne _))).trans ((mergeOf_mergeDrop ..).trans (if_pos rfl))
  have ht : mergeOf (mergeClear s lk) (portKey (bankKeyOf (4 * lk)) true) =
      (mergeOf (mergeDrop s (portKey (bankKeyOf (4 * lk)) false) lk) (portKey (bankKeyOf (4 * lk)) true)).filter (fun e => e.line ≠ lk) :=
    (mergeOf_mergeDrop ..).trans (if_pos rfl)
  unfold mergeFind
  dsimp only
  rw [hf, ht, find_filter_none, find_filter_none]

theorem merge_rewriteLine (s : State) (lk new : Nat) (poison : Bool) : (rewriteLine s lk new poison).mem.merge = s.mem.merge := by
  rw [rewriteLine_eq]
  split
  · exact (congrArg Mem.merge (setRegB_fields (lineStored s lk new (storedCheck s lk new poison)) (eccStat + 2) 0 false).1 :)
  · rfl
theorem merge_putLine (s : State) (lk old new : Nat) (poison : Bool) : (putLine s lk old new poison).mem.merge = s.mem.merge := by
  unfold putLine
  dsimp only
  split
  · exact merge_rewriteLine ..
  · exact merge_rewriteLine ..

/-! ### A whole-line write -/

theorem reg_congr (h1 : t.regs = s.regs) (h2 : t.variant = s.variant) (a : Nat) : reg t a = reg s a := by unfold reg; rw [h1, h2]
theorem memPlace_congr (h2 : t.variant = s.variant) (h3 : t.carts = s.carts) (a : Nat) : memPlace t a = memPlace s a := by
  have hl (n : Nat) : logi t n = logi s n := by unfold logi; rw [h3]
  have hs (n : Nat) : slotOf t n = slotOf s n := slotOf_congr h2 (hl n)
  unfold memPlace
  simp only [h2, hs]
theorem injLine_congr (h1 : t.regs = s.regs) (h2 : t.variant = s.variant) (h3 : t.carts = s.carts) : injLine t = injLine s := by
  unfold injLine regB
  rw [reg_congr h1 h2, reg_congr h1 h2, memPlace_congr h2 h3]
theorem injLine_mergeClear (s : State) (l : Nat) : injLine (mergeClear s l) = injLine s := by
  obtain ⟨h1, h2, h3⟩ : (mergeClear s l).regs = s.regs ∧ (mergeClear s l).variant = s.variant ∧ (mergeClear s l).carts = s.carts := ⟨rfl, rfl, rfl⟩
  exact injLine_congr h1 h2 h3
theorem writeLine_clean (h : (lineGet s lk).st = 0) (new m : Nat) :
    writeLine s lk new m = { st := putLine (mergeClear s lk) lk (lineGet s lk).data new false, code := 0, data := 0 } := by
  unfold writeLine
  dsimp only
  rw [h]
  rfl
theorem bankAccess_line (s : State) (po lk data m : Nat) : bankAccess s po .store (4 * lk) 4 data m = writeLine s lk (data % 2 ^ 64) m := by
  have hk : 4 * lk / 4 = lk := Nat.mul_div_cancel_left lk (by decide)
  unfold bankAccess
  dsimp only
  rw [hk]
  rfl
/-- A line without an error and without an entry of a merge buffer. -/
theorem readLine_clean (h : (lineGet s lk).st = 0) (hm : mergeFind s lk = none) (need m : Nat) :
    readLine s lk need m = { st := s, code := 0, data := (lineGet s lk).data } := by
  unfold readLine
  dsimp only
  rw [hm, h]
  rfl

theorem aWholeLineWriteReadsBack : Clause.AWholeLineWriteReadsBack := by
  intro s po lk data m m' need hst hinj
  intro o
  have ho : o = { st := putLine (mergeClear s lk) lk (lineGet s lk).data (data % 2 ^ 64) false, code := 0, data := 0 } :=
    (bankAccess_line ..).trans (writeLine_clean hst ..)
  clear_value o
  subst ho
  have hlt : data % 2 ^ 64 < 2 ^ 64 := Nat.mod_lt _ (Nat.two_pow_pos 64)
  have hinj' : injLine (mergeClear s lk) ≠ some lk := by rwa [injLine_mergeClear]
  have hput := putLine_keeps (mergeClear s lk) lk (lineGet s lk).data (data % 2 ^ 64) false
  have hmerge := merge_putLine (mergeClear s lk) lk (lineGet s lk).data (data % 2 ^ 64) false
  have hkept := linesKept_putLine (mergeClear s lk) lk (lineGet s lk).data (data % 2 ^ 64) false
  dsimp only
  generalize putLine (mergeClear s lk) lk (lineGet s lk).data (data % 2 ^ 64) false = t at *
  have hget : lineGet t lk = { data := data % 2 ^ 64, st := 0, syn := 0 } := (hput.lineGet lk).trans (lineGet_rewriteLine hinj' hlt)
  have hfind : mergeFind t lk = none := (mergeFind_of_merge hmerge lk).trans (mergeFind_mergeClear_same s lk)
  refine ⟨rfl, ?_, by rw [hget], hfind, ?_, fun l hl => ⟨?_, ?_, ?_⟩⟩
  · exact ((hput.bits lk).trans (rewriteLine_bits ..)).trans (Nat.mod_eq_of_lt hlt)
  · rw [readLine_clean (by rw [hget]) hfind, hget]
  · exact (hkept.bits l hl).trans ((keepsStored_mergeClear ..).bits l)
  · exact (hkept.check l hl).trans ((keepsStored_mergeClear ..).checkByte l)
  · exact (mergeFind_of_merge hmerge l).trans (mergeFind_mergeClear_other hl s)

/-- Settles O35: the light code corrects one wrong bit, and a line written whole reads back. -/
theorem linesReadBack : Obligations.LinesReadBack := ⟨theLightCodeCorrects, aWholeLineWriteReadsBack⟩
end Sys2Proof.Machine
end

section
/-! A bank's port: which request it grants, and what one bank cycle does (R284). -/
namespace Sys2Proof.Machine

variable {s t : State} {po : Nat} {r : BankReq}

/-! ### The first of an order -/

/-- What lies before a list lies before or after any third list. -/
theorem lexLt_or (x y z : List Nat) (h : lexLt x z = true) : lexLt x y = true ∨ lexLt y z = true := by
  induction x generalizing y z with
  | nil =>
    match y, z with
    | [], _ => exact .inr h
    | _ :: _, _ => exact .inl rfl
  | cons a r ih =>
    match y, z with
    | _, [] => exact absurd h Bool.false_ne_true
    | [], _ :: _ => exact .inr rfl
    | b :: q, c :: w =>
      unfold lexLt at h ⊢
      rcases Nat.lt_trichotomy a b with hab | rfl | hab
      · exact .inl (if_pos hab)
      · rw [if_neg (Nat.lt_irrefl a), if_neg (Nat.lt_irrefl a)]
        split at h
        next hac => exact .inr (if_pos hac)
        next hac =>
          split at h
          · exact absurd h Bool.false_ne_true
          next hca =>
            rw [if_neg hac, if_neg hca]
            exact ih q w h
      · have hbc : b < c := by
          split at h
          next hac => omega
          next hac =>
            split at h
            · exact absurd h Bool.false_ne_true
            · omega
        exact .inr (if_pos hbc)
theorem lexLt_irrefl (x : List Nat) : lexLt x x = false := by
  induction x with
  | nil => rfl
  | cons a r ih => rw [lexLt, if_neg (Nat.lt_irrefl a), if_neg (Nat.lt_irrefl a), ih]
theorem lexLt_asymm {x y : List Nat} (h : lexLt x y = true) : lexLt y x = false := by
  by_contra hn
  induction x generalizing y with
  | nil =>
    match y with
    | [] => exact Bool.false_ne_true h
    | _ :: _ => exact hn rfl
  | cons a r ih =>
    match y with
    | [] => exact Bool.false_ne_true h
    | b :: q =>
      have hn := Bool.not_eq_false _ ▸ hn
      unfold lexLt at h hn
      rcases Nat.lt_trichotomy a b with hab | rfl | hab
      · rw [if_neg (Nat.lt_asymm hab), if_pos hab] at hn
        exact Bool.false_ne_true hn
      · rw [if_neg (Nat.lt_irrefl a), if_neg (Nat.lt_irrefl a)] at h hn
        exact ih h (by rw [hn]; decide)
      · rw [if_neg (Nat.lt_asymm hab), if_pos hab] at h
        exact Bool.false_ne_true h
theorem minBy_none {α : Type} {key : α → List Nat} {xs : List α} (h : minBy key xs = none) : xs = [] := by
  cases xs with
  | nil => rfl
  | cons a l =>
    unfold minBy at h
    split at h
    · exact absurd h (by simp)
    · split at h
      · exact absurd h (by simp)
      · exact absurd h (by simp)
/-- Nothing lies before the first. -/
theorem minBy_first {α : Type} (key : α → List Nat) (xs : List α) {a : α} (h : minBy key xs = some a) : ∀ q ∈ xs, lexLt (key q) (key a) = false := by
  induction xs generalizing a with
  | nil => exact fun q hq => absurd hq List.not_mem_nil
  | cons b l ih =>
    intro q hq
    unfold minBy at h
    split at h
    next hnone =>
      obtain rfl : b = a := Option.some.inj h
      rw [minBy_none hnone] at hq
      rw [List.mem_singleton.mp hq, lexLt_irrefl]
    next c hc =>
      have hl := ih hc
      split at h
      next hlt =>
        obtain rfl : c = a := Option.some.inj h
        rcases List.mem_cons.mp hq with rfl | hq
        · exact lexLt_asymm hlt
        · exact hl q hq
      next hge =>
        obtain rfl : b = a := Option.some.inj h
        rcases List.mem_cons.mp hq with rfl | hq
        · exact lexLt_irrefl _
        · by_contra hn
          rcases lexLt_or _ (key c) _ (Bool.not_eq_false _ ▸ hn) with h1 | h1
          · rw [hl q hq] at h1
            exact Bool.false_ne_true h1
          · exact hge h1

theorem thePortGrantsTheFirst : Clause.ThePortGrantsTheFirst := fun _ _ _ h => ⟨minBy_mem _ _ h, minBy_first _ _ h⟩

/-! ### One bank cycle -/

theorem route_congr (h2 : t.variant = s.variant) (h3 : t.carts = s.carts) (m a : Nat) : route t m a = route s m a := by
  unfold route
  rw [memPlace_congr h2 h3]
theorem regF_congr (h1 : t.regs = s.regs) (h2 : t.variant = s.variant) (a lo w : Nat) : regF t a lo w = regF s a lo w := by unfold regF; rw [reg_congr h1 h2]
theorem regB_congr (h1 : t.regs = s.regs) (h2 : t.variant = s.variant) (a i : Nat) : regB t a i = regB s a i := by unfold regB; rw [reg_congr h1 h2]
theorem epochOk_congr (h1 : t.regs = s.regs) (h2 : t.variant = s.variant) (m a n need : Nat) : epochOk t m a n need = epochOk s m a n need := by
  have hr := reg_congr h1 h2
  have hb := regB_congr h1 h2
  unfold epochOk regionCovers regionRights regF
  simp only [hr, hb]
theorem bankUp_congr (h1 : t.regs = s.regs) (h2 : t.variant = s.variant) (h3 : t.mem = s.mem) (kind inst off : Nat) : bankUp t kind inst off = bankUp s kind inst off := by
  unfold bankUp dramParked domOn domState
  rw [regF_congr h1 h2, regB_congr h1 h2, h3]

theorem portReqs_setReqs (s : State) (po : Nat) (l : List BankReq) : portReqs (setReqs s po l) po = l := tget_tput_same ..
theorem setReqs_fields (s : State) (po : Nat) (l : List BankReq) : (setReqs s po l).coaches = s.coaches ∧ (setReqs s po l).mem.data = s.mem.data ∧
    (setReqs s po l).mem.check = s.mem.check := ⟨rfl, rfl, rfl⟩
theorem refuseOthers_none (s : State) (po : Nat) : refuseOthers s po none = setReqs s po ((portReqs s po).map (fun q => { q with refusals := q.refusals + 1 })) := by
  exact congrArg (setReqs s po) (List.map_congr_left fun q _ => if_neg (by simp))
theorem portCycle_held (h : (s.mem.recon.any (fun r => r.bank = po / 2) || marchHolds s (po / 2)) = true) : portCycle s po = refuseOthers s po none := if_pos h
theorem portCycle_serves {a : Access} (h1 : (s.mem.recon.any (fun r => r.bank = po / 2) || marchHolds s (po / 2)) = false)
    (h2 : s.mem.writeBack.any (fun e => e.1 = po / 2) = false) (h3 : portPick s po = some r)
    (h4 : waiting (refuseOthers s po (portPick s po)) r.master r.ld = some a) : portCycle s po = serveAccess (refuseOthers s po (portPick s po)) po r a := by
  rw [h3] at h4 ⊢
  unfold portCycle
  dsimp only
  rw [h1, h2, if_neg Bool.false_ne_true, if_neg Bool.false_ne_true, h3]
  simp only [h4]

/-- The answer of a served request. -/
def portAnswered (x : State) (po : Nat) (r : BankReq) (ans : Answer) : State :=
  answerAccess (setReqs x po ((portReqs x po).filter (fun q => !(q.master = r.master && q.ld = r.ld)))) r.master r.ld ans
theorem serveAccess_bank {a : Access} {kind inst off : Nat} {own : Bool} (hr : route s r.master a.addr = .bank kind inst off own)
    (he : own = true ∨ epochOk s r.master a.addr a.n (needOf a.kind) = true) (hu : bankUp s kind inst off = true)
    {o : BankOut} (ho : bankAccess (noteRefused s r.master r.ld r.refusals) po a.kind (wordKey kind inst off) a.n a.data r.master = o) (h99 : o.code ≠ 99) :
    serveAccess s po r a = portAnswered o.st po r { err := o.code, data := o.data } := by
  have hn : (noteRefused s r.master r.ld r.refusals).regs = s.regs ∧ (noteRefused s r.master r.ld r.refusals).variant = s.variant ∧
      (noteRefused s r.master r.ld r.refusals).carts = s.carts ∧ (noteRefused s r.master r.ld r.refusals).mem = s.mem := ⟨rfl, rfl, rfl, rfl⟩
  obtain ⟨n1, n2, n3, n4⟩ := hn
  have hcond : ¬((!own && !epochOk s r.master a.addr a.n (needOf a.kind)) = true) := by
    rcases he with he | he
    · rw [he, Bool.not_true, Bool.false_and]; decide
    · rw [he, Bool.not_true, Bool.and_false]; decide
  unfold serveAccess
  dsimp only
  rw [route_congr n2 n3, hr]
  dsimp only
  rw [epochOk_congr n1 n2, if_neg hcond, bankUp_congr n1 n2 n4, hu, if_neg (by decide), ho, if_neg h99]
  rfl

/-- The accesses of a coach with one of them refused once more, and with its answer. -/
def refusedList (ld n : Nat) (l : List Access) : List Access := l.map (fun a => if a.ld = ld && a.resp.isNone then { a with refused := n } else a)
def answeredList (ld : Nat) (r : Answer) (l : List Access) : List Access := l.map (fun a => if a.ld = ld && a.resp.isNone then { a with resp := some r } else a)
theorem answeredList_refusedList (ld n : Nat) (r : Answer) (l : List Access) : answeredList ld r (refusedList ld n l) =
    l.map (fun x => if x.ld = ld && x.resp.isNone then { x with refused := n, resp := some r } else x) := by
  unfold answeredList refusedList
  rw [List.map_map]
  refine List.map_congr_left fun a _ => ?_
  by_cases h : (a.ld = ld && a.resp.isNone) = true
  · simp only [Function.comp, h, if_true]
  · simp only [Function.comp, h, Bool.false_eq_true, if_false]
theorem co_noteRefused (s : State) (m ld n d : Nat) : co (noteRefused s m ld n) d = if d = m then { co s m with access := refusedList ld n (co s m).access } else co s d := co_setCo ..
theorem co_answerAccess (s : State) (m ld : Nat) (r : Answer) (d : Nat) :
    co (answerAccess s m ld r) d = if d = m then { co s m with access := answeredList ld r (co s m).access } else co s d := co_setCo ..
theorem portAnswered_spec (x : State) (po : Nat) (r : BankReq) (ans : Answer) :
    (∀ d, co (portAnswered x po r ans) d = if d = r.master then { co x r.master with access := answeredList r.ld ans (co x r.master).access } else co x d) ∧
    (portAnswered x po r ans).mem.data = x.mem.data ∧ (portAnswered x po r ans).mem.check = x.mem.check ∧
    portReqs (portAnswered x po r ans) po = (portReqs x po).filter (fun q => !(q.master = r.master && q.ld = r.ld)) := by
  have hc : (setReqs x po ((portReqs x po).filter (fun q => !(q.master = r.master && q.ld = r.ld)))).coaches = x.coaches := (setReqs_fields ..).1
  have hco (d : Nat) : co (setReqs x po ((portReqs x po).filter (fun q => !(q.master = r.master && q.ld = r.ld)))) d = co x d := congrArg (tget Coach.reset · d) hc
  have hmem (y : State) (m ld : Nat) (a : Answer) : (answerAccess y m ld a).mem = y.mem := rfl
  have hreq (y z : State) (h : y.mem = z.mem) : portReqs y po = portReqs z po := by unfold portReqs; rw [h]
  unfold portAnswered
  refine ⟨fun d => ?_, ?_, ?_, ?_⟩
  · rw [co_answerAccess, hco, hco]
  · rw [hmem, (setReqs_fields ..).2.1]
  · rw [hmem, (setReqs_fields ..).2.2]
  · exact (hreq _ _ (hmem ..)).trans (portReqs_setReqs ..)

theorem co_refuseOthers (s : State) (po : Nat) (r : Option BankReq) (d : Nat) : co (refuseOthers s po r) d = co s d := congrArg (tget Coach.reset · d) (setReqs_fields ..).1

theorem oneBankCycle : Clause.OneBankCycle := by
  intro s p hp hb po u
  have hexec : exec (.bankArbitration p) s = .next (bankArbOp s p) := act_wf hp
  have hop : bankArbOp s p = portCycle s po := if_pos hb
  rw [hop] at hexec
  refine ⟨fun h => ?_, fun r a kind inst off own h1 h2 h3 h4 h5 h6 h7 => ?_⟩
  · rw [portCycle_held h, refuseOthers_none] at hexec
    obtain ⟨g1, g2, -⟩ := setReqs_fields s po ((portReqs s po).map (fun q => { q with refusals := q.refusals + 1 }))
    exact ⟨_, hexec, portReqs_setReqs .., g1, g2⟩
  · intro o h99
    rw [portCycle_serves h1 h2 h3 h4, serveAccess_bank h5 h6 h7 (rfl : _ = o) h99] at hexec
    obtain ⟨g1, g2, g3, g4⟩ := portAnswered_spec o.st po r { err := o.code, data := o.data }
    have ho (d : Nat) : co o.st d = co (noteRefused u r.master r.ld r.refusals) d := (sameOutside_bankAccess ..).co d
    have hu (d : Nat) : co u d = co s d := co_refuseOthers s po (portPick s po) d
    refine ⟨_, hexec, ?_, fun d hd => ?_, g2, g3, g4⟩
    · rw [g1, if_pos rfl, ho, co_noteRefused, if_pos rfl, hu]
      exact answeredList_refusedList ..
    · rw [g1, if_neg hd, ho, co_noteRefused, if_neg hd, hu]

/-- Settles O36: a port grants the request that comes first, and a bank cycle serves it and refuses the others. -/
theorem portsGrantInOrder : Obligations.PortsGrantInOrder := ⟨thePortGrantsTheFirst, oneBankCycle⟩
end Sys2Proof.Machine
end

section
/-! Corrected lines are written back, pages reconstructed and rows remapped (R320 to R322, R331, R332). -/
namespace Sys2Proof.Machine

variable {s t u : State} {lk : Nat}

/-! ### What reports, counts and array writes leave of the repairs -/

/-- The reconstructions that wait, the spare rows, the scrubbers and the march stay. -/
structure KeepsRows (s t : State) : Prop where
  recon : t.mem.recon = s.mem.recon
  spares : t.mem.spares = s.mem.spares
  spareBad : t.mem.spareBad = s.mem.spareBad
  rowMap : t.mem.rowMap = s.mem.rowMap
  pendFix : t.mem.pendFix = s.mem.pendFix
  spareSaid : t.mem.spareSaid = s.mem.spareSaid
  scrub : t.mem.scrub = s.mem.scrub
  march : t.mem.march = s.mem.march

theorem KeepsRows.refl (s : State) : KeepsRows s s := ⟨rfl, rfl, rfl, rfl, rfl, rfl, rfl, rfl⟩
theorem KeepsRows.trans (h : KeepsRows s t) (g : KeepsRows t u) : KeepsRows s u :=
  ⟨g.recon.trans h.recon, g.spares.trans h.spares, g.spareBad.trans h.spareBad, g.rowMap.trans h.rowMap, g.pendFix.trans h.pendFix, g.spareSaid.trans h.spareSaid,
    g.scrub.trans h.scrub, g.march.trans h.march⟩
theorem KeepsRows.foldl {α : Type} (f : State → α → State) (h : ∀ s a, KeepsRows s (f s a)) (xs : List α) (s : State) : KeepsRows s (xs.foldl f s) := by
  induction xs generalizing s with
  | nil => exact .refl s
  | cons a r ih => exact (h s a).trans (ih _)
theorem KeepsRows.of_mem (h : t.mem = s.mem) : KeepsRows s t := ⟨by rw [h], by rw [h], by rw [h], by rw [h], by rw [h], by rw [h], by rw [h], by rw [h]⟩
theorem KeepsStored.foldl_mem {α : Type} (f : State → α → State) (xs : List α) (h : ∀ s, ∀ a ∈ xs, KeepsStored s (f s a)) (s : State) : KeepsStored s (xs.foldl f s) := by
  induction xs generalizing s with
  | nil => exact .refl s
  | cons a r ih => exact (h s a List.mem_cons_self).trans (ih (fun s b hb => h s b (List.mem_cons_of_mem _ hb)) _)

theorem keepsRows_setRegB (s : State) (a i : Nat) (b : Bool) : KeepsRows s (setRegB s a i b) := .of_mem (setRegB_fields ..).1
/-- A report touches the counts of its class and the intake. -/
theorem errQueue_keeps (s : State) (r : ErrRec) : KeepsStored s (errQueue s r) ∧ KeepsRows s (errQueue s r) := by
  unfold errQueue
  split
  · exact ⟨⟨rfl, rfl⟩, ⟨rfl, rfl, rfl, rfl, rfl, rfl, rfl, rfl⟩⟩
  · exact ⟨.of_mem (setRegF_mem ..), .of_mem (setRegF_mem ..)⟩
theorem errReport_keeps (s : State) (cls kind inst master detail addr : Nat) :
    KeepsStored s (errReport s cls kind inst master detail addr) ∧ KeepsRows s (errReport s cls kind inst master detail addr) := by
  unfold errReport
  dsimp only
  obtain ⟨h1, h2⟩ := errQueue_keeps { s with mem := { s.mem with
    reports := tput 0 s.mem.reports cls (incSat 32 (tget 0 s.mem.reports cls)),
    passCounts := tput 0 s.mem.passCounts ((kind * 256 + inst) * 16 + cls) (tget 0 s.mem.passCounts ((kind * 256 + inst) * 16 + cls) + 1) } }
    { time := s.dtime / 10, cls := cls, kind := kind, inst := inst, master := master, detail := detail, addr := addr }
  exact ⟨⟨h1.data, h1.check⟩, ⟨h2.recon, h2.spares, h2.spareBad, h2.rowMap, h2.pendFix, h2.spareSaid, h2.scrub, h2.march⟩⟩
theorem lineReport_keeps (s : State) (cls lk master detail : Nat) : KeepsStored s (lineReport s cls lk master detail) ∧ KeepsRows s (lineReport s cls lk master detail) :=
  errReport_keeps ..
def withCorr (s : State) (l : List CorrEntry) : State := { s with mem := { s.mem with corr := l } }
theorem withCorr_keeps (s : State) (l : List CorrEntry) : KeepsStored s (withCorr s l) ∧ KeepsRows s (withCorr s l) :=
  ⟨⟨rfl, rfl⟩, ⟨rfl, rfl, rfl, rfl, rfl, rfl, rfl, rfl⟩⟩
theorem corrCount_keeps (s : State) (ik lk : Nat) : KeepsStored s (corrCount s ik lk) ∧ KeepsRows s (corrCount s ik lk) := by
  unfold corrCount
  dsimp only
  split
  · exact ⟨⟨rfl, rfl⟩, ⟨rfl, rfl, rfl, rfl, rfl, rfl, rfl, rfl⟩⟩
  · split
    · exact ⟨⟨rfl, rfl⟩, ⟨rfl, rfl, rfl, rfl, rfl, rfl, rfl, rfl⟩⟩
    · obtain ⟨h1, h2⟩ := withCorr_keeps s (corrVictim s.mem.corr ++ [{ line := lk, pass := (scrubOf s ik).pass, count := 1 }])
      exact ⟨h1.trans (keepsStored_setRegB ..), h2.trans (keepsRows_setRegB ..)⟩
theorem corrected_keeps (s : State) (lk master syn : Nat) (back : Bool) : KeepsStored s (corrected s lk master syn back) ∧ KeepsRows s (corrected s lk master syn back) := by
  obtain ⟨h1, h2⟩ := lineReport_keeps s 0 lk master syn
  obtain ⟨g1, g2⟩ := corrCount_keeps (lineReport s 0 lk master syn) (lk / 2 ^ 30) lk
  unfold corrected
  dsimp only
  generalize corrCount (lineReport s 0 lk master syn) (lk / 2 ^ 30) lk = x at g1 g2 ⊢
  split
  · exact ⟨(h1.trans g1).trans ⟨rfl, rfl⟩, (h2.trans g2).trans ⟨rfl, rfl, rfl, rfl, rfl, rfl, rfl, rfl⟩⟩
  · exact ⟨h1.trans g1, h2.trans g2⟩
theorem parCorrected_keeps (s : State) (pk q master syn : Nat) : KeepsStored s (parCorrected s pk q master syn) ∧ KeepsRows s (parCorrected s pk q master syn) :=
  ⟨(lineReport_keeps ..).1.trans (corrCount_keeps ..).1, (lineReport_keeps ..).2.trans (corrCount_keeps ..).2⟩
theorem keepsRows_lineStored (s : State) (lk new c : Nat) : KeepsRows s (lineStored s lk new c) := ⟨rfl, rfl, rfl, rfl, rfl, rfl, rfl, rfl⟩
theorem keepsRows_rewriteLine (s : State) (lk new : Nat) (poison : Bool) : KeepsRows s (rewriteLine s lk new poison) := by
  rw [rewriteLine_eq]
  split
  · exact (keepsRows_lineStored ..).trans (keepsRows_setRegB ..)
  · exact keepsRows_lineStored ..
theorem keepsRows_setParity (s : State) (pk x : Nat) : KeepsRows s (setParity s pk x) := ⟨rfl, rfl, rfl, rfl, rfl, rfl, rfl, rfl⟩

/-! ### The reconstruction of a page -/

/-- A page's reconstruction changes lines of that page alone. -/
structure PageWork (pk : Nat) (s t : State) : Prop where
  lines : LinesKept (· / 64 = pk) s t
  rows : KeepsRows s t

variable {pk : Nat}

theorem PageWork.refl (pk : Nat) (s : State) : PageWork pk s s := ⟨.refl _ s, .refl s⟩
theorem PageWork.trans (h : PageWork pk s t) (g : PageWork pk t u) : PageWork pk s u := ⟨h.lines.trans g.lines, h.rows.trans g.rows⟩
theorem PageWork.foldl {α : Type} (f : State → α → State) (xs : List α) (h : ∀ s, ∀ a ∈ xs, PageWork pk s (f s a)) (s : State) : PageWork pk s (xs.foldl f s) := by
  induction xs generalizing s with
  | nil => exact .refl pk s
  | cons a r ih => exact (h s a List.mem_cons_self).trans (ih (fun s b hb => h s b (List.mem_cons_of_mem _ hb)) _)
theorem PageWork.of_keeps (h : KeepsStored s t ∧ KeepsRows s t) : PageWork pk s t := ⟨h.1.lines _, h.2⟩
theorem pageWork_setParity (s : State) (x : Nat) : PageWork pk s (setParity s pk x) := .of_keeps ⟨keepsStored_setParity .., keepsRows_setParity ..⟩
/-- A line of the page is rewritten. -/
theorem pageWork_rewriteLine {n : Nat} (hn : n < 64) (s : State) (new : Nat) (poison : Bool) : PageWork pk s (rewriteLine s (pk * 64 + n) new poison) where
  lines := (linesKept_rewriteLine ..).mono fun l hl => by omega
  rows := keepsRows_rewriteLine ..
theorem mem_upto {n k : Nat} (h : n ∈ upto k) : n < k := List.mem_range.mp h

theorem pageWork_correctSingles (s : State) (master : Nat) : PageWork pk s (correctSingles s pk master) := by
  unfold correctSingles
  refine (PageWork.foldl _ _ (fun t n _ => ?_) s).trans (PageWork.foldl _ _ (fun t q _ => ?_) _)
  · dsimp only
    split
    · exact .of_keeps (corrected_keeps ..)
    · exact .refl pk t
  · split
    · split
      · exact .of_keeps (parCorrected_keeps ..)
      · exact .refl pk t
    · exact .refl pk t
theorem pageWork_putDecoded (s : State) (cs : List (List Nat)) (ls : List LineRead) {ch : List Nat} (hch : ∀ n ∈ ch, n < 64) :
    PageWork pk s (putDecoded s pk cs ls ch) := .foldl _ _ (fun t n hn => pageWork_rewriteLine (hch n hn) ..) s
theorem pageWork_poisonLost (s : State) (ls : List LineRead) : PageWork pk s (poisonLost s pk ls) := by
  refine .foldl _ _ (fun t n hn => ?_) s
  split
  · unfold poisonLine
    split
    · exact pageWork_rewriteLine (mem_upto hn) ..
    · split
      · exact pageWork_rewriteLine (mem_upto hn) ..
      · exact .refl pk t
  · exact .refl pk t
theorem pageWork_reconPage (s : State) (pk master : Nat) : PageWork pk s (reconPage s pk master).1 := by
  unfold reconPage
  extract_lets x dec ls cs ch mask bad lost par
  have h0 : PageWork pk s x := pageWork_correctSingles ..
  have hch : ∀ n ∈ ch, n < 64 := fun n hn => mem_upto (List.mem_filter.mp hn).1
  have hp : PageWork pk x par := (pageWork_poisonLost x ls).trans (pageWork_setParity ..)
  clear_value par mask bad lost ch cs ls dec x
  split
  · exact ((h0.trans (pageWork_putDecoded x cs ls hch)).trans (pageWork_setParity ..)).trans (.of_keeps (lineReport_keeps ..))
  · exact (h0.trans hp).trans (.foldl _ _ (fun t n _ => .of_keeps (lineReport_keeps ..)) _)

/-! ### CORRECTION_WRITE_BACK and PAGE_RECONSTRUCTION -/

theorem ofWords_lt (l : List Word) : ofWords l < 2 ^ (16 * l.length) := by
  induction l with
  | nil => exact Nat.one_pos
  | cons w r ih =>
    have hw : w.toNat < 2 ^ 16 := w.isLt
    rw [ofWords, List.length_cons, show 16 * (r.length + 1) = 16 + 16 * r.length by omega, Nat.pow_add]
    calc w.toNat + 65536 * ofWords r < 2 ^ 16 + 65536 * ofWords r := by omega
      _ = 2 ^ 16 * (ofWords r + 1) := by omega
      _ ≤ 2 ^ 16 * 2 ^ (16 * r.length) := Nat.mul_le_mul_left _ ih
theorem lineBits_lt (s : State) (lk : Nat) : lineBits s lk < 2 ^ 64 := by
  have h := ofWords_lt (tgets 0 s.mem.data (4 * lk) 4)
  rwa [show (tgets 0 s.mem.data (4 * lk) 4).length = 4 by simp [tgets]] at h
theorem lightPos_lt {x i : Nat} (h : lightPos x = some i) : i < 64 := (List.findIdx?_eq_some_iff_findIdx_eq.mp h).1
theorem lightRead_data_lt {x : Nat} (hx : x < 2 ^ 64) (c : Nat) : (lightRead x c).data < 2 ^ 64 := by
  unfold lightRead
  dsimp only
  split
  · exact hx
  · split
    · exact hx
    · split
      next i hi => exact Nat.xor_lt_two_pow hx (Nat.pow_lt_pow_right (by decide) (lightPos_lt hi))
      · exact hx
theorem lineGet_data_lt (s : State) (lk : Nat) : (lineGet s lk).data < 2 ^ 64 := lightRead_data_lt (lineBits_lt s lk) _

/-- A corrected line leaves the list of those that wait. -/
def takenBack (s : State) (e : Nat × Nat) : State := { s with mem := { s.mem with writeBack := s.mem.writeBack.filter (fun x => !(x = e)) } }
theorem takenBack_fields (s : State) (e : Nat × Nat) : (takenBack s e).mem.data = s.mem.data ∧ (takenBack s e).mem.check = s.mem.check ∧
    (takenBack s e).mem.parity = s.mem.parity ∧ (takenBack s e).mem.writeBack = s.mem.writeBack.filter (fun x => !(x = e)) ∧ (takenBack s e).coaches = s.coaches ∧
    (takenBack s e).regs = s.regs ∧ (takenBack s e).variant = s.variant ∧ (takenBack s e).carts = s.carts := ⟨rfl, rfl, rfl, rfl, rfl, rfl, rfl, rfl⟩
theorem writeBackOne_corrects {bk : Nat} {e : Nat × Nat} (he : s.mem.writeBack.find? (fun e => e.1 = bk) = some e) (h1 : (lineGet s e.2).st = 1) :
    writeBackOne s bk = rewriteLine (takenBack s e) e.2 (lineGet s e.2).data false := by
  unfold writeBackOne
  rw [he]
  exact if_pos h1
theorem rewriteLine_fields (s : State) (lk new : Nat) (poison : Bool) : (rewriteLine s lk new poison).mem.parity = s.mem.parity ∧
    (rewriteLine s lk new poison).mem.writeBack = s.mem.writeBack ∧ (rewriteLine s lk new poison).coaches = s.coaches := by
  have hl (c : Nat) : (lineStored s lk new c).mem.parity = s.mem.parity ∧ (lineStored s lk new c).mem.writeBack = s.mem.writeBack ∧
      (lineStored s lk new c).coaches = s.coaches := ⟨rfl, rfl, rfl⟩
  rw [rewriteLine_eq]
  split
  · have hm := setRegB_fields (lineStored s lk new (storedCheck s lk new poison)) (eccStat + 2) 0 false
    rw [hm.1, hm.2]
    exact hl _
  · exact hl _
theorem refuseOthers_fields (s : State) (po : Nat) (r : Option BankReq) : KeepsStored s (refuseOthers s po r) ∧ (refuseOthers s po r).mem.parity = s.mem.parity ∧
    (refuseOthers s po r).mem.writeBack = s.mem.writeBack ∧ (refuseOthers s po r).coaches = s.coaches := ⟨⟨rfl, rfl⟩, rfl, rfl, rfl⟩

/-- Every port of the bank is refused the cycle. -/
def bankRefused (s : State) (bk : Nat) : State :=
  if dualBank bk then refuseOthers (refuseOthers s (portKey bk false) none) (portKey bk true) none else refuseOthers s (portKey bk false) none
theorem bankRefused_fields (s : State) (bk : Nat) : KeepsStored s (bankRefused s bk) ∧ (bankRefused s bk).mem.parity = s.mem.parity ∧
    (bankRefused s bk).mem.writeBack = s.mem.writeBack ∧ (bankRefused s bk).coaches = s.coaches := by
  obtain ⟨h1, h2, h3, h4⟩ := refuseOthers_fields s (portKey bk false) none
  unfold bankRefused
  split
  · obtain ⟨g1, g2, g3, g4⟩ := refuseOthers_fields (refuseOthers s (portKey bk false) none) (portKey bk true) none
    exact ⟨h1.trans g1, g2.trans h2, g3.trans h3, g4.trans h4⟩
  · exact ⟨h1, h2, h3, h4⟩
theorem correctionOp_eq {kind inst bank : Nat} (h : s.mem.writeBack.any (fun e => e.1 = bankKey kind inst bank) = true) :
    correctionOp s kind inst bank = bankRefused (writeBackOne s (bankKey kind inst bank)) (bankKey kind inst bank) := by
  unfold correctionOp
  dsimp only
  rw [h]
  exact if_neg (by decide)
theorem any_of_find {α : Type} {p : α → Bool} {l : List α} {a : α} (h : l.find? p = some a) : l.any p = true :=
  List.any_eq_true.mpr ⟨a, List.mem_of_find?_eq_some h, List.find?_some h⟩

/-- The reconstruction that waits is taken from its list. -/
def reconTaken (s : State) (r : Recon) : State := { s with mem := { s.mem with recon := s.mem.recon.filter (fun x => !(x = r)) } }
theorem reconTaken_keeps (s : State) (r : Recon) : KeepsStored s (reconTaken s r) ∧ (reconTaken s r).mem.recon = s.mem.recon.filter (fun x => !(x = r)) ∧
    (reconTaken s r).coaches = s.coaches ∧ (reconTaken s r).carts = s.carts := ⟨⟨rfl, rfl⟩, rfl, rfl, rfl⟩
theorem reconAnswer_none (x : State) (ok : Bool) (bk : Nat) {r : Recon} (hq : r.req = none) : reconAnswer x ok bk r = x := by
  unfold reconAnswer
  rw [hq]
theorem reconNext_eq {bk : Nat} {r : Recon} (h : s.mem.recon.find? (fun r => r.bank = bk) = some r) (hq : r.req = none) :
    ∃ m, reconNext s bk = (reconPage (reconTaken s r) r.page m).1 := by
  unfold reconNext
  rw [h]
  exact ⟨_, reconAnswer_none _ _ _ hq⟩
theorem sameOutside_carts (h : SameOutside s t) : t.carts = s.carts := by
  have hr := h.served.rest
  rw [hr]
theorem cimReload_none (h : s.carts.table = none) (c pk : Nat) : cimReload s c pk = s := by
  unfold cimReload
  rw [h]
  cases logicalOf s c <;> rfl
theorem pageReconOp_eq {kind inst bank : Nat} {r : Recon} (h : s.mem.recon.find? (fun r => r.bank = bankKey kind inst bank) = some r) :
    pageReconOp s kind inst bank = if kind = 1 then cimReload (reconNext s (bankKey kind inst bank)) inst r.page else reconNext s (bankKey kind inst bank) := by
  unfold pageReconOp
  dsimp only
  rw [h]
  rfl

theorem correctionsAreWrittenBack : Clause.CorrectionsAreWrittenBack := by
  intro s kind inst bank hi hb bk
  have hwf : (instOk kind inst && decide (bank < 256)) = true := by rw [hi, decide_eq_true hb]; rfl
  refine ⟨fun e he h1 hinj => ?_, fun r hr hq hk => ?_⟩
  · have hexec : exec (.correctionWriteBack kind inst bank) s = .next (correctionOp s kind inst bank) := act_wf hwf
    have hlt := lineGet_data_lt s e.2
    rw [correctionOp_eq (any_of_find he), writeBackOne_corrects he h1] at hexec
    obtain ⟨t1, t2, t3, t4, t5, t6, t7, t8⟩ := takenBack_fields s e
    have hinj' : injLine (takenBack s e) ≠ some e.2 := by rwa [injLine_congr t6 t7 t8]
    have hbits := rewriteLine_bits (takenBack s e) e.2 (lineGet s e.2).data false
    have hget := lineGet_rewriteLine hinj' hlt
    have hkept := linesKept_rewriteLine (takenBack s e) e.2 (lineGet s e.2).data false
    obtain ⟨f1, f2, f3⟩ := rewriteLine_fields (takenBack s e) e.2 (lineGet s e.2).data false
    have htaken : KeepsStored s (takenBack s e) := ⟨t1, t2⟩
    obtain ⟨g1, g2, g3, g4⟩ := bankRefused_fields (rewriteLine (takenBack s e) e.2 (lineGet s e.2).data false) (bankKey kind inst bank)
    refine ⟨_, hexec, (g1.bits e.2).trans hbits, by rw [g1.lineGet, hget], g3.trans (f2.trans t4), g2.trans (f1.trans t3), g4.trans (f3.trans t5), fun l hl => ⟨?_, ?_⟩⟩
    · exact ((g1.bits l).trans (hkept.bits l hl)).trans (htaken.bits l)
    · exact ((g1.checkByte l).trans (hkept.check l hl)).trans (htaken.checkByte l)
  · have hexec : exec (.pageReconstruction kind inst bank) s = .next (pageReconOp s kind inst bank) := act_wf hwf
    obtain ⟨h1, h2, h3, h4⟩ := reconTaken_keeps s r
    obtain ⟨m, hm⟩ := reconNext_eq hr hq
    have hp := pageWork_reconPage (reconTaken s r) r.page m
    have hout : SameOutside (reconTaken s r) (reconPage (reconTaken s r) r.page m).1 := sameOutside_reconPage ..
    have hop : pageReconOp s kind inst bank = (reconPage (reconTaken s r) r.page m).1 := by
      rw [pageReconOp_eq hr, hm]
      split
      next hk1 => exact cimReload_none (by rw [sameOutside_carts hout, h4]; exact hk.resolve_left (not_not_intro hk1)) ..
      · rfl
    rw [hop] at hexec
    refine ⟨_, hexec, hp.rows.recon.trans h2, hout.coaches.trans h3, fun l hl => ⟨?_, ?_⟩⟩
    · exact (hp.lines.bits l hl).trans (h1.bits l)
    · exact (hp.lines.check l hl).trans (h1.checkByte l)

/-! ### REMAP -/

/-- Lines that need no correction stay as they are. -/
structure SoundKept (s t : State) : Prop where
  sound : ∀ l, (lineGet s l).st ≠ 1 → lineGet t l = lineGet s l ∧ lineBits t l = lineBits s l
  rows : KeepsRows s t

theorem SoundKept.refl (s : State) : SoundKept s s := ⟨fun _ _ => ⟨rfl, rfl⟩, .refl s⟩
theorem SoundKept.trans (h : SoundKept s t) (g : SoundKept t u) : SoundKept s u where
  sound l hl := by
    obtain ⟨h1, h2⟩ := h.sound l hl
    obtain ⟨g1, g2⟩ := g.sound l (by rwa [h1])
    exact ⟨g1.trans h1, g2.trans h2⟩
  rows := h.rows.trans g.rows
theorem SoundKept.of_keeps (h : KeepsStored s t ∧ KeepsRows s t) : SoundKept s t := ⟨fun l _ => ⟨h.1.lineGet l, h.1.bits l⟩, h.2⟩
theorem soundKept_correct (s : State) (lk : Nat) : SoundKept s (let r := lineGet s lk; if r.st = 1 then rewriteLine s lk r.data false else s) := by
  dsimp only
  split
  next h1 =>
    have hk := linesKept_rewriteLine s lk (lineGet s lk).data false
    refine ⟨fun l hl => ?_, keepsRows_rewriteLine ..⟩
    have hne : l ≠ lk := fun h => hl (h ▸ h1)
    exact ⟨congrArg₂ lightRead (hk.bits l hne) (hk.check l hne), hk.bits l hne⟩
  · exact .refl s
theorem SoundKept.foldl {α : Type} (f : State → α → State) (h : ∀ s a, SoundKept s (f s a)) (xs : List α) (s : State) : SoundKept s (xs.foldl f s) := by
  induction xs generalizing s with
  | nil => exact .refl s
  | cons a r ih => exact (h s a).trans (ih _)

/-- The lines of a row, corrected. -/
def rowCopied (s : State) (kind inst bank row : Nat) : State :=
  (rowLines kind inst bank row).foldl (fun t lk => let r := lineGet t lk; if r.st = 1 then rewriteLine t lk r.data false else t) s
theorem soundKept_rowCopied (s : State) (kind inst bank row : Nat) : SoundKept s (rowCopied s kind inst bank row) := .foldl _ soundKept_correct _ _
/-- The row has its spare. -/
def rowMoved (s : State) (bk row n : Nat) : State :=
  { s with mem := { s.mem with rowMap := tput 0 s.mem.rowMap (rowKey bk row) (n + 1), spares := tput 0 s.mem.spares bk (n + 1) } }
theorem rowMoved_fields (s : State) (bk row n : Nat) : KeepsStored s (rowMoved s bk row n) ∧ tget 0 (rowMoved s bk row n).mem.rowMap (rowKey bk row) = n + 1 ∧
    tget 0 (rowMoved s bk row n).mem.spares bk = n + 1 ∧ (rowMoved s bk row n).mem.pendFix = s.mem.pendFix := by
  have h1 : tget 0 (tput 0 s.mem.rowMap (rowKey bk row) (n + 1)) (rowKey bk row) = n + 1 := tget_tput_same ..
  have h2 : tget 0 (tput 0 s.mem.spares bk (n + 1)) bk = n + 1 := tget_tput_same ..
  exact ⟨⟨rfl, rfl⟩, h1, h2, rfl⟩
/-- It is recommended for fusing where there is room. -/
def recommended (s : State) (x : Nat) : State :=
  if s.mem.pendFix.length < 64 then { s with mem := { s.mem with pendFix := s.mem.pendFix ++ [x], pendDirty := true } } else s
theorem recommended_fields (s : State) (x : Nat) : KeepsStored s (recommended s x) ∧ (recommended s x).mem.rowMap = s.mem.rowMap ∧
    (recommended s x).mem.spares = s.mem.spares ∧ (recommended s x).mem.march = s.mem.march ∧
    (s.mem.pendFix.length < 64 → (recommended s x).mem.pendFix = s.mem.pendFix ++ [x] ∧ (recommended s x).mem.pendDirty = true) := by
  unfold recommended
  split
  · exact ⟨⟨rfl, rfl⟩, rfl, rfl, rfl, fun _ => ⟨rfl, rfl⟩⟩
  next h => exact ⟨.refl s, rfl, rfl, rfl, fun h' => absurd h' h⟩
theorem remapRow_some {kind inst bank row n : Nat} (h : nextSpare s kind (bankKey kind inst bank) = some n) : ∃ addr, remapRow s kind inst bank row =
    recommended (errReport (rowMoved (rowCopied s kind inst bank row) (bankKey kind inst bank) row n) 7 kind inst 0xFF (n % 256) addr) (rowEntry kind inst bank row n) := by
  refine ⟨placeAddr s kind inst (bankOff kind bank (row * rowWords kind)), ?_⟩
  unfold remapRow
  dsimp only
  rw [h]
  rfl
theorem remapRow_spec {kind inst bank row n : Nat} (h : nextSpare s kind (bankKey kind inst bank) = some n) : let t := remapRow s kind inst bank row
    tget 0 t.mem.spares (bankKey kind inst bank) = n + 1 ∧ tget 0 t.mem.rowMap (rowKey (bankKey kind inst bank) row) = n + 1 ∧
    (s.mem.pendFix.length < 64 → t.mem.pendFix = s.mem.pendFix ++ [rowEntry kind inst bank row n] ∧ t.mem.pendDirty = true) ∧
    ∀ l, (lineGet s l).st ≠ 1 → lineBits t l = lineBits s l := by
  intro t
  obtain ⟨addr, ht⟩ := remapRow_some (row := row) h
  have hc := soundKept_rowCopied s kind inst bank row
  obtain ⟨m1, m2, m3, m4⟩ := rowMoved_fields (rowCopied s kind inst bank row) (bankKey kind inst bank) row n
  obtain ⟨e1, e2⟩ := errReport_keeps (rowMoved (rowCopied s kind inst bank row) (bankKey kind inst bank) row n) 7 kind inst 0xFF (n % 256) addr
  obtain ⟨r1, r2, r3, -, r4⟩ := recommended_fields (errReport (rowMoved (rowCopied s kind inst bank row) (bankKey kind inst bank) row n) 7 kind inst 0xFF (n % 256) addr)
    (rowEntry kind inst bank row n)
  rw [← ht] at r1 r2 r3 r4
  rw [e2.pendFix, m4, hc.rows.pendFix] at r4
  refine ⟨?_, ?_, r4, fun l hl => ?_⟩
  · rw [r3, e2.spares, m3]
  · rw [r2, e2.rowMap, m2]
  · exact ((r1.bits l).trans (e1.bits l)).trans ((m1.bits l).trans (hc.sound l hl).2)
/-- With no spare left the row is reported once. -/
theorem remapRow_none {kind inst bank row : Nat} (h : nextSpare s kind (bankKey kind inst bank) = none) : let t := remapRow s kind inst bank row
    t.mem.spares = s.mem.spares ∧ t.mem.rowMap = s.mem.rowMap ∧ t.mem.data = s.mem.data ∧ t.mem.check = s.mem.check ∧
    tget 0 t.mem.spareSaid (rowKey (bankKey kind inst bank) row) = 1 := by
  intro t
  have ht : t = if tget 0 s.mem.spareSaid (rowKey (bankKey kind inst bank) row) = 1 then s
      else errReport { s with mem := { s.mem with spareSaid := tput 0 s.mem.spareSaid (rowKey (bankKey kind inst bank) row) 1 } } 8 kind inst 0xFF 0
        (placeAddr s kind inst (bankOff kind bank (row * rowWords kind))) := by
    unfold t remapRow
    dsimp only
    rw [h]
  rw [ht]
  split
  next h1 => exact ⟨rfl, rfl, rfl, rfl, h1⟩
  · obtain ⟨e1, e2⟩ := errReport_keeps { s with mem := { s.mem with spareSaid := tput 0 s.mem.spareSaid (rowKey (bankKey kind inst bank) row) 1 } } 8 kind inst 0xFF 0
      (placeAddr s kind inst (bankOff kind bank (row * rowWords kind)))
    have hs : tget 0 (tput 0 s.mem.spareSaid (rowKey (bankKey kind inst bank) row) 1) (rowKey (bankKey kind inst bank) row) = 1 := tget_tput_same ..
    refine ⟨e2.spares, e2.rowMap, e1.data, e1.check, ?_⟩
    rw [e2.spareSaid]
    exact hs

/-- The line's count starts again. -/
def countCleared (s : State) (lk : Nat) : State := { s with mem := { s.mem with corr := s.mem.corr.filter (fun e => e.line ≠ lk) } }
theorem countCleared_fields (s : State) (lk : Nat) : (countCleared s lk).mem.data = s.mem.data ∧ (countCleared s lk).mem.spares = s.mem.spares ∧
    (countCleared s lk).mem.rowMap = s.mem.rowMap ∧ (countCleared s lk).mem.pendFix = s.mem.pendFix ∧ (countCleared s lk).mem.pendDirty = s.mem.pendDirty ∧
    (countCleared s lk).mem.spareSaid = s.mem.spareSaid ∧ (countCleared s lk).mem.corr.any (fun e => e.line = lk) = false := by
  refine ⟨rfl, rfl, rfl, rfl, rfl, rfl, List.any_eq_false.mpr fun e he => ?_⟩
  simpa using (List.mem_filter.mp he).2

theorem rowsAreRemapped : Clause.RowsAreRemapped := by
  intro s kind inst line hi lk bk row hcorr
  have hexec : exec (.remap kind inst line) s = .next (remapOp s kind inst line) := act_wf hi
  have hop : remapOp s kind inst line = countCleared (remapRow s kind inst (bankKeyOf (4 * lk) % 256) row) lk := if_pos hcorr
  rw [hop] at hexec
  obtain ⟨c1, c2, c3, c4, c5, c6, c7⟩ := countCleared_fields (remapRow s kind inst (bankKeyOf (4 * lk) % 256) row) lk
  refine ⟨fun n hn => ?_, fun hn => ?_⟩
  · obtain ⟨h1, h2, h3, h4⟩ := remapRow_spec (row := row) hn
    refine ⟨_, hexec, by rw [c2, h1], by rw [c3, h2], c7, fun hroom => ?_, fun l hl => ?_⟩
    · rw [c4, c5]
      exact h3 hroom
    · refine Eq.trans ?_ (h4 l hl)
      unfold lineBits
      rw [c1]
  · obtain ⟨h1, h2, h3, -, h4⟩ := remapRow_none (row := row) hn
    exact ⟨_, hexec, c2.trans h1, c3.trans h2, c1.trans h3, by rw [c6, h4]⟩

/-- Settles O38: corrected lines are written back, pages reconstructed, and rows remapped. -/
theorem correctionsAndRows : Obligations.CorrectionsAndRows := ⟨correctionsAreWrittenBack, rowsAreRemapped⟩
end Sys2Proof.Machine
end

section
/-! The scrubber walks its pages and the march engine its banks (R327 to R330, R336 to R338). -/
namespace Sys2Proof.Machine

variable {s t u : State} {kind inst : Nat}

/-! ### The scrubber -/

theorem scrubOf_setScrub (s : State) (kind inst : Nat) (b : Scrub) : scrubOf (setScrub s kind inst b) (instKey kind inst) = b := tget_tput_same ..
theorem scrubOf_congr (h : t.mem.scrub = s.mem.scrub) (ik : Nat) : scrubOf t ik = scrubOf s ik := by unfold scrubOf; rw [h]
theorem setScrub_fields (s : State) (kind inst : Nat) (b : Scrub) : (setScrub s kind inst b).regs = s.regs ∧ (setScrub s kind inst b).variant = s.variant ∧
    (setScrub s kind inst b).carts = s.carts ∧ (setScrub s kind inst b).mem.data = s.mem.data ∧ (setScrub s kind inst b).coaches = s.coaches ∧
    (setScrub s kind inst b).mem.parking = s.mem.parking ∧ (setScrub s kind inst b).mem.check = s.mem.check := ⟨rfl, rfl, rfl, rfl, rfl, rfl, rfl⟩
theorem bankUp_parking (h1 : t.regs = s.regs) (h2 : t.variant = s.variant) (h3 : t.mem.parking = s.mem.parking) (kind inst off : Nat) :
    bankUp t kind inst off = bankUp s kind inst off := by
  unfold bankUp dramParked domOn domState
  rw [regF_congr h1 h2, regB_congr h1 h2, h3]
theorem scrubbable_congr (h1 : t.regs = s.regs) (h2 : t.variant = s.variant) (h3 : t.carts = s.carts) (h4 : t.mem.parking = s.mem.parking) (kind inst p : Nat) :
    scrubbable t kind inst p = scrubbable s kind inst p := by
  have hp : scrubPage t kind inst p = scrubPage s kind inst p := by unfold scrubPage; rw [h2]
  have hs : slotSt t inst = slotSt s inst := by unfold slotSt; rw [h2, h3]
  unfold scrubbable
  dsimp only
  rw [hp, hs, bankUp_parking h1 h2 h4]
theorem scrubFrom_congr (h1 : t.regs = s.regs) (h2 : t.variant = s.variant) (h3 : t.carts = s.carts) (h4 : t.mem.parking = s.mem.parking) (kind inst p : Nat) :
    scrubFrom t kind inst p = scrubFrom s kind inst p := by
  have hs := scrubbable_congr h1 h2 h3 h4 kind inst
  have hg : scrubGroup t kind = scrubGroup s kind ∧ scrubPages t kind = scrubPages s kind := by unfold scrubGroup scrubPages; rw [h2]; exact ⟨rfl, rfl⟩
  unfold scrubFrom
  simp only [hs, hg.1, hg.2]

/-- The scrubber with its interval begun again. -/
def intervalBegun (b : Scrub) (now : Nat) : Scrub := { b with started := now }
theorem intervalBegun_fields (b : Scrub) (now : Nat) : (intervalBegun b now).page = b.page ∧ (intervalBegun b now).active = b.active ∧
    (intervalBegun b now).lateSeen = b.lateSeen := ⟨rfl, rfl, rfl⟩
/-- The page under way is late. -/
def pageLate (s : State) (kind inst : Nat) (b : Scrub) : State :=
  let t := setRegF s scbStat 16 16 (incSat 16 (regF s scbStat 16 16))
  let t := if b.lateSeen then t else errReport t 0xA kind inst 104 0 (keyAddr t (256 * scrubPage t kind inst b.page))
  setScrub t kind inst { b with owed := true, lateSeen := true }
theorem scrubStartOp_eq (h1 : regB s (scbInt kind) 16 = true) (h2 : kind ≠ 5) (h3 : bankExists s kind inst 0 = true)
    (h4 : (scrubOf s (instKey kind inst)).started + regF s (scbInt kind) 0 16 * 15625 ≤ s.now) : scrubStartOp s kind inst =
    if (intervalBegun (scrubOf s (instKey kind inst)) s.now).active then pageLate s kind inst (intervalBegun (scrubOf s (instKey kind inst)) s.now)
    else scrubBegin (setScrub s kind inst (intervalBegun (scrubOf s (instKey kind inst)) s.now)) kind inst := by
  have hcond : ¬((!(regB s (scbInt kind) 16) || (kind = 5 && inst ≠ 0) || !(bankExists s kind (if kind = 5 then (dramPlace s.variant 0).1 else inst) 0)) = true) := by
    rw [h1, if_neg h2, h3, decide_eq_false h2]
    simp
  unfold scrubStartOp
  dsimp only
  rw [if_neg hcond, if_neg (Nat.not_lt.mpr h4)]
  rfl
/-- A page that is no earlier than the last is begun at once. -/
theorem scrubBegin_page {b : Scrub} {p : Nat} (hb : scrubOf s (instKey kind inst) = b) (h : scrubFrom s kind inst b.page = some p) (hp : b.page ≤ p) :
    scrubBegin s kind inst = setScrub s kind inst { b with page := p, line := 0, active := true, owed := false } := by
  unfold scrubBegin
  dsimp only
  rw [hb, h]
  dsimp only
  rw [if_neg (Nat.not_lt.mpr hp), hb]

/-- A report leaves every register but the counts of lost reports. -/
theorem reg_errReport (s : State) (cls kind inst master detail addr a : Nat) (ha : a ≠ eccLost cls) : reg (errReport s cls kind inst master detail addr) a = reg s a := by
  have hq (x : State) (r : ErrRec) (hr : r.cls = cls) : reg (errQueue x r) a = reg x a := by
    have hm (l : List ErrRec) : reg { x with mem := { x.mem with intake := l } } a = reg x a := reg_congr rfl rfl a
    unfold errQueue
    split
    · exact hm _
    · exact reg_setRegF_ne _ _ _ _ _ _ (hr ▸ ha)
  unfold errReport
  dsimp only
  exact (hq _ _ rfl).trans (reg_congr rfl rfl a)
theorem pageLate_spec (s : State) (kind inst : Nat) (b : Scrub) : regF (pageLate s kind inst b) scbStat 16 16 = incSat 16 (regF s scbStat 16 16) ∧
    scrubOf (pageLate s kind inst b) (instKey kind inst) = { b with owed := true, lateSeen := true } := by
  have hx : regF (setRegF s scbStat 16 16 (incSat 16 (regF s scbStat 16 16))) scbStat 16 16 = incSat 16 (regF s scbStat 16 16) :=
    (regF_setRegF_same _ _ _ _ _ (by decide)).trans (Nat.mod_eq_of_lt (incSat_lt ..))
  unfold pageLate
  extract_lets x y
  have hy : regF y scbStat 16 16 = regF x scbStat 16 16 := by
    unfold y
    split
    · rfl
    · unfold regF
      rw [reg_errReport _ _ _ _ _ _ _ _ (by decide)]
  clear_value y
  obtain ⟨f1, f2, -⟩ := setScrub_fields y kind inst { b with owed := true, lateSeen := true }
  exact ⟨(regF_congr f1 f2 ..).trans (hy.trans hx), scrubOf_setScrub ..⟩

theorem scrubReadOp_next {b : Scrub} (hb : scrubOf s (instKey kind inst) = b) (h2 : kind ≠ 5) (ha : b.active = true) (hl : b.line < 64)
    (hs : scrubbable s kind inst b.page = true) {lk po : Nat} (hlk : scrubPage s kind inst b.page * 64 + b.line % 64 = lk)
    (hpo : portOf (keyKind (4 * lk)) (keyInst (4 * lk)) (keyOff (4 * lk)) 104 false = po) (hf : freeCycle s po = true) (hd : dueOut s po = none)
    (hm : mergeFind s lk = none) (h0 : (lineGet s lk).st = 0) : scrubReadOp s kind inst = setScrub s kind inst { b with line := b.line + 1 } := by
  have hcond : ¬((!b.active || (kind = 5 && inst ≠ 0)) = true) := by
    rw [ha, decide_eq_false h2]
    simp
  unfold scrubReadOp
  dsimp only
  rw [hb, if_neg hcond, hs, if_neg (by decide), hlk, hpo, hf, hd, if_neg (by simp), if_pos hl, hm, h0]
  exact (if_neg (by decide)).trans (congrArg (setScrub · kind inst _) ((if_neg (by decide)).trans (if_neg (by decide))))

theorem theScrubberWalks : Clause.TheScrubberWalks := by
  intro s kind inst hi b
  refine ⟨fun p h1 h2 h3 h4 h5 h6 h7 => ?_, fun h1 h2 h3 h4 h5 => ?_, ?_⟩
  · have hexec : exec (.scrubPageStart kind inst) s = .next (scrubStartOp s kind inst) := act_wf hi
    obtain ⟨g1, g2, g3⟩ := intervalBegun_fields b s.now
    rw [scrubStartOp_eq h1 h2 h3 h4, if_neg (by rw [g2, h5]; exact Bool.false_ne_true)] at hexec
    obtain ⟨f1, f2, f3, f4, f5, f6, f7⟩ := setScrub_fields s kind inst (intervalBegun b s.now)
    rw [scrubBegin_page (scrubOf_setScrub s kind inst (intervalBegun b s.now)) ((scrubFrom_congr f1 f2 f3 f6 ..).trans h6) h7] at hexec
    obtain ⟨-, -, -, e4, e5, -⟩ := setScrub_fields (setScrub s kind inst (intervalBegun b s.now)) kind inst
      { intervalBegun b s.now with page := p, line := 0, active := true, owed := false }
    exact ⟨_, hexec, scrubOf_setScrub .., e4.trans f4, e5.trans f5⟩
  · have hexec : exec (.scrubPageStart kind inst) s = .next (scrubStartOp s kind inst) := act_wf hi
    obtain ⟨-, g2, -⟩ := intervalBegun_fields b s.now
    rw [scrubStartOp_eq h1 h2 h3 h4, if_pos (by rw [g2, h5])] at hexec
    obtain ⟨p1, p2⟩ := pageLate_spec s kind inst (intervalBegun b s.now)
    exact ⟨_, hexec, p1, p2⟩
  · intro lk po h2 ha hl hs hf hd hm h0
    have hexec : exec (.scrubRead kind inst) s = .next (scrubReadOp s kind inst) := act_wf hi
    rw [scrubReadOp_next rfl h2 ha hl hs rfl rfl hf hd hm h0] at hexec
    obtain ⟨-, -, -, e4, e5, -⟩ := setScrub_fields s kind inst { b with line := b.line + 1 }
    exact ⟨_, hexec, scrubOf_setScrub .., e4, e5⟩

/-! ### The march engine -/

theorem tget_filter {β : Type} (d : β) (t : Table β) (p : Nat → Bool) (k : Nat) : tget d (t.filter (fun e => p e.1)) k = if p k then tget d t k else d := by
  induction t with
  | nil => rw [List.filter_nil, tget, ite_self]
  | cons e r ih =>
    obtain ⟨i, v⟩ := e
    by_cases hp : p i = true
    · rw [List.filter_cons_of_pos (p := fun e : Nat × β => p e.1) hp, tget, tget]
      by_cases hk : i = k
      · subst hk
        rw [if_pos rfl, if_pos hp, if_pos rfl]
      · rw [if_neg hk, if_neg hk, ih]
    · rw [List.filter_cons_of_neg (p := fun e : Nat × β => p e.1) hp, ih, tget]
      by_cases hk : i = k
      · subst hk
        rw [if_neg hp, if_neg hp]
      · rw [if_neg hk]

/-- What a parity that is settled leaves. -/
structure ParityOnly (s t : State) : Prop where
  rest : t = { s with mem := t.mem }
  data : t.mem.data = s.mem.data
theorem parityOnly_settle (s : State) (pk : Nat) : ParityOnly s (settleParity s pk) := by
  have h (x : Nat) : ParityOnly s (setParity s pk x) := ⟨rfl, rfl⟩
  exact h _
theorem parityOnly_foldl (xs : List Nat) (s : State) : ParityOnly s (xs.foldl settleParity s) := by
  induction xs generalizing s with
  | nil => exact ⟨rfl, rfl⟩
  | cons a r ih =>
    have h1 := parityOnly_settle s a
    have h2 := ih (settleParity s a)
    rw [List.foldl_cons]
    generalize settleParity s a = x at h1 h2
    have hr := h1.rest
    exact ⟨by rw [h2.rest, hr], h2.data.trans h1.data⟩
/-- A bank as a destructive march leaves it. -/
theorem bankZero_spec (s : State) (kind inst bank : Nat) : bankZero s kind inst bank = { s with mem := (bankZero s kind inst bank).mem } ∧
    (∀ k, bankKeyOf k = bankKey kind inst bank → tget 0 (bankZero s kind inst bank).mem.data k = 0) ∧
    ∀ k, bankKeyOf k ≠ bankKey kind inst bank → tget 0 (bankZero s kind inst bank).mem.data k = tget 0 s.mem.data k := by
  unfold bankZero
  extract_lets bk m out here t
  have ht : ParityOnly t (if kind = 1 then ((t.mem.data.map (fun e => e.1 / 256)).eraseDups.filter here).foldl settleParity t else t) := by
    split
    · exact parityOnly_foldl ..
    · exact ⟨rfl, rfl⟩
  have hs : t = { s with mem := t.mem } := rfl
  have hd (k : Nat) : tget 0 t.mem.data k = if out k then tget 0 s.mem.data k else 0 := tget_filter (0 : Word) s.mem.data out k
  have hout (k : Nat) : out k = true ↔ bankKeyOf k ≠ bk := by simp [out]
  clear_value t out
  generalize (if kind = 1 then ((t.mem.data.map (fun e => e.1 / 256)).eraseDups.filter here).foldl settleParity t else t) = u at ht
  have hr := ht.rest
  refine ⟨by rw [hr, hs], fun k hk => ?_, fun k hk => ?_⟩
  · rw [ht.data, hd, if_neg (fun h => (hout k).mp h hk)]
  · rw [ht.data, hd, if_pos ((hout k).mpr hk)]

/-- The march that MT_CTL asks for. -/
def marchAsked (s : State) : March :=
  { pres := regB s mtCtl 30, kind := regF s mtCtl 21 4, inst := regF s mtCtl 14 7, bank := regF s mtCtl 7 7, slot := false, row := 0, fails := 0, firstFail := 0, unrepaired := false }
def marching (s : State) (m : March) : State := { s with mem := { s.mem with march := some m } }
theorem marchStartOp_eq (h1 : regB s mtCtl 31 = true) (h2 : s.mem.march = none) (h3 : regB s mtCtl 29 = false) (h4 : regB s mtCtl 30 = true ∨ s.dev = 3)
    (h5 : bankExists s (regF s mtCtl 21 4) (regF s mtCtl 14 7) (regF s mtCtl 7 7) = true) : marchStartOp s =
    marching (if regB s mtCtl 30 then s else bankZero s (regF s mtCtl 21 4) (regF s mtCtl 14 7) (regF s mtCtl 7 7)) (marchAsked s) := by
  have hlegal : (regB s mtCtl 30 || s.dev = 3 || ((false || (marchAsked s).kind ≤ 1) && slotSt s (marchAsked s).inst = 2)) = true := by
    rcases h4 with h | h
    · rw [h, Bool.true_or, Bool.true_or]
    · rw [decide_eq_true h, Bool.or_true, Bool.true_or]
  unfold marchStartOp
  rw [h1, h2, h3, if_neg (by decide)]
  extract_lets slot m legal t
  have hm : m = marchAsked s := rfl
  have hl : legal = true := hlegal
  have ht : t = if regB s mtCtl 30 then s else bankZero s (regF s mtCtl 21 4) (regF s mtCtl 14 7) (regF s mtCtl 7 7) := rfl
  have hb : bankExists s m.kind m.inst (if slot = true then 0 else m.bank) = true := h5
  clear_value legal t m
  refine (if_pos (by rw [hb, hl]; rfl)).trans ?_
  exact congrArg₂ marching ht hm

/-- The march of a row. -/
theorem marchRowOp_eq {m : March} {op : Nat} (h : s.mem.march = some m) (hp : m.pres = true) (hr : m.row < marchRows m) :
    marchRowOp s op = marching (marchTest s m m.row op).1 { (marchTest s m m.row op).2 with row := m.row + 1 } := by
  unfold marchRowOp
  rw [h]
  exact if_pos (by rw [hp, decide_eq_true hr]; rfl)
theorem marchTest_zero (s : State) (m : March) (i : Nat) : marchTest s m i 0 = (s, m) := if_pos rfl
theorem marchTest_fails (m : March) (i : Nat) {op : Nat} (hop : 0 < op) : (marchTest s m i op).2.fails = incSat 14 m.fails ∧
    ∀ l, (lineGet s l).st ≠ 1 → lineBits (marchTest s m i op).1 l = lineBits s l := by
  unfold marchTest
  rw [if_neg (Nat.ne_of_gt hop)]
  extract_lets p addr left t
  refine ⟨rfl, fun l hl => ?_⟩
  obtain ⟨e1, -⟩ : KeepsStored s t ∧ KeepsRows s t := errReport_keeps ..
  have hl' : (lineGet t l).st ≠ 1 := by rwa [e1.lineGet]
  dsimp only
  clear_value t
  refine Eq.trans ?_ (e1.bits l)
  cases hn : nextSpare t p.1 (bankKey p.1 p.2.1 p.2.2.1) with
  | some n => exact (remapRow_spec hn).2.2.2 l hl'
  | none =>
    obtain ⟨-, -, h3, h4, -⟩ := remapRow_none (row := p.2.2.2) hn
    exact (KeepsStored.mk h3 h4).bits l

/-- The result of a march and its failing rows stand in the registers. -/
def marchResult' (s : State) (m : March) : State :=
  setRegB (setReg (setRegF (setRegF s mtStat 30 2 (if m.unrepaired then 3 else if m.fails = 0 then 1 else 2)) mtStat 16 14 m.fails) 0x040B0004 (n32 m.firstFail)) mtCtl 31 false
def marchOver (s : State) : State := { s with mem := { s.mem with march := none } }
theorem marchOver_fields (s : State) : (marchOver s).mem.march = none ∧ (marchOver s).mem.data = s.mem.data ∧ (marchOver s).regs = s.regs ∧
    (marchOver s).variant = s.variant := ⟨rfl, rfl, rfl, rfl⟩
theorem marchEndOp_eq {m : March} (h : s.mem.march = some m) (hr : m.pres = true → marchRows m ≤ m.row) :
    marchEndOp s [] = longDone (marchOver (marchResult' s m)) (0x7040 * 256 + 2) 0 := by
  have hcond : ¬((m.pres && m.row < marchRows m) = true) := by
    rw [Bool.and_eq_true, decide_eq_true_eq]
    exact fun hc => absurd hc.2 (Nat.not_lt.mpr (hr hc.1))
  unfold marchEndOp
  rw [h]
  refine (if_neg hcond).trans ?_
  cases hp : m.pres
  · rfl
  · rfl
theorem marchResult'_spec (s : State) (m : March) : (marchResult' s m).mem = s.mem ∧ regB (marchResult' s m) mtCtl 31 = false ∧
    regF (marchResult' s m) mtStat 30 2 = (if m.unrepaired then 3 else if m.fails = 0 then 1 else 2) ∧ regF (marchResult' s m) mtStat 16 14 = m.fails % 2 ^ 14 := by
  have hreg : reg (marchResult' s m) mtStat = reg (setRegF (setRegF s mtStat 30 2 (if m.unrepaired then 3 else if m.fails = 0 then 1 else 2)) mtStat 16 14 m.fails) mtStat :=
    (reg_setRegB_ne _ _ _ _ _ (by decide)).trans ((reg_setReg ..).trans (if_neg (by decide)))
  have hF (lo w : Nat) : regF (marchResult' s m) mtStat lo w =
      regF (setRegF (setRegF s mtStat 30 2 (if m.unrepaired then 3 else if m.fails = 0 then 1 else 2)) mtStat 16 14 m.fails) mtStat lo w := by unfold regF; rw [hreg]
  have hmem (x : State) (a : Nat) (v : W32) : (setReg x a v).mem = x.mem := rfl
  refine ⟨?_, regB_setRegB_same _ _ _ _ (by decide), ?_, ?_⟩
  · unfold marchResult'
    rw [(setRegB_fields ..).1, hmem, setRegF_mem, setRegF_mem]
  · rw [hF, regF_setRegF_other _ _ _ _ _ _ _ (by decide) (by decide), regF_setRegF_same _ _ _ _ _ (by decide)]
    split
    · rfl
    · split <;> rfl
  · rw [hF, regF_setRegF_same _ _ _ _ _ (by decide)]
theorem marchComplete_spec {m : March} (h : s.mem.march = some m) (hr : m.pres = true → marchRows m ≤ m.row) :
    ∃ t, exec (.marchComplete []) s = .next t ∧ t.mem.march = none ∧ regB t mtCtl 31 = false ∧ t.mem.data = s.mem.data ∧
      regF t mtStat 30 2 = (if m.unrepaired then 3 else if m.fails = 0 then 1 else 2) ∧ regF t mtStat 16 14 = m.fails % 2 ^ 14 := by
  have hexec : exec (.marchComplete []) s = .next (marchEndOp s []) := act_wf rfl
  obtain ⟨r1, r2, r3, r4⟩ := marchResult'_spec s m
  obtain ⟨o1, o2, o3, o4⟩ := marchOver_fields (marchResult' s m)
  rw [marchEndOp_eq h hr] at hexec
  generalize marchOver (marchResult' s m) = x at hexec o1 o2 o3 o4
  have hl := longDone_fppOnly x (0x7040 * 256 + 2) 0
  generalize longDone x (0x7040 * 256 + 2) 0 = t at hexec hl
  have hregs : t.regs = (marchResult' s m).regs := by rw [hl]; exact o3
  have hv : t.variant = (marchResult' s m).variant := by rw [hl]; exact o4
  have hm : t.mem = x.mem := by rw [hl]
  refine ⟨t, hexec, by rw [hm, o1], (regB_congr hregs hv ..).trans r2, by rw [hm, o2, r1], (regF_congr hregs hv ..).trans r3, (regF_congr hregs hv ..).trans r4⟩

theorem theMarchEngine : Clause.TheMarchEngine := by
  intro s failing
  refine ⟨fun h1 h2 h3 h4 h5 => ?_, fun m h hp hr => ?_, fun m op h hp hr hop hop' => ?_, fun m h hp hslot => ?_, fun m h hp hr hf => ?_⟩
  · have hexec : exec .marchStart s = .next (marchStartOp s) := act_wf rfl
    rw [marchStartOp_eq h1 h2 h3 h4 h5] at hexec
    refine ⟨_, marchAsked s, hexec, rfl, rfl, rfl, rfl, rfl, rfl, rfl, ?_, fun hp => ?_, fun hp => ?_⟩
    · split
      · rfl
      · rw [(bankZero_spec s _ _ _).1]
        rfl
    · have hp : regB s mtCtl 30 = true := hp
      rw [if_pos hp]
      rfl
    · have hp : regB s mtCtl 30 = false := hp
      rw [hp, if_neg Bool.false_ne_true]
      exact (bankZero_spec s _ _ _).2
  · have hexec : exec (.marchRow 0) s = .next (marchRowOp s 0) := act_wf rfl
    rw [marchRowOp_eq h hp hr, marchTest_zero] at hexec
    exact ⟨_, hexec, rfl⟩
  · have hexec : exec (.marchRow op) s = .next (marchRowOp s op) := act_wf (decide_eq_true hop')
    obtain ⟨t1, t2⟩ := marchTest_fails (s := s) m m.row hop
    rw [marchRowOp_eq h hp hr] at hexec
    exact ⟨_, _, hexec, rfl, rfl, t1, t2⟩
  · obtain ⟨t, g1, g2, g3, g4, g5, -⟩ := marchComplete_spec h (fun hp' => absurd (hp'.symm.trans hp) (by decide))
    exact ⟨t, g1, g2, g3, g4, g5⟩
  · obtain ⟨t, g1, g2, -, g4, -, g6⟩ := marchComplete_spec h (fun _ => hr)
    rw [hf]
    exact ⟨t, g1, g2, g4, g6⟩

/-- Settles O39: the scrubber walks its pages, and the march engine its banks. -/
theorem scrubbingAndMarches : Obligations.ScrubbingAndMarches := ⟨theScrubberWalks, theMarchEngine⟩
end Sys2Proof.Machine
end

section
/-! Claims are taken and given back, and stores go by access code (R12 to R14, R385); the pulse of a source (R419 to R421). -/
namespace Sys2Proof.Machine

variable {s t u : State} {a m n o c : Nat} {v : W32} {i : RegInfo}

/-! ### Where the claim words stand -/

/-- What holds of each claim word that the table gives. -/
def ClaimsOf (p : RegInfo → Prop) (r : Option RegInfo) : Prop := ∀ i, r = some i → i.isClaim = true → p i

variable {va : Config.Variant}

/-- A claim word is no other register: not its block's CONFLICT, and not a source's state. -/
def ClaimApart (a : Nat) (i : RegInfo) : Prop := i.confAt ≠ a ∧ ∀ n < 2048, a ≠ icScnt n

theorem claimsOf_none (p : RegInfo → Prop) : ClaimsOf p none := by simp [ClaimsOf]
theorem claimsOf_ite {p : RegInfo → Prop} {q : Prop} [Decidable q] {x y : Option RegInfo} (hx : q → ClaimsOf p x) (hy : ¬q → ClaimsOf p y) :
    ClaimsOf p (if q then x else y) := by
  split
  next h => exact hx h
  next h => exact hy h
theorem claimsOf_regCL (p : RegInfo → Prop) : ClaimsOf p (regCL o) := by
  simp only [regCL, ro]
  repeat' split
  all_goals simp [ClaimsOf]
theorem claimsOf_regMEM (p : RegInfo → Prop) : ClaimsOf p (regMEM o) := by
  simp only [regMEM, ro]
  repeat' split
  all_goals simp [ClaimsOf]
theorem claimsOf_regECC (p : RegInfo → Prop) : ClaimsOf p (regECC o) := by
  simp only [regECC, ro]
  repeat' split
  all_goals simp [ClaimsOf]
theorem claimsOf_regSCB (p : RegInfo → Prop) : ClaimsOf p (regSCB o) := by
  simp only [regSCB, ro]
  repeat' split
  all_goals simp [ClaimsOf]
theorem claimsOf_regMT (p : RegInfo → Prop) : ClaimsOf p (regMT o) := by
  simp only [regMT, ro]
  repeat' split
  all_goals simp [ClaimsOf]
theorem claimsOf_regFUSE (p : RegInfo → Prop) : ClaimsOf p (regFUSE o) := by
  simp only [regFUSE, ro]
  repeat' split
  all_goals simp [ClaimsOf]
theorem claimsOf_regPWR (p : RegInfo → Prop) : ClaimsOf p (regPWR va o) := by
  simp only [regPWR, ro]
  repeat' split
  all_goals simp [ClaimsOf]
theorem claimsOf_regBB (p : RegInfo → Prop) : ClaimsOf p (regBB o) := by
  simp only [regBB, ro]
  repeat' split
  all_goals simp [ClaimsOf]
theorem claimsOf_regPTP (p : RegInfo → Prop) : ClaimsOf p (regPTP o) := by
  simp only [regPTP, ro]
  repeat' split
  all_goals simp [ClaimsOf]

theorem icScnt_block (hn : n < 2048) : icScnt n / 0x10000 = 0x40D ∧ icScnt n % 8 = 4 := by
  unfold icScnt icBase
  omega
/-- A word outside the interrupt controller's block is no source's state. -/
theorem ne_icScnt_of_block (h : a / 0x10000 ≠ 0x40D) : ∀ n < 2048, a ≠ icScnt n := fun _ hn he => h (he ▸ (icScnt_block hn).1)

theorem claimsOf_regIC (ho : o < 0x10000) (he : o % 2 = 0) : ClaimsOf (ClaimApart (icBase + o)) (regIC va o) := by
  simp only [regIC, ro]
  repeat' split
  all_goals simp only [ClaimsOf, reduceCtorEq, false_implies, implies_true, Option.some.injEq, forall_eq', Bool.false_eq_true]
  refine fun _ => ⟨?_, fun n hn => ?_⟩
  · simp only [Bool.and_eq_true, decide_eq_true_eq] at *
    unfold icStat icBase
    omega
  · unfold icScnt icBase
    omega
theorem claimsOf_regTM (ho : o < 0x10000) : ClaimsOf (ClaimApart (tmBase + o)) (regTM o) := by
  simp only [regTM, ro]
  repeat' split
  all_goals simp only [ClaimsOf, reduceCtorEq, false_implies, implies_true, Option.some.injEq, forall_eq', Bool.false_eq_true]
  refine fun _ => ⟨?_, ne_icScnt_of_block ?_⟩
  · simp only [Bool.and_eq_true, decide_eq_true_eq] at *
    unfold tmBstat tmBase
    omega
  · unfold tmBase
    omega
theorem claimsOf_regCLK (ho : o < 0x10000) : ClaimsOf (ClaimApart (clkBase + o)) (regCLK o) := by
  simp only [regCLK, ro]
  repeat' split
  all_goals simp only [ClaimsOf, reduceCtorEq, false_implies, implies_true, Option.some.injEq, forall_eq', Bool.false_eq_true]
  refine fun _ => ⟨?_, ne_icScnt_of_block ?_⟩
  · dsimp only
    unfold mcStat clkBase
    omega
  · unfold clkBase
    omega
theorem claimsOf_regSE (hn : n < 16) (ho : o < 0x10000) : ClaimsOf (ClaimApart (seBase n + o)) (regSE n o) := by
  simp only [regSE, ro]
  repeat' split
  all_goals simp only [ClaimsOf, reduceCtorEq, false_implies, implies_true, Option.some.injEq, forall_eq', Bool.false_eq_true]
  refine fun _ => ⟨?_, ne_icScnt_of_block ?_⟩
  · simp only [Bool.and_eq_true, decide_eq_true_eq] at *
    omega
  · unfold seBase
    omega
theorem claimsOf_regASRC (hn : n < 4) (ho : o < 0x10000) : ClaimsOf (ClaimApart (asBase n + o)) (regASRC n o) := by
  simp only [regASRC, ro]
  repeat' split
  all_goals simp only [ClaimsOf, reduceCtorEq, false_implies, implies_true, Option.some.injEq, forall_eq', Bool.false_eq_true]
  refine fun _ => ⟨?_, ne_icScnt_of_block ?_⟩
  · simp only [Bool.and_eq_true, decide_eq_true_eq] at *
    unfold asStat
    omega
  · unfold asBase
    omega
theorem claimsOf_regAP (hn : n < 32) (ho : o < 0x10000) : ClaimsOf (ClaimApart (apBase n + o)) (regAP n o) := by
  simp only [regAP, ro]
  repeat' split
  all_goals simp only [ClaimsOf, reduceCtorEq, false_implies, implies_true, Option.some.injEq, forall_eq', Bool.false_eq_true]
  refine fun _ => ⟨?_, ne_icScnt_of_block ?_⟩
  · dsimp only
    unfold apStat
    omega
  · unfold apBase
    omega
theorem claimsOf_regPDM (ho : o < 0x10000) : ClaimsOf (ClaimApart (pdmBase + o)) (regPDM o) := by
  simp only [regPDM, ro]
  repeat' split
  all_goals simp only [ClaimsOf, reduceCtorEq, false_implies, implies_true, Option.some.injEq, forall_eq', Bool.false_eq_true]
  refine fun _ => ⟨?_, ne_icScnt_of_block ?_⟩
  · dsimp only
    unfold pdmStat pdmBase
    omega
  · unfold pdmBase
    omega
theorem claimsOf_regETH (hn : n < 6) (ho : o < 0x10000) : ClaimsOf (ClaimApart (ethBase n + o)) (regETH n o) := by
  simp only [regETH, ro]
  repeat' (with_reducible refine claimsOf_ite ?_ ?_ <;> intro _)
  all_goals simp only [ClaimsOf, reduceCtorEq, false_implies, implies_true, Option.some.injEq, forall_eq', Bool.false_eq_true]
  refine fun _ => ⟨?_, ne_icScnt_of_block ?_⟩
  · dsimp only
    unfold ethStat
    omega
  · unfold ethBase
    omega

/-- No claim word of the window is its block's CONFLICT or a source's state. -/
theorem claimsOf_regInfo (va : Config.Variant) (a : Nat) : ClaimsOf (ClaimApart a) (regInfo va a) := by
  unfold regInfo
  dsimp only
  refine claimsOf_ite (fun _ => claimsOf_none _) fun hwin => ?_
  simp only [Bool.or_eq_true, decide_eq_true_eq, not_or, Nat.not_lt, ge_iff_le, Nat.not_le] at hwin
  obtain ⟨⟨hlo, hhi⟩, hodd⟩ := hwin
  have ho : a % 0x10000 < 0x10000 := Nat.mod_lt _ (by decide)
  have he : a % 0x10000 % 2 = 0 := by omega
  have hp : (Config.Variant.asrcEngines va) ≤ 4 ∧ va.tdmPorts ≤ 32 := by cases va <;> decide
  have hat {q base : Nat} (h : a / 0x10000 % 256 = q) (hb : base = 0x04000000 + q * 0x10000) {r : Option RegInfo}
      (hr : ClaimsOf (ClaimApart (base + a % 0x10000)) r) : ClaimsOf (ClaimApart a) r := by
    rwa [show base + a % 0x10000 = a by omega] at hr
  refine claimsOf_ite (fun _ => claimsOf_ite (fun _ => claimsOf_regCL _) fun _ => claimsOf_none _) fun _ => ?_
  refine claimsOf_ite (fun _ => claimsOf_regMEM _) fun _ => claimsOf_ite (fun _ => claimsOf_regECC _) fun _ => claimsOf_ite (fun _ => claimsOf_regSCB _) fun _ => ?_
  refine claimsOf_ite (fun _ => claimsOf_regMT _) fun _ => claimsOf_ite (fun _ => claimsOf_regFUSE _) fun _ => ?_
  refine claimsOf_ite (fun h => hat h rfl (claimsOf_regIC ho he)) fun _ => claimsOf_ite (fun h => hat h rfl (claimsOf_regTM ho)) fun _ => ?_
  refine claimsOf_ite (fun _ => claimsOf_regPWR _) fun _ => claimsOf_ite (fun h => hat h rfl (claimsOf_regCLK ho)) fun _ => ?_
  refine claimsOf_ite (fun _ => claimsOf_regBB _) fun _ => claimsOf_ite (fun _ => by simp [ClaimsOf, ro]) fun _ => claimsOf_ite (fun _ => claimsOf_regPTP _) fun _ => ?_
  simp only [Bool.and_eq_true, decide_eq_true_eq]
  refine claimsOf_ite (fun h => hat rfl (by unfold seBase; omega) (claimsOf_regSE (n := a / 0x10000 % 256 - 0x20) (by omega) ho)) fun _ => ?_
  refine claimsOf_ite (fun h => claimsOf_ite (fun h' => hat rfl (by unfold asBase; omega) (claimsOf_regASRC (by omega) ho)) fun _ => claimsOf_none _) fun _ => ?_
  refine claimsOf_ite (fun h => claimsOf_ite (fun h' => hat rfl (by unfold apBase; omega) (claimsOf_regAP (by omega) ho)) fun _ => claimsOf_none _) fun _ => ?_
  refine claimsOf_ite (fun h => hat h rfl (claimsOf_regPDM ho)) fun _ => ?_
  exact claimsOf_ite (fun h => claimsOf_ite (fun h' => hat rfl (by unfold ethBase; omega) (claimsOf_regETH (by omega) ho)) fun _ => claimsOf_none _) fun _ => claimsOf_none _

/-! ### CONFLICT -/

/-- Where CONFLICT is set nothing but that register and sources of the controller change. -/
theorem conflictAt_keeps (s : State) (x b : Nat) : conflictAt s x b = { s with regs := (conflictAt s x b).regs, intc := (conflictAt s x b).intc } ∧
    ∀ a, a ≠ x → (∀ n < 2048, a ≠ icScnt n) → reg (conflictAt s x b) a = reg s a := by
  have hp (y k : Nat) (hk : k < 2048) : pulse (setRegB s x y true) k = { s with regs := (pulse (setRegB s x y true) k).regs, intc := (pulse (setRegB s x y true) k).intc } ∧
      ∀ a, a ≠ x → (∀ n < 2048, a ≠ icScnt n) → reg (pulse (setRegB s x y true) k) a = reg s a := by
    have h := sourceOnly_pulse (setRegB s x y true) k
    exact ⟨h.rest, fun a ha hn => (h.regs a (hn k hk)).trans (reg_setRegB_ne _ _ _ _ _ ha)⟩
  unfold conflictAt
  split
  · exact ⟨rfl, fun _ _ _ => rfl⟩
  · split
    next hx =>
      simp only [Bool.and_eq_true, decide_eq_true_eq] at hx
      obtain ⟨rfl, rfl⟩ := hx
      exact hp 0 1049 (by decide)
    · dsimp only
      split
      · exact hp b _ (by omega)
      · split
        · exact hp b _ (by omega)
        · exact ⟨rfl, fun a ha _ => reg_setRegB_ne _ _ _ _ _ ha⟩
/-- A claim word stays where its block's CONFLICT is set. -/
theorem conflict_claim (hi : regInfo s.variant a = some i) (hc : i.isClaim = true) : reg (conflict s a) a = reg s a ∧
    conflict s a = { s with regs := (conflict s a).regs, intc := (conflict s a).intc } := by
  obtain ⟨hne, hic⟩ := claimsOf_regInfo s.variant a i hi hc
  obtain ⟨h1, h2⟩ := conflictAt_keeps s i.confAt i.confBit
  have hs : conflict s a = conflictAt s i.confAt i.confBit := by unfold conflict; rw [hi]
  rw [hs]
  exact ⟨h2 a hne.symm hic, h1⟩

/-! ### Claims -/

theorem claimWord_of_claim (hi : regInfo s.variant a = some i) (hc : i.isClaim = true) : claimWord s a = true := by
  unfold claimWord
  rw [hi]
  simp [hc]
theorem regStore_claim (hi : regInfo s.variant a = some i) (hc : i.isClaim = true) (sup : Bool) : regStore s m sup a v = storeClaim s m a v (claimBusy s a) := by
  unfold regStore
  rw [hi]
  exact if_pos hc
theorem claimUnit_stores (hm : masterOk m = true) (ha : a < 2 ^ 32) (hi : regInfo s.variant a = some i) (hc : i.isClaim = true) :
    exec (.claimUnit m a) s = .next (storeClaim s m a 0x100 (claimBusy s a)) := by
  have hexec : exec (.claimUnit m a) s = .next (if claimWord s a then regStore s m true a 0x100 else s) := act_wf (by
    show (masterOk m && decide (a < 2 ^ 32)) = true
    rw [hm, decide_eq_true ha]; rfl)
  rwa [if_pos (claimWord_of_claim hi hc), regStore_claim hi hc] at hexec
theorem releaseClaim_stores (hm : masterOk m = true) (ha : a < 2 ^ 32) (hi : regInfo s.variant a = some i) (hc : i.isClaim = true) :
    exec (.releaseClaim m a) s = .next (storeClaim s m a 0 (claimBusy s a)) := by
  have hexec : exec (.releaseClaim m a) s = .next (if claimWord s a then regStore s m true a 0 else s) := act_wf (by
    show (masterOk m && decide (a < 2 ^ 32)) = true
    rw [hm, decide_eq_true ha]; rfl)
  rwa [if_pos (claimWord_of_claim hi hc), regStore_claim hi hc] at hexec
theorem masterOk_lt (h : masterOk m = true) : m < 128 := by
  unfold masterOk at h
  simp only [Bool.or_eq_true, Bool.and_eq_true, decide_eq_true_eq] at h
  omega
/-- A claim word that names its holder. -/
theorem claimed_by (s : State) (a : Nat) (hm : m < 128) : claimHeld (setReg s a (n32 (256 + m % 128))) a = true ∧ claimId (setReg s a (n32 (256 + m % 128))) a = m := by
  unfold claimHeld claimId regB regF
  rw [reg_setReg_same, rfld_n32 _ _ _ (by decide)]
  refine ⟨?_, ?_⟩
  · rw [rbit, n32, BitVec.getLsbD_ofNat, decide_eq_true (by decide : 8 < 32), Bool.true_and, Nat.testBit_eq_decide_div_mod_eq, decide_eq_true_eq]
    omega
  · rw [fld, Nat.shiftRight_zero]
    omega

theorem claimsAreTakenAndGivenBack : Clause.ClaimsAreTakenAndGivenBack := by
  intro s m a i hm ha hi hc
  obtain ⟨hreg, hrest⟩ := conflict_claim hi hc
  have hset : rbit (0x100 : W32) 8 = true ∧ rbit (0 : W32) 8 = false := by decide
  refine ⟨fun h => ?_, fun h => ?_, fun h h1 h2 => ?_, fun h => ?_⟩
  · have hop : storeClaim s m a 0x100 (claimBusy s a) = setReg s a (n32 (256 + m % 128)) := by
      unfold storeClaim
      rw [hset.1, h]
      rfl
    have hexec := claimUnit_stores hm ha hi hc
    rw [hop] at hexec
    obtain ⟨c1, c2⟩ := claimed_by s a (masterOk_lt hm)
    exact ⟨_, hexec, c1, c2, onlyRegs_setReg ..⟩
  · have hop : storeClaim s m a 0x100 (claimBusy s a) = conflict s a := by
      unfold storeClaim
      rw [hset.1, h]
      rfl
    have hexec := claimUnit_stores hm ha hi hc
    rw [hop] at hexec
    exact ⟨_, hexec, hreg, hrest⟩
  · have hop : storeClaim s m a 0 (claimBusy s a) = setReg s a 0 := by
      unfold storeClaim
      rw [hset.2, if_neg Bool.false_ne_true, h, h2, decide_eq_true h1]
      rfl
    have hexec := releaseClaim_stores hm ha hi hc
    rw [hop] at hexec
    exact ⟨_, hexec, reg_setReg_same .., onlyRegs_setReg ..⟩
  · have hop : storeClaim s m a 0 (claimBusy s a) = conflict s a := by
      unfold storeClaim
      rw [hset.2, if_neg Bool.false_ne_true]
      refine if_neg ?_
      rw [Bool.and_eq_true, Bool.and_eq_true, decide_eq_true_eq, Bool.not_eq_true']
      rintro ⟨⟨g1, g2⟩, g3⟩
      rcases h with h | h | h
      · exact absurd (h.symm.trans g1) (by decide)
      · exact h g2
      · exact absurd (h.symm.trans g3) (by decide)
    have hexec := releaseClaim_stores hm ha hi hc
    rw [hop] at hexec
    exact ⟨_, hexec, hreg, hrest⟩

/-! ### A store of the scrubber's registers -/

theorem regInfo_scbBlock (h : a / 0x10000 = 0x40A) (hi : regInfo s.variant a = some i) : regSCB (a % 0x10000) = some i := by
  have he : a % 2 = 0 := by
    by_contra hodd
    unfold regInfo at hi
    rw [if_pos (by simp; omega)] at hi
    exact absurd hi (by simp)
  have hs := regInfo_scb (v := s.variant) (o := a % 0x10000) (Nat.mod_lt _ (by decide)) (by omega)
  rw [show 0x040A0000 + a % 0x10000 = a by omega] at hs
  exact hs.symm.trans hi
/-- What the table says of the scrubber's registers: an interval, or the status. -/
theorem regSCB_cases (h : regSCB o = some i) : i.rw = 0 ∧ i.claim = 1 ∧ i.confAt = scbStat ∧ i.confBit = 0 ∧ i.isClaim = false ∧
    ((i.own = 0x1FFFF ∧ i.w1c = 0 ∧ o < 12) ∨ (i.own = 0 ∧ i.w1c = 1 ∧ o = 0x10)) := by
  unfold regSCB at h
  dsimp only at h
  split at h
  next ho => obtain rfl := Option.some.inj h; exact ⟨rfl, rfl, rfl, rfl, rfl, .inl ⟨rfl, rfl, ho⟩⟩
  · split at h
    next ho => obtain rfl := Option.some.inj h; exact ⟨rfl, rfl, rfl, rfl, rfl, .inr ⟨rfl, rfl, ho⟩⟩
    · exact absurd h (by simp)
theorem regStore_scb (h : a / 0x10000 = 0x40A) (hi : regInfo s.variant a = some i) (hc : i.isClaim = false) (sup : Bool) :
    regStore s m sup a v = storePlain s m a v := by
  have hb : a / 0x10000 % 256 = 10 := by omega
  unfold regStore
  rw [hi]
  simp only [hc, hb]
  rfl
theorem regWaits_scb (h : a / 0x10000 = 0x40A) : regWaits s m a = false := by
  have : ¬a ≤ lpData 3 := by unfold lpData; omega
  unfold regWaits
  rw [decide_eq_false this, Bool.and_false]
theorem conflictAt_scbStat (s : State) : conflictAt s scbStat 0 = setRegB s scbStat 0 true := rfl

theorem storeOfScb (h : a / 0x10000 = 0x40A) (hi : regInfo s.variant a = some i) (hres : sysReserved s a v.toNat = []) :
    OnlyRegs [a, scbStat] s (storePlain s m a v) ∧
    (∀ b, b < 32 → regB (storePlain s m a v) a b = (if bitN i.w1c b then regB s a b && !rbit v b else if bitN i.own b && m = 72 then rbit v b else regB s a b)) ∧
    (i.own ≠ 0 → m ≠ 72 → regB (storePlain s m a v) scbStat 0 = true) := by
  obtain ⟨hrw, hcl, hat, hbit, -, hkind⟩ := regSCB_cases (regInfo_scbBlock h hi)
  have hown : ownsClaim s i.claim m = decide (m = 72) := by rw [hcl]; rfl
  have hmask : storeMask s m i = if m = 72 then i.own else 0 := by
    unfold storeMask
    rw [hown, hrw, Nat.zero_or]
    simp only [decide_eq_true_eq]
  have hlt : storeMask s m i < 2 ^ 32 := by
    rw [hmask]
    split
    · rcases hkind with ⟨h, -⟩ | ⟨h, -⟩ <;> rw [h] <;> decide
    · decide
  have hval (b : Nat) (hb : b < 32) : rbit (storeVal s m a v i).1 b =
      (if bitN i.w1c b then regB s a b && !rbit v b else if bitN i.own b && m = 72 then rbit v b else regB s a b) := by
    rw [rbit_storeVal hlt hb, storeWord_of_no_reserved hres, hmask]
    unfold bitN regB
    rcases hkind with ⟨h1, h2, -⟩ | ⟨h1, h2, -⟩
    · rw [h1, h2]
      by_cases hm : m = 72
      · simp [hm, rbit_eq]
      · simp [hm]
    · rw [h1, h2, ite_self]
      by_cases hb1 : (1 : Nat).testBit b = true
      · simp [hb1]
      · simp [hb1]
  have hset (b : Nat) : regB (setReg s a (storeVal s m a v i).1) a b = rbit (storeVal s m a v i).1 b := by unfold regB; rw [reg_setReg_same]
  have honly : OnlyRegs [a, scbStat] s (setReg s a (storeVal s m a v i).1) := onlyRegs_mono (onlyRegs_setReg ..) (by simp)
  by_cases hconf : storeConflicts s m a v i = true
  · have hne : i.own ≠ 0 ∧ m ≠ 72 := by
      simpa [storeConflicts, hown, hres] using hconf
    have hao : a ≠ scbStat := by
      rcases hkind with ⟨-, -, ho⟩ | ⟨h1, -⟩
      · unfold scbStat
        omega
      · exact absurd h1 hne.1
    rw [storePlain_of_conflict hi hconf, hat, hbit, conflictAt_scbStat]
    refine ⟨onlyRegs_trans honly (onlyRegs_mono (onlyRegs_setRegB ..) (by simp)), fun b hb => ?_, fun _ _ => regB_setRegB_same _ _ _ _ (by decide)⟩
    rw [← hval b hb, ← hset b]
    unfold regB
    rw [reg_setRegB_ne _ _ _ _ _ hao]
  · have hconf : storeConflicts s m a v i = false := Bool.not_eq_true _ ▸ hconf
    rw [storePlain_of_no_conflict hi hconf]
    refine ⟨honly, fun b hb => (hset b).trans (hval b hb), fun h1 h2 => ?_⟩
    simp [storeConflicts, hown, h1, h2] at hconf

/-! ### A pulse -/

theorem srcEvent_disabled (h : srcEn s n = false) : srcEvent s n = s := by
  unfold srcEvent
  rw [h]
  rfl
/-- The signal of a source as it is set, before the event. -/
def signalSet (s : State) (n : Nat) (b : Bool) : State := { s with intc := { s.intc with signal := tput 0 s.intc.signal n (b2n b) } }
theorem signalSet_regs (s : State) (n : Nat) (b : Bool) (a : Nat) : reg (signalSet s n b) a = reg s a ∧ (signalSet s n b).regs = s.regs := ⟨rfl, rfl⟩
theorem setLevel_cases (s : State) (n : Nat) (b : Bool) : setLevel s n b = s ∨ setLevel s n b = signalSet s n b ∨ setLevel s n b = srcEvent (signalSet s n b) n := by
  unfold setLevel
  split
  · exact .inl rfl
  · dsimp only
    split
    · exact .inr (.inr rfl)
    · exact .inr (.inl rfl)
theorem srcEn_congr (h : reg t (icScfg n) = reg s (icScfg n)) : srcEn t n = srcEn s n := by unfold srcEn regB; rw [h]
/-- A source that is not enabled makes no event. -/
theorem setLevel_disabled (h : srcEn s n = false) (b : Bool) : (setLevel s n b).regs = s.regs ∧ srcEn (setLevel s n b) n = false := by
  obtain ⟨h1, h2⟩ := signalSet_regs s n b (icScfg n)
  have hen : srcEn (signalSet s n b) n = false := (srcEn_congr h1).trans h
  rcases setLevel_cases s n b with hl | hl | hl
  · rw [hl]
    exact ⟨rfl, h⟩
  · rw [hl]
    exact ⟨h2, hen⟩
  · rw [hl, srcEvent_disabled hen]
    exact ⟨h2, hen⟩
theorem pulse_disabled (h : srcEn s n = false) : (pulse s n).regs = s.regs := by
  obtain ⟨h1, h2⟩ := setLevel_disabled h true
  exact (setLevel_disabled h2 false).1.trans h1
theorem icScfg_ne_icScnt (n : Nat) : icScfg n ≠ icScnt n := by unfold icScfg icScnt; omega

/-- The first pulse of an enabled source of rising edges that is IDLE and gathers one event makes it ACTIVE. -/
theorem pulse_first (h0 : srcSignal s n = false) (hen : srcEn s n = true) (hsn : srcSense s n = 2) (hst : srcState s n = 0) (hcc : regF s (icScfg n) 16 8 = 1) :
    srcState (pulse s n) n = 2 ∧ srcCount (pulse s n) n = 1 := by
  have hreg (a : Nat) := (signalSet_regs s n true a).1
  have hup : setLevel s n true = srcEvent (signalSet s n true) n := by
    unfold setLevel
    rw [h0, if_neg (by decide), hsn]
    rfl
  have hev : srcEvent (signalSet s n true) n = setSrc (signalSet s n true) n 2 1 := by
    have h1 : srcEn (signalSet s n true) n = true := (srcEn_congr (hreg _)).trans hen
    have h2 : srcState (signalSet s n true) n = 0 := (srcState_congr (hreg _)).trans hst
    have h3 : regF (signalSet s n true) (icScfg n) 16 8 = 1 := by
      unfold regF at hcc ⊢
      rw [hreg, hcc]
    unfold srcEvent
    rw [h1, h2, h3]
    rfl
  have hx := hup.trans hev
  have hstate := srcState_setSrc (signalSet s n true) n (st := 2) (cnt := 1) (by decide) (by decide)
  have hcount := srcCount_setSrc (signalSet s n true) n (st := 2) (cnt := 1) (by decide)
  have hcfg : reg (setSrc (signalSet s n true) n 2 1) (icScfg n) = reg s (icScfg n) := ((sourceOnly_setSrc ..).regs _ (icScfg_ne_icScnt n)).trans (hreg _)
  have hsense : srcSense (setSrc (signalSet s n true) n 2 1) n = 2 := by
    unfold srcSense regF at hsn ⊢
    rw [hcfg, hsn]
  have hdown : pulse s n = signalSet (setSrc (signalSet s n true) n 2 1) n false ∨ pulse s n = setSrc (signalSet s n true) n 2 1 := by
    unfold pulse
    rw [hx]
    unfold setLevel
    split
    · exact .inr rfl
    · dsimp only
      rw [hsense]
      exact .inl rfl
  rcases hdown with hd | hd
  · rw [hd]
    have hr := (signalSet_regs (setSrc (signalSet s n true) n 2 1) n false (icScnt n)).1
    exact ⟨(srcState_congr hr).trans hstate, (srcCount_congr hr).trans hcount⟩
  · rw [hd]
    exact ⟨hstate, hcount⟩

theorem storesGoByAccessCode : Clause.StoresGoByAccessCode := by
  intro s m a c sup v i hm hc
  refine ⟨fun hb hi hres => ?_, ?_⟩
  · have ha : a < 2 ^ 32 := by omega
    have hexec : exec (.registerWrite m sup a v) s = .next (if regWaits s m a then s else regStore s m sup a v) := act_wf (by
      show (masterOk m && decide (a < 2 ^ 32)) = true
      rw [hm, decide_eq_true ha]; rfl)
    obtain ⟨-, -, -, -, hclaim, -⟩ := regSCB_cases (regInfo_scbBlock hb hi)
    rw [regWaits_scb hb, if_neg Bool.false_ne_true, regStore_scb hb hi hclaim] at hexec
    exact ⟨_, hexec, storeOfScb hb hi hres⟩
  · intro n
    have hexec : exec (.canErrorStateChange c) s = .next (pulse s n) := act_wf (decide_eq_true hc)
    have hp := sourceOnly_pulse s n
    refine ⟨_, hexec, ⟨hp.rest, fun b _ hb => hp.regs b (by simpa using hb), fun k hk => hp.signals k (by simpa using hk)⟩, ?_, pulse_first, pulse_disabled⟩
    rw [srcSignal_pulse, if_pos rfl]

/-- Settles O43: claims are taken and given back, and stores go by access code. -/
theorem storesAndClaims : Obligations.StoresAndClaims := ⟨claimsAreTakenAndGivenBack, storesGoByAccessCode⟩
end Sys2Proof.Machine
end

section
/-! What the media clocks' operations share: registers and sources alone, the fields of CLK_MCSTAT, and the clocks' edges. -/
namespace Sys2Proof.Machine

variable {s t u : State} {a m n k : Nat} {v : W32} {l ns : List Nat} {i : RegInfo}

/-! ### Registers and sources alone -/

theorem onlyRegsAndSources_refl (l ns : List Nat) (s : State) : OnlyRegsAndSources l ns s s := ⟨rfl, fun _ _ _ => rfl, fun _ _ => rfl⟩
theorem onlyRegsAndSources_trans (h : OnlyRegsAndSources l ns s t) (g : OnlyRegsAndSources l ns t u) : OnlyRegsAndSources l ns s u :=
  ⟨by rw [g.1, h.1], fun a hl hn => (g.2.1 a hl hn).trans (h.2.1 a hl hn), fun x hx => (g.2.2 x hx).trans (h.2.2 x hx)⟩
theorem onlyRegsAndSources_mono {l' ns' : List Nat} (h : OnlyRegsAndSources l ns s t) (hl : ∀ a ∈ l, a ∈ l') (hn : ∀ x ∈ ns, x ∈ ns') :
    OnlyRegsAndSources l' ns' s t := by
  obtain ⟨hrest, hregs, hsig⟩ := h
  refine ⟨hrest, fun a ha hb => hregs a (fun hm => ha (hl a hm)) fun hm => hb ?_, fun x hx => hsig x fun hm => hx (hn x hm)⟩
  obtain ⟨x, hx, rfl⟩ := List.mem_map.mp hm
  exact List.mem_map_of_mem (hn x hx)
theorem onlyRegsAndSources_of_regs (h : OnlyRegs l s t) : OnlyRegsAndSources l ns s t := by
  obtain ⟨hrest, hregs⟩ := h
  refine ⟨?_, fun a ha _ => hregs a ha, fun x _ => ?_⟩
  · rw [hrest]
  · unfold srcSignal; rw [hrest]
theorem SourceOnly.regsAndSources (h : SourceOnly n s t) (hn : n ∈ ns) : OnlyRegsAndSources l ns s t :=
  ⟨h.rest, fun a _ hb => h.regs a fun he => hb (he ▸ List.mem_map_of_mem hn), fun x hx => h.signals x fun he => hx (he ▸ hn)⟩

/-- Nothing but registers and the interrupt sources differs. -/
theorem onlyRegsAndSources_media (h : OnlyRegsAndSources l ns s t) : t.media = s.media := by rw [h.1]
theorem onlyRegsAndSources_clk (h : OnlyRegsAndSources l ns s t) (j : Nat) : clk t j = clk s j := by
  unfold clk
  rw [onlyRegsAndSources_media h]

/-! ### A store by the holder of a claim -/

/-- Outside the fields that hold a reserved value the word offered is the word stored. -/
theorem testBit_storeWord {j : Nat} (h : ∀ e ∈ sysReserved s a v.toNat, j < e.1 ∨ e.1 + e.2 ≤ j) : (storeWord s a v).testBit j = v.toNat.testBit j := by
  unfold storeWord
  generalize sysReserved s a v.toNat = res at h
  generalize v.toNat = x
  induction res generalizing x with
  | nil => rfl
  | cons e r ih =>
    rw [List.foldl_cons, ih (fun e' he' => h e' (List.mem_cons_of_mem e he')), testBit_setFld]
    obtain hlt | hge := h e List.mem_cons_self
    · rw [if_pos hlt]
    · rw [if_neg (by omega), if_neg (by omega)]

/-- A block's CONFLICT that raises no source. -/
def PlainConflict (i : RegInfo) : Prop :=
  i.confAt ≠ 0 ∧ i.confAt ≠ memStat ∧ ¬(0x04200000 ≤ i.confAt ∧ i.confAt < 0x04300000) ∧ ¬(0x04700000 ≤ i.confAt ∧ i.confAt < 0x04760000)

theorem conflictAt_of_plain (h : PlainConflict i) : conflictAt s i.confAt i.confBit = setRegB s i.confAt i.confBit true := by
  obtain ⟨h0, hm, hse, heth⟩ := h
  exact conflictAt_plain _ _ _ h0 (.inl hm) hse heth
/-- A store writes its register and, where it conflicts, the block's CONFLICT. -/
theorem storePlain_spec (hi : regInfo s.variant a = some i) (hp : PlainConflict i) (hne : a ≠ i.confAt) (m : Nat) (v : W32) :
    OnlyRegs [a, i.confAt] s (storePlain s m a v) ∧ reg (storePlain s m a v) a = (storeVal s m a v i).1 := by
  have hset : OnlyRegs [a, i.confAt] s (setReg s a (storeVal s m a v i).1) := onlyRegs_mono (onlyRegs_setReg _ _ _) (by simp)
  cases hc : storeConflicts s m a v i with
  | true =>
    rw [storePlain_of_conflict hi hc, conflictAt_of_plain hp]
    exact ⟨onlyRegs_trans hset (onlyRegs_mono (onlyRegs_setRegB _ _ _ _) (by simp)), by rw [reg_setRegB_ne _ _ _ _ _ hne, reg_setReg_same]⟩
  | false =>
    rw [storePlain_of_no_conflict hi hc]
    exact ⟨hset, reg_setReg_same _ _ _⟩
theorem conflict_spec (hi : regInfo s.variant a = some i) (hp : PlainConflict i) : conflict s a = setRegB s i.confAt i.confBit true := by
  unfold conflict
  rw [hi]
  exact conflictAt_of_plain hp
/-- The holder's store leaves an OWN bit that is not reserved as it is offered. -/
theorem rbit_storeVal_owned {j : Nat} (hown : ownsClaim s i.claim m = true) (hmask : i.rw ||| i.own < 2 ^ 32) (hj : j < 32)
    (hset : (i.rw ||| i.own).testBit j = true) (hw1c : i.w1c.testBit j = false) (hres : ∀ e ∈ sysReserved s a v.toNat, j < e.1 ∨ e.1 + e.2 ≤ j) :
    rbit (storeVal s m a v i).1 j = rbit v j := by
  have hm : storeMask s m i = i.rw ||| i.own := storeMask_owned hown
  rw [rbit_storeVal (hm ▸ hmask) hj, hm, hset, if_pos rfl, hw1c, Bool.and_false, testBit_storeWord hres, Bool.not_false, Bool.and_true, rbit_eq]

/-! ### The registers of a media clock (R350) -/

def mcCtlInfo (k : Nat) : RegInfo :=
  { rw := 0, own := 0xFFFF07FF, w1c := 0, rst := 0x02800000, claim := mcClaim k, confAt := mcStat k, confBit := 28, isClaim := false }

theorem regInfo_mcCtl (hk : k < 4) (w : Config.Variant) : regInfo w (mcCtl k) = some (mcCtlInfo k) := by
  have hin : (decide (0x1000 ≤ 0x1000 + 16 * k) && decide (0x1000 + 16 * k < 0x1040)) = true := by simp; omega
  rw [show mcCtl k = 0x04100000 + (0x1000 + 16 * k) by unfold mcCtl clkBase; omega, regInfo_clk (by omega) (by omega), regCLK]
  simp only [hin, show ¬ 0x1000 + 16 * k = 0 by omega, show (0x1000 + 16 * k) % 16 = 0 by omega,
    show (0x1000 + 16 * k - 0x1000) / 16 = k by omega, if_false, if_true]
  rfl
theorem plainConflict_mcCtl (hk : k < 4) : PlainConflict (mcCtlInfo k) := by
  unfold PlainConflict mcCtlInfo mcStat clkBase memStat
  refine ⟨?_, ?_, ?_, ?_⟩ <;> dsimp only <;> omega
theorem mcCtl_ne_mcStat (k j : Nat) : mcCtl k ≠ mcStat j := by unfold mcCtl mcStat; omega
theorem mcStat_ne_icScnt (k n : Nat) : mcStat k ≠ icScnt n := by unfold mcStat clkBase icScnt icBase; omega
theorem mcCtl_ne_icScnt (k n : Nat) : mcCtl k ≠ icScnt n := by unfold mcCtl clkBase icScnt icBase; omega

/-- Reserved values of a clock register stand in the control words alone (R14, R350). -/
theorem sysReserved_clk {o : Nat} (ho : o < 0x10000) (w : Nat) :
    sysReserved s (0x04100000 + o) w =
      if 0x1000 ≤ o && o % 16 = 0 then
        (if fld w 28 3 = 7 then [(28, 3)] else []) ++ (if fld w 25 3 > 5 then [(25, 3)] else []) ++ (if fld w 23 2 = 3 then [(23, 2)] else []) ++
          (if fld w 21 2 = 3 then [(21, 2)] else [])
      else [] := by
  have hblock : (0x04100000 + o) / 0x10000 % 256 = 16 := by omega
  have hoff : (0x04100000 + o) % 0x10000 = o := by omega
  unfold sysReserved
  rw [hblock, hoff]
  rfl
/-- A reserved field of CLK_MCCTL is SRC, RATE, BW or OUTSEL: ON is none. -/
theorem sysReserved_mcCtl (hk : k < 4) (w : Nat) : ∀ e ∈ sysReserved s (mcCtl k) w, e.1 + e.2 ≤ 31 := by
  rw [show mcCtl k = 0x04100000 + (0x1000 + 16 * k) by unfold mcCtl clkBase; omega, sysReserved_clk (by omega), if_pos (by simp)]
  simp only [List.mem_append]
  rintro e (((he | he) | he) | he)
  all_goals
    split at he
    · rw [List.mem_singleton.mp he]; decide
    · cases he

/-- The holder's store of CLK_MCCTL: ON as stored, and no other register but CLK_MCSTAT. -/
theorem storePlain_mcCtl (hk : k < 4) (hown : ownsClaim s (mcClaim k) m = true) :
    OnlyRegs [mcCtl k, mcStat k] s (storePlain s m (mcCtl k) v) ∧ mcOn (storePlain s m (mcCtl k) v) k = rbit v 31 := by
  obtain ⟨hregs, hval⟩ := storePlain_spec (regInfo_mcCtl hk s.variant) (plainConflict_mcCtl hk) (mcCtl_ne_mcStat k k) m v
  refine ⟨hregs, ?_⟩
  unfold mcOn regB
  rw [hval]
  exact rbit_storeVal_owned (i := mcCtlInfo k) hown (by show (0 ||| 0xFFFF07FF : Nat) < 2 ^ 32; decide) (by decide)
    (by show (0 ||| 0xFFFF07FF : Nat).testBit 31 = true; decide) (by show (0 : Nat).testBit 31 = false; decide) fun e he => .inr (sysReserved_mcCtl hk _ e he)

/-! ### STATE and CLAMP (R346, R347) -/

theorem setMcState_only (s : State) (k st : Nat) : OnlyRegsAndSources [mcStat k] [904 + k] s (setMcState s k st) := by
  unfold setMcState
  split
  · exact onlyRegsAndSources_refl _ _ _
  · exact onlyRegsAndSources_trans (onlyRegsAndSources_of_regs (onlyRegs_setRegF _ _ _ _ _)) ((sourceOnly_pulse _ _).regsAndSources (by simp))
theorem setClamp_only (s : State) (k : Nat) (b : Bool) : OnlyRegsAndSources [mcStat k] [904 + k] s (setClamp s k b) := by
  unfold setClamp
  split
  · exact onlyRegsAndSources_refl _ _ _
  · exact onlyRegsAndSources_trans (onlyRegsAndSources_of_regs (onlyRegs_setRegB _ _ _ _)) ((sourceOnly_pulse _ _).regsAndSources (by simp))
theorem mcState_setMcState (s : State) (k : Nat) {st : Nat} (h : st < 4) : mcState (setMcState s k st) k = st := by
  unfold setMcState
  split
  next he => exact he
  next =>
    unfold mcState
    rw [(sourceOnly_pulse _ _).regF _ _ _ (mcStat_ne_icScnt k _), regF_setRegF_same _ _ _ _ _ (by decide)]
    exact Nat.mod_eq_of_lt h
theorem mcStat_setMcState (s : State) (k st : Nat) {lo w : Nat} (h : lo + w ≤ 30) : regF (setMcState s k st) (mcStat k) lo w = regF s (mcStat k) lo w := by
  unfold setMcState
  split
  · rfl
  · rw [(sourceOnly_pulse _ _).regF _ _ _ (mcStat_ne_icScnt k _), regF_setRegF_other _ _ _ _ _ _ _ (.inl h) (by omega)]
theorem clamp_setClamp (s : State) (k : Nat) (b : Bool) : regB (setClamp s k b) (mcStat k) 29 = b := by
  unfold setClamp
  split
  next he => exact he
  next => rw [(sourceOnly_pulse _ _).regB _ _ (mcStat_ne_icScnt k _), regB_setRegB_same _ _ _ _ (by decide)]
theorem mcStat_setClamp (s : State) (k : Nat) (b : Bool) {lo w : Nat} (h : lo + w ≤ 29 ∨ 30 ≤ lo) (h2 : lo + w ≤ 32) :
    regF (setClamp s k b) (mcStat k) lo w = regF s (mcStat k) lo w := by
  unfold setClamp
  split
  · rfl
  · rw [(sourceOnly_pulse _ _).regF _ _ _ (mcStat_ne_icScnt k _), regF_setRegB_other _ _ _ _ _ _ h h2]
/-- CLK_MCCTL stays where only CLK_MCSTAT and sources change. -/
theorem reg_mcCtl_of_stat (h : OnlyRegsAndSources [mcStat k] ns s t) (j : Nat) : reg t (mcCtl j) = reg s (mcCtl j) := by
  refine h.2.1 _ (by simpa using mcCtl_ne_mcStat j k) fun hm => ?_
  obtain ⟨x, _, hx⟩ := List.mem_map.mp hm
  exact mcCtl_ne_icScnt j x hx.symm

end Sys2Proof.Machine
end

section
/-! Media clocks (R344 to R350): edges, start and stop, their references. -/
namespace Sys2Proof.Machine

variable {s t u : State} {a m n k p : Nat} {v : W32}

/-! ### What the frames of ports change (R353, R354) -/

/-- Between the states only frames of the ports `P` are begun: their buffers, AP_STAT and interrupt sources. -/
structure FramesOnly (P : Nat → Prop) (s t : State) : Prop where
  rest : t = { s with regs := t.regs, intc := t.intc, media := t.media }
  media : t.media = { s.media with begun := t.media.begun, lastSync := t.media.lastSync, out := t.media.out, rx := t.media.rx }
  regs : ∀ a, (∀ p, P p → a ≠ apStat p) → (∀ n, a ≠ icScnt n) → reg t a = reg s a
  begun : ∀ q, ¬ P q → begunOf t q = begunOf s q

variable {P Q : Nat → Prop}

theorem FramesOnly.refl (P : Nat → Prop) (s : State) : FramesOnly P s s := ⟨rfl, rfl, fun _ _ _ => rfl, fun _ _ => rfl⟩
theorem FramesOnly.trans (h : FramesOnly P s t) (g : FramesOnly P t u) : FramesOnly P s u :=
  ⟨by rw [g.rest, h.rest], by rw [g.media, h.media], fun a hp hn => (g.regs a hp hn).trans (h.regs a hp hn), fun q hq => (g.begun q hq).trans (h.begun q hq)⟩
theorem FramesOnly.mono (h : FramesOnly P s t) (hPQ : ∀ p, P p → Q p) : FramesOnly Q s t :=
  ⟨h.rest, h.media, fun a hp => h.regs a fun p h' => hp p (hPQ p h'), fun q hq => h.begun q fun h' => hq (hPQ q h')⟩
theorem FramesOnly.foldl {α : Type} (f : State → α → State) (h : ∀ s a, FramesOnly P s (f s a)) (xs : List α) (s : State) : FramesOnly P s (xs.foldl f s) := by
  induction xs generalizing s with
  | nil => exact .refl P s
  | cons a r ih => exact (h s a).trans (ih (f s a))
theorem SourceOnly.framesOnly (h : SourceOnly n s t) : FramesOnly P s t :=
  ⟨by rw [h.rest], by rw [h.media], fun a _ hn => h.regs a (hn n), fun q _ => by unfold begunOf; rw [h.media]⟩
theorem framesOnly_setRegF (hp : P p) (s : State) (lo w x : Nat) : FramesOnly P s (setRegF s (apStat p) lo w x) :=
  ⟨rfl, rfl, fun _ ha _ => reg_setRegF_ne _ _ _ _ _ _ (ha p hp), fun _ _ => rfl⟩
theorem framesOnly_setRegB (hp : P p) (s : State) (i : Nat) (b : Bool) : FramesOnly P s (setRegB s (apStat p) i b) := framesOnly_setRegF hp s i 1 _
theorem framesOnly_setOut (s : State) (q slot : Nat) (x : W32) : FramesOnly P s (setOut s q slot x) := ⟨rfl, rfl, fun _ _ _ => rfl, fun _ _ => rfl⟩
theorem framesOnly_setRx (s : State) (q i : Nat) (f : RxFrame) : FramesOnly P s (setRx s q i f) := ⟨rfl, rfl, fun _ _ _ => rfl, fun _ _ => rfl⟩
theorem begunOf_setBegun (s : State) (p : Nat) (l : List Nat) : begunOf (setBegun s p l) p = l := tget_tput_same ..
theorem framesOnly_setBegun (hp : P p) (s : State) (l : List Nat) : FramesOnly P s (setBegun s p l) :=
  ⟨rfl, rfl, fun _ _ _ => rfl, fun q hq => tget_tput_other _ _ _ fun he => hq (he ▸ hp)⟩

/-- The frame of count `n` is begun: none that stood before the last is kept. -/
def joinFrame (s : State) (p n : Nat) : State := setBegun s p ((begunOf s p ++ [n]).drop ((begunOf s p).length - 1))
def withSync (s : State) (p n : Nat) : State := { s with media := { s.media with lastSync := tput 0 s.media.lastSync p n } }

theorem framesOnly_withSync (s : State) (p n : Nat) : FramesOnly P s (withSync s p n) := ⟨rfl, rfl, fun _ _ _ => rfl, fun _ _ => rfl⟩
theorem begunOf_withSync (s : State) (p n q : Nat) : begunOf (withSync s p n) q = begunOf s q := by
  unfold begunOf withSync
  dsimp only
theorem mem_joinFrame (s : State) (p n : Nat) : n ∈ begunOf (joinFrame s p n) p := by
  unfold joinFrame
  rw [begunOf_setBegun, List.drop_append]
  refine List.mem_append_right _ ?_
  rw [show (begunOf s p).length - 1 - (begunOf s p).length = 0 by omega]
  exact List.mem_singleton_self n
/-- What a frame that begins does after it is numbered: its slots go out, and what failed is counted. -/
def sentFrame (s : State) (p n : Nat) : State :=
  let slots := (upto (apSlots s p)).filter (fun i => regB s (apTxen p) i)
  if exOutPort s p then
    if n % 2 = 0 then s
    else slots.foldl (fun s i =>
      let e := tget { count := 0, val := 0, landed := 0 } s.media.tx ((p * 64 + n % 64) * 32 + i)
      setOut s p i (n32 (if e.count = n then topBits s p e.val.toNat else 0))) s
  else
    let und := (slots.filter (fun i => (txSlot s p n i).2)).length
    let t := slots.foldl (fun t i => setOut t p i (n32 (txSlot s p n i).1)) s
    if und = 0 then t else pulse (setRegF t (apStat p) 12 12 (Nat.min 4095 (regF t (apStat p) 12 12 + und))) (832 + 2 * p)
/-- The slots that go out touch neither the frames begun nor another register than AP_STAT. -/
theorem sentFrame_only (hp : P p) (s : State) (n : Nat) : FramesOnly P s (sentFrame s p n) ∧ begunOf (sentFrame s p n) p = begunOf s p := by
  have hslots (f : State → Nat → State) (hf : ∀ s i, ∃ q x, f s i = setOut s p q x) (xs : List Nat) (s : State) :
      FramesOnly P s (xs.foldl f s) ∧ begunOf (xs.foldl f s) p = begunOf s p := by
    induction xs generalizing s with
    | nil => exact ⟨.refl P s, rfl⟩
    | cons i r ih =>
      obtain ⟨q, x, hq⟩ := hf s i
      obtain ⟨h1, h2⟩ := ih (f s i)
      rw [hq] at h1 h2
      rw [List.foldl_cons, hq]
      exact ⟨(framesOnly_setOut s p q x).trans h1, h2⟩
  unfold sentFrame
  extract_lets slots und tx
  split
  · split
    · exact ⟨.refl P s, rfl⟩
    · exact hslots _ (fun _ i => ⟨i, _, rfl⟩) _ _
  · obtain ⟨h1, h2⟩ := hslots (fun t i => setOut t p i (n32 (txSlot s p n i).1)) (fun _ i => ⟨i, _, rfl⟩) slots s
    change FramesOnly P s tx at h1
    change begunOf tx p = _ at h2
    clear_value tx und
    split
    · exact ⟨h1, h2⟩
    · have hpulse := sourceOnly_pulse (setRegF tx (apStat p) 12 12 (Nat.min 4095 (regF tx (apStat p) 12 12 + und))) (832 + 2 * p)
      refine ⟨(h1.trans (framesOnly_setRegF hp _ _ _ _)).trans hpulse.framesOnly, .trans ?_ h2⟩
      unfold begunOf
      rw [hpulse.media, setRegF_media]
/-- A frame that begins stands among the frames begun. -/
theorem beginFrame_spec (hp : P p) (s : State) (n : Nat) : FramesOnly P s (beginFrame s p n) ∧ n ∈ begunOf (beginFrame s p n) p := by
  unfold beginFrame
  extract_lets numbered joined media synced slots und tx
  have h1 : FramesOnly P s numbered := framesOnly_setRegB hp s 31 true
  clear_value numbered
  have h2 : FramesOnly P numbered joined ∧ n ∈ begunOf joined p := ⟨framesOnly_setBegun hp numbered _, mem_joinFrame numbered p n⟩
  clear_value joined
  have h3 : FramesOnly P joined synced ∧ begunOf synced p = begunOf joined p := ⟨framesOnly_withSync joined p (n + 1), begunOf_withSync joined p (n + 1) p⟩
  clear_value synced
  obtain ⟨h4, h5⟩ := sentFrame_only hp synced n
  refine ⟨h1.trans (h2.1.trans (h3.1.trans h4)), ?_⟩
  show n ∈ begunOf (sentFrame synced p n) p
  rw [h5, h3.2]
  exact h2.2

/-! ### The ports of a clock at its edge -/

theorem portEdge_only (s : State) (k n p : Nat) : FramesOnly (· = p) s (portEdge s k n p) := by
  unfold portEdge
  split
  · exact .refl _ s
  · split
    · exact (beginFrame_spec (P := (· = p)) rfl s n).1
    · split
      · exact framesOnly_setRx _ _ _ _
      · exact .refl _ s
theorem apCtl_ne_apStat (p q : Nat) : apCtl p ≠ apStat q := by unfold apCtl apStat apBase; omega
theorem apCtl_ne_icScnt (p n : Nat) : apCtl p ≠ icScnt n := by unfold apCtl apBase icScnt icBase; omega
theorem FramesOnly.apCtl (h : FramesOnly P s t) (q : Nat) : reg t (apCtl q) = reg s (apCtl q) :=
  h.regs _ (fun p _ => apCtl_ne_apStat q p) (apCtl_ne_icScnt q)
/-- The port is an enabled master of the clock. -/
def mastersOf (s : State) (k p : Nat) : Bool := apOn s p && apMaster s p && decide (apMc s p = k)
theorem mastersOf_congr (hv : t.variant = s.variant) (h : reg t (apCtl p) = reg s (apCtl p)) : mastersOf t k p = mastersOf s k p := by
  unfold mastersOf apOn apMaster apMc regB regF
  rw [h, hv]
theorem FramesOnly.variant (h : FramesOnly P s t) : t.variant = s.variant := by rw [h.rest]
/-- A master begins its frame; a frame that another port has begun stays. -/
theorem mem_portEdge (s : State) (k n p q : Nat) (h : p = q ∧ mastersOf s k q = true ∨ n ∈ begunOf s q) : n ∈ begunOf (portEdge s k n p) q := by
  by_cases hpq : q = p
  · subst hpq
    unfold portEdge
    split
    next hoff =>
      refine h.resolve_left fun hm => ?_
      obtain ⟨-, hm⟩ := hm
      unfold mastersOf at hm
      simp_all
    next =>
      split
      · exact (beginFrame_spec (P := (· = q)) rfl s n).2
      next hslave =>
        have hin : n ∈ begunOf s q := h.resolve_left fun hm => hslave (by
          obtain ⟨-, hm⟩ := hm
          unfold mastersOf at hm
          simp_all)
        split
        · exact hin
        · exact hin
  · rw [(portEdge_only s k n p).begun q hpq]
    exact h.resolve_left fun hm => hpq hm.1.symm
/-- Every enabled master of the clock among the ports begins the frame of the edge. -/
theorem mem_portEdges (k n : Nat) (q : Nat) (ps : List Nat) (s : State) (h : q ∈ ps ∧ mastersOf s k q = true ∨ n ∈ begunOf s q) :
    n ∈ begunOf (ps.foldl (fun s p => portEdge s k n p) s) q := by
  induction ps generalizing s with
  | nil => exact h.resolve_left fun hm => nomatch hm.1
  | cons p r ih =>
    have hf := portEdge_only s k n p
    refine ih _ ?_
    rw [mastersOf_congr hf.variant (hf.apCtl q)]
    obtain ⟨hq, hm⟩ | hin := h
    · obtain rfl | hr := List.mem_cons.mp hq
      · exact .inr (mem_portEdge s k n q q (.inl ⟨rfl, hm⟩))
      · exact .inl ⟨hr, hm⟩
    · exact .inr (mem_portEdge s k n p q (.inr hin))
theorem portEdges_only (k n : Nat) (ps : List Nat) (s : State) : FramesOnly (fun _ => True) s (ps.foldl (fun s p => portEdge s k n p) s) :=
  .foldl _ (fun s p => (portEdge_only s k n p).mono fun _ _ => trivial) ps s

/-! ### The carts that an edge releases (R244) -/

/-- Between the states only what the dispatchers keep of their carts, and the periods lost in a dip, differ. -/
structure JobsOnly (s t : State) : Prop where
  rest : t = { s with carts := t.carts, bb := t.bb }

theorem JobsOnly.refl (s : State) : JobsOnly s s := ⟨rfl⟩
theorem JobsOnly.trans (h : JobsOnly s t) (g : JobsOnly t u) : JobsOnly s u := ⟨by rw [g.rest, h.rest]⟩
theorem JobsOnly.foldl {α : Type} (f : State → α → State) (h : ∀ s a, JobsOnly s (f s a)) (xs : List α) (s : State) : JobsOnly s (xs.foldl f s) := by
  induction xs generalizing s with
  | nil => exact .refl s
  | cons a r ih => exact (h s a).trans (ih (f s a))
theorem GraphOnly.jobsOnly (h : GraphOnly s t) : JobsOnly s t := ⟨by unfold GraphOnly at h; rw [h]⟩
theorem jobsOnly_cartCount (s : State) (v i : Nat) : JobsOnly s (cartCount s v i) := ⟨rfl⟩
theorem jobsOnly_lostPeriod (s : State) (v k : Nat) : JobsOnly s (lostPeriod s v k) := ⟨rfl⟩
theorem jobsOnly_setLive (s : State) (v : Nat) (b : Bool) : JobsOnly s (setLive s v b) := ⟨rfl⟩
theorem jobsOnly_enqueue (s : State) (n : Nat) (j : Job) : JobsOnly s (enqueue s n j) := ⟨rfl⟩
theorem jobsOnly_releaseCart (s : State) (v k rel : Nat) (plost : Bool) : JobsOnly s (releaseCart s v k rel plost) := by
  unfold releaseCart
  split
  · split
    · extract_lets skipped
      have hlost : JobsOnly s skipped := (jobsOnly_cartCount s v 5).trans (jobsOnly_lostPeriod _ v k)
      clear_value skipped
      split
      · exact hlost
      · exact hlost.trans (graphOnly_notifySucc _ _ _ _).jobsOnly
    · split
      · split
        · exact .refl s
        · exact (graphOnly_notifySucc _ _ _ _).jobsOnly
      · extract_lets live carts queued
        have hlive : JobsOnly s live := (jobsOnly_cartCount s v 0).trans (jobsOnly_setLive _ v true)
        clear_value live
        have hqueued : JobsOnly live queued := by
          show JobsOnly live (if _ then _ else _)
          split
          · exact ⟨rfl⟩
          · exact .refl live
        exact (hlive.trans hqueued).trans (jobsOnly_enqueue _ _ _)
  · exact .refl s
theorem jobsOnly_mediaRelease (s : State) (k n : Nat) : JobsOnly s (mediaRelease s k n) := by
  have hroot (s : State) (v : Nat) : JobsOnly s (mediaRoot s k n v) := by
    unfold mediaRoot
    split
    · exact .refl s
    · split
      · exact .refl s
      · split
        · exact jobsOnly_releaseCart _ _ _ _ _
        · exact .trans (t := { s with carts := { s.carts with heldRel := tput 0 s.carts.heldRel v (n + 1) } }) ⟨rfl⟩ (jobsOnly_cartCount _ _ _)
  unfold mediaRelease
  split
  · split
    · exact .foldl _ hroot _ _
    · exact .refl s
  · exact .refl s

/-! ### SAMPLE_EDGE -/

theorem clk_setClk_same (s : State) (k : Nat) (c : MediaClock) : clk (setClk s k c) k = c := tget_tput_same ..
theorem clk_setClk_other (s : State) {k j : Nat} (c : MediaClock) (h : j ≠ k) : clk (setClk s k c) j = clk s j := tget_tput_other _ _ _ h
theorem setClk_frame (s : State) (k : Nat) (c : MediaClock) : setClk s k c = { s with media := (setClk s k c).media } := rfl
theorem clk_congr (h : t.media.clocks = s.media.clocks) (j : Nat) : clk t j = clk s j := by unfold clk; rw [h]
theorem FramesOnly.clk (h : FramesOnly P s t) (j : Nat) : clk t j = clk s j := clk_congr (by rw [h.media]) j
theorem mcStat_ne_apStat (k p : Nat) : mcStat k ≠ apStat p := by unfold mcStat clkBase apStat apBase; omega
theorem FramesOnly.mcStat (h : FramesOnly P s t) (k lo w : Nat) : regF t (mcStat k) lo w = regF s (mcStat k) lo w := by
  unfold regF
  rw [h.regs _ (fun p _ => mcStat_ne_apStat k p) (mcStat_ne_icScnt k)]

theorem mcStat_ne_apCtl (k p : Nat) : apCtl p ≠ mcStat k := by unfold mcStat clkBase apCtl apBase; omega
theorem reg_apCtl_of_stat {ns : List Nat} (h : OnlyRegsAndSources [mcStat k] ns s t) (p : Nat) : reg t (apCtl p) = reg s (apCtl p) := by
  refine h.2.1 _ (by simpa using mcStat_ne_apCtl k p) fun hm => ?_
  obtain ⟨x, _, hx⟩ := List.mem_map.mp hm
  exact apCtl_ne_icScnt p x hx.symm

/-- What a sample edge that comes leaves. -/
structure EdgeCame (s t : State) (k n : Nat) : Prop where
  count : (clk t k).count = n
  edge : (clk t k).edge = s.now + 1
  armed : (clk t k).armed = false
  grid : onGrid s k = true → (clk t k).mt = n * 256000000000 / clockHz s k % 2 ^ 64
  kept : tget { count := 0, mt := 0 } t.media.edges (4096 * k + n % 4096) = { count := n, mt := (clk t k).mt }
  others : ∀ j, j ≠ k → clk t j = clk s j
  state : mcState t k = mcState s k
  masters : ∀ p, mastersOf s k p = true → n ∈ begunOf t p
  data : t.mem.data = s.mem.data
  net : t.net = s.net

theorem edgeOp_comes (hon : mcState s k ≠ 0) (htime : edgeTooSoon s k = false) :
    EdgeCame s (edgeOp s k) k (if (clk s k).armed then (clk s k).count else ((clk s k).count + 1) % 2 ^ 64) := by
  unfold edgeOp
  have hcond : ¬ (decide (mcState s k = 0) || edgeTooSoon s k) = true := by rw [htime]; simpa using hon
  rw [if_neg hcond]
  extract_lets c n mt clamped counted media kept framed
  have hmt : onGrid s k = true → mt = n * 256000000000 / clockHz s k % 2 ^ 64 := fun hg => if_pos hg
  have h1 : OnlyRegsAndSources [mcStat k] [904 + k] s clamped := setClamp_only s k _
  have hst : mcState clamped k = mcState s k := mcStat_setClamp s k _ (.inr (by decide)) (by decide)
  clear_value clamped
  have h2 : clk counted k = { c with count := n, mt := mt, edge := clamped.now + 1, armed := false } := clk_setClk_same ..
  have h2j : ∀ j, j ≠ k → clk counted j = clk clamped j := fun j hj => clk_setClk_other _ _ hj
  have h2f : counted = { clamped with media := counted.media } := setClk_frame _ _ _
  clear_value counted
  have h3 : kept = { counted with media := kept.media } := rfl
  have h3c : kept.media.clocks = counted.media.clocks := rfl
  have h3e : tget { count := 0, mt := 0 } kept.media.edges (4096 * k + n % 4096) = { count := n, mt := mt } := tget_tput_same ..
  clear_value kept
  have h4 : FramesOnly (fun _ => True) kept framed := portEdges_only k n _ kept
  have h4m : ∀ q, mastersOf kept k q = true → n ∈ begunOf framed q := fun q hq => mem_portEdges k n q _ kept (.inl ⟨List.mem_range.mpr (by
    unfold mastersOf apOn at hq
    simp only [Bool.and_eq_true, decide_eq_true_eq] at hq
    exact hq.1.1.1), hq⟩)
  clear_value framed
  have h5 := jobsOnly_mediaRelease framed k n
  generalize mediaRelease framed k n = t at h5
  have hmedia : t.media = framed.media := by rw [h5.rest]
  have hclk (j : Nat) : clk t j = clk counted j := by rw [clk_congr (congrArg Media.clocks hmedia), h4.clk, clk_congr h3c]
  have hregs (a : Nat) : reg kept a = reg clamped a := reg_congr (by rw [h3, h2f]) (by rw [h3, h2f]) a
  have hvar : kept.variant = s.variant := by rw [h3, h2f, h1.1]
  refine ⟨by rw [hclk, h2], ?_, by rw [hclk, h2], fun hg => by rw [hclk, h2]; exact hmt hg, ?_, fun j hj => ?_, ?_, fun p hp => ?_, ?_, ?_⟩
  · rw [hclk, h2, h1.1]
  · rw [hmedia, hclk, h2, h4.media]
    exact h3e
  · rw [hclk, h2j j hj, onlyRegsAndSources_clk h1]
  · have h6 : mcState t k = mcState framed k := regF_congr (by rw [h5.rest]) (by rw [h5.rest]) _ _ _
    have h7 : mcState framed k = mcState kept k := h4.mcStat k 30 2
    have h8 : mcState kept k = mcState clamped k := by unfold mcState regF; rw [hregs]
    rw [h6, h7, h8, hst]
  · have hm := h4m p (by rw [mastersOf_congr hvar ((hregs _).trans (reg_apCtl_of_stat h1 p)), hp])
    unfold begunOf at hm ⊢
    rwa [hmedia]
  · rw [h5.rest, h4.rest, h3, h2f, h1.1]
  · rw [h5.rest, h4.rest, h3, h2f, h1.1]

theorem aSampleEdgeCounts : Clause.ASampleEdgeCounts := by
  intro s k hk
  have hexec : exec (.sampleEdge k) s = .next (edgeOp s k) := act_wf (decide_eq_true hk)
  refine ⟨fun hon htime => ?_, fun h => ?_⟩
  · intro n
    have h := edgeOp_comes hon htime
    exact ⟨_, hexec, h.count, h.edge, h.armed, h.grid, h.kept, h.others, h.state, fun p h1 h2 h3 => h.masters p (by
      unfold mastersOf; rw [h1, h2, decide_eq_true h3]; rfl), h.data, h.net⟩
  · rw [hexec]
    unfold edgeOp
    rw [if_pos (by simpa using h)]

/-! ### A clock starts (R346, R348) -/

/-- Between the states only stream contexts and the bases of timers differ. -/
structure BasesOnly (s t : State) : Prop where
  rest : t = { s with net := { s.net with ctx := t.net.ctx }, timers := t.timers }
theorem BasesOnly.trans (h : BasesOnly s t) (g : BasesOnly t u) : BasesOnly s u := ⟨by rw [g.rest, h.rest]⟩
theorem BasesOnly.foldl {α : Type} (f : State → α → State) (h : ∀ s a, BasesOnly s (f s a)) (xs : List α) (s : State) : BasesOnly s (xs.foldl f s) := by
  induction xs generalizing s with
  | nil => exact ⟨rfl⟩
  | cons a r ih => exact (h s a).trans (ih (f s a))

/-- What a clock's time is taken on stands in CLK_MCCTL, in the device time and in the gPTP domains. -/
theorem clkTime_congr (hc : reg t (mcCtl k) = reg s (mcCtl k)) (hd : t.dtime = s.dtime) (hp : t.net.ptp = s.net.ptp) : clkTime t k = clkTime s k := by
  have hs : mcSrc t k = mcSrc s k := by unfold mcSrc regF; rw [hc]
  have hdom (d : Nat) : domTime t d = domTime s d := by unfold domTime ptpOf; rw [hd, hp]
  unfold clkTime
  rw [hs, hdom, hdom, hd]
theorem clockHz_congr (hc : reg t (mcCtl k) = reg s (mcCtl k)) : clockHz t k = clockHz s k := by unfold clockHz regF; rw [hc]
theorem mcSrc_congr (hc : reg t (mcCtl k) = reg s (mcCtl k)) : mcSrc t k = mcSrc s k := by unfold mcSrc regF; rw [hc]
theorem mcOn_congr (hc : reg t (mcCtl k) = reg s (mcCtl k)) : mcOn t k = mcOn s k := by unfold mcOn regB; rw [hc]

/-- What a clock that starts leaves. -/
structure ClockStarted (s t : State) (k : Nat) : Prop where
  ctl : reg t (mcCtl k) = reg s (mcCtl k)
  state : mcState t k = if mcSrc t k = 0 then 2 else 1
  held : regF t (mcStat k) 0 16 = 0
  edge : (clk t k).edge = 0
  count : (clk t k).count = if mcSrc t k = 1 ∨ mcSrc t k = 2 then clkTime t k * clockHz t k / 10 ^ 9 + 1 else 0
  others : ∀ j, j ≠ k → clk t j = clk s j
  mem : t.mem = s.mem
  coaches : t.coaches = s.coaches

theorem clockStarted_mcStart (s : State) (k : Nat) : ClockStarted s (mcStart s k) k := by
  unfold mcStart
  extract_lets g counted held told based
  have h1 : clk counted k = { count := if g then gridNext s k else 0, mt := 256 * clkTime s k % 2 ^ 64, edge := 0, armed := g, steadySince := s.now } :=
    clk_setClk_same ..
  have h1j : ∀ j, j ≠ k → clk counted j = clk s j := fun j hj => clk_setClk_other _ _ hj
  have h1f : counted = { s with media := counted.media } := setClk_frame _ _ _
  clear_value counted
  have h2 : OnlyRegs [mcStat k] counted held := onlyRegs_setRegF _ _ _ _ _
  have h2h : regF held (mcStat k) 0 16 = 0 := regF_setRegF_same _ _ _ _ _ (by decide)
  clear_value held
  have h3 : BasesOnly held told := .foldl _ (fun s x => by
    dsimp only
    split
    · exact ⟨rfl⟩
    · exact ⟨rfl⟩) _ _
  clear_value told
  have h4 : BasesOnly told based := .foldl _ (fun s x => by
    dsimp only
    split
    · exact ⟨rfl⟩
    · exact ⟨rfl⟩) _ _
  clear_value based
  have hb : based = { held with net := { held.net with ctx := based.net.ctx }, timers := based.timers } := (h3.trans h4).rest
  clear h3 h4
  have hsrc : (if mcSrc based k = 0 then 2 else 1) < 4 := by split <;> decide
  have hset := setMcState_only based k (if mcSrc based k = 0 then 2 else 1)
  have hstate := mcState_setMcState based k hsrc
  have hheld := mcStat_setMcState based k (if mcSrc based k = 0 then 2 else 1) (lo := 0) (w := 16) (by decide)
  generalize setMcState based k (if mcSrc based k = 0 then 2 else 1) = t at hset hstate hheld ⊢
  have hregb (a : Nat) : reg based a = reg held a := reg_congr (by rw [hb]) (by rw [hb]) a
  have hctl : reg t (mcCtl k) = reg s (mcCtl k) := by
    rw [reg_mcCtl_of_stat hset, hregb, h2.2 _ (by simpa using mcCtl_ne_mcStat k k)]
    exact reg_congr (by rw [h1f]) (by rw [h1f]) _
  have hctlb : reg t (mcCtl k) = reg based (mcCtl k) := reg_mcCtl_of_stat hset k
  have hclk (j : Nat) : clk t j = clk counted j := (onlyRegsAndSources_clk hset j).trans (clk_congr (by rw [hb, h2.1]) j)
  have htime : clkTime t k = clkTime s k := clkTime_congr hctl (by rw [hset.1, hb, h2.1, h1f]) (by rw [hset.1]; dsimp only; rw [hb]; dsimp only; rw [h2.1, h1f])
  refine ⟨hctl, ?_, ?_, ?_, ?_, fun j hj => ?_, ?_, ?_⟩
  · rw [hstate, mcSrc_congr hctlb]
  · rw [hheld]
    unfold regF
    rw [hregb]
    exact h2h
  · rw [hclk, h1]
  · rw [hclk, h1, htime, mcSrc_congr hctl, clockHz_congr hctl]
    by_cases hg : mcSrc s k = 1 ∨ mcSrc s k = 2
    · exact (if_pos (by simpa [g] using hg)).trans (if_pos hg).symm
    · exact (if_neg (by simpa [g] using hg)).trans (if_neg hg).symm
  · rw [hclk, h1j j hj]
  · rw [hset.1, hb, h2.1, h1f]
  · rw [hset.1, hb, h2.1, h1f]

theorem conflict_mcCtl (hk : k < 4) : conflict s (mcCtl k) = setRegB s (mcStat k) 28 true :=
  conflict_spec (i := mcCtlInfo k) (regInfo_mcCtl hk s.variant) (plainConflict_mcCtl hk)

theorem mediaClocksStartAndStop : Clause.MediaClocksStartAndStop := by
  intro s m k v hm hk hown
  have hwf : (masterOk m && decide (k < 4)) = true := by rw [hm, decide_eq_true hk]; rfl
  obtain ⟨hst, hston⟩ := storePlain_mcCtl (v := v) hk hown
  refine ⟨fun hoff hv hpin => ?_, fun hon hv hsame => ⟨fun hnamed => ?_, fun hnamed => ?_⟩⟩
  · have hexec : exec (.mediaClockEnable m k v) s = .next (if rbit v 31 then mcStore s m k v else s) := act_wf hwf
    have hop : mcStore s m k v = mcStart (storePlain s m (mcCtl k) v) k := by
      unfold mcStore
      dsimp only
      rw [hown, show rbit (reg s (mcCtl k)) 31 = false from hoff, hpin, show rbit (reg (storePlain s m (mcCtl k) v) (mcCtl k)) 31 = true from hston.trans hv]
      rfl
    rw [if_pos hv, hop] at hexec
    have h := clockStarted_mcStart (storePlain s m (mcCtl k) v) k
    generalize mcStart (storePlain s m (mcCtl k) v) k = t at h hexec
    refine ⟨t, hexec, by rw [mcOn_congr h.ctl, hston, hv], h.state, h.held, h.edge, h.count, fun j hj => ?_, by rw [h.mem, hst.1], by rw [h.coaches, hst.1]⟩
    rw [h.others j hj]
    exact clk_congr (by rw [hst.1]) j
  · have hexec : exec (.mediaClockDisable m k v) s = .next (if mcOn s k && !rbit v 31 then mcStore s m k v else s) := act_wf hwf
    have hop : mcStore s m k v = setClamp (setMcState (storePlain s m (mcCtl k) v) k 0) k false := by
      unfold mcStore
      dsimp only
      rw [hown, show rbit (reg s (mcCtl k)) 31 = true from hon, hv, hnamed, hsame]
      rfl
    rw [if_pos (by rw [hon, hv]; rfl), hop] at hexec
    have h1 := setMcState_only (storePlain s m (mcCtl k) v) k 0
    have h1s := mcState_setMcState (storePlain s m (mcCtl k) v) k (st := 0) (by decide)
    have h2 := setClamp_only (setMcState (storePlain s m (mcCtl k) v) k 0) k false
    refine ⟨_, hexec, ?_, ?_, clamp_setClamp _ _ _, ?_⟩
    · rw [mcOn_congr (reg_mcCtl_of_stat h2 k), mcOn_congr (reg_mcCtl_of_stat h1 k), hston, hv]
    · exact (mcStat_setClamp _ _ _ (.inr (by decide)) (by decide)).trans h1s
    · exact onlyRegsAndSources_trans (onlyRegsAndSources_of_regs hst)
        (onlyRegsAndSources_mono (onlyRegsAndSources_trans h1 h2) (by simp) (by simp))
  · have hexec : exec (.mediaClockDisable m k v) s = .next (if mcOn s k && !rbit v 31 then mcStore s m k v else s) := act_wf hwf
    have hop : mcStore s m k v = setRegB s (mcStat k) 28 true := by
      rw [← conflict_mcCtl hk]
      unfold mcStore
      dsimp only
      rw [hown, show rbit (reg s (mcCtl k)) 31 = true from hon, hv, hnamed, hsame]
      rfl
    rw [if_pos (by rw [hon, hv]; rfl), hop] at hexec
    refine ⟨_, hexec, ?_, regB_setRegB_same _ _ _ _ (by decide), onlyRegs_setRegB _ _ _ _⟩
    rw [mcOn_congr (reg_setRegB_ne _ _ _ _ _ (mcCtl_ne_mcStat k k)), hon]

/-! ### References, and the read of a count (R346, R350) -/

theorem referenceLost_holds (hsrc : mcSrc s k ≠ 0) (hst : mcState s k = 1 ∨ mcState s k = 2) (t : State) (ht : refLost s k = t) :
    mcState t k = 3 ∧ regF t (mcStat k) 0 16 = incSat 16 (regF s (mcStat k) 0 16) ∧ regB t (mcStat k) 29 = false ∧
      OnlyRegsAndSources [mcStat k] [904 + k] s t := by
  have hcond : (decide (mcSrc s k ≠ 0) && (decide (mcState s k = 1) || decide (mcState s k = 2))) = true := by simp [hsrc, hst]
  unfold refLost at ht
  rw [if_pos hcond] at ht
  obtain ⟨counted, hc⟩ : ∃ u, u = setRegF s (mcStat k) 0 16 (incSat 16 (regF s (mcStat k) 0 16)) := ⟨_, rfl⟩
  have h1 : OnlyRegs [mcStat k] s counted := hc ▸ onlyRegs_setRegF _ _ _ _ _
  have h1c : regF counted (mcStat k) 0 16 = incSat 16 (regF s (mcStat k) 0 16) := by
    rw [hc, regF_setRegF_same _ _ _ _ _ (by decide)]
    exact Nat.mod_eq_of_lt (incSat_lt 16 _)
  rw [← hc] at ht
  subst ht
  refine ⟨?_, ?_, clamp_setClamp _ _ _, ?_⟩
  · exact (mcStat_setClamp _ _ _ (.inr (by decide)) (by decide)).trans (mcState_setMcState _ _ (by decide))
  · rw [mcStat_setClamp _ _ _ (.inl (by decide)) (by decide), mcStat_setMcState _ _ _ (by decide), h1c]
  · exact onlyRegsAndSources_trans (onlyRegsAndSources_of_regs h1) (onlyRegsAndSources_trans (setMcState_only _ _ _) (setClamp_only _ _ _))
theorem referenceReturn_acquires (hst : mcState s k = 3) (t : State) (ht : refReturn s k = t) :
    mcState t k = 1 ∧ clk t k = { clk s k with steadySince := s.now } ∧ t = { s with regs := t.regs, intc := t.intc, media := t.media } := by
  unfold refReturn at ht
  rw [if_pos hst] at ht
  have hc : clk (setClk s k { clk s k with steadySince := s.now }) k = { clk s k with steadySince := s.now } := clk_setClk_same ..
  have hf := setClk_frame s k { clk s k with steadySince := s.now }
  generalize setClk s k { clk s k with steadySince := s.now } = u at ht hc hf
  have h1 := setMcState_only u k 1
  have h2 := mcState_setMcState u k (st := 1) (by decide)
  rw [ht] at h1 h2
  exact ⟨h2, (onlyRegsAndSources_clk h1 k).trans hc, by rw [h1.1, hf]⟩

/-- The read of the low half of a media clock's count (R350). -/
theorem counterLoad_mcSc (s : State) (m : Nat) (hk : k < 4) : counterLoad s m (mcSc k) = some (latchRead s m (mcSc k) (clk s k).count) := by
  have hblock : mcSc k / 0x10000 = 0x0410 := by unfold mcSc clkBase; omega
  have hoff : mcSc k % 0x10000 = 0x1004 + 16 * k := by unfold mcSc clkBase; omega
  have hlow : mcSc k % 16 = 4 := by unfold mcSc clkBase; omega
  have hclock : (mcSc k - mcSc 0) / 16 = k := by unfold mcSc clkBase; omega
  have hcond : (decide (0x0410 = 0x0410) && decide (0x1000 ≤ 0x1004 + 16 * k) && decide (0x1004 + 16 * k < 0x1040) &&
      (decide ((0x1004 + 16 * k) % 16 = 4) || decide ((0x1004 + 16 * k) % 16 = 6))) = true := by
    simp
    omega
  have hload : mcscLoad s m (mcSc k) = latchRead s m (mcSc k) (clk s k).count := by
    unfold mcscLoad
    rw [if_pos hlow, hclock]
  unfold counterLoad
  rw [hblock, hoff]
  exact (if_pos hcond).trans (congrArg some hload)

theorem mediaClocksFollowTheirReference : Clause.MediaClocksFollowTheirReference := by
  intro s m k hm hk
  refine ⟨fun hsrc hst => ?_, fun hst => ?_, fun hst htime => ?_, ?_⟩
  · have hexec : exec (.referenceLost k) s = .next (refLost s k) := act_wf (decide_eq_true hk)
    exact ⟨_, hexec, referenceLost_holds hsrc hst _ rfl⟩
  · have hexec : exec (.referenceReturn k) s = .next (refReturn s k) := act_wf (decide_eq_true hk)
    exact ⟨_, hexec, referenceReturn_acquires hst _ rfl⟩
  · have hexec : exec (.lockAchieved k) s = .next (lockOp s k) := act_wf (decide_eq_true hk)
    have hlong : (clk s k).steadySince + lockTime s k ≤ s.now := htime
    have hop : lockOp s k = setMcState s k 2 := by
      unfold lockOp
      rw [if_pos (by rw [decide_eq_true hst, decide_eq_true hlong]; rfl)]
    rw [hop] at hexec
    exact ⟨_, hexec, mcState_setMcState s k (by decide), setMcState_only s k 2⟩
  · have hexec : exec (.countLatchRead m (mcSc k)) s = .next (latchOp s m (mcSc k)) := act_wf (by
      show (masterOk m && decide (mcSc k < 2 ^ 32)) = true
      rw [hm, decide_eq_true (by unfold mcSc clkBase; omega)]
      rfl)
    have hop : latchOp s m (mcSc k) = { setPerM s (mcSc k + 2) m (n32 ((clk s k).count / 2 ^ 32)) with answer := n32 (clk s k).count } := by
      unfold latchOp
      rw [if_neg (by unfold mcSc clkBase; omega), counterLoad_mcSc s m hk]
      rfl
    rw [hop] at hexec
    exact ⟨_, hexec, rfl, perM_setPerM_same .., rfl⟩

/-- Settles O44: edges, start and stop, and references, each by what the operation behind the command does. -/
theorem mediaClocks : Obligations.MediaClocks := ⟨aSampleEdgeCounts, mediaClocksStartAndStop, mediaClocksFollowTheirReference⟩

end Sys2Proof.Machine
end

section
/-! Audio ports (R351 to R358): frames, configuration, pins. -/
namespace Sys2Proof.Machine

variable {s t u : State} {a m n k p i : Nat} {v : W32} {P : Nat → Prop}

/-! ### AP_STAT while a frame begins -/

theorem apStat_ne_icScnt (p n : Nat) : apStat p ≠ icScnt n := by unfold apStat apBase icScnt icBase; omega

/-- Between the states only what goes out differs, and the UNDER count of AP_STAT (bits 12 to 23). -/
structure SentOnly (p : Nat) (s t : State) : Prop where
  media : t.media = { s.media with out := t.media.out }
  stat : ∀ j < 32, j < 12 ∨ 24 ≤ j → regB t (apStat p) j = regB s (apStat p) j

theorem SentOnly.trans (h : SentOnly p s t) (g : SentOnly p t u) : SentOnly p s u :=
  ⟨by rw [g.media, h.media], fun j hj hb => (g.stat j hj hb).trans (h.stat j hj hb)⟩
theorem sentOnly_setOuts (f : State → Nat → State) (hf : ∀ s i, ∃ q x, f s i = setOut s p q x) (xs : List Nat) (s : State) : SentOnly p s (xs.foldl f s) := by
  induction xs generalizing s with
  | nil => exact ⟨rfl, fun _ _ _ => rfl⟩
  | cons i r ih =>
    obtain ⟨q, x, hq⟩ := hf s i
    have h1 : SentOnly p s (f s i) := hq ▸ ⟨rfl, fun _ _ _ => rfl⟩
    exact h1.trans (ih (f s i))
theorem sentOnly_sentFrame (s : State) (p n : Nat) : SentOnly p s (sentFrame s p n) := by
  unfold sentFrame
  extract_lets slots und tx
  split
  · split
    · exact ⟨rfl, fun _ _ _ => rfl⟩
    · exact sentOnly_setOuts _ (fun _ i => ⟨i, _, rfl⟩) _ _
  · have h1 : SentOnly p s tx := sentOnly_setOuts _ (fun _ i => ⟨i, _, rfl⟩) _ _
    clear_value tx und
    split
    · exact h1
    · refine h1.trans ⟨?_, fun j hj hb => ?_⟩
      · rw [(sourceOnly_pulse _ _).media, setRegF_media]
      · rw [(sourceOnly_pulse _ _).regB _ _ (apStat_ne_icScnt p _), regB_setRegF _ _ _ _ _ _ hj]
        split
        · rfl
        · rw [if_neg (by omega)]
theorem withSync_fields (s : State) (p n : Nat) : withSync s p n = { s with media := (withSync s p n).media } ∧
    (withSync s p n).media = { s.media with lastSync := (withSync s p n).media.lastSync } := ⟨rfl, rfl⟩
theorem lastSync_withSync (s : State) (p n : Nat) : tget 0 (withSync s p n).media.lastSync p = n := tget_tput_same ..
theorem regB_setBegun (s : State) (p : Nat) (l : List Nat) (a j : Nat) : regB (setBegun s p l) a j = regB s a j := rfl
theorem regB_withSync (s : State) (p n a j : Nat) : regB (withSync s p n) a j = regB s a j := rfl
/-- A frame that begins sets SYNC and numbers the next; the slips counted stay. -/
theorem beginFrame_stat (s : State) (p n : Nat) : regB (beginFrame s p n) (apStat p) 31 = true ∧
    (∀ j < 12, regB (beginFrame s p n) (apStat p) j = regB s (apStat p) j) ∧ tget 0 (beginFrame s p n).media.lastSync p = n + 1 := by
  unfold beginFrame
  extract_lets numbered joined media synced slots und tx
  have h1 : regB numbered (apStat p) 31 = true ∧ ∀ j < 12, regB numbered (apStat p) j = regB s (apStat p) j :=
    ⟨regB_setRegB_same _ _ _ _ (by decide), fun j hj => regB_setRegB_other _ _ _ _ _ (by omega) (by omega)⟩
  clear_value numbered
  have h2 (j : Nat) : regB joined (apStat p) j = regB numbered (apStat p) j := regB_setBegun numbered p _ _ j
  clear_value joined
  have h3 : (∀ j, regB synced (apStat p) j = regB joined (apStat p) j) ∧ tget 0 synced.media.lastSync p = n + 1 :=
    ⟨regB_withSync joined p (n + 1) _, lastSync_withSync joined p (n + 1)⟩
  clear_value synced
  have h4 := sentOnly_sentFrame synced p n
  show regB (sentFrame synced p n) (apStat p) 31 = true ∧ (∀ j < 12, regB (sentFrame synced p n) (apStat p) j = regB s (apStat p) j) ∧
    tget 0 (sentFrame synced p n).media.lastSync p = n + 1
  refine ⟨?_, fun j hj => ?_, ?_⟩
  · rw [h4.stat 31 (by decide) (.inr (by decide)), h3.1, h2, h1.1]
  · rw [h4.stat j (by omega) (.inl hj), h3.1, h2, h1.2 j hj]
  · rw [h4.media]
    exact h3.2

/-! ### FRAME_SYNC (R353) -/

/-- A field is what its bits are. -/
theorem rfld_congr {x y : W32} {lo w : Nat} (h : ∀ i, lo ≤ i → i < lo + w → rbit x i = rbit y i) : rfld x lo w = rfld y lo w := by
  apply Nat.eq_of_testBit_eq
  intro i
  rw [testBit_rfld, testBit_rfld]
  by_cases hi : i < w
  · rw [h (lo + i) (by omega) (by omega)]
  · rw [decide_eq_false hi, Bool.false_and, Bool.false_and]

/-- The frame slips, and the count that it takes. -/
def frameSlips (s : State) (p : Nat) (far : Bool) (count : Nat) : Bool :=
  far || (decide (tget 0 s.media.lastSync p ≠ 0) && decide (count < tget 0 s.media.lastSync p))
def frameNumber (s : State) (p : Nat) (far : Bool) (count : Nat) : Nat :=
  if frameSlips s p far count then Nat.max count (tget 0 s.media.lastSync p - 1) + 1 else count

theorem media_markAbsents (p : Nat) (f : Nat → Nat) (xs : List Nat) (s : State) (a j : Nat) :
    regB (xs.foldl (fun s i => markAbsent s p (f i)) s) a j = regB s a j := by
  induction xs generalizing s with
  | nil => rfl
  | cons i r ih => exact (ih _).trans rfl

/-- What a frame sync that is taken leaves. -/
structure FrameSynced (s t : State) (p n slips : Nat) : Prop where
  sync : regB t (apStat p) 31 = true
  last : tget 0 t.media.lastSync p = n + 1
  begun : n ∈ begunOf t p
  slips : regF t (apStat p) 0 12 = slips

theorem frameSyncOp_taken {far : Bool} {count : Nat} (hon : apOn s p = true) (hslave : apMaster s p = false) (hclk : regB s (apStat p) 30 = false)
    (hmc : mcState s (apMc s p) ≠ 0) (hfit : syncFits s (apMc s p) far count = true) :
    FrameSynced s (frameSyncOp s p far count) p (frameNumber s p far count)
      (if frameSlips s p far count then incSat 12 (regF s (apStat p) 0 12) else regF s (apStat p) 0 12) := by
  have hcond : ¬ (!(apOn s p) || apMaster s p || regB s (apStat p) 30 || decide (mcState s (apMc s p) = 0) || !(syncFits s (apMc s p) far count)) = true := by
    rw [hon, hslave, hclk, decide_eq_false hmc, hfit]
    decide
  unfold frameSyncOp
  rw [if_neg hcond]
  extract_lets last used slip number from_ counted
  have hcounted : regF counted (apStat p) 0 12 = if slip then incSat 12 (regF s (apStat p) 0 12) else regF s (apStat p) 0 12 := by
    show regF (if slip then _ else s) (apStat p) 0 12 = _
    split
    · rw [(sourceOnly_pulse _ _).regF _ _ _ (apStat_ne_icScnt p _), regF_setRegF_same _ _ _ _ _ (by decide)]
      exact Nat.mod_eq_of_lt (incSat_lt 12 _)
    · rfl
  clear_value counted
  have hfold : ∀ a j, regB ((upto (number - from_)).foldl (fun s i => markAbsent s p (from_ + i)) counted) a j = regB counted a j :=
    fun a j => media_markAbsents p (from_ + ·) _ counted a j
  generalize (upto (number - from_)).foldl (fun s i => markAbsent s p (from_ + i)) counted = x at hfold ⊢
  obtain ⟨h1, h2, h3⟩ := beginFrame_stat x p number
  refine ⟨h1, h3, (beginFrame_spec (P := (· = p)) rfl x number).2, ?_⟩
  refine .trans (rfld_congr fun i _ hi => ?_) hcounted
  exact (h2 i (by omega)).trans (hfold _ _)

/-! ### Captured frames, and the loss of BCLK (R354, R355) -/

theorem tget_tclear_in {β : Type} (d : β) (tb : Table β) {lo hi j : Nat} (h : lo ≤ j ∧ j < hi) : tget d (tclear tb lo hi) j = d := by
  refine (tget_filter d tb (fun e => !(decide (lo ≤ e) && decide (e < hi))) j).trans (if_neg ?_)
  simp [h.1, h.2]

def withCap (s : State) (p n : Nat) : State := { s with media := { s.media with lastCap := tput 0 s.media.lastCap p n } }

theorem setBegun_frame (s : State) (p : Nat) (l : List Nat) : setBegun s p l = { s with media := (setBegun s p l).media } := rfl
theorem setRx_fields (s : State) (p n : Nat) (f : RxFrame) : setRx s p n f = { s with media := (setRx s p n f).media } ∧
    (setRx s p n f).media.begun = s.media.begun ∧
    tget { count := 0, absent := false, slots := [] } (setRx s p n f).media.rx (p * 64 + n % 64) = f := ⟨rfl, rfl, tget_tput_same ..⟩
theorem withCap_fields (s : State) (p n : Nat) : withCap s p n = { s with media := (withCap s p n).media } ∧
    (withCap s p n).media.begun = s.media.begun ∧ (withCap s p n).media.rx = s.media.rx ∧ tget 0 (withCap s p n).media.lastCap p = n :=
  ⟨rfl, rfl, rfl, tget_tput_same ..⟩

/-- The frame that a port has captured, by the slots that it receives. -/
def capturedFrame (s : State) (p n : Nat) (samples : List W32) : RxFrame :=
  { count := n, absent := false, slots := (upto (apSlots s p)).map (fun i => if regB s (apRxen p) i then n32 (topBits s p (samples.getD i 0).toNat) else 0) }
theorem capturedOp_eq {r : List Nat} (samples : List W32) (hon : apOn s p = true) (hb : begunOf s p = n :: r) :
    capturedOp s p samples = withCap (setRx (setBegun s p r) p n (capturedFrame s p n samples)) p (n + 1) := by
  unfold capturedOp
  rw [hb]
  dsimp only
  rw [if_pos hon]
  rfl
theorem capturedOp_stands {r : List Nat} (samples : List W32) (hon : apOn s p = true) (hb : begunOf s p = n :: r) (t : State) (ht : capturedOp s p samples = t) :
    begunOf t p = r ∧ tget 0 t.media.lastCap p = n + 1 ∧
      tget { count := 0, absent := false, slots := [] } t.media.rx (p * 64 + n % 64) = capturedFrame s p n samples ∧ t = { s with media := t.media } := by
  rw [capturedOp_eq samples hon hb] at ht
  have h1 := begunOf_setBegun s p r
  have h1f := setBegun_frame s p r
  generalize setBegun s p r = x at h1 h1f ht
  obtain ⟨h2f, h2b, h2r⟩ := setRx_fields x p n (capturedFrame s p n samples)
  generalize setRx x p n (capturedFrame s p n samples) = y at h2f h2b h2r ht
  obtain ⟨h3f, h3b, h3r, h3c⟩ := withCap_fields y p (n + 1)
  rw [ht] at h3f h3b h3r h3c
  refine ⟨?_, h3c, by rw [h3r, h2r], by rw [h3f, h2f, h1f]⟩
  rw [← h1]
  unfold begunOf
  rw [h3b, h2b]

theorem clearOut_fields (s : State) (p : Nat) : clearOut s p = { s with media := (clearOut s p).media } ∧ (clearOut s p).media.begun = s.media.begun ∧
    ∀ i < 32, tget 0 (clearOut s p).media.out (p * 32 + i) = 0 :=
  ⟨rfl, rfl, fun i hi => tget_tclear_in 0 s.media.out (lo := p * 32) (hi := p * 32 + 32) (j := p * 32 + i) (by omega)⟩
/-- What a port without BCLK, or one that stops, holds: no frame begun, and 0 in each slot. -/
structure PortSilent (t : State) (p : Nat) : Prop where
  begun : begunOf t p = []
  out : ∀ i < 32, tget 0 t.media.out (p * 32 + i) = 0
theorem PortSilent.congr (h : PortSilent s p) (hm : t.media = s.media) : PortSilent t p :=
  ⟨by unfold begunOf; rw [hm]; exact h.begun, by rw [hm]; exact h.out⟩
theorem portSilent_cleared (s : State) (p : Nat) : PortSilent (clearOut (setBegun s p []) p) p ∧
    clearOut (setBegun s p []) p = { s with media := (clearOut (setBegun s p []) p).media } := by
  have h1 := begunOf_setBegun s p []
  have h1f := setBegun_frame s p []
  generalize setBegun s p [] = x at h1 h1f
  obtain ⟨h2f, h2b, h2o⟩ := clearOut_fields x p
  exact ⟨⟨by unfold begunOf at h1 ⊢; rw [h2b]; exact h1, h2o⟩, by rw [h2f, h1f]⟩

theorem noclkOp_silences (hon : apOn s p = true) (hslave : apMaster s p = false) (hclk : regB s (apStat p) 30 = false) (t : State) (ht : noclkOp s p = t) :
    regB t (apStat p) 30 = true ∧ regB t (apStat p) 31 = false ∧ PortSilent t p ∧ srcSignal t (833 + 2 * p) = true := by
  unfold noclkOp at ht
  rw [if_pos (by rw [hon, hslave, hclk]; rfl)] at ht
  obtain ⟨h1, -⟩ := portSilent_cleared s p
  generalize clearOut (setBegun s p []) p = x at h1 ht
  obtain ⟨y, hy⟩ : ∃ y, y = setRegB (setRegB x (apStat p) 30 true) (apStat p) 31 false := ⟨_, rfl⟩
  have hy30 : regB y (apStat p) 30 = true := by
    rw [hy, regB_setRegB_other _ _ _ _ _ (by decide) (by decide), regB_setRegB_same _ _ _ _ (by decide)]
  have hy31 : regB y (apStat p) 31 = false := by rw [hy, regB_setRegB_same _ _ _ _ (by decide)]
  have hym : y.media = x.media := hy ▸ rfl
  rw [← hy] at ht
  have hl := sourceOnly_setLevel y (833 + 2 * p) true
  have hsig := srcSignal_setLevel y (833 + 2 * p) (833 + 2 * p) true
  rw [ht] at hl hsig
  exact ⟨(hl.regB _ _ (apStat_ne_icScnt p _)).trans hy30, (hl.regB _ _ (apStat_ne_icScnt p _)).trans hy31, h1.congr (hl.media.trans hym), hsig.trans (if_pos rfl)⟩
theorem bclkOp_returns (hclk : regB s (apStat p) 30 = true) (t : State) (ht : bclkOp s p = t) :
    regB t (apStat p) 30 = false ∧ srcSignal t (833 + 2 * p) = false ∧ OnlyRegsAndSources [apStat p] [833 + 2 * p] s t := by
  unfold bclkOp at ht
  rw [if_pos hclk] at ht
  have h1 : OnlyRegs [apStat p] s (setRegB s (apStat p) 30 false) := onlyRegs_setRegB _ _ _ _
  have h2 : regB (setRegB s (apStat p) 30 false) (apStat p) 30 = false := regB_setRegB_same _ _ _ _ (by decide)
  generalize setRegB s (apStat p) 30 false = y at h1 h2 ht
  have hl := sourceOnly_setLevel y (833 + 2 * p) false
  have hsig := srcSignal_setLevel y (833 + 2 * p) (833 + 2 * p) false
  rw [ht] at hl hsig
  exact ⟨(hl.regB _ _ (apStat_ne_icScnt p _)).trans h2, hsig.trans (if_pos rfl),
    onlyRegsAndSources_trans (onlyRegsAndSources_of_regs h1) (hl.regsAndSources (by simp))⟩

theorem portsFrameTheirSamples : Clause.PortsFrameTheirSamples := by
  intro s p n count r samples hp hon
  have hwf : decide (p < 32) = true := decide_eq_true hp
  refine ⟨fun hslave hclk hmc => ⟨fun hlast hfit => ?_, fun hfit => ?_⟩, fun hb => ?_, fun hslave hclk => ?_, fun hclk => ?_⟩
  · have hslip : frameSlips s p false count = false := by simp [frameSlips, hlast]
    have hnum : frameNumber s p false count = count := by unfold frameNumber; rw [hslip]; rfl
    have hexec : exec (.frameSync p false count) s = .next (frameSyncOp s p false count) := act_wf hwf
    have h := frameSyncOp_taken hon hslave hclk hmc hfit
    rw [hslip, hnum] at h
    exact ⟨_, hexec, h.sync, h.last, h.begun, h.slips⟩
  · have hslip : frameSlips s p true count = true := rfl
    have hnum : frameNumber s p true count = Nat.max count (tget 0 s.media.lastSync p - 1) + 1 := by unfold frameNumber; rw [hslip]; rfl
    have hexec : exec (.frameSync p true count) s = .next (frameSyncOp s p true count) := act_wf hwf
    have h := frameSyncOp_taken hon hslave hclk hmc hfit
    rw [hslip, hnum] at h
    exact ⟨_, hexec, h.sync, h.slips, h.last⟩
  · have hexec : exec (.frameCaptured p samples) s = .next (capturedOp s p samples) := act_wf hwf
    exact ⟨_, hexec, capturedOp_stands samples hon hb _ rfl⟩
  · have hexec : exec (.noclk p) s = .next (noclkOp s p) := act_wf hwf
    obtain ⟨h1, h2, h3, h4⟩ := noclkOp_silences hon hslave hclk _ rfl
    exact ⟨_, hexec, h1, h2, h3.begun, h3.out, h4⟩
  · have hexec : exec (.bclkReturn p) s = .next (bclkOp s p) := act_wf hwf
    exact ⟨_, hexec, bclkOp_returns hclk _ rfl⟩

/-! ### The pins (R351, R352, R356, R358) -/

theorem dataPlace_of_slot (s : State) (p i : Nat) (h : i < apFrameBits s p) :
    dataPlace s p (i + regF s (apFmt p) 20 1) = (i / apSlotBits s p, i % apSlotBits s p) := by
  have hi : (i + regF s (apFmt p) 20 1 + apFrameBits s p - regF s (apFmt p) 20 1) % apFrameBits s p = i := by
    rw [show i + regF s (apFmt p) 20 1 + apFrameBits s p - regF s (apFmt p) 20 1 = i + apFrameBits s p by omega, Nat.add_mod_right, Nat.mod_eq_of_lt h]
  unfold dataPlace
  dsimp only
  rw [hi]

theorem pinsCarryFrames : Clause.PinsCarryFrames := by
  intro s p k
  refine ⟨fun hs => ?_, fun hm hoff => ?_, fun hm hon => ?_, ?_, fun hoff => ?_⟩
  · simp [bclkPin, fsPin, hs]
  · simp [bclkPin, fsPin, hm, hoff]
  · simp [bclkPin, hm, hon, apFrameBits]
  · intro i slot b at_ idle hbits
    have hplace : dataPlace s p at_ = (slot, b) := dataPlace_of_slot s p i (Nat.mod_lt _ hbits)
    have hpin : doutPin s p at_ = if apOn s p && regB s (apTxen p) slot then Pin.level (slotBit s p slot b) else idle := by
      unfold doutPin
      rw [hplace]
      rfl
    refine ⟨fun h => ?_, fun hon htx => ⟨fun hb => ?_, fun hb => ?_⟩⟩
    · rw [hpin, if_neg (by obtain h | h := h <;> simp [h])]
    · rw [hpin, if_pos (by rw [hon, htx]; rfl), slotBit, decide_eq_true hb, Bool.true_and]
      rfl
    · rw [hpin, if_pos (by rw [hon, htx]; rfl), slotBit, decide_eq_false (by omega), Bool.false_and]
      rfl
  · simp [pdmClkPin, hoff]

/-! ### Configuration (R352, R356, R358) -/

def apInfo (p own : Nat) (rst : W32) : RegInfo :=
  { rw := 0, own := own, w1c := 0, rst := rst, claim := apClaim p, confAt := apStat p, confBit := 29, isClaim := false }
def pdmInfo (i : Nat) : RegInfo := { rw := 0, own := 0xF0000000, w1c := 0, rst := 0, claim := pdmClaim i, confAt := pdmStat, confBit := 8, isClaim := false }
def apFmtReset : W32 := n32 (2 ^ 30 + 7 * 2 ^ 25 + 2 * 2 ^ 23 + 2 ^ 21 + 2 ^ 20 + 2 ^ 18)

theorem regInfo_apCtl {w : Config.Variant} (hp : p < w.tdmPorts) : regInfo w (apCtl p) = some (apInfo p 0xF0000000 0) := by
  rw [show apCtl p = apBase p + 0 from (Nat.add_zero _).symm, regInfo_ap hp (by decide) (by decide), regAP]
  rfl
theorem regInfo_apFmt {w : Config.Variant} (hp : p < w.tdmPorts) : regInfo w (apFmt p) = some (apInfo p 0xFFFE0000 apFmtReset) := by
  rw [show apFmt p = apBase p + 2 from rfl, regInfo_ap hp (by decide) (by decide), regAP]
  rfl
theorem regInfo_pdmCtl (hi : i < 8) (w : Config.Variant) : regInfo w (pdmCtl i) = some (pdmInfo i) := by
  rw [show pdmCtl i = 0x04600000 + 2 * i by unfold pdmCtl pdmBase; omega, regInfo_pdm (by omega) (by omega), regPDM]
  simp only [show 2 * i < 0x10 by omega, if_true, show 2 * i / 2 = i by omega]
  rfl
theorem plainConflict_ap (hp : p < 32) (own : Nat) (rst : W32) : PlainConflict (apInfo p own rst) := by
  unfold PlainConflict apInfo apStat apBase memStat
  refine ⟨?_, ?_, ?_, ?_⟩ <;> dsimp only <;> omega
theorem plainConflict_pdm (i : Nat) : PlainConflict (pdmInfo i) := by
  unfold PlainConflict pdmInfo pdmStat pdmBase memStat
  refine ⟨?_, ?_, ?_, ?_⟩ <;> dsimp only <;> omega
theorem tdmPorts_le (w : Config.Variant) : w.tdmPorts ≤ 32 := by cases w <;> decide

/-- AP_CTL and AP_PDM_CTL have no reserved values. -/
theorem sysReserved_apCtl (hp : p < 32) (w : Nat) : sysReserved s (apCtl p) w = [] := by
  have hblock : apCtl p / 0x10000 % 256 = 0x40 + p := by unfold apCtl apBase; omega
  have hoff : apCtl p % 0x10000 = 0 := by unfold apCtl apBase; omega
  unfold sysReserved
  rw [hblock, hoff]
  simp [show ¬ 0x40 + p < 8 by omega, show ∀ j < 0x40, ¬ 0x40 + p = j by omega, show ¬ 0x40 + p < 0x34 by omega, show ¬ 0x40 + p < 0x30 by omega,
    show ¬ 0x70 ≤ 0x40 + p by omega]
theorem sysReserved_pdmCtl (hi : i < 8) (w : Nat) : sysReserved s (pdmCtl i) w = [] := by
  have hblock : pdmCtl i / 0x10000 % 256 = 0x60 := by unfold pdmCtl pdmBase; omega
  generalize pdmCtl i = a at hblock
  unfold sysReserved
  simp [hblock]

/-- The holder's store that offers no reserved value writes its register alone. -/
theorem storePlain_owned {i : RegInfo} (hi : regInfo s.variant a = some i) (hown : ownsClaim s i.claim m = true) (hres : sysReserved s a v.toNat = []) :
    storePlain s m a v = setReg s a (storeVal s m a v i).1 :=
  storePlain_of_no_conflict hi (storeConflicts_owned hown hres)
/-- It leaves the OWN bits as offered and the others as they were. -/
theorem rbit_storeVal_plain {i : RegInfo} (hown : ownsClaim s i.claim m = true) (hrw : i.rw = 0) (hmask : i.own < 2 ^ 32) (hw1c : i.w1c = 0)
    (hres : sysReserved s a v.toNat = []) {j : Nat} (hj : j < 32) :
    rbit (storeVal s m a v i).1 j = if i.own.testBit j then rbit v j else rbit (reg s a) j := by
  have hm : storeMask s m i = i.own := by rw [storeMask_owned hown, hrw, Nat.zero_or]
  rw [rbit_storeVal (hm ▸ hmask) hj, hm, hw1c, Nat.zero_testBit, Bool.and_false, Bool.not_false, Bool.and_true, storeWord_of_no_reserved hres, rbit_eq v]
theorem storePlain_apCtl (hp : p < s.variant.tdmPorts) (hown : ownsClaim s (apClaim p) m = true) :
    OnlyRegs [apCtl p] s (storePlain s m (apCtl p) v) ∧ (∀ j < 32, 28 ≤ j → regB (storePlain s m (apCtl p) v) (apCtl p) j = rbit v j) := by
  have hle := tdmPorts_le s.variant
  have hres := sysReserved_apCtl (s := s) (p := p) (by omega) v.toNat
  rw [storePlain_owned (i := apInfo p 0xF0000000 0) (regInfo_apCtl hp) hown hres]
  refine ⟨onlyRegs_setReg _ _ _, fun j hj hlo => ?_⟩
  have hbit : (0xF0000000 : Nat).testBit j = true := (by decide : ∀ j < 32, 28 ≤ j → (0xF0000000 : Nat).testBit j = true) j hj hlo
  unfold regB
  rw [reg_setReg_same, rbit_storeVal_plain (i := apInfo p 0xF0000000 0) hown rfl (by show (0xF0000000 : Nat) < 2 ^ 32; decide) rfl hres hj]
  exact if_pos hbit
theorem apOff_of_not_on (hp : p < s.variant.tdmPorts) (h : apOn s p = false) : regB s (apCtl p) 31 = false := by
  unfold apOn at h
  rwa [decide_eq_true hp, Bool.true_and] at h
theorem apOn_eq (hp : p < s.variant.tdmPorts) : apOn s p = regB s (apCtl p) 31 := by unfold apOn; rw [decide_eq_true hp, Bool.true_and]

theorem portEnable_holds (hp : p < s.variant.tdmPorts) (hown : ownsClaim s (apClaim p) m = true) (hoff : apOn s p = false) (hv : rbit v 31 = true)
    (hdom : domOn s (132 + p / 4) = true) (t : State) (ht : apCtlStore s m p v = t) :
    apOn t p = true ∧ regF t (apCtl p) 28 3 = rfld v 28 3 ∧ OnlyRegs [apCtl p] s t := by
  unfold apCtlStore at ht
  dsimp only at ht
  rw [hown, show rbit (reg s (apCtl p)) 31 = false from apOff_of_not_on hp hoff, hv, hdom] at ht
  simp only [Bool.not_true, Bool.false_eq_true, if_false, if_true, Bool.and_false] at ht
  obtain ⟨h1, h2⟩ := storePlain_apCtl (v := v) hp hown
  rw [ht] at h1 h2
  refine ⟨?_, rfld_congr fun j hlo hj => h2 j (by omega) hlo, h1⟩
  rw [apOn_eq (by rw [h1.1]; exact hp), h2 31 (by decide) (by decide), hv]
theorem portDisable_silences (hp : p < s.variant.tdmPorts) (hown : ownsClaim s (apClaim p) m = true) (hon : apOn s p = true) (hv : rbit v 31 = false)
    (hsame : (reg s (apCtl p) ^^^ v) &&& 0x70000000 = 0) (hnamed : apNamed s p = false) (t : State) (ht : apCtlStore s m p v = t) :
    apOn t p = false ∧ regF t (apStat p) 30 2 = 0 ∧ PortSilent t p ∧ srcSignal t (833 + 2 * p) = false := by
  unfold apCtlStore at ht
  dsimp only at ht
  rw [hown, show rbit (reg s (apCtl p)) 31 = true from (apOn_eq hp).symm.trans hon, hv, hsame, hnamed] at ht
  simp only [Bool.not_true, Bool.false_eq_true, if_false, if_true, ne_eq, not_true_eq_false] at ht
  obtain ⟨h1, h2⟩ := storePlain_apCtl (v := v) hp hown
  generalize storePlain s m (apCtl p) v = w at h1 h2 ht
  obtain ⟨h3, h3f⟩ := portSilent_cleared w p
  generalize clearOut (setBegun w p []) p = x at h3 h3f ht
  obtain ⟨h4f, h4m⟩ := withSync_fields x p 0
  have h4 : PortSilent (withSync x p 0) p := ⟨(begunOf_withSync x p 0 p).trans h3.begun, by rw [h4m]; exact h3.out⟩
  have h4c : regB (withSync x p 0) (apCtl p) 31 = regB w (apCtl p) 31 := by rw [regB_withSync]; exact regB_congr (by rw [h3f]) (by rw [h3f]) _ _
  have h4v : (withSync x p 0).variant = s.variant := by rw [h4f, h3f, h1.1]
  rw [show { x with media := { x.media with lastSync := tput 0 x.media.lastSync p 0 } } = withSync x p 0 from rfl] at ht
  generalize withSync x p 0 = y at h4 h4c h4v ht
  have h5 : regF (setRegF y (apStat p) 30 2 0) (apStat p) 30 2 = 0 := regF_setRegF_same _ _ _ _ _ (by decide)
  have h5c : regB (setRegF y (apStat p) 30 2 0) (apCtl p) 31 = regB y (apCtl p) 31 := regB_setRegF_ne _ _ _ _ _ _ _ (apCtl_ne_apStat p p)
  have h5v : (setRegF y (apStat p) 30 2 0).variant = y.variant := setRegF_variant ..
  have h5m : (setRegF y (apStat p) 30 2 0).media = y.media := setRegF_media ..
  generalize setRegF y (apStat p) 30 2 0 = z at h5 h5c h5v h5m ht
  have hl := sourceOnly_setLevel z (833 + 2 * p) false
  have hsig := srcSignal_setLevel z (833 + 2 * p) (833 + 2 * p) false
  rw [ht] at hl hsig
  refine ⟨?_, (hl.regF _ _ _ (apStat_ne_icScnt p _)).trans h5, h4.congr (hl.media.trans h5m), hsig.trans (if_pos rfl)⟩
  rw [apOn_eq (by rw [hl.variant, h5v, h4v]; exact hp), hl.regB _ _ (apCtl_ne_icScnt p _), h5c, h4c, h2 31 (by decide) (by decide), hv]

theorem formatStore_taken (hp : p < s.variant.tdmPorts) (hown : ownsClaim s (apClaim p) m = true) (hoff : apOn s p = false)
    (hfmt : fmtLimits s p (reg (storePlain s m (apFmt p) v) (apFmt p)) = true) (hres : sysReserved s (apFmt p) v.toNat = []) (t : State)
    (ht : apFmtStore s m p v = t) : reg t (apFmt p) = (reg s (apFmt p) &&& 0x0001FFFF) ||| (v &&& 0xFFFE0000) ∧ OnlyRegs [apFmt p] s t := by
  unfold apFmtStore at ht
  dsimp only at ht
  rw [hown, apOff_of_not_on hp hoff, hfmt] at ht
  simp only [Bool.not_true, Bool.false_eq_true, if_false, if_true, Bool.not_false] at ht
  rw [storePlain_owned (i := apInfo p 0xFFFE0000 apFmtReset) (regInfo_apFmt hp) hown hres] at ht
  subst ht
  refine ⟨?_, onlyRegs_setReg _ _ _⟩
  rw [reg_setReg_same]
  apply eq_of_rbit
  intro j hj
  rw [rbit_storeVal_plain (i := apInfo p 0xFFFE0000 apFmtReset) hown rfl (by show (0xFFFE0000 : Nat) < 2 ^ 32; decide) rfl hres hj]
  show (if (0xFFFE0000 : Nat).testBit j then v.getLsbD j else (reg s (apFmt p)).getLsbD j) = ((reg s (apFmt p) &&& 0x0001FFFF) ||| (v &&& 0xFFFE0000)).getLsbD j
  have hmask : (0xFFFE0000 : W32).getLsbD j = (0xFFFE0000 : Nat).testBit j ∧ (0x0001FFFF : W32).getLsbD j = !(0xFFFE0000 : Nat).testBit j :=
    (by decide : ∀ j < 32, (0xFFFE0000 : W32).getLsbD j = (0xFFFE0000 : Nat).testBit j ∧ (0x0001FFFF : W32).getLsbD j = !(0xFFFE0000 : Nat).testBit j) j hj
  rw [BitVec.getLsbD_or, BitVec.getLsbD_and, BitVec.getLsbD_and, hmask.1, hmask.2]
  cases (0xFFFE0000 : Nat).testBit j <;> simp
theorem formatStore_refused (hp : p < s.variant.tdmPorts) (hown : ownsClaim s (apClaim p) m = true) (hoff : apOn s p = false)
    (hfmt : fmtLimits s p (reg (storePlain s m (apFmt p) v) (apFmt p)) = false) (t : State) (ht : apFmtStore s m p v = t) :
    reg t (apFmt p) = reg s (apFmt p) ∧ regB t (apStat p) 29 = true ∧ OnlyRegs [apStat p] s t := by
  have hle := tdmPorts_le s.variant
  unfold apFmtStore at ht
  dsimp only at ht
  rw [hown, apOff_of_not_on hp hoff, hfmt] at ht
  simp only [Bool.not_true, Bool.false_eq_true, if_false, if_true, Bool.not_false] at ht
  rw [conflict_spec (i := apInfo p 0xFFFE0000 apFmtReset) (regInfo_apFmt hp) (plainConflict_ap (by omega) _ _)] at ht
  change setRegB s (apStat p) 29 true = t at ht
  subst ht
  exact ⟨reg_setRegB_ne _ _ _ _ _ (by unfold apFmt apStat; omega), regB_setRegB_same _ _ _ _ (by decide), onlyRegs_setRegB _ _ _ _⟩

/-- The store of an AP_PDM_CTL word that its holder makes. -/
theorem storePlain_pdmCtl (hi : i < 8) (hown : ownsClaim s (pdmClaim i) m = true) :
    OnlyRegs [pdmCtl i] s (storePlain s m (pdmCtl i) v) ∧ ∀ j < 32, 28 ≤ j → regB (storePlain s m (pdmCtl i) v) (pdmCtl i) j = rbit v j := by
  have hres := sysReserved_pdmCtl (s := s) hi v.toNat
  rw [storePlain_owned (i := pdmInfo i) (regInfo_pdmCtl hi _) hown hres]
  refine ⟨onlyRegs_setReg _ _ _, fun j hj hlo => ?_⟩
  have hbit : (0xF0000000 : Nat).testBit j = true := (by decide : ∀ j < 32, 28 ≤ j → (0xF0000000 : Nat).testBit j = true) j hj hlo
  unfold regB
  rw [reg_setReg_same, rbit_storeVal_plain (i := pdmInfo i) hown rfl (by show (0xF0000000 : Nat) < 2 ^ 32; decide) rfl hres hj]
  exact if_pos hbit
theorem pdmCtl_ne_pdmStat (hi : i < 8) : pdmCtl i ≠ pdmStat := by unfold pdmCtl pdmStat; omega

/-- The clock of a pair allows the rate that its decimation asks for. -/
theorem pdmStore_runs (hi : i < 8) (hown : ownsClaim s (pdmClaim i) m = true) (hrate : clockHz s (rfld v 29 2) ≤ if rbit v 28 then 48000 else 96000)
    (hstop : regB s (pdmCtl i) 31 = false ∨ (reg s (pdmCtl i) ^^^ v) &&& 0x70000000 = 0) (t : State) (ht : pdmStore s m i v = t) :
    regF t (pdmCtl i) 28 4 = rfld v 28 4 ∧ regB t pdmStat i = rbit v 31 ∧ (∀ a, a ≠ pdmCtl i → a ≠ pdmStat → reg t a = reg s a) ∧
      t = { s with regs := t.regs, media := t.media } := by
  have hset : (if rbit v 28 then decide (clockHz s (rfld v 29 2) ≤ 48000) else decide (clockHz s (rfld v 29 2) ≤ 96000)) = true := by
    split at hrate
    next h => rw [if_pos h, decide_eq_true hrate]
    next h => rw [if_neg h, decide_eq_true hrate]
  have hkeep : ¬ (rbit (reg s (pdmCtl i)) 31 && decide (((reg s (pdmCtl i) ^^^ v) &&& 0x70000000) ≠ 0)) = true := by
    obtain h | h := hstop
    · rw [show rbit (reg s (pdmCtl i)) 31 = false from h, Bool.false_and]
      exact Bool.false_ne_true
    · rw [h, decide_eq_false (fun hn => hn rfl), Bool.and_false]
      exact Bool.false_ne_true
  unfold pdmStore at ht
  dsimp only at ht
  rw [hown, hset, if_neg (by decide), if_neg hkeep] at ht
  obtain ⟨h1, h2⟩ := storePlain_pdmCtl (v := v) hi hown
  generalize storePlain s m (pdmCtl i) v = w at h1 h2 ht
  obtain ⟨x, hx⟩ : ∃ x, x = setRegB w pdmStat i (rbit v 31) := ⟨_, rfl⟩
  have h3 : OnlyRegs [pdmStat] w x := hx ▸ onlyRegs_setRegB _ _ _ _
  have h4 : regB x pdmStat i = rbit v 31 := hx ▸ regB_setRegB_same _ _ _ _ (by omega)
  rw [← hx] at ht
  have h5 : t = { x with media := t.media } := by
    split at ht
    · rw [← ht]
    · rw [← ht]
  have hreg (a : Nat) : reg t a = reg x a := reg_congr (by rw [h5]) (by rw [h5]) a
  refine ⟨rfld_congr fun j hlo hj => ?_, ?_, fun a ha hb => ?_, by rw [h5, h3.1, h1.1]⟩
  · rw [hreg, h3.2 _ (by simpa using pdmCtl_ne_pdmStat hi)]
    exact h2 j (by omega) hlo
  · rw [← h4]
    unfold regB
    rw [hreg]
  · rw [hreg, h3.2 a (by simpa using hb), h1.2 a (by simpa using ha)]
theorem pdmStore_refused (hi : i < 8) (hown : ownsClaim s (pdmClaim i) m = false) (t : State) (ht : pdmStore s m i v = t) :
    reg t (pdmCtl i) = reg s (pdmCtl i) ∧ regB t pdmStat 8 = true ∧ OnlyRegs [pdmStat] s t := by
  unfold pdmStore at ht
  dsimp only at ht
  rw [hown, Bool.not_false, Bool.true_or, if_pos rfl, conflict_spec (i := pdmInfo i) (regInfo_pdmCtl hi _) (plainConflict_pdm i)] at ht
  change setRegB s pdmStat 8 true = t at ht
  subst ht
  exact ⟨reg_setRegB_ne _ _ _ _ _ (pdmCtl_ne_pdmStat hi), regB_setRegB_same _ _ _ _ (by decide), onlyRegs_setRegB _ _ _ _⟩

theorem portsAreConfigured : Clause.PortsAreConfigured := by
  intro s m p i v hm hp hi
  have hle := tdmPorts_le s.variant
  have hwf : (masterOk m && decide (p < 32)) = true := by rw [hm, decide_eq_true (by omega)]; rfl
  refine ⟨fun hown => ⟨fun hoff hv hdom => ?_, fun hon hv hsame hnamed => ?_, fun hoff hfmt hres => ?_, fun hoff hfmt => ?_⟩, fun hown hrate hstop => ?_, fun hown => ?_⟩
  · have hexec : exec (.portEnable m p v) s = .next (if rbit v 31 && decide (p < s.variant.tdmPorts) then apCtlStore s m p v else s) := act_wf hwf
    rw [if_pos (by rw [hv, decide_eq_true hp]; rfl)] at hexec
    exact ⟨_, hexec, portEnable_holds hp hown hoff hv hdom _ rfl⟩
  · have hexec : exec (.portDisable m p v) s = .next (if apOn s p && !rbit v 31 then apCtlStore s m p v else s) := act_wf hwf
    rw [if_pos (by rw [hon, hv]; rfl)] at hexec
    obtain ⟨h1, h2, h3, h4⟩ := portDisable_silences hp hown hon hv hsame hnamed _ rfl
    exact ⟨_, hexec, h1, h2, h3.begun, h3.out, h4⟩
  · have hexec : exec (.formatStore m p v) s = .next (if p < s.variant.tdmPorts then apFmtStore s m p v else s) := act_wf hwf
    rw [if_pos hp] at hexec
    exact ⟨_, hexec, formatStore_taken hp hown hoff hfmt hres _ rfl⟩
  · have hexec : exec (.formatStore m p v) s = .next (if p < s.variant.tdmPorts then apFmtStore s m p v else s) := act_wf hwf
    rw [if_pos hp] at hexec
    exact ⟨_, hexec, formatStore_refused hp hown hoff hfmt _ rfl⟩
  · have hexec : exec (.pdmControlStore m i v) s = .next (pdmStore s m i v) := act_wf (by
      show (masterOk m && decide (i < 8)) = true
      rw [hm, decide_eq_true hi]; rfl)
    exact ⟨_, hexec, pdmStore_runs hi hown hrate hstop _ rfl⟩
  · have hexec : exec (.pdmControlStore m i v) s = .next (pdmStore s m i v) := act_wf (by
      show (masterOk m && decide (i < 8)) = true
      rw [hm, decide_eq_true hi]; rfl)
    exact ⟨_, hexec, pdmStore_refused hi hown _ rfl⟩

/-- Settles O45: frames, configuration and pins. -/
theorem audioPorts : Obligations.AudioPorts := ⟨portsFrameTheirSamples, portsAreConfigured, pinsCarryFrames⟩

end Sys2Proof.Machine
end

section
/-! ASRC streams and express pairs (R374 to R384). -/
namespace Sys2Proof.Machine

variable {s t u : State} {a m n x k p i : Nat} {v ratio : W32}

/-! ### The registers of a stream (R379) -/

def asInfo (n x own w1c : Nat) (rst : W32) : RegInfo :=
  { rw := 0, own := own, w1c := w1c, rst := rst, claim := asClaim n x, confAt := asStat n x, confBit := 30, isClaim := false }

section
variable {w : Config.Variant}

theorem regInfo_asCtl (hn : n < w.asrcEngines) (hx : x < 64) : regInfo w (asCtl n x) = some (asInfo n x 0xFF0FFFFF 0 0x05000000) := by
  rw [show asCtl n x = asBase n + 8 * x from rfl, regInfo_asrc hn (by omega) (by omega), regASRC]
  simp only [show 8 * x < 0x200 by omega, if_true, show 8 * x % 8 = 0 by omega, show 8 * x / 8 = x by omega]
  rfl
theorem regInfo_asDelay (hn : n < w.asrcEngines) (hx : x < 64) : regInfo w (asDelay n x) = some (asInfo n x 0xFFFFFFFF 0 0) := by
  rw [show asDelay n x = asBase n + (8 * x + 2) from rfl, regInfo_asrc hn (by omega) (by omega), regASRC]
  simp only [show 8 * x + 2 < 0x200 by omega, if_true, show (8 * x + 2) % 8 = 2 by omega, show (8 * x + 2) / 8 = x by omega]
  rfl
end
theorem asrcEngines_le (w : Config.Variant) : w.asrcEngines ≤ 4 := by cases w <;> decide
theorem plainConflict_as (hn : n < 4) (hx : x < 64) (own w1c : Nat) (rst : W32) : PlainConflict (asInfo n x own w1c rst) := by
  unfold PlainConflict asInfo asStat asBase memStat
  refine ⟨?_, ?_, ?_, ?_⟩ <;> dsimp only <;> omega

/-- Reserved values of a stream's registers stand in ASRC_SCTL and ASRC_SWIN (R14, R374). -/
theorem sysReserved_as {o : Nat} (hn : n < 4) (ho : o < 0x10000) (w : Nat) :
    sysReserved s (asBase n + o) w =
      if o < 0x200 && o % 8 = 0 then (if fld w 26 3 > 5 then [(26, 3)] else []) ++ (if fld w 24 2 = 3 then [(24, 2)] else [])
      else if o < 0x200 && o % 8 = 4 && fld w 0 16 = 0 then [(0, 16)] else [] := by
  have hblock : (asBase n + o) / 0x10000 % 256 = 0x30 + n := by unfold asBase; omega
  have hoff : (asBase n + o) % 0x10000 = o := by unfold asBase; omega
  generalize asBase n + o = a at hblock hoff
  unfold sysReserved
  rw [hblock, hoff]
  simp only [show ¬ 0x30 + n < 8 by omega, show ∀ j < 0x30, ¬ 0x30 + n = j by omega, show ¬ 0x70 ≤ 0x30 + n by omega, show 0x30 ≤ 0x30 + n by omega,
    show 0x30 + n < 0x34 by omega, if_false, if_true, decide_true, decide_false, Bool.and_self, Bool.false_and, Bool.false_eq_true, Nat.reduceLT]
theorem sysReserved_asCtl (hn : n < 4) (hx : x < 64) (w : Nat) : ∀ e ∈ sysReserved s (asCtl n x) w, e.1 + e.2 ≤ 31 := by
  rw [show asCtl n x = asBase n + 8 * x from rfl, sysReserved_as hn (by omega), if_pos (by simp; omega)]
  simp only [List.mem_append]
  rintro e (he | he)
  all_goals
    split at he
    · rw [List.mem_singleton.mp he]; decide
    · cases he
theorem sysReserved_asDelay (hn : n < 4) (hx : x < 64) (w : Nat) : sysReserved s (asDelay n x) w = [] := by
  rw [show asDelay n x = asBase n + (8 * x + 2) from rfl, sysReserved_as hn (by omega), if_neg (by simp), if_neg (by simp)]

/-- The holder's store of ASRC_SCTL: EN as stored, and no other register but ASRC_SSTAT. -/
theorem storePlain_asCtl (hn : n < s.variant.asrcEngines) (hx : x < 64) (hown : ownsClaim s (asClaim n x) m = true) :
    OnlyRegs [asCtl n x, asStat n x] s (storePlain s m (asCtl n x) v) ∧ regB (storePlain s m (asCtl n x) v) (asCtl n x) 31 = rbit v 31 := by
  have hle := asrcEngines_le s.variant
  have hne : asCtl n x ≠ asStat n x := by unfold asCtl asStat; omega
  obtain ⟨hregs, hval⟩ := storePlain_spec (i := asInfo n x 0xFF0FFFFF 0 0x05000000) (regInfo_asCtl hn hx) (plainConflict_as (by omega) hx _ _ _) hne m v
  refine ⟨hregs, ?_⟩
  unfold regB
  rw [hval]
  exact rbit_storeVal_owned (i := asInfo n x 0xFF0FFFFF 0 0x05000000) hown (by show (0 ||| 0xFF0FFFFF : Nat) < 2 ^ 32; decide) (by decide)
    (by show (0 ||| 0xFF0FFFFF : Nat).testBit 31 = true; decide) (by show (0 : Nat).testBit 31 = false; decide)
    fun e he => .inr (sysReserved_asCtl (by omega) hx _ e he)

theorem stream_place (n : Nat) (hx : x < 64) : (64 * n + x) / 64 = n ∧ (64 * n + x) % 64 = x := by omega
theorem asOn_eq (hn : n < s.variant.asrcEngines) (hx : x < 64) : asOn s (64 * n + x) = regB s (asCtl n x) 31 := by
  obtain ⟨h1, h2⟩ := stream_place n hx
  unfold asOn
  rw [h1, h2, decide_eq_true hn, Bool.true_and]
theorem asLocked_eq (s : State) (n : Nat) (hx : x < 64) : asLocked s (64 * n + x) = regB s (asStat n x) 31 := by
  obtain ⟨h1, h2⟩ := stream_place n hx
  unfold asLocked
  rw [h1, h2]

/-! ### LOCKED (R376) -/

theorem asStat_ne_icScnt (n x q : Nat) : asStat n x ≠ icScnt q := by unfold asStat asBase icScnt icBase; omega
theorem asCtl_ne_icScnt (n x q : Nat) : asCtl n x ≠ icScnt q := by unfold asCtl asBase icScnt icBase; omega
theorem setAsLocked_spec (s : State) (n : Nat) (hx : x < 64) (b : Bool) (t : State) (ht : setAsLocked s (64 * n + x) b = t) :
    OnlyRegsAndSources [asStat n x] [576 + (64 * n + x)] s t ∧ asLocked t (64 * n + x) = b ∧ srcSignal t (576 + (64 * n + x)) = b ∧
      (∀ lo w, lo + w ≤ 31 → regF t (asStat n x) lo w = regF s (asStat n x) lo w) ∧ ∀ a, a ≠ asStat n x → a ≠ icScnt (576 + (64 * n + x)) → reg t a = reg s a := by
  obtain ⟨h1, h2⟩ := stream_place n hx
  unfold setAsLocked at ht
  rw [h1, h2] at ht
  have h3 : OnlyRegs [asStat n x] s (setRegB s (asStat n x) 31 b) := onlyRegs_setRegB _ _ _ _
  have h4 : regB (setRegB s (asStat n x) 31 b) (asStat n x) 31 = b := regB_setRegB_same _ _ _ _ (by decide)
  have h5 : ∀ lo w, lo + w ≤ 31 → regF (setRegB s (asStat n x) 31 b) (asStat n x) lo w = regF s (asStat n x) lo w := fun lo w h =>
    regF_setRegB_other _ _ _ _ _ _ (.inl h) (by omega)
  generalize setRegB s (asStat n x) 31 b = y at h3 h4 h5 ht
  have hl := sourceOnly_setLevel y (576 + (64 * n + x)) b
  have hsig := srcSignal_setLevel y (576 + (64 * n + x)) (576 + (64 * n + x)) b
  rw [ht] at hl hsig
  have hstat := asStat_ne_icScnt n x (576 + (64 * n + x))
  refine ⟨onlyRegsAndSources_trans (onlyRegsAndSources_of_regs h3) (hl.regsAndSources (by simp)), ?_, hsig.trans (if_pos rfl), fun lo w h => ?_, fun a ha hb => ?_⟩
  · rw [asLocked_eq t n hx, hl.regB _ _ hstat, h4]
  · rw [hl.regF _ _ _ hstat, h5 lo w h]
  · rw [hl.regs a hb, h3.2 a (by simpa using ha)]

/-! ### Streams are enabled, disabled and delayed (R374, R375) -/

/-- What the media keep of a stream that is enabled. -/
def streamBegun (t : State) (u : Nat) (d : W32) : State :=
  { t with media := { t.media with asrcGen := tput 0 t.media.asrcGen u (t.now + 1), asrcSteady := tput 0 t.media.asrcSteady u (t.now + 1), asrcOut := tput 0 t.media.asrcOut u 0, asrcLastIn := tput 0 t.media.asrcLastIn u 0,
                                   asrcInTo := tput 0 t.media.asrcInTo u 0, asrcIn := tclear t.media.asrcIn (1024 * u) (1024 * u + 1024),
                                   asrcWin := tclear t.media.asrcWin (1024 * u) (1024 * u + 1024), asrcDelay := tput 0 t.media.asrcDelay u d } }
theorem streamBegun_fields (t : State) (u : Nat) (d : W32) : streamBegun t u d = { t with media := (streamBegun t u d).media } ∧
    tget 0 (streamBegun t u d).media.asrcDelay u = d ∧ tget 0 (streamBegun t u d).media.asrcOut u = 0 := ⟨rfl, tget_tput_same 0 t.media.asrcDelay u d, tget_tput_same 0 t.media.asrcOut u 0⟩

theorem asCtlStore_enables (hn : n < s.variant.asrcEngines) (hx : x < 64) (hown : ownsClaim s (asClaim n x) m = true) (hoff : asOn s (64 * n + x) = false)
    (hv : rbit v 31 = true) (hfits : asFits (storePlain s m (asCtl n x) v) (64 * n + x) = true) (t : State) (ht : asCtlStore s m (64 * n + x) v = t) :
    asOn t (64 * n + x) = true ∧ tget 0 t.media.asrcDelay (64 * n + x) = reg s (asDelay n x) ∧ tget 0 t.media.asrcOut (64 * n + x) = 0 ∧
      t = { s with regs := t.regs, media := t.media } ∧ ∀ a, a ≠ asCtl n x → a ≠ asStat n x → reg t a = reg s a := by
  obtain ⟨h1, h2⟩ := stream_place n hx
  unfold asCtlStore at ht
  dsimp only at ht
  rw [h1, h2, hown, show regB s (asCtl n x) 31 = false from (asOn_eq hn hx).symm.trans hoff, hfits, hv] at ht
  simp only [Bool.not_true, Bool.false_eq_true, if_false, if_true] at ht
  obtain ⟨h3, h4⟩ := storePlain_asCtl (v := v) hn hx hown
  generalize storePlain s m (asCtl n x) v = y at h3 h4 ht
  obtain ⟨h5, h6, h7⟩ := streamBegun_fields y (64 * n + x) (reg y (asDelay n x))
  rw [show streamBegun y (64 * n + x) (reg y (asDelay n x)) = t from ht] at h5 h6 h7
  have hreg (a : Nat) : reg t a = reg y a := reg_congr (by rw [h5]) (by rw [h5]) a
  refine ⟨?_, ?_, h7, by rw [h5, h3.1], fun a ha hb => ?_⟩
  · rw [asOn_eq (by rw [h5, h3.1]; exact hn) hx, ← hv, ← h4]
    exact regB_congr (by rw [h5]) (by rw [h5]) _ _
  · rw [h6]
    exact h3.2 _ (by simp; unfold asDelay asCtl asStat; omega)
  · rw [hreg, h3.2 a (by simp [ha, hb])]
theorem asCtlStore_disables (hn : n < s.variant.asrcEngines) (hx : x < 64) (hown : ownsClaim s (asClaim n x) m = true) (hon : asOn s (64 * n + x) = true)
    (hv : rbit v 31 = false) (t : State) (ht : asCtlStore s m (64 * n + x) v = t) :
    asOn t (64 * n + x) = false ∧ asLocked t (64 * n + x) = false ∧ srcSignal t (576 + (64 * n + x)) = false := by
  obtain ⟨h1, h2⟩ := stream_place n hx
  unfold asCtlStore at ht
  dsimp only at ht
  rw [h1, h2, hown, show regB s (asCtl n x) 31 = true from (asOn_eq hn hx).symm.trans hon, hv] at ht
  simp only [Bool.not_true, Bool.false_eq_true, if_false, if_true] at ht
  obtain ⟨h3, h4⟩ := storePlain_asCtl (v := v) hn hx hown
  generalize storePlain s m (asCtl n x) v = y at h3 h4 ht
  obtain ⟨h5, h6, h7, -, h8⟩ := setAsLocked_spec y n hx false _ rfl
  generalize setAsLocked y (64 * n + x) false = z at h5 h6 h7 h8 ht
  have h9 : t = { z with media := t.media } := by rw [← ht]
  have hreg (a i : Nat) : regB t a i = regB z a i := regB_congr (by rw [h9]) (by rw [h9]) a i
  refine ⟨?_, ?_, ?_⟩
  · rw [asOn_eq (by rw [h9, h5.1, h3.1]; exact hn) hx, hreg]
    refine .trans ?_ (h4.trans hv)
    unfold regB
    rw [h8 _ (by unfold asCtl asStat; omega) (asCtl_ne_icScnt n x _)]
  · rw [asLocked_eq t n hx, hreg, ← asLocked_eq z n hx, h6]
  · rw [← h7]
    unfold srcSignal
    rw [h9]

theorem asDelayStore_taken (hn : n < s.variant.asrcEngines) (hx : x < 64) (hown : ownsClaim s (asClaim n x) m = true)
    (hv : v.toNat * 100 ≤ 4096 * asHzOut s (64 * n + x)) (t : State) (ht : asDelayStore s m (64 * n + x) v = t) :
    reg t (asDelay n x) = v ∧ OnlyRegs [asDelay n x] s t := by
  have hle := asrcEngines_le s.variant
  obtain ⟨h1, h2⟩ := stream_place n hx
  have hres := sysReserved_asDelay (s := s) (n := n) (by omega) hx v.toNat
  unfold asDelayStore at ht
  dsimp only at ht
  rw [h1, h2, hown, decide_eq_false (by omega), Bool.and_false, if_neg Bool.false_ne_true,
    storePlain_owned (i := asInfo n x 0xFFFFFFFF 0 0) (regInfo_asDelay hn hx) hown hres,
    storeVal_all (i := asInfo n x 0xFFFFFFFF 0 0) ((storeMask_owned (i := asInfo n x 0xFFFFFFFF 0 0) hown).trans (Nat.zero_or _)) rfl hres] at ht
  subst ht
  exact ⟨reg_setReg_same _ _ _, onlyRegs_setReg _ _ _⟩
theorem asDelayStore_refused (hn : n < s.variant.asrcEngines) (hx : x < 64) (hown : ownsClaim s (asClaim n x) m = true)
    (hv : 4096 * asHzOut s (64 * n + x) < v.toNat * 100) (t : State) (ht : asDelayStore s m (64 * n + x) v = t) :
    reg t (asDelay n x) = reg s (asDelay n x) ∧ regB t (asStat n x) 30 = true ∧ OnlyRegs [asStat n x] s t := by
  have hle := asrcEngines_le s.variant
  obtain ⟨h1, h2⟩ := stream_place n hx
  unfold asDelayStore at ht
  dsimp only at ht
  rw [h1, h2, hown, decide_eq_true (by omega), Bool.and_self, if_pos rfl,
    conflict_spec (i := asInfo n x 0xFFFFFFFF 0 0) (regInfo_asDelay hn hx) (plainConflict_as (by omega) hx _ _ _)] at ht
  change setRegB s (asStat n x) 30 true = t at ht
  subst ht
  exact ⟨reg_setRegB_ne _ _ _ _ _ (by unfold asDelay asStat; omega), regB_setRegB_same _ _ _ _ (by decide), onlyRegs_setRegB _ _ _ _⟩

/-! ### Lock and unlock (R376) -/

theorem asRatio_ne_icScnt (hn : n < 4) (hx : x < 64) : asRatio n x ≠ icScnt (576 + (64 * n + x)) :=
  ne_icScnt_of_block (by unfold asRatio asBase; omega) _ (by omega)
theorem asLockOp_locks (hn : n < s.variant.asrcEngines) (hx : x < 64) (hon : asOn s (64 * n + x) = true) (hunl : asLocked s (64 * n + x) = false)
    (hsteady : tget 0 s.media.asrcSteady (64 * n + x) + 10 ^ 9 ≤ s.now + 1)
    (hhi : 1000 * (ratio.toNat * asHzIn s (64 * n + x)) ≤ 1001 * (2 ^ 29 * asHzOut s (64 * n + x)))
    (hlo : 999 * (2 ^ 29 * asHzOut s (64 * n + x)) ≤ 1000 * (ratio.toNat * asHzIn s (64 * n + x))) (t : State) (ht : asLockOp s (64 * n + x) ratio = t) :
    asLocked t (64 * n + x) = true ∧ reg t (asRatio n x) = ratio ∧ srcSignal t (576 + (64 * n + x)) = true ∧
      OnlyRegsAndSources [asRatio n x, asStat n x] [576 + (64 * n + x)] s t := by
  have hle := asrcEngines_le s.variant
  obtain ⟨h1, h2⟩ := stream_place n hx
  unfold asLockOp at ht
  dsimp only at ht
  rw [h1, h2, hon, hunl, decide_eq_true hsteady, decide_eq_true hhi, decide_eq_true hlo, if_pos (by decide)] at ht
  have h3 : OnlyRegs [asRatio n x] s (setReg s (asRatio n x) ratio) := onlyRegs_setReg _ _ _
  have h4 : reg (setReg s (asRatio n x) ratio) (asRatio n x) = ratio := reg_setReg_same _ _ _
  generalize setReg s (asRatio n x) ratio = y at h3 h4 ht
  obtain ⟨h5, h6, h7, -, h8⟩ := setAsLocked_spec y n hx true t ht
  refine ⟨h6, ?_, h7, onlyRegsAndSources_trans (onlyRegsAndSources_of_regs (onlyRegs_mono h3 (by simp))) (onlyRegsAndSources_mono h5 (by simp) (by simp))⟩
  rw [h8 _ (by unfold asRatio asStat; omega) (asRatio_ne_icScnt (by omega) hx), h4]

/-- A stream's residual is steady from now on. -/
def steadyFrom (s : State) (u : Nat) : State := { s with media := { s.media with asrcSteady := tput 0 s.media.asrcSteady u (s.now + 1) } }
theorem steadyFrom_fields (s : State) (u : Nat) : steadyFrom s u = { s with media := (steadyFrom s u).media } ∧
    tget 0 (steadyFrom s u).media.asrcSteady u = s.now + 1 := ⟨rfl, tget_tput_same 0 s.media.asrcSteady u (s.now + 1)⟩
theorem asUnlockOp_unlocks (hx : x < 64) (hon : asOn s (64 * n + x) = true) (hl : asLocked s (64 * n + x) = true) (t : State)
    (ht : asUnlockOp s (64 * n + x) = t) :
    asLocked t (64 * n + x) = false ∧ regF t (asStat n x) 0 16 = incSat 16 (regF s (asStat n x) 0 16) ∧ srcSignal t (576 + (64 * n + x)) = false ∧
      tget 0 t.media.asrcSteady (64 * n + x) = s.now + 1 ∧ OnlyRegsAndSources [asStat n x] [576 + (64 * n + x)] { s with media := t.media } t := by
  obtain ⟨h1, h2⟩ := stream_place n hx
  unfold asUnlockOp at ht
  dsimp only at ht
  rw [h1, h2, hon, hl, if_pos (by decide), show { s with media := { s.media with asrcSteady := tput 0 s.media.asrcSteady (64 * n + x) (s.now + 1) } } = steadyFrom s (64 * n + x) from rfl] at ht
  obtain ⟨h3, h4⟩ := steadyFrom_fields s (64 * n + x)
  generalize steadyFrom s (64 * n + x) = y at h3 h4 ht
  obtain ⟨z, hz⟩ : ∃ z, z = setRegF y (asStat n x) 0 16 (incSat 16 (regF y (asStat n x) 0 16)) := ⟨_, rfl⟩
  have h5 : OnlyRegs [asStat n x] y z := hz ▸ onlyRegs_setRegF _ _ _ _ _
  have h6 : regF z (asStat n x) 0 16 = incSat 16 (regF y (asStat n x) 0 16) := by
    rw [hz, regF_setRegF_same _ _ _ _ _ (by decide)]
    exact Nat.mod_eq_of_lt (incSat_lt 16 _)
  rw [← hz] at ht
  obtain ⟨h7, h8, h9, h10, -⟩ := setAsLocked_spec z n hx false t ht
  have hm : t.media = y.media := (onlyRegsAndSources_media h7).trans (by rw [h5.1])
  refine ⟨h8, ?_, h9, by rw [hm, h4], ?_⟩
  · rw [h10 0 16 (by decide), h6, regF_congr (t := y) (s := s) (by rw [h3]) (by rw [h3])]
  · rw [hm, ← h3]
    exact onlyRegsAndSources_trans (onlyRegsAndSources_of_regs h5) h7

/-! ### The next block of a stream's reader (R375, R377, R378) -/

/-- The block from `first` on is there for the reader. -/
def blockThere (s : State) (u next : Nat) (delay : W32) : State :=
  { s with media := { s.media with asrcOut := tput 0 s.media.asrcOut u next, asrcDelay := tput 0 s.media.asrcDelay u delay,
                                   asrcWin := (upto (asNch s u)).foldl (fun w c => tput [] w (1024 * u + c) (tget [] s.media.asrcIn (1024 * u + c))) s.media.asrcWin } }
theorem blockThere_fields (s : State) (u next : Nat) (delay : W32) : blockThere s u next delay = { s with media := (blockThere s u next delay).media } ∧
    tget 0 (blockThere s u next delay).media.asrcOut u = next ∧ tget 0 (blockThere s u next delay).media.asrcDelay u = delay :=
  ⟨rfl, tget_tput_same 0 s.media.asrcOut u next, tget_tput_same 0 s.media.asrcDelay u delay⟩
theorem asBlockOp_comes (hx : x < 64) (e : Nat × Nat) (he : asReader s (64 * n + x) = some e) (first ahead : Nat)
    (hfirst : first = Nat.max (tget 0 s.media.asrcOut (64 * n + x)) (nSrc (wagOf s e.1 e.2) (wagRun s e.1 e.2).block))
    (hahead : ahead = asTaps s (64 * n + x) * 128000000000 /
      (if asHzOut s (64 * n + x) ≥ asHzIn s (64 * n + x) then asHzIn s (64 * n + x) else asHzOut s (64 * n + x)))
    (hon : asOn s (64 * n + x) = true) (hin : tget 0 s.media.asrcInTo (64 * n + x) ≠ 0)
    (hneed : 0 ≤ stampDiff ((tget 0 s.media.asrcInTo (64 * n + x) - 1 : Nat) : Int)
      (mtEst s (asMc s (64 * n + x)) ((first + (wagOf s e.1 e.2).bs - 1 : Nat) : Int) - (((reg s (asDelay n x)).toNat * 62500000 / asHzOut s (64 * n + x) : Nat) : Int) + (ahead : Int))) :
    asBlockOp s (64 * n + x) = blockThere s (64 * n + x) (first + (wagOf s e.1 e.2).bs) (reg s (asDelay n x)) := by
  obtain ⟨h1, h2⟩ := stream_place n hx
  have hla : (if asHzOut s (64 * n + x) ≥ asHzIn s (64 * n + x) then asTaps s (64 * n + x) * 128000000000 / asHzIn s (64 * n + x)
      else asTaps s (64 * n + x) * 128000000000 / asHzOut s (64 * n + x)) = ahead := by
    rw [hahead]
    split <;> rfl
  unfold asBlockOp
  rw [he]
  dsimp only
  rw [h1, h2, hla, ← hfirst, hon, decide_eq_true hin, decide_eq_true hneed, if_pos (by decide)]
  rfl

theorem asrcStreamsRun : Clause.AsrcStreamsRun := by
  intro s m n x v ratio hm hn hx u
  have hle := asrcEngines_le s.variant
  have hwf : (masterOk m && decide (n < 4) && decide (x < 64)) = true := by rw [hm, decide_eq_true (by omega), decide_eq_true hx]; rfl
  have hwf' : (decide (n < 4) && decide (x < 64)) = true := by rw [decide_eq_true (by omega), decide_eq_true hx]; rfl
  refine ⟨fun hown => ⟨fun hoff hv hfits => ?_, fun hon hv => ?_, fun hv => ?_, fun hv => ?_⟩, fun hon hunl hsteady hhi hlo => ?_, fun hon hl => ?_,
    fun e he => ?_⟩
  · have hexec : exec (.asrcStreamEnable m n x v) s = .next (if rbit v 31 && decide (n < s.variant.asrcEngines) then asCtlStore s m u v else s) := act_wf hwf
    rw [if_pos (by rw [hv, decide_eq_true hn]; rfl)] at hexec
    exact ⟨_, hexec, asCtlStore_enables hn hx hown hoff hv hfits _ rfl⟩
  · have hexec : exec (.asrcStreamDisable m n x v) s = .next (if asOn s u && !rbit v 31 then asCtlStore s m u v else s) := act_wf hwf
    rw [if_pos (by rw [hon, hv]; rfl)] at hexec
    exact ⟨_, hexec, asCtlStore_disables hn hx hown hon hv _ rfl⟩
  · have hexec : exec (.asrcDelayStore m n x v) s = .next (if n < s.variant.asrcEngines then asDelayStore s m u v else s) := act_wf hwf
    rw [if_pos hn] at hexec
    exact ⟨_, hexec, asDelayStore_taken hn hx hown hv _ rfl⟩
  · have hexec : exec (.asrcDelayStore m n x v) s = .next (if n < s.variant.asrcEngines then asDelayStore s m u v else s) := act_wf hwf
    rw [if_pos hn] at hexec
    exact ⟨_, hexec, asDelayStore_refused hn hx hown hv _ rfl⟩
  · have hexec : exec (.asrcLock n x ratio) s = .next (asLockOp s u ratio) := act_wf hwf'
    exact ⟨_, hexec, asLockOp_locks hn hx hon hunl hsteady hhi hlo _ rfl⟩
  · have hexec : exec (.asrcUnlock n x) s = .next (asUnlockOp s u) := act_wf hwf'
    exact ⟨_, hexec, asUnlockOp_unlocks hx hon hl _ rfl⟩
  · intro d first ahead hon hin hneed
    have hexec : exec (.asrcOutputBlock n x) s = .next (asBlockOp s u) := act_wf hwf'
    rw [asBlockOp_comes hx e he first ahead rfl rfl hon hin hneed] at hexec
    obtain ⟨h1, h2, h3⟩ := blockThere_fields s u (first + d.bs) (reg s (asDelay n x))
    exact ⟨_, hexec, h2, h3, h1⟩

/-! ### Accesses of a stream engine -/

theorem served_regionRefuse (s : State) (m a code : Nat) : Served s (regionRefuse s m a code) := by
  unfold regionRefuse
  exact ((SameOutside.mem (.refl s) _).trans (sameOutside_errReport ..)).served
theorem served_devAccess (s : State) (m : Nat) (k : AccKind) (a n data : Nat) : Served s (devAccess s m k a n data).st := by
  unfold devAccess
  split
  · exact served_regionRefuse ..
  · split
    · extract_lets bar
      split
      · exact .refl s
      · split
        · exact served_regionRefuse ..
        · split
          · exact served_epochRefuse ..
          · split
            · exact served_dramRefused ..
            · exact served_turnAccess ..
    · exact .refl s
    · exact .refl s
    · split
      · exact served_epochRefuse ..
      · split
        · exact .refl s
        · exact .refl s
        · exact .refl s
        · exact .refl s
theorem served_engWrite (s : State) (m a n data : Nat) : Served s (engWrite s m a n data) := served_devAccess ..
theorem served_engRead (s : State) (m a n : Nat) : Served s (engRead s m a n).1 := by
  have h := served_devAccess s m .load a n 0
  unfold engRead
  dsimp only
  split
  · exact h
  · exact h
theorem Served.media (h : Served s t) : t.media = s.media := by rw [h.rest]
theorem Served.fpp (h : Served s t) : t.fpp = s.fpp := by rw [h.rest]

/-! ### EXPRESS_INPUT_PAIR (R381, R382) -/

/-- The samples of a pair go to EXIN. -/
def exInWritten (s : State) (f g : RxFrame) : State :=
  ((exSlots s 2).zip (upto 16)).foldl (fun s e =>
    engWrite (engWrite s 95 (exAddr s false e.2 0) 2 (f.slots.getD e.1 0).toNat) 95 (exAddr s false e.2 1) 2 (g.slots.getD e.1 0).toNat) s
theorem served_exInWritten (s : State) (f g : RxFrame) : Served s (exInWritten s f g) :=
  .foldl _ (fun _ _ => (served_engWrite ..).trans (served_engWrite ..)) _ _
/-- A pair whose output is owed. -/
def pairOwed (s : State) (n : Nat) : State := { s with media := { s.media with xPair := n + 2, xOwed := some n } }
theorem pairOwed_fields (s : State) (n : Nat) : (pairOwed s n).carts = s.carts ∧ (pairOwed s n).media.xPair = n + 2 ∧ (pairOwed s n).media.xOwed = some n :=
  ⟨rfl, rfl, rfl⟩

section
variable {f g : RxFrame}

/-- The pair from `n` on is the next and both its frames have come. -/
theorem exInOp_pair (hx : s.media.xOn = true) (hcap : tget 0 s.media.lastCap (valN s 0x6140 1 0xFF) = n + 2) (heven : n % 2 = 0) (hnew : s.media.xPair ≤ n)
    (hf : rxAt s (valN s 0x6140 1 0xFF) n = some f) (hg : rxAt s (valN s 0x6140 1 0xFF) (n + 1) = some g) :
    exInOp s = if f.absent || g.absent then pairOwed s n else
      if releasing (pairOwed (exInWritten s f g) n) then
        releaseCart (pairOwed (exInWritten s f g) n) (valN (exInWritten s f g) 0x6140 6 0xFFFF) (n / 2) (ticks (pairOwed (exInWritten s f g) n)) false
      else pairOwed (exInWritten s f g) n := by
  have hcond : ¬ (!s.media.xOn || decide (n + 2 < 2) || decide (n % 2 ≠ 0) || decide (n < s.media.xPair)) = true := by
    simp [hx, heven, hnew]
  unfold exInOp
  dsimp only
  rw [hcap, Nat.add_sub_cancel, if_neg hcond, hf, hg]
  rfl

/-- What is owed of a pair that comes, and the express cart's job. -/
structure PairCame (s t : State) (n v : Nat) : Prop where
  pair : t.media.xPair = n + 2
  owed : t.media.xOwed = some n
  job : ∀ h, releasing s = true → (cartOf s v).isSome = true → cartLive s v = false → cartHome s v = some h → ∃ j, j ∈ queueOf t h ∧ j.cart = v ∧ j.k = n / 2

theorem pairCame_released (hu : u.carts = s.carts) (hp : u.media.xPair = n + 2) (ho : u.media.xOwed = some n) (v rel : Nat) :
    PairCame s (if releasing u then releaseCart u v (n / 2) rel false else u) n v := by
  have hrel : releasing u = releasing s := by unfold releasing; rw [hu]
  rw [hrel]
  cases hr : releasing s with
  | false => exact ⟨hp, ho, fun h hr' => by rw [hr] at hr'; cases hr'⟩
  | true =>
    have hj := jobsOnly_releaseCart u v (n / 2) rel false
    rw [if_pos rfl]
    refine ⟨by rw [hj.rest]; exact hp, by rw [hj.rest]; exact ho, fun h _ hc hl hh => ?_⟩
    obtain ⟨c, hc⟩ := Option.isSome_iff_exists.mp hc
    obtain ⟨tt, ht⟩ : ∃ tt, s.carts.table = some tt := by
      unfold cartOf at hc
      split at hc
      next x hx => exact ⟨x, hx⟩
      next => cases hc
    have hcart : cartOf u v = cartOf s v := by unfold cartOf; rw [hu]
    have hhome : cartHome u v = cartHome s v := by unfold cartHome; rw [hcart, hu]
    have hlive : cartLive u v = cartLive s v := by unfold cartLive; rw [hu]
    obtain ⟨-, -, hq, -⟩ := released_releaseCart (s := u) ⟨rfl, rfl, rfl, rfl, rfl, rfl, rfl⟩ (n / 2) rel h false (hcart.trans hc) ((congrArg Carts.table hu).trans ht)
      (hlive.trans hl) (hhome.trans hh)
    exact ⟨_, hq.mem_iff.mpr List.mem_cons_self, rfl, rfl⟩
theorem exInOp_releases (hx : s.media.xOn = true) (hcap : tget 0 s.media.lastCap (valN s 0x6140 1 0xFF) = n + 2) (heven : n % 2 = 0) (hnew : s.media.xPair ≤ n)
    (hf : rxAt s (valN s 0x6140 1 0xFF) n = some f) (hg : rxAt s (valN s 0x6140 1 0xFF) (n + 1) = some g) (hfa : f.absent = false) (hga : g.absent = false) :
    PairCame s (exInOp s) n (valN s 0x6140 6 0xFFFF) := by
  rw [exInOp_pair hx hcap heven hnew hf hg, if_neg (by rw [hfa, hga]; decide)]
  have h := served_exInWritten s f g
  have hval : valN (exInWritten s f g) 0x6140 6 0xFFFF = valN s 0x6140 6 0xFFFF := by unfold valN; rw [h.fpp]
  rw [hval]
  obtain ⟨h1, h2, h3⟩ := pairOwed_fields (exInWritten s f g) n
  exact pairCame_released (h1.trans h.carts) h2 h3 _ _
end

/-! ### EXPRESS_OUTPUT (R383, R384) -/

/-- Of the media only what goes out of the express path differs. -/
structure OutputOnly (s t : State) : Prop where
  media : t.media = { s.media with xLast := t.media.xLast, tx := t.media.tx, out := t.media.out }
theorem OutputOnly.trans (h : OutputOnly s t) (g : OutputOnly t u) : OutputOnly s u := ⟨by rw [g.media, h.media]⟩
theorem OutputOnly.foldl {α : Type} (f : State → α → State) (h : ∀ s a, OutputOnly s (f s a)) (xs : List α) (s : State) : OutputOnly s (xs.foldl f s) := by
  induction xs generalizing s with
  | nil => exact ⟨rfl⟩
  | cons a r ih => exact (h s a).trans (ih (f s a))
theorem Served.outputOnly (h : Served s t) : OutputOnly s t := ⟨by rw [h.media]⟩

/-- What an output leaves of the pair owed: it is delivered, or concealed and counted. -/
structure PairOut (s t : State) (good : Prop) : Prop where
  owed : t.media.xOwed = none
  delivered : good → t.media.xConcealed = s.media.xConcealed ∧ t.media.xDecay = 0 ∧ t.media.xFade = Nat.min 64 (s.media.xFade + 2)
  concealed : ¬ good → t.media.xConcealed = s.media.xConcealed + 1 ∧ t.media.xFade = 0 ∧ t.media.xDecay = Nat.min 64 (s.media.xDecay + 2)

theorem exOutOp_out (hx : s.media.xOn = true) (ho : s.media.xOwed = some n) :
    PairOut s (exOutOp s) (jobReport s (valN s 0x6140 6 0xFFFF) (n / 2) = some false) := by
  unfold exOutOp
  rw [ho]
  dsimp -zeta only
  rw [if_neg (by rw [hx]; decide)]
  extract_lets v good p put y md
  have hput (s : State) (slot f x : Nat) : OutputOnly s (put s slot f x) := ⟨rfl⟩
  clear_value put
  have h : OutputOnly s y := by
    refine .foldl _ (fun s e => ?_) _ _
    extract_lets h a b x y out outMedia faded sent
    have hb : OutputOnly s b.1 := ((served_engRead ..).trans (served_engRead ..)).outputOnly
    clear_value b
    have hfaded : OutputOnly s faded := by
      show OutputOnly s (if good then _ else s)
      split
      · exact hb.trans ⟨rfl⟩
      · exact ⟨rfl⟩
    clear_value faded
    exact ((hfaded.trans (hput ..)).trans (hput ..)).trans ⟨rfl⟩
  clear_value y
  have hm : md.xFade = s.media.xFade ∧ md.xDecay = s.media.xDecay ∧ md.xConcealed = s.media.xConcealed := by
    show y.media.xFade = _ ∧ y.media.xDecay = _ ∧ y.media.xConcealed = _
    rw [h.media]
    exact ⟨rfl, rfl, rfl⟩
  obtain ⟨h1, h2, h3⟩ := hm
  split
  next hgood => exact ⟨rfl, fun _ => ⟨h3, rfl, congrArg (fun x => Nat.min 64 (x + 2)) h1⟩, fun hn => absurd hgood hn⟩
  next hbad =>
    have hp := sourceOnly_pulse { y with media := { md with xOwed := none, xDecay := Nat.min 64 (md.xDecay + 2), xFade := 0, xConcealed := md.xConcealed + 1 } } 575
    refine ⟨by rw [hp.media], fun hg => absurd hg hbad, fun _ => ?_⟩
    rw [hp.media]
    exact ⟨congrArg (· + 1) h3, rfl, congrArg (fun x => Nat.min 64 (x + 2)) h2⟩

theorem expressPairsRun : Clause.ExpressPairsRun := by
  intro s f g n hx
  have hin : exec .expressInputPair s = .next (exInOp s) := act_wf rfl
  refine ⟨?_, ?_, fun ho => ?_⟩
  · intro p v hcap heven hnew hf hg hfa hga
    have h := exInOp_releases hx hcap heven hnew hf hg hfa hga
    exact ⟨_, hin, h.pair, h.owed, h.job⟩
  · intro p hcap heven hnew hf hg ha
    rw [hin, exInOp_pair hx hcap heven hnew hf hg, if_pos ha]
    rfl
  · have hexec : exec .expressOutput s = .next (exOutOp s) := act_wf rfl
    have h := exOutOp_out hx ho
    exact ⟨_, hexec, h.owed, h.delivered, h.concealed⟩

/-- Settles O46: the streams by their stores and blocks, the express pairs by what is owed of them. -/
theorem asrcAndExpress : Obligations.AsrcAndExpress := ⟨asrcStreamsRun, expressPairsRun⟩

end Sys2Proof.Machine
end

section
/-! What an access of a bank, and an access whose turn comes, can do to the state, said once: a relation that a change of the memories, a
write of a register of MEM_ or ECC_, a pulse, and the answer to an access under way each keep is kept by the whole access (R281 to R290,
R306 to R331). -/
namespace Sys2Proof.Machine

/-- A relation that holds of each of the steps that accesses of the memories are made of. -/
structure AccessClosed (R : State → State → Prop) : Prop where
  refl : ∀ s, R s s
  trans : ∀ {s t u}, R s t → R t u → R s u
  mem : ∀ s m, R s { s with mem := m }
  reg : ∀ s a v, a / 0x10000 = 0x408 ∨ a / 0x10000 = 0x409 → R s (setReg s a v)
  pulse : ∀ s n, n < 2048 → R s (pulse s n)
  access : ∀ s m l, l.length = (co s m).access.length → R s (setCo s m { co s m with access := l })

variable {R : State → State → Prop} (hR : AccessClosed R) {s t : State}
include hR

/-! ### Banks -/

theorem AccessClosed.foldl {α : Type} (f : State → α → State) (h : ∀ s a, R s (f s a)) (l : List α) (s : State) : R s (l.foldl f s) := by
  induction l generalizing s with
  | nil => exact hR.refl s
  | cons a r ih => exact hR.trans (h s a) (ih (f s a))
theorem AccessClosed.andMem (h : R s t) (m : Mem) : R s { t with mem := m } := hR.trans h (hR.mem t m)
theorem AccessClosed.ite {c : Prop} [Decidable c] (ht : R s t) {u : State} (hu : R s u) : R s (if c then t else u) := by
  split
  · exact ht
  · exact hu
theorem AccessClosed.errReport {cls : Nat} (hc : cls < 16) (s : State) (kind inst master detail addr : Nat) : R s (errReport s cls kind inst master detail addr) := by
  have hq (x : State) (r : ErrRec) (hr : r.cls = cls) : R x (errQueue x r) := by
    unfold errQueue
    split
    · exact hR.mem x _
    · exact hR.reg x _ _ (.inr (by unfold eccLost eccStat; omega))
  unfold Machine.errReport
  exact hR.trans (hR.mem s _) (hq _ _ rfl)
theorem AccessClosed.lineReport {cls : Nat} (hc : cls < 16) (s : State) (lk master detail : Nat) : R s (lineReport s cls lk master detail) :=
  hR.errReport hc ..
theorem AccessClosed.rewriteLine (s : State) (lk new : Nat) (p : Bool) : R s (rewriteLine s lk new p) := by
  unfold Machine.rewriteLine
  dsimp only
  split
  · exact hR.trans (hR.mem s _) (hR.reg _ _ _ (.inr (by decide)))
  · exact hR.mem s _
theorem AccessClosed.corrCount (s : State) (ik lk : Nat) : R s (corrCount s ik lk) := by
  unfold Machine.corrCount
  dsimp only
  split
  · exact hR.mem s _
  · split
    · exact hR.mem s _
    · exact hR.trans (hR.mem s _) (hR.reg _ _ _ (.inr (by decide)))
theorem AccessClosed.corrected (s : State) (lk master syn : Nat) (b : Bool) : R s (corrected s lk master syn b) := by
  have h := hR.trans (hR.lineReport (cls := 0) (by decide) s lk master syn) (hR.corrCount _ (lk / 2 ^ 30) lk)
  unfold Machine.corrected
  dsimp only
  split
  · exact hR.andMem h _
  · exact h
theorem AccessClosed.parCorrected (s : State) (pk q master syn : Nat) : R s (parCorrected s pk q master syn) :=
  hR.trans (hR.lineReport (by decide) ..) (hR.corrCount ..)
theorem AccessClosed.correctPars (s : State) (pk master : Nat) (ps : List LineRead) : R s (correctPars s pk master ps) := by
  unfold Machine.correctPars
  refine hR.foldl _ (fun t q => ?_) _ s
  split
  · split
    · exact hR.parCorrected ..
    · exact hR.refl _
  · exact hR.refl _
theorem AccessClosed.correctSingles (s : State) (pk master : Nat) : R s (correctSingles s pk master) := by
  unfold Machine.correctSingles
  refine hR.trans (hR.foldl _ (fun t n => ?_) _ s) (hR.correctPars ..)
  dsimp only
  split
  · exact hR.corrected ..
  · exact hR.refl _
theorem AccessClosed.putLine (s : State) (lk old new : Nat) (p : Bool) : R s (putLine s lk old new p) := by
  unfold Machine.putLine
  dsimp only
  split
  · exact hR.rewriteLine ..
  · exact hR.andMem (hR.rewriteLine ..) _
theorem AccessClosed.poisonLost (s : State) (pk : Nat) (ls : List LineRead) : R s (poisonLost s pk ls) := by
  refine hR.foldl _ (fun t n => ?_) _ s
  split
  · unfold poisonLine
    split
    · exact hR.rewriteLine ..
    · split
      · exact hR.rewriteLine ..
      · exact hR.refl _
  · exact hR.refl _
theorem AccessClosed.reconPage (s : State) (pk master : Nat) : R s (reconPage s pk master).1 := by
  unfold Machine.reconPage
  extract_lets u dec ls
  have h : R s u := hR.correctSingles ..
  clear_value u dec ls
  split
  · exact hR.trans (hR.andMem (hR.trans h (hR.foldl _ (fun _ _ => hR.rewriteLine ..) _ _)) _) (hR.lineReport (by decide) ..)
  · exact hR.trans (hR.andMem (hR.trans h (hR.poisonLost ..)) _) (hR.foldl _ (fun _ _ => hR.lineReport (by decide) ..) _ _)
theorem AccessClosed.writeOutEntry (s : State) (po : Nat) (e : MergeEntry) (master : Nat) : R s (writeOutEntry s po e master) := by
  have hdrop : R s (mergeDrop s po e.line) := hR.mem s _
  have hrecon : R s (if (lineGet (mergeDrop s po e.line) e.line).st = 3 then Machine.reconPage (mergeDrop s po e.line) (e.line / 64) master
      else (mergeDrop s po e.line, true)).1 := by
    split
    · exact hR.trans hdrop (hR.reconPage ..)
    · exact hdrop
  unfold Machine.writeOutEntry
  dsimp only
  generalize (if (lineGet (mergeDrop s po e.line) e.line).st = 3 then Machine.reconPage (mergeDrop s po e.line) (e.line / 64) master
      else (mergeDrop s po e.line, true)) = x at hrecon ⊢
  refine hR.trans ?_ (hR.putLine ..)
  have hcorr : R s (if (lineGet (mergeDrop s po e.line) e.line).st = 1 then Machine.corrected x.1 e.line master (lineGet (mergeDrop s po e.line) e.line).syn false
      else x.1) := hR.ite (hR.trans hrecon (hR.corrected ..)) hrecon
  exact hR.ite (hR.trans hcorr (hR.lineReport (by decide) ..)) hcorr
theorem AccessClosed.narrowWrite (s : State) (po lk i n data master : Nat) : R s (narrowWrite s po lk i n data master) := by
  unfold Machine.narrowWrite
  dsimp only
  split
  · exact hR.andMem (hR.mem s _) _
  · refine hR.andMem ?_ _
    split
    · exact hR.mem s _
    · split
      · exact hR.trans (hR.mem s _) (hR.writeOutEntry ..)
      · exact hR.mem s _
theorem AccessClosed.readLine (s : State) (lk need master : Nat) : R s (readLine s lk need master).st := by
  have hfix (x : Nat) : R s (if (lineGet s lk).st = 1 then Machine.corrected s lk master x true else s) := hR.ite (hR.corrected ..) (hR.refl s)
  unfold Machine.readLine
  dsimp only
  split
  · split
    · exact hR.lineReport (by decide) s _ _ _
    · split
      · exact hR.refl s
      · split
        · exact hR.refl s
        · split
          · exact hR.lineReport (by decide) s _ _ _
          · exact hfix _
  · split
    · exact hR.refl s
    · split
      · exact hR.lineReport (by decide) s _ _ _
      · exact hfix _
/-- An entry of the written line is dropped. -/
theorem AccessClosed.entryDropped (s : State) (lk : Nat) (o : Option (Nat × MergeEntry)) : R s (match o with | some (po, _) => mergeDrop s po lk | none => s) := by
  split
  · exact hR.mem s _
  · exact hR.refl s
/-- An entry of the line is written out. -/
theorem AccessClosed.entryWritten (s : State) (master : Nat) (o : Option (Nat × MergeEntry)) :
    R s (match o with | some (po, e) => Machine.writeOutEntry s po e master | none => s) := by
  split
  · exact hR.writeOutEntry ..
  · exact hR.refl s
theorem AccessClosed.writeLine (s : State) (lk new master : Nat) : R s (writeLine s lk new master).st := by
  have h : R s (mergeClear s lk) := hR.trans (hR.mem s _) (hR.mem _ _)
  unfold Machine.writeLine
  dsimp only
  split
  · exact hR.refl s
  · exact hR.trans (hR.ite (hR.trans h (hR.corrected ..)) h) (hR.putLine ..)
theorem AccessClosed.atomLine (s : State) (lk i n : Nat) (b : Bool) (opnd master : Nat) : R s (atomLine s lk i n b opnd master).st := by
  unfold Machine.atomLine
  extract_lets r ent t bad x dropped fixed
  have hdrop : R s dropped := hR.entryDropped s lk ent
  clear_value dropped
  split
  · exact hR.refl s
  · split
    · exact hR.trans (hR.entryWritten s master ent) (hR.lineReport (by decide) t _ _ _)
    · split
      · exact hR.entryWritten s master ent
      · exact hR.trans (hR.ite (hR.trans hdrop (hR.corrected ..)) hdrop) (hR.putLine ..)
theorem AccessClosed.bankAccess (s : State) (po : Nat) (k : AccKind) (wk n data master : Nat) : R s (bankAccess s po k wk n data master).st := by
  unfold Machine.bankAccess
  cases k with
  | load =>
    dsimp only
    split
    · split
      · exact hR.readLine ..
      · split
        · exact hR.trans (hR.readLine ..) (hR.readLine ..)
        · exact hR.trans (hR.readLine ..) (hR.readLine ..)
    · split
      · exact hR.readLine ..
      · exact hR.readLine ..
  | store =>
    dsimp only
    split
    · split
      · exact hR.refl s
      · split
        · exact hR.writeLine ..
        · exact hR.trans (hR.writeLine ..) (hR.writeLine ..)
    · split
      · exact hR.writeLine ..
      · exact hR.narrowWrite ..
  | atomAdd => exact hR.atomLine ..
  | atomSwap => exact hR.atomLine ..
theorem AccessClosed.iteOut {c : Prop} [Decidable c] {a b : BankOut} (ha : R s a.st) (hb : R s b.st) : R s (if c then a else b).st := by
  split
  · exact ha
  · exact hb
theorem AccessClosed.afterRecon {k : AccKind} {again : State → BankOut} {r : State × Bool} (h : R s r.1) (g : ∀ t, R s t → R s (again t).st) :
    R s (afterRecon k again r).st := by
  unfold Machine.afterRecon
  with_reducible exact hR.iteOut h (g _ h)
theorem AccessClosed.nowStep {k : AccKind} {master : Nat} {again : State → BankOut} {a : BankOut} (h : R s a.st)
    (g : ∀ t, R s t → R s (again t).st) : R s (nowStep k master again a).st := by
  unfold Machine.nowStep
  with_reducible exact hR.iteOut h (hR.afterRecon (hR.trans h (hR.reconPage ..)) g)
theorem AccessClosed.bankAccessNow (s : State) (po : Nat) (k : AccKind) (wk n data master : Nat) : R s (bankAccessNow s po k wk n data master).st := by
  unfold Machine.bankAccessNow
  exact hR.nowStep (hR.bankAccess ..) fun t ht => hR.nowStep (hR.trans ht (hR.bankAccess ..)) fun u hu => hR.trans hu (hR.bankAccess u po k wk n data master)

/-! ### What waits at a port -/

theorem AccessClosed.answerAccess (s : State) (m ld : Nat) (r : Answer) : R s (answerAccess s m ld r) := hR.access _ _ _ (List.length_map _)
theorem AccessClosed.noteRefused (s : State) (m ld n : Nat) : R s (noteRefused s m ld n) := hR.access _ _ _ (List.length_map _)
theorem AccessClosed.setReqs (s : State) (po : Nat) (l : List BankReq) : R s (setReqs s po l) := hR.mem s _
theorem AccessClosed.refuseOthers (s : State) (po : Nat) (r : Option BankReq) : R s (refuseOthers s po r) := hR.setReqs ..
theorem AccessClosed.epochRefuse (s : State) (m a : Nat) : R s (epochRefuse s m a) := by
  have hset : R s (setRegB s memStat 1 true) := hR.reg _ _ _ (.inl (by decide))
  have hflag : R s (memFlag s 1) := hR.trans hset (hR.pulse _ _ (by decide))
  unfold Machine.epochRefuse
  exact hR.trans (hR.andMem hflag _) (hR.errReport (by decide) ..)
theorem AccessClosed.regionRefuse (s : State) (m a code : Nat) : R s (regionRefuse s m a code) := by
  unfold Machine.regionRefuse
  exact hR.trans (hR.mem s _) (hR.errReport (by decide) ..)
theorem AccessClosed.dramRefused (s : State) (kind : Nat) : R s (dramRefused s kind) := by
  unfold Machine.dramRefused
  exact hR.ite (hR.mem s _) (hR.refl s)
theorem AccessClosed.answered (h : R s t) (po : Nat) (l : List BankReq) (m ld : Nat) (r : Answer) : R s (Machine.answerAccess (Machine.setReqs t po l) m ld r) :=
  hR.trans (hR.trans h (hR.setReqs ..)) (hR.answerAccess ..)
theorem AccessClosed.serveAccess (s : State) (po : Nat) (r : BankReq) (a : Access) : R s (serveAccess s po r a) := by
  have hn := hR.noteRefused s r.master r.ld r.refusals
  unfold Machine.serveAccess
  dsimp only
  split
  · split
    · exact hR.answered (hR.trans hn (hR.epochRefuse ..)) ..
    · split
      · exact hR.answered (hR.trans hn (hR.dramRefused ..)) ..
      · split
        · exact hR.andMem (hR.trans hn (hR.bankAccess ..)) _
        · exact hR.answered (hR.trans hn (hR.bankAccess ..)) ..
  · exact hR.answered hn ..
theorem AccessClosed.writeBackOne (s : State) (bk : Nat) : R s (writeBackOne s bk) := by
  unfold Machine.writeBackOne
  split
  · exact hR.refl s
  · dsimp only
    split
    · exact hR.trans (hR.mem s _) (hR.rewriteLine ..)
    · exact hR.mem s _
theorem AccessClosed.portCycle (s : State) (po : Nat) : R s (portCycle s po) := by
  unfold Machine.portCycle
  with_reducible refine hR.ite (hR.refuseOthers ..) ?_
  with_reducible refine hR.ite (hR.trans (hR.writeBackOne ..) (hR.refuseOthers ..)) ?_
  split
  · exact hR.refl s
  · dsimp only
    split
    · exact hR.trans (hR.refuseOthers ..) (hR.serveAccess ..)
    · exact hR.trans (hR.refuseOthers ..) (hR.setReqs ..)
theorem AccessClosed.flushMerge (s : State) (lk m : Nat) : R s (flushMerge s lk m) := by
  unfold Machine.flushMerge
  split
  · exact hR.writeOutEntry ..
  · exact hR.refl s
theorem AccessClosed.reconFailed (s : State) (po : Nat) (q : BankReq) (a : Access) : R s (reconFailed s po q a) := by
  unfold Machine.reconFailed
  refine hR.answered (hR.ite (hR.refl s) ?_) ..
  split
  · exact hR.flushMerge ..
  · exact hR.refl s
theorem AccessClosed.reconAnswer (s : State) (ok : Bool) (bk : Nat) (r : Recon) : R s (reconAnswer s ok bk r) := by
  unfold Machine.reconAnswer
  split
  · exact hR.refl s
  · split
    · exact hR.refl s
    · exact hR.ite (hR.refl s) (hR.reconFailed ..)
theorem AccessClosed.reconNext (s : State) (bk : Nat) : R s (reconNext s bk) := by
  unfold Machine.reconNext
  split
  · exact hR.refl s
  · exact hR.trans (hR.mem s _) (hR.trans (hR.reconPage ..) (hR.reconAnswer ..))

/-! ### An access whose turn comes -/

theorem AccessClosed.portTurn (m cl n : Nat) (s : State) (po lost : Nat) : R s (portTurn m cl n s po lost).1 := by
  induction n generalizing s lost with
  | zero => exact hR.refl s
  | succ n ih =>
    unfold Machine.portTurn
    dsimp only
    split
    · exact hR.trans (hR.reconNext ..) (ih ..)
    · split
      · exact hR.trans (hR.trans (hR.writeBackOne ..) (hR.refuseOthers ..)) (ih ..)
      · split
        · exact hR.refl s
        · split
          · exact hR.trans (hR.portCycle ..) (ih ..)
          · exact hR.refuseOthers ..
theorem AccessClosed.bulkTurn (s : State) (po : Nat) : R s (bulkTurn s po) := by
  unfold Machine.bulkTurn
  exact hR.ite (hR.mem s _) (hR.ite (hR.mem s _) (hR.andMem (hR.portCycle ..) _))
theorem AccessClosed.turnAccess (s : State) (cl po : Nat) (k : AccKind) (wk n data m : Nat) : R s (turnAccess s cl po k wk n data m).st := by
  unfold Machine.turnAccess
  split
  · exact hR.trans (hR.bulkTurn ..) (hR.bankAccessNow ..)
  · exact hR.trans (hR.portTurn ..) (hR.bankAccessNow ..)

end Sys2Proof.Machine
end

section
/-! Power domains switch (R504 to R507): a transition leaves the requests that L0 has made. -/
namespace Sys2Proof.Machine

variable {s t u : State} {d req c : Nat}

/-! ### The registers of PWR_ -/

/-- No register of PWR_ differs. -/
structure PwrKept (s t : State) : Prop where
  regs : ∀ a, a / 0x10000 = 0x40F → reg t a = reg s a
theorem PwrKept.refl (s : State) : PwrKept s s := ⟨fun _ _ => rfl⟩
theorem PwrKept.trans (h : PwrKept s t) (g : PwrKept t u) : PwrKept s u := ⟨fun a ha => (g.regs a ha).trans (h.regs a ha)⟩
theorem PwrKept.foldl {α : Type} (f : State → α → State) (h : ∀ s a, PwrKept s (f s a)) (xs : List α) (s : State) : PwrKept s (xs.foldl f s) := by
  induction xs generalizing s with
  | nil => exact .refl s
  | cons a r ih => exact (h s a).trans (ih (f s a))
theorem PwrKept.of_regs (h1 : t.regs = s.regs) (h2 : t.variant = s.variant) : PwrKept s t := ⟨fun a _ => reg_congr h1 h2 a⟩
theorem SourceOnly.pwrKept {n : Nat} (h : SourceOnly n s t) (hn : n < 2048) : PwrKept s t :=
  ⟨fun a ha => h.regs a (ne_icScnt_of_block (by omega) n hn)⟩
theorem pwrKept_setReg (s : State) {b : Nat} (v : W32) (hb : b / 0x10000 ≠ 0x40F) : PwrKept s (setReg s b v) :=
  ⟨fun a ha => by rw [reg_setReg, if_neg (fun h : a = b => hb (by rw [← h]; exact ha))]⟩
theorem accessClosed_pwrKept : AccessClosed PwrKept where
  refl := .refl
  trans := .trans
  mem _ _ := .of_regs rfl rfl
  reg s _ v ha := pwrKept_setReg s v (by omega)
  pulse s n hn := (sourceOnly_pulse s n).pwrKept hn
  access _ _ _ _ := .of_regs rfl rfl

theorem pwrDom_block (hd : d < 148) : pwrDom d / 0x10000 = 0x40F := by unfold pwrDom pwrBase; omega
theorem PwrKept.regF (h : PwrKept s t) (hd : d < 148) (lo w : Nat) : regF t (pwrDom d) lo w = regF s (pwrDom d) lo w := by
  unfold Machine.regF
  rw [h.regs _ (pwrDom_block hd)]

/-! ### What a transition does on its way -/

theorem pwrKept_lineRead {o : BankOut} (h : PwrKept s o.st) (now i : Nat) (ws : List Word) : PwrKept s (lineRead now i o ws).1 := h
theorem pwrKept_crashStep (now c : Nat) (x : State × List Word) (i : Nat) : PwrKept x.1 (crashStep now c x i).1 := by
  have h : PwrKept x.1 (crashLine c x.1 i).st := by
    unfold crashLine
    exact accessClosed_pwrKept.turnAccess ..
  unfold crashStep
  exact pwrKept_lineRead h ..
theorem pwrKept_crashRead (s : State) (c : Nat) : PwrKept s (crashRead s c).1 := by
  have h : ∀ (xs : List Nat) (x : State × List Word), PwrKept x.1 (xs.foldl (crashStep s.now c) x).1 := by
    intro xs
    induction xs with
    | nil => exact fun x => .refl _
    | cons i r ih => exact fun x => (pwrKept_crashStep ..).trans (ih _)
  exact h _ (s, [])
theorem pwrKept_crashNoted {r : State × List Word} (h : PwrKept s r.1) (c : Nat) :
    PwrKept s { r.1 with carts := { r.1.carts with crash := tput [] r.1.carts.crash c r.2 } } := h.trans (.of_regs rfl rfl)
theorem pwrKept_copyCrash (s : State) (c : Nat) : PwrKept s (copyCrash s c) := by
  rw [copyCrash_eq]
  split
  · exact .refl s
  · exact pwrKept_crashNoted (pwrKept_crashRead s c) c
theorem pwrKept_flushDomain (s : State) (d : Nat) : PwrKept s (flushDomain s d) := by
  unfold flushDomain
  refine .foldl _ (fun t e => .foldl _ (fun t x => ?_) _ _) _ _
  split
  · exact accessClosed_pwrKept.writeOutEntry ..
  · exact .refl t
theorem pwrKept_dropHeads (s : State) (e q k : Nat) : PwrKept s (dropHeads s e q k) := by
  unfold dropHeads
  dsimp only
  split
  · exact .of_regs rfl rfl
  · exact .of_regs rfl rfl
theorem pwrKept_creditNow (s : State) (e q : Nat) : PwrKept s (creditNow s e q) := by
  unfold creditNow
  dsimp only
  split
  · exact .refl s
  · exact .of_regs rfl rfl
theorem pwrKept_dropLink (s : State) {e : Nat} (he : e < 6) : PwrKept s (dropLink s e) := by
  have hlink : PwrKept s (setLink s e false) :=
    (pwrKept_setReg s _ (by unfold ethStat ethBase; omega)).trans ((sourceOnly_setLevel ..).pwrKept (by omega))
  unfold dropLink
  refine (hlink.trans ?_).trans (.foldl _ (fun _ _ => pwrKept_dropHeads ..) _ _)
  unfold creditsNow
  exact .foldl _ (fun _ _ => pwrKept_creditNow ..) _ _
theorem tget_tclear_out {β : Type} (x : β) (tb : Table β) {lo hi j : Nat} (h : j < lo ∨ hi ≤ j) : tget x (tclear tb lo hi) j = tget x tb j := by
  refine (tget_filter x tb (fun e => !(decide (lo ≤ e) && decide (e < hi))) j).trans (if_pos ?_)
  obtain h | h := h
  · rw [decide_eq_false (by omega : ¬ lo ≤ j)]; rfl
  · rw [decide_eq_false (by omega : ¬ j < hi), Bool.and_false]; rfl
theorem pwrKept_resetBlock (s : State) {lo hi : Nat} (hb : 0x04100000 ≤ lo) : PwrKept s (resetBlock s lo hi) :=
  ⟨fun a ha => tget_tclear_out (sysReset s.variant a) s.regs (lo := lo) (hi := hi) (j := a) (.inl (by omega))⟩
theorem pwrKept_logicLost (s : State) (d : Nat) : PwrKept s (logicLost s d) := by
  unfold logicLost
  split
  next hd =>
    have hsig : PwrKept s (match haltSource d with | some n => setLevel s n false | none => s) := by
      unfold haltSource
      split
      next n hn =>
        refine (sourceOnly_setLevel s n false).pwrKept ?_
        split at hn
        · cases hn; omega
        · split at hn
          · cases hn; omega
          · cases hn
      next => exact .refl s
    exact (hsig.trans (.of_regs rfl rfl)).trans (.of_regs rfl rfl)
  next hd =>
    split
    · exact (pwrKept_dropLink s (by simp at *; omega)).trans (pwrKept_resetBlock _ (by unfold ethBase; omega))
    · split
      · exact pwrKept_resetBlock _ (by unfold apBase; omega)
      · split
        · exact pwrKept_resetBlock _ (by unfold asBase; omega)
        · exact .refl s

/-! ### The state that a domain reaches -/

/-- The state in which a domain switches: the crash area of a coach that goes off has been copied. -/
def beforeSwitch (s : State) (d st : Nat) : State := if d < 76 && st ≠ 2 then copyCrash s d else s
theorem pwrKept_beforeSwitch (s : State) (d st : Nat) : PwrKept s (beforeSwitch s d st) := by
  unfold beforeSwitch
  split
  · exact pwrKept_copyCrash ..
  · exact .refl s
theorem setDomain_eq (s : State) (d st : Nat) : setDomain s d st =
    if domState (beforeSwitch s d st) d = st then beforeSwitch s d st
    else if st = 0 then setRegF (wipeDomain (logicLost (beforeSwitch s d st) d) d) (pwrDom d) 8 2 0
    else if st = 1 then setRegF (logicLost (flushDomain (beforeSwitch s d st) d) d) (pwrDom d) 8 2 1
    else setRegF (beforeSwitch s d st) (pwrDom d) 8 2 2 := rfl

/-- The domain has its state, and the state asked for stays. -/
theorem setDomain_reaches (hd : d < 148) {st : Nat} (hst : st < 3) (s : State) :
    domState (setDomain s d st) d = st ∧ regF (setDomain s d st) (pwrDom d) 0 2 = regF s (pwrDom d) 0 2 := by
  have hset (x : State) (hx : PwrKept s x) (v : Nat) : regF (setRegF x (pwrDom d) 8 2 v) (pwrDom d) 0 2 = regF s (pwrDom d) 0 2 := by
    rw [regF_setRegF_other _ _ _ _ _ _ _ (by decide) (by decide), hx.regF hd]
  have hgot (x : State) (v : Nat) : domState (setRegF x (pwrDom d) 8 2 v) d = v % 4 := regF_setRegF_same x (pwrDom d) 8 2 v (by decide)
  rw [setDomain_eq]
  have hb := pwrKept_beforeSwitch s d st
  generalize beforeSwitch s d st = x at hb
  split
  next h => exact ⟨h, hb.regF hd 0 2⟩
  · split
    next h0 =>
      refine ⟨(hgot _ 0).trans h0.symm, hset _ (hb.trans ((pwrKept_logicLost x d).trans ?_)) 0⟩
      exact .of_regs rfl rfl
    · split
      next h1 => exact ⟨(hgot _ 1).trans h1.symm, hset _ (hb.trans ((pwrKept_flushDomain ..).trans (pwrKept_logicLost ..))) 1⟩
      next h0 h1 => exact ⟨(hgot _ 2).trans (by omega), hset _ hb 2⟩

theorem co_of_coaches (h : t.coaches = s.coaches) (c : Nat) : co t c = co s c := by unfold co; rw [h]
theorem wipeDomain_coaches (s : State) (d : Nat) : (wipeDomain s d).coaches = s.coaches := rfl
theorem wipeDomain_data (s : State) (d k : Nat) (h : inDomain d k = true) : tget 0 (wipeDomain s d).mem.data k = 0 :=
  (tget_filter 0 s.mem.data (fun e => !(inDomain d e)) k).trans (if_neg (by simp [h]))
theorem co_crashNoted {k : Coach} {r : State × List Word} (h : OnlyAnswers k (co r.1 d)) (c : Nat) :
    OnlyAnswers k (co { r.1 with carts := { r.1.carts with crash := tput [] r.1.carts.crash c r.2 } } d) := h
theorem co_copyCrash (s : State) (c d : Nat) : OnlyAnswers (co s d) (co (copyCrash s c) d) := by
  rw [copyCrash_eq]
  split
  · exact .refl _
  · exact co_crashNoted ((served_crashRead s c).coach d) c
theorem logicLost_coach (s : State) (hd : d < 76) : ∃ y, y.coaches = s.coaches ∧ logicLost s d = setCo (dropReqs y d) d (offCoach (co y d)) := by
  unfold logicLost
  rw [if_pos hd]
  cases haltSource d with
  | none => exact ⟨s, rfl, rfl⟩
  | some n => exact ⟨setLevel s n false, (sourceOnly_setLevel s n false).coaches, rfl⟩
/-- A domain that goes OFF has lost its memory and its coach. -/
theorem setDomain_off (hd : d < 148) (hon : domState s d ≠ 0) : (∀ k, inDomain d k = true → tget 0 (setDomain s d 0).mem.data k = 0) ∧
    (d < 76 → ∃ k, co (setDomain s d 0) d = offCoach k ∧ k.lastHalt = (co s d).lastHalt ∧ k.dead = (co s d).dead) := by
  have hb := pwrKept_beforeSwitch s d 0
  have hco : OnlyAnswers (co s d) (co (beforeSwitch s d 0) d) := by
    unfold beforeSwitch
    split
    · exact co_copyCrash s d d
    · exact .refl _
  rw [setDomain_eq]
  generalize beforeSwitch s d 0 = x at hb hco
  rw [if_neg (by rw [show domState x d = domState s d from hb.regF hd 8 2]; exact hon), if_pos rfl]
  refine ⟨fun k hk => ?_, fun hlt => ?_⟩
  · rw [setRegF_mem]
    exact wipeDomain_data _ d k hk
  · obtain ⟨y, hy, hlogic⟩ := logicLost_coach x hlt
    refine ⟨co x d, ?_, by rw [hco.1], by rw [hco.1]⟩
    rw [co_of_coaches (setRegF_coaches ..), co_of_coaches (wipeDomain_coaches ..), hlogic, co_setCo_same, co_of_coaches hy]
theorem setDomain_on (s : State) (d : Nat) : (setDomain s d 2).mem = s.mem ∧ (setDomain s d 2).coaches = s.coaches := by
  have hb : beforeSwitch s d 2 = s := by
    unfold beforeSwitch
    rw [show (decide (2 ≠ 2)) = false from rfl, Bool.and_false]
    rfl
  rw [setDomain_eq, hb]
  split
  · exact ⟨rfl, rfl⟩
  · exact ⟨setRegF_mem .., setRegF_coaches ..⟩

/-! ### Requests and transitions -/

theorem pwrDom_inj {e : Nat} (h : pwrDom d = pwrDom e) : d = e := by unfold pwrDom pwrBase at h; omega
/-- A transition that starts. -/
def domMoving (s : State) (d req : Nat) : State :=
  let t := setRegB s (pwrDom d) 11 true
  { t with pwr := { t.pwr with moving := tput 0 t.pwr.moving d (req + 1) } }
theorem domMoving_fields (s : State) (d req : Nat) : OnlyRegs [pwrDom d] { s with pwr := (domMoving s d req).pwr } (domMoving s d req) ∧
    regB (domMoving s d req) (pwrDom d) 11 = true ∧ (∀ lo w, lo + w ≤ 11 → regF (domMoving s d req) (pwrDom d) lo w = regF s (pwrDom d) lo w) ∧
    (∀ e, tget 0 (domMoving s d req).pwr.moving e = if e = d then req + 1 else tget 0 s.pwr.moving e) ∧ (domMoving s d req).mem = s.mem ∧
    (domMoving s d req).coaches = s.coaches := by
  have h1 : OnlyRegs [pwrDom d] s (setRegB s (pwrDom d) 11 true) := onlyRegs_setRegB _ _ _ _
  have h2 : regB (setRegB s (pwrDom d) 11 true) (pwrDom d) 11 = true := regB_setRegB_same _ _ _ _ (by decide)
  have h3 : ∀ lo w, lo + w ≤ 11 → regF (setRegB s (pwrDom d) 11 true) (pwrDom d) lo w = regF s (pwrDom d) lo w := fun lo w h =>
    regF_setRegB_other _ _ _ _ _ _ (.inl h) (by omega)
  unfold domMoving
  dsimp only
  generalize setRegB s (pwrDom d) 11 true = t at h1 h2 h3
  refine ⟨⟨by rw [h1.1], h1.2⟩, h2, h3, fun e => ?_, by rw [h1.1], by rw [h1.1]⟩
  rw [h1.1]
  exact tget_tput 0 s.pwr.moving d e (req + 1)
theorem domStart_eq (s : State) (d req : Nat) : domStart s d req =
    if domState s d = req || domBusy s d || !(domPresent s.variant d) || 4 ≤ movingCount s then s else domMoving s d req := rfl

/-- A request taken in PWR_DOM. -/
theorem requested_fields (s : State) (d : Nat) (hreq : req < 3) : OnlyRegs [pwrDom d] s (setRegF s (pwrDom d) 0 2 req) ∧
    regF (setRegF s (pwrDom d) 0 2 req) (pwrDom d) 0 2 = req ∧ domState (setRegF s (pwrDom d) 0 2 req) d = domState s d ∧
    domBusy (setRegF s (pwrDom d) 0 2 req) d = domBusy s d ∧ (setRegF s (pwrDom d) 0 2 req).pwr = s.pwr := by
  refine ⟨onlyRegs_setRegF _ _ _ _ _, ?_, regF_setRegF_other _ _ _ _ _ _ _ (.inr (by decide)) (by decide), ?_, rfl⟩
  · exact (regF_setRegF_same _ _ _ _ _ (by decide)).trans (Nat.mod_eq_of_lt (by omega))
  · unfold domBusy
    rw [regB_setRegF _ _ _ _ _ _ (by decide)]
    rfl

/-- Of a domain that is in the state asked for, or that another one goes before, nothing differs when a waiting request starts. -/
theorem domNext_spec (s : State) (d : Nat) : (domNext s).mem = s.mem ∧ (domNext s).coaches = s.coaches ∧ domState (domNext s) d = domState s d ∧
    (regF s (pwrDom d) 0 2 = domState s d → domBusy (domNext s) d = domBusy s d ∧ tget 0 (domNext s).pwr.moving d = tget 0 s.pwr.moving d) := by
  unfold domNext
  split
  next e he =>
    rw [domStart_eq]
    split
    · exact ⟨rfl, rfl, rfl, fun _ => ⟨rfl, rfl⟩⟩
    · obtain ⟨h1, -, h3, h4, h5, h6⟩ := domMoving_fields s e (regF s (pwrDom e) 0 2)
      have hother (hne : d ≠ e) : reg (domMoving s e (regF s (pwrDom e) 0 2)) (pwrDom d) = reg s (pwrDom d) :=
        h1.2 _ (by simpa using fun h => hne (pwrDom_inj h))
      refine ⟨h5, h6, ?_, fun hreq => ?_⟩
      · by_cases hde : d = e
        · subst hde
          exact h3 8 2 (by decide)
        · exact congrArg (rfld · 8 2) (hother hde)
      · have hde : d ≠ e := by
          rintro rfl
          have hp := List.find?_some he
          simp only [Bool.and_eq_true, decide_eq_true_eq] at hp
          obtain ⟨⟨⟨-, hne⟩, -⟩, -⟩ := hp
          exact hne hreq
        refine ⟨?_, (h4 d).trans (if_neg hde)⟩
        exact congrArg (rbit · 11) (hother hde)
  next => exact ⟨rfl, rfl, rfl, fun _ => ⟨rfl, rfl⟩⟩

/-- The change is over: BUSY is clear and the domain is none of those in transition. -/
def domSettled (s : State) (d : Nat) : State :=
  let t := setRegB s (pwrDom d) 11 false
  { t with pwr := { t.pwr with moving := tput 0 t.pwr.moving d 0 } }
theorem domSettled_fields (s : State) (d : Nat) : domBusy (domSettled s d) d = false ∧
    (∀ lo w, lo + w ≤ 11 → regF (domSettled s d) (pwrDom d) lo w = regF s (pwrDom d) lo w) ∧ tget 0 (domSettled s d).pwr.moving d = 0 ∧
    (domSettled s d).mem = s.mem ∧ (domSettled s d).coaches = s.coaches := by
  have h1 : OnlyRegs [pwrDom d] s (setRegB s (pwrDom d) 11 false) := onlyRegs_setRegB _ _ _ _
  have h2 : regB (setRegB s (pwrDom d) 11 false) (pwrDom d) 11 = false := regB_setRegB_same _ _ _ _ (by decide)
  have h3 : ∀ lo w, lo + w ≤ 11 → regF (setRegB s (pwrDom d) 11 false) (pwrDom d) lo w = regF s (pwrDom d) lo w := fun lo w h =>
    regF_setRegB_other _ _ _ _ _ _ (.inl h) (by omega)
  unfold domSettled
  dsimp only
  generalize setRegB s (pwrDom d) 11 false = t at h1 h2 h3
  exact ⟨h2, h3, tget_tput_same 0 t.pwr.moving d 0, by rw [h1.1], by rw [h1.1]⟩
theorem domainDoneOp_eq (h : tget 0 s.pwr.moving d = req + 1) : domainDoneOp s d = domNext (domSettled (setDomain s d req) d) := by
  unfold domainDoneOp
  rw [h]
  rfl

theorem domainReqOp_standing (hp : domPresent s.variant d = true) (hr : domRefuse s d req = none) :
    domainReqOp s d req = domStart (setRegF s (pwrDom d) 0 2 req) d req := by
  unfold domainReqOp
  rw [hr, hp]
  rfl

/-- Settles O58: by the request that PWR_DOM takes, and by the state that a transition reaches. -/
theorem domainsSwitch : Obligations.DomainsSwitch := by
  intro s d req hd hreq
  have hexec : exec (.domainRequest d req) s = .next (domainReqOp s d req) := act_wf (by
    show (decide (d < 148) && decide (req < 4)) = true
    rw [decide_eq_true hd, decide_eq_true (by omega)]; rfl)
  obtain ⟨hregs, hgot, hstate, hbusy, hpwr⟩ := requested_fields (req := req) s d hreq
  refine ⟨fun hp hr hne hb hm => ?_, fun hp hr hne hb hm => ?_, fun hr => ?_, fun hmov => ?_⟩
  · have hgo : domainReqOp s d req = domMoving (setRegF s (pwrDom d) 0 2 req) d req := by
      rw [domainReqOp_standing hp hr, domStart_eq, hstate, hbusy, setRegF_variant]
      unfold movingCount at hm ⊢
      rw [hpwr, if_neg (by simp [hne, hb, hp]; omega)]
    rw [hgo] at hexec
    obtain ⟨h1, h2, h3, h4, -, -⟩ := domMoving_fields (setRegF s (pwrDom d) 0 2 req) d req
    refine ⟨_, hexec, (h3 0 2 (by decide)).trans hgot, h2, (h3 8 2 (by decide)).trans hstate, (h4 d).trans (if_pos rfl), ?_⟩
    generalize domMoving (setRegF s (pwrDom d) 0 2 req) d req = t at h1
    generalize setRegF s (pwrDom d) 0 2 req = x at h1 hregs
    refine ⟨?_, fun a ha => (h1.2 a ha).trans (hregs.2 a ha)⟩
    rw [h1.1, hregs.1]
  · have hgo : domainReqOp s d req = setRegF s (pwrDom d) 0 2 req := by
      rw [domainReqOp_standing hp hr, domStart_eq]
      unfold movingCount at hm ⊢
      rw [hpwr, if_pos (by simp [hm])]
    rw [hgo] at hexec
    exact ⟨_, hexec, hgot, hbusy.trans hb, hregs⟩
  · rw [hexec]
    unfold domainReqOp
    rw [hr]
    rfl
  · have hdone : exec (.domainTransitionDone d) s = .next (domainDoneOp s d) := act_wf (decide_eq_true hd)
    rw [domainDoneOp_eq hmov] at hdone
    obtain ⟨h1, h2⟩ := setDomain_reaches hd hreq s
    obtain ⟨h3, h4, h5, h6, h7⟩ := domSettled_fields (setDomain s d req) d
    obtain ⟨h8, h9, h10, h11⟩ := domNext_spec (domSettled (setDomain s d req) d) d
    have hst : domState (domSettled (setDomain s d req) d) d = req := (h4 8 2 (by decide)).trans h1
    refine ⟨_, hdone, h10.trans hst, fun hsame => ?_, fun h0 hon => ?_, fun h2' => ?_⟩
    · obtain ⟨h12, h13⟩ := h11 (by rw [h4 0 2 (by decide), h2, hst, hsame])
      exact ⟨h12.trans h3, h13.trans h5⟩
    · subst h0
      obtain ⟨h12, h13⟩ := setDomain_off hd hon
      exact ⟨fun k hk => by rw [h8, h6]; exact h12 k hk, fun hlt => by rw [co_of_coaches h9, co_of_coaches h7]; exact h13 hlt⟩
    · subst h2'
      obtain ⟨h12, h13⟩ := setDomain_on s d
      exact ⟨by rw [h8, h6, h12], by rw [h9, h7, h13]⟩

end Sys2Proof.Machine
end

section
/-! The core voltage, the margins, the alarms and the cluster clocks (R499 to R503, R510). -/
namespace Sys2Proof.Machine

variable {s t u : State} {k mult v : Nat}

/-! ### The target of the supply (R500, R501) -/

theorem vWant_le (s : State) (k mhz : Nat) : vWant s k mhz ≤ 800 := Nat.min_le_left _ _
theorem clockVolt_le (s : State) (k mult : Nat) : clockVolt s k mult ≤ 800 := Nat.max_le.mpr ⟨vWant_le .., vWant_le ..⟩

/-- Between the states only the target, and the time that it has had slack, differ. -/
structure AvsOnly (s t : State) : Prop where
  rest : t = { s with regs := t.regs, pwr := t.pwr }
  regs : ∀ a, a ≠ pwrAvs → reg t a = reg s a
  pwr : t.pwr = { s.pwr with slackSince := t.pwr.slackSince }
  bus : regB t pwrAvs 31 = regB s pwrAvs 31

theorem AvsOnly.refl (s : State) : AvsOnly s s := ⟨rfl, fun _ _ => rfl, rfl, rfl⟩
theorem AvsOnly.trans (h : AvsOnly s t) (g : AvsOnly t u) : AvsOnly s u :=
  ⟨by rw [g.rest, h.rest], fun a ha => (g.regs a ha).trans (h.regs a ha), by rw [g.pwr, h.pwr], g.bus.trans h.bus⟩
theorem AvsOnly.regF (h : AvsOnly s t) {a : Nat} (ha : a ≠ pwrAvs) (lo w : Nat) : regF t a lo w = regF s a lo w := congrArg (rfld · lo w) (h.regs a ha)
theorem AvsOnly.regB (h : AvsOnly s t) {a : Nat} (ha : a ≠ pwrAvs) (i : Nat) : regB t a i = regB s a i := congrArg (rbit · i) (h.regs a ha)

def withSlack (s : State) (x : Option Nat) : State := { s with pwr := { s.pwr with slackSince := x } }
theorem avsOnly_withSlack (s : State) (x : Option Nat) : AvsOnly s (withSlack s x) := ⟨rfl, fun _ _ => rfl, rfl, rfl⟩
theorem avsOnly_target (s : State) (v : Nat) : AvsOnly s (setRegF s pwrAvs 0 12 v) :=
  ⟨rfl, fun a ha => reg_setRegF_ne _ _ _ _ _ _ ha, rfl, regB_setRegF _ _ _ _ _ _ (by decide)⟩
theorem avsTarget_set (s : State) (hv : v < 4096) : avsTarget (setRegF s pwrAvs 0 12 v) = v :=
  (regF_setRegF_same _ _ _ _ _ (by decide)).trans (Nat.mod_eq_of_lt hv)
theorem avsTarget_withSlack (s : State) (x : Option Nat) : avsTarget (withSlack s x) = avsTarget s := rfl

/-- The target rises at once, and never falls here. -/
theorem avsSet_spec (s : State) (hv : v ≤ 800) : AvsOnly s (avsSet s v) ∧ (regB s pwrAvs 31 = true → avsTarget (avsSet s v) = Nat.max (avsTarget s) v) := by
  unfold avsSet
  split
  next h => exact ⟨.refl s, fun hb => by rw [hb] at h; cases h⟩
  · dsimp only
    split
    next hlt =>
      have h1 := avsOnly_target s v
      have h2 := avsTarget_set (v := v) s (by omega)
      exact ⟨h1.trans (avsOnly_withSlack _ none), fun _ => h2.trans (Nat.max_eq_right (Nat.le_of_lt hlt)).symm⟩
    next hge => exact ⟨avsOnly_withSlack s _, fun _ => (Nat.max_eq_left (Nat.le_of_not_lt hge)).symm⟩
theorem avsUpdate_spec (s : State) : AvsOnly s (avsUpdate s) ∧ (regB s pwrAvs 31 = true → avsTarget (avsUpdate s) = Nat.max (avsTarget s) (vNow s)) :=
  avsSet_spec s (vWant_le ..)

/-- What the chip needs depends on the domains, the clocks, V_age and the junction temperature alone. -/
theorem clusterPowered_congr (hv : t.variant = s.variant) (hr : ∀ a, a ≠ pwrAvs → reg t a = reg s a) (hk : k < 8) : clusterPowered t k = clusterPowered s k := by
  have hdom (d : Nat) (hd : d < 148) : domOn t d = domOn s d := by
    unfold domOn domState regF
    rw [hr _ (by unfold pwrDom pwrAvs pwrBase; omega)]
  have h9 : (upto 9).any (fun j => domOn t (9 * k + j)) = (upto 9).any (fun j => domOn s (9 * k + j)) := by
    rw [Bool.eq_iff_iff, List.any_eq_true, List.any_eq_true]
    exact exists_congr fun j => and_congr_right fun hj => by rw [hdom _ (by have := mem_upto hj; omega)]
  have h4 : (upto 4).any (fun g => domOn t (84 + 4 * k + g)) = (upto 4).any (fun g => domOn s (84 + 4 * k + g)) := by
    rw [Bool.eq_iff_iff, List.any_eq_true, List.any_eq_true]
    exact exists_congr fun j => and_congr_right fun hj => by rw [hdom _ (by have := mem_upto hj; omega)]
  unfold clusterPowered
  rw [hv, h9, h4, hdom _ (by omega)]
theorem vWant_congr (hv : t.variant = s.variant) (hr : ∀ a, a ≠ pwrAvs → reg t a = reg s a) (hj : t.pwr.junction = s.pwr.junction) (k' mhz : Nat) :
    vWant t k' mhz = vWant s k' mhz := by
  have hmhz (k : Nat) : clusterMHz t k = clusterMHz s k := by
    unfold clusterMHz regF
    rw [hr _ (by unfold pwrAvs pwrBase; omega)]
  have hfilter : (upto 8).filter (clusterPowered t) = (upto 8).filter (clusterPowered s) :=
    List.filter_congr fun k hk => clusterPowered_congr hv hr (mem_upto hk)
  have hage : vage t = vage s := by
    unfold vage regF
    rw [hr _ (by decide)]
  unfold vWant vFuse
  simp only [hj, hfilter, hmhz, hage]

/-! ### Readbacks and the step down (R499, R501, R503) -/

theorem pwrStat_ne_icScnt (n : Nat) : pwrStat ≠ icScnt n := by unfold pwrStat icScnt icBase; omega
/-- A supply alarm ends. -/
theorem supplyClear_spec (s : State) : OnlyRegsAndSources [pwrStat] [1044] s (supplyClear s) ∧ supplyCode (supplyClear s) = 0 ∧
    srcSignal (supplyClear s) 1044 = false ∧ vage (supplyClear s) = vage s := by
  have h1 : OnlyRegs [pwrStat] s (setRegF s pwrStat 8 8 0) := onlyRegs_setRegF _ _ _ _ _
  have h2 : supplyCode (setRegF s pwrStat 8 8 0) = 0 := regF_setRegF_same _ _ _ _ _ (by decide)
  have h3 : vage (setRegF s pwrStat 8 8 0) = vage s := regF_setRegF_other _ _ _ _ _ _ _ (.inr (by decide)) (by decide)
  unfold supplyClear
  generalize setRegF s pwrStat 8 8 0 = x at h1 h2 h3
  have hl := sourceOnly_setLevel x 1044 false
  exact ⟨onlyRegsAndSources_trans (onlyRegsAndSources_of_regs h1) (hl.regsAndSources (by simp)), (hl.regF _ _ _ (pwrStat_ne_icScnt _)).trans h2,
    (srcSignal_setLevel ..).trans (if_pos rfl), (hl.regF _ _ _ (pwrStat_ne_icScnt _)).trans h3⟩

/-- The word that a readback leaves in PWR_AVS_STAT. -/
theorem readback_fields (mv amps : Nat) : rfld (n32 (mv % 4096 * 2 ^ 20 + Nat.min 255 amps * 2 ^ 12)) 20 12 = mv % 4096 ∧
    rfld (n32 (mv % 4096 * 2 ^ 20 + Nat.min 255 amps * 2 ^ 12)) 12 8 = Nat.min 255 amps := by
  have h1 : mv % 4096 < 4096 := Nat.mod_lt _ (by decide)
  have h2 : Nat.min 255 amps ≤ 255 := Nat.min_le_left _ _
  generalize mv % 4096 = x at h1
  generalize Nat.min 255 amps = y at h2
  rw [rfld_n32 _ _ _ (by decide), rfld_n32 _ _ _ (by decide)]
  unfold fld
  rw [Nat.shiftRight_eq_div_pow, Nat.shiftRight_eq_div_pow]
  constructor <;> omega

theorem readbackOp_responded (hbus : regB s pwrAvs 31 = true) (mv amps : Nat) (t : State) (ht : readbackOp s mv amps true = t) :
    regF t pwrAvsStat 20 12 = mv % 4096 ∧ regF t pwrAvsStat 12 8 = Nat.min 255 amps ∧ (supplyCode s = 2 → supplyCode t = 0 ∧ srcSignal t 1044 = false) ∧
      (supplyCode s = 3 → supplyCode t = 3) ∧ t.mem = s.mem ∧ t.coaches = s.coaches := by
  unfold readbackOp at ht
  rw [if_neg (by rw [hbus]; decide)] at ht
  dsimp only at ht
  rw [if_pos rfl] at ht
  have h1 : OnlyRegs [pwrAvsStat] s (setReg s pwrAvsStat (n32 (mv % 4096 * 2 ^ 20 + Nat.min 255 amps * 2 ^ 12))) := onlyRegs_setReg _ _ _
  have h2 : reg (setReg s pwrAvsStat (n32 (mv % 4096 * 2 ^ 20 + Nat.min 255 amps * 2 ^ 12))) pwrAvsStat = n32 (mv % 4096 * 2 ^ 20 + Nat.min 255 amps * 2 ^ 12) :=
    reg_setReg_same _ _ _
  generalize setReg s pwrAvsStat (n32 (mv % 4096 * 2 ^ 20 + Nat.min 255 amps * 2 ^ 12)) = x at h1 h2 ht
  have hcode : supplyCode x = supplyCode s := congrArg (rfld · 8 8) (h1.2 _ (by decide))
  obtain ⟨g1, g2, g3, -⟩ := supplyClear_spec x
  have hstat : reg (supplyClear x) pwrAvsStat = reg x pwrAvsStat := g1.2.1 _ (by decide) (by decide)
  obtain ⟨y, hy, hy3, hyt⟩ : ∃ y, (y = supplyClear x ∨ (y = x ∧ supplyCode s ≠ 2)) ∧ (supplyCode s = 3 → y = x) ∧ avsUpdate y = t := by
    refine ⟨_, ?_, fun h3 => if_neg (by simp [h3]), ht⟩
    split
    · exact .inl rfl
    next hn => exact .inr ⟨rfl, fun h2 => hn (by simp [h2])⟩
  have ho : AvsOnly y t := hyt ▸ (avsUpdate_spec y).1
  have hreg : reg t pwrAvsStat = n32 (mv % 4096 * 2 ^ 20 + Nat.min 255 amps * 2 ^ 12) := by
    rw [ho.regs _ (by decide)]
    obtain rfl | ⟨rfl, -⟩ := hy
    · rw [hstat, h2]
    · exact h2
  have hrest : y.mem = s.mem ∧ y.coaches = s.coaches := by
    obtain rfl | ⟨rfl, -⟩ := hy
    · exact ⟨by rw [g1.1, h1.1], by rw [g1.1, h1.1]⟩
    · exact ⟨by rw [h1.1], by rw [h1.1]⟩
  have hcodet : supplyCode t = supplyCode y := ho.regF (by decide) 8 8
  obtain ⟨f1, f2⟩ := readback_fields mv amps
  refine ⟨(congrArg (rfld · 20 12) hreg).trans f1, (congrArg (rfld · 12 8) hreg).trans f2, fun h2 => ?_, fun h3 => ?_, by rw [ho.rest, hrest.1], by rw [ho.rest, hrest.2]⟩
  · obtain rfl := hy.resolve_right fun h => h.2 h2
    refine ⟨hcodet.trans g2, ?_⟩
    unfold srcSignal
    rw [ho.rest]
    exact g3
  · rw [hcodet, hy3 h3, hcode, h3]
theorem readbackOp_silent (hbus : regB s pwrAvs 31 = true) (mv amps : Nat) (t : State) (ht : readbackOp s mv amps false = t) :
    regB t pwrAvsStat 0 = true ∧ supplyCode t = supplyCode s := by
  unfold readbackOp at ht
  rw [if_neg (by rw [hbus]; decide)] at ht
  dsimp only at ht
  simp only [Bool.and_false, Bool.false_and, Bool.or_self, Bool.false_eq_true, if_false] at ht
  have h1 : OnlyRegs [pwrAvsStat] s (setRegB s pwrAvsStat 0 true) := onlyRegs_setRegB _ _ _ _
  have h2 : regB (setRegB s pwrAvsStat 0 true) pwrAvsStat 0 = true := regB_setRegB_same _ _ _ _ (by decide)
  generalize setRegB s pwrAvsStat 0 true = x at h1 h2 ht
  have ho : AvsOnly x t := ht ▸ (avsUpdate_spec x).1
  exact ⟨(ho.regB (by decide) 0).trans h2, (ho.regF (by decide) 8 8).trans (congrArg (rfld · 8 8) (h1.2 _ (by decide)))⟩

def steppedNow (s : State) : State := { s with pwr := { s.pwr with steppedAt := some s.now } }
theorem steppedNow_fields (s : State) : steppedNow s = { s with pwr := (steppedNow s).pwr } ∧ (steppedNow s).pwr.steppedAt = some s.now ∧
    (steppedNow s).pwr.junction = s.pwr.junction := ⟨rfl, rfl, rfl⟩

/-- The target falls by at most 5 mV and not below what the chip needs. -/
theorem stepDownOp_falls (hbus : regB s pwrAvs 31 = true) {x : Nat} (hx : s.pwr.slackSince = some x) (hlong : x + 10000000000 ≤ s.now)
    (hlow : vNow s < avsTarget s) (hfree : stepFree s = true) (t : State) (ht : stepDownOp s = t) :
    t.pwr.steppedAt = some s.now ∧ avsTarget t = Nat.max (vNow s) (avsTarget s - 5) ∧ OnlyRegs [pwrAvs] { s with pwr := t.pwr } t := by
  have hlt : avsTarget s < 4096 := rfld_lt _ _ _
  unfold stepDownOp at ht
  rw [hx] at ht
  dsimp only at ht
  rw [if_pos (by rw [hbus, decide_eq_true (show x + 10 ^ 10 ≤ s.now from hlong), decide_eq_true hlow, hfree]; rfl)] at ht
  have hv : Nat.max (vNow s) (avsTarget s - 5) < 4096 := Nat.max_lt.mpr ⟨by omega, by omega⟩
  have h1 := avsOnly_target s (Nat.max (vNow s) (avsTarget s - 5))
  have h2 := avsTarget_set s hv
  generalize setRegF s pwrAvs 0 12 (Nat.max (vNow s) (avsTarget s - 5)) = y at h1 h2 ht
  have hnow : y.now = s.now := by rw [h1.rest]
  obtain ⟨h3, h4, h5⟩ := steppedNow_fields y
  rw [show { y with pwr := { y.pwr with steppedAt := some s.now } } = steppedNow y by rw [← hnow]; rfl] at ht
  have hreg (a : Nat) : reg (steppedNow y) a = reg y a := reg_congr (by rw [h3]) (by rw [h3]) a
  have h6 : avsTarget (steppedNow y) = avsTarget y := congrArg (rfld · 0 12) (hreg _)
  have h7 : vNow (steppedNow y) = vNow s := vWant_congr (by rw [h3, h1.rest]) (fun a ha => (hreg a).trans (h1.regs a ha)) (by rw [h5, h1.pwr]) _ _
  generalize steppedNow y = z at h3 h4 h6 h7 hreg ht
  obtain ⟨h8, h9⟩ := avsUpdate_spec z
  rw [ht] at h8 h9
  refine ⟨by rw [h8.pwr]; exact h4.trans (congrArg some hnow), ?_, ?_, fun a ha => ?_⟩
  · rw [h9 ((congrArg (rbit · 31) (hreg _)).trans (h1.bus.trans hbus)), h6, h2, h7]
    exact Nat.max_eq_left (Nat.le_max_left ..)
  · rw [h8.rest, h3, h1.rest]
  · have hne : a ≠ pwrAvs := by simpa using ha
    exact (h8.regs a hne).trans ((hreg a).trans (h1.regs a hne))

/-! ### Margins (R502) -/

/-- The least margin of a domain. -/
def leastMargin (l : List Nat) (k : Nat) : Nat := ((l.drop (4 * k)).take 4).foldl Nat.min 255
theorem foldl_min_lt (xs : List Nat) (b c : Nat) : xs.foldl Nat.min b < c ↔ b < c ∨ ∃ x ∈ xs, x < c := by
  induction xs generalizing b with
  | nil => simp
  | cons a r ih =>
    rw [List.foldl_cons, ih, show Nat.min b a < c ↔ b < c ∨ a < c from min_lt_iff]
    simp only [List.mem_cons, exists_eq_or_imp, or_assoc]

theorem pwrAge_inj {j : Nat} (h : pwrAge k = pwrAge j) : k = j := by unfold pwrAge at h; omega
/-- The margins measured stand in PWR_AGE, and no other register differs. -/
theorem margins_stored (f : Nat → W32) (xs : List Nat) (s : State) :
    xs.foldl (fun t k => setReg t (pwrAge k) (f k)) s = { s with regs := (xs.foldl (fun t k => setReg t (pwrAge k) (f k)) s).regs } ∧
    (∀ a, (∀ j ∈ xs, a ≠ pwrAge j) → reg (xs.foldl (fun t k => setReg t (pwrAge k) (f k)) s) a = reg s a) ∧
    ∀ k ∈ xs, reg (xs.foldl (fun t k => setReg t (pwrAge k) (f k)) s) (pwrAge k) = f k := by
  induction xs generalizing s with
  | nil => exact ⟨rfl, fun _ _ => rfl, fun _ h => nomatch h⟩
  | cons a r ih =>
    obtain ⟨h1, h2, h3⟩ := ih (setReg s (pwrAge a) (f a))
    rw [List.foldl_cons]
    refine ⟨by rw [h1]; rfl, fun b hb => ?_, fun k hk => ?_⟩
    · rw [h2 b (fun j hj => hb j (List.mem_cons_of_mem a hj)), reg_setReg, if_neg (hb a List.mem_cons_self)]
    · by_cases hr : k ∈ r
      · exact h3 k hr
      · obtain rfl := (List.mem_cons.mp hk).resolve_right hr
        rw [h2 _ (fun j hj he => hr (by rw [pwrAge_inj he]; exact hj)), reg_setReg_same]

/-- The domains that are measured. -/
def measured (s : State) : List Nat := (upto 10).filter (fun k => 8 ≤ k || clusterPowered s k)
theorem mem_measured : k ∈ measured s ↔ k < 10 ∧ (8 ≤ k ∨ clusterPowered s k = true) := by
  unfold measured upto
  simp
theorem marginOp_measures (l : List Nat) (t : State) (ht : marginOp s l = t) : (∀ k ∈ measured s, reg t (pwrAge k) = n32 (leastMargin l k)) ∧
    ((∀ k ∈ measured s, 24 ≤ leastMargin l k) → vage t = vage s) ∧ ((∃ k ∈ measured s, leastMargin l k < 24) → vage t = Nat.min 150 (vage s + 5)) := by
  unfold marginOp at ht
  extract_lets dom live stored worst raised c at ht
  obtain ⟨-, hother, hage⟩ := margins_stored (fun k => n32 (leastMargin l k)) (measured s) s
  change ∀ a, (∀ j ∈ measured s, a ≠ pwrAge j) → reg stored a = reg s a at hother
  change ∀ k ∈ measured s, reg stored (pwrAge k) = n32 (leastMargin l k) at hage
  have hworst : worst < 24 ↔ ∃ k ∈ measured s, leastMargin l k < 24 := by
    show ((measured s).map (leastMargin l)).foldl Nat.min 255 < 24 ↔ _
    rw [foldl_min_lt]
    simp
  have hne (k : Nat) (hk : k ∈ measured s) : pwrAge k ≠ pwrStat ∧ pwrAge k ≠ pwrAvs ∧ pwrAge k ≠ icScnt 1044 := by
    have := (mem_measured.mp hk).1
    unfold pwrAge pwrStat pwrAvs icScnt icBase pwrBase
    omega
  have hvage : vage stored = vage s := congrArg (rfld · 16 8) (hother _ fun j hj => (hne j hj).1.symm)
  clear_value stored
  have hraised : (∀ a, a ≠ pwrStat → reg raised a = reg stored a) ∧ vage raised = if worst < 24 then Nat.min 150 (vage stored + 5) else vage stored := by
    show (∀ a, a ≠ pwrStat → reg (if worst < 24 then _ else _) a = _) ∧ vage (if worst < 24 then _ else _) = _
    split
    · refine ⟨fun a ha => reg_setRegF_ne _ _ _ _ _ _ ha, ?_⟩
      have hle : Nat.min 150 (vage stored + 5) ≤ 150 := Nat.min_le_left _ _
      exact (regF_setRegF_same _ _ _ _ _ (by decide)).trans (Nat.mod_eq_of_lt (by omega))
    · exact ⟨fun _ _ => rfl, rfl⟩
  clear_value raised
  obtain ⟨y, hy, hyt⟩ : ∃ y, (y = supplyClear raised ∨ y = raised) ∧ avsUpdate y = t := by
    refine ⟨_, ?_, ht⟩
    split
    · exact .inl rfl
    · exact .inr rfl
  have ho : AvsOnly y t := hyt ▸ (avsUpdate_spec y).1
  obtain ⟨g1, -, -, g4⟩ := supplyClear_spec raised
  have hya : vage y = vage raised := by
    obtain rfl | rfl := hy
    · exact g4
    · rfl
  have hvt : vage t = if worst < 24 then Nat.min 150 (vage s + 5) else vage s := by
    rw [show vage t = vage y from ho.regF (by decide) 16 8, hya, hraised.2, hvage]
  refine ⟨fun k hk => ?_, fun h => ?_, fun h => ?_⟩
  · obtain ⟨n1, n2, n3⟩ := hne k hk
    rw [ho.regs _ n2, ← hage k hk, ← hraised.1 _ n1]
    obtain rfl | rfl := hy
    · exact g1.2.1 _ (by simpa using n1) (by simpa using n3)
    · rfl
  · rw [hvt, if_neg fun hw => ?_]
    obtain ⟨k, hk, hlt⟩ := hworst.mp hw
    exact absurd (h k hk) (by omega)
  · rw [hvt, if_pos (hworst.mpr h)]

theorem theVoltageFollows : Clause.TheVoltageFollows := by
  intro s mv amps x l
  refine ⟨fun hbus => ⟨?_, ?_, fun hx hlong hlow hfree => ?_⟩, fun hbus => ?_, ?_, fun h => ?_⟩
  · have hexec : exec (.avsReadback mv amps true) s = .next (readbackOp s mv amps true) := act_wf rfl
    exact ⟨_, hexec, readbackOp_responded hbus mv amps _ rfl⟩
  · have hexec : exec (.avsReadback mv amps false) s = .next (readbackOp s mv amps false) := act_wf rfl
    exact ⟨_, hexec, readbackOp_silent hbus mv amps _ rfl⟩
  · have hexec : exec .voltageStepDown s = .next (stepDownOp s) := act_wf rfl
    exact ⟨_, hexec, stepDownOp_falls hbus hx hlong hlow hfree _ rfl⟩
  · have hexec : exec (.avsReadback mv amps true) s = .next (readbackOp s mv amps true) := act_wf rfl
    rw [hexec]
    unfold readbackOp
    rw [if_pos (by rw [hbus]; rfl)]
  · have hexec : exec (.marginMeasure l) s = .next (marginOp s l) := act_wf rfl
    obtain ⟨h1, h2, h3⟩ := marginOp_measures (s := s) l _ rfl
    refine ⟨_, hexec, fun k hk hp => h1 k (mem_measured.mpr ⟨hk, hp⟩), fun hall => h2 fun k _ => ?_, fun k hk hp hlt => h3 ⟨k, mem_measured.mpr ⟨hk, hp⟩, hlt⟩⟩
    refine Nat.not_lt.mp fun hlt => ?_
    obtain h | ⟨a, ha, h⟩ := (foldl_min_lt _ _ _).mp hlt
    · exact absurd h (by decide)
    · exact absurd (hall a (List.mem_of_mem_drop (List.mem_of_mem_take ha))) (by omega)
  · have hexec : exec .vAgeStore s = .next (vageStoreOp s) := act_wf rfl
    rw [hexec]
    unfold vageStoreOp
    rw [if_pos (by simpa using h)]

/-! ### Alarms (R503) -/

theorem offerOnly_bbHw (s : State) (si code : Nat) (p0 p1 p2 p3 : W32) : OfferOnly s (bbHw s si code p0 p1 p2 p3) := offerOnly_bbOffer ..
theorem OfferOnly.srcSignal (h : OfferOnly s t) (n : Nat) : srcSignal t n = srcSignal s n := by unfold Machine.srcSignal; rw [h.rest]
theorem AvsOnly.srcSignal (h : AvsOnly s t) (n : Nat) : srcSignal t n = srcSignal s n := by unfold Machine.srcSignal; rw [h.rest]
theorem pwr_ne_bbLost {a : Nat} (h : a < 0x04110000) (c : Nat) : a ≠ bbLost c := by unfold bbLost bbBase; omega

theorem supplyAlarmOp_shows {code : Nat} (h1 : 1 ≤ code) (h5 : code ≤ 5) (hne : supplyCode s ≠ code) (rail : Nat) (t : State) (ht : supplyAlarmOp s code rail = t) :
    supplyCode t = code ∧ srcSignal t 1044 = true ∧ vage t = vage s ∧ t.mem = s.mem ∧ t.carts = s.carts := by
  unfold supplyAlarmOp at ht
  have hcond : ¬ (decide (code = 0) || decide (5 < code) || decide (supplyCode s = code)) = true := by
    simp [hne]
    omega
  rw [if_neg hcond] at ht
  have g1 : OnlyRegs [pwrStat] s (setRegF s pwrStat 8 8 code) := onlyRegs_setRegF _ _ _ _ _
  have g2 : supplyCode (setRegF s pwrStat 8 8 code) = code := (regF_setRegF_same _ _ _ _ _ (by decide)).trans (Nat.mod_eq_of_lt (by omega))
  have g3 : vage (setRegF s pwrStat 8 8 code) = vage s := regF_setRegF_other _ _ _ _ _ _ _ (.inr (by decide)) (by decide)
  generalize setRegF s pwrStat 8 8 code = x at g1 g2 g3 ht
  have hl := sourceOnly_setLevel x 1044 true
  have hsig := srcSignal_setLevel x 1044 1044 true
  generalize setLevel x 1044 true = y at hl hsig ht
  have ho := offerOnly_bbHw y 0xFF 0x0603 (n32 (code + 256 * rail)) 0 0 0
  rw [ht] at ho
  have hreg (lo w : Nat) : regF t pwrStat lo w = regF x pwrStat lo w := by
    unfold regF
    rw [ho.regs _ (pwr_ne_bbLost (by decide)), hl.regs _ (pwrStat_ne_icScnt _)]
  exact ⟨(hreg 8 8).trans g2, (ho.srcSignal _).trans (hsig.trans (if_pos rfl)), (hreg 16 8).trans g3, by rw [ho.rest, hl.rest, g1.1], by rw [ho.rest, hl.rest, g1.1]⟩

theorem setJunction_fields (s : State) (sensor : Nat) (temp : Int) : (setJunction s sensor temp).pwr = { s.pwr with junction := temp } ∧
    (setJunction s sensor temp).mem = s.mem ∧ (setJunction s sensor temp).carts = s.carts := by
  unfold setJunction
  dsimp only
  have h : OnlyRegs [pwrTemp] s (setReg s pwrTemp (n32 (wrapN 8 temp * 2 ^ 24 + sensor % 256 * 2 ^ 16))) := onlyRegs_setReg _ _ _
  generalize setReg s pwrTemp (n32 (wrapN 8 temp * 2 ^ 24 + sensor % 256 * 2 ^ 16)) = x at h
  exact ⟨by rw [h.1], by rw [h.1], by rw [h.1]⟩
def thermalSet (s : State) (b : Bool) : State := { s with pwr := { s.pwr with thermal := b } }
theorem thermalSet_fields (s : State) (b : Bool) : (thermalSet s b).pwr = { s.pwr with thermal := b } ∧ (thermalSet s b).mem = s.mem ∧
    (thermalSet s b).carts = s.carts := ⟨rfl, rfl, rfl⟩

/-- What an alarm's begin, or its end, leaves of the junction and of the memories. -/
structure ThermalIs (s t : State) (b : Bool) (junction : Int) : Prop where
  thermal : t.pwr.thermal = b
  junction : t.pwr.junction = junction
  mem : t.mem = s.mem
  carts : t.carts = s.carts
theorem ThermalIs.updated {b : Bool} {j : Int} (h : ThermalIs s u b j) : ThermalIs s (avsUpdate u) b j := by
  have ho := (avsUpdate_spec u).1
  exact ⟨by rw [ho.pwr]; exact h.thermal, by rw [ho.pwr]; exact h.junction, by rw [ho.rest]; exact h.mem, by rw [ho.rest]; exact h.carts⟩

theorem thermalOp_shows {sensor temp : Nat} (hhot : 100 ≤ temp) : ThermalIs s (thermalOp s sensor temp) true (if s.pwr.junction < (temp : Int) then (temp : Int) else s.pwr.junction) ∧
    (s.pwr.thermal = false → srcSignal (thermalOp s sensor temp) 1045 = true) := by
  unfold thermalOp
  rw [if_neg (Nat.not_lt.mpr hhot)]
  dsimp only
  obtain ⟨x, hx, hj, ht, hm, hc⟩ : ∃ x, (if s.pwr.junction < (temp : Int) then setJunction s sensor temp else s) = x ∧
      x.pwr.junction = (if s.pwr.junction < (temp : Int) then (temp : Int) else s.pwr.junction) ∧ x.pwr.thermal = s.pwr.thermal ∧ x.mem = s.mem ∧ x.carts = s.carts := by
    refine ⟨_, rfl, ?_⟩
    obtain ⟨h1, h2, h3⟩ := setJunction_fields s sensor temp
    split
    · exact ⟨by rw [h1], by rw [h1], h2, h3⟩
    · exact ⟨rfl, rfl, rfl, rfl⟩
  rw [hx]
  split
  next hth =>
    exact ⟨ThermalIs.updated ⟨ht.trans hth, hj, hm, hc⟩, fun h => by rw [h] at hth; cases hth⟩
  next hth =>
    change ThermalIs s (avsUpdate (bbHw (setLevel (thermalSet x true) 1045 true) _ _ _ _ _ _)) _ _ ∧
      (_ → srcSignal (avsUpdate (bbHw (setLevel (thermalSet x true) 1045 true) _ _ _ _ _ _)) 1045 = true)
    obtain ⟨h1, h2, h3⟩ := thermalSet_fields x true
    generalize thermalSet x true = y at h1 h2 h3
    have hl := sourceOnly_setLevel y 1045 true
    have hsig := srcSignal_setLevel y 1045 1045 true
    generalize setLevel y 1045 true = z at hl hsig
    have ho := offerOnly_bbHw z 0xFF 0x0604 (n32 (1 + 256 * sensor)) 0 0 0
    generalize bbHw z 0xFF 0x0604 (n32 (1 + 256 * sensor)) 0 0 0 = w at ho
    have hpwr : w.pwr = { x.pwr with thermal := true } := by rw [ho.rest]; exact hl.pwr.trans h1
    refine ⟨ThermalIs.updated ⟨by rw [hpwr], by rw [hpwr, hj], ?_, ?_⟩, fun _ => ?_⟩
    · rw [ho.rest]; exact hl.mem.trans (h2.trans hm)
    · rw [ho.rest]; exact hl.carts.trans (h3.trans hc)
    · rw [(avsUpdate_spec w).1.srcSignal, ho.srcSignal, hsig]
      rfl
theorem thermalEndOp_ends (hth : s.pwr.thermal = true) : ThermalIs s (thermalEndOp s) false (min 99 (Config.coolReading s.now)) ∧ srcSignal (thermalEndOp s) 1045 = false := by
  unfold thermalEndOp
  rw [if_neg (by rw [hth]; decide)]
  dsimp only
  obtain ⟨h1, h2, h3⟩ := setJunction_fields s (Config.coolSensor s.now).toNat (min 99 (Config.coolReading s.now))
  generalize setJunction s (Config.coolSensor s.now).toNat (min 99 (Config.coolReading s.now)) = x at h1 h2 h3
  change ThermalIs s (avsUpdate (setLevel (thermalSet x false) 1045 false)) _ _ ∧ srcSignal (avsUpdate (setLevel (thermalSet x false) 1045 false)) 1045 = false
  obtain ⟨h4, h5, h6⟩ := thermalSet_fields x false
  generalize thermalSet x false = y at h4 h5 h6
  have hl := sourceOnly_setLevel y 1045 false
  have hsig := srcSignal_setLevel y 1045 1045 false
  generalize setLevel y 1045 false = z at hl hsig
  have hpwr : z.pwr = { s.pwr with junction := min 99 (Config.coolReading s.now), thermal := false } := by rw [hl.pwr, h4, h1]
  refine ⟨ThermalIs.updated ⟨by rw [hpwr], by rw [hpwr], hl.mem.trans (h5.trans h2), hl.carts.trans (h6.trans h3)⟩, ?_⟩
  rw [(avsUpdate_spec z).1.srcSignal, hsig]
  rfl

/-! ### Cluster clocks (R501, R510) -/

theorem clPll_ne_pwrAvs (k : Nat) : clPll k ≠ pwrAvs := by unfold clPll pwrAvs pwrBase; omega
theorem putClock_spec (s : State) (k : Nat) (hm : mult ≤ 44) : OnlyRegs [clPll k] { s with pwr := (putClock s k mult).pwr } (putClock s k mult) ∧
    regF (putClock s k mult) (clPll k) 0 6 = mult ∧ regB (putClock s k mult) (clPll k) 31 = true := by
  have h1 : OnlyRegs [clPll k] s (setReg s (clPll k) (n32 (2 ^ 31 + mult % 64))) := onlyRegs_setReg _ _ _
  have h2 : reg (setReg s (clPll k) (n32 (2 ^ 31 + mult % 64))) (clPll k) = n32 (2 ^ 31 + mult % 64) := reg_setReg_same _ _ _
  unfold putClock
  dsimp only
  generalize setReg s (clPll k) (n32 (2 ^ 31 + mult % 64)) = x at h1 h2
  refine ⟨⟨by rw [h1.1], h1.2⟩, ?_, ?_⟩
  · refine (congrArg (rfld · 0 6) h2).trans ?_
    rw [rfld_n32 _ _ _ (by decide)]
    unfold fld
    rw [Nat.shiftRight_zero]
    omega
  · refine (congrArg (rbit · 31) h2).trans ?_
    rw [rbit_eq, n32, BitVec.toNat_ofNat, Nat.testBit_eq_decide_div_mod_eq, decide_eq_true_eq]
    omega

/-- The clock of a cluster is set and the target is what it needs, or more. -/
theorem clockDone_sets (s : State) (k : Nat) (hm : mult ≤ 44) (t : State) (ht : clockDone s k mult = t) :
    regF t (clPll k) 0 6 = mult ∧ regB t (clPll k) 31 = true ∧ (regB s pwrAvs 31 = true → vWant s k (25 * (16 + mult)) ≤ avsTarget t) ∧
      OnlyRegs [clPll k, pwrAvs] { s with pwr := t.pwr } t := by
  unfold clockDone at ht
  obtain ⟨h1, h2⟩ := avsSet_spec s (clockVolt_le s k mult)
  generalize avsSet s (clockVolt s k mult) = x at h1 h2 ht
  obtain ⟨h3, h4, h5⟩ := putClock_spec x k hm
  generalize putClock x k mult = y at h3 h4 h5 ht
  obtain ⟨h6, h7⟩ := avsUpdate_spec y
  rw [ht] at h6 h7
  have hne := clPll_ne_pwrAvs k
  have havs : reg y pwrAvs = reg x pwrAvs := h3.2 _ (by simpa using hne.symm)
  refine ⟨(h6.regF hne 0 6).trans h4, (h6.regB hne 31).trans h5, fun hbus => ?_, ?_, fun a ha => ?_⟩
  · rw [h7 ((congrArg (rbit · 31) havs).trans (h1.bus.trans hbus)), show avsTarget y = avsTarget x from congrArg (rfld · 0 12) havs, h2 hbus]
    exact Nat.le_trans (Nat.le_max_right _ _) (Nat.le_trans (Nat.le_max_right _ _) (Nat.le_max_left _ _))
  · rw [h6.rest, h3.1, h1.rest]
  · simp only [List.mem_cons, List.not_mem_nil, or_false, not_or] at ha
    rw [h6.regs a ha.2, h3.2 a (by simpa using ha.1)]
    exact h1.regs a ha.2

def clockWaits (s t : State) (k mult : Nat) : State :=
  { t with pwr := { t.pwr with clockWait := tput 0 t.pwr.clockWait k (mult + 1), clockAt := tput 0 t.pwr.clockAt k (s.now + 1000 * valN s 0x3020 2 200) } }
theorem clockWaits_fields (s t : State) (k mult : Nat) : clockWaits s t k mult = { t with pwr := (clockWaits s t k mult).pwr } ∧
    tget 0 (clockWaits s t k mult).pwr.clockWait k = mult + 1 ∧ tget 0 (clockWaits s t k mult).pwr.clockAt k = s.now + 1000 * valN s 0x3020 2 200 :=
  ⟨rfl, tget_tput_same 0 t.pwr.clockWait k (mult + 1), tget_tput_same 0 t.pwr.clockAt k (s.now + 1000 * valN s 0x3020 2 200)⟩
/-- A clock that needs a higher voltage waits for it. -/
theorem clockSet_waits (hbus : regB s pwrAvs 31 = true) (hlow : avsTarget s < clockVolt s k mult) (t : State) (ht : clockSet s k mult = t) :
    avsTarget t = clockVolt s k mult ∧ tget 0 t.pwr.clockWait k = mult + 1 ∧ tget 0 t.pwr.clockAt k = s.now + 1000 * valN s 0x3020 2 200 ∧
      OnlyRegs [pwrAvs] { s with pwr := t.pwr } t := by
  unfold clockSet at ht
  rw [if_pos (by rw [hbus, decide_eq_true hlow]; rfl)] at ht
  change clockWaits s (avsSet s (clockVolt s k mult)) k mult = t at ht
  obtain ⟨h1, h2⟩ := avsSet_spec s (clockVolt_le s k mult)
  generalize avsSet s (clockVolt s k mult) = x at h1 h2 ht
  obtain ⟨h3, h4, h5⟩ := clockWaits_fields s x k mult
  rw [ht] at h3 h4 h5
  have hreg (a : Nat) : reg t a = reg x a := reg_congr (by rw [h3]) (by rw [h3]) a
  refine ⟨(congrArg (rfld · 0 12) (hreg _)).trans ((h2 hbus).trans (Nat.max_eq_right (Nat.le_of_lt hlow))), h4, h5, by rw [h3, h1.rest], fun a ha => ?_⟩
  rw [hreg]
  exact h1.regs a (by simpa using ha)

theorem alarmsAndClocks : Clause.AlarmsAndClocks := by
  intro s code rail sensor temp k mult
  have hclock (hk : k < 8) : exec (.clusterClockSet k mult) s = .next (clusterClockOp s k mult) := act_wf (decide_eq_true hk)
  refine ⟨fun h1 h5 hne => ?_, fun hhot => ?_, fun hcool => ?_, fun hth => ?_, fun hdev hk hm hidle => ?_, fun h hk => ?_⟩
  · have hexec : exec (.supplyAlarm code rail) s = .next (supplyAlarmOp s code rail) := act_wf rfl
    exact ⟨_, hexec, supplyAlarmOp_shows h1 h5 hne rail _ rfl⟩
  · have hexec : exec (.thermalAlarm sensor temp) s = .next (thermalOp s sensor temp) := act_wf rfl
    obtain ⟨h, hsig⟩ := thermalOp_shows (s := s) (sensor := sensor) hhot
    exact ⟨_, hexec, h.thermal, hsig, h.junction, h.mem, h.carts⟩
  · have hexec : exec (.thermalAlarm sensor temp) s = .next (thermalOp s sensor temp) := act_wf rfl
    rw [hexec]
    unfold thermalOp
    rw [if_pos hcool]
  · have hexec : exec .thermalAlarmEnd s = .next (thermalEndOp s) := act_wf rfl
    obtain ⟨h, hsig⟩ := thermalEndOp_ends hth
    exact ⟨_, hexec, h.thermal, hsig, by rw [h.junction]; omega, h.mem, h.carts⟩
  · intro begun rises
    have hle : s.variant.clusters ≤ 8 := by cases s.variant <;> decide
    have hexec := hclock (by omega)
    have hop : clusterClockOp s k mult = if tget 0 s.pwr.clockWait k = mult + 1 then (if tget 0 s.pwr.clockAt k ≤ s.now then clockDone s k mult else s)
        else clockSet s k mult := by
      unfold clusterClockOp
      exact if_pos (by rw [decide_eq_true hdev, decide_eq_true hk, decide_eq_true hm, hidle]; rfl)
    rw [hop] at hexec
    refine ⟨fun hnb hr => ?_, fun hb hwait => ?_, fun h => ?_⟩
    · rw [if_neg hnb] at hexec
      exact ⟨_, hexec, clockSet_waits hr.1 hr.2 _ rfl⟩
    · rw [if_pos hb, if_neg (Nat.not_le.mpr hwait)] at hexec
      exact hexec
    · have hdone : exec (.clusterClockSet k mult) s = .next (clockDone s k mult) := by
        obtain ⟨hb, hdue⟩ | ⟨hnb, hnr⟩ := h
        · rw [if_pos hb, if_pos hdue] at hexec
          exact hexec
        · rw [if_neg hnb] at hexec
          rw [hexec]
          unfold clockSet
          rw [if_neg fun hc => hnr (by simpa using hc)]
      exact ⟨_, hdone, clockDone_sets s k hm _ rfl⟩
  · rw [hclock hk]
    unfold clusterClockOp
    rw [if_neg]
    obtain h | h := h
    · simp [h]
    · simp [h]

/-- Settles O59: the target by what `avsSet` leaves of it, the alarms and the clocks by the words that show them. -/
theorem voltageAndAlarms : Obligations.VoltageAndAlarms := ⟨theVoltageFollows, alarmsAndClocks⟩

end Sys2Proof.Machine
end

section
/-! The black box: the ring, the entries that reach it, its copies, and supply dips (R475 to R489). -/
namespace Sys2Proof.Machine

variable {s t u : State} {e : BbEntry} {r : List BbEntry} {m c : Nat} {v : W32}

/-! ### Losses are told (R478) -/

theorem bbLost_inj {c d : Nat} (h : bbLost c = bbLost d) : c = d := by unfold bbLost at h; omega
theorem bbLost_ne_icScnt {c n : Nat} (hc : c < 16) (hn : n < 2048) : bbLost c ≠ icScnt n := ne_icScnt_of_block (by unfold bbLost bbBase; omega) n hn
theorem bbMask_ne_bbLost (c : Nat) : bbBase + 2 ≠ bbLost c := by unfold bbLost; omega
theorem bbNoneLost_find : (upto 16).find? (fun c => !(reg s (bbLost c) = 0)) = none ↔ bbNoneLost s = true := by
  unfold bbNoneLost
  rw [List.find?_eq_none, List.all_eq_true]
  simp

/-- Between the states only entries have joined the intake, and losses have been told. -/
structure LossTold (s t : State) : Prop where
  rest : t = { s with regs := t.regs, bb := { s.bb with intake := t.bb.intake } }
  regs : ∀ a, (∀ c, a ≠ bbLost c) → reg t a = reg s a

theorem joined_fields (s : State) (c : Nat) (x : BbEntry) : LossTold s { setReg s (bbLost c) 0 with bb := { (setReg s (bbLost c) 0).bb with intake := (setReg s (bbLost c) 0).bb.intake ++ [x] } } := by
  have h : OnlyRegs [bbLost c] s (setReg s (bbLost c) 0) := onlyRegs_setReg _ _ _
  generalize setReg s (bbLost c) 0 = y at h
  refine ⟨?_, fun a ha => h.2 a (by simpa using ha c)⟩
  rw [h.1]
theorem lossTold_bbLostNext (s : State) : LossTold s (bbLostNext s) := by
  unfold bbLostNext
  split
  · exact joined_fields s _ _
  · exact ⟨rfl, fun _ _ => rfl⟩
theorem bbLostNext_none (h : bbNoneLost s = true) : bbLostNext s = s := by
  unfold bbLostNext
  rw [bbNoneLost_find.mpr h]
theorem bbLostNext_some (h : (upto 16).find? (fun c => !(reg s (bbLost c) = 0)) = some c) : reg (bbLostNext s) (bbLost c) = 0 ∧
    (bbLostNext s).bb.intake = s.bb.intake ++ [bbEntry s 0 0xFF 0x0C01 (n32 c) (n32 (regF s (bbLost c) 0 16)) 0 0] := by
  unfold bbLostNext
  rw [h]
  dsimp only
  have h1 : reg (setReg s (bbLost c) 0) (bbLost c) = 0 := reg_setReg_same _ _ _
  have h2 : OnlyRegs [bbLost c] s (setReg s (bbLost c) 0) := onlyRegs_setReg _ _ _
  generalize setReg s (bbLost c) 0 = y at h1 h2
  exact ⟨h1, by rw [h2.1]⟩

/-! ### An entry is written (R478, R480) -/

theorem setHeader_fields (s : State) (h : BbHeader) : setHeader s h = { s with bb := { s.bb with header := { h with trigmask := bbMask s } } } := rfl
theorem triggers_congr (h : reg t (bbBase + 2) = reg s (bbBase + 2)) (e : BbEntry) : triggers t e = triggers s e := by
  unfold triggers bbMask regF
  rw [h]

/-- What the write of an entry leaves. -/
structure Recorded (s t : State) (e : BbEntry) : Prop where
  rest : t = { s with regs := t.regs, intc := t.intc, bb := t.bb }
  intake : t.bb.intake = s.bb.intake
  nextWrite : t.bb.nextWrite = s.bb.nextWrite
  entry : ringAtIdx t.bb.ring s.bb.header.wridx = { e with seq := s.bb.header.seq % 2 ^ 32 }
  others : ∀ i, i ≠ s.bb.header.wridx → ringAtIdx t.bb.ring i = ringAtIdx s.bb.ring i
  wridx : t.bb.header.wridx = (s.bb.header.wridx + 1) % 4096
  seq : t.bb.header.seq = (s.bb.header.seq + 1) % 2 ^ 32
  quiet : s.bb.header.state = 0 → triggers s e = false → t.bb.header.state = 0
  triggered : s.bb.header.state = 0 → triggers s e = true → t.bb.header.state = 1 ∧ t.bb.header.trigidx = s.bb.header.wridx ∧ t.bb.since = 0
  counting : s.bb.header.state = 1 → t.bb.since = s.bb.since + 1 ∧ t.bb.header.state = if s.bb.since + 1 = 256 then 2 else 1
  regs : ∀ a, a ≠ icScnt 1042 → reg t a = reg s a

/-- The header after `n` entries since the trigger. -/
def headed (s : State) (n : Nat) (h : BbHeader) : State := setHeader { s with bb := { s.bb with since := n } } h
theorem headed_fields (s : State) (n : Nat) (h : BbHeader) : headed s n h = { s with bb := (headed s n h).bb } ∧
    (headed s n h).bb = { s.bb with since := n, header := { h with trigmask := bbMask s } } := ⟨rfl, rfl⟩
theorem recorded_ringPut (s : State) (e : BbEntry) : Recorded s (ringPut s e) e := by
  unfold ringPut
  extract_lets h e' bb written h' since
  have hrest : written = { s with bb := written.bb } := rfl
  have hbb : written.bb = { s.bb with ring := written.bb.ring, ringCheck := written.bb.ringCheck } := rfl
  have hring : ringAtIdx written.bb.ring h.wridx = e' := tget_tput_same bbZero s.bb.ring h.wridx e'
  have hothers : ∀ i, i ≠ h.wridx → ringAtIdx written.bb.ring i = ringAtIdx s.bb.ring i := fun i hi => tget_tput_other bbZero s.bb.ring e' hi
  clear_value written
  have hreg (a : Nat) : reg written a = reg s a := reg_congr (by rw [hrest]) (by rw [hrest]) a
  have htrig : triggers written e = triggers s e := triggers_congr (hreg _) e
  have hsince : written.bb.since = s.bb.since := by rw [hbb]
  have hplain (t : State) (n : Nat) (hh : BbHeader) (ht : headed written n hh = t) : t = { s with bb := t.bb } ∧
      t.bb = { s.bb with ring := written.bb.ring, ringCheck := written.bb.ringCheck, since := n, header := { hh with trigmask := bbMask written } } ∧
      ∀ a, reg t a = reg s a := by
    obtain ⟨h1, h2⟩ := headed_fields written n hh
    rw [ht] at h1 h2
    refine ⟨by rw [h1, hrest], by rw [h2, hbb], fun a => ?_⟩
    exact (reg_congr (by rw [h1]) (by rw [h1]) a).trans (hreg a)
  rw [htrig]
  split
  next hc =>
    simp only [Bool.and_eq_true, decide_eq_true_eq] at hc
    obtain ⟨h0, htr⟩ := hc
    obtain ⟨y, hy⟩ : ∃ y, headed written 0 { h' with state := 1, trigidx := h.wridx } = y := ⟨_, rfl⟩
    obtain ⟨g1, g2, g3⟩ := hplain y _ _ hy
    change Recorded s (pulse (headed written 0 { h' with state := 1, trigidx := h.wridx }) 1042) e
    rw [hy]
    have hp := sourceOnly_pulse y 1042
    have hpb : (pulse y 1042).bb = y.bb := hp.bb
    refine ⟨by rw [hp.rest, g1], ?_, ?_, ?_, fun i hi => ?_, ?_, ?_, fun _ hq => ?_, fun _ _ => ?_, fun h1 => ?_, fun a ha => (hp.regs a ha).trans (g3 a)⟩
    · rw [hpb, g2]
    · rw [hpb, g2]
    · rw [hpb, g2]; exact hring
    · rw [hpb, g2]; exact hothers i hi
    · rw [hpb, g2]
    · rw [hpb, g2]
    · rw [htr] at hq; cases hq
    · rw [hpb, g2]; exact ⟨rfl, rfl, rfl⟩
    · rw [show s.bb.header.state = 0 from h0] at h1; cases h1
  next hc =>
    split
    next h1 =>
      obtain ⟨y, hy⟩ : ∃ y, headed written (written.bb.since + 1) (if written.bb.since + 1 = 256 then { h' with state := 2 } else h') = y := ⟨_, rfl⟩
      obtain ⟨g1, g2, g3⟩ := hplain y _ _ hy
      change Recorded s (headed written (written.bb.since + 1) (if written.bb.since + 1 = 256 then { h' with state := 2 } else h')) e
      rw [hy]
      refine ⟨by rw [g1], ?_, ?_, ?_, fun i hi => ?_, ?_, ?_, fun h0 => ?_, fun h0 => ?_, fun _ => ?_, fun a _ => g3 a⟩
      · rw [g2]
      · rw [g2]
      · rw [g2]; exact hring
      · rw [g2]; exact hothers i hi
      · rw [g2]; dsimp only; split <;> rfl
      · rw [g2]; dsimp only; split <;> rfl
      · rw [show s.bb.header.state = 1 from h1] at h0; cases h0
      · rw [show s.bb.header.state = 1 from h1] at h0; cases h0
      · rw [g2, hsince]
        refine ⟨rfl, ?_⟩
        dsimp only
        split
        · rfl
        · exact h1
    next h1 =>
      obtain ⟨y, hy⟩ : ∃ y, headed written written.bb.since h' = y := ⟨_, rfl⟩
      obtain ⟨g1, g2, g3⟩ := hplain y _ _ hy
      change Recorded s (headed written written.bb.since h') e
      rw [hy]
      refine ⟨by rw [g1], ?_, ?_, ?_, fun i hi => ?_, ?_, ?_, fun h0 _ => ?_, fun h0 htr => ?_, fun h1' => absurd h1' h1, fun a _ => g3 a⟩
      · rw [g2]
      · rw [g2]
      · rw [g2]; exact hring
      · rw [g2]; exact hothers i hi
      · rw [g2]
      · rw [g2]
      · rw [g2]; exact h0
      · exact absurd (by rw [htr, decide_eq_true (show h.state = 0 from h0)]; rfl) hc

/-- What RING_WRITE leaves: the entry recorded, or dropped by a frozen ring, behind the losses told. -/
structure RingWritten (s t : State) (e : BbEntry) (told : State) : Prop where
  intake : t.bb.intake = told.bb.intake
  nextWrite : t.bb.nextWrite = s.now + 16
  regs : ∀ a, a ≠ icScnt 1042 → reg t a = reg told a
  recorded : s.bb.header.state ≠ 2 → Recorded told t e
  frozen : s.bb.header.state = 2 → t.bb.ring = s.bb.ring ∧ t.bb.header.dropped = incSat 32 s.bb.header.dropped ∧ t.bb.header.wridx = s.bb.header.wridx

/-- The state whose intake has lost its oldest entry. -/
def entryTaken (s : State) (r : List BbEntry) : State := { s with bb := { s.bb with intake := r, nextWrite := s.now + 16 } }
theorem entryTaken_bb (s : State) (r : List BbEntry) : (entryTaken s r).bb = { s.bb with intake := r, nextWrite := s.now + 16 } := rfl
theorem reg_entryTaken (s : State) (r : List BbEntry) (a : Nat) : reg (entryTaken s r) a = reg s a := reg_congr rfl rfl a
theorem bbEntry_congr (hd : t.dtime = s.dtime) (a b c : Nat) (p0 p1 p2 p3 : W32) : bbEntry t a b c p0 p1 p2 p3 = bbEntry s a b c p0 p1 p2 p3 := by
  unfold bbEntry
  rw [hd]
theorem ringWriteOp_eq (hr : s.bb.ready = true) (hm : s.bb.rearming = false) (hi : s.bb.intake = e :: r) (hn : s.bb.nextWrite ≤ s.now) :
    ringWriteOp s = if s.bb.header.state = 2 then setHeader (bbLostNext (entryTaken s r)) { (bbLostNext (entryTaken s r)).bb.header with dropped := incSat 32 (bbLostNext (entryTaken s r)).bb.header.dropped }
      else ringPut (bbLostNext (entryTaken s r)) e := by
  unfold ringWriteOp entryTaken
  rw [hr, hm, decide_eq_false (Nat.not_lt.mpr hn), hi]
  exact if_neg (by simp)
theorem ringWriteOp_spec (hr : s.bb.ready = true) (hm : s.bb.rearming = false) (hi : s.bb.intake = e :: r) (hn : s.bb.nextWrite ≤ s.now) :
    RingWritten s (ringWriteOp s) e (bbLostNext (entryTaken s r)) := by
  rw [ringWriteOp_eq hr hm hi hn]
  have h1 := (lossTold_bbLostNext (entryTaken s r)).rest
  generalize bbLostNext (entryTaken s r) = u at h1
  have hb : u.bb = { (entryTaken s r).bb with intake := u.bb.intake } := by rw [h1]
  rw [entryTaken_bb] at hb
  split
  next hc =>
    refine ⟨rfl, ?_, fun a _ => reg_congr rfl rfl a, fun h => absurd hc h, fun _ => ⟨?_, ?_, ?_⟩⟩ <;> rw [setHeader_fields, hb]
  next hc =>
    have hp := recorded_ringPut u e
    exact ⟨hp.intake, by rw [hp.nextWrite, hb], hp.regs, fun _ => hp, fun h => absurd h hc⟩
theorem reg_entryTaken_lost : bbNoneLost (entryTaken s r) = bbNoneLost s := by
  unfold bbNoneLost
  simp only [reg_entryTaken]
theorem theRingRecords : Clause.TheRingRecords := by
  intro s e r hr hm hi
  intro h
  have hexec : exec .ringWrite s = .next (ringWriteOp s) := act_wf rfl
  rw [hexec]
  have hdue (hn : s.bb.nextWrite ≤ s.now) := ringWriteOp_spec hr hm hi hn
  have htold := lossTold_bbLostNext (entryTaken s r)
  have hb : (bbLostNext (entryTaken s r)).bb = { s.bb with intake := (bbLostNext (entryTaken s r)).bb.intake, nextWrite := s.now + 16 } := by
    have h1 := htold.rest
    generalize bbLostNext (entryTaken s r) = u at h1
    rw [h1]
    rfl
  have htrig : triggers (bbLostNext (entryTaken s r)) e = triggers s e :=
    triggers_congr ((htold.regs _ bbMask_ne_bbLost).trans (reg_entryTaken _ _ _)) e
  refine ⟨fun hn => ?_, fun hn h2 => ?_, fun hn h2 => ⟨_, rfl, (hdue hn).frozen h2⟩, fun hn h0 => ⟨_, rfl, ?_⟩, fun c hn hc => ?_⟩
  · unfold ringWriteOp
    rw [hr, hm, decide_eq_true hn]
    rfl
  · have hw := hdue hn
    have hp := hw.recorded h2
    refine ⟨_, rfl, hw.nextWrite, ?_⟩
    generalize ringWriteOp s = t at hp
    obtain ⟨-, -, -, p1, p2, p3, p4, p5, p6, p7, -⟩ := hp
    rw [hb] at p1 p2 p3 p4 p5 p6 p7
    rw [htrig] at p5 p6
    exact ⟨p1, p2, p3, p4, p5, p6, p7⟩
  · rw [(hdue hn).intake, bbLostNext_none (by rw [reg_entryTaken_lost, h0])]
    rfl
  · have hfind : (upto 16).find? (fun c => !(reg (entryTaken s r) (bbLost c) = 0)) = some c := by
      simp only [reg_entryTaken]
      exact hc
    obtain ⟨g1, g2⟩ := bbLostNext_some hfind
    have hlt : c < 16 := mem_upto (List.mem_of_find?_eq_some hc)
    have hw := hdue hn
    refine ⟨_, rfl, (hw.regs _ (bbLost_ne_icScnt hlt (by decide))).trans g1, ?_⟩
    rw [hw.intake, g2]
    have hf : regF (entryTaken s r) (bbLost c) 0 16 = regF s (bbLost c) 0 16 := regF_congr rfl rfl _ 0 16
    rw [hf]
    rfl

/-! ### L0's entries, copies and summaries (R479, R482, R494) -/

theorem bbOffer_header (e : BbEntry) (h : s.bb.header.state ≠ 2) : (bbOffer s e).bb.header = s.bb.header := by
  unfold bbOffer
  split
  next hc =>
    simp only [Bool.and_eq_true, decide_eq_true_eq] at hc
    exact absurd hc.1.2 h
  · split
    · rfl
    · have hr := (onlyRegs_setRegF s (bbLost (e.code / 256)) 0 16 (incSat 16 (regF s (bbLost (e.code / 256)) 0 16))).1
      generalize setRegF s (bbLost (e.code / 256)) 0 16 (incSat 16 (regF s (bbLost (e.code / 256)) 0 16)) = t at hr
      rw [hr]
theorem sysReserved_bb {o : Nat} (ho : o < 0x10000) (w : Nat) : sysReserved s (bbBase + o) w = [] := by
  have hblock : (bbBase + o) / 0x10000 % 256 = 0x11 := by unfold bbBase; omega
  generalize bbBase + o = a at hblock
  unfold sysReserved
  simp [hblock]
theorem storePlain_bbIn (v : W32) : storePlain s 72 (bbIn 5) v = setReg s (bbIn 5) v := by
  have hi : regInfo s.variant (bbIn 5) = some { ro 0 with claim := 1, own := 0xFFFFFFFF } := regInfo_bb (o := 0x4A) (by decide) (by decide)
  have hown : ownsClaim s 1 72 = true := rfl
  have hres : sysReserved s (bbIn 5) v.toNat = [] := sysReserved_bb (o := 0x4A) (by decide) _
  rw [storePlain_owned hi hown hres, storeVal_all (by rw [storeMask_owned hown]; rfl) rfl hres]
theorem bbCommitOp_offers (v : W32) : bbCommitOp s 72 v = bbCommit (setReg s (bbIn 5) v) := by
  have h := storePlain_bbIn (s := s) v
  unfold bbCommitOp bbStore
  rw [if_neg (fun h => h rfl)]
  dsimp only
  rw [if_pos rfl, h]
theorem bbIn_ne_bbLost {w : Nat} (hw : w < 6) (c : Nat) : c < 16 → bbLost c ≠ bbIn w := by unfold bbLost bbIn; omega
theorem bbCommit_room {y : State} (h : OnlyRegs [bbIn 5] s y) (hv : reg y (bbIn 5) = v) (h1 : (s.bb.ready && s.bb.header.state = 2 && !s.bb.rearming) = false)
    (h2 : s.bb.intake.length < 32) (h3 : bbNoneLost s = true) :
    bbCommit y = { y with bb := { y.bb with intake := s.bb.intake ++ [bbEntry s 1 (rfld (reg s (bbIn 0)) 0 8) (rfld (reg s (bbIn 0)) 16 16) (reg s (bbIn 2)) (reg s (bbIn 3)) (reg s (bbIn 4)) v] } } := by
  have hbb : y.bb = s.bb := by rw [h.1]
  have hin (w : Nat) (hw : w < 5) : reg y (bbIn w) = reg s (bbIn w) := h.2 _ (by simp only [List.mem_singleton]; unfold bbIn; omega)
  have hlost : bbNoneLost y = bbNoneLost s := by
    unfold bbNoneLost
    rw [Bool.eq_iff_iff, List.all_eq_true, List.all_eq_true]
    refine forall₂_congr fun c hc => ?_
    rw [h.2 (bbLost c) (by simpa using bbIn_ne_bbLost (by decide) c (mem_upto hc))]
  unfold bbCommit
  rw [bbOffer_room y _ (by rw [hbb]; exact h1) (by rw [hbb]; exact h2) (by rw [hlost]; exact h3), hin 0 (by decide), hin 2 (by decide), hin 3 (by decide), hin 4 (by decide), hv, hbb,
    bbEntry_congr (s := s) (by rw [h.1])]
theorem bbInCommit_offers (v : W32) (h1 : (s.bb.ready && s.bb.header.state = 2 && !s.bb.rearming) = false)
    (h2 : s.bb.intake.length < 32) (h3 : bbNoneLost s = true) :
    ∃ t, exec (.bbInCommit 72 v) s = .next t ∧
      t.bb.intake = s.bb.intake ++ [bbEntry s 1 (rfld (reg s (bbIn 0)) 0 8) (rfld (reg s (bbIn 0)) 16 16) (reg s (bbIn 2)) (reg s (bbIn 3)) (reg s (bbIn 4)) v] ∧
      OnlyRegs [bbIn 5] { s with bb := t.bb } t := by
  have hexec : exec (.bbInCommit 72 v) s = .next (bbCommitOp s 72 v) := act_wf rfl
  rw [bbCommitOp_offers] at hexec
  have hy := onlyRegs_setReg s (bbIn 5) v
  rw [bbCommit_room hy (reg_setReg_same _ _ _) h1 h2 h3] at hexec
  generalize setReg s (bbIn 5) v = y at hexec hy
  refine ⟨_, hexec, rfl, ?_, fun a ha => ?_⟩
  · rw [hy.1]
  · exact (reg_congr rfl rfl a).trans ((hy.2 a ha).trans (reg_congr rfl rfl a).symm)
theorem bbInCommit_ignored (hm : masterOk m = true) (h : m ≠ 72) : exec (.bbInCommit m v) s = .next s := by
  have hexec : exec (.bbInCommit m v) s = .next (bbCommitOp s m v) := act_wf hm
  have hop : bbCommitOp s m v = s := if_pos h
  rw [hop] at hexec
  exact hexec

theorem putCopy_fields (s : State) (p : Nat) (c : BbCopy) : putCopy s p c = { s with bb := (putCopy s p c).bb } ∧
    (putCopy s p c).bb = { s.bb with copies := (putCopy s p c).bb.copies, copyOrder := (putCopy s p c).bb.copyOrder } ∧
    tget copy0 (putCopy s p c).bb.copies p = c ∧ (putCopy s p c).bb.copyOrder.head? = some p :=
  ⟨rfl, rfl, tget_tput_same copy0 (eraseCopy s p).bb.copies p c, rfl⟩
/-- The ring after a rearm, recording from where it stood. -/
def ringRearmed (s : State) : State :=
  setHeader { s with bb := { s.bb with rearming := false, since := 0 } } { s.bb.header with state := 0, trigidx := 0, dropped := 0 }
theorem ringRearmed_fields (s : State) : (ringRearmed s).bb.rearming = false ∧ (ringRearmed s).bb.header.state = 0 ∧ (ringRearmed s).bb.header.dropped = 0 ∧
    (ringRearmed s).bb.ring = s.bb.ring ∧ (ringRearmed s).bb.copies = s.bb.copies ∧ (ringRearmed s).bb.copyOrder = s.bb.copyOrder := ⟨rfl, rfl, rfl, rfl, rfl, rfl⟩
theorem rearmDoneOp_eq (h : s.bb.rearming = true) : rearmDoneOp s = longDone (bbL0 (ringRearmed (putCopy s (copySlot s)
    { header := s.bb.header, valid := true, time := s.dtime, ring := s.bb.ring, damage := ringDamage s })) 0x0C04 (n32 (copySlot s)) 0 0 0) (0x8001 * 256 + 3) 0 := by
  unfold rearmDoneOp
  rw [h]
  rfl
theorem rearmComplete_copies (h : s.bb.rearming = true) : ∃ t, exec .rearmComplete s = .next t ∧ t.bb.rearming = false ∧ t.bb.header.state = 0 ∧ t.bb.header.dropped = 0 ∧
    t.bb.ring = s.bb.ring ∧ tget copy0 t.bb.copies (copySlot s) = { header := s.bb.header, valid := true, time := s.dtime, ring := s.bb.ring, damage := ringDamage s } ∧
    t.bb.copyOrder.head? = some (copySlot s) := by
  have hexec : exec .rearmComplete s = .next (rearmDoneOp s) := act_wf rfl
  rw [rearmDoneOp_eq h] at hexec
  obtain ⟨-, hbb, hcopy, hhead⟩ := putCopy_fields s (copySlot s) { header := s.bb.header, valid := true, time := s.dtime, ring := s.bb.ring, damage := ringDamage s }
  generalize putCopy s (copySlot s) { header := s.bb.header, valid := true, time := s.dtime, ring := s.bb.ring, damage := ringDamage s } = x at hexec hbb hcopy hhead
  obtain ⟨y1, y2, y3, y4, y5, y6⟩ := ringRearmed_fields x
  generalize ringRearmed x = y at hexec y1 y2 y3 y4 y5 y6
  have hz : OfferOnly y (bbL0 y 0x0C04 (n32 (copySlot s)) 0 0 0) := offerOnly_bbOffer _ _
  have hh : (bbL0 y 0x0C04 (n32 (copySlot s)) 0 0 0).bb.header = y.bb.header := bbOffer_header _ (by rw [y2]; decide)
  generalize bbL0 y 0x0C04 (n32 (copySlot s)) 0 0 0 = z at hexec hz hh
  have hl : (longDone z (0x8001 * 256 + 3) 0).bb = z.bb := by rw [longDone_fppOnly]
  have hzb := hz.bb
  refine ⟨_, hexec, ?_⟩
  rw [hl, hh, hzb]
  exact ⟨y1, y2, y3, by rw [y4, hbb], by rw [y5]; exact hcopy, by rw [y6]; exact hhead⟩

theorem lostPeriodSummary_tells (h1 : s.carts.lostNow ≠ []) (h2 : s.carts.lastSecond < s.dtime / 10 ^ 9) :
    ∃ t, exec .lostPeriodSummary s = .next t ∧ t.carts = { s.carts with lostNow := [], lastSecond := s.dtime / 10 ^ 9 } ∧
      ((s.bb.ready && s.bb.header.state = 2 && !s.bb.rearming) = false ∧ s.bb.intake.length < 32 ∧ bbNoneLost s = true →
        ∃ x, t.bb.intake = s.bb.intake ++ [x] ∧ x.code = 0x0A01 ∧ x.p0 = n32 ((s.carts.lostNow.map (fun e => e.2)).foldl (· + ·) 0) ∧ x.p1 = n32 s.carts.lostNow.length) := by
  have hexec : exec .lostPeriodSummary s = .next (lostSumOp s) := act_wf rfl
  have hguard : ¬ (s.carts.lostNow.isEmpty || decide (s.dtime / 10 ^ 9 ≤ s.carts.lastSecond)) = true := by
    rw [decide_eq_false (Nat.not_le.mpr h2), Bool.or_false, List.isEmpty_iff]
    exact h1
  obtain ⟨x, hop, hx⟩ : ∃ x, lostSumOp s = { bbOffer s x with carts := { (bbOffer s x).carts with lostNow := [], lastSecond := s.dtime / 10 ^ 9 } } ∧
      x.code = 0x0A01 ∧ x.p0 = n32 ((s.carts.lostNow.map (fun e => e.2)).foldl (· + ·) 0) ∧ x.p1 = n32 s.carts.lostNow.length :=
    ⟨_, if_neg hguard, rfl, rfl, rfl⟩
  rw [hop] at hexec
  have ho := (offerOnly_bbOffer s x).rest
  have hroom := bbOffer_room s x
  generalize bbOffer s x = y at hexec ho hroom
  refine ⟨_, hexec, by rw [ho], fun ⟨r1, r2, r3⟩ => ⟨x, ?_, hx⟩⟩
  rw [hroom r1 r2 r3]
theorem entriesAndCopies : Clause.EntriesAndCopies := by
  intro s m v hm
  intro room
  exact ⟨fun ⟨h1, h2, h3⟩ => bbInCommit_offers v h1 h2 h3, fun h => bbInCommit_ignored hm h, fun h => rearmComplete_copies h, fun h1 h2 => lostPeriodSummary_tells h1 h2⟩

/-! ### Supply dips (R487 to R489) -/

theorem dramParked_congr (hm : t.mem = s.mem) (h : reg t dctl = reg s dctl) : dramParked t = dramParked s := by
  have hb : regB t dctl 17 = regB s dctl 17 := by unfold regB; rw [h]
  unfold dramParked
  rw [hm]
  exact congrArg _ hb
theorem dctl_ne_bbLost (c : Nat) : dctl ≠ bbLost c := pwr_ne_bbLost (by decide) c
/-- The pin asserted: the dip, begun or going on, before the DRAM parks. -/
def dipBegun (s : State) : State :=
  if s.bb.dip then { s with bb := { s.bb with pfail := true } } else
    bbHw { s with bb := { s.bb with pfail := true, dip := true, dipStart := s.now, dips := s.bb.dips + 1, dipLost := 0, muted := true } } 0xFF 0x0601 (n32 s.dev) (n32 (s.bb.dips + 1)) 0 0
/-- What PFAIL_N's assertion leaves of the black box, the carts, the coaches and the memories. -/
structure DipGoesOn (s t : State) : Prop where
  pfail : t.bb.pfail = true
  dip : t.bb.dip = true
  begins : s.bb.dip = false → t.bb.dips = s.bb.dips + 1 ∧ t.bb.dipStart = s.now ∧ t.bb.muted = true
  goesOn : s.bb.dip = true → t.bb.dips = s.bb.dips ∧ t.bb.dipStart = s.bb.dipStart
  carts : t.carts = s.carts
  coaches : t.coaches = s.coaches
theorem dipBegun_spec (s : State) : DipGoesOn s (dipBegun s) ∧ dramParked (dipBegun s) = dramParked s := by
  unfold dipBegun
  cases hd : s.bb.dip with
  | true => exact ⟨⟨rfl, hd, fun h => absurd (hd.symm.trans h) (by decide), fun _ => ⟨rfl, rfl⟩, rfl, rfl⟩, rfl⟩
  | false =>
    simp only [Bool.false_eq_true, if_false]
    obtain ⟨u, hu⟩ : ∃ u, u = { s with bb := { s.bb with pfail := true, dip := true, dipStart := s.now, dips := s.bb.dips + 1, dipLost := 0, muted := true } } := ⟨_, rfl⟩
    rw [← hu]
    have ho := offerOnly_bbHw u 0xFF 0x0601 (n32 s.dev) (n32 (s.bb.dips + 1)) 0 0
    generalize bbHw u 0xFF 0x0601 (n32 s.dev) (n32 (s.bb.dips + 1)) 0 0 = t at ho
    have hr := ho.rest
    have hb := ho.bb
    refine ⟨⟨by rw [hb, hu], by rw [hb, hu], fun _ => by rw [hb, hu]; exact ⟨rfl, rfl, rfl⟩, fun h => absurd (hd.symm.trans h) (by decide), by rw [hr, hu], by rw [hr, hu]⟩, ?_⟩
    refine dramParked_congr (by rw [hr, hu]) ((ho.regs dctl dctl_ne_bbLost).trans ?_)
    rw [hu]
    exact reg_congr rfl rfl _
theorem pfailOp_eq (h : s.bb.pfail = false) : pfailOp s = parkOp (setLevel (dipBegun s) 1043 true) := by
  unfold pfailOp dipBegun
  rw [h]
  rfl
theorem parkOp_frame (s : State) : parkOp s = { s with mem := (parkOp s).mem } := by
  unfold parkOp
  split <;> rfl
theorem pfailAssert_rides (h : s.bb.pfail = false) : ∃ t, exec .pfailAssert s = .next t ∧ t.bb.pfail = true ∧ t.bb.dip = true ∧ srcSignal t 1043 = true ∧
    (s.bb.dip = false → t.bb.dips = s.bb.dips + 1 ∧ t.bb.dipStart = s.now ∧ t.bb.muted = true) ∧ (s.bb.dip = true → t.bb.dips = s.bb.dips ∧ t.bb.dipStart = s.bb.dipStart) ∧
    (dramParked s = false → t.mem.parking = true) ∧ t.carts = s.carts ∧ t.coaches = s.coaches := by
  have hexec : exec .pfailAssert s = .next (pfailOp s) := act_wf rfl
  rw [pfailOp_eq h] at hexec
  obtain ⟨hd, hp⟩ := dipBegun_spec s
  generalize dipBegun s = x at hexec hd hp
  have hs := sourceOnly_setLevel x 1043 true
  have hsig : srcSignal (setLevel x 1043 true) 1043 = true := by rw [srcSignal_setLevel, if_pos rfl]
  generalize setLevel x 1043 true = y at hexec hs hsig
  have hyb : y.bb = x.bb := hs.bb
  have hpark : dramParked s = false → (parkOp y).mem.parking = true := by
    intro h0
    rw [parkOp_stops (.inr (by rw [hyb]; exact hd.pfail)) ((dramParked_congr hs.mem (hs.regs _ (dctl_ne_icScnt _))).trans (hp.trans h0))]
  have hf := parkOp_frame y
  generalize parkOp y = t at hexec hpark hf
  have htb : t.bb = x.bb := by rw [hf]; exact hyb
  have hts : srcSignal t 1043 = true := by rw [hf]; exact hsig
  have htc : t.carts = y.carts ∧ t.coaches = y.coaches := by rw [hf]; exact ⟨rfl, rfl⟩
  refine ⟨t, hexec, ?_⟩
  rw [htb]
  exact ⟨hd.pfail, hd.dip, hts, hd.begins, hd.goesOn, hpark, htc.1.trans (hs.carts.trans hd.carts), htc.2.trans (hs.coaches.trans hd.coaches)⟩
theorem pfailRelease_waits (h : s.bb.pfail = true) : ∃ t, exec .pfailRelease s = .next t ∧ t.bb = { s.bb with pfail := false, dipRelease := s.now } ∧ srcSignal t 1043 = false ∧
    OnlyRegsAndSources [] [1043] { s with bb := t.bb } t := by
  have hexec : exec .pfailRelease s = .next (pfailEndOp s) := act_wf rfl
  rw [show pfailEndOp s = _ from if_pos h] at hexec
  obtain ⟨u, hu⟩ : ∃ u, u = { s with bb := { s.bb with pfail := false, dipRelease := s.now } } := ⟨_, rfl⟩
  rw [← hu] at hexec
  have hs := sourceOnly_setLevel u 1043 false
  have hsig : srcSignal (setLevel u 1043 false) 1043 = false := by rw [srcSignal_setLevel, if_pos rfl]
  generalize setLevel u 1043 false = t at hexec hs hsig
  have hb : t.bb = { s.bb with pfail := false, dipRelease := s.now } := by rw [hs.bb, hu]
  refine ⟨t, hexec, hb, hsig, ?_⟩
  rw [show { s with bb := t.bb } = u by rw [hb, hu]]
  exact hs.regsAndSources (by decide)
theorem unparkOp_frame (s : State) : (unparkOp s).bb = s.bb ∧ (unparkOp s).carts = s.carts ∧ (unparkOp s).mem = s.mem := by
  unfold unparkOp
  split
  · have hy : OnlyRegs [dctl] s (setRegB s dctl 17 false) := onlyRegs_setRegB _ _ _ _
    generalize setRegB s dctl 17 false = y at hy
    have hs := sourceOnly_setLevel y 1050 false
    generalize setLevel y 1050 false = t at hs
    have hr := hy.1
    exact ⟨hs.bb.trans (by rw [hr]), hs.carts.trans (by rw [hr]), hs.mem.trans (by rw [hr])⟩
  · exact ⟨rfl, rfl, rfl⟩
theorem dipEnd_ends (h1 : s.bb.dip = true) (h2 : s.bb.pfail = false) (h3 : s.bb.dipRelease + 1000000 ≤ s.now) : ∃ t, exec .dipEnd s = .next t ∧ t.bb.dip = false ∧ t.bb.muted = false ∧
    t.bb.dipLongest = Nat.max s.bb.dipLongest ((s.bb.dipRelease - s.bb.dipStart) / 1000) ∧ t.bb.dipTotal = s.bb.dipTotal + (s.bb.dipRelease - s.bb.dipStart) / 1000 ∧
    t.carts = s.carts ∧ t.mem = s.mem := by
  have hexec : exec .dipEnd s = .next (dipEndOp s) := act_wf rfl
  have hguard : ¬ ((!s.bb.dip || s.bb.pfail || decide (s.now < s.bb.dipRelease + 1000000)) = true) := by
    rw [h1, h2, decide_eq_false (Nat.not_lt.mpr h3)]
    decide
  rw [show dipEndOp s = _ from if_neg hguard] at hexec
  have ho := offerOnly_bbHw s 0xFF 0x0602 (n32 (Nat.min ((s.bb.dipRelease - s.bb.dipStart) / 1000) (2 ^ 32 - 1))) (n32 s.bb.dipLost) 0 0
  generalize bbHw s 0xFF 0x0602 (n32 (Nat.min ((s.bb.dipRelease - s.bb.dipStart) / 1000) (2 ^ 32 - 1))) (n32 s.bb.dipLost) 0 0 = x at hexec ho
  obtain ⟨u, hu⟩ : ∃ u, u = { x with bb := { x.bb with dip := false, muted := false, dipLongest := Nat.max s.bb.dipLongest ((s.bb.dipRelease - s.bb.dipStart) / 1000), dipTotal := s.bb.dipTotal + (s.bb.dipRelease - s.bb.dipStart) / 1000 } } := ⟨_, rfl⟩
  rw [← hu] at hexec
  obtain ⟨g1, g2, g3⟩ := unparkOp_frame u
  refine ⟨_, hexec, ?_⟩
  rw [g1, g2, g3, hu]
  have hr := ho.rest
  exact ⟨rfl, rfl, rfl, rfl, by rw [hr], by rw [hr]⟩
theorem dipsAreRidden : Clause.DipsAreRidden := fun _ => ⟨pfailAssert_rides, pfailRelease_waits, dipEnd_ends⟩

/-- Settles O56: RING_WRITE, what fills the ring, and the dips. -/
theorem theBlackBox : Obligations.TheBlackBox := ⟨theRingRecords, entriesAndCopies, dipsAreRidden⟩

end Sys2Proof.Machine
end

section
/-! What the agent answers, and the request that a command takes (R448 to R456). -/
namespace Sys2Proof.Machine

variable {s t u x y : State} {q : Request} {e k : Nat} {f : TxFrame}

/-! ### Transmit queues (R391, R399, R400) -/

/-- Between the states only credits are brought up to date. -/
structure CreditOnly (s t : State) : Prop where
  rest : t = { s with net := { s.net with credit := t.net.credit, creditAt := t.net.creditAt } }

theorem creditOnly_refl (s : State) : CreditOnly s s := ⟨rfl⟩
theorem creditOnly_setCredit (s : State) (e q : Nat) (c : Int) (n : Nat) : CreditOnly s (setCredit s e q c n) := ⟨rfl⟩
theorem CreditOnly.trans (h : CreditOnly s t) (h' : CreditOnly t u) : CreditOnly s u := ⟨by rw [h'.rest, h.rest]⟩
theorem CreditOnly.queues (h : CreditOnly s t) : t.net.queues = s.net.queues := by rw [h.rest]
theorem CreditOnly.queueAt (h : CreditOnly s t) (e q : Nat) : queueAt t e q = queueAt s e q := by unfold Machine.queueAt; rw [h.queues]
theorem creditOnly_creditNow (s : State) (e q : Nat) : CreditOnly s (creditNow s e q) := by
  unfold creditNow
  extract_lets n d
  split
  · exact creditOnly_refl s
  · exact creditOnly_setCredit ..
theorem creditOnly_creditsNow (s : State) (e : Nat) : CreditOnly s (creditsNow s e) :=
  List.foldlRecOn _ _ (creditOnly_refl s) fun _ h _ _ => h.trans (creditOnly_creditNow ..)

theorem queueAt_setQueueAt (s : State) (e q : Nat) (l : List TxFrame) : queueAt (setQueueAt s e q l) e q = l := tget_tput_same [] s.net.queues (qKey e q) l

theorem txEnqueue_room (hl : ethLink s e = true) (hq : (queueAt s e k).length < 32) :
    ∃ y, CreditOnly s y ∧ txEnqueue s e k f = setQueueAt y e k (queueAt s e k ++ [f]) := by
  unfold txEnqueue
  rw [hl, if_neg (by decide), if_neg (by omega)]
  dsimp only
  rw [(creditOnly_creditNow s e k).queueAt]
  exact ⟨_, creditOnly_creditNow .., rfl⟩
theorem queueAt_txEnqueue (hl : ethLink s e = true) (hq : (queueAt s e k).length < 32) : queueAt (txEnqueue s e k f) e k = queueAt s e k ++ [f] := by
  obtain ⟨y, -, h⟩ := txEnqueue_room (f := f) hl hq
  rw [h, queueAt_setQueueAt]

/-! ### Answers -/

/-- The places that responses go to are alike in both states. -/
structure SameReplies (s t : State) : Prop where
  out : t.fpp.out = s.fpp.out
  spi : t.fpp.spi = s.fpp.spi
  queues : t.net.queues = s.net.queues
  link : ∀ e, ethLink t e = ethLink s e

theorem sameReplies_refl (s : State) : SameReplies s s := ⟨rfl, rfl, rfl, fun _ => rfl⟩
theorem SameReplies.trans (h : SameReplies s t) (h' : SameReplies t u) : SameReplies s u :=
  ⟨h'.out.trans h.out, h'.spi.trans h.spi, h'.queues.trans h.queues, fun e => (h'.link e).trans (h.link e)⟩
theorem SameReplies.queueAt (h : SameReplies s t) (e k : Nat) : queueAt t e k = queueAt s e k := by unfold Machine.queueAt; rw [h.queues]
theorem sameReplies_of_fpp (f : Fpp) (ho : f.out = s.fpp.out) (hp : f.spi = s.fpp.spi) : SameReplies s { s with fpp := f } := ⟨ho, hp, rfl, fun _ => rfl⟩
theorem ethStat_ne_icScnt (e : Nat) {n : Nat} (hn : n < 2048) : ethStat e ≠ icScnt n := by unfold ethStat ethBase icScnt icBase; omega
theorem ethStat_ne_bbLost (e c : Nat) (hc : c < 256) : ethStat e ≠ bbLost c := by unfold ethStat ethBase bbLost bbBase; omega
theorem ethLink_congr (h : reg t (ethStat e) = reg s (ethStat e)) : ethLink t e = ethLink s e := by unfold ethLink regB; rw [h]
theorem SourceOnly.sameReplies {n : Nat} (h : SourceOnly n s t) (hn : n < 2048) : SameReplies s t :=
  ⟨by rw [h.fpp], by rw [h.fpp], by rw [h.net], fun e => ethLink_congr (h.regs _ (ethStat_ne_icScnt e hn))⟩

theorem creditOnly_link (h : CreditOnly s t) (e : Nat) : ethLink t e = ethLink s e := by
  unfold ethLink
  rw [h.rest]
  exact regB_congr rfl rfl _ _

/-- What a response leaves beside the counters and signals of an Ethernet port. -/
structure Responded (s t : State) : Prop where
  rest : t = { s with regs := t.regs, intc := t.intc, net := t.net, fpp := t.fpp }
  fpp : t.fpp = { s.fpp with out := t.fpp.out, spi := t.fpp.spi, counts := t.fpp.counts }

theorem onlyRegs_ethCount (s : State) (e k : Nat) : OnlyRegs [ethCnt e k] s (ethCount s e k) := onlyRegs_setReg _ _ _
theorem ethDrop_frame (s : State) (e k : Nat) : ethDrop s e k = { s with regs := (ethDrop s e k).regs, intc := (ethDrop s e k).intc } := by
  unfold ethDrop
  have h := onlyRegs_ethCount s e k
  generalize ethCount s e k = y at h
  have hp := (sourceOnly_pulse y (913 + 4 * e)).rest
  generalize pulse y (913 + 4 * e) = z at hp
  rw [hp, h.1]
theorem txEnqueue_frame (s : State) (e k : Nat) (f : TxFrame) : txEnqueue s e k f = { s with regs := (txEnqueue s e k f).regs, intc := (txEnqueue s e k f).intc, net := (txEnqueue s e k f).net } := by
  cases hl : ethLink s e with
  | false =>
    have h : txEnqueue s e k f = ethDrop s e 7 := by unfold txEnqueue; rw [hl]; rfl
    have hd := ethDrop_frame s e 7
    rw [h]
    generalize ethDrop s e 7 = z at hd
    rw [hd]
  | true =>
    by_cases hq : (queueAt s e k).length < 32
    · obtain ⟨y, hy, h⟩ := txEnqueue_room (f := f) hl hq
      rw [h, hy.rest]
      rfl
    · have h : txEnqueue s e k f = ethDrop s e 6 := by unfold txEnqueue; rw [hl, if_neg (by decide), if_pos (by omega)]
      have hd := ethDrop_frame s e 6
      rw [h]
      generalize ethDrop s e 6 = z at hd
      rw [hd]
theorem responded_respond (s : State) (p : Response) : Responded s (respond s p) := by
  unfold respond
  split
  · exact ⟨rfl, rfl⟩
  · next e ip port _ =>
    unfold sendPlain
    generalize ({ length := plainBytes (28 + 20 + p.data.length), what := .fpp p.dest (encodeResp p), payload := [] } : TxFrame) = f
    have h := txEnqueue_frame s e 0 f
    generalize txEnqueue s e 0 f = t at h
    exact ⟨by rw [h], by rw [h]⟩
  · split <;> exact ⟨rfl, rfl⟩
theorem responded_answerWith (s : State) (q : Request) (st typ off total : Nat) (d : List Byte) : Responded s (answerWith s q st typ off total d) := responded_respond _ _

/-- A response stands where its transport puts it. -/
theorem answeredBy_answerWith (h : SameReplies u x) (q : Request) (st typ off total : Nat) (d : List Byte) :
    AnsweredBy u (answerWith x q st typ off total d) q st typ off total d := by
  have hepoch : (answerWith x q st typ off total d).fpp.epoch = x.fpp.epoch := by rw [(responded_answerWith x q st typ off total d).fpp]
  unfold AnsweredBy
  rw [hepoch]
  unfold answerWith respond
  dsimp only
  cases q.from_ with
  | can c n => exact congrArg (· ++ _) h.out
  | udp e ip p =>
    intro hl hlen
    dsimp only
    unfold sendPlain
    rw [show 28 + 20 + d.length = 48 + d.length from rfl, queueAt_txEnqueue ((h.link e).trans hl) (by rw [h.queueAt]; exact hlen), h.queueAt]
  | spi =>
    intro hlen
    dsimp only
    rw [if_pos (by rw [h.spi]; exact hlen)]
    exact congrArg (· ++ _) h.spi
/-- What leaves the places of the responses and the epoch alone leaves the answer. -/
theorem answeredBy_after {st typ off total : Nat} {d : List Byte} (h : AnsweredBy u y q st typ off total d) (hs : SameReplies y t) (he : t.fpp.epoch = y.fpp.epoch) :
    AnsweredBy u t q st typ off total d := by
  unfold AnsweredBy at h ⊢
  rw [he]
  cases hf : q.from_ with
  | can c n => rw [hf] at h; exact hs.out.trans h
  | udp e ip p => rw [hf] at h; exact fun hl hlen => (hs.queueAt e 0).trans (h hl hlen)
  | spi => rw [hf] at h; exact fun hlen => hs.spi.trans (h hlen)

/-- An entry changes no register but the loss count of its class. -/
theorem reg_bbOffer {a : Nat} (z : BbEntry) (ha : a ≠ bbLost (z.code / 256)) : reg (bbOffer s z) a = reg s a := by
  unfold bbOffer
  split
  · exact reg_congr rfl rfl a
  · split
    · exact reg_congr rfl rfl a
    · exact reg_setRegF_ne _ _ _ _ _ _ ha
theorem sameReplies_bbOffer (z : BbEntry) (hz : z.code < 0x10000) : SameReplies s (bbOffer s z) := by
  have h := (offerOnly_bbOffer s z).rest
  refine ⟨by rw [h], by rw [h], by rw [h], fun e => ethLink_congr (reg_bbOffer z (ethStat_ne_bbLost e _ (by omega)))⟩
theorem sameReplies_bbL0 (s : State) {code : Nat} (p0 p1 p2 p3 : W32) (hc : code < 0x10000) : SameReplies s (bbL0 s code p0 p1 p2 p3) := sameReplies_bbOffer _ hc

/-! ### The request taken (R449) -/

theorem takeHead_eq {r : List Request} {ok : Request → Bool} (h2 : 2 ≤ s.dev) (hq : s.fpp.queue = q :: r) (hok : ok q = true) (go : State → Request → State) :
    takeHead s ok go = go (taken s q r) q := by
  unfold takeHead
  rw [if_neg (by omega), hq]
  exact if_pos hok

theorem noRoom_of_sess (h : (sessOf s q.from_).isSome = true) : noRoom s q = false := by unfold noRoom; rw [← Option.not_isSome, h]; rfl

theorem sameReplies_fppCount (s : State) (k : Nat) : SameReplies s (fppCount s k) := ⟨rfl, rfl, rfl, fun _ => rfl⟩
/-- An abort is answered with its code. -/
theorem answeredBy_abort (h : SameReplies u x) (q : Request) (c : Nat) : AnsweredBy u (abort x q c) q c 0 0 0 [] :=
  answeredBy_answerWith (h.trans (sameReplies_fppCount ..)) q c 0 0 0 []

end Sys2Proof.Machine
end

section
/-! Owners are elected, keep their ownership, hand over and release it (R457 to R464). -/
namespace Sys2Proof.Machine

variable {s t u x y : State} {q : Request} {r : List Request}

/-! ### Sessions and ownership entries -/

/-- Of the agent only the sessions and the counts have changed. -/
structure SessionsOnly (s t : State) : Prop where
  rest : t = { s with fpp := { s.fpp with sessions := t.fpp.sessions, counts := t.fpp.counts } }

theorem SessionsOnly.trans (h : SessionsOnly s t) (h' : SessionsOnly t u) : SessionsOnly s u := ⟨by rw [h'.rest, h.rest]⟩
theorem sessionsOnly_modSess (s : State) (a : Transport) (f : Session → Session) : SessionsOnly s (modSess s a f) := ⟨rfl⟩
theorem sessionsOnly_setOutcome (s : State) (a : Transport) (key status : Nat) : SessionsOnly s (setOutcome s a key status) := sessionsOnly_modSess ..
theorem sessionsOnly_fppCount (s : State) (k : Nat) : SessionsOnly s (fppCount s k) := ⟨rfl⟩
theorem sessionsOnly_endOutcome (s : State) (a : Transport) (status : Nat) : SessionsOnly s (endOutcome s a status) := by
  unfold endOutcome
  split
  · exact sessionsOnly_setOutcome ..
  · exact (sessionsOnly_fppCount ..).trans (sessionsOnly_setOutcome ..)
theorem SessionsOnly.sameReplies (h : SessionsOnly s t) : SameReplies s t := by
  rw [h.rest]
  exact sameReplies_of_fpp _ rfl rfl
theorem SessionsOnly.foldl {α : Type} (f : State → α → State) (h : ∀ s a, SessionsOnly s (f s a)) (l : List α) (s : State) : SessionsOnly s (l.foldl f s) :=
  List.foldlRecOn _ _ ⟨rfl⟩ fun _ hx a _ => SessionsOnly.trans hx (h _ a)

theorem offerOnly_ownEntry (s : State) (old oldE new newE : Nat) : OfferOnly s (ownEntry s old oldE new newE) := offerOnly_bbOffer _ _
theorem sameReplies_ownEntry (s : State) (old oldE new newE : Nat) : SameReplies s (ownEntry s old oldE new newE) := sameReplies_bbL0 s _ _ _ _ (by decide)
theorem OfferOnly.fpp_eq (h : OfferOnly s t) : t.fpp = s.fpp := by rw [h.rest]

/-! ### The election (R458, R459) -/

theorem betterClaim_mem (a b : Candidate) : betterClaim a b = a ∨ betterClaim a b = b := by
  unfold betterClaim
  split
  · exact .inr rfl
  · exact .inl rfl
/-- A claim that wins: no other has a higher priority, or the same and a lower node identity. -/
def Beats (w c : Candidate) : Prop := c.prio ≤ w.prio ∧ (c.prio = w.prio → w.node ≤ c.node)
theorem Beats.trans {a b c : Candidate} (h : Beats a b) (h' : Beats b c) : Beats a c := by
  unfold Beats at *
  omega
theorem betterClaim_beats (a b : Candidate) : Beats (betterClaim a b) a ∧ Beats (betterClaim a b) b := by
  unfold betterClaim Beats
  simp only [Bool.or_eq_true, Bool.and_eq_true, decide_eq_true_eq]
  split <;> omega
theorem foldl_betterClaim (r : List Candidate) : ∀ c, r.foldl betterClaim c ∈ c :: r ∧ ∀ x ∈ c :: r, Beats (r.foldl betterClaim c) x := by
  induction r with
  | nil => exact fun c => ⟨List.mem_singleton.mpr rfl, fun x hx => by rw [List.mem_singleton.mp hx]; exact ⟨Nat.le_refl _, fun _ => Nat.le_refl _⟩⟩
  | cons d r ih =>
    intro c
    obtain ⟨hmem, hbeats⟩ := ih (betterClaim c d)
    have hwin := hbeats _ List.mem_cons_self
    obtain ⟨hc, hd⟩ := betterClaim_beats c d
    refine ⟨?_, fun x hx => ?_⟩
    · rcases List.mem_cons.mp hmem with h | h
      · rw [List.foldl_cons, h]
        rcases betterClaim_mem c d with h' | h' <;> rw [h']
        · exact List.mem_cons_self
        · exact List.mem_cons_of_mem _ List.mem_cons_self
      · exact List.mem_cons_of_mem _ (List.mem_cons_of_mem _ h)
    · rcases List.mem_cons.mp hx with h | h
      · rw [h]; exact hwin.trans hc
      · rcases List.mem_cons.mp h with h | h
        · rw [h]; exact hwin.trans hd
        · exact hbeats x (List.mem_cons_of_mem _ h)

/-- The agent once the election has an owner. -/
def elected (s : State) (w : Candidate) : State :=
  { s with fpp := { s.fpp with own := 2, ownerNode := w.node, ownerPrio := w.prio, ownerSession := some w.session, ownerSeen := s.fpp.electionEnd,
                               epoch := nextEpoch s.fpp.epoch, grants := s.fpp.grants + 1, candidates := [] } }
theorem elected_fpp (s : State) (w : Candidate) : (elected s w).fpp = { s.fpp with own := 2, ownerNode := w.node, ownerPrio := w.prio, ownerSession := some w.session, ownerSeen := s.fpp.electionEnd, epoch := nextEpoch s.fpp.epoch, grants := s.fpp.grants + 1, candidates := [] } := rfl
/-- The outcomes of the claims of an election that `w` wins. -/
def claimsEnded (s : State) (l : List Candidate) (w : Candidate) : State := l.foldl (fun s x => endOutcome s x.session (if x.session = w.session then 0 else 4)) s
theorem electionEndOp_eq {c : Candidate} {l : List Candidate} (h : s.fpp.candidates = c :: l) :
    electionEndOp s = ownEntry (claimsEnded (elected s (l.foldl betterClaim c)) s.fpp.candidates (l.foldl betterClaim c)) 0 s.fpp.epoch (l.foldl betterClaim c).node (nextEpoch s.fpp.epoch) := by
  unfold electionEndOp
  split
  next hn => rw [h] at hn; cases hn
  next hc => rw [h] at hc; cases hc; rfl
theorem electionEnd_elects (h1 : s.fpp.own = 1) (h2 : s.fpp.electionEnd ≤ s.dtime) (h3 : queuePast s s.fpp.electionEnd = true) (h4 : s.fpp.candidates ≠ []) :
    ∃ t w, exec .electionEnd s = .next t ∧ w ∈ s.fpp.candidates ∧ t.fpp.own = 2 ∧ t.fpp.ownerNode = w.node ∧ t.fpp.ownerPrio = w.prio ∧ t.fpp.ownerSession = some w.session ∧
      t.fpp.epoch = (if s.fpp.epoch = 0xFFFF then 1 else s.fpp.epoch + 1) ∧ t.fpp.grants = s.fpp.grants + 1 ∧ t.fpp.candidates = [] ∧
      (∀ c, c ∈ s.fpp.candidates → c.prio ≤ w.prio ∧ (c.prio = w.prio → w.node ≤ c.node)) := by
  have hexec : exec .electionEnd s = .next (if electionDue s s.dtime && queuePast s s.fpp.electionEnd then electionEndOp s else s) := act_wf rfl
  rw [if_pos (by unfold electionDue; rw [h1, h3, decide_eq_true h2]; rfl)] at hexec
  obtain ⟨c, l, hl⟩ := List.exists_cons_of_ne_nil h4
  rw [electionEndOp_eq hl] at hexec
  obtain ⟨hmem, hbeats⟩ := foldl_betterClaim l c
  generalize l.foldl betterClaim c = w at hexec hmem hbeats
  have hx := elected_fpp s w
  generalize elected s w = x at hexec hx
  have hy : SessionsOnly x (claimsEnded x s.fpp.candidates w) := .foldl _ (fun _ _ => sessionsOnly_endOutcome ..) _ _
  generalize claimsEnded x s.fpp.candidates w = y at hexec hy
  have hz := (offerOnly_ownEntry y 0 s.fpp.epoch w.node (nextEpoch s.fpp.epoch)).fpp_eq
  generalize ownEntry y 0 s.fpp.epoch w.node (nextEpoch s.fpp.epoch) = z at hexec hz
  refine ⟨z, w, hexec, hl ▸ hmem, ?_⟩
  rw [hz, hy.rest, hl]
  dsimp only
  rw [hx]
  exact ⟨rfl, rfl, rfl, rfl, rfl, rfl, rfl, hbeats⟩

/-! ### Lapse, claims and heartbeats (R458, R460, R462) -/

/-- Nobody owns the device, before the entry that tells it. -/
def disowned (s : State) : State := { s with fpp := { s.fpp with own := 0, ownerNode := 0, ownerPrio := 0, ownerSession := none } }
theorem disowned_fpp (s : State) : (disowned s).fpp = { s.fpp with own := 0, ownerNode := 0, ownerPrio := 0, ownerSession := none } := rfl
theorem disowned_rest (s : State) : disowned s = { s with fpp := (disowned s).fpp } := rfl
theorem noOwner_spec (s : State) : (noOwner s).fpp = { s.fpp with own := 0, ownerNode := 0, ownerPrio := 0, ownerSession := none } ∧
    (noOwner s).carts = s.carts ∧ (noOwner s).dev = s.dev ∧ SameReplies s (noOwner s) := by
  have hx : noOwner s = ownEntry (disowned s) s.fpp.ownerNode s.fpp.epoch 0 s.fpp.epoch := rfl
  have h1 := disowned_rest s
  have h2 := disowned_fpp s
  have h3 : SameReplies s (disowned s) := sameReplies_of_fpp _ rfl rfl
  rw [hx]
  generalize disowned s = x at h1 h2 h3
  have h4 := offerOnly_ownEntry x s.fpp.ownerNode s.fpp.epoch 0 s.fpp.epoch
  have h5 := sameReplies_ownEntry x s.fpp.ownerNode s.fpp.epoch 0 s.fpp.epoch
  generalize ownEntry x s.fpp.ownerNode s.fpp.epoch 0 s.fpp.epoch = y at h4 h5
  have h4r := h4.rest
  exact ⟨h4.fpp_eq.trans h2, by rw [h4r, h1], by rw [h4r, h1], h3.trans h5⟩
theorem lapse_counts {y : State} (h : SessionsOnly s y) : ∃ z, z = { y with fpp := { y.fpp with lapses := y.fpp.lapses + 1 } } ∧ z.fpp.epoch = s.fpp.epoch ∧ z.fpp.lapses = s.fpp.lapses + 1 ∧
    z.carts = s.carts ∧ z.dev = s.dev :=
  ⟨_, rfl, by rw [h.rest], by rw [h.rest], by rw [h.rest], by rw [h.rest]⟩
theorem ownerLapse_lapses (h1 : s.fpp.own = 2) (h2 : s.dev ≠ 7) (h3 : s.fpp.ownerSeen + 500000000 ≤ s.dtime) (h4 : queuePast s (s.fpp.ownerSeen + 500000000) = true) :
    ∃ t, exec .ownerLapse s = .next t ∧ t.fpp.own = 0 ∧ t.fpp.ownerNode = 0 ∧ t.fpp.ownerSession = none ∧ t.fpp.epoch = s.fpp.epoch ∧ t.fpp.lapses = s.fpp.lapses + 1 ∧
      t.carts = s.carts ∧ t.dev = s.dev := by
  have hexec : exec .ownerLapse s = .next (if lapseDue s s.dtime && queuePast s (s.fpp.ownerSeen + 500000000) then lapseOp s else s) := act_wf rfl
  rw [if_pos (by unfold lapseDue; rw [h1, h4, decide_eq_true h3]; simpa using h2)] at hexec
  obtain ⟨y, hy, hop⟩ : ∃ y, SessionsOnly s y ∧ lapseOp s = noOwner { y with fpp := { y.fpp with lapses := y.fpp.lapses + 1 } } := by
    unfold lapseOp
    cases s.fpp.ownerSession with
    | none => exact ⟨s, ⟨rfl⟩, rfl⟩
    | some a => exact ⟨_, sessionsOnly_modSess s a _, rfl⟩
  obtain ⟨z, hz, z1, z2, z3, z4⟩ := lapse_counts hy
  rw [hop, ← hz] at hexec
  obtain ⟨n1, n2, n3, -⟩ := noOwner_spec z
  exact ⟨_, hexec, by rw [n1], by rw [n1], by rw [n1], by rw [n1]; exact z1, by rw [n1]; exact z2, n2.trans z3, n3.trans z4⟩

/-- A claim joins the election, or opens it. -/
def claimed (u : State) (q : Request) : State :=
  { u with fpp := { u.fpp with own := 1, electionEnd := if u.fpp.own = 1 then u.fpp.electionEnd else q.arrival + 100000000, candidates := u.fpp.candidates.filter (fun x => x.session ≠ q.from_) ++
                                 [{ session := q.from_, node := node6 q.data 0, prio := nth q.data 6 }] } }
theorem claimed_fpp (u : State) (q : Request) : (claimed u q).fpp.own = 1 ∧ (claimed u q).fpp.electionEnd = (if u.fpp.own = 1 then u.fpp.electionEnd else q.arrival + 100000000) ∧
    { session := q.from_, node := node6 q.data 0, prio := nth q.data 6 } ∈ (claimed u q).fpp.candidates ∧ (claimed u q).fpp.epoch = u.fpp.epoch ∧ SameReplies u (claimed u q) :=
  ⟨rfl, rfl, List.mem_append_right _ (List.mem_singleton.mpr rfl), rfl, sameReplies_of_fpp _ rfl rfl⟩
theorem claimReq_joins (hbad : badCmd q 8 = false) (h7 : u.dev ≠ 7) (hown : u.fpp.own ≠ 2) (hp : nth q.data 6 ≤ 15) (h0 : node6 q.data 0 ≠ 0) (h1 : node6 q.data 0 ≠ 2 ^ 48 - 1)
    (hroom : noRoom u q = false) : claimReq u q = busy (setOutcome (claimed u q) q.from_ 0 0x80) q := by
  unfold claimReq
  dsimp only
  have hc : firstOf [(badCmd q 8, 7), (decide (u.dev = 7), 0xB), (decide (u.fpp.own = 2), 4), (decide (15 < nth q.data 6) || decide (node6 q.data 0 = 0) || decide (node6 q.data 0 = 2 ^ 48 - 1), 6), (noRoom u q, 0xA)] = 0 := by
    rw [hbad, hroom, decide_eq_false h7, decide_eq_false hown, decide_eq_false (Nat.not_lt.mpr hp), decide_eq_false h0, decide_eq_false h1]
    rfl
  exact if_neg (fun h => h hc)
theorem claimReq_owned (hbad : badCmd q 8 = false) (h7 : u.dev ≠ 7) (hown : u.fpp.own = 2) : claimReq u q = abort u q 4 := by
  unfold claimReq
  dsimp only
  have hc (a b : Bool) : firstOf [(badCmd q 8, 7), (decide (u.dev = 7), 0xB), (decide (u.fpp.own = 2), 4), (a, 6), (b, 0xA)] = 4 := by
    rw [hbad, decide_eq_false h7, decide_eq_true hown]
    rfl
  rw [hc]
  exact if_pos (by decide)
theorem Responded.fpp_fields (h : Responded x y) : y.fpp.own = x.fpp.own ∧ y.fpp.candidates = x.fpp.candidates ∧ y.fpp.electionEnd = x.fpp.electionEnd ∧ y.fpp.epoch = x.fpp.epoch ∧
    y.fpp.ownerNode = x.fpp.ownerNode ∧ y.fpp.ownerSession = x.fpp.ownerSession ∧ y.fpp.ownerSeen = x.fpp.ownerSeen ∧ y.fpp.ownerPrio = x.fpp.ownerPrio ∧ y.fpp.present = x.fpp.present := by
  rw [h.fpp]
  exact ⟨rfl, rfl, rfl, rfl, rfl, rfl, rfl, rfl, rfl⟩
theorem claim_joins (h2 : 2 ≤ s.dev) (hq : s.fpp.queue = q :: r) (hcmd : q.cmd = 0x10) (hbad : badCmd q 8 = false) (hu : taken s q r = u) (h7 : u.dev ≠ 7) (hown : u.fpp.own ≠ 2)
    (hp : nth q.data 6 ≤ 15) (h0 : node6 q.data 0 ≠ 0) (h1 : node6 q.data 0 ≠ 2 ^ 48 - 1) (hroom : (sessOf u q.from_).isSome = true) :
    ∃ t, exec .claim s = .next t ∧ t.fpp.own = 1 ∧ { session := q.from_, node := node6 q.data 0, prio := nth q.data 6 } ∈ t.fpp.candidates ∧
      t.fpp.electionEnd = (if u.fpp.own = 1 then u.fpp.electionEnd else q.arrival + 100000000) ∧ t.fpp.epoch = u.fpp.epoch ∧ AnsweredBy u t q 0x80 0 0 0 [] := by
  have hexec : exec .claim s = .next (takeHead s (fun q => q.cmd = 0x10) claimReq) := act_wf rfl
  rw [takeHead_eq h2 hq (decide_eq_true hcmd), hu, claimReq_joins hbad h7 hown hp h0 h1 (noRoom_of_sess hroom)] at hexec
  obtain ⟨c1, c2, c3, c4, c5⟩ := claimed_fpp u q
  generalize claimed u q = x at hexec c1 c2 c3 c4 c5
  have hy := sessionsOnly_setOutcome x q.from_ 0 0x80
  generalize setOutcome x q.from_ 0 0x80 = y at hexec hy
  have hr := hy.rest
  have ha := answeredBy_answerWith (c5.trans hy.sameReplies) q 0x80 0 0 0 []
  obtain ⟨r1, r2, r3, r4, -⟩ := (responded_answerWith y q 0x80 0 0 0 []).fpp_fields
  refine ⟨_, hexec, r1.trans ?_, by rw [show (busy y q).fpp.candidates = _ from r2, hr]; exact c3, r3.trans ?_, r4.trans ?_, ha⟩
  · rw [hr]; exact c1
  · rw [hr]; exact c2
  · rw [hr]; exact c4
theorem claim_refused (h2 : 2 ≤ s.dev) (hq : s.fpp.queue = q :: r) (hcmd : q.cmd = 0x10) (hbad : badCmd q 8 = false) (hu : taken s q r = u) (h7 : u.dev ≠ 7) (hown : u.fpp.own = 2) :
    ∃ t, exec .claim s = .next t ∧ t.fpp.own = 2 ∧ t.fpp.ownerNode = u.fpp.ownerNode ∧ AnsweredBy u t q 4 0 0 0 [] := by
  have hexec : exec .claim s = .next (takeHead s (fun q => q.cmd = 0x10) claimReq) := act_wf rfl
  rw [takeHead_eq h2 hq (decide_eq_true hcmd), hu, claimReq_owned hbad h7 hown] at hexec
  obtain ⟨r1, -, -, -, r5, -⟩ := (responded_answerWith (fppCount u 5) q 4 0 0 0 []).fpp_fields
  exact ⟨_, hexec, r1.trans hown, r5, answeredBy_abort (sameReplies_refl u) q 4⟩

/-- The service holder's heartbeat is noted. -/
def holderSeen (u : State) (q : Request) : State := if isHolder u q.from_ then { u with fpp := { u.fpp with svcSeen := q.arrival } } else u
theorem holderSeen_fields (u : State) (q : Request) : (holderSeen u q).fpp.ownerNode = u.fpp.ownerNode ∧ (holderSeen u q).fpp.ownerSeen = u.fpp.ownerSeen ∧
    (holderSeen u q).fpp.own = u.fpp.own ∧ (holderSeen u q).fpp.epoch = u.fpp.epoch ∧ SameReplies u (holderSeen u q) := by
  unfold holderSeen
  split
  · exact ⟨rfl, rfl, rfl, rfl, sameReplies_of_fpp _ rfl rfl⟩
  · exact ⟨rfl, rfl, rfl, rfl, sameReplies_refl u⟩
/-- What a heartbeat is answered with, once noted in `x`. -/
def heartbeatAnswer (x : State) (q : Request) : State := answerWith x q 0 0 0 0 (beBytes 6 x.fpp.ownerNode ++ [0, 0])
/-- The owner is heard of. -/
def ownerHeard (x : State) (q : Request) : State := { x with fpp := { x.fpp with ownerSession := some q.from_, ownerSeen := Nat.max x.fpp.ownerSeen q.arrival } }
theorem ownerHeard_fields (x : State) (q : Request) : (ownerHeard x q).fpp.ownerSession = some q.from_ ∧ (ownerHeard x q).fpp.ownerSeen = Nat.max x.fpp.ownerSeen q.arrival ∧
    (ownerHeard x q).fpp.ownerNode = x.fpp.ownerNode ∧ SameReplies x (ownerHeard x q) := ⟨rfl, rfl, rfl, sameReplies_of_fpp _ rfl rfl⟩
theorem notePresent_fields (x : State) (p : Present) : p ∈ (notePresent x p).fpp.present ∧ (notePresent x p).fpp.ownerSeen = x.fpp.ownerSeen ∧
    (notePresent x p).fpp.ownerNode = x.fpp.ownerNode ∧ SameReplies x (notePresent x p) :=
  ⟨List.mem_append_right _ (List.mem_singleton.mpr rfl), rfl, rfl, sameReplies_of_fpp _ rfl rfl⟩
theorem heartbeatReq_mine (hbad : badCmd q 8 = false) (hroom : noRoom u q = false) (hown : u.fpp.own = 2) (hnode : u.fpp.ownerNode = node6 q.data 0) (hep : q.epoch = u.fpp.epoch) :
    heartbeatReq u q = heartbeatAnswer (ownerHeard (holderSeen u q) q) q := by
  unfold heartbeatReq
  have hmine : (decide (u.fpp.own = 2) && decide (u.fpp.ownerNode = node6 q.data 0)) = true := by rw [decide_eq_true hown, decide_eq_true hnode]; rfl
  have hc (b : Bool) : firstOf [(badCmd q 8, 7), (true && decide (q.epoch ≠ u.fpp.epoch) && b, 4), (noRoom u q, 0xA)] = 0 := by
    rw [hbad, hroom, decide_eq_false (not_not.mpr hep)]
    rfl
  dsimp only
  rw [hmine, hc, if_neg (by decide), if_pos rfl]
  rfl
theorem heartbeatReq_other (hbad : badCmd q 8 = false) (hroom : noRoom u q = false) (h : u.fpp.own ≠ 2 ∨ u.fpp.ownerNode ≠ node6 q.data 0) :
    heartbeatReq u q = heartbeatAnswer (notePresent (holderSeen u q) { node := node6 q.data 0, prio := nth q.data 6, session := q.from_, at_ := q.arrival }) q := by
  unfold heartbeatReq
  have hmine : (decide (u.fpp.own = 2) && decide (u.fpp.ownerNode = node6 q.data 0)) = false := by
    rw [Bool.and_eq_false_iff]
    exact h.imp decide_eq_false decide_eq_false
  have hc (a b : Bool) : firstOf [(badCmd q 8, 7), (false && a && b, 4), (noRoom u q, 0xA)] = 0 := by
    rw [hbad, hroom]
    rfl
  dsimp only
  rw [hmine, hc, if_neg (by decide), if_neg (by decide)]
  rfl
theorem heartbeat_owner (h2 : 2 ≤ s.dev) (hq : s.fpp.queue = q :: r) (hcmd : q.cmd = 0x11) (hbad : badCmd q 8 = false) (hu : taken s q r = u) (hroom : (sessOf u q.from_).isSome = true)
    (hown : u.fpp.own = 2) (hnode : u.fpp.ownerNode = node6 q.data 0) (hep : q.epoch = u.fpp.epoch) :
    ∃ t, exec .heartbeat s = .next t ∧ t.fpp.ownerSession = some q.from_ ∧ t.fpp.ownerSeen = Nat.max u.fpp.ownerSeen q.arrival ∧
      AnsweredBy u t q 0 0 0 0 (beBytes 6 u.fpp.ownerNode ++ [0, 0]) := by
  have hexec : exec .heartbeat s = .next (takeHead s (fun q => q.cmd = 0x11) heartbeatReq) := act_wf rfl
  rw [takeHead_eq h2 hq (decide_eq_true hcmd), hu, heartbeatReq_mine hbad (noRoom_of_sess hroom) hown hnode hep] at hexec
  obtain ⟨x1, x2, -, -, x5⟩ := holderSeen_fields u q
  generalize holderSeen u q = x at hexec x1 x2 x5
  obtain ⟨y1, y2, y3, y4⟩ := ownerHeard_fields x q
  generalize ownerHeard x q = y at hexec y1 y2 y3 y4
  have ha := answeredBy_answerWith (x5.trans y4) q 0 0 0 0 (beBytes 6 y.fpp.ownerNode ++ [0, 0])
  obtain ⟨-, -, -, -, -, r6, r7, -⟩ := (responded_answerWith y q 0 0 0 0 (beBytes 6 y.fpp.ownerNode ++ [0, 0])).fpp_fields
  refine ⟨_, hexec, r6.trans y1, r7.trans (by rw [y2, x2]), ?_⟩
  rw [show u.fpp.ownerNode = y.fpp.ownerNode by rw [y3, x1]]
  exact ha
theorem heartbeat_present (h2 : 2 ≤ s.dev) (hq : s.fpp.queue = q :: r) (hcmd : q.cmd = 0x11) (hbad : badCmd q 8 = false) (hu : taken s q r = u) (hroom : (sessOf u q.from_).isSome = true)
    (h : u.fpp.own ≠ 2 ∨ u.fpp.ownerNode ≠ node6 q.data 0) :
    ∃ t, exec .heartbeat s = .next t ∧ { node := node6 q.data 0, prio := nth q.data 6, session := q.from_, at_ := q.arrival } ∈ t.fpp.present ∧
      t.fpp.ownerSeen = u.fpp.ownerSeen ∧ AnsweredBy u t q 0 0 0 0 (beBytes 6 u.fpp.ownerNode ++ [0, 0]) := by
  have hexec : exec .heartbeat s = .next (takeHead s (fun q => q.cmd = 0x11) heartbeatReq) := act_wf rfl
  rw [takeHead_eq h2 hq (decide_eq_true hcmd), hu, heartbeatReq_other hbad (noRoom_of_sess hroom) h] at hexec
  obtain ⟨x1, x2, -, -, x5⟩ := holderSeen_fields u q
  generalize holderSeen u q = x at hexec x1 x2 x5
  obtain ⟨y1, y2, y3, y4⟩ := notePresent_fields x { node := node6 q.data 0, prio := nth q.data 6, session := q.from_, at_ := q.arrival }
  generalize notePresent x { node := node6 q.data 0, prio := nth q.data 6, session := q.from_, at_ := q.arrival } = y at hexec y1 y2 y3 y4
  have ha := answeredBy_answerWith (x5.trans y4) q 0 0 0 0 (beBytes 6 y.fpp.ownerNode ++ [0, 0])
  obtain ⟨-, -, -, -, -, -, r7, -, r9⟩ := (responded_answerWith y q 0 0 0 0 (beBytes 6 y.fpp.ownerNode ++ [0, 0])).fpp_fields
  refine ⟨_, hexec, by rw [show (heartbeatAnswer y q).fpp.present = _ from r9]; exact y1, r7.trans (by rw [y2, x2]), ?_⟩
  rw [show u.fpp.ownerNode = y.fpp.ownerNode by rw [y3, x1]]
  exact ha

/-! ### Handover and release (R464) -/

/-- The node that a handover names owns the device. -/
def handedTo (u : State) (p : Present) : State :=
  { u with fpp := { u.fpp with ownerNode := p.node, ownerPrio := p.prio, ownerSession := some p.session, ownerSeen := p.at_, epoch := nextEpoch u.fpp.epoch,
                               present := u.fpp.present.filter (fun y => y.node ≠ p.node) } }
theorem handedTo_fields (u : State) (p : Present) : (handedTo u p).fpp.own = u.fpp.own ∧ (handedTo u p).fpp.ownerNode = p.node ∧ (handedTo u p).fpp.ownerPrio = p.prio ∧
    (handedTo u p).fpp.ownerSession = some p.session ∧ (handedTo u p).fpp.epoch = (if u.fpp.epoch = 0xFFFF then 1 else u.fpp.epoch + 1) ∧ SameReplies u (handedTo u p) :=
  ⟨rfl, rfl, rfl, rfl, rfl, sameReplies_of_fpp _ rfl rfl⟩
theorem handoverReq_hands {p : Present} (hbad : badCmd q 12 = false) (h7 : u.dev ≠ 7) (hmay : mayOwn u q = true)
    (hp : u.fpp.present.find? (fun x => x.node = node6 q.data 6 && decide (q.arrival < x.at_ + 500000000)) = some p) :
    handoverReq u q = done (ownEntry (handedTo u p) u.fpp.ownerNode u.fpp.epoch p.node (nextEpoch u.fpp.epoch)) q := by
  unfold handoverReq
  dsimp only
  rw [hp]
  have hc : firstOf [(badCmd q 12, 7), (decide (u.dev = 7), 0xB), (!(mayOwn u q), 4), ((some p).isNone, 6)] = 0 := by
    rw [hbad, decide_eq_false h7, hmay]
    rfl
  exact if_neg (fun h => h hc)
theorem handover_hands {p : Present} (h2 : 2 ≤ s.dev) (hq : s.fpp.queue = q :: r) (hcmd : q.cmd = 0x12) (hbad : badCmd q 12 = false) (hu : taken s q r = u) (h7 : u.dev ≠ 7)
    (hmay : mayOwn u q = true) (hp : u.fpp.present.find? (fun x => x.node = node6 q.data 6 && decide (q.arrival < x.at_ + 500000000)) = some p) :
    ∃ t, exec .handover s = .next t ∧ t.fpp.own = u.fpp.own ∧ t.fpp.ownerNode = p.node ∧ t.fpp.ownerPrio = p.prio ∧ t.fpp.ownerSession = some p.session ∧
      t.fpp.epoch = (if u.fpp.epoch = 0xFFFF then 1 else u.fpp.epoch + 1) ∧ AnsweredBy u t q 0 0 0 0 [] := by
  have hexec : exec .handover s = .next (takeHead s (fun q => q.cmd = 0x12) handoverReq) := act_wf rfl
  rw [takeHead_eq h2 hq (decide_eq_true hcmd), hu, handoverReq_hands hbad h7 hmay hp] at hexec
  obtain ⟨x1, x2, x3, x4, x5, x6⟩ := handedTo_fields u p
  generalize handedTo u p = x at hexec x1 x2 x3 x4 x5 x6
  have hy := (offerOnly_ownEntry x u.fpp.ownerNode u.fpp.epoch p.node (nextEpoch u.fpp.epoch)).fpp_eq
  have hs := sameReplies_ownEntry x u.fpp.ownerNode u.fpp.epoch p.node (nextEpoch u.fpp.epoch)
  generalize ownEntry x u.fpp.ownerNode u.fpp.epoch p.node (nextEpoch u.fpp.epoch) = y at hexec hy hs
  have ha := answeredBy_answerWith (x6.trans hs) q 0 0 0 0 []
  obtain ⟨r1, -, -, r4, r5, r6, -, r8, -⟩ := (responded_answerWith y q 0 0 0 0 []).fpp_fields
  rw [hy] at r1 r4 r5 r6 r8
  exact ⟨_, hexec, r1.trans x1, r5.trans x2, r8.trans x3, r6.trans x4, r4.trans x5, ha⟩
theorem releaseReq_releases (hbad : badCmd q 6 = false) (h7 : u.dev ≠ 7) (hmay : mayOwn u q = true) : releaseReq u q = done (noOwner u) q := by
  unfold releaseReq
  dsimp only
  have hc : firstOf [(badCmd q 6, 7), (decide (u.dev = 7), 0xB), (!(mayOwn u q), 4)] = 0 := by
    rw [hbad, decide_eq_false h7, hmay]
    rfl
  exact if_neg (fun h => h hc)
theorem release_releases (h2 : 2 ≤ s.dev) (hq : s.fpp.queue = q :: r) (hcmd : q.cmd = 0x13) (hbad : badCmd q 6 = false) (hu : taken s q r = u) (h7 : u.dev ≠ 7) (hmay : mayOwn u q = true) :
    ∃ t, exec .release s = .next t ∧ t.fpp.own = 0 ∧ t.fpp.ownerNode = 0 ∧ t.fpp.ownerSession = none ∧ t.fpp.epoch = u.fpp.epoch ∧ AnsweredBy u t q 0 0 0 0 [] := by
  have hexec : exec .release s = .next (takeHead s (fun q => q.cmd = 0x13) releaseReq) := act_wf rfl
  rw [takeHead_eq h2 hq (decide_eq_true hcmd), hu, releaseReq_releases hbad h7 hmay] at hexec
  obtain ⟨n1, -, -, n4⟩ := noOwner_spec u
  generalize noOwner u = y at hexec n1 n4
  have ha := answeredBy_answerWith n4 q 0 0 0 0 []
  obtain ⟨r1, -, -, r4, r5, r6, -⟩ := (responded_answerWith y q 0 0 0 0 []).fpp_fields
  rw [n1] at r1 r4 r5 r6
  exact ⟨_, hexec, r1, r5, r6, r4, ha⟩

theorem ownersAreElected : Clause.OwnersAreElected := by
  intro s q r h2
  refine ⟨fun hq hcmd hbad => ?_, electionEnd_elects, ownerLapse_lapses⟩
  intro u n p
  exact ⟨fun h7 hown hp h0 h1 hroom => claim_joins h2 hq hcmd hbad rfl h7 hown hp h0 h1 hroom, fun h7 hown => claim_refused h2 hq hcmd hbad rfl h7 hown⟩
theorem ownersKeepAndGive : Clause.OwnersKeepAndGive := by
  intro s q r h2 hq
  intro u
  exact ⟨fun hcmd hbad hroom => ⟨fun hown hnode hep => heartbeat_owner h2 hq hcmd hbad rfl hroom hown hnode hep, fun h => heartbeat_present h2 hq hcmd hbad rfl hroom h⟩,
    fun hcmd hbad h7 hmay x hx => handover_hands h2 hq hcmd hbad rfl h7 hmay hx, fun hcmd hbad h7 hmay => release_releases h2 hq hcmd hbad rfl h7 hmay⟩

/-- Settles O53: elections, and what an owner does. -/
theorem owners : Obligations.Owners := ⟨ownersAreElected, ownersKeepAndGive⟩

end Sys2Proof.Machine
end

section
/-! Sessions close, settings take effect, and the service session (R447, R448, R465 to R467). -/
namespace Sys2Proof.Machine
open Sys2Proof.Config

variable {s t u x y : State} {q : Request} {r : List Request} {a : Transport} {k : Nat} {l : List Nat}

/-! ### Sessions and settings (R447, R448, R453, R474) -/

theorem sessionClose_closes (ha : transportOk a = true) : ∃ t, exec (.sessionClose a) s = .next t ∧ t = { s with fpp := { s.fpp with sessions := t.fpp.sessions } } ∧
    ∀ e, e ∈ t.fpp.sessions ↔ e ∈ s.fpp.sessions ∧ ¬(e.addr = a ∧ e.last + 10 ^ 10 ≤ s.dtime ∧ isOwnerSess s a = false ∧ isHolder s a = false ∧ ∀ q, q ∈ s.fpp.queue → q.from_ ≠ a) := by
  refine ⟨_, act_wf ha, rfl, fun e => List.mem_filter.trans (and_congr_right fun _ => ?_)⟩
  rw [Bool.not_eq_true', ← Bool.not_eq_true, not_iff_not]
  unfold sessIdle
  simp only [Bool.and_eq_true, decide_eq_true_eq, Bool.not_eq_true', List.any_eq_false]
  constructor
  · rintro ⟨⟨hadr, ⟨hlast, hown⟩, hhold⟩, hq⟩
    subst hadr
    exact ⟨rfl, hlast, hown, hhold, hq⟩
  · rintro ⟨hadr, hlast, hown, hhold, hq⟩
    subst hadr
    exact ⟨⟨rfl, ⟨hlast, hown⟩, hhold⟩, hq⟩

/-- A session's changed entry, where the change keeps addresses. -/
theorem sessOf_modSess {f : Session → Session} (hf : ∀ e, (f e).addr = e.addr) {e : Session} (h : sessOf s a = some e) : sessOf (modSess s a f) a = some (f e) := by
  have hadr : e.addr = a := by simpa using List.find?_some h
  unfold sessOf modSess at *
  rw [List.find?_map]
  have hp : (fun e : Session => decide (e.addr = a)) ∘ (fun e => if e.addr = a then f e else e) = fun e => decide (e.addr = a) := by
    funext e
    dsimp only [Function.comp]
    split
    · rw [hf]
    · rfl
  rw [hp, h]
  exact congrArg some (if_pos hadr)
theorem transferTimeout_ends (ha : transportOk a = true) : ∃ t, exec (.transferTimeout a) s = .next t ∧ t = { s with fpp := { s.fpp with sessions := t.fpp.sessions } } ∧
    ∀ e, sessOf s a = some e → sessOf t a = some (if e.xferKey.isSome ∧ e.xferAt + 10 ^ 9 ≤ s.dtime then { e with xfer := [], xferTotal := 0 } else e) := by
  refine ⟨_, act_wf ha, rfl, fun e he => ?_⟩
  rw [sessOf_modSess (fun e => by split <;> rfl) he]
  simp only [Bool.and_eq_true, decide_eq_true_eq]

/-- One setting of entry 0x1030 takes effect. -/
def commApplied (s : State) (e : Nat × List Byte) : State :=
  let s := markDirty (keepVal s 0x1030 e.1 e.2) (keyOf 0x1030 e.1)
  let f := s.fpp
  { s with fpp := { f with comm := [], sessions := f.sessions.filter (fun x => !(commOf e.1 x.addr)),
                           ownerSession := match f.ownerSession with | some t => if commOf e.1 t then none else some t | none => none } }
theorem commApplyOp_eq (s : State) : commApplyOp s = s.fpp.comm.foldl commApplied s := rfl
theorem commApplied_fields (s : State) (e : Nat × List Byte) : commApplied s e = { s with fpp := (commApplied s e).fpp } ∧ (commApplied s e).fpp.comm = [] ∧
    (commApplied s e).fpp.sessions = s.fpp.sessions.filter (fun x => !(commOf e.1 x.addr)) ∧ tget [] (commApplied s e).fpp.vals (0x1030 * 256 + e.1) = e.2 ∧
    0x1030 * 256 + e.1 ∈ (commApplied s e).fpp.dirty :=
  ⟨rfl, rfl, rfl, tget_tput_same [] s.fpp.vals _ _, List.mem_append_right _ (List.mem_singleton.mpr rfl)⟩
/-- Settings taken one by one. -/
theorem foldl_commApplied (l : List (Nat × List Byte)) : ∀ s, l.foldl commApplied s = { s with fpp := (l.foldl commApplied s).fpp } ∧
    (s.fpp.comm = [] ∨ l ≠ [] → (l.foldl commApplied s).fpp.comm = []) ∧
    (∀ x ∈ (l.foldl commApplied s).fpp.sessions, x ∈ s.fpp.sessions ∧ ∀ e ∈ l, commOf e.1 x.addr = false) := by
  induction l with
  | nil => exact fun s => ⟨rfl, fun h => h.elim id (fun h => absurd rfl h), fun x hx => ⟨hx, fun e he => absurd he List.not_mem_nil⟩⟩
  | cons e l ih =>
    intro s
    rw [List.foldl_cons]
    obtain ⟨a1, a2, a3, -, -⟩ := commApplied_fields s e
    generalize commApplied s e = y at a1 a2 a3
    obtain ⟨i1, i2, i3⟩ := ih y
    refine ⟨by rw [i1, a1], fun _ => i2 (.inl a2), fun x hx => ?_⟩
    obtain ⟨hy, hl⟩ := i3 x hx
    rw [a3, List.mem_filter] at hy
    refine ⟨hy.1, fun e' he' => ?_⟩
    rcases List.mem_cons.mp he' with h | h
    · rw [h]; simpa using hy.2
    · exact hl e' h
theorem commSettingsApply_applies : ∃ t, exec .commSettingsApply s = .next t ∧ t.fpp.comm = [] ∧ (∀ e x, e ∈ s.fpp.comm → x ∈ t.fpp.sessions → commOf e.1 x.addr = false) ∧
    (∀ n d, s.fpp.comm = [(n, d)] → tget [] t.fpp.vals (0x1030 * 256 + n) = d ∧ 0x1030 * 256 + n ∈ t.fpp.dirty ∧
      ∀ x, commOf n x.addr = false → (x ∈ t.fpp.sessions ↔ x ∈ s.fpp.sessions)) ∧ t = { s with fpp := t.fpp } := by
  have hexec : exec .commSettingsApply s = .next (commApplyOp s) := act_wf rfl
  rw [commApplyOp_eq] at hexec
  obtain ⟨f1, f2, f3⟩ := foldl_commApplied s.fpp.comm s
  refine ⟨_, hexec, f2 ?_, fun e x he hx => (f3 x hx).2 e he, fun n d hc => ?_, f1⟩
  · cases s.fpp.comm with
    | nil => exact .inl rfl
    | cons e l => exact .inr (List.cons_ne_nil _ _)
  · rw [hc, List.foldl_cons, List.foldl_nil]
    obtain ⟨-, -, a3, a4, a5⟩ := commApplied_fields s (n, d)
    refine ⟨a4, a5, fun x hx => ?_⟩
    rw [a3, List.mem_filter]
    simp [hx]
/-- The setting changed first leaves the list. -/
def dirtyTaken (s : State) (l : List Nat) : State := { s with fpp := { s.fpp with dirty := l } }
theorem persistOp_eq (ok : Bool) (h : s.fpp.dirty = k :: l) : persistOp s ok =
    if ok then { dirtyTaken s l with fpp := { (dirtyTaken s l).fpp with stored := tput [] (dirtyTaken s l).fpp.stored k (tget [] (dirtyTaken s l).fpp.vals k) } }
    else bbL0 (fppCount (dirtyTaken s l) 0x10) 0x0B04 (n32 k) 0 0 0 := by
  unfold persistOp
  rw [h]
  rfl
theorem rwpPersist_stores (h : s.fpp.dirty = k :: l) :
    ∃ t, exec (.rwpPersist true) s = .next t ∧ t.fpp.dirty = l ∧ tget [] t.fpp.stored k = tget [] s.fpp.vals k ∧ t.fpp.vals = s.fpp.vals ∧ t = { s with fpp := t.fpp } := by
  have hexec : exec (.rwpPersist true) s = .next (persistOp s true) := act_wf rfl
  rw [persistOp_eq true h, if_pos rfl] at hexec
  exact ⟨_, hexec, rfl, tget_tput_same [] s.fpp.stored k _, rfl, rfl⟩
theorem rwpPersist_fails (h : s.fpp.dirty = k :: l) :
    ∃ t, exec (.rwpPersist false) s = .next t ∧ t.fpp.dirty = l ∧ t.fpp.stored = s.fpp.stored ∧ tget 0 t.fpp.counts 16 = (tget 0 s.fpp.counts 16 + 1) % 2 ^ 32 := by
  have hexec : exec (.rwpPersist false) s = .next (persistOp s false) := act_wf rfl
  rw [persistOp_eq false h, if_neg (by decide)] at hexec
  have hy := (offerOnly_bbOffer (fppCount (dirtyTaken s l) 0x10) (bbEntry (fppCount (dirtyTaken s l) 0x10) 1 0xFF 0x0B04 (n32 k) 0 0 0)).fpp_eq
  change (bbL0 (fppCount (dirtyTaken s l) 0x10) 0x0B04 (n32 k) 0 0 0).fpp = (fppCount (dirtyTaken s l) 0x10).fpp at hy
  generalize bbL0 (fppCount (dirtyTaken s l) 0x10) 0x0B04 (n32 k) 0 0 0 = y at hexec hy
  refine ⟨y, hexec, by rw [hy]; rfl, by rw [hy]; rfl, ?_⟩
  rw [hy]
  exact tget_tput_same 0 s.fpp.counts 16 _
theorem sessionsAndSettingsEnd : Clause.SessionsAndSettingsEnd := fun _ _ _ _ ha =>
  ⟨sessionClose_closes ha, transferTimeout_ends ha, commSettingsApply_applies, fun h => ⟨rwpPersist_stores h, rwpPersist_fails h⟩⟩

/-! ### The service session (R465 to R467) -/

/-- What a change of the device state leaves. -/
structure DevChanged (s t : State) (d : Nat) : Prop where
  rest : t = { s with regs := t.regs, bb := t.bb, dev := d }
  replies : SameReplies s t

theorem devChanged_setDev (s : State) (d row : Nat) : DevChanged s (setDev s d row) d := by
  unfold setDev
  have h := (offerOnly_bbOffer s (bbEntry s 1 0xFF 0x0101 (n32 s.dev) (n32 d) (n32 row) 0)).rest
  have hr := sameReplies_bbL0 s (n32 s.dev) (n32 d) (n32 row) 0 (show 0x0101 < 0x10000 by decide)
  change bbL0 s 0x0101 (n32 s.dev) (n32 d) (n32 row) 0 = { s with regs := (bbL0 s 0x0101 (n32 s.dev) (n32 d) (n32 row) 0).regs, bb := (bbL0 s 0x0101 (n32 s.dev) (n32 d) (n32 row) 0).bb } at h
  generalize bbL0 s 0x0101 (n32 s.dev) (n32 d) (n32 row) 0 = y at h hr
  exact ⟨by rw [h], ⟨hr.out, hr.spi, hr.queues, hr.link⟩⟩

/-- The service session is over, the device where it was held. -/
structure ServiceOver (s t : State) : Prop where
  dev : t.dev = s.held
  held : t.held = 0
  free : t.fpp.svcHeld = false
  session : t.fpp.svcSession = none
  carts : t.carts = s.carts
  serviceEn : t.serviceEn = s.serviceEn
  epoch : t.fpp.epoch = s.fpp.epoch
  replies : SameReplies s t

/-- The holder of the service session is forgotten. -/
def holderGone (s : State) : State := { s with fpp := { s.fpp with svcHeld := false, svcNode := 0, svcSession := none } }
theorem holderGone_spec (s : State) : holderGone s = { s with fpp := (holderGone s).fpp } ∧ (holderGone s).fpp = { s.fpp with svcHeld := false, svcNode := 0, svcSession := none } ∧
    SameReplies s (holderGone s) := ⟨rfl, rfl, sameReplies_of_fpp _ rfl rfl⟩
/-- The held state is entered. -/
def heldEntered (s : State) (at_ : Nat) : State := { s with held := 0, fpp := { s.fpp with ownerSeen := at_ } }
theorem heldEntered_spec (s : State) (at_ : Nat) : heldEntered s at_ = { s with held := 0, fpp := (heldEntered s at_).fpp } ∧ (heldEntered s at_).fpp = { s.fpp with ownerSeen := at_ } ∧
    SameReplies s (heldEntered s at_) := ⟨rfl, rfl, ⟨rfl, rfl, rfl, fun _ => rfl⟩⟩
theorem svcEndOp_eq (s : State) (why at_ : Nat) : ∃ z : BbEntry, z.code < 0x10000 ∧
    svcEndOp s why at_ = heldEntered (setDev (holderGone (bbOffer s z)) s.held 15) at_ :=
  ⟨bbEntry s 1 0xFF 0x0502 (n32 why) (n32 ((s.dtime - s.fpp.svcBegan) / 1000000)) 0 0, by show 0x0502 < 0x10000; decide, rfl⟩
theorem serviceOver_svcEndOp (s : State) (why at_ : Nat) : ServiceOver s (svcEndOp s why at_) := by
  obtain ⟨z, hz, heq⟩ := svcEndOp_eq s why at_
  rw [heq]
  have w1 := (offerOnly_bbOffer s z).rest
  have w2 := sameReplies_bbOffer (s := s) z hz
  generalize bbOffer s z = w at w1 w2
  obtain ⟨x1, x2, x3⟩ := holderGone_spec w
  generalize holderGone w = x at x1 x2 x3
  obtain ⟨y1, y2⟩ := devChanged_setDev x s.held 15
  generalize setDev x s.held 15 = y at y1 y2
  obtain ⟨v1, v2, v3⟩ := heldEntered_spec y at_
  generalize heldEntered y at_ = v at v1 v2 v3
  have hf : v.fpp = { w.fpp with svcHeld := false, svcNode := 0, svcSession := none, ownerSeen := at_ } := by rw [v2, y1, x2]
  have hw : w.fpp = s.fpp ∧ w.carts = s.carts ∧ w.serviceEn = s.serviceEn := by rw [w1]; exact ⟨rfl, rfl, rfl⟩
  obtain ⟨hwf, hwc, hws⟩ := hw
  refine ⟨by rw [v1, y1], by rw [v1], by rw [hf], by rw [hf], ?_, ?_, by rw [hf, hwf], ((w2.trans x3).trans y2).trans v3⟩
  · rw [v1, y1, x1]; exact hwc
  · rw [v1, y1, x1]; exact hws

theorem serviceLapse_ends (h1 : s.dev = 7) (h2 : s.fpp.svcHeld = true) (h3 : s.fpp.svcSeen + 500000000 ≤ s.dtime) (h4 : queuePast s (s.fpp.svcSeen + 500000000) = true) :
    ∃ t, exec .serviceLapse s = .next t ∧ t.dev = s.held ∧ t.held = 0 ∧ t.fpp.svcHeld = false ∧ t.fpp.svcSession = none ∧ t.carts = s.carts := by
  have hexec : exec .serviceLapse s = .next (if svcLapseDue s s.dtime && queuePast s (s.fpp.svcSeen + 500000000) then svcEndOp s 2 s.dtime else s) := act_wf rfl
  rw [if_pos (by unfold svcLapseDue; rw [h1, h2, h4, decide_eq_true h3]; rfl)] at hexec
  have h := serviceOver_svcEndOp s 2 s.dtime
  exact ⟨_, hexec, h.dev, h.held, h.free, h.session, h.carts⟩
/-- The pin is deasserted. -/
def pinDeasserted (s : State) : State := { s with serviceEn := false }
theorem serviceEnDeassert_ends (h1 : s.dev = 7) (h2 : s.fpp.svcHeld = true) :
    ∃ t, exec .serviceEnDeassert s = .next t ∧ t.serviceEn = false ∧ t.dev = s.held ∧ t.held = 0 ∧ t.fpp.svcHeld = false ∧ t.carts = s.carts := by
  have hexec : exec .serviceEnDeassert s = .next (if s.dev = 7 && s.fpp.svcHeld then svcEndOp (pinDeasserted s) 3 s.dtime else pinDeasserted s) := act_wf rfl
  rw [if_pos (by rw [h1, h2]; rfl)] at hexec
  have h := serviceOver_svcEndOp (pinDeasserted s) 3 s.dtime
  exact ⟨_, hexec, h.serviceEn, h.dev, h.held, h.free, h.carts⟩
theorem serviceEnDeassert_other (h : s.dev ≠ 7) : exec .serviceEnDeassert s = .next { s with serviceEn := false } := by
  have hexec : exec .serviceEnDeassert s = .next (if s.dev = 7 && s.fpp.svcHeld then svcEndOp (pinDeasserted s) 3 s.dtime else pinDeasserted s) := act_wf rfl
  rw [if_neg (by rw [decide_eq_false h, Bool.false_and]; decide)] at hexec
  exact hexec

/-- A proof that fails, before the entry that tells it. -/
def proofForgotten (s : State) (at_ : Nat) (isProof : Bool) : State :=
  let f := s.fpp
  let l := (f.failedAt.filter (fun x => decide (at_ < x + 60000000000))) ++ (if isProof then [at_] else [])
  { s with fpp := { f with failedAt := l, failedTotal := f.failedTotal + b2n isProof, challenge := none, challengeFor := none,
                           lockedUntil := if isProof && decide (3 ≤ l.length) then at_ + 60000000000 else f.lockedUntil } }
/-- What a failed proof, or a challenge that expires, leaves. -/
structure ProofForgotten (s t : State) (isProof : Bool) : Prop where
  challenge : t.fpp.challenge = none
  challengeFor : t.fpp.challengeFor = none
  failedTotal : t.fpp.failedTotal = s.fpp.failedTotal + b2n isProof
  unlocked : isProof = false → t.fpp.lockedUntil = s.fpp.lockedUntil
  svcHeld : t.fpp.svcHeld = s.fpp.svcHeld
  dev : t.dev = s.dev
  epoch : t.fpp.epoch = s.fpp.epoch
  replies : SameReplies s t

theorem proofForgotten_spec (s : State) (at_ : Nat) (p : Bool) : ProofForgotten s (proofForgotten s at_ p) p :=
  ⟨rfl, rfl, rfl, fun h => by rw [h]; rfl, rfl, rfl, rfl, sameReplies_of_fpp _ rfl rfl⟩
theorem proofFailed_eq (s : State) (at_ : Nat) (p : Bool) : ∃ z : BbEntry, z.code < 0x10000 ∧ proofFailed s at_ p = bbOffer (proofForgotten s at_ p) z := by
  refine ⟨?_, ?_, ?_⟩
  rotate_left 2
  · unfold proofFailed bbL0
    rfl
  · show 0x0503 < 0x10000
    decide
theorem proofFailed_spec (s : State) (at_ : Nat) (p : Bool) : ProofForgotten s (proofFailed s at_ p) p := by
  obtain ⟨z, hz, heq⟩ := proofFailed_eq s at_ p
  rw [heq]
  obtain ⟨x1, x2, x3, x4, x5, x6, x7, x8⟩ := proofForgotten_spec s at_ p
  generalize proofForgotten s at_ p = x at x1 x2 x3 x4 x5 x6 x7 x8
  have w1 := offerOnly_bbOffer x z
  have w2 := sameReplies_bbOffer (s := x) z hz
  generalize bbOffer x z = w at w1 w2
  have hf := w1.fpp_eq
  exact ⟨by rw [hf, x1], by rw [hf, x2], by rw [hf, x3], fun h => by rw [hf, x4 h], by rw [hf, x5], by rw [w1.rest]; exact x6, by rw [hf, x7], x8.trans w2⟩

theorem challengeExpiry_expires {n at_ : Nat} (h1 : s.fpp.challenge = some (n, at_)) (h2 : at_ + 10 ^ 10 ≤ s.dtime) (h3 : queuePast s (at_ + 10 ^ 10) = true) :
    ∃ t, exec .challengeExpiry s = .next t ∧ t.fpp.challenge = none ∧ t.fpp.challengeFor = none ∧ t.fpp.failedTotal = s.fpp.failedTotal ∧ t.fpp.lockedUntil = s.fpp.lockedUntil ∧ t.dev = s.dev := by
  have hexec : exec .challengeExpiry s = .next (challengeExpiryOp s) := act_wf rfl
  have hop : challengeExpiryOp s = proofFailed s s.dtime false := by
    unfold challengeExpiryOp
    rw [h1]
    exact if_pos (by rw [h3, decide_eq_true h2]; rfl)
  rw [hop] at hexec
  have h := proofFailed_spec s s.dtime false
  exact ⟨_, hexec, h.challenge, h.challengeFor, h.failedTotal, h.unlocked rfl, h.dev⟩

theorem accepted_rest (s : State) (q : Request) : accepted s q = { s with fpp := { s.fpp with ownerSeen := (accepted s q).fpp.ownerSeen } } := by
  unfold accepted
  split <;> rfl
theorem sameReplies_accepted (s : State) (q : Request) : SameReplies s (accepted s q) := by
  rw [accepted_rest]
  exact sameReplies_of_fpp _ rfl rfl

/-- A challenge is drawn. -/
def challengeDrawn (u : State) (q : Request) : State :=
  { u with fpp := { u.fpp with challenge := some (u.fpp.challenges, q.arrival), challengeFor := some q.from_, challengeNode := node6 q.data 0, challenges := u.fpp.challenges + 1 } }
theorem challengeDrawn_spec (u : State) (q : Request) : (challengeDrawn u q).fpp.challenge = some (u.fpp.challenges, q.arrival) ∧ (challengeDrawn u q).fpp.challengeFor = some q.from_ ∧
    (challengeDrawn u q).fpp.challenges = u.fpp.challenges + 1 ∧ (challengeDrawn u q).dev = u.dev ∧ SameReplies u (challengeDrawn u q) :=
  ⟨rfl, rfl, rfl, rfl, sameReplies_of_fpp _ rfl rfl⟩
theorem svcClaimReq_draws (hbad : badCmd q 8 = false) (h3 : 3 ≤ u.dev) (h7 : u.dev ≠ 7) (hen : u.serviceEn = true) (hheld : u.fpp.svcHeld = false) (hkeys : u.fpp.keys ≠ [])
    (hlock : u.fpp.lockedUntil ≤ q.arrival) (hroom : noRoom u q = false) :
    svcClaimReq u q = answerWith (accepted (challengeDrawn u q) q) q 0 0 0 0 (beBytes 32 (Config.challenge u.fpp.challenges).toNat) := by
  unfold svcClaimReq
  dsimp only
  have hc : firstOf [(badCmd q 8, 7), (decide (u.dev = 7) || !u.serviceEn || u.fpp.svcHeld || u.fpp.keys.isEmpty || decide (q.arrival < u.fpp.lockedUntil), 0xB), (decide (u.dev < 3), 5), (noRoom u q, 0xA)] = 0 := by
    rw [hbad, hroom, hen, hheld, decide_eq_false h7, decide_eq_false (Nat.not_lt.mpr hlock), decide_eq_false (Nat.not_lt.mpr h3), List.isEmpty_eq_false_iff.mpr hkeys]
    rfl
  exact if_neg (fun h => h hc)
theorem svcClaim_draws (h2 : 2 ≤ s.dev) (hq : s.fpp.queue = q :: r) (hcmd : q.cmd = 0x20) (hu : taken s q r = u) (hbad : badCmd q 8 = false) (h3 : 3 ≤ u.dev) (h7 : u.dev ≠ 7)
    (hen : u.serviceEn = true) (hheld : u.fpp.svcHeld = false) (hkeys : u.fpp.keys ≠ []) (hlock : u.fpp.lockedUntil ≤ q.arrival) (hroom : (sessOf u q.from_).isSome = true) :
    ∃ t, exec .svcClaim s = .next t ∧ t.fpp.challenge = some (u.fpp.challenges, q.arrival) ∧ t.fpp.challengeFor = some q.from_ ∧ t.fpp.challenges = u.fpp.challenges + 1 ∧
      t.dev = u.dev ∧ AnsweredBy u t q 0 0 0 0 (beBytes 32 (Config.challenge u.fpp.challenges).toNat) := by
  have hexec : exec .svcClaim s = .next (takeHead s (fun q => q.cmd = 0x20) svcClaimReq) := act_wf rfl
  rw [takeHead_eq h2 hq (decide_eq_true hcmd), hu, svcClaimReq_draws hbad h3 h7 hen hheld hkeys hlock (noRoom_of_sess hroom)] at hexec
  obtain ⟨x1, x2, x3, x4, x5⟩ := challengeDrawn_spec u q
  generalize challengeDrawn u q = x at hexec x1 x2 x3 x4 x5
  have y1 := accepted_rest x q
  have y2 := sameReplies_accepted x q
  generalize accepted x q = y at hexec y1 y2
  generalize beBytes 32 (Config.challenge u.fpp.challenges).toNat = d at hexec
  have ha := answeredBy_answerWith (x5.trans y2) q 0 0 0 0 d
  have hr := responded_answerWith y q 0 0 0 0 d
  generalize answerWith y q 0 0 0 0 d = t at hexec ha hr
  have hf := hr.fpp
  have hd : t.dev = y.dev := by rw [hr.rest]
  exact ⟨t, hexec, by rw [hf, y1]; exact x1, by rw [hf, y1]; exact x2, by rw [hf, y1]; exact x3, hd.trans (by rw [y1]; exact x4), ha⟩

theorem proofKey_congr (h1 : t.fpp.challengeNode = s.fpp.challengeNode) (h2 : t.fpp.epoch = s.fpp.epoch) (h3 : t.fpp.keys = s.fpp.keys) (n : Nat) (p : List Byte) :
    proofKey t n p = proofKey s n p := by
  unfold proofKey proofMessage
  rw [h1, h2, h3]
/-- The service session that begins, before its entries. -/
def sessionBegun (s : State) (a : Transport) (at_ : Nat) : State :=
  { s with held := s.dev, fpp := { s.fpp with svcHeld := true, svcNode := s.fpp.challengeNode, svcSession := some a, svcSeen := at_, svcBegan := s.dtime, challenge := none, challengeFor := none } }
theorem sessionBegun_spec (s : State) (a : Transport) (at_ : Nat) : (sessionBegun s a at_).held = s.dev ∧ (sessionBegun s a at_).fpp.svcHeld = true ∧ (sessionBegun s a at_).fpp.svcSession = some a ∧
    (sessionBegun s a at_).fpp.svcNode = s.fpp.challengeNode ∧ (sessionBegun s a at_).fpp.challenge = none ∧ (sessionBegun s a at_).fpp.epoch = s.fpp.epoch ∧ SameReplies s (sessionBegun s a at_) :=
  ⟨rfl, rfl, rfl, rfl, rfl, rfl, ⟨rfl, rfl, rfl, fun _ => rfl⟩⟩
theorem svcBegin_eq (s : State) (a : Transport) (key at_ : Nat) : ∃ z : BbEntry, z.code < 0x10000 ∧ svcBegin s a key at_ = bbOffer (setDev (sessionBegun s a at_) 7 13) z := by
  refine ⟨?_, ?_, ?_⟩
  rotate_left 2
  · unfold svcBegin bbL0
    rfl
  · show 0x0501 < 0x10000
    decide
/-- What a proof that verifies leaves. -/
structure ServiceBegun (s t : State) (a : Transport) : Prop where
  dev : t.dev = 7
  held : t.held = s.dev
  svcHeld : t.fpp.svcHeld = true
  session : t.fpp.svcSession = some a
  node : t.fpp.svcNode = s.fpp.challengeNode
  challenge : t.fpp.challenge = none
  epoch : t.fpp.epoch = s.fpp.epoch
  replies : SameReplies s t

theorem serviceBegun_svcBegin (s : State) (a : Transport) (key at_ : Nat) : ServiceBegun s (setOutcome (svcBegin s a key at_) a 0 0) a := by
  obtain ⟨z, hz, heq⟩ := svcBegin_eq s a key at_
  rw [heq]
  obtain ⟨x1, x2, x3, x4, x5, x6, x7⟩ := sessionBegun_spec s a at_
  generalize sessionBegun s a at_ = x at x1 x2 x3 x4 x5 x6 x7
  obtain ⟨y1, y2⟩ := devChanged_setDev x 7 13
  generalize setDev x 7 13 = y at y1 y2
  have w1 := (offerOnly_bbOffer y z).rest
  have w2 := sameReplies_bbOffer (s := y) z hz
  generalize bbOffer y z = w at w1 w2
  have v1 := sessionsOnly_setOutcome w a 0 0
  generalize setOutcome w a 0 0 = v at v1
  have v2 := v1.sameReplies
  have hf : v.fpp = { x.fpp with sessions := v.fpp.sessions, counts := v.fpp.counts } := by rw [v1.rest, w1, y1]
  have hv : v.dev = 7 ∧ v.held = x.held := by rw [v1.rest, w1, y1]; exact ⟨rfl, rfl⟩
  exact ⟨hv.1, hv.2.trans x1, by rw [hf]; exact x2, by rw [hf]; exact x3, by rw [hf]; exact x4, by rw [hf]; exact x5, by rw [hf]; exact x6, ((x7.trans y2).trans w2).trans v2⟩
theorem svcProveReq_checks {n at_ : Nat} (hbad : badCmd q 64 = false) (h3 : 3 ≤ u.dev) (h7 : u.dev ≠ 7) (hheld : u.fpp.svcHeld = false) (hfor : u.fpp.challengeFor = some q.from_)
    (hch : u.fpp.challenge = some (n, at_)) (hin : q.arrival < at_ + 10 ^ 10) (hy : busy (accepted u q) q = y) (hen : y.serviceEn = true) :
    svcProveReq u q = svcProved y q false (proofKey y n q.data) := by
  unfold svcProveReq
  dsimp only
  have hc : firstOf [(badCmd q 64, 7), (decide (u.dev = 7) || u.fpp.svcHeld || !(decide (u.fpp.challengeFor = some q.from_)), 0xB), (decide (u.dev < 3), 5)] = 0 := by
    rw [hbad, decide_eq_false h7, hheld, decide_eq_true hfor, decide_eq_false (Nat.not_lt.mpr h3)]
    rfl
  rw [hc, if_neg (by decide), hch]
  dsimp only
  rw [hy, hen, decide_eq_false (Nat.not_le.mpr hin)]
  rfl
theorem svcProve_checks {n at_ : Nat} (h2 : 2 ≤ s.dev) (hq : s.fpp.queue = q :: r) (hu : taken s q r = u) (hcmd : q.cmd = 0x21) (hbad : badCmd q 64 = false) (h3 : 3 ≤ u.dev) (h7 : u.dev ≠ 7)
    (hheld : u.fpp.svcHeld = false) (hfor : u.fpp.challengeFor = some q.from_) (hch : u.fpp.challenge = some (n, at_)) (hin : q.arrival < at_ + 10 ^ 10) (hen : u.serviceEn = true) :
    ∃ t, exec .svcProve s = .next t ∧ t.fpp.challenge = none ∧ AnsweredBy u t q 0x80 0 0 0 [] ∧
      (match proofKey u n q.data with
       | some _ => t.dev = 7 ∧ t.held = u.dev ∧ t.fpp.svcHeld = true ∧ t.fpp.svcSession = some q.from_ ∧ t.fpp.svcNode = u.fpp.challengeNode
       | none => t.dev = u.dev ∧ t.fpp.svcHeld = false ∧ t.fpp.failedTotal = u.fpp.failedTotal + 1) := by
  have hexec : exec .svcProve s = .next (takeHead s (fun q => q.cmd = 0x21) svcProveReq) := act_wf rfl
  rw [takeHead_eq h2 hq (decide_eq_true hcmd), hu] at hexec
  have a1 := accepted_rest u q
  have a2 := sameReplies_accepted u q
  obtain ⟨y, hy⟩ : ∃ y, busy (accepted u q) q = y := ⟨_, rfl⟩
  have hans : AnsweredBy u y q 0x80 0 0 0 [] := hy ▸ answeredBy_answerWith a2 q 0x80 0 0 0 []
  have hr : Responded (accepted u q) y := hy ▸ responded_answerWith (accepted u q) q 0x80 0 0 0 []
  have hyf : y.fpp = { u.fpp with ownerSeen := y.fpp.ownerSeen, out := y.fpp.out, spi := y.fpp.spi, counts := y.fpp.counts } := by rw [hr.fpp, a1]
  have hyr : y.serviceEn = u.serviceEn ∧ y.dev = u.dev := by rw [hr.rest, a1]; exact ⟨rfl, rfl⟩
  rw [svcProveReq_checks hbad h3 h7 hheld hfor hch hin hy (hyr.1.trans hen), proofKey_congr (s := u) (by rw [hyf]) (by rw [hyf]) (by rw [hyf])] at hexec
  cases hk : proofKey u n q.data with
  | some key =>
    rw [hk] at hexec
    have hb := serviceBegun_svcBegin y q.from_ key q.arrival
    exact ⟨_, hexec, hb.challenge, answeredBy_after hans hb.replies hb.epoch, hb.dev, hb.held.trans hyr.2, hb.svcHeld, hb.session, hb.node.trans (by rw [hyf])⟩
  | none =>
    rw [hk] at hexec
    have hop : svcProved y q false none = endOutcome (proofFailed y q.arrival true) q.from_ 0xB := by
      unfold svcProved
      rw [hyr.1, hen]
      rfl
    rw [hop] at hexec
    have hp := proofFailed_spec y q.arrival true
    generalize proofFailed y q.arrival true = z at hexec hp
    have hz := sessionsOnly_endOutcome z q.from_ 0xB
    have hzr := hz.rest
    have hzs := hz.sameReplies
    generalize endOutcome z q.from_ 0xB = t at hexec hzr hzs
    refine ⟨t, hexec, by rw [hzr]; exact hp.challenge, answeredBy_after hans (hp.replies.trans hzs) (by rw [hzr]; exact hp.epoch), ?_, ?_, ?_⟩
    · rw [hzr]; exact hp.dev.trans hyr.2
    · rw [hzr]; exact hp.svcHeld.trans (by rw [hyf]; exact hheld)
    · rw [hzr]; exact hp.failedTotal.trans (by rw [hyf]; rfl)
theorem svcEnd_ends (h2 : 2 ≤ s.dev) (hq : s.fpp.queue = q :: r) (hu : taken s q r = u) (hcmd : q.cmd = 0x22) (hbad : badCmd q 0 = false) (hh : isHolder u q.from_ = true) :
    ∃ t, exec .svcEnd s = .next t ∧ t.dev = u.held ∧ t.held = 0 ∧ t.fpp.svcHeld = false ∧ t.fpp.svcSession = none ∧ t.carts = u.carts ∧ AnsweredBy u t q 0 0 0 0 [] := by
  have hexec : exec .svcEnd s = .next (takeHead s (fun q => q.cmd = 0x22) svcEndReq) := act_wf rfl
  have hop : svcEndReq u q = svcEndOp (done u q) 1 u.dtime := by
    unfold svcEndReq
    rw [hbad, hh]
    rfl
  rw [takeHead_eq h2 hq (decide_eq_true hcmd), hu, hop] at hexec
  have ha := answeredBy_answerWith (sameReplies_refl u) q 0 0 0 0 []
  have hr := (responded_answerWith u q 0 0 0 0 []).rest
  change AnsweredBy u (done u q) q 0 0 0 0 [] at ha
  change done u q = { u with regs := (done u q).regs, intc := (done u q).intc, net := (done u q).net, fpp := (done u q).fpp } at hr
  generalize done u q = y at hexec ha hr
  have ho := serviceOver_svcEndOp y 1 u.dtime
  exact ⟨_, hexec, ho.dev.trans (by rw [hr]), ho.held, ho.free, ho.session, ho.carts.trans (by rw [hr]), answeredBy_after ha ho.replies ho.epoch⟩

theorem theServiceSession : Clause.TheServiceSession := by
  intro s q r h2
  refine ⟨fun hq => ?_, fun n at_ h1 h2 h3 => challengeExpiry_expires h1 h2 h3, serviceLapse_ends, serviceEnDeassert_ends, serviceEnDeassert_other⟩
  intro u
  have hu : taken s q r = u := rfl
  clear_value u
  exact ⟨fun hcmd hbad h3 h7 hen hheld hkeys hlock hroom => svcClaim_draws h2 hq hcmd hu hbad h3 h7 hen hheld hkeys hlock hroom,
    fun n at_ hcmd hbad h3 h7 hheld hfor hch hin hen => svcProve_checks h2 hq hu hcmd hbad h3 h7 hheld hfor hch hin hen, fun hcmd hbad hh => svcEnd_ends h2 hq hu hcmd hbad hh⟩

/-- Settles O54: sessions, settings, and the service session. -/
theorem sessionsAndService : Obligations.SessionsAndService := ⟨sessionsAndSettingsEnd, theServiceSession⟩

end Sys2Proof.Machine
end

section
/-! Requests arrive, and reads are answered (R449 to R456). -/
namespace Sys2Proof.Machine
open Sys2Proof.Config

variable {s t u x y : State} {q : Request} {r : List Request} {a : Arrival} {l : List Byte} {v : List Byte}

/-! ### Arrival (R449, R452, R456) -/

/-- What the signal of an arrival leaves. -/
structure Arrived (s t : State) : Prop where
  rest : t = { s with regs := t.regs, intc := t.intc }
  replies : SameReplies s t

theorem arrived_pulse {n : Nat} (hn : n < 2048) : Arrived s (pulse s n) :=
  ⟨(sourceOnly_pulse s n).rest, (sourceOnly_pulse s n).sameReplies hn⟩
theorem arrived_arrivalPulse (ha : arrivalOk a = true) : Arrived s (arrivalPulse s (arrivalFrom a)) := by
  cases a with
  | can c fd ident =>
    have hc : c < 4 := by
      unfold arrivalOk at ha
      simp only [Bool.and_eq_true, decide_eq_true_eq] at ha
      exact ha.1
    exact arrived_pulse (by omega)
  | udp e ip p => exact ⟨rfl, sameReplies_refl s⟩
  | spi op n => exact arrived_pulse (by decide)

/-- An arrival that is for the agent, as the request it holds. -/
def arrivedOp (s : State) (q : Request) : State :=
  if 0x80 ≤ q.cmd then s
  else if !(cmdOk q.cmd) then abort (fppCount s 1) q 7
  else if s.fpp.queue.length ≥ 32 then abort s q 0xA
  else { s with fpp := { s.fpp with queue := s.fpp.queue ++ [q] } }
theorem arrivalOp_eq (h2 : 2 ≤ s.dev) (hup : transportUp s (arrivalFrom a) = true) :
    arrivalOp s a l = if discarded a l then fppCount s 0xF else if notForUs s a then s else arrivedOp (arrivalPulse s (arrivalFrom a)) (parseReq (arrivalFrom a) s.dtime l) := by
  unfold arrivalOp
  dsimp only
  rw [hup, if_neg (by rw [decide_eq_false (by omega : ¬ s.dev < 2)]; decide)]
  rfl
theorem cmdOk_lt {c : Nat} (h : cmdOk c = true) : c < 0x80 := by
  unfold cmdOk at h
  simp only [List.contains_eq_mem, List.mem_cons, List.not_mem_nil, or_false, decide_eq_true_eq] at h
  omega
theorem arrivedOp_joins (hcmd : cmdOk q.cmd = true) (hq : x.fpp.queue.length < 32) : arrivedOp x q = { x with fpp := { x.fpp with queue := x.fpp.queue ++ [q] } } := by
  have := cmdOk_lt hcmd
  unfold arrivedOp
  rw [if_neg (by omega), hcmd, if_neg (by decide), if_neg (by omega)]
theorem arrivedOp_full (hcmd : cmdOk q.cmd = true) (hq : 32 ≤ x.fpp.queue.length) : arrivedOp x q = abort x q 0xA := by
  have := cmdOk_lt hcmd
  unfold arrivedOp
  rw [if_neg (by omega), hcmd, if_neg (by decide), if_pos hq]
theorem arrivedOp_reserved (hcmd : cmdOk q.cmd = false) (h : q.cmd < 0x80) : arrivedOp x q = abort (fppCount x 1) q 7 := by
  unfold arrivedOp
  rw [if_neg (by omega), hcmd, if_pos (by decide)]
theorem abort_fpp (x : State) (q : Request) (c : Nat) : (abort x q c).fpp = { x.fpp with out := (abort x q c).fpp.out, spi := (abort x q c).fpp.spi, counts := (abort x q c).fpp.counts } := by
  have h := (responded_answerWith (fppCount x (c + 1)) q c 0 0 0 []).fpp
  change (abort x q c).fpp = { (fppCount x (c + 1)).fpp with out := (abort x q c).fpp.out, spi := (abort x q c).fpp.spi, counts := (abort x q c).fpp.counts } at h
  generalize (abort x q c).fpp = f at h
  exact h
theorem requestsArrive : Clause.RequestsArrive := by
  intro s a l ha h2 hup
  intro q
  have hexec : exec (.requestArrival a l) s = .next (arrivalOp s a l) := act_wf ha
  rw [arrivalOp_eq h2 hup] at hexec
  have hq : parseReq (arrivalFrom a) s.dtime l = q := rfl
  clear_value q
  rw [hq] at hexec
  have hp := arrived_arrivalPulse (s := s) ha
  have hpr := hp.rest
  have hps := hp.replies
  generalize arrivalPulse s (arrivalFrom a) = x at hexec hpr hps
  have hxq : x.fpp = s.fpp := by rw [hpr]
  refine ⟨fun hd => ?_, fun hd hn => ?_, fun hd hn hc hlt => ?_, fun hd hn hc hge => ?_, fun hd hn hc hlt => ?_, fun p rest hs => ?_⟩
  · rw [hexec, if_pos hd]
  · rw [hexec, hd, if_neg (by decide), if_pos hn]
  · rw [hd, if_neg (by decide), hn, if_neg (by decide), arrivedOp_joins hc (by rw [hxq]; exact hlt)] at hexec
    exact ⟨_, hexec, by rw [hxq], by rw [hpr]⟩
  · rw [hd, if_neg (by decide), hn, if_neg (by decide), arrivedOp_full hc (by rw [hxq]; exact hge)] at hexec
    exact ⟨_, hexec, by rw [abort_fpp, hxq], answeredBy_abort hps q 10⟩
  · rw [hd, if_neg (by decide), hn, if_neg (by decide), arrivedOp_reserved hc hlt] at hexec
    refine ⟨_, hexec, ?_, answeredBy_abort (hps.trans (sameReplies_fppCount x 1)) q 7⟩
    rw [abort_fpp, ← hxq]
    rfl
  · have hspi : exec .spiRead s = .next (spiReadOp s) := act_wf rfl
    rw [hspi]
    unfold spiReadOp
    rw [hs]

/-! ### READ and STATUS (R450, R451, R453) -/

/-- What an answered read leaves. -/
structure ReadKept (u t : State) : Prop where
  carts : t.carts = u.carts
  mem : t.mem = u.mem
  vals : t.fpp.vals = u.fpp.vals
  dev : t.dev = u.dev

theorem Responded.readKept (h : Responded y t) (h1 : y.carts = u.carts) (h2 : y.mem = u.mem) (h3 : y.fpp.vals = u.fpp.vals) (h4 : y.dev = u.dev) : ReadKept u t := by
  have hr := h.rest
  have hf := h.fpp
  exact ⟨by rw [hr]; exact h1, by rw [hr]; exact h2, by rw [hf]; exact h3, by rw [hr]; exact h4⟩
/-- The value of a read is kept for the segments to come. -/
def snapKept (u : State) (q : Request) (v : List Byte) : State := modSess (accepted u q) q.from_ (fun e => { e with snap := some v, snapIndex := keyOf q.index q.sub })
theorem snapKept_spec (u : State) (q : Request) (v : List Byte) : SameReplies u (snapKept u q v) ∧ ReadKept u (snapKept u q v) := by
  have h1 := accepted_rest u q
  have h2 := sameReplies_accepted u q
  have h3 : SessionsOnly (accepted u q) (snapKept u q v) := sessionsOnly_modSess ..
  generalize snapKept u q v = y at h3
  generalize accepted u q = x at h1 h2 h3
  have hr := h3.rest
  exact ⟨h2.trans h3.sameReplies, ⟨by rw [hr, h1], by rw [hr, h1], by rw [hr, h1], by rw [hr, h1]⟩⟩
theorem readReq_answers (hm : q.malformed = false) (hd : q.data = []) (ht : q.typ = 0) (h1 : entrySubs q.index ≠ []) (h2 : (subAt q.index q.sub).isSome = true)
    (h3 : unitAbsent u q.index q.sub = false) (h4 : subAcc q.index q.sub ≠ 2) (h5 : subAcc q.index q.sub = 4 → isHolder u q.from_ = true) (h6 : readLegal u q.index = true)
    (hv : (if q.offset = 0 then some (readVal u (sessOf u q.from_) q.index q.sub) else snapOf u q) = some v) (hlen : q.offset ≤ v.length) :
    readReq u q = answerWith (snapKept u q v) q 0 (subTyp q.index q.sub) q.offset v.length ((v.drop q.offset).take (segMax q.from_)) := by
  unfold readReq
  dsimp only
  have hc : firstOf ([(q.malformed || decide (q.data.length ≠ 0) || decide (q.typ ≠ 0), 7)] ++ badName u q ++
      [(decide (subAcc q.index q.sub = 2), 3), (decide (subAcc q.index q.sub = 4) && !(isHolder u q.from_), 0xB), (!(readLegal u q.index), 5)]) = 0 := by
    have hsvc : (decide (subAcc q.index q.sub = 4) && !(isHolder u q.from_)) = false := by
      rw [Bool.and_eq_false_imp, decide_eq_true_eq]
      exact fun h => by rw [h5 h]; rfl
    unfold badName
    rw [hm, hd, ht, h3, h6, hsvc, decide_eq_false h4, List.isEmpty_eq_false_iff.mpr h1, ← Option.not_isSome, h2]
    rfl
  rw [hc, if_neg (by decide), hv]
  exact if_neg (by omega)
theorem readReq_noEntry (hm : q.malformed = false) (hd : q.data = []) (ht : q.typ = 0) (h1 : entrySubs q.index = []) : readReq u q = abort u q 1 := by
  unfold readReq
  dsimp only
  have hc (z : List (Bool × Nat)) : firstOf ([(q.malformed || decide (q.data.length ≠ 0) || decide (q.typ ≠ 0), 7)] ++ badName u q ++ z) = 1 := by
    unfold badName
    rw [hm, hd, ht, h1]
    rfl
  rw [hc]
  rfl
theorem statusReq_answers {e : Session} (hm : q.malformed = false) (hd : q.data = []) (ht : q.typ = 0) (hs : sessOf u q.from_ = some e) (ho : tget 0xFFFF e.outcomes (keyOf q.index q.sub) ≠ 0xFFFF)
    (hn : (q.index = 0 ∧ q.sub = 0) ∨ (entrySubs q.index ≠ [] ∧ (subAt q.index q.sub).isSome = true ∧ unitAbsent u q.index q.sub = false)) :
    statusReq u q = answerWith (accepted u q) q (tget 0xFFFF e.outcomes (keyOf q.index q.sub)) 0 0 0 [] := by
  unfold statusReq
  dsimp only
  rw [hs]
  dsimp only
  have hc : firstOf ([(q.malformed || decide (q.data.length ≠ 0) || decide (q.typ ≠ 0), 7)] ++ (if (decide (q.index = 0) && decide (q.sub = 0)) = true then [] else badName u q) ++
      [(decide (tget 0xFFFF e.outcomes (keyOf q.index q.sub) = 0xFFFF), 6)]) = 0 := by
    rw [hm, hd, ht, decide_eq_false ho]
    split
    · rfl
    next hz =>
      rcases hn with ⟨g1, g2⟩ | ⟨g1, g2, g3⟩
      · exact absurd (by rw [g1, g2]; rfl) hz
      · unfold badName
        rw [g3, List.isEmpty_eq_false_iff.mpr g1, ← Option.not_isSome, g2]
        rfl
  exact if_neg (fun h => h hc)
theorem readsAreAnswered : Clause.ReadsAreAnswered := by
  intro s q r h2 hq hm hd ht
  intro u
  have hu : taken s q r = u := rfl
  clear_value u
  have hread (hcmd : q.cmd = 1) : exec .read s = .next (readReq u q) := by
    have hexec : exec .read s = .next (takeHead s (fun q => q.cmd = 1) readReq) := act_wf rfl
    rw [takeHead_eq h2 hq (decide_eq_true hcmd), hu] at hexec
    exact hexec
  refine ⟨fun hcmd h1 hsub h3 h4 h5 h6 v hv hlen => ?_, fun hcmd h1 => ?_, fun e hcmd hs ho hn => ?_⟩
  · obtain ⟨g1, g2⟩ := snapKept_spec u q v
    have hexec := hread hcmd
    rw [readReq_answers hm hd ht h1 hsub h3 h4 h5 h6 hv hlen] at hexec
    have hk := (responded_answerWith (snapKept u q v) q 0 (subTyp q.index q.sub) q.offset v.length ((v.drop q.offset).take (segMax q.from_))).readKept g2.carts g2.mem g2.vals g2.dev
    exact ⟨_, hexec, answeredBy_answerWith g1 q _ _ _ _ _, hk.carts, hk.mem, hk.vals, hk.dev⟩
  · have hexec := hread hcmd
    rw [readReq_noEntry hm hd ht h1] at hexec
    have hk := (responded_answerWith (fppCount u 2) q 1 0 0 0 []).readKept (u := u) rfl rfl rfl rfl
    exact ⟨_, hexec, answeredBy_abort (sameReplies_refl u) q 1, hk.carts, hk.mem, hk.dev⟩
  · have hexec : exec .status s = .next (takeHead s (fun q => q.cmd = 3) statusReq) := act_wf rfl
    rw [takeHead_eq h2 hq (decide_eq_true hcmd), hu, statusReq_answers hm hd ht hs ho hn] at hexec
    have h1 := accepted_rest u q
    have hk := (responded_answerWith (accepted u q) q (tget 0xFFFF e.outcomes (keyOf q.index q.sub)) 0 0 0 []).readKept (u := u) (by rw [h1]) (by rw [h1]) (by rw [h1]) (by rw [h1])
    exact ⟨_, hexec, answeredBy_answerWith (sameReplies_accepted u q) q _ _ _ _ _, hk.carts, hk.mem, hk.dev⟩

/-- Settles O52: REQUEST_ARRIVAL and SPI_READ, READ and STATUS. -/
theorem requestsAndReads : Obligations.RequestsAndReads := ⟨requestsArrive, readsAreAnswered⟩

end Sys2Proof.Machine
end

section
/-! Frames are checked on arrival and sent in turn (R389 to R392, R399). -/
namespace Sys2Proof.Machine
open Sys2Proof.Config

variable {s t u x y : State} {e q k : Nat} {f : TxFrame} {r : List TxFrame}

/-! ### What the ports' operations leave -/

/-- Between the states only transmit queues and their credit, and the drop counts of port `e`, have changed. -/
structure QueuesOnly (e : Nat) (s t : State) : Prop where
  rest : t = { s with regs := t.regs, intc := t.intc, net := { s.net with queues := t.net.queues, credit := t.net.credit, creditAt := t.net.creditAt } }
  regs : ∀ a, (∀ k, 6 ≤ k → k ≤ 8 → a ≠ ethCnt e k) → a ≠ icScnt (913 + 4 * e) → reg t a = reg s a

theorem queuesOnly_refl (e : Nat) (s : State) : QueuesOnly e s s := ⟨rfl, fun _ _ _ => rfl⟩
theorem QueuesOnly.trans (h : QueuesOnly e s t) (h' : QueuesOnly e t u) : QueuesOnly e s u :=
  ⟨by rw [h'.rest, h.rest], fun a h1 h2 => (h'.regs a h1 h2).trans (h.regs a h1 h2)⟩
theorem CreditOnly.queuesOnly (h : CreditOnly s t) : QueuesOnly e s t := by
  refine ⟨?_, fun a _ _ => ?_⟩
  · rw [h.rest]
  · rw [h.rest]
    exact reg_congr rfl rfl a
theorem queuesOnly_setQueueAt (s : State) (e' q : Nat) (l : List TxFrame) : QueuesOnly e s (setQueueAt s e' q l) := ⟨rfl, fun a _ _ => reg_congr rfl rfl a⟩
theorem QueuesOnly.foldl {α : Type} (g : State → α → State) (h : ∀ s a, QueuesOnly e s (g s a)) (l : List α) (s : State) : QueuesOnly e s (l.foldl g s) :=
  List.foldlRecOn _ _ (queuesOnly_refl e s) fun _ hx a _ => hx.trans (h _ a)
theorem queuesOnly_ethDrop (s : State) (hk : 6 ≤ k) (hk' : k ≤ 8) : QueuesOnly e s (ethDrop s e k) := by
  have hf := ethDrop_frame s e k
  refine ⟨by rw [hf], fun a h1 h2 => ?_⟩
  unfold ethDrop
  exact ((sourceOnly_pulse (ethCount s e k) (913 + 4 * e)).regs a h2).trans ((onlyRegs_ethCount s e k).2 a (by simpa using h1 k hk hk'))
theorem queuesOnly_txEnqueue (s : State) (e q : Nat) (f : TxFrame) : QueuesOnly e s (txEnqueue s e q f) := by
  unfold txEnqueue
  split
  · exact queuesOnly_ethDrop s (by decide) (by decide)
  · split
    · exact queuesOnly_ethDrop s (by decide) (by decide)
    · exact (creditOnly_creditNow s e q).queuesOnly.trans (queuesOnly_setQueueAt ..)
/-- Between the states only transmit queues and their credit have changed. -/
structure HeadsOnly (s t : State) : Prop where
  rest : t = { s with net := { s.net with queues := t.net.queues, credit := t.net.credit, creditAt := t.net.creditAt } }

theorem headsOnly_refl (s : State) : HeadsOnly s s := ⟨rfl⟩
theorem HeadsOnly.trans (h : HeadsOnly s t) (h' : HeadsOnly t u) : HeadsOnly s u := ⟨by rw [h'.rest, h.rest]⟩
theorem HeadsOnly.regs (h : HeadsOnly s t) : t.regs = s.regs := by rw [h.rest]
theorem HeadsOnly.queuesOnly (h : HeadsOnly s t) : QueuesOnly e s t :=
  ⟨by rw [h.rest], fun a _ _ => reg_congr h.regs (by rw [h.rest]) a⟩
theorem CreditOnly.headsOnly (h : CreditOnly s t) : HeadsOnly s t := ⟨by rw [h.rest]⟩
theorem headsOnly_dropHeads (s : State) (e q k : Nat) : HeadsOnly s (dropHeads s e q k) := by
  unfold dropHeads
  extract_lets l t
  have ht : HeadsOnly s t := ⟨rfl⟩
  clear_value t
  split
  · exact ht.trans (creditOnly_setCredit ..).headsOnly
  · exact ht
theorem queuesOnly_dropHeads (s : State) (e' q k : Nat) : QueuesOnly e s (dropHeads s e' q k) := (headsOnly_dropHeads ..).queuesOnly
theorem queueAt_dropHeads (s : State) (e q k j : Nat) : queueAt (dropHeads s e q k) e j = if j = q then (queueAt s e q).drop k else queueAt s e j := by
  unfold dropHeads
  extract_lets l t
  have ht : queueAt t e j = if j = q then l.drop k else queueAt s e j := by
    split
    next h => rw [h]; exact queueAt_setQueueAt ..
    next h => exact tget_tput_other [] s.net.queues _ (by unfold qKey; omega)
  clear_value t
  split
  · exact ((creditOnly_setCredit ..).queueAt e j).trans ht
  · exact ht
theorem queuesOnly_dropBig (s : State) (e q : Nat) : QueuesOnly e s (dropBig s e q) :=
  (queuesOnly_dropHeads ..).trans (.foldl _ (fun _ _ => queuesOnly_ethDrop _ (by decide) (by decide)) _ _)
theorem ethCnt_ne_icScnt (e k : Nat) {n : Nat} (hn : n < 2048) : ethCnt e k ≠ icScnt n := by unfold ethCnt ethBase icScnt icBase; omega
theorem ethBase_ne_icScnt (e : Nat) {n : Nat} (hn : n < 2048) : ethBase e ≠ icScnt n := by unfold ethBase icScnt icBase; omega
theorem QueuesOnly.ethCnt_eq (h : QueuesOnly e s t) (he : e < 8) (hk : k < 6) : reg t (ethCnt e k) = reg s (ethCnt e k) :=
  h.regs _ (fun j hj _ => by unfold ethCnt; omega) (ethCnt_ne_icScnt e k (by omega))
theorem QueuesOnly.ethBase_eq (h : QueuesOnly e s t) (he : e < 8) : reg t (ethBase e) = reg s (ethBase e) :=
  h.regs _ (fun j hj _ => by unfold ethCnt; omega) (ethBase_ne_icScnt e (by omega))
theorem ethKbit_congr (h : reg t (ethBase e) = reg s (ethBase e)) : ethKbit t e = ethKbit s e := by unfold ethKbit regB; rw [h]

/-! ### Reception (R390, R392) -/

theorem reg_ethCount (s : State) (e k : Nat) : reg (ethCount s e k) (ethCnt e k) = reg s (ethCnt e k) + 1 := reg_setReg_same _ _ _

theorem frameInOp_eq {g : EthFrame} (hon : ethOn s e = true) (hlink : ethLink s e = true) :
    frameInOp s e g = if 1518 + (if g.vlanTags = 0 then 0 else 4) < g.length then ethCount s e 3 else if g.length < 64 then s else if !g.fcsOk then ethCount s e 2
      else if g.pause then ethCount (ethCount s e 0) e 4 else if 1 < g.vlanTags then unmatched (ethCount s e 0) e else classify (ethCount s e 0) e g := by
  unfold frameInOp
  rw [hon, hlink]
  exact if_neg (by decide)
theorem ethCount_two {j k : Nat} (hjk : j ≠ k) (s : State) (e : Nat) : reg (ethCount (ethCount s e j) e k) (ethCnt e j) = reg s (ethCnt e j) + 1 ∧
    reg (ethCount (ethCount s e j) e k) (ethCnt e k) = reg s (ethCnt e k) + 1 ∧ OnlyRegs [ethCnt e j, ethCnt e k] s (ethCount (ethCount s e j) e k) := by
  have hne : ethCnt e j ≠ ethCnt e k := by unfold ethCnt; omega
  have h1 := onlyRegs_ethCount s e j
  have h1r := reg_ethCount s e j
  generalize ethCount s e j = x at h1 h1r
  have h2 := onlyRegs_ethCount x e k
  refine ⟨(h2.2 _ (by simpa using hne)).trans h1r, (reg_ethCount x e k).trans ?_, ?_⟩
  · rw [h1.2 _ (by simpa using hne.symm)]
  · exact onlyRegs_trans (onlyRegs_mono h1 (by simp)) (onlyRegs_mono h2 (by simp))
theorem ethLink_ethCount (s : State) (e k : Nat) : ethLink (ethCount s e k) e = ethLink s e :=
  ethLink_congr ((onlyRegs_ethCount s e k).2 _ (by simp only [List.mem_singleton]; unfold ethStat ethCnt; omega))
theorem framesAreChecked : Clause.FramesAreChecked := by
  intro s e sender g he hon hlink
  intro big
  have hexec : exec (.frameReceive e g) s = .next (frameInOp s e g) := act_wf (decide_eq_true he)
  rw [frameInOp_eq hon hlink] at hexec
  change _ = Host.Outcome.next (if big then _ else _) at hexec
  refine ⟨fun hb => ?_, fun hl => ?_, fun hb hl hfcs => ?_, fun hb hl hfcs => ⟨fun hp => ?_, fun hp hv => ?_, fun hp hv hip hbody hq => ?_⟩⟩
  · rw [if_pos hb] at hexec
    exact ⟨_, hexec, reg_ethCount s e 3, onlyRegs_ethCount s e 3⟩
  · rw [if_neg (by show ¬ (1518 + _ < _); omega), if_pos hl] at hexec
    exact hexec
  · rw [if_neg hb, if_neg (by omega), hfcs, if_pos (by decide)] at hexec
    exact ⟨_, hexec, reg_ethCount s e 2, onlyRegs_ethCount s e 2⟩
  · rw [if_neg hb, if_neg (by omega), hfcs, if_neg (by decide), if_pos hp] at hexec
    exact ⟨_, hexec, ethCount_two (by decide) s e⟩
  · rw [if_neg hb, if_neg (by omega), hfcs, if_neg (by decide), hp, if_neg (by decide)] at hexec
    have hop : (if 1 < g.vlanTags then unmatched (ethCount s e 0) e else classify (ethCount s e 0) e g) = ethCount (ethCount s e 0) e 5 := by
      split
      · rfl
      next hn =>
        rcases hv with h | h
        · exact absurd h hn
        · unfold classify; rw [h]; rfl
    rw [hop] at hexec
    exact ⟨_, hexec, ethCount_two (by decide) s e⟩
  · rw [if_neg hb, if_neg (by omega), hfcs, if_neg (by decide), hp, if_neg (by decide), if_neg (by omega)] at hexec
    have h1 := onlyRegs_ethCount s e 0
    have hlk := (ethLink_ethCount s e 0).trans hlink
    have hqx : queueAt (ethCount s e 0) e 0 = queueAt s e 0 := by unfold queueAt; rw [h1.1]
    have hipx : ethIp (ethCount s e 0) e = ethIp s e := by
      unfold ethIp
      rw [h1.2 _ (by simp only [List.mem_singleton]; unfold ethCnt; omega)]
    generalize ethCount s e 0 = x at hexec h1 hlk hqx hipx
    have hop : classify x e g = txEnqueue x e 0 { length := 84, what := .arpReply sender, payload := [] } := by
      unfold classify
      rw [hbody]
      dsimp only
      rw [hipx, if_pos (by simpa using hip)]
      rfl
    rw [hop] at hexec
    obtain ⟨y, hy, htx⟩ := txEnqueue_room (f := { length := 84, what := .arpReply sender, payload := [] }) hlk (by rw [hqx]; exact hq)
    rw [htx, hqx] at hexec
    have hyr := hy.rest
    refine ⟨_, hexec, queueAt_setQueueAt _ _ _ _, ?_, fun a ha => ?_⟩
    · rw [hyr, h1.1]
      rfl
    · refine (reg_congr (s := x) ?_ ?_ a).trans ((h1.2 a ha).trans (reg_congr rfl rfl a).symm)
      · rw [hyr]; rfl
      · rw [hyr]; rfl

/-! ### The link (R391) -/

/-- Every queue of `l` has lost all its frames. -/
theorem foldl_dropAll (e : Nat) (l : List Nat) : ∀ t, HeadsOnly t (l.foldl (fun t q => dropHeads t e q (queueAt t e q).length) t) ∧
    ∀ q, q ∈ l ∨ queueAt t e q = [] → queueAt (l.foldl (fun t q => dropHeads t e q (queueAt t e q).length) t) e q = [] := by
  induction l with
  | nil => exact fun t => ⟨headsOnly_refl t, fun q hq => hq.elim (fun h => absurd h List.not_mem_nil) id⟩
  | cons p l ih =>
    intro t
    rw [List.foldl_cons]
    have h1 := headsOnly_dropHeads t e p (queueAt t e p).length
    have h2 := queueAt_dropHeads t e p (queueAt t e p).length
    generalize dropHeads t e p (queueAt t e p).length = y at h1 h2
    obtain ⟨i1, i2⟩ := ih y
    refine ⟨h1.trans i1, fun q hq => ?_⟩
    by_cases hqp : q = p
    · exact i2 q (.inr (by rw [h2, if_pos hqp, List.drop_length]))
    · refine i2 q (hq.imp (fun h => (List.mem_cons.mp h).resolve_left hqp) fun h => ?_)
      rw [h2, if_neg hqp, h]
theorem setLink_spec (s : State) (he : e < 6) (b : Bool) : ethLink (setLink s e b) e = b ∧ srcSignal (setLink s e b) (912 + 4 * e) = b ∧
    OnlyRegsAndSources [ethStat e] [912 + 4 * e] s (setLink s e b) := by
  unfold setLink
  have h1 : OnlyRegs [ethStat e] s (setRegB s (ethStat e) 31 b) := onlyRegs_setRegB _ _ _ _
  have h2 : regB (setRegB s (ethStat e) 31 b) (ethStat e) 31 = b := regB_setRegB_same _ _ _ _ (by decide)
  generalize setRegB s (ethStat e) 31 b = x at h1 h2
  have h3 := sourceOnly_setLevel x (912 + 4 * e) b
  have h4 : srcSignal (setLevel x (912 + 4 * e) b) (912 + 4 * e) = b := by rw [srcSignal_setLevel, if_pos rfl]
  refine ⟨?_, h4, onlyRegsAndSources_trans (onlyRegsAndSources_of_regs h1) (h3.regsAndSources (List.mem_singleton.mpr rfl))⟩
  rw [ethLink_congr (h3.regs _ (ethStat_ne_icScnt e (by omega)))]
  exact h2
theorem linkUp_raises (he : e < 6) (hon : ethOn s e = true) :
    ∃ t, exec (.linkUp e) s = .next t ∧ ethLink t e = true ∧ srcSignal t (912 + 4 * e) = true ∧ OnlyRegsAndSources [ethStat e] [912 + 4 * e] s t := by
  have hexec : exec (.linkUp e) s = .next (linkUpOp s e) := act_wf (decide_eq_true he)
  rw [show linkUpOp s e = setLink s e true from if_pos hon] at hexec
  exact ⟨_, hexec, setLink_spec s he true⟩
theorem HeadsOnly.onlyRegsAndSources {l ns : List Nat} (h : HeadsOnly s t) (hs : OnlyRegsAndSources l ns u s) : OnlyRegsAndSources l ns { u with net := t.net } t := by
  obtain ⟨h1, h2, h3⟩ := hs
  have hr := h.rest
  refine ⟨by rw [hr, h1], fun a ha ha' => ?_, fun n hn => ?_⟩
  · exact (reg_congr h.regs (by rw [hr]) a).trans ((h2 a ha ha').trans (reg_congr rfl rfl a).symm)
  · exact (show srcSignal t n = srcSignal s n by unfold srcSignal; rw [hr]).trans (h3 n hn)
theorem linkDown_drops (he : e < 6) (hl : ethLink s e = true) :
    ∃ t, exec (.linkDown e) s = .next t ∧ ethLink t e = false ∧ (∀ q, q < 8 → queueAt t e q = []) ∧ srcSignal t (912 + 4 * e) = false ∧
      OnlyRegsAndSources [ethStat e] [912 + 4 * e] { s with net := t.net } t := by
  have hexec : exec (.linkDown e) s = .next (linkDownOp s e) := act_wf (decide_eq_true he)
  rw [show linkDownOp s e = dropLink s e from if_pos hl] at hexec
  unfold dropLink at hexec
  obtain ⟨x1, x2, x3⟩ := setLink_spec s he false
  generalize setLink s e false = x at hexec x1 x2 x3
  have y1 := (creditOnly_creditsNow x e).headsOnly
  generalize creditsNow x e = y at hexec y1
  obtain ⟨z1, z2⟩ := foldl_dropAll e (upto 8) y
  generalize (upto 8).foldl (fun t q => dropHeads t e q (queueAt t e q).length) y = z at hexec z1 z2
  have hz := y1.trans z1
  refine ⟨z, hexec, (ethLink_congr (reg_congr hz.regs (by rw [hz.rest]) _)).trans x1, fun q hq => z2 q (.inl (List.mem_range.mpr hq)), ?_, hz.onlyRegsAndSources x3⟩
  exact (show srcSignal z _ = srcSignal x _ by unfold srcSignal; rw [hz.rest]).trans x2
theorem mdioCommand_carriesOut {c : W32} (res : Word) (h : s.net.mdio = some c) :
    ∃ t, exec (.mdioCommand res) s = .next t ∧ t.net = { s.net with mdio := none, mdioResult := if rfld c 30 2 = 2 then res else s.net.mdioResult } ∧
      (∀ y z, s.fpp.long = some (0x5008 * 256 + 1, y, z) → t.fpp.long = none) ∧ t = { s with net := t.net, fpp := t.fpp } := by
  have hexec : exec (.mdioCommand res) s = .next (mdioOp s res) := act_wf rfl
  have hop : mdioOp s res = longDone { s with net := { s.net with mdio := none, mdioResult := if rfld c 30 2 = 2 then res else s.net.mdioResult } } (0x5008 * 256 + 1) 0 := by
    unfold mdioOp
    rw [h]
  rw [hop] at hexec
  obtain ⟨x, hx⟩ : ∃ x, x = { s with net := { s.net with mdio := none, mdioResult := if rfld c 30 2 = 2 then res else s.net.mdioResult } } := ⟨_, rfl⟩
  rw [← hx] at hexec
  have hl := longDone_fppOnly x (0x5008 * 256 + 1) 0
  have he (y : Nat) (z : Transport) (hyz : s.fpp.long = some (0x5008 * 256 + 1, y, z)) : (longDone x (0x5008 * 256 + 1) 0).fpp.long = none :=
    (longDone_ends _ 0 y z (by rw [hx]; exact hyz)).1
  generalize longDone x (0x5008 * 256 + 1) 0 = t at hexec hl he
  exact ⟨t, hexec, by rw [hl, hx], he, by rw [hl, hx]⟩

/-! ### Transmission (R395, R399) -/

/-- The line is taken by a frame until an instant. -/
def lineTaken (y : State) (e : Nat) (f : TxFrame) (until_ : Nat) : State := { y with net := { y.net with lineFree := tput 0 y.net.lineFree e until_, sent := (e, f) :: y.net.sent } }
theorem lineTaken_fields (y : State) (e : Nat) (f : TxFrame) (n : Nat) : (lineTaken y e f n).net.sent = (e, f) :: y.net.sent ∧ tget 0 (lineTaken y e f n).net.lineFree e = n ∧
    (∀ a, reg (lineTaken y e f n) a = reg y a) ∧ (∀ q, queueAt (lineTaken y e f n) e q = queueAt y e q) :=
  ⟨rfl, tget_tput_same 0 y.net.lineFree e n, fun a => reg_congr rfl rfl a, fun _ => rfl⟩
theorem startFrame_spec (u : State) (e q : Nat) (f : TxFrame) (r : List TxFrame) :
    ∃ y, HeadsOnly u y ∧ queueAt y e q = r ∧ startFrame u e q f r = ethCount (lineTaken y e f (y.now + lineTime u e f)) e 1 := by
  unfold startFrame
  extract_lets n t c v
  have ht : HeadsOnly u t ∧ queueAt t e q = r := ⟨⟨rfl⟩, queueAt_setQueueAt ..⟩
  refine ⟨v, ?_, ?_, rfl⟩
  · show HeadsOnly u (if _ then _ else _)
    split
    · exact ht.1.trans (creditOnly_setCredit ..).headsOnly
    · exact ht.1
  · show queueAt (if _ then _ else _) e q = r
    split
    · exact ((creditOnly_setCredit ..).queueAt e q).trans ht.2
    · exact ht.2
/-- What the frame of a queue leaves as it takes the line. -/
structure FrameSent (s t : State) (e : Nat) (f : TxFrame) : Prop where
  sent : t.net.sent = (e, f) :: s.net.sent
  lineFree : tget 0 t.net.lineFree e = s.now + cdiv (f.length * 8000000) (ethKbit s e)
  counted : reg t (ethCnt e 1) = reg s (ethCnt e 1) + 1

theorem frameSent_startFrame (he : e < 6) (h : QueuesOnly e s u) : FrameSent s (startFrame u e q f r) e f ∧ queueAt (startFrame u e q f r) e q = r := by
  obtain ⟨y, hy, hq, heq⟩ := startFrame_spec u e q f r
  rw [heq]
  have hsy := h.trans hy.queuesOnly
  have hyr := hsy.rest
  have hn : y.now + lineTime u e f = s.now + cdiv (f.length * 8000000) (ethKbit s e) := by
    unfold lineTime
    rw [ethKbit_congr (h.ethBase_eq (by omega)), hyr]
  have hsent : y.net.sent = s.net.sent := by rw [hyr]
  obtain ⟨x1, x2, x3, x4⟩ := lineTaken_fields y e f (y.now + lineTime u e f)
  generalize lineTaken y e f (y.now + lineTime u e f) = x at x1 x2 x3 x4
  have z1 := (onlyRegs_ethCount x e 1).1
  have z2 := reg_ethCount x e 1
  generalize ethCount x e 1 = z at z1 z2
  have hz : z.net = x.net := by rw [z1]
  refine ⟨⟨by rw [hz, x1, hsent], by rw [hz, x2, hn], ?_⟩, ?_⟩
  · rw [z2, x3, hsy.ethCnt_eq (by omega) (by decide)]
  · rw [← hq, ← x4]
    unfold queueAt
    rw [hz]
/-- What a gPTP message on the line leads to leaves the line's record. -/
structure LineKept (s t : State) : Prop where
  sent : t.net.sent = s.net.sent
  lineFree : t.net.lineFree = s.net.lineFree
  counted : ∀ e, reg t (ethCnt e 1) = reg s (ethCnt e 1)

theorem ptpPort_lt (s : State) (d : Nat) : ptpPort s d < 8 := rfld_lt _ _ _
theorem lineKept_sendPtp (s : State) (d n : Nat) (m : PtpBody) : LineKept s (sendPtp s d n m) := by
  unfold sendPtp sendPlain
  have hp := ptpPort_lt s d
  have h := queuesOnly_txEnqueue s (ptpPort s d) 7 { length := plainBytes n, what := .ptp (ptpNum s d) m, payload := [] }
  generalize txEnqueue s (ptpPort s d) 7 { length := plainBytes n, what := .ptp (ptpNum s d) m, payload := [] } = t at h
  generalize ptpPort s d = p at hp h
  exact ⟨by rw [h.rest], by rw [h.rest], fun e => h.regs _ (fun k _ _ => by unfold ethCnt ethBase; omega) (ethCnt_ne_icScnt e 1 (by omega))⟩
theorem lineKept_ptpSent (s : State) (e num : Nat) (m : PtpBody) : LineKept s (ptpSent s e num m) := by
  have hrefl : LineKept s s := ⟨rfl, rfl, fun _ => rfl⟩
  unfold ptpSent
  split
  · exact hrefl
  · split
    · exact lineKept_sendPtp ..
    · exact ⟨rfl, rfl, fun e => reg_congr rfl rfl _⟩
    · exact lineKept_sendPtp ..
    · exact hrefl
theorem frameTransmit_sends (he : e < 6) (hon : ethOn s e = true) (hl : ethLink s e = true) (hfree : tget 0 s.net.lineFree e ≤ s.now)
    (hu : (upto 8).foldl (fun s q => dropBig s e q) (creditsNow s e) = u) (hnext : nextFrame u e = some (q, f, r)) :
    ∃ t, exec (.frameTransmit e) s = .next t ∧ t.net.sent = (e, f) :: s.net.sent ∧ tget 0 t.net.lineFree e = s.now + cdiv (f.length * 8000000) (ethKbit s e) ∧
      reg t (ethCnt e 1) = reg s (ethCnt e 1) + 1 ∧ (match f.what with | .ptp _ _ => True | _ => queueAt t e q = r) := by
  have hexec : exec (.frameTransmit e) s = .next (frameOutOp s e) := act_wf (decide_eq_true he)
  have hsu : QueuesOnly e s u := hu ▸ (creditOnly_creditsNow s e).queuesOnly.trans (.foldl _ (fun _ _ => queuesOnly_dropBig ..) _ _)
  have hguard : ¬ ((!(ethOn s e) || !(ethLink s e) || decide (s.now < tget 0 s.net.lineFree e)) = true) := by
    rw [hon, hl, decide_eq_false (Nat.not_lt.mpr hfree)]
    decide
  obtain ⟨h1, h2⟩ := frameSent_startFrame (q := q) (f := f) (r := r) he hsu
  unfold frameOutOp at hexec
  rw [if_neg hguard, hu] at hexec
  dsimp only at hexec
  rw [hnext] at hexec
  dsimp only at hexec
  generalize startFrame u e q f r = x at hexec h1 h2
  cases hw : f.what with
  | ptp num m =>
    rw [hw] at hexec
    have hk := lineKept_ptpSent x e num m
    exact ⟨_, hexec, hk.sent.trans h1.sent, by rw [hk.lineFree]; exact h1.lineFree, (hk.counted e).trans h1.counted, trivial⟩
  | _ =>
    rw [hw] at hexec
    exact ⟨_, hexec, h1.sent, h1.lineFree, h1.counted, h2⟩
theorem framesAreSent : Clause.FramesAreSent := fun _ _ he =>
  ⟨fun _ _ _ hon hl hfree => fun hnext => frameTransmit_sends he hon hl hfree rfl hnext, linkDown_drops he, linkUp_raises he, fun _ res h => mdioCommand_carriesOut res h⟩

/-- Settles O49: the checks of the MAC, transmission, the link and MDIO. -/
theorem framesComeAndGo : Obligations.FramesComeAndGo := ⟨framesAreChecked, framesAreSent⟩

end Sys2Proof.Machine
end

section
/-! Gates follow their list, and time is kept (R395 to R397, R401, R402). -/
namespace Sys2Proof.Machine
open Sys2Proof.Config

variable {s t u x y : State} {d e q k m : Nat} {v : W32}

/-! ### The gates as registers and times give them -/

theorem CreditOnly.reg_eq (h : CreditOnly s t) (a : Nat) : reg t a = reg s a := by
  rw [h.rest]
  exact reg_congr rfl rfl a
theorem gatesRun_congr (h1 : reg t (ethGctl e) = reg s (ethGctl e)) (h2 : t.net.gateLen = s.net.gateLen) (h3 : t.net.gateCycle = s.net.gateCycle) (h4 : t.dtime = s.dtime) :
    gatesRun t e = gatesRun s e := by
  unfold gatesRun regB
  rw [h1, h2, h3, h4]
theorem gateList_congr (h : ∀ a, reg t a = reg s a) (hl : t.net.gateLen = s.net.gateLen) (e : Nat) : gateList t e = gateList s e := by
  unfold gateList gateOper regB regF
  simp only [h, hl]
theorem gateWindows_congr (h : ∀ a, reg t a = reg s a) (hl : t.net.gateLen = s.net.gateLen) (hs : t.net.gateSpan = s.net.gateSpan) (e : Nat) : gateWindows t e = gateWindows s e := by
  unfold gateWindows
  rw [gateList_congr h hl, hs]
theorem gateInstant_congr (h : ∀ a, a = ethBase e + 0x22 ∨ a = ethBase e + 0x24 ∨ a = ethBase e + 0x26 → reg t a = reg s a) (n : Nat) : gateInstant t e n = gateInstant s e n := by
  unfold gateInstant gbase gcycle
  rw [h _ (.inl rfl), h _ (.inr (.inl rfl)), h _ (.inr (.inr rfl))]

theorem reg_withNet (s : State) (n : Net) (a : Nat) : reg { s with net := n } a = reg s a := reg_congr (t := { s with net := n }) (s := s) rfl rfl a

/-- Of steps that leave all but the network and registers, the last one's do. -/
theorem netRegs_chain {s w x y : State} (h1 : w = { s with net := w.net }) (h2 : x = { { w with net := x.net } with regs := x.regs }) (h3 : y = { x with net := y.net }) :
    y = { { s with net := y.net } with regs := y.regs } := by
  have hr : y.regs = x.regs := by rw [h3]
  rw [hr]
  generalize y.net = n at h3
  calc y = { x with net := n } := h3
    _ = { w with net := n, regs := x.regs } := congrArg (fun z : State => { z with net := n }) h2
    _ = { s with net := n, regs := x.regs } := congrArg (fun z : State => { z with net := n, regs := x.regs }) h1

/-! ### The interval ends (R401) -/

/-- The gates of port `e` stand at entry `i` of the cycle that began at `c`. -/
def gateAtEntry (s : State) (e i c : Nat) : State :=
  let t := { s with net := { s.net with gateIdx := tput 0 s.net.gateIdx e i, gateCycle := tput 0 s.net.gateCycle e c } }
  { t with net := { t.net with gateAt := tput 0 t.net.gateAt e (c + (gateNow t e).1) } }
theorem gateAtEntry_spec (s : State) (e i c : Nat) : tget 0 (gateAtEntry s e i c).net.gateIdx e = i ∧ tget 0 (gateAtEntry s e i c).net.gateCycle e = c ∧
    gateAtEntry s e i c = { s with net := (gateAtEntry s e i c).net } :=
  ⟨tget_tput_same 0 s.net.gateIdx e i, tget_tput_same 0 s.net.gateCycle e c, rfl⟩
theorem gateEndOp_eq (hrun : gatesRun s e = true) (hend : tget 0 s.net.gateCycle e + (gateNow s e).2.1 ≤ s.dtime) (hx : creditsNow s e = x) :
    gateEndOp s e = if (gateWindows x e).length ≤ tget 0 x.net.gateIdx e + 1 then gateAtEntry x e 0 (tget 0 s.net.gateCycle e + tget 0 x.net.gateSpan e)
      else gateAtEntry x e (tget 0 x.net.gateIdx e + 1) (tget 0 s.net.gateCycle e) := by
  unfold gateEndOp
  dsimp only
  rw [hrun, if_neg (by rw [decide_eq_false (Nat.not_lt.mpr hend)]; decide), hx]
  by_cases h : (gateWindows x e).length ≤ tget 0 x.net.gateIdx e + 1
  · simp only [h, decide_true, if_true]
    rfl
  · simp only [h, decide_false, if_false, Bool.false_eq_true]
    rfl
theorem gateIntervalEnd_goesOn (he : e < 6) (hrun : gatesRun s e = true) (hend : tget 0 s.net.gateCycle e + (gateNow s e).2.1 ≤ s.dtime) :
    ∃ t, exec (.gateIntervalEnd e) s = .next t ∧
      (if (gateWindows s e).length ≤ tget 0 s.net.gateIdx e + 1 then tget 0 t.net.gateIdx e = 0 ∧ tget 0 t.net.gateCycle e = tget 0 s.net.gateCycle e + tget 0 s.net.gateSpan e
       else tget 0 t.net.gateIdx e = tget 0 s.net.gateIdx e + 1 ∧ tget 0 t.net.gateCycle e = tget 0 s.net.gateCycle e) ∧ t = { s with net := t.net } := by
  have hexec : exec (.gateIntervalEnd e) s = .next (gateEndOp s e) := act_wf (decide_eq_true he)
  have hc := creditOnly_creditsNow s e
  have hw : gateWindows (creditsNow s e) e = gateWindows s e := gateWindows_congr hc.reg_eq (by rw [hc.rest]) (by rw [hc.rest]) e
  have hi : (creditsNow s e).net.gateIdx = s.net.gateIdx := by rw [hc.rest]
  have hs : (creditsNow s e).net.gateSpan = s.net.gateSpan := by rw [hc.rest]
  rw [gateEndOp_eq hrun hend rfl, hw, hi, hs] at hexec
  have hcr := hc.rest
  generalize creditsNow s e = x at hexec hcr
  split at hexec
  next h =>
    obtain ⟨g1, g2, g3⟩ := gateAtEntry_spec x e 0 (tget 0 s.net.gateCycle e + tget 0 s.net.gateSpan e)
    exact ⟨_, hexec, by rw [if_pos h]; exact ⟨g1, g2⟩, by rw [g3, hcr]⟩
  next h =>
    obtain ⟨g1, g2, g3⟩ := gateAtEntry_spec x e (tget 0 s.net.gateIdx e + 1) (tget 0 s.net.gateCycle e)
    exact ⟨_, hexec, by rw [if_neg h]; exact ⟨g1, g2⟩, by rw [g3, hcr]⟩

/-! ### A change is requested (R402) -/

theorem regInfo_gctl (he : e < 6) (hp : ethPresent s.variant e = true) :
    regInfo s.variant (ethGctl e) = some { ro 0 with claim := ethClaim e, confAt := ethStat e, confBit := 30, own := 0xC00001FF, rst := 1 } :=
  regInfo_eth (o := 0x20) he hp (by decide) (by decide)
theorem sysReserved_gctl (he : e < 6) (w : Nat) : ∀ z ∈ sysReserved s (ethGctl e) w, z.1 + z.2 ≤ 30 := by
  have hblock : ethGctl e / 0x10000 % 256 = 0x70 + e := by unfold ethGctl ethBase; omega
  have hoff : ethGctl e % 0x10000 = 0x20 := by unfold ethGctl ethBase; omega
  unfold sysReserved
  rw [hblock, hoff]
  simp only [show ¬ 0x70 + e < 8 by omega, show ∀ j < 0x70, ¬ 0x70 + e = j by omega, show 0x70 ≤ 0x70 + e by omega, show 0x70 + e < 0x76 by omega,
    if_false, decide_true, decide_false, Bool.and_self, Bool.false_eq_true, Nat.reduceLT, Nat.reduceEqDiff, Bool.and_false, Nat.reduceLeDiff, if_true]
  intro z hz
  split at hz
  · rw [List.mem_singleton.mp hz]; decide
  · exact absurd hz List.not_mem_nil
/-- The holder's store of ETH_GCTL. -/
structure GctlStored (s t : State) (e : Nat) (v : W32) : Prop where
  rest : t = { s with regs := t.regs, intc := t.intc }
  regs : ∀ a, a ≠ ethGctl e → a ≠ ethStat e → (∀ n < 2048, a ≠ icScnt n) → reg t a = reg s a
  change : regB t (ethGctl e) 30 = rbit v 30
  enable : regB t (ethGctl e) 31 = rbit v 31

theorem gctlStored_storePlain (he : e < 6) (hp : ethPresent s.variant e = true) (hown : ownsClaim s (ethClaim e) m = true) : GctlStored s (storePlain s m (ethGctl e) v) e v := by
  have hi := regInfo_gctl he hp
  obtain ⟨i, heq⟩ : ∃ i : RegInfo, i = { ro 0 with claim := ethClaim e, confAt := ethStat e, confBit := 30, own := 0xC00001FF, rst := 1 } := ⟨_, rfl⟩
  rw [← heq] at hi
  have hne : ethGctl e ≠ ethStat e := by unfold ethGctl ethStat; omega
  have hic : ∀ n < 2048, ethGctl e ≠ icScnt n := fun n hn => by unfold ethGctl ethBase icScnt icBase; omega
  have hval (j : Nat) (hj : j < 32) (hset : (0xC00001FF : Nat).testBit j = true) (h30 : 30 ≤ j) : rbit (storeVal s m (ethGctl e) v i).1 j = rbit v j :=
    rbit_storeVal_owned (i := i) (by rw [heq]; exact hown) (by rw [heq]; show (0 ||| 0xC00001FF : Nat) < 2 ^ 32; decide) hj
      (by rw [heq]; show (0 ||| 0xC00001FF : Nat).testBit j = true; rw [Nat.zero_or]; exact hset) (by rw [heq]; exact Nat.zero_testBit j)
      fun z hz => .inr (Nat.le_trans (sysReserved_gctl he _ z hz) h30)
  have hset := onlyRegs_setReg s (ethGctl e) (storeVal s m (ethGctl e) v i).1
  have hsame := reg_setReg_same s (ethGctl e) (storeVal s m (ethGctl e) v i).1
  have hbits (t : State) (ht : reg t (ethGctl e) = (storeVal s m (ethGctl e) v i).1) : regB t (ethGctl e) 30 = rbit v 30 ∧ regB t (ethGctl e) 31 = rbit v 31 := by
    unfold regB
    rw [ht]
    exact ⟨hval 30 (by decide) (by decide) (by decide), hval 31 (by decide) (by decide) (by decide)⟩
  cases hc : storeConflicts s m (ethGctl e) v i with
  | true =>
    rw [storePlain_of_conflict hi hc]
    generalize setReg s (ethGctl e) (storeVal s m (ethGctl e) v i).1 = y at hset hsame
    obtain ⟨c1, c2⟩ := conflictAt_keeps y i.confAt i.confBit
    have hat : i.confAt = ethStat e := by rw [heq]
    rw [hat] at c1 c2 ⊢
    have hb := hbits _ ((c2 _ hne hic).trans hsame)
    exact ⟨by rw [c1, hset.1], fun a h1 h2 h3 => (c2 a h2 h3).trans (hset.2 a (by simpa using h1)), hb.1, hb.2⟩
  | false =>
    rw [storePlain_of_no_conflict hi hc]
    have hb := hbits _ hsame
    generalize setReg s (ethGctl e) (storeVal s m (ethGctl e) v i).1 = y at hset hsame hb
    exact ⟨by rw [hset.1], fun a h1 _ _ => hset.2 a (by simpa using h1), hb.1, hb.2⟩

theorem gctlStore_requests (hown : ownsClaim s (ethClaim e) m = true) (hold : regB s (ethGctl e) 30 = false) (hv : rbit v 30 = true) (hen : rbit v 31 = regB s (ethGctl e) 31)
    (ht : storePlain (creditsNow s e) m (ethGctl e) v = t) (hz : gateZero t e = false) :
    gctlStore s m e v = if rbit v 31 then gateRequest t e else { gateRequest t e with net := { (gateRequest t e).net with gateLen := tput 0 (gateRequest t e).net.gateLen e 0 } } := by
  unfold gctlStore
  have hold' : rbit (reg s (ethGctl e)) 30 = false := hold
  have hen' : rbit (reg s (ethGctl e)) 31 = rbit v 31 := hen.symm
  dsimp only
  rw [hown, hold', hen', if_neg (by decide)]
  simp only [Bool.false_eq_true, if_false]
  rw [hv, ht, hz, if_neg (by decide), Bool.and_not_self, if_neg (by decide)]
  rfl
theorem gateRequest_change (t : State) (e : Nat) : tget 0 (gateRequest t e).net.gateChange e = gateInstant t e (if gatesRun t e then tget 0 t.net.gateCycle e + tget 0 t.net.gateSpan e else t.dtime) + 1 := by
  unfold gateRequest
  extract_lets n
  exact tget_tput_same 0 t.net.gateChange e (gateInstant t e n + 1)
theorem gateChangeRequest_requests (hm : masterOk m = true) (he : e < 6) (hv : rbit v 30 = true) (hp : ethPresent s.variant e = true) (hown : ownsClaim s (ethClaim e) m = true)
    (hold : regB s (ethGctl e) 30 = false) (hen : rbit v 31 = regB s (ethGctl e) 31) (hz : gateZero (storePlain (creditsNow s e) m (ethGctl e) v) e = false) :
    ∃ t, exec (.gateChangeRequest m e v) s = .next t ∧ regB t (ethGctl e) 30 = true ∧
      tget 0 t.net.gateChange e = gateInstant s e (if gatesRun s e then tget 0 s.net.gateCycle e + tget 0 s.net.gateSpan e else s.dtime) + 1 := by
  have hexec : exec (.gateChangeRequest m e v) s = .next (if rbit v 30 && ethPresent s.variant e then gctlStore s m e v else s) :=
    act_wf (by show (masterOk m && decide (e < 6)) = true; rw [hm, decide_eq_true he]; rfl)
  have hc := creditOnly_creditsNow s e
  have hst : GctlStored (creditsNow s e) (storePlain (creditsNow s e) m (ethGctl e) v) e v :=
    gctlStored_storePlain he (by rw [hc.rest]; exact hp) ((ownsClaim_congr (hc.reg_eq _)).trans hown)
  rw [hv, hp, if_pos (by decide), gctlStore_requests hown hold hv hen rfl hz] at hexec
  have hrest : storePlain (creditsNow s e) m (ethGctl e) v = { creditsNow s e with regs := (storePlain (creditsNow s e) m (ethGctl e) v).regs, intc := (storePlain (creditsNow s e) m (ethGctl e) v).intc } := hst.rest
  obtain ⟨-, hregs, h30, h31⟩ := hst
  generalize storePlain (creditsNow s e) m (ethGctl e) v = y at hexec hrest hregs h30 h31
  have hyr : y = { s with regs := y.regs, intc := y.intc, net := { s.net with credit := y.net.credit, creditAt := y.net.creditAt } } := by
    have hcr := hc.rest
    generalize creditsNow s e = x at hrest hcr
    rw [hrest, hcr]
  have hrun : gatesRun y e = gatesRun s e := by
    unfold gatesRun
    rw [h31, hen, hyr]
  have hinst (n : Nat) : gateInstant y e n = gateInstant s e n := gateInstant_congr (fun a ha => (hregs a (by unfold ethGctl; omega) (by unfold ethStat; omega)
    fun n hn => by unfold icScnt icBase; unfold ethBase at ha; omega).trans (hc.reg_eq a)) n
  have hchange : tget 0 (gateRequest y e).net.gateChange e = gateInstant s e (if gatesRun s e then tget 0 s.net.gateCycle e + tget 0 s.net.gateSpan e else s.dtime) + 1 := by
    rw [gateRequest_change, hrun, hinst, hyr]
  have h30' : regB (gateRequest y e) (ethGctl e) 30 = true := h30.trans hv
  generalize gateRequest y e = z at hexec hchange h30'
  split at hexec
  · exact ⟨_, hexec, h30', hchange⟩
  · exact ⟨_, hexec, h30', hchange⟩

/-! ### The lists change places (R402) -/

/-- No change of the lists of port `e` is requested any more. -/
def changeEnded (t : State) (e : Nat) : State := { t with net := { t.net with gateChange := tput 0 t.net.gateChange e 0 } }
theorem changeEnded_spec (t : State) (e : Nat) : (∀ a, reg (changeEnded t e) a = reg t a) ∧ tget 0 (changeEnded t e).net.gateChange e = 0 ∧ changeEnded t e = { t with net := (changeEnded t e).net } :=
  ⟨fun a => reg_congr rfl rfl a, tget_tput_same 0 t.net.gateChange e 0, rfl⟩
/-- The operating list is the other one, and no change is requested. -/
def listSwapped (s : State) (e : Nat) : State := changeEnded (setRegB (setRegB s (ethGctl e) 29 (!(gateOper s e))) (ethGctl e) 30 false) e
theorem gateSwapOp_eq (h1 : regB s (ethGctl e) 30 = true) (h2 : tget 0 s.net.gateChange e ≠ 0) (h3 : tget 0 s.net.gateChange e ≤ s.dtime + 1) (hx : listSwapped (creditsNow s e) e = x) :
    gateSwapOp s e = pulse (if regB x (ethGctl e) 31 then gateBegin x e (tget 0 s.net.gateChange e - 1) else x) (914 + 4 * e) := by
  unfold gateSwapOp
  rw [h1]
  dsimp only
  rw [if_neg (by rw [decide_eq_false h2, decide_eq_false (Nat.not_lt.mpr h3)]; decide), ← hx]
  rfl
theorem listSwapped_spec (s : State) (e : Nat) : gateOper (listSwapped s e) e = (!gateOper s e) ∧ regB (listSwapped s e) (ethGctl e) 30 = false ∧
    regB (listSwapped s e) (ethGctl e) 31 = regB s (ethGctl e) 31 ∧ gnlen (listSwapped s e) e = gnlen s e ∧ tget 0 (listSwapped s e).net.gateChange e = 0 ∧
    OnlyRegs [ethGctl e] { s with net := (listSwapped s e).net } (listSwapped s e) := by
  unfold listSwapped
  have h1 := onlyRegs_setRegB s (ethGctl e) 29 (!(gateOper s e))
  have b1 (j : Nat) (hj : j < 32) (hne : j ≠ 29) := regB_setRegB_other s (ethGctl e) 29 j (!(gateOper s e)) hj hne
  have b2 := regB_setRegB_same s (ethGctl e) 29 (!(gateOper s e)) (by decide)
  have b3 := regF_setRegB_other s (ethGctl e) 29 (!(gateOper s e)) 0 9 (.inl (by decide)) (by decide)
  generalize setRegB s (ethGctl e) 29 (!(gateOper s e)) = x at h1 b1 b2 b3
  have h2 := onlyRegs_setRegB x (ethGctl e) 30 false
  have c1 (j : Nat) (hj : j < 32) (hne : j ≠ 30) := regB_setRegB_other x (ethGctl e) 30 j false hj hne
  have c2 := regB_setRegB_same x (ethGctl e) 30 false (by decide)
  have c3 := regF_setRegB_other x (ethGctl e) 30 false 0 9 (.inl (by decide)) (by decide)
  generalize setRegB x (ethGctl e) 30 false = y at h2 c1 c2 c3
  have h := onlyRegs_trans h1 h2
  obtain ⟨z1, z2, z3⟩ := changeEnded_spec y e
  generalize changeEnded y e = z at z1 z2 z3
  have hB (j : Nat) : regB z (ethGctl e) j = regB y (ethGctl e) j := by unfold regB; rw [z1]
  have hF : regF z (ethGctl e) 0 9 = regF y (ethGctl e) 0 9 := by unfold regF; rw [z1]
  refine ⟨(hB 29).trans ((c1 29 (by decide) (by decide)).trans b2), (hB 30).trans c2, (hB 31).trans ((c1 31 (by decide) (by decide)).trans (b1 31 (by decide) (by decide))),
    hF.trans (c3.trans b3), z2, by rw [z3, h.1], fun a ha => ?_⟩
  exact (z1 a).trans ((h.2 a ha).trans (reg_withNet s _ a).symm)
theorem gateBegin_spec (x : State) (e n : Nat) : gateBegin x e n = { x with net := (gateBegin x e n).net } ∧ tget 0 (gateBegin x e n).net.gateCycle e = n ∧ tget 0 (gateBegin x e n).net.gateIdx e = 0 ∧
    tget 0 (gateBegin x e n).net.gateLen e = gnlen x e ∧ (gateBegin x e n).net.gateChange = x.net.gateChange :=
  ⟨rfl, tget_tput_same 0 x.net.gateCycle e n, tget_tput_same 0 x.net.gateIdx e 0, tget_tput_same 0 x.net.gateLen e _, rfl⟩
/-- The list taken over begins where the gates are enabled. -/
def gateMayBegin (x : State) (e n : Nat) : State := if regB x (ethGctl e) 31 then gateBegin x e n else x
theorem gateMayBegin_spec (x : State) (e n : Nat) : gateMayBegin x e n = { x with net := (gateMayBegin x e n).net } ∧ (gateMayBegin x e n).net.gateChange = x.net.gateChange ∧
    (regB x (ethGctl e) 31 = true → tget 0 (gateMayBegin x e n).net.gateCycle e = n ∧ tget 0 (gateMayBegin x e n).net.gateIdx e = 0 ∧ tget 0 (gateMayBegin x e n).net.gateLen e = gnlen x e) := by
  obtain ⟨g1, g2, g3, g4, g5⟩ := gateBegin_spec x e n
  unfold gateMayBegin
  split
  · exact ⟨g1, g5, fun _ => ⟨g2, g3, g4⟩⟩
  next h => exact ⟨rfl, rfl, fun h' => absurd h' h⟩
theorem gateListChange_swaps (he : e < 6) (h1 : regB s (ethGctl e) 30 = true) (h2 : tget 0 s.net.gateChange e ≠ 0) (h3 : tget 0 s.net.gateChange e ≤ s.dtime + 1) :
    ∃ t, exec (.gateListChange e) s = .next t ∧ gateOper t e = (!gateOper s e) ∧ regB t (ethGctl e) 30 = false ∧ tget 0 t.net.gateChange e = 0 ∧
      (regB s (ethGctl e) 31 = true → tget 0 t.net.gateCycle e = tget 0 s.net.gateChange e - 1 ∧ tget 0 t.net.gateIdx e = 0 ∧ tget 0 t.net.gateLen e = gnlen s e) ∧
      OnlyRegsAndSources [ethGctl e] [914 + 4 * e] { s with net := t.net } t := by
  have hexec : exec (.gateListChange e) s = .next (gateSwapOp s e) := act_wf (decide_eq_true he)
  rw [gateSwapOp_eq h1 h2 h3 rfl] at hexec
  have hc := creditOnly_creditsNow s e
  have hcr := hc.rest
  have hreg := hc.reg_eq
  generalize creditsNow s e = w at hexec hcr hreg
  obtain ⟨x1, x2, x3, x4, x5, x6, x7⟩ := listSwapped_spec w e
  generalize listSwapped w e = x at hexec x1 x2 x3 x4 x5 x6 x7
  have hop : gateOper w e = gateOper s e := by unfold gateOper regB; rw [hreg]
  have hen : regB x (ethGctl e) 31 = regB s (ethGctl e) 31 := x3.trans (by unfold regB; rw [hreg])
  have hlen : gnlen x e = gnlen s e := x4.trans (by unfold gnlen regF; rw [hreg])
  obtain ⟨hyr, hyc, hyb⟩ := gateMayBegin_spec x e (tget 0 s.net.gateChange e - 1)
  rw [hen, hlen] at hyb
  change exec (.gateListChange e) s = .next (pulse (gateMayBegin x e (tget 0 s.net.gateChange e - 1)) (914 + 4 * e)) at hexec
  generalize gateMayBegin x e (tget 0 s.net.gateChange e - 1) = y at hexec hyr hyc hyb
  have hyreg (a : Nat) : reg y a = reg x a := reg_congr (by rw [hyr]) (by rw [hyr]) a
  have hs := sourceOnly_pulse y (914 + 4 * e)
  have hsg := hs.regs (ethGctl e) (by unfold ethGctl ethBase icScnt icBase; omega)
  have hsn : (pulse y (914 + 4 * e)).net = y.net := hs.net
  have hbit (j : Nat) : regB (pulse y (914 + 4 * e)) (ethGctl e) j = regB x (ethGctl e) j := by unfold regB; rw [hsg, hyreg]
  refine ⟨_, hexec, (hbit 29).trans (x1.trans (by rw [hop])), (hbit 30).trans x2, by rw [hsn, hyc, x5], by rw [hsn]; exact hyb, ?_⟩
  have hfin : OnlyRegsAndSources [ethGctl e] [914 + 4 * e] { s with net := y.net } y := by
    refine onlyRegsAndSources_of_regs ⟨netRegs_chain (by rw [hcr]) x6 hyr, fun a ha => (hyreg a).trans ((x7 a ha).trans ?_)⟩
    exact (reg_withNet w _ a).trans ((hreg a).trans (reg_withNet s _ a).symm)
  rw [hsn]
  exact onlyRegsAndSources_trans hfin (hs.regsAndSources (List.mem_singleton.mpr rfl))
theorem gatesFollowTheirList : Clause.GatesFollowTheirList := fun _ _ _ _ hm he =>
  ⟨gateIntervalEnd_goesOn he, fun hv hp hown hold hen hz => gateChangeRequest_requests hm he hv hp hown hold hen hz, gateListChange_swaps he⟩

/-! ### Clocks lose their reference (R346, R396) -/

/-- A clock's reference is lost where `P` names the clock. -/
def refLostIf (P : State → Nat → Bool) (s : State) (k : Nat) : State := if P s k then refLost s k else s
theorem refLost_only (s : State) (k : Nat) : OnlyRegsAndSources [mcStat k] [904 + k] s (refLost s k) := by
  by_cases h : mcSrc s k ≠ 0 ∧ (mcState s k = 1 ∨ mcState s k = 2)
  · exact (referenceLost_holds h.1 h.2 _ rfl).2.2.2
  · have heq : refLost s k = s := if_neg (by simpa using h)
    rw [heq]
    exact onlyRegsAndSources_refl _ _ s
theorem refLostIf_only (P : State → Nat → Bool) (s : State) (k : Nat) : OnlyRegsAndSources [mcStat k] [904 + k] s (refLostIf P s k) := by
  unfold refLostIf
  split
  · exact refLost_only s k
  · exact onlyRegsAndSources_refl _ _ s
theorem mcStat_not_source {l ns : List Nat} {k : Nat} (hk : k ∉ l) : mcStat k ∉ l.map mcStat ∧ mcStat k ∉ ns.map icScnt := by
  simp only [List.mem_map, not_exists, not_and]
  refine ⟨fun j hj he => hk ?_, fun n _ he => mcStat_ne_icScnt k n he.symm⟩
  rwa [show j = k by unfold mcStat at he; omega] at hj
theorem mcState_congr {k : Nat} (h : reg t (mcStat k) = reg s (mcStat k)) : mcState t k = mcState s k := by unfold mcState regF; rw [h]
theorem foldl_refLostIf {P : State → Nat → Bool} (hP : ∀ s t k, reg t (mcCtl k) = reg s (mcCtl k) → P t k = P s k) (hsrc : ∀ s k, P s k = true → mcSrc s k ≠ 0) (l : List Nat) :
    ∀ s, l.Nodup → OnlyRegsAndSources (l.map mcStat) (l.map (904 + ·)) s (l.foldl (refLostIf P) s) ∧
      ∀ k ∈ l, P s k = true → mcState s k = 1 ∨ mcState s k = 2 → mcState (l.foldl (refLostIf P) s) k = 3 := by
  induction l with
  | nil => exact fun s _ => ⟨onlyRegsAndSources_refl _ _ s, fun k hk => absurd hk List.not_mem_nil⟩
  | cons k l ih =>
    intro s hnd
    rw [List.foldl_cons]
    obtain ⟨hkl, hnd'⟩ := List.nodup_cons.mp hnd
    have h1 := refLostIf_only P s k
    have h2 : P s k = true → mcState s k = 1 ∨ mcState s k = 2 → mcState (refLostIf P s k) k = 3 :=
      fun hp hst => (referenceLost_holds (hsrc s k hp) hst _ (if_pos hp).symm).1
    generalize refLostIf P s k = y at h1 h2
    obtain ⟨i1, i2⟩ := ih y hnd'
    refine ⟨onlyRegsAndSources_trans (onlyRegsAndSources_mono h1 (by simp) (by simp)) (onlyRegsAndSources_mono i1 (by simp +contextual) (by simp +contextual)), fun j hj hp hst => ?_⟩
    by_cases hjk : j = k
    · subst hjk
      obtain ⟨n1, n2⟩ := mcStat_not_source (ns := l.map (904 + ·)) hkl
      exact (mcState_congr (i1.2.1 _ n1 n2)).trans (h2 hp hst)
    · have hjl : j ∈ l := (List.mem_cons.mp hj).resolve_left hjk
      obtain ⟨n1, n2⟩ := mcStat_not_source (l := [k]) (ns := [904 + k]) (k := j) (by simpa using hjk)
      have hst' : mcState y j = mcState s j := mcState_congr (h1.2.1 _ n1 n2)
      exact i2 j hjl ((hP _ _ j (reg_mcCtl_of_stat h1 j)).trans hp) (by rw [hst']; exact hst)

/-- Between the states only the status of media clocks, and their sources, have changed. -/
structure RefsLostOnly (s t : State) : Prop where
  rest : t = { s with regs := t.regs, intc := t.intc }
  regs : ∀ a, (∀ k < 4, a ≠ mcStat k) → (∀ n < 2048, a ≠ icScnt n) → reg t a = reg s a

theorem refsLostOnly_foldl {P : State → Nat → Bool} (hP : ∀ s t k, reg t (mcCtl k) = reg s (mcCtl k) → P t k = P s k) (hsrc : ∀ s k, P s k = true → mcSrc s k ≠ 0) (s : State) :
    RefsLostOnly s ((upto 4).foldl (refLostIf P) s) ∧ ∀ k < 4, P s k = true → mcState s k = 1 ∨ mcState s k = 2 → mcState ((upto 4).foldl (refLostIf P) s) k = 3 := by
  obtain ⟨h1, h2⟩ := foldl_refLostIf hP hsrc (upto 4) s List.nodup_range
  refine ⟨⟨h1.1, fun a ha hn => h1.2.1 a ?_ ?_⟩, fun k hk => h2 k (List.mem_range.mpr hk)⟩
  · simp only [List.mem_map, not_exists, not_and]
    exact fun k hk he => ha k (mem_upto hk) he.symm
  · simp only [List.mem_map, not_exists, not_and, List.mem_map]
    rintro n ⟨k, hk, rfl⟩ he
    exact hn _ (by have := mem_upto hk; omega) he.symm

/-! ### A domain without Sync (R396) -/

/-- The media clock follows a gPTP domain. -/
def followsDomain (d : Nat) (s : State) (k : Nat) : Bool := mcOn s k && mcSrc s k = d + 1
theorem ptpRefLost_eq (s : State) (d : Nat) : ptpRefLost s d = (upto 4).foldl (refLostIf (followsDomain d)) s := rfl
theorem ptpRefLost_spec (s : State) (d : Nat) : RefsLostOnly s (ptpRefLost s d) ∧
    ∀ k < 4, mcOn s k = true → mcSrc s k = d + 1 → mcState s k = 1 ∨ mcState s k = 2 → mcState (ptpRefLost s d) k = 3 := by
  rw [ptpRefLost_eq]
  obtain ⟨h1, h2⟩ := refsLostOnly_foldl (P := followsDomain d) (fun s t k h => by unfold followsDomain; rw [mcOn_congr h, mcSrc_congr h])
    (fun s k h => by unfold followsDomain at h; simp only [Bool.and_eq_true, decide_eq_true_eq] at h; omega) s
  exact ⟨h1, fun k hk hon hsrc => h2 k hk (by unfold followsDomain; rw [hon, hsrc, decide_eq_true rfl]; rfl)⟩

theorem ptpOf_setPtp (s : State) (d : Nat) (p : Ptp) : ptpOf (setPtp s d p) d = p := tget_tput_same ptp0 s.net.ptp d p
theorem reg_setPtp (s : State) (d : Nat) (p : Ptp) (a : Nat) : reg (setPtp s d p) a = reg s a := reg_congr rfl rfl a
theorem ptpDstat_ne (d : Nat) (hd : d < 2) : (∀ k < 4, ptpDstat d ≠ mcStat k) ∧ ∀ n < 2048, ptpDstat d ≠ icScnt n := by
  unfold ptpDstat ptpBase mcStat clkBase icScnt icBase
  exact ⟨fun k hk => by omega, fun n hn => by omega⟩
/-- What a change of the state of a gPTP domain leaves. -/
structure PtpStateSet (s t : State) (d st : Nat) : Prop where
  rest : t = { s with regs := t.regs, intc := t.intc }
  regs : ∀ a, a ≠ ptpDstat d → a ≠ icScnt (936 + d) → reg t a = reg s a
  state : ptpState t d = st
  low : ∀ j < 30, regB t (ptpDstat d) j = regB s (ptpDstat d) j

theorem setPtpState_spec (s : State) {d st : Nat} (hd : d < 2) (hst : st < 4) : PtpStateSet s (setPtpState s d st) d st := by
  unfold setPtpState
  split
  next h => exact ⟨rfl, fun _ _ _ => rfl, h, fun _ _ => rfl⟩
  next h =>
    have h1 := onlyRegs_setRegF s (ptpDstat d) 30 2 st
    have h2 : regF (setRegF s (ptpDstat d) 30 2 st) (ptpDstat d) 30 2 = st := by
      rw [regF_setRegF_same _ _ _ _ _ (by decide)]
      exact Nat.mod_eq_of_lt hst
    have h3 (j : Nat) (hj : j < 30) : regB (setRegF s (ptpDstat d) 30 2 st) (ptpDstat d) j = regB s (ptpDstat d) j := by
      rw [regB_setRegF _ _ _ _ _ _ (by omega), if_pos hj]
    generalize setRegF s (ptpDstat d) 30 2 st = y at h1 h2 h3
    have hp := sourceOnly_pulse y (936 + d)
    have hreg := hp.regs (ptpDstat d) ((ptpDstat_ne d hd).2 _ (by omega))
    refine ⟨by rw [hp.rest, h1.1], fun a ha hn => (hp.regs a hn).trans (h1.2 a (by simpa using ha)), ?_, fun j hj => ?_⟩
    · unfold ptpState
      unfold regF at h2 ⊢
      rw [hreg]
      exact h2
    · rw [← h3 j hj]
      unfold regB
      rw [hreg]

/-- What leaving SYNCED leaves. -/
structure SyncLeft (s t : State) (d : Nat) : Prop where
  state : ptpState s d = 2 → ptpState t d = 1
  clocks : ptpState s d = 2 → ∀ k < 4, mcOn s k = true → mcSrc s k = d + 1 → mcState s k = 1 ∨ mcState s k = 2 → mcState t k = 3
  other : ptpState s d ≠ 2 → t = { s with net := t.net }

theorem ptpState_congr (h : reg t (ptpDstat d) = reg s (ptpDstat d)) : ptpState t d = ptpState s d := by unfold ptpState regF; rw [h]
theorem syncLeft_of_steps {k2 : State} (hd : d < 2) (hx : ∀ a, reg x a = reg s a) (hy : PtpStateSet x y d 1) (ht : RefsLostOnly y k2 ∧
    ∀ k < 4, mcOn y k = true → mcSrc y k = d + 1 → mcState y k = 1 ∨ mcState y k = 2 → mcState k2 k = 3) :
    ptpState k2 d = 1 ∧ ∀ k < 4, mcOn s k = true → mcSrc s k = d + 1 → mcState s k = 1 ∨ mcState s k = 2 → mcState k2 k = 3 := by
  obtain ⟨n1, n2⟩ := ptpDstat_ne d hd
  refine ⟨(ptpState_congr (ht.1.regs _ n1 n2)).trans hy.state, fun k hk hon hsrc hst => ?_⟩
  have hctl : reg y (mcCtl k) = reg s (mcCtl k) :=
    (hy.regs _ (by unfold mcCtl clkBase ptpDstat ptpBase; omega) (mcCtl_ne_icScnt _ _)).trans (hx _)
  have hstat : reg y (mcStat k) = reg s (mcStat k) :=
    (hy.regs _ (by unfold mcStat clkBase ptpDstat ptpBase; omega) (mcStat_ne_icScnt _ _)).trans (hx _)
  exact ht.2 k hk ((mcOn_congr hctl).trans hon) ((mcSrc_congr hctl).trans hsrc) (by rw [mcState_congr hstat]; exact hst)
theorem syncLeft_leaveSync (s : State) (hd : d < 2) : SyncLeft s (leaveSync s d) d := by
  unfold leaveSync
  extract_lets p x
  have hx : ∀ a, reg x a = reg s a := reg_setPtp s d _
  have hxn : x = { s with net := x.net } := rfl
  clear_value x
  have hst : ptpState x d = ptpState s d := ptpState_congr (hx _)
  rw [hst]
  split
  next h =>
    obtain ⟨g1, g2⟩ := syncLeft_of_steps hd hx (setPtpState_spec x hd (by decide)) (ptpRefLost_spec (setPtpState x d 1) d)
    exact ⟨fun _ => g1, fun _ => g2, fun h' => absurd h h'⟩
  next h => exact ⟨fun h' => absurd h' h, fun h' => absurd h' h, fun _ => hxn⟩
/-- The domain knows of no grandmaster. -/
def gmForgotten (t : State) (d : Nat) : State := setPtp t d { ptpOf t d with gm := 0, gmPrio := 0 }
theorem gmForgotten_spec (t : State) (d : Nat) : (ptpOf (gmForgotten t d) d).gm = 0 ∧ (∀ a, reg (gmForgotten t d) a = reg t a) ∧ gmForgotten t d = { t with net := (gmForgotten t d).net } := by
  unfold gmForgotten
  exact ⟨by rw [ptpOf_setPtp], reg_setPtp t d _, rfl⟩
theorem syncReceiptTimeout_forgets (hd : d < 2) (hon : ptpOn s d = true) (hgm : ptpIsGm s d = false) (h0 : (ptpOf s d).gm ≠ 0) (hlate : (ptpOf s d).lastSync + 3 * logNs (ptpOf s d).syncInterval ≤ s.now) :
    ∃ t, exec (.syncReceiptTimeout d) s = .next t ∧ (ptpOf t d).gm = 0 ∧ (ptpState s d = 2 → ptpState t d = 1 ∧
      ∀ k, k < 4 → mcOn s k = true → mcSrc s k = d + 1 → mcState s k = 1 ∨ mcState s k = 2 → mcState t k = 3) ∧
      (ptpState s d ≠ 2 → t = { s with net := t.net }) := by
  have hexec : exec (.syncReceiptTimeout d) s = .next (syncLostOp s d) := act_wf (decide_eq_true (by omega))
  have hop : syncLostOp s d = gmForgotten (leaveSync s d) d := by
    unfold syncLostOp
    exact if_pos (by rw [hon, hgm, decide_eq_true h0, decide_eq_true hlate]; rfl)
  rw [hop] at hexec
  obtain ⟨l1, l2, l3⟩ := syncLeft_leaveSync s hd
  generalize leaveSync s d = y at hexec l1 l2 l3
  obtain ⟨g1, g2, g3⟩ := gmForgotten_spec y d
  generalize gmForgotten y d = t at hexec g1 g2 g3
  refine ⟨t, hexec, g1, fun h => ⟨(ptpState_congr (g2 _)).trans (l1 h), fun k hk hon hsrc hst => (mcState_congr (g2 _)).trans (l2 h k hk hon hsrc hst)⟩, fun h => ?_⟩
  have hy := l3 h
  exact g3.trans (congrArg (fun z : State => { z with net := t.net }) hy)

/-! ### Announce, Sync and path delay (R395) -/

/-- Between the states only the gPTP instances, their status and its sources have changed. -/
structure PtpOnly (d : Nat) (s t : State) : Prop where
  rest : t = { s with regs := t.regs, intc := t.intc, net := { s.net with ptp := t.net.ptp } }
  regs : ∀ a, a ≠ ptpDstat d → a ≠ icScnt (936 + d) → reg t a = reg s a

theorem PtpOnly.trans (h : PtpOnly d s t) (h' : PtpOnly d t u) : PtpOnly d s u :=
  ⟨by rw [h'.rest, h.rest], fun a h1 h2 => (h'.regs a h1 h2).trans (h.regs a h1 h2)⟩
theorem ptpOnly_setPtp (s : State) (d : Nat) (p : Ptp) : PtpOnly d s (setPtp s d p) := ⟨rfl, fun a _ _ => reg_setPtp s d p a⟩
theorem PtpOnly.queueAt (h : PtpOnly d s t) (e q : Nat) : queueAt t e q = queueAt s e q := by unfold Machine.queueAt; rw [h.rest]
theorem PtpOnly.link (h : PtpOnly d s t) (hd : d < 2) (e : Nat) : ethLink t e = ethLink s e :=
  ethLink_congr (h.regs _ (by unfold ethStat ethBase ptpDstat ptpBase; omega) (ethStat_ne_icScnt e (by omega)))
/-- The settings of a gPTP domain, and the addresses of its port. -/
structure SameInstance (d : Nat) (s t : State) : Prop where
  port : ptpPort t d = ptpPort s d
  num : ptpNum t d = ptpNum s d
  prio1 : ownPrio1 t d = ownPrio1 s d
  prio2 : ownPrio2 t d = ownPrio2 s d
  clock : clockId t d = clockId s d

theorem sameInstance_of_regs (h : ∀ a, a ≠ ptpDstat d → (∀ n < 2048, a ≠ icScnt n) → (∀ e k, 6 ≤ k → k ≤ 8 → a ≠ ethCnt e k) → reg t a = reg s a) (hd : d < 2) : SameInstance d s t := by
  have hctl (j : Nat) (hj : j < 2) : reg t (ptpDctl j) = reg s (ptpDctl j) :=
    h _ (by unfold ptpDctl ptpDstat ptpBase; omega) (fun n hn => by unfold ptpDctl ptpBase icScnt icBase; omega) fun e k _ _ => by unfold ptpDctl ptpBase ethCnt ethBase; omega
  have hmac (e o : Nat) (ho : o = 4 ∨ o = 6) : reg t (ethBase e + o) = reg s (ethBase e + o) :=
    h _ (by unfold ethBase ptpDstat ptpBase; omega) (fun n hn => by unfold ethBase icScnt icBase; omega) fun e' k hk hk' => by unfold ethCnt ethBase; omega
  have hport : ptpPort t d = ptpPort s d := by unfold ptpPort regF; rw [hctl d hd]
  refine ⟨hport, ?_, ?_, ?_, ?_⟩
  · unfold ptpNum regF; rw [hctl 1 (by decide)]
  · unfold ownPrio1 gmCap regF regB; rw [hctl d hd]
  · unfold ownPrio2 regF; rw [hctl d hd]
  · unfold clockId portMacOf
    rw [hport, hmac _ 4 (.inl rfl), hmac _ 6 (.inr rfl)]
theorem PtpOnly.sameInstance (h : PtpOnly d s t) (hd : d < 2) : SameInstance d s t :=
  sameInstance_of_regs (fun a h1 h2 _ => h.regs a h1 (h2 _ (by omega))) hd

theorem SameInstance.trans (h : SameInstance d s t) (h' : SameInstance d t u) : SameInstance d s u :=
  ⟨h'.port.trans h.port, h'.num.trans h.num, h'.prio1.trans h.prio1, h'.prio2.trans h.prio2, h'.clock.trans h.clock⟩

/-- What a message of a domain leaves. -/
structure PtpMessage (s t : State) (d n : Nat) (m : PtpBody) : Prop where
  same : SameInstance d s t
  ptp : t.net.ptp = s.net.ptp
  status : reg t (ptpDstat d) = reg s (ptpDstat d)
  link : ∀ e, ethLink t e = ethLink s e
  queue : ethLink s (ptpPort s d) = true → (queueAt s (ptpPort s d) 7).length < 32 →
    queueAt t (ptpPort s d) 7 = queueAt s (ptpPort s d) 7 ++ [{ length := plainBytes n, what := .ptp (ptpNum s d) m, payload := [] }]

theorem ptpMessage_sendPtp (s : State) (hd : d < 2) (n : Nat) (m : PtpBody) : PtpMessage s (sendPtp s d n m) d n m := by
  unfold sendPtp sendPlain
  have hp := ptpPort_lt s d
  have h := queuesOnly_txEnqueue s (ptpPort s d) 7 { length := plainBytes n, what := .ptp (ptpNum s d) m, payload := [] }
  have hq := queueAt_txEnqueue (s := s) (e := ptpPort s d) (k := 7) (f := { length := plainBytes n, what := .ptp (ptpNum s d) m, payload := [] })
  generalize txEnqueue s (ptpPort s d) 7 { length := plainBytes n, what := .ptp (ptpNum s d) m, payload := [] } = t at h hq
  refine ⟨sameInstance_of_regs (fun a _ h2 h3 => h.regs a (fun k hk hk' => h3 _ k hk hk') (h2 _ (by omega))) hd, by rw [h.rest], ?_, fun e => ethLink_congr ?_, hq⟩
  · exact h.regs _ (fun k _ _ => by unfold ptpDstat ptpBase ethCnt ethBase; omega) ((ptpDstat_ne d hd).2 _ (by omega))
  · exact h.regs _ (fun k _ _ => by unfold ethStat ethCnt ethBase; omega) (ethStat_ne_icScnt e (by omega))

theorem ptpOnly_of_regs (h : t = { s with regs := t.regs, intc := t.intc }) (hregs : ∀ a, a ≠ ptpDstat d → a ≠ icScnt (936 + d) → reg t a = reg s a) : PtpOnly d s t := by
  have hnet : t.net = s.net := by rw [h]
  refine ⟨?_, hregs⟩
  rw [hnet]
  exact h
theorem ptpOf_congr (h : t.net.ptp = s.net.ptp) : ptpOf t d = ptpOf s d := by unfold ptpOf; rw [h]
/-- A domain whose device is grandmaster. -/
def gmPtp (s : State) (d : Nat) : Ptp := { ptpOf s d with gm := clockId s d, gmPrio := ownVec s d, goodSince := none }
theorem gmPtp_gm (s : State) (d : Nat) : (gmPtp s d).gm = clockId s d := rfl
theorem gmTaken_spec (s : State) (d : Nat) (p : Ptp) : PtpOnly d s (setRegB (setPtp s d p) (ptpDstat d) 29 true) ∧ ptpIsGm (setRegB (setPtp s d p) (ptpDstat d) 29 true) d = true ∧
    ptpOf (setRegB (setPtp s d p) (ptpDstat d) 29 true) d = p := by
  have h1 := ptpOnly_setPtp s d p
  have h2 := ptpOf_setPtp s d p
  generalize setPtp s d p = x at h1 h2
  have h3 := onlyRegs_setRegB x (ptpDstat d) 29 true
  have h4 := regB_setRegB_same x (ptpDstat d) 29 true (by decide)
  generalize setRegB x (ptpDstat d) 29 true = y at h3 h4
  have h5 : ptpOf y d = ptpOf x d := ptpOf_congr (by rw [h3.1])
  exact ⟨h1.trans (ptpOnly_of_regs (by rw [h3.1]) fun a ha _ => h3.2 a (by simpa using ha)), h4, h5.trans h2⟩
theorem becomeGm_eq (s : State) (d : Nat) : becomeGm s d = setPtpState (setRegB (setPtp s d (gmPtp s d)) (ptpDstat d) 29 true) d 2 := rfl
theorem becomeGm_spec (s : State) (hd : d < 2) : PtpOnly d s (becomeGm s d) ∧ ptpIsGm (becomeGm s d) d = true ∧ (ptpOf (becomeGm s d) d).gm = clockId s d ∧ ptpState (becomeGm s d) d = 2 := by
  rw [becomeGm_eq]
  obtain ⟨g1, g2, g3⟩ := gmTaken_spec s d (gmPtp s d)
  generalize setRegB (setPtp s d (gmPtp s d)) (ptpDstat d) 29 true = x at g1 g2 g3
  have h := setPtpState_spec x hd (st := 2) (by decide)
  generalize setPtpState x d 2 = y at h
  have hr := h.rest
  have hp : ptpOf y d = ptpOf x d := ptpOf_congr (by rw [hr])
  exact ⟨g1.trans (ptpOnly_of_regs hr h.regs), (h.low 29 (by decide)).trans g2, by rw [hp, g3, gmPtp_gm], h.state⟩
/-- The transmission of a Sync is noted. -/
def syncNoted (x : State) (d : Nat) : State := setPtp x d { ptpOf x d with lastTx := x.now + 1 }
theorem syncNoted_spec (x : State) (d : Nat) : PtpOnly d x (syncNoted x d) ∧ (∀ a, reg (syncNoted x d) a = reg x a) ∧ (ptpOf (syncNoted x d) d).lastTx = x.now + 1 ∧
    (ptpOf (syncNoted x d) d).gm = (ptpOf x d).gm := by
  have h := ptpOf_setPtp x d { ptpOf x d with lastTx := x.now + 1 }
  exact ⟨ptpOnly_setPtp .., fun a => reg_setPtp .., (congrArg Ptp.lastTx h).trans rfl, (congrArg Ptp.gm h).trans rfl⟩
/-- The device as grandmaster, its transmission noted. -/
def gmSends (s : State) (d : Nat) : State := syncNoted (if ptpIsGm s d then s else becomeGm s d) d
theorem ptpIsGm_congr (h : reg t (ptpDstat d) = reg s (ptpDstat d)) : ptpIsGm t d = ptpIsGm s d := by unfold ptpIsGm regB; rw [h]
theorem gmSends_spec (s : State) (hd : d < 2) : PtpOnly d s (gmSends s d) ∧ ptpIsGm (gmSends s d) d = true ∧ (ptpOf (gmSends s d) d).lastTx = s.now + 1 ∧
    (ptpIsGm s d = false → ptpState (gmSends s d) d = 2 ∧ (ptpOf (gmSends s d) d).gm = clockId s d) := by
  unfold gmSends
  cases hg : ptpIsGm s d with
  | true =>
    rw [if_pos rfl]
    obtain ⟨h1, h2, h3, -⟩ := syncNoted_spec s d
    exact ⟨h1, (ptpIsGm_congr (h2 _)).trans hg, h3, fun h => absurd h (by decide)⟩
  | false =>
    rw [if_neg (by decide)]
    obtain ⟨b1, b2, b3, b4⟩ := becomeGm_spec s hd
    generalize becomeGm s d = x at b1 b2 b3 b4
    obtain ⟨h1, h2, h3, h4⟩ := syncNoted_spec x d
    have hn : x.now = s.now := by rw [b1.rest]
    exact ⟨b1.trans h1, (ptpIsGm_congr (h2 _)).trans b2, by rw [h3, hn], fun _ => ⟨(ptpState_congr (h2 _)).trans b4, h4.trans b3⟩⟩
theorem syncSendOp_eq (hon : ptpOn s d = true) (hcap : gmCap s d = true) (hgm : (ptpOf s d).gm = 0 ∨ ptpIsGm s d = true)
    (htx : (ptpOf s d).lastTx = 0 ∨ (ptpOf s d).lastTx + logNs (ptpOf s d).syncInterval ≤ s.now + 1) (hx : gmSends s d = x) :
    syncSendOp s d = sendPtp (sendPtp x d 76 (.announce (ownPrio1 x d) 248 0xFE 0x4100 (ownPrio2 x d) (clockId x d))) d 44 (.sync true 0) := by
  unfold syncSendOp
  have h1 : (decide ((ptpOf s d).gm ≠ 0) && !(ptpIsGm s d)) = false := by
    rcases hgm with h | h <;> rw [h]
    · rfl
    · exact Bool.and_false _
  have h2 : (decide ((ptpOf s d).lastTx ≠ 0) && decide (s.now + 1 < (ptpOf s d).lastTx + logNs (ptpOf s d).syncInterval)) = false := by
    rcases htx with h | h
    · rw [h]; rfl
    · rw [decide_eq_false (Nat.not_lt.mpr h), Bool.and_false]
  dsimp only
  rw [hon, hcap, h1, h2, if_neg (by decide), ← hx]
  rfl
theorem syncTransmit_sends (hd : d < 2) (hon : ptpOn s d = true) (hcap : gmCap s d = true) (hgm : (ptpOf s d).gm = 0 ∨ ptpIsGm s d = true)
    (htx : (ptpOf s d).lastTx = 0 ∨ (ptpOf s d).lastTx + logNs (ptpOf s d).syncInterval ≤ s.now + 1) :
    ∃ t, exec (.syncTransmit d) s = .next t ∧ ptpIsGm t d = true ∧ (ptpOf t d).lastTx = s.now + 1 ∧ (ptpIsGm s d = false → ptpState t d = 2 ∧ (ptpOf t d).gm = clockId s d) ∧
      (ethLink s (ptpPort s d) = true → (queueAt s (ptpPort s d) 7).length < 31 → queueAt t (ptpPort s d) 7 = queueAt s (ptpPort s d) 7 ++
        [{ length := plainBytes 76, what := .ptp (ptpNum s d) (.announce (ownPrio1 s d) 248 0xFE 0x4100 (ownPrio2 s d) (clockId s d)), payload := [] },
         { length := plainBytes 44, what := .ptp (ptpNum s d) (.sync true 0), payload := [] }]) := by
  have hexec : exec (.syncTransmit d) s = .next (syncSendOp s d) := act_wf (decide_eq_true (by omega))
  rw [syncSendOp_eq hon hcap hgm htx rfl] at hexec
  obtain ⟨x1, x2, x3, x4⟩ := gmSends_spec s hd
  generalize gmSends s d = x at hexec x1 x2 x3 x4
  obtain ⟨i1, i2, i3, i4, i5⟩ := x1.sameInstance hd
  rw [i3, i4, i5] at hexec
  have y := ptpMessage_sendPtp x hd 76 (.announce (ownPrio1 s d) 248 0xFE 0x4100 (ownPrio2 s d) (clockId s d))
  generalize sendPtp x d 76 (.announce (ownPrio1 s d) 248 0xFE 0x4100 (ownPrio2 s d) (clockId s d)) = z at hexec y
  have w := ptpMessage_sendPtp z hd 44 (.sync true 0)
  generalize sendPtp z d 44 (.sync true 0) = t at hexec w
  have hstat : reg t (ptpDstat d) = reg x (ptpDstat d) := w.status.trans y.status
  have hptp : ptpOf t d = ptpOf x d := ptpOf_congr (w.ptp.trans y.ptp)
  refine ⟨t, hexec, (ptpIsGm_congr hstat).trans x2, by rw [hptp]; exact x3, fun h => ⟨(ptpState_congr hstat).trans (x4 h).1, by rw [hptp]; exact (x4 h).2⟩, fun hl hq => ?_⟩
  have hqy := y.queue
  have hqw := w.queue
  rw [i1, i2, x1.link hd, x1.queueAt] at hqy
  rw [y.same.port, y.same.num, i1, i2, y.link, x1.link hd] at hqw
  have hz := hqy hl (by omega)
  rw [hqw hl (by rw [hz, List.length_append]; exact Nat.add_lt_add_right hq 1), hz, List.append_assoc]
  rfl
/-- A path delay request is noted. -/
def pdelayNoted (s : State) (d : Nat) : State := setPtp s d { ptpOf s d with reqSeq := (ptpOf s d).reqSeq + 1, respTime := 0, lastPdelay := s.now + 1 }
theorem pdelayRequest_sends (hd : d < 2) (hon : ptpOn s d = true) (hdue : (ptpOf s d).lastPdelay = 0 ∨ (ptpOf s d).lastPdelay + logNs (ptpOf s d).pdelayInterval ≤ s.now + 1) :
    ∃ t, exec (.pdelayRequest d) s = .next t ∧ (ptpOf t d).reqSeq = (ptpOf s d).reqSeq + 1 ∧ (ptpOf t d).lastPdelay = s.now + 1 ∧
      (ethLink s (ptpPort s d) = true → (queueAt s (ptpPort s d) 7).length < 32 → queueAt t (ptpPort s d) 7 = queueAt s (ptpPort s d) 7 ++
        [{ length := plainBytes 54, what := .ptp (ptpNum s d) (.pdelayReq (((ptpOf s d).reqSeq + 1) % 65536)), payload := [] }]) := by
  have hexec : exec (.pdelayRequest d) s = .next (pdelayOp s d) := act_wf (decide_eq_true (by omega))
  have hop : pdelayOp s d = sendPtp (pdelayNoted s d) d 54 (.pdelayReq (((ptpOf s d).reqSeq + 1) % 65536)) := by
    have h2 : (decide ((ptpOf s d).lastPdelay ≠ 0) && decide (s.now + 1 < (ptpOf s d).lastPdelay + logNs (ptpOf s d).pdelayInterval)) = false := by
      rcases hdue with h | h
      · rw [h]; rfl
      · rw [decide_eq_false (Nat.not_lt.mpr h), Bool.and_false]
    unfold pdelayOp
    dsimp only
    rw [hon, h2, if_neg (by decide)]
    rfl
  rw [hop] at hexec
  have x1 : PtpOnly d s (pdelayNoted s d) := ptpOnly_setPtp ..
  have x2 : ptpOf (pdelayNoted s d) d = { ptpOf s d with reqSeq := (ptpOf s d).reqSeq + 1, respTime := 0, lastPdelay := s.now + 1 } := ptpOf_setPtp ..
  generalize pdelayNoted s d = x at hexec x1 x2
  obtain ⟨i1, i2, -, -, -⟩ := x1.sameInstance hd
  have y := ptpMessage_sendPtp x hd 54 (.pdelayReq (((ptpOf s d).reqSeq + 1) % 65536))
  generalize sendPtp x d 54 (.pdelayReq (((ptpOf s d).reqSeq + 1) % 65536)) = t at hexec y
  have hptp : ptpOf t d = ptpOf x d := ptpOf_congr y.ptp
  have hq := y.queue
  rw [i1, i2, x1.link hd, x1.queueAt] at hq
  exact ⟨t, hexec, by rw [hptp, x2], by rw [hptp, x2], hq⟩
theorem timeIsKept : Clause.TimeIsKept := fun _ _ hd hon =>
  ⟨fun hgm h0 hlate => syncReceiptTimeout_forgets hd hon hgm h0 hlate, fun hcap hgm htx => syncTransmit_sends hd hon hcap hgm htx, fun hdue => pdelayRequest_sends hd hon hdue⟩

/-- Settles O51: the gate lists, and the messages of gPTP. -/
theorem gatesAndTime : Obligations.GatesAndTime := ⟨gatesFollowTheirList, timeIsKept⟩

end Sys2Proof.Machine
end

section
/-! An access by a device, said once: what it leaves of everything but the memories (R55, R284, R296). -/
namespace Sys2Proof.Machine

variable {R : State → State → Prop} {s t u : State}

theorem AccessClosed.devAccess (hR : AccessClosed R) (s : State) (m : Nat) (k : AccKind) (a n data : Nat) : R s (devAccess s m k a n data).st := by
  unfold Machine.devAccess
  split
  · exact hR.regionRefuse ..
  · split
    · extract_lets bar
      split
      · exact hR.refl s
      · split
        · exact hR.regionRefuse ..
        · split
          · exact hR.epochRefuse ..
          · split
            · exact hR.dramRefused ..
            · exact hR.turnAccess ..
    · exact hR.refl s
    · exact hR.refl s
    · split
      · exact hR.epochRefuse ..
      · split <;> exact hR.refl s

/-- An access of the memories: of the registers only those of the memories, and the interrupt sources, differ. -/
structure MemoryAccess (s t : State) : Prop where
  served : Served s t
  regs : ∀ a, a / 0x10000 ≠ 0x408 → a / 0x10000 ≠ 0x409 → (∀ n < 2048, a ≠ icScnt n) → reg t a = reg s a

theorem MemoryAccess.trans (h : MemoryAccess s t) (g : MemoryAccess t u) : MemoryAccess s u :=
  ⟨h.served.trans g.served, fun a h1 h2 h3 => (g.regs a h1 h2 h3).trans (h.regs a h1 h2 h3)⟩
theorem memoryAccess_of_regs (h : Served s t) (hr : t.regs = s.regs) (hv : t.variant = s.variant) : MemoryAccess s t := ⟨h, fun a _ _ _ => reg_congr hr hv a⟩
theorem accessClosed_memoryAccess : AccessClosed MemoryAccess where
  refl s := memoryAccess_of_regs (.refl s) rfl rfl
  trans := .trans
  mem _ _ := memoryAccess_of_regs (.of_coaches rfl) rfl rfl
  reg s a v ha := ⟨.of_coaches rfl, fun b h1 h2 _ => by rw [reg_setReg, if_neg (by rintro rfl; omega)]⟩
  pulse s n hn := ⟨(sourceOnly_pulse s n).served, fun a _ _ h => (sourceOnly_pulse s n).regs a (h n hn)⟩
  access s m l h := memoryAccess_of_regs (served_setCo s m l h) rfl rfl

theorem memoryAccess_engWrite (s : State) (m a n data : Nat) : MemoryAccess s (engWrite s m a n data) := accessClosed_memoryAccess.devAccess ..
theorem MemoryAccess.net (h : MemoryAccess s t) : t.net = s.net := by rw [h.served.rest]
theorem MemoryAccess.now (h : MemoryAccess s t) : t.now = s.now := by rw [h.served.rest]
theorem MemoryAccess.link (h : MemoryAccess s t) (e : Nat) : ethLink t e = ethLink s e := by
  refine ethLink_congr (h.regs _ ?_ ?_ fun n hn => ethStat_ne_icScnt e hn) <;> unfold ethStat ethBase <;> omega

end Sys2Proof.Machine
end

section
/-! Listeners take their partner's packets (R403 to R413). -/
namespace Sys2Proof.Machine
open Sys2Proof.Config

variable {s t u : State} {e x k : Nat} {f : EthFrame} {p : CrfPacket} {q : AafPacket} {src : Partner} {c : Ctx}

/-! ### Contexts -/

theorem ctxOf_setCtx (s : State) (x : Nat) (c : Ctx) : ctxOf (setCtx s x c) x = c := tget_tput_same ctx0 s.net.ctx x c
theorem ctxCnt_ctxCount (s : State) (x k : Nat) : tget 0 (ctxCount s x k).net.ctxCnt (16 * x + k) = tget 0 s.net.ctxCnt (16 * x + k) + 1 := tget_tput_same 0 s.net.ctxCnt _ _
theorem ctxOf_congr (h : t.net.ctx = s.net.ctx) (x : Nat) : ctxOf t x = ctxOf s x := by unfold ctxOf; rw [h]
theorem ctxOf_ctxCount (s : State) (x k : Nat) : ctxOf (ctxCount s x k) x = ctxOf s x := rfl

/-- Between the states only the state and the counts of contexts differ. -/
structure CtxOnly (s t : State) : Prop where
  rest : t = { s with net := { s.net with ctx := t.net.ctx, ctxCnt := t.net.ctxCnt } }

theorem CtxOnly.trans (h : CtxOnly s t) (h' : CtxOnly t u) : CtxOnly s u := ⟨by rw [h'.rest, h.rest]⟩
theorem ctxOnly_setCtx (s : State) (x : Nat) (c : Ctx) : CtxOnly s (setCtx s x c) := ⟨rfl⟩
theorem ctxOnly_ctxCount (s : State) (x k : Nat) : CtxOnly s (ctxCount s x k) := ⟨rfl⟩
theorem CtxOnly.desc (h : CtxOnly s t) : t.net.desc = s.net.desc := by rw [h.rest]
theorem CtxOnly.now (h : CtxOnly s t) : t.now = s.now := by rw [h.rest]
theorem CtxOnly.mem (h : CtxOnly s t) : t.mem = s.mem := by rw [h.rest]
theorem CtxOnly.reg_eq (h : CtxOnly s t) (a : Nat) : reg t a = reg s a := by
  rw [h.rest]
  exact reg_congr rfl rfl a

/-! ### Descriptors -/

/-- The descriptors are alike in both states. -/
def SameDesc (s t : State) : Prop := t.net.desc = s.net.desc

theorem SameDesc.trans (h : SameDesc s t) (h' : SameDesc t u) : SameDesc s u := Eq.trans h' h
theorem CtxOnly.sameDesc (h : CtxOnly s t) : SameDesc s t := h.desc
theorem sameDesc_ethCount (s : State) (e k : Nat) : SameDesc s (ethCount s e k) := rfl
theorem SameDesc.ctxW (h : SameDesc s t) (x w : Nat) : ctxW t x w = ctxW s x w := by unfold Machine.ctxW; rw [h]
theorem SameDesc.ctxF (h : SameDesc s t) (x w lo n : Nat) : ctxF t x w lo n = ctxF s x w lo n := by unfold Machine.ctxF; rw [h.ctxW]
theorem SameDesc.ctxProto (h : SameDesc s t) (x : Nat) : ctxProto t x = ctxProto s x := h.ctxF ..
theorem SameDesc.ctxPort (h : SameDesc s t) (x : Nat) : ctxPort t x = ctxPort s x := h.ctxF ..
theorem SameDesc.ctxDom (h : SameDesc s t) (x : Nat) : ctxDom t x = ctxDom s x := h.ctxF ..
theorem SameDesc.ctxFmt (h : SameDesc s t) (x : Nat) : ctxFmt t x = ctxFmt s x := h.ctxF ..
theorem SameDesc.ctxPoff (h : SameDesc s t) (x : Nat) : ctxPoff t x = ctxPoff s x := h.ctxF ..
theorem SameDesc.ctxHz (h : SameDesc s t) (x : Nat) : ctxHz t x = ctxHz s x := by unfold Machine.ctxHz; rw [h.ctxF]
theorem SameDesc.ctxSpp (h : SameDesc s t) (x : Nat) : ctxSpp t x = ctxSpp s x := by unfold Machine.ctxSpp; rw [h.ctxF]
theorem SameDesc.ctxNch (h : SameDesc s t) (x : Nat) : ctxNch t x = ctxNch s x := by unfold Machine.ctxNch; rw [h.ctxF]
theorem SameDesc.ctxBytes (h : SameDesc s t) (x : Nat) : ctxBytes t x = ctxBytes s x := by unfold Machine.ctxBytes; rw [h.ctxSpp, h.ctxNch, h.ctxFmt]
theorem SameDesc.ctxFilt (h : SameDesc s t) (x : Nat) : ctxFilt t x = ctxFilt s x := by unfold Machine.ctxFilt; rw [h.ctxW]
theorem SameDesc.ctxMac (h : SameDesc s t) (x : Nat) : ctxMac t x = ctxMac s x := by unfold Machine.ctxMac; rw [h.ctxW, h.ctxF]
theorem SameDesc.avtpCtx (h : SameDesc s t) (e vid id : Nat) : avtpCtx t e vid id = avtpCtx s e vid id := by
  unfold Machine.avtpCtx enListeners enCtxs ctxEn ctxId ctxVid
  simp only [h.ctxProto, h.ctxPort, h.ctxW, h.ctxF]
  rw [show t.net.desc = s.net.desc from h]

/-! ### A packet at its listener (R410, R413) -/

/-- What the count of the sequence number leaves of a context. -/
structure GapCounted (s t : State) (x : Nat) : Prop where
  only : CtxOnly s t
  ctx : ∃ l, ctxOf t x = { ctxOf s x with lastSeq := l }
  counts : ∀ j < 8, tget 0 t.net.ctxCnt (16 * x + j) = tget 0 s.net.ctxCnt (16 * x + j)

theorem gapCounted_setCtx (s : State) (x : Nat) (l : Option Nat) : GapCounted s (setCtx s x { ctxOf s x with lastSeq := l }) x :=
  ⟨ctxOnly_setCtx .., ⟨l, ctxOf_setCtx ..⟩, fun _ _ => rfl⟩
theorem gapCounted_ctxCountN (h : GapCounted s t x) (n : Nat) : GapCounted s (ctxCountN t x 8 n) x := by
  obtain ⟨l, hl⟩ := h.ctx
  refine ⟨h.only.trans ⟨rfl⟩, ⟨l, hl⟩, fun j hj => ?_⟩
  exact (tget_tput_other 0 t.net.ctxCnt _ (by omega)).trans (h.counts j hj)
theorem gapCounted_seqGap (s : State) (x mod seq : Nat) : GapCounted s (seqGap s x mod seq) x := by
  unfold seqGap
  extract_lets c
  split
  · exact gapCounted_setCtx ..
  · extract_lets d
    split
    · exact ⟨⟨rfl⟩, ⟨c.lastSeq, rfl⟩, fun _ _ => rfl⟩
    · exact gapCounted_ctxCountN (gapCounted_setCtx ..) _
/-- What a packet accepted without a place leaves. -/
theorem acceptPacket_none (s : State) (x : Nat) : ctxOf (acceptPacket s x none) x = { ctxOf s x with lastArrival := s.now } ∧ CtxOnly s (acceptPacket s x none) ∧
    tget 0 (acceptPacket s x none).net.ctxCnt (16 * x + 0) = tget 0 s.net.ctxCnt (16 * x + 0) + 1 := by
  have heq : acceptPacket s x none = ctxCount (setCtx s x { ctxOf s x with lastArrival := s.now }) x 0 := rfl
  rw [heq]
  have h1 := ctxOf_setCtx s x { ctxOf s x with lastArrival := s.now }
  have h2 := ctxOnly_setCtx s x { ctxOf s x with lastArrival := s.now }
  have h3 : (setCtx s x { ctxOf s x with lastArrival := s.now }).net.ctxCnt = s.net.ctxCnt := rfl
  generalize setCtx s x { ctxOf s x with lastArrival := s.now } = y at h1 h2 h3
  exact ⟨h1, h2.trans (ctxOnly_ctxCount ..), by rw [ctxCnt_ctxCount, h3]⟩
theorem listen_bound {mod seq : Nat} {arr : Int} {named : Bool} (h1 : (ctxOf s x).state = 2) (h2 : (ctxOf s x).partner = some src) :
    listen s x src named mod seq arr none = acceptPacket (seqGap s x mod seq) x none := by
  unfold listen
  dsimp only
  rw [if_neg (not_not.mpr h1), if_pos h2]
theorem listen_other {mod seq : Nat} {arr : Int} {named : Bool} {place : Option Place} (h1 : (ctxOf s x).state = 2) (h2 : (ctxOf s x).partner ≠ some src) :
    listen s x src named mod seq arr place = ctxCount s x (if (ctxOf s x).prev = some src then 7 else 6) := by
  unfold listen
  dsimp only
  rw [if_neg (not_not.mpr h1), if_neg h2]
  split <;> rfl
theorem listen_waiting {mod seq : Nat} {arr : Int} {named : Bool} {place : Option Place} (h1 : (ctxOf s x).state ≠ 2) (h2 : ctxFilt s x = false ∨ named = true) :
    listen s x src named mod seq arr place = acceptPacket (seqGap (bindCtx s x src) x mod seq) x place := by
  unfold listen
  dsimp only
  rw [if_pos h1, if_neg (by rcases h2 with h | h <;> rw [h] <;> simp)]
theorem listen_placed {mod seq : Nat} {arr : Int} {named : Bool} {pl : Place} (h1 : (ctxOf s x).state = 2) (h2 : (ctxOf s x).partner = some src) (hu : seqGap s x mod seq = u) :
    listen s x src named mod seq arr (some pl) = match placeFault u x arr pl with | some k => ctxCount u x k | none => acceptPacket u x (some pl) := by
  unfold listen
  dsimp only
  rw [if_neg (not_not.mpr h1), if_pos h2, hu] <;> rfl

/-- A context that has bound to a partner. -/
def boundTo (c : Ctx) (src : Partner) : Ctx :=
  { c with state := 2, cepoch := if c.cepoch = 0xFFFF then 1 else c.cepoch + 1, prev := c.partner, partner := some src, ph := none, lastSeq := none }
theorem bindCtx_eq (hp : ctxProto s x = 1) (src : Partner) : bindCtx s x src = ctxPulse (ctxCount (setCtx s x (boundTo (ctxOf s x) src)) x 10) x := by
  have hc : clearValid s x = s := if_pos hp
  unfold bindCtx boundTo
  rw [hc, ite_self]
theorem bindCtx_spec (hp : ctxProto s x = 1) (src : Partner) : ctxOf (bindCtx s x src) x = boundTo (ctxOf s x) src ∧ (bindCtx s x src).now = s.now := by
  rw [bindCtx_eq hp]
  have h1 := ctxOf_setCtx s x (boundTo (ctxOf s x) src)
  have h2 := (ctxOnly_setCtx s x (boundTo (ctxOf s x) src)).now
  generalize setCtx s x (boundTo (ctxOf s x) src) = y at h1 h2
  have h3 := ctxOf_ctxCount y x 10
  have h4 := (ctxOnly_ctxCount y x 10).now
  generalize ctxCount y x 10 = z at h3 h4
  have h5 : SourceOnly (960 + x / 16) z (ctxPulse z x) := sourceOnly_pulse ..
  exact ⟨(ctxOf_congr (by rw [h5.net]) x).trans (h3.trans h1), h5.now.trans (h4.trans h2)⟩

/-! ### FRAME_RECEIVE of a stream packet -/

/-- The contexts, the descriptors, the time and the memories are alike in both states. -/
structure SameContexts (s t : State) : Prop where
  net : t.net = s.net
  now : t.now = s.now
  mem : t.mem = s.mem

theorem sameContexts_ethCount (s : State) (e k : Nat) : SameContexts s (ethCount s e k) := ⟨rfl, rfl, rfl⟩
theorem SameContexts.desc (h : SameContexts s t) : SameDesc s t := by
  unfold SameDesc
  rw [h.net]
theorem SameContexts.ctx (h : SameContexts s t) (x : Nat) : ctxOf t x = ctxOf s x := ctxOf_congr (congrArg (·.ctx) h.net) x

/-- A clock packet has the format of its context (R407). -/
def CrfRight (s : State) (x : Nat) (p : CrfPacket) : Prop :=
  p.version = 0 ∧ p.sv = true ∧ p.kind = 1 ∧ p.pull = 0 ∧ p.baseFreq = ctxHz s x ∧ p.interval = ctxSpp s x ∧ p.timestamps.length = ctxNch s x

theorem crfRight_congr (h : SameDesc s t) : CrfRight t x p ↔ CrfRight s x p := by unfold CrfRight; rw [h.ctxHz, h.ctxSpp, h.ctxNch]
theorem crfIn_wrong {a : Nat} (hp : ctxProto s x = 1) (h : ¬ CrfRight s x p) : crfIn s e x a p = ctxCount s x 5 := by
  unfold crfIn
  refine if_pos ?_
  rw [Bool.not_eq_true', ← Bool.not_eq_true]
  intro hb
  simp only [Bool.and_eq_true, decide_eq_true_eq] at hb
  obtain ⟨⟨⟨⟨⟨⟨⟨-, h1⟩, h2⟩, h3⟩, h4⟩, h5⟩, h6⟩, h7⟩ := hb
  exact h ⟨h1, h2, h3, h4, h5, h6, h7⟩
theorem crfIn_right {a : Nat} (hp : ctxProto s x = 1) (h : CrfRight s x p) :
    crfIn s e x a p = listen s x { addr := a, port := 0, ssrc := 0 } (a = ctxMac s x) 256 p.seqNum (arrivalIn s e x) none := by
  unfold crfIn
  obtain ⟨h1, h2, h3, h4, h5, h6, h7⟩ := h
  refine if_neg ?_
  simp [hp, h1, h2, h3, h4, h5, h6, h7]
theorem frameInOp_classify (hon : ethOn s e = true) (hlink : ethLink s e = true) (h1 : 64 ≤ f.length) (h2 : f.length ≤ 1518) (h3 : f.fcsOk = true) (h4 : f.pause = false)
    (h5 : f.vlanTags ≤ 1) : frameInOp s e f = classify (ethCount s e 0) e f := by
  rw [frameInOp_eq hon hlink, if_neg (by omega), if_neg (by omega), h3, if_neg (by decide), h4, if_neg (by decide), if_neg (by omega)]
theorem classify_crf (hb : f.body = .crf p) (hx : avtpCtx s e f.vid p.streamId = some x) : classify s e f = crfIn s e x f.srcMac p := by
  unfold classify
  rw [hb]
  dsimp only
  rw [hx]
theorem classify_aaf (hb : f.body = .aaf q) (hx : avtpCtx s e f.vid q.streamId = some x) : classify s e f = aafIn s e x f.srcMac q := by
  unfold classify
  rw [hb]
  dsimp only
  rw [hx]

section CrfPackets
variable (hs : SameContexts s t) (hp : ctxProto s x = 1)
include hs hp

theorem crfIn_counts_wrong {a : Nat} (h : ¬ CrfRight s x p) :
    tget 0 (crfIn t e x a p).net.ctxCnt (16 * x + 5) = tget 0 s.net.ctxCnt (16 * x + 5) + 1 ∧ ctxOf (crfIn t e x a p) x = ctxOf s x := by
  rw [crfIn_wrong ((hs.desc.ctxProto x).trans hp) (mt (crfRight_congr hs.desc).mp h), ctxCnt_ctxCount, ctxOf_ctxCount, hs.net, hs.ctx]
  exact ⟨rfl, rfl⟩
theorem crfIn_takes {a : Nat} (h : CrfRight s x p) (h2 : (ctxOf s x).state = 2) (h3 : (ctxOf s x).partner = some { addr := a, port := 0, ssrc := 0 }) :
    (ctxOf (crfIn t e x a p) x).lastArrival = s.now ∧ (ctxOf (crfIn t e x a p) x).partner = (ctxOf s x).partner ∧
      tget 0 (crfIn t e x a p).net.ctxCnt (16 * x + 0) = tget 0 s.net.ctxCnt (16 * x + 0) + 1 ∧ (crfIn t e x a p).mem = s.mem := by
  rw [crfIn_right ((hs.desc.ctxProto x).trans hp) ((crfRight_congr hs.desc).mpr h), listen_bound ((congrArg (·.state) (hs.ctx x)).trans h2) ((congrArg (·.partner) (hs.ctx x)).trans h3)]
  have hg := gapCounted_seqGap t x 256 p.seqNum
  generalize seqGap t x 256 p.seqNum = y at hg
  obtain ⟨hc, ho, hn⟩ := acceptPacket_none y x
  generalize acceptPacket y x none = z at hc ho hn
  obtain ⟨l, hl⟩ := hg.ctx
  refine ⟨?_, ?_, ?_, ho.mem.trans (hg.only.mem.trans hs.mem)⟩
  · rw [hc]
    exact hg.only.now.trans hs.now
  · rw [hc, hl, hs.ctx]
  · rw [hn, hg.counts 0 (by decide), hs.net]
theorem crfIn_other {a : Nat} (h : CrfRight s x p) (h2 : (ctxOf s x).state = 2) (h3 : (ctxOf s x).partner ≠ some { addr := a, port := 0, ssrc := 0 }) :
    let k := if (ctxOf s x).prev = some { addr := a, port := 0, ssrc := 0 } then 7 else 6
    tget 0 (crfIn t e x a p).net.ctxCnt (16 * x + k) = tget 0 s.net.ctxCnt (16 * x + k) + 1 ∧ ctxOf (crfIn t e x a p) x = ctxOf s x := by
  intro k
  rw [crfIn_right ((hs.desc.ctxProto x).trans hp) ((crfRight_congr hs.desc).mpr h), listen_other ((congrArg (·.state) (hs.ctx x)).trans h2) ((congrArg (·.partner) (hs.ctx x)).trans_ne h3), ctxOf_ctxCount,
    hs.ctx, ctxCnt_ctxCount, hs.net]
  exact ⟨rfl, rfl⟩
theorem crfIn_binds {a : Nat} (h : CrfRight s x p) (h2 : (ctxOf s x).state ≠ 2) (h3 : ctxFilt s x = false ∨ a = ctxMac s x) :
    (ctxOf (crfIn t e x a p) x).state = 2 ∧ (ctxOf (crfIn t e x a p) x).partner = some { addr := a, port := 0, ssrc := 0 } ∧ (ctxOf (crfIn t e x a p) x).prev = (ctxOf s x).partner ∧
      (ctxOf (crfIn t e x a p) x).cepoch = (if (ctxOf s x).cepoch = 0xFFFF then 1 else (ctxOf s x).cepoch + 1) ∧ (ctxOf (crfIn t e x a p) x).lastArrival = s.now := by
  have hpt := (hs.desc.ctxProto x).trans hp
  rw [crfIn_right hpt ((crfRight_congr hs.desc).mpr h), listen_waiting ((congrArg (·.state) (hs.ctx x)).trans_ne h2) (by rw [hs.desc.ctxFilt, hs.desc.ctxMac]; exact h3.imp_right decide_eq_true)]
  obtain ⟨hb, hbn⟩ := bindCtx_spec hpt { addr := a, port := 0, ssrc := 0 }
  generalize bindCtx t x { addr := a, port := 0, ssrc := 0 } = w at hb hbn
  have hg := gapCounted_seqGap w x 256 p.seqNum
  generalize seqGap w x 256 p.seqNum = y at hg
  obtain ⟨hc, -, -⟩ := acceptPacket_none y x
  generalize acceptPacket y x none = z at hc
  obtain ⟨l, hl⟩ := hg.ctx
  have hy := hg.only.now.trans (hbn.trans hs.now)
  rw [hc, hl, hb, hs.ctx]
  exact ⟨rfl, rfl, rfl, rfl, hy⟩
end CrfPackets

/-! ### A packet of samples at its place (R406, R409, R410) -/

theorem CtxOnly.arrivalIn_eq (h : CtxOnly s t) (e x : Nat) : arrivalIn t e x = arrivalIn s e x := by
  unfold arrivalIn ilat regF domTime ptpOf
  rw [h.sameDesc.ctxDom, h.reg_eq, h.rest]
theorem ctxOnly_flagCount (s : State) (x : Nat) (mr tu : Bool) : CtxOnly s (flagCount s x mr tu) := ctxOnly_setCtx ..
theorem ctxOf_flagCount (s : State) (x : Nat) (mr tu : Bool) : (ctxOf (flagCount s x mr tu) x).state = (ctxOf s x).state ∧ (ctxOf (flagCount s x mr tu) x).partner = (ctxOf s x).partner := by
  unfold flagCount
  extract_lets c
  rw [ctxOf_setCtx]
  exact ⟨rfl, rfl⟩

/-- The place of a packet of samples that arrives at `arr` (R409). -/
def aafPlace (s : State) (x : Nat) (q : AafPacket) (arr : Int) : Place :=
  let mt := (arr + sx 32 (wrapN 32 ((q.timestamp : Int) - arr)) - (ctxPoff s x * 1000 : Nat)).toNat
  { n := (2 * mt * ctxHz s x + 10 ^ 9) / (2 * 10 ^ 9), t := 256 * mt, payload := q.payload }

theorem SameDesc.aafPlace (h : SameDesc s t) (x : Nat) (q : AafPacket) (arr : Int) : aafPlace t x q arr = aafPlace s x q arr := by
  unfold Machine.aafPlace
  rw [h.ctxPoff, h.ctxHz]

/-- A packet of samples has the format of its context (R406). -/
structure AafRight (s : State) (x : Nat) (q : AafPacket) : Prop where
  proto : ctxProto s x = 0
  version : q.version = 0
  sv : q.sv = true
  tv : q.tv = true
  format : q.format = aafFormat (ctxFmt s x)
  nsr : q.nsr = 4 + ctxF s x 0 17 3
  channels : q.channels = ctxNch s x
  depth : q.bitDepth = aafDepth (ctxFmt s x)
  size : q.payload.length = ctxBytes s x

theorem AafRight.congr (h : AafRight s x q) (hd : SameDesc s t) : AafRight t x q :=
  ⟨(hd.ctxProto x).trans h.proto, h.version, h.sv, h.tv, by rw [hd.ctxFmt, h.format], by rw [hd.ctxF, h.nsr], by rw [hd.ctxNch, h.channels], by rw [hd.ctxFmt, h.depth], by rw [hd.ctxBytes, h.size]⟩
theorem aafIn_right {a : Nat} (h : AafRight s x q) : aafIn s e x a q = listen (flagCount s x q.mr q.tu) x { addr := a, port := 0, ssrc := 0 } (a = ctxMac s x) 256 q.seqNum
    (arrivalIn s e x) (some (aafPlace s x q (arrivalIn s e x))) := by
  obtain ⟨h1, h2, h3, h4, h5, h6, h7, h8, h9⟩ := h
  unfold aafIn
  have hb : (ctxProto s x = 0 && q.version = 0 && q.sv && q.tv && q.format = aafFormat (ctxFmt s x) && q.nsr = 4 + ctxF s x 0 17 3 && q.channels = ctxNch s x &&
       q.bitDepth = aafDepth (ctxFmt s x) && q.payload.length = ctxBytes s x) = true := by simp only [h1, h2, h3, h4, h5, h6, h7, h8, h9, decide_true, Bool.and_self]
  have ho := ctxOnly_flagCount s x q.mr q.tu
  dsimp only
  rw [hb, if_neg (by decide)]
  generalize flagCount s x q.mr q.tu = y at ho
  rw [← ho.arrivalIn_eq, ← ho.sameDesc.ctxMac, ← ho.sameDesc.aafPlace]
  rfl

theorem memoryAccess_upto {β : Type} {g : State → β → State} (hg : ∀ s b, MemoryAccess s (g s b)) (l : List β) (s : State) : MemoryAccess s (l.foldl g s) := by
  induction l generalizing s with
  | nil => exact accessClosed_memoryAccess.refl s
  | cons b l ih => exact (hg s b).trans (ih (g s b))
theorem memoryAccess_writeSlot (s : State) (x : Nat) (pl : Place) : MemoryAccess s (writeSlot s x pl) := by
  unfold writeSlot
  exact (memoryAccess_upto (fun t i => memoryAccess_engWrite ..) _ s).trans (memoryAccess_engWrite ..)
theorem acceptPacket_place (s : State) (x : Nat) (pl : Place) : ctxOf (acceptPacket s x (some pl)) x = { ctxOf s x with lastArrival := s.now, ph := some ((ctxOf s x).ph.getD (pl.n % ctxSpp s x)) } ∧
    tget 0 (acceptPacket s x (some pl)).net.ctxCnt (16 * x + 0) = tget 0 s.net.ctxCnt (16 * x + 0) + 1 := by
  unfold acceptPacket
  dsimp only
  have h1 := ctxOf_setCtx s x { ctxOf s x with lastArrival := s.now, ph := some ((ctxOf s x).ph.getD (pl.n % ctxSpp s x)) }
  have h3 : (setCtx s x { ctxOf s x with lastArrival := s.now, ph := some ((ctxOf s x).ph.getD (pl.n % ctxSpp s x)) }).net.ctxCnt = s.net.ctxCnt := rfl
  generalize setCtx s x { ctxOf s x with lastArrival := s.now, ph := some ((ctxOf s x).ph.getD (pl.n % ctxSpp s x)) } = y at h1 h3
  have hw := (memoryAccess_writeSlot y x pl).net
  generalize writeSlot y x pl = z at hw
  rw [ctxOf_ctxCount, ctxCnt_ctxCount, hw, h3]
  exact ⟨(ctxOf_congr (by rw [hw]) x).trans h1, rfl⟩

section AafPackets
variable {a : Nat} (h : AafRight t x q) (h2 : (ctxOf t x).state = 2) (h3 : (ctxOf t x).partner = some { addr := a, port := 0, ssrc := 0 })
  (hu : seqGap (flagCount t x q.mr q.tu) x 256 q.seqNum = u)
include h h2 h3 hu

theorem aafIn_bound : aafIn t e x a q = match placeFault u x (arrivalIn u e x) (aafPlace t x q (arrivalIn u e x)) with
    | some k => ctxCount u x k | none => acceptPacket u x (some (aafPlace t x q (arrivalIn u e x))) := by
  obtain ⟨hs, hp⟩ := ctxOf_flagCount t x q.mr q.tu
  have ho : CtxOnly t u := hu ▸ (ctxOnly_flagCount t x q.mr q.tu).trans (gapCounted_seqGap ..).only
  rw [aafIn_right h, listen_placed (hs.trans h2) (hp.trans h3) hu, ho.arrivalIn_eq]
theorem aafIn_fails (hf : placeFault u x (arrivalIn u e x) (aafPlace t x q (arrivalIn u e x)) = some k) : aafIn t e x a q = ctxCount u x k := by
  rw [aafIn_bound h h2 h3 hu, hf]
theorem aafIn_takes (hf : placeFault u x (arrivalIn u e x) (aafPlace t x q (arrivalIn u e x)) = none) :
    (ctxOf (aafIn t e x a q) x).lastArrival = t.now ∧ (ctxOf (aafIn t e x a q) x).ph = some ((ctxOf u x).ph.getD ((aafPlace t x q (arrivalIn u e x)).n % ctxSpp t x)) ∧
      tget 0 (aafIn t e x a q).net.ctxCnt (16 * x + 0) = tget 0 u.net.ctxCnt (16 * x + 0) + 1 := by
  have ho : CtxOnly t u := hu ▸ (ctxOnly_flagCount t x q.mr q.tu).trans (gapCounted_seqGap ..).only
  rw [aafIn_bound h h2 h3 hu, hf]
  dsimp only
  obtain ⟨hc, hn⟩ := acceptPacket_place u x (aafPlace t x q (arrivalIn u e x))
  generalize acceptPacket u x _ = z at hc hn
  rw [hc, ← ho.sameDesc.ctxSpp]
  exact ⟨ho.now, rfl, hn⟩
end AafPackets

theorem frameReceive_classifies (he : e < 6) (hon : ethOn s e = true) (hlink : ethLink s e = true) (h1 : 64 ≤ f.length) (h2 : f.length ≤ 1518) (h3 : f.fcsOk = true)
    (h4 : f.pause = false) (h5 : f.vlanTags ≤ 1) : exec (.frameReceive e f) s = .next (classify (ethCount s e 0) e f) := by
  have hexec : exec (.frameReceive e f) s = .next (frameInOp s e f) := act_wf (decide_eq_true he)
  rw [hexec, frameInOp_classify hon hlink h1 h2 h3 h4 h5]
theorem listenersTakeTheirPackets : Clause.ListenersTakeTheirPackets := by
  intro s e x f p q he hon hlink h1 h2 h3 h4 h5 c src
  have hexec := frameReceive_classifies he hon hlink h1 h2 h3 h4 h5
  have hs := sameContexts_ethCount s e 0
  generalize ethCount s e 0 = t at hexec hs ⊢
  refine ⟨fun hb hx hp => ?_, fun hb hx hp e1 e2 e3 e4 e5 e6 e7 e8 hc hsrc => ?_⟩
  · rw [classify_crf hb (hs.desc.avtpCtx .. ▸ hx)] at hexec
    exact ⟨fun h => ⟨_, hexec, crfIn_counts_wrong hs hp h⟩, fun h hc hsrc => ⟨_, hexec, crfIn_takes hs hp h hc hsrc⟩, fun h hc hsrc => ⟨_, hexec, crfIn_other hs hp h hc hsrc⟩,
      fun h hc hf => ⟨_, hexec, crfIn_binds hs hp h hc hf⟩⟩
  · rw [classify_aaf hb (hs.desc.avtpCtx .. ▸ hx)] at hexec
    intro u
    have hu : seqGap (flagCount t x q.mr q.tu) x 256 q.seqNum = u := rfl
    clear_value u
    have hr : AafRight t x q := AafRight.congr ⟨hp, e1, e2, e3, e4, e5, e6, e7, e8⟩ hs.desc
    have hc' := (congrArg (·.state) (hs.ctx x)).trans hc
    have hsrc' := (congrArg (·.partner) (hs.ctx x)).trans hsrc
    have htake := aafIn_takes (e := e) hr hc' hsrc' hu
    rw [hs.desc.aafPlace] at htake
    rw [hs.desc.ctxSpp, hs.now] at htake
    refine ⟨fun k hk => ?_, fun hf => ⟨_, hexec, htake hf⟩⟩
    rw [hexec, aafIn_fails hr hc' hsrc' hu (by rw [hs.desc.aafPlace]; exact hk)]

end Sys2Proof.Machine
end

section
/-! Streams are lost and launched (R412, R413). -/
namespace Sys2Proof.Machine
open Sys2Proof.Config

variable {s t u y z : State} {e x k n : Nat} {f : TxFrame} {c : Ctx}

/-! ### LISTENER_LOST -/

/-- The media clock follows the listener. -/
def followsListener (x : Nat) (s : State) (k : Nat) : Bool := mcOn s k && mcSrc s k = 6 && regF s (mcCtl k) 0 11 = x

theorem followsListener_iff : followsListener x s k = true ↔ mcOn s k = true ∧ mcSrc s k = 6 ∧ regF s (mcCtl k) 0 11 = x := by
  unfold followsListener
  simp only [Bool.and_eq_true, decide_eq_true_eq, and_assoc]
theorem lostClocks_spec (s : State) (x : Nat) : RefsLostOnly s ((upto 4).foldl (refLostIf (followsListener x)) s) ∧
    ∀ k < 4, followsListener x s k = true → mcState s k = 1 ∨ mcState s k = 2 → mcState ((upto 4).foldl (refLostIf (followsListener x)) s) k = 3 := by
  refine refsLostOnly_foldl (fun s t k h => ?_) (fun s k h => ?_) s
  · unfold followsListener regF
    rw [mcOn_congr h, mcSrc_congr h, h]
  · obtain ⟨-, h6, -⟩ := followsListener_iff.mp h
    omega

/-- The entry of a listener that is lost, and the clocks that follow it. -/
def lostFollowers (s : State) (x proto : Nat) : State := if proto = 1 then (upto 4).foldl (refLostIf (followsListener x)) s else s
theorem lostFollowers_spec (s : State) (x proto : Nat) : RefsLostOnly s (lostFollowers s x proto) ∧
    ∀ k < 4, proto = 1 → followsListener x s k = true → mcState s k = 1 ∨ mcState s k = 2 → mcState (lostFollowers s x proto) k = 3 := by
  unfold lostFollowers
  split
  · obtain ⟨h1, h2⟩ := lostClocks_spec s x
    exact ⟨h1, fun k hk _ => h2 k hk⟩
  · next h => exact ⟨⟨rfl, fun _ _ _ => rfl⟩, fun k _ hp => absurd hp h⟩
theorem lostOp_eq (ht : isTalker x = false) (hen : ctxEn s x = true) (hst : (ctxOf s x).state = 2) (hnow : (ctxOf s x).lastArrival + 3 * ctxTp s x ≤ s.now) :
    lostOp s x = lostFollowers (bbHw (ctxPulse (ctxCount (setCtx s x { ctxOf s x with state := 3 }) x 9) x) 0xFF 0x0901 (n32 x) (n32 (ctxOf s x).cepoch) 0 0) x (ctxProto s x) := by
  unfold lostOp
  dsimp only
  rw [ht, hen, if_neg (by simp [hst, Nat.not_lt.mpr hnow])]
  rfl

theorem OfferOnly.net (h : OfferOnly s t) : t.net = s.net := by rw [h.rest]
theorem RefsLostOnly.net (h : RefsLostOnly s t) : t.net = s.net := by rw [h.rest]
theorem RefsLostOnly.bb (h : RefsLostOnly s t) : t.bb = s.bb := by rw [h.rest]
theorem mc_ne_bbLost (k c : Nat) (hk : k < 4) : mcCtl k ≠ bbLost c ∧ mcStat k ≠ bbLost c := by
  unfold mcCtl mcStat clkBase bbLost bbBase
  omega

section Lost
variable (h1 : CtxOnly s t) (h2 : SourceOnly n t u) (h3 : OfferOnly u y) (hn : n < 2048)
include h1 h2 h3

theorem lostSteps_reg {a : Nat} (ha : a ≠ icScnt n) (hb : ∀ c, a ≠ bbLost c) : reg y a = reg s a := (h3.regs a hb).trans ((h2.regs a ha).trans (h1.reg_eq a))
omit h1 in
theorem lostSteps_net : y.net = t.net := h3.net.trans h2.net
omit h3 in
include hn in
theorem lostSteps_entry {a b d : Nat} {p0 p1 p2 p3 : W32} (hr : (s.bb.ready && s.bb.header.state = 2) = false) (hi : s.bb.intake.length < 32) (hl : bbNoneLost s = true) :
    (bbOffer u (bbEntry u a b d p0 p1 p2 p3)).bb.intake = s.bb.intake ++ [bbEntry s a b d p0 p1 p2 p3] := by
  have hbb : u.bb = s.bb := h2.bb.trans (by rw [h1.rest])
  have hd : u.dtime = s.dtime := Eq.trans (by rw [h2.rest]) (show t.dtime = s.dtime by rw [h1.rest])
  have hlost : bbNoneLost u = true := by
    unfold bbNoneLost at hl ⊢
    rw [List.all_eq_true] at hl ⊢
    intro c hc
    rw [h2.regs _ (bbLost_ne_icScnt (mem_upto hc) hn), h1.reg_eq]
    exact hl c hc
  rw [bbOffer_room u _ (by rw [hbb, hr]; rfl) (by rw [hbb]; exact hi) hlost, bbEntry_congr hd, hbb]
end Lost

theorem listenerLost_holds (hx : x < 2048) (ht : isTalker x = false) (hen : ctxEn s x = true) (hst : (ctxOf s x).state = 2) (hnow : (ctxOf s x).lastArrival + 3 * ctxTp s x ≤ s.now)
    (hz : lostOp s x = z) : (ctxOf z x).state = 3 ∧ (ctxOf z x).partner = (ctxOf s x).partner ∧ tget 0 z.net.ctxCnt (16 * x + 9) = tget 0 s.net.ctxCnt (16 * x + 9) + 1 ∧
      ((s.bb.ready && s.bb.header.state = 2) = false → s.bb.intake.length < 32 → bbNoneLost s = true →
        z.bb.intake = s.bb.intake ++ [bbEntry s 0 0xFF 0x0901 (n32 x) (n32 (ctxOf s x).cepoch) 0 0]) ∧
      ∀ k, k < 4 → ctxProto s x = 1 → mcOn s k = true → mcSrc s k = 6 → regF s (mcCtl k) 0 11 = x → mcState s k = 1 ∨ mcState s k = 2 → mcState z k = 3 := by
  rw [lostOp_eq ht hen hst hnow] at hz
  have h1 : CtxOnly s (ctxCount (setCtx s x { ctxOf s x with state := 3 }) x 9) := (ctxOnly_setCtx ..).trans (ctxOnly_ctxCount ..)
  have hc : ctxOf (ctxCount (setCtx s x { ctxOf s x with state := 3 }) x 9) x = { ctxOf s x with state := 3 } := (ctxOf_ctxCount ..).trans (ctxOf_setCtx ..)
  have hcnt : tget 0 (ctxCount (setCtx s x { ctxOf s x with state := 3 }) x 9).net.ctxCnt (16 * x + 9) = tget 0 s.net.ctxCnt (16 * x + 9) + 1 := ctxCnt_ctxCount ..
  generalize ctxCount (setCtx s x { ctxOf s x with state := 3 }) x 9 = t at hz h1 hc hcnt
  have h2 : SourceOnly (960 + x / 16) t (ctxPulse t x) := sourceOnly_pulse ..
  generalize ctxPulse t x = u at hz h2
  have h3 := offerOnly_bbHw u 0xFF 0x0901 (n32 x) (n32 (ctxOf s x).cepoch) 0 0
  have hin := lostSteps_entry (a := 0) (b := 0xFF) (d := 0x0901) (p0 := n32 x) (p1 := n32 (ctxOf s x).cepoch) (p2 := 0) (p3 := 0) h1 h2 (by omega)
  change (_ → _ → _ → (bbHw u 0xFF 0x0901 (n32 x) (n32 (ctxOf s x).cepoch) 0 0).bb.intake = _) at hin
  generalize bbHw u 0xFF 0x0901 (n32 x) (n32 (ctxOf s x).cepoch) 0 0 = y at hz h3 hin
  obtain ⟨h4, h5⟩ := lostFollowers_spec y x (ctxProto s x)
  rw [hz] at h4 h5
  have hnet := h4.net.trans (lostSteps_net h2 h3)
  have hctx : ctxOf z x = { ctxOf s x with state := 3 } := (ctxOf_congr (by rw [hnet]) x).trans hc
  refine ⟨by rw [hctx], by rw [hctx], by rw [hnet, hcnt], fun a1 a2 a3 => by rw [h4.bb]; exact hin a1 a2 a3, fun k hk hp hon hsrc hid hms => ?_⟩
  have hctl : reg y (mcCtl k) = reg s (mcCtl k) := lostSteps_reg h1 h2 h3 (mcCtl_ne_icScnt k _) fun c => (mc_ne_bbLost k c hk).1
  have hstat : reg y (mcStat k) = reg s (mcStat k) := lostSteps_reg h1 h2 h3 (mcStat_ne_icScnt k _) fun c => (mc_ne_bbLost k c hk).2
  refine h5 k hk hp (followsListener_iff.mpr ⟨(mcOn_congr hctl).trans hon, (mcSrc_congr hctl).trans hsrc, ?_⟩) ?_
  · unfold regF at hid ⊢
    rw [hctl, hid]
  · rw [mcState_congr hstat]
    exact hms

/-! ### TALKER_LAUNCH -/

/-- The queues and the link of a port, and its count of frames lost with the link, are alike in both states. -/
structure SameLine (s t : State) (e : Nat) : Prop where
  queues : t.net.queues = s.net.queues
  link : ethLink t e = ethLink s e
  cnt : reg t (ethCnt e 7) = reg s (ethCnt e 7)

theorem CtxOnly.sameLine (h : CtxOnly s t) (e : Nat) : SameLine s t e := ⟨by rw [h.rest], ethLink_congr (h.reg_eq _), h.reg_eq _⟩
theorem SameLine.trans (h : SameLine s t e) (h' : SameLine t u e) : SameLine s u e := ⟨h'.queues.trans h.queues, h'.link.trans h.link, h'.cnt.trans h.cnt⟩
theorem MemoryAccess.sameLine (h : MemoryAccess s t) (e : Nat) : SameLine s t e :=
  ⟨by rw [h.net], h.link e, h.regs _ (by unfold ethCnt ethBase; omega) (by unfold ethCnt ethBase; omega) fun n hn => ethCnt_ne_icScnt e 7 hn⟩
theorem SameLine.queueAt (h : SameLine s t e) (k : Nat) : queueAt t e k = queueAt s e k := by unfold Machine.queueAt; rw [h.queues]
theorem SameLine.enqueues (h : SameLine s t e) (hl : ethLink s e = true) (hr : (Machine.queueAt s e k).length < 32) :
    Machine.queueAt (txEnqueue t e k f) e k = Machine.queueAt s e k ++ [f] := by
  rw [queueAt_txEnqueue (h.link.trans hl) (by rw [h.queueAt]; exact hr), h.queueAt]
theorem SameLine.drops (h : SameLine s t e) (he : e < 8) (hl : ethLink s e = false) :
    reg (txEnqueue t e k f) (ethCnt e 7) = reg s (ethCnt e 7) + 1 ∧ Machine.queueAt (txEnqueue t e k f) e k = Machine.queueAt s e k := by
  have hd : txEnqueue t e k f = ethDrop t e 7 := by
    unfold txEnqueue
    rw [h.link, hl]
    rfl
  have hf := ethDrop_frame t e 7
  rw [hd]
  refine ⟨?_, ?_⟩
  · unfold ethDrop
    rw [(sourceOnly_pulse _ _).regs _ (ethCnt_ne_icScnt e 7 (by omega)), reg_ethCount, h.cnt]
  · generalize ethDrop t e 7 = z at hf
    rw [← h.queueAt, hf]
    rfl
theorem txEnqueue_contexts (s : State) (e k : Nat) (f : TxFrame) (x : Nat) : ctxOf (txEnqueue s e k f) x = ctxOf s x ∧ (txEnqueue s e k f).net.ctxCnt = s.net.ctxCnt := by
  have h := (queuesOnly_txEnqueue s e k f).rest
  generalize txEnqueue s e k f = z at h
  rw [h]
  exact ⟨rfl, rfl⟩

section Launch
variable (ht : isTalker x = true) (hen : ctxEn s x = true) (hst : (ctxOf s x).state = 4) (hdue : launchDue s x (ctxOf s x).nextN = true)
include ht hen hst hdue

theorem launchOp_crf (hp : ctxProto s x = 1) :
    ∃ c f, c.nextN = (ctxOf s x).nextN + ctxNch s x * ctxSpp s x ∧ f.length = frameBytes (20 + 8 * ctxNch s x) ∧
      launchOp s x = txEnqueue (ctxCount (setCtx s x c) x 0) (ctxPort s x) (ctxF s x 7 21 3) f := by
  unfold launchOp
  dsimp only
  rw [ht, hen, hdue, if_neg (by simp [hst]), if_pos hp]
  exact ⟨_, _, rfl, rfl, rfl⟩
theorem launchOp_samples (hp : ctxProto s x ≠ 1) :
    ∃ c f, c.nextN = (ctxOf s x).nextN + ctxSpp s x ∧ f.payload = (launchPayload s x (ctxOf s x).nextN).2.1 ∧
      launchOp s x = txEnqueue (ctxCount (setCtx (if (launchPayload s x (ctxOf s x).nextN).2.2 then (launchPayload s x (ctxOf s x).nextN).1
        else ctxCount (launchPayload s x (ctxOf s x).nextN).1 x 11) x c) x 0) (ctxPort s x) (ctxF s x 7 21 3) f := by
  unfold launchOp
  dsimp only
  rw [ht, hen, hdue, if_neg (by simp [hst]), if_neg hp]
  exact ⟨_, _, rfl, rfl, rfl⟩
end Launch

theorem memoryAccess_zeroBlock (s : State) (x n : Nat) : MemoryAccess s (zeroBlock s x n) := by
  unfold zeroBlock
  split
  · exact accessClosed_memoryAccess.refl s
  · exact (memoryAccess_upto (fun t i => memoryAccess_engWrite ..) _ s).trans (memoryAccess_engWrite ..)
theorem launchPayload_zeroFed (h : zeroFed s x = true) : launchPayload s x n = (zeroBlock s x n, List.replicate (ctxBytes s x) 0, true) := if_pos h
theorem launchPayload_absent (h : zeroFed s x = false) (hs : slotHolds s (ethMaster (ctxPort s x)) x n = false) :
    launchPayload s x n = (s, List.replicate (ctxBytes s x) 0, false) := by
  unfold launchPayload slotPayload
  rw [h, if_neg (by decide)]
  dsimp only
  rw [hs, if_neg (by decide)]

/-- A context's launch from the state `t`: the context set, the packet counted, the frame queued. -/
theorem launched_spec (s t : State) (x e k : Nat) (c : Ctx) (f : TxFrame) :
    (ctxOf (txEnqueue (ctxCount (setCtx t x c) x 0) e k f) x).nextN = c.nextN ∧
    (∀ j, j ≠ 0 → tget 0 (txEnqueue (ctxCount (setCtx t x c) x 0) e k f).net.ctxCnt (16 * x + j) = tget 0 t.net.ctxCnt (16 * x + j)) ∧
    (SameLine s t e → ethLink s e = true → (queueAt s e k).length < 32 → queueAt (txEnqueue (ctxCount (setCtx t x c) x 0) e k f) e k = queueAt s e k ++ [f]) ∧
    (SameLine s t e → e < 8 → ethLink s e = false → reg (txEnqueue (ctxCount (setCtx t x c) x 0) e k f) (ethCnt e 7) = reg s (ethCnt e 7) + 1 ∧
      queueAt (txEnqueue (ctxCount (setCtx t x c) x 0) e k f) e k = queueAt s e k) := by
  have h1 : CtxOnly t (ctxCount (setCtx t x c) x 0) := (ctxOnly_setCtx ..).trans (ctxOnly_ctxCount ..)
  have hc : ctxOf (ctxCount (setCtx t x c) x 0) x = c := (ctxOf_ctxCount ..).trans (ctxOf_setCtx ..)
  have hcnt : ∀ j, j ≠ 0 → tget 0 (ctxCount (setCtx t x c) x 0).net.ctxCnt (16 * x + j) = tget 0 t.net.ctxCnt (16 * x + j) :=
    fun j hj => tget_tput_other 0 t.net.ctxCnt _ (by omega)
  generalize ctxCount (setCtx t x c) x 0 = u at h1 hc hcnt
  obtain ⟨i1, i2⟩ := txEnqueue_contexts u e k f x
  exact ⟨by rw [i1, hc], fun j hj => by rw [i2, hcnt j hj], fun hl a b => (hl.trans (h1.sameLine e)).enqueues a b, fun hl a b => (hl.trans (h1.sameLine e)).drops a b⟩

theorem ctxPort_lt (s : State) (x : Nat) : ctxPort s x < 8 := Nat.mod_lt _ (by decide)

theorem streamsAreLostAndLaunched : Clause.StreamsAreLostAndLaunched := by
  intro s x hx hen c
  refine ⟨fun ht hst hnow => ?_, fun ht hst hdue => ?_⟩
  · have hexec : exec (.listenerLost x) s = .next (lostOp s x) := act_wf (decide_eq_true hx)
    exact ⟨_, hexec, listenerLost_holds hx ht hen hst hnow rfl⟩
  intro e q
  have hexec : exec (.talkerLaunch x) s = .next (launchOp s x) := act_wf (decide_eq_true hx)
  refine ⟨fun hp => ?_, fun hp => ?_⟩
  · obtain ⟨d, f, hn, hlen, heq⟩ := launchOp_crf ht hen hst hdue hp
    rw [heq] at hexec
    obtain ⟨h1, -, h3, h4⟩ := launched_spec s s x e q d f
    exact ⟨_, hexec, h1.trans hn, fun hl hr => ⟨f, h3 ⟨rfl, rfl, rfl⟩ hl hr, hlen⟩, fun hl => h4 ⟨rfl, rfl, rfl⟩ (ctxPort_lt s x) hl⟩
  · obtain ⟨d, f, hn, hpay, heq⟩ := launchOp_samples ht hen hst hdue hp
    rw [heq] at hexec
    refine ⟨_, hexec, (launched_spec s _ x e q d f).1.trans hn, fun hz => ?_, fun hz hs => ?_⟩
    · rw [launchPayload_zeroFed hz] at hpay ⊢
      have hm := memoryAccess_zeroBlock s x c.nextN
      dsimp only at hpay ⊢
      rw [if_pos rfl]
      generalize zeroBlock s x c.nextN = t at hm
      obtain ⟨-, h2, h3, -⟩ := launched_spec s t x e q d f
      exact ⟨by rw [h2 11 (by decide), hm.net], fun hl hr => ⟨f, h3 (hm.sameLine e) hl hr, hpay⟩⟩
    · rw [launchPayload_absent hz hs] at hpay ⊢
      dsimp only at hpay ⊢
      rw [if_neg (by decide)]
      obtain ⟨-, h2, h3, -⟩ := launched_spec s (ctxCount s x 11) x e q d f
      exact ⟨by rw [h2 11 (by decide), ctxCnt_ctxCount], fun hl hr => ⟨f, h3 ((ctxOnly_ctxCount ..).sameLine e) hl hr, hpay⟩⟩

/-- Settles O48: what each stream packet leaves of its listener's context, what a lost listener takes along, and the frame a talker queues. -/
theorem streamsAreKept : Obligations.StreamsAreKept := ⟨listenersTakeTheirPackets, streamsAreLostAndLaunched⟩

end Sys2Proof.Machine
end

section
/-! Writes to the parameter dictionary (R446, R451, R453). -/
namespace Sys2Proof.Machine
open Sys2Proof.Config

variable {s t u v w x y : State} {q : Request} {r : List Request} {d : List Byte} {c : Nat} {e : Session}

/-! ### What the end of a write leaves -/

/-- Between the states lie the answer to a write, its counts, and the entry that tells it. -/
structure WriteEnded (w t : State) : Prop where
  rest : t = { w with regs := t.regs, intc := t.intc, net := t.net, bb := t.bb, fpp := t.fpp }
  fpp : t.fpp = { w.fpp with ownerSeen := t.fpp.ownerSeen, out := t.fpp.out, spi := t.fpp.spi, counts := t.fpp.counts }
  bb : t.bb = { w.bb with intake := t.bb.intake, header := { w.bb.header with dropped := t.bb.header.dropped } }
  intake : ∀ z ∈ w.bb.intake, z ∈ t.bb.intake

theorem WriteEnded.trans (h : WriteEnded s t) (h' : WriteEnded t u) : WriteEnded s u :=
  ⟨by rw [h'.rest, h.rest], by rw [h'.fpp, h.fpp], by rw [h'.bb, h.bb], fun z hz => h'.intake z (h.intake z hz)⟩
theorem mem_intake_bbOffer (z a : BbEntry) (h : z ∈ s.bb.intake) : z ∈ (bbOffer s a).bb.intake := by
  unfold bbOffer
  split
  · exact h
  · split
    · exact List.mem_append_left _ h
    · exact h
theorem writeEnded_bbOffer (s : State) (a : BbEntry) : WriteEnded s (bbOffer s a) := by
  have h := offerOnly_bbOffer s a
  have hi := fun z => mem_intake_bbOffer (s := s) z a
  generalize bbOffer s a = t at h hi
  exact ⟨by rw [h.rest], by rw [h.rest], h.bb, hi⟩
theorem Responded.writeEnded (h : Responded s t) : WriteEnded s t :=
  ⟨by rw [h.rest], by rw [h.fpp], by rw [h.rest], fun z hz => by rw [h.rest]; exact hz⟩
theorem writeEnded_accepted (s : State) (q : Request) : WriteEnded s (accepted s q) := by
  have h := accepted_rest s q
  generalize accepted s q = t at h
  exact ⟨by rw [h], by rw [h], by rw [h], fun z hz => by rw [h]; exact hz⟩
theorem writeEnded_fppCount (s : State) (k : Nat) : WriteEnded s (fppCount s k) := ⟨rfl, rfl, rfl, fun _ h => h⟩
theorem writeEnded_svcNote (s : State) (q : Request) (d : List Byte) (t : State) : WriteEnded t (svcNote s q d t) := by
  unfold svcNote
  split
  · exact writeEnded_bbOffer ..
  · exact ⟨rfl, rfl, rfl, fun _ h => h⟩
theorem sameReplies_svcNote (s : State) (q : Request) (d : List Byte) (t : State) : SameReplies t (svcNote s q d t) := by
  unfold svcNote
  split
  · exact sameReplies_bbL0 _ _ _ _ _ (by decide)
  · exact sameReplies_refl t
theorem WriteEnded.epoch (h : WriteEnded s t) : t.fpp.epoch = s.fpp.epoch := by rw [h.fpp]

/-! ### The end of a write -/

/-- A write turned away. -/
theorem finishWrite_refused (h : (writeApply v q d).1 = c) (hc : c ≠ 0) : AnsweredBy v (finishWrite v q d) q c 0 0 0 [] ∧ WriteEnded v (finishWrite v q d) := by
  have heq : finishWrite v q d = svcNote v q d (abortAt v q c true) := by
    unfold finishWrite
    dsimp only
    rw [h, if_pos hc]
  obtain ⟨x, hx, hxr, hxe⟩ : ∃ x, abortAt v q c true = abort x q c ∧ SameReplies v x ∧ WriteEnded v x := by
    unfold abortAt
    split
    · exact ⟨_, rfl, sameReplies_bbL0 _ _ _ _ _ (by decide), writeEnded_bbOffer ..⟩
    · exact ⟨_, rfl, sameReplies_refl v, ⟨rfl, rfl, rfl, fun _ h => h⟩⟩
  rw [heq, hx]
  have ha := answeredBy_abort hxr q c
  have hr : WriteEnded v (abort x q c) := hxe.trans ((writeEnded_fppCount ..).trans (responded_answerWith ..).writeEnded)
  generalize abort x q c = y at ha hr
  have he := writeEnded_svcNote v q d y
  exact ⟨answeredBy_after ha (sameReplies_svcNote ..) he.epoch, hr.trans he⟩
/-- A write carried out. -/
theorem finishWrite_applied (h : writeApply v q d = (0, w)) (hw : SameReplies v w) :
    AnsweredBy v (finishWrite v q d) q (if isLong q.index q.sub then 0x80 else 0) 0 0 0 [] ∧ WriteEnded w (finishWrite v q d) := by
  have heq : finishWrite v q d = svcNote v q d (answerWith (accepted w q) q (if isLong q.index q.sub then 0x80 else 0) 0 0 0 []) := by
    unfold finishWrite
    dsimp only
    rw [h, if_neg (fun hn => hn rfl)]
    cases isLong q.index q.sub <;> rfl
  rw [heq]
  have hx := writeEnded_accepted w q
  have hxr := sameReplies_accepted w q
  generalize accepted w q = x at hx hxr
  have ha := answeredBy_answerWith (hw.trans hxr) q (if isLong q.index q.sub then 0x80 else 0) 0 0 0 []
  have hr := (responded_answerWith x q (if isLong q.index q.sub then 0x80 else 0) 0 0 0 []).writeEnded
  generalize answerWith x q (if isLong q.index q.sub then 0x80 else 0) 0 0 0 [] = y at ha hr
  have he := writeEnded_svcNote v q d y
  exact ⟨answeredBy_after ha (sameReplies_svcNote ..) he.epoch, hx.trans (hr.trans he)⟩
theorem writeReq_whole (hq : WholeWrite q) (u : State) : writeReq u q = finishWrite (dropXfer u q) q q.data := by
  obtain ⟨hm, ho, ht⟩ := hq
  unfold writeReq
  rw [hm, if_neg (by decide), if_pos ho]
  unfold firstSegment
  dsimp only
  rw [if_neg (by omega), if_pos ht]

/-! ### What a write does -/

/-- The checks before a write's effect are passed, and the session has room. -/
structure WriteChecked (v : State) (q : Request) (d : List Byte) (e : Session) : Prop where
  code : writeCode v q d = 0
  session : sessOf v q.from_ = some e

theorem WriteChecked.room (h : WriteChecked v q d e) : noRoom v q = false := noRoom_of_sess (by rw [h.session]; rfl)
theorem writeApply_code (h : writeCode v q d ≠ 0) : (writeApply v q d).1 = writeCode v q d := by
  unfold writeApply
  dsimp only
  rw [if_pos h]
theorem writeApply_selector (h : WriteChecked v q d e) (hs : isSelector q.index q.sub = true) (hr : v.bb.rearming = false) (hc : selectorCode v q.index q.sub (ofBe d) = 0) :
    writeApply v q d = (0, modSess v q.from_ (fun e => { e with selectors := tput 0 e.selectors (keyOf q.index q.sub) (ofBe d) })) := by
  unfold writeApply
  dsimp only
  rw [h.code, if_neg (by decide), if_pos hs, hc, if_neg (by decide), h.room, hr]
  rfl

/-- The state that a write's effect is computed on: the outcome of a long request is under way. -/
def writeStart (v : State) (q : Request) (d : List Byte) : State :=
  if isLong q.index q.sub then setOutcome { v with fpp := { v.fpp with long := some (keyOf q.index q.sub, ofBe d, q.from_) } } q.from_ (keyOf q.index q.sub) 0x80 else v

section Effect
variable (h : WriteChecked v q d e) (hs : isSelector q.index q.sub = false)
include h hs

theorem writeApply_effect (hv : writeVal (writeStart v q d) (sessOf v q.from_) q.index q.sub d = (c, w)) : writeApply v q d =
    if c ≠ 0 then (c, v)
    else if (isLong q.index q.sub && v.fpp.long.isSome) || (v.bb.rearming && decide (0x8000 ≤ q.index) && decide (q.index < 0x9000)) then (0xA, v)
    else if subAcc q.index q.sub = 3 && q.index ≠ 0x1030 then (0, markDirty (keepVal w q.index q.sub d) (keyOf q.index q.sub))
    else (0, w) := by
  unfold writeApply
  dsimp only
  rw [h.code, if_neg (by decide), hs, if_neg (by decide), h.room]
  unfold writeStart at hv
  rw [hv, Bool.or_false]
theorem writeApply_outOfRange (hc : c ≠ 0) (hv : writeVal (writeStart v q d) (sessOf v q.from_) q.index q.sub d = (c, w)) : (writeApply v q d).1 = c := by
  rw [writeApply_effect h hs hv, if_pos hc]

variable (hr : v.bb.rearming = false ∨ q.index < 0x8000 ∨ 0x9000 ≤ q.index) (hl : isLong q.index q.sub = true → v.fpp.long = none)
  (hv : writeVal (writeStart v q d) (sessOf v q.from_) q.index q.sub d = (0, w))
include hr hl hv
theorem writeApply_runs : writeApply v q d = if subAcc q.index q.sub = 3 && q.index ≠ 0x1030 then (0, markDirty (keepVal w q.index q.sub d) (keyOf q.index q.sub)) else (0, w) := by
  have hrb : (v.bb.rearming && decide (0x8000 ≤ q.index) && decide (q.index < 0x9000)) = false := by
    rcases hr with h | h | h
    · rw [h]; rfl
    · rw [decide_eq_false (by omega : ¬ 0x8000 ≤ q.index), Bool.and_false, Bool.false_and]
    · rw [decide_eq_false (by omega : ¬ q.index < 0x9000), Bool.and_false]
  have hlb : (isLong q.index q.sub && v.fpp.long.isSome) = false := by
    cases hb : isLong q.index q.sub with
    | false => rfl
    | true => rw [hl hb]; rfl
  rw [writeApply_effect h hs hv, if_neg (fun hn => hn rfl), hrb, hlb, if_neg (by decide)]
theorem writeApply_plain (ha : subAcc q.index q.sub ≠ 3) : writeApply v q d = (0, w) := by
  rw [writeApply_runs h hs hr hl hv, decide_eq_false ha, Bool.false_and]
  exact if_neg (by decide)
theorem writeApply_kept (ha : subAcc q.index q.sub = 3) (hi : q.index ≠ 0x1030) : writeApply v q d = (0, markDirty (keepVal w q.index q.sub d) (keyOf q.index q.sub)) := by
  rw [writeApply_runs h hs hr hl hv, decide_eq_true ha, decide_eq_true hi]
  exact if_pos rfl
end Effect

/-! ### WRITE -/

theorem write_taken (h2 : 2 ≤ s.dev) (hq : s.fpp.queue = q :: r) (hw : WholeWrite q) {ok : Request → Bool} (hok : ok q = true) :
    takeHead s ok writeReq = finishWrite (dropXfer (taken s q r) q) q q.data := by
  rw [takeHead_eq h2 hq hok, writeReq_whole hw]
theorem WriteEnded.carts (h : WriteEnded w t) : t.carts = w.carts := by rw [h.rest]
theorem WriteEnded.media (h : WriteEnded w t) : t.media = w.media := by rw [h.rest]
theorem WriteEnded.mem (h : WriteEnded w t) : t.mem = w.mem := by rw [h.rest]
theorem WriteEnded.dev (h : WriteEnded w t) : t.dev = w.dev := by rw [h.rest]
theorem WriteEnded.vals (h : WriteEnded w t) : t.fpp.vals = w.fpp.vals := by rw [h.fpp]
theorem WriteEnded.dirty (h : WriteEnded w t) : t.fpp.dirty = w.fpp.dirty := by rw [h.fpp]
theorem WriteEnded.sessOf (h : WriteEnded w t) (a : Transport) : sessOf t a = sessOf w a := by unfold Machine.sessOf; rw [h.fpp]
theorem isLong_of_selector {i k : Nat} (h : isSelector i k = true) : isLong i k = false := by
  rw [← Bool.not_eq_true]
  intro hl
  unfold isLong at hl
  simp only [Bool.or_eq_true, Bool.and_eq_true, decide_eq_true_eq] at hl
  rcases hl with (((((⟨rfl, rfl⟩ | ⟨rfl, rfl⟩) | ⟨rfl, rfl⟩) | ⟨rfl, rfl⟩) | ⟨rfl, rfl⟩) | ⟨rfl, rfl⟩) | ⟨rfl, rfl⟩ <;> exact absurd h (by decide)
theorem writesAreChecked : Clause.WritesAreChecked := by
  intro s q r e h2 hq hcmd hw v
  have hexec : exec .write s = .next (takeHead s (fun q => q.cmd = 2) writeReq) := act_wf rfl
  rw [write_taken h2 hq hw (decide_eq_true hcmd)] at hexec
  change exec .write s = .next (finishWrite v q q.data) at hexec
  clear_value v
  refine ⟨fun hc => ?_, fun hc he hs hr hsel => ?_, fun hc he hi hk => ?_⟩
  · obtain ⟨ha, ht⟩ := finishWrite_refused (writeApply_code hc) hc
    exact ⟨_, hexec, ha, ht.vals, ht.carts, ht.media, ht.mem, ht.dev⟩
  · obtain ⟨ha, ht⟩ := finishWrite_applied (writeApply_selector ⟨hc, he⟩ hs hr hsel) (sessionsOnly_modSess ..).sameReplies
    rw [isLong_of_selector hs] at ha
    refine ⟨_, hexec, ha, ?_, ht.vals, ht.carts⟩
    rw [ht.sessOf, sessOf_modSess (f := fun e => { e with selectors := tput 0 e.selectors (keyOf q.index q.sub) (ofBe q.data) }) (fun _ => rfl) he]
    exact tget_tput_same 0 e.selectors _ _
  · have hs : isSelector q.index q.sub = false := by rw [hi, hk]; rfl
    have hstart : writeStart v q q.data = v := by unfold writeStart; rw [hi, hk]; rfl
    have hval : writeVal (writeStart v q q.data) (sessOf v q.from_) q.index q.sub q.data = inRange v (decide (50 ≤ ofBe q.data) && decide (ofBe q.data ≤ 1000)) v := by
      rw [hstart, hi, hk]
      rfl
    refine ⟨fun h1 h3 => ?_, fun h1 => ?_⟩
    · have happ := writeApply_kept (w := v) ⟨hc, he⟩ hs (.inr (.inl (by omega))) (by rw [hi, hk]; exact fun h => absurd h (by decide))
        (by rw [hval, decide_eq_true h1, decide_eq_true h3]; rfl) (by rw [hi, hk]; rfl) (by omega)
      obtain ⟨ha, ht⟩ := finishWrite_applied happ ⟨rfl, rfl, rfl, fun _ => rfl⟩
      rw [hi, hk] at ha ht
      refine ⟨_, hexec, ha, ?_, ?_, ht.carts, ht.media⟩
      · rw [ht.vals]
        exact tget_tput_same [] v.fpp.vals _ _
      · rw [ht.dirty]
        exact List.mem_append_right _ (List.mem_singleton.mpr rfl)
    · obtain ⟨ha, ht⟩ := finishWrite_refused (writeApply_outOfRange (w := v) ⟨hc, he⟩ hs (c := 6) (by decide) (by
        rw [hval]
        exact if_neg (by simp only [Bool.and_eq_true, decide_eq_true_eq]; omega))) (by decide)
      exact ⟨_, hexec, ha, ht.vals⟩

end Sys2Proof.Machine
end

section
/-! The withdrawal of a timetable leaves the agent's replies alone (R545). -/
namespace Sys2Proof.Machine
open Sys2Proof.Config

variable {s t u v w x y : State} {q : Request} {r : List Request} {d : List Byte} {c : Nat} {e : Session}

/-- The agent, its transports and the device state are alike in both states. -/
structure AgentKept (s t : State) : Prop where
  fpp : t.fpp = s.fpp
  dev : t.dev = s.dev
  held : t.held = s.held
  queues : t.net.queues = s.net.queues
  stat : ∀ e, reg t (ethStat e) = reg s (ethStat e)

theorem agentKept_refl (s : State) : AgentKept s s := ⟨rfl, rfl, rfl, rfl, fun _ => rfl⟩
theorem AgentKept.trans (h : AgentKept s t) (g : AgentKept t u) : AgentKept s u :=
  ⟨g.fpp.trans h.fpp, g.dev.trans h.dev, g.held.trans h.held, g.queues.trans h.queues, fun e => (g.stat e).trans (h.stat e)⟩
theorem AgentKept.foldl {α : Type} {f : State → α → State} (h : ∀ s a, AgentKept s (f s a)) (l : List α) (s : State) : AgentKept s (l.foldl f s) := by
  induction l generalizing s with
  | nil => exact agentKept_refl s
  | cons a l ih => exact (h s a).trans (ih _)
theorem AgentKept.sameReplies (h : AgentKept s t) : SameReplies s t := ⟨by rw [h.fpp], by rw [h.fpp], h.queues, fun e => ethLink_congr (h.stat e)⟩
theorem MemoryAccess.agentKept (h : MemoryAccess s t) : AgentKept s t := by
  have hr := h.served.rest
  exact ⟨by rw [hr], by rw [hr], by rw [hr], by rw [hr], fun e => h.regs _ (by unfold ethStat ethBase; omega) (by unfold ethStat ethBase; omega) fun n hn => ethStat_ne_icScnt e hn⟩
theorem agentKept_setCo (s : State) (c : Nat) (k : Coach) : AgentKept s (setCo s c k) := ⟨rfl, rfl, rfl, rfl, fun _ => rfl⟩
theorem agentKept_carts (s : State) (k : Carts) : AgentKept s { s with carts := k } := ⟨rfl, rfl, rfl, rfl, fun _ => rfl⟩
theorem agentKept_lostPeriod (s : State) (v k : Nat) : AgentKept s (lostPeriod s v k) := ⟨rfl, rfl, rfl, rfl, fun _ => rfl⟩
theorem memoryAccess_lineRead {o : BankOut} (h : MemoryAccess s o.st) (now i : Nat) (ws : List Word) : MemoryAccess s (lineRead now i o ws).1 := h
theorem memoryAccess_crashStep (at_ c : Nat) (r : State × List Word) (i : Nat) : MemoryAccess r.1 (crashStep at_ c r i).1 := by
  have h : MemoryAccess r.1 (crashLine c r.1 i).st := by
    unfold crashLine
    exact accessClosed_memoryAccess.turnAccess ..
  unfold crashStep
  exact memoryAccess_lineRead h ..
theorem memoryAccess_crashRead (s : State) (c : Nat) : MemoryAccess s (crashRead s c).1 := by
  have h : ∀ (xs : List Nat) (x : State × List Word), MemoryAccess x.1 (xs.foldl (crashStep s.now c) x).1 := by
    intro xs
    induction xs with
    | nil => exact fun x => accessClosed_memoryAccess.refl _
    | cons i r ih => exact fun x => (memoryAccess_crashStep ..).trans (ih _)
  exact h _ (s, [])
theorem agentKept_copyCrash (s : State) (c : Nat) : AgentKept s (copyCrash s c) := by
  rw [copyCrash_eq]
  split
  · exact agentKept_refl s
  · have h := (memoryAccess_crashRead s c).agentKept
    generalize crashRead s c = r at h ⊢
    exact h.trans (agentKept_carts ..)
theorem agentKept_stopCoach (s : State) (c : Nat) : AgentKept s (stopCoach s c) := by
  unfold stopCoach
  dsimp only
  split
  · exact agentKept_setCo ..
  · exact agentKept_setCo ..
  · exact (agentKept_copyCrash s c).trans (agentKept_setCo ..)
  · exact agentKept_refl s
theorem agentKept_dropQueue (s : State) (n : Nat) : AgentKept s (dropQueue s n) :=
  AgentKept.trans (t := setQueue s n []) (agentKept_carts ..) (.foldl (fun s j => agentKept_lostPeriod ..) _ _)
theorem agentKept_loseJobs (s : State) (c : Nat) : AgentKept s (loseJobs s c) := .foldl (fun s j => agentKept_lostPeriod ..) _ _
theorem agentKept_setReg {a : Nat} (h : a < 0x040A0000) (v : W32) : AgentKept s (setReg s a v) :=
  ⟨rfl, rfl, rfl, rfl, fun e => by rw [reg_setReg, if_neg (by unfold ethStat ethBase; omega)]⟩
theorem agentKept_setRegF {a : Nat} (h : a < 0x040A0000) (lo n x : Nat) : AgentKept s (setRegF s a lo n x) :=
  ⟨rfl, rfl, rfl, rfl, fun e => reg_setRegF_ne _ _ _ _ _ _ (by unfold ethStat ethBase; omega)⟩
/-- One region of a grant. -/
def grantRegion (m bits : Nat) (s : State) (i : Nat) : State :=
  let e := grantSpan s m i
  setRegF (setReg (setReg s (memRB m i) (n32 e.1)) (memRB m i + 2) (n32 (e.2 / 64 * 64))) (memRB m i + 4) 0 4 (if e.1 < e.2 then bits else 0)
theorem agentKept_grantRegions (s : State) {m : Nat} (hm : m < 96) (bits : Nat) : AgentKept s (grantRegions s m bits) := by
  have hspan : ∀ i < 4, memRB m i + 4 < 0x040A0000 := by
    intro i hi
    unfold memRB
    omega
  unfold grantRegions
  rw [if_pos hm]
  suffices h : ∀ l : List Nat, (∀ i ∈ l, i < 4) → ∀ t, AgentKept t (l.foldl (grantRegion m bits) t) from h _ (fun i => mem_upto) s
  intro l
  induction l with
  | nil => exact fun _ t => agentKept_refl t
  | cons i l ih =>
    intro hl t
    have hi := hspan i (hl i List.mem_cons_self)
    refine AgentKept.trans ?_ (ih (fun j hj => hl j (List.mem_cons_of_mem _ hj)) _)
    exact ((agentKept_setReg (by omega) _).trans (agentKept_setReg (by omega) _)).trans (agentKept_setRegF (by omega) ..)
theorem agentKept_withdrawTable (s : State) : AgentKept s (withdrawTable s) ∧ (withdrawTable s).carts.table = none := by
  unfold withdrawTable
  split
  · next h => exact ⟨agentKept_refl s, h⟩
  · extract_lets a b c d
    refine ⟨?_, rfl⟩
    have ha : AgentKept s a := .foldl agentKept_dropQueue _ _
    have hb : AgentKept a b := .foldl (fun s c => by split; exacts [agentKept_loseJobs .., agentKept_refl s]) _ _
    have hc : AgentKept b c := .foldl agentKept_stopCoach _ _
    have hd : AgentKept c d := by
      show AgentKept c (if c.media.xOn then grantRegions c 95 0 else c)
      split
      · exact agentKept_grantRegions c (by decide) 0
      · exact agentKept_refl c
    have h := ha.trans (hb.trans (hc.trans hd))
    clear_value d
    exact ⟨h.fpp, h.dev, h.held, h.queues, h.stat⟩


/-! ### What each command writes (R343, R470 to R472, R495, R545) -/

theorem longDone_sameReplies (s : State) (key status : Nat) : SameReplies s (longDone s key status) := by
  unfold longDone
  split
  · split
    · exact sameReplies_of_fpp _ rfl rfl
    · exact sameReplies_refl s
  · exact sameReplies_refl s
/-- The timetable taken back, and an admission under way ended. -/
def tableTaken (s : State) : State :=
  let t := longDone (withdrawTable s) (0x4000 * 256 + 2) 5
  { t with media := { t.media with fromSafe := true } }
theorem tableTaken_spec (s : State) : (tableTaken s).dev = s.dev ∧ (tableTaken s).carts.table = none ∧ SameReplies s (tableTaken s) := by
  obtain ⟨h1, h2⟩ := agentKept_withdrawTable s
  unfold tableTaken
  generalize withdrawTable s = x at h1 h2
  have h3 := longDone_fppOnly x (0x4000 * 256 + 2) 5
  have h4 := longDone_sameReplies x (0x4000 * 256 + 2) 5
  generalize longDone x (0x4000 * 256 + 2) 5 = y at h3 h4
  have h5 : y.dev = x.dev ∧ y.carts = x.carts := by rw [h3]; exact ⟨rfl, rfl⟩
  have h6 := h1.sameReplies.trans h4
  exact ⟨h5.1.trans h1.dev, (congrArg (·.table) h5.2).trans h2, h6.out, h6.spi, h6.queues, h6.link⟩
/-- SAFE outside the service session, and in it. -/
theorem stateWrite_safe (h7 : v.dev ≠ 7) : ∃ w, stateWrite v 6 = (0, w) ∧ w.dev = 6 ∧ w.carts.table = none ∧ SameReplies v w := by
  have heq : stateWrite v 6 = (0, tableTaken (setDev v 6 11)) := by
    unfold stateWrite tableTaken
    rw [if_pos rfl]
    simp only [if_neg h7]
  obtain ⟨h1, h2, h3⟩ := tableTaken_spec (setDev v 6 11)
  have hd := devChanged_setDev v 6 11
  exact ⟨_, heq, h1.trans rfl, h2, hd.replies.trans h3⟩
theorem stateWrite_safeHeld (h7 : v.dev = 7) : ∃ w, stateWrite v 6 = (0, w) ∧ w.dev = 7 ∧ w.held = 6 ∧ w.carts.table = none ∧ SameReplies v w := by
  have heq : stateWrite v 6 = (0, { tableTaken (setDev v 7 14) with held := 6 }) := by
    unfold stateWrite tableTaken
    rw [if_pos rfl]
    simp only [if_pos h7]
  obtain ⟨h1, h2, h3⟩ := tableTaken_spec (setDev v 7 14)
  have hd := devChanged_setDev v 7 14
  generalize setDev v 7 14 = x at heq h1 h2 h3 hd
  have hx : x.dev = 7 := by rw [hd.rest]
  generalize tableTaken x = y at heq h1 h2 h3
  have h4 := hd.replies.trans h3
  exact ⟨_, heq, h1.trans hx, rfl, h2, h4.out, h4.spi, h4.queues, h4.link⟩
theorem stateWrite_config (v : State) : ∃ w, stateWrite v 3 = (0, w) ∧ w.dev = 3 ∧ w.carts = v.carts ∧ SameReplies v w := by
  have heq : stateWrite v 3 = (0, setDev (stopWagons v) 3 12) := rfl
  have hs : SameReplies v (stopWagons v) ∧ (stopWagons v).carts = v.carts := ⟨⟨rfl, rfl, rfl, fun _ => rfl⟩, rfl⟩
  generalize stopWagons v = x at heq hs
  have hd := devChanged_setDev x 3 12
  exact ⟨_, heq, rfl, (setDev_spec x 3 12).1.trans hs.2, hs.1.trans hd.replies⟩
theorem withdrawOp_withdraws (h : v.dev = 4 ∨ v.dev = 5) : (withdrawOp v).dev = 3 ∧ (withdrawOp v).carts.table = none ∧ SameReplies v (withdrawOp v) := by
  have heq : withdrawOp v = setDev (stopWagons (withdrawTable v)) 3 9 := if_pos (by rcases h with h | h <;> rw [h] <;> rfl)
  obtain ⟨h1, h2⟩ := agentKept_withdrawTable v
  rw [heq]
  generalize withdrawTable v = x at h1 h2
  have hs : SameReplies x (stopWagons x) ∧ (stopWagons x).carts = x.carts := ⟨⟨rfl, rfl, rfl, fun _ => rfl⟩, rfl⟩
  generalize stopWagons x = y at hs
  have hd := devChanged_setDev y 3 9
  exact ⟨rfl, (congrArg (·.table) ((setDev_spec y 3 9).1.trans hs.2)).trans h2, (h1.sameReplies.trans hs.1).trans hd.replies⟩

/-- Pin `i` is held as `h` says. -/
def pinSet (s : State) (i h : Nat) : State := { s with media := { s.media with pinClaims := tput 0 s.media.pinClaims i h } }
theorem pinSet_spec (s : State) (i h : Nat) : tget 0 (pinSet s i h).media.pinClaims i = h ∧
    (∀ j, j ≠ i → tget 0 (pinSet s i h).media.pinClaims j = tget 0 s.media.pinClaims j) ∧ SameReplies s (pinSet s i h) :=
  ⟨tget_tput_same 0 s.media.pinClaims i h, fun j hj => tget_tput_other 0 s.media.pinClaims h hj, rfl, rfl, rfl, fun _ => rfl⟩
theorem pinCode_parts {i : Nat} (hi : i < 10) : (0x0A000000 + i) / 2 ^ 24 = 0xA ∧ (0x0A000000 + i) % 2 ^ 24 = i := by omega
theorem resourceCode_pin {i : Nat} (hi : i < 10) (s : State) : resourceCode s (0x0A000000 + i) = 0 := by
  obtain ⟨h1, h2⟩ := pinCode_parts hi
  unfold resourceCode resAbsent
  dsimp only
  rw [h1, h2]
  exact (if_neg (Nat.not_le.mpr hi)).trans rfl
theorem resHolder_pin {i : Nat} (hi : i < 10) (s : State) : resHolder s (0x0A000000 + i) = (match tget 0 s.media.pinClaims i with | 0 => 0xFF | h => h - 1) := by
  obtain ⟨h1, h2⟩ := pinCode_parts hi
  unfold resHolder resAbsent
  dsimp only
  rw [h1, h2, decide_eq_false (show ¬ resCount 10 ≤ i from Nat.not_le.mpr hi)]
  rfl
theorem claimWrite_pin {i : Nat} (hi : i < 10) (hc : tget 0 v.media.pinClaims i = 0) : claimWrite v (0x0A000000 + i) = (0, pinSet v i 108) := by
  obtain ⟨h1, h2⟩ := pinCode_parts hi
  unfold claimWrite
  dsimp only
  rw [resourceCode_pin hi, resHolder_pin hi, hc, h1, h2]
  rfl
theorem releaseWrite_pin {i : Nat} (hi : i < 10) (hc : tget 0 v.media.pinClaims i = 108) (hu : pinUsed v i = false) : releaseWrite v (0x0A000000 + i) = (0, pinSet v i 0) := by
  obtain ⟨h1, h2⟩ := pinCode_parts hi
  unfold releaseWrite
  dsimp only
  rw [resourceCode_pin hi, resHolder_pin hi, hc, h1, h2, hu]
  rfl
theorem clearReports_spec (s : State) : (∀ c, c < 13 → tget 0 (clearReports s).mem.reports c = 0) ∧ (clearReports s).mem.data = s.mem.data ∧ SameReplies s (clearReports s) :=
  ⟨fun c hc => tget_tclear_in 0 s.mem.reports ⟨Nat.zero_le c, hc⟩, rfl, rfl, rfl, rfl, fun _ => rfl⟩
theorem bbL0_entry {code : Nat} {p0 p1 p2 p3 : W32} (h1 : (v.bb.ready && v.bb.header.state = 2) = false) (h2 : v.bb.intake.length < 32) (h3 : bbNoneLost v = true) :
    bbEntry v 1 0xFF code p0 p1 p2 p3 ∈ (bbL0 v code p0 p1 p2 p3).bb.intake := by
  unfold bbL0
  rw [bbOffer_room v _ (by rw [h1]; rfl) h2 h3]
  exact List.mem_append_right _ (List.mem_singleton.mpr rfl)

/-! ### A command accepted -/

/-- A subindex that is no selector, begins nothing long and keeps no value for flash. -/
structure PlainEntry (i k : Nat) : Prop where
  selector : isSelector i k = false
  long : isLong i k = false
  acc : subAcc i k ≠ 3

section Commands
variable (hc : WriteChecked v q q.data e)
include hc

theorem command_ends (hp : PlainEntry q.index q.sub) (hr : v.bb.rearming = false ∨ q.index < 0x8000 ∨ 0x9000 ≤ q.index)
    (hv : writeVal v (sessOf v q.from_) q.index q.sub q.data = (0, w)) (hw : SameReplies v w) :
    AnsweredBy v (finishWrite v q q.data) q 0 0 0 0 [] ∧ WriteEnded w (finishWrite v q q.data) := by
  have hstart : writeStart v q q.data = v := if_neg (by rw [hp.long]; decide)
  have h := finishWrite_applied (writeApply_plain hc hp.selector hr (by rw [hp.long]; exact fun h => absurd h (by decide)) (by rw [hstart]; exact hv) hp.acc) hw
  rw [hp.long] at h
  exact h
theorem longCommand_ends (hs : isSelector q.index q.sub = false) (hl : isLong q.index q.sub = true) (ha : subAcc q.index q.sub ≠ 3) (hr : v.bb.rearming = false) (hn : v.fpp.long = none)
    (hv : writeVal (writeStart v q q.data) (sessOf v q.from_) q.index q.sub q.data = (0, w)) (hw : SameReplies v w) :
    AnsweredBy v (finishWrite v q q.data) q 0x80 0 0 0 [] ∧ WriteEnded w (finishWrite v q q.data) := by
  have h := finishWrite_applied (writeApply_plain hc hs (.inl hr) (fun _ => hn) hv ha) hw
  rw [hl] at h
  exact h
end Commands

/-- The state in which the effect of a long request is computed. -/
theorem writeStart_spec (hl : isLong q.index q.sub = true) (v : State) (d : List Byte) : SameReplies v (writeStart v q d) ∧ (writeStart v q d).bb = v.bb ∧
    (writeStart v q d).fpp.long = some (keyOf q.index q.sub, ofBe d, q.from_) := by
  have heq : writeStart v q d = setOutcome { v with fpp := { v.fpp with long := some (keyOf q.index q.sub, ofBe d, q.from_) } } q.from_ (keyOf q.index q.sub) 0x80 := if_pos hl
  rw [heq]
  exact ⟨⟨rfl, rfl, rfl, fun _ => rfl⟩, rfl, rfl⟩

/-- Copies erased one by one. -/
theorem foldl_eraseCopy (l : List Nat) : ∀ s : State, (l.foldl eraseCopy s).fpp = s.fpp ∧ (l.foldl eraseCopy s).bb.copyOrder = s.bb.copyOrder.filter (fun p => p ∉ l) ∧
    ∀ p, (p ∈ l ∨ tget copy0 s.bb.copies p = copy0) → tget copy0 (l.foldl eraseCopy s).bb.copies p = copy0 := by
  induction l with
  | nil => exact fun s => ⟨rfl, by simp, fun p h => h.resolve_left List.not_mem_nil⟩
  | cons a l ih =>
    intro s
    rw [List.foldl_cons]
    obtain ⟨i1, i2, i3⟩ := ih (eraseCopy s a)
    refine ⟨i1.trans rfl, ?_, fun p hp => i3 p ?_⟩
    · rw [i2]
      show (s.bb.copyOrder.filter (fun q => q ≠ a)).filter _ = _
      rw [List.filter_filter]
      refine List.filter_congr fun p _ => ?_
      simp [Bool.and_comm]
    · by_cases hpa : p = a
      · subst hpa
        exact .inr (tget_tput_same copy0 s.bb.copies p copy0)
      · exact (hp.imp (fun h => (List.mem_cons.mp h).resolve_left hpa) fun h => (tget_tput_other copy0 s.bb.copies copy0 hpa).trans h)
theorem eraseDone_erases {y : Nat} {z : Transport} (h : s.fpp.long = some (0x801101, y, z)) : ∃ t, exec .copySlotErase s = .next t ∧ t.fpp.long = none ∧
    t.bb.copyOrder = s.bb.copyOrder.filter (fun p => 4 ≤ p) ∧ ∀ p, p < 4 → tget copy0 t.bb.copies p = copy0 := by
  have hexec : exec .copySlotErase s = .next (if s.fpp.long.isSome then eraseDoneOp s else takeHead s (isWrite 0x8011 1) writeReq) := act_wf rfl
  have hop : eraseDoneOp s = longDone (eraseAll s) (keyOf 0x8011 1) 0 := by
    unfold eraseDoneOp
    rw [h]
    exact if_pos rfl
  rw [h, if_pos (by rfl), hop] at hexec
  obtain ⟨e1, e2, e3⟩ := foldl_eraseCopy (upto 4) s
  change (eraseAll s).fpp = _ at e1
  change (eraseAll s).bb.copyOrder = _ at e2
  change ∀ p, _ → tget copy0 (eraseAll s).bb.copies p = _ at e3
  generalize eraseAll s = x at hexec e1 e2 e3
  have hx : x.fpp.long = some (keyOf 0x8011 1, y, z) := by rw [e1, h]; rfl
  have hl := longDone_fppOnly x (keyOf 0x8011 1) 0
  have hend := (longDone_ends (keyOf 0x8011 1) 0 y z hx).1
  generalize longDone x (keyOf 0x8011 1) 0 = t at hexec hl hend
  have hbb : t.bb = x.bb := by rw [hl]
  refine ⟨t, hexec, hend, ?_, fun p hp => ?_⟩
  · rw [hbb, e2]
    refine List.filter_congr fun p _ => ?_
    simp [upto]
  · rw [hbb]
    exact e3 p (.inl (List.mem_range.mpr hp))

theorem commandsByWrite : Clause.CommandsByWrite := by
  intro s q r e h2
  refine ⟨fun hq hcmd hw => ?_, fun y z h => eraseDone_erases h⟩
  intro v room hcode hsess
  have hc : WriteChecked v q q.data e := ⟨hcode, hsess⟩
  have htake {i k : Nat} (hi : q.index = i) (hk : q.sub = k) : takeHead s (isWrite i k) writeReq = finishWrite v q q.data :=
    write_taken h2 hq hw (by unfold isWrite; rw [hcmd, hi, hk]; simp)
  have hstate {n : Nat} (hi : q.index = 0x1020) (hk : q.sub = 3) (hn : ofBe q.data = n) : takeHead s (stateCommand n) writeReq = finishWrite v q q.data :=
    write_taken h2 hq hw (by unfold stateCommand isWrite; rw [hcmd, hi, hk, hn, hw.2.1]; simp)
  clear_value v
  refine ⟨fun hi hk hd h7 => ?_, fun hi hk hd h7 => ?_, fun hi hk hd => ?_, fun hi hk hdev => ?_, fun i hi hk hd hi10 hpin => ?_, fun i hi hk hd hi10 hpin hu => ?_, fun hi hk => ?_, fun hr => ⟨fun hi hk hroom => ?_, fun hi hk hroom => ?_, fun hi hk hl => ?_, fun hi hk hl hl' => ?_⟩⟩
  · have hexec : exec .safeCommand s = .next _ := act_wf rfl
    rw [hstate hi hk hd] at hexec
    obtain ⟨w, hv, w1, w2, w3⟩ := stateWrite_safe h7
    obtain ⟨ha, ht⟩ := command_ends hc (by rw [hi, hk]; exact ⟨rfl, rfl, by decide⟩) (.inr (.inl (by omega))) (w := w) (by rw [hi, hk, ← hv, ← hd]; rfl) w3
    exact ⟨_, hexec, ht.dev.trans w1, by rw [ht.carts, w2], ha⟩
  · have hexec : exec .safeCommand s = .next _ := act_wf rfl
    rw [hstate hi hk hd] at hexec
    obtain ⟨w, hv, w1, w2, w3, w4⟩ := stateWrite_safeHeld h7
    obtain ⟨-, ht⟩ := command_ends hc (by rw [hi, hk]; exact ⟨rfl, rfl, by decide⟩) (.inr (.inl (by omega))) (w := w) (by rw [hi, hk, ← hv, ← hd]; rfl) w4
    exact ⟨_, hexec, ht.dev.trans w1, Eq.trans (by rw [ht.rest]) w2, by rw [ht.carts, w3]⟩
  · have hexec : exec .configCommand s = .next _ := act_wf rfl
    rw [hstate hi hk hd] at hexec
    obtain ⟨w, hv, w1, w2, w3⟩ := stateWrite_config v
    obtain ⟨ha, ht⟩ := command_ends hc (by rw [hi, hk]; exact ⟨rfl, rfl, by decide⟩) (.inr (.inl (by omega))) (w := w) (by rw [hi, hk, ← hv, ← hd]; rfl) w3
    exact ⟨_, hexec, ht.dev.trans w1, by rw [ht.carts, w2], ha⟩
  · have hexec : exec .withdraw s = .next _ := act_wf rfl
    rw [htake hi hk] at hexec
    obtain ⟨w1, w2, w3⟩ := withdrawOp_withdraws hdev
    obtain ⟨ha, ht⟩ := command_ends hc (by rw [hi, hk]; exact ⟨rfl, rfl, by decide⟩) (.inr (.inl (by omega))) (by rw [hi, hk]; rfl) w3
    exact ⟨_, hexec, ht.dev.trans w1, by rw [ht.carts, w2], ha⟩
  · have hexec : exec .resourceClaim s = .next _ := act_wf rfl
    rw [htake hi hk] at hexec
    obtain ⟨w1, w2, w3⟩ := pinSet_spec v i 108
    obtain ⟨ha, ht⟩ := command_ends hc (by rw [hi, hk]; exact ⟨rfl, rfl, by decide⟩) (.inr (.inr (by omega))) (by rw [hi, hk, ← claimWrite_pin hi10 hpin, ← hd]; rfl) w3
    exact ⟨_, hexec, by rw [ht.media, w1], fun j hj => by rw [ht.media, w2 j hj], ha⟩
  · have hexec : exec .resourceRelease s = .next _ := act_wf rfl
    rw [htake hi hk] at hexec
    obtain ⟨w1, w2, w3⟩ := pinSet_spec v i 0
    obtain ⟨ha, ht⟩ := command_ends hc (by rw [hi, hk]; exact ⟨rfl, rfl, by decide⟩) (.inr (.inr (by omega))) (by rw [hi, hk, ← releaseWrite_pin hi10 hpin hu, ← hd]; rfl) w3
    exact ⟨_, hexec, by rw [ht.media, w1], fun j hj => by rw [ht.media, w2 j hj], ha⟩
  · have hexec : exec .clearReportCounts s = .next _ := act_wf rfl
    rw [htake hi hk] at hexec
    obtain ⟨w1, w2, w3⟩ := clearReports_spec v
    obtain ⟨ha, ht⟩ := command_ends hc (by rw [hi, hk]; exact ⟨rfl, rfl, by decide⟩) (.inr (.inl (by omega))) (by rw [hi, hk]; rfl) w3
    exact ⟨_, hexec, fun c h => by rw [ht.mem, w1 c h], by rw [ht.mem, w2], ha⟩
  · have hexec : exec .manualTrigger s = .next _ := act_wf rfl
    rw [htake hi hk] at hexec
    obtain ⟨h1, h2, h3⟩ := hroom
    obtain ⟨ha, ht⟩ := command_ends hc (by rw [hi, hk]; exact ⟨rfl, rfl, by decide⟩) (.inl hr) (by rw [hi, hk]; rfl) (sameReplies_bbL0 v _ _ _ _ (show 0x0C03 < 0x10000 by decide))
    exact ⟨_, hexec, ht.intake _ (bbL0_entry h1 h2 h3), ha⟩
  · have hexec : exec .ownerNote s = .next _ := act_wf rfl
    rw [htake hi hk] at hexec
    obtain ⟨h1, h2, h3⟩ := hroom
    obtain ⟨ha, ht⟩ := command_ends hc (by rw [hi, hk]; exact ⟨rfl, rfl, by decide⟩) (.inl hr) (by rw [hi, hk]; rfl) (sameReplies_bbL0 v _ _ _ _ (show 0x0D01 < 0x10000 by decide))
    exact ⟨_, _, hexec, ht.intake _ (bbL0_entry h1 h2 h3), rfl, rfl, rfl, rfl, rfl, rfl, ha⟩
  · have hexec : exec .rearm s = .next _ := act_wf rfl
    rw [htake hi hk] at hexec
    have hlong : isLong q.index q.sub = true := by rw [hi, hk]; rfl
    obtain ⟨z1, z2, -⟩ := writeStart_spec hlong v q.data
    obtain ⟨ha, ht⟩ := longCommand_ends hc (by rw [hi, hk]; rfl) hlong (by rw [hi, hk]; decide) hr hl (w := rearmStart (writeStart v q q.data)) (by rw [hi, hk]; rfl)
      ⟨z1.out, z1.spi, z1.queues, z1.link⟩
    refine ⟨_, hexec, by rw [ht.bb]; rfl, ?_, ha⟩
    rw [ht.bb, ← z2]
    rfl
  · have hexec : exec .copySlotErase s = .next (if s.fpp.long.isSome then eraseDoneOp s else takeHead s (isWrite 0x8011 1) writeReq) := act_wf rfl
    rw [hl, if_neg (by decide), htake hi hk] at hexec
    have hlong : isLong q.index q.sub = true := by rw [hi, hk]; rfl
    obtain ⟨z1, z2, z3⟩ := writeStart_spec hlong v q.data
    obtain ⟨ha, ht⟩ := longCommand_ends hc (by rw [hi, hk]; rfl) hlong (by rw [hi, hk]; decide) hr hl' (w := writeStart v q q.data) (by rw [hi, hk]; rfl) z1
    refine ⟨_, hexec, ?_, ?_, ha⟩
    · rw [ht.fpp]
      dsimp only
      rw [z3, hi, hk]
      rfl
    · rw [ht.bb, z2]

/-- Settles O55: a write is checked and kept, and what the commands that are a write leave. -/
theorem writesAndTheirCommands : Obligations.WritesAndTheirCommands := ⟨writesAreChecked, commandsByWrite⟩

end Sys2Proof.Machine
end

section
/-! A row of L0's own memory that SELFTEST cannot repair (R331, R333, R337). -/
namespace Sys2Proof.Machine
open Sys2Proof.Config

variable {s t : State} {e : Nat}

theorem dev_errReport (s : State) (cls kind inst master detail addr : Nat) : (errReport s cls kind inst master detail addr).dev = s.dev := by
  unfold errReport errQueue
  dsimp only
  split <;> rfl
theorem dev_remapRow_none {kind inst bank row : Nat} (h : nextSpare s kind (bankKey kind inst bank) = none) : (remapRow s kind inst bank row).dev = s.dev := by
  unfold remapRow
  dsimp only
  rw [h]
  dsimp only
  split
  · rfl
  · exact dev_errReport ..
theorem nextSpare_congr {kind bk : Nat} (h : KeepsRows s t) : nextSpare t kind bk = nextSpare s kind bk := by
  unfold nextSpare
  rw [h.spares, h.spareBad]
theorem nextSpare_used {kind bk : Nat} (h : spareCount kind ≤ tget 0 s.mem.spares bk) : nextSpare s kind bk = none := by
  unfold nextSpare
  dsimp only
  rw [Nat.sub_eq_zero_of_le h]
  rfl

/-- The fuses of the field and the device state are alike in both states. -/
structure FusesKept (s t : State) : Prop where
  field : t.mem.fieldFuse = s.mem.fieldFuse
  dev : t.dev = s.dev

theorem FusesKept.trans {u : State} (h : FusesKept s t) (g : FusesKept t u) : FusesKept s u := ⟨g.field.trans h.field, g.dev.trans h.dev⟩
theorem FusesKept.foldl {α : Type} {f : State → α → State} (h : ∀ s a, FusesKept s (f s a)) (l : List α) (s : State) : FusesKept s (l.foldl f s) := by
  induction l generalizing s with
  | nil => exact ⟨rfl, rfl⟩
  | cons a l ih => exact (h s a).trans (ih _)
theorem fusesKept_applyFuse (s : State) (e : Nat) : FusesKept s (applyFuse s e) := by
  unfold applyFuse
  split <;> exact ⟨rfl, rfl⟩
theorem fusesKept_setReg (s : State) (a : Nat) (v : W32) : FusesKept s (setReg s a v) := ⟨rfl, rfl⟩
theorem fusesKept_setRegB (s : State) (a i : Nat) (b : Bool) : FusesKept s (setRegB s a i b) := ⟨rfl, rfl⟩
/-- A cluster's PLL locks. -/
def pllLocked (s : State) (k : Nat) : State := setRegB s (clPll k) 31 true
theorem lockPlls_eq (s : State) : lockPlls s = (upto s.variant.clusters).foldl pllLocked (setReg s 0x04100000 (n32 (refclkPresent.toNat * 32 + 0x1F))) := rfl
theorem fusesKept_lockPlls (s : State) : FusesKept s (lockPlls s) := by
  rw [lockPlls_eq]
  have h := fusesKept_setReg s 0x04100000 (n32 (refclkPresent.toNat * 32 + 0x1F))
  generalize setReg s 0x04100000 (n32 (refclkPresent.toNat * 32 + 0x1F)) = t at h
  exact h.trans (.foldl (fun s k => fusesKept_setRegB ..) _ _)
/-- The factory's row entries applied. -/
theorem applyFuses_field (s : State) : ∃ y, FusesKept s y ∧ applyFuses s = s.mem.fieldFuse.foldl applyFuse y := by
  unfold applyFuses
  dsimp only
  have h : FusesKept s ((upto 508).foldl (fun s i => if i < (factoryFuse 1).toNat then applyFuse s (factoryRow i) else s) s) :=
    .foldl (fun s i => by split; exacts [fusesKept_applyFuse .., ⟨rfl, rfl⟩]) _ _
  generalize (upto 508).foldl _ s = y at h
  exact ⟨y, h, by rw [h.field]⟩

/-- The fuse of bank 0 of L0's memory that moves row 9 to the bank's last spare row. -/
def lastSpareFuse : Nat := rowEntry 2 0 0 9 3
theorem applyFuse_lastSpare (y : State) : 4 ≤ tget 0 (applyFuse y lastSpareFuse).mem.spares (bankKey 2 0 0) := by
  have hn : ¬ ((!(bitN lastSpareFuse 63) || bitN lastSpareFuse 62) = true) := by decide
  have hk : bankKey (fld lastSpareFuse 58 4) (fld lastSpareFuse 51 7) (fld lastSpareFuse 44 7) = bankKey 2 0 0 := by decide
  have hs : fld lastSpareFuse 10 10 + 1 = 4 := by decide
  unfold applyFuse
  dsimp only
  rw [if_neg hn, hk, hs]
  rw [tget_tput_same]
  exact Nat.le_max_left ..

/-- SELFTEST is about to end on a device whose fuses have used the spare rows of bank 0 of L0's memory. -/
def sparesFused : State := { State.reset with dev := 1, mem := { State.reset.mem with fieldFuse := [lastSpareFuse] } }
/-- The march finds row 0 of that bank failing. -/
def l0Row : FailRow := { kind := 2, inst := 0, bank := 0, row := 0, op := 1 }

theorem selfRow_l0 (h : 4 ≤ tget 0 s.mem.spares (bankKey 2 0 0)) : (selfRow s [] l0Row).2 = [72] ∧ (selfRow s [] l0Row).1.dev = s.dev := by
  have hn : nextSpare s 2 (bankKey 2 0 0) = none := nextSpare_used h
  have heq : selfRow s [] l0Row = (remapRow (errReport s 9 2 0 105 1 (placeAddr s 2 0 (bankOff 2 0 0))) 2 0 0 0, if (nextSpare s 2 (bankKey 2 0 0)).isSome then [] else [72]) := rfl
  have hk := (errReport_keeps s 9 2 0 105 1 (placeAddr s 2 0 (bankOff 2 0 0))).2
  have hd := dev_errReport s 9 2 0 105 1 (placeAddr s 2 0 (bankOff 2 0 0))
  rw [heq, hn]
  generalize errReport s 9 2 0 105 1 (placeAddr s 2 0 (bankOff 2 0 0)) = t at hk hd
  exact ⟨rfl, (dev_remapRow_none ((nextSpare_congr hk).trans hn)).trans hd⟩
theorem selftest_l0Row : (selftestOp sparesFused { units := [], rows := [l0Row] }).dev = 1 := by
  have hstart : FusesKept sparesFused (lockPlls { sparesFused with mem := { sparesFused.mem with pendFix := sparesFused.mem.pendStored } }) :=
    ⟨(fusesKept_lockPlls _).field, (fusesKept_lockPlls _).dev⟩
  unfold selftestOp
  rw [if_neg (by decide)]
  dsimp only
  generalize lockPlls _ = x at hstart ⊢
  obtain ⟨y, hy, heq⟩ := applyFuses_field x
  rw [hstart.field] at heq
  have hf : applyFuses x = applyFuse y lastSpareFuse := heq
  have hfour := applyFuse_lastSpare y
  have hdev : (applyFuse y lastSpareFuse).dev = 1 := (fusesKept_applyFuse ..).dev.trans (hy.dev.trans hstart.dev)
  rw [hf]
  generalize applyFuse y lastSpareFuse = z at hfour hdev
  obtain ⟨h1, h2⟩ := selfRow_l0 hfour
  rw [List.foldl_cons, List.foldl_nil, h1, if_pos (by decide)]
  generalize (selfRow z [] l0Row).1 = w at h2
  have ho := (offerOnly_bbOffer w (bbEntry w 1 0xFF 0x0102 (n32 w.dev) (n32 0) (n32 0) 0)).rest
  change refusedByState w 0 0 = _ at ho
  rw [ho]
  exact h2.trans hdev

/-- Refutes O57: a failing row of L0's own memory, which is number 0 of kind 2, keeps the device in SELFTEST where its bank has no spare row left, though the
march names neither unit 72 nor a row of a memory numbered 72. -/
theorem not_resetAndBoot : ¬ Obligations.ResetAndBoot := by
  rintro ⟨-, hboot⟩
  have hops : ∀ f ∈ ({ units := [], rows := [l0Row] } : MarchFound).rows, 1 ≤ f.op ∧ f.op ≤ 10 := by decide
  obtain ⟨-, -, hself, -, -⟩ := hboot sparesFused 72 0 { units := [], rows := [l0Row] } rfl hops
  obtain ⟨t, ht, hdev, -⟩ := hself rfl rfl (by decide)
  have hexec : exec (.selftestComplete { units := [], rows := [l0Row] }) sparesFused = .next (selftestOp sparesFused { units := [], rows := [l0Row] }) := act_wf rfl
  rw [hexec] at ht
  injection ht with ht
  rw [← ht, selftest_l0Row] at hdev
  exact absurd hdev (by decide)

end Sys2Proof.Machine
end
